-- ==== Sys2Proof/Word.lean ====
section
/-! DEFINITION. The word types of the QM-EDL8128: a register is 32 bits (R446), a memory cell is a byte (R9). -/

namespace Sys2Proof

/-- A register word (R446, R449). -/
abbrev Word := BitVec 32

/-- A byte of memory (R9: multi-byte values are little-endian). -/
abbrev Byte := BitVec 8

end Sys2Proof
end

