-- ==== Sys2Proof/Syntax.lean ====
section
/-! DEFINITION. The commands of the block: one constructor of `Sys2Proof.Instr` per row of the table of operations and
events. A row is a software command (a write of a command register, a ring command, a management-port frame) or an
event the outside world or an engine of the device delivers. An operand named `t` is the DT instant (in ns) at which the
event takes place, an operand holding sampled or returned data is what the outside delivers with it; everything else a row
needs is held in the state. -/

namespace Sys2Proof

/-- A head port H0–H7 (Table 0-4). -/
abbrev Head := Fin 8
/-- A region RG0–RG3 (Table 0-4). -/
abbrev Region := Fin 4
/-- A block B0–B15 (Table 0-4). -/
abbrev Block := Fin 16
/-- An engine cell E0–E6 of a block (Table 0-4). -/
abbrev Cell := Fin 7
/-- A DRAM channel DC0–DC15 (Table 0-4). -/
abbrev Channel := Fin 16
/-- A DMA channel (R349). -/
abbrev DmaCh := Fin 64
/-- A fault source number (R369). -/
abbrev Source := Fin 64
/-- A transaction handle: handle n (1–16, R300) is written as n - 1. -/
abbrev Handle := Fin 16
/-- A supply rail of Table 16-5 (R415). -/
abbrev Rail := Fin 14

/-- A Spine link (R18, R19): one of a region's two uplinks, or the crossbar link of a chip unit, named by the fault
source of that unit (R19, R369). -/
inductive Link where
  | uplink (r : Region) (i : Fin 2)
  | chip (src : Source)
  deriving DecidableEq, Repr

/-- The two ports through which registers are reached (R446, R455). -/
inductive Port where
  | pcie
  | msp
  deriving DecidableEq, Repr

/-- What a mirror synchronisation or a leaf swap copies (R157, R226). -/
inductive CopyKind where
  | leafA | leafB | resA | resB | radA | radB
  deriving DecidableEq, Repr

/-- A timing input that R117 and R121 watch: the frame and line valid inputs of a head, a GP pin selected by a head, a
TRIG pin. -/
inductive TimingInput where
  | hfv (h : Head)
  | hlv (h : Head)
  | gp (h : Head)
  | trig (n : Fin 4)
  deriving DecidableEq, Repr

/-- What a SECDED (72,64) check of one word finds (R16). -/
inductive WordCheck where
  | ok | single | uncorrectable
  deriving DecidableEq, Repr

/-- What a pipe's reads find while it takes a quire (R256, R280): nothing, a corrected error of its line buffers or tables, an
uncorrectable one with the lines it affects, or an uncorrectable through-memory read from a DRAM channel with the frame's pixels
it affects (row × WIDTH + column) and whether the repeat fails too. -/
inductive PipeError where
  | none
  | corrected
  | lines (l : List Nat)
  | read (ch : Channel) (pixels : List Nat) (repeatFails : Bool)
  deriving DecidableEq, Repr

/-- A run of a quire that ends: the engine and, when the quire is shadowed and both its runs are done, whether the two results
agree (R238). -/
structure CellRun where
  cell : Cell
  agree : Bool
  deriving DecidableEq, Repr

/-- The table reads that fail (R154): of the residual copy or of the leaf copy, and the quire's pixels they concern. -/
structure TableRead where
  residual : Bool
  pixels : List Nat
  deriving DecidableEq, Repr

/-- An edge of a TRIGn pin (R122): the level it leads to and its instant. -/
structure PinEdge where
  level : Bool
  instant : Nat
  deriving DecidableEq, Repr

/-- A read of a radiometric set that fails (R224): its DRAM channel and whether it is a reprocess job's frame that reads. -/
structure SetRead where
  ch : Channel
  job : Bool
  deriving DecidableEq, Repr

/-- A pipe's take of its next quire (R253): what its reads find and the instant. -/
structure PipeTake where
  error : PipeError
  instant : Nat
  deriving DecidableEq, Repr

/-- A request of the DMA engine that can fail (R362): an outstanding read of a channel, a channel's descriptor fetch, the
read a BAR descriptor waits for, a request made for a ring. -/
inductive DmaReq where
  | read (id : Nat)
  | fetch (c : DmaCh)
  | bar (c : DmaCh)
  | ring (id : Nat)
  deriving DecidableEq, Repr

/-- The three fault classes (Table 0-5): corrected, uncorrected but contained, fatal. -/
inductive FaultClass where
  | ce | uc | fa
  deriving DecidableEq, Repr

/-- A report a unit sends to the fault collector (R369, R370): source, class and DETAIL word (R390). -/
structure Report where
  source : Source
  cls : FaultClass
  detail : BitVec 32
  deriving DecidableEq, Repr

/-- An activity of the Churn (R384): M1 to M10; M9 is persist or wear relocation. -/
inductive Activity where
  | m1 | m2 | m3 | m4 | m5 | m6 | m7 | m8 | m9p | m9r | m10
  deriving DecidableEq, Repr

/-- What causes RESET (R403, R453): the power-on reset, the RESET pin, a rail below its reset threshold. -/
inductive ResetCause where
  | por | pin | rail
  deriving DecidableEq, Repr

/-- What the supply monitor sees of a rail (R415): its voltage in µV, and for how many ns it has been where it is. -/
structure RailLevel where
  uv : Nat
  ns : Nat
  deriving DecidableEq, Repr

/-- A reading of a rail by the supply monitor (R415). -/
structure RailReading where
  rail : Rail
  uv : Nat
  ns : Nat
  deriving DecidableEq, Repr

/-- What starts the power-fail sequence (R417): the POWERFAIL_N pin, or a rail as the supply monitor reads it. -/
inductive PowerfailCause where
  | pin
  | rail (r : RailReading)
  deriving DecidableEq, Repr

/-- The commands of the block, in the order of the opcode table, those without operands last. -/
inductive Instr where
  /-- `SPINE_FLIT_CRC_FAIL` (R19): A Spine receiver finds a flit whose CRC-16 fails; the sender replays that flit and every later one (go-back-N), and a CE is counted under source 46. -/
  | spineFlitCrcFail (l : Link) (same : Bool)
  /-- `SPINE_LINK_FAILED` (R19): One flit fails 16 consecutive times, so the link is declared failed with a UC under source 46 and its traffic moves to the other uplink. -/
  | spineLinkFailed (l : Link)
  /-- `C3_FLOOR_WINDOW_END` (R21): A 1 µs C3 floor window ends; any floor deficit is dropped and a new window begins. -/
  | c3FloorWindowEnd (l : Link) (t : Nat)
  /-- `COLLATOR_LINE_PLACED` (R136): The Collator places a completed line of sample words in raster order: it splits off blind and reference data, forms blind records and fills quire lines, or drops the line when the FIFO is full. -/
  | collatorLinePlaced (h : Head) (line : Nat) (cycles : List (List Int)) (t : Nat)
  /-- `QUIRE_SLOT_WRITE` (R25): A quire held in the Collator FIFO is written into a block slot once a slot becomes free. -/
  | quireSlotWrite (r : Region) (t : Nat)
  /-- `QUIRE_DISPATCH` (R26): The region scheduler assigns a ready quire to an idle in-service engine of its own block, or of another block of the region. -/
  | quireDispatch (r : Region) (t : Nat)
  /-- `QUIRE_FINISHED` (R159): An engine finishes the standard correction, recipes and substitution of every own pixel of a quire. -/
  | quireFinished (b : Block) (c : CellRun)
  /-- `QUIRE_COMMIT` (R183): A finished quire whose earlier quires have all committed delivers its words to the in-line pipe or to DRAM and frees its slot; when it is the LAST quire, its frame is complete. -/
  | quireCommit (h : Head) (t : Nat)
  /-- `RESIDUE_MISMATCH` (R180): A mod-7 residue check fails in an engine lane; the instruction group is retried up to 2 times, and if both retries fail the engine is retired and the quire is replayed. -/
  | residueMismatch (b : Block) (c : Cell) (retryOk : Bool)
  /-- `QUIRE_TIMEOUT` (R185): A quire is not finished within QTMO µs of its dispatch, so its engine is retired with a UC and the quire is replayed. -/
  | quireTimeout (b : Block) (c : Cell) (t : Nat)
  /-- `SRAM_SECDED_ERROR` (R181): A quire-slot SRAM word read shows a single-bit error, which is corrected, or an uncorrectable error, which makes its pixels substitution candidates. -/
  | sramSecdedError (b : Block) (slot : Fin 8) (off : Nat) (uncorrectable : Bool)
  /-- `LEAF_READ_UE` (R154): A leaf or residual read returns an uncorrectable error; it is repeated once from the mirror, or its pixels are treated as bad with a UC. -/
  | leafReadUe (b : Block) (c : Cell) (ch : Channel) (r : TableRead) (repeatFails : Bool)
  /-- `PLAN_EVAL` (R36): SYS_PLAN_CMD.EVAL requests an evaluation of the configuration in force, or of a handle's staged entries, without changing anything. -/
  | planEval (v : Word)
  /-- `PLAN_REPLAN` (R39): SYS_PLAN_CMD.REPLAN requests a re-plan of the configuration in force in ascending head order with limit L. -/
  | planReplan (v : Word)
  /-- `PLAN_LIMIT_WRITE` (R33): A write of SYS_PLAN_LIMIT stores L, with any value above 8,500 stored as 8,500. -/
  | planLimitWrite (v : Word)
  /-- `PROFILE_VALIDATE` (R46): HP_CMD.PVAL starts validation of the profile in HP_PROF; it is ignored while PVBUSY = 1 and reports BUSY while the head streams. -/
  | profileValidate (h : Head)
  /-- `PROFILE_VALIDATION_DONE` (R46): Profile validation finishes within 20 µs: PSTAT is set, a VALID image becomes the active profile, and gains and bias codes are re-clamped or cleared. -/
  | profileValidationDone (h : Head)
  /-- `HP_BIAS_WRITE` (R51): A direct write of HP_BIAS stores the bias codes clamped to the profile limits, or is refused in RUN and THROTTLED. -/
  | hpBiasWrite (h : Head) (v : Word)
  /-- `HP_CTRL_WRITE` (R53): A write of HP_CTRL enables or disables the port drivers, bias, head supply, shutter, thermistor and tests. -/
  | hpCtrlWrite (h : Head) (v : Word)
  /-- `HSUP_RAMP_DONE` (R53): The 1 ms soft start of HSUP ends and the supply reads ON. -/
  | hsupRampDone (h : Head) (t : Nat)
  /-- `HSUP_SHORT_DISCONNECT` (R55): The HSUP current limit has been active for 2 ms, so the supply disconnects; the first disconnect raises a UC, zeroes the DACs and holds the head, and the third failed retry gives LOCKOUT. -/
  | hsupShortDisconnect (h : Head) (t : Nat)
  /-- `HSUP_REVERSE_DISCONNECT` (R55): Reverse voltage or back-feed on HSUP disconnects the supply within 10 µs with no retry. -/
  | hsupReverseDisconnect (h : Head) (t : Nat)
  /-- `HSUP_RETRY_START` (R53): 100 ms after a short disconnect, the supply starts another soft start. -/
  | hsupRetryStart (h : Head) (t : Nat)
  /-- `HSUP_RETRY_COUNT_RESET` (R53): HSUP has stayed ON for 10 s, so the retry count is reset. -/
  | hsupRetryCountReset (h : Head) (t : Nat)
  /-- `HSUP_RETRY` (R56): HP_CMD.HSUP_RETRY starts one soft start and clears the retry count after a lockout or a reverse disconnect. -/
  | hsupRetry (h : Head)
  /-- `RESUME` (R56): HP_CMD.RESUME returns the bias DACs to their stored codes at slew, and ends HELD at the next frame start when the supply is ON. -/
  | resume (h : Head)
  /-- `DAC_OVERCURRENT` (R70): A bias DAC has been at its 20 mA limit for 1 ms, so both DACs go to 0 V, the head is HELD and a UC is raised. -/
  | dacOvercurrent (h : Head)
  /-- `SHUT_CLOSE` (R60): HP_CMD.SHUT_CLOSE in SETUP starts a close drive, or waits while a drive runs. -/
  | shutClose (h : Head)
  /-- `SHUT_OPEN` (R60): HP_CMD.SHUT_OPEN in SETUP starts an open drive, or waits while a drive runs. -/
  | shutOpen (h : Head)
  /-- `SHUTTER_DRIVE_START` (R57): A shutter drive starts when SHUT_EN, SHUT_TYPE and VSHUT allow it; otherwise it is refused with SHUT_NOVSHUT. -/
  | shutterDriveStart (h : Head) (vshut : Nat) (t : Nat)
  /-- `SHUTTER_PULSE_END` (R57): The SHUT_PULSE drive pulse ends, leaving the bridge undriven or holding it under PWM. -/
  | shutterPulseEnd (h : Head) (t : Nat)
  /-- `SHUTTER_POSITION_INPUT` (R58): SHPOS0 or SHPOS1 changes, and the shutter position is updated to CLOSED, OPEN or UNKNOWN. -/
  | shutterPositionInput (h : Head) (p0 p1 : Bool) (t : Nat)
  /-- `SHUTTER_POS_TIMEOUT` (R58): A drive has ended without the target position being reported within SHUT_POSTMO, so SHUT_POS is set with a CE. -/
  | shutterPosTimeout (h : Head) (t : Nat)
  /-- `SHUTTER_COIL_OPEN` (R59): The coil current is below 10 mA 1 ms after the drive starts, so the drive stops with a UC. -/
  | shutterCoilOpen (h : Head)
  /-- `SHUTTER_COIL_SHORT` (R59): The coil current has been at the 300 mA limit for 100 µs, so the bridge goes to high impedance with a UC. -/
  | shutterCoilShort (h : Head)
  /-- `GO` (R65): HCP_CMD.GO starts an HCP transfer of HCP_LEN bits, or is refused with BUSY_REFUSED, CHAIN or NO_PORT. -/
  | hcpGo (h : Head)
  /-- `ABORT` (R65): HCP_CMD.ABORT stops the running transfer after the current bit, with ERR = ABORTED. -/
  | hcpAbort (h : Head)
  /-- `HCP_TRANSFER_DONE` (R65): An HCP transfer ends: its last bit is captured, the prefix is checked, and ERR and RXCOUNT are set. -/
  | hcpTransferDone (h : Head) (rx : List Bool) (extra : Bool)
  /-- `STROBE_SHORT` (R65): Fewer than HCP_LEN HSTB transitions arrive within HCP_LEN + 64 HCK edges, so the transfer ends with STROBE_SHORT. -/
  | strobeShort (h : Head) (rx : List Bool)
  /-- `GP_SET_WRITE` (R67): A write of GP_SET0/1 sets GP_OUT bits. -/
  | gpSetWrite (i : Fin 2) (v : Word)
  /-- `GP_CLR_WRITE` (R67): A write of GP_CLR0/1 clears GP_OUT bits. -/
  | gpClrWrite (i : Fin 2) (v : Word)
  /-- `VBLANK_START` (R108): The last sample cycle of a frame's last line ends and vertical blanking begins; the open test runs or is skipped, and the polarity and short checks of the frame are made. -/
  | vblankStart (h : Head) (t : Nat)
  /-- `TAP_OPEN_TEST_DONE` (R71): The 20 µs open-test injection ends, and each tap's code movement is judged open or connected. -/
  | tapOpenTestDone (h : Head) (moves : List Nat)
  /-- `TC_CFG_WRITE` (R85): A direct write of TC_CFG sets the ratio, filter and background trim, subject to R83, and is refused in RUN and THROTTLED. -/
  | tcCfgWrite (h : Head) (v : Word)
  /-- `TC_GAIN_WRITE` (R83): A direct write of TC_GAIN0 or TC_GAIN1 sets the gain codes, or is refused for a reserved code or an excessive high gain. -/
  | tcGainWrite (h : Head) (i : Fin 2) (v : Word)
  /-- `PGA_FILTER_CHANGE` (R85): The PGA and filter settings of a transaction switch 16 sample clocks before the first sample cycle of frame k+SETLAT. -/
  | pgaFilterChange (h : Head) (t : Nat)
  /-- `TC_SCLK_WRITE` (R86): A write of TC_SCLK in SETUP sets the region synthesiser frequency and source, and lock is cleared. -/
  | tcSclkWrite (r : Region) (v : Word)
  /-- `SCLK_LOCKED` (R86): The region synthesiser locks within 500 µs, and heads held for loss of lock leave HELD at their next frame start. -/
  | sclkLocked (r : Region)
  /-- `SCLK_LOCK_LOST` (R87): The sample clock loses lock in RUN or THROTTLED, raising a UC under source 53 and holding both heads of the region. -/
  | sclkLockLost (r : Region)
  /-- `SCLK_FALLBACK` (R88): The ring recovered clock is lost with SRC = 1, so the synthesiser moves to REF within 1 µs and a CE is raised. -/
  | sclkFallback (r : Region)
  /-- `TC_REFCFG_WRITE` (R89): A write of TC_REFCFG.SRC in SETUP selects the conversion reference and clears REFOK. -/
  | tcRefcfgWrite (r : Region) (v : Word)
  /-- `REFOK_SET` (R89): The selected reference has settled, so REFOK sets and invalid-sample marking ends. -/
  | refokSet (r : Region) (t : Nat)
  /-- `REF_FALLBACK` (R90): REFINr has been outside its window for 10 µs, so the region switches to the internal reference with a UC and frames become DEGRADED. -/
  | refFallback (r : Region)
  /-- `SELFCAL` (R98): TC_CMD.SELFCAL starts a bank calibration in SETUP, or requests activity M2 in RUN and THROTTLED. -/
  | selfcal (r : Region)
  /-- `BANK_CAL_START` (R99): A granted or commanded bank calibration starts pass A at the next frame start, or when REFOK sets. -/
  | bankCalStart (r : Region) (t : Nat)
  /-- `CAL_PASS_DONE` (R94): A 19 ms calibration pass ends, and the next pass or the checks begin. -/
  | calPassDone (r : Region) (factors : List (List Int)) (t : Nat)
  /-- `CAL_END` (R96): The cell and bank checks of a pass pair are done: factors are adopted, a repeat is started, or the result is FAILED, and the outcome is persisted. -/
  | calEnd (r : Region) (t : Nat)
  /-- `BGTRIM_MEASURE` (R103): In line blanking, a 12-clock background trim measurement of one converter ends and updates words 0–9 or rejects them. -/
  | bgtrimMeasure (h : Head) (words : List Int)
  /-- `FRAME_START` (R107): A frame of a head starts from the internal timer or an accepted start; sequence, stamps, swaps, parameter switches, HELD release, decimation and per-frame terms take effect. -/
  | frameStart (h : Head) (t : Nat)
  /-- `FRAME_START_PENDING` (R109): A pending external start begins its frame once the source instant has passed and the minimum blanking is done. -/
  | frameStartPending (h : Head) (t : Nat)
  /-- `LINE_START` (R48): In device-timed operation a line period begins: HLS and HINT are driven and the sample cycles follow PIXDLY. -/
  | lineStart (h : Head) (t : Nat)
  /-- `RING_MARK_RECEIVED` (R126): A MARK character is received; its effect instant is computed, lost marks are counted, and a late mark takes effect at once. -/
  | ringMarkReceived (stream : Fin 8) (seq : Fin 32) (t : Nat)
  /-- `MARK_EFFECT` (R126): A mark's effect instant arrives, giving a pending frame start for heads that follow the stream. -/
  | markEffect (stream : Fin 8) (seq : Fin 32) (t : Nat)
  /-- `RING_TRIG_RECEIVED` (R122): A TRIG character of ring trigger stream n is received and filtered as a TRIGn event. -/
  | ringTrigReceived (stream : Fin 4) (seq : Fin 32) (t : Nat)
  /-- `TRIG_PIN_EDGE` (R122): An active edge on a TRIGn pin is stamped, filtered under the hold-off, and accepted or counted as OVR. -/
  | trigPinEdge (n : Fin 4) (e : PinEdge)
  /-- `GP_FRAME_EDGE` (R107): An active edge on a GP pin used as a frame source is stamped and accepted as a pending start, or counted as OVERRUN. -/
  | gpFrameEdge (pin : Fin 64) (level : Bool) (t : Nat)
  /-- `HFV_RISE` (R110): A rising edge of HFV starts a frame, or is ignored as OVERRUN inside the hold-off. -/
  | hfvRise (h : Head) (t : Nat)
  /-- `HFV_FALL` (R110): HFV falls, ending the frame as complete or short and clearing a live stuck condition. -/
  | hfvFall (h : Head) (t : Nat)
  /-- `HLV_RISE` (R110): A rising edge of HLV inside HFV starts a line, counts an excess line, or is refused; it abandons a background trim measurement. -/
  | hlvRise (h : Head) (t : Nat)
  /-- `INPUT_STUCK` (R120): A timing input has been active for twice its expected period, so it is declared STUCK with a CE; a stuck HFV closes its frame as long. -/
  | inputStuck (i : TimingInput) (t : Nat)
  /-- `HELD_SLOT_DUE` (R117): No frame start has been accepted within 2 × FPER, so a HELD slot repeating the last good frame is emitted; the first of a run sets SRC_LOST with a CE. -/
  | heldSlotDue (h : Head) (t : Nat)
  /-- `PAIR_LO_READ` (R451): A read of the _LO word of a 64-bit pair returns the low word and latches the whole value into the port's shadow. -/
  | pairLoRead (p : Port) (addr : Nat) (be : Fin 16)
  /-- `PAIR_HI_READ` (R451): A read of the _HI word returns the shadowed high word and sets OVW when the value has been replaced since the latch. -/
  | pairHiRead (p : Port) (addr : Nat) (be : Fin 16)
  /-- `PAIR_LO_WRITE` (R451): A write of the _LO word of a writable pair is held in the port's write shadow. -/
  | pairLoWrite (p : Port) (addr : Nat) (be : Fin 16) (v : Word)
  /-- `PAIR_HI_WRITE` (R451): A write of the _HI word applies both words of the pair at once. -/
  | pairHiWrite (p : Port) (addr : Nat) (be : Fin 16) (v : Word)
  /-- `RING_TIME_PACKET` (R128): A valid TIME packet is received: the hop index is updated and DT discipline sets or steers TAIOFF. -/
  | ringTimePacket (bytes : List Byte) (t : Nat)
  /-- `DT_DISCIPLINE_TIMEOUT` (R128): No valid TIME packet has arrived for 10 ms, so LOCKED clears and DT free-runs. -/
  | dtDisciplineTimeout (t : Nat)
  /-- `RING_MSG_RECEIVED` (R132): A MSG packet addressed to this node is copied into the receive FIFO with ACK set, or counted as RXOVF. -/
  | ringMsgReceived (bytes : List Byte)
  /-- `MSG_INSERT` (R132): A queued message is inserted onto the ring at the next packet boundary. -/
  | msgInsert (t : Nat)
  /-- `MSG_RETURNED` (R132): The device's own message returns; it is removed and TXRESULT reads ACKED or NOACK. -/
  | msgReturned (bytes : List Byte)
  /-- `MSG_LOST_TIMEOUT` (R132): A sent message has not returned within 100 µs, so TXRESULT reads LOST. -/
  | msgLostTimeout (t : Nat)
  /-- `RING_SELFTEST_DONE` (R133): The path self-test ends: it passes and the transmitter starts, or it fails with PATHFAIL and a UC. -/
  | ringSelftestDone (pass : Bool)
  /-- `RING_DISABLE` (R133): Clearing TRG_CTRL.EN drives RING_HOLD low at once. -/
  | ringDisable (t : Nat)
  /-- `RING_TX_OFF` (R133): 10 µs after RING_HOLD drops, the ring transmitter stops. -/
  | ringTxOff (t : Nat)
  /-- `HP_TSTAT_CLRCNT` (R135): HP_TSTAT.CLRCNT clears HP_TCNT0–2. -/
  | hpTstatClrcnt (h : Head)
  /-- `CL_HMIR_WRITE` (R153): Setting a CL_HMIR bit with a valid mirror base starts a C2 copy of the primary and write mirroring; a bad base leaves the bit 0 with BAD_BASE. -/
  | clHmirWrite (h : Head) (v : Word)
  /-- `MSYNC` (R153): CL_HCMD.MSYNC, or FP_RCMD.MSYNC, restarts the mirror copy of every enabled copy. -/
  | msync (h : Head) (radiometric : Bool)
  /-- `MIRROR_COPY_DONE` (R153): The initial copy of a primary into its mirror completes and MIRSYNC sets. -/
  | mirrorCopyDone (h : Head) (k : CopyKind)
  /-- `LSWAP` (R156): CL_HCMD.LSWAP in SETUP checks the other leaf copy and brings it into use, or refuses. -/
  | lswap (h : Head)
  /-- `RSWAP` (R156): CL_HCMD.RSWAP in SETUP checks the other residual copy and brings it into use, or refuses. -/
  | rswap (h : Head)
  /-- `CL_CLRCNT` (R158): CL_CTRL.CLRCNT clears CL_CNT, CL_HCNT and FIFOMAX. -/
  | clClrcnt (r : Region)
  /-- `CX_CLRCNT` (R187): CX_CTRL.CLRCNT clears CX_RCNT, TMOCNT and CX_HCNT. -/
  | cxClrcnt (r : Region)
  /-- `SHREQ` (R188): CX_SCMD.SHREQ requests a shutter event, which is accepted as PENDING, merged, or ended at once with a refusal result. -/
  | shreq (h : Head)
  /-- `SHUTTER_SCHEDULE_DUE` (R188): PERIOD minutes have passed since the head's last event, so the schedule requests a shutter event. -/
  | shutterScheduleDue (h : Head) (t : Nat)
  /-- `CANCEL` (R200): CX_SCMD.CANCEL ends a pending or running shutter event with ABORTED. -/
  | shutterCancel (h : Head)
  /-- `REFIT` (R206): CX_SCMD.REFIT requests a drift refit as activity M4. -/
  | refit (h : Head)
  /-- `BRESET` (R203): CX_SCMD.BRESET makes BREF take the B of the next refresh frame. -/
  | breset (h : Head)
  /-- `QUIET_WINDOW_ARM` (R191): A write of CX_SQLEN arms a quiet window from CX_SQST, replaces the armed window, or disarms it. -/
  | quietWindowArm (h : Head) (v : Word)
  /-- `QUIET_WINDOW_END` (R191): The armed quiet window ends and is disarmed. -/
  | quietWindowEnd (h : Head) (t : Nat)
  /-- `SHUTTER_EVENT_START` (R190): At a frame start where M3 is granted, the quiet window holds and the bases check, the close drive starts; a base failure ends with BAD_BASE. -/
  | shutterEventStart (h : Head) (t : Nat)
  /-- `SHUTTER_DEADLINE` (R190): The deadline window has passed, so the event starts regardless of the quiet window, or ends with DEADLINE. -/
  | shutterDeadline (h : Head) (t : Nat)
  /-- `SHUTTER_APPLY_DONE` (R198): The APPLY writes of the new leaf copy, residual copy and history plane complete. -/
  | shutterApplyDone (h : Head)
  /-- `SHUTTER_EVENT_TIMEOUT` (R200): No pair has been accepted within SETTLE + 8N + 64 frame slots, so the event ends with TIMEOUT and a CE. -/
  | shutterEventTimeout (h : Head)
  /-- `REFIT_START` (R206): A granted M4 begins the least-squares refit on idle engine time. -/
  | refitStart (h : Head)
  /-- `REFIT_COMPUTE_DONE` (R209): The refit computation ends: it finds FEW_PLANES or IMPLAUSIBLE, or requests M5 to write the inactive leaf copy. -/
  | refitComputeDone (h : Head)
  /-- `REFIT_WRITES_DONE` (R209): The refit's leaf writes complete, and the leaf copy swaps at the next frame start. -/
  | refitWritesDone (h : Head)
  /-- `SWAP` (R225): FP_RCMD.SWAP in SETUP checks the other radiometric set copy and brings it into use, or refuses. -/
  | fpSwap (h : Head)
  /-- `RADIOMETRIC_SET_READ_UE` (R224): A radiometric set read fails uncorrectably; it is repeated, and if the repeat also fails the frame's temperatures read 0, DEGRADED is set and a UC is raised. -/
  | radiometricSetReadUe (h : Head) (r : SetRead) (repeatFails : Bool)
  /-- `LOAD` (R234): EN_MCMD.LOAD checks the microcode header and begins loading the inactive bank of the named blocks in order. -/
  | mcLoad (v : Word)
  /-- `MICROCODE_BLOCK_LOAD_DONE` (R234): The copy into one block's inactive bank ends and its signature is verified; the cells switch, or the load ends with a failure. -/
  | microcodeBlockLoadDone (b : Block)
  /-- `SHADOW_THIRD_RUN_DONE` (R239): The third run of a mismatched quire ends; the majority is committed and the minority retired, or the check stops. -/
  | shadowThirdRunDone (b : Block) (target shadow third : List Word)
  /-- `SPARE_ROTATION` (R238): After COUNT agreeing quires, at the target's next quire boundary the shadow cell enters service and the target becomes the spare. -/
  | spareRotation (b : Block)
  /-- `UNRETIRE` (R240): EN_BCMD.UNRETIRE in SETUP starts the lane test of the named retired cells. -/
  | unretire (b : Block) (mask : BitVec 7)
  /-- `UNRETIRE_TEST_DONE` (R240): A 5 ms lane test ends; the cell returns to service or as spare, or sets UTFAIL. -/
  | unretireTestDone (b : Block) (c : Cell) (pass : Bool)
  /-- `EN_CLRCNT` (R250): EN_BCMD.CLRCNT clears EN_BCNT and the EN_SHSTAT counters. -/
  | enClrcnt (b : Block)
  /-- `RECIPE_LOAD` (R245): EN_RCMD.LOAD checks the slot image at EN_RBASE and starts copying it into every block's recipe area. -/
  | recipeLoad (slot : Fin 8)
  /-- `PIPE_QUIRE_TAKE` (R253): At a quire boundary the pipe takes the next ready quire, switching context if needed, and runs radiometry, statistics, alarms and formatters on it. -/
  | pipeQuireTake (r : Region) (p : PipeTake)
  /-- `FRAME_COMPLETE_REPORT` (R270): Every kind written for a frame is visible in DRAM, so the frame is reported complete, its statistics record is released, and delivery offers begin. -/
  | frameCompleteReport (h : Head) (t : Nat)
  /-- `FP_CLRCNT` (R281): FP_CTRL.CLRCNT clears SWITCH and the FP_HCNT of both heads. -/
  | fpClrcnt (r : Region)
  /-- `TX_CFG_WRITE` (R279): A write of TX_CFG in SETUP configures the port; setting EN runs the load check. -/
  | txCfgWrite (p : Fin 4) (v : Word)
  /-- `TX_CLRCNT` (R282): TX_CFG.CLRCNT clears TX_CNT0 and TX_CNT1. -/
  | txClrcnt (p : Fin 4)
  /-- `CSI_FRAME_START` (R276): A stream starts sending a complete waiting frame when its turn comes. -/
  | csiFrameStart (p : Fin 4)
  /-- `CSI_PACKET_SEND` (R275): A stream sends its next packet in round-robin order. -/
  | csiPacketSend (p : Fin 4) (late : Bool)
  /-- `MONITOR_SAMPLE` (R295): A monitor takes a sample from its source and updates its minimum, maximum, count and bins. -/
  | monitorSample (n : Fin 32) (v : Int) (t : Nat)
  /-- `MON_SNAP` (R297): A write of MON_SNAP takes a snapshot of the named monitors. -/
  | monSnap (mask : Word) (t : Nat)
  /-- `MON_CLR` (R297): A write of MON_CLR clears the live values of the named monitors. -/
  | monClr (mask : Word)
  /-- `MON_PER_WRITE` (R297): A write of MON_PER sets the period and anchors the snapshot windows. -/
  | monPerWrite (v : Word) (t : Nat)
  /-- `MONITOR_PERIOD_END` (R297): A period window ends; every enabled monitor is snapshotted, cleared, and optionally written as a record. -/
  | monitorPeriodEnd (t : Nat)
  /-- `MON_CFG_WRITE` (R299): A write of MON_CFG or MON_BLO configures a monitor and clears its live values, or is refused. -/
  | monCfgWrite (n : Fin 32) (blo : Bool) (v : Word)
  /-- `OPEN` (R301): TXN_CMD.OPEN takes the lowest FREE handle, or reports NONE_FREE. -/
  | txnOpen (p : Port)
  /-- `TXN_STAGE` (R302): A write of TXN_SVAL appends an entry to the named OPEN handle, or is refused. -/
  | txnStage (v : Word)
  /-- `COMMIT` (R305): TXN_CMD.COMMIT checks the handle's transaction as a whole, then sets its boundary, or leaves it OPEN with a result. -/
  | txnCommit (n : Fin 32) (t : Nat)
  /-- `ROLLBACK` (R314): TXN_CMD.ROLLBACK discards an OPEN or COMMITTED handle's entries and frees it. -/
  | txnRollback (n : Fin 32)
  /-- `TXN_HEAD_WRITES_START` (R308): At the start of the vertical blanking before frame k, a transaction takes HCPh ownership and runs its head-side entries. -/
  | txnHeadWritesStart (n : Handle) (h : Head) (t : Nat)
  /-- `TXN_HEAD_WRITE_FAIL` (R312): A transaction head write fails or is unfinished in time; nothing device-side changes and the undo begins. -/
  | txnHeadWriteFail (n : Handle) (h : Head)
  /-- `TXN_UNDO_DONE` (R312): The undo entries and the HP_BIAS and GP restores finish, or an undo transfer fails with UNDO_FAILED. -/
  | txnUndoDone (n : Handle) (ok : Bool)
  /-- `TXN_DEADLINE` (R307): No listed head's blanking before frame k has begun within DLMS ms, so the transaction ends with DEADLINE. -/
  | txnDeadline (n : Handle) (t : Nat)
  /-- `Q_FRANGE_WRITE` (R320): A write of Q_FRANGEf assigns a ring range to a function, or is refused with VALUE_REJ. -/
  | qFrangeWrite (f : Fin 32) (v : Word)
  /-- `DOORBELL` (R329): A BAR2 doorbell write updates a ring's tail or consumer index, or is discarded, or halts the ring. -/
  | doorbell (f : Fin 32) (off : Nat) (size : Nat) (v : Nat)
  /-- `SUBMISSION_FETCH` (R327): The device fetches up to 8 descriptors from CIDX toward the tail, and halts the ring on OWN = 0. -/
  | submissionFetch (ring : Nat) (descs : List (List Byte))
  /-- `NOP` (R332): A NOP command completes at once. -/
  | cmdNop (ring : Nat) (t : Nat)
  /-- `SETTINGS_OPEN` (R332): A SETTINGS command with OP OPEN opens a handle. -/
  | settingsOpen (ring : Nat) (t : Nat)
  /-- `SETTINGS_STAGE` (R332): A SETTINGS command with OP STAGE appends up to four entries to a handle. -/
  | settingsStage (ring : Nat) (t : Nat)
  /-- `SETTINGS_COMMIT` (R332): A SETTINGS command with OP COMMIT commits a handle with the given CCFG. -/
  | settingsCommit (ring : Nat) (t : Nat)
  /-- `SETTINGS_ROLLBACK` (R332): A SETTINGS command with OP ROLLBACK rolls a handle back. -/
  | settingsRollback (ring : Nat) (t : Nat)
  /-- `SHUTTER_REQUEST` (R332): A SHUTTER command with OP request requests a shutter event, completing when the event ends. -/
  | shutterRequest (ring : Nat) (t : Nat)
  /-- `SHUTTER_CANCEL` (R332): A SHUTTER command with OP cancel cancels the head's event. -/
  | cmdShutterCancel (ring : Nat) (t : Nat)
  /-- `SHUTTER_REFIT` (R332): A SHUTTER command with OP refit requests a drift refit. -/
  | cmdShutterRefit (ring : Nat) (t : Nat)
  /-- `TABLE_SWAP` (R156): A TABLE_SWAP command requests M5 to swap a head's leaf, residual or radiometric set, completing when it takes effect or is refused. -/
  | tableSwap (ring : Nat) (t : Nat)
  /-- `MICROCODE` (R236): A MICROCODE command starts a microcode load for the named blocks. -/
  | microcode (ring : Nat) (t : Nat)
  /-- `DMA_COPY` (R350): A DMA_COPY command passes one descriptor to a command channel. -/
  | dmaCopy (ring : Nat) (t : Nat)
  /-- `REPROCESS` (R341): A REPROCESS command queues a reprocessing job after the planner admits it, or refuses it. -/
  | reprocess (ring : Nat) (t : Nat)
  /-- `REPROCESS_FRAME_DONE` (R341): One job frame is corrected, finished and delivered to the job ring; the last frame completes the job. -/
  | reprocessFrameDone (input : Option (List Byte)) (t : Nat)
  /-- `COMPLETION_POST` (R328): A completion record is posted once its completion ring has room, and fetching resumes on submission rings that were blocked by it. -/
  | completionPost (cq : Nat) (t : Nat)
  /-- `DELIVERY_COPY_DONE` (R334): Every byte of a frame copy has been written, so the FRAME record, preceded by any GAP record, is posted. -/
  | deliveryCopyDone (ring : Nat) (t : Nat)
  /-- `WAITING_FRAME_DELIVERY` (R337): A delivery slot frees and a waiting frame (IN_ORDER) or the newest frame (LATEST) is delivered, with a gap for the frames passed over. -/
  | waitingFrameDelivery (ring : Nat) (t : Nat)
  /-- `EVENT_RECORD_POST` (R328): An event, alarm or fault record is posted to an event ring, or lost and counted with a later LOST record. -/
  | eventRecordPost (ring : Nat) (t : Nat)
  /-- `MSIX_MODERATION_TIMEOUT` (R331): The MODUS moderation window of a ring ends, and its MSI-X message is sent. -/
  | msixModerationTimeout (ring : Nat) (t : Nat)
  /-- `C0_SUSPEND` (R338): A condition of the C0 bound fails, so a SUSPEND record is posted to every enabled C0 ring. -/
  | c0Suspend (reason : BitVec 5) (t : Nat)
  /-- `C0_RESUME` (R338): All C0 conditions have held again for 1 ms, so a RESUME record is posted. -/
  | c0Resume (t : Nat)
  /-- `PCIE_LINK_DOWN` (R343): The PCIe link leaves L0: a UC is raised, records queue, and delivery takes LINK_DOWN gaps. -/
  | pcieLinkDown (t : Nat)
  /-- `PCIE_LINK_UP` (R343): The link returns to L0, so a LINK record is posted and posting resumes in order. -/
  | pcieLinkUp (speed : Fin 8) (width : Fin 32) (t : Nat)
  /-- `BUS_MASTER_CHANGE` (R343): Bus mastering of the PF is cleared or set, which stops or resumes posting as a link loss does. -/
  | busMasterChange (f : Fin 32) (on : Bool) (t : Nat)
  /-- `PCIE_ERROR` (R318): A PCIe correctable or uncorrectable error is detected and reported under source 44 and through AER. -/
  | pcieError (uncorrectable : Bool)
  /-- `VF_FLR` (R344): An FLR of a VF disables only that VF's rings. -/
  | vfFlr (f : Fin 32)
  /-- `FUNCTION_D3HOT` (R344): A function enters D3hot, which acts on its rings as cleared bus mastering does. -/
  | functionD3hot (f : Fin 32) (enter : Bool)
  /-- `BAR4_WRITE` (R319): A BAR4 write is written to device DRAM at C2, discarding bytes in protected ranges and setting PROT_WR. -/
  | bar4Write (off : Nat) (bytes : List (Option Byte))
  /-- `BAR4_READ` (R319): A BAR4 read returns DRAM data, all ones, or a poisoned completion with a UC on an uncorrectable error. -/
  | bar4Read (off len : Nat) (ue : Option Channel)
  /-- `DMA_CH_TAIL_WRITE` (R351): A write of DMA_CH_TAIL sets the channel tail, stops the channel with BAD_TAIL, or only stores TAIL under SWPACE. -/
  | dmaChTailWrite (c : DmaCh) (v : Word)
  /-- `DMA_CH_CFG_WRITE` (R352): A write of DMA_CH_CFG enables, reconfigures or disables a channel after its checks. -/
  | dmaChCfgWrite (c : DmaCh) (v : Word)
  /-- `DMA_CH_STOP` (R352): DMA_CH_CMD.STOP stops the channel after the current descriptor with ERR = STOPPED. -/
  | dmaChStop (c : DmaCh)
  /-- `DMA_CH_RESUME` (R351): DMA_CH_CMD.RESUME restarts a stopped channel at its CIDX. -/
  | dmaChResume (c : DmaCh)
  /-- `DMA_CH_START` (R354): DMA_CH_CMD.START runs a SWPACE channel's descriptors up to TAIL at full speed. -/
  | dmaChStart (c : DmaCh)
  /-- `DMA_DESC_FETCH` (R351): A ring channel fetches up to 8 descriptors and checks OWN and the descriptor fields. -/
  | dmaDescFetch (c : DmaCh) (descs : List (List Byte))
  /-- `DMA_READ_ISSUE` (R353): The engine grants and issues a read of at most 512 B when the budget and arbitration allow. -/
  | dmaReadIssue (t : Nat)
  /-- `DMA_READ_COMPLETION` (R356): Read data returns and the funnel writes it, in stream order, to the destination. -/
  | dmaReadCompletion (id : Nat) (data : List Byte) (ecc : Option Channel)
  /-- `DMA_PACING_WINDOW` (R353): A 1 µs pacing window begins, and each channel's budget is renewed. -/
  | dmaPacingWindow (t : Nat)
  /-- `DMA_WRITEBACK` (R360): A descriptor completes: its status is written back, after visibility when BAR is set, and INT signals the vector. -/
  | dmaWriteback (c : DmaCh)
  /-- `DMA_HALT` (R362): A request fails, so the whole engine halts, a UC is raised under source 45, and outstanding reads are drained. -/
  | dmaHalt (q : DmaReq) (link : Bool) (data : List Byte)
  /-- `FAULT_REPORT` (R370): The collector takes a unit's report: it judges dependence, escalates, latches, counts, logs, posts, and runs the FA reaction. -/
  | faultReport (unit : Option Report) (t : Nat)
  /-- `DEP_WINDOW_END` (R389): A root's last dependency window ends; a DEPSUM record is written, and the root may settle. -/
  | depWindowEnd (src : Source) (t : Nat)
  /-- `DEP_ROOT_SETTLED` (R377): A root settles, so each dependent source still live is recorded as a report of its own. -/
  | depRootSettled (src : Source) (t : Nat)
  /-- `FAULT_CLEAR` (R372): A write of 1 to FC_FSW clears latched bits whose LIVE is 0, or refuses them with CLRREJ, and logs a CLEAR record. -/
  | faultClear (hi : Bool) (v : Word)
  /-- `FAULT_ACK` (R373): A write of 1 to FC_ACK clears all UNACK flags of the source. -/
  | faultAck (hi : Bool) (v : Word)
  /-- `CE_HOLD_EXPIRE` (R373): CEHOLD ms after a CE flag was set, the flag clears by itself. -/
  | ceHoldExpire (t : Nat)
  /-- `FAULT_FORCE` (R378): A write of 1 to FC_FORCE injects a forced report of class FCLASS, or is ignored with FORCEREJ. -/
  | faultForce (hi : Bool) (v : Word)
  /-- `UNIT_RESTORE` (R380): A write of 1 to FC_RESTORE in SETUP starts the built-in test of a retired unit. -/
  | unitRestore (hi : Bool) (v : Word)
  /-- `RESTORE_TEST_DONE` (R380): The restore test ends: a pass clears the retirement, a failure sets RESTFAIL. -/
  | restoreTestDone (src : Source) (pass : Bool)
  /-- `CHURN_REQUEST` (R393): An activity ready to start asks the Churn, and is granted, queued, merged or refused according to the conflict matrix. -/
  | churnRequest (a : Activity) (res : Nat) (t : Nat)
  /-- `CHURN_QUEUED_START` (R394): An activity ends, and the requests queued behind it start in precedence order. -/
  | churnQueuedStart (a : Activity) (res : Nat) (t : Nat)
  /-- `CHURN_QWAIT_EXPIRE` (R397): A request has been queued for QWAIT s, so it is refused with BUSY_MAINT. -/
  | churnQwaitExpire (t : Nat)
  /-- `SCRUB_PASS_START` (R398): The scrub period of a block's SRAM or a DRAM channel comes due, and a scrub pass starts. -/
  | scrubPassStart (dram : Bool) (unit : Fin 16)
  /-- `SCRUB_WORD_CHECK` (R398): A scrubbed word is checked; a single-bit error is corrected in place with a CE, and an uncorrectable word is recorded with a UC. -/
  | scrubWordCheck (dram : Bool) (unit : Fin 16) (addr : Nat) (r : WordCheck)
  /-- `SETUP` (R405): SYS_MODECMD.SETUP starts the transition from DORMANT, RUN, THROTTLED or SAFE to SETUP. -/
  | modeSetup (t : Nat)
  /-- `SAFE` (R411): SYS_MODECMD.SAFE enters SAFE with cause COMMAND, abandoning any transition in progress. -/
  | modeSafe (t : Nat)
  /-- `DRAM_TRAINING_DONE` (R405): Training of a DRAM channel ends; a channel that fails three times is retired with an FA. -/
  | dramTrainingDone (ch : Channel) (ok : Bool) (mib : Nat)
  /-- `SYS_STREAM_WRITE` (R407): A write of SYS_STREAM stores the bits, or starts and stops heads after planner and size checks. -/
  | sysStreamWrite (v : Word)
  /-- `SAFE_CAUSE_CLEAR` (R413): A write of 1 to SYS_SAFECAUSE clears a cause whose condition has ended, or is ignored with CAUSE_PRESENT. -/
  | safeCauseClear (v : Word)
  /-- `RESET_ENTRY` (R403): RESET_N low, power-on or a rail below its reset threshold puts the device in RESET. -/
  | resetEntry (c : ResetCause)
  /-- `DORMANT_ENTRY` (R403): Within 5 ms of release, the device enters DORMANT with cause RELEASE and the milk round starts. -/
  | dormantEntry (t : Nat)
  /-- `REF_CLOCK_STOP` (R414): The PCIe reference clock stops; an FA enters SAFE, or a UC is raised in DORMANT and SAFE, and DT runs from AON. -/
  | refClockStop (t : Nat)
  /-- `RAIL_SAG` (R415): A rail has been below 93 % for 1 µs, so SAG is shown and NVM writes are refused. -/
  | railSag (k : RailReading)
  /-- `RAIL_FAILURE` (R416): A rail has been out of range for 10 µs, giving an FA and SAFE, a UC and HSUP disconnects, or the power-fail sequence. -/
  | railFailure (k : Rail) (v : RailLevel) (t : Nat)
  /-- `RAIL_GOOD` (R415): A rail returns within its good range, ending a sag. -/
  | railGood (k : RailReading)
  /-- `POWERFAIL_ASSERT` (R417): POWERFAIL_N low, VDD_AON low, a VDD_NVM failure or a rail below its reset threshold starts the power-fail sequence. -/
  | powerfailAssert (c : PowerfailCause) (t : Nat)
  /-- `HK_ROUND_START` (R421): A milk round starts on its period, its trigger source or its backstop, or is skipped with ROUNDSKIP. -/
  | hkRoundStart (t : Nat)
  /-- `HK_CONVERSION_DONE` (R423): A housekeeping conversion pair, or an injected conversion, completes and writes HK_RESi. -/
  | hkConversionDone (uvA uvB : Nat)
  /-- `HK_ROUND_END` (R423): A round completes; results are used for the thermal evaluation, the sensor self-check, rail readings, the band-gap comparison and monitor samples. -/
  | hkRoundEnd (t : Nat)
  /-- `HK_CFG_WRITE` (R421): A write of HK_CFG re-anchors the round windows and starts a round. -/
  | hkCfgWrite (v : Word) (t : Nat)
  /-- `HK_INJ` (R422): HK_INJ.GO queues an injected conversion, or is refused when 8 or more are queued. -/
  | hkInj (v : Word)
  /-- `TH_CFG_WRITE` (R427): A write of TH_CFG sets the thresholds, or is refused for its value or mode. -/
  | thCfgWrite (v : Word)
  /-- `TH_MASK_WRITE` (R425): A write of TH_MASK masks failed, acknowledged sensors, or is refused. -/
  | thMaskWrite (v : Word)
  /-- `NV_PAGE_WRITE_DONE` (R433): A page write ends after read-back verification, with RESULT OK, VERIFY or ABORTED. -/
  | nvPageWriteDone (verifyOk : Bool)
  /-- `NV_WINDOW_READ` (R430): A read through the NVM window returns corrected words, and counts SECC or raises a UC on an uncorrectable word. -/
  | nvWindowRead (p : Port) (off : Nat) (err : WordCheck)
  /-- `NV_INTERLOCK_CLEAR` (R437): The write interlock clears, so staged log records, dirty rings and waiting work are written. -/
  | nvInterlockClear (t : Nat)
  /-- `SLOT_PERSIST` (R441): M9 persist writes the next slot of a ring with SEQ one higher, or marks the ring dirty. -/
  | slotPersist (ring : Fin 21) (t : Nat)
  /-- `PERSIST_WINDOW_END` (R441): A ring's 1 s persist window ends, and a dirty ring is persisted. -/
  | persistWindowEnd (ring : Fin 21) (t : Nat)
  /-- `BOOT_HOURLY_PERSIST` (R441): Every 3,600 s of powered time the BOOT ring is persisted. -/
  | bootHourlyPersist (t : Nat)
  /-- `NV_RELOCATION` (R442): M9 relocation moves a page that failed read-back to a spare page and records it in RMAP, or drops it when no spare is left. -/
  | nvRelocation (page : Nat)
  /-- `MSP_WRITE` (R456): An MSP WRITE frame ends; its words enter the arbiter in order, or it is discarded whole. -/
  | mspWrite (bits : List Bool) (t : Nat)
  /-- `MSP_READ` (R457): An MSP READ frame fetches words from its address after wait bytes. -/
  | mspRead (bits : List Bool) (words : Nat)
  /-- `MSP_WRITE_CRC` (R459): An MSP WRITE_CRC frame ends; its units are checked by CRC-8 and written, or it is discarded with a CE. -/
  | mspWriteCrc (bits : List Bool) (t : Nat)
  /-- `MSP_READ_CRC` (R459): An MSP READ_CRC frame returns words each followed by a CRC-8. -/
  | mspReadCrc (bits : List Bool) (words : Nat)
  /-- `MSP_BAD_FRAME` (R454): A frame with an unknown command byte, or one ended before its command byte was complete, is ignored and counted. -/
  | mspBadFrame (cmd : List Bool)
  /-- `REGISTER_WRITE` (R13): A register write with no row of its own applies its fields by access type, subject to the mode and value rules of its chapter. -/
  | registerWrite (p : Port) (addr : Nat) (be : Fin 16) (v : Word) (t : Nat)
  /-- `SAMPLE_PRELOAD` (R481): The SAMPLE/PRELOAD instruction samples and preloads the boundary cells without changing pins. -/
  | tapSamplePreload (cells : List Bool)
  /-- `BYPASS` (R481): BYPASS, or any unlisted code, selects the bypass register. -/
  | tapBypass (code : BitVec 8)
  /-- `TIMING_INPUT_DEASSERT` (R120): A stuck timing input (HLV, a GP frame source or a TRIGn pin) deasserts, so its STUCK LIVE bit clears and its next active edge is treated as any other edge; for HLV, short frames stop. -/
  | timingInputDeassert (i : TimingInput) (t : Nat)
  /-- `RING_CHAR_ERROR` (R123): The ring receiver takes a character with bad code or disparity, or a packet with a bad CRC, counts it in TRG_ERRCNT and discards it. -/
  | ringCharError (packet : Bool)
  /-- `PLAN_EVAL_START` (R41): A queued planner evaluation starts once the running evaluation has completed, and BUSY is set. -/
  | planEvalStart
  /-- `PLAN_EVAL_DONE` (R41): A planner evaluation completes within 50 µs: the result registers are published, BUSY clears, and the requesting action takes effect or is refused. -/
  | planEvalDone
  /-- `RING_RX_LOCK` (R123): The ring receiver locks after 64 valid aligned characters, and normal repeating resumes. -/
  | ringRxLock
  /-- `RING_UPSTREAM_LOSS` (R131): The ring receiver loses lock: IDLE fill starts, UPLOSS is set with a CE, and DT free-runs. -/
  | ringUpstreamLoss
  /-- `SEND` (R132): TRG_MSGCMD.SEND queues a message for insertion, or is refused with VALUE_REJ. -/
  | msgSend
  /-- `POP` (R132): TRG_MSGCMD.POP discards the head entry of the receive FIFO. -/
  | msgPop
  /-- `RING_ENABLE` (R133): Setting TRG_CTRL.EN starts the 1,024-character path self-test. -/
  | ringEnable
  /-- `RING_HOLD_RAISE` (R133): After 256 IDLE characters the device drives RING_HOLD high and joins the ring. -/
  | ringHoldRaise
  /-- `TRG_CLRCNT` (R135): TRG_CTRL.CLRCNT clears TRG_ERRCNT, TRG_TRIGCNT and MKLOST. -/
  | trgClrcnt
  /-- `INSTALL` (R237): EN_MCMD.INSTALL writes the image last loaded to the installed NVM slot, when RESULT reads OK. -/
  | mcInstall
  /-- `SETMIN` (R237): EN_MCMD.SETMIN raises EN_MCMIN to the active image's SVN and persists it. -/
  | mcSetmin
  /-- `RECIPE_LOAD_DONE` (R245): The recipe slot copy completes and EN_RSTAT reports the result. -/
  | recipeLoadDone
  /-- `ST_CLRCNT` (R298): ST_CTRL.CLRCNT clears every ST_HCNT. -/
  | stClrcnt
  /-- `CTX_READ` (R324): Q_CTXCMD.READ copies the selected ring context into Q_CTXD0–15. -/
  | ctxRead
  /-- `CTX_WRITE` (R324): Q_CTXCMD.WRITE writes the selected ring context, applying the enable checks when EN is set from 0. -/
  | ctxWrite
  /-- `CTX_CMD_DONE` (R324): A context command ends within 50 µs, and RES is posted. -/
  | ctxCmdDone
  /-- `REPROCESS_JOB_START` (R342): The next queued reprocessing job starts once the previous job has ended. -/
  | reprocessJobStart
  /-- `PCIE_HOT_RESET` (R344): A hot reset, link-disable reset or PF FLR resets configuration space, disables every ring and clears the Q_ registers. -/
  | pcieHotReset
  /-- `PERST_ASSERT` (R472): PERST_N low resets the PCIe endpoint as a hot reset. -/
  | perstAssert
  /-- `DMA_SETTLED` (R363): Nothing is outstanding after a halt; the failing and overlapping descriptors are written back and HALTINFO is set. -/
  | dmaSettled
  /-- `RESTART` (R366): DMA_CMD.RESTART resumes every channel at its first uncompleted descriptor, together with ring service. -/
  | dmaRestart
  /-- `DMA_AUTO_RESTART` (R366): A LINK halt restarts by itself once it is settled, the link is in L0 and bus mastering is on. -/
  | dmaAutoRestart
  /-- `DMA_CLRCNT` (R368): DMA_CMD.CLRCNT clears DMA_CNT and every DMA_CH_DONE. -/
  | dmaClrcnt
  /-- `CLRFIRST` (R375): FC_CTRL.CLRFIRST invalidates FC_FIRST. -/
  | fcClrfirst
  /-- `FC_CLRCNT` (R399): FC_CTRL.CLRCNT clears the FC_SRCn and FC_DEPn counts. -/
  | fcClrcnt
  /-- `MC_CLRCNT` (R400): MC_CTRL.CLRCNT clears MC_CNT and MC_SCRUBCNT. -/
  | mcClrcnt
  /-- `DORMANT` (R404): SYS_MODECMD.DORMANT from SETUP places DRAM in self-refresh and enters DORMANT. -/
  | modeDormant
  /-- `RUN` (R404): SYS_MODECMD.RUN runs the planner, CSI-2 and size checks, then enters RUN or THROTTLED, or is refused. -/
  | modeRun
  /-- `THROTTLE` (R408): SYS_MODECMD.THROTTLE sets the command cause and enters THROTTLED. -/
  | modeThrottle
  /-- `UNTHROTTLE` (R408): SYS_MODECMD.UNTHROTTLE clears the command cause, and returns to RUN when no thermal cause remains. -/
  | modeUnthrottle
  /-- `SETUP_TRANSITION_DONE` (R405): DRAM training and the bank A load finish, so MODE reads SETUP and BUSY clears. -/
  | setupTransitionDone
  /-- `RESET_RELEASE` (R403): RESET_N has been high and every rail good for 2 ms, so RESET is released: DT starts at 0, the NVM is scanned and trims and factors are loaded. -/
  | resetRelease
  /-- `REF_CLOCK_RETURN` (R414): The reference clock returns and the PLLs begin to relock. -/
  | refClockReturn
  /-- `PLL_LOCKED` (R414): The CORE, DRAM and CSI-2 PLLs relock, and PLLOK sets. -/
  | pllLocked
  /-- `POWERFAIL_PERSIST_DONE` (R417): The staged log, the counters and the POWER record are written, PERSISTED sets, and RESET follows if it is held. -/
  | powerfailPersistDone
  /-- `AON_COLLAPSE` (R403): VDD_AON falls below 1.55 V, so the device enters RESET at once. -/
  | aonCollapse
  /-- `NV_WRITE` (R431): NV_CMD.WRITE starts a page write of the user area from NV_WBUF, or refuses it as PROTECTED or INTERLOCK. -/
  | nvWrite
  /-- `NV_CLRCNT` (R445): NV_CTRL.CLRCNT clears NV_CNT.SECC. -/
  | nvClrcnt
  /-- `MSP_STATUS` (R455): An MSP STATUS frame returns only the status byte. -/
  | mspStatus
  /-- `MSP_READ_FETCH` (R457): The fetch of an MSP read word completes within 500 ns, with its latch effect. -/
  | mspReadFetch
  /-- `MSP_CLRCNT` (R461): SYS_MSPCTRL.CLRCNT clears SYS_MSPCNT. -/
  | mspClrcnt
  /-- `DR_CLRCNT` (R462): DR_CTRL.CLRCNT clears every DR_ECCc. -/
  | drClrcnt
  /-- `EXTEST` (R482): The EXTEST instruction lets boundary cells drive the pins with the ports held safe. -/
  | tapExtest
  /-- `IDCODE` (R481): The IDCODE instruction selects the 0xC812_874B identification register. -/
  | tapIdcode
  /-- `HIGHZ` (R482): The HIGHZ instruction places the outputs at high impedance with the ports held safe. -/
  | tapHighz
  /-- `CLAMP` (R482): The CLAMP instruction holds the pins from the boundary cells with the ports held safe. -/
  | tapClamp
  /-- `EXTEST_PULSE` (R482): The EXTEST_PULSE instruction of IEEE 1149.6 drives AC test pulses. -/
  | tapExtestPulse
  /-- `EXTEST_TRAIN` (R482): The EXTEST_TRAIN instruction of IEEE 1149.6 drives AC test trains. -/
  | tapExtestTrain
  /-- `TEST_MODE_EXIT_RESET` (R482): Leaving a boundary-driving instruction resets the device as a RESET_N pulse does. -/
  | testModeExitReset
  /-- `TAP_RESET` (R481): TRST_N low, or five TCK cycles with TMS high, resets the test access port. -/
  | tapReset
  /-- `POWERFAIL_END` (R417): The power-fail condition ends (POWERFAIL_N returns high and VDD_AON is good), so SYS_PWRSTAT.PFAIL clears and a later condition can start the sequence again. -/
  | powerfailEnd
  deriving DecidableEq, Repr

end Sys2Proof
end

