-- ==== Sys2Proof/Decode.lean ====
section
/-! DEFINITION. The command a word spells by the table's bits. The block takes commands, not encoded instructions: no row of
the table gives bits, so no word spells a command. -/

namespace Sys2Proof

/-- The command whose row gives `nbits` bits and whose bits are `w`: none, as no row gives bits. -/
def decodeTableWord (_nbits _w : Nat) : Option Instr := none

end Sys2Proof
end

