-- ==== Sys2Proof/Config.lean ====
section
/-! DEFINITION. What one device fixes and the spec leaves open. Every constant here is opaque: it has no body, so no
proof can use a value of it, and a statement about the model holds whatever it is (assumption log, entries 10, 11, 12, 15, 17, 56, 72 and 160). -/

namespace Sys2Proof.Config

/-- A free value: what an unstated value reads as, drawn with a counter the state holds. Log entry 10. -/
opaque freeValue : Nat → Nat

/-- The point of P-384 that a vendor key item of the NVM factory area holds (R232): the spec gives the item's size and no
encoding of the point in it. Log entry 11. -/
opaque vendorPoint : List Byte → Nat × Nat

/-- What a cell's lane registers and working area hold after a run of the opaque microcode (R229, R231, R232): the number of
the draw, and the place. Log entry 160. -/
opaque cellWord : Nat → Nat → Nat

/-- The least-squares refit of R207 where the planes of a pixel do not determine it. Arguments: the order, whether K is fitted,
and for each valid plane the value, TFPA - TCAL in 0.01 K and TAI - TAI_N in s. Answer: c1, c2, c3 and ck, each times 2^40.
Log entry 12. -/
opaque refitCoefficients : Nat → Bool → List (Int × Int × Int) → Int × Int × Int × Int

/-- The error of regressor `j`'s coefficient as IEEE 754 binary64 computes it, in units of 2^-40; its order of rounding is not
given. Log entry 12. -/
opaque refitRounding : Nat → Nat → Bool → List (Int × Int × Int) → Int

/-- The corrected transfer function of a converter with given factor words, at a code (R96). Log entry 15. -/
opaque correctedCode : List Int → Nat → Int

/-- A host range of an address and a length overlaps one of the device's own BARs (R355). The BAR addresses stand in PCIe
configuration space, which the spec does not lay out. Log entry 17. -/
opaque overlapsBar : Nat → Nat → Bool

/-- The temperature, in 0.01 °C, of a sensor from its number, its factory trim item and its code (R424). The transfer is not
given. Log entry 56. -/
opaque sensorTemp : Nat → List Byte → Nat → Int

/-- The level that the boundary cells drive on a pin (R482), none where they leave it undriven: from the model's number of the
pin and the preloaded cells. The order of the cells is not given. Log entry 72. -/
opaque boundaryCell : Nat → List Bool → Option Bool

end Sys2Proof.Config
end

