-- ==== Sys2Proof/Machine/RegMap.lean ====
section
/-! DEFINITION. The register map of stepping C: the byte address of every register of every register
table of the spec (rules R3, R13, R446, R453 and the address table each chapter gives), as a function of
its head, region, block, unit or table index, and each register's access masks and reset value
(Table 0-3 and the Reset columns). A register has ONE canonical address; where the spec gives one
register several addresses (the bank registers of R106 seen through either head's window, the chip
registers of R187 and R250 seen through every instance's window) `Sys2Proof.Machine.canonAddr` maps every alias to it. -/

namespace Sys2Proof.Machine

/-- Address of SYS_ID (R453). -/
abbrev R.SYS_ID : Nat := 0x0
/-- Address of SYS_VENDOR (R453). -/
abbrev R.SYS_VENDOR : Nat := 0x4
/-- Address of SYS_MAPVER (R453). -/
abbrev R.SYS_MAPVER : Nat := 0x8
/-- Address of SYS_TESTDATE (R453). -/
abbrev R.SYS_TESTDATE : Nat := 0xC
/-- Address of SYS_SERIAL_LO (R453). -/
abbrev R.SYS_SERIAL_LO : Nat := 0x10
/-- Address of SYS_SERIAL_HI (R453). -/
abbrev R.SYS_SERIAL_HI : Nat := 0x14
/-- Address of SYS_RSTCAUSE (R453). -/
abbrev R.SYS_RSTCAUSE : Nat := 0x18
/-- Address of SYS_MODECMD (R428). -/
abbrev R.SYS_MODECMD : Nat := 0x200
/-- Address of SYS_MODESTAT (R428). -/
abbrev R.SYS_MODESTAT : Nat := 0x204
/-- Address of SYS_SAFECAUSE (R428). -/
abbrev R.SYS_SAFECAUSE : Nat := 0x208
/-- Address of SYS_STREAM (R428). -/
abbrev R.SYS_STREAM : Nat := 0x20C
/-- Address of SYS_PWRSTAT (R428). -/
abbrev R.SYS_PWRSTAT : Nat := 0x210
/-- Address of SYS_MSPSTAT (R461). -/
abbrev R.SYS_MSPSTAT : Nat := 0x300
/-- Address of SYS_MSPCNT (R461). -/
abbrev R.SYS_MSPCNT : Nat := 0x304
/-- Address of SYS_MSPCTRL (R461). -/
abbrev R.SYS_MSPCTRL : Nat := 0x308
/-- Address of SYS_PLAN_CMD (R41). -/
abbrev R.SYS_PLAN_CMD : Nat := 0x400
/-- Address of SYS_PLAN_STAT (R41). -/
abbrev R.SYS_PLAN_STAT : Nat := 0x404
/-- Address of SYS_PLAN_LOAD0 (R41). -/
abbrev R.SYS_PLAN_LOAD0 : Nat := 0x408
/-- Address of SYS_PLAN_LOAD1 (R41). -/
abbrev R.SYS_PLAN_LOAD1 : Nat := 0x40C
/-- Address of SYS_PLAN_RATE (R41). -/
abbrev R.SYS_PLAN_RATE : Nat := 0x410
/-- Address of SYS_PLAN_LIMIT (R41). -/
abbrev R.SYS_PLAN_LIMIT : Nat := 0x414
/-- Address of SYS_PLAN_HELD (R41). -/
abbrev R.SYS_PLAN_HELD : Nat := 0x418
/-- Address of FC_FSW_LO (R399). -/
abbrev R.FC_FSW_LO : Nat := 0x10000
/-- Address of FC_FSW_HI (R399). -/
abbrev R.FC_FSW_HI : Nat := 0x10004
/-- Address of FC_LIVE_LO (R399). -/
abbrev R.FC_LIVE_LO : Nat := 0x10008
/-- Address of FC_LIVE_HI (R399). -/
abbrev R.FC_LIVE_HI : Nat := 0x1000C
/-- Address of FC_ACK_LO (R399). -/
abbrev R.FC_ACK_LO : Nat := 0x10010
/-- Address of FC_ACK_HI (R399). -/
abbrev R.FC_ACK_HI : Nat := 0x10014
/-- Address of FC_FORCE_LO (R399). -/
abbrev R.FC_FORCE_LO : Nat := 0x10018
/-- Address of FC_FORCE_HI (R399). -/
abbrev R.FC_FORCE_HI : Nat := 0x1001C
/-- Address of FC_CTRL (R399). -/
abbrev R.FC_CTRL : Nat := 0x10020
/-- Address of FC_STAT (R399). -/
abbrev R.FC_STAT : Nat := 0x10024
/-- Address of FC_FIRST (R399). -/
abbrev R.FC_FIRST : Nat := 0x10028
/-- Address of FC_FIRSTDT_LO (R399). -/
abbrev R.FC_FIRSTDT_LO : Nat := 0x1002C
/-- Address of FC_FIRSTDT_HI (R399). -/
abbrev R.FC_FIRSTDT_HI : Nat := 0x10030
/-- Address of FC_LOGSEQ (R399). -/
abbrev R.FC_LOGSEQ : Nat := 0x10034
/-- Address of FC_LOGLOST (R399). -/
abbrev R.FC_LOGLOST : Nat := 0x10038
/-- Address of FC_RET_LO (R399). -/
abbrev R.FC_RET_LO : Nat := 0x10040
/-- Address of FC_RET_HI (R399). -/
abbrev R.FC_RET_HI : Nat := 0x10044
/-- Address of FC_RESTORE_LO (R399). -/
abbrev R.FC_RESTORE_LO : Nat := 0x10048
/-- Address of FC_RESTORE_HI (R399). -/
abbrev R.FC_RESTORE_HI : Nat := 0x1004C
/-- Address of FC_SRC (R399). -/
abbrev R.FC_SRC (i : Nat) : Nat := 0x10100 + 0x8 * i
/-- Address of FC_DEP (R399). -/
abbrev R.FC_DEP (i : Nat) : Nat := 0x10104 + 0x8 * i
/-- Address of HK_CFG (R428). -/
abbrev R.HK_CFG : Nat := 0x20000
/-- Address of HK_TRIG (R428). -/
abbrev R.HK_TRIG : Nat := 0x20004
/-- Address of HK_XMASK (R428). -/
abbrev R.HK_XMASK : Nat := 0x20008
/-- Address of HK_INJ (R428). -/
abbrev R.HK_INJ : Nat := 0x2000C
/-- Address of HK_STAT (R428). -/
abbrev R.HK_STAT : Nat := 0x20010
/-- Address of HK_ROUND (R428). -/
abbrev R.HK_ROUND : Nat := 0x20014
/-- Address of HK_RDT_LO (R428). -/
abbrev R.HK_RDT_LO : Nat := 0x20018
/-- Address of HK_RDT_HI (R428). -/
abbrev R.HK_RDT_HI : Nat := 0x2001C
/-- Address of HK_RES (R428). -/
abbrev R.HK_RES (i : Nat) : Nat := 0x20100 + 0x4 * i
/-- Address of TH_CFG (R428). -/
abbrev R.TH_CFG : Nat := 0x20800
/-- Address of TH_STAT (R428). -/
abbrev R.TH_STAT : Nat := 0x20804
/-- Address of TH_SFAIL (R428). -/
abbrev R.TH_SFAIL : Nat := 0x20808
/-- Address of TH_MASK (R428). -/
abbrev R.TH_MASK : Nat := 0x2080C
/-- Address of TH_HPOL (R428). -/
abbrev R.TH_HPOL (i : Nat) : Nat := 0x20880 + 0x4 * i
/-- Address of TH_TEMP (R428). -/
abbrev R.TH_TEMP (i : Nat) : Nat := 0x20900 + 0x4 * i
/-- Address of NV_CTRL (R445). -/
abbrev R.NV_CTRL : Nat := 0x30000
/-- Address of NV_CMD (R445). -/
abbrev R.NV_CMD : Nat := 0x30004
/-- Address of NV_STAT (R445). -/
abbrev R.NV_STAT : Nat := 0x30008
/-- Address of NV_WADDR (R445). -/
abbrev R.NV_WADDR : Nat := 0x3000C
/-- Address of NV_WLEN (R445). -/
abbrev R.NV_WLEN : Nat := 0x30010
/-- Address of NV_WIN (R445). -/
abbrev R.NV_WIN : Nat := 0x30014
/-- Address of NV_DIRTY (R445). -/
abbrev R.NV_DIRTY : Nat := 0x30018
/-- Address of NV_CNT (R445). -/
abbrev R.NV_CNT : Nat := 0x3001C
/-- Address of NV_SPARE (R445). -/
abbrev R.NV_SPARE : Nat := 0x30020
/-- Address of NV_BOOT (R445). -/
abbrev R.NV_BOOT : Nat := 0x30024
/-- Address of NV_HOURS (R445). -/
abbrev R.NV_HOURS : Nat := 0x30028
/-- Address of NV_WBUF (R445). -/
abbrev R.NV_WBUF (i : Nat) : Nat := 0x30100 + 0x4 * i
/-- Address of TRG_DT_LO (R135). -/
abbrev R.TRG_DT_LO : Nat := 0x40000
/-- Address of TRG_DT_HI (R135). -/
abbrev R.TRG_DT_HI : Nat := 0x40004
/-- Address of TRG_DTSTAT (R135). -/
abbrev R.TRG_DTSTAT : Nat := 0x40008
/-- Address of TRG_CTRL (R135). -/
abbrev R.TRG_CTRL : Nat := 0x40010
/-- Address of TRG_STAT (R135). -/
abbrev R.TRG_STAT : Nat := 0x40014
/-- Address of TRG_CABLEDLY (R135). -/
abbrev R.TRG_CABLEDLY : Nat := 0x40018
/-- Address of TRG_ALIGN (R135). -/
abbrev R.TRG_ALIGN : Nat := 0x4001C
/-- Address of TRG_TAIOFF_LO (R135). -/
abbrev R.TRG_TAIOFF_LO : Nat := 0x40020
/-- Address of TRG_TAIOFF_HI (R135). -/
abbrev R.TRG_TAIOFF_HI : Nat := 0x40024
/-- Address of TRG_ERRCNT (R135). -/
abbrev R.TRG_ERRCNT : Nat := 0x40028
/-- Address of TRG_TRIGCFG (R135). -/
abbrev R.TRG_TRIGCFG (i : Nat) : Nat := 0x40040 + 0x20 * i
/-- Address of TRG_TRIGPER (R135). -/
abbrev R.TRG_TRIGPER (i : Nat) : Nat := 0x40044 + 0x20 * i
/-- Address of TRG_TRIGCNT (R135). -/
abbrev R.TRG_TRIGCNT (i : Nat) : Nat := 0x40048 + 0x20 * i
/-- Address of TRG_TRIGSTAT (R135). -/
abbrev R.TRG_TRIGSTAT (i : Nat) : Nat := 0x4004C + 0x20 * i
/-- Address of TRG_TRIGDT_LO (R135). -/
abbrev R.TRG_TRIGDT_LO (i : Nat) : Nat := 0x40050 + 0x20 * i
/-- Address of TRG_TRIGDT_HI (R135). -/
abbrev R.TRG_TRIGDT_HI (i : Nat) : Nat := 0x40054 + 0x20 * i
/-- Address of TRG_MSGTX (R135). -/
abbrev R.TRG_MSGTX (i : Nat) : Nat := 0x40100 + 0x4 * i
/-- Address of TRG_MSGCMD (R135). -/
abbrev R.TRG_MSGCMD : Nat := 0x40110
/-- Address of TRG_MSGSTAT (R135). -/
abbrev R.TRG_MSGSTAT : Nat := 0x40114
/-- Address of TRG_MSGRX (R135). -/
abbrev R.TRG_MSGRX (i : Nat) : Nat := 0x40120 + 0x4 * i
/-- Address of TRG_MSGRXHDR (R135). -/
abbrev R.TRG_MSGRXHDR : Nat := 0x40130
/-- Address of HP_CTRL (R76). -/
abbrev R.HP_CTRL (i : Nat) : Nat := 0x100000 + 0x10000 * i
/-- Address of HP_CMD (R76). -/
abbrev R.HP_CMD (i : Nat) : Nat := 0x100004 + 0x10000 * i
/-- Address of HP_STAT (R76). -/
abbrev R.HP_STAT (i : Nat) : Nat := 0x100008 + 0x10000 * i
/-- Address of HP_FLT (R76). -/
abbrev R.HP_FLT (i : Nat) : Nat := 0x10000C + 0x10000 * i
/-- Address of HP_BIAS (R76). -/
abbrev R.HP_BIAS (i : Nat) : Nat := 0x100010 + 0x10000 * i
/-- Address of HP_HSUPMON (R76). -/
abbrev R.HP_HSUPMON (i : Nat) : Nat := 0x100014 + 0x10000 * i
/-- Address of HP_THM (R76). -/
abbrev R.HP_THM (i : Nat) : Nat := 0x100018 + 0x10000 * i
/-- Address of HP_TAPFLT (R76). -/
abbrev R.HP_TAPFLT (i : Nat) : Nat := 0x10001C + 0x10000 * i
/-- Address of HP_TAPSWAP (R76). -/
abbrev R.HP_TAPSWAP (i : Nat) : Nat := 0x100020 + 0x10000 * i
/-- Address of HCP_CTRL (R76). -/
abbrev R.HCP_CTRL (i : Nat) : Nat := 0x100040 + 0x10000 * i
/-- Address of HCP_LEN (R76). -/
abbrev R.HCP_LEN (i : Nat) : Nat := 0x100044 + 0x10000 * i
/-- Address of HCP_CMD (R76). -/
abbrev R.HCP_CMD (i : Nat) : Nat := 0x100048 + 0x10000 * i
/-- Address of HCP_STAT (R76). -/
abbrev R.HCP_STAT (i : Nat) : Nat := 0x10004C + 0x10000 * i
/-- Address of HP_FRM_CFG (R135). -/
abbrev R.HP_FRM_CFG (i : Nat) : Nat := 0x100080 + 0x10000 * i
/-- Address of HP_FPER (R135). -/
abbrev R.HP_FPER (i : Nat) : Nat := 0x100084 + 0x10000 * i
/-- Address of HP_TSTAT (R135). -/
abbrev R.HP_TSTAT (i : Nat) : Nat := 0x100088 + 0x10000 * i
/-- Address of HP_TCNT0 (R135). -/
abbrev R.HP_TCNT0 (i : Nat) : Nat := 0x10008C + 0x10000 * i
/-- Address of HP_TCNT1 (R135). -/
abbrev R.HP_TCNT1 (i : Nat) : Nat := 0x100090 + 0x10000 * i
/-- Address of HP_TCNT2 (R135). -/
abbrev R.HP_TCNT2 (i : Nat) : Nat := 0x100094 + 0x10000 * i
/-- Address of HP_FSEQ_LO (R135). -/
abbrev R.HP_FSEQ_LO (i : Nat) : Nat := 0x100098 + 0x10000 * i
/-- Address of HP_FSEQ_HI (R135). -/
abbrev R.HP_FSEQ_HI (i : Nat) : Nat := 0x10009C + 0x10000 * i
/-- Address of HP_FSDT_LO (R135). -/
abbrev R.HP_FSDT_LO (i : Nat) : Nat := 0x1000A0 + 0x10000 * i
/-- Address of HP_FSDT_HI (R135). -/
abbrev R.HP_FSDT_HI (i : Nat) : Nat := 0x1000A4 + 0x10000 * i
/-- Address of HP_PROF (R76). -/
abbrev R.HP_PROF (i j : Nat) : Nat := 0x101000 + 0x10000 * i + 0x4 * j
/-- Address of HCP_TXBUF (R76). -/
abbrev R.HCP_TXBUF (i j : Nat) : Nat := 0x102000 + 0x10000 * i + 0x4 * j
/-- Address of HCP_RXBUF (R76). -/
abbrev R.HCP_RXBUF (i j : Nat) : Nat := 0x104000 + 0x10000 * i + 0x4 * j
/-- Address of TC_CFG (R106). -/
abbrev R.TC_CFG (i : Nat) : Nat := 0x200000 + 0x10000 * i
/-- Address of TC_CMD (R106). -/
abbrev R.TC_CMD (i : Nat) : Nat := 0x200004 + 0x20000 * i
/-- Address of TC_STAT (R106). -/
abbrev R.TC_STAT (i : Nat) : Nat := 0x200008 + 0x10000 * i
/-- Address of TC_GAIN0 (R106). -/
abbrev R.TC_GAIN0 (i : Nat) : Nat := 0x20000C + 0x10000 * i
/-- Address of TC_GAIN1 (R106). -/
abbrev R.TC_GAIN1 (i : Nat) : Nat := 0x200010 + 0x10000 * i
/-- Address of TC_GEFF1 (R106). -/
abbrev R.TC_GEFF1 (i : Nat) : Nat := 0x200014 + 0x10000 * i
/-- Address of TC_CELLREJ (R106). -/
abbrev R.TC_CELLREJ (i : Nat) : Nat := 0x200018 + 0x20000 * i
/-- Address of TC_REFCFG (R106). -/
abbrev R.TC_REFCFG (i : Nat) : Nat := 0x200020 + 0x20000 * i
/-- Address of TC_SCLK (R106). -/
abbrev R.TC_SCLK (i : Nat) : Nat := 0x200024 + 0x20000 * i
/-- Address of TC_BG (R106). -/
abbrev R.TC_BG : Nat := 0x200028
/-- Address of TC_CALOK (R106). -/
abbrev R.TC_CALOK (i : Nat) : Nat := 0x200030 + 0x20000 * i
/-- Address of TC_CALFAIL (R106). -/
abbrev R.TC_CALFAIL (i : Nat) : Nat := 0x200034 + 0x20000 * i
/-- Address of TC_CALDT_LO (R106). -/
abbrev R.TC_CALDT_LO (i : Nat) : Nat := 0x200038 + 0x20000 * i
/-- Address of TC_CALDT_HI (R106). -/
abbrev R.TC_CALDT_HI (i : Nat) : Nat := 0x20003C + 0x20000 * i
/-- Address of TC_CALTAI (R106). -/
abbrev R.TC_CALTAI (i : Nat) : Nat := 0x200040 + 0x20000 * i
/-- Address of TC_FACT (R106). -/
abbrev R.TC_FACT (i j : Nat) : Nat := 0x200100 + 0x10000 * i + 0x4 * j
/-- Address of CL_STAT (R158). -/
abbrev R.CL_STAT (i : Nat) : Nat := 0x300000 + 0x10000 * i
/-- Address of CL_CNT (R158). -/
abbrev R.CL_CNT (i : Nat) : Nat := 0x300004 + 0x10000 * i
/-- Address of CL_CTRL (R158). -/
abbrev R.CL_CTRL (i : Nat) : Nat := 0x300008 + 0x10000 * i
/-- Address of CL_HCFG (R158). -/
abbrev R.CL_HCFG (h : Nat) : Nat := 0x300100 + 0x10000 * (h / 2) + 0x80 * (h % 2)
/-- Address of CL_HCMD (R158). -/
abbrev R.CL_HCMD (h : Nat) : Nat := 0x300104 + 0x10000 * (h / 2) + 0x80 * (h % 2)
/-- Address of CL_HSTAT (R158). -/
abbrev R.CL_HSTAT (h : Nat) : Nat := 0x300108 + 0x10000 * (h / 2) + 0x80 * (h % 2)
/-- Address of CL_HMIR (R158). -/
abbrev R.CL_HMIR (h : Nat) : Nat := 0x30010C + 0x10000 * (h / 2) + 0x80 * (h % 2)
/-- Address of CL_HLA (R158). -/
abbrev R.CL_HLA (h : Nat) : Nat := 0x300110 + 0x10000 * (h / 2) + 0x80 * (h % 2)
/-- Address of CL_HLB (R158). -/
abbrev R.CL_HLB (h : Nat) : Nat := 0x300114 + 0x10000 * (h / 2) + 0x80 * (h % 2)
/-- Address of CL_HRA (R158). -/
abbrev R.CL_HRA (h : Nat) : Nat := 0x300118 + 0x10000 * (h / 2) + 0x80 * (h % 2)
/-- Address of CL_HRB (R158). -/
abbrev R.CL_HRB (h : Nat) : Nat := 0x30011C + 0x10000 * (h / 2) + 0x80 * (h % 2)
/-- Address of CL_HMLA (R158). -/
abbrev R.CL_HMLA (h : Nat) : Nat := 0x300120 + 0x10000 * (h / 2) + 0x80 * (h % 2)
/-- Address of CL_HMLB (R158). -/
abbrev R.CL_HMLB (h : Nat) : Nat := 0x300124 + 0x10000 * (h / 2) + 0x80 * (h % 2)
/-- Address of CL_HMRA (R158). -/
abbrev R.CL_HMRA (h : Nat) : Nat := 0x300128 + 0x10000 * (h / 2) + 0x80 * (h % 2)
/-- Address of CL_HMRB (R158). -/
abbrev R.CL_HMRB (h : Nat) : Nat := 0x30012C + 0x10000 * (h / 2) + 0x80 * (h % 2)
/-- Address of CL_HCNT (R158). -/
abbrev R.CL_HCNT (h : Nat) : Nat := 0x300130 + 0x10000 * (h / 2) + 0x80 * (h % 2)
/-- Address of CX_CTRL (R187). -/
abbrev R.CX_CTRL (i : Nat) : Nat := 0x340000 + 0x10000 * i
/-- Address of CX_STAT (R187). -/
abbrev R.CX_STAT (i : Nat) : Nat := 0x340004 + 0x10000 * i
/-- Address of CX_RCNT (R187). -/
abbrev R.CX_RCNT (i : Nat) : Nat := 0x340008 + 0x10000 * i
/-- Address of CX_TAISW_LO (R187). -/
abbrev R.CX_TAISW_LO : Nat := 0x340010
/-- Address of CX_TAISW_HI (R187). -/
abbrev R.CX_TAISW_HI : Nat := 0x340014
/-- Address of CX_HCFG (R187). -/
abbrev R.CX_HCFG (h : Nat) : Nat := 0x340100 + 0x10000 * (h / 2) + 0x80 * (h % 2)
/-- Address of CX_HKNEE (R187). -/
abbrev R.CX_HKNEE (h : Nat) : Nat := 0x340104 + 0x10000 * (h / 2) + 0x80 * (h % 2)
/-- Address of CX_HTFIX (R187). -/
abbrev R.CX_HTFIX (h : Nat) : Nat := 0x340108 + 0x10000 * (h / 2) + 0x80 * (h % 2)
/-- Address of CX_HFILL (R187). -/
abbrev R.CX_HFILL (h : Nat) : Nat := 0x34010C + 0x10000 * (h / 2) + 0x80 * (h % 2)
/-- Address of CX_HSTAT (R187). -/
abbrev R.CX_HSTAT (h : Nat) : Nat := 0x340110 + 0x10000 * (h / 2) + 0x80 * (h % 2)
/-- Address of CX_HDT (R187). -/
abbrev R.CX_HDT (h : Nat) : Nat := 0x340114 + 0x10000 * (h / 2) + 0x80 * (h % 2)
/-- Address of CX_HAGE (R187). -/
abbrev R.CX_HAGE (h : Nat) : Nat := 0x340118 + 0x10000 * (h / 2) + 0x80 * (h % 2)
/-- Address of CX_HLAST0 (R187). -/
abbrev R.CX_HLAST0 (h : Nat) : Nat := 0x340120 + 0x10000 * (h / 2) + 0x80 * (h % 2)
/-- Address of CX_HLAST1 (R187). -/
abbrev R.CX_HLAST1 (h : Nat) : Nat := 0x340124 + 0x10000 * (h / 2) + 0x80 * (h % 2)
/-- Address of CX_HLAST2 (R187). -/
abbrev R.CX_HLAST2 (h : Nat) : Nat := 0x340128 + 0x10000 * (h / 2) + 0x80 * (h % 2)
/-- Address of CX_HCNT (R187). -/
abbrev R.CX_HCNT (h : Nat) : Nat := 0x34012C + 0x10000 * (h / 2) + 0x80 * (h % 2)
/-- Address of CX_SCFG (R212). -/
abbrev R.CX_SCFG (h : Nat) : Nat := 0x340130 + 0x10000 * (h / 2) + 0x80 * (h % 2)
/-- Address of CX_SCMD (R212). -/
abbrev R.CX_SCMD (h : Nat) : Nat := 0x340134 + 0x10000 * (h / 2) + 0x80 * (h % 2)
/-- Address of CX_SSTAT (R212). -/
abbrev R.CX_SSTAT (h : Nat) : Nat := 0x340138 + 0x10000 * (h / 2) + 0x80 * (h % 2)
/-- Address of CX_SLIM (R212). -/
abbrev R.CX_SLIM (h : Nat) : Nat := 0x34013C + 0x10000 * (h / 2) + 0x80 * (h % 2)
/-- Address of CX_SSCHED (R212). -/
abbrev R.CX_SSCHED (h : Nat) : Nat := 0x340140 + 0x10000 * (h / 2) + 0x80 * (h % 2)
/-- Address of CX_SQLEN (R212). -/
abbrev R.CX_SQLEN (h : Nat) : Nat := 0x340144 + 0x10000 * (h / 2) + 0x80 * (h % 2)
/-- Address of CX_SQST_LO (R212). -/
abbrev R.CX_SQST_LO (h : Nat) : Nat := 0x340148 + 0x10000 * (h / 2) + 0x80 * (h % 2)
/-- Address of CX_SQST_HI (R212). -/
abbrev R.CX_SQST_HI (h : Nat) : Nat := 0x34014C + 0x10000 * (h / 2) + 0x80 * (h % 2)
/-- Address of CX_SOK (R212). -/
abbrev R.CX_SOK (h : Nat) : Nat := 0x340150 + 0x10000 * (h / 2) + 0x80 * (h % 2)
/-- Address of CX_SFAIL (R212). -/
abbrev R.CX_SFAIL (h : Nat) : Nat := 0x340154 + 0x10000 * (h / 2) + 0x80 * (h % 2)
/-- Address of CX_SLDT_LO (R212). -/
abbrev R.CX_SLDT_LO (h : Nat) : Nat := 0x340158 + 0x10000 * (h / 2) + 0x80 * (h % 2)
/-- Address of CX_SLDT_HI (R212). -/
abbrev R.CX_SLDT_HI (h : Nat) : Nat := 0x34015C + 0x10000 * (h / 2) + 0x80 * (h % 2)
/-- Address of CX_SLTAI (R212). -/
abbrev R.CX_SLTAI (h : Nat) : Nat := 0x340160 + 0x10000 * (h / 2) + 0x80 * (h % 2)
/-- Address of CX_RCFG (R212). -/
abbrev R.CX_RCFG (h : Nat) : Nat := 0x340164 + 0x10000 * (h / 2) + 0x80 * (h % 2)
/-- Address of CX_RSTAT (R212). -/
abbrev R.CX_RSTAT (h : Nat) : Nat := 0x340168 + 0x10000 * (h / 2) + 0x80 * (h % 2)
/-- Address of CX_BREF (R212). -/
abbrev R.CX_BREF (h : Nat) : Nat := 0x34016C + 0x10000 * (h / 2) + 0x80 * (h % 2)
/-- Address of CX_DFCFG (R212). -/
abbrev R.CX_DFCFG (h : Nat) : Nat := 0x340170 + 0x10000 * (h / 2) + 0x80 * (h % 2)
/-- Address of CX_DFSTAT (R212). -/
abbrev R.CX_DFSTAT (h : Nat) : Nat := 0x340174 + 0x10000 * (h / 2) + 0x80 * (h % 2)
/-- Address of CX_DHIST (R212). -/
abbrev R.CX_DHIST (h : Nat) : Nat := 0x340178 + 0x10000 * (h / 2) + 0x80 * (h % 2)
/-- Address of CX_SWORK (R212). -/
abbrev R.CX_SWORK (h : Nat) : Nat := 0x34017C + 0x10000 * (h / 2) + 0x80 * (h % 2)
/-- Address of FP_CTRL (R281). -/
abbrev R.FP_CTRL (i : Nat) : Nat := 0x400000 + 0x10000 * i
/-- Address of FP_STAT (R281). -/
abbrev R.FP_STAT (i : Nat) : Nat := 0x400004 + 0x10000 * i
/-- Address of FP_HASSIGN (R281). -/
abbrev R.FP_HASSIGN (h : Nat) : Nat := 0x400100 + 0x10000 * (h / 2) + 0x80 * (h % 2)
/-- Address of FP_HOUT (R281). -/
abbrev R.FP_HOUT (h : Nat) : Nat := 0x400104 + 0x10000 * (h / 2) + 0x80 * (h % 2)
/-- Address of FP_HTONE (R281). -/
abbrev R.FP_HTONE (h : Nat) : Nat := 0x400108 + 0x10000 * (h / 2) + 0x80 * (h % 2)
/-- Address of FP_HTAUTO (R281). -/
abbrev R.FP_HTAUTO (h : Nat) : Nat := 0x40010C + 0x10000 * (h / 2) + 0x80 * (h % 2)
/-- Address of FP_HTLO (R281). -/
abbrev R.FP_HTLO (h : Nat) : Nat := 0x400110 + 0x10000 * (h / 2) + 0x80 * (h % 2)
/-- Address of FP_HPIPE (R281). -/
abbrev R.FP_HPIPE (h : Nat) : Nat := 0x400114 + 0x10000 * (h / 2) + 0x80 * (h % 2)
/-- Address of FP_HCM0 (R281). -/
abbrev R.FP_HCM0 (h : Nat) : Nat := 0x400118 + 0x10000 * (h / 2) + 0x80 * (h % 2)
/-- Address of FP_HCM1 (R281). -/
abbrev R.FP_HCM1 (h : Nat) : Nat := 0x40011C + 0x10000 * (h / 2) + 0x80 * (h % 2)
/-- Address of FP_HCM2 (R281). -/
abbrev R.FP_HCM2 (h : Nat) : Nat := 0x400120 + 0x10000 * (h / 2) + 0x80 * (h % 2)
/-- Address of FP_HCM3 (R281). -/
abbrev R.FP_HCM3 (h : Nat) : Nat := 0x400124 + 0x10000 * (h / 2) + 0x80 * (h % 2)
/-- Address of FP_HCM4 (R281). -/
abbrev R.FP_HCM4 (h : Nat) : Nat := 0x400128 + 0x10000 * (h / 2) + 0x80 * (h % 2)
/-- Address of FP_HGAIN (R281). -/
abbrev R.FP_HGAIN (h : Nat) : Nat := 0x40012C + 0x10000 * (h / 2) + 0x80 * (h % 2)
/-- Address of FP_HOSIZE (R281). -/
abbrev R.FP_HOSIZE (h : Nat) : Nat := 0x400130 + 0x10000 * (h / 2) + 0x80 * (h % 2)
/-- Address of FP_HDBD (R281). -/
abbrev R.FP_HDBD (h : Nat) : Nat := 0x400134 + 0x10000 * (h / 2) + 0x80 * (h % 2)
/-- Address of FP_HDBC (R281). -/
abbrev R.FP_HDBC (h : Nat) : Nat := 0x400138 + 0x10000 * (h / 2) + 0x80 * (h % 2)
/-- Address of FP_HDBM (R281). -/
abbrev R.FP_HDBM (h : Nat) : Nat := 0x40013C + 0x10000 * (h / 2) + 0x80 * (h % 2)
/-- Address of FP_HTM (R281). -/
abbrev R.FP_HTM (h : Nat) : Nat := 0x400140 + 0x10000 * (h / 2) + 0x80 * (h % 2)
/-- Address of FP_HSTAT (R281). -/
abbrev R.FP_HSTAT (h : Nat) : Nat := 0x400144 + 0x10000 * (h / 2) + 0x80 * (h % 2)
/-- Address of FP_HCNT (R281). -/
abbrev R.FP_HCNT (h : Nat) : Nat := 0x400148 + 0x10000 * (h / 2) + 0x80 * (h % 2)
/-- Address of FP_HLAST (R281). -/
abbrev R.FP_HLAST (h : Nat) : Nat := 0x40014C + 0x10000 * (h / 2) + 0x80 * (h % 2)
/-- Address of FP_RCFG (R228). -/
abbrev R.FP_RCFG (h : Nat) : Nat := 0x400800 + 0x10000 * (h / 2) + 0x40 * (h % 2)
/-- Address of FP_RCMD (R228). -/
abbrev R.FP_RCMD (h : Nat) : Nat := 0x400804 + 0x10000 * (h / 2) + 0x40 * (h % 2)
/-- Address of FP_RSTAT (R228). -/
abbrev R.FP_RSTAT (h : Nat) : Nat := 0x400808 + 0x10000 * (h / 2) + 0x40 * (h % 2)
/-- Address of FP_RID (R228). -/
abbrev R.FP_RID (h : Nat) : Nat := 0x40080C + 0x10000 * (h / 2) + 0x40 * (h % 2)
/-- Address of FP_RSA (R228). -/
abbrev R.FP_RSA (h : Nat) : Nat := 0x400810 + 0x10000 * (h / 2) + 0x40 * (h % 2)
/-- Address of FP_RSB (R228). -/
abbrev R.FP_RSB (h : Nat) : Nat := 0x400814 + 0x10000 * (h / 2) + 0x40 * (h % 2)
/-- Address of FP_RMA (R228). -/
abbrev R.FP_RMA (h : Nat) : Nat := 0x400818 + 0x10000 * (h / 2) + 0x40 * (h % 2)
/-- Address of FP_RMB (R228). -/
abbrev R.FP_RMB (h : Nat) : Nat := 0x40081C + 0x10000 * (h / 2) + 0x40 * (h % 2)
/-- Address of FP_RLAST (R228). -/
abbrev R.FP_RLAST (h : Nat) : Nat := 0x400820 + 0x10000 * (h / 2) + 0x40 * (h % 2)
/-- Address of FP_CURVE0 (R281). -/
abbrev R.FP_CURVE0 (h k : Nat) : Nat := 0x401000 + 0x10000 * (h / 2) + 0x7000 * (h % 2) + 4 * k
/-- Address of FP_CURVE1 (R281). -/
abbrev R.FP_CURVE1 (h k : Nat) : Nat := 0x403000 + 0x10000 * (h / 2) + 0x7000 * (h % 2) + 4 * k
/-- Address of FP_PAL0 (R281). -/
abbrev R.FP_PAL0 (h k : Nat) : Nat := 0x405000 + 0x10000 * (h / 2) + 0x7000 * (h % 2) + 4 * k
/-- Address of FP_PAL1 (R281). -/
abbrev R.FP_PAL1 (h k : Nat) : Nat := 0x406000 + 0x10000 * (h / 2) + 0x7000 * (h % 2) + 4 * k
/-- Address of FP_COEF0 (R281). -/
abbrev R.FP_COEF0 (h k : Nat) : Nat := 0x407000 + 0x10000 * (h / 2) + 0x7000 * (h % 2) + 4 * k
/-- Address of FP_COEF1 (R281). -/
abbrev R.FP_COEF1 (h k : Nat) : Nat := 0x407600 + 0x10000 * (h / 2) + 0x7000 * (h % 2) + 4 * k
/-- Address of ST_CTRL (R298). -/
abbrev R.ST_CTRL : Nat := 0x480000
/-- Address of ST_HCFG (R298). -/
abbrev R.ST_HCFG (i : Nat) : Nat := 0x480100 + 0x40 * i
/-- Address of ST_HHLO (R298). -/
abbrev R.ST_HHLO (i : Nat) : Nat := 0x480104 + 0x40 * i
/-- Address of ST_HSBUF (R298). -/
abbrev R.ST_HSBUF (i : Nat) : Nat := 0x480108 + 0x40 * i
/-- Address of ST_HALARM (R298). -/
abbrev R.ST_HALARM (i : Nat) : Nat := 0x48010C + 0x40 * i
/-- Address of ST_HSTAT (R298). -/
abbrev R.ST_HSTAT (i : Nat) : Nat := 0x480110 + 0x40 * i
/-- Address of ST_HCNT (R298). -/
abbrev R.ST_HCNT (i : Nat) : Nat := 0x480114 + 0x40 * i
/-- Address of ST_HLAST (R298). -/
abbrev R.ST_HLAST (i : Nat) : Nat := 0x480118 + 0x40 * i
/-- Address of ST_HACT (R298). -/
abbrev R.ST_HACT (i j : Nat) : Nat := 0x480120 + 0x40 * i + 0x4 * j
/-- Address of ST_RULE (R298). -/
abbrev R.ST_RULE (i j : Nat) : Nat := 0x490000 + 0x1000 * i + 0x4 * j
/-- Address of TX_CFG (R282). -/
abbrev R.TX_CFG (i : Nat) : Nat := 0x500000 + 0x10000 * i
/-- Address of TX_RATE (R282). -/
abbrev R.TX_RATE (i : Nat) : Nat := 0x500004 + 0x10000 * i
/-- Address of TX_GAP (R282). -/
abbrev R.TX_GAP (i : Nat) : Nat := 0x500008 + 0x10000 * i
/-- Address of TX_STAT (R282). -/
abbrev R.TX_STAT (i : Nat) : Nat := 0x50000C + 0x10000 * i
/-- Address of TX_CNT0 (R282). -/
abbrev R.TX_CNT0 (i : Nat) : Nat := 0x500010 + 0x10000 * i
/-- Address of TX_CNT1 (R282). -/
abbrev R.TX_CNT1 (i : Nat) : Nat := 0x500014 + 0x10000 * i
/-- Address of TX_S (R282). -/
abbrev R.TX_S (i j : Nat) : Nat := 0x500020 + 0x10000 * i + 0x4 * j
/-- Address of Q_CFG (R346). -/
abbrev R.Q_CFG : Nat := 0x600000
/-- Address of Q_STAT (R346). -/
abbrev R.Q_STAT : Nat := 0x600004
/-- Address of Q_CTXBASE (R346). -/
abbrev R.Q_CTXBASE : Nat := 0x600008
/-- Address of Q_B4WIN (R346). -/
abbrev R.Q_B4WIN : Nat := 0x60000C
/-- Address of Q_FEVT (R346). -/
abbrev R.Q_FEVT : Nat := 0x600010
/-- Address of Q_RPBASE (R346). -/
abbrev R.Q_RPBASE : Nat := 0x600014
/-- Address of Q_C0STAT (R346). -/
abbrev R.Q_C0STAT : Nat := 0x600018
/-- Address of Q_LINKCNT (R346). -/
abbrev R.Q_LINKCNT : Nat := 0x60001C
/-- Address of Q_CTXSEL (R346). -/
abbrev R.Q_CTXSEL : Nat := 0x600020
/-- Address of Q_CTXCMD (R346). -/
abbrev R.Q_CTXCMD : Nat := 0x600024
/-- Address of Q_CTXSTAT (R346). -/
abbrev R.Q_CTXSTAT : Nat := 0x600028
/-- Address of Q_CTXD (R346). -/
abbrev R.Q_CTXD (i : Nat) : Nat := 0x600100 + 0x4 * i
/-- Address of Q_FRANGE (R346). -/
abbrev R.Q_FRANGE (i : Nat) : Nat := 0x600200 + 0x4 * i
/-- Address of Q_FPERM (R346). -/
abbrev R.Q_FPERM (i : Nat) : Nat := 0x600280 + 0x4 * i
/-- Address of Q_MSIXTAB (R317). -/
abbrev R.Q_MSIXTAB (i j : Nat) : Nat := 0x680000 + 0x10 * i + 0x4 * j
/-- Address of Q_MSIXPBA (R317). -/
abbrev R.Q_MSIXPBA (i : Nat) : Nat := 0x688000 + 0x4 * i
/-- Address of DMA_CMD (R368). -/
abbrev R.DMA_CMD : Nat := 0x700000
/-- Address of DMA_STAT (R368). -/
abbrev R.DMA_STAT : Nat := 0x700004
/-- Address of DMA_HALTINFO (R368). -/
abbrev R.DMA_HALTINFO : Nat := 0x700008
/-- Address of DMA_CNT (R368). -/
abbrev R.DMA_CNT : Nat := 0x70000C
/-- Address of DMA_HALTADDR_LO (R368). -/
abbrev R.DMA_HALTADDR_LO : Nat := 0x700010
/-- Address of DMA_HALTADDR_HI (R368). -/
abbrev R.DMA_HALTADDR_HI : Nat := 0x700014
/-- Address of DMA_CH_CFG (R368). -/
abbrev R.DMA_CH_CFG (i : Nat) : Nat := 0x701000 + 0x40 * i
/-- Address of DMA_CH_CMD (R368). -/
abbrev R.DMA_CH_CMD (i : Nat) : Nat := 0x701004 + 0x40 * i
/-- Address of DMA_CH_STAT (R368). -/
abbrev R.DMA_CH_STAT (i : Nat) : Nat := 0x701008 + 0x40 * i
/-- Address of DMA_CH_TAIL (R368). -/
abbrev R.DMA_CH_TAIL (i : Nat) : Nat := 0x70100C + 0x40 * i
/-- Address of DMA_CH_BASE_LO (R368). -/
abbrev R.DMA_CH_BASE_LO (i : Nat) : Nat := 0x701010 + 0x40 * i
/-- Address of DMA_CH_BASE_HI (R368). -/
abbrev R.DMA_CH_BASE_HI (i : Nat) : Nat := 0x701014 + 0x40 * i
/-- Address of DMA_CH_DONE (R368). -/
abbrev R.DMA_CH_DONE (i : Nat) : Nat := 0x701018 + 0x40 * i
/-- Address of DMA_CH_VEC (R368). -/
abbrev R.DMA_CH_VEC (i : Nat) : Nat := 0x70101C + 0x40 * i
/-- Address of DMA_CH_BYTES_LO (R368). -/
abbrev R.DMA_CH_BYTES_LO (i : Nat) : Nat := 0x701020 + 0x40 * i
/-- Address of DMA_CH_BYTES_HI (R368). -/
abbrev R.DMA_CH_BYTES_HI (i : Nat) : Nat := 0x701024 + 0x40 * i
/-- Address of EN_BSTAT (R250). -/
abbrev R.EN_BSTAT (i : Nat) : Nat := 0x800000 + 0x10000 * i
/-- Address of EN_BCMD (R250). -/
abbrev R.EN_BCMD (i : Nat) : Nat := 0x800004 + 0x10000 * i
/-- Address of EN_BCNT (R250). -/
abbrev R.EN_BCNT (i : Nat) : Nat := 0x800008 + 0x10000 * i
/-- Address of EN_SHCFG (R250). -/
abbrev R.EN_SHCFG (i : Nat) : Nat := 0x800010 + 0x10000 * i
/-- Address of EN_SHSTAT (R250). -/
abbrev R.EN_SHSTAT (i : Nat) : Nat := 0x800014 + 0x10000 * i
/-- Address of EN_MCMD (R250). -/
abbrev R.EN_MCMD : Nat := 0x800800
/-- Address of EN_MCSTAT (R250). -/
abbrev R.EN_MCSTAT : Nat := 0x800804
/-- Address of EN_MCBASE (R250). -/
abbrev R.EN_MCBASE : Nat := 0x800808
/-- Address of EN_MCVER (R250). -/
abbrev R.EN_MCVER : Nat := 0x80080C
/-- Address of EN_MCMIN (R250). -/
abbrev R.EN_MCMIN : Nat := 0x800810
/-- Address of EN_RCMD (R250). -/
abbrev R.EN_RCMD : Nat := 0x800820
/-- Address of EN_RSTAT (R250). -/
abbrev R.EN_RSTAT : Nat := 0x800824
/-- Address of EN_RBASE (R250). -/
abbrev R.EN_RBASE : Nat := 0x800828
/-- Address of EN_HRCP (R250). -/
abbrev R.EN_HRCP (i : Nat) : Nat := 0x800840 + 0x4 * i
/-- Address of DR_CSTAT (R462). -/
abbrev R.DR_CSTAT (i : Nat) : Nat := 0x900000 + 0x40 * i
/-- Address of DR_ECC (R462). -/
abbrev R.DR_ECC (i : Nat) : Nat := 0x900004 + 0x40 * i
/-- Address of DR_ERRADDR_LO (R462). -/
abbrev R.DR_ERRADDR_LO (i : Nat) : Nat := 0x900008 + 0x40 * i
/-- Address of DR_ERRADDR_HI (R462). -/
abbrev R.DR_ERRADDR_HI (i : Nat) : Nat := 0x90000C + 0x40 * i
/-- Address of DR_CTRL (R462). -/
abbrev R.DR_CTRL : Nat := 0x900800
/-- Address of MON_SNAP (R299). -/
abbrev R.MON_SNAP : Nat := 0xA00000
/-- Address of MON_CLR (R299). -/
abbrev R.MON_CLR : Nat := 0xA00004
/-- Address of MON_PER (R299). -/
abbrev R.MON_PER : Nat := 0xA00008
/-- Address of MON_SNBASE (R299). -/
abbrev R.MON_SNBASE : Nat := 0xA0000C
/-- Address of MON_SNIDX (R299). -/
abbrev R.MON_SNIDX : Nat := 0xA00010
/-- Address of MON_CFG (R299). -/
abbrev R.MON_CFG (i : Nat) : Nat := 0xA01000 + 0x400 * i
/-- Address of MON_BLO (R299). -/
abbrev R.MON_BLO (i : Nat) : Nat := 0xA01004 + 0x400 * i
/-- Address of MON_STAT (R299). -/
abbrev R.MON_STAT (i : Nat) : Nat := 0xA01008 + 0x400 * i
/-- Address of MON_MIN (R299). -/
abbrev R.MON_MIN (i : Nat) : Nat := 0xA01010 + 0x400 * i
/-- Address of MON_MAX (R299). -/
abbrev R.MON_MAX (i : Nat) : Nat := 0xA01014 + 0x400 * i
/-- Address of MON_UNDER (R299). -/
abbrev R.MON_UNDER (i : Nat) : Nat := 0xA01018 + 0x400 * i
/-- Address of MON_OVER (R299). -/
abbrev R.MON_OVER (i : Nat) : Nat := 0xA0101C + 0x400 * i
/-- Address of MON_CNT_LO (R299). -/
abbrev R.MON_CNT_LO (i : Nat) : Nat := 0xA01020 + 0x400 * i
/-- Address of MON_CNT_HI (R299). -/
abbrev R.MON_CNT_HI (i : Nat) : Nat := 0xA01024 + 0x400 * i
/-- Address of MON_SMIN (R299). -/
abbrev R.MON_SMIN (i : Nat) : Nat := 0xA01040 + 0x400 * i
/-- Address of MON_SMAX (R299). -/
abbrev R.MON_SMAX (i : Nat) : Nat := 0xA01044 + 0x400 * i
/-- Address of MON_SUNDER (R299). -/
abbrev R.MON_SUNDER (i : Nat) : Nat := 0xA01048 + 0x400 * i
/-- Address of MON_SOVER (R299). -/
abbrev R.MON_SOVER (i : Nat) : Nat := 0xA0104C + 0x400 * i
/-- Address of MON_SCNT_LO (R299). -/
abbrev R.MON_SCNT_LO (i : Nat) : Nat := 0xA01050 + 0x400 * i
/-- Address of MON_SCNT_HI (R299). -/
abbrev R.MON_SCNT_HI (i : Nat) : Nat := 0xA01054 + 0x400 * i
/-- Address of MON_SDT_LO (R299). -/
abbrev R.MON_SDT_LO (i : Nat) : Nat := 0xA01058 + 0x400 * i
/-- Address of MON_SDT_HI (R299). -/
abbrev R.MON_SDT_HI (i : Nat) : Nat := 0xA0105C + 0x400 * i
/-- Address of MON_HIST (R299). -/
abbrev R.MON_HIST (i j : Nat) : Nat := 0xA01100 + 0x400 * i + 0x4 * j
/-- Address of MON_SHIST (R299). -/
abbrev R.MON_SHIST (i j : Nat) : Nat := 0xA01200 + 0x400 * i + 0x4 * j
/-- Address of TXN_CMD (R315). -/
abbrev R.TXN_CMD : Nat := 0xB00000
/-- Address of TXN_OPENRES (R315). -/
abbrev R.TXN_OPENRES : Nat := 0xB00004
/-- Address of TXN_CCFG (R315). -/
abbrev R.TXN_CCFG : Nat := 0xB00008
/-- Address of TXN_SHND (R315). -/
abbrev R.TXN_SHND : Nat := 0xB0000C
/-- Address of TXN_SADDR (R315). -/
abbrev R.TXN_SADDR : Nat := 0xB00010
/-- Address of TXN_SVAL (R315). -/
abbrev R.TXN_SVAL : Nat := 0xB00014
/-- Address of TXN_GEN (R315). -/
abbrev R.TXN_GEN (i : Nat) : Nat := 0xB00100 + 0x4 * i
/-- Address of TXN_HSTAT (R315). -/
abbrev R.TXN_HSTAT (i : Nat) : Nat := 0xB00204 + 0x4 * i
/-- Address of TXN_HINFO (R315). -/
abbrev R.TXN_HINFO (i : Nat) : Nat := 0xB00284 + 0x4 * i
/-- Address of GP_DIR (R76). -/
abbrev R.GP_DIR (i : Nat) : Nat := 0xC00000 + 0x4 * i
/-- Address of GP_OUT (R76). -/
abbrev R.GP_OUT (i : Nat) : Nat := 0xC00008 + 0x4 * i
/-- Address of GP_SET (R76). -/
abbrev R.GP_SET (i : Nat) : Nat := 0xC00010 + 0x4 * i
/-- Address of GP_CLR (R76). -/
abbrev R.GP_CLR (i : Nat) : Nat := 0xC00018 + 0x4 * i
/-- Address of MC_CFG (R400). -/
abbrev R.MC_CFG : Nat := 0xD00000
/-- Address of MC_CTRL (R400). -/
abbrev R.MC_CTRL : Nat := 0xD00004
/-- Address of MC_STAT (R400). -/
abbrev R.MC_STAT : Nat := 0xD00008
/-- Address of MC_LAST (R400). -/
abbrev R.MC_LAST : Nat := 0xD0000C
/-- Address of MC_CNT (R400). -/
abbrev R.MC_CNT : Nat := 0xD00010
/-- Address of MC_SCRUB (R400). -/
abbrev R.MC_SCRUB : Nat := 0xD00014
/-- Address of MC_SCRUBCNT (R400). -/
abbrev R.MC_SCRUBCNT : Nat := 0xD00018
/-- Address of MC_SCRUBPASS (R400). -/
abbrev R.MC_SCRUBPASS : Nat := 0xD0001C
/-- Address of MC_SCRUBERR_LO (R400). -/
abbrev R.MC_SCRUBERR_LO : Nat := 0xD00020
/-- Address of MC_SCRUBERR_HI (R400). -/
abbrev R.MC_SCRUBERR_HI : Nat := 0xD00024

/-- One row of the register map: the base address, two index dimensions (count and byte stride; count 1 where
there is none), the bits a read returns (RW, RO, W1C and W1S bits of Table 0-3), the bits a write sets (RW), the bits
a write of 1 clears (W1C), and the reset value. -/
structure RegDesc where
  base : Nat
  n1 : Nat
  s1 : Nat
  n2 : Nat
  s2 : Nat
  readable : Word
  writable : Word
  w1c : Word
  reset : Word
  deriving DecidableEq, Repr

/-- The row holds address `a`. -/
def RegDesc.holds (d : RegDesc) (a : Nat) : Bool :=
  d.base ≤ a && (List.range d.n2).any fun j =>
    let b := d.base + d.s2 * j
    b ≤ a && (if d.s1 = 0 then a == b else (a - b) % d.s1 == 0 && (a - b) / d.s1 < d.n1)

/-- Register map rows of the SYS window. -/
def regTableSys : List RegDesc :=
  [
   ⟨0x0, 1, 0x0, 1, 0x0, 0xFFFFFF00, 0x0, 0x0, 0x8128C000⟩ /- SYS_ID -/,
   ⟨0x4, 1, 0x0, 1, 0x0, 0xFFFF, 0x0, 0x0, 0x1F6D⟩ /- SYS_VENDOR -/,
   ⟨0x8, 1, 0x0, 1, 0x0, 0xFFFFFFFF, 0x0, 0x0, 0x30000⟩ /- SYS_MAPVER -/,
   ⟨0xC, 1, 0x0, 1, 0x0, 0xFFFFFFFF, 0x0, 0x0, 0x0⟩ /- SYS_TESTDATE -/,
   ⟨0x10, 1, 0x0, 1, 0x0, 0xFFFFFFFF, 0x0, 0x0, 0x0⟩ /- SYS_SERIAL_LO -/,
   ⟨0x14, 1, 0x0, 1, 0x0, 0xFFFFFFFF, 0x0, 0x0, 0x0⟩ /- SYS_SERIAL_HI -/,
   ⟨0x18, 1, 0x0, 1, 0x0, 0x7, 0x0, 0x7, 0x0⟩ /- SYS_RSTCAUSE -/,
   ⟨0x200, 1, 0x0, 1, 0x0, 0x3F, 0x0, 0x0, 0x0⟩ /- SYS_MODECMD -/,
   ⟨0x204, 1, 0x0, 1, 0x0, 0xF0F0FF07, 0x0, 0x0, 0x1⟩ /- SYS_MODESTAT -/,
   ⟨0x208, 1, 0x0, 1, 0x0, 0x7F, 0x0, 0x7F, 0x0⟩ /- SYS_SAFECAUSE -/,
   ⟨0x20C, 1, 0x0, 1, 0x0, 0xFF, 0xFF, 0x0, 0x0⟩ /- SYS_STREAM -/,
   ⟨0x210, 1, 0x0, 1, 0x0, 0xFFFFBFFF, 0x0, 0x3FFF0000, 0x0⟩ /- SYS_PWRSTAT -/,
   ⟨0x300, 1, 0x0, 1, 0x0, 0xFCFFFFFF, 0x0, 0x7C000000, 0x0⟩ /- SYS_MSPSTAT -/,
   ⟨0x304, 1, 0x0, 1, 0x0, 0xFFFFFFFF, 0x0, 0x0, 0x0⟩ /- SYS_MSPCNT -/,
   ⟨0x308, 1, 0x0, 1, 0x0, 0x1, 0x0, 0x0, 0x0⟩ /- SYS_MSPCTRL -/,
   ⟨0x400, 1, 0x0, 1, 0x0, 0x1F03, 0x1F00, 0x0, 0x0⟩ /- SYS_PLAN_CMD -/,
   ⟨0x404, 1, 0x0, 1, 0x0, 0x8000FF03, 0x0, 0x0, 0x0⟩ /- SYS_PLAN_STAT -/,
   ⟨0x408, 1, 0x0, 1, 0x0, 0xFFFFFFFF, 0x0, 0x0, 0x0⟩ /- SYS_PLAN_LOAD0 -/,
   ⟨0x40C, 1, 0x0, 1, 0x0, 0xFFFFFFFF, 0x0, 0x0, 0x0⟩ /- SYS_PLAN_LOAD1 -/,
   ⟨0x410, 1, 0x0, 1, 0x0, 0xFFFFFFFF, 0x0, 0x0, 0x0⟩ /- SYS_PLAN_RATE -/,
   ⟨0x414, 1, 0x0, 1, 0x0, 0x3FFF, 0x3FFF, 0x0, 0x2134⟩ /- SYS_PLAN_LIMIT -/,
   ⟨0x418, 1, 0x0, 1, 0x0, 0xFF, 0x0, 0x0, 0x0⟩ /- SYS_PLAN_HELD -/]

/-- Register map rows of the FC window. -/
def regTableFc : List RegDesc :=
  [
   ⟨0x10000, 1, 0x0, 1, 0x0, 0xFFFFFFFF, 0x0, 0xFFFFFFFF, 0x0⟩ /- FC_FSW_LO -/,
   ⟨0x10004, 1, 0x0, 1, 0x0, 0xFFFFFFFF, 0x0, 0xFFFFFFFF, 0x0⟩ /- FC_FSW_HI -/,
   ⟨0x10008, 1, 0x0, 1, 0x0, 0xFFFFFFFF, 0x0, 0x0, 0x0⟩ /- FC_LIVE_LO -/,
   ⟨0x1000C, 1, 0x0, 1, 0x0, 0xFFFFFFFF, 0x0, 0x0, 0x0⟩ /- FC_LIVE_HI -/,
   ⟨0x10010, 1, 0x0, 1, 0x0, 0xFFFFFFFF, 0x0, 0x0, 0x0⟩ /- FC_ACK_LO -/,
   ⟨0x10014, 1, 0x0, 1, 0x0, 0xFFFFFFFF, 0x0, 0x0, 0x0⟩ /- FC_ACK_HI -/,
   ⟨0x10018, 1, 0x0, 1, 0x0, 0xFFFFFFFF, 0x0, 0x0, 0x0⟩ /- FC_FORCE_LO -/,
   ⟨0x1001C, 1, 0x0, 1, 0x0, 0xFFFFFFFF, 0x0, 0x0, 0x0⟩ /- FC_FORCE_HI -/,
   ⟨0x10020, 1, 0x0, 1, 0x0, 0xFF0F, 0xFF03, 0x0, 0x0⟩ /- FC_CTRL -/,
   ⟨0x10024, 1, 0x0, 1, 0x0, 0xF83F0000, 0x0, 0xF8000000, 0x0⟩ /- FC_STAT -/,
   ⟨0x10028, 1, 0x0, 1, 0x0, 0xF000003F, 0x0, 0x0, 0x0⟩ /- FC_FIRST -/,
   ⟨0x1002C, 1, 0x0, 1, 0x0, 0xFFFFFFFF, 0x0, 0x0, 0x0⟩ /- FC_FIRSTDT_LO -/,
   ⟨0x10030, 1, 0x0, 1, 0x0, 0xFFFFFFFF, 0x0, 0x0, 0x0⟩ /- FC_FIRSTDT_HI -/,
   ⟨0x10034, 1, 0x0, 1, 0x0, 0xFFFFFFFF, 0x0, 0x0, 0x0⟩ /- FC_LOGSEQ -/,
   ⟨0x10038, 1, 0x0, 1, 0x0, 0xFFFFFFFF, 0x0, 0x0, 0x0⟩ /- FC_LOGLOST -/,
   ⟨0x10040, 1, 0x0, 1, 0x0, 0xFFFFFFFF, 0x0, 0x0, 0x0⟩ /- FC_RET_LO -/,
   ⟨0x10044, 1, 0x0, 1, 0x0, 0xFFFFFFFF, 0x0, 0x0, 0x0⟩ /- FC_RET_HI -/,
   ⟨0x10048, 1, 0x0, 1, 0x0, 0xFFFFFFFF, 0x0, 0x0, 0x0⟩ /- FC_RESTORE_LO -/,
   ⟨0x1004C, 1, 0x0, 1, 0x0, 0xFFFFFFFF, 0x0, 0x0, 0x0⟩ /- FC_RESTORE_HI -/,
   ⟨0x10100, 64, 0x8, 1, 0x0, 0xFFFFFFFB, 0x0, 0x0, 0x0⟩ /- FC_SRC -/,
   ⟨0x10104, 64, 0x8, 1, 0x0, 0xFFFFFFFF, 0x0, 0x0, 0x0⟩ /- FC_DEP -/]

/-- Register map rows of the HK window. -/
def regTableHk : List RegDesc :=
  [
   ⟨0x20000, 1, 0x0, 1, 0x0, 0xFFFF03F0, 0xFFFF03F0, 0x0, 0x640050⟩ /- HK_CFG -/,
   ⟨0x20004, 1, 0x0, 1, 0x0, 0xFFFF3F07, 0xFFFF3F07, 0x0, 0x0⟩ /- HK_TRIG -/,
   ⟨0x20008, 1, 0x0, 1, 0x0, 0x3FFFF, 0x3FFFF, 0x0, 0x0⟩ /- HK_XMASK -/,
   ⟨0x2000C, 1, 0x0, 1, 0x0, 0x8000007F, 0x7F, 0x0, 0x0⟩ /- HK_INJ -/,
   ⟨0x20010, 1, 0x0, 1, 0x0, 0xE000FF1F, 0x0, 0x60000000, 0x0⟩ /- HK_STAT -/,
   ⟨0x20014, 1, 0x0, 1, 0x0, 0xFFFFFFFF, 0x0, 0x0, 0x0⟩ /- HK_ROUND -/,
   ⟨0x20018, 1, 0x0, 1, 0x0, 0xFFFFFFFF, 0x0, 0x0, 0x0⟩ /- HK_RDT_LO -/,
   ⟨0x2001C, 1, 0x0, 1, 0x0, 0xFFFFFFFF, 0x0, 0x0, 0x0⟩ /- HK_RDT_HI -/,
   ⟨0x20100, 96, 0x4, 1, 0x0, 0xFFFF0FFF, 0x0, 0x0, 0x0⟩ /- HK_RES -/,
   ⟨0x20800, 1, 0x0, 1, 0x0, 0xF0FFFFFF, 0xF0FFFFFF, 0x0, 0x506E645F⟩ /- TH_CFG -/,
   ⟨0x20804, 1, 0x0, 1, 0x0, 0xFBFFFFFF, 0x0, 0x18000000, 0x0⟩ /- TH_STAT -/,
   ⟨0x20808, 1, 0x0, 1, 0x0, 0xFFFFFF, 0x0, 0xFFFFFF, 0x0⟩ /- TH_SFAIL -/,
   ⟨0x2080C, 1, 0x0, 1, 0x0, 0xFFFFFF, 0xFFFFFF, 0x0, 0x0⟩ /- TH_MASK -/,
   ⟨0x20880, 8, 0x4, 1, 0x0, 0xF, 0xF, 0x0, 0x2⟩ /- TH_HPOL -/,
   ⟨0x20900, 24, 0x4, 1, 0x0, 0xFFFF, 0x0, 0x0, 0x0⟩ /- TH_TEMP -/]

/-- Register map rows of the NV window. -/
def regTableNv : List RegDesc :=
  [
   ⟨0x30000, 1, 0x0, 1, 0x0, 0x1, 0x0, 0x0, 0x0⟩ /- NV_CTRL -/,
   ⟨0x30004, 1, 0x0, 1, 0x0, 0x1, 0x0, 0x0, 0x0⟩ /- NV_CMD -/,
   ⟨0x30008, 1, 0x0, 1, 0x0, 0xFFF00000, 0x0, 0xF000000, 0x0⟩ /- NV_STAT -/,
   ⟨0x3000C, 1, 0x0, 1, 0x0, 0x3FFFFF, 0x3FFFFF, 0x0, 0x0⟩ /- NV_WADDR -/,
   ⟨0x30010, 1, 0x0, 1, 0x0, 0x1FF, 0x1FF, 0x0, 0x100⟩ /- NV_WLEN -/,
   ⟨0x30014, 1, 0x0, 1, 0x0, 0x7F, 0x7F, 0x0, 0x0⟩ /- NV_WIN -/,
   ⟨0x30018, 1, 0x0, 1, 0x0, 0x1FFFFF, 0x0, 0x0, 0x0⟩ /- NV_DIRTY -/,
   ⟨0x3001C, 1, 0x0, 1, 0x0, 0xFFFFFFFF, 0x0, 0x0, 0x0⟩ /- NV_CNT -/,
   ⟨0x30020, 1, 0x0, 1, 0x0, 0x7F, 0x0, 0x0, 0x7E⟩ /- NV_SPARE -/,
   ⟨0x30024, 1, 0x0, 1, 0x0, 0xFFFFFFFF, 0x0, 0x0, 0x0⟩ /- NV_BOOT -/,
   ⟨0x30028, 1, 0x0, 1, 0x0, 0xFFFFFFFF, 0x0, 0x0, 0x0⟩ /- NV_HOURS -/,
   ⟨0x30100, 64, 0x4, 1, 0x0, 0xFFFFFFFF, 0xFFFFFFFF, 0x0, 0x0⟩ /- NV_WBUF -/]

/-- Register map rows of the TRG window. -/
def regTableTrg : List RegDesc :=
  [
   ⟨0x40000, 1, 0x0, 1, 0x0, 0xFFFFFFFF, 0x0, 0x0, 0x0⟩ /- TRG_DT_LO -/,
   ⟨0x40004, 1, 0x0, 1, 0x0, 0xFFFFFFFF, 0x0, 0x0, 0x0⟩ /- TRG_DT_HI -/,
   ⟨0x40008, 1, 0x0, 1, 0x0, 0x8001FF03, 0x0, 0x80000000, 0x0⟩ /- TRG_DTSTAT -/,
   ⟨0x40010, 1, 0x0, 1, 0x0, 0x7, 0x3, 0x0, 0x0⟩ /- TRG_CTRL -/,
   ⟨0x40014, 1, 0x0, 1, 0x0, 0xFFFFFFFF, 0x0, 0x0, 0x0⟩ /- TRG_STAT -/,
   ⟨0x40018, 1, 0x0, 1, 0x0, 0xFFFF, 0xFFFF, 0x0, 0x0⟩ /- TRG_CABLEDLY -/,
   ⟨0x4001C, 1, 0x0, 1, 0x0, 0xFFFF, 0xFFFF, 0x0, 0x1000⟩ /- TRG_ALIGN -/,
   ⟨0x40020, 1, 0x0, 1, 0x0, 0xFFFFFFFF, 0x0, 0x0, 0x0⟩ /- TRG_TAIOFF_LO -/,
   ⟨0x40024, 1, 0x0, 1, 0x0, 0xFFFFFFFF, 0x0, 0x0, 0x0⟩ /- TRG_TAIOFF_HI -/,
   ⟨0x40028, 1, 0x0, 1, 0x0, 0xFFFFFFFF, 0x0, 0x0, 0x0⟩ /- TRG_ERRCNT -/,
   ⟨0x40040, 4, 0x20, 1, 0x0, 0x7, 0x7, 0x0, 0x0⟩ /- TRG_TRIGCFG -/,
   ⟨0x40044, 4, 0x20, 1, 0x0, 0xFFFFFFFF, 0xFFFFFFFF, 0x0, 0x0⟩ /- TRG_TRIGPER -/,
   ⟨0x40048, 4, 0x20, 1, 0x0, 0xFFFFFFFF, 0x0, 0x0, 0x0⟩ /- TRG_TRIGCNT -/,
   ⟨0x4004C, 4, 0x20, 1, 0x0, 0x80000003, 0x0, 0x80000001, 0x0⟩ /- TRG_TRIGSTAT -/,
   ⟨0x40050, 4, 0x20, 1, 0x0, 0xFFFFFFFF, 0x0, 0x0, 0x0⟩ /- TRG_TRIGDT_LO -/,
   ⟨0x40054, 4, 0x20, 1, 0x0, 0xFFFFFFFF, 0x0, 0x0, 0x0⟩ /- TRG_TRIGDT_HI -/,
   ⟨0x40100, 4, 0x4, 1, 0x0, 0xFFFFFFFF, 0xFFFFFFFF, 0x0, 0x0⟩ /- TRG_MSGTX -/,
   ⟨0x40110, 1, 0x0, 1, 0x0, 0x3FF1F, 0xFF1F, 0x0, 0x0⟩ /- TRG_MSGCMD -/,
   ⟨0x40114, 1, 0x0, 1, 0x0, 0xC3FF000F, 0x0, 0x40000000, 0x0⟩ /- TRG_MSGSTAT -/,
   ⟨0x40120, 4, 0x4, 1, 0x0, 0xFFFFFFFF, 0x0, 0x0, 0x0⟩ /- TRG_MSGRX -/,
   ⟨0x40130, 1, 0x0, 1, 0x0, 0xFF1F, 0x0, 0x0, 0x0⟩ /- TRG_MSGRXHDR -/]

/-- Register map rows of the HP window. -/
def regTableHp : List RegDesc :=
  [
   ⟨0x100000, 8, 0x10000, 1, 0x0, 0xFF, 0xFF, 0x0, 0x0⟩ /- HP_CTRL -/,
   ⟨0x100004, 8, 0x10000, 1, 0x0, 0x3D, 0x0, 0x0, 0x0⟩ /- HP_CMD -/,
   ⟨0x100008, 8, 0x10000, 1, 0x0, 0xFFFFFF00, 0x0, 0x200, 0x0⟩ /- HP_STAT -/,
   ⟨0x10000C, 8, 0x10000, 1, 0x0, 0x1FFF, 0x0, 0x1FFF, 0x0⟩ /- HP_FLT -/,
   ⟨0x100010, 8, 0x10000, 1, 0x0, 0xFFFFFFFF, 0xFFFFFFFF, 0x0, 0x0⟩ /- HP_BIAS -/,
   ⟨0x100014, 8, 0x10000, 1, 0x0, 0xFFFFFFFF, 0x0, 0x0, 0x0⟩ /- HP_HSUPMON -/,
   ⟨0x100018, 8, 0x10000, 1, 0x0, 0xFFFF, 0x0, 0x0, 0x0⟩ /- HP_THM -/,
   ⟨0x10001C, 8, 0x10000, 1, 0x0, 0xFFFFFFFF, 0x0, 0x0, 0x0⟩ /- HP_TAPFLT -/,
   ⟨0x100020, 8, 0x10000, 1, 0x0, 0xFFFF, 0x0, 0x0, 0x0⟩ /- HP_TAPSWAP -/,
   ⟨0x100040, 8, 0x10000, 1, 0x0, 0x1FF, 0x1FF, 0x0, 0xC7⟩ /- HCP_CTRL -/,
   ⟨0x100044, 8, 0x10000, 1, 0x0, 0xFFFF, 0xFFFF, 0x0, 0x0⟩ /- HCP_LEN -/,
   ⟨0x100048, 8, 0x10000, 1, 0x0, 0x3, 0x0, 0x0, 0x0⟩ /- HCP_CMD -/,
   ⟨0x10004C, 8, 0x10000, 1, 0x0, 0xC00FFFFF, 0x0, 0x0, 0x0⟩ /- HCP_STAT -/,
   ⟨0x100080, 8, 0x10000, 1, 0x0, 0x3F17, 0x3F17, 0x0, 0x0⟩ /- HP_FRM_CFG -/,
   ⟨0x100084, 8, 0x10000, 1, 0x0, 0xFFFFFFFF, 0xFFFFFFFF, 0x0, 0x0⟩ /- HP_FPER -/,
   ⟨0x100088, 8, 0x10000, 1, 0x0, 0xC0001F1F, 0x0, 0x4000001F, 0x0⟩ /- HP_TSTAT -/,
   ⟨0x10008C, 8, 0x10000, 1, 0x0, 0xFFFFFFFF, 0x0, 0x0, 0x0⟩ /- HP_TCNT0 -/,
   ⟨0x100090, 8, 0x10000, 1, 0x0, 0xFFFFFFFF, 0x0, 0x0, 0x0⟩ /- HP_TCNT1 -/,
   ⟨0x100094, 8, 0x10000, 1, 0x0, 0xFFFFFFFF, 0x0, 0x0, 0x0⟩ /- HP_TCNT2 -/,
   ⟨0x100098, 8, 0x10000, 1, 0x0, 0xFFFFFFFF, 0x0, 0x0, 0x0⟩ /- HP_FSEQ_LO -/,
   ⟨0x10009C, 8, 0x10000, 1, 0x0, 0xFFFFFFFF, 0x0, 0x0, 0x0⟩ /- HP_FSEQ_HI -/,
   ⟨0x1000A0, 8, 0x10000, 1, 0x0, 0xFFFFFFFF, 0x0, 0x0, 0x0⟩ /- HP_FSDT_LO -/,
   ⟨0x1000A4, 8, 0x10000, 1, 0x0, 0xFFFFFFFF, 0x0, 0x0, 0x0⟩ /- HP_FSDT_HI -/,
   ⟨0x101000, 1024, 0x4, 8, 0x10000, 0xFFFFFFFF, 0xFFFFFFFF, 0x0, 0x0⟩ /- HP_PROF -/,
   ⟨0x102000, 2048, 0x4, 8, 0x10000, 0xFFFFFFFF, 0xFFFFFFFF, 0x0, 0x0⟩ /- HCP_TXBUF -/,
   ⟨0x104000, 2048, 0x4, 8, 0x10000, 0xFFFFFFFF, 0x0, 0x0, 0x0⟩ /- HCP_RXBUF -/]

/-- Register map rows of the TC window. -/
def regTableTc : List RegDesc :=
  [
   ⟨0x200000, 8, 0x10000, 1, 0x0, 0x1F, 0x1F, 0x0, 0x0⟩ /- TC_CFG -/,
   ⟨0x200004, 4, 0x20000, 1, 0x0, 0x1, 0x0, 0x0, 0x0⟩ /- TC_CMD -/,
   ⟨0x200008, 8, 0x10000, 1, 0x0, 0xFF00000E, 0x0, 0x6, 0x0⟩ /- TC_STAT -/,
   ⟨0x20000C, 8, 0x10000, 1, 0x0, 0xFFFFFFFF, 0xFFFFFFFF, 0x0, 0x11111111⟩ /- TC_GAIN0 -/,
   ⟨0x200010, 8, 0x10000, 1, 0x0, 0xFFFFFFFF, 0xFFFFFFFF, 0x0, 0x11111111⟩ /- TC_GAIN1 -/,
   ⟨0x200014, 8, 0x10000, 1, 0x0, 0xFFFFFFFF, 0x0, 0x0, 0x11111111⟩ /- TC_GEFF1 -/,
   ⟨0x200018, 4, 0x20000, 1, 0x0, 0xFFFFFFFF, 0x0, 0x0, 0x0⟩ /- TC_CELLREJ -/,
   ⟨0x200020, 4, 0x20000, 1, 0x0, 0x3, 0x3, 0x0, 0x0⟩ /- TC_REFCFG -/,
   ⟨0x200024, 4, 0x20000, 1, 0x0, 0x13FFF, 0x13FFF, 0x0, 0x0⟩ /- TC_SCLK -/,
   ⟨0x200028, 1, 0x0, 1, 0x0, 0xE0FFFFFF, 0x0, 0x0, 0x0⟩ /- TC_BG -/,
   ⟨0x200030, 4, 0x20000, 1, 0x0, 0xFFFFFFFF, 0x0, 0x0, 0x0⟩ /- TC_CALOK -/,
   ⟨0x200034, 4, 0x20000, 1, 0x0, 0xFFFFFFFF, 0x0, 0x0, 0x0⟩ /- TC_CALFAIL -/,
   ⟨0x200038, 4, 0x20000, 1, 0x0, 0xFFFFFFFF, 0x0, 0x0, 0x0⟩ /- TC_CALDT_LO -/,
   ⟨0x20003C, 4, 0x20000, 1, 0x0, 0xFFFFFFFF, 0x0, 0x0, 0x0⟩ /- TC_CALDT_HI -/,
   ⟨0x200040, 4, 0x20000, 1, 0x0, 0xFFFFFFFF, 0x0, 0x0, 0x0⟩ /- TC_CALTAI -/,
   ⟨0x200100, 256, 0x4, 8, 0x10000, 0xFFFF, 0x0, 0x0, 0x0⟩ /- TC_FACT -/]

/-- Register map rows of the CL window. -/
def regTableCl : List RegDesc :=
  [
   ⟨0x300000, 4, 0x10000, 1, 0x0, 0xF000FFFF, 0x0, 0x0, 0x0⟩ /- CL_STAT -/,
   ⟨0x300004, 4, 0x10000, 1, 0x0, 0xFFFFFFFF, 0x0, 0x0, 0x0⟩ /- CL_CNT -/,
   ⟨0x300008, 4, 0x10000, 1, 0x0, 0x1, 0x0, 0x0, 0x0⟩ /- CL_CTRL -/,
   ⟨0x300100, 4, 0x10000, 2, 0x80, 0xFF000007, 0xFF000007, 0x0, 0x40000000⟩ /- CL_HCFG -/,
   ⟨0x300104, 4, 0x10000, 2, 0x80, 0x7, 0x0, 0x0, 0x0⟩ /- CL_HCMD -/,
   ⟨0x300108, 4, 0x10000, 2, 0x80, 0xFF00000F, 0x0, 0xC, 0x0⟩ /- CL_HSTAT -/,
   ⟨0x30010C, 4, 0x10000, 2, 0x80, 0xF, 0xF, 0x0, 0x0⟩ /- CL_HMIR -/,
   ⟨0x300110, 4, 0x10000, 2, 0x80, 0x7FFFFF, 0x7FFFFF, 0x0, 0x0⟩ /- CL_HLA -/,
   ⟨0x300114, 4, 0x10000, 2, 0x80, 0x7FFFFF, 0x7FFFFF, 0x0, 0x0⟩ /- CL_HLB -/,
   ⟨0x300118, 4, 0x10000, 2, 0x80, 0x7FFFFF, 0x7FFFFF, 0x0, 0x0⟩ /- CL_HRA -/,
   ⟨0x30011C, 4, 0x10000, 2, 0x80, 0x7FFFFF, 0x7FFFFF, 0x0, 0x0⟩ /- CL_HRB -/,
   ⟨0x300120, 4, 0x10000, 2, 0x80, 0x7FFFFF, 0x7FFFFF, 0x0, 0x0⟩ /- CL_HMLA -/,
   ⟨0x300124, 4, 0x10000, 2, 0x80, 0x7FFFFF, 0x7FFFFF, 0x0, 0x0⟩ /- CL_HMLB -/,
   ⟨0x300128, 4, 0x10000, 2, 0x80, 0x7FFFFF, 0x7FFFFF, 0x0, 0x0⟩ /- CL_HMRA -/,
   ⟨0x30012C, 4, 0x10000, 2, 0x80, 0x7FFFFF, 0x7FFFFF, 0x0, 0x0⟩ /- CL_HMRB -/,
   ⟨0x300130, 4, 0x10000, 2, 0x80, 0xFFFFFFFF, 0x0, 0x0, 0x0⟩ /- CL_HCNT -/]

/-- Register map rows of the CX window. -/
def regTableCx : List RegDesc :=
  [
   ⟨0x340000, 4, 0x10000, 1, 0x0, 0xFFFF01, 0xFFFF00, 0x0, 0x0⟩ /- CX_CTRL -/,
   ⟨0x340004, 4, 0x10000, 1, 0x0, 0xFFFFFFFF, 0x0, 0x0, 0x0⟩ /- CX_STAT -/,
   ⟨0x340008, 4, 0x10000, 1, 0x0, 0xFFFFFFFF, 0x0, 0x0, 0x0⟩ /- CX_RCNT -/,
   ⟨0x340010, 1, 0x0, 1, 0x0, 0xFFFFFFFF, 0xFFFFFFFF, 0x0, 0x0⟩ /- CX_TAISW_LO -/,
   ⟨0x340014, 1, 0x0, 1, 0x0, 0xFFFFFFFF, 0xFFFFFFFF, 0x0, 0x0⟩ /- CX_TAISW_HI -/,
   ⟨0x340100, 4, 0x10000, 2, 0x80, 0xE1FF, 0xE1FF, 0x0, 0x0⟩ /- CX_HCFG -/,
   ⟨0x340104, 4, 0x10000, 2, 0x80, 0xFFFFFFFF, 0xFFFFFFFF, 0x0, 0x3E003800⟩ /- CX_HKNEE -/,
   ⟨0x340108, 4, 0x10000, 2, 0x80, 0xFFFF, 0xFFFF, 0x0, 0x0⟩ /- CX_HTFIX -/,
   ⟨0x34010C, 4, 0x10000, 2, 0x80, 0xFFFFFF, 0xFFFFFF, 0x0, 0x0⟩ /- CX_HFILL -/,
   ⟨0x340110, 4, 0x10000, 2, 0x80, 0x1F, 0x0, 0x13, 0x0⟩ /- CX_HSTAT -/,
   ⟨0x340114, 4, 0x10000, 2, 0x80, 0x1FFFF, 0x0, 0x0, 0x0⟩ /- CX_HDT -/,
   ⟨0x340118, 4, 0x10000, 2, 0x80, 0xFFFFFFFF, 0x0, 0x0, 0x0⟩ /- CX_HAGE -/,
   ⟨0x340120, 4, 0x10000, 2, 0x80, 0xFFFFFFFF, 0x0, 0x0, 0x0⟩ /- CX_HLAST0 -/,
   ⟨0x340124, 4, 0x10000, 2, 0x80, 0xFFFFFFFF, 0x0, 0x0, 0x0⟩ /- CX_HLAST1 -/,
   ⟨0x340128, 4, 0x10000, 2, 0x80, 0xFFFFFFFF, 0x0, 0x0, 0x0⟩ /- CX_HLAST2 -/,
   ⟨0x34012C, 4, 0x10000, 2, 0x80, 0xFFFFFFFF, 0x0, 0x0, 0x0⟩ /- CX_HCNT -/,
   ⟨0x340130, 4, 0x10000, 2, 0x80, 0xF000FF0F, 0xF000FF0F, 0x0, 0x80000000⟩ /- CX_SCFG -/,
   ⟨0x340134, 4, 0x10000, 2, 0x80, 0x1B, 0x0, 0x0, 0x0⟩ /- CX_SCMD -/,
   ⟨0x340138, 4, 0x10000, 2, 0x80, 0xFFFEFFFF, 0x0, 0x0, 0x0⟩ /- CX_SSTAT -/,
   ⟨0x34013C, 4, 0x10000, 2, 0x80, 0xFFFFFFFF, 0xFFFFFFFF, 0x0, 0xA200190⟩ /- CX_SLIM -/,
   ⟨0x340140, 4, 0x10000, 2, 0x80, 0xFFFFFFFF, 0xFFFFFFFF, 0x0, 0x0⟩ /- CX_SSCHED -/,
   ⟨0x340144, 4, 0x10000, 2, 0x80, 0xFFFFFFFF, 0xFFFFFFFF, 0x0, 0x0⟩ /- CX_SQLEN -/,
   ⟨0x340148, 4, 0x10000, 2, 0x80, 0xFFFFFFFF, 0xFFFFFFFF, 0x0, 0x0⟩ /- CX_SQST_LO -/,
   ⟨0x34014C, 4, 0x10000, 2, 0x80, 0xFFFFFFFF, 0xFFFFFFFF, 0x0, 0x0⟩ /- CX_SQST_HI -/,
   ⟨0x340150, 4, 0x10000, 2, 0x80, 0xFFFFFFFF, 0x0, 0x0, 0x0⟩ /- CX_SOK -/,
   ⟨0x340154, 4, 0x10000, 2, 0x80, 0xFFFFFFFF, 0x0, 0x0, 0x0⟩ /- CX_SFAIL -/,
   ⟨0x340158, 4, 0x10000, 2, 0x80, 0xFFFFFFFF, 0x0, 0x0, 0x0⟩ /- CX_SLDT_LO -/,
   ⟨0x34015C, 4, 0x10000, 2, 0x80, 0xFFFFFFFF, 0x0, 0x0, 0x0⟩ /- CX_SLDT_HI -/,
   ⟨0x340160, 4, 0x10000, 2, 0x80, 0xFFFFFFFF, 0x0, 0x0, 0x0⟩ /- CX_SLTAI -/,
   ⟨0x340164, 4, 0x10000, 2, 0x80, 0xFFFFFF0E, 0xFFFFFF0E, 0x0, 0x1642000⟩ /- CX_RCFG -/,
   ⟨0x340168, 4, 0x10000, 2, 0x80, 0xFFFFFF03, 0x0, 0x0, 0x0⟩ /- CX_RSTAT -/,
   ⟨0x34016C, 4, 0x10000, 2, 0x80, 0xFFFFFFFF, 0x0, 0x0, 0x0⟩ /- CX_BREF -/,
   ⟨0x340170, 4, 0x10000, 2, 0x80, 0xFFFFFFFF, 0xFFFFFFFF, 0x0, 0x3001032⟩ /- CX_DFCFG -/,
   ⟨0x340174, 4, 0x10000, 2, 0x80, 0xF800FFFF, 0x0, 0x0, 0x0⟩ /- CX_DFSTAT -/,
   ⟨0x340178, 4, 0x10000, 2, 0x80, 0x7FFFFF, 0x7FFFFF, 0x0, 0x0⟩ /- CX_DHIST -/,
   ⟨0x34017C, 4, 0x10000, 2, 0x80, 0x7FFFFF, 0x7FFFFF, 0x0, 0x0⟩ /- CX_SWORK -/]

/-- Register map rows of the FP window. -/
def regTableFp : List RegDesc :=
  [
   ⟨0x400000, 4, 0x10000, 1, 0x0, 0x3, 0x2, 0x0, 0x0⟩ /- FP_CTRL -/,
   ⟨0x400004, 4, 0x10000, 1, 0x0, 0xFFF0FFFF, 0x0, 0x0, 0xF00000⟩ /- FP_STAT -/,
   ⟨0x400100, 4, 0x10000, 2, 0x80, 0x7, 0x7, 0x0, 0x0⟩ /- FP_HASSIGN -/,
   ⟨0x400104, 4, 0x10000, 2, 0x80, 0xFFF337, 0xFFF337, 0x0, 0x111000⟩ /- FP_HOUT -/,
   ⟨0x400108, 4, 0x10000, 2, 0x80, 0xFFFC1F0F, 0xFFFC1F0F, 0x0, 0x0⟩ /- FP_HTONE -/,
   ⟨0x40010C, 4, 0x10000, 2, 0x80, 0x3FF03FF, 0x3FF03FF, 0x0, 0x3E60002⟩ /- FP_HTAUTO -/,
   ⟨0x400110, 4, 0x10000, 2, 0x80, 0xFFFFFFFF, 0xFFFFFFFF, 0x0, 0x0⟩ /- FP_HTLO -/,
   ⟨0x400114, 4, 0x10000, 2, 0x80, 0x37, 0x37, 0x0, 0x0⟩ /- FP_HPIPE -/,
   ⟨0x400118, 4, 0x10000, 2, 0x80, 0x7FFF7FFF, 0x7FFF7FFF, 0x0, 0x1000⟩ /- FP_HCM0 -/,
   ⟨0x40011C, 4, 0x10000, 2, 0x80, 0x7FFF7FFF, 0x7FFF7FFF, 0x0, 0x0⟩ /- FP_HCM1 -/,
   ⟨0x400120, 4, 0x10000, 2, 0x80, 0x7FFF7FFF, 0x7FFF7FFF, 0x0, 0x1000⟩ /- FP_HCM2 -/,
   ⟨0x400124, 4, 0x10000, 2, 0x80, 0x7FFF7FFF, 0x7FFF7FFF, 0x0, 0x0⟩ /- FP_HCM3 -/,
   ⟨0x400128, 4, 0x10000, 2, 0x80, 0x7FFF, 0x7FFF, 0x0, 0x1000⟩ /- FP_HCM4 -/,
   ⟨0x40012C, 4, 0x10000, 2, 0x80, 0x3FFFFFFF, 0x3FFFFFFF, 0x0, 0x20080200⟩ /- FP_HGAIN -/,
   ⟨0x400130, 4, 0x10000, 2, 0x80, 0xFFFFFFFF, 0xFFFFFFFF, 0x0, 0x0⟩ /- FP_HOSIZE -/,
   ⟨0x400134, 4, 0x10000, 2, 0x80, 0xF07FFFFF, 0xF07FFFFF, 0x0, 0x0⟩ /- FP_HDBD -/,
   ⟨0x400138, 4, 0x10000, 2, 0x80, 0xF07FFFFF, 0xF07FFFFF, 0x0, 0x0⟩ /- FP_HDBC -/,
   ⟨0x40013C, 4, 0x10000, 2, 0x80, 0xF07FFFFF, 0xF07FFFFF, 0x0, 0x0⟩ /- FP_HDBM -/,
   ⟨0x400140, 4, 0x10000, 2, 0x80, 0x7FFFFF, 0x7FFFFF, 0x0, 0x0⟩ /- FP_HTM -/,
   ⟨0x400144, 4, 0x10000, 2, 0x80, 0xF, 0x0, 0x7, 0x0⟩ /- FP_HSTAT -/,
   ⟨0x400148, 4, 0x10000, 2, 0x80, 0xFFFFFFFF, 0x0, 0x0, 0x0⟩ /- FP_HCNT -/,
   ⟨0x40014C, 4, 0x10000, 2, 0x80, 0xFFF, 0x0, 0x0, 0x0⟩ /- FP_HLAST -/,
   ⟨0x400800, 4, 0x10000, 2, 0x40, 0x1F, 0x1F, 0x0, 0x0⟩ /- FP_RCFG -/,
   ⟨0x400804, 4, 0x10000, 2, 0x40, 0x3, 0x0, 0x0, 0x0⟩ /- FP_RCMD -/,
   ⟨0x400808, 4, 0x10000, 2, 0x40, 0xFC0000FD, 0x0, 0x1C, 0x20⟩ /- FP_RSTAT -/,
   ⟨0x40080C, 4, 0x10000, 2, 0x40, 0xFFFFFFFF, 0x0, 0x0, 0x0⟩ /- FP_RID -/,
   ⟨0x400810, 4, 0x10000, 2, 0x40, 0x7FFFFF, 0x7FFFFF, 0x0, 0x0⟩ /- FP_RSA -/,
   ⟨0x400814, 4, 0x10000, 2, 0x40, 0x7FFFFF, 0x7FFFFF, 0x0, 0x0⟩ /- FP_RSB -/,
   ⟨0x400818, 4, 0x10000, 2, 0x40, 0x7FFFFF, 0x7FFFFF, 0x0, 0x0⟩ /- FP_RMA -/,
   ⟨0x40081C, 4, 0x10000, 2, 0x40, 0x7FFFFF, 0x7FFFFF, 0x0, 0x0⟩ /- FP_RMB -/,
   ⟨0x400820, 4, 0x10000, 2, 0x40, 0xFFFFFFFF, 0x0, 0x0, 0x0⟩ /- FP_RLAST -/,
   ⟨0x401000, 2048, 0x4, 4, 0x10000, 0xFFF0FFF, 0xFFF0FFF, 0x0, 0x0⟩ /- FP_CURVE0 (even heads) -/,
   ⟨0x403000, 2048, 0x4, 4, 0x10000, 0xFFF0FFF, 0xFFF0FFF, 0x0, 0x0⟩ /- FP_CURVE1 (even heads) -/,
   ⟨0x405000, 1024, 0x4, 4, 0x10000, 0x3FFFFFFF, 0x3FFFFFFF, 0x0, 0x0⟩ /- FP_PAL0 (even heads) -/,
   ⟨0x406000, 1024, 0x4, 4, 0x10000, 0x3FFFFFFF, 0x3FFFFFFF, 0x0, 0x0⟩ /- FP_PAL1 (even heads) -/,
   ⟨0x407000, 384, 0x4, 4, 0x10000, 0xFFF, 0xFFF, 0x0, 0x0⟩ /- FP_COEF0 (even heads) -/,
   ⟨0x407600, 384, 0x4, 4, 0x10000, 0xFFF, 0xFFF, 0x0, 0x0⟩ /- FP_COEF1 (even heads) -/,
   ⟨0x408000, 2048, 0x4, 4, 0x10000, 0xFFF0FFF, 0xFFF0FFF, 0x0, 0x0⟩ /- FP_CURVE0 (odd heads) -/,
   ⟨0x40A000, 2048, 0x4, 4, 0x10000, 0xFFF0FFF, 0xFFF0FFF, 0x0, 0x0⟩ /- FP_CURVE1 (odd heads) -/,
   ⟨0x40C000, 1024, 0x4, 4, 0x10000, 0x3FFFFFFF, 0x3FFFFFFF, 0x0, 0x0⟩ /- FP_PAL0 (odd heads) -/,
   ⟨0x40D000, 1024, 0x4, 4, 0x10000, 0x3FFFFFFF, 0x3FFFFFFF, 0x0, 0x0⟩ /- FP_PAL1 (odd heads) -/,
   ⟨0x40E000, 384, 0x4, 4, 0x10000, 0xFFF, 0xFFF, 0x0, 0x0⟩ /- FP_COEF0 (odd heads) -/,
   ⟨0x40E600, 384, 0x4, 4, 0x10000, 0xFFF, 0xFFF, 0x0, 0x0⟩ /- FP_COEF1 (odd heads) -/]

/-- Register map rows of the ST window. -/
def regTableSt : List RegDesc :=
  [
   ⟨0x480000, 1, 0x0, 1, 0x0, 0x1, 0x0, 0x0, 0x0⟩ /- ST_CTRL -/,
   ⟨0x480100, 8, 0x40, 1, 0x0, 0x1F1F1F01, 0x1F1F1F01, 0x0, 0x1F1F0600⟩ /- ST_HCFG -/,
   ⟨0x480104, 8, 0x40, 1, 0x0, 0xFFFFFFFF, 0xFFFFFFFF, 0x0, 0x0⟩ /- ST_HHLO -/,
   ⟨0x480108, 8, 0x40, 1, 0x0, 0xF07FFFFF, 0xF07FFFFF, 0x0, 0x0⟩ /- ST_HSBUF -/,
   ⟨0x48010C, 8, 0x40, 1, 0x0, 0x8000FFFF, 0x8000FFFF, 0x0, 0x0⟩ /- ST_HALARM -/,
   ⟨0x480110, 8, 0x40, 1, 0x0, 0xF, 0x0, 0xF, 0x0⟩ /- ST_HSTAT -/,
   ⟨0x480114, 8, 0x40, 1, 0x0, 0xFFFFFFFF, 0x0, 0x0, 0x0⟩ /- ST_HCNT -/,
   ⟨0x480118, 8, 0x40, 1, 0x0, 0xF, 0x0, 0x0, 0x0⟩ /- ST_HLAST -/,
   ⟨0x480120, 8, 0x40, 8, 0x4, 0xFFFFFFFF, 0x0, 0x0, 0x0⟩ /- ST_HACT -/,
   ⟨0x490000, 1024, 0x4, 8, 0x1000, 0xFFFFFFFF, 0xFFFFFFFF, 0x0, 0x0⟩ /- ST_RULE -/]

/-- Register map rows of the TX window. -/
def regTableTx : List RegDesc :=
  [
   ⟨0x500000, 4, 0x10000, 1, 0x0, 0x3F, 0x1F, 0x0, 0x0⟩ /- TX_CFG -/,
   ⟨0x500004, 4, 0x10000, 1, 0x0, 0x1FFF, 0x1FFF, 0x0, 0x50⟩ /- TX_RATE -/,
   ⟨0x500008, 4, 0x10000, 1, 0x0, 0xFFFF, 0xFFFF, 0x0, 0x64⟩ /- TX_GAP -/,
   ⟨0x50000C, 4, 0x10000, 1, 0x0, 0xF003FFFF, 0x0, 0x30000, 0x0⟩ /- TX_STAT -/,
   ⟨0x500010, 4, 0x10000, 1, 0x0, 0xFFFFFFFF, 0x0, 0x0, 0x0⟩ /- TX_CNT0 -/,
   ⟨0x500014, 4, 0x10000, 1, 0x0, 0xFFFFFFFF, 0x0, 0x0, 0x0⟩ /- TX_CNT1 -/,
   ⟨0x500020, 8, 0x4, 4, 0x10000, 0xFF3F, 0xFF3F, 0x0, 0x1000⟩ /- TX_S -/]

/-- Register map rows of the Q window. -/
def regTableQ : List RegDesc :=
  [
   ⟨0x600000, 1, 0x0, 1, 0x0, 0x1, 0x1, 0x0, 0x0⟩ /- Q_CFG -/,
   ⟨0x600004, 1, 0x0, 1, 0x0, 0xFFFCFFFF, 0x0, 0x30040000, 0x0⟩ /- Q_STAT -/,
   ⟨0x600008, 1, 0x0, 1, 0x0, 0x7FFFFF, 0x7FFFFF, 0x0, 0x0⟩ /- Q_CTXBASE -/,
   ⟨0x60000C, 1, 0x0, 1, 0x0, 0x1F, 0x1F, 0x0, 0x0⟩ /- Q_B4WIN -/,
   ⟨0x600010, 1, 0x0, 1, 0x0, 0x8000FFFF, 0x8000FFFF, 0x0, 0x0⟩ /- Q_FEVT -/,
   ⟨0x600014, 1, 0x0, 1, 0x0, 0x7FFFFF, 0x7FFFFF, 0x0, 0x0⟩ /- Q_RPBASE -/,
   ⟨0x600018, 1, 0x0, 1, 0x0, 0xFC01FFFF, 0x0, 0x0, 0x0⟩ /- Q_C0STAT -/,
   ⟨0x60001C, 1, 0x0, 1, 0x0, 0xFFFFFFFF, 0x0, 0x0, 0x0⟩ /- Q_LINKCNT -/,
   ⟨0x600020, 1, 0x0, 1, 0x0, 0xFFFF, 0xFFFF, 0x0, 0x0⟩ /- Q_CTXSEL -/,
   ⟨0x600024, 1, 0x0, 1, 0x0, 0x3, 0x0, 0x0, 0x0⟩ /- Q_CTXCMD -/,
   ⟨0x600028, 1, 0x0, 1, 0x0, 0x80000007, 0x0, 0x0, 0x0⟩ /- Q_CTXSTAT -/,
   ⟨0x600100, 16, 0x4, 1, 0x0, 0xFFFFFFFF, 0xFFFFFFFF, 0x0, 0x0⟩ /- Q_CTXD -/,
   ⟨0x600200, 32, 0x4, 1, 0x0, 0xFFF1FFF, 0xFFF1FFF, 0x0, 0x0⟩ /- Q_FRANGE -/,
   ⟨0x600280, 32, 0x4, 1, 0x0, 0x7F, 0x7F, 0x0, 0x0⟩ /- Q_FPERM -/,
   ⟨0x680000, 1056, 0x10, 4, 0x4, 0xFFFFFFFF, 0xFFFFFFFF, 0x0, 0x0⟩ /- Q_MSIXTAB -/,
   ⟨0x688000, 33, 0x4, 1, 0x0, 0xFFFFFFFF, 0x0, 0x0, 0x0⟩ /- Q_MSIXPBA -/]

/-- Register map rows of the DMA window. -/
def regTableDma : List RegDesc :=
  [
   ⟨0x700000, 1, 0x0, 1, 0x0, 0x3, 0x0, 0x0, 0x0⟩ /- DMA_CMD -/,
   ⟨0x700004, 1, 0x0, 1, 0x0, 0xFC7F0000, 0x0, 0x4000000, 0x0⟩ /- DMA_STAT -/,
   ⟨0x700008, 1, 0x0, 1, 0x0, 0xFFFFFFFF, 0x0, 0x0, 0x0⟩ /- DMA_HALTINFO -/,
   ⟨0x70000C, 1, 0x0, 1, 0x0, 0xFFFFFFFF, 0x0, 0x0, 0x0⟩ /- DMA_CNT -/,
   ⟨0x700010, 1, 0x0, 1, 0x0, 0xFFFFFFFF, 0x0, 0x0, 0x0⟩ /- DMA_HALTADDR_LO -/,
   ⟨0x700014, 1, 0x0, 1, 0x0, 0xFFFFFFFF, 0x0, 0x0, 0x0⟩ /- DMA_HALTADDR_HI -/,
   ⟨0x701000, 64, 0x40, 1, 0x0, 0xF8FF1F1D, 0xF8FF1F1D, 0x0, 0xFF0400⟩ /- DMA_CH_CFG -/,
   ⟨0x701004, 64, 0x40, 1, 0x0, 0x7, 0x0, 0x0, 0x0⟩ /- DMA_CH_CMD -/,
   ⟨0x701008, 64, 0x40, 1, 0x0, 0xFF80FFFF, 0x0, 0xC0800000, 0x0⟩ /- DMA_CH_STAT -/,
   ⟨0x70100C, 64, 0x40, 1, 0x0, 0xFFFF, 0xFFFF, 0x0, 0x0⟩ /- DMA_CH_TAIL -/,
   ⟨0x701010, 64, 0x40, 1, 0x0, 0xFFFFF000, 0xFFFFF000, 0x0, 0x0⟩ /- DMA_CH_BASE_LO -/,
   ⟨0x701014, 64, 0x40, 1, 0x0, 0xFFFFFFFF, 0xFFFFFFFF, 0x0, 0x0⟩ /- DMA_CH_BASE_HI -/,
   ⟨0x701018, 64, 0x40, 1, 0x0, 0xFFFFFFFF, 0x0, 0x0, 0x0⟩ /- DMA_CH_DONE -/,
   ⟨0x70101C, 64, 0x40, 1, 0x0, 0x7FF, 0x7FF, 0x0, 0x0⟩ /- DMA_CH_VEC -/,
   ⟨0x701020, 64, 0x40, 1, 0x0, 0xFFFFFFFF, 0x0, 0x0, 0x0⟩ /- DMA_CH_BYTES_LO -/,
   ⟨0x701024, 64, 0x40, 1, 0x0, 0xFFFFFFFF, 0x0, 0x0, 0x0⟩ /- DMA_CH_BYTES_HI -/]

/-- Register map rows of the EN window. -/
def regTableEn : List RegDesc :=
  [
   ⟨0x800000, 16, 0x10000, 1, 0x0, 0xFF803FFF, 0x0, 0x0, 0x1000⟩ /- EN_BSTAT -/,
   ⟨0x800004, 16, 0x10000, 1, 0x0, 0xFF, 0x0, 0x0, 0x0⟩ /- EN_BCMD -/,
   ⟨0x800008, 16, 0x10000, 1, 0x0, 0xFFFFFFFF, 0x0, 0x0, 0x0⟩ /- EN_BCNT -/,
   ⟨0x800010, 16, 0x10000, 1, 0x0, 0xFFFF, 0xFFFF, 0x0, 0x20⟩ /- EN_SHCFG -/,
   ⟨0x800014, 16, 0x10000, 1, 0x0, 0xFFFFFFFF, 0x0, 0x0, 0x0⟩ /- EN_SHSTAT -/,
   ⟨0x800800, 1, 0x0, 1, 0x0, 0x7FFFF, 0xFFFF, 0x0, 0x0⟩ /- EN_MCMD -/,
   ⟨0x800804, 1, 0x0, 1, 0x0, 0xF800FFFF, 0x0, 0x0, 0x0⟩ /- EN_MCSTAT -/,
   ⟨0x800808, 1, 0x0, 1, 0x0, 0x7FFFFF, 0x7FFFFF, 0x0, 0x0⟩ /- EN_MCBASE -/,
   ⟨0x80080C, 1, 0x0, 1, 0x0, 0xFFFFFFFF, 0x0, 0x0, 0x0⟩ /- EN_MCVER -/,
   ⟨0x800810, 1, 0x0, 1, 0x0, 0xFFFFFFFF, 0x0, 0x0, 0x0⟩ /- EN_MCMIN -/,
   ⟨0x800820, 1, 0x0, 1, 0x0, 0x17, 0x7, 0x0, 0x0⟩ /- EN_RCMD -/,
   ⟨0x800824, 1, 0x0, 1, 0x0, 0xFF000017, 0x0, 0x10, 0x0⟩ /- EN_RSTAT -/,
   ⟨0x800828, 1, 0x0, 1, 0x0, 0x7FFFFF, 0x7FFFFF, 0x0, 0x0⟩ /- EN_RBASE -/,
   ⟨0x800840, 8, 0x4, 1, 0x0, 0xFFFF, 0xFFFF, 0x0, 0x0⟩ /- EN_HRCP -/]

/-- Register map rows of the DR window. -/
def regTableDr : List RegDesc :=
  [
   ⟨0x900000, 16, 0x40, 1, 0x0, 0xFC00FFFF, 0x0, 0x10000000, 0x0⟩ /- DR_CSTAT -/,
   ⟨0x900004, 16, 0x40, 1, 0x0, 0xFFFFFFFF, 0x0, 0x0, 0x0⟩ /- DR_ECC -/,
   ⟨0x900008, 16, 0x40, 1, 0x0, 0xFFFFFFFF, 0x0, 0x0, 0x0⟩ /- DR_ERRADDR_LO -/,
   ⟨0x90000C, 16, 0x40, 1, 0x0, 0xFFFFFFFF, 0x0, 0x0, 0x0⟩ /- DR_ERRADDR_HI -/,
   ⟨0x900800, 1, 0x0, 1, 0x0, 0x1, 0x0, 0x0, 0x0⟩ /- DR_CTRL -/]

/-- Register map rows of the MON window. -/
def regTableMon : List RegDesc :=
  [
   ⟨0xA00000, 1, 0x0, 1, 0x0, 0xFFFFFFFF, 0x0, 0x0, 0x0⟩ /- MON_SNAP -/,
   ⟨0xA00004, 1, 0x0, 1, 0x0, 0xFFFFFFFF, 0x0, 0x0, 0x0⟩ /- MON_CLR -/,
   ⟨0xA00008, 1, 0x0, 1, 0x0, 0xFFFFFFFF, 0xFFFFFFFF, 0x0, 0x0⟩ /- MON_PER -/,
   ⟨0xA0000C, 1, 0x0, 1, 0x0, 0x7FFFFF, 0x7FFFFF, 0x0, 0x0⟩ /- MON_SNBASE -/,
   ⟨0xA00010, 1, 0x0, 1, 0x0, 0xFFFFFFFF, 0x0, 0x0, 0x0⟩ /- MON_SNIDX -/,
   ⟨0xA01000, 32, 0x400, 1, 0x0, 0x9FFFFFFF, 0x9FFFFFFF, 0x0, 0x0⟩ /- MON_CFG -/,
   ⟨0xA01004, 32, 0x400, 1, 0x0, 0xFFFFFFFF, 0xFFFFFFFF, 0x0, 0x0⟩ /- MON_BLO -/,
   ⟨0xA01008, 32, 0x400, 1, 0x0, 0x80000001, 0x0, 0x80000001, 0x0⟩ /- MON_STAT -/,
   ⟨0xA01010, 32, 0x400, 1, 0x0, 0xFFFFFFFF, 0x0, 0x0, 0x0⟩ /- MON_MIN -/,
   ⟨0xA01014, 32, 0x400, 1, 0x0, 0xFFFFFFFF, 0x0, 0x0, 0x0⟩ /- MON_MAX -/,
   ⟨0xA01018, 32, 0x400, 1, 0x0, 0xFFFFFFFF, 0x0, 0x0, 0x0⟩ /- MON_UNDER -/,
   ⟨0xA0101C, 32, 0x400, 1, 0x0, 0xFFFFFFFF, 0x0, 0x0, 0x0⟩ /- MON_OVER -/,
   ⟨0xA01020, 32, 0x400, 1, 0x0, 0xFFFFFFFF, 0x0, 0x0, 0x0⟩ /- MON_CNT_LO -/,
   ⟨0xA01024, 32, 0x400, 1, 0x0, 0xFFFFFFFF, 0x0, 0x0, 0x0⟩ /- MON_CNT_HI -/,
   ⟨0xA01040, 32, 0x400, 1, 0x0, 0xFFFFFFFF, 0x0, 0x0, 0x0⟩ /- MON_SMIN -/,
   ⟨0xA01044, 32, 0x400, 1, 0x0, 0xFFFFFFFF, 0x0, 0x0, 0x0⟩ /- MON_SMAX -/,
   ⟨0xA01048, 32, 0x400, 1, 0x0, 0xFFFFFFFF, 0x0, 0x0, 0x0⟩ /- MON_SUNDER -/,
   ⟨0xA0104C, 32, 0x400, 1, 0x0, 0xFFFFFFFF, 0x0, 0x0, 0x0⟩ /- MON_SOVER -/,
   ⟨0xA01050, 32, 0x400, 1, 0x0, 0xFFFFFFFF, 0x0, 0x0, 0x0⟩ /- MON_SCNT_LO -/,
   ⟨0xA01054, 32, 0x400, 1, 0x0, 0xFFFFFFFF, 0x0, 0x0, 0x0⟩ /- MON_SCNT_HI -/,
   ⟨0xA01058, 32, 0x400, 1, 0x0, 0xFFFFFFFF, 0x0, 0x0, 0x0⟩ /- MON_SDT_LO -/,
   ⟨0xA0105C, 32, 0x400, 1, 0x0, 0xFFFFFFFF, 0x0, 0x0, 0x0⟩ /- MON_SDT_HI -/,
   ⟨0xA01100, 64, 0x4, 32, 0x400, 0xFFFFFFFF, 0x0, 0x0, 0x0⟩ /- MON_HIST -/,
   ⟨0xA01200, 64, 0x4, 32, 0x400, 0xFFFFFFFF, 0x0, 0x0, 0x0⟩ /- MON_SHIST -/]

/-- Register map rows of the TXN window. -/
def regTableTxn : List RegDesc :=
  [
   ⟨0xB00000, 1, 0x0, 1, 0x0, 0x1F0007, 0x1F0000, 0x0, 0x0⟩ /- TXN_CMD -/,
   ⟨0xB00004, 1, 0x0, 1, 0x0, 0x8000031F, 0x0, 0x80000000, 0x0⟩ /- TXN_OPENRES -/,
   ⟨0xB00008, 1, 0x0, 1, 0x0, 0xFFF7FDFF, 0xFFF7FDFF, 0x0, 0x0⟩ /- TXN_CCFG -/,
   ⟨0xB0000C, 1, 0x0, 1, 0x0, 0x1F, 0x1F, 0x0, 0x0⟩ /- TXN_SHND -/,
   ⟨0xB00010, 1, 0x0, 1, 0x0, 0x3FFFFFFF, 0x3FFFFFFF, 0x0, 0x0⟩ /- TXN_SADDR -/,
   ⟨0xB00014, 1, 0x0, 1, 0x0, 0x0, 0x0, 0x0, 0x0⟩ /- TXN_SVAL -/,
   ⟨0xB00100, 8, 0x4, 1, 0x0, 0xFFFFFFFF, 0x0, 0x0, 0x0⟩ /- TXN_GEN -/,
   ⟨0xB00204, 16, 0x4, 1, 0x0, 0xEFF0DFFF, 0x0, 0x0, 0x0⟩ /- TXN_HSTAT -/,
   ⟨0xB00284, 16, 0x4, 1, 0x0, 0xFFFF00FF, 0x0, 0x0, 0xFFFF0000⟩ /- TXN_HINFO -/]

/-- Register map rows of the GP window. -/
def regTableGp : List RegDesc :=
  [
   ⟨0xC00000, 2, 0x4, 1, 0x0, 0xFFFFFFFF, 0xFFFFFFFF, 0x0, 0x0⟩ /- GP_DIR -/,
   ⟨0xC00008, 2, 0x4, 1, 0x0, 0xFFFFFFFF, 0xFFFFFFFF, 0x0, 0x0⟩ /- GP_OUT -/,
   ⟨0xC00010, 2, 0x4, 1, 0x0, 0xFFFFFFFF, 0x0, 0x0, 0x0⟩ /- GP_SET -/,
   ⟨0xC00018, 2, 0x4, 1, 0x0, 0x0, 0x0, 0x0, 0x0⟩ /- GP_CLR -/]

/-- Register map rows of the MC window. -/
def regTableMc : List RegDesc :=
  [
   ⟨0xD00000, 1, 0x0, 1, 0x0, 0xFFFF0003, 0xFFFF0003, 0x0, 0x0⟩ /- MC_CFG -/,
   ⟨0xD00004, 1, 0x0, 1, 0x0, 0x1, 0x0, 0x0, 0x0⟩ /- MC_CTRL -/,
   ⟨0xD00008, 1, 0x0, 1, 0x0, 0xC7FF07FF, 0x0, 0xC0000000, 0x0⟩ /- MC_STAT -/,
   ⟨0xD0000C, 1, 0x0, 1, 0x0, 0xFF00FFFF, 0x0, 0x0, 0x0⟩ /- MC_LAST -/,
   ⟨0xD00010, 1, 0x0, 1, 0x0, 0xFFFFFFFF, 0x0, 0x0, 0x0⟩ /- MC_CNT -/,
   ⟨0xD00014, 1, 0x0, 1, 0x0, 0xFFFFFFFF, 0xFFFFFFFF, 0x0, 0x18003C⟩ /- MC_SCRUB -/,
   ⟨0xD00018, 1, 0x0, 1, 0x0, 0xFFFFFFFF, 0x0, 0x0, 0x0⟩ /- MC_SCRUBCNT -/,
   ⟨0xD0001C, 1, 0x0, 1, 0x0, 0xFFFFFFFF, 0x0, 0x0, 0x0⟩ /- MC_SCRUBPASS -/,
   ⟨0xD00020, 1, 0x0, 1, 0x0, 0xFFFFFFFF, 0x0, 0x0, 0x0⟩ /- MC_SCRUBERR_LO -/,
   ⟨0xD00024, 1, 0x0, 1, 0x0, 0xFFFFFFFF, 0x0, 0x0, 0x0⟩ /- MC_SCRUBERR_HI -/]

/-- The rows of the window that holds address `a` (R446's windows, as each chapter's address table places them). -/
def regRows (a : Nat) : List RegDesc :=
  if a < 0x10000 then regTableSys else
  if a < 0x20000 then regTableFc else
  if a < 0x30000 then regTableHk else
  if a < 0x40000 then regTableNv else
  if a < 0x100000 then regTableTrg else
  if a < 0x200000 then regTableHp else
  if a < 0x300000 then regTableTc else
  if a < 0x340000 then regTableCl else
  if a < 0x400000 then regTableCx else
  if a < 0x480000 then regTableFp else
  if a < 0x500000 then regTableSt else
  if a < 0x600000 then regTableTx else
  if a < 0x700000 then regTableQ else
  if a < 0x800000 then regTableDma else
  if a < 0x900000 then regTableEn else
  if a < 0xA00000 then regTableDr else
  if a < 0xB00000 then regTableMon else
  if a < 0xC00000 then regTableTxn else
  if a < 0xD00000 then regTableGp else
  if a < 0xE00000 then regTableMc else
  []

/-- The register map row of address `a`, if a register stands there. -/
def regDesc (a : Nat) : Option RegDesc := (regRows a).find? fun d => d.holds a

/-- Reset values that depend on the instance (Tables 10-2, 10-31 and R281's reset tables for the tone curve and the
palette; Tables 13-20 and 13-21 for functions other than 0). -/
def resetByInstance (a : Nat) : Option Word :=
  if 0x400000 ≤ a ∧ a < 0x440000 then
    let r := (a - 0x400000) / 0x10000
    let o := a % 0x10000
    if o = 0x100 then some (BitVec.ofNat 32 (4 + r))
    else if o = 0x180 then some (BitVec.ofNat 32 r)
    else
      let t := if o < 0x8000 then o - 0x1000 else o - 0x8000
      if o < 0x1000 then none
      else if t < 0x4000 then
        let k := t % 0x2000 / 4
        some (BitVec.ofNat 32 (2 * k + 0x10000 * (2 * k + 1)))
      else if t < 0x6000 then
        let k := t % 0x1000 / 4
        some (BitVec.ofNat 32 (k + 0x400 * k + 0x100000 * k))
      else if t < 0x6C00 then
        let w := t % 0x600 / 4
        if w % 6 = 2 then some (BitVec.ofNat 32 (1024 - 16 * (w / 6)))
        else if w % 6 = 3 then some (BitVec.ofNat 32 (16 * (w / 6)))
        else none
      else none
  else if 0x680000 ≤ a ∧ a < 0x684200 ∧ a / 4 % 4 = 3 then some 1#32
  else if 0x4004000 ≤ a ∧ a < 0x4080000 ∧ a % 0x4000 < 0x200 ∧ a / 4 % 4 = 3 then some 1#32
  else if a = 0x600200 then some 0x1000#32
  else if a = 0x600280 then some 0x7F#32
  else if 0x600280 < a ∧ a < 0x600300 then some 0x01#32
  else none

/-- The value the register at address `a` holds after RESET (the Reset columns, R5). -/
def resetWord (a : Nat) : Word :=
  match resetByInstance a with
  | some w => w
  | none =>
    match regDesc a with
    | some d => d.reset
    | none => 0

end Sys2Proof.Machine
end

