-- ==== Sys2Proof/Machine/Fields.lean ====
section
/-! DEFINITION. The named fields of every register of the register tables: `F.REG_FIELD` is field FIELD of register
REG, as a register address, a low bit and a width. A table's bit range is written here once; every meaning goes through
these names. -/

namespace Sys2Proof.Machine

/-- One field of one register: the register's address, the field's low bit and its width. -/
structure Fld where
  addr : Nat
  lo : Nat
  w : Nat
  deriving DecidableEq, Repr

abbrev F.SYS_ID_MREV : Fld := ⟨R.SYS_ID, 8, 4⟩
abbrev F.SYS_ID_STEP : Fld := ⟨R.SYS_ID, 12, 4⟩
abbrev F.SYS_ID_PART : Fld := ⟨R.SYS_ID, 16, 16⟩
abbrev F.SYS_VENDOR_VID : Fld := ⟨R.SYS_VENDOR, 0, 16⟩
abbrev F.SYS_MAPVER_MINOR : Fld := ⟨R.SYS_MAPVER, 0, 16⟩
abbrev F.SYS_MAPVER_MAJOR : Fld := ⟨R.SYS_MAPVER, 16, 16⟩
abbrev F.SYS_TESTDATE_DATE : Fld := ⟨R.SYS_TESTDATE, 0, 32⟩
abbrev F.SYS_SERIAL_LO_SERIAL : Fld := ⟨R.SYS_SERIAL_LO, 0, 32⟩
abbrev F.SYS_SERIAL_HI_SERIAL : Fld := ⟨R.SYS_SERIAL_HI, 0, 32⟩
abbrev F.SYS_RSTCAUSE_POR : Fld := ⟨R.SYS_RSTCAUSE, 0, 1⟩
abbrev F.SYS_RSTCAUSE_PIN : Fld := ⟨R.SYS_RSTCAUSE, 1, 1⟩
abbrev F.SYS_RSTCAUSE_RAIL : Fld := ⟨R.SYS_RSTCAUSE, 2, 1⟩
abbrev F.SYS_MODECMD_DORMANT : Fld := ⟨R.SYS_MODECMD, 0, 1⟩
abbrev F.SYS_MODECMD_SETUP : Fld := ⟨R.SYS_MODECMD, 1, 1⟩
abbrev F.SYS_MODECMD_RUN : Fld := ⟨R.SYS_MODECMD, 2, 1⟩
abbrev F.SYS_MODECMD_THROTTLE : Fld := ⟨R.SYS_MODECMD, 3, 1⟩
abbrev F.SYS_MODECMD_UNTHROTTLE : Fld := ⟨R.SYS_MODECMD, 4, 1⟩
abbrev F.SYS_MODECMD_SAFE : Fld := ⟨R.SYS_MODECMD, 5, 1⟩
abbrev F.SYS_MODESTAT_MODE : Fld := ⟨R.SYS_MODESTAT, 0, 3⟩
abbrev F.SYS_MODESTAT_CAUSE : Fld := ⟨R.SYS_MODESTAT, 8, 8⟩
abbrev F.SYS_MODESTAT_CMDRES : Fld := ⟨R.SYS_MODESTAT, 20, 4⟩
abbrev F.SYS_MODESTAT_THTHR : Fld := ⟨R.SYS_MODESTAT, 28, 1⟩
abbrev F.SYS_MODESTAT_CMDTHR : Fld := ⟨R.SYS_MODESTAT, 29, 1⟩
abbrev F.SYS_MODESTAT_FIRSTDONE : Fld := ⟨R.SYS_MODESTAT, 30, 1⟩
abbrev F.SYS_MODESTAT_BUSY : Fld := ⟨R.SYS_MODESTAT, 31, 1⟩
abbrev F.SYS_SAFECAUSE_CAUSE : Fld := ⟨R.SYS_SAFECAUSE, 0, 7⟩
abbrev F.SYS_STREAM_HEADS : Fld := ⟨R.SYS_STREAM, 0, 8⟩
abbrev F.SYS_PWRSTAT_SAG : Fld := ⟨R.SYS_PWRSTAT, 0, 14⟩
abbrev F.SYS_PWRSTAT_PLLOK : Fld := ⟨R.SYS_PWRSTAT, 15, 1⟩
abbrev F.SYS_PWRSTAT_FAIL : Fld := ⟨R.SYS_PWRSTAT, 16, 14⟩
abbrev F.SYS_PWRSTAT_PERSISTED : Fld := ⟨R.SYS_PWRSTAT, 30, 1⟩
abbrev F.SYS_PWRSTAT_PFAIL : Fld := ⟨R.SYS_PWRSTAT, 31, 1⟩
abbrev F.SYS_MSPSTAT_LASTADDR : Fld := ⟨R.SYS_MSPSTAT, 0, 24⟩
abbrev F.SYS_MSPSTAT_BADCMD : Fld := ⟨R.SYS_MSPSTAT, 26, 1⟩
abbrev F.SYS_MSPSTAT_OVFL : Fld := ⟨R.SYS_MSPSTAT, 27, 1⟩
abbrev F.SYS_MSPSTAT_PARTIAL : Fld := ⟨R.SYS_MSPSTAT, 28, 1⟩
abbrev F.SYS_MSPSTAT_PAST_END : Fld := ⟨R.SYS_MSPSTAT, 29, 1⟩
abbrev F.SYS_MSPSTAT_CRC_ERR : Fld := ⟨R.SYS_MSPSTAT, 30, 1⟩
abbrev F.SYS_MSPSTAT_ACTIVE : Fld := ⟨R.SYS_MSPSTAT, 31, 1⟩
abbrev F.SYS_MSPCNT_CRCERR : Fld := ⟨R.SYS_MSPCNT, 0, 8⟩
abbrev F.SYS_MSPCNT_DISCARD : Fld := ⟨R.SYS_MSPCNT, 8, 8⟩
abbrev F.SYS_MSPCNT_FRAMES : Fld := ⟨R.SYS_MSPCNT, 16, 16⟩
abbrev F.SYS_MSPCTRL_CLRCNT : Fld := ⟨R.SYS_MSPCTRL, 0, 1⟩
abbrev F.SYS_PLAN_CMD_EVAL : Fld := ⟨R.SYS_PLAN_CMD, 0, 1⟩
abbrev F.SYS_PLAN_CMD_REPLAN : Fld := ⟨R.SYS_PLAN_CMD, 1, 1⟩
abbrev F.SYS_PLAN_CMD_HANDLE : Fld := ⟨R.SYS_PLAN_CMD, 8, 5⟩
abbrev F.SYS_PLAN_STAT_RESULT : Fld := ⟨R.SYS_PLAN_STAT, 0, 2⟩
abbrev F.SYS_PLAN_STAT_REASON : Fld := ⟨R.SYS_PLAN_STAT, 8, 8⟩
abbrev F.SYS_PLAN_STAT_BUSY : Fld := ⟨R.SYS_PLAN_STAT, 31, 1⟩
abbrev F.SYS_PLAN_LOAD0_DRAM : Fld := ⟨R.SYS_PLAN_LOAD0, 0, 16⟩
abbrev F.SYS_PLAN_LOAD0_COMPUTE : Fld := ⟨R.SYS_PLAN_LOAD0, 16, 16⟩
abbrev F.SYS_PLAN_LOAD1_SPINE : Fld := ⟨R.SYS_PLAN_LOAD1, 0, 16⟩
abbrev F.SYS_PLAN_LOAD1_PCIE : Fld := ⟨R.SYS_PLAN_LOAD1, 16, 16⟩
abbrev F.SYS_PLAN_RATE_PXRATE : Fld := ⟨R.SYS_PLAN_RATE, 0, 16⟩
abbrev F.SYS_PLAN_RATE_FINISH : Fld := ⟨R.SYS_PLAN_RATE, 16, 16⟩
abbrev F.SYS_PLAN_LIMIT_LIMIT : Fld := ⟨R.SYS_PLAN_LIMIT, 0, 14⟩
abbrev F.SYS_PLAN_HELD_HELD : Fld := ⟨R.SYS_PLAN_HELD, 0, 8⟩
abbrev F.FC_FSW_LO_LATCH : Fld := ⟨R.FC_FSW_LO, 0, 32⟩
abbrev F.FC_FSW_HI_LATCH : Fld := ⟨R.FC_FSW_HI, 0, 32⟩
abbrev F.FC_LIVE_LO_LIVE : Fld := ⟨R.FC_LIVE_LO, 0, 32⟩
abbrev F.FC_LIVE_HI_LIVE : Fld := ⟨R.FC_LIVE_HI, 0, 32⟩
abbrev F.FC_ACK_LO_UNACK : Fld := ⟨R.FC_ACK_LO, 0, 32⟩
abbrev F.FC_ACK_HI_UNACK : Fld := ⟨R.FC_ACK_HI, 0, 32⟩
abbrev F.FC_FORCE_LO_FORCE : Fld := ⟨R.FC_FORCE_LO, 0, 32⟩
abbrev F.FC_FORCE_HI_FORCE : Fld := ⟨R.FC_FORCE_HI, 0, 32⟩
abbrev F.FC_CTRL_FCLASS : Fld := ⟨R.FC_CTRL, 0, 2⟩
abbrev F.FC_CTRL_CLRFIRST : Fld := ⟨R.FC_CTRL, 2, 1⟩
abbrev F.FC_CTRL_CLRCNT : Fld := ⟨R.FC_CTRL, 3, 1⟩
abbrev F.FC_CTRL_CEHOLD : Fld := ⟨R.FC_CTRL, 8, 8⟩
abbrev F.FC_STAT_CLRSRC : Fld := ⟨R.FC_STAT, 16, 6⟩
abbrev F.FC_STAT_VALUE_REJ : Fld := ⟨R.FC_STAT, 27, 1⟩
abbrev F.FC_STAT_RESTFAIL : Fld := ⟨R.FC_STAT, 28, 1⟩
abbrev F.FC_STAT_OVW : Fld := ⟨R.FC_STAT, 29, 1⟩
abbrev F.FC_STAT_FORCEREJ : Fld := ⟨R.FC_STAT, 30, 1⟩
abbrev F.FC_STAT_CLRREJ : Fld := ⟨R.FC_STAT, 31, 1⟩
abbrev F.FC_FIRST_SOURCE : Fld := ⟨R.FC_FIRST, 0, 6⟩
abbrev F.FC_FIRST_CLASS : Fld := ⟨R.FC_FIRST, 28, 2⟩
abbrev F.FC_FIRST_FORCED : Fld := ⟨R.FC_FIRST, 30, 1⟩
abbrev F.FC_FIRST_VALID : Fld := ⟨R.FC_FIRST, 31, 1⟩
abbrev F.FC_FIRSTDT_LO_DT : Fld := ⟨R.FC_FIRSTDT_LO, 0, 32⟩
abbrev F.FC_FIRSTDT_HI_DT : Fld := ⟨R.FC_FIRSTDT_HI, 0, 32⟩
abbrev F.FC_LOGSEQ_SEQ : Fld := ⟨R.FC_LOGSEQ, 0, 32⟩
abbrev F.FC_LOGLOST_STAGED : Fld := ⟨R.FC_LOGLOST, 0, 16⟩
abbrev F.FC_LOGLOST_LOST : Fld := ⟨R.FC_LOGLOST, 16, 16⟩
abbrev F.FC_RET_LO_RET : Fld := ⟨R.FC_RET_LO, 0, 32⟩
abbrev F.FC_RET_HI_RET : Fld := ⟨R.FC_RET_HI, 0, 32⟩
abbrev F.FC_RESTORE_LO_RESTORE : Fld := ⟨R.FC_RESTORE_LO, 0, 32⟩
abbrev F.FC_RESTORE_HI_RESTORE : Fld := ⟨R.FC_RESTORE_HI, 0, 32⟩
abbrev F.FC_SRC_CLASS (i : Nat) : Fld := ⟨(R.FC_SRC i), 0, 2⟩
abbrev F.FC_SRC_UNACK (i : Nat) : Fld := ⟨(R.FC_SRC i), 3, 3⟩
abbrev F.FC_SRC_RETIRED (i : Nat) : Fld := ⟨(R.FC_SRC i), 6, 1⟩
abbrev F.FC_SRC_FORCED (i : Nat) : Fld := ⟨(R.FC_SRC i), 7, 1⟩
abbrev F.FC_SRC_UCCNT (i : Nat) : Fld := ⟨(R.FC_SRC i), 8, 8⟩
abbrev F.FC_SRC_CECNT (i : Nat) : Fld := ⟨(R.FC_SRC i), 16, 16⟩
abbrev F.FC_DEP_DEPMADE (i : Nat) : Fld := ⟨(R.FC_DEP i), 0, 16⟩
abbrev F.FC_DEP_DEPCNT (i : Nat) : Fld := ⟨(R.FC_DEP i), 16, 16⟩
abbrev F.HK_CFG_ACQ : Fld := ⟨R.HK_CFG, 4, 6⟩
abbrev F.HK_CFG_PER : Fld := ⟨R.HK_CFG, 16, 16⟩
abbrev F.HK_TRIG_SRC : Fld := ⟨R.HK_TRIG, 0, 3⟩
abbrev F.HK_TRIG_SEL : Fld := ⟨R.HK_TRIG, 8, 6⟩
abbrev F.HK_TRIG_DELAY : Fld := ⟨R.HK_TRIG, 16, 16⟩
abbrev F.HK_XMASK_X : Fld := ⟨R.HK_XMASK, 0, 18⟩
abbrev F.HK_INJ_INPUT : Fld := ⟨R.HK_INJ, 0, 7⟩
abbrev F.HK_INJ_GO : Fld := ⟨R.HK_INJ, 31, 1⟩
abbrev F.HK_STAT_INJQ : Fld := ⟨R.HK_STAT, 0, 5⟩
abbrev F.HK_STAT_ROUNDSKIP : Fld := ⟨R.HK_STAT, 8, 8⟩
abbrev F.HK_STAT_OVW : Fld := ⟨R.HK_STAT, 29, 1⟩
abbrev F.HK_STAT_VALUE_REJ : Fld := ⟨R.HK_STAT, 30, 1⟩
abbrev F.HK_STAT_RUNNING : Fld := ⟨R.HK_STAT, 31, 1⟩
abbrev F.HK_ROUND_COUNT : Fld := ⟨R.HK_ROUND, 0, 32⟩
abbrev F.HK_RDT_LO_DT : Fld := ⟨R.HK_RDT_LO, 0, 32⟩
abbrev F.HK_RDT_HI_DT : Fld := ⟨R.HK_RDT_HI, 0, 32⟩
abbrev F.HK_RES_CODE (i : Nat) : Fld := ⟨(R.HK_RES i), 0, 12⟩
abbrev F.HK_RES_ROUND (i : Nat) : Fld := ⟨(R.HK_RES i), 16, 14⟩
abbrev F.HK_RES_INJ (i : Nat) : Fld := ⟨(R.HK_RES i), 30, 1⟩
abbrev F.HK_RES_VALID (i : Nat) : Fld := ⟨(R.HK_RES i), 31, 1⟩
abbrev F.TH_CFG_WARN : Fld := ⟨R.TH_CFG, 0, 8⟩
abbrev F.TH_CFG_THR : Fld := ⟨R.TH_CFG, 8, 8⟩
abbrev F.TH_CFG_SHUT : Fld := ⟨R.TH_CFG, 16, 8⟩
abbrev F.TH_CFG_HYST : Fld := ⟨R.TH_CFG, 28, 4⟩
abbrev F.TH_STAT_TJ : Fld := ⟨R.TH_STAT, 0, 16⟩
abbrev F.TH_STAT_NFAIL : Fld := ⟨R.TH_STAT, 16, 5⟩
abbrev F.TH_STAT_HOT : Fld := ⟨R.TH_STAT, 21, 5⟩
abbrev F.TH_STAT_DIRECT_REFUSED : Fld := ⟨R.TH_STAT, 27, 1⟩
abbrev F.TH_STAT_VALUE_REJ : Fld := ⟨R.TH_STAT, 28, 1⟩
abbrev F.TH_STAT_SHUT : Fld := ⟨R.TH_STAT, 29, 1⟩
abbrev F.TH_STAT_THROT : Fld := ⟨R.TH_STAT, 30, 1⟩
abbrev F.TH_STAT_WARN : Fld := ⟨R.TH_STAT, 31, 1⟩
abbrev F.TH_SFAIL_FAIL : Fld := ⟨R.TH_SFAIL, 0, 24⟩
abbrev F.TH_MASK_MASK : Fld := ⟨R.TH_MASK, 0, 24⟩
abbrev F.TH_HPOL_D (i : Nat) : Fld := ⟨(R.TH_HPOL i), 0, 4⟩
abbrev F.TH_TEMP_TEMP (i : Nat) : Fld := ⟨(R.TH_TEMP i), 0, 16⟩
abbrev F.NV_CTRL_CLRCNT : Fld := ⟨R.NV_CTRL, 0, 1⟩
abbrev F.NV_CMD_WRITE : Fld := ⟨R.NV_CMD, 0, 1⟩
abbrev F.NV_STAT_RESULT : Fld := ⟨R.NV_STAT, 20, 4⟩
abbrev F.NV_STAT_VALUE_REJ : Fld := ⟨R.NV_STAT, 24, 1⟩
abbrev F.NV_STAT_RDERR : Fld := ⟨R.NV_STAT, 25, 1⟩
abbrev F.NV_STAT_CMDREJ : Fld := ⟨R.NV_STAT, 26, 1⟩
abbrev F.NV_STAT_PROT_WR : Fld := ⟨R.NV_STAT, 27, 1⟩
abbrev F.NV_STAT_TRUNC : Fld := ⟨R.NV_STAT, 28, 1⟩
abbrev F.NV_STAT_ILK_SAG : Fld := ⟨R.NV_STAT, 29, 1⟩
abbrev F.NV_STAT_ILK_TEMP : Fld := ⟨R.NV_STAT, 30, 1⟩
abbrev F.NV_STAT_BUSY : Fld := ⟨R.NV_STAT, 31, 1⟩
abbrev F.NV_WADDR_ADDR : Fld := ⟨R.NV_WADDR, 0, 22⟩
abbrev F.NV_WLEN_LEN : Fld := ⟨R.NV_WLEN, 0, 9⟩
abbrev F.NV_WIN_WIN : Fld := ⟨R.NV_WIN, 0, 7⟩
abbrev F.NV_DIRTY_RING : Fld := ⟨R.NV_DIRTY, 0, 21⟩
abbrev F.NV_CNT_SECC : Fld := ⟨R.NV_CNT, 0, 16⟩
abbrev F.NV_CNT_RELOC : Fld := ⟨R.NV_CNT, 16, 16⟩
abbrev F.NV_SPARE_LEFT : Fld := ⟨R.NV_SPARE, 0, 7⟩
abbrev F.NV_BOOT_COUNT : Fld := ⟨R.NV_BOOT, 0, 32⟩
abbrev F.NV_HOURS_HOURS : Fld := ⟨R.NV_HOURS, 0, 32⟩
abbrev F.NV_WBUF_DATA (i : Nat) : Fld := ⟨(R.NV_WBUF i), 0, 32⟩
abbrev F.TRG_DT_LO_DT : Fld := ⟨R.TRG_DT_LO, 0, 32⟩
abbrev F.TRG_DT_HI_DT : Fld := ⟨R.TRG_DT_HI, 0, 32⟩
abbrev F.TRG_DTSTAT_SRC : Fld := ⟨R.TRG_DTSTAT, 0, 2⟩
abbrev F.TRG_DTSTAT_TAISTEP : Fld := ⟨R.TRG_DTSTAT, 8, 8⟩
abbrev F.TRG_DTSTAT_LOCKED : Fld := ⟨R.TRG_DTSTAT, 16, 1⟩
abbrev F.TRG_DTSTAT_OVW : Fld := ⟨R.TRG_DTSTAT, 31, 1⟩
abbrev F.TRG_CTRL_EN : Fld := ⟨R.TRG_CTRL, 0, 1⟩
abbrev F.TRG_CTRL_DISC : Fld := ⟨R.TRG_CTRL, 1, 1⟩
abbrev F.TRG_CTRL_CLRCNT : Fld := ⟨R.TRG_CTRL, 2, 1⟩
abbrev F.TRG_STAT_MKLOST : Fld := ⟨R.TRG_STAT, 0, 16⟩
abbrev F.TRG_STAT_HOP : Fld := ⟨R.TRG_STAT, 16, 5⟩
abbrev F.TRG_STAT_LATE : Fld := ⟨R.TRG_STAT, 21, 6⟩
abbrev F.TRG_STAT_PATHFAIL : Fld := ⟨R.TRG_STAT, 27, 1⟩
abbrev F.TRG_STAT_HOPERR : Fld := ⟨R.TRG_STAT, 28, 1⟩
abbrev F.TRG_STAT_UPLOSS : Fld := ⟨R.TRG_STAT, 29, 1⟩
abbrev F.TRG_STAT_RXLOCK : Fld := ⟨R.TRG_STAT, 30, 1⟩
abbrev F.TRG_STAT_HOLD : Fld := ⟨R.TRG_STAT, 31, 1⟩
abbrev F.TRG_CABLEDLY_DLY : Fld := ⟨R.TRG_CABLEDLY, 0, 16⟩
abbrev F.TRG_ALIGN_ALIGN : Fld := ⟨R.TRG_ALIGN, 0, 16⟩
abbrev F.TRG_TAIOFF_LO_TAIOFF : Fld := ⟨R.TRG_TAIOFF_LO, 0, 32⟩
abbrev F.TRG_TAIOFF_HI_TAIOFF : Fld := ⟨R.TRG_TAIOFF_HI, 0, 32⟩
abbrev F.TRG_ERRCNT_CHAR : Fld := ⟨R.TRG_ERRCNT, 0, 16⟩
abbrev F.TRG_ERRCNT_CRC : Fld := ⟨R.TRG_ERRCNT, 16, 16⟩
abbrev F.TRG_TRIGCFG_POL (i : Nat) : Fld := ⟨(R.TRG_TRIGCFG i), 0, 1⟩
abbrev F.TRG_TRIGCFG_PIN (i : Nat) : Fld := ⟨(R.TRG_TRIGCFG i), 1, 1⟩
abbrev F.TRG_TRIGCFG_RING (i : Nat) : Fld := ⟨(R.TRG_TRIGCFG i), 2, 1⟩
abbrev F.TRG_TRIGPER_EXPPER (i : Nat) : Fld := ⟨(R.TRG_TRIGPER i), 0, 16⟩
abbrev F.TRG_TRIGPER_MINPER (i : Nat) : Fld := ⟨(R.TRG_TRIGPER i), 16, 16⟩
abbrev F.TRG_TRIGCNT_ACC (i : Nat) : Fld := ⟨(R.TRG_TRIGCNT i), 0, 16⟩
abbrev F.TRG_TRIGCNT_OVR (i : Nat) : Fld := ⟨(R.TRG_TRIGCNT i), 16, 16⟩
abbrev F.TRG_TRIGSTAT_STUCK (i : Nat) : Fld := ⟨(R.TRG_TRIGSTAT i), 0, 1⟩
abbrev F.TRG_TRIGSTAT_LIVE (i : Nat) : Fld := ⟨(R.TRG_TRIGSTAT i), 1, 1⟩
abbrev F.TRG_TRIGSTAT_OVW (i : Nat) : Fld := ⟨(R.TRG_TRIGSTAT i), 31, 1⟩
abbrev F.TRG_TRIGDT_LO_DT (i : Nat) : Fld := ⟨(R.TRG_TRIGDT_LO i), 0, 32⟩
abbrev F.TRG_TRIGDT_HI_DT (i : Nat) : Fld := ⟨(R.TRG_TRIGDT_HI i), 0, 32⟩
abbrev F.TRG_MSGTX_W (i : Nat) : Fld := ⟨(R.TRG_MSGTX i), 0, 32⟩
abbrev F.TRG_MSGCMD_LEN : Fld := ⟨R.TRG_MSGCMD, 0, 5⟩
abbrev F.TRG_MSGCMD_DST : Fld := ⟨R.TRG_MSGCMD, 8, 8⟩
abbrev F.TRG_MSGCMD_SEND : Fld := ⟨R.TRG_MSGCMD, 16, 1⟩
abbrev F.TRG_MSGCMD_POP : Fld := ⟨R.TRG_MSGCMD, 17, 1⟩
abbrev F.TRG_MSGSTAT_RXCOUNT : Fld := ⟨R.TRG_MSGSTAT, 0, 4⟩
abbrev F.TRG_MSGSTAT_RXOVF : Fld := ⟨R.TRG_MSGSTAT, 16, 8⟩
abbrev F.TRG_MSGSTAT_TXRESULT : Fld := ⟨R.TRG_MSGSTAT, 24, 2⟩
abbrev F.TRG_MSGSTAT_VALUE_REJ : Fld := ⟨R.TRG_MSGSTAT, 30, 1⟩
abbrev F.TRG_MSGSTAT_TXBUSY : Fld := ⟨R.TRG_MSGSTAT, 31, 1⟩
abbrev F.TRG_MSGRX_W (i : Nat) : Fld := ⟨(R.TRG_MSGRX i), 0, 32⟩
abbrev F.TRG_MSGRXHDR_LEN : Fld := ⟨R.TRG_MSGRXHDR, 0, 5⟩
abbrev F.TRG_MSGRXHDR_SRC : Fld := ⟨R.TRG_MSGRXHDR, 8, 8⟩
abbrev F.HP_CTRL_PORT_EN (i : Nat) : Fld := ⟨(R.HP_CTRL i), 0, 1⟩
abbrev F.HP_CTRL_BIAS_EN (i : Nat) : Fld := ⟨(R.HP_CTRL i), 1, 1⟩
abbrev F.HP_CTRL_HSUP_EN (i : Nat) : Fld := ⟨(R.HP_CTRL i), 2, 1⟩
abbrev F.HP_CTRL_SHUT_EN (i : Nat) : Fld := ⟨(R.HP_CTRL i), 3, 1⟩
abbrev F.HP_CTRL_THM_EN (i : Nat) : Fld := ⟨(R.HP_CTRL i), 4, 1⟩
abbrev F.HP_CTRL_OPENTEST_EN (i : Nat) : Fld := ⟨(R.HP_CTRL i), 5, 1⟩
abbrev F.HP_CTRL_SHORTTEST_EN (i : Nat) : Fld := ⟨(R.HP_CTRL i), 6, 1⟩
abbrev F.HP_CTRL_EXTSUP (i : Nat) : Fld := ⟨(R.HP_CTRL i), 7, 1⟩
abbrev F.HP_CMD_PVAL (i : Nat) : Fld := ⟨(R.HP_CMD i), 0, 1⟩
abbrev F.HP_CMD_RESUME (i : Nat) : Fld := ⟨(R.HP_CMD i), 2, 1⟩
abbrev F.HP_CMD_HSUP_RETRY (i : Nat) : Fld := ⟨(R.HP_CMD i), 3, 1⟩
abbrev F.HP_CMD_SHUT_CLOSE (i : Nat) : Fld := ⟨(R.HP_CMD i), 4, 1⟩
abbrev F.HP_CMD_SHUT_OPEN (i : Nat) : Fld := ⟨(R.HP_CMD i), 5, 1⟩
abbrev F.HP_STAT_PVBUSY (i : Nat) : Fld := ⟨(R.HP_STAT i), 8, 1⟩
abbrev F.HP_STAT_DIRECT_REFUSED (i : Nat) : Fld := ⟨(R.HP_STAT i), 9, 1⟩
abbrev F.HP_STAT_THM_CLAMP (i : Nat) : Fld := ⟨(R.HP_STAT i), 10, 1⟩
abbrev F.HP_STAT_THM_HELD (i : Nat) : Fld := ⟨(R.HP_STAT i), 11, 1⟩
abbrev F.HP_STAT_SHPOS (i : Nat) : Fld := ⟨(R.HP_STAT i), 12, 2⟩
abbrev F.HP_STAT_HSUP (i : Nat) : Fld := ⟨(R.HP_STAT i), 14, 2⟩
abbrev F.HP_STAT_RETRIES (i : Nat) : Fld := ⟨(R.HP_STAT i), 16, 2⟩
abbrev F.HP_STAT_HELD (i : Nat) : Fld := ⟨(R.HP_STAT i), 18, 1⟩
abbrev F.HP_STAT_STREAM (i : Nat) : Fld := ⟨(R.HP_STAT i), 19, 1⟩
abbrev F.HP_STAT_PSTAT (i : Nat) : Fld := ⟨(R.HP_STAT i), 20, 4⟩
abbrev F.HP_STAT_OTSKIP (i : Nat) : Fld := ⟨(R.HP_STAT i), 24, 8⟩
abbrev F.HP_FLT_HSUP_SHORT (i : Nat) : Fld := ⟨(R.HP_FLT i), 0, 1⟩
abbrev F.HP_FLT_HSUP_REV (i : Nat) : Fld := ⟨(R.HP_FLT i), 1, 1⟩
abbrev F.HP_FLT_HSUP_LOCKOUT (i : Nat) : Fld := ⟨(R.HP_FLT i), 2, 1⟩
abbrev F.HP_FLT_TAP (i : Nat) : Fld := ⟨(R.HP_FLT i), 3, 1⟩
abbrev F.HP_FLT_THM_OPEN (i : Nat) : Fld := ⟨(R.HP_FLT i), 4, 1⟩
abbrev F.HP_FLT_THM_SHORT (i : Nat) : Fld := ⟨(R.HP_FLT i), 5, 1⟩
abbrev F.HP_FLT_SHUT_OPEN (i : Nat) : Fld := ⟨(R.HP_FLT i), 6, 1⟩
abbrev F.HP_FLT_SHUT_SHORT (i : Nat) : Fld := ⟨(R.HP_FLT i), 7, 1⟩
abbrev F.HP_FLT_SHUT_POS (i : Nat) : Fld := ⟨(R.HP_FLT i), 8, 1⟩
abbrev F.HP_FLT_SHUT_NOVSHUT (i : Nat) : Fld := ⟨(R.HP_FLT i), 9, 1⟩
abbrev F.HP_FLT_HCP_ERR (i : Nat) : Fld := ⟨(R.HP_FLT i), 10, 1⟩
abbrev F.HP_FLT_BIAS_OC (i : Nat) : Fld := ⟨(R.HP_FLT i), 11, 1⟩
abbrev F.HP_FLT_BIAS_CLAMP (i : Nat) : Fld := ⟨(R.HP_FLT i), 12, 1⟩
abbrev F.HP_BIAS_VSKIM (i : Nat) : Fld := ⟨(R.HP_BIAS i), 0, 16⟩
abbrev F.HP_BIAS_VBIAS (i : Nat) : Fld := ⟨(R.HP_BIAS i), 16, 16⟩
abbrev F.HP_HSUPMON_CURR (i : Nat) : Fld := ⟨(R.HP_HSUPMON i), 0, 16⟩
abbrev F.HP_HSUPMON_VOLT (i : Nat) : Fld := ⟨(R.HP_HSUPMON i), 16, 16⟩
abbrev F.HP_THM_TEMP (i : Nat) : Fld := ⟨(R.HP_THM i), 0, 16⟩
abbrev F.HP_TAPFLT_OPEN (i : Nat) : Fld := ⟨(R.HP_TAPFLT i), 0, 16⟩
abbrev F.HP_TAPFLT_SHORT (i : Nat) : Fld := ⟨(R.HP_TAPFLT i), 16, 16⟩
abbrev F.HP_TAPSWAP_SWAP (i : Nat) : Fld := ⟨(R.HP_TAPSWAP i), 0, 16⟩
abbrev F.HCP_CTRL_DIV (i : Nat) : Fld := ⟨(R.HCP_CTRL i), 0, 8⟩
abbrev F.HCP_CTRL_PFX_EN (i : Nat) : Fld := ⟨(R.HCP_CTRL i), 8, 1⟩
abbrev F.HCP_LEN_LEN (i : Nat) : Fld := ⟨(R.HCP_LEN i), 0, 16⟩
abbrev F.HCP_CMD_GO (i : Nat) : Fld := ⟨(R.HCP_CMD i), 0, 1⟩
abbrev F.HCP_CMD_ABORT (i : Nat) : Fld := ⟨(R.HCP_CMD i), 1, 1⟩
abbrev F.HCP_STAT_RXCOUNT (i : Nat) : Fld := ⟨(R.HCP_STAT i), 0, 16⟩
abbrev F.HCP_STAT_ERR (i : Nat) : Fld := ⟨(R.HCP_STAT i), 16, 4⟩
abbrev F.HCP_STAT_OWNER (i : Nat) : Fld := ⟨(R.HCP_STAT i), 30, 1⟩
abbrev F.HCP_STAT_BUSY (i : Nat) : Fld := ⟨(R.HCP_STAT i), 31, 1⟩
abbrev F.HP_FRM_CFG_SRC (i : Nat) : Fld := ⟨(R.HP_FRM_CFG i), 0, 3⟩
abbrev F.HP_FRM_CFG_INV (i : Nat) : Fld := ⟨(R.HP_FRM_CFG i), 4, 1⟩
abbrev F.HP_FRM_CFG_SEL (i : Nat) : Fld := ⟨(R.HP_FRM_CFG i), 8, 6⟩
abbrev F.HP_FPER_FPER (i : Nat) : Fld := ⟨(R.HP_FPER i), 0, 32⟩
abbrev F.HP_TSTAT_SRC_LOST (i : Nat) : Fld := ⟨(R.HP_TSTAT i), 0, 1⟩
abbrev F.HP_TSTAT_SRC_STUCK (i : Nat) : Fld := ⟨(R.HP_TSTAT i), 1, 1⟩
abbrev F.HP_TSTAT_HLV_STUCK (i : Nat) : Fld := ⟨(R.HP_TSTAT i), 2, 1⟩
abbrev F.HP_TSTAT_HFV_STUCK (i : Nat) : Fld := ⟨(R.HP_TSTAT i), 3, 1⟩
abbrev F.HP_TSTAT_VALUE_REJ (i : Nat) : Fld := ⟨(R.HP_TSTAT i), 4, 1⟩
abbrev F.HP_TSTAT_LIVE (i : Nat) : Fld := ⟨(R.HP_TSTAT i), 8, 4⟩
abbrev F.HP_TSTAT_FPER_BAD (i : Nat) : Fld := ⟨(R.HP_TSTAT i), 12, 1⟩
abbrev F.HP_TSTAT_OVW (i : Nat) : Fld := ⟨(R.HP_TSTAT i), 30, 1⟩
abbrev F.HP_TSTAT_CLRCNT (i : Nat) : Fld := ⟨(R.HP_TSTAT i), 31, 1⟩
abbrev F.HP_TCNT0_SHORT (i : Nat) : Fld := ⟨(R.HP_TCNT0 i), 0, 16⟩
abbrev F.HP_TCNT0_LONG (i : Nat) : Fld := ⟨(R.HP_TCNT0 i), 16, 16⟩
abbrev F.HP_TCNT1_FRM_OVR (i : Nat) : Fld := ⟨(R.HP_TCNT1 i), 0, 16⟩
abbrev F.HP_TCNT1_LINE_OVR (i : Nat) : Fld := ⟨(R.HP_TCNT1 i), 16, 16⟩
abbrev F.HP_TCNT2_MISSED (i : Nat) : Fld := ⟨(R.HP_TCNT2 i), 0, 16⟩
abbrev F.HP_TCNT2_LATE (i : Nat) : Fld := ⟨(R.HP_TCNT2 i), 16, 16⟩
abbrev F.HP_FSEQ_LO_FSEQ (i : Nat) : Fld := ⟨(R.HP_FSEQ_LO i), 0, 32⟩
abbrev F.HP_FSEQ_HI_FSEQ (i : Nat) : Fld := ⟨(R.HP_FSEQ_HI i), 0, 32⟩
abbrev F.HP_FSDT_LO_FSDT (i : Nat) : Fld := ⟨(R.HP_FSDT_LO i), 0, 32⟩
abbrev F.HP_FSDT_HI_FSDT (i : Nat) : Fld := ⟨(R.HP_FSDT_HI i), 0, 32⟩
abbrev F.HP_PROF_W (i j : Nat) : Fld := ⟨(R.HP_PROF i j), 0, 32⟩
abbrev F.HCP_TXBUF_W (i j : Nat) : Fld := ⟨(R.HCP_TXBUF i j), 0, 32⟩
abbrev F.HCP_RXBUF_W (i j : Nat) : Fld := ⟨(R.HCP_RXBUF i j), 0, 32⟩
abbrev F.TC_CFG_AAF (i : Nat) : Fld := ⟨(R.TC_CFG i), 0, 2⟩
abbrev F.TC_CFG_RATIO (i : Nat) : Fld := ⟨(R.TC_CFG i), 2, 2⟩
abbrev F.TC_CFG_BGTRIM_EN (i : Nat) : Fld := ⟨(R.TC_CFG i), 4, 1⟩
abbrev F.TC_CMD_SELFCAL (i : Nat) : Fld := ⟨(R.TC_CMD i), 0, 1⟩
abbrev F.TC_STAT_DIRECT_REFUSED (i : Nat) : Fld := ⟨(R.TC_STAT i), 1, 1⟩
abbrev F.TC_STAT_VALUE_REJ (i : Nat) : Fld := ⟨(R.TC_STAT i), 2, 1⟩
abbrev F.TC_STAT_BGT_SKIP (i : Nat) : Fld := ⟨(R.TC_STAT i), 3, 1⟩
abbrev F.TC_STAT_CALRESULT (i : Nat) : Fld := ⟨(R.TC_STAT i), 24, 3⟩
abbrev F.TC_STAT_SCLK_FALLBACK (i : Nat) : Fld := ⟨(R.TC_STAT i), 27, 1⟩
abbrev F.TC_STAT_REF_FALLBACK (i : Nat) : Fld := ⟨(R.TC_STAT i), 28, 1⟩
abbrev F.TC_STAT_SCLK_LOCK (i : Nat) : Fld := ⟨(R.TC_STAT i), 29, 1⟩
abbrev F.TC_STAT_REFOK (i : Nat) : Fld := ⟨(R.TC_STAT i), 30, 1⟩
abbrev F.TC_STAT_CALBUSY (i : Nat) : Fld := ⟨(R.TC_STAT i), 31, 1⟩
abbrev F.TC_GAIN0_G (i : Nat) : Fld := ⟨(R.TC_GAIN0 i), 0, 32⟩
abbrev F.TC_GAIN1_G (i : Nat) : Fld := ⟨(R.TC_GAIN1 i), 0, 32⟩
abbrev F.TC_GEFF1_E (i : Nat) : Fld := ⟨(R.TC_GEFF1 i), 0, 32⟩
abbrev F.TC_CELLREJ_REJ_EVEN (i : Nat) : Fld := ⟨(R.TC_CELLREJ i), 0, 16⟩
abbrev F.TC_CELLREJ_REJ_ODD (i : Nat) : Fld := ⟨(R.TC_CELLREJ i), 16, 16⟩
abbrev F.TC_REFCFG_SRC (i : Nat) : Fld := ⟨(R.TC_REFCFG i), 0, 2⟩
abbrev F.TC_SCLK_FREQ (i : Nat) : Fld := ⟨(R.TC_SCLK i), 0, 14⟩
abbrev F.TC_SCLK_SRC (i : Nat) : Fld := ⟨(R.TC_SCLK i), 16, 1⟩
abbrev F.TC_BG_TRIM : Fld := ⟨R.TC_BG, 0, 8⟩
abbrev F.TC_BG_CHKTRIM : Fld := ⟨R.TC_BG, 8, 8⟩
abbrev F.TC_BG_DIFF : Fld := ⟨R.TC_BG, 16, 8⟩
abbrev F.TC_BG_DISAGREE : Fld := ⟨R.TC_BG, 29, 1⟩
abbrev F.TC_BG_CHKTRIMBAD : Fld := ⟨R.TC_BG, 30, 1⟩
abbrev F.TC_BG_TRIMBAD : Fld := ⟨R.TC_BG, 31, 1⟩
abbrev F.TC_CALOK_COUNT (i : Nat) : Fld := ⟨(R.TC_CALOK i), 0, 32⟩
abbrev F.TC_CALFAIL_COUNT (i : Nat) : Fld := ⟨(R.TC_CALFAIL i), 0, 32⟩
abbrev F.TC_CALDT_LO_DT_LO (i : Nat) : Fld := ⟨(R.TC_CALDT_LO i), 0, 32⟩
abbrev F.TC_CALDT_HI_DT_HI (i : Nat) : Fld := ⟨(R.TC_CALDT_HI i), 0, 32⟩
abbrev F.TC_CALTAI_TAI (i : Nat) : Fld := ⟨(R.TC_CALTAI i), 0, 32⟩
abbrev F.TC_FACT_FACTOR (i j : Nat) : Fld := ⟨(R.TC_FACT i j), 0, 16⟩
abbrev F.CL_STAT_HEADS (i : Nat) : Fld := ⟨(R.CL_STAT i), 0, 8⟩
abbrev F.CL_STAT_FIFOMAX (i : Nat) : Fld := ⟨(R.CL_STAT i), 8, 8⟩
abbrev F.CL_STAT_NSTREAM (i : Nat) : Fld := ⟨(R.CL_STAT i), 28, 4⟩
abbrev F.CL_CNT_QHOLD (i : Nat) : Fld := ⟨(R.CL_CNT i), 0, 16⟩
abbrev F.CL_CNT_LINEDROP (i : Nat) : Fld := ⟨(R.CL_CNT i), 16, 16⟩
abbrev F.CL_CTRL_CLRCNT (i : Nat) : Fld := ⟨(R.CL_CTRL i), 0, 1⟩
abbrev F.CL_HCFG_BLIND_EN (h : Nat) : Fld := ⟨(R.CL_HCFG h), 0, 1⟩
abbrev F.CL_HCFG_POLDET_EN (h : Nat) : Fld := ⟨(R.CL_HCFG h), 1, 1⟩
abbrev F.CL_HCFG_POLEXP (h : Nat) : Fld := ⟨(R.CL_HCFG h), 2, 1⟩
abbrev F.CL_HCFG_REFTHR (h : Nat) : Fld := ⟨(R.CL_HCFG h), 24, 8⟩
abbrev F.CL_HCMD_LSWAP (h : Nat) : Fld := ⟨(R.CL_HCMD h), 0, 1⟩
abbrev F.CL_HCMD_RSWAP (h : Nat) : Fld := ⟨(R.CL_HCMD h), 1, 1⟩
abbrev F.CL_HCMD_MSYNC (h : Nat) : Fld := ⟨(R.CL_HCMD h), 2, 1⟩
abbrev F.CL_HSTAT_LSEL (h : Nat) : Fld := ⟨(R.CL_HSTAT h), 0, 1⟩
abbrev F.CL_HSTAT_RSEL (h : Nat) : Fld := ⟨(R.CL_HSTAT h), 1, 1⟩
abbrev F.CL_HSTAT_DIRECT_REFUSED (h : Nat) : Fld := ⟨(R.CL_HSTAT h), 2, 1⟩
abbrev F.CL_HSTAT_PROT_WR (h : Nat) : Fld := ⟨(R.CL_HSTAT h), 3, 1⟩
abbrev F.CL_HSTAT_MIRSYNC (h : Nat) : Fld := ⟨(R.CL_HSTAT h), 24, 4⟩
abbrev F.CL_HSTAT_SWAPRES (h : Nat) : Fld := ⟨(R.CL_HSTAT h), 28, 4⟩
abbrev F.CL_HMIR_EN (h : Nat) : Fld := ⟨(R.CL_HMIR h), 0, 4⟩
abbrev F.CL_HLA_BASE (h : Nat) : Fld := ⟨(R.CL_HLA h), 0, 23⟩
abbrev F.CL_HLB_BASE (h : Nat) : Fld := ⟨(R.CL_HLB h), 0, 23⟩
abbrev F.CL_HRA_BASE (h : Nat) : Fld := ⟨(R.CL_HRA h), 0, 23⟩
abbrev F.CL_HRB_BASE (h : Nat) : Fld := ⟨(R.CL_HRB h), 0, 23⟩
abbrev F.CL_HMLA_BASE (h : Nat) : Fld := ⟨(R.CL_HMLA h), 0, 23⟩
abbrev F.CL_HMLB_BASE (h : Nat) : Fld := ⟨(R.CL_HMLB h), 0, 23⟩
abbrev F.CL_HMRA_BASE (h : Nat) : Fld := ⟨(R.CL_HMRA h), 0, 23⟩
abbrev F.CL_HMRB_BASE (h : Nat) : Fld := ⟨(R.CL_HMRB h), 0, 23⟩
abbrev F.CL_HCNT_POLFLIP (h : Nat) : Fld := ⟨(R.CL_HCNT h), 0, 16⟩
abbrev F.CL_HCNT_LONGEXC (h : Nat) : Fld := ⟨(R.CL_HCNT h), 16, 16⟩
abbrev F.CX_CTRL_CLRCNT (i : Nat) : Fld := ⟨(R.CX_CTRL i), 0, 1⟩
abbrev F.CX_CTRL_QTMO (i : Nat) : Fld := ⟨(R.CX_CTRL i), 8, 16⟩
abbrev F.CX_STAT_TMOCNT (i : Nat) : Fld := ⟨(R.CX_STAT i), 0, 16⟩
abbrev F.CX_STAT_WAITING (i : Nat) : Fld := ⟨(R.CX_STAT i), 16, 8⟩
abbrev F.CX_STAT_INFLIGHT (i : Nat) : Fld := ⟨(R.CX_STAT i), 24, 8⟩
abbrev F.CX_RCNT_REPLAY (i : Nat) : Fld := ⟨(R.CX_RCNT i), 0, 16⟩
abbrev F.CX_RCNT_RETRYOK (i : Nat) : Fld := ⟨(R.CX_RCNT i), 16, 16⟩
abbrev F.CX_TAISW_LO_TAISW : Fld := ⟨R.CX_TAISW_LO, 0, 32⟩
abbrev F.CX_TAISW_HI_TAISW : Fld := ⟨R.CX_TAISW_HI, 0, 32⟩
abbrev F.CX_HCFG_DGT_EN (h : Nat) : Fld := ⟨(R.CX_HCFG h), 0, 1⟩
abbrev F.CX_HCFG_DRIFT_EN (h : Nat) : Fld := ⟨(R.CX_HCFG h), 1, 1⟩
abbrev F.CX_HCFG_AGE_EN (h : Nat) : Fld := ⟨(R.CX_HCFG h), 2, 1⟩
abbrev F.CX_HCFG_RES_EN (h : Nat) : Fld := ⟨(R.CX_HCFG h), 3, 1⟩
abbrev F.CX_HCFG_GTC_EN (h : Nat) : Fld := ⟨(R.CX_HCFG h), 4, 1⟩
abbrev F.CX_HCFG_SUB_EN (h : Nat) : Fld := ⟨(R.CX_HCFG h), 5, 1⟩
abbrev F.CX_HCFG_WEAK_SUB (h : Nat) : Fld := ⟨(R.CX_HCFG h), 6, 1⟩
abbrev F.CX_HCFG_NOISY_SUB (h : Nat) : Fld := ⟨(R.CX_HCFG h), 7, 1⟩
abbrev F.CX_HCFG_TSRC (h : Nat) : Fld := ⟨(R.CX_HCFG h), 8, 1⟩
abbrev F.CX_HCFG_SHIFT (h : Nat) : Fld := ⟨(R.CX_HCFG h), 13, 3⟩
abbrev F.CX_HKNEE_KS (h : Nat) : Fld := ⟨(R.CX_HKNEE h), 0, 16⟩
abbrev F.CX_HKNEE_KE (h : Nat) : Fld := ⟨(R.CX_HKNEE h), 16, 16⟩
abbrev F.CX_HTFIX_TFIX (h : Nat) : Fld := ⟨(R.CX_HTFIX h), 0, 16⟩
abbrev F.CX_HFILL_FILL (h : Nat) : Fld := ⟨(R.CX_HFILL h), 0, 24⟩
abbrev F.CX_HSTAT_DIRECT_REFUSED (h : Nat) : Fld := ⟨(R.CX_HSTAT h), 0, 1⟩
abbrev F.CX_HSTAT_VALUE_REJ (h : Nat) : Fld := ⟨(R.CX_HSTAT h), 1, 1⟩
abbrev F.CX_HSTAT_AGE_UNK (h : Nat) : Fld := ⟨(R.CX_HSTAT h), 2, 1⟩
abbrev F.CX_HSTAT_AGENEG (h : Nat) : Fld := ⟨(R.CX_HSTAT h), 3, 1⟩
abbrev F.CX_HSTAT_OVERSUB (h : Nat) : Fld := ⟨(R.CX_HSTAT h), 4, 1⟩
abbrev F.CX_HDT_D (h : Nat) : Fld := ⟨(R.CX_HDT h), 0, 17⟩
abbrev F.CX_HAGE_HOURS (h : Nat) : Fld := ⟨(R.CX_HAGE h), 0, 32⟩
abbrev F.CX_HLAST0_SUB (h : Nat) : Fld := ⟨(R.CX_HLAST0 h), 0, 32⟩
abbrev F.CX_HLAST1_CLIP (h : Nat) : Fld := ⟨(R.CX_HLAST1 h), 0, 32⟩
abbrev F.CX_HLAST2_UNREC (h : Nat) : Fld := ⟨(R.CX_HLAST2 h), 0, 16⟩
abbrev F.CX_HLAST2_SAT (h : Nat) : Fld := ⟨(R.CX_HLAST2 h), 16, 16⟩
abbrev F.CX_HCNT_UNRECF (h : Nat) : Fld := ⟨(R.CX_HCNT h), 0, 16⟩
abbrev F.CX_HCNT_OVERSUBF (h : Nat) : Fld := ⟨(R.CX_HCNT h), 16, 16⟩
abbrev F.CX_SCFG_EN (h : Nat) : Fld := ⟨(R.CX_SCFG h), 0, 1⟩
abbrev F.CX_SCFG_DRMON_EN (h : Nat) : Fld := ⟨(R.CX_SCFG h), 1, 1⟩
abbrev F.CX_SCFG_QUIET_REQ (h : Nat) : Fld := ⟨(R.CX_SCFG h), 2, 1⟩
abbrev F.CX_SCFG_DLACT (h : Nat) : Fld := ⟨(R.CX_SCFG h), 3, 1⟩
abbrev F.CX_SCFG_DLSEC (h : Nat) : Fld := ⟨(R.CX_SCFG h), 8, 8⟩
abbrev F.CX_SCFG_NINT (h : Nat) : Fld := ⟨(R.CX_SCFG h), 28, 4⟩
abbrev F.CX_SCMD_SHREQ (h : Nat) : Fld := ⟨(R.CX_SCMD h), 0, 1⟩
abbrev F.CX_SCMD_CANCEL (h : Nat) : Fld := ⟨(R.CX_SCMD h), 1, 1⟩
abbrev F.CX_SCMD_REFIT (h : Nat) : Fld := ⟨(R.CX_SCMD h), 3, 1⟩
abbrev F.CX_SCMD_BRESET (h : Nat) : Fld := ⟨(R.CX_SCMD h), 4, 1⟩
abbrev F.CX_SSTAT_AGREE (h : Nat) : Fld := ⟨(R.CX_SSTAT h), 0, 8⟩
abbrev F.CX_SSTAT_FAILPM (h : Nat) : Fld := ⟨(R.CX_SSTAT h), 8, 8⟩
abbrev F.CX_SSTAT_SRC (h : Nat) : Fld := ⟨(R.CX_SSTAT h), 17, 2⟩
abbrev F.CX_SSTAT_RETRY (h : Nat) : Fld := ⟨(R.CX_SSTAT h), 19, 2⟩
abbrev F.CX_SSTAT_PHASE (h : Nat) : Fld := ⟨(R.CX_SSTAT h), 21, 3⟩
abbrev F.CX_SSTAT_DFRES (h : Nat) : Fld := ⟨(R.CX_SSTAT h), 24, 4⟩
abbrev F.CX_SSTAT_RESULT (h : Nat) : Fld := ⟨(R.CX_SSTAT h), 28, 4⟩
abbrev F.CX_SLIM_DLIM (h : Nat) : Fld := ⟨(R.CX_SLIM h), 0, 16⟩
abbrev F.CX_SLIM_TOL (h : Nat) : Fld := ⟨(R.CX_SLIM h), 16, 8⟩
abbrev F.CX_SLIM_FAILPM (h : Nat) : Fld := ⟨(R.CX_SLIM h), 24, 8⟩
abbrev F.CX_SSCHED_BTHR (h : Nat) : Fld := ⟨(R.CX_SSCHED h), 0, 8⟩
abbrev F.CX_SSCHED_DTHR (h : Nat) : Fld := ⟨(R.CX_SSCHED h), 8, 8⟩
abbrev F.CX_SSCHED_PERIOD (h : Nat) : Fld := ⟨(R.CX_SSCHED h), 16, 16⟩
abbrev F.CX_SQLEN_QLEN (h : Nat) : Fld := ⟨(R.CX_SQLEN h), 0, 32⟩
abbrev F.CX_SQST_LO_QST (h : Nat) : Fld := ⟨(R.CX_SQST_LO h), 0, 32⟩
abbrev F.CX_SQST_HI_QST (h : Nat) : Fld := ⟨(R.CX_SQST_HI h), 0, 32⟩
abbrev F.CX_SOK_COUNT (h : Nat) : Fld := ⟨(R.CX_SOK h), 0, 32⟩
abbrev F.CX_SFAIL_COUNT (h : Nat) : Fld := ⟨(R.CX_SFAIL h), 0, 32⟩
abbrev F.CX_SLDT_LO_DT (h : Nat) : Fld := ⟨(R.CX_SLDT_LO h), 0, 32⟩
abbrev F.CX_SLDT_HI_DT (h : Nat) : Fld := ⟨(R.CX_SLDT_HI h), 0, 32⟩
abbrev F.CX_SLTAI_TAI (h : Nat) : Fld := ⟨(R.CX_SLTAI h), 0, 32⟩
abbrev F.CX_RCFG_BTRK_EN (h : Nat) : Fld := ⟨(R.CX_RCFG h), 1, 1⟩
abbrev F.CX_RCFG_EST_EN (h : Nat) : Fld := ⟨(R.CX_RCFG h), 2, 1⟩
abbrev F.CX_RCFG_FREEZE (h : Nat) : Fld := ⟨(R.CX_RCFG h), 3, 1⟩
abbrev F.CX_RCFG_EGATE (h : Nat) : Fld := ⟨(R.CX_RCFG h), 8, 8⟩
abbrev F.CX_RCFG_STEP (h : Nat) : Fld := ⟨(R.CX_RCFG h), 16, 4⟩
abbrev F.CX_RCFG_ALPHA (h : Nat) : Fld := ⟨(R.CX_RCFG h), 20, 4⟩
abbrev F.CX_RCFG_U (h : Nat) : Fld := ⟨(R.CX_RCFG h), 24, 8⟩
abbrev F.CX_RSTAT_RES_OFF (h : Nat) : Fld := ⟨(R.CX_RSTAT h), 0, 1⟩
abbrev F.CX_RSTAT_NOBLIND (h : Nat) : Fld := ⟨(R.CX_RSTAT h), 1, 1⟩
abbrev F.CX_RSTAT_RESSAT (h : Nat) : Fld := ⟨(R.CX_RSTAT h), 8, 8⟩
abbrev F.CX_RSTAT_BETA (h : Nat) : Fld := ⟨(R.CX_RSTAT h), 16, 16⟩
abbrev F.CX_BREF_BREF (h : Nat) : Fld := ⟨(R.CX_BREF h), 0, 16⟩
abbrev F.CX_BREF_LTFPA (h : Nat) : Fld := ⟨(R.CX_BREF h), 16, 16⟩
abbrev F.CX_DFCFG_MINSPAN (h : Nat) : Fld := ⟨(R.CX_DFCFG h), 0, 8⟩
abbrev F.CX_DFCFG_RMSLIM (h : Nat) : Fld := ⟨(R.CX_DFCFG h), 8, 8⟩
abbrev F.CX_DFCFG_AUTO (h : Nat) : Fld := ⟨(R.CX_DFCFG h), 16, 7⟩
abbrev F.CX_DFCFG_K_EN (h : Nat) : Fld := ⟨(R.CX_DFCFG h), 23, 1⟩
abbrev F.CX_DFCFG_ORDER (h : Nat) : Fld := ⟨(R.CX_DFCFG h), 24, 3⟩
abbrev F.CX_DFCFG_DEPTH (h : Nat) : Fld := ⟨(R.CX_DFCFG h), 27, 5⟩
abbrev F.CX_DFSTAT_SPAN (h : Nat) : Fld := ⟨(R.CX_DFSTAT h), 0, 16⟩
abbrev F.CX_DFSTAT_PLANES (h : Nat) : Fld := ⟨(R.CX_DFSTAT h), 27, 5⟩
abbrev F.CX_DHIST_BASE (h : Nat) : Fld := ⟨(R.CX_DHIST h), 0, 23⟩
abbrev F.CX_SWORK_BASE (h : Nat) : Fld := ⟨(R.CX_SWORK h), 0, 23⟩
abbrev F.FP_CTRL_CLRCNT (i : Nat) : Fld := ⟨(R.FP_CTRL i), 0, 1⟩
abbrev F.FP_CTRL_QMUX (i : Nat) : Fld := ⟨(R.FP_CTRL i), 1, 1⟩
abbrev F.FP_STAT_SWITCH (i : Nat) : Fld := ⟨(R.FP_STAT i), 0, 16⟩
abbrev F.FP_STAT_CUR (i : Nat) : Fld := ⟨(R.FP_STAT i), 20, 4⟩
abbrev F.FP_STAT_HEADS (i : Nat) : Fld := ⟨(R.FP_STAT i), 24, 8⟩
abbrev F.FP_HASSIGN_PIPE (h : Nat) : Fld := ⟨(R.FP_HASSIGN h), 0, 2⟩
abbrev F.FP_HASSIGN_INLINE (h : Nat) : Fld := ⟨(R.FP_HASSIGN h), 2, 1⟩
abbrev F.FP_HOUT_DISP (h : Nat) : Fld := ⟨(R.FP_HOUT h), 0, 3⟩
abbrev F.FP_HOUT_COD (h : Nat) : Fld := ⟨(R.FP_HOUT h), 4, 2⟩
abbrev F.FP_HOUT_MV (h : Nat) : Fld := ⟨(R.FP_HOUT h), 8, 2⟩
abbrev F.FP_HOUT_DECD (h : Nat) : Fld := ⟨(R.FP_HOUT h), 12, 4⟩
abbrev F.FP_HOUT_DECC (h : Nat) : Fld := ⟨(R.FP_HOUT h), 16, 4⟩
abbrev F.FP_HOUT_DECM (h : Nat) : Fld := ⟨(R.FP_HOUT h), 20, 4⟩
abbrev F.FP_HTONE_MODE (h : Nat) : Fld := ⟨(R.FP_HTONE h), 0, 2⟩
abbrev F.FP_HTONE_SRC (h : Nat) : Fld := ⟨(R.FP_HTONE h), 2, 1⟩
abbrev F.FP_HTONE_CBANK (h : Nat) : Fld := ⟨(R.FP_HTONE h), 3, 1⟩
abbrev F.FP_HTONE_TSH (h : Nat) : Fld := ⟨(R.FP_HTONE h), 8, 5⟩
abbrev F.FP_HTONE_PLAT (h : Nat) : Fld := ⟨(R.FP_HTONE h), 18, 14⟩
abbrev F.FP_HTAUTO_PLO (h : Nat) : Fld := ⟨(R.FP_HTAUTO h), 0, 10⟩
abbrev F.FP_HTAUTO_PHI (h : Nat) : Fld := ⟨(R.FP_HTAUTO h), 16, 10⟩
abbrev F.FP_HTLO_TLO (h : Nat) : Fld := ⟨(R.FP_HTLO h), 0, 32⟩
abbrev F.FP_HPIPE_PAL_EN (h : Nat) : Fld := ⟨(R.FP_HPIPE h), 0, 1⟩
abbrev F.FP_HPIPE_CM_EN (h : Nat) : Fld := ⟨(R.FP_HPIPE h), 1, 1⟩
abbrev F.FP_HPIPE_SC_EN (h : Nat) : Fld := ⟨(R.FP_HPIPE h), 2, 1⟩
abbrev F.FP_HPIPE_PBANK (h : Nat) : Fld := ⟨(R.FP_HPIPE h), 4, 1⟩
abbrev F.FP_HPIPE_SBANK (h : Nat) : Fld := ⟨(R.FP_HPIPE h), 5, 1⟩
abbrev F.FP_HCM0_m00 (h : Nat) : Fld := ⟨(R.FP_HCM0 h), 0, 15⟩
abbrev F.FP_HCM0_m01 (h : Nat) : Fld := ⟨(R.FP_HCM0 h), 16, 15⟩
abbrev F.FP_HCM1_m02 (h : Nat) : Fld := ⟨(R.FP_HCM1 h), 0, 15⟩
abbrev F.FP_HCM1_m10 (h : Nat) : Fld := ⟨(R.FP_HCM1 h), 16, 15⟩
abbrev F.FP_HCM2_m11 (h : Nat) : Fld := ⟨(R.FP_HCM2 h), 0, 15⟩
abbrev F.FP_HCM2_m12 (h : Nat) : Fld := ⟨(R.FP_HCM2 h), 16, 15⟩
abbrev F.FP_HCM3_m20 (h : Nat) : Fld := ⟨(R.FP_HCM3 h), 0, 15⟩
abbrev F.FP_HCM3_m21 (h : Nat) : Fld := ⟨(R.FP_HCM3 h), 16, 15⟩
abbrev F.FP_HCM4_m22 (h : Nat) : Fld := ⟨(R.FP_HCM4 h), 0, 15⟩
abbrev F.FP_HGAIN_GB (h : Nat) : Fld := ⟨(R.FP_HGAIN h), 0, 10⟩
abbrev F.FP_HGAIN_GG (h : Nat) : Fld := ⟨(R.FP_HGAIN h), 10, 10⟩
abbrev F.FP_HGAIN_GR (h : Nat) : Fld := ⟨(R.FP_HGAIN h), 20, 10⟩
abbrev F.FP_HOSIZE_OW (h : Nat) : Fld := ⟨(R.FP_HOSIZE h), 0, 16⟩
abbrev F.FP_HOSIZE_OH (h : Nat) : Fld := ⟨(R.FP_HOSIZE h), 16, 16⟩
abbrev F.FP_HDBD_BASE (h : Nat) : Fld := ⟨(R.FP_HDBD h), 0, 23⟩
abbrev F.FP_HDBD_NBUF (h : Nat) : Fld := ⟨(R.FP_HDBD h), 28, 4⟩
abbrev F.FP_HDBC_BASE (h : Nat) : Fld := ⟨(R.FP_HDBC h), 0, 23⟩
abbrev F.FP_HDBC_NBUF (h : Nat) : Fld := ⟨(R.FP_HDBC h), 28, 4⟩
abbrev F.FP_HDBM_BASE (h : Nat) : Fld := ⟨(R.FP_HDBM h), 0, 23⟩
abbrev F.FP_HDBM_NBUF (h : Nat) : Fld := ⟨(R.FP_HDBM h), 28, 4⟩
abbrev F.FP_HTM_BASE (h : Nat) : Fld := ⟨(R.FP_HTM h), 0, 23⟩
abbrev F.FP_HSTAT_DIRECT_REFUSED (h : Nat) : Fld := ⟨(R.FP_HSTAT h), 0, 1⟩
abbrev F.FP_HSTAT_VALUE_REJ (h : Nat) : Fld := ⟨(R.FP_HSTAT h), 1, 1⟩
abbrev F.FP_HSTAT_PROT_WR (h : Nat) : Fld := ⟨(R.FP_HSTAT h), 2, 1⟩
abbrev F.FP_HSTAT_TMSKIPPING (h : Nat) : Fld := ⟨(R.FP_HSTAT h), 3, 1⟩
abbrev F.FP_HCNT_TMSKIP (h : Nat) : Fld := ⟨(R.FP_HCNT h), 0, 16⟩
abbrev F.FP_HCNT_DBDROP (h : Nat) : Fld := ⟨(R.FP_HCNT h), 16, 16⟩
abbrev F.FP_HLAST_D (h : Nat) : Fld := ⟨(R.FP_HLAST h), 0, 4⟩
abbrev F.FP_HLAST_C (h : Nat) : Fld := ⟨(R.FP_HLAST h), 4, 4⟩
abbrev F.FP_HLAST_M (h : Nat) : Fld := ⟨(R.FP_HLAST h), 8, 4⟩
abbrev F.FP_RCFG_EN (h : Nat) : Fld := ⟨(R.FP_RCFG h), 0, 1⟩
abbrev F.FP_RCFG_ZONE_EN (h : Nat) : Fld := ⟨(R.FP_RCFG h), 1, 1⟩
abbrev F.FP_RCFG_MIRA (h : Nat) : Fld := ⟨(R.FP_RCFG h), 2, 1⟩
abbrev F.FP_RCFG_MIRB (h : Nat) : Fld := ⟨(R.FP_RCFG h), 3, 1⟩
abbrev F.FP_RCFG_CLIPMARK (h : Nat) : Fld := ⟨(R.FP_RCFG h), 4, 1⟩
abbrev F.FP_RCMD_SWAP (h : Nat) : Fld := ⟨(R.FP_RCMD h), 0, 1⟩
abbrev F.FP_RCMD_MSYNC (h : Nat) : Fld := ⟨(R.FP_RCMD h), 1, 1⟩
abbrev F.FP_RSTAT_SEL (h : Nat) : Fld := ⟨(R.FP_RSTAT h), 0, 1⟩
abbrev F.FP_RSTAT_DIRECT_REFUSED (h : Nat) : Fld := ⟨(R.FP_RSTAT h), 2, 1⟩
abbrev F.FP_RSTAT_VALUE_REJ (h : Nat) : Fld := ⟨(R.FP_RSTAT h), 3, 1⟩
abbrev F.FP_RSTAT_PROT_WR (h : Nat) : Fld := ⟨(R.FP_RSTAT h), 4, 1⟩
abbrev F.FP_RSTAT_NOTEMP (h : Nat) : Fld := ⟨(R.FP_RSTAT h), 5, 1⟩
abbrev F.FP_RSTAT_ZCLAMP (h : Nat) : Fld := ⟨(R.FP_RSTAT h), 6, 1⟩
abbrev F.FP_RSTAT_RDERR (h : Nat) : Fld := ⟨(R.FP_RSTAT h), 7, 1⟩
abbrev F.FP_RSTAT_MIRSYNC_A (h : Nat) : Fld := ⟨(R.FP_RSTAT h), 26, 1⟩
abbrev F.FP_RSTAT_MIRSYNC_B (h : Nat) : Fld := ⟨(R.FP_RSTAT h), 27, 1⟩
abbrev F.FP_RSTAT_SWAPRES (h : Nat) : Fld := ⟨(R.FP_RSTAT h), 28, 4⟩
abbrev F.FP_RID_SETID (h : Nat) : Fld := ⟨(R.FP_RID h), 0, 32⟩
abbrev F.FP_RSA_BASE (h : Nat) : Fld := ⟨(R.FP_RSA h), 0, 23⟩
abbrev F.FP_RSB_BASE (h : Nat) : Fld := ⟨(R.FP_RSB h), 0, 23⟩
abbrev F.FP_RMA_BASE (h : Nat) : Fld := ⟨(R.FP_RMA h), 0, 23⟩
abbrev F.FP_RMB_BASE (h : Nat) : Fld := ⟨(R.FP_RMB h), 0, 23⟩
abbrev F.FP_RLAST_LO (h : Nat) : Fld := ⟨(R.FP_RLAST h), 0, 16⟩
abbrev F.FP_RLAST_HI (h : Nat) : Fld := ⟨(R.FP_RLAST h), 16, 16⟩
abbrev F.FP_CURVE0_E0 (h k : Nat) : Fld := ⟨(R.FP_CURVE0 h k), 0, 12⟩
abbrev F.FP_CURVE0_E1 (h k : Nat) : Fld := ⟨(R.FP_CURVE0 h k), 16, 12⟩
abbrev F.FP_CURVE1_E0 (h k : Nat) : Fld := ⟨(R.FP_CURVE1 h k), 0, 12⟩
abbrev F.FP_CURVE1_E1 (h k : Nat) : Fld := ⟨(R.FP_CURVE1 h k), 16, 12⟩
abbrev F.FP_PAL0_RGB (h k : Nat) : Fld := ⟨(R.FP_PAL0 h k), 0, 30⟩
abbrev F.FP_PAL1_RGB (h k : Nat) : Fld := ⟨(R.FP_PAL1 h k), 0, 30⟩
abbrev F.FP_COEF0_C (h k : Nat) : Fld := ⟨(R.FP_COEF0 h k), 0, 12⟩
abbrev F.FP_COEF1_C (h k : Nat) : Fld := ⟨(R.FP_COEF1 h k), 0, 12⟩
abbrev F.ST_CTRL_CLRCNT : Fld := ⟨R.ST_CTRL, 0, 1⟩
abbrev F.ST_HCFG_REC_EN (i : Nat) : Fld := ⟨(R.ST_HCFG i), 0, 1⟩
abbrev F.ST_HCFG_HSH (i : Nat) : Fld := ⟨(R.ST_HCFG i), 8, 5⟩
abbrev F.ST_HCFG_ZCM (i : Nat) : Fld := ⟨(R.ST_HCFG i), 16, 5⟩
abbrev F.ST_HCFG_ZRM (i : Nat) : Fld := ⟨(R.ST_HCFG i), 24, 5⟩
abbrev F.ST_HHLO_HLO (i : Nat) : Fld := ⟨(R.ST_HHLO i), 0, 32⟩
abbrev F.ST_HSBUF_BASE (i : Nat) : Fld := ⟨(R.ST_HSBUF i), 0, 23⟩
abbrev F.ST_HSBUF_NSB (i : Nat) : Fld := ⟨(R.ST_HSBUF i), 28, 4⟩
abbrev F.ST_HALARM_RING (i : Nat) : Fld := ⟨(R.ST_HALARM i), 0, 16⟩
abbrev F.ST_HALARM_EN (i : Nat) : Fld := ⟨(R.ST_HALARM i), 31, 1⟩
abbrev F.ST_HSTAT_DIRECT_REFUSED (i : Nat) : Fld := ⟨(R.ST_HSTAT i), 0, 1⟩
abbrev F.ST_HSTAT_VALUE_REJ (i : Nat) : Fld := ⟨(R.ST_HSTAT i), 1, 1⟩
abbrev F.ST_HSTAT_PROT_WR (i : Nat) : Fld := ⟨(R.ST_HSTAT i), 2, 1⟩
abbrev F.ST_HSTAT_RULEBAD (i : Nat) : Fld := ⟨(R.ST_HSTAT i), 3, 1⟩
abbrev F.ST_HCNT_STDROP (i : Nat) : Fld := ⟨(R.ST_HCNT i), 0, 16⟩
abbrev F.ST_HCNT_RAISES (i : Nat) : Fld := ⟨(R.ST_HCNT i), 16, 16⟩
abbrev F.ST_HLAST_BUF (i : Nat) : Fld := ⟨(R.ST_HLAST i), 0, 4⟩
abbrev F.ST_HACT_RAISED (i j : Nat) : Fld := ⟨(R.ST_HACT i j), 0, 32⟩
abbrev F.ST_RULE_W (i j : Nat) : Fld := ⟨(R.ST_RULE i j), 0, 32⟩
abbrev F.TX_CFG_EN (i : Nat) : Fld := ⟨(R.TX_CFG i), 0, 1⟩
abbrev F.TX_CFG_LANES (i : Nat) : Fld := ⟨(R.TX_CFG i), 1, 2⟩
abbrev F.TX_CFG_CONTCLK (i : Nat) : Fld := ⟨(R.TX_CFG i), 3, 1⟩
abbrev F.TX_CFG_LSE (i : Nat) : Fld := ⟨(R.TX_CFG i), 4, 1⟩
abbrev F.TX_CFG_CLRCNT (i : Nat) : Fld := ⟨(R.TX_CFG i), 5, 1⟩
abbrev F.TX_RATE_RATE (i : Nat) : Fld := ⟨(R.TX_RATE i), 0, 13⟩
abbrev F.TX_GAP_GAP (i : Nat) : Fld := ⟨(R.TX_GAP i), 0, 16⟩
abbrev F.TX_STAT_LOAD (i : Nat) : Fld := ⟨(R.TX_STAT i), 0, 16⟩
abbrev F.TX_STAT_DIRECT_REFUSED (i : Nat) : Fld := ⟨(R.TX_STAT i), 16, 1⟩
abbrev F.TX_STAT_VALUE_REJ (i : Nat) : Fld := ⟨(R.TX_STAT i), 17, 1⟩
abbrev F.TX_STAT_CFGRES (i : Nat) : Fld := ⟨(R.TX_STAT i), 28, 3⟩
abbrev F.TX_STAT_ACTIVE (i : Nat) : Fld := ⟨(R.TX_STAT i), 31, 1⟩
abbrev F.TX_CNT0_SENT (i : Nat) : Fld := ⟨(R.TX_CNT0 i), 0, 32⟩
abbrev F.TX_CNT1_UNDERRUN (i : Nat) : Fld := ⟨(R.TX_CNT1 i), 0, 16⟩
abbrev F.TX_CNT1_SKIP (i : Nat) : Fld := ⟨(R.TX_CNT1 i), 16, 16⟩
abbrev F.TX_S_EN (i j : Nat) : Fld := ⟨(R.TX_S i j), 0, 1⟩
abbrev F.TX_S_HEAD (i j : Nat) : Fld := ⟨(R.TX_S i j), 1, 3⟩
abbrev F.TX_S_KIND (i j : Nat) : Fld := ⟨(R.TX_S i j), 4, 2⟩
abbrev F.TX_S_VC (i j : Nat) : Fld := ⟨(R.TX_S i j), 8, 4⟩
abbrev F.TX_S_DECIM (i j : Nat) : Fld := ⟨(R.TX_S i j), 12, 4⟩
abbrev F.Q_CFG_RO_EN : Fld := ⟨R.Q_CFG, 0, 1⟩
abbrev F.Q_STAT_DBDROP : Fld := ⟨R.Q_STAT, 0, 16⟩
abbrev F.Q_STAT_PROT_WR : Fld := ⟨R.Q_STAT, 18, 1⟩
abbrev F.Q_STAT_WIDTH : Fld := ⟨R.Q_STAT, 19, 5⟩
abbrev F.Q_STAT_SPEED : Fld := ⟨R.Q_STAT, 24, 4⟩
abbrev F.Q_STAT_VALUE_REJ : Fld := ⟨R.Q_STAT, 28, 1⟩
abbrev F.Q_STAT_DIRECT_REFUSED : Fld := ⟨R.Q_STAT, 29, 1⟩
abbrev F.Q_STAT_BME : Fld := ⟨R.Q_STAT, 30, 1⟩
abbrev F.Q_STAT_LINKUP : Fld := ⟨R.Q_STAT, 31, 1⟩
abbrev F.Q_CTXBASE_BASE : Fld := ⟨R.Q_CTXBASE, 0, 23⟩
abbrev F.Q_B4WIN_WIN : Fld := ⟨R.Q_B4WIN, 0, 5⟩
abbrev F.Q_FEVT_RING : Fld := ⟨R.Q_FEVT, 0, 16⟩
abbrev F.Q_FEVT_EN : Fld := ⟨R.Q_FEVT, 31, 1⟩
abbrev F.Q_RPBASE_BASE : Fld := ⟨R.Q_RPBASE, 0, 23⟩
abbrev F.Q_C0STAT_NC0 : Fld := ⟨R.Q_C0STAT, 0, 17⟩
abbrev F.Q_C0STAT_REASON : Fld := ⟨R.Q_C0STAT, 26, 5⟩
abbrev F.Q_C0STAT_BOUND : Fld := ⟨R.Q_C0STAT, 31, 1⟩
abbrev F.Q_LINKCNT_RETRAIN : Fld := ⟨R.Q_LINKCNT, 0, 16⟩
abbrev F.Q_LINKCNT_DOWN : Fld := ⟨R.Q_LINKCNT, 16, 16⟩
abbrev F.Q_CTXSEL_RING : Fld := ⟨R.Q_CTXSEL, 0, 16⟩
abbrev F.Q_CTXCMD_READ : Fld := ⟨R.Q_CTXCMD, 0, 1⟩
abbrev F.Q_CTXCMD_WRITE : Fld := ⟨R.Q_CTXCMD, 1, 1⟩
abbrev F.Q_CTXSTAT_RES : Fld := ⟨R.Q_CTXSTAT, 0, 3⟩
abbrev F.Q_CTXSTAT_BUSY : Fld := ⟨R.Q_CTXSTAT, 31, 1⟩
abbrev F.Q_CTXD_W (i : Nat) : Fld := ⟨(R.Q_CTXD i), 0, 32⟩
abbrev F.Q_FRANGE_COUNT (i : Nat) : Fld := ⟨(R.Q_FRANGE i), 0, 13⟩
abbrev F.Q_FRANGE_BASE (i : Nat) : Fld := ⟨(R.Q_FRANGE i), 16, 12⟩
abbrev F.Q_FPERM_OPS (i : Nat) : Fld := ⟨(R.Q_FPERM i), 0, 7⟩
abbrev F.Q_MSIXTAB_W (i j : Nat) : Fld := ⟨(R.Q_MSIXTAB i j), 0, 32⟩
abbrev F.Q_MSIXPBA_W (i : Nat) : Fld := ⟨(R.Q_MSIXPBA i), 0, 32⟩
abbrev F.DMA_CMD_RESTART : Fld := ⟨R.DMA_CMD, 0, 1⟩
abbrev F.DMA_CMD_CLRCNT : Fld := ⟨R.DMA_CMD, 1, 1⟩
abbrev F.DMA_STAT_CH : Fld := ⟨R.DMA_STAT, 16, 6⟩
abbrev F.DMA_STAT_RINGSVC : Fld := ⟨R.DMA_STAT, 22, 1⟩
abbrev F.DMA_STAT_CMDREJ : Fld := ⟨R.DMA_STAT, 26, 1⟩
abbrev F.DMA_STAT_CAUSE : Fld := ⟨R.DMA_STAT, 27, 3⟩
abbrev F.DMA_STAT_SETTLED : Fld := ⟨R.DMA_STAT, 30, 1⟩
abbrev F.DMA_STAT_HALT : Fld := ⟨R.DMA_STAT, 31, 1⟩
abbrev F.DMA_HALTINFO_STATUS : Fld := ⟨R.DMA_HALTINFO, 0, 32⟩
abbrev F.DMA_CNT_AUTORST : Fld := ⟨R.DMA_CNT, 0, 16⟩
abbrev F.DMA_CNT_HALTS : Fld := ⟨R.DMA_CNT, 16, 16⟩
abbrev F.DMA_HALTADDR_LO_ADDR : Fld := ⟨R.DMA_HALTADDR_LO, 0, 32⟩
abbrev F.DMA_HALTADDR_HI_ADDR : Fld := ⟨R.DMA_HALTADDR_HI, 0, 32⟩
abbrev F.DMA_CH_CFG_EN (i : Nat) : Fld := ⟨(R.DMA_CH_CFG i), 0, 1⟩
abbrev F.DMA_CH_CFG_SWPACE (i : Nat) : Fld := ⟨(R.DMA_CH_CFG i), 2, 1⟩
abbrev F.DMA_CH_CFG_DEVMEM (i : Nat) : Fld := ⟨(R.DMA_CH_CFG i), 3, 1⟩
abbrev F.DMA_CH_CFG_SRC (i : Nat) : Fld := ⟨(R.DMA_CH_CFG i), 4, 1⟩
abbrev F.DMA_CH_CFG_LOG2N (i : Nat) : Fld := ⟨(R.DMA_CH_CFG i), 8, 5⟩
abbrev F.DMA_CH_CFG_RATE (i : Nat) : Fld := ⟨(R.DMA_CH_CFG i), 16, 8⟩
abbrev F.DMA_CH_CFG_FUNC (i : Nat) : Fld := ⟨(R.DMA_CH_CFG i), 27, 5⟩
abbrev F.DMA_CH_CMD_STOP (i : Nat) : Fld := ⟨(R.DMA_CH_CMD i), 0, 1⟩
abbrev F.DMA_CH_CMD_RESUME (i : Nat) : Fld := ⟨(R.DMA_CH_CMD i), 1, 1⟩
abbrev F.DMA_CH_CMD_START (i : Nat) : Fld := ⟨(R.DMA_CH_CMD i), 2, 1⟩
abbrev F.DMA_CH_STAT_CIDX (i : Nat) : Fld := ⟨(R.DMA_CH_STAT i), 0, 16⟩
abbrev F.DMA_CH_STAT_RUNDONE (i : Nat) : Fld := ⟨(R.DMA_CH_STAT i), 23, 1⟩
abbrev F.DMA_CH_STAT_ERR (i : Nat) : Fld := ⟨(R.DMA_CH_STAT i), 24, 3⟩
abbrev F.DMA_CH_STAT_STATE (i : Nat) : Fld := ⟨(R.DMA_CH_STAT i), 27, 3⟩
abbrev F.DMA_CH_STAT_VALUE_REJ (i : Nat) : Fld := ⟨(R.DMA_CH_STAT i), 30, 1⟩
abbrev F.DMA_CH_STAT_OVW (i : Nat) : Fld := ⟨(R.DMA_CH_STAT i), 31, 1⟩
abbrev F.DMA_CH_TAIL_TAIL (i : Nat) : Fld := ⟨(R.DMA_CH_TAIL i), 0, 16⟩
abbrev F.DMA_CH_BASE_LO_BASE (i : Nat) : Fld := ⟨(R.DMA_CH_BASE_LO i), 12, 20⟩
abbrev F.DMA_CH_BASE_HI_BASE (i : Nat) : Fld := ⟨(R.DMA_CH_BASE_HI i), 0, 32⟩
abbrev F.DMA_CH_DONE_COUNT (i : Nat) : Fld := ⟨(R.DMA_CH_DONE i), 0, 32⟩
abbrev F.DMA_CH_VEC_VEC (i : Nat) : Fld := ⟨(R.DMA_CH_VEC i), 0, 11⟩
abbrev F.DMA_CH_BYTES_LO_BYTES (i : Nat) : Fld := ⟨(R.DMA_CH_BYTES_LO i), 0, 32⟩
abbrev F.DMA_CH_BYTES_HI_BYTES (i : Nat) : Fld := ⟨(R.DMA_CH_BYTES_HI i), 0, 32⟩
abbrev F.EN_BSTAT_STATE (i : Nat) : Fld := ⟨(R.EN_BSTAT i), 0, 14⟩
abbrev F.EN_BSTAT_BANK (i : Nat) : Fld := ⟨(R.EN_BSTAT i), 23, 1⟩
abbrev F.EN_BSTAT_NOSPARE (i : Nat) : Fld := ⟨(R.EN_BSTAT i), 24, 1⟩
abbrev F.EN_BSTAT_UTFAIL (i : Nat) : Fld := ⟨(R.EN_BSTAT i), 25, 7⟩
abbrev F.EN_BCMD_UNRETIRE (i : Nat) : Fld := ⟨(R.EN_BCMD i), 0, 7⟩
abbrev F.EN_BCMD_CLRCNT (i : Nat) : Fld := ⟨(R.EN_BCMD i), 7, 1⟩
abbrev F.EN_BCNT_ROTATE (i : Nat) : Fld := ⟨(R.EN_BCNT i), 0, 16⟩
abbrev F.EN_BCNT_RETIRED (i : Nat) : Fld := ⟨(R.EN_BCNT i), 16, 16⟩
abbrev F.EN_SHCFG_EN (i : Nat) : Fld := ⟨(R.EN_SHCFG i), 0, 1⟩
abbrev F.EN_SHCFG_COUNT (i : Nat) : Fld := ⟨(R.EN_SHCFG i), 1, 15⟩
abbrev F.EN_SHSTAT_MISMATCH (i : Nat) : Fld := ⟨(R.EN_SHSTAT i), 0, 16⟩
abbrev F.EN_SHSTAT_NOMAJ (i : Nat) : Fld := ⟨(R.EN_SHSTAT i), 16, 11⟩
abbrev F.EN_SHSTAT_TARGET (i : Nat) : Fld := ⟨(R.EN_SHSTAT i), 27, 4⟩
abbrev F.EN_SHSTAT_STOPPED (i : Nat) : Fld := ⟨(R.EN_SHSTAT i), 31, 1⟩
abbrev F.EN_MCMD_BLKMASK : Fld := ⟨R.EN_MCMD, 0, 16⟩
abbrev F.EN_MCMD_LOAD : Fld := ⟨R.EN_MCMD, 16, 1⟩
abbrev F.EN_MCMD_INSTALL : Fld := ⟨R.EN_MCMD, 17, 1⟩
abbrev F.EN_MCMD_SETMIN : Fld := ⟨R.EN_MCMD, 18, 1⟩
abbrev F.EN_MCSTAT_DONE : Fld := ⟨R.EN_MCSTAT, 0, 16⟩
abbrev F.EN_MCSTAT_FACTORY : Fld := ⟨R.EN_MCSTAT, 27, 1⟩
abbrev F.EN_MCSTAT_RESULT : Fld := ⟨R.EN_MCSTAT, 28, 4⟩
abbrev F.EN_MCBASE_BASE : Fld := ⟨R.EN_MCBASE, 0, 23⟩
abbrev F.EN_MCVER_IMGVER : Fld := ⟨R.EN_MCVER, 0, 32⟩
abbrev F.EN_MCMIN_SVN : Fld := ⟨R.EN_MCMIN, 0, 32⟩
abbrev F.EN_RCMD_SLOT : Fld := ⟨R.EN_RCMD, 0, 3⟩
abbrev F.EN_RCMD_LOAD : Fld := ⟨R.EN_RCMD, 4, 1⟩
abbrev F.EN_RSTAT_RESULT : Fld := ⟨R.EN_RSTAT, 0, 3⟩
abbrev F.EN_RSTAT_DIRECT_REFUSED : Fld := ⟨R.EN_RSTAT, 4, 1⟩
abbrev F.EN_RSTAT_LOADED : Fld := ⟨R.EN_RSTAT, 24, 8⟩
abbrev F.EN_RBASE_BASE : Fld := ⟨R.EN_RBASE, 0, 23⟩
abbrev F.EN_HRCP_POINTS (i : Nat) : Fld := ⟨(R.EN_HRCP i), 0, 16⟩
abbrev F.DR_CSTAT_MIB (i : Nat) : Fld := ⟨(R.DR_CSTAT i), 0, 16⟩
abbrev F.DR_CSTAT_TRIES (i : Nat) : Fld := ⟨(R.DR_CSTAT i), 26, 2⟩
abbrev F.DR_CSTAT_OVW (i : Nat) : Fld := ⟨(R.DR_CSTAT i), 28, 1⟩
abbrev F.DR_CSTAT_LOST (i : Nat) : Fld := ⟨(R.DR_CSTAT i), 29, 1⟩
abbrev F.DR_CSTAT_SREF (i : Nat) : Fld := ⟨(R.DR_CSTAT i), 30, 1⟩
abbrev F.DR_CSTAT_TRAINED (i : Nat) : Fld := ⟨(R.DR_CSTAT i), 31, 1⟩
abbrev F.DR_ECC_CE (i : Nat) : Fld := ⟨(R.DR_ECC i), 0, 16⟩
abbrev F.DR_ECC_UE (i : Nat) : Fld := ⟨(R.DR_ECC i), 16, 16⟩
abbrev F.DR_ERRADDR_LO_ADDR (i : Nat) : Fld := ⟨(R.DR_ERRADDR_LO i), 0, 32⟩
abbrev F.DR_ERRADDR_HI_ADDR (i : Nat) : Fld := ⟨(R.DR_ERRADDR_HI i), 0, 32⟩
abbrev F.DR_CTRL_CLRCNT : Fld := ⟨R.DR_CTRL, 0, 1⟩
abbrev F.MON_SNAP_SNAP : Fld := ⟨R.MON_SNAP, 0, 32⟩
abbrev F.MON_CLR_CLR : Fld := ⟨R.MON_CLR, 0, 32⟩
abbrev F.MON_PER_PER : Fld := ⟨R.MON_PER, 0, 32⟩
abbrev F.MON_SNBASE_BASE : Fld := ⟨R.MON_SNBASE, 0, 23⟩
abbrev F.MON_SNIDX_COUNT : Fld := ⟨R.MON_SNIDX, 0, 32⟩
abbrev F.MON_CFG_SEL (i : Nat) : Fld := ⟨(R.MON_CFG i), 0, 16⟩
abbrev F.MON_CFG_SRC (i : Nat) : Fld := ⟨(R.MON_CFG i), 16, 8⟩
abbrev F.MON_CFG_BSH (i : Nat) : Fld := ⟨(R.MON_CFG i), 24, 5⟩
abbrev F.MON_CFG_EN (i : Nat) : Fld := ⟨(R.MON_CFG i), 31, 1⟩
abbrev F.MON_BLO_BLO (i : Nat) : Fld := ⟨(R.MON_BLO i), 0, 32⟩
abbrev F.MON_STAT_VALUE_REJ (i : Nat) : Fld := ⟨(R.MON_STAT i), 0, 1⟩
abbrev F.MON_STAT_OVW (i : Nat) : Fld := ⟨(R.MON_STAT i), 31, 1⟩
abbrev F.MON_MIN_VALUE (i : Nat) : Fld := ⟨(R.MON_MIN i), 0, 32⟩
abbrev F.MON_MAX_VALUE (i : Nat) : Fld := ⟨(R.MON_MAX i), 0, 32⟩
abbrev F.MON_UNDER_COUNT (i : Nat) : Fld := ⟨(R.MON_UNDER i), 0, 32⟩
abbrev F.MON_OVER_COUNT (i : Nat) : Fld := ⟨(R.MON_OVER i), 0, 32⟩
abbrev F.MON_CNT_LO_COUNT (i : Nat) : Fld := ⟨(R.MON_CNT_LO i), 0, 32⟩
abbrev F.MON_CNT_HI_COUNT (i : Nat) : Fld := ⟨(R.MON_CNT_HI i), 0, 32⟩
abbrev F.MON_SMIN_VALUE (i : Nat) : Fld := ⟨(R.MON_SMIN i), 0, 32⟩
abbrev F.MON_SMAX_VALUE (i : Nat) : Fld := ⟨(R.MON_SMAX i), 0, 32⟩
abbrev F.MON_SUNDER_COUNT (i : Nat) : Fld := ⟨(R.MON_SUNDER i), 0, 32⟩
abbrev F.MON_SOVER_COUNT (i : Nat) : Fld := ⟨(R.MON_SOVER i), 0, 32⟩
abbrev F.MON_SCNT_LO_COUNT (i : Nat) : Fld := ⟨(R.MON_SCNT_LO i), 0, 32⟩
abbrev F.MON_SCNT_HI_COUNT (i : Nat) : Fld := ⟨(R.MON_SCNT_HI i), 0, 32⟩
abbrev F.MON_SDT_LO_DT (i : Nat) : Fld := ⟨(R.MON_SDT_LO i), 0, 32⟩
abbrev F.MON_SDT_HI_DT (i : Nat) : Fld := ⟨(R.MON_SDT_HI i), 0, 32⟩
abbrev F.MON_HIST_W (i j : Nat) : Fld := ⟨(R.MON_HIST i j), 0, 32⟩
abbrev F.MON_SHIST_W (i j : Nat) : Fld := ⟨(R.MON_SHIST i j), 0, 32⟩
abbrev F.TXN_CMD_OPEN : Fld := ⟨R.TXN_CMD, 0, 1⟩
abbrev F.TXN_CMD_COMMIT : Fld := ⟨R.TXN_CMD, 1, 1⟩
abbrev F.TXN_CMD_ROLLBACK : Fld := ⟨R.TXN_CMD, 2, 1⟩
abbrev F.TXN_CMD_HANDLE : Fld := ⟨R.TXN_CMD, 16, 5⟩
abbrev F.TXN_OPENRES_HANDLE : Fld := ⟨R.TXN_OPENRES, 0, 5⟩
abbrev F.TXN_OPENRES_RESULT : Fld := ⟨R.TXN_OPENRES, 8, 2⟩
abbrev F.TXN_OPENRES_CMDREJ : Fld := ⟨R.TXN_OPENRES, 31, 1⟩
abbrev F.TXN_CCFG_HEADS : Fld := ⟨R.TXN_CCFG, 0, 8⟩
abbrev F.TXN_CCFG_MODE : Fld := ⟨R.TXN_CCFG, 8, 1⟩
abbrev F.TXN_CCFG_MSTREAM : Fld := ⟨R.TXN_CCFG, 10, 3⟩
abbrev F.TXN_CCFG_MSEQ : Fld := ⟨R.TXN_CCFG, 13, 5⟩
abbrev F.TXN_CCFG_EARLY : Fld := ⟨R.TXN_CCFG, 18, 1⟩
abbrev F.TXN_CCFG_DLMS : Fld := ⟨R.TXN_CCFG, 20, 12⟩
abbrev F.TXN_SHND_HANDLE : Fld := ⟨R.TXN_SHND, 0, 5⟩
abbrev F.TXN_SADDR_ADDR : Fld := ⟨R.TXN_SADDR, 0, 26⟩
abbrev F.TXN_SADDR_HEAD : Fld := ⟨R.TXN_SADDR, 26, 3⟩
abbrev F.TXN_SADDR_UNDO : Fld := ⟨R.TXN_SADDR, 29, 1⟩
abbrev F.TXN_SVAL_VALUE : Fld := ⟨R.TXN_SVAL, 0, 32⟩
abbrev F.TXN_GEN_GEN (i : Nat) : Fld := ⟨(R.TXN_GEN i), 0, 32⟩
abbrev F.TXN_HSTAT_COUNT (i : Nat) : Fld := ⟨(R.TXN_HSTAT i), 0, 13⟩
abbrev F.TXN_HSTAT_SBAD (i : Nat) : Fld := ⟨(R.TXN_HSTAT i), 14, 1⟩
abbrev F.TXN_HSTAT_SFULL (i : Nat) : Fld := ⟨(R.TXN_HSTAT i), 15, 1⟩
abbrev F.TXN_HSTAT_FAILHEAD (i : Nat) : Fld := ⟨(R.TXN_HSTAT i), 20, 3⟩
abbrev F.TXN_HSTAT_FAILV (i : Nat) : Fld := ⟨(R.TXN_HSTAT i), 23, 1⟩
abbrev F.TXN_HSTAT_RESULT (i : Nat) : Fld := ⟨(R.TXN_HSTAT i), 24, 4⟩
abbrev F.TXN_HSTAT_STATE (i : Nat) : Fld := ⟨(R.TXN_HSTAT i), 29, 3⟩
abbrev F.TXN_HINFO_REASON (i : Nat) : Fld := ⟨(R.TXN_HINFO i), 0, 8⟩
abbrev F.TXN_HINFO_ENTRY (i : Nat) : Fld := ⟨(R.TXN_HINFO i), 16, 16⟩
abbrev F.GP_DIR_W (i : Nat) : Fld := ⟨(R.GP_DIR i), 0, 32⟩
abbrev F.GP_OUT_W (i : Nat) : Fld := ⟨(R.GP_OUT i), 0, 32⟩
abbrev F.GP_SET_W (i : Nat) : Fld := ⟨(R.GP_SET i), 0, 32⟩
abbrev F.GP_CLR_W (i : Nat) : Fld := ⟨(R.GP_CLR i), 0, 32⟩
abbrev F.MC_CFG_SSCRUB_EN : Fld := ⟨R.MC_CFG, 0, 1⟩
abbrev F.MC_CFG_DSCRUB_EN : Fld := ⟨R.MC_CFG, 1, 1⟩
abbrev F.MC_CFG_QWAIT : Fld := ⟨R.MC_CFG, 16, 16⟩
abbrev F.MC_CTRL_CLRCNT : Fld := ⟨R.MC_CTRL, 0, 1⟩
abbrev F.MC_STAT_RUNNING : Fld := ⟨R.MC_STAT, 0, 11⟩
abbrev F.MC_STAT_QUEUED : Fld := ⟨R.MC_STAT, 16, 11⟩
abbrev F.MC_STAT_VALUE_REJ : Fld := ⟨R.MC_STAT, 30, 1⟩
abbrev F.MC_STAT_DIRECT_REFUSED : Fld := ⟨R.MC_STAT, 31, 1⟩
abbrev F.MC_LAST_RESOURCE : Fld := ⟨R.MC_LAST, 0, 16⟩
abbrev F.MC_LAST_BLOCKER : Fld := ⟨R.MC_LAST, 24, 4⟩
abbrev F.MC_LAST_ACT : Fld := ⟨R.MC_LAST, 28, 4⟩
abbrev F.MC_CNT_QUEUED : Fld := ⟨R.MC_CNT, 0, 16⟩
abbrev F.MC_CNT_REFUSED : Fld := ⟨R.MC_CNT, 16, 16⟩
abbrev F.MC_SCRUB_SPER : Fld := ⟨R.MC_SCRUB, 0, 16⟩
abbrev F.MC_SCRUB_DPER : Fld := ⟨R.MC_SCRUB, 16, 16⟩
abbrev F.MC_SCRUBCNT_CE : Fld := ⟨R.MC_SCRUBCNT, 0, 16⟩
abbrev F.MC_SCRUBCNT_UE : Fld := ⟨R.MC_SCRUBCNT, 16, 16⟩
abbrev F.MC_SCRUBPASS_SPASS : Fld := ⟨R.MC_SCRUBPASS, 0, 16⟩
abbrev F.MC_SCRUBPASS_DPASS : Fld := ⟨R.MC_SCRUBPASS, 16, 16⟩
abbrev F.MC_SCRUBERR_LO_ADDR : Fld := ⟨R.MC_SCRUBERR_LO, 0, 32⟩
abbrev F.MC_SCRUBERR_HI_ADDR : Fld := ⟨R.MC_SCRUBERR_HI, 0, 32⟩

end Sys2Proof.Machine
end

