-- ==== Sys2Proof/Machine/State.lean ====
section
/-! DEFINITION. The state of the block: every register (one canonical store keyed by BAR0 byte address), the mode,
Device Time, the memories, and for each unit what it holds beside its registers. Plain data. -/

namespace Sys2Proof.Machine

/-! ### Sparse stores in one canonical form -/

/-- Look a key up; an unlisted key reads as the default says. -/
def alGet {α : Type} (dflt : Nat → α) : List (Nat × α) → Nat → α
  | [], a => dflt a
  | (b, v) :: t, a => if a = b then v else alGet dflt t a

/-- Insert an entry before the first greater key. -/
def alInsert {α : Type} (a : Nat) (v : α) : List (Nat × α) → List (Nat × α)
  | [] => [(a, v)]
  | (b, w) :: t => if a < b then (a, v) :: (b, w) :: t else (b, w) :: alInsert a v t

/-- Set a key. An entry equal to the default is not listed, and keys rise strictly. -/
def alSet {α : Type} [DecidableEq α] (dflt : Nat → α) (l : List (Nat × α)) (a : Nat) (v : α) : List (Nat × α) :=
  let l' := l.filter fun e => e.1 != a
  if v = dflt a then l' else alInsert a v l'

/-- Keys rise strictly. -/
def risingKeys {α : Type} : List (Nat × α) → Bool
  | [] => true
  | [_] => true
  | (a, _) :: (b, v) :: t => a < b && risingKeys ((b, v) :: t)

/-- The canonical form: strictly rising keys, no entry equal to what an unlisted key reads as. -/
def alWf {α : Type} [DecidableEq α] (dflt : Nat → α) (l : List (Nat × α)) : Bool :=
  risingKeys l && l.all fun e => e.2 ≠ dflt e.1

/-- What a byte of device DRAM or host memory that nothing has written reads as (log entry 13, DESIGN CHOICE). -/
def dramReset (_ : Nat) : Byte := 0

/-- The six modes (R401). -/
inductive Mode where
  | reset | dormant | setup | run | throttled | safe
  deriving DecidableEq, Repr

/-! ### Head ports (chapter 2) -/

/-- One tap's entry of the tap map (R45). -/
structure TapEntry where
  start : Nat := 0xFFFF
  stride : Nat := 0
  dir : Nat := 0
  deriving DecidableEq, Repr

/-- A head profile as the port uses it after validation (Table 2-2). -/
structure Profile where
  taps : Nat := 1
  dual : Bool := false
  headTimed : Bool := false
  setlat : Nat := 0
  pixdly : Nat := 0
  width : Nat := 1
  height : Nat := 1
  blindl : Nat := 0
  blindr : Nat := 0
  reftop : Nat := 0
  refbot : Nat := 0
  hblank : Nat := 4
  vblankMin : Nat := 1
  intStart : Nat := 0
  intLen : Nat := 0
  hsupV : Nat := 0
  thmI : Nat := 0
  hsupIlim : Nat := 50
  vbiasMin : Nat := 0
  vbiasMax : Nat := 0
  vskimMin : Nat := 0
  vskimMax : Nat := 0
  biasSlew : Nat := 1
  tapmap : List TapEntry := []
  thm : List (Nat × Nat) := []
  shutType : Nat := 0
  posClosed : Bool := false
  posOpen : Bool := false
  posLow : Bool := false
  shutPulse : Nat := 1
  shutHold : Nat := 1
  shutSettle : Nat := 0
  shutPostmo : Nat := 1
  vshutMin : Nat := 4500
  hcpChains : Nat := 0
  hcpDivmin : Nat := 1
  pfxExpect : Nat := 0
  pfxMask : Nat := 0
  chainLen : List Nat := []
  deriving DecidableEq, Repr

/-- What the H-bridge drives (Table 2-5): nothing, the closing polarity, the opening polarity, or the PWM hold of a
held shutter (R57, R60). -/
inductive Bridge where
  | idle | closing | opening | hold
  deriving DecidableEq, Repr

/-- A shutter drive that has started and whose end is not yet judged (R57, R58): its direction, its start, the end of
its pulse, whether the pulse has ended, the position timeout. -/
structure Drive where
  close : Bool
  start : Nat
  pulseEnd : Nat
  pulseDone : Bool := false
  deadline : Nat
  deriving DecidableEq, Repr

/-- A running HCP transfer (R64, R65). -/
structure HcpXfer where
  len : Nat
  tx : List Bool
  owned : Bool
  deriving DecidableEq, Repr

/-! ### Frames and quires (chapters 4 to 7) -/

/-- A histogram of R286: its unit-independent origin and shift, and its bins. -/
structure Hist where
  seq : Nat
  dt : Nat
  lo : Int
  sh : Nat
  bins : List Nat
  deriving DecidableEq, Repr

/-- What a frame is for besides a picture (R192, R193): nothing, or the part of a shutter event it belongs to. -/
inductive FrameRole where
  | picture
  | shutterWait
  | settle
  | integA
  | integB
  deriving DecidableEq, Repr

/-- One captured frame of a head, from its start until it has been delivered: its identity (R113, R114), the parameter
set it is corrected with (R161: `snap` is the register store at its start), the per-frame terms of R168 to R170, the marks
and counts its Tailband carries, and the committed words its pipe has taken. -/
structure Frame where
  head : Nat
  seq : Nat
  dt : Nat
  gen : Nat
  snap : List (Nat × Word)
  profile : Profile
  /-- Output as HELD: its words are not finished. -/
  held : Bool := false
  /-- Its sample words do not reach the Collator (R99). -/
  mute : Bool := false
  /-- HELD only because a calibration occupied its start and none of its samples is taken yet (R99); whether its role had been
  given when the calibration began. -/
  calHeld : Option Bool := none
  /-- The slot instant, which is the DT of a HELD slot (R114), and whether the ring's discipline had been locked by then. -/
  slotAt : Nat := 0
  locked : Bool := false
  role : FrameRole := .picture
  /-- A refresh frame of R202. -/
  refresh : Bool := false
  degraded : Bool := false
  decimated : Bool := false
  short : Bool := false
  long : Bool := false
  tfpa : Nat := 0
  thmHeld : Bool := false
  d : Int := 0
  hs : Nat := 0
  gT : Nat := 1048576
  gSat : Bool := false
  /-- TAI_f (R169), which may be negative; `ageUnk` where it is unknown. -/
  tai : Int := 0
  ageUnk : Bool := false
  leafSel : Bool := false
  resSel : Bool := false
  hdr : List Byte := []
  swap : Nat := 0
  tapInv : Nat := 0
  shpos : Nat := 0
  shphase : Nat := 0
  missLines : Nat := 0
  excess : Nat := 0
  inv : Nat := 0
  sub : Nat := 0
  unrec : Nat := 0
  clip : Nat := 0
  sat : Nat := 0
  missPix : Nat := 0
  /-- Sum and number of the valid MEANs of the active-line blind records (R203). -/
  bSum : Nat := 0
  bCnt : Nat := 0
  /-- The e_step of every own pixel of a refresh frame, row by row; none where the residual stays (R202, R204). -/
  est : List (List (Option Int)) := []
  captured : Bool := false
  committed : Nat := 0
  complete : Bool := false
  /-- DT at which each quire committed, in order. -/
  commitDts : List Nat := []
  /-- The through-memory buffer that holds it (R256); none when it was skipped (R257). -/
  tmBuf : Option Nat := none
  /-- The buffers chosen for it, one per kind written: kind and buffer number. -/
  chosen : List (Nat × Option Nat) := []
  begun : Bool := false
  /-- The copies of a HELD slot are made (R270). -/
  heldDone : Bool := false
  /-- Pixels (row × WIDTH + column) whose words the pipe could not read, each with the free value in the word's place, and lines
  it puts out as 0 (R256, R280). -/
  dead : List (Nat × Nat) := []
  deadRows : List Nat := []
  reported : Bool := false
  tone : Option Hist := none
  /-- The received active rows and the DT at which the last sample cycle of each ended (R294). -/
  rowEnds : List (Nat × Nat) := []
  /-- Alarm rules evaluated on it, and rules raised. -/
  rulesDone : List Nat := []
  nraise : Nat := 0
  /-- Alarm rules whose CLEAR record waits for the frame's DT (R293). -/
  clears : List Nat := []
  reprocessed : Bool := false
  /-- Committed quires the pipe has taken, and their rows of committed words in raster order. -/
  taken : Nat := 0
  rows : List (List Nat) := []
  /-- The radiometric set copy in force (R214), and whether every pixel has been converted. -/
  radSel : Bool := false
  converted : Bool := false
  radUe : Bool := false
  rlastLo : Nat := 0
  rlastHi : Nat := 0
  deriving DecidableEq, Repr

/-- The capture of the frame now in progress at a head port (R48, R49, R110, R116): lines started, placed and dropped,
and what the Collator gathers from its reference rows and its active area. -/
structure Cap where
  seq : Nat
  start : Nat
  lines : Nat := 0
  lineStarts : List Nat := []
  hfv : Bool := false
  /-- No further line can start: HFV has fallen, the last line has ended, or a stuck HFV closed the frame. -/
  closed : Bool := false
  placed : Nat := 0
  /-- The last row 16q + 15 placed, its words and its blind record: the overlap line above the next quire. -/
  prevRow : Option (Nat × List Nat × Nat × Nat × Nat) := none
  /-- Per tap: sum and count of the valid reference-row codes (R141). -/
  refSum : List (Nat × Nat) := []
  /-- Per tap: number, sum and sum of squares of the active-area codes (R72). -/
  actSum : List (Nat × Nat × Nat) := []
  deriving DecidableEq, Repr

/-- Where a quire is (R25, R26, R144, R183): held in the Collator FIFO, or in slot n of block b; being filled, ready,
running on a cell, finished, or committed and waiting for its pipe. -/
inductive QuireStage where
  | filling
  | ready
  | running (b c : Nat) (at_ : Nat)
  | finished
  deriving DecidableEq, Repr

/-- One quire (R143 to R148, Tables 5-1 to 5-3). `lines` holds slot lines 0 to 17; an unwritten line is none. `bad` lists
pixels of own rows whose SRAM word or leaf read failed. `out` holds the committed words of Table 6-3, row by row. -/
structure Quire where
  head : Nat
  seq : Nat
  region : Nat
  qidx : Nat
  row0 : Nat
  nlines : Nat
  first : Bool
  last : Bool
  edgeTop : Bool := true
  edgeBot : Bool := true
  slot : Option (Nat × Nat) := none
  stage : QuireStage := .filling
  doneDt : Nat := 0
  lines : List (Option (List Nat)) := List.replicate 18 none
  /-- Blind records of slot lines 0 to 17 (Table 5-1): COUNT, LGMEAN, MEAN. -/
  blind : List (Nat × Nat × Nat) := List.replicate 18 (0, 0, 0)
  inv : Nat := 0
  /-- Pixels of failed reads as slot line × WIDTH + column. -/
  bad : List Nat := []
  /-- The same for failed leaf and residual reads, with the channel of each (R154). -/
  badRead : List (Nat × Nat) := []
  allBad : Bool := false
  out : List (List Nat) := []
  cSub : Nat := 0
  cUnrec : Nat := 0
  cClip : Nat := 0
  cSat : Nat := 0
  est : List (List (Option Int)) := []
  /-- The instruction bank it started in, and the block it first started in (R235). -/
  bank : Nat := 0
  started : Option Nat := none
  /-- It runs a third time (R239): its target and shadow runs are done and disagree. -/
  third : Bool := false
  /-- The cell that runs it a second time (R238), and which of the two runs have ended. -/
  shadow : Option Nat := none
  mainDone : Bool := false
  shadowDone : Bool := false
  /-- The cell of its target run. -/
  ranOn : Option (Nat × Nat) := none
  deriving DecidableEq, Repr

/-- A pixel invalidation that lasts to an instant (Table 3-2): the converters it applies to (bit n: TCn) and its end. -/
structure InvMark where
  mask : Nat
  since : Nat
  upto : Nat
  deriving DecidableEq, Repr

/-- What a head port, its converters and its timing hold beside their registers (chapters 2 to 4). -/
structure HeadUnit where
  profile : Option Profile := none
  /-- GEN: the settings generation now in force, which TXN_GEN shows from the next frame start (R308, R315). -/
  gen : Nat := 0
  /-- DACs sent to 0 V under R52 and not yet resumed. -/
  dacHold : Bool := false
  /-- The supply has disconnected (R55), or a DAC overload zeroed the DACs (R70), and RESUME has not been taken. -/
  portHeld : Bool := false
  /-- RESUME written with the supply ON: HELD ends at the next frame start (R56). -/
  resume : Bool := false
  /-- The supply has disconnected and has not been ON since: a cause of R52 remains (R74). -/
  supLost : Bool := false
  /-- The hold comes from a disconnect: it ends by a RESUME with the supply ON (R56). -/
  supHeld : Bool := false
  /-- The UC of the first disconnect has been raised (R55). -/
  supUc : Bool := false
  rampEnd : Nat := 0
  /-- Instant of the next automatic soft start (R53). -/
  retryAt : Option Nat := none
  onSince : Nat := 0
  /-- HSUP waits for HSUP_RETRY after a reverse disconnect (R53, R56). -/
  supStopped : Bool := false
  bridge : Bridge := .idle
  drive : Option Drive := none
  /-- A shutter command that waits for the running drive to end (R60): true for close. -/
  driveWait : Option Bool := none
  p0 : Bool := false
  p1 : Bool := false
  /-- SAFE was entered with the order to switch HSUP off after the shutter close (R54). -/
  supOffAfterClose : Bool := false
  hcp : Option HcpXfer := none
  hdo : Bool := false
  /-- The transaction (handle 1-16) that owns the control port (R68); 0: none. -/
  hcpOwner : Nat := 0
  openPass : List Nat := List.replicate 16 0
  shortHit : List Nat := List.replicate 16 0
  shortPass : List Nat := List.replicate 16 0
  polBad : List Nat := List.replicate 16 0
  polGood : List Nat := List.replicate 16 0
  /-- Swap corrections decided and not yet in force (R142): the mask in force from the next frame start. -/
  swapNext : Nat := 0
  invMarks : List InvMark := []
  /-- Background trim: the converter measured next (R103). -/
  bgtNext : Nat := 0
  /-- The open test of this blanking runs (R71). -/
  openTest : Bool := false
  /-- The PGA and filter settings of a transaction already stand in the converters (R85). -/
  pgaDone : Bool := false
  /-- The handle whose settings those are. -/
  pgaHandle : Nat := 0
  /-- DT of the last frame start (T of R117). -/
  lastStart : Option Nat := none
  /-- HELD slots emitted since the last frame start (R117). -/
  heldRun : Nat := 0
  startPending : Option Nat := none
  hfvAcc : Option Nat := none
  hlvAcc : Option Nat := none
  srcAcc : Option Nat := none
  hfvSince : Option Nat := none
  hlvSince : Option Nat := none
  srcSince : Option Nat := none
  cap : Option Cap := none
  /-- The capture before it while accepted lines of its frame have not been placed. -/
  prevCap : Option Cap := none
  /-- End of the last sample cycle of the last frame: vertical blanking began there (R108). -/
  blankFrom : Option Nat := none
  /-- HELD until relock (R87), HELD by a channel loss (R154), port retired (R382). -/
  heldSclk : Bool := false
  heldChan : Bool := false
  retired : Bool := false
  /-- The open drive failed to report OPEN (R199): frames are DEGRADED until SHPOS reads OPEN. -/
  openLate : Bool := false
  /-- Captured frames since the last refresh frame, and the refresh whose swap is outstanding (R202). -/
  sinceRefresh : Nat := 255

  refreshDone : Bool := false
  betaApplied : Int := 0
  betaNew : Int := 0
  brefSet : Bool := false
  firstRunStart : Option Nat := none
  /-- Swaps accepted for the next frame start (R156, R225): leaf, residual, radiometric set; the device's own leaf swap of
  a refit (R209). -/
  leafPend : Bool := false
  resPend : Bool := false
  radPend : Bool := false
  /-- DT at which a swap of each kind was last accepted (R157). -/
  swapAt : List Nat := [0, 0, 0]
  /-- Kinds (0 leaf, 1 residual, 2 radiometric) whose swap an accepted transaction holds (R305, R308). -/
  txnSwap : List Nat := []
  /-- Ring commands that wait for a swap: kind (0 leaf, 1 residual, 2 radiometric), ring, tag. -/
  swapWaiters : List (Nat × Nat × Nat) := []
  /-- Accepted frame starts of the head (R304 counts frames in them). -/
  starts : Nat := 0
  /-- The histogram of the last frame finished (R259), the next through-memory buffer (R256), frames skipped in a run. -/
  hist : Option Hist := none
  tmNext : Nat := 0
  /-- The buffer of each kind tried next (R267). -/
  bufNext : List Nat := [0, 0, 0, 0]
  deriving DecidableEq, Repr

/-! ### Converter banks (chapter 3) -/

/-- A running bank calibration (R94 to R100): waiting for its start, pass A, pass B. Factors are 12 words for each of 32
converters. -/
inductive CalPhase where
  | idle | waiting | passA | passB | checks
  deriving DecidableEq, Repr

/-- What a converter bank holds beside its registers. -/
structure Bank where
  cal : CalPhase := .idle
  passStart : Nat := 0
  passA : List (List Int) := []
  passB : List (List Int) := []
  repeats : Nat := 0
  /-- When REFOK sets again (R89). -/
  refDue : Option Nat := none
  lockWait : Bool := false
  /-- The intervals in which REFOK or SCLK_LOCK was 0, from and to; the last may be running (Table 3-2). -/
  outages : List (Nat × Option Nat) := [(0, none)]
  deriving DecidableEq, Repr

/-! ### The Timing Ring (chapter 4) -/

/-- A ring message (R132). -/
structure RingMsg where
  src : Nat
  dst : Nat
  payload : List Byte
  deriving DecidableEq, Repr

/-- What starts a character sequence on the ring (Table 4-2). -/
inductive RingKind where
  | idle | mark | trig | time | msg
  deriving DecidableEq, Repr

/-- What the device sends on RING_OUT: the start character, the bytes after it, and the DT of the start (R130). -/
structure RingSent where
  kind : RingKind
  bytes : List Byte := []
  at_ : Nat := 0
  deriving DecidableEq, Repr

/-- A mark or trigger whose effect instant lies ahead (R126). -/
structure MarkEvent where
  trig : Bool
  stream : Nat
  seq : Nat
  instant : Nat
  deriving DecidableEq, Repr

/-- What the Timing Ring logic holds beside its registers. -/
structure Ring where
  selftest : Bool := false
  passed : Bool := false
  txOn : Bool := false
  txOffAt : Option Nat := none
  markSeq : List (Option Nat) := List.replicate 8 none
  trigSeq : List (Option Nat) := List.replicate 4 none
  marks : List MarkEvent := []
  /-- Consecutive TIME packets with an error of 100 ns or less (R128), and the arrival of the last valid one. -/
  goodTime : Nat := 0
  lastTime : Option Nat := none
  offsetSet : Bool := false
  everLocked : Bool := false
  /-- Rate correction of DT in parts per million (R128). -/
  steer : Int := 0
  tx : Option RingMsg := none
  txSent : Option Nat := none
  sendAt : Nat := 0
  rx : List RingMsg := []
  /-- The message repeated last with ACK set by this node (R132). -/
  acked : Bool := false
  /-- What was sent last on RING_OUT while the transmitter was on (R130). -/
  sent : Option RingSent := none
  /-- Last accepted event of each trigger input, and the instant since which each TRIG pin is active. -/
  trigAcc : List (Option Nat) := List.replicate 4 none
  trigSince : List (Option Nat) := List.replicate 4 none
  deriving DecidableEq, Repr

/-! ### Shutter events and refits (chapter 7) -/

/-- The shutter event of a head (R188 to R200) and its drift refit (R206 to R209). -/
structure Shutter where
  /-- A request is pending or an event runs. -/
  active : Bool := false
  reqAt : Nat := 0
  granted : Bool := false
  /-- The armed quiet window (R191). -/
  quiet : Option (Nat × Nat) := none
  /-- Sequence number of frame k, frame slots since k, settle frames left, frames of the running integration left. -/
  frameK : Nat := 0
  slots : Nat := 0
  settleLeft : Nat := 0
  intLeft : Nat := 0
  integB : Bool := false
  /-- The next captured frame begins a new pair (R192). -/
  pairNew : Bool := false
  /-- Rejected pairs so far (R196), and the pair's first GEN and whether it changed. -/
  retries : Nat := 0
  pairGen : Option Nat := none
  genMixed : Bool := false
  /-- The last frames of integrations A and B, without their words; sum and number of the pair's blind levels (R198). -/
  lastA : Option Frame := none
  lastB : Option Frame := none
  bSum : Nat := 0
  bCnt : Nat := 0
  applyDone : Bool := false
  /-- The event has ended and waits for the shutter to open before the head resumes (R199). -/
  ended : Bool := false
  endAt : Option Nat := none
  /-- End of the last event that did not end OK (R189). -/
  badAt : Option Nat := none
  /-- Ring commands that wait for the result (R332): ring and command tag. -/
  waiters : List (Nat × Nat) := []
  /-- Changes of the chapter's registers that wait for the event's end (R212). -/
  deferred : List (Nat × Word) := []
  refitPhase : Nat := 0
  refitWaiters : List (Nat × Nat) := []
  deriving DecidableEq, Repr

/-! ### The non-volatile store (chapter 17) -/

/-- A software page write (R431 to R433): its start address and its bytes up to the page's end, how many of its words are known to
be written, and whether it waits behind device writes (R434). -/
structure NvWrite where
  addr : Nat
  bytes : List Byte
  done : Nat := 0
  waits : Bool := false
  deriving DecidableEq, Repr

/-- A device write that may not have ended (R433, R435): the place of its first byte in its word, the NVM address and the former
content of each of its bytes, in writing order, the DT at which it starts, and how many of its words are known to be written.
The store holds its new bytes already. -/
structure NvRun where
  first : Nat
  old : List (Nat × Byte)
  start : Nat
  done : Nat := 0
  deriving DecidableEq, Repr

/-- A device write that has arrived behind a software write (R434): a log record, the persist of a ring, the relocation of a
page. -/
inductive NvWork where
  | record (bs : List Byte)
  | slot (n : Nat)
  | reloc (page : Nat)
  deriving DecidableEq, Repr

/-- What the NVM controller holds beside its registers: the page map (R442), the current slot and sequence number of
each ring (R440), slots dropped from their ring, staged log records (R391), rings whose persist has been requested, the
start of each ring's 1 s window (R441), the running software write, the power-on count, the powered seconds at RESET
release and the DT of the last hourly persist, and a pending EN_MCMD.INSTALL (R437); the device writes that may still run, those
that wait for the software write (R434), and the relocations that wait for the interlock (R437). -/
structure Nvm where
  relocs : List (Nat × Nat) := []
  cur : List (Option (Nat × Nat)) := List.replicate 21 (some (0, 0))
  dropped : List (Nat × Nat) := []
  staged : List (List Byte) := []
  req : List Nat := []
  win : List (Nat × Nat) := []
  wr : Option NvWrite := none
  boots : Nat := 0
  secsBase : Nat := 0
  lastHour : Nat := 0
  install : Bool := false
  run : List NvRun := []
  wait : List NvWork := []
  relocWait : List Nat := []
  deriving DecidableEq, Repr

/-! ### Engines (chapter 9) and the load planner (chapter 1) -/

/-- One engine cell (R229): its two 32 KiB instruction banks as loaded (bank A at 0x0000, bank B at 0x8000), and which free
values its lane registers and its own part of the block SRAM read: 0 before its first quire, else the number of a draw. -/
structure CellUnit where
  bankA : List Byte := []
  bankB : List Byte := []
  work : Nat := 0
  deriving DecidableEq, Repr

/-- What a block holds beside its registers: its seven engine cells, the cell shadowed now and the last one, the consecutive
agreements (R238), the cells whose UNRETIRE test runs (R240). -/
structure BlockUnit where
  cells : List CellUnit := List.replicate 7 {}
  target : Option Nat := none
  lastTarget : Nat := 6
  agree : Nat := 0
  unret : List Nat := []
  deriving DecidableEq, Repr

/-- A running microcode load (R234): the blocks still to switch, the block whose copy runs, the image's address and its
header as checked, the ring command to answer. -/
structure McLoad where
  left : List Nat
  cur : Option Nat := none
  base : Nat := 0
  header : List Byte := []
  cmd : Option (Nat × Nat) := none
  deriving DecidableEq, Repr

/-- A running recipe load (R245): the slot, the result it will report, the image. -/
structure RecipeLoad where
  slot : Nat
  code : Nat
  image : List Byte := []
  deriving DecidableEq, Repr

/-- What asks for a planner evaluation, in the order of R37's list, and then the evaluations without an action. -/
inductive PlanKind where
  | runCmd | commit | subscribe | stream | job | eval | replan | auto
  deriving DecidableEq, Repr

/-- A requested planner evaluation (R36, R37, R41): its kind, an argument (a handle, a stream mask, a subscription or
context index) and the ring command that waits for it. -/
structure PlanReq where
  kind : PlanKind
  arg : Nat := 0
  cmd : Option (Nat × Nat) := none
  /-- The instant of the request; requests of one instant run in the order of R37's list (R41). -/
  asked : Nat := 0
  deriving DecidableEq, Repr

/-! ### Finishing and outputs (chapter 10) -/

/-- A delivery or statistics buffer that holds a frame (R266, R267, R288): kind 0 display, 1 coding, 2 machine vision, 3
statistics; its number in its ring; the slot it holds; whether that is a good frame, whether it has been reported
complete, whether it is pinned; its format and picture size, the FLAGS of its delivery record (Table 13-9). -/
structure BufRec where
  head : Nat
  kind : Nat
  idx : Nat
  seq : Nat
  base : Nat
  fmt : Nat := 0
  ow : Nat := 0
  oh : Nat := 0
  flags : Nat := 0
  good : Bool := false
  done : Bool := false
  pinned : Bool := false
  /-- Complete before the head began to stream: no longer an image to repeat (R269). -/
  stale : Bool := false
  /-- The DT at which its frame was complete (R295). -/
  doneAt : Nat := 0
  deriving DecidableEq, Repr

/-- A finishing pipe (R253, R254): the head loaded in its memory context, the frame that context is finishing, the head
whose context was used last, and the quires taken. -/
structure PipeUnit where
  mem : Option Nat := none
  memSeq : Option Nat := none
  last : Option Nat := none
  deriving DecidableEq, Repr

/-- A packet a CSI-2 port sends (R275): data type, virtual channel, payload; a short packet carries its 16-bit field. -/
structure CsiPacket where
  dt : Nat
  vc : Nat
  payload : List Byte
  deriving DecidableEq, Repr

/-- A stream of a CSI-2 port (R275, R276): the frame that waits, the frame being sent, the number of its next packet and the
virtual channel it began on. -/
structure CsiStream where
  waiting : Option BufRec := none
  sending : Option BufRec := none
  next : Nat := 0
  vc : Nat := 0
  deriving DecidableEq, Repr

/-- A CSI-2 port: its streams, the stream served last, the packet sent last; whether it has entered HS since TX_CFG.EN
set, and the skew calibrations sent (R475). -/
structure CsiPort where
  streams : List CsiStream := List.replicate 8 {}
  rr : Nat := 7
  sent : Option CsiPacket := none
  hs : Bool := false
  skewCals : Nat := 0
  deriving DecidableEq, Repr

/-- What a head's alarm rules hold (R292, R293): the run count of each of its 256 rules (RAISED stands in ST_HACT), the
unit, grid and origin of the last frame start, and the rules to reset. -/
structure AlarmUnit where
  run : List Nat := List.replicate 256 0
  last : Option (List Nat) := none
  /-- Rules whose words a commit has changed, to be reset at the frame start (R293). -/
  resets : List Nat := []
  deriving DecidableEq, Repr

/-! ### Settings transactions (chapter 12) -/

/-- A staged entry (R302): its UNDO and HEAD fields, address and value. -/
structure TxnEntry where
  undo : Bool
  head : Nat
  addr : Nat
  val : Word
  deriving DecidableEq, Repr

/-- What a committed transaction holds for one listed head (R304 to R313): the entries of its running sequence still to run;
whether the head was not streaming at acceptance; the number of the accepted frame start that is frame k; whether its first
entry has run; whether it waits for its control port, for a transfer that ran before, or for its own transfer, and the error
that ended that; whether its head writes are done, its switch is made, its undo has ended or failed; HP_BIAS and, for each GP_OUT word, the bits written
and their values before the first entry ran. -/
structure TxnHead where
  head : Nat
  idle : Bool := false
  left : List TxnEntry := []
  k : Option Nat := none
  began : Bool := false
  queued : Bool := false
  waitOld : Bool := false
  waiting : Bool := false
  err : Nat := 0
  done : Bool := false
  switched : Bool := false
  undone : Bool := false
  undoBad : Bool := false
  /-- HP_BIAS has been written, and the bits written of each GP_OUT word (R312). -/
  bias : Bool := false
  gp : List Nat := [0, 0]
  deriving DecidableEq, Repr

/-- A handle's entries and, once committed, its transaction: TXN_CCFG at the commit, the DT of acceptance, the effect
instant of its mark once received, its heads, whether its commit waits for the planner, the ring command it answers and
whether that is answered, the result at the end of its undo. -/
structure Txn where
  entries : List TxnEntry := []
  ccfg : Word := 0
  accAt : Nat := 0
  effect : Option Nat := none
  heads : List TxnHead := []
  planWait : Bool := false
  cmd : Option (Nat × Nat) := none
  posted : Bool := false
  endRes : Nat := 0
  /-- The function through whose ring the handle was opened; the PF for TXN_CMD (R332). -/
  owner : Nat := 0
  /-- The GP_OUT words and each head's HP_BIAS before the first entry ran (R312). -/
  gpWas : Option (List Nat) := none
  biasWas : List (Nat × Nat) := []
  deriving DecidableEq, Repr

/-! ### Host rings (chapter 13) -/

/-- A ring context (Table 13-3). -/
structure RingCtx where
  rbase : Nat := 0
  logN : Nat := 0
  kind : Nat := 0
  cls : Nat := 0
  en : Bool := false
  irq : Bool := false
  latest : Bool := false
  job : Bool := false
  vec : Nat := 0
  modcnt : Nat := 0
  modus : Nat := 0
  cq : Nat := 0
  pidx : Nat := 0
  cidx : Nat := 0
  hbase : Nat := 0
  bufsz : Nat := 0
  hpitch : Nat := 0
  shead : Nat := 0
  skind : Nat := 0
  dec : Nat := 0
  x0 : Nat := 0
  y0 : Nat := 0
  w : Nat := 0
  h : Nat := 0
  gapcnt : Nat := 0
  state : Nat := 0
  err : Nat := 0
  deriving DecidableEq, Repr

/-- Lost frames of one reason that become one GAP record (R337). -/
structure GapRec where
  head : Nat
  kind : Nat
  fmt : Nat
  reason : Nat
  count : Nat
  seq : Nat
  dt : Nat
  deriving DecidableEq, Repr

/-- What a slot of a delivery ring will hold: a GAP, or a frame whose copy runs (R334). -/
inductive RingItem where
  | gap (g : GapRec)
  | copy (b : BufRec)
  deriving DecidableEq, Repr

/-- A fetched command of a submission ring (R327, R332): its number within the ring, its descriptor, the CIDX reached,
whether it has started. -/
structure RingCmd where
  tag : Nat
  bytes : List Byte
  cidx : Nat
  started : Bool := false
  /-- Its place in the order in which descriptors of all rings were fetched (R350). -/
  order : Nat := 0
  deriving DecidableEq, Repr

/-- A ring: its context, the tail or consumer index of a doorbell kept for SETUP (R329), fetched commands, event records
that wait, records lost for want of a slot, frames and gaps that wait for a slot in their order, items whose slots are assigned,
and the moderation of its messages (R331). -/
structure RingUnit where
  ctx : RingCtx := {}
  tail : Nat := 0
  kept : Option Nat := none
  cmds : List RingCmd := []
  nextTag : Nat := 0
  out : List (List Byte) := []
  lost : Nat := 0
  lostDt : Nat := 0
  wait : List RingItem := []
  items : List RingItem := []
  unsig : Nat := 0
  firstUnsig : Option Nat := none
  deriving DecidableEq, Repr

/-- A reprocessing job (R341, R342): its ring and command tag, its function, its descriptor, the frames done, the DT of its
start, whether it still waits for the planner. -/
structure ReJob where
  ring : Nat
  tag : Nat
  func : Nat
  body : List Byte
  done : Nat := 0
  started : Option Nat := none
  /-- A read of its radiometric set has failed during its frame (R224). -/
  radUe : Bool := false
  waits : Bool := false
  deriving DecidableEq, Repr

/-- A running context command (R324): whether it writes, its ring and context, whether it waits for the planner, whether
that refused it. -/
structure CtxCmd where
  write : Bool
  ring : Nat
  ctx : RingCtx := {}
  waits : Bool := false
  tooMuch : Bool := false
  deriving DecidableEq, Repr

/-- The PCIe link and its configuration space as the commands show it (R343, R344): functions with bus mastering, functions
in D3hot, the DT the link went down; generation and lanes of the last link that was in L0 since RESET release (R33). -/
structure PcieUnit where
  speed : Nat := 0
  width : Nat := 0
  bme : List Nat := []
  d3 : List Nat := []
  downAt : Nat := 0
  reported : Bool := true
  deriving DecidableEq, Repr

/-! ### The DMA engine (chapter 14) -/

/-- A descriptor a channel executes or holds (Table 14-1): the host address of its ring entry, or the ring command that
carried it. -/
structure DmaDesc where
  bytes : List Byte
  addr : Nat := 0
  cmd : Option (Nat × Nat) := none
  /-- The DT at which it was fetched (R295). -/
  since : Nat := 0
  deriving DecidableEq, Repr

/-- One side of a running descriptor: its space (true: device DRAM), the address of the next list element, the present
element's address and bytes left, elements read. -/
structure DmaSide where
  dev : Bool
  list : Option Nat := none
  addr : Nat := 0
  left : Nat := 0
  elems : Nat := 0
  deriving DecidableEq, Repr

/-- A segment being moved (R356, R357): where it starts on both sides, its bytes, the bytes whose source reads are issued,
the bytes whose comparison reads are issued, the bytes written or compared; from the top down when it overlaps upward. -/
structure DmaSeg where
  src : Nat
  dst : Nat
  len : Nat
  issued : Nat := 0
  cmpd : Nat := 0
  written : Nat := 0
  down : Bool := false
  deriving DecidableEq, Repr

/-- A running descriptor: the stream bytes of finished segments, the present segment, whether a segment overlaps, the CODE
and RESID of its status word once known. -/
structure DmaRun where
  desc : DmaDesc
  src : DmaSide
  dst : DmaSide
  pos : Nat := 0
  seg : Option DmaSeg := none
  overlap : Bool := false
  result : Option (Nat × Nat) := none
  /-- With BAR: the read at the last DW written has returned (R360). -/
  seen : Bool := false
  deriving DecidableEq, Repr

/-- A channel: fetched descriptors, descriptors of DMA_COPY commands, the running one, the index a SWPACE run stops at and
whether a descriptor of it had INT, bytes charged in this window and owed to later ones, the window, whether its first
request is still free (R353), whether EN was cleared under the running descriptor, the ERR to stop with after it. -/
structure DmaChan where
  fetched : List DmaDesc := []
  queue : List DmaDesc := []
  run : Option DmaRun := none
  swEnd : Option Nat := none
  swInt : Bool := false
  spent : Nat := 0
  window : Nat := 0
  first : Bool := true
  closing : Bool := false
  stop : Nat := 0
  deriving DecidableEq, Repr

/-- What a read of the engine is for: source data of a segment (address, offset in the segment, length), destination data
of a comparison, a list element of a side, the last DW written with BAR, or data no longer wanted. -/
inductive DmaReadKind where
  | data (addr off len : Nat)
  | cmp (addr off len : Nat)
  | elem (dst : Bool) (addr : Nat)
  | bar (addr : Nat)
  | dead (addr len : Nat)
  deriving DecidableEq, Repr

/-- A read (R347), its space, and its data once returned; the channel of an uncorrectable word in it. -/
structure DmaRead where
  id : Nat
  ch : Nat
  dev : Bool
  kind : DmaReadKind
  data : Option (List Byte) := none
  ecc : Option Nat := none
  deriving DecidableEq, Repr

/-- The engine: reads issued and not yet consumed, in order; the next read's number; the place of the rotation granted last (a
channel, or 64 for C2 ring service); the grants C3 is still owed in the present 1 µs window (R348); the descriptors fetched so
far; of a halt, the channel whose descriptor failed, its bytes not committed, the address of the failing request. -/
structure DmaUnit where
  chans : Vector DmaChan 64 := Vector.replicate 64 {}
  reads : List DmaRead := []
  nextId : Nat := 0
  rr : Nat := 63
  floorAt : Nat := 0
  floorOwed : Nat := 20
  fetchNo : Nat := 0
  failing : Option Nat := none
  failLeft : Nat := 0
  failAddr : Nat := 0
  deriving DecidableEq, Repr

/-! ### Rings and the Churn (chapters 13 and 15) -/

/-- A finished ring command that waits to be posted as a completion (R332): its ring and tag, its status code, its
result word. -/
structure CmdDone where
  ring : Nat
  tag : Nat
  status : Nat
  result : Nat
  info : Nat := 0
  dt : Nat := 0
  /-- The on-chip queue has no room for it: its command is not complete yet (R343). -/
  held : Bool := false
  /-- The DMA channel whose vector is signalled once its completion is posted (R360). -/
  int : Option Nat := none
  deriving DecidableEq, Repr

/-- An activity of the Churn on a resource (R392 to R397), with the DT of its request. -/
structure Job where
  act : Activity
  res : Nat
  since : Nat := 0
  deriving DecidableEq, Repr

/-! ### Faults, modes, power and housekeeping (chapters 15 and 16) -/

/-- A root's run of dependency windows (R376, R377): the instants of its UCs and FAs, the dependents of the run and the
first of them, what dependent sources reported since (class and DETAIL), whether the run has ended. -/
structure FaultRoot where
  src : Nat
  opens : List Nat
  deps : Nat := 0
  first : Option Nat := none
  made : List (Nat × Nat × Nat) := []
  ended : Bool := false
  deriving DecidableEq, Repr

/-- The fault collector beside its registers: roots, the instants at which CE flags clear by themselves (R373), the flags
set by forced reports (R374), the restore tests that run (R380). -/
structure FaultUnit where
  roots : List FaultRoot := []
  ceEnd : List (Nat × Nat) := []
  forced : List (Nat × Nat) := []
  tests : List Nat := []
  deriving DecidableEq, Repr

/-- A mode transition in progress (R404 to R406): up to SETUP with the DRAM channels still to train, down to SETUP from
RUN, or a RUN command that waits for its evaluation. -/
inductive Trans where
  | up (first : Bool) (training : List Nat)
  | down
  | run
  deriving DecidableEq, Repr

/-- The nominal voltages of Table 16-5 in µV, VDD_IO at 3.3 V; VSHUT, which has none and is not monitored, at 5 V. -/
def railNominals : List Nat :=
  [750000, 800000, 1800000, 3300000, 5000000, 5000000, 1100000, 600000, 850000, 1800000, 1200000, 3300000, 1800000, 1800000]

/-- Modes and supplies beside their registers: the running transition, the voltages of the rails as the supply monitor last read
them, in µV, whether VDD_IO is nominally 3.3 V, the rails that fail now, what holds the power-fail condition (POWERFAIL_N;
rails), whether the sequence runs, the causes of a RESET that waits for its end, those of the RESET that holds, the DT of the
SAFE entry and the sequence number of its MODE record, whether RESET has been released. -/
structure PowerUnit where
  trans : Option Trans := none
  level : List Nat := railNominals
  io33 : Bool := true
  failing : List Nat := []
  pfPin : Bool := false
  pfRail : Bool := false
  seq : Bool := false
  resetWait : List ResetCause := []
  causes : List ResetCause := [.por]
  safeAt : Option Nat := none
  safeSeq : Nat := 0
  released : Bool := false
  deriving DecidableEq, Repr

/-- A request of an injected conversion (R422): its input, the frame whose start makes it, the DT at which it is made. -/
structure HkInj where
  input : Nat
  frame : Option Nat
  instant : Nat
  deriving DecidableEq, Repr

/-- What the converters HKA and HKB work at (R419, R422): a slot of the round, or an injected conversion. -/
inductive HkConv where
  | slot (k : Nat)
  | inj (q : HkInj)
  deriving DecidableEq, Repr

/-- The milk round (R419 to R427): the slots left of the running round, the mask and the HK_TRIG it runs with, requested
injected conversions, the DT the windows count from, the last start that was taken or skipped, the last round start, starts due
at an instant, whether a round follows the running one, consecutive passes of each failed sensor, the sensors that are failed,
and the conversion in progress. -/
structure HkUnit where
  slots : List Nat := []
  xmask : Nat := 0
  trig : Word := 0
  inj : List HkInj := []
  anchor : Nat := 0
  lastWin : Option Nat := none
  lastStart : Nat := 0
  due : List Nat := []
  again : Bool := false
  passes : List Nat := List.replicate 24 0
  failed : List Nat := []
  cur : Option HkConv := none
  deriving DecidableEq, Repr

/-! ### The management port, the test access port and the Spine (chapters 1, 18 and 19) -/

/-- An MSP read frame (R457): its word address, the words fetched, the data words shifted out before MSP_CS_N rises,
whether each carries a CRC-8. -/
structure MspRead where
  addr : Nat
  next : Nat := 0
  words : Nat
  crc : Bool
  deriving DecidableEq, Repr

/-- The management serial port (R454 to R459): the status byte shifted out last, the read frame in progress, the words it has
fetched and their CRC-8, and what the next status byte tells of the frame before. -/
structure MspUnit where
  status : Nat := 0
  read : Option MspRead := none
  words : List Word := []
  crcs : List Nat := []
  pastEnd : Bool := false
  crcErr : Bool := false
  deriving DecidableEq, Repr

/-- The data register the test access port has selected (R481). -/
inductive TapDr where
  | idcode
  | bypass
  | boundary
  deriving DecidableEq, Repr

/-- The test access port (R481, R482): its instruction register, the selected data register, the preloaded boundary cells,
and whether a boundary-driving instruction has been left and the reset that follows is still to come. -/
structure TapUnit where
  ir : BitVec 8 := 1
  dr : TapDr := .idcode
  cells : List Bool := []
  leave : Bool := false
  deriving DecidableEq, Repr

/-- A C3 floor window of a Spine link (R21): its start in DT and the flit slots it still owes C3. -/
structure FloorWindow where
  start : Nat := 0
  owed : Nat := 20
  deriving DecidableEq, Repr

/-! ### The state -/

/-- What stops the block. The spec gives every command an effect or says that it is ignored, so no fault is left. -/
inductive Fault where
  deriving DecidableEq, Repr

/-- Why a command has no meaning. -/
inductive Refusal where
  /-- An arm of `exec` that has no meaning yet answers it with the row's mnemonic. Safe: nothing is claimed. -/
  | notModelled (mnemonic : String)
  deriving DecidableEq, Repr

/-- A slot ring of Table 17-2: number of slots, slot size and address of slot 0. -/
def nvRing (n : Nat) : Option (Nat × Nat × Nat) :=
  if n = 0 then some (16, 1024, 0x140000)
  else if n = 1 then some (16, 256, 0x144000)
  else if n = 2 then some (16, 256, 0x145000)
  else if n = 3 then some (16, 256, 0x146000)
  else if 4 ≤ n ∧ n ≤ 11 then some (16, 256, 0x147000 + 4096 * (n - 4))
  else if 16 ≤ n ∧ n ≤ 19 then some (8, 1024, 0x40000 + 8192 * (n - 16))
  else if n = 20 then some (2, 40960, 0x48000)
  else none

/-- The CRC-32C of the value and sequence bytes of an all-zero slot of size `s` (R439, R440). -/
def zeroSlotCrc (s : Nat) : Nat :=
  if s = 256 then 0xD2D134A2 else if s = 1024 then 0x8ECB6242 else 0x1712D878

/-- Byte `k` of the check word of an all-zero item whose CRC-32C is `c`. -/
def checkByte (c id k : Nat) : Byte :=
  if k < 4 then BitVec.ofNat 8 (c / 256 ^ k) else if k = 4 then BitVec.ofNat 8 id else 0

/-- The items of the factory area that end in a check word (Table 17-4): address and size. -/
def factoryItems : List (Nat × Nat) :=
  [(0, 256), (0x100, 24), (0x200, 256), (0x300, 256), (0x400, 1024), (0x800, 1024), (0xC00, 1024), (0x1000, 1024),
   (0x1400, 256), (0x1500, 256), (0x1600, 256), (0x1700, 256)]

/-- The CRC-32C of the other bytes of an all-zero factory item of size `n` (R443). -/
def zeroItemCrc (n : Nat) : Nat := if n = 24 then 0x42709AEA else zeroSlotCrc n

/-- What a byte of NVM reads as on a part as shipped, before anything is written: every ring holds one valid slot with
SEQ 0 (R440) and every factory item a valid check word (R443); the values themselves are not in the spec and read as 0
(log entry 14, DESIGN CHOICE). -/
def nvmReset (a : Nat) : Byte :=
  match factoryItems.find? fun i => i.1 + i.2 - 8 ≤ a && a < i.1 + i.2 with
  | some (b, n) => checkByte (zeroItemCrc n) 0 (a - (b + n - 8))
  | none =>
    match (List.range 21).find? fun n => match nvRing n with
        | some (_, s, b) => b + s - 8 ≤ a && a < b + s
        | none => false with
    | some n => match nvRing n with
        | some (_, s, b) => checkByte (zeroSlotCrc s) n (a - (b + s - 8))
        | none => 0
    | none => 0

/-- The state of the block. -/
structure State where
  mode : Mode := .reset
  /-- Every register, keyed by canonical BAR0 address; an unlisted register holds its reset value. -/
  regs : List (Nat × Word) := []
  /-- Device Time in ns (R115) and the fraction of its 32.32 accumulator. -/
  dt : Nat := 0
  dtFrac : Nat := 0
  freeCnt : Nat := 0
  dram : List Host.Cell := []
  nvm : List Host.Cell := []
  host : List Host.Cell := []
  inbox : List Report := []
  heads : Vector HeadUnit 8 := Vector.replicate 8 {}
  banks : Vector Bank 4 := Vector.replicate 4 {}
  shutters : Vector Shutter 8 := Vector.replicate 8 {}
  ring : Ring := {}
  nv : Nvm := {}
  /-- Ring commands that have ended and wait for their completion record. -/
  cmdDone : List CmdDone := []
  churnRun : List Job := []
  churnQueue : List Job := []
  scrubAt : List (Nat × Nat) := []
  /-- The microcode image last loaded (R234): what an INSTALL writes. -/
  image : List Byte := []
  /-- Per region: the block the Collator writes its next quire to (R25), the engine each block gives next (R26). -/
  nextBlock : List Nat := [0, 0, 0, 0]
  nextCell : List Nat := List.replicate 16 0
  /-- Lines of quires held in the Collator FIFO, per region, in bytes, and the peak in bytes (R139, R158). -/
  fifoPeak : List Nat := [0, 0, 0, 0]
  /-- The region whose Collator takes a head's samples, when it is not its own (R40). -/
  reroute : List (Nat × Nat) := []
  /-- Regions whose digital part has failed, and regions whose converter bank is retired (R39, R40, R381). -/
  digitalFail : List Nat := []
  bankRetired : List Nat := []
  /-- Failed region uplinks, numbered 2r + i, and per link the consecutive failures of the flit at its head (R19). -/
  uplinkDown : List Nat := []
  /-- Crossbar links that have been declared failed, by the source number of the unit behind them (R19). -/
  chipDown : List Nat := []
  flitFails : List (Link × Nat) := []
  /-- Lost DRAM channels (R383). -/
  lostChan : List Nat := []
  /-- Initial mirror copies that run: head and copy (0-3 leaf A to residual B, 4 and 5 radiometric set A and B). -/
  mirCopies : List (Nat × Nat) := []
  /-- What the last register read returned, and through which port. -/
  lastRead : Port × Word := (.pcie, 0)
  /-- Replacements of each 64-bit pair by its unit, keyed by the address of its _LO word; the shadows of a port, keyed by
  that address plus the port's number: the value latched by a read and the replacements at that read, and the low word
  held by a write (R451). -/
  pairVer : List (Nat × Nat) := []
  pairRead : List (Nat × Option (Nat × Nat)) := []
  pairHold : List (Nat × Option Nat) := []
  refStopped : Bool := false
  blocks : Vector BlockUnit 16 := Vector.replicate 16 {}
  mcLoad : Option McLoad := none
  /-- IMGVER and SVN of the newest image in force. -/
  mcActive : Nat × Nat := (0, 0)
  /-- The loaded recipe slot images (R245); an empty one is not loaded. -/
  recipes : List (List Byte) := List.replicate 8 []
  recipeLoad : Option RecipeLoad := none
  planQ : List PlanReq := []
  planRun : Option PlanReq := none
  pipes : Vector PipeUnit 4 := Vector.replicate 4 {}
  bufs : List BufRec := []
  csi : Vector CsiPort 4 := Vector.replicate 4 {}
  alarms : Vector AlarmUnit 8 := Vector.replicate 8 {}
  /-- The handles, the accepted transactions in order of commit, and per port the RESULT and HANDLE of its last OPEN (R301). -/
  txns : Vector Txn 16 := Vector.replicate 16 {}
  txnQ : List Nat := []
  openRes : List (Nat × Nat) := [(0, 0), (0, 0)]
  /-- DT of the MON_PER write's last window boundary (R297), and the samples that events have made for enabled monitors and that
  MONITOR_SAMPLE takes: monitor, value, stamp (R295). -/
  monWin : Nat := 0
  samples : List (Nat × Int × Nat) := []
  /-- Rings that have held state since RESET, in the canonical form; any other is as after RESET. -/
  rings : List (Nat × RingUnit) := []
  jobs : List ReJob := []
  ctxCmd : Option CtxCmd := none
  /-- The submission ring fetched last, what the last BAR4 read returned (none: a poisoned completion), the DT at which a
  condition of the C0 bound last failed or came back (R338). -/
  fetchLast : List Nat := [65535, 65535, 65535]
  bar4 : Option (List Byte) := some []
  c0Mark : Nat := 0
  pcie : PcieUnit := {}
  dma : DmaUnit := {}
  faults : FaultUnit := {}
  power : PowerUnit := {}
  hk : HkUnit := {}
  msp : MspUnit := {}
  tap : TapUnit := {}
  floors : List (Link × FloorWindow) := []
  frames : List Frame := []
  quires : List Quire := []
  pending : List Instr := []
  deriving DecidableEq, Repr

/-- The block at power-on (R403): the mode is RESET, every register reads its reset value, DT stands at 0, the memories list
nothing, and no command waits. Values the spec does not give are those of log entries 13, 14 and 63. -/
def State.reset : State := {}

end Sys2Proof.Machine
end

