-- ==== Sys2Proof/Machine/Ops.lean ====
section
/-! DEFINITION. The named operations over registers, fields, memories, Device Time and the fault collector's inbox that
every meaning goes through. -/

namespace Sys2Proof.Machine

/-- The outcome type of every meaning. -/
abbrev Result := Host.Outcome State Fault Refusal

/-! ### Registers -/

/-- The word the register at canonical address `a` holds. -/
def State.reg (s : State) (a : Nat) : Word := alGet resetWord s.regs a

/-- Store a word in the register at canonical address `a`. -/
def State.setReg (s : State) (a : Nat) (w : Word) : State := { s with regs := alSet resetWord s.regs a w }

/-- The value of a field of a word. -/
def fieldOf (f : Fld) (w : Word) : Nat := (w.extractLsb' f.lo f.w).toNat

/-- A word with one field replaced. -/
def withField (f : Fld) (v : Nat) (w : Word) : Word :=
  let m : Word := (BitVec.allOnes f.w).setWidth 32 <<< f.lo
  (w &&& ~~~m) ||| ((BitVec.ofNat 32 v <<< f.lo) &&& m)

/-- The value of a register field. -/
def State.get (s : State) (f : Fld) : Nat := fieldOf f (s.reg f.addr)

/-- Set a register field; a value wider than the field keeps its low bits. -/
def State.put (s : State) (f : Fld) (v : Nat) : State := s.setReg f.addr (withField f v (s.reg f.addr))

/-- A one-bit field as a truth value. -/
def State.flag (s : State) (f : Fld) : Bool := s.get f == 1

/-- Set a one-bit field. -/
def State.putB (s : State) (f : Fld) (b : Bool) : State := s.put f b.toNat

/-- The value of a field in a saved register store (a frame's parameter set, R161). -/
def snapGet (snap : List (Nat × Word)) (f : Fld) : Nat := fieldOf f (alGet resetWord snap f.addr)

/-- A one-bit field of a saved register store. -/
def snapFlag (snap : List (Nat × Word)) (f : Fld) : Bool := snapGet snap f == 1

/-- Add `n` to a counter field, which saturates at its maximum (R135, R158, R187, R281). -/
def State.bumpBy (s : State) (f : Fld) (n : Nat) : State := s.put f (min (s.get f + n) (2 ^ f.w - 1))

/-- Add 1 to a saturating counter field. -/
def State.bump (s : State) (f : Fld) : State := s.bumpBy f 1

/-- The 64-bit value of a pair of registers, low word first (R451). -/
def State.get64 (s : State) (lo hi : Fld) : Nat := s.get lo + 4294967296 * s.get hi

/-- Samples of source `src` (Table 11-4) for the enabled monitors that have it, stamped now: `f` gives the sample of a selection,
when there is one (R295). -/
def State.sampleOf (s : State) (src : Nat) (f : Nat → Option Int) : State :=
  { s with samples := s.samples ++ (List.range 32).filterMap fun n =>
      if s.get (F.MON_CFG_SRC n) = src ∧ s.get (F.MON_CFG_EN n) = 1 then (f (s.get (F.MON_CFG_SEL n))).map fun v => (n, v, s.dt)
      else none }

/-- A sample of one selection of a source. -/
def State.sample (s : State) (src sel : Nat) (v : Int) : State := s.sampleOf src fun k => if k = sel then some v else none

/-- The canonical address of a register that appears at several bases (R106, R187, R250, R447). -/
def canonAddr (a : Nat) : Nat :=
  let o := a % 0x10000
  if 0x200000 ≤ a ∧ a < 0x280000 then
    if o = 0x28 then 0x200028
    else if [0x04, 0x18, 0x20, 0x24, 0x30, 0x34, 0x38, 0x3C, 0x40].contains o then
      0x200000 + (a - 0x200000) / 0x20000 * 0x20000 + o
    else a
  else if 0x340000 ≤ a ∧ a < 0x380000 then (if o = 0x10 ∨ o = 0x14 then 0x340000 + o else a)
  else if 0x800000 ≤ a ∧ a < 0x900000 then (if 0x800 ≤ o then 0x800000 + o else a)
  else a

/-- The unit has replaced the value of the pair whose _LO word is at `a` (R451). -/
def State.bumpPair (s : State) (a : Nat) : State :=
  { s with pairVer := alSet (fun _ => 0) s.pairVer a (alGet (fun _ => 0) s.pairVer a + 1) }

/-- Store a 64-bit value in a pair of registers as a whole (R449). -/
def State.put64 (s : State) (lo hi : Fld) (v : Nat) : State :=
  ((s.put lo (v % 4294967296)).put hi (v / 4294967296)).bumpPair lo.addr

/-- Bit `i` of a number. -/
def bit (n i : Nat) : Bool := n.testBit i

/-- A number with bit `i` set or cleared. -/
def setBit (n i : Nat) (b : Bool) : Nat := if n.testBit i = b then n else if b then n + 2 ^ i else n - 2 ^ i

/-- Set or clear bit `i` of a field. -/
def State.putBit (s : State) (f : Fld) (i : Nat) (b : Bool) : State := s.put f (setBit (s.get f) i b)

/-- The two's complement value of an n-bit number (R9). -/
def signed (n v : Nat) : Int := if 2 * (v % 2 ^ n) < 2 ^ n then (v % 2 ^ n : Nat) else ((v % 2 ^ n : Nat) : Int) - 2 ^ n

/-- The n-bit two's complement pattern of an integer. -/
def unsigned (n : Nat) (v : Int) : Nat := (v % (2 ^ n : Nat)).toNat

/-- `sat(x, bits)` of R12. -/
def satInt (x : Int) (bits : Nat) : Int := max (-(2 ^ (bits - 1) : Nat)) (min x ((2 ^ (bits - 1) : Nat) - 1))

/-- `round(p / q)` of R12 for q > 0: to the nearest integer, halves away from zero. -/
def roundDiv (p : Int) (q : Nat) : Int :=
  if 0 ≤ p then (2 * p + q) / (2 * q) else -((2 * (-p) + q) / (2 * q))

/-- `round(p / q)` for unsigned operands, 0 when q is 0. -/
def roundDivN (p q : Nat) : Nat := (2 * p + q) / (2 * q)

/-- ⌈p / q⌉. -/
def ceilDiv (p q : Nat) : Nat := (p + q - 1) / q

/-! ### Memories -/

/-- DRAM channel of an address (R152). -/
def chanOf (a : Nat) : Nat := a / 4096 % 16

/-- The channel of an address is lost: reads of it fail and writes to it are discarded (R383). -/
def State.lostAt (s : State) (a : Nat) : Bool := s.lostChan.contains (chanOf a)

/-- A byte of device DRAM as a read gives it: 0 on a lost channel (R383). -/
def State.dramByte (s : State) (a : Nat) : Byte := if s.lostAt a then 0 else alGet dramReset s.dram a
/-- A byte of NVM. -/
def State.nvmByte (s : State) (a : Nat) : Byte := alGet nvmReset s.nvm a
/-- A byte of host memory as the device last wrote it. -/
def State.hostByte (s : State) (a : Nat) : Byte := alGet dramReset s.host a

/-- Store bytes from address `a` upward in a canonical byte list. -/
def storeBytes (dflt : Nat → Byte) : List (Nat × Byte) → Nat → List Byte → List (Nat × Byte)
  | m, _, [] => m
  | m, a, b :: bs => storeBytes dflt (alSet dflt m a b) (a + 1) bs

/-- Read `n` bytes from address `a` upward. -/
def loadBytes (dflt : Nat → Byte) (m : List (Nat × Byte)) (a : Nat) : Nat → List Byte
  | 0 => []
  | n + 1 => alGet dflt m a :: loadBytes dflt m (a + 1) n

/-- Write bytes into host memory (delivery slots, completion and event records, write-backs). -/
def State.hostWrite (s : State) (a : Nat) (bs : List Byte) : State := { s with host := storeBytes dramReset s.host a bs }

/-- Write NVM bytes. -/
def State.nvmWrite (s : State) (a : Nat) (bs : List Byte) : State := { s with nvm := storeBytes nvmReset s.nvm a bs }

/-- Read NVM bytes. -/
def State.nvmRead (s : State) (a n : Nat) : List Byte := loadBytes nvmReset s.nvm a n

/-- Write device DRAM without mirroring. -/
def State.dramWriteRaw (s : State) (a : Nat) (bs : List Byte) : State := { s with dram := storeBytes dramReset s.dram a bs }

/-- Read device DRAM; bytes on a lost channel read as 0 (R383). -/
def State.dramRead (s : State) (a n : Nat) : List Byte :=
  if s.lostChan.isEmpty then loadBytes dramReset s.dram a n else (List.range n).map fun k => s.dramByte (a + k)

/-- A byte of a range lies on a lost channel. -/
def State.rangeLost (s : State) (a n : Nat) : Bool :=
  !s.lostChan.isEmpty && (List.range (min 16 ((a + n + 4095) / 4096 - a / 4096))).any fun k => s.lostAt (a + 4096 * k)

/-- The little-endian number of a byte list (R9). -/
def leNat : List Byte → Nat
  | [] => 0
  | b :: bs => b.toNat + 256 * leNat bs

/-- The n low bytes of a number, little-endian (R9). -/
def leBytes : Nat → Nat → List Byte
  | 0, _ => []
  | n + 1, v => BitVec.ofNat 8 v :: leBytes n (v / 256)

/-- `n` bytes of a list from offset `o`, as a little-endian number. -/
def leAt (bs : List Byte) (o n : Nat) : Nat := leNat ((bs.drop o).take n)

/-- A byte list with `n` bytes from offset `o` replaced. -/
def patch (bs : List Byte) (o : Nat) (v : List Byte) : List Byte := bs.take o ++ v ++ bs.drop (o + v.length)

/-- The number of a little-endian list of bits (bit 0 first). -/
def bitsNat : List Bool → Nat
  | [] => 0
  | b :: bs => b.toNat + 2 * bitsNat bs

/-- The n low bits of a number, bit 0 first. -/
def natBits : Nat → Nat → List Bool
  | 0, _ => []
  | n + 1, v => v.testBit 0 :: natBits n (v / 2)

/-! ### Checks -/

/-- One bit step of a reflected CRC. -/
def crcStepR (poly c : Nat) : Nat := if c % 2 = 1 then (c / 2) ^^^ poly else c / 2

/-- Eight steps. -/
def crcByteR (poly c b : Nat) : Nat := Nat.repeat (crcStepR poly) 8 (c ^^^ b)

/-- CRC-32 of R44: IEEE 802.3, initial value all ones, reflected, inverted. -/
def crc32 (bs : List Byte) : Nat :=
  bs.foldl (fun c b => crcByteR 0xEDB88320 c b.toNat) 0xFFFFFFFF ^^^ 0xFFFFFFFF

/-- CRC-32C (R429): the Castagnoli polynomial, initial value all ones, reflected, inverted. -/
def crc32c (bs : List Byte) : Nat :=
  bs.foldl (fun c b => crcByteR 0x82F63B78 c b.toNat) 0xFFFFFFFF ^^^ 0xFFFFFFFF

/-- One bit step of an unreflected CRC of width `w`. -/
def crcStep (w poly c : Nat) : Nat := if c.testBit (w - 1) then ((2 * c) % 2 ^ w) ^^^ poly else (2 * c) % 2 ^ w

/-- An unreflected CRC of width `w` over bytes, most significant bit first. -/
def crcMsb (w poly init : Nat) (bs : List Byte) : Nat :=
  bs.foldl (fun c b => Nat.repeat (crcStep w poly) 8 (c ^^^ (b.toNat * 2 ^ (w - 8)))) init

/-- CRC-16 of ring packets (R123): 0x1021, initial value 0xFFFF. -/
def crc16 (bs : List Byte) : Nat := crcMsb 16 0x1021 0xFFFF bs

/-! ### Lists -/

/-- Replace entry `i` of a list. -/
def listSet {α : Type} (l : List α) (i : Nat) (v : α) : List α := l.set i v

/-- Apply `f` to the entries that satisfy `p`. -/
def mapIf {α : Type} (p : α → Bool) (f : α → α) (l : List α) : List α := l.map fun x => if p x then f x else x

/-- Fold a state over the numbers below `n` that satisfy `p`. -/
def State.forEach (s : State) (n : Nat) (p : Nat → Bool) (f : Nat → State → State) : State :=
  (List.range n).foldl (fun s i => if p i then f i s else s) s

/-! ### Units -/

/-- Entry `i` of a table, or the empty entry beyond its end. -/
def tabGet {α : Type} {n : Nat} (v : Vector α n) (d : α) (i : Nat) : α := if h : i < n then v[i] else d
/-- Replace entry `i` of a table; nothing beyond its end. -/
def tabSet {α : Type} {n : Nat} (v : Vector α n) (i : Nat) (x : α) : Vector α n := if h : i < n then v.set i x else v

/-- The unit of head `h`. -/
def State.head (s : State) (h : Nat) : HeadUnit := tabGet s.heads {} h
/-- Change the unit of head `h`. -/
def State.modHead (s : State) (h : Nat) (f : HeadUnit → HeadUnit) : State :=
  { s with heads := tabSet s.heads h (f (s.head h)) }
/-- The converter bank of region `r`. -/
def State.bank (s : State) (r : Nat) : Bank := tabGet s.banks {} r
/-- Change the bank of region `r`. -/
def State.modBank (s : State) (r : Nat) (f : Bank → Bank) : State :=
  { s with banks := tabSet s.banks r (f (s.bank r)) }
/-- The shutter event of head `h`. -/
def State.shut (s : State) (h : Nat) : Shutter := tabGet s.shutters {} h
/-- Change the shutter event of head `h`. -/
def State.modShut (s : State) (h : Nat) (f : Shutter → Shutter) : State :=
  { s with shutters := tabSet s.shutters h (f (s.shut h)) }

/-! ### Time and free values -/

/-- Device Time reaches `t` (R115: it never decreases). -/
def State.at (s : State) (t : Nat) : State := { s with dt := max s.dt t }

/-- A free value and the state that has used it up (log entry 10). -/
def State.fresh (s : State) : Nat × State := (Config.freeValue s.freeCnt, { s with freeCnt := s.freeCnt + 1 })

/-- A free value of at most `b`. -/
def State.freshUpTo (s : State) (b : Nat) : Nat × State := (Config.freeValue s.freeCnt % (b + 1), s.fresh.2)

/-! ### Modes and faults -/

/-- RUN or THROTTLED: the modes in which heads stream (R402). -/
def State.inRun (s : State) : Bool := s.mode == .run || s.mode == .throttled

/-- The device is out of RESET, so its registers answer (R452). -/
def State.up (s : State) : Bool := s.mode != .reset

/-- The register at canonical address `a` answers: never in RESET, and while REF is stopped only in the windows of the
AON domain (R452). -/
def State.access (s : State) (a : Nat) : Bool := s.up && (!s.refStopped || a < 0x50000)

/-- A boundary-driving instruction stands in the test access port's instruction register (R482). -/
def State.testMode (s : State) : Bool := [0, 3, 4, 5, 6].contains s.tap.ir.toNat

/-- The model's number of a GP pin among the boundary cells; RING_HOLD is 0 (log entry 72). -/
def gpPin (pin : Nat) : Nat := 1 + pin

/-- The model's number of a timing pin of head port `h`. -/
def headPin (h k : Nat) : Nat := 65 + 6 * h + k

/-- The level that a boundary-driving instruction puts on a pin (R482): its cell's, and none under HIGHZ. -/
def State.cellPin (s : State) (pin : Nat) : Option Bool :=
  if s.tap.ir = 3 then none else Config.boundaryCell pin s.tap.cells

/-- RING_HOLD is high: TRG_STAT.HOLD, or its cell under every boundary-driving instruction (R482). -/
def State.ringHold (s : State) : Bool :=
  if s.testMode then Config.boundaryCell 0 s.tap.cells == some true else s.flag F.TRG_STAT_HOLD

/-- The code of the mode in the log and in SYS_MODESTAT (Tables 15-3 and 16-25). -/
def Mode.code : Mode → Nat
  | .reset => 0
  | .dormant => 1
  | .setup => 2
  | .run => 3
  | .throttled => 4
  | .safe => 5

/-- TAI seconds at DT `t` under R169: from the ring's offset once the discipline has been locked, else from CX_TAISW,
else unknown. -/
def taiOf (regs : List (Nat × Word)) (locked : Bool) (t : Nat) : Option Int :=
  let both := fun (lo hi : Fld) => snapGet regs lo + 4294967296 * snapGet regs hi
  let sw := both F.CX_TAISW_LO_TAISW F.CX_TAISW_HI_TAISW
  if locked then some (((t : Int) + signed 64 (both F.TRG_TAIOFF_LO_TAIOFF F.TRG_TAIOFF_HI_TAIOFF)) / 1000000000)
  else if sw ≠ 0 then some (sw + t / 1000000000)
  else none

/-- TAI seconds at DT `t` with the registers in force. -/
def State.taiAt (s : State) (t : Nat) : Option Int := taiOf s.regs s.ring.everLocked t

/-- The TAI seconds of DT `t` as a register or a record holds them: 0 when unknown. -/
def State.taiWord (s : State) (t : Nat) : Nat := unsigned 64 ((s.taiAt t).getD 0)

/-- A unit reports a fault to the collector (R369, R370): the report waits in the collector's inbox. -/
def State.raise (s : State) (src : Nat) (cls : FaultClass) (detail : Nat) : State :=
  { s with inbox := s.inbox ++ [{ source := Fin.ofNat 64 src, cls := cls, detail := BitVec.ofNat 32 detail }] }

/-- A DETAIL word (R390): sub-unit, bit position, register offset; 0xFF where the unit or the condition has none. -/
def detailWord (sub b off : Nat) : Nat := sub * 2 ^ 24 + b * 2 ^ 16 + off

/-- A command whose condition does not hold leaves the state unchanged (log entry 20). -/
def State.whenever (s : State) (c : Bool) (f : State → State) : State := if c then f s else s

/-! ### Rings: owners, and when their records may be posted (R320, R343, R345) -/

/-- A ring never touched is as after RESET. -/
def ringDefault (_ : Nat) : RingUnit := {}

/-- The ring with a global ID. -/
def State.ringOf (s : State) (id : Nat) : RingUnit := alGet ringDefault s.rings id

/-- The function that owns a ring (R320). -/
def State.ringFunc (s : State) (id : Nat) : Option Nat :=
  (List.range 32).find? fun f =>
    let b := 16 * s.get (F.Q_FRANGE_BASE f)
    b ≤ id && id < b + 16 * s.get (F.Q_FRANGE_COUNT f)

/-- The global ID of local ring `n` of a function. -/
def State.ringGlobal (s : State) (f n : Nat) : Nat := 16 * s.get (F.Q_FRANGE_BASE f) + n

/-- The modes in which rings are processed. -/
def State.ringsMode (s : State) : Bool := s.mode == .setup || s.inRun

/-- PF ring 0. -/
def State.pfRing0 (s : State) : Nat := s.ringGlobal 0 0

/-- A function can reach host memory: the link in L0, bus mastering set, not in D3hot (R343, R344). -/
def State.hostUp (s : State) (f : Nat) : Bool :=
  s.flag F.Q_STAT_LINKUP && s.pcie.bme.contains f && !s.pcie.d3.contains f

/-- Records of a ring may be posted: its mode, its function's link, no DMA halt (R343, R345, R366). The halt that SAFE
itself makes leaves PF ring 0 active (R345, log entry 53, DEDUCED). -/
def State.canPost (s : State) (id : Nat) : Bool :=
  ((s.ringsMode && !s.flag F.DMA_STAT_HALT) ||
   (s.mode == .safe && id == s.pfRing0 && (!s.flag F.DMA_STAT_HALT || s.get F.DMA_STAT_CAUSE == 3))) &&
  (match s.ringFunc id with | some f => s.hostUp f | none => false)

/-- The completion ring of a submission ring. -/
def State.cqOf (s : State) (id : Nat) : Nat := s.ringGlobal ((s.ringFunc id).getD 0) (s.ringOf id).ctx.cq

/-- Records that wait on chip: event records, and completions but for those held back (R343). -/
def State.heldRecords (s : State) : Nat :=
  s.rings.foldl (fun a e => a + e.2.out.length) 0 + s.cmdDone.countP fun d => !d.held

/-- A completion of a submission ring finds the on-chip queue full while its record cannot be posted: it holds its command's
completion (R343). -/
def State.doneHeld (s : State) (ring : Nat) : Bool := !s.canPost (s.cqOf ring) && 1024 ≤ s.heldRecords

/-- A ring command ends: its completion waits to be posted (R332). -/
def State.finishCmd (s : State) (ring tag status result : Nat) (info : Nat := 0) : State :=
  { s with cmdDone := s.cmdDone ++ [{ ring := ring, tag := tag, status := status, result := result, info := info,
                                      dt := s.dt, held := s.doneHeld ring }] }

/-- The code of an activity (Table 15-5). -/
def actCode : Activity → Nat
  | .m1 => 1 | .m2 => 2 | .m3 => 3 | .m4 => 4 | .m5 => 5 | .m6 => 6 | .m7 => 7 | .m8 => 8
  | .m9p => 9 | .m10 => 10 | .m9r => 11

/-- The bits (code - 1) of the activities in a list (MC_STAT). -/
def jobBits (l : List Job) : Nat := l.foldl (fun m j => setBit m (actCode j.act - 1) true) 0

/-- MC_STAT shows the activities that run and those that are queued (R400). -/
def State.syncChurn (s : State) : State :=
  (s.put F.MC_STAT_RUNNING (jobBits s.churnRun)).put F.MC_STAT_QUEUED (jobBits s.churnQueue)

/-- An activity of the Churn ends, or its request is withdrawn (R394). -/
def State.churnDone (s : State) (a : Activity) (res : Nat) : State :=
  let keep := fun (j : Job) => !(j.act == a && j.res == res)
  ({ s with churnRun := s.churnRun.filter keep, churnQueue := s.churnQueue.filter keep } : State).syncChurn

/-- Activities leave the Churn because their work has ceased. -/
def State.churnDrop (s : State) (gone : Job → Bool) : State :=
  ({ s with churnRun := s.churnRun.filter fun j => !gone j, churnQueue := s.churnQueue.filter fun j => !gone j } : State).syncChurn

/-- An activity runs on a resource. -/
def State.churnRuns (s : State) (a : Activity) (res : Nat) : Bool := s.churnRun.any fun j => j.act == a && j.res == res

/-! ### The Churn (R392 to R397) -/

/-- Resources: a converter 16h + n for M1, a bank for M2, a head for M3 and M4, 3h + kind (leaf, residual, radiometric
set) for M5, a block for M6 and M7, a block or 16 + channel for M8, a slot ring for M9, a sensor for M10 (Table 15-5). -/
def sameResource (a : Activity) (ra : Nat) (b : Activity) (rb : Nat) : Bool :=
  if a == b then ra == rb else
  match a, b with
  | .m1, .m2 => ra / 32 == rb
  | .m2, .m1 => rb / 32 == ra
  | .m3, .m5 => rb / 3 == ra && rb % 3 != 2
  | .m5, .m3 => ra / 3 == rb && ra % 3 != 2
  | _, _ => ra == rb

/-- The pairs marked W in Table 15-6. -/
def waitPair (a b : Activity) : Bool :=
  match a, b with
  | .m1, .m2 | .m2, .m1 | .m3, .m4 | .m4, .m3 | .m3, .m5 | .m5, .m3
  | .m6, .m7 | .m7, .m6 | .m9p, .m9r | .m9r, .m9p => true
  | _, _ => false

/-- The Churn's answer to a request. -/
inductive ChurnAnswer where
  | granted | queued | merged | ignored | refused
  deriving DecidableEq, Repr

/-- What happens to a request for an activity that already runs or is queued on the resource (R396). -/
def sameAnswer : Activity → ChurnAnswer
  | .m2 => .ignored
  | .m4 | .m5 | .m6 => .refused
  | _ => .merged

/-- The resource number MC_LAST shows. -/
def lastResource (a : Activity) (res : Nat) : Nat := if a == .m5 then res / 3 else res

/-- A refusal updates MC_LAST and MC_CNT.REFUSED (R397). -/
def State.churnRefuse (s : State) (a : Activity) (res blocker : Nat) : State :=
  (((s.put F.MC_LAST_ACT (actCode a)).put F.MC_LAST_BLOCKER blocker).put F.MC_LAST_RESOURCE (lastResource a res)).bump
    F.MC_CNT_REFUSED

/-- A request at DT `t` (R393 to R396): merged, ignored or refused when the same activity holds the resource; queued, or
refused when the requester cannot wait, behind a running activity it conflicts with; granted otherwise. -/
def State.churnAsk (s : State) (a : Activity) (res : Nat) (canWait : Bool) (t : Nat) : ChurnAnswer × State :=
  if (s.churnRun ++ s.churnQueue).any fun j => j.act == a && j.res == res then
    match sameAnswer a with
    | .refused => (.refused, s.churnRefuse a res (actCode a))
    | x => (x, s)
  else
    match s.churnRun.find? fun j => waitPair j.act a && sameResource j.act j.res a res with
    | some j =>
      if canWait then
        let s : State := { s with churnQueue := s.churnQueue ++ [{ act := a, res := res, since := t }] }
        (.queued, (s.bump F.MC_CNT_QUEUED).syncChurn)
      else (.refused, s.churnRefuse a res (actCode j.act))
    | none =>
      let s : State := { s with churnRun := s.churnRun ++ [{ act := a, res := res, since := t }] }
      (.granted, s.syncChurn)

/-! ### Sample clocks -/

/-- The region of a head (Table 0-4). -/
def regionOf (h : Nat) : Nat := h / 2

/-- The sample frequency of a region in Hz (R86). -/
def State.fHz (s : State) (r : Nat) : Nat := s.get (F.TC_SCLK_FREQ r) * 10000

/-- The time `n` sample clocks of region `r` take, in ns, rounded down. -/
def State.cyc (s : State) (r n : Nat) : Nat := if s.fHz r = 0 then 0 else n * 1000000000 / s.fHz r

/-- Sample cycles per line S (R48). -/
def Profile.s (p : Profile) : Nat := ceilDiv (p.width + p.blindl + p.blindr) (max p.taps 1)
/-- Line period P (R108). -/
def Profile.p (p : Profile) : Nat := p.s + p.hblank
/-- Transmitted lines L (R108). -/
def Profile.l (p : Profile) : Nat := p.reftop + p.height + p.refbot
/-- Columns of a line (R45). -/
def Profile.cols (p : Profile) : Nat := p.blindl + p.width + p.blindr
/-- The minimum frame time Tmin in HPCK cycles (R108). -/
def Profile.tmin (p : Profile) : Nat := p.pixdly + (p.l - 1) * p.p + p.s + p.vblankMin * p.p

/-- The profile of a head, or the empty profile of a head that has none. -/
def State.prof (s : State) (h : Nat) : Profile := (s.head h).profile.getD {}

/-- FPER lies in the range R108 gives for the head. -/
def State.fperValid (s : State) (h : Nat) : Bool :=
  let f := s.fHz (regionOf h)
  let fper := s.get (F.HP_FPER_FPER h)
  f != 0 && max (s.prof h).tmin (ceilDiv f 240) ≤ fper && fper ≤ f

/-- HP_TSTAT.FPER_BAD: set for a head commanded to stream whose FPER is out of range, until a valid FPER is in force
(R108). -/
def State.fperNote (s : State) (h : Nat) : State :=
  if s.fperValid h then s.put (F.HP_TSTAT_FPER_BAD h) 0
  else if s.inRun && bit (s.get F.SYS_STREAM_HEADS) h then s.put (F.HP_TSTAT_FPER_BAD h) 1
  else s

/-! ### LIVE (R371) -/

/-- A unit is retired: its bit of FC_RET (R380). -/
def State.isRetired (s : State) (src : Nat) : Bool := bit (s.get64 F.FC_RET_LO_RET F.FC_RET_HI_RET) src

/-- The region of a bank flag, read at its even head. -/
def State.bankFlag (s : State) (r : Nat) (f : Nat → Fld) : Bool := s.flag (f (2 * r))

/-- The position the inputs show (R58): 1 CLOSED, 2 OPEN, 3 both, 0 neither. -/
def shutInputs (p : Profile) (p0 p1 : Bool) : Nat :=
  (if p.posClosed && (p0 != p.posLow) then 1 else 0) + (if p.posOpen && (p1 != p.posLow) then 2 else 0)

/-- The HP_FLT conditions that are present now: their bits do not clear (R73; log entry 70). -/
def State.fltPresent (s : State) (h : Nat) : Nat :=
  let code := s.get (F.HK_RES_CODE (88 + h))
  let held := s.flag (F.HP_STAT_THM_HELD h)
  let u := s.head h
  let on := fun (b : Bool) (i : Nat) => if b then 2 ^ i else 0
  on (s.get (F.HP_STAT_HSUP h) == 3) 2 + on (s.reg (R.HP_TAPFLT h) != 0) 3 + on (held && 4090 ≤ code) 4 +
    on (held && code ≤ 5) 5 + on (shutInputs (s.prof h) u.p0 u.p1 == 3) 8

/-- LIVE of a source: a condition that raised a report of it is still present, or the unit is retired (R371; log entry
54). -/
def State.liveOf (s : State) (src : Nat) : Bool :=
  s.isRetired src ||
  (if 16 ≤ src ∧ src < 20 then s.bankFlag (src - 16) F.TC_STAT_REF_FALLBACK
  else if 20 ≤ src ∧ src < 28 then s.get (F.HP_TSTAT_LIVE (src - 20)) != 0 || s.fltPresent (src - 20) != 0
  else if src = 44 then !s.flag F.Q_STAT_LINKUP && !s.pcie.reported
  else if src = 45 then s.flag F.DMA_STAT_HALT && s.get F.DMA_STAT_CAUSE != 3
  else if src = 46 then !s.uplinkDown.isEmpty || !s.chipDown.isEmpty
  else if src = 48 then s.flag F.TC_BG_DISAGREE
  else if src = 49 then s.flag F.TH_STAT_WARN || s.flag F.TH_STAT_THROT || s.flag F.TH_STAT_SHUT || !s.hk.failed.isEmpty
  else if src = 50 then s.flag F.TRG_STAT_UPLOSS || (List.range 4).any fun n => s.flag (F.TRG_TRIGSTAT_LIVE n)
  else if src = 53 then s.refStopped || (s.inRun && (List.range 4).any fun r => !s.bankFlag r F.TC_STAT_SCLK_LOCK)
  else if src = 54 then !s.power.failing.isEmpty
  else false)

end Sys2Proof.Machine
end

