-- ==== Sys2Proof/Machine/Nvm.lean ====
section
/-! DEFINITION. The non-volatile store (chapter 17) and the event log it holds (R389 to R391): page map, log records,
slot rings, software page writes. -/

namespace Sys2Proof.Machine

/-! ### The page map -/

/-- The page an access to page `p` reaches (R442): a page whose spare has failed in turn has one entry for itself and a later one
for that spare. -/
def State.nvPage (s : State) (p : Nat) : Nat := s.nv.relocs.foldl (fun p e => if e.1 == p then e.2 else p) p

/-- The page whose content page `q` holds. -/
def State.nvOwner (s : State) (q : Nat) : Nat := s.nv.relocs.foldr (fun e q => if e.2 == q then e.1 else q) q

/-- The NVM address an access to `a` reaches through the page map (R442). -/
def State.nvAddr (s : State) (a : Nat) : Nat := 256 * s.nvPage (a / 256) + a % 256

/-- Read `n` bytes through the page map. -/
def State.nvLoad (s : State) (a n : Nat) : List Byte := (List.range n).map fun i => s.nvmByte (s.nvAddr (a + i))

/-- Write bytes through the page map, in ascending address order (R433). -/
def State.nvStore (s : State) : Nat → List Byte → State
  | _, [] => s
  | a, b :: bs => (s.nvmWrite (s.nvAddr a) [b]).nvStore (a + 1) bs

/-- The write interlock holds (R436). -/
def State.nvLocked (s : State) : Bool := s.flag F.NV_STAT_ILK_TEMP || s.flag F.NV_STAT_ILK_SAG

/-- Powered seconds (Table 17-2, BOOT w1). -/
def State.nvSeconds (s : State) : Nat := s.nv.secsBase + s.dt / 1000000000

/-! ### Writes that take time (R433 to R435) -/

/-- Words of a device write. -/
def NvRun.words (r : NvRun) : Nat := (r.first + r.old.length + 7) / 8
/-- DT at which a device write ends: 62.5 ns for each word. -/
def NvRun.ends (r : NvRun) : Nat := r.start + (125 * r.words + 1) / 2
/-- The bytes of a device write not known to be written. -/
def NvRun.rest (r : NvRun) : List (Nat × Byte) := r.old.drop (8 * r.done - r.first)
/-- The words written by DT `t` count as done. -/
def NvRun.upTo (t : Nat) (r : NvRun) : NvRun := { r with done := max r.done (min r.words (2 * (t - r.start) / 125)) }

/-- Device writes that have not ended by now. -/
def State.nvRuns (s : State) : List NvRun := s.nv.run.filter fun r => s.dt < r.ends

/-- A device write starts once those before it have ended; the store takes its bytes. -/
def State.nvDevice (s : State) (a : Nat) (bs : List Byte) : State :=
  let l := s.nvRuns
  let r : NvRun := { first := a % 8, start := l.foldl (fun t r => max t r.ends) s.dt
                     old := (List.range bs.length).map fun i => let m := s.nvAddr (a + i); (m, s.nvmByte m) }
  let s := s.nvStore a bs
  { s with nv := { s.nv with run := l ++ [r] } }

/-- `k` more words of device writes are done, in their order. -/
def takeWords : Nat → List NvRun → List NvRun
  | _, [] => []
  | k, r :: rs => if r.done + k < r.words then { r with done := r.done + k } :: rs else takeWords (k - (r.words - r.done)) rs

/-- Device writes go on by a free number of words beyond those that DT shows to be written. -/
def State.nvOn (s : State) : State :=
  let l := s.nvRuns.map (NvRun.upTo s.dt)
  if l.isEmpty then { s with nv := { s.nv with run := [] } }
  else
    let (k, s) := s.freshUpTo (l.foldl (fun n r => n + (r.words - r.done)) 0)
    { s with nv := { s.nv with run := takeWords k l } }

/-- What a reader of the store finds at an NVM address: the old byte where a device write has not reached it. -/
def State.nvSeen (s : State) (a : Nat) : Byte :=
  (s.nv.run.findSome? fun r => (r.rest.find? fun e => e.1 == a).map (·.2)).getD (s.nvmByte a)

/-- Power fails or the device resets while device writes run: a free number of words more is written, later ones keep their old
content (R435). -/
def State.nvCut (s : State) : State :=
  let s := s.nvOn
  let l := s.nv.run
  let s := (l.flatMap NvRun.rest).reverse.foldl (fun s e => s.nvmWrite e.1 [e.2]) s
  { s with nv := { s.nv with run := [] } }

/-! ### The event log (R389 to R391) -/

/-- What one event-log record says beside its sequence number, DT, TAI, boot count and mode (Tables 15-3 and 15-4). -/
structure LogRec where
  type : Nat
  source : Nat := 0xFF
  cls : Nat := 0xFF
  flags : Nat := 0
  detail : Nat := 0
  depcnt : Nat := 0
  cecnt : Nat := 0
  info : List Byte := []
  mode : Option Mode := none
  /-- A forced report, whose LIVE is 0 (R378). -/
  forced : Bool := false
  deriving DecidableEq, Repr

/-- The 64 bytes of a record with sequence number `seq` at DT `t` (Table 15-3). -/
def State.logBytes (s : State) (seq t : Nat) (r : LogRec) : List Byte :=
  let body := leBytes 4 seq ++ leBytes 1 r.type ++ leBytes 1 r.source ++ leBytes 1 r.cls ++ leBytes 1 r.flags ++
    leBytes 8 t ++ leBytes 8 (s.taiWord t) ++ leBytes 4 s.nv.boots ++
    leBytes 1 ((r.mode.getD s.mode).code) ++ leBytes 3 0 ++ leBytes 4 r.detail ++ leBytes 4 r.depcnt ++ leBytes 4 r.cecnt ++
    (r.info ++ List.replicate (16 - r.info.length) 0)
  body ++ leBytes 4 (crc32c body)

/-- Write the record bytes at the place their sequence number names (R389). -/
def State.logPlace (s : State) (bs : List Byte) : State :=
  s.nvDevice (0x1C0000 + 64 * (leAt bs 0 4 % 16384)) bs

/-- A record's source stands as it does at recording: CECNT and the LIVE flag (Table 15-3). -/
def State.logFill (s : State) (r : LogRec) : LogRec :=
  if 64 ≤ r.source then r
  else { r with cecnt := s.get (F.FC_SRC_CECNT r.source), flags := r.flags ||| 4 * (!r.forced && s.liveOf r.source).toNat }

/-- A record's write starts; the interlock stages it, and a full staging buffer loses it (R389, R391). Records staged earlier are
written first, so a record follows them into staging. -/
def State.logStart (s : State) (bs : List Byte) : State :=
  if s.nvLocked || !s.nv.staged.isEmpty then
    if s.nv.staged.length < 1024 then { s with nv := { s.nv with staged := s.nv.staged ++ [bs] } }.bump F.FC_LOGLOST_STAGED
    else s.bump F.FC_LOGLOST_LOST
  else s.logPlace bs

/-- A device write arrives while a software write runs or waits: it starts after it (R434). -/
def State.nvWait (s : State) (w : NvWork) : State := { s with nv := { s.nv with wait := s.nv.wait ++ [w] } }

/-- The collector writes one record stamped `t`. One that finds the staging buffer full takes no sequence number. -/
def State.logAt (s : State) (t : Nat) (r : LogRec) : State :=
  let seq := s.get F.FC_LOGSEQ_SEQ
  let bs := s.logBytes seq t (s.logFill r)
  let full := (s.nvLocked || !s.nv.staged.isEmpty) && 1024 ≤ s.nv.staged.length
  if s.nv.wr.isSome then (s.nvWait (.record bs)).put F.FC_LOGSEQ_SEQ (seq + 1)
  else if full then s.logStart bs
  else (s.logStart bs).put F.FC_LOGSEQ_SEQ (seq + 1)

/-- A record at the present DT. -/
def State.log (s : State) (r : LogRec) : State := s.logAt s.dt r

/-- A record the power-fail sequence writes whatever the interlock says (R438). -/
def State.logForce (s : State) (r : LogRec) : State :=
  let seq := s.get F.FC_LOGSEQ_SEQ
  (s.logPlace (s.logBytes seq s.dt (s.logFill r))).put F.FC_LOGSEQ_SEQ (seq + 1)

/-- Write every staged record in order (R437). -/
def State.logFlush (s : State) : State :=
  let s' := s.nv.staged.foldl State.logPlace s
  { s' with nv := { s'.nv with staged := [] } }.put F.FC_LOGLOST_STAGED 0

/-- A UNIT record: a unit logs an event that raises no fault (R55, Table 15-4). -/
def State.logUnit (s : State) (source detail word : Nat) : State :=
  s.log { type := 4, source := source, detail := detail, info := leBytes 4 word }

/-! ### Slot rings (R439 to R441) -/

/-- The ring's 1 s window is open (R441). -/
def State.winOpen (s : State) (n : Nat) : Bool := s.nv.win.any fun w => w.1 == n && s.dt < w.2 + 1000000000

/-- A ring's values change: SLOT_PERSIST writes it. A change in the ring's window marks it dirty, and it is persisted at the window's
end (R441). -/
def State.persist (s : State) (n : Nat) : State :=
  if s.winOpen n then s.putBit F.NV_DIRTY_RING n true
  else if s.nv.req.contains n then s
  else { s with nv := { s.nv with req := s.nv.req ++ [n] } }

/-- The value bytes of a ring's next slot: the present values of the registers Table 17-2 names. -/
def State.ringValues (s : State) (n : Nat) : List Byte :=
  if n = 0 then s.nv.relocs.flatMap fun e => leBytes 2 e.1 ++ leBytes 2 e.2 ++ leBytes 4 0
  else if n = 1 then leBytes 8 s.nv.boots ++ leBytes 8 s.nvSeconds
  else if n = 2 then
    leBytes 8 (s.get64 F.FC_RET_LO_RET F.FC_RET_HI_RET) ++
    ((List.range 16).flatMap fun b => leBytes 2 (s.get (F.EN_BSTAT_STATE b))) ++
    ((List.range 16).flatMap fun b => leBytes 2 (s.get (F.EN_BCNT_RETIRED b)))
  else if n = 3 then leBytes 8 (s.get F.EN_MCMIN_SVN)
  else if n ≤ 11 then
    let h := n - 4
    leBytes 4 (s.get (F.CX_SOK_COUNT h)) ++ leBytes 4 (s.get (F.CX_SFAIL_COUNT h)) ++
    leBytes 8 (s.get64 (F.CX_SLDT_LO_DT h) (F.CX_SLDT_HI_DT h)) ++ leBytes 8 (s.get (F.CX_SLTAI_TAI h))
  else if n ≤ 19 then
    let r := n - 16
    ((List.range 2).flatMap fun e => (List.range 16).flatMap fun c => (List.range 12).flatMap fun w =>
      leBytes 2 (s.get (F.TC_FACT_FACTOR (2 * r + e) (16 * c + w)))) ++
    leBytes 4 (s.get (F.TC_CALOK_COUNT r)) ++ leBytes 4 (s.get (F.TC_CALFAIL_COUNT r)) ++
    leBytes 8 (s.get64 (F.TC_CALDT_LO_DT_LO r) (F.TC_CALDT_HI_DT_HI r)) ++ leBytes 8 (s.get (F.TC_CALTAI_TAI r))
  else s.image

/-- The bytes of a whole slot (Table 17-3). -/
def slotBytes (size n seq : Nat) (vals : List Byte) : List Byte :=
  let body := (vals ++ List.replicate (size - 16 - vals.length) 0) ++ leBytes 8 seq
  body ++ leBytes 4 (crc32c body) ++ leBytes 2 n ++ leBytes 2 0

/-- The slots still in a ring. -/
def State.ringSlots (s : State) (n : Nat) : List Nat :=
  match nvRing n with
  | some (k, _, _) => (List.range k).filter fun j => !s.nv.dropped.contains (n, j)
  | none => []

/-- The slot the next persist writes: the one after the current slot, cyclically (R441). -/
def State.nextSlot (s : State) (n : Nat) : Option (Nat × Nat) :=
  let l := s.ringSlots n
  match s.nv.cur.getD n none with
  | none => l.head?.map fun j => (j, 1)
  | some (j, seq) => ((l.filter fun i => j < i) ++ l).head?.map fun i => (i, seq + 1)

/-- Write the next slot of a ring now, whatever the interlock says: its window of 1 s begins. -/
def State.slotWrite (s : State) (n : Nat) : State :=
  match nvRing n, s.nextSlot n with
  | some (_, size, base), some (j, seq) =>
    let s' := s.nvDevice (base + size * j) (slotBytes size n seq (s.ringValues n))
    ({ s' with nv := { s'.nv with
        cur := s'.nv.cur.set n (some (j, seq)), req := s'.nv.req.filter (· != n)
        win := (s'.nv.win.filter fun (w : Nat × Nat) => w.1 != n) ++ [(n, s.dt)] } }).putBit F.NV_DIRTY_RING n false
  | _, _ => s

/-- A ring left with fewer than 2 slots refuses persists (R442). -/
def State.ringDead (s : State) (n : Nat) : Bool := (s.ringSlots n).length < 2

/-- A persist of ring `n` starts (R437, R441): once a window, refused by the interlock (the ring is dirty). -/
def State.persistNow (s : State) (n : Nat) : State :=
  let s := { s with nv := { s.nv with req := s.nv.req.filter (· != n) } }
  if s.winOpen n || s.nvLocked || s.ringDead n then s.putBit F.NV_DIRTY_RING n true else s.slotWrite n

/-- M9 persist of a ring holds its grant (R393): it starts behind a software write (R434), and ends. -/
def State.persistRun (s : State) (n : Nat) : State :=
  if s.nv.wr.isSome then s.nvWait (.slot n) else (s.persistNow n).churnDone .m9p n

/-- The persist of a ring asks for M9 persist, and starts when it is granted; behind a relocation of the ring it waits (R395,
R441). -/
def State.persistAsk (s : State) (n : Nat) : State :=
  if s.nv.wait.contains (.slot n) then s
  else if s.churnRuns .m9p n then s.persistRun n
  else match s.churnAsk .m9p n true s.dt with
    | (.granted, s) => s.persistRun n
    | (_, s) => { s with nv := { s.nv with req := (s.nv.req.filter (· != n)) ++ [n] } }

/-! ### Relocation (R442) -/

/-- The ring that owns an NVM page, and the slot the page lies in. -/
def pageSlot (page : Nat) : Option (Nat × Nat) :=
  (List.range 21).findSome? fun n => match nvRing n with
    | some (k, size, base) =>
      if base ≤ 256 * page ∧ 256 * page < base + k * size then some (n, (256 * page - base) / size) else none
    | none => none

/-- The lowest free spare page (0x14_F000 to 0x1B_FFFF, R439). -/
def State.sparePage (s : State) : Option Nat :=
  ((List.range 1808).map (· + 0x14F0)).find? fun q => !s.nv.relocs.any fun e => e.2 == q

/-- The resource of M9 relocation for a page: its slot ring; RMAP for a page of the log (log entry 185). -/
def pageRing (page : Nat) : Nat := match pageSlot page with | some (n, _) => n | none => 0

/-- The device writes the page: it holds a slot of a ring or log records. -/
def devicePage (page : Nat) : Bool := (pageSlot page).isSome || (0x1C00 ≤ page && page < 0x2C00)

/-- What lies on a page that is not relocated is lost: the slot leaves its ring, or a record is counted. -/
def State.pageDrop (s : State) (page : Nat) : State :=
  match pageSlot page with
  | some (n, j) =>
    let s := { s with nv := { s.nv with dropped := s.nv.dropped ++ [(n, j)] } }
    if s.ringDead n then s.putBit F.NV_DIRTY_RING n true else s
  | none => s.bump F.FC_LOGLOST_LOST

/-- A page is moved to a spare page, or dropped: a page of RMAP itself, and one for which no entry or spare page is left. -/
def State.relocate (s : State) (page : Nat) : State :=
  if (pageSlot page).any fun e => e.1 == 0 then s.pageDrop page
  else
    let lost := fun (s : State) => (s.pageDrop page).raise 47 .uc (detailWord 0xFF 0xFF 0x020)
    match s.sparePage with
    | none => lost s
    | some q =>
      if 126 ≤ s.nv.relocs.length then lost s
      else
        let bytes := (List.range 256).map fun i => s.nvmByte (s.nvAddr (256 * page + i))
        let s : State := { s with nv := { s.nv with relocs := s.nv.relocs ++ [(s.nvPage page, q)] } }
        let s := s.nvDevice (256 * page) bytes
        let s := (s.bump F.NV_CNT_RELOC).put F.NV_SPARE_LEFT (126 - s.nv.relocs.length)
        (s.persist 0).raise 47 .ce (detailWord 0xFF 0xFF 0x01C)

/-- A relocation starts: the interlock keeps it waiting (R437). -/
def State.relocStart (s : State) (page : Nat) : State :=
  if s.nvLocked then
    { s.churnDone .m9r (pageRing page) with nv := { s.nv with relocWait := (s.nv.relocWait.filter (· != page)) ++ [page] } }
  else (s.relocate page).churnDone .m9r (pageRing page)

/-- M9 relocation of a page holds its grant: it starts behind a software write (R434). -/
def State.relocRun (s : State) (page : Nat) : State :=
  if s.nv.wr.isSome then s.nvWait (.reloc page) else s.relocStart page

/-- A relocation asks for M9 relocation of the page's ring; behind a persist of that ring it is queued (R395). -/
def State.relocAsk (s : State) (page : Nat) : State :=
  if s.nv.wait.contains (.reloc page) then s
  else if s.churnRuns .m9r (pageRing page) then s.relocRun page
  else match s.churnAsk .m9r (pageRing page) true s.dt with
    | (.granted, s) => s.relocRun page
    | (_, s) => s

/-! ### The software write (R431 to R434) -/

/-- The device writes that waited for a software write start, in arrival order. -/
def State.nvGoOn (s : State) : State :=
  let l := s.nv.wait
  l.foldl (fun s w => match w with
    | .record bs => s.logStart bs
    | .slot n => (s.persistNow n).churnDone .m9p n
    | .reloc p => s.relocStart p) { s with nv := { s.nv with wait := [] } }

/-- The software write ends with a result. -/
def State.nvEnd (s : State) (res : Nat) : State :=
  (({ s with nv := { s.nv with wr := none } } : State).put F.NV_STAT_BUSY 0).put F.NV_STAT_RESULT res

/-- A software write that waited starts: the interlock is checked here (R436). -/
def State.nvBegin (s : State) : State :=
  match s.nv.wr with
  | none => s
  | some w =>
    if !w.waits then s
    else if s.nvLocked then (s.nvEnd 3).nvGoOn
    else { s with nv := { s.nv with wr := some { w with waits := false } } }

/-- A software write that waits starts once the device writes before it have ended. -/
def State.nvTurn (s : State) : State := if s.nvRuns.isEmpty then s.nvBegin else s

/-- Words of a software write. -/
def NvWrite.words (w : NvWrite) : Nat := (w.addr % 8 + w.bytes.length + 7) / 8

/-- The software write that runs goes on by a free number of words (R433). -/
def State.nvStep (s : State) : State :=
  match s.nv.wr with
  | none => s
  | some w =>
    if w.waits then s
    else
      let (k, s) := s.freshUpTo (w.words - w.done)
      let w := { w with done := w.done + k }
      let s := s.nvStore w.addr (w.bytes.take (8 * w.done - w.addr % 8))
      { s with nv := { s.nv with wr := some w } }

/-- A 32-bit word read through the window (R430): a word that a write has not reached reads old. An uncorrectable word reads as its
stored bits, which are not those that were written: a free value. -/
def State.nvWindow (s : State) (a : Nat) (err : WordCheck) : State × Word :=
  let s := s.nvTurn.nvOn.nvStep
  let w : Word := BitVec.ofNat 32 (leNat ((List.range 4).map fun i => s.nvSeen (s.nvAddr (a / 4 * 4 + i))))
  match err with
  | .ok => (s, w)
  | .single => (s.bump F.NV_CNT_SECC, w)
  | .uncorrectable =>
    let (v, s) := s.freshUpTo 0xFFFFFFFF
    ((s.put F.NV_STAT_RDERR 1).raise 47 .uc (detailWord 0xFF 25 0x008), BitVec.ofNat 32 v)

/-- The NVM address of byte `off` of the window. -/
def State.windowAddr (s : State) (off : Nat) : Nat := s.get F.NV_WIN_WIN * 32768 + off % 32768

/-! ### Commands -/

/-- NV_CMD.WRITE (R431, R432, R436). -/
def nvWrite (s : State) : State :=
  s.whenever (s.access R.NV_CMD) fun s =>
    if s.flag F.NV_STAT_BUSY then s.put F.NV_STAT_CMDREJ 1
    else
      let a := s.get F.NV_WADDR_ADDR
      let len := s.get F.NV_WLEN_LEN
      let room := 256 - a % 256
      let s := s.put F.NV_STAT_TRUNC 0
      if a < 0x2C0000 then (s.put F.NV_STAT_PROT_WR 1).put F.NV_STAT_RESULT 2
      else
        let waits := !s.nvRuns.isEmpty
        if s.nvLocked && !waits then s.put F.NV_STAT_RESULT 3
        else
          let buf := (List.range 64).flatMap fun i => leBytes 4 (s.get (F.NV_WBUF_DATA i))
          let s := s.putB F.NV_STAT_TRUNC (room < len)
          { s with nv := { s.nv with wr := some { addr := a, bytes := buf.take (min len room), waits := waits } } }.put
            F.NV_STAT_BUSY 1

/-- The page write ends (R433): its bytes stand in the store, and a failed read-back is a VERIFY with a CE. Device writes that
arrived meanwhile start (R434). -/
def nvPageWriteDone (verifyOk : Bool) (s : State) : State :=
  let s := s.nvBegin
  match s.nv.wr with
  | none => s
  | some w =>
    let s := s.nvStore w.addr w.bytes
    (if verifyOk then s.nvEnd 1 else (s.nvEnd 5).raise 47 .ce (detailWord 0xFF 20 0x008)).nvGoOn

/-- The power-fail sequence pre-empts the software write after the current word (R434): a free number of words more is written, none
of a write that still waits. -/
def State.nvAbort (s : State) : State :=
  if s.nv.wr.isSome then (s.nvStep.nvEnd 4).nvGoOn else s

/-- A read of byte offset `off` of the NVM window (R430): the word read is the port's last read. -/
def nvWindowRead (p : Port) (off : Nat) (err : WordCheck) (s : State) : State :=
  s.whenever (s.access 0x38000) fun s =>
    let (s, w) := s.nvWindow (s.windowAddr off) err
    { s with lastRead := (p, w) }

/-- The interlock clears (R437): staged records first, then the dirty rings in ascending ID, a waiting INSTALL among them, then the
relocations that waited. -/
def nvInterlockClear (t : Nat) (s : State) : State :=
  s.whenever (s.up && !s.nvLocked) fun s =>
    let s := (s.at t).logFlush
    let s := s.forEach 21 (fun n => bit (s.get F.NV_DIRTY_RING) n) fun n s => s.persistAsk n
    let l := s.nv.relocWait
    l.foldl (fun s p => s.relocAsk p) { s with nv := { s.nv with install := false, relocWait := [] } }

/-- M9 persist of a requested ring (R441). -/
def slotPersist (n : Fin 21) (t : Nat) (s : State) : State :=
  s.whenever (s.up && s.nv.req.contains n.val) fun s => (s.at t).persistAsk n

/-- The ring's 1 s window ends: a dirty ring is persisted with the values then current (R441). -/
def persistWindowEnd (n : Fin 21) (t : Nat) (s : State) : State :=
  match s.nv.win.find? fun w => w.1 == n.val with
  | none => s
  | some w =>
    s.whenever (s.up && w.2 + 1000000000 ≤ t) fun s =>
      let s := ({ s with nv := { s.nv with win := s.nv.win.filter fun w => w.1 != n.val } }).at t
      if bit (s.get F.NV_DIRTY_RING) n then s.persistAsk n else s

/-- Every 3,600 s of powered time the BOOT ring is persisted (R441). -/
def bootHourlyPersist (t : Nat) (s : State) : State :=
  s.whenever (s.up && s.nv.lastHour + 3600000000000 ≤ t) fun s =>
    let s := s.at t
    let s := { s with nv := { s.nv with lastHour := s.nv.lastHour + 3600000000000 } }
    s.persistAsk 1

/-- A page whose word failed the read-back twice, named by itself or by the spare page it stands on, is moved, or dropped when no
entry or spare page is left (R442). -/
def nvRelocation (page : Nat) (s : State) : State :=
  s.whenever (s.up && devicePage (s.nvOwner page)) fun s => s.relocAsk (s.nvOwner page)

/-- NV_CTRL.CLRCNT (R445). -/
def nvClrcnt (s : State) : State := s.whenever (s.access R.NV_CTRL) fun s => s.put F.NV_CNT_SECC 0

/-! ### Meanings -/

/-- `NV_WRITE`. -/
def execNvWrite (s : State) : Result := .next (nvWrite s)
/-- `NV_PAGE_WRITE_DONE`. -/
def execNvPageWriteDone (ok : Bool) (s : State) : Result := .next (nvPageWriteDone ok s)
/-- `NV_WINDOW_READ`. -/
def execNvWindowRead (p : Port) (off : Nat) (e : WordCheck) (s : State) : Result := .next (nvWindowRead p off e s)
/-- `NV_INTERLOCK_CLEAR`. -/
def execNvInterlockClear (t : Nat) (s : State) : Result := .next (nvInterlockClear t s)
/-- `SLOT_PERSIST`. -/
def execSlotPersist (n : Fin 21) (t : Nat) (s : State) : Result := .next (slotPersist n t s)
/-- `PERSIST_WINDOW_END`. -/
def execPersistWindowEnd (n : Fin 21) (t : Nat) (s : State) : Result := .next (persistWindowEnd n t s)
/-- `BOOT_HOURLY_PERSIST`. -/
def execBootHourlyPersist (t : Nat) (s : State) : Result := .next (bootHourlyPersist t s)
/-- `NV_RELOCATION`. -/
def execNvRelocation (page : Nat) (s : State) : Result := .next (nvRelocation page s)
/-- `NV_CLRCNT`. -/
def execNvClrcnt (s : State) : Result := .next (nvClrcnt s)

end Sys2Proof.Machine
end

