-- ==== Sys2Proof/Machine/HeadOps.lean ====
section
/-! DEFINITION. The shared operations of a head port (chapter 2): profile, bias, supply, shutter bridge, and the end of
a shutter event (R199, R200), which the port's own faults can cause. -/

namespace Sys2Proof.Machine

/-! ### Faults of a port -/

/-- Raise a port fault and set its HP_FLT bit (R70, Table 2-7). -/
def State.portFault (s : State) (h : Nat) (f : Fld) (cls : FaultClass) : State :=
  (s.put f 1).raise (20 + h) cls (detailWord 0xFF f.lo 0x00C)

/-- The causes that hold a head (R39, R55, R70, R87, R154, R382). -/
def State.headHeld (s : State) (h : Nat) : Bool :=
  let u := s.head h
  u.portHeld || u.heldSclk || u.heldChan || u.retired || bit (s.get F.SYS_PLAN_HELD_HELD) h

/-- HP_STAT.HELD shows whether a cause holds the head. -/
def State.syncHeld (s : State) (h : Nat) : State := s.putB (F.HP_STAT_HELD h) (s.headHeld h)

/-! ### Profile validation (R43 to R47) -/

/-- The 4,096 bytes of the staging window. -/
def State.profImage (s : State) (h : Nat) : List Byte :=
  (List.range 1024).flatMap fun k => leBytes 4 (s.reg (R.HP_PROF h k)).toNat

/-- The columns the taps in use deliver over their S sample cycles (R45), as a bit mask; none when a column is
delivered twice. -/
def tapCover (taps : List TapEntry) (cols s : Nat) : Option Nat :=
  taps.foldl (init := some 0) fun acc t =>
    (List.range s).foldl (init := acc) fun acc k =>
      match acc with
      | none => none
      | some m =>
        let c := t.start + k * t.stride
        if cols ≤ c then some m
        else
          let c := if t.dir = 1 then cols - 1 - c else c
          if m.testBit c then none else some (m + 2 ^ c)

/-- The tap map obeys R45. -/
def tapmapOk (p : Profile) : Bool :=
  let used := p.tapmap.take p.taps
  used.all (fun t => t.start < p.cols && 1 ≤ t.stride && t.stride ≤ 16 && t.dir ≤ 1) &&
  (p.tapmap.drop p.taps).all (fun t => t.start == 0xFFFF) &&
  tapCover used p.cols p.s == some (2 ^ p.cols - 1)

/-- The thermistor points are in strictly increasing resistance order (Table 2-3). -/
def thmOk (p : Profile) : Bool := (p.thm.zip (p.thm.drop 1)).all fun e => e.1.1 < e.2.1

/-- The profile an image describes (Table 2-2). -/
def parseProfile (b : List Byte) : Profile :=
  let u1 := fun o => leAt b o 1
  let u2 := fun o => leAt b o 2
  { taps := u1 0x08, dual := bit (u1 0x09) 0, headTimed := bit (u1 0x09) 1, setlat := u1 0x0A, pixdly := u1 0x0B,
    width := u2 0x0C, height := u2 0x0E, blindl := u1 0x10, blindr := u1 0x11, reftop := u1 0x12, refbot := u1 0x13,
    hblank := u2 0x14, vblankMin := u2 0x16, intStart := u2 0x18, intLen := u2 0x1A, hsupV := u1 0x1C, thmI := u1 0x1D,
    hsupIlim := u2 0x1E, vbiasMin := u2 0x20, vbiasMax := u2 0x22, vskimMin := u2 0x24, vskimMax := u2 0x26,
    biasSlew := u2 0x28,
    tapmap := (List.range 16).map fun n =>
      { start := u2 (0x40 + 4 * n), stride := u1 (0x42 + 4 * n), dir := u1 (0x43 + 4 * n) },
    thm := (List.range 32).map fun n => (leAt b (0x80 + 8 * n) 4, u2 (0x84 + 8 * n)),
    shutType := u1 0x180, posClosed := bit (u1 0x181) 0, posOpen := bit (u1 0x181) 1, posLow := bit (u1 0x181) 2,
    shutPulse := u2 0x182, shutHold := u1 0x184, shutSettle := u1 0x185, shutPostmo := u2 0x186, vshutMin := u2 0x188,
    hcpChains := u1 0x1A0, hcpDivmin := u1 0x1A1, pfxExpect := u1 0x1A2, pfxMask := u1 0x1A3,
    chainLen := ((List.range 8).map fun n => u2 (0x1A4 + 2 * n)).take (u1 0x1A0) }

/-- `a ≤ v ≤ b`. -/
def within (v a b : Nat) : Bool := a ≤ v && v ≤ b

/-- Every field lies in the range of Table 2-2 and every reserved byte is 0 (Table 2-3, BAD_RANGE). -/
def profileRangeOk (b : List Byte) : Bool :=
  let p := parseProfile b
  let zero := fun o n => leAt b o n == 0
  within p.taps 1 (if p.dual then 8 else 16) && leAt b 0x09 1 < 4 && within p.setlat 0 7 &&
  within p.width 1 4096 && within p.height 1 4096 && p.blindl + p.blindr ≤ 64 && p.reftop + p.refbot ≤ 16 &&
  within p.hblank 4 4095 && within p.vblankMin 1 4095 && p.hsupV ≤ 1 && p.thmI ≤ 1 &&
  within p.hsupIlim 50 1000 && p.hsupIlim % 10 == 0 && p.vbiasMin ≤ p.vbiasMax && p.vskimMin ≤ p.vskimMax &&
  1 ≤ p.biasSlew && p.shutType ≤ 2 &&
  (p.shutType == 0 || (within p.shutPulse 1 1000 && within p.shutPostmo 1 2000 && within p.vshutMin 4500 12000)) &&
  (p.shutType != 2 || within p.shutHold 1 100) &&
  p.hcpChains ≤ 8 && within p.hcpDivmin 1 199 && p.chainLen.all (fun l => 1 ≤ l) &&
  zero 0x006 2 && zero 0x02A 22 && zero 0x18A 22 && zero 0x1B4 1612 &&
  (List.range 32).all (fun n => zero (0x86 + 8 * n) 2)

/-- The status code of Table 2-3 for an image: the first failing check in the order of the codes. -/
def profileStatus (b : List Byte) : Nat :=
  if crc32 (b.take 0xFFC) != leAt b 0xFFC 4 then 2
  else if leAt b 0 4 != 0x48465250 || leAt b 4 2 != 1 then 3
  else if !profileRangeOk b then 4
  else if !(tapmapOk (parseProfile b) && thmOk (parseProfile b)) then 5
  else 1

/-- The head has a VALID profile. -/
def State.hasProf (s : State) (h : Nat) : Bool := (s.head h).profile.isSome

/-- A head streams (R407). -/
def State.streams (s : State) (h : Nat) : Bool := s.flag (F.HP_STAT_STREAM h)

/-! ### Gain settings in force (R82) -/

/-- Gain code of entry `n` of a gain register word. -/
def gainCode (w n : Nat) : Nat := w / 16 ^ n % 16

/-- The codes in force for TC8–TC15: TC_GAIN1 in single gain, code(n) + RATIO + 2 in dual gain (R82). -/
def State.gainEff (s : State) (h : Nat) : Nat :=
  if (s.prof h).dual then
    (List.range 8).foldl (fun a n =>
      a + 16 ^ n * ((gainCode (s.get (F.TC_GAIN0_G h)) n + s.get (F.TC_CFG_RATIO h) + 2) % 16)) 0
  else s.get (F.TC_GAIN1_G h)

/-- TC_GEFF1 always shows the codes in force (R82). -/
def State.syncGain (s : State) (h : Nat) : State := s.put (F.TC_GEFF1_E h) (s.gainEff h)

/-! ### Bias DACs (R50 to R52) -/

/-- The limits of both codes: the active profile's, or 0 without one (R51). -/
def State.biasLimits (s : State) (h : Nat) : (Nat × Nat) × (Nat × Nat) :=
  match (s.head h).profile with
  | some p => ((p.vbiasMin, p.vbiasMax), (p.vskimMin, p.vskimMax))
  | none => ((0, 0), (0, 0))

/-- `v` clamped to `lo … hi`. -/
def clampNat (v : Nat) (l : Nat × Nat) : Nat := max l.1 (min v l.2)

/-- Store both codes clamped; a clamp sets BIAS_CLAMP and raises no fault (R51). -/
def State.storeBias (s : State) (h vbias vskim : Nat) : State :=
  let l := s.biasLimits h
  let b := clampNat vbias l.1
  let k := clampNat vskim l.2
  let s := (s.put (F.HP_BIAS_VBIAS h) b).put (F.HP_BIAS_VSKIM h) k
  if b = vbias ∧ k = vskim then s else s.put (F.HP_FLT_BIAS_CLAMP h) 1

/-- The DACs of the port drive their stored codes (R51, R52, R75): otherwise they stand at 0 V. -/
def State.dacDriven (s : State) (h : Nat) : Bool :=
  (s.mode == .setup || s.inRun) && s.flag (F.HP_CTRL_PORT_EN h) && s.flag (F.HP_CTRL_BIAS_EN h) &&
  (s.get (F.HP_STAT_HSUP h) == 2 || s.flag (F.HP_CTRL_EXTSUP h)) && !(s.head h).dacHold && !s.isRetired (20 + h) &&
  !s.testMode

/-- The codes the DAC outputs move to (R51, R52); 0 stands for 0 V. -/
def State.dacOut (s : State) (h : Nat) : Nat × Nat :=
  if s.dacDriven h then (s.get (F.HP_BIAS_VBIAS h), s.get (F.HP_BIAS_VSKIM h)) else (0, 0)

/-! ### Head supply (R53 to R56) -/

/-- HSUP may deliver: HSUP_EN and PORT_EN set, a VALID profile, and a mode in which it takes effect (R54, R75). -/
def State.hsupWanted (s : State) (h : Nat) : Bool :=
  s.flag (F.HP_CTRL_HSUP_EN h) && s.flag (F.HP_CTRL_PORT_EN h) && s.hasProf h && (s.mode == .setup || s.inRun) &&
  !s.isRetired (20 + h) && !s.testMode

/-- Start a soft start: 0 V to HSUP_V in 1 ms (Table 2-4). -/
def State.hsupRamp (s : State) (h : Nat) : State :=
  (s.put (F.HP_STAT_HSUP h) 1).modHead h fun u =>
    { u with rampEnd := s.dt + 1000000, retryAt := none, supStopped := false }

/-- HSUP goes off; a lockout stays (R53). A supply that is switched off is no longer one that has disconnected (log entry 144). -/
def State.hsupOff (s : State) (h : Nat) : State :=
  let s := s.modHead h fun u => { u with retryAt := none }
  if s.get (F.HP_STAT_HSUP h) = 3 then s
  else (s.put (F.HP_STAT_HSUP h) 0).modHead h fun u => { u with supLost := false }

/-- HSUP follows its enables: in SAFE it stays as it was (R54), but for a port that is disabled (Tables 2-8 and 2-10). -/
def State.hsupEval (s : State) (h : Nat) : State :=
  if s.mode = .safe then (if s.flag (F.HP_CTRL_PORT_EN h) then s else s.hsupOff h)
  else if !s.hsupWanted h then s.hsupOff h
  else if s.get (F.HP_STAT_HSUP h) = 0 ∧ !(s.head h).supStopped ∧ (s.head h).retryAt.isNone then s.hsupRamp h
  else s

/-- Both DACs go to 0 V at once and the head goes HELD (R52, R55, R70). -/
def State.portHold (s : State) (h : Nat) : State :=
  (s.modHead h fun u => { u with dacHold := true, portHeld := true, resume := false }).syncHeld h

/-! ### Shutter drive (R57 to R60) -/

/-- Order a drive: it starts with SHUTTER_DRIVE_START, after a running drive has ended (R60). A later order takes the place of
one that still waits (log entry 145). -/
def State.driveOrder (s : State) (h : Nat) (close : Bool) : State :=
  s.modHead h fun u => { u with driveWait := some close }

/-- A coil fault is latched: further drives are refused (R59). -/
def State.coilFault (s : State) (h : Nat) : Bool := s.flag (F.HP_FLT_SHUT_OPEN h) || s.flag (F.HP_FLT_SHUT_SHORT h)

/-- A drive has ended. In SAFE entered on the shutdown threshold or on supply failure, the supply goes off once the
close has finished or timed out (R54). An event in OPENING moves on (Table 7-1). -/
def State.driveEnded (s : State) (h : Nat) : State :=
  let closing := match (s.head h).drive with | some d => d.close | none => false
  let s := s.modHead h fun u => { u with drive := none }
  let s := if closing && s.mode == .safe && (s.head h).supOffAfterClose then
      (s.hsupOff h).modHead h fun u => { u with supOffAfterClose := false } else s
  if !closing && s.get (F.CX_SSTAT_PHASE h) = 5 then
    s.put (F.CX_SSTAT_PHASE h) (if (s.shut h).ended then 0 else 6)
  else s

/-- SHPOS takes a value; CLOSED ends the CLOSING phase of an event (Table 7-1). -/
def State.setShpos (s : State) (h v : Nat) : State :=
  let s := s.put (F.HP_STAT_SHPOS h) v
  let s := if v = 2 then s.modHead h fun u => { u with openLate := false } else s
  if v = 1 ∧ s.get (F.CX_SSTAT_PHASE h) = 2 then s.put (F.CX_SSTAT_PHASE h) 3 else s

/-- The head has a shutter that can be driven (R57, R59); a disabled port drives nothing (Table 2-10). -/
def State.canDrive (s : State) (h : Nat) : Bool :=
  s.flag (F.HP_CTRL_PORT_EN h) && s.flag (F.HP_CTRL_SHUT_EN h) && s.hasProf h && (s.prof h).shutType != 0 && !s.coilFault h &&
  !s.testMode

/-- SAFE closes the shutter, pre-empting an open drive by reversing the bridge (R60). A close that runs, or a held shutter that
stands closed, goes on; an order that waits is dropped. A shutter that cannot be driven is left undriven (R75). -/
def State.shutSafeClose (s : State) (h : Nat) : State :=
  let u := s.head h
  let closing : Bool := match u.drive with | some d => d.close | none => u.bridge == .hold
  let s := s.modHead h fun u => { u with driveWait := none }
  if closing then s
  else
    let can := s.canDrive h
    let s := s.modHead h fun u => { u with drive := none, bridge := .idle }
    if can then s.driveOrder h true else s

/-- The position that the inputs of a head show now. -/
def State.shutSeen (s : State) (h : Nat) : Nat := shutInputs (s.prof h) (s.head h).p0 (s.head h).p1

/-- The position a drive goes to, as SHPOS reads it. -/
def Drive.target (d : Drive) : Nat := if d.close then 1 else 2

/-- The drive of a shutter is at the end of its pulse: without a position input its position is taken as reached; a position
that the inputs already report ends the drive (R58). -/
def State.pulseOver (s : State) (h : Nat) (d : Drive) (b : Bridge) : State :=
  let p := s.prof h
  let s := s.modHead h fun u => { u with drive := some { d with pulseDone := true }, bridge := b }
  if !(p.posClosed || p.posOpen) || s.shutSeen h == d.target then (s.setShpos h d.target).driveEnded h
  else s

/-- The PWM of a held shutter ends and it opens by itself (R57): a drive without a pulse. -/
def State.holdRelease (s : State) (h t : Nat) : State :=
  let d : Drive := { close := false, start := t, pulseEnd := t, deadline := t + (s.prof h).shutPostmo * 1000000 }
  ((s.modHead h fun u => { u with drive := some d }).setShpos h 3).pulseOver h d .idle

/-- SAFE is left, or a retired port is restored: the hold that kept a held shutter closed ends (R60, R382). -/
def State.holdEnd (s : State) (h : Nat) : State :=
  if (s.head h).bridge = .hold ∧ s.mode ≠ .safe ∧ !s.isRetired (20 + h) then s.holdRelease h s.dt else s

/-! ### What the port drives (R48, R49, R75) -/

/-- The clock, line, frame, integration, control-clock and control-data pins of a port. -/
structure HeadPins where
  hpck : Option Bool
  hls : Option Bool
  hfs : Option Bool
  hint : Option Bool
  hck : Option Bool
  hdo : Option Bool
  deriving DecidableEq, Repr

/-- The port's timing outputs are alive: enabled, in a mode of Table 2-8 that drives them, not retired (R382). -/
def State.pinsLive (s : State) (h : Nat) : Bool :=
  s.flag (F.HP_CTRL_PORT_EN h) && (s.mode == .setup || s.inRun) && !s.isRetired (20 + h) && !s.testMode

/-- HPCK runs: in SETUP, and from the first frame start while the head streams (R48, R49), for a head-timed head too (log entry
170, DEDUCED). -/
def State.hpckRuns (s : State) (h : Nat) : Bool :=
  s.pinsLive h && (s.mode == .setup || (s.streams h && (s.head h).lastStart.isSome))

/-- HINT in cycle `c` of a line: from INT_START on for INT_LEN cycles, at most to the end of the line (R48). -/
def Profile.hint (p : Profile) (c : Nat) : Bool :=
  p.intStart ≤ c && c < p.intStart + p.intLen && c < p.p

/-- The pins of a port in cycle `c` of line `l` of a frame, or between lines (R48, R49, R75): in head-timed operation HLS, HFS
and HINT are low. Under a boundary-driving instruction the cells drive them (R482); none is a pin that is not driven. -/
def State.headPins (s : State) (h : Nat) (place : Option (Nat × Nat)) : HeadPins :=
  let p := s.prof h
  let on := s.hpckRuns h && s.inRun && !p.headTimed
  let here := fun (f : Nat → Nat → Bool) => match place with | some (l, c) => on && f l c | none => false
  let pin := fun (k : Nat) (level : Bool) => if s.testMode then s.cellPin (headPin h k) else some level
  { hpck := pin 0 (s.hpckRuns h), hls := pin 1 (here fun _ c => c == 0), hfs := pin 2 (here fun l c => l == 0 && c == 0),
    hint := pin 3 (here fun _ c => p.hint c), hck := pin 4 (s.pinsLive h && (s.head h).hcp.isSome), hdo := pin 5 (s.head h).hdo }

/-! ### The end of a shutter event (R199, R200) -/

/-- A request or an event of the head ends with a result of Table 7-2: counts, faults, waiting ring commands, the Churn. -/
def State.shutResult (s : State) (h code : Nat) : State :=
  let sh := s.shut h
  let s := s.put (F.CX_SSTAT_RESULT h) code
  let fail := code = 4 ∨ code = 5 ∨ code = 7 ∨ code = 0xB
  let s := if fail then (s.bump (F.CX_SFAIL_COUNT h)).persist (4 + h) else s
  let s := if code = 4 ∨ code = 5 ∨ code = 0xB then s.raise (20 + h) .ce (detailWord 0xFF 0xFF (0x154 + 0x80 * (h % 2))) else s
  let s := sh.waiters.foldl (fun s w => s.finishCmd w.1 w.2 0 code) s
  s.churnDone .m3 h

/-- An event of the head runs: its shutter has been driven and it has not ended. -/
def State.shutRunning (s : State) (h : Nat) : Bool := (s.shut h).active && 2 ≤ s.get (F.CX_SSTAT_PHASE h)

/-- Changes that waited for an event's end take effect (R212, R310). -/
def State.flushDeferred (s : State) (h : Nat) : State :=
  if s.shutRunning h then s
  else
    let l := (s.shut h).deferred
    l.foldl (fun s e => s.setReg e.1 e.2) (s.modShut h fun e => { e with deferred := [] })

/-- A running event ends in failure: the open drive starts (R199, R200), except in SAFE and where it has started with the last
commit already (R198); APPLY ends with the event (Table 7-1). -/
def State.shutEnd (s : State) (h code : Nat) : State :=
  let phase := s.get (F.CX_SSTAT_PHASE h)
  let s := s.shutResult h code
  let s := s.modShut h fun e => { quiet := e.quiet, ended := decide (2 ≤ phase) || e.ended, endAt := some s.dt,
                                  badAt := some s.dt, deferred := e.deferred, refitPhase := e.refitPhase,
                                  refitWaiters := e.refitWaiters }
  let s := s.flushDeferred h
  if s.mode = .safe then (s.modShut h fun e => { e with ended := false }).put (F.CX_SSTAT_PHASE h) 0
  else if phase ≤ 1 then s.put (F.CX_SSTAT_PHASE h) (if (s.shut h).ended then 5 else 0)
  else if phase ≤ 4 then (s.driveOrder h false).put (F.CX_SSTAT_PHASE h) 5
  else if phase = 6 then s.put (F.CX_SSTAT_PHASE h) 0
  else s

end Sys2Proof.Machine
end

