-- ==== Sys2Proof/Machine/HeadPort.lean ====
section
/-! DEFINITION. The commands of the head ports (chapter 2): profile validation, bias, supply, shutter drive, thermistor,
head control port, general-purpose pins. -/

namespace Sys2Proof.Machine

/-! ### Profile -/

/-- HP_CMD.PVAL (R46). -/
def profileValidate (h : Nat) (s : State) : State :=
  s.whenever (s.access (R.HP_CMD h) && !s.flag (F.HP_STAT_PVBUSY h)) fun s =>
    if s.streams h then s.put (F.HP_STAT_PSTAT h) 6 else s.put (F.HP_STAT_PVBUSY h) 1

/-- Gain settings return to their reset values (R47, R83). -/
def State.clearGain (s : State) (h : Nat) : State :=
  ((s.put (F.TC_GAIN0_G h) 0x11111111).put (F.TC_GAIN1_G h) 0x11111111).put (F.TC_CFG_RATIO h) 0

/-- The position inputs are judged (R58): both at once, neither, or a position, which ends a drive that went there. -/
def State.shutInputsAct (s : State) (h : Nat) : State :=
  let p := s.prof h
  let drive := (s.head h).drive
  let old := s.get (F.HP_STAT_SHPOS h)
  match s.shutSeen h with
  | 3 => (s.portFault h (F.HP_FLT_SHUT_POS h) .ce).setShpos h 0
  | 0 =>
    if drive.isSome then s.setShpos h 3
    else if (old = 1 && p.posClosed) || (old = 2 && p.posOpen) then s.setShpos h 0
    else s
  | v =>
    let s := s.setShpos h v
    match drive with
    | some d => if d.pulseDone && d.target == v then s.driveEnded h else s
    | none => s

/-- A profile gives the head another number or kind of taps than it has (R47). -/
def State.tapsMove (s : State) (h : Nat) (p : Profile) : Bool :=
  (s.head h).profile.all fun q => q.dual != p.dual || q.taps != p.taps

/-- A validated image becomes the active profile: gains cleared under R47, codes clamped again (R51), the supply, TC_GEFF1 and a
position that the inputs show (R58) follow the new profile. -/
def State.adoptProfile (s : State) (h : Nat) (p : Profile) : State :=
  let s := (if s.tapsMove h p then s.clearGain h else s).modHead h fun u => { u with profile := some p, bgtNext := 0 }
  let s := s.syncGain h
  let s := (s.storeBias h (s.get (F.HP_BIAS_VBIAS h)) (s.get (F.HP_BIAS_VSKIM h))).hsupEval h
  if s.shutSeen h = 0 then s else s.shutInputsAct h

/-- Validation finishes (R46). -/
def profileValidationDone (h : Nat) (s : State) : State :=
  s.whenever (s.flag (F.HP_STAT_PVBUSY h)) fun s =>
    let img := s.profImage h
    let code := profileStatus img
    let s := (s.put (F.HP_STAT_PVBUSY h) 0).put (F.HP_STAT_PSTAT h) code
    if code = 1 then s.adoptProfile h (parseProfile img) else s

/-! ### Bias and controls -/

/-- A direct write of HP_BIAS (R51). -/
def hpBiasWrite (h : Nat) (v : Word) (s : State) : State :=
  s.whenever (s.access (R.HP_BIAS h)) fun s =>
    if s.inRun then s.put (F.HP_STAT_DIRECT_REFUSED h) 1
    else s.storeBias h (v.toNat / 65536) (v.toNat % 65536)


/-- A DAC has been at its current limit for 1 ms (R70). -/
def dacOvercurrent (h : Nat) (s : State) : State :=
  s.whenever (s.dacDriven h) fun s => (s.portFault h (F.HP_FLT_BIAS_OC h) .uc).portHold h

/-! ### Head supply -/

/-- The 1 ms soft start ends (R53). -/
def hsupRampDone (h t : Nat) (s : State) : State :=
  s.whenever (s.get (F.HP_STAT_HSUP h) == 1 && (s.head h).rampEnd ≤ t) fun s =>
    ((s.at t).put (F.HP_STAT_HSUP h) 2).modHead h fun u => { u with onSince := t, supLost := false }

/-- A disconnect: the fault bit, one UC for the first, DACs to 0 V, the head HELD (R55). Which disconnect is a first one again
is not stated: one after the supply has stayed ON for 10 s, when the retry count resets (log entry 143). -/
def State.hsupDisconnect (s : State) (h : Nat) (f : Fld) : State :=
  let s := if (s.head h).supUc then s.put f 1 else s.portFault h f .uc
  (s.modHead h fun u => { u with supUc := true, supLost := true, supHeld := true }).portHold h

/-- The current limit has been active for 2 ms (R53, R55). -/
def hsupShortDisconnect (h t : Nat) (s : State) : State :=
  s.whenever (s.get (F.HP_STAT_HSUP h) == 1 || s.get (F.HP_STAT_HSUP h) == 2) fun s =>
    let s := (s.at t).hsupDisconnect h (F.HP_FLT_HSUP_SHORT h)
    if s.get (F.HP_STAT_RETRIES h) = 3 then
      let s := (s.put (F.HP_STAT_HSUP h) 3).put (F.HP_FLT_HSUP_LOCKOUT h) 1
      s.logUnit (20 + h) (detailWord 0xFF 2 0x00C) (s.reg (R.HP_FLT h)).toNat
    else (s.put (F.HP_STAT_HSUP h) 0).modHead h fun u => { u with retryAt := some (t + 100000000) }

/-- Reverse voltage or back-feed (R53, R55): no retry. -/
def hsupReverseDisconnect (h t : Nat) (s : State) : State :=
  s.whenever (s.get (F.HP_STAT_HSUP h) == 1 || s.get (F.HP_STAT_HSUP h) == 2) fun s =>
    let s := (s.at t).hsupDisconnect h (F.HP_FLT_HSUP_REV h)
    (s.put (F.HP_STAT_HSUP h) 0).modHead h fun u => { u with retryAt := none, supStopped := true }

/-- 100 ms after a short disconnect another soft start begins (R53); it is logged (R55). -/
def hsupRetryStart (h t : Nat) (s : State) : State :=
  match (s.head h).retryAt with
  | none => s
  | some d =>
    s.whenever (d ≤ t && s.hsupWanted h) fun s =>
      let s := ((s.at t).put (F.HP_STAT_RETRIES h) (s.get (F.HP_STAT_RETRIES h) + 1)).hsupRamp h
      s.logUnit (20 + h) (detailWord 0xFF 0xFF 0x008) (s.reg (R.HP_STAT h)).toNat

/-- HSUP has stayed ON for 10 s (R53). -/
def hsupRetryCountReset (h t : Nat) (s : State) : State :=
  s.whenever (s.get (F.HP_STAT_HSUP h) == 2 && (s.head h).onSince + 10000000000 ≤ t) fun s =>
    ((s.at t).put (F.HP_STAT_RETRIES h) 0).modHead h fun u => { u with supUc := false }

/-- HP_CMD.HSUP_RETRY (R56). -/
def hsupRetry (h : Nat) (s : State) : State :=
  s.whenever (s.access (R.HP_CMD h) && (s.get (F.HP_STAT_HSUP h) == 3 || (s.head h).supStopped) && s.hsupWanted h) fun s =>
    (s.put (F.HP_STAT_RETRIES h) 0).hsupRamp h

/-- HP_CMD.RESUME (R52, R56): the DACs return to their stored codes when no cause of R52 remains (R74): not in SAFE, nor while
a supply that disconnected is not ON again (log entry 144), nor on a retired port (R380). HELD ends at the next frame start, after
a disconnect only when the supply is ON. -/
def resume (h : Nat) (s : State) : State :=
  s.whenever (s.access (R.HP_CMD h)) fun s =>
    let u := s.head h
    let dac := s.mode != .safe && !u.supLost && !s.isRetired (20 + h)
    let held := (!u.supHeld || s.get (F.HP_STAT_HSUP h) == 2) && !s.isRetired (20 + h)
    s.modHead h fun u => { u with dacHold := u.dacHold && !dac, resume := u.resume || held }

/-! ### Shutter -/

/-- HP_CMD.SHUT_CLOSE or SHUT_OPEN (R60); a retired port's shutter stays as R382 leaves it. -/
def shutCommand (h : Nat) (close : Bool) (s : State) : State :=
  s.whenever (s.access (R.HP_CMD h)) fun s =>
    if s.inRun then s.put (F.HP_STAT_DIRECT_REFUSED h) 1
    else if s.mode = .setup ∧ !s.isRetired (20 + h) then s.driveOrder h close
    else s

/-- HP_CMD.SHUT_CLOSE. -/
def shutClose (h : Nat) (s : State) : State := shutCommand h true s
/-- HP_CMD.SHUT_OPEN. -/
def shutOpen (h : Nat) (s : State) : State := shutCommand h false s

/-- A shutter of an ended event that cannot be driven open is a drive that does not reach its position: the head waits out
SHUT_POSTMO where the profile reports one (R58, R199; log entry 158). -/
def State.openWaits (s : State) (h t : Nat) : State :=
  let p := s.prof h
  if (s.shut h).ended && p.posOpen && s.shutSeen h != 2 then
    let d : Drive := { close := false, start := t, pulseEnd := t, pulseDone := true, deadline := t + p.shutPostmo * 1000000 }
    s.modHead h fun u => { u with drive := some d }
  else s

/-- A refused close ends the wait of the supply for it (R54); a refused opening is waited out. -/
def State.driveRefused (s : State) (h : Nat) (close : Bool) (t : Nat) : State :=
  if close && s.mode == .safe && (s.head h).supOffAfterClose then
    (s.hsupOff h).modHead h fun u => { u with supOffAfterClose := false }
  else if close then s else s.openWaits h t

/-- A drive starts, or is refused (R57, R59); the shutter of a retired port is not opened (R382). A held shutter opens without a
drive: its drive ends (R57). -/
def shutterDriveStart (h vshut t : Nat) (s : State) : State :=
  match (s.head h).driveWait, (s.head h).drive with
  | some close, none =>
    s.whenever (s.mode == .setup || s.inRun || s.mode == .safe) fun s =>
      let s := (s.at t).modHead h fun u => { u with driveWait := none }
      let p := s.prof h
      if !close && s.isRetired (20 + h) then s.driveRefused h close t
      else if !close && p.shutType == 2 then s.holdRelease h t
      else if !s.canDrive h then s.driveRefused h close t
      else if vshut < p.vshutMin then (s.portFault h (F.HP_FLT_SHUT_NOVSHUT h) .ce).driveRefused h close t
      else
        let d : Drive := { close := close, start := t, pulseEnd := t + p.shutPulse * 1000000,
                           deadline := t + p.shutPostmo * 1000000 }
        (s.modHead h fun u =>
          { u with drive := some d, bridge := if close then .closing else .opening }).setShpos h 3
  | _, _ => s

/-- The pulse ends: the bridge is undriven, or holds a held shutter closed under PWM (R57, R60). -/
def shutterPulseEnd (h t : Nat) (s : State) : State :=
  match (s.head h).drive with
  | none => s
  | some d =>
    s.whenever (!d.pulseDone && d.pulseEnd ≤ t) fun s =>
      (s.at t).pulseOver h d (if d.close && (s.prof h).shutType == 2 then .hold else .idle)

/-- SHPOS0 or SHPOS1 changes (R58); the levels count from the time the port has a profile. -/
def shutterPositionInput (h : Nat) (p0 p1 : Bool) (t : Nat) (s : State) : State :=
  s.whenever s.up fun s =>
    let s := (s.at t).modHead h fun u => { u with p0 := p0, p1 := p1 }
    if s.hasProf h then s.shutInputsAct h else s

/-- A drive has ended without its position within SHUT_POSTMO (R58): a CLOSING event ends with SHUTTER (R192). -/
def shutterPosTimeout (h t : Nat) (s : State) : State :=
  match (s.head h).drive with
  | none => s
  | some d =>
    s.whenever (d.pulseDone && d.deadline ≤ t) fun s =>
      let s := ((s.at t).portFault h (F.HP_FLT_SHUT_POS h) .ce).setShpos h 0
      let s := if d.close then s else s.modHead h fun u => { u with openLate := true }
      let s := s.driveEnded h
      if d.close && s.shutRunning h then s.shutEnd h 7 else s

/-- The coil check of a running drive fails (R59): the drive stops, an SAFE hold ends (R60), a running event ends with
SHUTTER (R200). Where no input shows it, where the shutter then stands is not stated: SHPOS reads UNKNOWN (log entry 146). An
ended event whose open drive has failed waits out SHUT_POSTMO (R199). -/
def State.coilFail (s : State) (h : Nat) (f : Fld) : State :=
  let s := (s.portFault h f .uc).modHead h fun u => { u with bridge := .idle, driveWait := none }
  let seen := s.shutSeen h
  let s := (s.setShpos h (if seen = 3 then 0 else seen)).driveEnded h
  let s := if s.shutRunning h then s.shutEnd h 7 else s
  if (s.head h).driveWait.isNone then s.openWaits h s.dt else s

/-- Coil current below 10 mA 1 ms after the start (R59). -/
def shutterCoilOpen (h : Nat) (s : State) : State :=
  s.whenever ((s.head h).drive.isSome || (s.head h).bridge == .hold) fun s => s.coilFail h (F.HP_FLT_SHUT_OPEN h)

/-- Coil current at the 300 mA limit for 100 µs (R59). -/
def shutterCoilShort (h : Nat) (s : State) : State :=
  s.whenever ((s.head h).drive.isSome || (s.head h).bridge == .hold) fun s => s.coilFail h (F.HP_FLT_SHUT_SHORT h)

/-! ### Head control port -/

/-- A transfer ends with a code of Table 2-6; every code other than OK is an error (R65). -/
def State.hcpResult (s : State) (h code : Nat) : State :=
  let s := s.put ⟨R.HCP_STAT h, 16, 4⟩ code
  if code = 0 then s else s.portFault h (F.HP_FLT_HCP_ERR h) .ce

/-- The bits of HCP_TXBUF (R64). -/
def State.hcpTx (s : State) (h len : Nat) : List Bool :=
  (List.range len).map fun k => (s.reg (R.HCP_TXBUF h (k / 32))).toNat.testBit (k % 32)

/-- Received bits go to HCP_RXBUF, bit k at bit (k mod 8) of byte (k div 8) (R64). -/
def State.hcpRx (s : State) (h : Nat) (rx : List Bool) : State :=
  (List.range (ceilDiv rx.length 32)).foldl (fun s w =>
    let bs := (rx.drop (32 * w)).take 32
    s.put ⟨R.HCP_RXBUF h w, 0, bs.length⟩ (bitsNat bs)) s

/-- The mode and the port allow a transfer (Table 2-6, NO_PORT). -/
def State.hcpReady (s : State) (h : Nat) : Bool :=
  s.hasProf h && s.flag (F.HP_CTRL_PORT_EN h) && (s.mode == .setup || s.inRun) && !s.isRetired (20 + h)

/-- Start a transfer of HCP_LEN bits, or end at once, with no bit captured, with NO_PORT, OK for a length of 0, or CHAIN (R65,
Table 2-6). Of conditions that hold together the first of these counts (log entry 147). -/
def State.hcpStart (s : State) (h : Nat) (owned : Bool) : State :=
  let len := s.get (F.HCP_LEN_LEN h)
  let p := s.prof h
  let none_ := s.put ⟨R.HCP_STAT h, 0, 16⟩ 0
  if !s.hcpReady h then none_.hcpResult h 7
  else if len = 0 then none_.hcpResult h 0
  else if p.hcpChains != 0 && !p.chainLen.contains len then none_.hcpResult h 4
  else
    let tx := s.hcpTx h len
    (s.put ⟨R.HCP_STAT h, 31, 1⟩ 1).modHead h fun u => { u with hcp := some { len := len, tx := tx, owned := owned } }

/-- HCP_CMD.GO written directly (R65, R68). -/
def hcpGo (h : Nat) (s : State) : State :=
  s.whenever (s.access (R.HCP_CMD h)) fun s =>
    if (s.head h).hcp.isSome || s.flag (F.HCP_STAT_OWNER h) then s.hcpResult h 6 else s.hcpStart h false

/-- The running transfer ends after `sent` bits: bits captured, prefix compared, ERR and RXCOUNT set (R64 to R66). HDO rests at
the last bit driven (R64). -/
def State.hcpEnd (s : State) (h : Nat) (rx : List Bool) (sent code : Nat) : State :=
  match (s.head h).hcp with
  | none => s
  | some x =>
    let s := s.modHead h fun u => { u with hcp := none, hdo := (x.tx.take sent).getLastD u.hdo }
    let s := (s.hcpRx h rx).put ⟨R.HCP_STAT h, 0, 16⟩ rx.length
    (s.put ⟨R.HCP_STAT h, 31, 1⟩ 0).hcpResult h code

/-- The first 8 received bits differ from PFX_EXPECT under PFX_MASK (R66, Table 2-6); a shorter transfer compares the bits
it receives. -/
def State.prefixBad (s : State) (h : Nat) (rx : List Bool) : Bool :=
  let p := s.prof h
  let n := min rx.length 8
  s.flag (F.HCP_CTRL_PFX_EN h) && ((bitsNat (rx.take 8) ^^^ p.pfxExpect) &&& p.pfxMask) % 2 ^ n != 0

/-- The last bit is captured (R65); `extra` tells of HSTB transitions beyond the length. A transfer of a transaction fails when
the head's supply has disconnected (R74; log entry 148); STROBE_LONG goes before PREFIX (log entry 147). -/
def hcpTransferDone (h : Nat) (rx : List Bool) (extra : Bool) (s : State) : State :=
  match (s.head h).hcp with
  | none => s
  | some x =>
    s.whenever (x.len ≤ rx.length) fun s =>
      let got := rx.take x.len
      s.hcpEnd h got x.len (if x.owned && (s.head h).supLost then 1 else if extra || x.len < rx.length then 2
        else if s.prefixBad h got then 3 else 0)

/-- Too few HSTB transitions arrive in time (R65). -/
def strobeShort (h : Nat) (rx : List Bool) (s : State) : State :=
  match (s.head h).hcp with
  | none => s
  | some x => s.whenever (rx.length < x.len) fun s => s.hcpEnd h rx x.len 1

/-- A transfer is cut short: how many bits were captured, which, and how many more were driven, is free (log entry 80). -/
def State.hcpCut (s : State) (h code : Nat) : State :=
  match (s.head h).hcp with
  | none => s
  | some x =>
    let (n, s) := s.freshUpTo x.len
    let (m, s) := s.freshUpTo (x.len - n)
    let (v, s) := s.fresh
    s.hcpEnd h (natBits n v) (n + m) code

/-- HCP_CMD.ABORT stops the transfer after the current bit (R65). -/
def hcpAbort (h : Nat) (s : State) : State :=
  s.whenever (s.access (R.HCP_CMD h)) fun s => s.hcpCut h 5

/-- A transfer running when the mode or PORT_EN takes the port away ends with NO_PORT (Table 2-6), and HDO is low (R75). -/
def State.hcpStop (s : State) (h : Nat) : State := (s.hcpCut h 7).modHead h fun u => { u with hdo := false }

/-- A write of HP_CTRL (R53, R75). PORT_EN = 0 holds the RESET column of Table 2-8: the supply off, the bridge undriven, a
running transfer ended, HDO low, the open-test current off. Where a cut drive leaves the shutter is not stated: SHPOS stays (log
entry 171, DESIGN CHOICE). -/
def hpCtrlWrite (h : Nat) (v : Word) (s : State) : State :=
  s.whenever (s.access (R.HP_CTRL h)) fun s =>
    let s := s.put ⟨R.HP_CTRL h, 0, 8⟩ v.toNat
    let s := if s.flag (F.HP_CTRL_PORT_EN h) then s
      else (s.hcpStop h).modHead h fun u => { u with bridge := .idle, drive := none, driveWait := none, openTest := false }
    s.hsupEval h

/-! ### General-purpose pins -/

/-- A write of GP_SET (R67, R76). -/
def gpSetWrite (i : Nat) (v : Word) (s : State) : State :=
  s.whenever (s.access (R.GP_SET i)) fun s => s.setReg (R.GP_OUT i) (s.reg (R.GP_OUT i) ||| v)

/-- A write of GP_CLR (R67, R76). -/
def gpClrWrite (i : Nat) (v : Word) (s : State) : State :=
  s.whenever (s.access (R.GP_CLR i)) fun s => s.setReg (R.GP_OUT i) (s.reg (R.GP_OUT i) &&& ~~~v)

/-! ### Thermistor (R61, R62) -/

/-- The temperature in 0.01 K at a resistance of `r` / `q` ohm by linear interpolation between the bracketing points, and
whether an end point was taken. -/
def thmInterp (pts : List (Nat × Nat)) (r : Nat) (q : Nat) : Nat × Bool :=
  match pts.head?, pts.getLast? with
  | some a, some z =>
    if r < a.1 * q then (a.2, true)
    else if z.1 * q < r then (z.2, true)
    else
      match (pts.zip (pts.drop 1)).find? fun e => e.1.1 * q ≤ r && r ≤ e.2.1 * q with
      | some (l, u) =>
        let num := (l.2 : Int) * ((u.1 - l.1 : Nat) * q : Nat) + ((u.2 : Int) - l.2) * ((r - l.1 * q : Nat) : Int)
        ((roundDiv num ((u.1 - l.1) * q)).toNat, false)
      | none => (a.2, false)
  | _, _ => (0, true)

/-- A thermistor conversion of HK(88 + h) (R61, R62); each one that shows it open or shorted raises the CE (log entry 172,
DEDUCED). The resistance is CODE × 2.4 V / 4,096 over 10 µA or 100 µA:
CODE × 1,875 / 32 Ω or CODE × 375 / 64 Ω. -/
def State.thmConvert (s : State) (h code : Nat) : State :=
  s.whenever (s.flag (F.HP_CTRL_THM_EN h) && s.hasProf h) fun s =>
    if 4090 ≤ code then (s.portFault h (F.HP_FLT_THM_OPEN h) .ce).put (F.HP_STAT_THM_HELD h) 1
    else if code ≤ 5 then (s.portFault h (F.HP_FLT_THM_SHORT h) .ce).put (F.HP_STAT_THM_HELD h) 1
    else
      let p := s.prof h
      let (t, c) := if p.thmI = 0 then thmInterp p.thm (code * 1875) 32 else thmInterp p.thm (code * 375) 64
      ((s.put (F.HP_THM_TEMP h) t).putB (F.HP_STAT_THM_CLAMP h) c).put (F.HP_STAT_THM_HELD h) 0

/-! ### Meanings -/

/-- `PROFILE_VALIDATE`. -/
def execProfileValidate (h : Head) (s : State) : Result := .next (profileValidate h s)
/-- `PROFILE_VALIDATION_DONE`. -/
def execProfileValidationDone (h : Head) (s : State) : Result := .next (profileValidationDone h s)
/-- `HP_BIAS_WRITE`. -/
def execHpBiasWrite (h : Head) (v : Word) (s : State) : Result := .next (hpBiasWrite h v s)

/-- `HSUP_RAMP_DONE`. -/
def execHsupRampDone (h : Head) (t : Nat) (s : State) : Result := .next (hsupRampDone h t s)
/-- `HSUP_SHORT_DISCONNECT`. -/
def execHsupShortDisconnect (h : Head) (t : Nat) (s : State) : Result := .next (hsupShortDisconnect h t s)
/-- `HSUP_REVERSE_DISCONNECT`. -/
def execHsupReverseDisconnect (h : Head) (t : Nat) (s : State) : Result := .next (hsupReverseDisconnect h t s)
/-- `HSUP_RETRY_START`. -/
def execHsupRetryStart (h : Head) (t : Nat) (s : State) : Result := .next (hsupRetryStart h t s)
/-- `HSUP_RETRY_COUNT_RESET`. -/
def execHsupRetryCountReset (h : Head) (t : Nat) (s : State) : Result := .next (hsupRetryCountReset h t s)
/-- `HSUP_RETRY`. -/
def execHsupRetry (h : Head) (s : State) : Result := .next (hsupRetry h s)
/-- `RESUME`. -/
def execResume (h : Head) (s : State) : Result := .next (resume h s)
/-- `DAC_OVERCURRENT`. -/
def execDacOvercurrent (h : Head) (s : State) : Result := .next (dacOvercurrent h s)
/-- `SHUT_CLOSE`. -/
def execShutClose (h : Head) (s : State) : Result := .next (shutClose h s)
/-- `SHUT_OPEN`. -/
def execShutOpen (h : Head) (s : State) : Result := .next (shutOpen h s)
/-- `SHUTTER_DRIVE_START`. -/
def execShutterDriveStart (h : Head) (vshut t : Nat) (s : State) : Result := .next (shutterDriveStart h vshut t s)
/-- `SHUTTER_PULSE_END`. -/
def execShutterPulseEnd (h : Head) (t : Nat) (s : State) : Result := .next (shutterPulseEnd h t s)
/-- `SHUTTER_POSITION_INPUT`. -/
def execShutterPositionInput (h : Head) (p0 p1 : Bool) (t : Nat) (s : State) : Result :=
  .next (shutterPositionInput h p0 p1 t s)
/-- `SHUTTER_POS_TIMEOUT`. -/
def execShutterPosTimeout (h : Head) (t : Nat) (s : State) : Result := .next (shutterPosTimeout h t s)
/-- `SHUTTER_COIL_OPEN`. -/
def execShutterCoilOpen (h : Head) (s : State) : Result := .next (shutterCoilOpen h s)
/-- `SHUTTER_COIL_SHORT`. -/
def execShutterCoilShort (h : Head) (s : State) : Result := .next (shutterCoilShort h s)
/-- `GO`. -/
def execHcpGo (h : Head) (s : State) : Result := .next (hcpGo h s)
/-- `GP_CLR_WRITE`. -/
def execGpClrWrite (i : Fin 2) (v : Word) (s : State) : Result := .next (gpClrWrite i v s)
/-- `GP_SET_WRITE`. -/
def execGpSetWrite (i : Fin 2) (v : Word) (s : State) : Result := .next (gpSetWrite i v s)

end Sys2Proof.Machine
end

