-- ==== Sys2Proof/Machine/Converters.lean ====
section
/-! DEFINITION. The commands of the tap converters (chapter 3): gains and filter, sample clock, analog reference,
self-calibration, background trim. -/

namespace Sys2Proof.Machine

/-! ### The transfer (R79, R82) -/

/-- The word of a valid sample in the ideal transfer (R79), with the input in nV and the code of the gain 2^code / 2 (Table 3-3):
code 8192 + floor(Vd × G / q) with q = 2 V / 16,384, clamped with OVR. The Collator takes each sample as the input its
converter sees (log entry 152). -/
def idealWord (nv : Int) (code : Nat) : Nat :=
  let c : Int := 8192 + nv * 2 ^ code * 4096 / 1000000000
  if c < 0 then 2 ^ 14 else if 16383 < c then 2 ^ 14 + 16383 else c.toNat

/-! ### Gain and filter -/

/-- Converters of the mask deliver invalid words for `n` sample clocks from DT `t` (R80). -/
def State.markInv (s : State) (h mask n t : Nat) : State :=
  if mask = 0 then s
  else s.modHead h fun u =>
    { u with invMarks := u.invMarks ++ [{ mask := mask, since := t, upto := t + s.cyc (regionOf h) n }] }

/-- A code of Table 3-3 that is not reserved. -/
def gainWordOk (w : Nat) : Bool := (List.range 8).all fun n => gainCode w n ≤ 6

/-- In dual gain no tap in use exceeds a high gain of 32 (R83). -/
def pairOk (p : Profile) (w ratio : Nat) : Bool :=
  !p.dual || (List.range p.taps).all fun n => gainCode w n + ratio + 2 ≤ 6

/-- The values R83 accepts for the head: TC_GAIN0, TC_GAIN1, RATIO. -/
def State.gainsOk (s : State) (h g0 g1 ratio : Nat) : Bool :=
  gainWordOk g0 && gainWordOk g1 && pairOk (s.prof h) g0 ratio

/-- The converters whose gain in force differs between two states: TC0–TC7 from TC_GAIN0, TC8–TC15 from TC_GEFF1. -/
def gainChanged (g0 e1 g0' e1' : Nat) : Nat :=
  (List.range 8).foldl (fun m n =>
    let m := if gainCode g0 n = gainCode g0' n then m else m + 2 ^ n
    if gainCode e1 n = gainCode e1' n then m else m + 2 ^ (n + 8)) 0

/-- Mark what settles after a change of gain codes or filter from the state `old` (R80): 12 clocks for each changed
converter, 16 for all when the filter changed. -/
def State.settleMarks (s : State) (old : State) (h t : Nat) : State :=
  let m := gainChanged (old.get (F.TC_GAIN0_G h)) (old.get (F.TC_GEFF1_E h)) (s.get (F.TC_GAIN0_G h)) (s.get (F.TC_GEFF1_E h))
  let s := s.markInv h m 12 t
  if old.get (F.TC_CFG_AAF h) = s.get (F.TC_CFG_AAF h) then s else s.markInv h 0xFFFF 16 t

/-- A direct write of TC_CFG (R83, R85). -/
def tcCfgWrite (h : Nat) (v : Word) (s : State) : State :=
  s.whenever (s.access (R.TC_CFG h)) fun s =>
    if s.mode != .setup then s.put (F.TC_STAT_DIRECT_REFUSED h) 1
    else if !s.gainsOk h (s.get (F.TC_GAIN0_G h)) (s.get (F.TC_GAIN1_G h)) (fieldOf ⟨0, 2, 2⟩ v) then
      s.put (F.TC_STAT_VALUE_REJ h) 1
    else ((s.put ⟨R.TC_CFG h, 0, 5⟩ v.toNat).syncGain h).settleMarks s h s.dt

/-- A direct write of TC_GAIN0 (`i` = 0) or TC_GAIN1 (R82, R83, R85). -/
def tcGainWrite (h i : Nat) (v : Word) (s : State) : State :=
  s.whenever (s.access (R.TC_GAIN0 h)) fun s =>
    if s.mode != .setup then s.put (F.TC_STAT_DIRECT_REFUSED h) 1
    else
      let g0 := if i = 0 then v.toNat else s.get (F.TC_GAIN0_G h)
      let g1 := if i = 0 then s.get (F.TC_GAIN1_G h) else v.toNat
      if !s.gainsOk h g0 g1 (s.get (F.TC_CFG_RATIO h)) then s.put (F.TC_STAT_VALUE_REJ h) 1
      else (((s.put (F.TC_GAIN0_G h) g0).put (F.TC_GAIN1_G h) g1).syncGain h).settleMarks s h s.dt

/-! ### Bank status: bits [31:24] of TC_STAT belong to the bank and show in both heads' registers (R106) -/

/-- Set a bank field in the TC_STAT of both heads of a region. -/
def State.putBank (s : State) (r : Nat) (f : Nat → Fld) (v : Nat) : State :=
  (s.put (f (2 * r)) v).put (f (2 * r + 1)) v

/-- Note when the region's samples begin or cease to be invalid for want of REFOK or of lock (Table 3-2). -/
def State.noteOutage (s : State) (r : Nat) : State :=
  let out := !(s.bankFlag r F.TC_STAT_REFOK && s.bankFlag r F.TC_STAT_SCLK_LOCK)
  let t := s.dt
  s.modBank r fun b =>
    let open_ := b.outages.any fun o => o.2.isNone
    if out && !open_ then { b with outages := b.outages ++ [(t, none)] }
    else if !out && open_ then { b with outages := b.outages.map fun o => (o.1, some (o.2.getD t)) }
    else b

/-- Set TC_STAT.REFOK or TC_STAT.SCLK_LOCK of a region. -/
def State.putValid (s : State) (r : Nat) (f : Nat → Fld) (v : Nat) : State := (s.putBank r f v).noteOutage r

/-- A write of a bank register refused for the mode or for its value (TC_STAT of both heads; log entry 21). -/
def State.bankRefuse (s : State) (r : Nat) : State := s.putBank r F.TC_STAT_DIRECT_REFUSED 1
def State.bankReject (s : State) (r : Nat) : State := s.putBank r F.TC_STAT_VALUE_REJ 1

/-! ### Sample clock (R86 to R88) -/

/-- A write of TC_SCLK (R86). -/
def tcSclkWrite (r : Nat) (v : Word) (s : State) : State :=
  s.whenever (s.access (R.TC_SCLK r)) fun s =>
    let freq := fieldOf ⟨0, 0, 14⟩ v
    if s.mode != .setup then s.bankRefuse r
    else if freq ≠ 0 ∧ (freq < 1000 ∨ 10000 < freq) then s.bankReject r
    else
      let s := (s.put (F.TC_SCLK_FREQ r) freq).put (F.TC_SCLK_SRC r) (fieldOf ⟨0, 16, 1⟩ v)
      let s := (s.putValid r F.TC_STAT_SCLK_LOCK 0).putBank r F.TC_STAT_SCLK_FALLBACK 0
      ((s.modBank r fun b => { b with lockWait := freq != 0 }).fperNote (2 * r)).fperNote (2 * r + 1)

/-- The synthesiser locks (R86, R87). -/
def sclkLocked (r : Nat) (s : State) : State :=
  s.whenever (s.up && !s.refStopped && (s.bank r).lockWait) fun s =>
    (s.putValid r F.TC_STAT_SCLK_LOCK 1).modBank r fun b => { b with lockWait := false }

/-- The sample clock loses lock (R87): a UC in RUN and THROTTLED, and the synthesiser relocks by itself. -/
def sclkLockLost (r : Nat) (s : State) : State :=
  s.whenever (s.bankFlag r F.TC_STAT_SCLK_LOCK) fun s =>
    let s := (s.putValid r F.TC_STAT_SCLK_LOCK 0).modBank r fun b => { b with lockWait := true }
    if s.inRun then s.raise 53 .uc (detailWord r 29 0x008) else s

/-- The ring recovered clock is lost with SRC = 1 (R88). -/
def sclkFallback (r : Nat) (s : State) : State :=
  s.whenever (s.up && s.flag (F.TC_SCLK_SRC r) && !s.bankFlag r F.TC_STAT_SCLK_FALLBACK) fun s =>
    (s.putBank r F.TC_STAT_SCLK_FALLBACK 1).raise 50 .ce (detailWord r 27 0x008)

/-! ### Analog reference (R89, R90) -/

/-- The settle time of a reference source in ns (Table 3-4). -/
def settleNs (src : Nat) : Nat := if src = 0 then 2000000 else 200000

/-- Frames that heads have not output yet carry DEGRADED (R90, R92). -/
def State.degradeFrames (s : State) (of : Nat → Bool) : State :=
  { s with frames := mapIf (fun f => of f.head && !f.reported) (fun (f : Frame) => { f with degraded := true }) s.frames }

/-- A running calibration is aborted: previous factors kept, no fault (R100). -/
def State.calAbort (s : State) (r : Nat) : State :=
  if (s.bank r).cal = .idle then s
  else
    let s := (s.putBank r F.TC_STAT_CALBUSY 0).putBank r F.TC_STAT_CALRESULT 5
    (s.modBank r fun b => { b with cal := .idle, passA := [], passB := [], repeats := 0 }).churnDone .m2 r

/-- REFOK clears and sets again after the settle time (R89). -/
def State.refSettle (s : State) (r ns : Nat) : State :=
  (s.putValid r F.TC_STAT_REFOK 0).modBank r fun b => { b with refDue := some (s.dt + ns) }

/-- A write of TC_REFCFG (R89). -/
def tcRefcfgWrite (r : Nat) (v : Word) (s : State) : State :=
  s.whenever (s.access (R.TC_REFCFG r)) fun s =>
    let src := fieldOf ⟨0, 0, 2⟩ v
    if s.mode != .setup || s.bankFlag r F.TC_STAT_CALBUSY then s.bankRefuse r
    else if src = 3 then s.bankReject r
    else ((s.put (F.TC_REFCFG_SRC r) src).putBank r F.TC_STAT_REF_FALLBACK 0).refSettle r (settleNs src)

/-- The selected reference has settled (R89). -/
def refokSet (r t : Nat) (s : State) : State :=
  match (s.bank r).refDue with
  | none => s
  | some d =>
    s.whenever (s.up && d ≤ t) fun s =>
      ((s.at t).putValid r F.TC_STAT_REFOK 1).modBank r fun b => { b with refDue := none }

/-- REFINr has been outside its window for 10 µs (R90). -/
def refFallback (r : Nat) (s : State) : State :=
  let runs := s.mode != .dormant || s.power.trans.isSome
  s.whenever (s.up && runs && s.get (F.TC_REFCFG_SRC r) == 1 && !s.bankFlag r F.TC_STAT_REF_FALLBACK) fun s =>
    let s := ((s.putBank r F.TC_STAT_REF_FALLBACK 1).refSettle r 50000).raise (16 + r) .uc (detailWord 0xFF 28 0x008)
    (s.calAbort r).degradeFrames fun h => regionOf h == r

/-! ### Self-calibration (R93 to R102) -/

/-- The plausible range of factor word `w` (Table 3-5). -/
def factorOk (w : Nat) (v : Int) : Bool :=
  let m : Int := if w ≤ 7 then 1311 else if w ≤ 9 then 4096 else if w = 10 then 2048 else 1966
  0 ≤ v + m && v ≤ m

/-- All 12 words of a converter lie in range. -/
def factorsOk (ws : List Int) : Bool := (List.range 12).all fun w => factorOk w (ws.getD w 0)

/-- Converter `c` of a bank (0–15 of the even head, 16–31 of the odd head) is in use (R78). -/
def State.convUsed (s : State) (r c : Nat) : Bool :=
  match (s.head (2 * r + c / 16)).profile with
  | none => false
  | some p => if p.dual then c % 8 < p.taps else c % 16 < p.taps

/-- A bank calibration is ordered: CALBUSY sets and it waits for its start (R94, R98). -/
def State.calOrder (s : State) (r : Nat) : State :=
  (s.putBank r F.TC_STAT_CALBUSY 1).modBank r fun b => { b with cal := .waiting, passA := [], passB := [], repeats := 0 }

/-- TC_CMD.SELFCAL (R98): at once in SETUP, activity M2 in RUN and THROTTLED. -/
def selfcal (r : Nat) (s : State) : State :=
  s.whenever (s.access (R.TC_CMD r) && !s.bankFlag r F.TC_STAT_CALBUSY) fun s =>
    if s.mode = .setup then s.calOrder r
    else if s.inRun then
      match s.churnAsk .m2 r true s.dt with
      | (.granted, s) => s.calOrder r
      | (.refused, s) => s.putBank r F.TC_STAT_CALRESULT 4
      | (_, s) => s
    else s.bankRefuse r

/-- A 19 ms pass ends with its factors: 12 words for each of the bank's 32 converters (R94). -/
def calPassDone (r : Nat) (factors : List (List Int)) (t : Nat) (s : State) : State :=
  let b := s.bank r
  s.whenever ((b.cal == .passA || b.cal == .passB) && b.passStart + 19000000 ≤ t) fun s =>
    let s := s.at t
    if b.cal = .passA then s.modBank r fun b => { b with cal := .passB, passA := factors, passStart := t }
    else s.modBank r fun b => { b with cal := .checks, passB := factors }

/-- The ideal pipeline transfer with a converter's factor words at code `c` is not given; the corrected transfer functions
of two passes agree within 2 LSB at the 64 check codes (R96) as this free function of the factors says (log entry 15). -/
def passesAgree (a b : List Int) : Bool :=
  (List.range 64).all fun i =>
    let c := 256 * i + 128
    (Config.correctedCode a c - Config.correctedCode b c).natAbs ≤ 2

/-- The cell check rejects a converter: its TC_CELLREJ bit, a CE (R95). -/
def State.cellReject (s : State) (r c : Nat) : State :=
  let s := if c < 16 then s.putBit (F.TC_CELLREJ_REJ_EVEN r) c true else s.putBit (F.TC_CELLREJ_REJ_ODD r) (c - 16) true
  s.raise (16 + r) .ce (detailWord (c % 16) c 0x018)

/-- Store the 12 words of a converter (R97). -/
def State.putFactors (s : State) (r c : Nat) (ws : List Int) : State :=
  (List.range 12).foldl (fun s w => s.put (F.TC_FACT_FACTOR (2 * r + c / 16) (16 * (c % 16) + w)) (unsigned 16 (ws.getD w 0))) s

/-- The calibration ends with a result; OK and CELL_REJECT are recorded and persisted (R102). -/
def State.calFinish (s : State) (r res : Nat) : State :=
  let s := (s.putBank r F.TC_STAT_CALBUSY 0).putBank r F.TC_STAT_CALRESULT res
  let s := s.modBank r fun b => { b with cal := .idle, passA := [], passB := [], repeats := 0 }
  let s := if res = 1 ∨ res = 2 then
      (((s.bump (F.TC_CALOK_COUNT r)).put64 (F.TC_CALDT_LO_DT_LO r) (F.TC_CALDT_HI_DT_HI r) s.dt).put (F.TC_CALTAI_TAI r)
        (s.taiWord s.dt)).persist (16 + r)
    else if res = 3 then s.bump (F.TC_CALFAIL_COUNT r)
    else s
  s.churnDone .m2 r

/-- The mean of two words, rounded (R96). -/
def meanWord (a b : Int) : Int := roundDiv (a + b) 2

/-- The checks of a pass pair are done (R95, R96), over every converter of the bank: factors adopted, a new pair, or FAILED.
OK or CELL_REJECT follows from the last pair of passes; TC_CELLREJ keeps the bits of earlier pairs (log entry 149). -/
def calEnd (r t : Nat) (s : State) : State :=
  let b := s.bank r
  s.whenever (b.cal == .checks) fun s =>
    let s := s.at t
    let used := (List.range 32).filter fun c => s.convUsed r c
    let bad := (List.range 32).filter fun c => !(factorsOk (b.passA.getD c []) && factorsOk (b.passB.getD c []))
    let good := (List.range 32).filter fun c => !bad.contains c
    let s := bad.foldl (fun s c => s.cellReject r c) s
    if !used.isEmpty && used.all bad.contains then s.calFinish r 3
    else if good.all fun c => passesAgree (b.passA.getD c []) (b.passB.getD c []) then
      let s := good.foldl (fun s c => s.putFactors r c
        ((List.range 12).map fun w => meanWord ((b.passA.getD c []).getD w 0) ((b.passB.getD c []).getD w 0))) s
      s.calFinish r (if bad.isEmpty then 1 else 2)
    else if b.repeats < 3 then
      s.modBank r fun b => { b with cal := .passA, passStart := t, repeats := b.repeats + 1 }
    else (s.calFinish r 3).raise (16 + r) .uc (detailWord 0xFF 0xFF 0x034)

/-! ### Background trim (R103) -/

/-- The converters of a head in use, ascending (R78). -/
def Profile.convs (p : Profile) : List Nat :=
  if p.dual then (List.range 16).filter fun n => n % 8 < p.taps else List.range p.taps

/-- The converter of a head whose turn it is (R103). -/
def State.trimConv (s : State) (h : Nat) : Nat :=
  let convs := (s.prof h).convs
  convs.getD ((s.head h).bgtNext % max convs.length 1) 0

/-- The head's converters are trimmed: enabled, streaming, and no calibration of the bank is ordered (R98, R103). -/
def State.trimming (s : State) (h : Nat) : Bool :=
  s.flag (F.TC_CFG_BGTRIM_EN h) && s.streams h && s.hasProf h && (s.bank (regionOf h)).cal == .idle

/-- The line blanking of the head's profile has room for a measurement (R103). -/
def State.trimRoom (s : State) (h : Nat) : Bool := (s.prof h).headTimed || 12 ≤ (s.prof h).hblank

/-- The head asks for the trim of a converter in each line blanking (R103, R392). -/
def State.trimReady (s : State) (h : Nat) : Bool :=
  h < 8 && s.flag (F.TC_CFG_BGTRIM_EN h) && s.streams h && s.hasProf h && s.trimRoom h

/-- The background trim of a head ceases: its M1 leaves the Churn (R103, R393). -/
def State.trimStop (s : State) (h : Nat) : State := s.churnDrop fun j => j.act == .m1 && j.res / 16 == h

/-- One measurement of words 0–9 of the converter whose turn it is ends (R103), which the Churn granted as activity M1 (R393):
each word moves by at most 4 units, an implausible result is discarded with a CE. A profile whose line blanking is too short
takes none. BGT_SKIP, once set, stays (log entry 155). -/
def bgtrimMeasure (h : Nat) (words : List Int) (s : State) : State :=
  let p := s.prof h
  let r := regionOf h
  if !s.trimming h then s.trimStop h
  else
    let c := s.trimConv h
    if !s.trimRoom h then s.put (F.TC_STAT_BGT_SKIP h) 1
    else if !s.churnRuns .m1 (16 * h + c) then s
    else
      let s := s.modHead h fun u => { u with bgtNext := (u.bgtNext + 1) % max p.convs.length 1 }
      let full := 16 * (h % 2) + c
      let s := s.churnDone .m1 (16 * h + c)
      if (List.range 10).all fun w => factorOk w (words.getD w 0) then
        (List.range 10).foldl (fun s w =>
          let f := F.TC_FACT_FACTOR h (16 * c + w)
          let old := signed 16 (s.get f)
          let step := max (-4) (min 4 (words.getD w 0 - old))
          s.put f (unsigned 16 (old + step))) s
      else s.cellReject r full

/-! ### Meanings -/

/-- `TC_CFG_WRITE`. -/
def execTcCfgWrite (h : Head) (v : Word) (s : State) : Result := .next (tcCfgWrite h v s)
/-- `TC_GAIN_WRITE`. -/
def execTcGainWrite (h : Head) (i : Fin 2) (v : Word) (s : State) : Result := .next (tcGainWrite h i v s)
/-- `TC_SCLK_WRITE`. -/
def execTcSclkWrite (r : Region) (v : Word) (s : State) : Result := .next (tcSclkWrite r v s)
/-- `SCLK_LOCKED`. -/
def execSclkLocked (r : Region) (s : State) : Result := .next (sclkLocked r s)
/-- `SCLK_LOCK_LOST`. -/
def execSclkLockLost (r : Region) (s : State) : Result := .next (sclkLockLost r s)
/-- `SCLK_FALLBACK`. -/
def execSclkFallback (r : Region) (s : State) : Result := .next (sclkFallback r s)
/-- `TC_REFCFG_WRITE`. -/
def execTcRefcfgWrite (r : Region) (v : Word) (s : State) : Result := .next (tcRefcfgWrite r v s)
/-- `REFOK_SET`. -/
def execRefokSet (r : Region) (t : Nat) (s : State) : Result := .next (refokSet r t s)
/-- `SELFCAL`. -/
def execSelfcal (r : Region) (s : State) : Result := .next (selfcal r s)
/-- `CAL_PASS_DONE`. -/
def execCalPassDone (r : Region) (fs : List (List Int)) (t : Nat) (s : State) : Result := .next (calPassDone r fs t s)
/-- `BGTRIM_MEASURE`. -/
def execBgtrimMeasure (h : Head) (words : List Int) (s : State) : Result := .next (bgtrimMeasure h words s)

end Sys2Proof.Machine
end

