-- ==== Sys2Proof/Machine/Ecdsa.lean ====
section
/-! DEFINITION. The signature of a microcode image (R232): SHA-384 and ECDSA over NIST P-384 as FIPS 180-4 and FIPS 186-4
specify them. -/

namespace Sys2Proof.Machine

/-! ### SHA-384 -/

/-- The largest number whose k-th power is at most `x`, found bit by bit from its `b` low bits on. -/
def rootFloor (k x : Nat) : Nat → Nat → Nat
  | 0, r => r
  | b + 1, r => rootFloor k x b (if (r + 2 ^ b) ^ k ≤ x then r + 2 ^ b else r)

/-- The first 64 bits of the fractional part of the k-th root of a number below 2 ^ 10. -/
def rootFraction (k n : Nat) : BitVec 64 := BitVec.ofNat 64 (rootFloor k (n * 2 ^ (64 * k)) 70 0)

/-- The primes below `n`. -/
def primesBelow (n : Nat) : List Nat :=
  (List.range n).filter fun p => 2 ≤ p && (List.range (p - 2)).all fun d => p % (d + 2) != 0

/-- The 80 round constants: the cube roots of the first 80 primes (FIPS 180-4). -/
def shaRoundWords : List (BitVec 64) := (primesBelow 410).map (rootFraction 3)

/-- The initial hash value of SHA-384: the square roots of the ninth to the sixteenth prime. -/
def shaStart : List (BitVec 64) := ((primesBelow 54).drop 8).map (rootFraction 2)

/-- A big-endian number. -/
def beNat (bs : List Byte) : Nat := bs.foldl (fun a b => 256 * a + b.toNat) 0

/-- The message padded to whole blocks of 128 bytes: a 1 bit, then the length in bits as a big-endian number that fills up the
rest. -/
def shaPad (m : List Byte) : List Byte :=
  let room := 128 * ((m.length + 144) / 128) - m.length - 1
  m ++ 0x80 :: (leBytes room (8 * m.length)).reverse

/-- The exclusive or of a word's rotations to the right. -/
def rotations (x : BitVec 64) (by_ : List Nat) : BitVec 64 := by_.foldl (fun y r => y ^^^ x.rotateRight r) 0

/-- `n` more words of the message schedule, which is kept newest first: each from those 2, 7, 15 and 16 before it. -/
def shaSchedule : Nat → List (BitVec 64) → List (BitVec 64)
  | 0, w => w
  | n + 1, w =>
    let back := fun k => w.getD (k - 1) 0
    let mix := fun x l k => rotations x l ^^^ x >>> k
    shaSchedule n ((mix (back 2) [19, 61] 6 + back 7 + mix (back 15) [1, 8] 7 + back 16) :: w)

/-- The working variables as two sequences, newest first: a, b, c, d are the last four of the one, e, f, g, h of the other. -/
structure ShaVars where
  up : List (BitVec 64)
  low : List (BitVec 64)

/-- A round adds one word to each sequence. -/
def ShaVars.round (v : ShaVars) (word : BitVec 64) : ShaVars :=
  let x := fun i => v.low.getD i 0
  let y := fun i => v.up.getD i 0
  let choice := x 2 ^^^ (x 0 &&& (x 1 ^^^ x 2))
  let majority := (y 0 &&& y 1) ||| (y 2 &&& (y 0 ||| y 1))
  let t := x 3 + rotations (x 0) [14, 18, 41] + choice + word
  { up := (t + rotations (y 0) [28, 34, 39] + majority) :: v.up, low := (y 3 + t) :: v.low }

/-- The hash after one block. -/
def shaBlock (h : List (BitVec 64)) (block : List Byte) : List (BitVec 64) :=
  let w := (List.range 16).map fun i => BitVec.ofNat 64 (beNat ((block.drop (8 * i)).take 8))
  let words := List.zipWith (· + ·) shaRoundWords (shaSchedule 64 w.reverse).reverse
  let v := words.foldl ShaVars.round { up := h.take 4, low := h.drop 4 }
  List.zipWith (· + ·) h (v.up.take 4 ++ v.low.take 4)

/-- The blocks of a padded message, one after another. -/
def shaBlocks : Nat → List (BitVec 64) → List Byte → List (BitVec 64)
  | 0, h, _ => h
  | n + 1, h, bs => shaBlocks n (shaBlock h bs) (bs.drop 128)

/-- SHA-384 of a message, as a number: the first six words of the hash. -/
def sha384 (m : List Byte) : Nat :=
  let p := shaPad m
  ((shaBlocks (p.length / 128) shaStart p).take 6).foldl (fun a v => a * 2 ^ 64 + v.toNat) 0

/-! ### P-384 -/

/-- The field, the coefficient b (a is -3), the base point and its order. -/
def ecP : Nat := 2 ^ 384 - 2 ^ 128 - 2 ^ 96 + 2 ^ 32 - 1
def ecB : Nat := 0xb3312fa7e23ee7e4988e056be3f82d19181d9c6efe8141120314088f5013875ac656398d8a2ed19d2a85c8edd3ec2aef
def ecG : Nat × Nat :=
  (0xaa87ca22be8b05378eb1c71ef320ad746e1d3b628ba79b9859f741e082542a385502f25dbf55296c3a545e3872760ab7,
   0x3617de4a96262c6f5d9e98bf9292dc29f8f41dbd289a147ce9da3113b5f0b8c00a60b1ce1d7e819d7a431d7c90ea0e5f)
def ecN : Nat := 0xffffffffffffffffffffffffffffffffffffffffffffffffc7634d81f4372ddf581a0db248b0a77aecec196accc52973

/-- a^e modulo m, over the low `n` bits of e. -/
def powMod (m : Nat) : Nat → Nat → Nat → Nat
  | 0, _, _ => 1 % m
  | n + 1, a, e =>
    let r := powMod m n (a * a % m) (e / 2)
    if e % 2 = 1 then a * r % m else r

/-- The inverse modulo a prime. -/
def invMod (m a : Nat) : Nat := powMod m 384 (a % m) (m - 2)

/-- A point of the curve; none is the point at infinity. -/
abbrev EcPoint := Option (Nat × Nat)

/-- The sum of two points. -/
def ecAdd (p q : EcPoint) : EcPoint :=
  match p, q with
  | none, q => q
  | p, none => p
  | some (x1, y1), some (x2, y2) =>
    if x1 = x2 ∧ (y1 + y2) % ecP = 0 then none
    else
      let l := if x1 = x2 then (3 * x1 * x1 + ecP - 3) * invMod ecP (2 * y1) % ecP
        else (y2 + ecP - y1) * invMod ecP (x2 + ecP - x1) % ecP
      let x3 := (l * l + 2 * ecP - x1 - x2) % ecP
      some (x3, (l * (x1 + ecP - x3) + ecP - y1) % ecP)

/-- The multiple of a point by the low `n` bits of a number. -/
def ecMul : Nat → Nat → EcPoint → EcPoint
  | 0, _, _ => none
  | n + 1, k, p =>
    let r := ecMul n (k / 2) (ecAdd p p)
    if k % 2 = 1 then ecAdd p r else r

/-- A public key: a point of the curve with coordinates in the field. -/
def ecKeyOk (q : Nat × Nat) : Bool :=
  q.1 < ecP && q.2 < ecP && q.2 * q.2 % ecP == (q.1 * q.1 * q.1 + ecB + 3 * (ecP - q.1)) % ecP

/-- ECDSA verification of the signature (r, s) of a message whose hash is `e` with public key `q`. -/
def ecdsaOk (e r s : Nat) (q : Nat × Nat) : Bool :=
  let w := invMod ecN s
  let pt := ecAdd (ecMul 384 (e * w % ecN) (some ecG)) (ecMul 384 (r * w % ecN) (some q))
  0 < r && r < ecN && 0 < s && s < ecN && ecKeyOk q && match pt with
    | none => false
    | some (x, _) => x % ecN == r

/-- The signature of a microcode image verifies (R232): its last 96 bytes are r and s, big-endian, over all the bytes before
them. -/
def imageSigned (img : List Byte) (key : Nat × Nat) : Bool :=
  let body := img.take (img.length - 96)
  let sig := img.drop (img.length - 96)
  ecdsaOk (sha384 body) (beNat (sig.take 48)) (beNat (sig.drop 48)) key

end Sys2Proof.Machine
end

