-- ==== Sys2Proof/Machine/Timing.lean ====
section
/-! DEFINITION. Frame timing (chapter 4, R107 to R122): frame sources, line starts, stuck inputs, vertical blanking with
its open, short and polarity checks, and trigger inputs. The start of a frame itself is in FrameStart.lean. -/

namespace Sys2Proof.Machine

/-! ### Head timing in Device Time -/

/-- Sample clocks of head `h` as ns. -/
def State.hcyc (s : State) (h n : Nat) : Nat := s.cyc (regionOf h) n

/-- FPER of a head in ns (R108). -/
def State.fperNs (s : State) (h : Nat) : Nat := s.hcyc h (s.get (F.HP_FPER_FPER h))

/-- Device Time has reached the end of [a, a + n). -/
def elapsed (a : Option Nat) (n t : Nat) : Bool := match a with | some a => a + n ≤ t | none => true

/-- An edge at `t` lies in the hold-off that began at the last accepted edge (R120). -/
def inHoldoff (acc : Option Nat) (n t : Nat) : Bool := match acc with | some a => a ≤ t && t < a + n | none => false

/-- The head is commanded to stream (R407). -/
def State.commanded (s : State) (h : Nat) : Bool := s.inRun && bit (s.get F.SYS_STREAM_HEADS) h

/-- Change the capture in progress. -/
def State.modCap (s : State) (h : Nat) (f : Cap → Cap) : State := s.modHead h fun u => { u with cap := u.cap.map f }

/-- Change the frame record of head `h` with sequence number `seq`. -/
def State.modFrame (s : State) (h seq : Nat) (f : Frame → Frame) : State :=
  { s with frames := mapIf (fun fr => fr.head == h && fr.seq == seq) f s.frames }

/-- The frame record of head `h` with sequence number `seq`. -/
def State.frame (s : State) (h seq : Nat) : Option Frame := s.frames.find? fun fr => fr.head == h && fr.seq == seq

/-! ### The DT of a frame slot (R114) -/

/-- The DT of a captured frame (R114): the first sample cycle of its first line. A head-timed frame has no line yet, and shows
its slot's DT until the first (log entry 150). -/
def State.captureDt (s : State) (h t : Nat) : Nat :=
  if (s.prof h).headTimed then t else t + s.hcyc h (s.prof h).pixdly

/-- HP_FSDT shows the DT of the last frame slot (R114). -/
def State.putFsdt (s : State) (h seq dt : Nat) : State :=
  if s.get64 (F.HP_FSEQ_LO_FSEQ h) (F.HP_FSEQ_HI_FSEQ h) = seq then
    s.put64 (F.HP_FSDT_LO_FSDT h) (F.HP_FSDT_HI_FSDT h) dt
  else s

/-- A frame with its DT settled at `dt`: TAI_f follows (R169). -/
def Frame.dated (f : Frame) (dt : Nat) : Frame :=
  let tai := taiOf f.snap f.locked dt
  { f with dt := dt, tai := tai.getD 0, ageUnk := tai.isNone }

/-- The frame is output as a HELD slot: its DT is that of the slot instant (R114). -/
def State.slotHeld (s : State) (h seq : Nat) : State :=
  match s.frame h seq with
  | none => s
  | some f => (s.modFrame h seq fun f => { f.dated f.slotAt with held := true }).putFsdt h seq f.slotAt

/-! ### Frame sources (R107, R109) -/

/-- An accepted edge of a device-timed head's source gives a pending start at `instant`; one inside the hold-off, or
while a start is pending, counts as OVERRUN (R109, R120). The hold-off begins at the last edge outside it, one ignored for a
pending start among them (log entry 154). -/
def State.srcEdge (s : State) (h stamp instant : Nat) : State :=
  if !(s.commanded h || s.streams h) || (s.prof h).headTimed then s
  else
    let u := s.head h
    if inHoldoff u.srcAcc (s.hcyc h ((s.prof h).tmin) / 2) stamp then s.bump (F.HP_TCNT1_FRM_OVR h)
    else
      let s := s.modHead h fun u => { u with srcAcc := some stamp }
      if u.startPending.isSome then s.bump (F.HP_TCNT1_FRM_OVR h)
      else s.modHead h fun u => { u with startPending := some instant }

/-- Give an event to every device-timed head whose source is `src` with selection `sel`. -/
def State.sourceEvent (s : State) (src sel stamp instant : Nat) : State :=
  s.forEach 8 (fun h => s.get (F.HP_FRM_CFG_SRC h) == src && s.get (F.HP_FRM_CFG_SEL h) == sel) fun h s =>
    s.srcEdge h stamp instant

/-- The level that the device drives on a GP pin, at which an output is read (R107): its cell's under a boundary-driving
instruction (R482). -/
def State.gpDriven (s : State) (pin : Nat) : Option Bool :=
  if s.testMode then s.cellPin (gpPin pin)
  else if bit (s.get (F.GP_DIR_W (pin / 32))) (pin % 32) then some (bit (s.get (F.GP_OUT_W (pin / 32))) (pin % 32)) else none

/-- Set or clear bit `i` of HP_TSTAT.LIVE. -/
def State.putLive (s : State) (h i : Nat) (b : Bool) : State := s.putBit (F.HP_TSTAT_LIVE h) i b

/-- An edge on a GP pin (R107, R120): for heads that use the pin as their frame source. -/
def gpFrameEdge (pin : Nat) (level : Bool) (t : Nat) (s : State) : State :=
  s.whenever (s.up && (s.gpDriven pin == none || s.gpDriven pin == some level)) fun s =>
    (s.at t).forEach 8 (fun h =>
      !(s.prof h).headTimed && s.get (F.HP_FRM_CFG_SRC h) == 3 && s.get (F.HP_FRM_CFG_SEL h) == pin) fun h s =>
      if level != s.flag (F.HP_FRM_CFG_INV h) then
        (s.modHead h fun u => { u with srcSince := some t }).srcEdge h t (t + 40)
      else (s.modHead h fun u => { u with srcSince := none }).putLive h 1 false

/-! ### Trigger inputs (R122) -/

/-- A source event of the milk round (R421): a round is due DELAY µs after it, under the HK_TRIG of the last round start. -/
def State.hkEvent (s : State) (src sel t : Nat) : State :=
  if fieldOf F.HK_TRIG_SRC s.hk.trig = src ∧ fieldOf F.HK_TRIG_SEL s.hk.trig = sel then
    { s with hk := { s.hk with due := s.hk.due ++ [t + fieldOf F.HK_TRIG_DELAY s.hk.trig * 1000] } }
  else s

/-- A TRIGn event passes the filter: accepted and stamped, or counted as refused. -/
def State.trigEvent (s : State) (n stamp : Nat) : State :=
  if inHoldoff (s.ring.trigAcc.getD n none) (s.get (F.TRG_TRIGPER_MINPER n) * 1000 / 2) stamp then
    s.bump (F.TRG_TRIGCNT_OVR n)
  else
    let s : State := { s with ring := { s.ring with trigAcc := s.ring.trigAcc.set n (some stamp) } }
    let s := (s.bump (F.TRG_TRIGCNT_ACC n)).put64 (F.TRG_TRIGDT_LO_DT n) (F.TRG_TRIGDT_HI_DT n) stamp
    (s.sourceEvent 2 n stamp (stamp + 40)).hkEvent 2 n stamp

/-- The received triggers whose effect instant has come by `t`, in the order of their instants (R126): each is filtered as a
TRIGn event at its instant while ring stream n is a source. -/
def State.trigsDue (s : State) (t : Nat) : State :=
  let due := s.ring.marks.filter fun m => m.trig && m.instant ≤ t
  let s : State := { s with ring := { s.ring with marks := s.ring.marks.filter fun m => !(m.trig && m.instant ≤ t) } }
  due.foldl (fun s m =>
    if s.flag (F.TRG_TRIGCFG_RING m.stream) then s.trigEvent m.stream m.instant else s) s

/-- An edge of a TRIG pin to a level (R119, R122): the active one is an event, the other ends what keeps it active. Received
triggers due by then come first. -/
def trigPinEdge (n : Nat) (level : Bool) (t : Nat) (s : State) : State :=
  s.whenever (s.up && s.flag (F.TRG_TRIGCFG_PIN n)) fun s =>
    let active := level != s.flag (F.TRG_TRIGCFG_POL n)
    let s := (s.at t).trigsDue t
    let s : State := { s with ring := { s.ring with trigSince := s.ring.trigSince.set n (if active then some t else none) } }
    if active then s.trigEvent n t else s.put (F.TRG_TRIGSTAT_LIVE n) 0

/-! ### Lines (R48, R110) -/

/-- The start of line `k` of the running frame: device-timed lines follow the line period; head-timed lines were stamped. -/
def State.lineStartAt (s : State) (h : Nat) (c : Cap) (k : Nat) : Nat :=
  if (s.prof h).headTimed then c.lineStarts.getD k c.start else c.start + s.hcyc h (k * (s.prof h).p)

/-- A line period begins in device-timed operation (R48). -/
def lineStart (h t : Nat) (s : State) : State :=
  match (s.head h).cap with
  | none => s
  | some c =>
    s.whenever (!(s.prof h).headTimed && !c.closed && c.lines < (s.prof h).l && s.lineStartAt h c c.lines ≤ t) fun s =>
      (s.at t).modCap h fun c => { c with lines := c.lines + 1 }

/-- The frame of a capture is marked short or long when no more of its lines can come (R116). -/
def State.closeCap (s : State) (h : Nat) (stuck : Bool) : State :=
  match (s.head h).cap with
  | none => s
  | some c =>
    if c.closed then s
    else
      let excess := match s.frame h c.seq with | some f => f.excess | none => 0
      let was := match s.frame h c.seq with | some f => f.short | none => false
      let short := c.lines < (s.prof h).l
      let long := stuck || excess != 0
      let s := s.modCap h fun c => { c with closed := true, hfv := false }
      let s := s.modFrame h c.seq fun f => { f with short := f.short || short, long := f.long || long }
      let s := if short && !was then s.bump (F.HP_TCNT0_SHORT h) else s
      if long then s.bump (F.HP_TCNT0_LONG h) else s

/-- HFV falls (R110, R116, R120). -/
def hfvFall (h t : Nat) (s : State) : State :=
  s.whenever (s.up && (s.prof h).headTimed) fun s =>
    let s := ((s.at t).modHead h (fun u => { u with hfvSince := none })).putLive h 3 false
    match (s.head h).cap with
    | some c => if c.hfv then s.closeCap h false else s
    | none => s

/-- An HLV edge at `t` abandons the background trim measurements that run on the head (R104): their converters' samples are
invalid to the measurement's twelfth clock, and the same converter is measured next (log entry 155). -/
def State.trimAbandon (s : State) (h t : Nat) : State :=
  let p := s.prof h
  match (s.head h).hlvAcc with
  | none => s
  | some a =>
    let e := a + s.hcyc h (p.pixdly + p.s + 12)
    let runs := s.churnRun.filter fun j => j.act == .m1 && j.res / 16 == h
    let s := if e ≤ t then s
      else s.modHead h fun u => { u with invMarks := u.invMarks ++ runs.map fun j => ⟨2 ^ (j.res % 16), t, e⟩ }
    runs.foldl (fun s j => s.churnDone .m1 j.res) s

/-- A rising edge of HLV (R110): a line, an excess line, or a refused edge. A background trim measurement that runs is
abandoned (R104). -/
def hlvRise (h t : Nat) (s : State) : State :=
  s.whenever (s.up && (s.prof h).headTimed) fun s =>
    let s := (s.at t).modHead h fun u => { u with hlvSince := some t }
    match (s.head h).cap with
    | none => s
    | some c =>
      if !c.hfv then s
      else
        let p := s.prof h
        let last := (s.head h).hlvAcc
        let busy := !elapsed last (s.hcyc h (p.pixdly + p.s)) t
        if inHoldoff last (s.hcyc h p.p / 2) t || busy then s.bump (F.HP_TCNT1_LINE_OVR h)
        else
          let s := (s.trimAbandon h t).modHead h fun u => { u with hlvAcc := some t }
          if c.lines < p.l then s.modCap h fun c => { c with lines := c.lines + 1, lineStarts := c.lineStarts ++ [t] }
          else (s.modFrame h c.seq fun f => { f with excess := f.excess + 1 }).bump (F.CL_HCNT_LONGEXC h)

/-! ### Stuck inputs (R120, R121) -/

/-- The head's stuck flag `i` of HP_TSTAT sets with a CE, once until the input deasserts (R120). -/
def State.stuckFault (s : State) (h i : Nat) (f : Fld) : State :=
  if bit (s.get (F.HP_TSTAT_LIVE h)) i then s
  else ((s.put f 1).putLive h i true).raise (20 + h) .ce (detailWord 0xFF f.lo 0x088)

/-- The input has been active for twice its expected period (R120, R121). -/
def inputStuck (i : TimingInput) (t : Nat) (s : State) : State :=
  s.whenever s.up fun s =>
    match i with
    | .hfv h =>
      s.whenever ((s.head h).hfvSince.isSome && elapsed (s.head h).hfvSince (2 * s.fperNs h) t) fun s =>
        let s := (s.at t).stuckFault h 3 (F.HP_TSTAT_HFV_STUCK h)
        match (s.head h).cap with
        | some c => if c.hfv then s.closeCap h true else s
        | none => s
    | .hlv h =>
      s.whenever ((s.head h).hlvSince.isSome && elapsed (s.head h).hlvSince (2 * s.hcyc h (s.prof h).p) t) fun s =>
        (s.at t).stuckFault h 2 (F.HP_TSTAT_HLV_STUCK h)
    | .gp h =>
      s.whenever (!(s.prof h).headTimed && (s.head h).srcSince.isSome && elapsed (s.head h).srcSince (2 * s.fperNs h) t) fun s =>
        (s.at t).stuckFault h 1 (F.HP_TSTAT_SRC_STUCK h)
    | .trig n =>
      let since := s.ring.trigSince.getD n none
      let exp := s.get (F.TRG_TRIGPER_EXPPER n)
      s.whenever (since.isSome && exp != 0 && elapsed since (2 * exp * 1000) t && !s.flag (F.TRG_TRIGSTAT_LIVE n)) fun s =>
        (((s.at t).put (F.TRG_TRIGSTAT_STUCK n) 1).put (F.TRG_TRIGSTAT_LIVE n) 1).raise 50 .ce
          (detailWord n 0 (0x04C + 0x20 * n))

/-- A stuck input deasserts: its LIVE bit clears (R120). -/
def timingInputDeassert (i : TimingInput) (t : Nat) (s : State) : State :=
  s.whenever s.up fun s =>
    let s := s.at t
    match i with
    | .hfv h => (s.modHead h fun u => { u with hfvSince := none }).putLive h 3 false
    | .hlv h => (s.modHead h fun u => { u with hlvSince := none }).putLive h 2 false
    | .gp h => (s.modHead h fun u => { u with srcSince := none }).putLive h 1 false
    | .trig n =>
      let s : State := { s with ring := { s.ring with trigSince := s.ring.trigSince.set n none } }
      s.put (F.TRG_TRIGSTAT_LIVE n) 0

/-! ### Vertical blanking (R71, R72, R108, R141) -/

/-- A tap becomes faulty, or recovers after its test has passed on 2 consecutive frames (R70, R73). -/
def State.tapFault (s : State) (h n : Nat) (f : Fld) : State :=
  ((s.putBit f n true).put (F.HP_FLT_TAP h) 1).raise (20 + h) .uc (detailWord n 3 0x00C)

/-- Entry of a per-tap list. -/
def tapAt (l : List Nat) (n : Nat) : Nat := l.getD n 0

/-- The short test of one tap over one frame's active-area codes (R72): standard deviation below half a code and a mean
within 64 codes of 0, 8,192 or 16,383. -/
def tapShort (a : Nat × Nat × Nat) : Bool :=
  let (n, sum, sq) := a
  let near := fun c => decide (sum ≤ n * (c + 64) ∧ n * (c - 64) ≤ sum)
  n != 0 && 4 * (n * sq) < 4 * (sum * sum) + n * n && (near 0 || near 8192 || near 16383)

/-- TAP_SHORT_TEST for tap `n`. -/
def State.shortTest (s : State) (h : Nat) (c : Cap) (n : Nat) : State :=
  let a := c.actSum.getD n (0, 0, 0)
  if a.1 = 0 then s
  else
    let u := s.head h
    let hit := tapShort a
    let hits := if hit then tapAt u.shortHit n + 1 else 0
    let passes := if hit then 0 else tapAt u.shortPass n + 1
    let s := s.modHead h fun u =>
      { u with shortHit := u.shortHit.set n hits, shortPass := u.shortPass.set n passes }
    let on := bit (s.get (F.HP_TAPFLT_SHORT h)) n
    if !on && 2 ≤ hits then s.tapFault h n (F.HP_TAPFLT_SHORT h)
    else if on && 2 ≤ passes then s.putBit (F.HP_TAPFLT_SHORT h) n false
    else s

/-- POLARITY_CHECK for tap `n` (R141, R142). -/
def State.polarityTest (s : State) (h : Nat) (c : Cap) (n : Nat) : State :=
  let (sum, cnt) := c.refSum.getD n (0, 0)
  if cnt = 0 then s
  else
    let u := s.head h
    let m : Int := if s.flag (F.CL_HCFG_POLEXP h) then 8192 * cnt - sum else (sum : Int) - 8192 * cnt
    let thr : Int := s.get (F.CL_HCFG_REFTHR h) * cnt
    let dis := m ≤ -thr
    let agr := thr ≤ m
    let bad := if dis then tapAt u.polBad n + 1 else if agr then 0 else tapAt u.polBad n
    let good := if agr then tapAt u.polGood n + 1 else if dis then 0 else tapAt u.polGood n
    let s := s.modHead h fun u => { u with polBad := u.polBad.set n bad, polGood := u.polGood.set n good }
    let on := bit u.swapNext n
    if !on && 2 ≤ bad then
      ((s.modHead h fun u => { u with swapNext := setBit u.swapNext n true }).bump (F.CL_HCNT_POLFLIP h)).raise
        (20 + h) .ce (detailWord n n 0x020)
    else if on && 2 ≤ good then s.modHead h fun u => { u with swapNext := setBit u.swapNext n false }
    else s

/-- The vertical blanking of the head's frames in ns, from its declared period (R71, R108). -/
def State.blankNs (s : State) (h : Nat) : Nat :=
  let p := s.prof h
  s.fperNs h - s.hcyc h (p.tmin - p.vblankMin * p.p)

/-- Vertical blanking begins (R108), with every line of the frame placed: the frame's checks are made, the open test runs on an
enabled port (Table 2-10) or is skipped. -/
def vblankStart (h t : Nat) (s : State) : State :=
  match (s.head h).cap with
  | none => s
  | some c =>
    let p := s.prof h
    let done := if p.headTimed then c.closed else p.l ≤ c.lines
    s.whenever (done && c.lines ≤ c.placed && (s.head h).blankFrom.isNone) fun s =>
      let s := ((s.at t).closeCap h false).modHead h fun u => { u with blankFrom := some t }
      let s := if s.flag (F.HP_CTRL_SHORTTEST_EN h) then (List.range p.taps).foldl (fun s n => s.shortTest h c n) s else s
      let s := if s.flag (F.CL_HCFG_POLDET_EN h) && p.reftop + p.refbot != 0 then
          (List.range p.taps).foldl (fun s n => s.polarityTest h c n) s else s
      if s.flag (F.HP_CTRL_OPENTEST_EN h) && s.flag (F.HP_CTRL_PORT_EN h) && s.inRun then
        if s.blankNs h < 40000 then s.bump (F.HP_STAT_OTSKIP h)
        else s.modHead h fun u => { u with openTest := true }
      else s

/-- The open test ends: `moves` is each tap's code movement (R71, R73), judged for the taps in use (log entry 173, DEDUCED). -/
def tapOpenTestDone (h : Nat) (moves : List Nat) (s : State) : State :=
  s.whenever (s.head h).openTest fun s =>
    let s := s.modHead h fun u => { u with openTest := false }
    (List.range (s.prof h).taps).foldl (fun s n =>
      let open_ := 160 < moves.getD n 0
      let passes := if open_ then 0 else tapAt (s.head h).openPass n + 1
      let s := s.modHead h fun u => { u with openPass := u.openPass.set n passes }
      let on := bit (s.get (F.HP_TAPFLT_OPEN h)) n
      if !on && open_ then s.tapFault h n (F.HP_TAPFLT_OPEN h)
      else if on && 2 ≤ passes then s.putBit (F.HP_TAPFLT_OPEN h) n false
      else s) s

/-- HP_TSTAT.CLRCNT (R135). -/
def hpTstatClrcnt (h : Nat) (s : State) : State :=
  s.whenever (s.access (R.HP_TSTAT h)) fun s =>
    ((s.setReg (R.HP_TCNT0 h) 0).setReg (R.HP_TCNT1 h) 0).setReg (R.HP_TCNT2 h) 0

/-! ### Meanings -/

/-- `GP_FRAME_EDGE`. -/
def execGpFrameEdge (pin : Fin 64) (level : Bool) (t : Nat) (s : State) : Result := .next (gpFrameEdge pin level t s)
/-- `TRIG_PIN_EDGE`. -/
def execTrigPinEdge (n : Fin 4) (e : PinEdge) (s : State) : Result := .next (trigPinEdge n e.level e.instant s)
/-- `LINE_START`. -/
def execLineStart (h : Head) (t : Nat) (s : State) : Result := .next (lineStart h t s)
/-- `TIMING_INPUT_DEASSERT`. -/
def execTimingInputDeassert (i : TimingInput) (t : Nat) (s : State) : Result := .next (timingInputDeassert i t s)
/-- `TAP_OPEN_TEST_DONE`. -/
def execTapOpenTestDone (h : Head) (moves : List Nat) (s : State) : Result := .next (tapOpenTestDone h moves s)
/-- `HP_TSTAT_CLRCNT`. -/
def execHpTstatClrcnt (h : Head) (s : State) : Result := .next (hpTstatClrcnt h s)

end Sys2Proof.Machine
end

