-- ==== Sys2Proof/Machine/TimingRing.lean ====
section
/-! DEFINITION. The Timing Ring (R123 to R133): time packets, marks and triggers, messages, RING_HOLD. -/

namespace Sys2Proof.Machine

/-- Change the ring logic's state. -/
def State.modRing (s : State) (f : Ring → Ring) : State := { s with ring := f s.ring }

/-- The device's path delay from the master in ns (R125), by the index the register holds (log entry 177, DEDUCED). -/
def State.pathDelay (s : State) : Nat := (s.get F.TRG_STAT_HOP - 1) * 40 + s.get F.TRG_CABLEDLY_DLY

/-- The effect instant of a mark or trigger that arrives at `t` (R126). -/
def State.effectInstant (s : State) (t : Nat) : Int := (t : Int) - s.pathDelay + s.get F.TRG_ALIGN_ALIGN

/-- While RING_HOLD is high, what arrives is sent on RING_OUT 40 ns later (R130); under a boundary-driving instruction the cell
of RING_HOLD says whether it is (R482). -/
def State.repeatOut (s : State) (kind : RingKind) (bytes : List Byte) : State :=
  let t := s.dt
  if s.ringHold then s.modRing fun g => { g with sent := some { kind := kind, bytes := bytes, at_ := t + 40 } } else s

/-- The bytes of a message with FLAGS (Table 4-2); the CRC leaves FLAGS out. -/
def RingMsg.packet (m : RingMsg) (flags : Nat) : List Byte :=
  let b := leBytes 1 m.src ++ leBytes 1 m.dst ++ leBytes 1 m.payload.length ++ m.payload
  b ++ leBytes 1 flags ++ (leBytes 2 (crc16 b)).reverse

/-- The ring receiver is locked, so characters are taken (R123). -/
def State.ringRx (s : State) : Bool := s.up && s.flag F.TRG_STAT_RXLOCK

/-- Events lost between the last sequence number and this one (R127). -/
def lostEvents (last : Option Nat) (seq : Nat) : Nat :=
  match last with
  | none => 0
  | some l => (seq + 31 - l) % 32

/-- The sequence numbers a gap passes over (R127). -/
def skipped (last : Option Nat) (seq : Nat) : List Nat :=
  match last with
  | none => []
  | some l => (List.range (lostEvents last seq)).map fun k => (l + 1 + k) % 32

/-- A late effect instant takes effect at arrival and is counted (R126). -/
def State.countLate (s : State) (late : Bool) : State := if late then s.bump F.TRG_STAT_LATE else s

/-- A MARK's effect instant arrives: heads that follow the stream get a pending start (R107). -/
def State.markNow (s : State) (stream instant : Nat) : State :=
  (s.sourceEvent 1 stream instant instant).hkEvent 3 stream instant

/-- A received event in its place by effect instant. -/
def markInsert (m : MarkEvent) (l : List MarkEvent) : List MarkEvent :=
  l.takeWhile (fun x => x.instant ≤ m.instant) ++ m :: l.dropWhile fun x => x.instant ≤ m.instant

/-- A MARK is received (R126, R127): counted losses, then its effect now or at its instant. -/
def State.markReceived (s : State) (stream seq t : Nat) : State :=
  let last := s.ring.markSeq.getD stream none
  let s := ((s.at t).repeatOut .mark (leBytes 1 (stream + 8 * seq))).bumpBy F.TRG_STAT_MKLOST (lostEvents last seq)
  let s := s.modRing fun g => { g with markSeq := g.markSeq.set stream (some seq) }
  let e := s.effectInstant t
  if e < t then (s.countLate true).markNow stream t
  else s.modRing fun g =>
    { g with marks := markInsert { trig := false, stream := stream, seq := seq, instant := e.toNat } g.marks }

/-- A TRIG character of stream n (R122, R126, R127): a late one takes effect at once, another at its effect instant. -/
def ringTrigReceived (stream seq t : Nat) (s : State) : State :=
  s.whenever s.ringRx fun s =>
    let s := ((s.at t).trigsDue t).repeatOut .trig (leBytes 1 (stream + 8 * seq))
    let s := s.bumpBy F.TRG_STAT_MKLOST (lostEvents (s.ring.trigSeq.getD stream none) seq)
    let s := s.modRing fun g => { g with trigSeq := g.trigSeq.set stream (some seq) }
    let e := s.effectInstant t
    let s := s.modRing fun g =>
      { g with marks := markInsert { trig := true, stream := stream, seq := seq, instant := max t e.toNat } g.marks }
    (s.countLate (e < t)).trigsDue t

/-- The receiver locks (R123, R131). -/
def ringRxLock (s : State) : State :=
  s.whenever (s.up && s.flag F.TRG_CTRL_EN) fun s => (s.put F.TRG_STAT_RXLOCK 1).put F.TRG_STAT_UPLOSS 0

/-- The receiver loses lock (R131): a CE, and the ring-sourced sample clocks move to REF (R88). -/
def ringUpstreamLoss (s : State) : State :=
  s.whenever s.ringRx fun s =>
    let s := (s.put F.TRG_STAT_RXLOCK 0).put F.TRG_STAT_UPLOSS 1
    let s := (s.repeatOut .idle []).raise 50 .ce (detailWord 0xFF 29 0x014)
    (List.range 4).foldl (fun s r => sclkFallback r s) s

/-- The hop index follows a TIME packet (R125). When HOPERR clears, and that its CE comes once per run, is log entry 177
(DEDUCED). -/
def State.hopIndex (s : State) (hop : Nat) : State :=
  let bad := 31 < hop + 1
  let was := s.flag F.TRG_STAT_HOPERR
  let s := (s.put F.TRG_STAT_HOP (hop + 1)).putB F.TRG_STAT_HOPERR bad
  if bad && !was then s.raise 50 .ce (detailWord 0xFF 28 0x014) else s

/-- The error of a TIME packet against TRG_TAIOFF steers DT's rate, resets the offset, or moves LOCKED (R128). The rate
correction chosen within ±200 ppm is free (log entry 16); the first packet, which sets the offset, comes once after RESET and
counts as good (log entry 178, DEDUCED). -/
def State.discipline (s : State) (tai t : Nat) : State :=
  let diff : Int := (tai : Int) - t
  let off := signed 64 (s.get64 F.TRG_TAIOFF_LO_TAIOFF F.TRG_TAIOFF_HI_TAIOFF)
  let err := (diff - off).natAbs
  let setOff := fun (s : State) => s.put64 F.TRG_TAIOFF_LO_TAIOFF F.TRG_TAIOFF_HI_TAIOFF (unsigned 64 diff)
  let s := s.modRing fun g => { g with lastTime := some t }
  if !s.ring.offsetSet then
    (setOff (s.modRing fun g => { g with offsetSet := true, goodTime := 1 })).put F.TRG_DTSTAT_SRC 1
  else if 100000 < err then
    ((setOff (s.modRing fun g => { g with goodTime := 0 })).bump F.TRG_DTSTAT_TAISTEP).put F.TRG_DTSTAT_LOCKED 0
  else
    let (v, s) := s.freshUpTo 400
    let n := if err ≤ 100 then s.ring.goodTime + 1 else 0
    let s := s.modRing fun g => { g with goodTime := n, steer := (v : Int) - 200 }
    let s := s.put F.TRG_DTSTAT_SRC 1
    if 16 ≤ n then (s.put F.TRG_DTSTAT_LOCKED 1).modRing fun g => { g with everLocked := true }
    else if 1000 < err then s.put F.TRG_DTSTAT_LOCKED 0
    else s

/-- A TIME packet: 6 bytes of TAI seconds, 4 of nanoseconds, HOP, CRC (R123, R124, R125, R128). -/
def ringTimePacket (bytes : List Byte) (t : Nat) (s : State) : State :=
  s.whenever s.ringRx fun s =>
    let s := (s.at t).repeatOut .time (patch bytes 10 (leBytes 1 (leAt bytes 10 1 + 1)))
    if beNat ((bytes.drop 11).take 2) != crc16 (bytes.take 10) then s.bump F.TRG_ERRCNT_CRC
    else
      let s := s.hopIndex (leAt bytes 10 1)
      let tai := beNat (bytes.take 6) * 1000000000 + beNat ((bytes.drop 6).take 4) + s.pathDelay
      if s.flag F.TRG_CTRL_DISC then s.discipline tai t else s

/-- No valid TIME packet for 10 ms (R128). -/
def dtDisciplineTimeout (t : Nat) (s : State) : State :=
  match s.ring.lastTime with
  | none => s
  | some l =>
    s.whenever (s.up && l + 10000000 ≤ t) fun s =>
      let s := ((s.at t).put F.TRG_DTSTAT_LOCKED 0).modRing fun g => { g with goodTime := 0, lastTime := none }
      if s.get F.TRG_DTSTAT_SRC = 1 then s.put F.TRG_DTSTAT_SRC 0 else s

/-! ### Messages (R132) -/

/-- TRG_MSGRX, TRG_MSGRXHDR and RXCOUNT show the head entry and the number of entries. -/
def State.syncRx (s : State) : State :=
  let s := s.put F.TRG_MSGSTAT_RXCOUNT s.ring.rx.length
  let (src, pay) := match s.ring.rx.head? with | some m => (m.src, m.payload) | none => (0, [])
  let s := (s.put F.TRG_MSGRXHDR_LEN pay.length).put F.TRG_MSGRXHDR_SRC src
  (List.range 4).foldl (fun s k => s.put (F.TRG_MSGRX_W k) (leAt pay (4 * k) 4)) s

/-- A MSG packet is sound: LEN in range and its CRC good (R123, R124). One whose LEN alone is out of range counts as a bad
packet (log entry 176, DESIGN CHOICE). -/
def msgSound (bytes : List Byte) : Bool :=
  let len := leAt bytes 2 1
  len != 0 && len ≤ 16 && beNat ((bytes.drop (4 + len)).take 2) == crc16 (bytes.take (3 + len))

/-- A MSG packet: SRC, DST, LEN, payload, FLAGS, CRC (R123, R124, R132). It is repeated, with ACK set where it is copied. -/
def ringMsgReceived (bytes : List Byte) (s : State) : State :=
  s.whenever s.ringRx fun s =>
    let len := leAt bytes 2 1
    let s := s.repeatOut .msg bytes
    if !msgSound bytes then s.bump F.TRG_ERRCNT_CRC
    else
      let dst := leAt bytes 1 1
      let s := s.modRing fun g => { g with acked := false }
      if dst = 0xFF ∨ dst = s.get F.TRG_STAT_HOP then
        if s.ring.rx.length < 8 then
          let m : RingMsg := { src := leAt bytes 0 1, dst := dst, payload := (bytes.drop 3).take len }
          let s := s.repeatOut .msg (patch bytes (3 + len) (leBytes 1 (leAt bytes (3 + len) 1 ||| 1)))
          (s.modRing fun g => { g with rx := g.rx ++ [m], acked := true }).syncRx
        else s.bump F.TRG_MSGSTAT_RXOVF
      else s

/-- TRG_MSGCMD.SEND (R132). -/
def msgSend (s : State) : State :=
  s.whenever (s.access R.TRG_MSGCMD) fun s =>
    let len := s.get F.TRG_MSGCMD_LEN
    if s.flag F.TRG_MSGSTAT_TXBUSY || len = 0 || 16 < len then s.put F.TRG_MSGSTAT_VALUE_REJ 1
    else
      let pay := ((List.range 4).flatMap fun k => leBytes 4 (s.get (F.TRG_MSGTX_W k))).take len
      let m : RingMsg := { src := s.get F.TRG_STAT_HOP, dst := s.get F.TRG_MSGCMD_DST, payload := pay }
      let t := s.dt
      (s.put F.TRG_MSGSTAT_TXBUSY 1).modRing fun g => { g with tx := some m, txSent := none, sendAt := t }

/-- The queued message goes onto the ring at a packet boundary (R132). -/
def msgInsert (t : Nat) (s : State) : State :=
  match s.ring.tx with
  | none => s
  | some m =>
    s.whenever (s.ringHold && s.ring.txSent.isNone) fun s =>
      (s.at t).modRing fun g => { g with txSent := some t, sent := some { kind := .msg, bytes := m.packet 0, at_ := t } }

/-- The device's own message ends with a TXRESULT code (R132). -/
def State.txEnd (s : State) (code : Nat) : State :=
  ((s.put F.TRG_MSGSTAT_TXBUSY 0).put F.TRG_MSGSTAT_TXRESULT code).modRing fun g => { g with tx := none, txSent := none }

/-- The device's own message returns and is removed (R132): ACKED when ACK is set, for a broadcast as it is intact. A packet
that is not sound is counted and discarded (R123), so the message is still awaited. -/
def msgReturned (bytes : List Byte) (s : State) : State :=
  match s.ring.tx, s.ring.txSent with
  | some m, some _ =>
    s.whenever s.ringRx fun s =>
      if !msgSound bytes then s.bump F.TRG_ERRCNT_CRC
      else
        let ack := bit (leAt bytes (3 + leAt bytes 2 1) 1) 0
        (s.repeatOut .idle []).txEnd (if m.dst = 0xFF ∨ ack then 1 else 2)
  | _, _ => s

/-- A sent message has not returned within 100 µs of SEND (R132). -/
def msgLostTimeout (t : Nat) (s : State) : State :=
  s.whenever (s.ring.tx.isSome && s.ring.sendAt + 100000 ≤ t) fun s => (s.at t).txEnd 3

/-- TRG_MSGCMD.POP (R132). -/
def msgPop (s : State) : State :=
  s.whenever (s.access R.TRG_MSGCMD) fun s => (s.modRing fun g => { g with rx := g.rx.drop 1 }).syncRx

/-! ### RING_HOLD (R133) -/

/-- Setting TRG_CTRL.EN starts the path self-test; so does writing it again after PATHFAIL. A write that finds EN set and no
PATHFAIL changes nothing. -/
def ringEnable (s : State) : State :=
  s.whenever (s.access R.TRG_CTRL && !(s.flag F.TRG_CTRL_EN && !s.flag F.TRG_STAT_PATHFAIL)) fun s =>
    ((s.put F.TRG_CTRL_EN 1).put F.TRG_STAT_PATHFAIL 0).modRing fun g =>
      { g with selftest := true, passed := false, txOffAt := none }

/-- The self-test of 1,024 characters ends. -/
def ringSelftestDone (pass : Bool) (s : State) : State :=
  s.whenever (s.up && s.ring.selftest) fun s =>
    let t := s.dt
    if pass then s.modRing fun g =>
        { g with selftest := false, passed := true, txOn := true, sent := some { kind := .idle, at_ := t } }
    else ((s.modRing fun g => { g with selftest := false, passed := false }).put F.TRG_STAT_PATHFAIL 1).raise 50 .uc
      (detailWord 0xFF 27 0x014)

/-- After 256 IDLE characters RING_HOLD goes high. -/
def ringHoldRaise (s : State) : State :=
  s.whenever (s.up && s.flag F.TRG_CTRL_EN && s.ring.passed && s.ring.txOn) fun s => s.put F.TRG_STAT_HOLD 1

/-- Clearing TRG_CTRL.EN drives RING_HOLD low at once; the transmitter stops 10 µs later. -/
def ringDisable (t : Nat) (s : State) : State :=
  s.whenever (s.access R.TRG_CTRL) fun s =>
    (((s.at t).put F.TRG_CTRL_EN 0).put F.TRG_STAT_HOLD 0).modRing fun g =>
      { g with selftest := false, passed := false, txOffAt := some (t + 10000) }

/-- The transmitter stops. -/
def ringTxOff (t : Nat) (s : State) : State :=
  match s.ring.txOffAt with
  | none => s
  | some d => s.whenever (d ≤ t) fun s => (s.at t).modRing fun g => { g with txOn := false, txOffAt := none, sent := none }

/-- TRG_CTRL.CLRCNT (R135): received triggers whose instant has come count first (R126). -/
def trgClrcnt (s : State) : State :=
  s.whenever (s.access R.TRG_CTRL) fun s =>
    (((s.trigsDue s.dt).setReg R.TRG_ERRCNT 0).put F.TRG_STAT_MKLOST 0).forEach 4 (fun _ => true) fun n s =>
      s.setReg (R.TRG_TRIGCNT n) 0

/-- A bad character or packet is counted and discarded (R123). -/
def ringCharError (packet : Bool) (s : State) : State :=
  s.whenever s.up fun s => s.bump (if packet then F.TRG_ERRCNT_CRC else F.TRG_ERRCNT_CHAR)

/-- The ring logic drops to its state in RESET (Table 4-3). -/
def State.ringReset (s : State) : State := { s with ring := {} }

/-! ### Meanings -/

/-- `RING_TRIG_RECEIVED`. -/
def execRingTrigReceived (n : Fin 4) (q : Fin 32) (t : Nat) (s : State) : Result := .next (ringTrigReceived n q t s)
/-- `RING_RX_LOCK`. -/
def execRingRxLock (s : State) : Result := .next (ringRxLock s)
/-- `RING_UPSTREAM_LOSS`. -/
def execRingUpstreamLoss (s : State) : Result := .next (ringUpstreamLoss s)
/-- `RING_TIME_PACKET`. -/
def execRingTimePacket (bs : List Byte) (t : Nat) (s : State) : Result := .next (ringTimePacket bs t s)
/-- `DT_DISCIPLINE_TIMEOUT`. -/
def execDtDisciplineTimeout (t : Nat) (s : State) : Result := .next (dtDisciplineTimeout t s)
/-- `RING_MSG_RECEIVED`. -/
def execRingMsgReceived (bs : List Byte) (s : State) : Result := .next (ringMsgReceived bs s)
/-- `SEND`. -/
def execMsgSend (s : State) : Result := .next (msgSend s)
/-- `MSG_INSERT`. -/
def execMsgInsert (t : Nat) (s : State) : Result := .next (msgInsert t s)
/-- `MSG_RETURNED`. -/
def execMsgReturned (bs : List Byte) (s : State) : Result := .next (msgReturned bs s)
/-- `MSG_LOST_TIMEOUT`. -/
def execMsgLostTimeout (t : Nat) (s : State) : Result := .next (msgLostTimeout t s)
/-- `POP`. -/
def execMsgPop (s : State) : Result := .next (msgPop s)
/-- `RING_ENABLE`. -/
def execRingEnable (s : State) : Result := .next (ringEnable s)
/-- `RING_SELFTEST_DONE`. -/
def execRingSelftestDone (pass : Bool) (s : State) : Result := .next (ringSelftestDone pass s)
/-- `RING_HOLD_RAISE`. -/
def execRingHoldRaise (s : State) : Result := .next (ringHoldRaise s)
/-- `RING_DISABLE`. -/
def execRingDisable (t : Nat) (s : State) : Result := .next (ringDisable t s)
/-- `RING_TX_OFF`. -/
def execRingTxOff (t : Nat) (s : State) : Result := .next (ringTxOff t s)
/-- `TRG_CLRCNT`. -/
def execTrgClrcnt (s : State) : Result := .next (trgClrcnt s)
/-- `RING_CHAR_ERROR`. -/
def execRingCharError (packet : Bool) (s : State) : Result := .next (ringCharError packet s)

end Sys2Proof.Machine
end

