-- ==== Sys2Proof/Machine/Tables.lean ====
section
/-! DEFINITION. The coefficient tables in device DRAM (R149 to R157): where copies, mirrors and delivery buffers lie, what
is write-protected, mirrored writes, and the leaf and residual swaps. -/

namespace Sys2Proof.Machine

/-! ### Placement (R150 to R153) -/

/-- 28 GiB: the usable device DRAM (R152). -/
def dramSize : Nat := 0x700000000

/-- Active pixels of a head. -/
def Profile.pixels (p : Profile) : Nat := p.width * p.height

/-- The base of copy `i` of a head: 0 leaf A, 1 leaf B, 2 residual A, 3 residual B. -/
def State.copyBase (s : State) (h i : Nat) : Nat :=
  4096 * (if i = 0 then s.get (F.CL_HLA_BASE h) else if i = 1 then s.get (F.CL_HLB_BASE h)
    else if i = 2 then s.get (F.CL_HRA_BASE h) else s.get (F.CL_HRB_BASE h))

/-- The base of the mirror of copy `i`. -/
def State.mirBase (s : State) (h i : Nat) : Nat :=
  4096 * (if i = 0 then s.get (F.CL_HMLA_BASE h) else if i = 1 then s.get (F.CL_HMLB_BASE h)
    else if i = 2 then s.get (F.CL_HMRA_BASE h) else s.get (F.CL_HMRB_BASE h))

/-- The size of copy `i` (R150, R151). -/
def State.copySize (s : State) (h i : Nat) : Nat :=
  if i < 2 then 64 + 12 * (s.prof h).pixels else 2 * (s.prof h).pixels

/-- A mirror is enabled (R153). -/
def State.mirrored (s : State) (h i : Nat) : Bool := bit (s.get (F.CL_HMIR_EN h)) i

/-- Output width and height of a head's picture (R262). -/
def State.outSize (s : State) (h : Nat) : Nat × Nat :=
  if s.flag (F.FP_HPIPE_SC_EN h) then (s.get (F.FP_HOSIZE_OW h), s.get (F.FP_HOSIZE_OH h))
  else ((s.prof h).width, (s.prof h).height)

/-- Bytes per pixel of a packed format: display 1 RGB888, 2 RGB101010, 3 YUV422; machine vision 1 T16, 2 T32, 3 C24. -/
def pixBytes (kind fmt : Nat) : Nat :=
  if kind = 0 then (if fmt = 1 then 3 else if fmt = 2 then 4 else 2)
  else if fmt = 1 then 2 else 4

/-- ⌈n / 64⌉ × 64. -/
def up64 (n : Nat) : Nat := ceilDiv n 64 * 64

/-- Pitch and size of a delivery buffer of a kind (0 display, 1 coding, 2 machine vision) and format (Table 10-3). -/
def bufShape (kind fmt ow oh : Nat) : Nat × Nat :=
  if kind = 1 then
    let p := up64 ow
    let h16 := ceilDiv oh 16 * 16
    if fmt = 1 then (p, p * (h16 * 3 / 2 + 3)) else (p, p * (h16 + 3) + up64 (ow / 2) * h16)
  else
    let p := up64 (ow * pixBytes kind fmt)
    (p, p * (oh + 3))

/-- The format of a kind in FP_HOUT (R264). -/
def State.outFmt (s : State) (h kind : Nat) : Nat :=
  if kind = 0 then s.get (F.FP_HOUT_DISP h) else if kind = 1 then s.get (F.FP_HOUT_COD h) else s.get (F.FP_HOUT_MV h)

/-- Base unit and number of buffers of a kind's ring (R266). -/
def State.bufRing (s : State) (h kind : Nat) : Nat × Nat :=
  if kind = 0 then (s.get (F.FP_HDBD_BASE h), s.get (F.FP_HDBD_NBUF h))
  else if kind = 1 then (s.get (F.FP_HDBC_BASE h), s.get (F.FP_HDBC_NBUF h))
  else (s.get (F.FP_HDBM_BASE h), s.get (F.FP_HDBM_NBUF h))

/-- The output size of a kind: machine vision is never scaled (R34, R262). -/
def State.kindSize (s : State) (h kind : Nat) : Nat × Nat :=
  if kind = 2 then ((s.prof h).width, (s.prof h).height) else s.outSize h

/-- Buffer size rounded up to 4 KiB (R266). -/
def State.bufStride (s : State) (h kind : Nat) : Nat :=
  let (ow, oh) := s.kindSize h kind
  ceilDiv (bufShape kind (s.outFmt h kind) ow oh).2 4096 * 4096

/-- The size of one through-memory buffer (R256). -/
def State.tmStride (s : State) (h : Nat) : Nat := ceilDiv (64 + 4 * (s.prof h).pixels) 4096 * 4096

/-- A head is finished through memory (R28, R252). -/
def State.throughMem (s : State) (h : Nat) : Bool := !s.flag (F.FP_HASSIGN_INLINE h)

/-- A range of DRAM: first byte and number of bytes. -/
abbrev Range := Nat × Nat

/-- The statistics record ring of a head (R288). -/
def State.statRange (s : State) (h : Nat) : List Range :=
  let n := s.get (F.ST_HSBUF_NSB h)
  if n = 0 then [] else [(4096 * s.get (F.ST_HSBUF_BASE h), n * 24576)]

/-- Two ranges overlap. -/
def overlaps (a b : Range) : Bool := a.1 < b.1 + b.2 && b.1 < a.1 + a.2

/-- Address `a` lies in a range. -/
def inRange (r : Range) (a : Nat) : Bool := r.1 ≤ a && a < r.1 + r.2

/-- Copies and enabled mirrors of a head with a profile: (index, is mirror, range). -/
def State.copyRanges (s : State) (h : Nat) : List (Nat × Bool × Range) :=
  if !s.hasProf h then []
  else (List.range 4).flatMap fun i =>
    (i, false, (s.copyBase h i, s.copySize h i)) ::
      (if s.mirrored h i then [(i, true, (s.mirBase h i, s.copySize h i))] else [])

/-- Delivery rings and through-memory buffers of a head. -/
def State.bufRanges (s : State) (h : Nat) : List Range :=
  if !s.hasProf h then []
  else
    ((List.range 3).flatMap fun k =>
      let (b, n) := s.bufRing h k
      if s.outFmt h k = 0 ∨ n = 0 then [] else [(4096 * b, n * s.bufStride h k)]) ++
    (if s.throughMem h then [(4096 * s.get (F.FP_HTM_BASE h), 2 * s.tmStride h)] else [])

/-! Radiometric set copies (R215, R223): copy 0 A, 1 B. -/

/-- Bytes of a radiometric set. -/
def radSize : Nat := 49216

/-- Base of a set copy, and of its mirror. -/
def State.radBase (s : State) (h i : Nat) : Nat :=
  4096 * (if i = 0 then s.get (F.FP_RSA_BASE h) else s.get (F.FP_RSB_BASE h))
def State.radMirBase (s : State) (h i : Nat) : Nat :=
  4096 * (if i = 0 then s.get (F.FP_RMA_BASE h) else s.get (F.FP_RMB_BASE h))

/-- The mirror of a set copy is enabled, and synced. -/
def State.radMirrored (s : State) (h i : Nat) : Bool :=
  if i = 0 then s.flag (F.FP_RCFG_MIRA h) else s.flag (F.FP_RCFG_MIRB h)
def State.radSynced (s : State) (h i : Nat) : Bool :=
  if i = 0 then s.flag (F.FP_RSTAT_MIRSYNC_A h) else s.flag (F.FP_RSTAT_MIRSYNC_B h)

/-- Set copies and enabled mirrors of a head (R223; log entry 38). -/
def State.radRanges (s : State) (h : Nat) : List (Nat × Bool × Range) :=
  (List.range 2).flatMap fun i =>
    (i, false, (s.radBase h i, radSize)) :: (if s.radMirrored h i then [(i, true, (s.radMirBase h i, radSize))] else [])

/-- Every buffer of a head that keeps the placement rules of R152: its delivery rings, through-memory buffers and record ring
(R256, R266, R288). -/
def State.outRanges (s : State) (h : Nat) : List Range := s.bufRanges h ++ s.statRange h

/-- Every copy, mirror and buffer of every head but the one named (R152). -/
def State.otherRanges (s : State) (h i : Nat) (mir : Bool) : List Range :=
  (List.range 8).flatMap fun g =>
    ((s.copyRanges g).filter fun c => !(g == h && c.1 == i && c.2.1 == mir)).map (fun c => c.2.2) ++ s.outRanges g

/-- A range meets the placement rules of R152 against a list of others. -/
def placed (r : Range) (others : List Range) : Bool := r.1 + r.2 ≤ dramSize && !others.any (overlaps r)

/-- Copy `i` is placed as R152 says. -/
def State.copyPlaced (s : State) (h i : Nat) : Bool :=
  s.hasProf h && placed (s.copyBase h i, s.copySize h i) (s.otherRanges h i false)

/-- The mirror of copy `i` is placed as R153 says: 8 units apart modulo 16, and R152. -/
def State.mirPlaced (s : State) (h i : Nat) : Bool :=
  s.hasProf h && s.mirBase h i / 4096 % 16 == (s.copyBase h i / 4096 + 8) % 16 &&
  placed (s.mirBase h i, s.copySize h i) (s.otherRanges h i true)

/-- A leaf-table header is valid for the head (R150, Table 5-5). -/
def State.leafHeaderOk (s : State) (h : Nat) (hdr : List Byte) : Bool :=
  leAt hdr 0 4 == 0x4641454C && leAt hdr 4 2 == 1 && leAt hdr 8 2 == (s.prof h).width && leAt hdr 0xA 2 == (s.prof h).height &&
  leAt hdr 0x3C 4 == crc32 (hdr.take 0x3C)

/-- The copy of a kind in use: leaf 0 or 1, residual 2 or 3. -/
def State.leafSel (s : State) (h : Nat) : Nat := s.get (F.CL_HSTAT_LSEL h)
def State.resSel (s : State) (h : Nat) : Nat := 2 + s.get (F.CL_HSTAT_RSEL h)

/-! ### Mirrored writes (R153) -/

/-- The mirror addresses of a DRAM byte: one for each enabled mirror whose primary holds it. -/
def State.mirrorsOf (s : State) (a : Nat) : List Nat :=
  (List.range 8).flatMap fun h =>
    (if !s.hasProf h || s.get (F.CL_HMIR_EN h) = 0 then []
    else (List.range 4).filterMap fun i =>
      if s.mirrored h i && inRange (s.copyBase h i, s.copySize h i) a then
        some (s.mirBase h i + (a - s.copyBase h i)) else none) ++
    (List.range 2).filterMap fun i =>
      if s.radMirrored h i && inRange (s.radBase h i, radSize) a then some (s.radMirBase h i + (a - s.radBase h i)) else none

/-- Store bytes in device DRAM alone; a byte on a lost channel is discarded (R383). -/
def State.dramPut (s : State) : Nat → List Byte → State
  | _, [] => s
  | a, b :: bs => (if s.lostAt a then s else s.dramWriteRaw a [b]).dramPut (a + 1) bs

/-- Write bytes to device DRAM; a byte on a lost channel is discarded (R383), a byte of a mirrored copy is written to its
mirror too (R153). -/
def State.dramWrite (s : State) : Nat → List Byte → State
  | _, [] => s
  | a, b :: bs =>
    let put := fun (s : State) x => if s.lostAt x then s else s.dramWriteRaw x [b]
    ((s.mirrorsOf a).foldl put (put s a)).dramWrite (a + 1) bs

/-- Bytes of copy `i` of a head at address `a`: a byte on a lost channel is served from the synced mirror (R154). -/
def State.tableBytes (s : State) (h i a n : Nat) : List Byte :=
  (List.range n).map fun k =>
    let x := a + k
    if s.lostAt x && s.mirrored h i && bit (s.get (F.CL_HSTAT_MIRSYNC h)) i then
      s.dramByte (s.mirBase h i + (x - s.copyBase h i))
    else s.dramByte x

/-! ### Write protection (R155, R195, R206, R256, R266) -/

/-- The bytes of a history ring slot (R205). -/
def State.planeSlot (s : State) (h : Nat) : Nat := ceilDiv (64 + 4 * (s.prof h).pixels) 4096 * 4096
/-- The history ring of a head (R205). -/
def State.histRange (s : State) (h : Nat) : Range :=
  (4096 * s.get (F.CX_DHIST_BASE h), s.get (F.CX_DFCFG_DEPTH h) * s.planeSlot h)
/-- The work area of a head (R194). -/
def State.workRange (s : State) (h : Nat) : Range := (4096 * s.get (F.CX_SWORK_BASE h), 8 * (s.prof h).pixels)

/-- A running reprocessing job of the head names copy `i` (0 to 3), or set copy `i` (R342). -/
def State.jobNames (s : State) (h i : Nat) (set : Bool) : Bool :=
  s.jobs.any fun j =>
    let c := leAt j.body 0x11 1
    j.started.isSome && leAt j.body 0x10 1 == h &&
    (if set then i == (bit c 2).toNat else i == (bit c 0).toNat || i == 2 + (bit c 1).toNat)

/-- A refit of the head runs (R206): its activity is granted and begun, and it has not ended. -/
def State.refitRuns (s : State) (h : Nat) : Bool := within (s.shut h).refitPhase 2 5

/-- Copy `i` of a head is write-protected: in use while it streams, named by a pending swap or a running job, or inactive
during an event, a refresh or a refit. -/
def State.copyProtected (s : State) (h i : Nat) : Bool :=
  let u := s.head h
  let inUse := i == s.leafSel h || i == s.resSel h
  (s.streams h && (inUse || (i < 2 && (u.leafPend || u.txnSwap.contains 0)) || (2 ≤ i && (u.resPend || u.txnSwap.contains 1)))) ||
  s.shutRunning h || (i < 2 && s.refitRuns h && !inUse) || s.jobNames h i false

/-- Set copy `i` of a head is write-protected (R223): in use while it streams, or named by a pending swap or a running job. -/
def State.radProtected (s : State) (h i : Nat) : Bool :=
  (s.streams h && (i == s.get (F.FP_RSTAT_SEL h) || (s.head h).radPend || (s.head h).txnSwap.contains 2)) || s.jobNames h i true

/-- A frame that a set copy is still to convert (R214, R223): HELD slots, dropped frames and frames of a shutter event are not
converted. -/
def Frame.unconverted (f : Frame) : Bool := !f.converted && !f.held && !f.decimated && f.role == .picture

/-- The set copy in force at a frame's start and its mirror, at the bases the frame's own settings give (R214). -/
def Frame.radNamed (f : Frame) : List Range :=
  let h := f.head
  let at_ := fun (b : Nat → Fld) => (4096 * snapGet f.snap (b h), radSize)
  if f.radSel then
    at_ F.FP_RSB_BASE :: (if snapFlag f.snap (F.FP_RCFG_MIRB h) then [at_ F.FP_RMB_BASE] else [])
  else at_ F.FP_RSA_BASE :: (if snapFlag f.snap (F.FP_RCFG_MIRA h) then [at_ F.FP_RMA_BASE] else [])

/-- The ranges of a head that discard writes from outside, with the flag that reports it: 0 CL_HSTAT.PROT_WR,
2 FP_RSTAT.PROT_WR (R319). -/
def State.protRanges (s : State) (h : Nat) : List (Nat × Range) :=
  (((s.copyRanges h).filter fun c => s.copyProtected h c.1).map fun c => (0, c.2.2)) ++
  (((s.radRanges h).filter fun c => s.radProtected h c.1).map fun c => (2, c.2.2)) ++
  ((s.frames.filter fun f => f.head == h && f.unconverted).flatMap fun f => f.radNamed.map fun r => (2, r)) ++
  (if s.streams h then (s.bufRanges h).map (fun r => (0, r)) ++ (s.statRange h).map fun r => (3, r) else []) ++
  (if s.shutRunning h then [(0, s.workRange h), (0, s.histRange h)] else []) ++
  (if s.refitRuns h then [(0, s.histRange h)] else [])

/-! ### Swaps (R156, R157) -/

/-- The acceptance check of bringing copy `i` into use: a code of Table 5-6, 0 when it may be used. -/
def State.swapCheck (s : State) (h i : Nat) : Nat :=
  if !s.copyPlaced h i then 4
  else if s.mirrored h i && !s.mirPlaced h i then 4
  else if i < 2 && !s.leafHeaderOk h (s.tableBytes h i (s.copyBase h i) 64) then 3
  else if s.mirrored h i && !bit (s.get (F.CL_HSTAT_MIRSYNC h)) i then 5
  else 0

/-- The copy a swap of a kind (0 leaf, 1 residual) brings into use. -/
def State.swapTarget (s : State) (h kind : Nat) : Nat :=
  if kind = 0 then 1 - s.leafSel h else 5 - s.resSel h

/-- A swap takes effect. -/
def State.swapNow (s : State) (h kind : Nat) : State :=
  if kind = 0 then s.put (F.CL_HSTAT_LSEL h) (1 - s.get (F.CL_HSTAT_LSEL h))
  else s.put (F.CL_HSTAT_RSEL h) (1 - s.get (F.CL_HSTAT_RSEL h))

/-- The register that shows a swap's result. -/
def swapRes (h kind : Nat) : Fld := if kind = 2 then F.FP_RSTAT_SWAPRES h else F.CL_HSTAT_SWAPRES h

/-- SWAPRES shows a refusal; a set refused under R216 or R223 sets FP_RSTAT.VALUE_REJ too (R228). -/
def State.swapRefuse (s : State) (h kind code : Nat) : State :=
  let s := s.put (swapRes h kind) code
  if kind = 2 ∧ (code = 3 ∨ code = 4) then s.put (F.FP_RSTAT_VALUE_REJ h) 1 else s

/-- A swap of the kind (0 leaf, 1 residual, 2 radiometric set) is pending for the head (R157). -/
def State.swapPending (s : State) (h kind : Nat) : Bool :=
  let u := s.head h
  u.txnSwap.contains kind || (if kind = 0 then u.leafPend else if kind = 1 then u.resPend else u.radPend)

/-- CL_HCMD.LSWAP or RSWAP, direct, in SETUP: at once (R156), BUSY_MAINT while one is pending (R157). -/
def clSwap (h kind : Nat) (s : State) : State :=
  s.whenever (s.access (R.CL_HCMD h)) fun s =>
    if s.mode != .setup then s.put (F.CL_HSTAT_DIRECT_REFUSED h) 1
    else
      let code := if s.swapPending h kind then 6 else s.swapCheck h (s.swapTarget h kind)
      if code = 0 then (s.swapNow h kind).put (F.CL_HSTAT_SWAPRES h) 1
      else s.put (F.CL_HSTAT_SWAPRES h) code

/-- CL_HCMD.LSWAP. -/
def lswap (h : Nat) (s : State) : State := clSwap h 0 s
/-- CL_HCMD.RSWAP. -/
def rswap (h : Nat) (s : State) : State := clSwap h 1 s

/-! ### Mirrors (R153) -/

/-- Setting and clearing CL_HMIR bits from SETUP or a transaction: a bad base leaves the bit 0 with BAD_BASE; a set bit
starts the copy of the primary into the mirror. -/
def State.setMirrors (s : State) (h v : Nat) : State :=
  (List.range 4).foldl (fun s i =>
    if !bit v i then (s.putBit (F.CL_HMIR_EN h) i false).putBit (F.CL_HSTAT_MIRSYNC h) i false
    else if s.mirrored h i then s
    else if s.mirPlaced h i then
      let s := s.putBit (F.CL_HMIR_EN h) i true
      { s with mirCopies := s.mirCopies ++ [(h, i)] }
    else s.put (F.CL_HSTAT_SWAPRES h) 4) s

/-- A direct write of CL_HMIR (R153, R158). -/
def clHmirWrite (h : Nat) (v : Word) (s : State) : State :=
  s.whenever (s.access (R.CL_HMIR h)) fun s =>
    if s.mode != .setup then s.put (F.CL_HSTAT_DIRECT_REFUSED h) 1 else s.setMirrors h (v.toNat % 16)

/-- CL_HCMD.MSYNC and FP_RCMD.MSYNC: the copy of every enabled mirror restarts (R153, R223). -/
def msync (h : Nat) (rad : Bool) (s : State) : State :=
  s.whenever (s.access (if rad then R.FP_RCMD h else R.CL_HCMD h) && s.mode != .safe) fun s =>
    let l := if rad then ((List.range 2).filter fun i => s.radMirrored h i).map (· + 4)
      else (List.range 4).filter fun i => s.mirrored h i
    { s with mirCopies := (s.mirCopies.filter fun e => !(e.1 == h && l.contains e.2)) ++ l.map fun i => (h, i) }

/-- The copy of a primary into its mirror completes (R153, R223). -/
def State.mirrorDone (s : State) (h i : Nat) : State :=
  if 4 ≤ i then
    if s.mirCopies.contains (h, i) && s.radMirrored h (i - 4) then
      let s : State := { s with mirCopies := s.mirCopies.filter (· != (h, i)) }
      let s := s.dramPut (s.radMirBase h (i - 4)) (s.dramRead (s.radBase h (i - 4)) radSize)
      if i = 4 then s.put (F.FP_RSTAT_MIRSYNC_A h) 1 else s.put (F.FP_RSTAT_MIRSYNC_B h) 1
    else s
  else if s.mirCopies.contains (h, i) && s.mirrored h i then
    let s : State := { s with mirCopies := s.mirCopies.filter (· != (h, i)) }
    let bytes := s.dramRead (s.copyBase h i) (s.copySize h i)
    (s.dramPut (s.mirBase h i) bytes).putBit (F.CL_HSTAT_MIRSYNC h) i true
  else s

/-- CL_CTRL.CLRCNT (R158). -/
def clClrcnt (r : Nat) (s : State) : State :=
  s.whenever (s.access (R.CL_CTRL r)) fun s =>
    let s := ((s.setReg (R.CL_CNT r) 0).setReg (R.CL_HCNT (2 * r)) 0).setReg (R.CL_HCNT (2 * r + 1)) 0
    { (s.put (F.CL_STAT_FIFOMAX r) 0) with fifoPeak := s.fifoPeak.set r 0 }

/-- The copy number of a mirror row. -/
def copyIndex : CopyKind → Nat
  | .leafA => 0 | .leafB => 1 | .resA => 2 | .resB => 3 | .radA => 4 | .radB => 5

/-! ### Meanings -/

/-- `MSYNC`. -/
def execMsync (h : Head) (rad : Bool) (s : State) : Result := .next (msync h rad s)
/-- `MIRROR_COPY_DONE`. -/
def execMirrorCopyDone (h : Head) (k : CopyKind) (s : State) : Result := .next (s.mirrorDone h (copyIndex k))

/-- `CL_HMIR_WRITE`. -/
def execClHmirWrite (h : Head) (v : Word) (s : State) : Result := .next (clHmirWrite h v s)
/-- `LSWAP`. -/
def execLswap (h : Head) (s : State) : Result := .next (lswap h s)
/-- `RSWAP`. -/
def execRswap (h : Head) (s : State) : Result := .next (rswap h s)
/-- `CL_CLRCNT`. -/
def execClClrcnt (r : Region) (s : State) : Result := .next (clClrcnt r s)

end Sys2Proof.Machine
end

