-- ==== Sys2Proof/Machine/Collation.lean ====
section
/-! DEFINITION. The Collator (R136 to R148, R25): lines in raster order, blind records, reference rows, quires in block
slots or held in the input FIFO, and the end of a frame's capture. -/

namespace Sys2Proof.Machine

/-! ### Sample words (Table 3-1, Table 3-2, R141, R142) -/

/-- A word is invalid. -/
def wInv (w : Nat) : Bool := w.testBit 15
/-- A word's OVR bit. -/
def wOvr (w : Nat) : Bool := w.testBit 14
/-- A word's code. -/
def wCode (w : Nat) : Nat := w % 16384

/-- The correction of a swapped tap: the code is mirrored, OVR kept, an invalid word left as it is (R142). -/
def swapWord (w : Nat) : Nat := if wInv w then w else w - wCode w + (16383 - wCode w)

/-- The region whose Collator takes the head's stream (R40, R138). -/
def State.collator (s : State) (h : Nat) : Nat :=
  match s.reroute.find? fun e => e.1 == h with
  | some e => e.2
  | none => regionOf h

/-- The instant of sample cycle `k` of a line that starts at `t0` (R48). -/
def State.sampleAt (s : State) (h t0 k : Nat) : Nat := t0 + s.hcyc h ((s.prof h).pixdly + k)

/-- A cause of Table 3-2 other than a faulty tap makes converter `c`'s sample at `t` invalid. -/
def State.convInvalid (s : State) (h c t : Nat) : Bool :=
  ((s.bank (regionOf h)).outages.any fun o => o.1 ≤ t && o.2.all fun e => t < e) ||
  (s.head h).invMarks.any fun m => bit m.mask c && m.since ≤ t && t < m.upto

/-- The tap a converter serves: in dual gain TC(n+8) holds the high-gain word of tap n (R78). -/
def Profile.tapOf (p : Profile) (c : Nat) : Nat := if p.dual then c % 8 else c

/-- The gain code a converter works with in a frame (R82, R84): TC0–TC7 that of TC_GAIN0, TC8–TC15 the one in force. -/
def Frame.gainOf (f : Frame) (c : Nat) : Nat :=
  if c < 8 then gainCode (snapGet f.snap (F.TC_GAIN0_G f.head)) c else gainCode (snapGet f.snap (F.TC_GEFF1_E f.head)) (c - 8)

/-- The word of converter `c` at sample cycle `k` before a faulty tap is considered (R79): the transfer of the input `cycles`
gives for it, in nV, with the gain of the frame; 0x8000 where Table 3-2 makes the sample invalid. An input that the list leaves
out is 0 V. -/
def State.rawWord (s : State) (h : Nat) (f : Frame) (t0 : Nat) (cycles : List (List Int)) (k c : Nat) : Nat :=
  if s.convInvalid h c (s.sampleAt h t0 k) then 0x8000 else idealWord ((cycles.getD k []).getD c 0) (f.gainOf c)

/-- The valid word of a converter (Table 3-2): a faulty tap's words are invalid (R70). -/
def State.convWord (s : State) (h : Nat) (f : Frame) (t0 : Nat) (cycles : List (List Int)) (k c : Nat) : Nat :=
  if bit f.tapInv ((s.prof h).tapOf c) then 0x8000 else s.rawWord h f t0 cycles k c

/-- The tap and sample cycle whose word stands at column `col` (R45, R136). -/
def Profile.source (p : Profile) (col : Nat) : Option (Nat × Nat) :=
  ((List.range p.taps).filterMap fun n =>
    let e := p.tapmap.getD n {}
    let c := if e.dir = 1 then p.cols - 1 - col else col
    if e.start ≤ c ∧ e.stride ≠ 0 ∧ (c - e.start) % e.stride = 0 ∧ (c - e.start) / e.stride < p.s then
      some (n, (c - e.start) / e.stride) else none).head?

/-- The pixel at a column after R142: the single-gain word, or the LG word with the HG word above it (R148). -/
def State.pixelWord (s : State) (h : Nat) (f : Frame) (t0 : Nat) (cycles : List (List Int)) (col : Nat) : Nat :=
  let p := s.prof h
  match p.source col with
  | none => 0x8000
  | some (n, k) =>
    let fix := fun w => if bit f.swap n then swapWord w else w
    let lg := fix (s.convWord h f t0 cycles k n)
    if p.dual then lg + 65536 * fix (s.convWord h f t0 cycles k (n + 8)) else lg

/-- A pixel is invalid: its word, or its LG or HG word (R81). -/
def pixInv (dual : Bool) (w : Nat) : Bool := wInv (w % 65536) || (dual && wInv (w / 65536))

/-- The blind record of a line from its blind columns (R140): COUNT, LGMEAN, MEAN. -/
def blindRecord (dual : Bool) (words : List Nat) : Nat × Nat × Nat :=
  let v := words.filter fun w => !pixInv dual w
  let mean := fun (g : Nat → Nat) => if v.isEmpty then 0 else roundDivN (4 * (v.foldl (fun a w => a + g w) 0)) v.length
  (v.length, if dual then mean (fun w => wCode (w % 65536)) else 0,
   if dual then mean (fun w => wCode (w / 65536)) else mean fun w => wCode w)

/-! ### Slots and the input FIFO (R25, R139, R148) -/

/-- Bytes of one line of active pixels. -/
def Profile.lineBytes (p : Profile) : Nat := p.width * (if p.dual then 4 else 2)

/-- Quires of a frame (R143). -/
def Profile.quireCount (p : Profile) : Nat := ceilDiv p.height 16

/-- Change one quire. -/
def State.modQuire (s : State) (h seq q : Nat) (f : Quire → Quire) : State :=
  { s with quires := mapIf (fun x => x.head == h && x.seq == seq && x.qidx == q) f s.quires }

/-- Find one quire. -/
def State.quire (s : State) (h seq q : Nat) : Option Quire :=
  s.quires.find? fun x => x.head == h && x.seq == seq && x.qidx == q

/-- A slot of a block holds no quire. -/
def State.slotFree (s : State) (b n : Nat) : Bool := !s.quires.any fun q => q.slot == some (b, n)

/-- The block and slot the region's next quire is written to: blocks in rotation, a full block skipped (R25). -/
def State.nextSlotOf (s : State) (r : Nat) : Option (Nat × Nat) :=
  let start := s.nextBlock.getD r 0
  ((List.range 4).map fun k => 4 * r + (start + k) % 4).findSome? fun b =>
    ((List.range 8).find? fun n => s.slotFree b n).map fun n => (b, n)

/-- Bytes of held lines in the region's input FIFO. -/
def State.fifoFill (s : State) (r : Nat) : Nat :=
  s.quires.foldl (fun a q =>
    if q.region == r && q.slot.isNone then
      a + ((q.lines.drop 1).take 16).countP (fun l => l.isSome) * (s.prof q.head).lineBytes else a) 0

/-- The peak fill is kept, in KiB rounded up (R158, log entry 30). -/
def State.fifoNote (s : State) (r : Nat) : State :=
  let p := max (s.fifoPeak.getD r 0) (s.fifoFill r)
  { s.put (F.CL_STAT_FIFOMAX r) (ceilDiv p 1024) with fifoPeak := s.fifoPeak.set r p }

/-- The first quire held for want of a slot is written into a block slot once one is free (R25). -/
def quireSlotWrite (r t : Nat) (s : State) : State :=
  match s.quires.find? fun q => q.region == r && q.slot.isNone with
  | none => s
  | some q =>
    match s.nextSlotOf r with
    | none => s
    | some (b, n) =>
      let s := (s.at t).modQuire q.head q.seq q.qidx fun q => { q with slot := some (b, n) }
      { s with nextBlock := s.nextBlock.set r ((b + 1) % 4) }

/-- The capture whose lines are placed next: the earlier one until all its lines have been. -/
def State.placing (s : State) (h : Nat) : Option Cap :=
  match (s.head h).prevCap with
  | some c => some c
  | none => (s.head h).cap

/-- Change the capture whose lines are placed next. -/
def State.modPlacing (s : State) (h : Nat) (f : Cap → Cap) : State :=
  if (s.head h).prevCap.isSome then s.modHead h fun u => { u with prevCap := u.prevCap.map f } else s.modCap h f

/-- Quire `q` of the frame is begun if it is not yet: in a slot when no quire of the region is held and one is free,
else held in the FIFO (R25, R143). -/
def State.openQuire (s : State) (h seq q : Nat) : State :=
  if (s.quire h seq q).isSome then s
  else
    let p := s.prof h
    let r := s.collator h
    let last := q + 1 == p.quireCount
    let above := match (s.placing h).bind fun c => if c.seq = seq then c.prevRow else none with
      | some (y, ws, bl) => if y + 1 = 16 * q then some (ws, bl) else none
      | none => none
    let new : Quire := { head := h, seq := seq, region := r, qidx := q, row0 := 16 * q,
                         nlines := min 16 (p.height - 16 * q), first := q == 0, last := last }
    let new := match above with
      | some (ws, bl) => { new with lines := new.lines.set 0 (some ws), blind := new.blind.set 0 bl, edgeTop := false }
      | none => new
    let held := s.quires.any fun x => x.region == r && x.slot.isNone
    match (if held then none else s.nextSlotOf r) with
    | some (b, n) =>
      { s with quires := s.quires ++ [{ new with slot := some (b, n) }], nextBlock := s.nextBlock.set r ((b + 1) % 4) }
    | none => { s with quires := s.quires ++ [new] }.bump (F.CL_CNT_QHOLD r)

/-- A quire is complete: it is ready for the scheduler at this DT (R144). -/
def State.quireReady (s : State) (h seq q : Nat) : State :=
  let t := s.dt
  s.modQuire h seq q fun x => if x.stage == .filling then { x with stage := .ready, doneDt := t } else x

/-! ### The end of a capture (R110, R116, R144, R145) -/

/-- Line `k` of a frame is a reference row. -/
def Profile.isRef (p : Profile) (k : Nat) : Bool := k < p.reftop || p.reftop + p.height ≤ k

/-- The capture of a frame ends: every quire of the frame that has not committed exists and is complete; lines of the frame
not received, or dropped, are missing. -/
def State.finishCapture (s : State) (h : Nat) (c : Cap) : State :=
  match s.frame h c.seq with
  | none => s
  | some f =>
    if f.captured then s
    else if f.mute then s.modFrame h c.seq fun f => { f with captured := true }
    else
      let p := s.prof h
      let todo := (List.range p.quireCount).filter fun q => f.committed ≤ q
      let s := todo.foldl (fun s q => (s.openQuire h c.seq q).quireReady h c.seq q) s
      let refs := (List.range c.placed).countP p.isRef
      s.modFrame h c.seq fun f => { f with captured := true, missLines := p.l - refs - f.rowEnds.length }

/-- The earlier capture ends when every started line has been placed. -/
def State.settlePrev (s : State) (h : Nat) : State :=
  match (s.head h).prevCap with
  | none => s
  | some c =>
    if c.lines ≤ c.placed ∨ (s.frame h c.seq).isNone then
      (s.finishCapture h c).modHead h fun u => { u with prevCap := none }
    else s

/-- The capture ends when no further line can start and every started line has been placed; the earlier one ends first. -/
def State.settleCapture (s : State) (h : Nat) : State :=
  let s := s.settlePrev h
  if (s.head h).prevCap.isSome then s
  else match (s.head h).cap with
    | none => s
    | some c =>
      let s := if !(s.prof h).headTimed && (s.prof h).l ≤ c.placed then s.closeCap h false else s
      match (s.head h).cap with
      | none => s
      | some c => if c.closed && c.lines ≤ c.placed then s.finishCapture h c else s

/-- The frame in progress is closed at once (R111): lines not yet placed are lost. -/
def State.cutCapture (s : State) (h : Nat) : State :=
  let s := (s.modHead h fun u => { u with prevCap := u.prevCap.map fun c => { c with lines := c.placed } }).settlePrev h
  match (s.head h).cap with
  | none => s
  | some c =>
    if c.closed && c.lines ≤ c.placed then s
    else ((s.modCap h fun c => { c with lines := c.placed }).closeCap h false).settleCapture h

/-- The frame in progress ends where the next begins or streaming ends: its accepted lines complete (R110, R111), so it is
kept as the earlier capture until they have been placed. -/
def State.turnCapture (s : State) (h : Nat) : State :=
  match (s.head h).cap with
  | none => s
  | some c =>
    if c.lines ≤ c.placed then s.cutCapture h
    else
      let s := (if (s.head h).prevCap.isSome then
          (s.modHead h fun u => { u with prevCap := u.prevCap.map fun c => { c with lines := c.placed } }).settlePrev h
        else s).closeCap h false
      s.modHead h fun u => { u with prevCap := u.cap, cap := none }

/-! ### Lines (R136 to R146) -/

/-- The sample cycles in which tap `n` delivers a column of the line (R45). -/
def Profile.tapCycles (p : Profile) (n : Nat) : List Nat :=
  let e := p.tapmap.getD n {}
  (List.range p.s).filter fun k => e.start + k * e.stride < p.cols

/-- Add the raw codes of a reference row to the polarity sums: LG words in dual gain (R141). -/
def State.refRow (s : State) (h : Nat) (f : Frame) (t0 : Nat) (cycles : List (List Int)) : State :=
  let p := s.prof h
  let sums := fun (c : Cap) => (List.range p.taps).map fun n =>
    (p.tapCycles n).foldl (fun a k =>
      let w := s.convWord h f t0 cycles k n
      if wInv w then a else (a.1 + wCode w, a.2 + 1)) (c.refSum.getD n (0, 0))
  s.modPlacing h fun c => { c with refSum := sums c }

/-- Add the raw codes of an active row to the sums of the short test (R72); a flagged tap goes on being tested (R73). In dual
gain the tap's low-gain codes are judged (log entry 156). -/
def State.actRow (s : State) (h : Nat) (f : Frame) (t0 : Nat) (cycles : List (List Int)) : State :=
  let p := s.prof h
  let sums := fun (c : Cap) => (List.range p.taps).map fun n =>
    (List.range p.width).foldl (fun a x =>
      match p.source (p.blindl + x) with
      | some (m, k) =>
        if m = n then
          let w := s.rawWord h f t0 cycles k n
          if wInv w then a else (a.1 + 1, a.2.1 + wCode w, a.2.2 + wCode w * wCode w)
        else a
      | none => a) (c.actSum.getD n (0, 0, 0))
  s.modPlacing h fun c => { c with actSum := sums c }

/-- Store a row in slot line `i` of a quire. -/
def Quire.setLine (q : Quire) (i : Nat) (ws : List Nat) (bl : Nat × Nat × Nat) (inv : Nat) : Quire :=
  { q with lines := q.lines.set i (some ws), blind := q.blind.set i bl, inv := q.inv + inv }

/-- The lines that wait in the FIFO of the head's region leave too little room for one more of its lines (R139). -/
def State.fifoFull (s : State) (h : Nat) : Bool :=
  decide (131072 < s.fifoFill (s.collator h) + (s.prof h).lineBytes)

/-- A reference row finds too little room and is dropped, or is gathered (R139, R141). -/
def State.placeRef (s : State) (h : Nat) (f : Frame) (t0 : Nat) (cycles : List (List Int)) : State :=
  if s.fifoFull h then s.bump (F.CL_CNT_LINEDROP (s.collator h)) else s.refRow h f t0 cycles

/-- An active line found too little room: it is dropped whole, its frame is short (R139). -/
def State.dropLine (s : State) (h : Nat) (f : Frame) : State :=
  let s := s.bump (F.CL_CNT_LINEDROP (s.collator h))
  let s := if f.short then s else s.bump (F.HP_TCNT0_SHORT h)
  s.modFrame h f.seq fun f => { f with short := true }

/-- Active row `y` is placed in its quire, and as an overlap line in its neighbours. -/
def State.placeRow (s : State) (h : Nat) (f : Frame) (y t0 : Nat) (cycles : List (List Int)) : State :=
  let p := s.prof h
  let s := s.actRow h f t0 cycles
  let q := y / 16
  let s := s.openQuire h f.seq q
  let held := match s.quire h f.seq q with | some x => x.slot.isNone | none => true
  if held && s.fifoFull h then s.dropLine h f
  else
    let all := (List.range p.cols).map fun col => s.pixelWord h f t0 cycles col
    let ws := (all.drop p.blindl).take p.width
    let bl := if s.flag (F.CL_HCFG_BLIND_EN h) then
        blindRecord p.dual (all.take p.blindl ++ all.drop (p.blindl + p.width)) else (0, 0, 0)
    let inv := ws.countP fun w => pixInv p.dual w
    let s := s.modFrame h f.seq fun f => { f with rowEnds := f.rowEnds ++ [(y, t0 + s.hcyc h (p.pixdly + p.s))] }
    let s := s.modQuire h f.seq q fun x => x.setLine (1 + y % 16) ws bl inv
    let s := if y % 16 = 0 ∧ 0 < q then
        s.modQuire h f.seq (q - 1) fun x => { x.setLine 17 ws bl 0 with edgeBot := false } else s
    let s := if y % 16 = 15 then s.modPlacing h fun c => { c with prevRow := some (y, ws, bl) } else s
    let whole : Bool := match s.quire h f.seq (q - 1) with
      | some x => (x.lines.getD 16 none).isSome
      | none => false
    let s := if y % 16 == 0 && q != 0 && whole then s.quireReady h f.seq (q - 1) else s
    s.fifoNote (s.collator h)

/-- A completed line is placed (R136): its inputs by sample cycle and converter. Lines are placed in their order, when their
last sample cycle has ended. -/
def collatorLinePlaced (h line : Nat) (cycles : List (List Int)) (t : Nat) (s : State) : State :=
  match s.placing h with
  | none => s
  | some c =>
    match s.frame h c.seq with
    | none => s.settlePrev h
    | some f =>
      let p := s.prof h
      let t0 := s.lineStartAt h c line
      s.whenever (line == c.placed && line < c.lines && t0 + s.hcyc h (p.pixdly + p.s) ≤ t) fun s =>
        let s := (s.at t).modPlacing h fun c => { c with placed := c.placed + 1 }
        let s := if f.mute then s
          else if p.isRef line then s.placeRef h f t0 cycles
          else s.placeRow h f (line - p.reftop) t0 cycles
        s.settleCapture h

/-! ### Meanings -/

/-- `COLLATOR_LINE_PLACED`. -/
def execCollatorLinePlaced (h : Head) (line : Nat) (cycles : List (List Int)) (t : Nat) (s : State) : Result :=
  .next (collatorLinePlaced h line cycles t s)
/-- `QUIRE_SLOT_WRITE`. -/
def execQuireSlotWrite (r : Region) (t : Nat) (s : State) : Result := .next (quireSlotWrite r t s)
/-- `HFV_FALL`: the frame ends when its started lines have been placed (R144). -/
def execHfvFall (h : Head) (t : Nat) (s : State) : Result := .next ((hfvFall h t s).settleCapture h)
/-- `INPUT_STUCK`: a stuck HFV closes the open frame (R121). -/
def execInputStuck (i : TimingInput) (t : Nat) (s : State) : Result :=
  let s := inputStuck i t s
  .next (match i with | .hfv h => s.settleCapture h | _ => s)

end Sys2Proof.Machine
end

