-- ==== Sys2Proof/Machine/Engines.lean ====
section
/-! DEFINITION. Engine cells of the blocks (R229 to R240): states, retirement and replay, the shadow check, microcode and
recipe loads. What an engine computes is in Correction.lean. -/

namespace Sys2Proof.Machine

/-! ### The load planner's queue (R41) -/

/-- The place of a request in R37's list; what the list does not name comes after it (log entry 142). -/
def planRank : PlanKind → Nat
  | .runCmd => 0
  | .commit => 1
  | .subscribe => 2
  | .job => 3
  | .eval | .replan => 4
  | .stream | .auto => 5

/-- A request joins the queue: behind every earlier one, and among those of its own instant in the order of the list. -/
def planInsert (q : PlanReq) (l : List PlanReq) : List PlanReq :=
  let first := fun (r : PlanReq) => !(r.asked == q.asked && planRank q.kind < planRank r.kind)
  l.takeWhile first ++ q :: l.dropWhile first

/-- Ask for an evaluation: it starts at once when none runs, else it queues; requests of one instant run in the order of R37's
list (R41). -/
def State.planAsk (s : State) (q : PlanReq) : State :=
  let q := { q with asked := s.dt }
  match s.planRun, s.planQ with
  | none, [] => { s with planRun := some q }.put F.SYS_PLAN_STAT_BUSY 1
  | some r, l =>
    if r.asked = q.asked ∧ planRank q.kind < planRank r.kind then { s with planRun := some q, planQ := r :: l }
    else { s with planQ := planInsert q l }
  | none, l => { s with planQ := planInsert q l }

/-- The device re-plans by itself after a loss of capacity (R39). -/
def State.planAuto (s : State) : State := s.planAsk { kind := .auto }

/-! ### Cell states (R230) -/

/-- Codes of Table 9-1. -/
def cellInService : Nat := 0
def cellSpare : Nat := 1
def cellShadow : Nat := 2
def cellRetired : Nat := 3

/-- The state of cell `n` of block `b`. -/
def State.cellState (s : State) (b n : Nat) : Nat := s.get (F.EN_BSTAT_STATE b) / 4 ^ n % 4

/-- Cells of a block in a state, ascending. -/
def State.cellsIn (s : State) (b st : Nat) : List Nat := (List.range 7).filter fun n => s.cellState b n == st

/-- Set a cell's state; NOSPARE shows whether the block has a SPARE or SHADOW cell. -/
def State.setCell (s : State) (b n st : Nat) : State :=
  let v := s.get (F.EN_BSTAT_STATE b)
  let s := s.put (F.EN_BSTAT_STATE b) (v - s.cellState b n * 4 ^ n + st * 4 ^ n)
  s.putB (F.EN_BSTAT_NOSPARE b) ((s.cellsIn b cellSpare).isEmpty && (s.cellsIn b cellShadow).isEmpty)

/-- The unit of block `b`. -/
def State.block (s : State) (b : Nat) : BlockUnit := tabGet s.blocks {} b
/-- Change the unit of block `b`. -/
def State.modBlock (s : State) (b : Nat) (f : BlockUnit → BlockUnit) : State :=
  { s with blocks := tabSet s.blocks b (f (s.block b)) }

/-! ### Cells and the block's working space (R229, R231) -/

/-- Cell `c` of block `b`. -/
def State.cell (s : State) (b c : Nat) : CellUnit := (s.block b).cells.getD c {}

/-- Change a cell. -/
def State.modCell (s : State) (b c : Nat) (f : CellUnit → CellUnit) : State :=
  s.modBlock b fun u => { u with cells := u.cells.set c (f (u.cells.getD c {})) }

/-- Byte `a` of a cell's instruction memory: bank A from 0x0000, bank B from 0x8000; a byte no load has written reads 0. -/
def CellUnit.code (u : CellUnit) (a : Nat) : Byte := if a < 0x8000 then u.bankA.getD a 0 else u.bankB.getD (a - 0x8000) 0

/-- Load code into bank `k` of a cell. -/
def CellUnit.load (u : CellUnit) (k : Nat) (code : List Byte) : CellUnit :=
  if k = 0 then { u with bankA := code } else { u with bankB := code }

/-- Register `r` (0 to 15) of lane `l` (0 to 7) of a cell (R229): 0 before its first run, then a free value. -/
def CellUnit.laneReg (u : CellUnit) (l r : Nat) : Word :=
  if u.work = 0 then 0 else BitVec.ofNat 32 (Config.cellWord u.work (16 * l + r))

/-- Word `off` of a cell's own working area: buffers and lane spill of the opaque microcode, free values after a run. -/
def CellUnit.workWord (u : CellUnit) (off : Nat) : Word :=
  if u.work = 0 then 0 else BitVec.ofNat 32 (Config.cellWord u.work (128 + off))

/-- The part of a block's engine working space an SRAM address lies in (R231): cell `n`'s own area, or the recipe area. -/
inductive WorkArea where
  | cell (n off : Nat)
  | recipes (off : Nat)
  deriving DecidableEq, Repr

/-- The layout of 0x28_0000 to 0x3F_FFFF (R231). -/
def workArea (a : Nat) : Option WorkArea :=
  if a < 0x280000 ∨ 0x400000 ≤ a then none
  else if a < 0x3D0000 then some (.cell ((a - 0x280000) / 0x30000) ((a - 0x280000) % 0x30000))
  else some (.recipes (a - 0x3D0000))

/-- Cell `n` may read an address of the working space: its own area and the recipe area (R231). -/
def cellReads (n a : Nat) : Bool :=
  match workArea a with
  | some (.cell m _) => m == n
  | some (.recipes _) => true
  | none => false

/-- Cell `n` may write an address of the working space: its own area only, as the recipe area is read-only to cells (R231). -/
def cellWrites (n a : Nat) : Bool := match workArea a with | some (.cell m _) => m == n | _ => false

/-- A cell has run a quire: its registers and working area hold new free values. -/
def State.cellRan (s : State) (b c : Nat) : State :=
  { s.modCell b c fun u => { u with work := s.freeCnt + 1 } with freeCnt := s.freeCnt + 1 }

/-! ### Which cell runs what -/

/-- The quire runs (for the first time or as a replay) on cell `c` of block `b`. -/
def Quire.runsOn (q : Quire) (b c : Nat) : Bool :=
  match q.stage with
  | .running b' c' _ => b' == b && c' == c && !q.mainDone
  | _ => false

/-- When its present run was dispatched. -/
def Quire.startedAt (q : Quire) : Nat := match q.stage with | .running _ _ t => t | _ => 0

/-- The quire's shadow run is on cell `c` of block `b` (R238). -/
def Quire.shadowsOn (q : Quire) (b c : Nat) : Bool :=
  match q.stage with
  | .running b' _ _ => b' == b && q.shadow == some c && !q.shadowDone
  | _ => false

/-- A cell runs a quire. -/
def State.cellBusy (s : State) (b c : Nat) : Bool := s.quires.any fun q => q.runsOn b c || q.shadowsOn b c

/-- An idle in-service cell of a block, round-robin (R26). -/
def State.idleCell (s : State) (b : Nat) : Option Nat :=
  let start := s.nextCell.getD b 0
  ((List.range 7).map fun k => (start + k) % 7).find? fun c => s.cellState b c == cellInService && !s.cellBusy b c

/-- An idle in-service engine for a quire in block `b`: of its own block, else of another block of the region (R26), which is
the first in ascending number that has one (log entry 167, DESIGN CHOICE). -/
def State.idleEngine (s : State) (b : Nat) : Option (Nat × Nat) :=
  let r := b / 4
  (b :: ((List.range 4).map (4 * r + ·)).filter (· != b)).findSome? fun b' => (s.idleCell b').map fun c => (b', c)

/-- CX_STAT shows the region's quires being corrected and waiting to commit (Table 6-6). -/
def State.syncCx (s : State) (r : Nat) : State :=
  let run := s.quires.countP fun q => q.region == r && (match q.stage with | .running .. => true | _ => false)
  let wait := s.quires.countP fun q => q.region == r && q.stage == .finished
  (s.put (F.CX_STAT_INFLIGHT r) (min run 255)).put (F.CX_STAT_WAITING r) (min wait 255)

/-! ### The shadow check (R238) -/

/-- The next target after `last`: in-service cells in ascending order, cyclically. -/
def State.nextTarget (s : State) (b : Nat) : Option Nat :=
  let l := s.cellsIn b cellInService
  ((l.filter fun c => (s.block b).lastTarget < c) ++ l).head?

/-- The spare begins to shadow the next target; M7 itself holds the block for one shadowed quire at a time (R393). -/
def State.shadowBegin (s : State) (b : Nat) : State :=
  match s.cellsIn b cellSpare, s.nextTarget b with
  | x :: _, some c =>
    let s := (s.setCell b x cellShadow).put (F.EN_SHSTAT_TARGET b) c
    s.modBlock b fun u => { u with target := some c, lastTarget := c, agree := 0 }
  | _, _ => s.put (F.EN_SHSTAT_TARGET b) 0xF

/-- The check may run on the block. -/
def State.shadowAllowed (s : State) (b : Nat) : Bool :=
  s.flag (F.EN_SHCFG_EN b) && s.inRun && !s.flag (F.EN_SHSTAT_STOPPED b) && (s.block b).target.isNone &&
  !(s.cellsIn b cellSpare).isEmpty

/-- The check begins on a block when it may run. -/
def State.shadowAsk (s : State) (b : Nat) : State := if s.shadowAllowed b then s.shadowBegin b else s

/-- Shadow runs of a block are abandoned: each quire then commits on the target's result alone (R239). A quire in its third run
has both results already. -/
def State.shadowDrop (s : State) (b : Nat) : State :=
  { s with quires := s.quires.map fun q => match q.stage with
      | .running b' _ _ =>
        if b' == b && q.shadow.isSome && !q.third then
          { q with shadow := none, shadowDone := false, stage := if q.mainDone then .finished else q.stage }
        else q
      | _ => q }

/-- M7 ends on a block when no quire of it is being shadowed any more (R393). -/
def State.shadowEnd (s : State) (b : Nat) : State :=
  let left := s.quires.any fun q => q.shadow.isSome && !q.third && (match q.stage with
    | .running b' _ _ => b' == b
    | _ => false)
  if left then s else s.churnDone .m7 b

/-- The check of a block ends: its shadow cell is the spare again. -/
def State.shadowStop (s : State) (b : Nat) : State :=
  if (s.block b).target.isNone then s
  else
    let s := (s.cellsIn b cellShadow).foldl (fun s x => s.setCell b x cellSpare) (s.shadowDrop b)
    ((s.modBlock b fun u => { u with target := none, agree := 0 }).put (F.EN_SHSTAT_TARGET b) 0xF).churnDone .m7 b

/-- A write of EN_SHCFG that leaves byte 0, and with it EN, unwritten (R448): the rest of COUNT is stored. -/
def State.shCount (s : State) (b : Nat) (v : Word) : State := s.put (F.EN_SHCFG_COUNT b) (max (v.toNat / 2 % 32768) 1)

/-- A write of EN_SHCFG (R238, R239): COUNT 0 is stored as 1; a write of EN ends a stop. -/
def shCfgWrite (b : Nat) (v : Word) (s : State) : State :=
  s.whenever (s.access (R.EN_SHCFG b)) fun s =>
    let n := v.toNat / 2 % 32768
    let s := ((s.put (F.EN_SHCFG_COUNT b) (max n 1)).put (F.EN_SHCFG_EN b) (v.toNat % 2)).put (F.EN_SHSTAT_STOPPED b) 0
    if s.flag (F.EN_SHCFG_EN b) then s.shadowAsk b else s.shadowStop b

/-- The roles rotate (R238): the shadow cell enters service, the target becomes the spare, the next target is shadowed. -/
def spareRotation (b : Nat) (s : State) : State :=
  match (s.block b).target, s.cellsIn b cellShadow with
  | some c, x :: _ =>
    s.whenever (s.get (F.EN_SHCFG_COUNT b) ≤ (s.block b).agree && !s.cellBusy b c && !s.cellBusy b x) fun s =>
      let s := ((s.setCell b x cellInService).setCell b c cellSpare).bump (F.EN_BCNT_ROTATE b)
      let s := s.modBlock b fun u => { u with target := none, agree := 0 }
      s.shadowBegin b
  | _, _ => s

/-! ### Replay and retirement (R184, R240) -/

/-- Replay a quire from its slot: on the cell named, else on the region's next idle engine, else when one is free. -/
def State.quireReplay (s : State) (q : Quire) (on : Option (Nat × Nat)) : State :=
  let b := match q.slot with | some (b, _) => b | none => 4 * q.region
  let dest := match on with | some e => some e | none => s.idleEngine b
  let t := s.dt
  let s := (s.modQuire q.head q.seq q.qidx fun x =>
    { x with shadow := (if x.third then x.shadow else none), shadowDone := x.third, mainDone := false,
             stage := (match dest with | some (b, c) => QuireStage.running b c t | none => .ready) }).bump
    (F.CX_RCNT_REPLAY q.region)
  match q.stage with
  | .running b' _ _ => if q.shadow.isSome then s.shadowEnd b' else s
  | _ => s

/-- A channel has been lost: the quires whose reads from it had failed are replayed (R154). -/
def State.readsReplay (s : State) (ch : Nat) : State :=
  (s.quires.filter fun q => q.badRead.any (·.1 == ch)).foldl (fun s q =>
    (s.modQuire q.head q.seq q.qidx fun x => { x with badRead := x.badRead.filter (·.1 != ch) }).quireReplay q none) s

/-- A cell is retired (R240): the block's SPARE or SHADOW cell enters service, or capacity is lost and the region
re-plans. Its running quire is replayed. -/
def State.retireCell (s : State) (b c : Nat) : State :=
  if s.cellState b c = cellRetired then s
  else
    let was := s.cellState b c
    let mine := s.quires.filter fun q => q.runsOn b c
    let spare := ((s.cellsIn b cellShadow) ++ (s.cellsIn b cellSpare)).find? (· != c)
    let s := if was = cellShadow || (s.cellsIn b cellShadow).any (fun x => spare == some x) || (s.block b).target == some c
      then s.shadowStop b else s
    let s := ((s.setCell b c cellRetired).bump (F.EN_BCNT_RETIRED b)).persist 2
    let (s, took) := if was = cellInService then
        match spare with
        | some x => (s.setCell b x cellInService, some x)
        | none => (s.planAuto, none)
      else (s, none)
    let s := if (s.cellsIn b cellSpare).isEmpty then s.shadowStop b else s
    let s := mine.foldl (fun s q => s.quireReplay q (took.map fun x => (b, x))) s
    (s.shadowAsk b).syncCx (b / 4)

/-- All seven cells of a block are retired after an FA of the block (R380): quires in its slots are lost work of the
region's other engines. -/
def State.retireBlock (s : State) (b : Nat) : State :=
  let s := s.shadowStop b
  let mine := s.quires.filter fun q => match q.stage with | .running b' _ _ => b' == b && !q.mainDone | _ => false
  let s := (List.range 7).foldl (fun s c =>
    if s.cellState b c = cellRetired then s else (s.setCell b c cellRetired).bump (F.EN_BCNT_RETIRED b)) s
  let s := mine.foldl (fun s q => s.quireReplay q none) (s.persist 2)
  s.planAuto.syncCx (b / 4)

/-- EN_BCMD.UNRETIRE (R240): in SETUP the lane test of each named RETIRED cell starts. -/
def unretire (b mask : Nat) (s : State) : State :=
  s.whenever (s.access (R.EN_BCMD b) && s.mode == .setup) fun s =>
    let l := (List.range 7).filter fun n =>
      bit mask n && s.cellState b n == cellRetired && !(s.block b).unret.contains n
    s.modBlock b fun u => { u with unret := u.unret ++ l }

/-- A 5 ms lane test ends (R240); a spare it makes in RUN is shadowed (R238). -/
def unretireTestDone (b c : Nat) (pass : Bool) (s : State) : State :=
  s.whenever ((s.block b).unret.contains c) fun s =>
    let s := s.modBlock b fun u => { u with unret := u.unret.filter (· != c) }
    if pass then
      let st := if (s.cellsIn b cellInService).length < 6 then cellInService else cellSpare
      (((s.setCell b c st).putBit (F.EN_BSTAT_UTFAIL b) c false).persist 2).shadowAsk b
    else s.putBit (F.EN_BSTAT_UTFAIL b) c true

/-- EN_BCMD.CLRCNT (R250). -/
def enClrcnt (b : Nat) (s : State) : State :=
  s.whenever (s.access (R.EN_BCMD b)) fun s =>
    ((s.setReg (R.EN_BCNT b) 0).put (F.EN_SHSTAT_MISMATCH b) 0).put (F.EN_SHSTAT_NOMAJ b) 0

/-! ### Microcode (R232 to R237) -/

/-- The image a load copies: its header as checked in step 1, with the code and signature that DRAM holds now (R234). -/
def State.imageOf (s : State) (l : McLoad) : List Byte := l.header ++ s.dramRead (l.base + 64) (leAt l.header 0x10 4 + 96)

/-- The code bytes of an image. -/
def imageCode (img : List Byte) : List Byte := (img.drop 64).take (leAt img 0x10 4)

/-- Copy code into bank `k` of every non-retired cell of a block (R234). -/
def State.loadCode (s : State) (b k : Nat) (code : List Byte) : State :=
  (List.range 7).foldl (fun s c => if s.cellState b c = cellRetired then s else s.modCell b c fun u => u.load k code) s

/-- Step 1 of a load: a code of Table 9-3, 1 when the header is good. -/
def State.mcHeader (s : State) (a : Nat) : Nat :=
  let h := s.dramRead a 64
  let len := leAt h 0x10 4
  if dramSize < a + 64 + len + 96 then 6
  else if leAt h 0 4 ≠ 0x48434942 ∨ leAt h 4 2 ≠ 1 ∨ 3 < leAt h 6 1 ∨ leAt h 7 1 ≠ 0 ∨ leAt h 0x14 40 ≠ 0 ∨
      len % 16 ≠ 0 ∨ len < 1024 ∨ 32768 < len ∨ leAt h 0x3C 4 ≠ crc32 (h.take 0x3C) then 3
  else if leAt h 0xC 4 < s.get F.EN_MCMIN_SVN then 5
  else 1

/-- Key KEYID of the factory area (R232; Table 17-4). -/
def State.vendorKey (s : State) (k : Nat) : List Byte := s.nvLoad (0x1400 + 0x100 * k) 248

/-- The signature of an image verifies. -/
def State.signatureOk (s : State) (img : List Byte) : Bool :=
  imageSigned img (Config.vendorPoint (s.vendorKey (leAt img 6 1 % 4)))

/-- The load ends with a result; a ring command completes (R236). -/
def State.mcFinish (s : State) (code : Nat) : State :=
  match s.mcLoad with
  | none => s
  | some l =>
    let s := ({ s with mcLoad := none } : State).put F.EN_MCSTAT_RESULT code
    match l.cmd with
    | some (r, tag) => s.finishCmd r tag 0 code
    | none => s

/-- A quire started in the bank the block would load is still uncommitted (R235). -/
def State.bankHeld (s : State) (b : Nat) : Bool :=
  let inactive := 1 - s.get (F.EN_BSTAT_BANK b)
  s.quires.any fun q => q.bank == inactive && (q.started == some b || (match q.stage with
    | .running b' _ _ => b' == b
    | _ => false))

/-- The next block of the load begins (R234): without the Churn in SETUP, as M6 in RUN and THROTTLED. -/
def State.mcNext (s : State) (t : Nat) : State :=
  match s.mcLoad with
  | none => s
  | some l =>
    match l.left with
    | [] => s.mcFinish 1
    | b :: _ =>
      if !s.inRun then { s with mcLoad := some { l with cur := some b } }
      else match s.churnAsk .m6 b true t with
        | (.granted, s) => { s with mcLoad := some { l with cur := some b } }
        | (.queued, s) => s
        | (_, s) => s.mcFinish 7

/-- Start a load of the image at address `a` into the blocks of a mask (R234). -/
def State.mcBegin (s : State) (a mask : Nat) (cmd : Option (Nat × Nat)) (t : Nat) : State :=
  let reject := fun (s : State) code => match cmd with
    | some (r, tag) => s.finishCmd r tag 0 code
    | none => s
  if s.mcLoad.isSome then reject (s.put F.EN_MCSTAT_RESULT 7) 7
  else
    let code := s.mcHeader a
    let s := s.put F.EN_MCSTAT_DONE 0
    if code ≠ 1 then reject (s.put F.EN_MCSTAT_RESULT code) code
    else
      let s := s.put F.EN_MCSTAT_RESULT 2
      ({ s with mcLoad := some { left := (List.range 16).filter (bit mask), base := a, header := s.dramRead a 64,
                                 cmd := cmd } } : State).mcNext t

/-- EN_MCMD.LOAD (R234, R236). A write with BLKMASK = 0 loads nothing; in DORMANT and SAFE only BLKMASK is stored. -/
def mcLoad (v : Word) (s : State) : State :=
  s.whenever (s.access R.EN_MCMD) fun s =>
    let mask := v.toNat % 65536
    let s := if mask != 0 && s.mcLoad.isSome then s else s.put F.EN_MCMD_BLKMASK mask
    if mask != 0 && (s.mode == .setup || s.inRun) then s.mcBegin (4096 * s.get F.EN_MCBASE_BASE) mask none s.dt else s

/-- One block's copy ends and its signature is checked (R234): its cells switch banks, or the load ends with BAD_SIG. -/
def microcodeBlockLoadDone (b : Nat) (s : State) : State :=
  match s.mcLoad with
  | none => s
  | some l =>
    s.whenever (l.cur == some b && !s.bankHeld b) fun s =>
      let img := s.imageOf l
      let new := 1 - s.get (F.EN_BSTAT_BANK b)
      let s := (s.churnDone .m6 b).loadCode b new (imageCode img)
      if s.signatureOk img then
        let s := ((s.put (F.EN_BSTAT_BANK b) new).putBit F.EN_MCSTAT_DONE b true).put F.EN_MCVER_IMGVER (leAt img 8 4)
        let s : State := { s with mcActive := (leAt img 8 4, leAt img 0xC 4), image := img,
                                  mcLoad := some { l with left := l.left.filter (· != b), cur := none } }
        s.mcNext s.dt
      else (s.raise b .uc (detailWord 0xFF 28 0x804)).mcFinish 4

/-- EN_MCMD.INSTALL (R237): accepted when RESULT reads OK; it waits for the write interlock, and leaves its ring dirty (R437,
R438). -/
def mcInstall (s : State) : State :=
  s.whenever (s.access R.EN_MCMD && s.get F.EN_MCSTAT_RESULT == 1) fun s =>
    if s.nvLocked then ({ s with nv := { s.nv with install := true } } : State).putBit F.NV_DIRTY_RING 20 true else s.persist 20

/-- EN_MCMD.SETMIN (R237): EN_MCMIN never decreases, and is persisted. -/
def mcSetmin (s : State) : State :=
  s.whenever (s.access R.EN_MCMD) fun s =>
    (s.put F.EN_MCMIN_SVN (max (s.get F.EN_MCMIN_SVN) s.mcActive.2)).persist 3

/-- The image in the NVM at `a`: header, LEN bytes of code, signature. -/
def State.nvmImage (s : State) (a : Nat) : List Byte := s.nvLoad a (64 + min (leAt (s.nvLoad (a + 0x10) 4) 0 4) 32768 + 96)

/-- The installed image (R237): that of the current slot of ring 20, when there is one. -/
def State.installedImage (s : State) : Option (List Byte) :=
  (s.nv.cur.getD 20 none).map fun e => s.nvmImage (0x48000 + 40960 * e.1)

/-- The installed image may be used (R237). -/
def State.installedOk (s : State) (img : List Byte) : Bool :=
  leAt img 0 4 == 0x48434942 && s.get F.EN_MCMIN_SVN ≤ leAt img 0xC 4 && s.signatureOk img

/-- Bank A of every block is loaded at the first entry to SETUP after RESET (R237): from the installed image when it
verifies, else from the factory image with a CE. -/
def State.mcBoot (s : State) : State :=
  let inst := s.installedImage.filter s.installedOk
  let ok := inst.isSome
  let img := inst.getD (s.nvmImage 0x20000)
  let s := (List.range 16).foldl (fun s b => s.loadCode b 0 (imageCode img)) s
  let s := s.put F.EN_MCVER_IMGVER (leAt img 8 4)
  let s : State := { s with mcActive := (leAt img 8 4, leAt img 0xC 4) }
  let fact : State := s.put F.EN_MCSTAT_FACTORY 1
  if ok then s else fact.raise 47 .ce (detailWord 0xFF 27 0x804)

/-! ### Recipe slots (R245) -/

/-- The fields of a step (Table 9-5): OP, D, A, B, IMM. -/
def stepOp (w : Nat) : Nat := w / 2 ^ 27 % 32
def stepD (w : Nat) : Nat := w / 2 ^ 24 % 8
def stepA (w : Nat) : Nat := w / 2 ^ 19 % 32
def stepB (w : Nat) : Nat := w / 2 ^ 14 % 32
def stepImm (w : Nat) : Nat := w % 16384

/-- An IMM field lies in the range of Table 9-7: LUT's table is one of the slot's (R244), LDN's offsets are -2 to +2. The table
gives every other operation a result for every IMM. -/
def immOk (nlut w : Nat) : Bool :=
  let i := stepImm w
  if stepOp w = 0x11 then i / 4096 < nlut
  else if stepOp w = 0x13 then ((signed 7 (i % 128)).natAbs ≤ 2 && (signed 7 (i / 128)).natAbs ≤ 2 : Bool)
  else true

/-- A step is legal. -/
def stepOk (nlut w : Nat) : Bool := stepOp w ≤ 0x17 && stepA w != 31 && stepB w != 31 && immOk nlut w

/-- A slot's image from a base (R245). -/
def State.recipeImage (s : State) (a : Nat) : List Byte := s.dramRead a (0x100 + 4096 * leAt (s.dramRead (a + 7) 1) 0 1)

/-- The result of loading an image: 1 OK, 2 BAD_HEADER, 3 BAD_STEP, 4 BAD_BASE. -/
def recipeCheck (a : Nat) (img : List Byte) : Nat :=
  let n := leAt img 6 1
  let nlut := leAt img 7 1
  if dramSize < a + 0x100 + 4096 * nlut then 4
  else if leAt img 0 4 ≠ 0x50434552 ∨ leAt img 4 2 ≠ 1 ∨ n = 0 ∨ 32 < n ∨ 4 < nlut ∨ leAt img 8 52 ≠ 0 ∨
      leAt img 0x3C 4 ≠ crc32 (img.take 0x3C ++ img.drop 0x40) then 2
  else if !((List.range n).all fun k => stepOk nlut (leAt img (0x40 + 4 * k) 4)) then 3
  else if !((List.range (32 - n)).all fun k => leAt img (0x40 + 4 * (n + k)) 4 == 0) then 2
  else 1

/-- The slot field of an insertion point in an EN_HRCP word: enable and slot. -/
def recipePoint (w p : Nat) : Option Nat := let f := w / 16 ^ p % 16; if 8 ≤ f then some (f - 8) else none

/-- A word of EN_HRCP names slot `n`. -/
def recipeNames (w n : Nat) : Bool := (List.range 4).any fun p => recipePoint w p == some n

/-- The slot is named by a streaming head (R245); pending transactions are looked at by the caller. -/
def State.recipeInUse (s : State) (n : Nat) : Bool :=
  (List.range 8).any fun h => s.streams h && recipeNames (s.get (F.EN_HRCP_POINTS h)) n

/-- The recipe copy completes (R245). -/
def recipeLoadDone (s : State) : State :=
  match s.recipeLoad with
  | none => s
  | some l =>
    let s := ({ s with recipeLoad := none } : State).put F.EN_RSTAT_RESULT l.code
    if l.code = 1 then ({ s with recipes := s.recipes.set l.slot l.image } : State).putBit F.EN_RSTAT_LOADED l.slot true
    else s

/-! ### Meanings -/

/-- `MICROCODE_BLOCK_LOAD_DONE`. -/
def execMicrocodeBlockLoadDone (b : Block) (s : State) : Result := .next (microcodeBlockLoadDone b s)
/-- `LOAD`. -/
def execMcLoad (v : Word) (s : State) : Result := .next (mcLoad v s)
/-- `INSTALL`. -/
def execMcInstall (s : State) : Result := .next (mcInstall s)
/-- `SETMIN`. -/
def execMcSetmin (s : State) : Result := .next (mcSetmin s)
/-- `SPARE_ROTATION`. -/
def execSpareRotation (b : Block) (s : State) : Result := .next (spareRotation b s)
/-- `UNRETIRE`. -/
def execUnretire (b : Block) (mask : BitVec 7) (s : State) : Result := .next (unretire b mask.toNat s)
/-- `UNRETIRE_TEST_DONE`. -/
def execUnretireTestDone (b : Block) (c : Cell) (pass : Bool) (s : State) : Result := .next (unretireTestDone b c pass s)
/-- `EN_CLRCNT`. -/
def execEnClrcnt (b : Block) (s : State) : Result := .next (enClrcnt b s)
/-- `RECIPE_LOAD_DONE`. -/
def execRecipeLoadDone (s : State) : Result := .next (recipeLoadDone s)

end Sys2Proof.Machine
end

