-- ==== Sys2Proof/Machine/Recipes.lean ====
section
/-! DEFINITION. What a recipe computes (R241 to R244): steps on eight signed 32-bit registers, saturating, with the
operands of Table 9-6 and the operations of Table 9-7. -/

namespace Sys2Proof.Machine

/-- What a recipe can read of its pixel: the stage value, d and the age in hours, the column and row, the leaf fields of
LDL, the flags of LDF, the insertion point, and X of the pixel at an offset. -/
structure RecipeEnv where
  point : Nat
  x : Int
  d : Int
  hours : Int
  col : Nat
  row : Nat
  leaf : List Int
  flags : Nat
  near : Int → Int → Int

/-- What a recipe has done so far. -/
structure RecipeRun where
  w : List Int := List.replicate 8 0
  sat : Bool := false
  mark : Bool := false
  stop : Bool := false

/-- A slot image's constant P[i] and table entry T[t][u]. -/
def recipeConst (img : List Byte) (i : Nat) : Int := signed 32 (leAt img (0xC0 + 4 * i) 4)
def recipeTable (img : List Byte) (t u : Nat) : Int := signed 32 (leAt img (0x100 + 4096 * t + 4 * u) 4)

/-- An operand (Table 9-6). -/
def recipeOperand (e : RecipeEnv) (img : List Byte) (r : RecipeRun) (w sel : Nat) : Int :=
  if sel < 8 then r.w.getD sel 0
  else if sel < 24 then recipeConst img (sel - 8)
  else if sel = 24 then e.x
  else if sel = 25 then 0
  else if sel = 26 then signed 14 (stepImm w)
  else if sel = 27 then e.d
  else if sel = 28 then e.hours
  else if sel = 29 then e.col
  else if sel = 30 then e.row
  else 0

/-- The interpolated table value of R244. -/
def recipeLut (img : List Byte) (a : Int) (t sh : Nat) : Int :=
  let u := a / (2 ^ sh : Nat)
  let f := a - u * (2 ^ sh : Nat)
  if u < 0 then recipeTable img t 0
  else if 1023 ≤ u then recipeTable img t 1023
  else
    let v0 := recipeTable img t u.toNat
    v0 + roundDiv ((recipeTable img t (u.toNat + 1) - v0) * f) (2 ^ sh)

/-- A bitwise operation on 32-bit patterns (R242). -/
def bits32 (f : Nat → Nat → Nat) (a b : Int) : Int := signed 32 (f (unsigned 32 a) (unsigned 32 b))

/-- The exact result of an operation before it saturates at 32 bits (Table 9-7). -/
def recipeValue (e : RecipeEnv) (img : List Byte) (w : Int) (step : Nat) (a b : Int) : Int :=
  let imm := stepImm step
  let sh := imm % 32
  match stepOp step with
  | 0x01 => a + b
  | 0x02 => a - b
  | 0x03 => roundDiv (a * b) (2 ^ sh)
  | 0x04 => w + roundDiv (a * b) (2 ^ sh)
  | 0x05 => a * (2 ^ sh : Nat)
  | 0x06 => roundDiv a (2 ^ sh)
  | 0x07 => -a
  | 0x08 => a.natAbs
  | 0x09 => min a b
  | 0x0A => max a b
  | 0x0B => min (max w a) b
  | 0x0C => bits32 (· &&& ·) a b
  | 0x0D => bits32 (· ||| ·) a b
  | 0x0E => bits32 (· ^^^ ·) a b
  | 0x0F => if a < b then 1 else 0
  | 0x10 => if w ≠ 0 then a else b
  | 0x11 => recipeLut img a (imm / 4096) sh
  | 0x12 => e.leaf.getD (imm % 16) 0
  | 0x13 => if e.point = 0 then e.near (signed 7 (imm % 128)) (signed 7 (imm / 128)) else 0
  | 0x14 => e.flags
  | 0x16 => if 2 ≤ sh then satInt a sh else a
  | _ => w

/-- One step. A value beyond 32 bits, and a SAT step that clips, saturate (R241, R242). -/
def recipeStep (e : RecipeEnv) (img : List Byte) (r : RecipeRun) (step : Nat) : RecipeRun :=
  if r.stop then r
  else
    let a := recipeOperand e img r step (stepA step)
    let b := recipeOperand e img r step (stepB step)
    let d := stepD step
    let v := recipeValue e img (r.w.getD d 0) step a b
    let v32 := satInt v 32
    let r := { r with w := r.w.set d v32, sat := r.sat || v != v32 || (stepOp step == 0x16 && v != a) }
    let r := if stepOp step = 0x15 ∧ a ≠ 0 ∧ e.point ≠ 3 then { r with mark := true } else r
    let fin : Bool := stepOp step == 0x17 && a != 0
    { r with stop := fin }

/-- Run a slot's program: the value that replaces the stage value, saturated to `width`, whether anything saturated, and
whether the pixel was marked a candidate. -/
def runRecipe (e : RecipeEnv) (img : List Byte) (width : Nat) : Int × Bool × Bool :=
  let start : RecipeRun := { w := e.x :: List.replicate 7 0 }
  let r := (List.range (leAt img 6 1)).foldl (fun r k => recipeStep e img r (leAt img (0x40 + 4 * k) 4)) start
  let x := r.w.getD 0 0
  (satInt x width, r.sat || satInt x width != x, r.mark)

end Sys2Proof.Machine
end

