-- ==== Sys2Proof/Machine/Correction.lean ====
section
/-! DEFINITION. The standard correction (R159 to R187): Separator, offset, residual, gain, substitution, the committed
words of a quire; dispatch, finish, commit, retries, timeouts and memory errors of quires. -/

namespace Sys2Proof.Machine

/-! ### Leaves and parameters -/

/-- The fields of a leaf (Table 5-4). -/
structure Leaf where
  o0 : Int
  g : Nat
  a1 : Int
  a2 : Int
  a3 : Int
  k : Int
  dgt : Int
  bad : Bool
  weak : Bool
  noisy : Bool
  locked : Bool
  deriving DecidableEq, Repr

/-- Decode the 96 bits of a leaf. -/
def leafOf (v : Nat) : Leaf :=
  { o0 := signed 16 v, g := v / 2 ^ 16 % 2 ^ 14, a1 := signed 12 (v / 2 ^ 30), a2 := signed 12 (v / 2 ^ 42),
    a3 := signed 12 (v / 2 ^ 54), k := signed 10 (v / 2 ^ 66), dgt := signed 10 (v / 2 ^ 76),
    bad := v.testBit 86, weak := v.testBit 87, noisy := v.testBit 88, locked := v.testBit 89 }


/-- The parameter set a frame is corrected with (R161): the CX_ registers, RATIO, the copies and the leaf header in force
at its start, and its per-frame terms. -/
structure CorrParams where
  head : Nat
  dual : Bool
  ratio : Nat
  ks : Int
  ke : Int
  shift : Nat
  dgtEn : Bool
  drift : Bool
  age : Bool
  res : Bool
  sub : Bool
  weak : Bool
  noisy : Bool
  d : Int
  hs : Nat
  gT : Nat
  gSat : Bool
  ea1 : Int
  ea2 : Int
  ea3 : Int
  ek : Int
  fill : Nat
  width : Nat
  height : Nat
  leafCopy : Nat
  leafBase : Nat
  resCopy : Nat
  resBase : Nat
  recipes : List (List Byte)
  deriving DecidableEq, Repr

/-- An exponent byte of the leaf header, kept within −24 to +15 (R171). -/
def expByte (hdr : List Byte) (o : Nat) : Int := max (-24) (min 15 (signed 8 (leAt hdr o 1)))

/-- The parameters of a frame. -/
def State.corrParams (s : State) (f : Frame) : CorrParams :=
  let h := f.head
  let g := snapGet f.snap
  let b := snapFlag f.snap
  let s0 : State := { s with regs := f.snap }
  let li := if f.leafSel then 1 else 0
  let ri := if f.resSel then 3 else 2
  { head := h, dual := f.profile.dual, ratio := 2 ^ (g (F.TC_CFG_RATIO h) + 2),
    ks := (g (F.CX_HKNEE_KS h) : Int) - 8192, ke := (g (F.CX_HKNEE_KE h) : Int) - 8192, shift := g (F.CX_HCFG_SHIFT h),
    dgtEn := b (F.CX_HCFG_DGT_EN h), drift := b (F.CX_HCFG_DRIFT_EN h), age := b (F.CX_HCFG_AGE_EN h),
    res := b (F.CX_HCFG_RES_EN h), sub := b (F.CX_HCFG_SUB_EN h), weak := b (F.CX_HCFG_WEAK_SUB h),
    noisy := b (F.CX_HCFG_NOISY_SUB h), d := f.d, hs := f.hs, gT := f.gT, gSat := f.gSat,
    ea1 := expByte f.hdr 0x18, ea2 := expByte f.hdr 0x19, ea3 := expByte f.hdr 0x1A, ek := expByte f.hdr 0x1B,
    fill := g (F.CX_HFILL_FILL h), width := f.profile.width, height := f.profile.height,
    leafCopy := li, leafBase := s0.copyBase h li, resCopy := ri, resBase := s0.copyBase h ri,
    recipes := (List.range 4).map fun p => match recipePoint (g (F.EN_HRCP_POINTS h)) p with
      | some n => s.recipes.getD n []
      | none => [] }

/-- The leaf of pixel number `k` (R150). -/
def State.leafAt (s : State) (p : CorrParams) (k : Nat) : Leaf :=
  leafOf (leNat (s.tableBytes p.head p.leafCopy (p.leafBase + 64 + 12 * k) 12))

/-- The residual of pixel number `k` (R151). -/
def State.residualAt (s : State) (p : CorrParams) (k : Nat) : Int :=
  signed 16 (leNat (s.tableBytes p.head p.resCopy (p.resBase + 2 * k) 2))

/-- Bytes of copy `i` at `a` cannot be read (R154, R383): one lies on a lost channel and is not served from a synced mirror. -/
def State.tableLost (s : State) (h i a n : Nat) : Bool :=
  !s.lostChan.isEmpty && (List.range n).any fun k =>
    s.lostAt (a + k) && !(s.mirrored h i && bit (s.get (F.CL_HSTAT_MIRSYNC h)) i &&
      !s.lostAt (s.mirBase h i + (a + k - s.copyBase h i)))

/-- The leaf or the residual of pixel number `k` cannot be read. -/
def State.pixelLost (s : State) (p : CorrParams) (k : Nat) : Bool :=
  s.tableLost p.head p.leafCopy (p.leafBase + 64 + 12 * k) 12 || (p.res && s.tableLost p.head p.resCopy (p.resBase + 2 * k) 2)

/-! ### Per-frame terms (R168 to R170) -/

/-- `round(num × 2^e / den)`. -/
def scaled (num : Int) (e : Int) (den : Nat) : Int :=
  if 0 ≤ e then roundDiv (num * (2 ^ e.toNat : Nat)) den else roundDiv num (den * 2 ^ (-e).toNat)

/-- g_T and whether it was clamped (R170). -/
def gainTemp (en : Bool) (c1 d : Int) : Nat × Bool :=
  if !en then (2 ^ 20, false)
  else
    let v := roundDiv (2 ^ 20 * (100 * 2 ^ 24 + c1 * d)) (100 * 2 ^ 24)
    if v < 0 then (0, true) else if 2 ^ 21 - 1 < v then (2 ^ 21 - 1, true) else (v.toNat, false)

/-- The frame's TAI as a header holds it: 0 when unknown. -/
def Frame.taiWord (f : Frame) : Nat := if f.ageUnk then 0 else unsigned 64 f.tai

/-- The temperature the terms of a frame are taken at (R168): TFPA, or TFIX in its place; none where d is 0. -/
def Frame.tempUsed (f : Frame) : Option Nat :=
  let tfix := snapGet f.snap (F.CX_HTFIX_TFIX f.head)
  if snapFlag f.snap (F.CX_HCFG_TSRC f.head) || !snapFlag f.snap (F.HP_CTRL_THM_EN f.head) then
    (if tfix = 0 then none else some tfix) else some f.tfpa

/-- The per-frame terms of a frame from its TFPA in use (none: d is 0), its TAI and its leaf header (R168 to R170); whether the
age was negative. -/
def Frame.withTerms (f : Frame) (tfpa : Option Nat) (gtc : Bool) : Frame × Bool :=
  let d : Int := match tfpa with | some v => (v : Int) - leAt f.hdr 0xC 2 | none => 0
  let (g, sat) := gainTemp gtc (signed 32 (leAt f.hdr 0x1C 4)) d
  let age : Int := if f.ageUnk then 0 else f.tai - leAt f.hdr 0x10 8
  ({ f with d := d, gT := g, gSat := sat, hs := age.toNat }, age < 0)

/-! ### The Separator (R163 to R166) -/

/-- x and whether the pixel is clipped, from its slot-line word. -/
def separate (p : CorrParams) (dgt : Int) (w : Nat) : Int × Bool :=
  if p.dual then
    let hg := w / 65536 % 65536
    let lg := w % 65536
    let hd : Int := (wCode hg : Int) - 8192
    let ld : Int := (wCode lg : Int) - 8192
    let a : Int := hd.natAbs
    let eL8 := ld * p.ratio * (8192 + if p.dgtEn then dgt else 0)
    if wOvr hg || p.ke ≤ a then (roundDiv eL8 8192, wOvr lg)
    else if a ≤ p.ks then (hd, wOvr hg)
    else (roundDiv (hd * 8192 * (p.ke - a) + eL8 * (a - p.ks)) (8192 * (p.ke - p.ks).toNat), wOvr lg)
  else (((wCode w : Int) - 8192) * (2 ^ p.shift : Nat), wOvr w)

/-! ### Per-pixel arithmetic (R171) -/

/-- The drift terms t1 + t2 + t3 of a leaf at d. -/
def driftTerms (l : Leaf) (ea1 ea2 ea3 d : Int) : Int :=
  scaled (16 * l.a1 * d) ea1 100 + scaled (16 * l.a2 * d ^ 2) ea2 10000 + scaled (16 * l.a3 * d ^ 3) ea3 1000000

/-- The ageing term tk. -/
def ageTerm (l : Leaf) (ek : Int) (hs : Nat) : Int := scaled (16 * l.k * hs) ek 3600000

/-- off and whether it saturated. -/
def offsetOf (p : CorrParams) (l : Leaf) : Int × Bool :=
  let v := 4 * l.o0 + (if p.drift then driftTerms l p.ea1 p.ea2 p.ea3 p.d else 0) + if p.age then ageTerm l p.ek p.hs else 0
  (satInt v 24, satInt v 24 != v)

/-- 16 × y and whether it saturated. -/
def gainOf (p : CorrParams) (l : Leaf) (z : Int) : Int × Bool :=
  let v := roundDiv (z * l.g * p.gT) (2 ^ 33)
  (satInt v 24, satInt v 24 != v)

/-- A pixel of a present slot line after gain and the recipes before substitution: z of R171, 16 × y, its flags. -/
structure Pix where
  z : Int
  y : Int
  sat : Bool
  /-- A recipe has saturated (R241). -/
  rsat : Bool
  clip : Bool
  cand : Bool
  inv : Bool
  failed : Bool
  locked : Bool
  bad : Bool
  deriving DecidableEq, Repr

/-- The word of a pixel in slot line `i`, when that line is present. -/
def Quire.wordAt (q : Quire) (i x : Nat) : Option Nat := (q.lines.getD i none).map fun l => l.getD x 0x8000

/-- The active row of slot line `i`. -/
def Quire.rowOf (q : Quire) (i : Nat) : Nat := q.row0 + i - 1

/-- Run the recipe of an insertion point, if one is enabled: value, saturated, marked. -/
def CorrParams.recipe (p : CorrParams) (pt : Nat) (e : RecipeEnv) (width : Nat) : Int × Bool × Bool :=
  let img := p.recipes.getD pt []
  if img.isEmpty then (e.x, false, false) else runRecipe e img width

/-- Bits of LDF (Table 9-7). -/
def ldfFlags (cand clip sat inv : Bool) : Nat := cand.toNat + 2 * clip.toNat + 4 * sat.toNat + 8 * inv.toNat

/-- Correct the pixel at (x, row) from its extended count `x0` (R159 steps 2 to 4, R162, R173). -/
def State.pixelX (s : State) (p : CorrParams) (row x : Nat) (x0 : Int) (clip inv failed : Bool) (near : Int → Int → Int) : Pix :=
    let leaf := s.leafAt p (row * p.width + x)
    let resv := s.residualAt p (row * p.width + x)
    let cand := p.sub && (leaf.bad || (leaf.weak && p.weak) || (leaf.noisy && p.noisy) || inv || failed)
    let fields := [leaf.o0, leaf.g, leaf.a1, leaf.a2, leaf.a3, leaf.k, leaf.dgt,
      leaf.bad.toNat + 2 * leaf.weak.toNat + 4 * leaf.noisy.toNat + 8 * leaf.locked.toNat, resv]
    let env : RecipeEnv := { point := 0, x := x0, d := p.d, hours := p.hs / 3600, col := x, row := row, leaf := fields,
                             flags := ldfFlags cand clip false inv, near := near }
    let (x1, sx, mx) := p.recipe 0 env 20
    let cand := cand || (mx && p.sub)
    let (off, so) := offsetOf p leaf
    let z := 16 * x1 - off - if p.res then resv else 0
    let sat := sx || so
    let (z1, sz, mz) := p.recipe 1 { env with point := 1, x := z, flags := ldfFlags cand clip sat inv } 26
    let cand := cand || (mz && p.sub)
    let (y, sy) := gainOf p leaf z1
    let sat := sat || sz || sy || p.gSat
    let (y1, sp, mp) := p.recipe 2 { env with point := 2, x := y, flags := ldfFlags cand clip sat inv } 24
    { z := z, y := y1, sat := sat || sp, rsat := sx || sz || sp, clip := clip, cand := cand || (mp && p.sub), inv := inv, failed := failed,
      locked := leaf.locked, bad := leaf.bad }

/-- Correct one pixel of slot line `i` (R159 steps 1 to 4, R173). -/
def State.pixel (s : State) (p : CorrParams) (q : Quire) (i x : Nat) : Option Pix :=
  match q.wordAt i x with
  | none => none
  | some w =>
    let row := q.rowOf i
    let failed := (q.allBad && 1 ≤ i && i ≤ q.nlines) || q.bad.contains (i * p.width + x) ||
      q.badRead.any (·.2 == i * p.width + x) || s.pixelLost p (row * p.width + x)
    let (x0, clip) := separate p (s.leafAt p (row * p.width + x)).dgt w
    let near := fun (dx dy : Int) =>
      let cx := (x : Int) + dx
      let ci := (i : Int) + dy
      if cx < 0 ∨ p.width ≤ cx ∨ ci < 0 ∨ 17 < ci then x0
      else match q.wordAt ci.toNat cx.toNat with
        | some w' => (separate p (s.leafAt p (q.rowOf ci.toNat * p.width + cx.toNat)).dgt w').1
        | none => x0
    some (s.pixelX p row x x0 clip (pixInv p.dual w) failed near)

/-- Every pixel of the quire's 18 slot lines. -/
def State.pixels (s : State) (p : CorrParams) (q : Quire) : List (List (Option Pix)) :=
  (List.range 18).map fun i => (List.range p.width).map fun x => s.pixel p q i x

/-! ### Substitution (R173 to R176) -/

/-- The pixel at an offset from (i, x), within the active area and the quire's lines. -/
def pixAt (px : List (List (Option Pix))) (i x : Int) : Option Pix :=
  if i < 0 ∨ x < 0 then none else ((px.getD i.toNat []).getD x.toNat none)

/-- The offsets at Chebyshev distance `n` (R175). -/
def ringOffsets (n : Nat) : List (Int × Int) :=
  (List.range (2 * n + 1)).flatMap fun (i : Nat) => (List.range (2 * n + 1)).filterMap fun (j : Nat) =>
    let dy : Int := (i : Int) - n
    let dx : Int := (j : Int) - n
    if dy.natAbs = n ∨ dx.natAbs = n then some (dy, dx) else none

/-- 16 × y of the good neighbours at distance `n` (R174). -/
def goodRing (px : List (List (Option Pix))) (i x n : Nat) : List Int :=
  (ringOffsets n).filterMap fun o => match pixAt px (i + o.1) (x + o.2) with
    | some q => if q.cand then none else some q.y
    | none => none

/-- The rounded mean of a non-empty list. -/
def meanOf (l : List Int) : Int := roundDiv (l.foldl (· + ·) 0) l.length

/-- The substituted 16 × y of a candidate (R175); none when it has no good neighbour within distance 3 (R176). -/
def substitute (px : List (List (Option Pix))) (i x : Nat) : Option Int :=
  [1, 2, 3].findSome? fun n => let l := goodRing px i x n; if l.isEmpty then none else some (meanOf l)

/-! ### Committed words (Table 6-3) -/

/-- Flag bits of a committed word. -/
def wMISS : Nat := 2 ^ 28
def wUNREC : Nat := 2 ^ 27
def wSAT : Nat := 2 ^ 26
def wCLIP : Nat := 2 ^ 25
def wSUB : Nat := 2 ^ 24

/-- The committed word of an own pixel. SAT of off, y or g_T shares a word with CLIP only (R182); a saturation of a recipe sets
SAT in any word (R241; log entry 32). -/
def State.commitWord (s : State) (p : CorrParams) (q : Quire) (px : List (List (Option Pix))) (i x : Nat) : Nat :=
  match pixAt px i x with
  | none => wMISS
  | some v =>
    let (y, flag) :=
      if v.cand then match substitute px i x with
        | some m => (m, wSUB)
        | none => (signed 24 p.fill, wUNREC)
      else if v.inv || v.failed then (signed 24 p.fill, wUNREC)
      else (v.y, 0)
    let row := q.rowOf i
    let k := row * p.width + x
    let leaf := s.leafAt p k
    let env : RecipeEnv :=
      { point := 3, x := y, d := p.d, hours := p.hs / 3600, col := x, row := row,
        leaf := [leaf.o0, leaf.g, leaf.a1, leaf.a2, leaf.a3, leaf.k, leaf.dgt,
          leaf.bad.toNat + 2 * leaf.weak.toNat + 4 * leaf.noisy.toNat + 8 * leaf.locked.toNat, s.residualAt p k],
        flags := ldfFlags v.cand v.clip v.sat v.inv, near := fun _ _ => 0 }
    let (y, sf, _) := p.recipe 3 env 24
    let extra := if flag ≠ 0 then flag + (if v.rsat || sf then wSAT else 0)
      else (if v.sat || sf then wSAT else 0) + if v.clip then wCLIP else 0
    unsigned 24 y + extra

/-- The committed words of the quire's own rows. -/
def State.commitRows (s : State) (p : CorrParams) (q : Quire) (px : List (List (Option Pix))) : List (List Nat) :=
  (List.range q.nlines).map fun i => (List.range p.width).map fun x => s.commitWord p q px (i + 1) x

/-- Words of a quire with a flag bit. -/
def countBit (rows : List (List Nat)) (bitNo : Nat) : Nat := rows.foldl (fun a l => a + l.countP fun w => w.testBit bitNo) 0

/-! ### The estimator and the accumulators (R194, R204) -/

/-- e_step of own pixel (i, x) of a refresh frame; none where the residual stays (R202, R204). -/
def estStep (est : Bool) (alpha step egate : Nat) (px : List (List (Option Pix))) (i x : Nat) : Option Int :=
  match pixAt px i x with
  | none => none
  | some v =>
    if v.locked then none
    else
      let l := goodRing px i x 1
      let e := v.y - meanOf l
      if est && !v.cand && 3 ≤ l.length && e.natAbs ≤ 16 * egate then
        let m : Int := min (roundDivN e.natAbs (2 ^ alpha)) step
        some (if e < 0 then -m else m)
      else some 0

/-- The mark of an invalid accumulator (log entry 33). -/
def accInvalid : Nat := 0x80000000

/-- z of an eligible own pixel, or none when its accumulator becomes invalid (R194): it is a candidate, or its committed word
carries CLIP, SAT or MISS. A pixel that is not eligible has no accumulator. -/
def accTerm (px : List (List (Option Pix))) (rows : List (List Nat)) (i x : Nat) : Option Int :=
  let word := (rows.getD i []).getD x wMISS
  match pixAt px (i + 1) x with
  | none => none
  | some v =>
    if v.cand || word.testBit 25 || word.testBit 26 || word.testBit 28 || v.bad || v.locked then none else some v.z

/-- Address of pixel k's accumulator in a head's work area: A, then B (log entry 33). -/
def State.accAddr (s : State) (h k : Nat) (second : Bool) : Nat :=
  4096 * s.get (F.CX_SWORK_BASE h) + 8 * k + if second then 4 else 0

/-- Add a term to an accumulator. -/
def State.accAdd (s : State) (a : Nat) (z : Option Int) : State :=
  let old := leNat (s.dramRead a 4)
  match z with
  | none => s.dramWrite a (leBytes 4 accInvalid)
  | some z => if old = accInvalid then s else s.dramWrite a (leBytes 4 (unsigned 32 (signed 32 old + z)))

/-- Add a quire's terms to the accumulators of its integration. -/
def State.accQuire (s : State) (q : Quire) (w : Nat) (px : List (List (Option Pix))) (rows : List (List Nat)) (second : Bool) :
    State :=
  (List.range q.nlines).foldl (fun s i => (List.range w).foldl (fun s x =>
    s.accAdd (s.accAddr q.head ((q.row0 + i) * w + x) second) (accTerm px rows i x)) s) s

/-! ### Dispatch (R26) -/

/-- The next ready quire of a region: by DT of completion, then by head. -/
def State.nextReady (s : State) (r : Nat) : Option Quire :=
  (s.quires.filter fun q => q.region == r && q.stage == .ready && q.slot.isSome).foldl (fun best q =>
    match best with
    | none => some q
    | some b => if q.doneDt < b.doneDt ∨ (q.doneDt = b.doneDt ∧ q.head < b.head) then some q else best) none

/-- A ready quire goes to an idle engine (R26); a target's quire is given to its shadow too, as M7 of the block (R238,
R393). While M6 runs on the block M7 is queued behind it (R395), and quires go unshadowed until it starts (log entry 37). -/
def quireDispatch (r t : Nat) (s : State) : State :=
  match s.nextReady r with
  | none => s
  | some q =>
    match q.slot.bind fun e => s.idleEngine e.1 with
    | none => s
    | some (b, c) =>
      let s := s.at t
      let now := s.dt
      let sh := if (s.block b).target == some c && !q.third then (s.cellsIn b cellShadow).head? else none
      let s := if sh.isSome then (s.churnAsk .m7 b true now).2 else s
      let sh := if s.churnRuns .m7 b then sh else none
      let bank := if q.started.isSome then q.bank else s.get (F.EN_BSTAT_BANK b)
      let s := s.modQuire q.head q.seq q.qidx fun x =>
        if x.third then { x with stage := QuireStage.running b c now }
        else { x with stage := QuireStage.running b c now, bank := bank, started := some (x.started.getD b), shadow := sh,
                      mainDone := false, shadowDone := false, ranOn := some (b, c) }
      ({ s with nextCell := s.nextCell.set b ((c + 1) % 7) } : State).syncCx r

/-! ### Finish (R159) -/

/-- Compute a quire's words and counts. -/
def State.runQuire (s : State) (f : Frame) (q : Quire) : State :=
  let p := s.corrParams f
  let px := s.pixels p q
  let rows := s.commitRows p q px
  let g := snapGet f.snap
  let est := snapFlag f.snap (F.CX_RCFG_EST_EN q.head) && !snapFlag f.snap (F.CX_RCFG_FREEZE q.head)
  let steps := if f.refresh then (List.range q.nlines).map fun i => (List.range p.width).map fun x =>
      estStep est (g (F.CX_RCFG_ALPHA q.head)) (g (F.CX_RCFG_STEP q.head)) (g (F.CX_RCFG_EGATE q.head)) px (i + 1) x
    else []
  let s := if f.role = .integA then s.accQuire q p.width px rows false
    else if f.role = .integB then s.accQuire q p.width px rows true else s
  s.modQuire q.head q.seq q.qidx fun x =>
    { x with out := rows, est := steps, cSub := countBit rows 24, cUnrec := countBit rows 27, cClip := countBit rows 25,
             cSat := countBit rows 26 }

/-- Two runs of a quire have agreed: one more consecutive agreement of its block (R238). -/
def State.noteAgree (s : State) (b : Nat) : State := s.modBlock b fun u => { u with agree := u.agree + 1 }

/-- The quire whose run on a cell ends next: the one dispatched first, as a shadow may lag behind its target (R238). -/
def State.quireOn (s : State) (b c : Nat) : Option Quire :=
  (s.quires.filter fun q => q.runsOn b c || q.shadowsOn b c).foldl (fun best q =>
    match best with
    | none => some q
    | some x => if q.startedAt < x.startedAt then some q else some x) none

/-- The two runs of a quire disagree (R239): it runs a third time on the region's next idle engine, or when one is free, and
is not finished before. -/
def State.thirdRun (s : State) (q : Quire) : State :=
  let b := match q.slot with | some (b, _) => b | none => 4 * q.region
  let stage := match s.idleEngine b with | some (b', c') => QuireStage.running b' c' s.dt | none => .ready
  s.modQuire q.head q.seq q.qidx fun x =>
    { x with third := true, mainDone := false, shadowDone := true, badRead := [], stage := stage }

/-- An engine finishes its run of a quire (R159): the quire is finished when its target run, and its shadow run if it has
one, have ended and `agree` (R238); runs that disagree call for a third (R239), whose end is SHADOW_THIRD_RUN_DONE. -/
def quireFinished (b c : Nat) (agree : Bool) (s : State) : State :=
  match s.quireOn b c with
  | none => s
  | some q =>
    match s.frame q.head q.seq with
    | none => s
    | some f =>
      if q.third then s
      else
        let main := q.runsOn b c || q.mainDone
        let shad := q.shadow.isNone || q.shadowsOn b c || q.shadowDone
        let s := (if q.runsOn b c then s.runQuire f q else s).cellRan b c
        let s := s.modQuire q.head q.seq q.qidx fun x => { x with mainDone := main, shadowDone := x.shadow.isSome && shad }
        let s := if !(main && shad) then s
          else if q.shadow.isNone then s.modQuire q.head q.seq q.qidx fun x => { x with stage := .finished }
          else
            let s := if agree then (s.noteAgree b).modQuire q.head q.seq q.qidx fun x => { x with stage := .finished }
              else (s.modBlock b fun u => { u with agree := 0 }).thirdRun q
            s.shadowEnd b
        s.syncCx q.region

/-- Cut a list of words into rows. -/
def rowsOf (w : Nat) : Nat → List Nat → List (List Nat)
  | 0, _ => []
  | n + 1, l => l.take w :: rowsOf w n (l.drop w)

/-- A quire takes committed words and their counts. -/
def Quire.withWords (q : Quire) (rows : List (List Nat)) : Quire :=
  { q with out := rows, cSub := countBit rows 24, cUnrec := countBit rows 27, cClip := countBit rows 25, cSat := countBit rows 26 }

/-- The third run of a quire whose target and shadow runs disagree ends (R239): the words of the three runs. The result that two
of them give, else the third run's, is what will be committed; the cell of the run that stands alone is retired, or the check
stops. -/
def shadowThirdRunDone (b : Nat) (target shadow third : List Word) (s : State) : State :=
  match s.quires.find? fun q => q.third && q.stage != .ready && q.ranOn.any fun e => e.1 == b with
  | none => s
  | some q =>
    match q.ranOn, q.shadow with
    | some (_, c), some x =>
      s.whenever (target != shadow) fun s =>
        let s := match q.stage with | .running b' c' _ => s.cellRan b' c' | _ => s
        let take := fun (s : State) (l : List Word) =>
          (s.modQuire q.head q.seq q.qidx fun y =>
            { y.withWords (rowsOf (s.prof q.head).width q.nlines (l.map BitVec.toNat)) with
              shadow := none, third := false, mainDone := true, stage := .finished }).syncCx q.region
        if target = third then
          ((take (s.raise b .uc (detailWord x 0xFF 0x014)) target).bump (F.EN_SHSTAT_MISMATCH b)).retireCell b x
        else if shadow = third then
          ((take (s.raise b .uc (detailWord c 0xFF 0x014)) shadow).bump (F.EN_SHSTAT_MISMATCH b)).retireCell b c
        else
          let s := s.raise b .uc (detailWord 0xFF 0xFF 0x014)
          (((take s third).bump (F.EN_SHSTAT_NOMAJ b)).put (F.EN_SHSTAT_STOPPED b) 1).shadowStop b
    | _, _ => s

/-! ### Faults of a run (R180, R181, R185, R154) -/

/-- A residue check fails in an engine (R180): recovered by a retry, or the engine is retired and its quire replayed. -/
def residueMismatch (b c : Nat) (retryOk : Bool) (s : State) : State :=
  s.whenever (s.cellBusy b c) fun s =>
    if retryOk then (s.bump (F.CX_RCNT_RETRYOK (b / 4))).raise b .ce (detailWord c 0xFF 0x008)
    else (s.raise b .uc (detailWord c 0xFF 0x008)).retireCell b c

/-- A quire has not finished within QTMO µs of its dispatch (R185). -/
def quireTimeout (b c t : Nat) (s : State) : State :=
  match s.quires.find? fun q => q.runsOn b c with
  | none => s
  | some q =>
    let since := match q.stage with | .running _ _ n => n | _ => 0
    let lim := s.get (F.CX_CTRL_QTMO q.region)
    s.whenever (lim != 0 && since + 1000 * lim ≤ t) fun s =>
      (((s.at t).bump (F.CX_STAT_TMOCNT q.region)).raise b .uc (detailWord c 0xFF 0x004)).retireCell b c

/-- A slot's SRAM word fails its SECDED check (R181). -/
def sramSecdedError (b slot off : Nat) (unc : Bool) (s : State) : State :=
  match s.quires.find? fun q => q.slot == some (b, slot) with
  | none => s
  | some q =>
    if !unc then s.raise b .ce (detailWord slot 0xFF off)
    else
      let p := s.prof q.head
      let s := s.raise b .uc (detailWord slot 0xFF off)
      if off < 0x40 then s.modQuire q.head q.seq q.qidx fun x => { x with allBad := true }
      else if off < 0x100 ∨ 0x48100 ≤ off then s
      else
        let i := (off - 0x100) / 0x4000
        let bpp := if p.dual then 4 else 2
        let x0 := (off - 0x100) % 0x4000 / 8 * (8 / bpp)
        let l := (List.range (8 / bpp)).filterMap fun k => if x0 + k < p.width then some (i * p.width + x0 + k) else none
        s.modQuire q.head q.seq q.qidx fun x => { x with bad := x.bad ++ l }

/-- An uncorrectable word at address `a` read from a DRAM channel is counted and its address kept (Table 18-6). -/
def State.dramNoteAt (s : State) (ch a : Nat) : State :=
  (s.bump (F.DR_ECC_UE ch)).put64 (F.DR_ERRADDR_LO_ADDR ch) (F.DR_ERRADDR_HI_ADDR ch) a

/-- The same with a UC under source 28 + c (R154). -/
def State.dramUEAt (s : State) (ch a : Nat) : State :=
  (s.dramNoteAt ch a).raise (28 + ch) .uc (detailWord 0xFF 0xFF (0x004 + 0x40 * ch))

/-- Where the event does not carry the word's address it is free (log entry 55). -/
def State.dramNote (s : State) (ch : Nat) : State :=
  let (v, s) := s.freshUpTo (dramSize - 1)
  s.dramNoteAt ch v
def State.dramUE (s : State) (ch : Nat) : State :=
  let (v, s) := s.freshUpTo (dramSize - 1)
  s.dramUEAt ch v

/-- A leaf or residual read of a running quire is uncorrectable (R154): repeated from the synced mirror, else its pixels
(slot line × WIDTH + column) are bad. -/
def leafReadUe (b c ch : Nat) (res : Bool) (pixels : List Nat) (repeatFails : Bool) (s : State) : State :=
  match s.quireOn b c with
  | none => s
  | some q =>
    match s.frame q.head q.seq with
    | none => s
    | some f =>
      let i := if res then (if f.resSel then 3 else 2) else if f.leafSel then 1 else 0
      let synced := s.mirrored q.head i && bit (s.get (F.CL_HSTAT_MIRSYNC q.head)) i
      if s.lostChan.contains ch then s
      else if synced && !repeatFails then s.dramNote ch
      else (s.dramUE ch).modQuire q.head q.seq q.qidx fun x => { x with badRead := x.badRead ++ pixels.map fun p => (ch, p) }

/-- CX_CTRL.CLRCNT (R187). -/
def cxClrcnt (r : Nat) (s : State) : State :=
  s.whenever (s.access (R.CX_CTRL r)) fun s =>
    (((s.setReg (R.CX_RCNT r) 0).put (F.CX_STAT_TMOCNT r) 0).setReg (R.CX_HCNT (2 * r)) 0).setReg (R.CX_HCNT (2 * r + 1)) 0

/-! ### Commit (R183) -/

/-- The quire of a head that may commit next: every earlier quire has committed. -/
def State.nextCommit (s : State) (h : Nat) : Option (Frame × Quire) :=
  match (s.frames.filter fun f => f.head == h && !f.complete && !f.mute).head? with
  | none => none
  | some f =>
    match s.quire h f.seq f.committed with
    | some q => if q.stage == .finished then some (f, q) else none
    | none => none

/-- Counts and blind levels a committed quire adds to its frame (R146, R177, R203). -/
def Frame.addQuire (f : Frame) (q : Quire) : Frame :=
  let recs := ((q.blind.drop 1).take q.nlines).filter fun r => r.1 != 0
  { f with committed := f.committed + 1, rows := f.rows ++ q.out, est := f.est ++ q.est, inv := f.inv + q.inv,
           sub := f.sub + q.cSub, unrec := f.unrec + q.cUnrec, clip := f.clip + q.cClip, sat := f.sat + q.cSat,
           missPix := f.missPix + countBit q.out 28,
           bSum := f.bSum + recs.foldl (fun a r => a + r.2.2) 0, bCnt := f.bCnt + recs.length }

/-- The frame's LAST quire has committed (R183, R177): CX_HLAST, the 2 % check. -/
def State.frameCorrected (s : State) (f : Frame) : State :=
  let h := f.head
  let tooMany : Bool := f.profile.pixels < 50 * (f.sub + f.unrec)
  let s := ((s.put (F.CX_HLAST0_SUB h) f.sub).put (F.CX_HLAST1_CLIP h) f.clip).put (F.CX_HLAST2_SAT h) (min f.sat 65535)
  let s := s.put (F.CX_HLAST2_UNREC h) (min f.unrec 65535)
  let s := if f.unrec ≠ 0 then s.bump (F.CX_HCNT_UNRECF h) else s
  let s := s.modFrame h f.seq fun f => { f with complete := true, degraded := f.degraded || tooMany }
  if !tooMany then s
  else
    let was := s.flag (F.CX_HSTAT_OVERSUB h)
    let s := (s.bump (F.CX_HCNT_OVERSUBF h)).put (F.CX_HSTAT_OVERSUB h) 1
    if was then s else s.raise (20 + h) .ce (detailWord 0xFF 4 (0x110 + 0x80 * (h % 2)))

/-- A finished quire commits: its words go to its frame, its slot is free (R148, R183). The frame when it was the LAST. -/
def State.commitNext (s : State) (h : Nat) : State × Option Frame :=
  match s.nextCommit h with
  | none => (s, none)
  | some (f, q) =>
    let f' := f.addQuire q
    let s := s.modFrame h f.seq fun _ => f'
    let s : State := { s with quires := s.quires.filter fun x => !(x.head == h && x.seq == q.seq && x.qidx == q.qidx) }
    let s := (s.syncCx q.region).sample 1 h (s.dt - q.doneDt)
    if q.last then
      let s := s.frameCorrected f'
      (s, s.frame h f.seq)
    else (s, none)

/-! ### Meanings -/

/-- `QUIRE_DISPATCH`. -/
def execQuireDispatch (r : Region) (t : Nat) (s : State) : Result := .next (quireDispatch r t s)
/-- `QUIRE_FINISHED`. -/
def execQuireFinished (b : Block) (c : CellRun) (s : State) : Result := .next (quireFinished b c.cell c.agree s)
/-- `SHADOW_THIRD_RUN_DONE`. -/
def execShadowThirdRunDone (b : Block) (t s2 t3 : List Word) (s : State) : Result := .next (shadowThirdRunDone b t s2 t3 s)
/-- `RESIDUE_MISMATCH`. -/
def execResidueMismatch (b : Block) (c : Cell) (ok : Bool) (s : State) : Result := .next (residueMismatch b c ok s)
/-- `QUIRE_TIMEOUT`. -/
def execQuireTimeout (b : Block) (c : Cell) (t : Nat) (s : State) : Result := .next (quireTimeout b c t s)
/-- `SRAM_SECDED_ERROR`. -/
def execSramSecdedError (b : Block) (slot : Fin 8) (off : Nat) (unc : Bool) (s : State) : Result :=
  .next (sramSecdedError b slot off unc s)
/-- `LEAF_READ_UE`. -/
def execLeafReadUe (b : Block) (c : Cell) (ch : Channel) (r : TableRead) (rf : Bool) (s : State) : Result :=
  .next (leafReadUe b c ch r.residual r.pixels rf s)
/-- `CX_CLRCNT`. -/
def execCxClrcnt (r : Region) (s : State) : Result := .next (cxClrcnt r s)

end Sys2Proof.Machine
end

