-- ==== Sys2Proof/Machine/Shutter.lean ====
section
/-! DEFINITION. Shutter events, the residual refresh and drift refits (chapter 7). -/

namespace Sys2Proof.Machine

/-! ### Requests (R188 to R191) -/

/-- SHUTTER event results and request sources (Table 7-2, Table 7-6). -/
def State.shutPhase (s : State) (h : Nat) : Nat := s.get (F.CX_SSTAT_PHASE h)

/-- A request that is not accepted ends at once (R189). -/
def State.shutReject (s : State) (h code : Nat) (cmd : Option (Nat × Nat)) : State :=
  let s := s.put (F.CX_SSTAT_RESULT h) code
  match cmd with
  | some (r, tag) => s.finishCmd r tag 0 code
  | none => s

/-- The order of request sources that arrive in one cycle: command, ring, drift monitor, schedule (R189). -/
def shutRank (src : Nat) : Nat := if src = 0 then 0 else if src = 3 then 1 else if src = 2 then 2 else 3

/-- A shutter event is requested (R188, R189): source 0 command, 1 schedule, 2 drift monitor, 3 ring. One that merges into a
request of its own cycle gives its source where that comes first. The shutter of a retired port stays closed (R382), so an event
of it ends with SHUTTER (log entry 179, DEDUCED). -/
def State.shutRequest (s : State) (h src : Nat) (cmd : Option (Nat × Nat)) (t : Nat) : State :=
  if (s.shut h).active then
    let s := s.modShut h fun e => { e with waiters := e.waiters ++ cmd.toList }
    if (s.shut h).reqAt = t ∧ shutRank src < shutRank (s.get (F.CX_SSTAT_SRC h)) then s.put (F.CX_SSTAT_SRC h) src else s
  else if !(s.streams h && s.inRun) then s.shutReject h 0xC cmd
  else if !s.flag (F.CX_SCFG_EN h) || (s.prof h).shutType == 0 then s.shutReject h 8 cmd
  else if s.coilFault h || s.isRetired (20 + h) then s.shutReject h 7 cmd
  else
    let s := s.modShut h fun e =>
      { e with active := true, reqAt := t, granted := false, waiters := cmd.toList }
    (((s.put (F.CX_SSTAT_RESULT h) 2).put (F.CX_SSTAT_PHASE h) 1).put (F.CX_SSTAT_SRC h) src).put (F.CX_SSTAT_RETRY h) 0

/-- CX_SCMD.SHREQ. -/
def shreq (h : Nat) (s : State) : State := s.whenever (s.access (R.CX_SCMD h)) fun s => s.shutRequest h 0 none s.dt

/-- The schedule and the drift monitor make no request in [end, end + 600 s) of an event that ended badly (R189). -/
def State.shutQuieted (s : State) (h t : Nat) : Bool :=
  match (s.shut h).badAt with | some e => t < e + 600000000000 | none => false

/-- PERIOD minutes have passed since the head's last event, or its first frame start in RUN (R188), in whatever mode. -/
def shutterScheduleDue (h t : Nat) (s : State) : State :=
  let per := s.get (F.CX_SSCHED_PERIOD h)
  let base := match (s.shut h).endAt with | some e => some e | none => (s.head h).firstRunStart
  match base with
  | none => s
  | some e =>
    s.whenever (per != 0 && e + per * 60000000000 ≤ t && !(s.shut h).active && !s.shutQuieted h t) fun s =>
      (s.at t).shutRequest h 1 none t

/-- The drift monitor looks at a frame start (R188); with an event pending its request merges (R189). -/
def State.driftMonitor (s : State) (h tfpa t : Nat) : State :=
  let dthr := s.get (F.CX_SSCHED_DTHR h)
  let bthr := s.get (F.CX_SSCHED_BTHR h)
  let last := s.get (F.CX_BREF_LTFPA h)
  let far := dthr != 0 && last != 0 && 10 * dthr ≤ ((tfpa : Int) - last).natAbs
  let beta := bthr != 0 && 16 * bthr ≤ (s.head h).betaApplied.natAbs
  if s.flag (F.CX_SCFG_DRMON_EN h) && (far || beta) && !s.shutQuieted h t then
    s.shutRequest h 2 none t
  else s

/-- A pending or running event is cancelled (R200). -/
def State.shutCancel (s : State) (h : Nat) : State := if (s.shut h).active then s.shutEnd h 0xA else s

/-- CX_SCMD.CANCEL. -/
def shutterCancel (h : Nat) (s : State) : State := s.whenever (s.access (R.CX_SCMD h)) fun s => s.shutCancel h

/-- CX_SCMD.BRESET (R203). -/
def breset (h : Nat) (s : State) : State :=
  s.whenever (s.access (R.CX_SCMD h)) fun s => s.modHead h fun u => { u with brefSet := false }

/-- A write of CX_SQLEN arms a window from CX_SQST, or disarms it (R191). -/
def quietWindowArm (h : Nat) (v : Word) (s : State) : State :=
  s.whenever (s.access (R.CX_SQLEN h)) fun s =>
    let start := s.get64 (F.CX_SQST_LO_QST h) (F.CX_SQST_HI_QST h)
    let s := s.setReg (R.CX_SQLEN h) v
    s.modShut h fun e => { e with quiet := if v = 0 then none else some (start, start + 1000 * v.toNat) }

/-- The armed window has passed (R191). -/
def quietWindowEnd (h t : Nat) (s : State) : State :=
  match (s.shut h).quiet with
  | none => s
  | some (_, e) => s.whenever (e ≤ t) fun s => (s.at t).modShut h fun x => { x with quiet := none }

/-! ### The start of an event (R190, R195) -/

/-- The copies and areas R195 checks before the close: R152 with its header check, and R153 where mirrored. -/
def State.shutBasesOk (s : State) (h : Nat) : Bool :=
  let li := 1 - s.leafSel h
  let ri := 5 - s.resSel h
  let areas := s.workRange h :: (if s.get (F.CX_DFCFG_DEPTH h) = 0 then [] else [s.histRange h])
  let others := (List.range 8).flatMap fun g => (s.copyRanges g).map (fun c => c.2.2) ++ s.outRanges g
  s.copyPlaced h li && s.leafHeaderOk h (s.tableBytes h li (s.copyBase h li) 64) && s.copyPlaced h ri && (!s.mirrored h li || s.mirPlaced h li) && (!s.mirrored h ri || s.mirPlaced h ri) &&
  areas.all fun r => placed r others

/-- The frame start at `t` has just taken place on the head. -/
def State.atFrameStart (s : State) (h t : Nat) : Bool := (s.head h).lastStart == some t

/-- The armed quiet window holds at `t`. -/
def State.inQuiet (s : State) (h t : Nat) : Bool :=
  !s.flag (F.CX_SCFG_QUIET_REQ h) || (match (s.shut h).quiet with | some (a, b) => a ≤ t && t < b | none => false)

/-- The deadline window of R190 has passed. -/
def State.pastDeadline (s : State) (h t : Nat) : Bool :=
  let dl := s.get (F.CX_SCFG_DLSEC h)
  dl != 0 && (s.shut h).reqAt + dl * 1000000000 ≤ t

/-- The close drive starts at frame k (R192): the frame just started becomes a HELD frame of the event, in phase CLOSING, whose
slot's DT HP_FSDT shows (R114). The residual refresh is suspended: a refresh frame not yet committed is none any more, and one
whose swap is due is dropped (R193). -/
def State.shutGo (s : State) (h : Nat) : State :=
  let seq := match (s.head h).cap with | some c => c.seq | none => 0
  let s := s.modShut h fun e => { e with granted := true, frameK := seq, slots := 0, settleLeft := (s.prof h).shutSettle,
                                         intLeft := 0, integB := false, pairNew := false, retries := 0, pairGen := none,
                                         genMixed := false, lastA := none, lastB := none, bSum := 0, bCnt := 0,
                                         applyDone := false, ended := false }
  let s : State := { s with frames := mapIf (fun f => f.head == h) (fun (f : Frame) => { f with refresh := false }) s.frames }
  let s := s.modHead h fun u => { u with refreshDone := false }
  let s := (s.modFrame h seq fun f => { f with role := .shutterWait, shphase := 2 }).slotHeld h seq
  ((s.put (F.CX_SSTAT_RESULT h) 3).put (F.CX_SSTAT_PHASE h) 2).driveOrder h true

/-- The Churn is asked for M3 at this frame start, or has granted it (R190, R393). -/
def State.shutClaim (s : State) (h t : Nat) : State :=
  if !s.shutBasesOk h then s.shutEnd h 0xD
  else if (s.shut h).granted then s.shutGo h
  else match s.churnAsk .m3 h true t with
    | (.granted, s) => s.shutGo h
    | (.refused, s) => s.shutEnd h 9
    | (_, s) => s

/-- A frame start at which a pending event meets its conditions inside its deadline window (R190). -/
def shutterEventStart (h t : Nat) (s : State) : State :=
  s.whenever ((s.shut h).active && s.shutPhase h == 1 && s.atFrameStart h t && s.inQuiet h t && !s.pastDeadline h t) fun s =>
    s.shutClaim h t

/-- A frame start outside the deadline window (R190). -/
def shutterDeadline (h t : Nat) (s : State) : State :=
  s.whenever ((s.shut h).active && s.shutPhase h == 1 && s.atFrameStart h t && s.pastDeadline h t) fun s =>
    if s.flag (F.CX_SCFG_DLACT h) then s.shutClaim h t
    else if !s.shutBasesOk h then s.shutEnd h 0xD
    else if s.churnRun.any (fun j => waitPair j.act .m3 && sameResource j.act j.res .m3 h) then s
    else s.shutEnd h 6

/-- No pair accepted within SETTLE + 8N + 64 frame slots (R200). -/
def shutterEventTimeout (h : Nat) (s : State) : State :=
  let e := s.shut h
  let p := s.shutPhase h
  s.whenever (e.active && 2 ≤ p && p ≤ 4 &&
      (s.prof h).shutSettle + 8 * s.get (F.CX_SCFG_NINT h) + 64 < e.slots) fun s => s.shutEnd h 0xB

/-! ### Frames of an event (R192, R193) -/

/-- Clear the accumulators of a head before a pair (R194). -/
def State.accClear (s : State) (h : Nat) : State := s.dramWrite (s.workRange h).1 (List.replicate (s.workRange h).2 0)

/-- The role a captured frame that starts now has in the head's event (R192), and the event's counts. -/
def State.shutRole (s : State) (h : Nat) : FrameRole × State :=
  let e := s.shut h
  let p := s.shutPhase h
  let n := s.get (F.CX_SCFG_NINT h)
  if !e.active ∨ p ≤ 1 then ((if e.ended then .shutterWait else .picture), s)
  else if p = 3 ∧ e.settleLeft ≠ 0 then (.settle, s.modShut h fun e => { e with settleLeft := e.settleLeft - 1 })
  else if p = 3 ∨ (p = 4 ∧ e.pairNew) then
    let s := (s.put (F.CX_SSTAT_PHASE h) 4).accClear h
    (.integA, s.modShut h fun e => { e with intLeft := n - 1, integB := false, pairNew := false, pairGen := none,
                                            genMixed := false, bSum := 0, bCnt := 0, lastA := none, lastB := none })
  else if p = 4 ∧ e.intLeft ≠ 0 then
    ((if e.integB then .integB else .integA), s.modShut h fun e => { e with intLeft := e.intLeft - 1 })
  else if p = 4 ∧ !e.integB then (.integB, s.modShut h fun e => { e with intLeft := n - 1, integB := true })
  else (.shutterWait, s)

/-- A frame slot passes during an event (R200). -/
def State.shutSlot (s : State) (h : Nat) : State := s.modShut h fun e => { e with slots := e.slots + 1 }

/-! ### The checks of a pair (R196, R197) -/

/-- One eligible pixel of a pair: its number, its leaf, residual, the accumulators of A and B. -/
structure PairPixel where
  k : Nat
  leaf : Leaf
  res : Int
  a : Option Int
  b : Option Int
  deriving DecidableEq, Repr

/-- The value of an accumulator. -/
def accValue (v : Nat) : Option Int := if v = accInvalid then none else some (signed 32 v)

/-- The eligible pixels (R194). -/
def State.pairPixels (s : State) (h : Nat) (f : Frame) : List PairPixel :=
  let p := s.corrParams f
  (List.range (p.width * p.height)).filterMap fun k =>
    let l := s.leafAt p k
    if l.bad || l.locked then none
    else some { k := k, leaf := l, res := s.residualAt p k,
                a := accValue (leNat (s.dramRead (s.accAddr h k false) 4)),
                b := accValue (leNat (s.dramRead (s.accAddr h k true) 4)) }

/-- TK of R196: the pixel's tk in a frame, 0 without ageing or with an unknown age. -/
def pairTk (f : Frame) (l : Leaf) : Int :=
  if snapFlag f.snap (F.CX_HCFG_AGE_EN f.head) && !f.ageUnk then ageTerm l (expByte f.hdr 0x1B) f.hs else 0

/-- ΔO0 of one integration for a pixel, none when its accumulator is invalid. -/
def deltaO0 (f : Frame) (q : PairPixel) (z : Option Int) (tm : Int) : Option Int :=
  z.map fun z => roundDiv (z + q.res + pairTk f q.leaf - tm) 4

/-- A pixel fails an integration (R196). -/
def pixelFails (dlim : Nat) (q : PairPixel) (d : Option Int) : Bool :=
  match d with
  | none => true
  | some d => dlim < d.natAbs || q.leaf.o0 + d < -32768 || 32767 < q.leaf.o0 + d

/-- What the checks of a pair yield: failing pixels of A and B, eligible pixels, used pixels, and Σ|…| of D. -/
structure PairResult where
  failA : Nat
  failB : Nat
  eligible : Nat
  used : List PairPixel
  dSum : Nat
  deriving DecidableEq, Repr

/-- Z_I of a pixel. -/
def zOf (n : Nat) (acc : Option Int) : Option Int := acc.map fun v => roundDiv v n

/-- The mean of the values present, rounded; 0 when there is none. -/
def meanPresent (l : List (Option Int)) : Int := let v := l.filterMap id; if v.isEmpty then 0 else meanOf v

/-- The checks of R196. -/
def State.pairCheck (s : State) (h : Nat) (fa fb : Frame) : PairResult :=
  let n := max (s.get (F.CX_SCFG_NINT h)) 1
  let dlim := s.get (F.CX_SLIM_DLIM h)
  let px := s.pairPixels h fb
  let ta := meanPresent (px.map fun q => zOf n q.a)
  let tb := meanPresent (px.map fun q => zOf n q.b)
  let badA := fun (q : PairPixel) => pixelFails dlim q (deltaO0 fa q (zOf n q.a) ta)
  let badB := fun (q : PairPixel) => pixelFails dlim q (deltaO0 fb q (zOf n q.b) tb)
  let used := px.filter fun q => !badA q && !badB q
  { failA := px.countP badA, failB := px.countP badB, eligible := px.length, used := used,
    dSum := used.foldl (fun acc q =>
      acc + (((zOf n q.a).getD 0 - ta) - ((zOf n q.b).getD 0 - tb)).natAbs) 0 }

/-- A rejected pair: another one, up to 3 retries, else DISAGREE (R196). -/
def State.pairRetry (s : State) (h : Nat) : State :=
  let r := (s.shut h).retries
  if r < 3 then
    (s.modShut h fun e =>
      { e with retries := r + 1, integB := false, pairNew := true, intLeft := 0, lastA := none, lastB := none }).put
      (F.CX_SSTAT_RETRY h) (r + 1)
  else s.shutEnd h 5

/-- The last frame of a pair has committed (R196): the pair is accepted and the shutter opens (R198), or not. -/
def State.pairDone (s : State) (h : Nat) (fa fb : Frame) : State :=
  let e := s.shut h
  let r := s.pairCheck h fa fb
  let lim := s.get (F.CX_SLIM_FAILPM h)
  let worst := max r.failA r.failB
  let s := s.put (F.CX_SSTAT_FAILPM h) (min 255 (1000 * worst / max r.eligible 1))
  let s := s.put (F.CX_SSTAT_AGREE h) (min 255 (r.dSum / max r.used.length 1))
  if e.genMixed then s.pairRetry h
  else if lim * r.eligible < 1000 * worst || r.used.isEmpty then s.shutEnd h 4
  else if r.dSum < s.get (F.CX_SLIM_TOL h) * r.used.length then
    (s.driveOrder h false).put (F.CX_SSTAT_PHASE h) 5
  else s.pairRetry h

/-- A captured frame of an event has committed (R192 to R198). -/
def State.shutFrameDone (s : State) (f : Frame) : State :=
  let h := f.head
  let e := s.shut h
  if !e.active ∨ s.shutPhase h ≠ 4 then s
  else if f.role = .integA ∨ f.role = .integB then
    let lean : Frame := { f with rows := [], est := [] }
    let b := if f.bCnt = 0 then none else some (roundDivN f.bSum f.bCnt)
    let mixed := e.genMixed || (match e.pairGen with | some g => g != f.gen | none => false)
    let s := s.modShut h fun e =>
      { e with pairGen := some (e.pairGen.getD f.gen), genMixed := mixed, bSum := e.bSum + b.getD 0,
               bCnt := e.bCnt + if b.isSome then 1 else 0,
               lastA := if f.role = .integA then some lean else e.lastA,
               lastB := if f.role = .integB then some lean else e.lastB }
    let more := s.frames.any fun g => g.head == h && f.seq < g.seq && !g.complete && (g.role == .integA || g.role == .integB)
    match (s.shut h).lastA, (s.shut h).lastB with
    | some fa, some fb => if (s.shut h).integB && (s.shut h).intLeft == 0 && !more then s.pairDone h fa fb else s
    | _, _ => s
  else s

/-! ### APPLY and resume (R197 to R199, R205) -/

/-- The new O0 of a used pixel, kept when it leaves the 16-bit range (R197). -/
def newO0 (f : Frame) (n : Nat) (t : Int) (q : PairPixel) : Int :=
  let z := roundDiv (q.a.getD 0 + q.b.getD 0) (2 * n)
  let d := roundDiv (z + q.res + pairTk f q.leaf - t) 4
  let v := q.leaf.o0 + d
  if v < -32768 ∨ 32767 < v then q.leaf.o0 else v

/-- A leaf-table header with new fields and a new CRC (Table 5-5). -/
def headerWith (hdr : List Byte) (origin : Nat) (caltai : Option Nat) : List Byte :=
  let b := patch hdr 0x20 (leBytes 1 origin)
  let b := match caltai with | some c => patch b 0x10 (leBytes 8 c) | none => b
  patch b 0x3C (leBytes 4 (crc32 (b.take 0x3C)))

/-- A history plane's header (Table 7-3). -/
def planeHeader (kind w h tfpa tai seq : Nat) : List Byte :=
  let b := leBytes 4 0x54534948 ++ leBytes 2 1 ++ leBytes 1 kind ++ leBytes 1 0 ++ leBytes 2 w ++ leBytes 2 h ++
    leBytes 2 tfpa ++ leBytes 2 0 ++ leBytes 8 tai ++ leBytes 4 seq ++ List.replicate 32 0
  b ++ leBytes 4 (crc32 b)

/-- The plane value of a used pixel (R205). -/
def planeValue (f : Frame) (l : Leaf) (o0 : Int) : Int :=
  4 * o0 + if snapFlag f.snap (F.CX_HCFG_DRIFT_EN f.head) then
    driftTerms l (expByte f.hdr 0x18) (expByte f.hdr 0x19) (expByte f.hdr 0x1A) f.d else 0

/-- The used pixels of an accepted pair with their new O0 (R197). -/
def State.applyNews (s : State) (h : Nat) (fa fb : Frame) : List (Nat × Int) :=
  let n := max (s.get (F.CX_SCFG_NINT h)) 1
  let used := (s.pairCheck h fa fb).used
  let t := meanPresent (used.map fun q => some (roundDiv (q.a.getD 0 + q.b.getD 0) (2 * n)))
  used.map fun q => (q.k, newO0 fb n t q)

/-- The bytes APPLY writes into the inactive leaf copy: the copy in use with the new O0 and header (R198). -/
def State.applyLeaf (s : State) (h : Nat) (fa fb : Frame) : List Byte :=
  let p := s.corrParams fb
  let npix := p.width * p.height
  let news := s.applyNews h fa fb
  let src := s.tableBytes h (s.leafSel h) (s.copyBase h (s.leafSel h)) (64 + 12 * npix)
  headerWith (src.take 64) 1 (if fb.ageUnk then none else some fb.taiWord) ++ (List.range npix).flatMap fun k =>
    let b := (src.drop (64 + 12 * k)).take 12
    match news.find? fun e => e.1 == k with
    | some (_, o) => leBytes 2 (unsigned 16 o) ++ b.drop 2
    | none => b

/-- The bytes APPLY writes into the inactive residual copy: 0, or a locked pixel's residual (R198). -/
def State.applyResidual (s : State) (fb : Frame) : List Byte :=
  let p := s.corrParams fb
  (List.range (p.width * p.height)).flatMap fun k =>
    if (s.leafAt p k).locked then leBytes 2 (unsigned 16 (s.residualAt p k)) else leBytes 2 0

/-- The number of the history plane the next APPLY writes (R205). -/
def State.applySeq (s : State) (h : Nat) : Nat := s.get (F.CX_SOK_COUNT h) + 1

/-- The bytes of the history plane APPLY writes (R205). -/
def State.applyPlane (s : State) (h : Nat) (fa fb : Frame) : List Byte :=
  let p := s.corrParams fb
  let news := s.applyNews h fa fb
  planeHeader 1 p.width p.height fb.tfpa fb.taiWord (s.applySeq h) ++
    (List.range (p.width * p.height)).flatMap fun k => match news.find? fun e => e.1 == k with
      | some (_, o) => leBytes 4 (unsigned 32 (planeValue fb (s.leafAt p k) o))
      | none => leBytes 4 accInvalid

/-- The slot of the history ring that plane is written to (R205). -/
def State.applySlot (s : State) (h : Nat) : Nat :=
  (s.histRange h).1 + (s.applySeq h - 1) % s.get (F.CX_DFCFG_DEPTH h) * s.planeSlot h

/-- What APPLY writes (R198): the inactive leaf copy, the inactive residual copy, one history plane. -/
def State.applyPieces (s : State) (h : Nat) (fa fb : Frame) : List (Nat × List Byte) :=
  [(s.copyBase h (1 - s.leafSel h), s.applyLeaf h fa fb), (s.copyBase h (5 - s.resSel h), s.applyResidual fb)] ++
    if s.get (F.CX_DFCFG_DEPTH h) = 0 then [] else [(s.applySlot h, s.applyPlane h fa fb)]

/-- The APPLY writes take place. -/
def State.applyWrites (s : State) (h : Nat) (fa fb : Frame) : State :=
  (s.applyPieces h fa fb).foldl (fun s w => s.dramWrite w.1 w.2) s

/-- The APPLY writes complete (R198). -/
def shutterApplyDone (h : Nat) (s : State) : State :=
  let e := s.shut h
  match e.lastA, e.lastB with
  | some fa, some fb =>
    s.whenever (e.active && 5 ≤ s.shutPhase h && !e.applyDone) fun s =>
      (s.applyWrites h fa fb).modShut h fun e => { e with applyDone := true }
  | _, _ => s

/-- The shutter stands open for the resume of R198 and R199: SHPOS reads OPEN, or the open drive has ended when no open
position is reported or it was not reached. -/
def State.shutOpenNow (s : State) (h : Nat) : Bool :=
  let idle := (s.head h).drive.isNone && (s.head h).driveWait.isNone
  s.get (F.HP_STAT_SHPOS h) == 2 || (idle && (!(s.prof h).posOpen || (s.head h).openLate))

/-- A refit is requested (R206). -/
def State.refitRequest (s : State) (h : Nat) (cmd : Option (Nat × Nat)) (t : Nat) : State :=
  let fail := fun (s : State) code =>
    let s := s.put (F.CX_SSTAT_DFRES h) code
    match cmd with
    | some (r, tag) => s.finishCmd r tag 0 code
    | none => s
  if !(s.streams h && s.inRun) then fail s 0xC
  else match s.churnAsk .m4 h true t with
    | (.refused, s) => fail s 9
    | (a, s) =>
      (s.put (F.CX_SSTAT_DFRES h) 2).modShut h fun e =>
        { e with refitPhase := if a = .granted then 1 else 6, refitWaiters := cmd.toList }

/-- CX_SCMD.REFIT. -/
def refit (h : Nat) (s : State) : State := s.whenever (s.access (R.CX_SCMD h)) fun s => s.refitRequest h none s.dt

/-- CX_SLDT and CX_SLTAI take the DT of the OK resume frame (R114, R211). -/
def State.resumeStamp (s : State) (h dt : Nat) : State :=
  (s.put64 (F.CX_SLDT_LO_DT h) (F.CX_SLDT_HI_DT h) dt).put (F.CX_SLTAI_TAI h) (s.taiWord dt)

/-- At a frame start the head of an ended event resumes, or the event ends OK with both swaps (R198, R199). -/
def State.shutResume (s : State) (h t : Nat) : State :=
  let e := s.shut h
  let p := s.shutPhase h
  if e.active ∧ 5 ≤ p ∧ e.applyDone ∧ s.shutOpenNow h then
    match e.lastB with
    | none => s
    | some fb =>
      let s := (s.swapNow h 0).swapNow h 1
      let s := s.modHead h fun u => { u with betaApplied := 0, betaNew := 0, brefSet := true, sinceRefresh := 0 }
      let s := if e.bCnt = 0 then s else s.put (F.CX_BREF_BREF h) (roundDivN e.bSum e.bCnt)
      let s := ((s.put (F.CX_BREF_LTFPA h) fb.tfpa).put (F.CX_RSTAT_BETA h) 0).bump (F.CX_SOK_COUNT h)
      let s := s.resumeStamp h (if s.headHeld h then t else s.captureDt h t)
      let s := ((s.persist (4 + h)).shutResult h 1).put (F.CX_SSTAT_PHASE h) 0
      let s := s.modShut h fun e => { quiet := e.quiet, endAt := some t, deferred := e.deferred, refitPhase := e.refitPhase,
                                      refitWaiters := e.refitWaiters }
      let s := s.flushDeferred h
      let auto := s.get (F.CX_DFCFG_AUTO h)
      if auto ≠ 0 ∧ s.get (F.CX_SOK_COUNT h) % auto = 0 then s.refitRequest h none t else s
  else if e.ended ∧ s.shutOpenNow h then
    let s := s.modShut h fun e => { e with ended := false }
    if e.active then s else s.put (F.CX_SSTAT_PHASE h) 0
  else s

/-! ### The residual refresh (R202 to R204) -/

/-- At the LAST commit of a refresh frame (R202, R203): B, BETA_NEW, and res_new of every own pixel in the inactive
residual copy. -/
def State.refreshDone (s : State) (f : Frame) : State :=
  let h := f.head
  let u := s.head h
  let p := s.corrParams f
  let b := roundDivN f.bSum f.bCnt
  let s := s.putB (F.CX_RSTAT_NOBLIND h) (f.bCnt == 0)
  let s := if f.bCnt = 0 then s
    else if !u.brefSet then
      (s.put (F.CX_BREF_BREF h) b).modHead h fun u => { u with brefSet := true, betaNew := 0 }
    else
      let sh := if f.profile.dual then 0 else p.shift
      let v := satInt (4 * ((b : Int) - s.get (F.CX_BREF_BREF h)) * (2 ^ sh : Nat)) 16
      let v := if snapFlag f.snap (F.CX_RCFG_BTRK_EN h) then v else 0
      s.modHead h fun u => { u with betaNew := v }
  let delta := (s.head h).betaNew - (s.head h).betaApplied
  let cells := (List.range p.height).flatMap fun y => (List.range p.width).map fun x =>
    let old := s.residualAt p (y * p.width + x)
    match ((f.est.getD y []).getD x none) with
    | some e => (satInt (old + delta + e) 16, decide (satInt (old + delta + e) 16 ≠ old + delta + e))
    | none => (old, false)
  let nsat := cells.countP fun c => c.2
  let s := s.dramWrite (s.copyBase h (5 - s.resSel h)) (cells.flatMap fun c => leBytes 2 (unsigned 16 c.1))
  (s.put (F.CX_RSTAT_RESSAT h) (min 255 (1000 * nsat / max cells.length 1))).modHead h fun u => { u with refreshDone := true }

/-- At a frame start the copies of a finished refresh swap (R202), but not while a running event suspends the refresh (R193). -/
def State.refreshSwap (s : State) (h : Nat) : State :=
  let u := s.head h
  if !u.refreshDone || s.shutRunning h then s
  else
    let s := (s.swapNow h 1).modHead h fun u =>
      { u with refreshDone := false, betaApplied := u.betaNew }
    s.put (F.CX_RSTAT_BETA h) (unsigned 16 u.betaNew)

/-- A refresh of the head has not been swapped in yet (R202): its frame is still corrected, or its swap is due. -/
def State.refreshPending (s : State) (h : Nat) : Bool :=
  (s.head h).refreshDone || s.frames.any fun f => f.head == h && f.refresh && !f.complete

/-- Whether the captured frame that starts now is a refresh frame (R202). -/
def State.refreshPick (s : State) (h : Nat) : Bool × State :=
  let on := s.flag (F.CX_RCFG_BTRK_EN h) || s.flag (F.CX_RCFG_EST_EN h)
  let s := s.putB (F.CX_RSTAT_RES_OFF h) (on && !s.flag (F.CX_HCFG_RES_EN h))
  let u := s.head h
  let pick := on && s.flag (F.CX_HCFG_RES_EN h) && s.shutPhase h ≤ 1 && !(s.shut h).ended && !s.refreshPending h && !u.resPend &&
    s.get (F.CX_RCFG_U h) ≤ u.sinceRefresh + 1
  if pick then (true, s.modHead h fun u => { u with sinceRefresh := 0 })
  else (false, s.modHead h fun u => { u with sinceRefresh := min 255 (u.sinceRefresh + 1) })

/-! ### Drift refits (R206 to R209) -/

/-- A refit ends with a result of Table 7-2. -/
def State.refitEnd (s : State) (h code : Nat) : State :=
  let e := s.shut h
  let s := s.put (F.CX_SSTAT_DFRES h) code
  let s := if code = 4 then s.raise (20 + h) .ce (detailWord 0xFF 0xFF (0x154 + 0x80 * (h % 2))) else s
  let s := e.refitWaiters.foldl (fun s w => s.finishCmd w.1 w.2 0 code) s
  let s := s.modShut h fun e => { e with refitPhase := 0, refitWaiters := [] }
  let s := if 3 ≤ e.refitPhase ∧ e.refitPhase ≤ 5 then s.churnDone .m5 (3 * h) else s
  s.churnDone .m4 h

/-- A granted M4 begins (R206). -/
def refitStart (h : Nat) (s : State) : State :=
  s.whenever ((s.shut h).refitPhase == 1) fun s =>
    (s.put (F.CX_SSTAT_DFRES h) 3).modShut h fun e => { e with refitPhase := 2 }

/-- A history plane that the refit may use (R207): its address, TFPA and TAI. -/
structure PlaneRef where
  base : Nat
  tfpa : Nat
  tai : Nat
  deriving DecidableEq, Repr

/-- The valid planes of a head's ring. -/
def State.validPlanes (s : State) (h : Nat) : List PlaneRef :=
  (List.range (s.get (F.CX_DFCFG_DEPTH h))).filterMap fun j =>
    let base := (s.histRange h).1 + j * s.planeSlot h
    let b := s.dramRead base 64
    if leAt b 0 4 = 0x54534948 ∧ leAt b 4 2 = 1 ∧ leAt b 0x3C 4 = crc32 (b.take 0x3C) ∧ leAt b 8 2 = (s.prof h).width ∧
        leAt b 0xA 2 = (s.prof h).height ∧ leAt b 0x10 8 ≠ 0 then
      some { base := base, tfpa := leAt b 0xC 2, tai := leAt b 0x10 8 } else none

/-- The newest plane. -/
def newestPlane (l : List PlaneRef) : Option PlaneRef :=
  l.foldl (fun b p => match b with | none => some p | some q => if q.tai < p.tai then some p else b) none

/-- The TFPA span of planes in 0.01 K, and their TAI span in s. -/
def spanOf (g : PlaneRef → Nat) (l : List PlaneRef) : Nat :=
  l.foldl (fun m p => max m (g p)) 0 - l.foldl (fun m p => min m (g p)) (l.foldl (fun m p => max m (g p)) 0)

/-- What a refit fits (R207, R208): planes, the newest, ORDER, whether K is fitted, and the least number of values m. -/
structure RefitPlan where
  planes : List PlaneRef
  newest : PlaneRef
  order : Nat
  fitK : Bool
  m : Nat
  deriving DecidableEq, Repr

/-- The plan of a refit; none when there are FEW_PLANES. -/
def State.refitPlan (s : State) (h : Nat) : Option RefitPlan :=
  let l := s.validPlanes h
  let order := s.get (F.CX_DFCFG_ORDER h)
  let fitK := s.flag (F.CX_DFCFG_K_EN h) && 500 * 3600 ≤ spanOf (·.tai) l
  let m := order + if fitK then 3 else 2
  match newestPlane l with
  | none => none
  | some nw =>
    if l.length < m ∨ spanOf (·.tfpa) l < 10 * s.get (F.CX_DFCFG_MINSPAN h) then none
    else some { planes := l, newest := nw, order := order, fitK := fitK, m := m }

/-- A value of plane `p` at pixel k, none when it was not used. -/
def State.planeAt (s : State) (p : PlaneRef) (k : Nat) : Option Int := accValue (leNat (s.dramRead (p.base + 64 + 4 * k) 4))

/-- The determinant of the leading n × n part of an integer matrix, by its first row. -/
def det : Nat → List (List Int) → Int
  | 0, _ => 1
  | n + 1, m => (List.range (n + 1)).foldl (fun acc j =>
      let c := (m.headD []).getD j 0 * det n ((m.drop 1).map fun r => r.eraseIdx j)
      if j % 2 = 0 then acc + c else acc - c) 0

/-- The regressors of a plane's value: powers of TFPA - TCAL in 0.01 K up to ORDER, and TAI - TAI_N in s where K is fitted. -/
def fitRow (order : Nat) (fitK : Bool) (v : Int × Int × Int) : List Int :=
  ((List.range (order + 1)).map fun n => v.2.1 ^ n) ++ if fitK then [v.2.2] else []

/-- The least-squares fit of R207 in exact arithmetic, by the normal equations and Cramer's rule: the coefficients of the
regressors as numerators over one determinant, which is 0 where the planes do not determine the fit. -/
def exactFit (order : Nat) (fitK : Bool) (vals : List (Int × Int × Int)) : List Int × Int :=
  let n := order + 1 + fitK.toNat
  let rows := vals.map fun v => (fitRow order fitK v, v.1)
  let dot := fun i (g : List Int × Int → Int) => rows.foldl (fun a r => a + r.1.getD i 0 * g r) 0
  let m := (List.range n).map fun i => (List.range n).map fun j => dot i fun r => r.1.getD j 0
  let y := (List.range n).map fun i => dot i fun r => r.2
  let col := fun j => (List.range n).map fun i => (m.getD i []).set j (y.getD i 0)
  ((List.range n).map fun j => det n (col j), det n m)

/-- c1, c2, c3 and ck of R207, each times 2^40: the exact fit, within the rounding of binary64, whose error in the last places
is free (log entry 12). Where the planes do not determine the fit the whole result is free. -/
def refitTerms (order : Nat) (fitK : Bool) (vals : List (Int × Int × Int)) : Int × Int × Int × Int :=
  let (num, d) := exactFit order fitK vals
  if d ≤ 0 then Config.refitCoefficients order fitK vals
  else
    let c := fun j (unit : Int) =>
      roundDiv (num.getD j 0 * unit * 2 ^ 40) d.toNat + max (-256) (min 256 (Config.refitRounding j order fitK vals))
    (c 1 100, if 2 ≤ order then c 2 10000 else 0, if 3 ≤ order then c 3 1000000 else 0,
     if fitK then c (order + 1) 3600 else 0)

/-- The refitted leaf of a pixel, none when it keeps its old terms (R207, R208). -/
def State.refitPixel (s : State) (h : Nat) (hdr : List Byte) (g : RefitPlan) (l : Leaf) (k : Nat) : Option Leaf :=
  let tcal : Int := leAt hdr 0xC 2
  let vals := g.planes.filterMap fun p => (s.planeAt p k).map fun v =>
    (v, (p.tfpa : Int) - tcal, (p.tai : Int) - g.newest.tai)
  if l.bad || l.locked || vals.length < g.m then none
  else
    let (c1, c2, c3, ck) := refitTerms g.order g.fitK vals
    let term := fun (c : Int) (e : Int) (mul : Int) => scaled (mul * c) (-e) (16 * 2 ^ 40)
    let e1 := expByte hdr 0x18
    let e2 := expByte hdr 0x19
    let e3 := expByte hdr 0x1A
    let ek := expByte hdr 0x1B
    let a1 := term c1 e1 1
    let a2 := if 2 ≤ g.order then term c2 e2 1 else 0
    let a3 := if 3 ≤ g.order then term c3 e3 1 else 0
    let kk := if g.fitK then term ck ek 1000 else l.k
    let fits := fun (v : Int) (bits : Nat) => satInt v bits == v
    let l1 : Leaf := { l with a1 := a1, a2 := a2, a3 := a3, k := kk }
    let t := fun (d : Int) => driftTerms l1 e1 e2 e3 d
    let o0 := match s.planeAt g.newest k with
      | some o => roundDiv (o - t ((g.newest.tfpa : Int) - tcal)) 4
      | none => l.o0
    let sq := vals.foldl (fun acc v =>
      let tk := scaled (16 * kk * v.2.2) ek 3600000
      let r := v.1 - (4 * o0 + t v.2.1 + tk)
      acc + r * r) 0
    let lim : Int := s.get (F.CX_DFCFG_RMSLIM h)
    if fits a1 12 && fits a2 12 && fits a3 12 && fits kk 10 && fits o0 16 && sq ≤ lim * lim * vals.length then
      some { l1 with o0 := o0 }
    else none

/-- The 96 bits of a leaf with the flags and reserved bits of an old one. -/
def leafBits (old : Nat) (l : Leaf) : Nat :=
  unsigned 16 l.o0 + l.g * 2 ^ 16 + unsigned 12 l.a1 * 2 ^ 30 + unsigned 12 l.a2 * 2 ^ 42 + unsigned 12 l.a3 * 2 ^ 54 +
  unsigned 10 l.k * 2 ^ 66 + unsigned 10 l.dgt * 2 ^ 76 + old / 2 ^ 86 % 16 * 2 ^ 86

/-- The refit of every pixel: the new leaf bytes, the eligible pixels and how many of them keep their old terms. -/
def State.refitAll (s : State) (h : Nat) (g : RefitPlan) : List Byte × Nat × Nat :=
  let base := s.copyBase h (s.leafSel h)
  let read := s.tableBytes h (s.leafSel h)
  let hdr := read base 64
  (List.range (s.prof h).pixels).foldl (fun (acc : List Byte × Nat × Nat) k =>
    let v := leNat (read (base + 64 + 12 * k) 12)
    let l := leafOf v
    let elig := if l.bad || l.locked then 0 else 1
    match s.refitPixel h hdr g l k with
    | some l' => (acc.1 ++ leBytes 12 (leafBits v l'), acc.2.1 + elig, acc.2.2)
    | none => (acc.1 ++ leBytes 12 v, acc.2.1 + elig, acc.2.2 + elig)) ([], 0, 0)

/-- The bytes a refit writes into the inactive leaf copy (R208, R209). -/
def State.refitLeaf (s : State) (h : Nat) (g : RefitPlan) : List Byte :=
  headerWith (s.tableBytes h (s.leafSel h) (s.copyBase h (s.leafSel h)) 64) 2 (some g.newest.tai) ++ (s.refitAll h g).1

/-- The refit computation ends (R208, R209): FEW_PLANES, IMPLAUSIBLE, or M5 is requested for the write and swap. -/
def refitComputeDone (h : Nat) (s : State) : State :=
  s.whenever ((s.shut h).refitPhase == 2) fun s =>
    let l := s.validPlanes h
    let s := (s.put (F.CX_DFSTAT_PLANES h) l.length).put (F.CX_DFSTAT_SPAN h) (spanOf (·.tfpa) l)
    match s.refitPlan h with
    | none => s.refitEnd h 0xE
    | some g =>
      let (_, elig, kept) := s.refitAll h g
      if s.get (F.CX_SLIM_FAILPM h) * elig < 1000 * kept then s.refitEnd h 4
      else match s.churnAsk .m5 (3 * h) true s.dt with
        | (.refused, s) => s.refitEnd h 9
        | (.granted, s) => s.modShut h fun e => { e with refitPhase := 4 }
        | (_, s) => s.modShut h fun e => { e with refitPhase := 3 }

/-- The refit's leaf writes complete; the swap waits for the next frame start (R209). -/
def refitWritesDone (h : Nat) (s : State) : State :=
  s.whenever ((s.shut h).refitPhase == 4) fun s =>
    match s.refitPlan h with
    | none => s.refitEnd h 0xE
    | some g =>
      (s.dramWrite (s.copyBase h (1 - s.leafSel h)) (s.refitLeaf h g)).modShut h fun e => { e with refitPhase := 5 }

/-- At a frame start the leaf copy of a finished refit swaps (R209). -/
def State.refitSwapNow (s : State) (h : Nat) : State :=
  if (s.shut h).refitPhase = 5 then (s.swapNow h 0).refitEnd h 1 else s

/-! ### Meanings -/

/-- `SHREQ`. -/
def execShreq (h : Head) (s : State) : Result := .next (shreq h s)
/-- `SHUTTER_SCHEDULE_DUE`. -/
def execShutterScheduleDue (h : Head) (t : Nat) (s : State) : Result := .next (shutterScheduleDue h t s)
/-- `CANCEL`. -/
def execShutterCancel (h : Head) (s : State) : Result := .next (shutterCancel h s)
/-- `REFIT`. -/
def execRefit (h : Head) (s : State) : Result := .next (refit h s)
/-- `BRESET`. -/
def execBreset (h : Head) (s : State) : Result := .next (breset h s)
/-- `QUIET_WINDOW_ARM`. -/
def execQuietWindowArm (h : Head) (v : Word) (s : State) : Result := .next (quietWindowArm h v s)
/-- `QUIET_WINDOW_END`. -/
def execQuietWindowEnd (h : Head) (t : Nat) (s : State) : Result := .next (quietWindowEnd h t s)
/-- `SHUTTER_EVENT_START`. -/
def execShutterEventStart (h : Head) (t : Nat) (s : State) : Result := .next (shutterEventStart h t s)
/-- `SHUTTER_DEADLINE`. -/
def execShutterDeadline (h : Head) (t : Nat) (s : State) : Result := .next (shutterDeadline h t s)
/-- `SHUTTER_APPLY_DONE`. -/
def execShutterApplyDone (h : Head) (s : State) : Result := .next (shutterApplyDone h s)
/-- `SHUTTER_EVENT_TIMEOUT`. -/
def execShutterEventTimeout (h : Head) (s : State) : Result := .next (shutterEventTimeout h s)
/-- `REFIT_START`. -/
def execRefitStart (h : Head) (s : State) : Result := .next (refitStart h s)
/-- `REFIT_COMPUTE_DONE`. -/
def execRefitComputeDone (h : Head) (s : State) : Result := .next (refitComputeDone h s)
/-- `REFIT_WRITES_DONE`. -/
def execRefitWritesDone (h : Head) (s : State) : Result := .next (refitWritesDone h s)

end Sys2Proof.Machine
end

