-- ==== Sys2Proof/Machine/Radiometry.lean ====
section
/-! DEFINITION. Radiometric conversion (chapter 8): sets, zone terms, per-pixel temperatures, set swaps. -/

namespace Sys2Proof.Machine

/-! ### Sets in DRAM (R215, R216) -/

/-- Bytes of a set at `base`; a byte on a lost channel is served from the synced mirror (R224). -/
def State.setBytes (s : State) (h i base o n : Nat) : List Byte :=
  (List.range n).map fun k =>
    let x := base + o + k
    if s.lostChan.contains (chanOf x) && s.radMirrored h i && s.radSynced h i then
      s.dramByte (s.radMirBase h i + (x - s.radBase h i))
    else s.dramByte x

/-- A little-endian field of a set. -/
def State.setField (s : State) (h i base o n : Nat) : Nat := leNat (s.setBytes h i base o n)

/-- A zone record is well formed (Table 8-2). -/
def zoneOk (v : Nat) : Bool :=
  let w := v / 2 ^ 38 % 2 ^ 11
  let a := v / 2 ^ 27 % 2 ^ 11
  let e := v / 2 ^ 16 % 2 ^ 11
  v / 2 ^ 49 == 0 && within w 512 1024 && within a 512 1024 && within e 103 1024 && 1 ≤ v % 65536

/-- Copy `i` of a head's set cannot be read (R224): a unit of it lies on a lost channel, and so does that of a synced mirror, or
there is none. -/
def State.radLost (s : State) (h i : Nat) : Bool :=
  let lost := fun base k => s.lostAt (base + min (4096 * k) (radSize - 1))
  (List.range 13).any fun k =>
    lost (s.radBase h i) k && !(s.radMirrored h i && s.radSynced h i && !lost (s.radMirBase h i) k)

/-- Copy `i` of a head's set is well formed (R216). -/
def State.setOk (s : State) (h i : Nat) : Bool :=
  let b := fun o n => s.setBytes h i (s.radBase h i) o n
  let g := fun o n => leNat (b o n)
  let tt := fun i => g (0x40 + 4 * i) 4
  let y0 := signed 32 (g 8 4)
  g 0 4 == 0x53444152 && g 4 2 == 1 && g 6 1 ≤ 12 && g 7 1 == 0 && -8388608 ≤ y0 && y0 ≤ 8388607 &&
  !s.radLost h i && 1 ≤ g 0xC 2 && 1 ≤ g 0xE 2 && (b 0x14 36).all (· == 0) &&
  g 0x38 4 == crc32 (b 0x40 49152) && g 0x3C 4 == crc32 (b 0 0x3C) &&
  ((List.range 4096).all fun i => within (tt i) 1 4000000) && ((List.range 4095).all fun i => tt i < tt (i + 1)) &&
  ((List.range 4096).all fun z => zoneOk (g (0x4040 + 8 * z) 8))

/-! ### The radiometric stage of one frame (R214, R218 to R222) -/

/-- What the stage converts a frame with. -/
structure RadStage where
  head : Nat
  copy : Nat
  base : Nat
  en : Bool
  zoneEn : Bool
  clipMark : Bool
  failed : Bool
  stepSh : Nat
  y0 : Int
  tatm : Nat
  twin : Nat
  width : Nat
  height : Nat
  deriving DecidableEq, Repr

/-- The stage of a frame: its own parameters and the set copy in force at its start. -/
def State.radStage (s : State) (f : Frame) : RadStage :=
  let h := f.head
  let i := if f.radSel then 1 else 0
  let base := 4096 * (if f.radSel then snapGet f.snap (F.FP_RSB_BASE h) else snapGet f.snap (F.FP_RSA_BASE h))
  { head := h, copy := i, base := base, en := snapFlag f.snap (F.FP_RCFG_EN h),
    zoneEn := snapFlag f.snap (F.FP_RCFG_ZONE_EN h), clipMark := snapFlag f.snap (F.FP_RCFG_CLIPMARK h),
    failed := f.radUe, stepSh := s.setField h i base 6 1, y0 := signed 32 (s.setField h i base 8 4),
    tatm := s.setField h i base 0xC 2, twin := s.setField h i base 0xE 2, width := f.profile.width,
    height := f.profile.height }

/-- Entry `i` of the temperature table. -/
def State.ttEntry (s : State) (r : RadStage) (i : Nat) : Nat := s.setField r.head r.copy r.base (0x40 + 4 * i) 4

/-- The largest index whose entry is at most `t`, found in a rising table from the top bit down. -/
def State.ttIndex (s : State) (r : RadStage) (t : Nat) : Nat :=
  (List.range 12).foldl (fun i k => let j := i + 2 ^ (11 - k); if s.ttEntry r j ≤ t then j else i) 0

/-- C(T) of R218, and whether it was clamped. -/
def State.countOf (s : State) (r : RadStage) (t : Nat) : Int × Bool :=
  if t ≤ s.ttEntry r 0 then (r.y0, true)
  else if s.ttEntry r 4095 ≤ t then (r.y0 + 4095 * (2 ^ r.stepSh : Nat), true)
  else
    let i := s.ttIndex r t
    let lo := s.ttEntry r i
    (r.y0 + i * (2 ^ r.stepSh : Nat) + roundDivN (2 ^ r.stepSh * (t - lo)) (s.ttEntry r (i + 1) - lo), false)

/-- The zone record of pixel (x, row) (R217). -/
def State.zoneRec (s : State) (r : RadStage) (x row : Nat) : Nat :=
  s.setField r.head r.copy r.base (0x4040 + 8 * (64 * (64 * row / r.height) + 64 * x / r.width)) 8

/-- kz and gz of a zone record (R219), and whether a count was clamped. -/
def State.zoneTerms (s : State) (r : RadStage) (rec : Nat) : Int × Nat × Bool :=
  if !r.zoneEn then (0, 65536, false)
  else
    let w : Nat := rec / 2 ^ 38 % 2 ^ 11
    let a : Nat := rec / 2 ^ 27 % 2 ^ 11
    let e : Nat := rec / 2 ^ 16 % 2 ^ 11
    let (cr, k1) := s.countOf r (50 * (rec % 65536))
    let (ca, k2) := s.countOf r (50 * r.tatm)
    let (cw, k3) := s.countOf r (50 * r.twin)
    let num : Int := (Int.ofNat (w * a)) * (1024 - Int.ofNat e) * cr + Int.ofNat w * (1024 - Int.ofNat a) * 1024 * ca +
      (1024 - Int.ofNat w) * 1048576 * cw
    (roundDiv num (2 ^ 30), roundDivN (2 ^ 46) (e * a * w), k1 || k2 || k3)

/-- The temperature of a committed value in mK (R220): below (1) or above (2) the table, or within (0). -/
def State.tempOf (s : State) (r : RadStage) (x row : Nat) (y : Int) : Nat × Nat :=
  let (kz, gz, _) := s.zoneTerms r (s.zoneRec r x row)
  let yo := satInt (roundDiv ((y - kz) * gz) 65536) 24
  let u := yo - r.y0
  let top : Int := 4095 * (2 ^ r.stepSh : Nat)
  if u < 0 then (s.ttEntry r 0, 1)
  else if top < u then (s.ttEntry r 4095, 2)
  else if u = top then (s.ttEntry r 4095, 0)
  else
    let i := u.toNat / 2 ^ r.stepSh
    let f := u.toNat % 2 ^ r.stepSh
    let lo := s.ttEntry r i
    (lo + roundDivN ((s.ttEntry r (i + 1) - lo) * f) (2 ^ r.stepSh), 0)

/-- Y = 16 × y of a committed word (Table 6-3). -/
def wordY (w : Nat) : Int := signed 24 w

/-- The clip mark applies to a committed word (R221). -/
def RadStage.marked (r : RadStage) (w : Nat) : Bool := r.clipMark && (w.testBit 25 || w.testBit 26)

/-- T16 and T32 of a committed word, and where it fell (R221, R222, R224). -/
def State.convert (s : State) (r : RadStage) (x row w : Nat) : Nat × Nat × Nat :=
  if w.testBit 28 || !r.en || r.failed then (0, 0, 0)
  else
    let (t, c) := s.tempOf r x row (wordY w)
    if r.marked w then (0xFFFF, 0xFFFFFFFF, c)
    else (min (roundDivN t 50) (if r.clipMark then 65534 else 65535), t, c)

/-- The frame's read of its set fails where a lost channel has made the set unreadable (R224; log entry 157). -/
def State.radReadLost (s : State) (f : Frame) : State :=
  let r := s.radStage f
  if r.en && !f.radUe && s.radLost f.head r.copy then
    (s.modFrame f.head f.seq fun f => { f with radUe := true, degraded := true }).put (F.FP_RSTAT_RDERR f.head) 1
  else s

/-- At a frame start FP_RID, ZCLAMP and RDERR show the copy in use (Table 8-7). -/
def State.radFrameStart (s : State) (f : Frame) : State :=
  let h := f.head
  let r := s.radStage f
  let clamp := r.en && r.zoneEn && (List.range 4096).any fun z =>
    (s.zoneTerms r (s.setField h r.copy r.base (0x4040 + 8 * z) 8)).2.2
  let s := s.put (F.FP_RID_SETID h) (s.setField h r.copy r.base 0x10 4)
  ((s.putB (F.FP_RSTAT_ZCLAMP h) clamp).put (F.FP_RSTAT_RDERR h) 0).radReadLost f

/-! ### Swaps (R225) and mirrors (R223) -/

/-- A set copy, or its mirror, meets the placement rules of R223. -/
def State.radPlaced (s : State) (h i : Nat) (mir : Bool) : Bool :=
  let r : Range := (if mir then s.radMirBase h i else s.radBase h i, radSize)
  let others := (List.range 8).flatMap fun g =>
    (s.copyRanges g).map (fun c => c.2.2) ++ s.outRanges g ++
    (if s.hasProf g && s.flag (F.CX_SCFG_EN g) then [s.workRange g] else []) ++
    (if s.get (F.CX_DFCFG_DEPTH g) = 0 then [] else [s.histRange g]) ++
    ((s.radRanges g).filter fun c => !(g == h && c.1 == i && c.2.1 == mir)).map fun c => c.2.2
  placed r others && (!mir || s.radMirBase h i / 4096 % 16 == (s.radBase h i / 4096 + 8) % 16)

/-- The acceptance check of a set copy under R216, R152 and MIRSYNC (R225): a code of Table 5-6, 0 when it may be used. -/
def State.radCheck (s : State) (h i : Nat) : Nat :=
  if !s.setOk h i then 3
  else if !s.radPlaced h i false then 4
  else if s.radMirrored h i && !s.radPlaced h i true then 4
  else if s.radMirrored h i && !s.radSynced h i then 5
  else 0

/-- The set swap takes effect. -/
def State.radSwapNow (s : State) (h : Nat) : State := s.put (F.FP_RSTAT_SEL h) (1 - s.get (F.FP_RSTAT_SEL h))

/-- FP_RCMD.SWAP, direct, in SETUP: at once. -/
def fpSwap (h : Nat) (s : State) : State :=
  s.whenever (s.access (R.FP_RCMD h)) fun s =>
    if s.mode != .setup then s.put (F.FP_RSTAT_DIRECT_REFUSED h) 1
    else
      let code := if s.swapPending h 2 then 6 else s.radCheck h (1 - s.get (F.FP_RSTAT_SEL h))
      if code = 0 then (s.radSwapNow h).put (F.FP_RSTAT_SWAPRES h) 1 else s.swapRefuse h 2 code

/-- A value of FP_RCFG takes force: NOTEMP shows whether the stage is off (R222), a set mirror bit starts the copy of its primary
(R223). -/
def State.setRcfg (s : State) (h v : Nat) : State :=
  let old := s
  let s := s.put ⟨R.FP_RCFG h, 0, 5⟩ v
  let s := s.putB (F.FP_RSTAT_NOTEMP h) (!s.flag (F.FP_RCFG_EN h))
  (List.range 2).foldl (fun s i =>
    if s.radMirrored h i && !old.radMirrored h i then { s with mirCopies := s.mirCopies ++ [(h, 4 + i)] }
    else if !s.radMirrored h i then
      if i = 0 then s.put (F.FP_RSTAT_MIRSYNC_A h) 0 else s.put (F.FP_RSTAT_MIRSYNC_B h) 0
    else s) s

/-- A value of FP_RCFG is acceptable: each mirror it enables obeys R223. -/
def State.rcfgOk (s : State) (h v : Nat) : Bool := (List.range 2).all fun i => !bit v (2 + i) || s.radPlaced h i true

/-- The base in force of set copy `i`, or of its mirror, is acceptable (R223): the copy's own placement, and that of an enabled
mirror. -/
def State.rbaseOk (s : State) (h i : Nat) (mir : Bool) : Bool :=
  (mir || s.radPlaced h i false) && (!s.radMirrored h i || s.radPlaced h i true)

/-- A read of a frame's set fails uncorrectably (R224): the frame is the head's oldest that its set is still to convert, or the
running job's. -/
def radiometricSetReadUe (h ch : Nat) (job repeatFails : Bool) (s : State) : State :=
  let mine := fun (j : ReJob) => j.started.isSome && leAt j.body 0x10 1 == h
  let frame := s.frames.find? fun f => f.head == h && f.unconverted && snapFlag f.snap (F.FP_RCFG_EN h)
  s.whenever (if job then s.jobs.any mine else frame.isSome) fun s =>
    if !repeatFails then s.dramNote ch
    else
      let s := (s.dramUE ch).put (F.FP_RSTAT_RDERR h) 1
      if job then { s with jobs := mapIf mine (fun (j : ReJob) => { j with radUe := true }) s.jobs }
      else match frame with
        | some f => s.modFrame h f.seq fun f => { f with radUe := true, degraded := true }
        | none => s

/-! ### Meanings -/

/-- `SWAP`. -/
def execFpSwap (h : Head) (s : State) : Result := .next (fpSwap h s)
/-- `RADIOMETRIC_SET_READ_UE`. -/
def execRadiometricSetReadUe (h : Head) (r : SetRead) (rf : Bool) (s : State) : Result :=
  .next (radiometricSetReadUe h r.ch r.job rf s)

end Sys2Proof.Machine
end

