-- ==== Sys2Proof/Machine/RingOps.lean ====
section
/-! DEFINITION. The shared operations of the host rings (chapter 13): contexts, owners, records, messages, halts. -/

namespace Sys2Proof.Machine

/-! ### Contexts (Table 13-3) -/

/-- Parse the 64 bytes of a context. -/
def parseCtx (b : List Byte) : RingCtx :=
  let u := fun o n => leAt b o n
  let c := u 0x09 1
  { rbase := u 0 8, logN := u 8 1, kind := c % 4, cls := c / 4 % 4, en := bit c 4, irq := bit c 5, latest := bit c 6,
    job := bit c 7, vec := u 0xC 2, modcnt := max 1 (u 0xE 1), modus := u 0x10 2, cq := u 0x12 2, pidx := u 0x14 2,
    cidx := u 0x16 2, hbase := u 0x18 8, bufsz := u 0x20 4, hpitch := u 0x24 2, shead := u 0x26 1 % 8,
    skind := u 0x26 1 / 8 % 4, dec := max 1 (u 0x27 1), x0 := u 0x28 2, y0 := u 0x2A 2, w := u 0x2C 2, h := u 0x2E 2,
    gapcnt := u 0x30 4, state := u 0x34 1, err := u 0x35 1 }

/-- The 64 bytes of a context of function `f`. -/
def ctxBytes (f : Nat) (c : RingCtx) : List Byte :=
  let cfg := c.kind + 4 * c.cls + 16 * c.en.toNat + 32 * c.irq.toNat + 64 * c.latest.toNat + 128 * c.job.toNat
  leBytes 8 c.rbase ++ leBytes 1 c.logN ++ leBytes 1 cfg ++ leBytes 1 f ++ leBytes 1 0 ++ leBytes 2 c.vec ++
  leBytes 1 c.modcnt ++ leBytes 1 0 ++ leBytes 2 c.modus ++ leBytes 2 c.cq ++ leBytes 2 c.pidx ++ leBytes 2 c.cidx ++
  leBytes 8 c.hbase ++ leBytes 4 c.bufsz ++ leBytes 2 c.hpitch ++ leBytes 1 (c.shead + 8 * c.skind) ++ leBytes 1 c.dec ++
  leBytes 2 c.x0 ++ leBytes 2 c.y0 ++ leBytes 2 c.w ++ leBytes 2 c.h ++ leBytes 4 c.gapcnt ++ leBytes 1 c.state ++
  leBytes 1 c.err ++ List.replicate 10 0

/-- The local ID of a ring in its function. -/
def State.ringLocal (s : State) (id : Nat) : Nat :=
  match s.ringFunc id with
  | some f => id - 16 * s.get (F.Q_FRANGE_BASE f)
  | none => 0

/-- The DRAM address of a context (R323). -/
def State.ctxAddr (s : State) (id : Nat) : Nat := 4096 * s.get F.Q_CTXBASE_BASE + 64 * id

/-- Replace a ring; its context is written through to device DRAM. -/
def State.setRing (s : State) (id : Nat) (u : RingUnit) : State :=
  let old := (s.ringOf id).ctx
  let s : State := { s with rings := alSet ringDefault s.rings id u }
  if u.ctx = old ∨ s.get F.Q_CTXBASE_BASE = 0 then s
  else s.dramWrite (s.ctxAddr id) (ctxBytes ((s.ringFunc id).getD 0) u.ctx)

/-- Change a ring. -/
def State.modRingU (s : State) (id : Nat) (f : RingUnit → RingUnit) : State := s.setRing id (f (s.ringOf id))

/-- Change a ring's context. -/
def State.modCtx (s : State) (id : Nat) (f : RingCtx → RingCtx) : State :=
  s.modRingU id fun u => { u with ctx := f u.ctx }

/-- Entries N of a ring. -/
def RingCtx.n (c : RingCtx) : Nat := 2 ^ c.logN
/-- The ring is ACTIVE. -/
def RingCtx.active (c : RingCtx) : Bool := c.state == 1
/-- Entries the ring holds (R326). -/
def RingCtx.fill (c : RingCtx) : Nat := (c.pidx + c.n - c.cidx) % c.n
/-- Slots free of records and of assigned items. -/
def RingUnit.free (u : RingUnit) : Nat := u.ctx.n - 1 - u.ctx.fill - u.items.length

/-- Ring IDs that have held state. -/
def State.ringIds (s : State) : List Nat := s.rings.map Prod.fst

/-! ### Messages (R317, R331) -/

/-- Word `j` of entry `v` of a function's MSI-X table. A VF's BAR0 stands in the register store at 64 MiB + 16 KiB × f
(log entry 40). -/
def msixWord (f v j : Nat) : Nat := if f = 0 then R.Q_MSIXTAB v j else 0x4000000 + 0x4000 * f + 16 * v + 4 * j

/-- The pending-bit word of vector `v`. -/
def msixPba (f v : Nat) : Nat := if f = 0 then R.Q_MSIXPBA (v / 32) else 0x4000000 + 0x4000 * f + 0x800

/-- A vector sends its message, a write of its data to its address; a masked one sets its pending bit (R331). -/
def State.msixSend (s : State) (f v : Nat) : State :=
  let ctl := (s.reg (msixWord f v 3)).toNat
  if ctl % 2 = 1 || !s.hostUp f then
    let a := msixPba f v
    s.setReg a (BitVec.ofNat 32 (setBit (s.reg a).toNat (v % 32) true))
  else
    let addr := (s.reg (msixWord f v 0)).toNat + 4294967296 * (s.reg (msixWord f v 1)).toNat
    s.hostWrite addr (leBytes 4 (s.reg (msixWord f v 2)).toNat)

/-- A ring sends its message and begins a new moderation. -/
def State.ringMessage (s : State) (id : Nat) : State :=
  let u := s.ringOf id
  (s.modRingU id fun u => { u with unsig := 0, firstUnsig := none }).msixSend ((s.ringFunc id).getD 0) u.ctx.vec

/-- A record has been posted on a ring: its message is due at MODCNT records, or at each record with MODUS = 0 (R331). -/
def State.ringModerate (s : State) (id : Nat) : State :=
  let u := s.ringOf id
  if !u.ctx.irq then s
  else
    let t := s.dt
    let s := s.modRingU id fun u => { u with unsig := u.unsig + 1, firstUnsig := some (u.firstUnsig.getD t) }
    if u.ctx.modus = 0 ∨ u.ctx.modcnt ≤ u.unsig + 1 then s.ringMessage id else s

/-- Post a record of 31 bytes in the slot at PIDX with OWN set last (R328). -/
def State.postRecord (s : State) (id : Nat) (bs : List Byte) : State :=
  let c := (s.ringOf id).ctx
  let s := s.hostWrite (c.rbase + 32 * c.pidx) (bs ++ [0x80])
  (s.modCtx id fun c => { c with pidx := (c.pidx + 1) % c.n }).ringModerate id

/-! ### Event records (R325, R328, R343) -/

/-- An event ring loses a record; the loss is counted and reported by a LOST record (R328). -/
def State.loseRecord (s : State) (id t : Nat) : State :=
  s.modRingU id fun u =>
    { u with ctx := { u.ctx with gapcnt := min (u.ctx.gapcnt + 1) 0xFFFFFFFF }, lost := u.lost + 1,
             lostDt := if u.lost = 0 then t else u.lostDt }

/-- Give an event record (bytes 0x00 to 0x1E) to a ring. A ring that is not an active event ring counts it (R325); with
1,024 records held on chip it is lost (R343). -/
def State.postEvent (s : State) (id : Nat) (bs : List Byte) : State :=
  let u := s.ringOf id
  if u.ctx.kind ≠ 3 ∨ !u.ctx.active then
    if u.ctx.kind = 3 then
      s.modCtx id fun c => { c with gapcnt := min (c.gapcnt + 1) 0xFFFFFFFF }
    else s
  else if !s.canPost id && 1024 ≤ s.heldRecords then s.loseRecord id s.dt
  else s.modRingU id fun u => { u with out := u.out ++ [bs] }

/-- The bytes 0x00 to 0x1E of an event record from its type and (offset, size, value) fields. -/
def eventRecord (type : Nat) (fields : List (Nat × Nat × Nat)) : List Byte :=
  fields.foldl (fun b f => patch b f.1 (leBytes f.2.1 f.2.2)) (patch (List.replicate 31 0) 0 (leBytes 1 type))

/-- Enabled C0 rings (Q_C0STAT.NC0). -/
def State.c0Rings (s : State) : List Nat :=
  (s.rings.filter fun e => e.2.ctx.en && e.2.ctx.kind == 3 && e.2.ctx.cls == 0).map Prod.fst

/-- NC0 follows the enabled C0 rings. -/
def State.syncC0 (s : State) : State := s.put F.Q_C0STAT_NC0 s.c0Rings.length

/-- An active ring halts with an error of Table 13-10 and reports it once on its function's ring 0; ring 0's own record is lost
and counted. Frames, gaps and event records it had still to post are dropped, as it does no further work (R330). -/
def State.haltRing (s : State) (id err : Nat) : State :=
  if !(s.ringOf id).ctx.active then s
  else
    let loc := s.ringLocal id
    let r0 := s.ringGlobal ((s.ringFunc id).getD 0) 0
    let s := s.modRingU id fun u =>
      { u with ctx := { u.ctx with state := 2, err := err }, wait := [], items := [], out := [], lost := 0 }
    if id = r0 then s.modCtx id fun c => { c with gapcnt := min (c.gapcnt + 1) 0xFFFFFFFF }
    else s.postEvent r0 (eventRecord 0x22 [(4, 2, loc), (6, 1, err), (8, 8, s.dt)])

/-! ### Contexts that cannot be read (R323, R383) -/

/-- An address lies in the ring-context area (R323). -/
def State.inCtxArea (s : State) (a : Nat) : Bool :=
  let b := 4096 * s.get F.Q_CTXBASE_BASE
  b != 0 && b ≤ a && a < b + 0x400000

/-- A word at address `a` has an uncorrectable error: one of a context halts its ring (R323). -/
def State.ctxUe (s : State) (a : Nat) : State :=
  if s.inCtxArea a then s.haltRing ((a - 4096 * s.get F.Q_CTXBASE_BASE) / 64) 5 else s

/-- The context of a ring is kept resident on chip (R323): that of an enabled C0 ring, and of the PF's ring 0. -/
def State.ctxResident (s : State) (id : Nat) : Bool := id == s.ringGlobal 0 0 || s.c0Rings.contains id

/-- The context of a ring lies on a lost channel, and is read from there (log entry 180, DESIGN CHOICE). -/
def State.ctxLost (s : State) (id : Nat) : Bool := s.lostAt (s.ctxAddr id) && !s.ctxResident id

/-- Rings whose contexts a lost channel has made unreadable halt. -/
def State.ctxHalts (s : State) : State :=
  (s.ringIds.filter fun id => s.ctxLost id).foldl (fun s id => s.haltRing id 5) s

/-! ### Delivery rings (R333, R337) -/

/-- Consecutive losses of one reason form one GAP (R337). -/
def mergeGaps : List RingItem → List RingItem
  | [] => []
  | .copy b :: l => .copy b :: mergeGaps l
  | .gap g :: l =>
    match mergeGaps l with
    | .gap k :: r => if g.reason = k.reason then .gap { g with count := g.count + k.count } :: r else .gap g :: .gap k :: r
    | r => .gap g :: r

/-- The item is a copy of such a frame. -/
def RingItem.isCopy (i : RingItem) (p : BufRec → Bool) : Bool := match i with | .copy b => p b | .gap _ => false

/-- A frame's copy becomes a loss in its place, at DT `t`. -/
def RingItem.lose (i : RingItem) (p : BufRec → Bool) (reason t : Nat) : RingItem :=
  match i with
  | .copy b => if p b then .gap ⟨b.head, b.kind, b.fmt, reason, 1, b.seq, t⟩ else i
  | .gap _ => i

/-- Frames that wait on a ring are lost, each in its place (R337, R339). -/
def State.loseWaiting (s : State) (id : Nat) (p : BufRec → Bool) (reason : Nat) : State :=
  let t := s.dt
  s.modRingU id fun u => { u with wait := mergeGaps (u.wait.map fun i => i.lose p reason t) }

/-- A delivery ring loses a frame that comes after those it has: the gap stands behind them (R337, R339). -/
def State.addGap (s : State) (id : Nat) (b : BufRec) (reason : Nat) : State :=
  let t := s.dt
  s.modRingU id fun u => { u with wait := mergeGaps (u.wait ++ [.gap ⟨b.head, b.kind, b.fmt, reason, 1, b.seq, t⟩]) }

/-- The active subscriptions of a head and kind that receive slot `seq` (R333). -/
def State.subscriptions (s : State) (h kind seq : Nat) : List Nat :=
  (s.rings.filter fun e => let c := e.2.ctx
    c.active && c.kind == 2 && !c.job && c.shead == h && c.skind == kind && seq % max c.dec 1 == 0).map Prod.fst

/-- Every subscription of a kind learns that a slot is not delivered. -/
def State.gapAll (s : State) (b : BufRec) (reason : Nat) : State :=
  (s.subscriptions b.head b.kind b.seq).foldl (fun s id => s.addGap id b reason) s

/-- The newest frame that waits. -/
def RingUnit.newest (u : RingUnit) : Option BufRec :=
  (u.wait.filterMap fun i => match i with | .copy b => some b | .gap _ => none).getLast?

/-- Waiting frames and gaps take free slots, in order; a LATEST ring delivers the newest frame alone and reports those it passes
over as lost (R337). -/
def State.placeWaiting (s : State) (id : Nat) : State :=
  let u := s.ringOf id
  if !u.ctx.active || u.free = 0 then s
  else
    let s := if u.ctx.latest then s.loseWaiting id (fun b => u.newest != some b) 1 else s
    s.modRingU id fun u => { u with items := u.items ++ u.wait.take u.free, wait := u.wait.drop u.free }

/-- Offer a complete frame to a delivery ring (R334, R337): it is copied to a free slot behind the gaps before it, or
waits. On a LATEST ring that cannot reach the host it passes over the frames that wait (R343). -/
def State.offer (s : State) (id : Nat) (b : BufRec) : State :=
  let u := s.ringOf id
  let up := match s.ringFunc id with | some f => s.hostUp f | none => false
  let s := if !up && u.ctx.latest then s.loseWaiting id (fun _ => true) 4 else s
  let s := s.modRingU id fun u => { u with wait := u.wait ++ [.copy b] }
  if up && u.newest.isNone && u.wait.length < u.free then s.placeWaiting id else s

/-- A buffer is being read by a delivery copy (R267, R334). -/
def RingUnit.reads (u : RingUnit) (h kind seq : Nat) : Bool :=
  u.items.any fun i => match i with | .copy b => b.head == h && b.kind == kind && b.seq == seq | .gap _ => false

/-- Post the GAP records that stand at the front of a ring's items. -/
def State.postGaps (s : State) (id : Nat) : Nat → State
  | 0 => s
  | n + 1 =>
    match (s.ringOf id).items with
    | .gap g :: rest =>
      let s := s.modRingU id fun u =>
        { u with items := rest, ctx := { u.ctx with gapcnt := min (u.ctx.gapcnt + g.count) 0xFFFFFFFF } }
      (s.postRecord id (eventRecord 0x02 [(1, 1, g.head), (2, 1, g.kind + 4 * g.fmt), (3, 1, g.reason), (4, 4, g.count),
        (8, 8, g.seq), (0x10, 8, g.dt)])).postGaps id n
    | _ => s

/-- Post what can be posted at the front of a delivery ring. -/
def State.flushGaps (s : State) (id : Nat) : State :=
  if s.canPost id && (s.ringOf id).ctx.active then s.postGaps id (s.ringOf id).items.length else s

end Sys2Proof.Machine
end

