-- ==== Sys2Proof/Machine/Picture.lean ====
section
/-! DEFINITION. The picture branch and the formatters of a finishing pipe (R259 to R266, R271 to R273): from the committed
words of a frame to the bytes of its delivery buffers. -/

namespace Sys2Proof.Machine

/-! ### A frame's pixels -/

/-- A parameter of a frame (R161). -/
def Frame.g (f : Frame) (x : Fld) : Nat := snapGet f.snap x
/-- A one-bit parameter of a frame. -/
def Frame.b (f : Frame) (x : Fld) : Bool := snapFlag f.snap x

/-- One pixel after the radiometric stage: its committed word, T16, T32. -/
structure RadPix where
  w : Nat
  t16 : Nat
  t32 : Nat
  /-- Its word could not be read: it is put out as 0 (R256). -/
  dead : Bool := false
  deriving DecidableEq, Repr

/-- The pixels of a frame's rows; a row whose words carry MISS is none (R116, R263). -/
def State.radRows (s : State) (f : Frame) (rows : List (List Nat)) : List (Option (List RadPix)) :=
  let r := s.radStage f
  (List.range rows.length).map fun y =>
    let ws := rows.getD y []
    if ws.any fun w => w.testBit 28 then none
    else some ((List.range ws.length).map fun x =>
      let w := ws.getD x 0
      let (t16, t32, _) := s.convert r x y w
      { w := w, t16 := t16, t32 := t32, dead := f.dead.any (·.1 == y * f.profile.width + x) })

/-! ### Tone mapping (R259) -/

/-- The bin of a value (R286). -/
def binOf (lo : Int) (sh : Nat) (v : Int) : Nat := (max 0 (min 1023 ((v - lo) / (2 ^ sh : Nat)))).toNat

/-- An arithmetic shift right. -/
def shiftRight (v : Int) (n : Nat) : Int := v / (2 ^ n : Nat)

/-- The first bin at which the cumulative count meets a test. -/
def firstBin (p : Nat → Bool) : Nat → Nat → List Nat → Option Nat
  | _, _, [] => none
  | i, cum, n :: ns => if p (cum + n) then some i else firstBin p (i + 1) (cum + n) ns

/-- How a frame's pixels are mapped: through the curve, linearly between two bounds, by a plateau histogram, or to the
middle. -/
inductive Tone where
  | fixed
  | linear (lo hi : Int)
  | plateau (lo : Int) (sh : Nat) (cum : List (Nat × Nat)) (total : Nat)
  | mid
  deriving DecidableEq, Repr

/-- Running sums below each bin, with the bin's own count. -/
def prefixSums : Nat → List Nat → List (Nat × Nat)
  | _, [] => []
  | c, n :: ns => (c, n) :: prefixSums (c + n) ns

/-- The tone of a frame. `free` is the lower bound's bin where an empty histogram leaves it unstated (log entry 41). -/
def Frame.toneMode (f : Frame) (free : Nat) : Tone :=
  let h := f.head
  let mode := f.g (F.FP_HTONE_MODE h)
  if mode = 0 then .fixed
  else if !f.b (F.FP_RCFG_EN h) then .mid
  else if mode = 1 then
    match f.tone with
    | none =>
      let lo := signed 32 (f.g (F.ST_HHLO_HLO h))
      .linear lo (lo + 1024 * (2 ^ f.g (F.ST_HCFG_HSH h) : Nat))
    | some t =>
      let total := t.bins.foldl (· + ·) 0
      let bLo := (firstBin (fun c => f.g (F.FP_HTAUTO_PLO h) * total < 1000 * c) 0 0 t.bins).getD (free % 1024)
      let bHi := (firstBin (fun c => f.g (F.FP_HTAUTO_PHI h) * total ≤ 1000 * c) 0 0 t.bins).getD 1023
      .linear (t.lo + bLo * (2 ^ t.sh : Nat)) (t.lo + (bHi + 1) * (2 ^ t.sh : Nat))
  else
    match f.tone with
    | none => .mid
    | some t =>
      let total := t.bins.foldl (· + ·) 0
      let plat := f.g (F.FP_HTONE_PLAT h)
      let c := t.bins.map fun n => if plat = 0 then 10000 * n else min (10000 * n) (plat * total)
      let ct := c.foldl (· + ·) 0
      if ct = 0 then .mid else .plateau t.lo t.sh (prefixSums 0 c) ct

/-- Entry `i` of the tone curve in force. -/
def Frame.curve (f : Frame) (i : Nat) : Nat :=
  let h := f.head
  let k := i / 2
  if f.b (F.FP_HTONE_CBANK h) then f.g (if i % 2 = 0 then F.FP_CURVE1_E0 h k else F.FP_CURVE1_E1 h k)
  else f.g (if i % 2 = 0 then F.FP_CURVE0_E0 h k else F.FP_CURVE0_E1 h k)

/-- The 12-bit value of a pixel. -/
def Frame.toneOut (f : Frame) (t : Tone) (p : RadPix) : Nat :=
  let h := f.head
  match t with
  | .mid => 2048
  | .fixed =>
    let v : Int := if f.b (F.FP_HTONE_SRC h) then p.t16 else wordY p.w
    f.curve (max 0 (min 4095 (shiftRight (v - signed 32 (f.g (F.FP_HTLO_TLO h))) (f.g (F.FP_HTONE_TSH h))))).toNat
  | .linear lo hi =>
    if hi ≤ lo then 2048
    else (max 0 (min 4095 (roundDiv (4095 * ((p.t16 : Int) - lo)) (hi - lo).toNat))).toNat
  | .plateau lo sh cum total =>
    let (c, n) := cum.getD (binOf lo sh p.t16) (0, 0)
    roundDivN (4095 * (2 * c + n)) (2 * total)

/-! ### Palette, matrix and gains (R260, R261) -/

/-- A colour of three 10-bit channels. -/
abbrev Rgb := Nat × Nat × Nat

/-- `v` clamped to 0 … `m`. -/
def clampTo (m : Nat) (v : Int) : Nat := (max 0 (min (m : Int) v)).toNat

/-- The colour of a 12-bit value. -/
def Frame.palette (f : Frame) (out : Nat) : Rgb :=
  let h := f.head
  let i := out / 4
  if f.b (F.FP_HPIPE_PAL_EN h) then
    let v := if f.b (F.FP_HPIPE_PBANK h) then f.g (F.FP_PAL1_RGB h i) else f.g (F.FP_PAL0_RGB h i)
    (v / 2 ^ 20, v / 2 ^ 10 % 1024, v % 1024)
  else (i, i, i)

/-- The colour matrix and the gains. -/
def Frame.matrix (f : Frame) (c : Rgb) : Rgb :=
  let h := f.head
  if !f.b (F.FP_HPIPE_CM_EN h) then c
  else
    let m := fun (x : Fld) => signed 15 (f.g x)
    let ch := fun (a b d : Fld) (gain : Fld) =>
      clampTo 1023 (roundDiv ((m a * c.1 + m b * c.2.1 + m d * c.2.2) * f.g gain) (2 ^ 21))
    (ch (F.FP_HCM0_m00 h) (F.FP_HCM0_m01 h) (F.FP_HCM1_m02 h) (F.FP_HGAIN_GR h),
     ch (F.FP_HCM1_m10 h) (F.FP_HCM2_m11 h) (F.FP_HCM2_m12 h) (F.FP_HGAIN_GG h),
     ch (F.FP_HCM3_m20 h) (F.FP_HCM3_m21 h) (F.FP_HCM4_m22 h) (F.FP_HGAIN_GB h))

/-! ### The scaler (R262, R263) -/

/-- The position of output sample `j` in 64ths of an input sample. -/
def scalePos (inp out j : Nat) : Int := (((2 * j + 1) * inp * 64 / (2 * out) : Nat) : Int) - 32

/-- Input indices of the 6 samples of an output sample, clamped. -/
def scaleTaps (inp : Nat) (base : Int) : List Nat :=
  (List.range 6).map fun (k : Nat) => (max 0 (min ((inp : Int) - 1) (base - 2 + k))).toNat

/-- Coefficient `k` of phase `phi` in the bank in force. -/
def Frame.coef (f : Frame) (phi k : Nat) : Int :=
  signed 12 (f.g (if f.b (F.FP_HPIPE_SBANK f.head) then F.FP_COEF1_C f.head (6 * phi + k) else F.FP_COEF0_C f.head (6 * phi + k)))

/-- One output sample from 6 colours. -/
def Frame.filter (f : Frame) (phi : Nat) (px : List Rgb) : Rgb :=
  let ch := fun (g : Rgb → Nat) =>
    clampTo 1023 (roundDiv ((List.range 6).foldl (fun a k => a + f.coef phi k * g (px.getD k (0, 0, 0))) (0 : Int)) 1024)
  (ch (·.1), ch (·.2.1), ch (·.2.2))

/-- The horizontal pass of one row. -/
def Frame.scaleRow (f : Frame) (inp out : Nat) (row : List Rgb) : List Rgb :=
  (List.range out).map fun j =>
    let pos := scalePos inp out j
    f.filter (pos % 64).toNat ((scaleTaps inp (pos / 64)).map fun i => row.getD i (0, 0, 0))

/-- A pixel of the picture: its colour, or none where its word could not be read, which every format puts out as 0 (R256). -/
abbrev Shown := Option Rgb

/-- A component of a pixel put out; 0 for an unreadable one, in the mean of a chroma pair or block too (log entry 182). -/
def comp (c : Rgb → Nat) (p : Shown) : Nat := match p with | some q => c q | none => 0

/-- The present row nearest to row `i`; on a tie `up` chooses the higher row (log entry 41). -/
def nearestRow (rows : List (Option (List Rgb))) (up : Bool) (i : Nat) : List Rgb :=
  let at_ := fun (j : Int) => if j < 0 then none else rows.getD j.toNat none
  ((List.range (rows.length + 1)).findSome? fun (d : Nat) =>
    let a := at_ ((i : Int) - d)
    let b := at_ ((i : Int) + d)
    if up then b <|> a else a <|> b).getD []

/-- The input sample nearest to position `pos`. -/
def nearestOf (inp : Nat) (pos : Int) : Nat := (max 0 (min ((inp : Int) - 1) ((pos + 32) / 64))).toNat

/-- The whole resample; an output row whose nearest source row is missing is none. An unreadable pixel enters as black, and an
output pixel whose nearest source pixel is one is unreadable too (log entry 182). -/
def Frame.scale (f : Frame) (ow oh : Nat) (up : Bool) (rows : List (Option (List Shown))) : List (Option (List Shown)) :=
  let inH := rows.length
  let inW := f.profile.width
  let wide := rows.map fun r => r.map fun l => f.scaleRow inW ow (l.map fun p => p.getD (0, 0, 0))
  (List.range oh).map fun j =>
    let pos := scalePos inH oh j
    match rows.getD (nearestOf inH pos) none with
    | none => none
    | some l =>
      let src := (scaleTaps inH (pos / 64)).map fun i => nearestRow wide up i
      some ((List.range ow).map fun x =>
        if (l.getD (nearestOf inW (scalePos inW ow x)) (some (0, 0, 0))).isNone then none
        else some (f.filter (pos % 64).toNat (src.map fun l => l.getD x (0, 0, 0))))

/-- The picture of a frame: OH rows of OW colours, missing rows none. -/
def Frame.picture (f : Frame) (free : Nat) (ow oh : Nat) (rows : List (Option (List RadPix))) : List (Option (List Shown)) :=
  let tone := f.toneMode free
  let px := rows.map fun r => r.map fun l => l.map fun p =>
    if p.dead then none else some (f.matrix (f.palette (f.toneOut tone p)))
  if f.b (F.FP_HPIPE_SC_EN f.head) then f.scale ow oh (free.testBit 10) px else px

/-! ### Formatters (R264 to R266) -/

/-- One plane of a delivery buffer: its pitch, the number of lines it occupies, the padding byte, its lines; a missing
line is written as zero bytes. -/
structure Plane where
  pitch : Nat
  total : Nat
  pad : Byte
  width : Nat
  lines : List (Option (List Byte))
  deriving DecidableEq, Repr

/-- A line's bytes without padding. -/
def Plane.line (p : Plane) (l : Option (List Byte)) : List Byte := l.getD (List.replicate p.width 0)

/-- The bytes of a plane in its buffer. -/
def Plane.bytes (p : Plane) : List Byte :=
  (p.lines.flatMap fun l => let b := p.line l; b ++ List.replicate (p.pitch - b.length) p.pad) ++
  List.replicate ((p.total - p.lines.length) * p.pitch) p.pad

/-- The image bytes of a plane (R273). -/
def Plane.image (p : Plane) : List Byte := p.lines.flatMap p.line

/-- A YUV component (R265). -/
def yuvComp (off : Int) (a b c : Int) (p : Rgb) : Nat :=
  (max 1 (min 254 (off + roundDiv (a * p.1 + b * p.2.1 + c * p.2.2) 65536))).toNat
def yuvY (p : Rgb) : Nat := yuvComp 16 2983 10034 1013 p
def yuvCb (p : Rgb) : Nat := yuvComp 128 (-1645) (-5530) 7175 p
def yuvCr (p : Rgb) : Nat := yuvComp 128 7175 (-6518) (-657) p

/-- The rounded mean of some values. -/
def meanNat (l : List Nat) : Nat := roundDivN (l.foldl (· + ·) 0) l.length

/-- Bytes of one line of a display format. -/
def displayLine (fmt : Nat) (l : List Shown) : List Byte :=
  if fmt = 1 then l.flatMap fun p => leBytes 1 (comp (fun c => c.1 / 4) p) ++ leBytes 1 (comp (fun c => c.2.1 / 4) p) ++
    leBytes 1 (comp (fun c => c.2.2 / 4) p)
  else if fmt = 2 then l.flatMap fun p => leBytes 4 (comp (fun c => c.1 * 2 ^ 20 + c.2.1 * 2 ^ 10 + c.2.2) p)
  else (List.range (l.length / 2)).flatMap fun k =>
    let a := l.getD (2 * k) none
    let b := l.getD (2 * k + 1) none
    leBytes 1 (meanNat [comp yuvCb a, comp yuvCb b]) ++ leBytes 1 (comp yuvY a) ++ leBytes 1 (meanNat [comp yuvCr a, comp yuvCr b]) ++
      leBytes 1 (comp yuvY b)

/-- The 2 × 2 blocks of two lines: one list of present pixels for each pair of columns; none when both lines are missing
(log entry 42). -/
def chromaBlocks (a b : Option (List Shown)) : Option (List (List Shown)) :=
  match a, b with
  | none, none => none
  | _, _ =>
    let n := max (a.getD []).length (b.getD []).length / 2
    some ((List.range n).map fun k => [a, b].flatMap fun l => match l with
      | some l => [l.getD (2 * k) none, l.getD (2 * k + 1) none]
      | none => [])

/-- The planes of a coding format (Table 10-3). -/
def codingPlanes (fmt ow oh : Nat) (px : List (Option (List Shown))) : List Plane :=
  let p := up64 ow
  let h16 := ceilDiv oh 16 * 16
  let y : Plane := { pitch := p, total := h16, pad := 16, width := ow,
                     lines := px.map fun r => r.map fun l => l.flatMap fun c => leBytes 1 (comp yuvY c) }
  let blocks := (List.range (oh / 2)).map fun j => chromaBlocks (px.getD (2 * j) none) (px.getD (2 * j + 1) none)
  let cb := fun (l : List Shown) => leBytes 1 (meanNat (l.map (comp yuvCb)))
  let cr := fun (l : List Shown) => leBytes 1 (meanNat (l.map (comp yuvCr)))
  if fmt = 1 then
    [y, { pitch := p, total := h16 / 2, pad := 128, width := ow,
          lines := blocks.map fun b => b.map fun l => l.flatMap fun q => cb q ++ cr q }]
  else
    let pc := up64 (ow / 2)
    [y, { pitch := pc, total := h16 / 2, pad := 128, width := ow / 2, lines := blocks.map fun b => b.map fun l => l.flatMap cb },
     { pitch := pc, total := h16 / 2, pad := 128, width := ow / 2, lines := blocks.map fun b => b.map fun l => l.flatMap cr }]

/-- Bytes of one line of a machine-vision format (Table 8-3). -/
def mvLine (fmt : Nat) (l : List RadPix) : List Byte :=
  l.flatMap fun p =>
    let v := fun n => if p.dead then 0 else n
    if fmt = 1 then leBytes 2 (v p.t16) else if fmt = 2 then leBytes 4 (v p.t32) else leBytes 4 (v p.w)

/-- The planes of a kind. -/
def kindPlanes (kind fmt ow oh : Nat) (px : List (Option (List Shown))) (rows : List (Option (List RadPix))) : List Plane :=
  if kind = 1 then codingPlanes fmt ow oh px
  else
    let w := ow * pixBytes kind fmt
    [{ pitch := up64 w, total := oh, pad := 0, width := w,
       lines := if kind = 0 then px.map fun r => r.map (displayLine fmt) else rows.map fun r => r.map (mvLine fmt) }]

/-- The planes' shape without content: image zero. -/
def emptyPlanes (kind fmt ow oh : Nat) : List Plane :=
  let blank : List (Option (List Shown)) := List.replicate oh none
  kindPlanes kind fmt ow oh blank (List.replicate oh none)

/-! ### Bands (R271 to R273) -/

/-- A band of 64 bytes padded to a line of pitch `p`. -/
def bandLine (p : Nat) (b : List Byte) : List Byte := b ++ List.replicate (p - b.length) 0

/-- A Headband (Table 10-4) from its fields. -/
def headband (head kind fmt seq dt gen copies flags setid ow oh src tai : Nat) : List Byte :=
  let b := leBytes 4 0x44424851 ++ leBytes 1 1 ++ leBytes 1 head ++ leBytes 1 kind ++ leBytes 1 fmt ++ leBytes 8 seq ++
    leBytes 8 dt ++ leBytes 4 gen ++ leBytes 1 copies ++ leBytes 1 flags ++ leBytes 2 0 ++ leBytes 4 setid ++ leBytes 2 ow ++
    leBytes 2 oh ++ leBytes 8 src ++ leBytes 8 tai ++ leBytes 4 0
  b ++ leBytes 4 (crc32 b)

/-- The COPIES byte of a frame. -/
def Frame.copies (f : Frame) : Nat := f.leafSel.toNat + 2 * f.resSel.toNat + 4 * f.radSel.toNat

/-- The SETID of a frame's radiometric set. -/
def State.frameSetId (s : State) (f : Frame) : Nat :=
  let r := s.radStage f
  s.setField f.head r.copy r.base 0x10 4

/-- The Headband of a frame that carries its own image. -/
def State.frameHead (s : State) (f : Frame) (kind fmt ow oh : Nat) : List Byte :=
  headband f.head kind fmt f.seq f.dt f.gen f.copies (if f.reprocessed then 1 else 0) (s.frameSetId f) ow oh f.seq f.taiWord

/-- The frame digest of Table 10-6: MIN, MAX, MEAN, MAXX, MAXY, NPIX. -/
structure Digest where
  min : Int := 0
  max : Int := 0
  mean : Int := 0
  maxX : Nat := 0xFFFF
  maxY : Nat := 0xFFFF
  n : Nat := 0
  deriving DecidableEq, Repr

/-- The two lines of a Tailband (Tables 10-5 and 10-6). -/
def tailband (f : Frame) (thr : Bool) (d : Digest) (nalarm : Nat) (unit16 : Bool) (imgCrc : Nat) : List Byte × List Byte :=
  let flags := f.short.toNat + 2 * f.long.toNat + 8 * thr.toNat + 16 * f.degraded.toNat +
    32 * (if f.swap = 0 then 0 else 1) + 64 * f.short.toNat
  let a := leBytes 4 0x44425451 ++ leBytes 2 flags ++ leBytes 1 (f.shpos % 4 + 4 * (f.shphase % 8)) ++ leBytes 1 0 ++
    leBytes 4 (f.sub + f.unrec) ++ leBytes 4 f.inv ++ leBytes 4 f.clip ++ leBytes 4 f.sat ++ leBytes 2 f.missLines ++
    leBytes 2 f.excess ++ leBytes 2 f.tfpa ++ leBytes 2 f.swap ++ leBytes 2 f.rlastLo ++ leBytes 2 f.rlastHi ++
    List.replicate 24 0 ++ leBytes 4 imgCrc
  let b := leBytes 4 (unsigned 32 d.min) ++ leBytes 4 (unsigned 32 d.max) ++ leBytes 4 (unsigned 32 d.mean) ++
    leBytes 2 d.maxX ++ leBytes 2 d.maxY ++ leBytes 2 nalarm ++ leBytes 2 f.nraise ++ leBytes 4 d.n ++
    leBytes 1 unit16.toNat ++ List.replicate 35 0
  (a, b ++ leBytes 4 (crc32 (a.take 60 ++ b)))

/-- The bytes of a whole delivery buffer. -/
def bufferBytes (planes : List Plane) (head t1 t2 : List Byte) : List Byte :=
  let p := match planes.head? with | some x => x.pitch | none => 64
  bandLine p head ++ (planes.flatMap Plane.bytes) ++ bandLine p t1 ++ bandLine p t2

/-- The IMGCRC of an image. -/
def imageCrc (planes : List Plane) : Nat := crc32 (planes.flatMap Plane.image)

end Sys2Proof.Machine
end

