-- ==== Sys2Proof/Machine/Stats.lean ====
section
/-! DEFINITION. Statistics and alarm rules of the finishing pipe (R283 to R294). -/

namespace Sys2Proof.Machine

/-! ### Covered pixels (R283, R284) -/

/-- The frame's unit is T16 (R283). -/
def Frame.unit16 (f : Frame) : Bool := f.b (F.FP_RCFG_EN f.head)

/-- The value of a pixel in the frame's unit; none when it is not covered. -/
def Frame.statValue (f : Frame) (p : RadPix) : Option Int :=
  if f.b (F.FP_RCFG_CLIPMARK f.head) && (p.w.testBit 25 || p.w.testBit 26) then none
  else some (if f.unit16 then (p.t16 : Int) else wordY p.w)

/-- Values of a frame's rows: one list for each row, none for a missing row or a pixel not covered. -/
def Frame.statRows (f : Frame) (rows : List (Option (List RadPix))) : List (List (Option Int)) :=
  rows.map fun r => match r with
    | some l => l.map f.statValue
    | none => []

/-! ### Histogram (R286) -/

/-- The histogram of a frame. -/
def Frame.histogram (f : Frame) (vals : List (List (Option Int))) : Hist :=
  let lo := signed 32 (f.g (F.ST_HHLO_HLO f.head))
  let sh := f.g (F.ST_HCFG_HSH f.head)
  let bins := vals.foldl (fun b l => l.foldl (fun b v => match v with
    | some v => let i := binOf lo sh v; b.set i (b.getD i 0 + 1)
    | none => b) b) (List.replicate 1024 0)
  { seq := f.seq, dt := f.dt, lo := lo, sh := sh, bins := bins }

/-! ### Zones and digest (R287) -/

/-- What a zone or the frame gathers: number, sum, minimum, maximum and its place. -/
structure Acc where
  n : Nat := 0
  sum : Int := 0
  min : Int := 0
  max : Int := 0
  x : Nat := 0xFFFF
  y : Nat := 0xFFFF
  deriving DecidableEq, Repr

/-- Add a pixel in raster order. -/
def Acc.add (a : Acc) (x y : Nat) (v : Int) : Acc :=
  if a.n = 0 then { n := 1, sum := v, min := v, max := v, x := x, y := y }
  else
    let a' := { a with n := a.n + 1, sum := a.sum + v, min := Min.min a.min v }
    if a.max < v then { a' with max := v, x := x, y := y } else a'

/-- The rounded mean. -/
def Acc.mean (a : Acc) : Int := if a.n = 0 then 0 else roundDiv a.sum a.n

/-- Zone columns and rows of a frame. -/
def Frame.zc (f : Frame) : Nat := f.g (F.ST_HCFG_ZCM f.head) + 1
def Frame.zr (f : Frame) : Nat := f.g (F.ST_HCFG_ZRM f.head) + 1

/-- The zones of the rows given, row-major. -/
def Frame.zones (f : Frame) (vals : List (List (Option Int))) : List Acc :=
  let w := max f.profile.width 1
  let h := max f.profile.height 1
  (List.range vals.length).foldl (fun z y =>
    let l := vals.getD y []
    (List.range l.length).foldl (fun z x => match l.getD x none with
      | some v =>
        let i := f.zr * y / h * f.zc + f.zc * x / w
        z.set i ((z.getD i {}).add x y v)
      | none => z) z) (List.replicate (f.zc * f.zr) {})

/-- The digest of the whole frame. -/
def frameDigest (vals : List (List (Option Int))) : Digest :=
  let a := (List.range vals.length).foldl (fun (a : Acc) y =>
    let l := vals.getD y []
    (List.range l.length).foldl (fun (a : Acc) x => match l.getD x none with
      | some v => a.add x y v
      | none => a) a) {}
  { min := a.min, max := a.max, mean := a.mean, maxX := a.x, maxY := a.y, n := a.n }

/-! ### The statistics record (Table 11-1) -/

/-- The bytes of a zone entry, and of the digest. -/
def accBytes (mean min max : Int) (x y : Nat) : List Byte :=
  leBytes 4 (unsigned 32 mean) ++ leBytes 4 (unsigned 32 min) ++ leBytes 4 (unsigned 32 max) ++ leBytes 2 x ++ leBytes 2 y

/-- The record of a frame. -/
def Frame.statRecord (f : Frame) (hist : Hist) (zones : List Acc) (d : Digest) : List Byte :=
  let head := leBytes 4 0x54535451 ++ leBytes 1 1 ++ leBytes 1 f.head ++ leBytes 1 f.unit16.toNat ++
    leBytes 1 (f.short.toNat + 2 * f.reprocessed.toNat) ++ leBytes 8 f.seq ++ leBytes 8 f.dt ++ leBytes 4 f.gen ++
    leBytes 4 d.n ++ leBytes 4 (unsigned 32 hist.lo) ++ leBytes 1 hist.sh ++ leBytes 1 f.zc ++ leBytes 1 f.zr ++
    leBytes 1 0 ++ leBytes 4 (unsigned 32 d.min) ++ leBytes 4 (unsigned 32 d.max) ++ leBytes 4 (unsigned 32 d.mean) ++
    leBytes 2 d.maxX ++ leBytes 2 d.maxY ++ leBytes 4 0
  let body := (hist.bins.flatMap fun n => leBytes 4 n) ++
    zones.flatMap fun a => accBytes a.mean a.min a.max a.x a.y
  head ++ leBytes 4 (crc32 (head ++ body)) ++ body

/-! ### Alarm rules (R290 to R294) -/

/-- An alarm rule (Table 11-2). -/
structure AlarmRule where
  en : Bool
  below : Bool
  qty : Nat
  pers : Nat
  thr : Int
  hys : Nat
  zr0 : Nat
  zr1 : Nat
  zc0 : Nat
  zc1 : Nat
  deriving DecidableEq, Repr

/-- A rule from its four words. -/
def alarmRule (w : Nat → Nat) : AlarmRule :=
  { en := bit (w 0) 31, below := bit (w 0) 30, qty := w 0 / 2 ^ 28 % 4, pers := max 1 (w 0 / 256 % 256),
    thr := signed 32 (w 1), hys := w 2 % 2 ^ 31, zr1 := w 3 / 2 ^ 24 % 32, zc1 := w 3 / 2 ^ 16 % 32, zr0 := w 3 / 256 % 32,
    zc0 := w 3 % 32 }

/-- Rule `n` of a frame. -/
def Frame.rule (f : Frame) (n : Nat) : AlarmRule := alarmRule fun j => f.g (F.ST_RULE_W f.head (4 * n + j))

/-- The rule's zone set lies in the frame's grid (R293). -/
def Frame.ruleFits (f : Frame) (r : AlarmRule) : Bool := r.zc1 < f.zc && r.zr1 < f.zr

/-- The last active row of a zone row. -/
def Frame.lastRowOf (f : Frame) (zr : Nat) : Nat := ceilDiv ((zr + 1) * f.profile.height) f.zr - 1

/-- Q of a rule over the zones, with the zone that gave it (R290); none when no pixel of the set is covered. -/
def Frame.ruleQ (f : Frame) (r : AlarmRule) (zones : List Acc) : Option (Int × Nat × Nat) :=
  let set := (List.range (r.zr1 + 1 - r.zr0)).flatMap fun j => (List.range (r.zc1 + 1 - r.zc0)).filterMap fun i =>
    let a := zones.getD ((r.zr0 + j) * f.zc + r.zc0 + i) {}
    if a.n = 0 then none else some (a, r.zc0 + i, r.zr0 + j)
  if set.isEmpty then none
  else if r.qty = 2 then
    some (roundDiv (set.foldl (fun t e => t + e.1.sum) 0) (set.foldl (fun t e => t + e.1.n) 0), 0xFF, 0xFF)
  else
    set.foldl (fun best e =>
      let v := if r.qty = 0 then e.1.max else e.1.min
      match best with
      | none => some (v, e.2.1, e.2.2)
      | some b => if (if r.qty = 0 then decide (b.1 < v) else decide (v < b.1)) then some (v, e.2.1, e.2.2) else best) none

/-- The alarms of a head. -/
def State.alarm (s : State) (h : Nat) : AlarmUnit := tabGet s.alarms {} h
/-- Change the alarms of a head. -/
def State.modAlarm (s : State) (h : Nat) (f : AlarmUnit → AlarmUnit) : State :=
  { s with alarms := tabSet s.alarms h (f (s.alarm h)) }

/-- Rule `n` of a head is RAISED. -/
def State.raised (s : State) (h n : Nat) : Bool := bit (s.get (F.ST_HACT_RAISED h (n / 32))) (n % 32)
/-- Set or clear RAISED. -/
def State.putRaised (s : State) (h n : Nat) (b : Bool) : State := s.putBit (F.ST_HACT_RAISED h (n / 32)) (n % 32) b

/-- Post an alarm record (Table 11-3) when the head's alarms are posted (R294). -/
def State.postAlarm (s : State) (f : Frame) (en : Bool) (ring type n flags : Nat) (zdt : Nat) (v : Int) (ezc ezr : Nat) : State :=
  if !en then s
  else s.postEvent ring (eventRecord type [(1, 1, f.head), (2, 1, n), (3, 1, flags), (4, 4, f.gen), (8, 8, f.seq),
    (0x10, 8, zdt), (0x18, 4, unsigned 32 v), (0x1C, 1, ezc), (0x1D, 1, ezr)])

/-- The DT of the end of the last received row of a rule's zone set (R294). -/
def Frame.zdt (f : Frame) (r : AlarmRule) : Nat :=
  let top := f.lastRowOf r.zr1
  let bottom := if r.zr0 = 0 then 0 else f.lastRowOf (r.zr0 - 1) + 1
  match (f.rowEnds.filter fun e => bottom ≤ e.1 && e.1 ≤ top).getLast? with
  | some e => e.2
  | none => f.dt

/-- One evaluated frame of a rule (R292). -/
def State.ruleStep (s : State) (f : Frame) (n : Nat) (r : AlarmRule) (q : Int × Nat × Nat) : State :=
  let h := f.head
  let up := s.raised h n
  let hit : Bool := if up then (if r.below then decide (r.thr + r.hys < q.1) else decide (q.1 < r.thr - r.hys))
    else (if r.below then decide (q.1 ≤ r.thr) else decide (r.thr ≤ q.1))
  let run := if hit then (s.alarm h).run.getD n 0 + 1 else 0
  let flip := hit && r.pers ≤ run
  let s := s.modAlarm h fun a => { a with run := a.run.set n (if flip then 0 else run) }
  if !flip then s
  else
    let s := s.putRaised h n (!up)
    let s := if up then s
      else (s.bump (F.ST_HCNT_RAISES h)).modFrame h f.seq fun f => { f with nraise := f.nraise + 1 }
    s.postAlarm f (f.b (F.ST_HALARM_EN h)) (f.g (F.ST_HALARM_RING h)) (if up then 0x11 else 0x10) n (2 * f.short.toNat)
      (f.zdt r) q.1 q.2.1 q.2.2

/-- The row whose finishing completes the sets that end in zone row `zr` (R291): its last received row once the frame's rows are
known, its last row until then; HEIGHT, which stands for the frame's end, where none of its rows was received. -/
def Frame.dueRow (f : Frame) (zr : Nat) : Nat :=
  if !f.captured then f.lastRowOf zr
  else
    let first := ceilDiv (zr * f.profile.height) f.zr
    ((f.rowEnds.map (·.1)).filter fun y => first ≤ y && y ≤ f.lastRowOf zr).foldl (fun m y => if m = f.profile.height then y else max m y)
      f.profile.height

/-- Put a number behind those whose key is not larger. -/
def insertBy (key : Nat → Nat) (n : Nat) : List Nat → List Nat
  | [] => [n]
  | m :: l => if key n < key m then n :: m :: l else m :: insertBy key n l

/-- The rules of a frame that fall due when `rows` rows are finished, all of them at the frame's end: by the row that
completes their set, then by number (R291). -/
def Frame.rulesDue (f : Frame) (rows : Nat) (atEnd : Bool) : List Nat :=
  let due := fun n => f.dueRow (f.rule n).zr1
  ((List.range 256).filter fun n =>
    let r := f.rule n
    r.en && f.ruleFits r && !f.rulesDone.contains n && (atEnd || due n < rows)).foldl (fun l n => insertBy due n l) []

/-- Evaluate the rules due on a frame whose finished rows are given. -/
def State.evalRules (s : State) (f : Frame) (zones : List Acc) (rows : Nat) (atEnd : Bool) : State :=
  (f.rulesDue rows atEnd).foldl (fun s n =>
    let s := s.modFrame f.head f.seq fun f => { f with rulesDone := f.rulesDone ++ [n] }
    let r := f.rule n
    match f.ruleQ r zones with
    | none => s
    | some q => s.ruleStep ((s.frame f.head f.seq).getD f) n r q) s

/-- The CLEAR record with RESET of a rule, whose ZDT is the frame's DT (R293). The zone it names is not stated (log entry
10). -/
def State.postClear (s : State) (f : Frame) (n : Nat) : State :=
  let h := f.head
  let (e, s) := s.freshUpTo 65535
  s.postAlarm f (f.b (F.ST_HALARM_EN h)) (f.g (F.ST_HALARM_RING h)) 0x11 n 1 f.dt 0 (e % 256) (e / 256)

/-- The CLEAR records that waited for the DT of the frame are posted. -/
def State.clearsPost (s : State) (f : Frame) : State :=
  f.clears.foldl (fun s n => s.postClear f n) (s.modFrame f.head f.seq fun f => { f with clears := [] })

/-- The frame's DT is known at its start: it is a HELD slot, or device timing gives its first line (R114). -/
def Frame.dtKnown (f : Frame) : Bool := f.held || f.role != .picture || !f.profile.headTimed

/-- A rule returns to CLEAR with a run of 0 at a frame start (R293); a RAISED one posts a CLEAR record with RESET, once the DT of
the frame is known. -/
def State.ruleReset (s : State) (f : Frame) (n : Nat) : State :=
  let h := f.head
  let s := s.modAlarm h fun a => { a with run := a.run.set n 0 }
  if !s.raised h n then s
  else
    let s := s.putRaised h n false
    if f.dtKnown then s.postClear f n else s.modFrame h f.seq fun f => { f with clears := f.clears ++ [n] }

/-- The checks of a head's rules at a frame start (R293): a change of unit, grid or origin resets every rule; a rule whose
set lies outside the grid is skipped. -/
def State.alarmFrameStart (s : State) (f : Frame) : State :=
  let h := f.head
  let now := [f.unit16.toNat, f.g (F.ST_HCFG_ZCM h), f.g (F.ST_HCFG_ZRM h), f.g (F.ST_HHLO_HLO h)]
  let changed : Bool := match (s.alarm h).last with | some l => l != now | none => false
  let s := s.modAlarm h fun a => { a with last := some now }
  let s := if changed then (List.range 256).foldl (fun s n => s.ruleReset f n) s else s
  if (List.range 256).any fun n => (f.rule n).en && !f.ruleFits (f.rule n) then s.put (F.ST_HSTAT_RULEBAD h) 1 else s

/-- Rules RAISED now (NALARM). -/
def State.alarmsRaised (s : State) (h : Nat) : Nat := (List.range 256).countP fun n => s.raised h n

/-- ST_CTRL.CLRCNT (R298). -/
def stClrcnt (s : State) : State :=
  s.whenever (s.access R.ST_CTRL) fun s => s.forEach 8 (fun _ => true) fun h s => s.setReg (R.ST_HCNT h) 0

/-- `ST_CLRCNT`. -/
def execStClrcnt (s : State) : Result := .next (stClrcnt s)

end Sys2Proof.Machine
end

