-- ==== Sys2Proof/Machine/Finishing.lean ====
section
/-! DEFINITION. The finishing pipes (chapter 10): sharing, through-memory frames, delivery buffers, HELD slots, frame
reports. -/

namespace Sys2Proof.Machine

/-! ### Which frames a pipe finishes (R252 to R258) -/

/-- The frame carries its own picture: captured for output, neither HELD nor dropped by decimation. -/
def Frame.outputs (f : Frame) : Bool := !f.held && !f.mute && !f.decimated && f.role == .picture

/-- The pipe and the manner of a frame (R258). -/
def Frame.pipe (f : Frame) : Nat := f.g (F.FP_HASSIGN_PIPE f.head)
def Frame.inline (f : Frame) : Bool := f.b (F.FP_HASSIGN_INLINE f.head)

/-- Quires of a frame. -/
def Frame.quires (f : Frame) : Nat := f.profile.quireCount

/-- The pipe has finished the frame. -/
def Frame.finished (f : Frame) : Bool := f.quires ≤ f.taken

/-- The unit of pipe `r`. -/
def State.pipeUnit (s : State) (r : Nat) : PipeUnit := tabGet s.pipes {} r
/-- Change a pipe. -/
def State.modPipe (s : State) (r : Nat) (f : PipeUnit → PipeUnit) : State :=
  { s with pipes := tabSet s.pipes r (f (s.pipeUnit r)) }


/-- The frame of a head the pipes take next: its oldest output frame not finished, once every earlier frame of the head on
another pipe, HELD slots among them, has been reported (R258). -/
def State.pipeFrame (s : State) (h : Nat) : Option Frame :=
  match s.frames.find? fun f => f.head == h && f.outputs && !f.finished with
  | none => none
  | some f =>
    if s.frames.any fun g => g.head == h && g.seq < f.seq && !g.reported && g.pipe != f.pipe then none
    else some f

/-- A quire of the frame is ready for its pipe: committed, or the whole frame in device DRAM (R29, R254). -/
def Frame.quireAvail (f : Frame) : Bool := if f.inline then f.taken < f.committed else f.complete

/-- The DT at which the frame's next quire became ready (R254). -/
def Frame.readyDt (f : Frame) : Nat :=
  if f.inline then f.commitDts.getD f.taken 0 else f.commitDts.getLastD 0

/-- The head a pipe takes its next quire from, among the ready ones with the smallest key. -/
def bestHead (key : Frame → Nat × Nat) (l : List Frame) : Option Frame :=
  l.foldl (fun b f => match b with
    | none => some f
    | some g =>
      let a := key f
      let c := key g
      if a.1 < c.1 ∨ (a.1 = c.1 ∧ a.2 < c.2) then some f else some g) none

/-- The frame the pipe takes a quire of next (R253, R254), and whether that loads or changes a context. -/
def State.pipePick (s : State) (r : Nat) : Option (Frame × Bool) :=
  let l := ((List.range 8).filterMap s.pipeFrame).filter fun f => f.pipe == r && f.quireAvail
  let u := s.pipeUnit r
  if s.flag (F.FP_CTRL_QMUX r) then
    (bestHead (fun f => (f.readyDt, f.head)) l).map fun f => (f, u.last.isSome && u.last != some f.head)
  else
    match l.find? Frame.inline with
    | some f => some (f, false)
    | none =>
      let cur := match u.mem, u.memSeq with
        | some h, some q => l.find? fun f => f.head == h && f.seq == q
        | _, _ => none
      match cur with
      | some f => some (f, false)
      | none =>
        if u.memSeq.isSome then none
        else (bestHead (fun f => (f.readyDt, f.head)) l).map fun f => (f, u.mem.isSome && u.mem != some f.head)

/-! ### Through-memory buffers (R256, R257) -/

/-- The base of through-memory buffer `b` of a frame. -/
def State.tmBase (s : State) (f : Frame) (b : Nat) : Nat := 4096 * f.g (F.FP_HTM_BASE f.head) + b * s.tmStride f.head

/-- A through-memory buffer of a head holds a frame the pipe has not finished. -/
def State.tmBusy (s : State) (h b : Nat) : Bool :=
  s.frames.any fun f => f.head == h && f.tmBuf == some b && !f.finished

/-- Before the first quire of a through-memory frame commits: a buffer is chosen, or the frame is skipped (R257). -/
def State.tmChoose (s : State) (f : Frame) : State :=
  if !f.outputs || f.inline || f.committed ≠ 0 then s
  else
    let h := f.head
    if s.tmBusy h 0 && s.tmBusy h 1 then
      let s := (s.slotHeld h f.seq).bump (F.FP_HCNT_TMSKIP h)
      if s.flag (F.FP_HSTAT_TMSKIPPING h) then s
      else (s.put (F.FP_HSTAT_TMSKIPPING h) 1).raise (16 + regionOf h) .ce (detailWord 0xFF 3 (0x144 + 0x80 * (h % 2)))
    else
      let n := (s.head h).tmNext
      let b := if s.tmBusy h n then 1 - n else n
      let s := (s.put (F.FP_HSTAT_TMSKIPPING h) 0).modHead h fun u => { u with tmNext := 1 - b }
      s.modFrame h f.seq fun f => { f with tmBuf := some b }

/-- Write a committed quire's words to the frame's through-memory buffer; with the first quire, its 64 header bytes, whose layout
is internal to the device (free values, log entry 162). -/
def State.tmWrite (s : State) (f : Frame) (q : Quire) : State :=
  match f.tmBuf with
  | none => s
  | some b =>
    let s := if q.row0 = 0 then
        let (n, s) := s.fresh
        s.dramWrite (s.tmBase f b) (leBytes 64 n)
      else s
    s.dramWrite (s.tmBase f b + 64 + 4 * q.row0 * f.profile.width) (q.out.flatMap fun l => l.flatMap fun w => leBytes 4 w)

/-- Rows of words with a free value in place of each word the pipe could not read (R256, R280). -/
def Frame.deadWords (f : Frame) (rows : List (List Nat)) : List (List Nat) :=
  if f.dead.isEmpty then rows
  else (List.range rows.length).map fun y =>
    let l := rows.getD y []
    (List.range l.length).map fun x => alGet (l.getD x 0) f.dead (y * f.profile.width + x)

/-- The committed rows of a frame: taken in-line, or read back from its through-memory buffer. -/
def State.frameRows (s : State) (f : Frame) : List (List Nat) :=
  f.deadWords (match f.tmBuf with
    | none => f.rows
    | some b =>
      let base := s.tmBase f b + 64
      (List.range f.profile.height).map fun y => (List.range f.profile.width).map fun x =>
        leNat (s.dramRead (base + 4 * (y * f.profile.width + x)) 4))

/-- Pixels and lines of a frame that its pipe lost (R256, R280): free values stand for their words, they are put out as 0, and the
frame carries DEGRADED. -/
def State.pipeLoses (s : State) (f : Frame) (px lines : List Nat) : State :=
  let n := s.freeCnt
  let lost := (List.range px.length).map fun i => (px.getD i 0, Config.freeValue (n + i) % 2 ^ 28)
  ({ s with freeCnt := n + px.length } : State).modFrame f.head f.seq fun f =>
    { f with dead := lost ++ f.dead, deadRows := f.deadRows ++ lines, degraded := true }

/-! ### QUIRE_COMMIT (R183) -/

/-- The next quire of a head commits. -/
def quireCommit (h t : Nat) (s : State) : State :=
  match s.nextCommit h with
  | none => s
  | some (f0, q) =>
    let s := (s.at t).tmChoose f0
    let f := (s.frame h f0.seq).getD f0
    let s := s.tmWrite f q
    let now := s.dt
    let (s, done) := s.commitNext h
    let keep := f.outputs && f.tmBuf.isNone
    let s := s.modFrame h f.seq fun f =>
      { f with commitDts := f.commitDts ++ [now], rows := if keep then f.rows else [] }
    match done with
    | none => s
    | some g =>
      let s := if g.refresh then s.refreshDone g else s
      let s := s.modFrame h f.seq fun f => { f with est := [] }
      s.shutFrameDone g

/-! ### Delivery buffers (R266 to R268) -/

/-- Format, width and height of a kind for a frame; format 0 when the kind is off. -/
def Frame.kindShape (f : Frame) (kind : Nat) : Nat × Nat × Nat :=
  let h := f.head
  let w := f.profile.width
  let hh := f.profile.height
  let sc := f.b (F.FP_HPIPE_SC_EN h)
  let ow := if sc then f.g (F.FP_HOSIZE_OW h) else w
  let oh := if sc then f.g (F.FP_HOSIZE_OH h) else hh
  if kind = 0 then (f.g (F.FP_HOUT_DISP h), ow, oh)
  else if kind = 1 then (f.g (F.FP_HOUT_COD h), ow, oh)
  else if kind = 2 then (f.g (F.FP_HOUT_MV h), w, hh)
  else ((if f.b (F.ST_HCFG_REC_EN h) then 1 else 0), 0, 0)

/-- The decimation of a kind (R264). -/
def Frame.kindDec (f : Frame) (kind : Nat) : Nat :=
  let h := f.head
  max 1 (if kind = 0 then f.g (F.FP_HOUT_DECD h) else if kind = 1 then f.g (F.FP_HOUT_DECC h)
    else if kind = 2 then f.g (F.FP_HOUT_DECM h) else 1)

/-- The kinds written for a frame's slot (R264, R285, R288): 3 is the statistics record. -/
def Frame.kindsWritten (f : Frame) : List Nat :=
  (List.range 4).filter fun k => (f.kindShape k).1 != 0 && f.seq % f.kindDec k == 0 && (k != 3 || f.outputs)

/-- Base and number of a kind's buffers for a frame. -/
def Frame.kindRing (f : Frame) (kind : Nat) : Nat × Nat :=
  let h := f.head
  if kind = 0 then (f.g (F.FP_HDBD_BASE h), f.g (F.FP_HDBD_NBUF h))
  else if kind = 1 then (f.g (F.FP_HDBC_BASE h), f.g (F.FP_HDBC_NBUF h))
  else if kind = 2 then (f.g (F.FP_HDBM_BASE h), f.g (F.FP_HDBM_NBUF h))
  else (f.g (F.ST_HSBUF_BASE h), f.g (F.ST_HSBUF_NSB h))

/-- Bytes from one buffer to the next. -/
def Frame.kindStride (f : Frame) (kind : Nat) : Nat :=
  if kind = 3 then 24576
  else
    let (fmt, ow, oh) := f.kindShape kind
    ceilDiv (bufShape kind fmt ow oh).2 4096 * 4096

/-- The CSI-2 port `v`. -/
def State.port (s : State) (v : Nat) : CsiPort := tabGet s.csi {} v
/-- Change a CSI-2 port. -/
def State.modPort (s : State) (v : Nat) (f : CsiPort → CsiPort) : State := { s with csi := tabSet s.csi v (f (s.port v)) }

/-- Two records name the same buffered frame. -/
def BufRec.same (a b : BufRec) : Bool := a.head == b.head && a.kind == b.kind && a.seq == b.seq && a.idx == b.idx

/-- A buffer is being read: by a delivery copy or by a CSI-2 stream (R267, R276, R334). -/
def State.bufReading (s : State) (b : BufRec) : Bool :=
  (s.rings.any fun e => e.2.items.any fun i => match i with | .copy c => c.same b | .gap _ => false) ||
  (List.range 4).any fun v => (s.port v).streams.any fun x => match x.sending with | some c => c.same b | none => false

/-- Part of a delivery or statistics buffer lies on a lost channel: its frame carries DEGRADED (R383). -/
def State.bufLost (s : State) (b : BufRec) : Bool :=
  s.rangeLost b.base (if b.kind = 3 then 24576 else (bufShape b.kind b.fmt b.ow b.oh).2)

/-- The two 64-byte Tailband lines as they are read from a buffer. Where a channel lost since makes part of the buffer read as 0,
they carry DEGRADED, but for a line that is itself lost (R383; log entry 183). -/
def State.bufTail (s : State) (b : BufRec) : List Byte × List Byte :=
  let (p, size) := bufShape b.kind b.fmt b.ow b.oh
  let a1 := b.base + size - 2 * p
  let a2 := b.base + size - p
  let t1 := s.dramRead a1 64
  let t2 := s.dramRead a2 64
  if !s.bufLost b then (t1, t2)
  else
    let t1 := if s.lostAt a1 then t1 else patch t1 4 (leBytes 2 (setBit (leAt t1 4 2) 4 true))
    (t1, if s.lostAt a2 then t2 else patch t2 0x3C (leBytes 4 (crc32 (t1.take 60 ++ t2.take 60))))

/-- The record of a head's buffer. -/
def State.bufAt (s : State) (h kind idx : Nat) : Option BufRec :=
  s.bufs.find? fun b => b.head == h && b.kind == kind && b.idx == idx

/-- The pipe may write into a buffer: not pinned, not being read, and not holding a frame that is still being written. -/
def State.bufOpen (s : State) (h kind idx : Nat) : Bool :=
  match s.bufAt h kind idx with
  | none => true
  | some b => !b.pinned && b.done && !s.bufReading b

/-- A buffer is reclaimed: consumers that have not begun to read its frame receive a gap notice (R267, R337). -/
def State.reclaim (s : State) (b : BufRec) : State :=
  let s := s.ringIds.foldl (fun s id =>
    let mine := fun (c : BufRec) => c.same b
    if (s.ringOf id).wait.any fun i => i.isCopy mine then
      let up := match s.ringFunc id with | some f => s.hostUp f | none => false
      s.loseWaiting id mine (if up then 2 else 4)
    else s) s
  let s := s.forEach 4 (fun _ => true) fun v s => s.modPort v fun p =>
    { p with streams := p.streams.map fun x => match x.waiting with
        | some c => if c.same b then { x with waiting := none } else x
        | none => x }
  { s with bufs := s.bufs.filter fun c => !(c.head == b.head && c.kind == b.kind && c.idx == b.idx) }

/-- Choose the buffer of a kind for a slot: ascending, cyclically (R267). The record, when there is one, is listed as being
written; without a buffer the drop is counted, and the slot's report gives every consumer of the kind its gap notice. -/
def State.chooseBuf (s : State) (f : Frame) (kind : Nat) (good : Bool) : State × Option BufRec :=
  let h := f.head
  let (base, n) := f.kindRing kind
  let start := (s.head h).bufNext.getD kind 0
  let (fmt, ow, oh) := f.kindShape kind
  match ((List.range n).map fun k => (start + k) % n).find? fun i => s.bufOpen h kind i with
  | some i =>
    let s := match s.bufAt h kind i with | some b => s.reclaim b | none => s
    let b : BufRec := { head := h, kind := kind, idx := i, seq := f.seq, base := 4096 * base + i * f.kindStride kind,
                        fmt := fmt, ow := ow, oh := oh, good := good }
    let s : State := { s with bufs := s.bufs ++ [b] }
    (s.modHead h fun u => { u with bufNext := u.bufNext.set kind ((i + 1) % n) }, some b)
  | none =>
    (if kind = 3 then s.bump (F.ST_HCNT_STDROP h) else s.bump (F.FP_HCNT_DBDROP h), none)

/-- Change a buffer's record. -/
def State.modBuf (s : State) (b : BufRec) (f : BufRec → BufRec) : State := { s with bufs := mapIf (·.same b) f s.bufs }

/-- FP_HLAST or ST_HLAST shows the last buffer completed. -/
def State.noteLast (s : State) (b : BufRec) : State :=
  if b.kind = 0 then s.put (F.FP_HLAST_D b.head) b.idx
  else if b.kind = 1 then s.put (F.FP_HLAST_C b.head) b.idx
  else if b.kind = 2 then s.put (F.FP_HLAST_M b.head) b.idx
  else s.put (F.ST_HLAST_BUF b.head) b.idx

/-- A frame of a buffer is complete: a newer good frame takes the pin of its kind (R267). -/
def State.bufComplete (s : State) (b : BufRec) : State :=
  let now := s.dt
  let s := s.modBuf b fun b => { b with done := true, doneAt := now }
  let s := if b.good then
      let s : State := { s with bufs := mapIf (fun c => c.head == b.head && c.kind == b.kind) (fun c => { c with pinned := false }) s.bufs }
      s.modBuf b fun b => { b with pinned := true }
    else s
  s.noteLast b

/-! ### PIPE_QUIRE_TAKE (R251, R253) -/

/-- The pipe begins a frame: its buffers are chosen and its histogram for the tone is fixed (R259, R267). -/
def State.beginFrame (s : State) (f : Frame) : State :=
  let h := f.head
  let good := !f.short
  let tone := (s.head h).hist
  let s := s.radReadLost f
  let (s, l) := f.kindsWritten.foldl (fun (acc : State × List (Nat × Option Nat)) k =>
    let (s, b) := acc.1.chooseBuf f k good
    (s, acc.2 ++ [(k, b.map (·.idx))])) (s, [])
  s.modFrame h f.seq fun f => { f with begun := true, chosen := l, tone := tone }

/-- Pixels below and above the temperature table (R220). -/
def State.countLoHi (s : State) (f : Frame) (rows : List (List Nat)) : Nat × Nat :=
  let r := s.radStage f
  (List.range rows.length).foldl (fun acc y =>
    let l := rows.getD y []
    (List.range l.length).foldl (fun acc x =>
      let c := (s.convert r x y (l.getD x 0)).2.2
      if c = 1 then (acc.1 + 1, acc.2) else if c = 2 then (acc.1, acc.2 + 1) else acc) acc) (0, 0)

/-- The FLAGS of a frame's delivery record (Table 13-9). -/
def Frame.recordFlags (f : Frame) (thr held : Bool) : Nat :=
  held.toNat + 2 * f.reprocessed.toNat + 4 * f.degraded.toNat + 8 * f.short.toNat + 16 * f.short.toNat + 32 * thr.toNat

/-- The rows a frame puts out: lines its pipe lost are missing (R280). -/
def Frame.rowsOut (f : Frame) (rows : List (Option (List RadPix))) : List (Option (List RadPix)) :=
  if f.deadRows.isEmpty then rows
  else (List.range rows.length).map fun y => if f.deadRows.contains y then none else rows.getD y none

/-- Write a finished frame's output of one kind. -/
def State.writeKind (s : State) (f : Frame) (kind idx free : Nat) (rows : List (Option (List RadPix))) (thr : Bool) (d : Digest)
    (hist : Hist) (zones : List Acc) : State :=
  match s.bufs.find? fun b => b.head == f.head && b.kind == kind && b.idx == idx && b.seq == f.seq with
  | none => s
  | some b =>
    let s := s.modBuf b fun b => { b with good := !f.short, flags := f.recordFlags thr false }
    if kind = 3 then s.dramWrite b.base (f.statRecord hist zones d)
    else
      let rows := f.rowsOut rows
      let px := if kind = 2 then [] else f.picture free b.ow b.oh rows
      let planes := kindPlanes kind b.fmt b.ow b.oh px rows
      let (t1, t2) := tailband f thr d (s.alarmsRaised f.head) f.unit16 (imageCrc planes)
      s.dramWrite b.base (bufferBytes planes (s.frameHead f kind b.fmt b.ow b.oh) t1 t2)

/-- The pipe finishes a frame: counts, statistics, the rest of its alarm rules, every kind's buffer. -/
def State.finishFrame (s : State) (f : Frame) : State :=
  let h := f.head
  let words := s.frameRows f
  let (lo, hi) := s.countLoHi f words
  let rows := s.radRows f words
  let vals := f.statRows rows
  let hist := f.histogram vals
  let zones := f.zones vals
  let d := frameDigest vals
  let s := s.evalRules f zones f.profile.height true
  let s := ((s.put (F.FP_RLAST_LO h) (min lo 65535)).put (F.FP_RLAST_HI h) (min hi 65535)).modFrame h f.seq fun f =>
    { f with rlastLo := min lo 65535, rlastHi := min hi 65535, converted := true, rows := [] }
  let s := s.modHead h fun u => { u with hist := some hist }
  let lost := s.bufs.any fun b => b.head == h && b.seq == f.seq && s.bufLost b
  let s := s.modFrame h f.seq fun f => { f with degraded := f.degraded || lost }
  let f := (s.frame h f.seq).getD f
  let thr := s.mode == .throttled
  let (free, s) := s.fresh
  f.chosen.foldl (fun s c => match c.2 with
    | some i => s.writeKind f c.1 i free rows thr d hist zones
    | none => s) s

/-- What the pipe's reads find while it takes a quire of a frame (R256, R280). -/
def State.pipeError (s : State) (r : Nat) (f : Frame) (e : PipeError) : State :=
  let detail := detailWord 0xFF 0xFF (R.FP_STAT r % 0x10000)
  match e with
  | .none => s
  | .corrected => s.raise (16 + r) .ce detail
  | .lines l =>
    let l := l.filter (· < f.profile.height)
    (s.raise (16 + r) .uc detail).pipeLoses f (l.flatMap fun y => (List.range f.profile.width).map fun x => y * f.profile.width + x) l
  | .read ch px fails =>
    if f.tmBuf.isNone || s.lostChan.contains ch.val then s
    else if !fails then s.bump (F.DR_ECC_UE ch)
    else (s.dramUE ch).pipeLoses f (px.filter (· < f.profile.pixels)) []

/-- Pixels of the frame's next quire that its through-memory buffer holds on a lost channel: their reads fail, with no report
(R256, R383). -/
def State.tmLost (s : State) (f : Frame) : List Nat :=
  match f.tmBuf with
  | none => []
  | some b =>
    let n := 16 * f.profile.width
    if s.lostChan.isEmpty then []
    else ((List.range n).map (n * f.taken + ·)).filter fun k => k < f.profile.pixels && s.lostAt (s.tmBase f b + 64 + 4 * k)

/-- A pipe takes the next quire. -/
def pipeQuireTake (r : Nat) (e : PipeError) (t : Nat) (s : State) : State :=
  s.whenever s.inRun fun s =>
    match s.pipePick r with
    | none => s
    | some (f, sw) =>
      let h := f.head
      let s := s.at t
      let s := if sw then s.bump (F.FP_STAT_SWITCH r) else s
      let s := s.modPipe r fun u =>
        { u with last := some h, mem := if f.inline then u.mem else some h,
                 memSeq := if f.inline then u.memSeq else some f.seq }
      let s := (if f.begun then s else s.beginFrame f).pipeError r f e
      let lost := s.tmLost f
      let s := if lost.isEmpty then s else s.pipeLoses f lost []
      let s := s.modFrame h f.seq fun f => { f with taken := f.taken + 1 }
      let f := (s.frame h f.seq).getD f
      if f.finished then
        let s := (s.finishFrame f).modPipe r fun u => if f.inline then u else { u with memSeq := none }
        s.put (F.FP_STAT_CUR r) 0xF
      else
        let s := s.put (F.FP_STAT_CUR r) h
        let rows := 16 * f.taken
        if (f.rulesDue rows false).isEmpty then s
        else s.evalRules f (f.zones (f.statRows (s.radRows f ((s.frameRows f).take rows)))) rows false

/-! ### HELD slots (R269, R271, R273) -/

/-- The pinned buffer of a kind whose image a HELD slot of this shape repeats: of a good frame since the head began streaming
(R269). -/
def State.pinnedBuf (s : State) (f : Frame) (kind : Nat) : Option BufRec :=
  let (fmt, ow, oh) := f.kindShape kind
  s.bufs.find? fun b => b.head == f.head && b.kind == kind && b.pinned && !b.stale && b.fmt == fmt && b.ow == ow && b.oh == oh

/-- The bytes of a HELD slot's buffer. -/
def State.heldBytes (s : State) (f : Frame) (kind : Nat) : List Byte :=
  let (fmt, ow, oh) := f.kindShape kind
  let (p, size) := bufShape kind fmt ow oh
  let thr := s.mode == .throttled
  match s.pinnedBuf f kind with
  | some b =>
    let old := s.dramRead b.base size
    let gen := leAt old 0x18 4
    let head := headband f.head kind fmt f.seq f.dt gen (leAt old 0x1C 1) 2 (leAt old 0x20 4) ow oh (leAt old 8 8) f.taiWord
    let o1 := (old.drop (size - 2 * p)).take 64
    let o2 := (old.drop (size - p)).take 64
    let flags := leAt o1 4 2
    let flags := setBit (setBit (setBit flags 2 true) 3 thr) 4 (bit flags 4 || f.degraded || s.bufLost b)
    let t1 := patch (patch o1 4 (leBytes 2 flags)) 6 (leBytes 1 (f.shpos % 4 + 4 * (f.shphase % 8)))
    let t2 := patch o2 0x3C (leBytes 4 (crc32 (t1.take 60 ++ o2.take 60)))
    bandLine p head ++ (old.drop p).take (size - 3 * p) ++ bandLine p t1 ++ bandLine p t2
  | none =>
    let planes := emptyPlanes kind fmt ow oh
    let head := headband f.head kind fmt f.seq f.dt f.gen f.copies 2 0 ow oh 0xFFFFFFFFFFFFFFFF f.taiWord
    let (t1, t2) := tailband { f with short := false, long := false, sub := 0, unrec := 0, inv := 0, clip := 0, sat := 0,
                                      missLines := 0, excess := 0, swap := 0, tfpa := 0, nraise := 0,
                                      rlastLo := 0, rlastHi := 0 } thr {} 0 f.unit16 (imageCrc planes)
    let t1 := patch t1 4 (leBytes 2 (setBit (leAt t1 4 2) 2 true))
    let t2 := patch t2 0x3C (leBytes 4 (crc32 (t1.take 60 ++ t2.take 60)))
    bufferBytes planes head t1 t2

/-- The copies of a HELD slot are written for every kind of the slot: at the slot instant (R270), or where a frame goes HELD later
as it does. Buffers the frame had begun are given up. -/
def State.writeHeld (s : State) (f : Frame) : State :=
  let s : State := { s with bufs := s.bufs.filter fun b => !(b.head == f.head && b.seq == f.seq && !b.done) }
  let (s, l) := (f.kindsWritten.filter (· != 3)).foldl (fun (acc : State × List (Nat × Option Nat)) k =>
    let bytes := acc.1.heldBytes f k
    let (s, b) := acc.1.chooseBuf f k false
    match b with
    | some b =>
      let t1 := bytes.drop (bytes.length - 2 * (bufShape k b.fmt b.ow b.oh).1)
      let fl := leAt t1 4 2
      let flags := 1 + 4 * (bit fl 4).toNat + 8 * (bit fl 0).toNat + 16 * (bit fl 6).toNat + 32 * (bit fl 3).toNat
      ((s.modBuf b fun b => { b with flags := flags }).dramWrite b.base bytes, acc.2 ++ [(k, some b.idx)])
    | none => (s, acc.2 ++ [(k, none)])) (s, [])
  s.modFrame f.head f.seq fun f => { f with chosen := l, heldDone := true }

/-- The pipe begins the copies of a slot that is HELD from its start, at the slot instant (R270). -/
def State.heldAtSlot (s : State) (f : Frame) : State :=
  if f.outputs || f.decimated || f.calHeld.isSome then s else s.writeHeld f

/-! ### FRAME_COMPLETE_REPORT (R270, R333) -/

/-- Offer a completed frame to the CSI-2 streams that carry its kind; a newer one replaces a waiting one (R276). -/
def State.offerCsi (s : State) (b : BufRec) : State :=
  s.forEach 4 (fun v => s.flag (F.TX_CFG_EN v)) fun v s =>
    s.forEach 8 (fun j => s.flag (F.TX_S_EN v j) && s.get (F.TX_S_HEAD v j) == b.head && s.get (F.TX_S_KIND v j) == b.kind &&
        b.seq % max (s.get (F.TX_S_DECIM v j)) 1 == 0) fun j s =>
      let x := (s.port v).streams.getD j {}
      let s := if x.waiting.isSome then s.bump (F.TX_CNT1_SKIP v) else s
      s.modPort v fun p => { p with streams := p.streams.set j { x with waiting := some b } }

/-- A frame is reported: its buffers are complete, offered in kind order, the statistics record last (R270, R289). A kind that
found no buffer gives its consumers a gap in the frame's place (R267, R339). -/
def State.reportFrame (s : State) (f : Frame) : State :=
  let s := f.chosen.foldl (fun s c => match c.2 with
    | some i =>
      match s.bufs.find? fun b => b.head == f.head && b.kind == c.1 && b.idx == i && b.seq == f.seq with
      | none => s
      | some b =>
        let s := s.bufComplete b
        let s := (s.subscriptions f.head c.1 f.seq).foldl (fun s id => s.offer id b) s
        if c.1 = 3 then s else s.offerCsi b
    | none => s.gapAll { head := f.head, kind := c.1, idx := 0, seq := f.seq, base := 0, fmt := (f.kindShape c.1).1 } 3) s
  (s.sample 2 f.head (s.dt - f.dt)).modFrame f.head f.seq fun f => { f with reported := true }

/-- The frame is the one its head's capture holds. -/
def State.inCapture (s : State) (f : Frame) : Bool :=
  match (s.head f.head).cap with | some c => c.seq == f.seq && !c.closed | none => false

/-- Frames whose work is done leave the record. -/
def State.sweepFrames (s : State) : State :=
  { s with frames := s.frames.filter fun f => !(f.reported && f.complete && !s.inCapture f) }

/-- A slot dropped by decimation gives a THROTTLED gap to each subscription that would have received it (R337). -/
def State.gapThrottled (s : State) (f : Frame) : State :=
  let s := (List.range 4).foldl (fun s k =>
    let (fmt, _, _) := f.kindShape k
    if fmt ≠ 0 ∧ f.seq % f.kindDec k = 0 then s.gapAll { head := f.head, kind := k, idx := 0, seq := f.seq, base := 0, fmt := fmt } 6
    else s) s
  s.modFrame f.head f.seq fun f => { f with reported := true }

/-- Report the next frame of a head in FSEQ order; decimated slots before it are passed over. -/
def State.reportNext (s : State) (h : Nat) : Nat → State
  | 0 => s
  | n + 1 =>
    match s.frames.find? fun f => f.head == h && !f.reported with
    | none => s
    | some f =>
      let s := s.clearsPost f
      if f.decimated then (s.gapThrottled f).reportNext h n
      else if f.held || f.mute || f.role != .picture then
        let s := if f.heldDone then s else s.writeHeld f
        s.reportFrame ((s.frame h f.seq).getD f)
      else if f.finished && f.complete then s.reportFrame f
      else s

/-- The report of R270. -/
def frameReport (h t : Nat) (s : State) : State :=
  s.whenever (s.mode != .reset && s.mode != .dormant && s.mode != .safe) fun s =>
    ((s.at t).reportNext h s.frames.length).sweepFrames

/-- FP_CTRL.CLRCNT (R281). -/
def fpClrcnt (r : Nat) (s : State) : State :=
  s.whenever (s.access (R.FP_CTRL r)) fun s =>
    ((s.put (F.FP_STAT_SWITCH r) 0).setReg (R.FP_HCNT (2 * r)) 0).setReg (R.FP_HCNT (2 * r + 1)) 0

/-! ### Meanings -/

/-- `QUIRE_COMMIT`. -/
def execQuireCommit (h : Head) (t : Nat) (s : State) : Result := .next (quireCommit h t s)
/-- `PIPE_QUIRE_TAKE`. -/
def execPipeQuireTake (r : Region) (p : PipeTake) (s : State) : Result := .next (pipeQuireTake r p.error p.instant s)
/-- `FP_CLRCNT`. -/
def execFpClrcnt (r : Region) (s : State) : Result := .next (fpClrcnt r s)

end Sys2Proof.Machine
end

