-- ==== Sys2Proof/Machine/Csi.lean ====
section
/-! DEFINITION. The CSI-2 ports (R274 to R279, R282, R475): configuration, load, packets. -/

namespace Sys2Proof.Machine

/-! ### Streams and load (R274, R279) -/

/-- Data lanes of a port. -/
def State.txLanes (s : State) (v : Nat) : Nat := 2 ^ s.get (F.TX_CFG_LANES v)

/-- A stream of a port is enabled. -/
def State.txStream (s : State) (v j : Nat) : Bool := s.flag (F.TX_S_EN v j)

/-- The CSI-2 data type of a kind and format (Table 10-1); none where it is not transmitted. -/
def csiType (kind fmt : Nat) : Option Nat :=
  if kind = 0 then (if fmt = 1 then some 0x24 else if fmt = 3 then some 0x1E else none)
  else if kind = 1 then (if fmt = 1 ∨ fmt = 2 then some 0x18 else none)
  else if fmt = 1 then some 0x2E else none

/-- An enabled stream is refused under R274. -/
def State.streamBad (s : State) (v j : Nat) : Bool :=
  s.txStream v j &&
  (let kind := s.get (F.TX_S_KIND v j)
   let fmt := s.outFmt (s.get (F.TX_S_HEAD v j)) kind
   fmt == 0 || (csiType kind fmt).isNone ||
   (List.range 8).any fun i => i != j && s.txStream v i && s.get (F.TX_S_VC v i) == s.get (F.TX_S_VC v j))

/-- A stream of the port is refused. -/
def State.portBad (s : State) (v : Nat) : Bool := (List.range 8).any (s.streamBad v)

/-- The payload bytes of each image line's packet: data type 0x18 carries Y alone on the first, third, … line and both
chroma values on the others (PRESUMED, CSI-2 v2.1; log entry 44). -/
def csiLines (kind fmt ow oh : Nat) : List Nat :=
  (List.range oh).map fun i =>
    if kind = 1 then (if i % 2 = 0 then ow else 2 * ow) else ow * pixBytes kind fmt

/-- Payload bytes of every long packet of a frame, bands included (R275). -/
def csiPayloads (kind fmt ow oh : Nat) : List Nat :=
  let l := csiLines kind fmt ow oh
  let band := l.foldl max 64
  [band] ++ l ++ [band, band]

/-- Bytes and packets a stream sends for one frame (R279). -/
def State.txFrame (s : State) (v j : Nat) : Nat × Nat :=
  let h := s.get (F.TX_S_HEAD v j)
  let kind := s.get (F.TX_S_KIND v j)
  let (ow, oh) := s.kindSize h kind
  let lse := s.flag (F.TX_CFG_LSE v)
  (csiPayloads kind (s.outFmt h kind) ow oh).foldl
    (fun a p => (a.1 + p + 6 + (if lse then 8 else 0), a.2 + 1 + (if lse then 2 else 0))) (8, 2)

/-- A port's load as an exact fraction: numerator and denominator. A head without a frame rate adds none. -/
def State.txLoad (s : State) (v : Nat) : Nat × Nat :=
  (List.range 8).foldl (fun (acc : Nat × Nat) j =>
    let h := s.get (F.TX_S_HEAD v j)
    let per := s.get (F.HP_FPER_FPER h)
    let bw := s.txLanes v * s.get (F.TX_RATE_RATE v)
    if !s.txStream v j || per = 0 then acc
    else
      let (bytes, packets) := s.txFrame v j
      let n := s.fHz (regionOf h) * (bytes * 8000 + packets * s.get (F.TX_GAP_GAP v) * bw)
      let d := per * max 1 (s.get (F.TX_S_DECIM v j)) * bw * 1000000000
      (acc.1 * d + n * acc.2, acc.2 * d)) (0, 1)

/-- A port's load exceeds L. -/
def State.txOver (s : State) (v : Nat) : Bool :=
  let l := s.txLoad v
  s.get F.SYS_PLAN_LIMIT_LIMIT * l.2 < 10000 * l.1

/-- LOAD shows the last evaluated load, in 0.01 %, rounded (log entry 45). -/
def State.showLoad (s : State) (v : Nat) (from_ : State) : State :=
  let l := from_.txLoad v
  s.put (F.TX_STAT_LOAD v) (min 65535 (roundDivN (10000 * l.1) l.2))

/-- ACTIVE shows whether the port sends a frame. -/
def State.syncCsi (s : State) (v : Nat) : State :=
  s.putB (F.TX_STAT_ACTIVE v) ((s.port v).streams.any fun x => x.sending.isSome)

/-- The frame number of R275. -/
def csiFrameNo (b : BufRec) : Nat := b.seq % 65535 + 1

/-- Frames begun are sent to their Frame End (R276): their remaining packets go out as RUN ends, which takes no time here (log
entry 184). -/
def State.csiFinish (s : State) : State :=
  s.forEach 4 (fun _ => true) fun v s => (List.range 8).foldl (fun s j =>
    let x := (s.port v).streams.getD j {}
    match x.sending with
    | none => s
    | some b =>
      (s.modPort v fun p => { p with streams := p.streams.set j { x with sending := none, next := 0 },
                                     sent := some ⟨1, x.vc, leBytes 2 (csiFrameNo b)⟩ }).bump (F.TX_CNT0_SENT v)) s

/-- Every port returns to LP-11 with nothing to send (R278). -/
def State.csiStop (s : State) : State :=
  s.forEach 4 (fun _ => true) fun v s => (s.modPort v fun p => { p with streams := List.replicate 8 {} }).syncCsi v

/-! ### TX_CFG_WRITE and the other registers -/

/-- TX_CFG.CLRCNT. -/
def State.txClear (s : State) (v : Nat) : State := (s.setReg (R.TX_CNT0 v) 0).setReg (R.TX_CNT1 v) 0

/-- TX_CFG, TX_RATE and TX_GAP take writes only in SETUP. -/
def State.txSetup (s : State) (v : Nat) (f : State → State) : State :=
  if s.mode = .setup then f s else s.put (F.TX_STAT_DIRECT_REFUSED v) 1

/-- A value refused by a port's register. -/
def State.txReject (s : State) (v : Nat) : State := s.put (F.TX_STAT_VALUE_REJ v) 1

/-- A write of TX_CFG. -/
def txCfgWrite (p : Nat) (v : Word) (s : State) : State :=
  s.whenever (s.access (R.TX_CFG p)) fun s => s.txSetup p fun s =>
    let old := s
    if fieldOf (F.TX_CFG_LANES p) v = 3 then s.txReject p
    else
      let s := if fieldOf (F.TX_CFG_CLRCNT p) v = 1 then s.txClear p else s
      let new := s.setReg (R.TX_CFG p) (v &&& 0x1F)
      if fieldOf (F.TX_CFG_EN p) v = 0 then new
      else if new.portBad p then s.put (F.TX_STAT_CFGRES p) 3
      else if new.txOver p then (s.showLoad p new).put (F.TX_STAT_CFGRES p) 2
      else
        let new := (new.showLoad p new).put (F.TX_STAT_CFGRES p) 1
        if old.flag (F.TX_CFG_EN p) then new else new.modPort p fun q => { q with hs := false }

/-- A write of TX_RATE. -/
def txRateWrite (p : Nat) (v : Word) (s : State) : State :=
  s.txSetup p fun s =>
    let r := fieldOf (F.TX_RATE_RATE p) v
    if within r 80 4500 then s.put (F.TX_RATE_RATE p) r else s.txReject p

/-- A write of TX_GAP. -/
def txGapWrite (p : Nat) (v : Word) (s : State) : State :=
  s.txSetup p fun s =>
    let g := fieldOf (F.TX_GAP_GAP p) v
    if within g 50 10000 then s.put (F.TX_GAP_GAP p) g else s.txReject p

/-- The stored word of TX_Ss: DECIM 0 is stored as 1. -/
def txStreamWord (p j : Nat) (v : Word) : Word :=
  let v := v &&& 0xFF3F
  if fieldOf (F.TX_S_DECIM p j) v = 0 then withField (F.TX_S_DECIM p j) 1 v else v

/-- A direct write of TX_Ss (R274, R282). -/
def txStreamWrite (p j : Nat) (v : Word) (s : State) : State :=
  s.txSetup p fun s =>
    if fieldOf (F.TX_S_KIND p j) v = 3 then s.txReject p
    else
      let new := s.setReg (R.TX_S p j) (txStreamWord p j v)
      if new.streamBad p j then s.put (F.TX_STAT_CFGRES p) 3 else new

/-- TX_CFG.CLRCNT alone (R282). -/
def txClrcnt (p : Nat) (s : State) : State :=
  s.whenever (s.access (R.TX_CFG p)) fun s => s.txSetup p fun s => s.txClear p

/-! ### Packets (R275) -/

/-- Bytes of an image line in a delivery buffer, as a packet carries them. -/
def State.csiImage (s : State) (b : BufRec) (i : Nat) : List Byte :=
  let (p, _) := bufShape b.kind b.fmt b.ow b.oh
  if b.kind ≠ 1 then s.dramRead (b.base + p * (1 + i)) (b.ow * pixBytes b.kind b.fmt)
  else
    let y := s.dramRead (b.base + p * (1 + i)) b.ow
    if i % 2 = 0 then y
    else
      let h16 := ceilDiv b.oh 16 * 16
      let c0 := b.base + p * (1 + h16)
      let pc := up64 (b.ow / 2)
      let j := i / 2
      let u := fun k => if b.fmt = 1 then s.dramByte (c0 + p * j + 2 * k) else s.dramByte (c0 + pc * j + k)
      let w := fun k => if b.fmt = 1 then s.dramByte (c0 + p * j + 2 * k + 1) else s.dramByte (c0 + pc * (h16 / 2) + pc * j + k)
      (List.range (b.ow / 2)).flatMap fun k => [u k, y.getD (2 * k) 0, w k, y.getD (2 * k + 1) 0]

/-- The long packets of a frame, in order: data type and payload. -/
def State.csiLong (s : State) (b : BufRec) (n : Nat) : Nat × List Byte :=
  let wide := fun (l : List Byte) => l ++ List.replicate ((csiLines b.kind b.fmt b.ow b.oh).foldl max 64 - l.length) 0
  if n = 0 then (0x12, wide (s.dramRead b.base 64))
  else if n ≤ b.oh then ((csiType b.kind b.fmt).getD 0, s.csiImage b (n - 1))
  else (0x12, wide (if n = b.oh + 1 then (s.bufTail b).1 else (s.bufTail b).2))

/-- What packet `n` of a frame is: Frame Start, Frame End, or long packet `m` with its place (0 Line Start, 1 the packet,
2 Line End). -/
inductive CsiPart where
  | frameStart
  | frameEnd
  | long (m : Nat)
  | lineMark (stop : Bool)
  deriving DecidableEq, Repr

/-- The parts of a frame of `oh` lines in sending order: packet `n`. -/
def csiPart (lse : Bool) (oh n : Nat) : CsiPart :=
  let longs := oh + 3
  let total := if lse then 3 * longs else longs
  if n = 0 then .frameStart
  else if total < n then .frameEnd
  else if !lse then .long (n - 1)
  else if (n - 1) % 3 = 1 then .long ((n - 1) / 3)
  else .lineMark ((n - 1) % 3 == 2)

/-- The stream served next, round-robin among those with a packet ready (R276). -/
def State.csiPick (s : State) (v : Nat) : Option Nat :=
  let p := s.port v
  ((List.range 8).map fun k => (p.rr + 1 + k) % 8).find? fun j =>
    let x := p.streams.getD j {}
    x.sending.isSome || x.waiting.isSome

/-- The port may send (R278). -/
def State.csiOn (s : State) (v : Nat) : Bool := s.inRun && s.flag (F.TX_CFG_EN v)

/-- What a D-PHY lane is driven to (R278). -/
inductive LaneLevel where
  | lp11 | hs | highZ
  deriving DecidableEq, Repr

/-- A port's data lanes between commands: LP-11, as a packet is sent whole by its command and GAP follows it; high impedance in
RESET. -/
def State.csiDataLanes (s : State) : LaneLevel := if s.mode = .reset then .highZ else .lp11

/-- A port's clock lane: in HS while a stream sends a frame, and between frames with CONTCLK = 1 once the port has sent; else in
LP; high impedance in RESET. -/
def State.csiClockLane (s : State) (v : Nat) : LaneLevel :=
  if s.mode = .reset then .highZ
  else if s.csiOn v && (((s.port v).streams.any fun x => x.sending.isSome) || (s.flag (F.TX_CFG_CONTCLK v) && (s.port v).hs)) then .hs
  else .lp11

/-- Change stream `j` of a port and note the packet sent. -/
def State.csiSend (s : State) (v j : Nat) (x : CsiStream) (k : CsiPacket) : State :=
  (s.modPort v fun p => { p with streams := p.streams.set j x, rr := j, sent := some k }).syncCsi v

/-- A stream starts a waiting frame: its Frame Start is sent. -/
def csiFrameStart (v : Nat) (s : State) : State :=
  s.whenever (s.csiOn v) fun s =>
    match s.csiPick v with
    | none => s
    | some j =>
      let x := (s.port v).streams.getD j {}
      match x.sending, x.waiting with
      | none, some b =>
        let first := !(s.port v).hs
        let s := s.modPort v fun p =>
          { p with hs := true, skewCals := p.skewCals + (first && 1500 < s.get (F.TX_RATE_RATE v)).toNat }
        let vc := s.get (F.TX_S_VC v j)
        s.csiSend v j { sending := some b, next := 1, vc := vc } ⟨0, vc, leBytes 2 (csiFrameNo b)⟩
      | _, _ => s

/-- A stream sends its next packet; `late` says that the DRAM data of a long packet is not there in time (R277). -/
def csiPacketSend (v : Nat) (late : Bool) (s : State) : State :=
  s.whenever (s.csiOn v) fun s =>
    match s.csiPick v with
    | none => s
    | some j =>
      let x := (s.port v).streams.getD j {}
      match x.sending with
      | none => s
      | some b =>
        let vc := x.vc
        let next : CsiStream := { x with next := x.next + 1 }
        match csiPart (s.flag (F.TX_CFG_LSE v)) b.oh x.next with
        | .frameEnd =>
          (s.csiSend v j { x with sending := none, next := 0 } ⟨1, vc, leBytes 2 (csiFrameNo b)⟩).bump (F.TX_CNT0_SENT v)
        | .lineMark stop =>
          let (n, s) := s.freshUpTo 65535
          s.csiSend v j next ⟨if stop then 3 else 2, vc, leBytes 2 n⟩
        | .long m =>
          let (dt, bytes) := s.csiLong b m
          if !late then s.csiSend v j next ⟨dt, vc, bytes⟩
          else
            let (n, s) := s.freshUpTo (bytes.length - 1)
            let cut := bytes.take n ++ List.replicate (bytes.length - n) 0
            ((s.csiSend v j next ⟨dt, vc, cut⟩).bump (F.TX_CNT1_UNDERRUN v)).raise 52 .ce (detailWord j 0xFF 0x014)
        | .frameStart => s

/-! ### Meanings -/

/-- `TX_CFG_WRITE`. -/
def execTxCfgWrite (p : Fin 4) (v : Word) (s : State) : Result := .next (txCfgWrite p v s)
/-- `TX_CLRCNT`. -/
def execTxClrcnt (p : Fin 4) (s : State) : Result := .next (txClrcnt p s)
/-- `CSI_FRAME_START`. -/
def execCsiFrameStart (p : Fin 4) (s : State) : Result := .next (csiFrameStart p s)
/-- `CSI_PACKET_SEND`. -/
def execCsiPacketSend (p : Fin 4) (late : Bool) (s : State) : Result := .next (csiPacketSend p late s)

end Sys2Proof.Machine
end

