-- ==== Sys2Proof/Machine/Monitors.lean ====
section
/-! DEFINITION. The monitor units (R295 to R299). -/

namespace Sys2Proof.Machine

/-- The number of values SEL takes for a listed SRC (Table 11-4); none for any other SRC. -/
def monSelRange (src : Nat) : Option Nat :=
  if src = 1 ∨ src = 2 ∨ src = 3 then some 8
  else if src = 4 then some 65536
  else if src = 5 then some 64
  else if src = 6 ∨ src = 0x23 then some 16
  else if src = 7 ∨ src = 0x22 then some 4
  else if src = 0x20 then some 24
  else if src = 0x21 then some 96
  else if src = 0x24 then some 20
  else none

/-- COUNT of a monitor. -/
def State.monCount (s : State) (n : Nat) : Nat := s.get64 (F.MON_CNT_LO_COUNT n) (F.MON_CNT_HI_COUNT n)

/-- A monitor takes the sample `v`, a signed 32-bit value (R295). -/
def State.monTake (s : State) (n : Nat) (v : Int) : State :=
  let c := s.monCount n
  let lo := signed 32 (s.get (F.MON_MIN_VALUE n))
  let hi := signed 32 (s.get (F.MON_MAX_VALUE n))
  let s := s.put (F.MON_MIN_VALUE n) (unsigned 32 (if c = 0 then v else min lo v))
  let s := s.put (F.MON_MAX_VALUE n) (unsigned 32 (if c = 0 then v else max hi v))
  let s := s.put64 (F.MON_CNT_LO_COUNT n) (F.MON_CNT_HI_COUNT n) (c + 1)
  let d := v - signed 32 (s.get (F.MON_BLO_BLO n))
  let w := (2 ^ s.get (F.MON_CFG_BSH n) : Nat)
  if d < 0 then s.bump (F.MON_UNDER_COUNT n)
  else if 64 * w ≤ d.toNat then s.bump (F.MON_OVER_COUNT n)
  else s.bump (F.MON_HIST_W n (d.toNat / w))

/-- A monitor's live values clear. -/
def State.monClear (s : State) (n : Nat) : State :=
  let s := [R.MON_MIN n, R.MON_MAX n, R.MON_UNDER n, R.MON_OVER n].foldl (fun s a => s.setReg a 0) s
  let s := s.put64 (F.MON_CNT_LO_COUNT n) (F.MON_CNT_HI_COUNT n) 0
  s.forEach 64 (fun _ => true) fun i s => s.setReg (R.MON_HIST n i) 0

/-- A monitor's live values and the DT are copied to its snapshot registers as one whole (R297). -/
def State.monSnapshot (s : State) (n t : Nat) : State :=
  let s0 := s
  let s := s.setReg (R.MON_SMIN n) (s0.reg (R.MON_MIN n))
  let s := s.setReg (R.MON_SMAX n) (s0.reg (R.MON_MAX n))
  let s := s.setReg (R.MON_SUNDER n) (s0.reg (R.MON_UNDER n))
  let s := s.setReg (R.MON_SOVER n) (s0.reg (R.MON_OVER n))
  let s := s.put64 (F.MON_SCNT_LO_COUNT n) (F.MON_SCNT_HI_COUNT n) (s0.monCount n)
  let s := s.put64 (F.MON_SDT_LO_DT n) (F.MON_SDT_HI_DT n) t
  s.forEach 64 (fun _ => true) fun i s => s.setReg (R.MON_SHIST n i) (s0.reg (R.MON_HIST n i))

/-- The record of a periodic snapshot: the snapshot registers and the bins; the rest of its 512 bytes is free (log entry
46). -/
def State.monRecord (s : State) (n free : Nat) : List Byte :=
  ([R.MON_SMIN n, R.MON_SMAX n, R.MON_SUNDER n, R.MON_SOVER n, R.MON_SCNT_LO n, R.MON_SCNT_HI n, R.MON_SDT_LO n,
    R.MON_SDT_HI n].flatMap fun a => leBytes 4 (s.reg a).toNat) ++
  ((List.range 64).flatMap fun i => leBytes 4 (s.reg (R.MON_SHIST n i)).toNat) ++ leBytes 224 free

/-- A record is written into its ring of 256 and counted. -/
def State.monWriteRecord (s : State) (n : Nat) : State :=
  if s.get F.MON_SNBASE_BASE = 0 then s
  else
    let (free, s) := s.fresh
    let i := s.get F.MON_SNIDX_COUNT
    (s.dramWrite (4096 * s.get F.MON_SNBASE_BASE + 512 * (i % 256)) (s.monRecord n free)).put F.MON_SNIDX_COUNT (i + 1)

/-- Sources of Table 11-4 whose samples the model's own events make: latencies, and the readings of a milk round. Of the others
the fill of a Collator FIFO is in the state, and the rest are measured quantities, which MONITOR_SAMPLE carries. -/
def eventSource (src : Nat) : Bool := (1 ≤ src && src ≤ 5) || src == 0x20 || src == 0x21

/-- The unit of a measured source runs (R295): an ageing sensor in every mode, a Collator and a DRAM channel where Table 16-1 has
them on and they are not lost, a region's uplinks while one is up. -/
def State.sourceRuns (s : State) (src sel : Nat) : Bool :=
  if src = 0x24 then true
  else s.ringsMode && (if src = 0x06 ∨ src = 0x23 then !s.lostChan.contains sel
    else if src = 0x07 then !(s.uplinkDown.contains (2 * sel) && s.uplinkDown.contains (2 * sel + 1)) && !s.digitalFail.contains sel
    else !s.digitalFail.contains sel)

/-- The factory zero of ageing sensor `n` (R296): a signed 32-bit word of its NVM item (log entry 164). -/
def State.ageingZero (s : State) (n : Nat) : Int := signed 32 (leNat (s.nvLoad (0x300 + 4 * n) 4))

/-- The sample of a source that no event makes (Table 11-4, R296). -/
def State.sampleValue (s : State) (src sel : Nat) (v : Int) : Int :=
  signed 32 (unsigned 32 (if src = 0x24 then v - s.ageingZero sel else if src = 0x22 then (s.fifoFill sel : Int) else v))

/-- The oldest sample that events have made for a monitor is taken. -/
def State.monNext (s : State) (n : Nat) : State :=
  match s.samples.find? fun e => e.1 == n with
  | none => s
  | some e => ({ s with samples := s.samples.erase e } : State).monTake n e.2.1

/-- What a snapshot or a clear at `t` leaves behind: samples stamped before it are taken first (R297). -/
def State.monDrain (s : State) (n t : Nat) : State :=
  let mine := fun (e : Nat × Int × Nat) => e.1 == n && decide (e.2.2 < t)
  (s.samples.filter mine).foldl (fun s e => s.monTake n e.2.1) { s with samples := s.samples.filter fun e => !mine e }

/-- The period P in ns. -/
def State.monPeriod (s : State) : Nat := 1000 * s.get F.MON_PER_PER

/-- A window ends (R297): every enabled monitor is snapshotted and cleared, its record written. -/
def State.monEnd (s : State) : State :=
  let e := s.monWin + s.monPeriod
  let s := s.forEach 32 (fun n => s.flag (F.MON_CFG_EN n)) fun n s =>
    (((s.monDrain n e).monSnapshot n e).monClear n).monWriteRecord n
  { s with monWin := e }

/-- The windows that end by `t`, at most `k` of them. -/
def State.monEnds (t : Nat) : Nat → State → State
  | 0, s => s
  | k + 1, s => if s.get F.MON_PER_PER ≠ 0 ∧ s.monWin + s.monPeriod ≤ t then s.monEnd.monEnds t k else s

/-- `MONITOR_SAMPLE`: an enabled monitor takes a sample of its source. A sample stamped at or after a window's end belongs to the
next window (R297). -/
def monitorSample (n : Nat) (v : Int) (t : Nat) (s : State) : State :=
  s.whenever (s.up && s.flag (F.MON_CFG_EN n)) fun s =>
    let s := (s.at t).monEnds t ((t - s.monWin) / max s.monPeriod 1)
    let src := s.get (F.MON_CFG_SRC n)
    let sel := s.get (F.MON_CFG_SEL n)
    if eventSource src then s.monNext n
    else if s.sourceRuns src sel then s.monTake n (s.sampleValue src sel v)
    else s

/-- `MON_SNAP`. -/
def monSnap (mask : Word) (t : Nat) (s : State) : State :=
  s.whenever (s.access R.MON_SNAP) fun s =>
    (s.at t).forEach 32 (fun n => bit mask.toNat n) fun n s => (s.monDrain n s.dt).monSnapshot n s.dt

/-- `MON_CLR`. -/
def monClr (mask : Word) (s : State) : State :=
  s.whenever (s.access R.MON_CLR) fun s => s.forEach 32 (fun n => bit mask.toNat n) fun n s => (s.monDrain n s.dt).monClear n

/-- `MON_PER`. -/
def monPerWrite (v : Word) (t : Nat) (s : State) : State :=
  s.whenever (s.access R.MON_PER) fun s =>
    let s := (s.at t).setReg R.MON_PER v
    { s with monWin := s.dt }

/-- `MONITOR_PERIOD_END`: the window that began at `monWin` ends. -/
def monitorPeriodEnd (t : Nat) (s : State) : State :=
  s.whenever (s.up && s.get F.MON_PER_PER != 0 && s.monWin + s.monPeriod ≤ t) fun s => (s.at t).monEnd

/-- A write of MON_CFG or MON_BLO. -/
def monCfgWrite (n : Nat) (blo : Bool) (v : Word) (s : State) : State :=
  s.whenever (s.access (R.MON_CFG n)) fun s =>
    let drop := fun (s : State) => { s with samples := s.samples.filter fun e => e.1 != n }
    if blo then drop ((s.setReg (R.MON_BLO n) v).monClear n)
    else
      let ok : Bool := match monSelRange (fieldOf (F.MON_CFG_SRC n) v) with
        | some m => decide (fieldOf (F.MON_CFG_SEL n) v < m)
        | none => false
      if ok then drop ((s.setReg (R.MON_CFG n) (v &&& 0x9FFFFFFF)).monClear n)
      else s.put (F.MON_STAT_VALUE_REJ n) 1

/-! ### Meanings -/

/-- `MONITOR_SAMPLE`. -/
def execMonitorSample (n : Fin 32) (v : Int) (t : Nat) (s : State) : Result := .next (monitorSample n v t s)
/-- `MON_SNAP`. -/
def execMonSnap (mask : Word) (t : Nat) (s : State) : Result := .next (monSnap mask t s)
/-- `MON_CLR`. -/
def execMonClr (mask : Word) (s : State) : Result := .next (monClr mask s)
/-- `MON_PER_WRITE`. -/
def execMonPerWrite (v : Word) (t : Nat) (s : State) : Result := .next (monPerWrite v t s)
/-- `MONITOR_PERIOD_END`. -/
def execMonitorPeriodEnd (t : Nat) (s : State) : Result := .next (monitorPeriodEnd t s)
/-- `MON_CFG_WRITE`. -/
def execMonCfgWrite (n : Fin 32) (blo : Bool) (v : Word) (s : State) : Result := .next (monCfgWrite n blo v s)

end Sys2Proof.Machine
end

