-- ==== Sys2Proof/Machine/Planner.lean ====
section
/-! DEFINITION. The load planner (R33 to R41): what it evaluates, its requests, its results. -/

namespace Sys2Proof.Machine

/-! ### Exact fractions -/

/-- A fraction; a denominator of 0 with a numerator above 0 stands for a load on something absent. -/
structure Frac where
  n : Nat
  d : Nat
  deriving DecidableEq, Repr

/-- A whole number. -/
def Frac.ofNat (n : Nat) : Frac := ⟨n, 1⟩
/-- Sum, in lowest terms. -/
def Frac.add (a b : Frac) : Frac :=
  let n := a.n * b.d + b.n * a.d
  let d := a.d * b.d
  let g := max 1 (Nat.gcd n d)
  ⟨n / g, d / g⟩
/-- Product with a fraction p / q. -/
def Frac.mul (a : Frac) (p q : Nat) : Frac :=
  let n := a.n * p
  let d := a.d * q
  let g := max 1 (Nat.gcd n d)
  ⟨n / g, d / g⟩
/-- a ≤ b. -/
def Frac.le (a b : Frac) : Bool := a.n * b.d ≤ b.n * a.d
/-- The sum of a list. -/
def Frac.sum (l : List Frac) : Frac := l.foldl Frac.add ⟨0, 1⟩
/-- The larger of two. -/
def Frac.larger (a b : Frac) : Frac := if a.le b then b else a
/-- In 0.01 %, rounded to nearest with halves up, as a 16-bit register shows it (Tables 1-11 to 1-15); 65,535 above
(log entry 168, DEDUCED). -/
def Frac.pct (a : Frac) : Nat := if a.d = 0 then (if a.n = 0 then 0 else 65535) else min 65535 (roundDivN (10000 * a.n) a.d)

/-! ### Rates of a head (R34 to R36) -/

/-- Frames per second: f / FPER. -/
def State.planFr (s : State) (h : Nat) : Frac :=
  let per := s.get (F.HP_FPER_FPER h)
  if per = 0 then ⟨0, 1⟩ else ⟨s.fHz (regionOf h), per⟩

/-- rate(h) of R36. -/
def State.planRate (s : State) (h : Nat) : Frac := (s.planFr h).mul (s.prof h).pixels 1

/-- Pixel slots per second: line periods of every tap. -/
def State.planSlots (s : State) (h : Nat) : Frac :=
  let p := s.prof h
  (s.planFr h).mul (p.p * p.taps * p.l) 1

/-- U of R202. -/
def State.planU (s : State) (h : Nat) : Nat := max 1 (s.get (F.CX_RCFG_U h))

/-- residual_write(h) of Table 1-6. -/
def State.residualWrite (s : State) (h : Nat) : Frac :=
  if s.flag (F.CX_HCFG_RES_EN h) && (s.flag (F.CX_RCFG_BTRK_EN h) || s.flag (F.CX_RCFG_EST_EN h)) then ⟨2, s.planU h⟩
  else ⟨0, 1⟩

/-- Twice the bytes of Table 1-7. -/
def halfBytes (kind fmt : Nat) : Nat := if kind = 1 then 3 else 2 * pixBytes kind fmt

/-- The decimation a kind is written with (R264). -/
def State.kindDec (s : State) (h kind : Nat) : Nat :=
  max 1 (if kind = 0 then s.get (F.FP_HOUT_DECD h) else if kind = 1 then s.get (F.FP_HOUT_DECC h)
    else if kind = 2 then s.get (F.FP_HOUT_DECM h) else 1)

/-- output_write(h) of Table 1-6, in bytes per active pixel. -/
def State.outputWrite (s : State) (h : Nat) : Frac :=
  let px := max 1 (s.prof h).pixels
  (List.range 3).foldl (fun a k =>
    let fmt := s.outFmt h k
    if fmt = 0 then a
    else
      let (ow, oh) := s.kindSize h k
      a.add ⟨halfBytes k fmt * ow * oh, 2 * px * s.kindDec h k⟩) ⟨1, 2⟩

/-- Bytes per second of one consumer of a head's kind: `pixels` of its region of interest, decimation `dec` (Table 1-6;
log entry 47). Without REC_EN no statistics record is offered, so none is read (R285, R333). -/
def State.consumerRead (s : State) (h kind pixels dec : Nat) : Frac :=
  let every := Nat.lcm (max 1 dec) (s.kindDec h kind)
  if kind = 3 then
    if !s.flag (F.ST_HCFG_REC_EN h) then ⟨0, 1⟩ else
    (s.planFr h).mul (0x1040 + 16 * (s.get (F.ST_HCFG_ZCM h) + 1) * (s.get (F.ST_HCFG_ZRM h) + 1)) every
  else
    let fmt := s.outFmt h kind
    if fmt = 0 then ⟨0, 1⟩ else (s.planFr h).mul (pixels * ((halfBytes kind fmt + 1) / 2)) every

/-- Reads of the delivery rings that subscribe to a head (R36). -/
def State.ringReads (s : State) (h : Nat) : Frac :=
  Frac.sum ((s.rings.filter fun e => e.2.ctx.en && e.2.ctx.kind == 2 && !e.2.ctx.job && e.2.ctx.shead == h).map fun e =>
    let c := e.2.ctx
    let (ow, oh) := s.kindSize h c.skind
    s.consumerRead h c.skind (if c.w = 0 then ow * oh else c.w * c.h) c.dec)

/-- Reads of the CSI-2 ports: each port counts as one consumer of each kind it carries (R274), at the smallest decimation of
its streams of that kind (log entry 47). -/
def State.csiReads (s : State) (h : Nat) : Frac :=
  Frac.sum ((List.range 4).flatMap fun v => (List.range 3).map fun k =>
    let decs := ((List.range 8).filter fun j => s.flag (F.TX_CFG_EN v) && s.txStream v j && s.get (F.TX_S_HEAD v j) == h &&
      s.get (F.TX_S_KIND v j) == k).map fun j => max 1 (s.get (F.TX_S_DECIM v j))
    match decs with
    | [] => ⟨0, 1⟩
    | d :: ds =>
      let (ow, oh) := s.kindSize h k
      s.consumerRead h k (ow * oh) (ds.foldl min d))

/-- The cost of a recipe operation (Table 9-7). -/
def stepCost (op : Nat) : Nat := if op = 0x03 ∨ op = 0x04 ∨ op = 0x13 then 2 else if op = 0x11 then 4 else 1

/-- 2 plus the step costs of a slot's image (R247). -/
def recipeCost (img : List Byte) : Nat :=
  2 + ((List.range (leAt img 6 1)).map fun k => stepCost (stepOp (leAt img (0x40 + 4 * k) 4))).sum

/-- Lane-ops per active pixel of a head (R247). -/
def State.laneOps (s : State) (h : Nat) : Frac :=
  let rec_ := ((List.range 4).map fun p => match recipePoint (s.get (F.EN_HRCP_POINTS h)) p with
    | some n => recipeCost (s.recipes.getD n [])
    | none => 0).sum
  let est : Frac := if s.flag (F.CX_RCFG_EST_EN h) then ⟨16, s.planU h⟩
    else if s.flag (F.CX_RCFG_BTRK_EN h) then ⟨2, s.planU h⟩ else ⟨0, 1⟩
  (Frac.ofNat (64 + rec_)).add est

/-- Engines in service at the time of planning (R35). -/
def State.enginesIn (s : State) : Nat :=
  ((List.range 16).map fun b =>
    if s.isRetired b || s.digitalFail.contains (b / 4) then 0 else (s.cellsIn b cellInService).length).sum

/-! ### The link (R33) -/

/-- The PCIe peak in bytes per second, from the last link in L0 (the rates of generations 1 to 4 are PRESUMED, the PCIe Base
specification; log entry 48). -/
def State.pciePeak (s : State) : Frac :=
  let g := s.pcie.speed
  let mt := if g = 1 then 2500 else if g = 2 then 5000 else if g = 3 then 8000 else if g = 4 then 16000
    else if g = 5 then 32000 else 0
  let (en, ed) := if g ≤ 2 then (8, 10) else (128, 130)
  Frac.mul ⟨mt * 1000000 * s.pcie.width, 1⟩ (en * 512) (ed * 536 * 8)

/-- a / b; no load on something absent is no load. -/
def Frac.div (a b : Frac) : Frac :=
  let n := a.n * b.d
  let d := a.d * b.n
  let g := max 1 (Nat.gcd n d)
  if n = 0 then ⟨0, 1⟩ else ⟨n / g, d / g⟩

/-! ### The evaluation (R36) -/

/-- The result of an evaluation: reason bits RATE 1, DRAM 2, COMPUTE 4, SPINE 8, PCIE 16, FINISH 32, ASSIGN 64, the loads and
the chip's pixel rate in px/s. -/
structure PlanResult where
  reason : Nat := 0
  dram : Frac := ⟨0, 1⟩
  compute : Frac := ⟨0, 1⟩
  spine : Frac := ⟨0, 1⟩
  pcie : Frac := ⟨0, 1⟩
  finish : Frac := ⟨0, 1⟩
  px : Frac := ⟨0, 1⟩
  /-- Pixel rate, pixel slots and streams of each region. -/
  regions : List (Frac × Frac × Nat) := []
  deriving DecidableEq, Repr

/-- The assignment breaks R28, R252 or R254. -/
def State.assignBad (s : State) (heads : List Nat) : Bool :=
  let pipe := fun h => s.get (F.FP_HASSIGN_PIPE h)
  (heads.any fun h => !s.throughMem h && (pipe h != regionOf h || s.collator h != regionOf h)) ||
  (List.range 4).any fun p =>
    let l := heads.filter fun h => pipe h == p
    1 < (l.filter fun h => !s.throughMem h).length || (s.flag (F.FP_CTRL_QMUX p) && 4 < l.length)

/-- Input bytes of reprocessing jobs: they run one at a time, so the largest declared rate counts (log entry 49). -/
def State.jobBytes (s : State) : Frac :=
  Frac.ofNat (8 * 1000 * (s.jobs.map fun j => if j.waits then 0 else leAt j.body 0x30 4).foldl max 0)

/-- Planned uplink loads of a region, in and out, over its capacity (R36). -/
def State.uplinkLoad (s : State) (heads : List Nat) (r : Nat) : Frac :=
  let pipe := fun h => s.get (F.FP_HASSIGN_PIPE h)
  let into := Frac.sum (heads.map fun h =>
    let rate := s.planRate h
    let a := if s.collator h = r then rate.mul 14 1 else ⟨0, 1⟩
    let b := if s.throughMem h && pipe h == r then rate.mul 4 1 else ⟨0, 1⟩
    let c := if s.collator h = r ∧ regionOf h ≠ r then (s.planSlots h).mul 4 1 else ⟨0, 1⟩
    (a.add b).add c)
  let out := Frac.sum (heads.map fun h =>
    let rate := s.planRate h
    let rw := s.residualWrite h
    let ow := s.outputWrite h
    let a := if s.collator h = r then rate.mul rw.n rw.d else ⟨0, 1⟩
    let b := if s.throughMem h && s.collator h == r then rate.mul 4 1 else ⟨0, 1⟩
    let c := if pipe h = r then rate.mul ow.n ow.d else ⟨0, 1⟩
    let d := if regionOf h = r ∧ s.collator h ≠ r then (s.planSlots h).mul 4 1 else ⟨0, 1⟩
    ((a.add b).add c).add d)
  let links := 2 - ((List.range 2).countP fun i => s.uplinkDown.contains (2 * r + i))
  (into.larger out).div ⟨links * 64000000000, 1⟩

/-- The FINISH load of a pipe (R255). -/
def State.pipeLoad (s : State) (heads : List Nat) (p : Nat) : Frac :=
  let l := heads.filter fun h => s.get (F.FP_HASSIGN_PIPE h) == p
  let tm := l.filter s.throughMem
  let sw := if s.flag (F.FP_CTRL_QMUX p) then
      if l.length < 2 then ⟨0, 1⟩ else Frac.sum (l.map fun h => (s.planFr h).mul (s.prof h).quireCount 1)
    else if tm.length < 2 then ⟨0, 1⟩ else Frac.sum (tm.map s.planFr)
  ((Frac.sum (l.map s.planRate)).mul 1 1000000000).add (sw.mul 2 1000000)

/-- Pixel rate, pixel slots and streams of a region's Collator (R33 to R35). -/
def State.regionLoad (s : State) (heads : List Nat) (r : Nat) : Frac × Frac × Nat :=
  let l := heads.filter fun h => s.collator h == r
  (Frac.sum (l.map s.planRate), Frac.sum (l.map s.planSlots), l.length)

/-- Evaluate the configuration of a state with the given heads streaming, against a limit and a DRAM peak in bytes per
second. DRAM is shown in parts of the peak of all 16 channels, as Table 1-11 says, also after a channel has been lost, where
the worked example of chapter 15 shows parts of the remaining peak (log entry 141, DEDUCED). -/
def State.planEval (s : State) (heads : List Nat) (lim : Frac) (peak : Nat) : PlanResult :=
  let chip := Frac.sum (heads.map s.planRate)
  let regions := (List.range 4).map (s.regionLoad heads)
  let rate := (!chip.le ⟨3200000000, 1⟩) || regions.any fun l =>
    !l.1.le ⟨1600000000, 1⟩ || !l.2.1.le ⟨2000000000, 1⟩ || 4 < l.2.2
  let host := Frac.sum (heads.map s.ringReads)
  let live := Frac.sum (heads.map fun h =>
    let per := (((Frac.ofNat (if s.throughMem h then 22 else 14)).add (s.residualWrite h)).add (s.outputWrite h))
    (((s.planRate h).mul per.n per.d).add (s.ringReads h)).add (s.csiReads h))
  let bytes := ((live.add s.jobBytes).mul 8 7).add ⟨2000000000, 1⟩
  let lanes := Frac.sum (heads.map fun h => let o := s.laneOps h; (s.planRate h).mul o.n o.d)
  let compute := lanes.div ⟨s.enginesIn * 8000000000, 1⟩
  let spine := (List.range 4).foldl (fun a r => a.larger (s.uplinkLoad heads r)) ⟨0, 1⟩
  let pcie := host.div s.pciePeak
  let fin := (List.range 4).foldl (fun a p => a.larger (s.pipeLoad heads p)) ⟨0, 1⟩
  let dram := bytes.div ⟨136512000000, 1⟩
  let bitIf := fun (b : Bool) (v : Nat) => if b then v else 0
  { reason := bitIf rate 1 + bitIf (!(bytes.div ⟨peak, 1⟩).le lim) 2 + bitIf (!compute.le lim) 4 + bitIf (!spine.le lim) 8 +
      bitIf (!pcie.le lim) 16 + bitIf (!fin.le lim) 32 + bitIf (s.assignBad heads) 64
    dram := dram, compute := compute, spine := spine, pcie := pcie, finish := fin, px := chip, regions := regions }

/-- The limit L. -/
def State.planL (s : State) : Frac := ⟨s.get F.SYS_PLAN_LIMIT_LIMIT, 10000⟩

/-- The DRAM peak with every channel in service. -/
def dramPeak : Nat := 136512000000

/-- The DRAM peak a re-plan runs against (R383). -/
def State.dramLeft (s : State) : Nat := dramPeak / 16 * (16 - s.lostChan.length)

/-- Heads of a mask that can stream and that no re-plan holds. -/
def State.planHeads (s : State) (mask : Nat) : List Nat :=
  (List.range 8).filter fun h => bit mask h && s.hasProf h && !bit (s.get F.SYS_PLAN_HELD_HELD) h

/-- The heads that stream, as a mask. -/
def State.streamMask (s : State) : Nat := (List.range 8).foldl (fun m h => if s.streams h then m + 2 ^ h else m) 0

/-- No load of `a` lies above that of `b`, and one lies below: an action that leads from `b` to `a` is not refused (R37; log
entry 50). -/
def PlanResult.lowers (a b : PlanResult) : Bool :=
  let l := [(a.dram, b.dram), (a.compute, b.compute), (a.spine, b.spine), (a.pcie, b.pcie), (a.finish, b.finish), (a.px, b.px)] ++
    (a.regions.zip b.regions).flatMap fun e =>
      [(e.1.1, e.2.1), (e.1.2.1, e.2.2.1), (Frac.ofNat e.1.2.2, Frac.ofNat e.2.2.2)]
  (l.all fun e => e.1.le e.2) && (l.any fun e => !e.2.le e.1) && !bit a.reason 6

/-! ### Results (R41) -/

/-- Publish an evaluation: RESULT 0 NONE, 1 OK, 2 OVERBUDGET, 3 HELD_HEADS; BUSY clears. Without a configuration the loads stay
(log entry 169, DESIGN CHOICE). -/
def State.planPublish (s : State) (result reason : Nat) (m : Option PlanResult) : State :=
  let s := ({ s with planRun := none } : State)
  let s := ((s.put F.SYS_PLAN_STAT_RESULT result).put F.SYS_PLAN_STAT_REASON reason).put F.SYS_PLAN_STAT_BUSY 0
  match m with
  | none => s
  | some m =>
    let s := (s.put F.SYS_PLAN_LOAD0_DRAM m.dram.pct).put F.SYS_PLAN_LOAD0_COMPUTE m.compute.pct
    let s := (s.put F.SYS_PLAN_LOAD1_SPINE m.spine.pct).put F.SYS_PLAN_LOAD1_PCIE m.pcie.pct
    (s.put F.SYS_PLAN_RATE_FINISH m.finish.pct).put F.SYS_PLAN_RATE_PXRATE (min 65535 (ceilDiv m.px.n (m.px.d * 1000000)))

/-- The reason an action that leads to the configuration `c` with the heads of `mask` is refused for: 0 when it is admitted;
and the evaluation. -/
def State.planAction (s c : State) (mask : Nat) : Nat × PlanResult :=
  let m := c.planEval (c.planHeads mask) s.planL dramPeak
  if m.reason = 0 then (0, m)
  else
    let now := s.planEval (s.planHeads s.streamMask) s.planL dramPeak
    (if m.lowers now then 0 else m.reason, m)

/-- Publish an action's evaluation. -/
def State.planShow (s : State) (m : PlanResult) : State := s.planPublish (if m.reason = 0 then 1 else 2) m.reason (some m)

/-! ### The re-plan (R39, R40) -/

/-- The ways a head can be carried: the Collator that takes its samples and its pipe, none for the assignment as it stands.
The order of the choices is free (log entry 51). -/
def State.planWays (s : State) (h free : Nat) : List (Option (Nat × Nat)) :=
  let home := regionOf h
  let up := (List.range 4).filter fun r => !s.digitalFail.contains r
  let rot := fun (l : List (Nat × Nat)) => let k := if l.isEmpty then 0 else free % l.length; l.drop k ++ l.take k
  if s.digitalFail.contains home then
    match s.reroute.find? fun e => e.1 == h with
    | some (_, r) =>
      if up.contains r && up.contains (s.get (F.FP_HASSIGN_PIPE h)) then [none]
      else (rot (up.flatMap fun r => up.map fun p => (r, p))).map some
    | none => (rot (up.flatMap fun r => up.map fun p => (r, p))).map some
  else if up.contains (s.get (F.FP_HASSIGN_PIPE h)) then [some (home, s.get (F.FP_HASSIGN_PIPE h))]
  else (rot (up.map fun p => (home, p))).map some

/-- The state with a head carried in a given way: re-routed and finished through memory where it must be. -/
def State.carryHead (s : State) (h : Nat) : Option (Nat × Nat) → State
  | none => s
  | some (r, p) =>
    let away := s.reroute.filter fun e => e.1 != h
    let s : State := { s with reroute := if r = regionOf h then away else away ++ [(h, r)] }
    if p = s.get (F.FP_HASSIGN_PIPE h) ∧ (s.throughMem h ∨ r = regionOf h) then s
    else (s.put (F.FP_HASSIGN_PIPE h) p).put (F.FP_HASSIGN_INLINE h) 0

/-- Carry heads in ascending order: the state reached, the heads carried, the heads held, the reasons of those held: of every
way in which each was tried. The heads of `stay` are not tried. -/
def State.replanHeads (s : State) (lim : Frac) (free : Nat) (stay : List Nat) :
    List Nat → State × List Nat × List Nat × Nat
  | hs => hs.foldl (fun (acc : State × List Nat × List Nat × Nat) h =>
      let (s, carried, held, why) := acc
      if s.isRetired (20 + h) || s.bankRetired.contains (regionOf h) || stay.contains h then (s, carried, held ++ [h], why)
      else
        let ways := s.planWays h free
        match ways.find? fun w => ((s.carryHead h w).planEval (carried ++ [h]) lim s.dramLeft).reason == 0 with
        | some w => (s.carryHead h w, carried ++ [h], held, why)
        | none =>
          let r := ways.foldl (fun r w => r ||| ((s.carryHead h w).planEval (carried ++ [h]) lim s.dramLeft).reason) 0
          (s, carried, held ++ [h], why ||| r)) (s, [], [], 0)

/-- A re-plan completes: holds follow it and its results are published. One that the device starts leaves the heads that are
held as they are: they return through software's REPLAN only (R39). The second part lists the heads newly held. -/
def State.replan (s : State) (auto : Bool) : State × List Nat :=
  let (free, s) := s.fresh
  let lim : Frac := if auto then ⟨1, 1⟩ else s.planL
  let old := s.get F.SYS_PLAN_HELD_HELD
  let all := (List.range 8).filter fun h => (s.streams h || bit old h) && s.hasProf h
  let (s, carried, held, why) := s.replanHeads lim free (if auto then all.filter fun h => bit old h || (s.head h).retired else []) all
  let mask := held.foldl (fun m h => m + 2 ^ h) 0
  let m := s.planEval carried lim s.dramLeft
  let s := s.put F.SYS_PLAN_HELD_HELD mask
  let s := carried.foldl (fun s h => s.modHead h fun u => { u with retired := false }) s
  let s := s.forEach 8 (fun _ => true) fun h s => s.syncHeld h
  (s.planPublish (if held.isEmpty then 1 else 3) why (some m), held.filter fun h => !bit old h)

/-! ### Commands -/

/-- SYS_PLAN_CMD.EVAL with its HANDLE. -/
def planEval (v : Word) (s : State) : State :=
  s.whenever (s.access R.SYS_PLAN_CMD) fun s =>
    let h := fieldOf F.SYS_PLAN_CMD_HANDLE v
    let s := s.put F.SYS_PLAN_CMD_HANDLE h
    if fieldOf F.SYS_PLAN_CMD_REPLAN v = 1 then s else s.planAsk { kind := .eval, arg := h }

/-- SYS_PLAN_CMD.REPLAN. -/
def planReplan (v : Word) (s : State) : State :=
  s.whenever (s.access R.SYS_PLAN_CMD) fun s =>
    (s.put F.SYS_PLAN_CMD_HANDLE (fieldOf F.SYS_PLAN_CMD_HANDLE v)).planAsk { kind := .replan }

/-- A queued evaluation starts once none runs. -/
def planEvalStart (s : State) : State :=
  match s.planRun, s.planQ with
  | none, q :: rest => ({ s with planRun := some q, planQ := rest } : State).put F.SYS_PLAN_STAT_BUSY 1
  | _, _ => s

/-- A write of SYS_PLAN_LIMIT. -/
def planLimitWrite (v : Word) (s : State) : State :=
  s.whenever (s.access R.SYS_PLAN_LIMIT) fun s =>
    s.put F.SYS_PLAN_LIMIT_LIMIT (min 8500 (fieldOf F.SYS_PLAN_LIMIT_LIMIT v))

/-! ### Meanings -/

/-- `PLAN_EVAL`. -/
def execPlanEval (v : Word) (s : State) : Result := .next (planEval v s)
/-- `PLAN_REPLAN`. -/
def execPlanReplan (v : Word) (s : State) : Result := .next (planReplan v s)
/-- `PLAN_EVAL_START`. -/
def execPlanEvalStart (s : State) : Result := .next (planEvalStart s)
/-- `PLAN_LIMIT_WRITE`. -/
def execPlanLimitWrite (v : Word) (s : State) : Result := .next (planLimitWrite v s)

end Sys2Proof.Machine
end

