-- ==== Sys2Proof/Machine/Values.lean ====
section
/-! DEFINITION. The registers that change through settings transactions (Table 12-2): which they are, the values their
chapters accept, what is stored, and how a new value takes force; and the checks of R336 and R483. -/

namespace Sys2Proof.Machine

/-! ### Subscriptions (R336, R483) -/

/-- The region of interest of a context over a kind's picture: X0, Y0, W, H; W = 0 names the whole frame (Table 13-3). -/
def State.roi (s : State) (c : RingCtx) : Nat × Nat × Nat × Nat :=
  let (ow, oh) := s.kindSize c.shead c.skind
  if c.w = 0 then (0, 0, ow, oh) else (c.x0, c.y0, c.w, c.h)

/-- Image bytes of Table 13-8 for a format, region width and height and host pitch. -/
def hostImage (kind fmt h pitch : Nat) : Nat :=
  if kind = 1 then
    (if fmt = 1 then h * pitch + h / 2 * pitch else h * pitch + 2 * (h / 2) * up64 (pitch / 2))
  else h * pitch

/-- The region and the buffer size of a subscription are valid (R336). -/
def State.roiOk (s : State) (c : RingCtx) : Bool :=
  if c.skind = 3 then 24576 ≤ c.bufsz
  else
    let fmt := s.outFmt c.shead c.skind
    let (ow, oh) := s.kindSize c.shead c.skind
    let (x, y, w, h) := s.roi c
    let even := fun n => n % 2 == 0
    x + w ≤ ow && y + h ≤ oh && (c.skind != 0 || fmt != 3 || (even x && even w)) &&
    (c.skind != 1 || (even x && even y && even w && even h)) &&
    (if c.skind = 1 then w else w * pixBytes c.skind fmt) ≤ c.hpitch && c.hpitch % 64 == 0 &&
    c.bufsz % 4096 == 0 && 64 + hostImage c.skind fmt h c.hpitch + 128 ≤ c.bufsz

/-- Check 4 of Table 13-4. -/
def State.subOk (s : State) (c : RingCtx) : Bool :=
  c.hbase % 4096 == 0 && s.hasProf c.shead && (c.skind == 3 || s.outFmt c.shead c.skind != 0) && s.roiOk c

/-! ### The scaler and the formats (R262, R264, R483) -/

/-- OW and OH lie within a factor of 4 of the active area. -/
def State.scaleRange (s : State) (h : Nat) : Bool :=
  let p := s.prof h
  let ow := s.get (F.FP_HOSIZE_OW h)
  let oh := s.get (F.FP_HOSIZE_OH h)
  p.width ≤ 4 * ow && ow ≤ 4 * p.width && p.height ≤ 4 * oh && oh ≤ 4 * p.height

/-- A size is even where the formats in FP_HOUT need it: the width for YUV422 and coding, the height for coding. -/
def State.evenOk (s : State) (h ow oh : Nat) : Bool :=
  let cod := s.get (F.FP_HOUT_COD h) != 0
  ((s.get (F.FP_HOUT_DISP h) != 3 && !cod) || ow % 2 == 0) && (!cod || oh % 2 == 0)

/-- The picture settings of a head obey R262 and R264. -/
def State.pictureOk (s : State) (h : Nat) : Bool :=
  let (ow, oh) := s.outSize h
  (!s.flag (F.FP_HPIPE_SC_EN h) || s.scaleRange h) && s.evenOk h ow oh

/-- Every check of R483 that a head's settings and the enabled subscriptions of it call for holds; a check that needs a
profile fails without one. -/
def State.checks483 (s : State) (h : Nat) : Bool :=
  (if s.hasProf h then s.pictureOk h
   else !s.flag (F.FP_HPIPE_SC_EN h) && s.get (F.FP_HOUT_COD h) == 0 && s.get (F.FP_HOUT_DISP h) != 3) &&
  (s.rings.all fun e => let c := e.2.ctx
    !(c.en && c.kind == 2 && !c.job && c.shead == h) || s.subOk c)

/-- The configuration in force passes every check of R483. -/
def State.configOk (s : State) : Bool := (List.range 8).all fun h => s.checks483 h

/-! ### Which registers a transaction may hold (Table 12-2) -/

/-- The class of a stageable register. -/
inductive StageClass where
  | headSide
  | deviceSide
  | refused
  deriving DecidableEq, Repr

/-- The windowed registers of head `h`: class, address, number of words. TC_REFCFG and TC_SCLK are stored, and refused at
commit (R85). -/
def stageWindow (h : Nat) : List (StageClass × Nat × Nat) :=
  [(.headSide, R.HP_BIAS h, 1), (.headSide, R.HCP_CTRL h, 3), (.headSide, R.HCP_TXBUF h 0, 2048),
   (.deviceSide, R.HP_FRM_CFG h, 2), (.deviceSide, R.TC_CFG h, 1), (.deviceSide, R.TC_GAIN0 h, 1), (.deviceSide, R.TC_GAIN1 h, 1),
   (.refused, R.TC_REFCFG 0 + 0x10000 * h, 2),
   (.deviceSide, R.CL_HCFG h, 2), (.deviceSide, R.CL_HMIR h, 9),
   (.deviceSide, R.CX_HCFG h, 1), (.deviceSide, R.CX_HKNEE h, 1), (.deviceSide, R.CX_HTFIX h, 1), (.deviceSide, R.CX_HFILL h, 1),
   (.deviceSide, R.CX_SCFG h, 1), (.deviceSide, R.CX_SLIM h, 1), (.deviceSide, R.CX_SSCHED h, 1), (.deviceSide, R.CX_RCFG h, 1),
   (.deviceSide, R.CX_DFCFG h, 1), (.deviceSide, R.CX_DHIST h, 1), (.deviceSide, R.CX_SWORK h, 1),
   (.deviceSide, R.FP_HASSIGN h, 17), (.deviceSide, R.FP_RCFG h, 2), (.deviceSide, R.FP_RSA h, 4),
   (.deviceSide, R.ST_HCFG h, 4), (.deviceSide, R.ST_RULE h 0, 1024),
   (.deviceSide, R.EN_HRCP h, 1), (.deviceSide, R.TH_HPOL h, 1)]

/-- The class of a stageable address and the head its window names; the registers outside every head window name none. -/
def stageClass (a : Nat) : Option (StageClass × Option Nat) :=
  if a % 4 ≠ 0 then none
  else
    match (List.range 8).findSome? fun h =>
        ((stageWindow h).find? fun e => e.2.1 ≤ a && a < e.2.1 + 4 * e.2.2).map fun e => (e.1, some h) with
    | some r => some r
    | none =>
      if R.GP_OUT 0 ≤ a ∧ a < R.GP_CLR 0 + 8 then some (.headSide, none)
      else if (List.range 4).any fun v => (List.range 8).any fun j => a == R.TX_S v j then some (.deviceSide, none)
      else none

/-- The port and stream of a TX_Ss address. -/
def txOf (a : Nat) : Option (Nat × Nat) :=
  (List.range 4).findSome? fun v => ((List.range 8).find? fun j => a == R.TX_S v j).map fun j => (v, j)

/-! ### Values (R305 check 3) -/

/-- The word a register stores for a written word: reserved bits 0 (Table 0-3), decimations and PERS of 0 as 1, a DIV
outside 1 to 199 as 199 (R63). -/
def storedWord (h a : Nat) (v : Word) : Word :=
  let w := match regDesc a with | some d => v &&& d.writable | none => 0
  let one := fun (f : Fld) (w : Word) => if fieldOf f w = 0 then withField f 1 w else w
  if a = R.FP_HOUT h then one (F.FP_HOUT_DECD h) (one (F.FP_HOUT_DECC h) (one (F.FP_HOUT_DECM h) w))
  else if R.ST_RULE h 0 ≤ a ∧ a < R.ST_RULE h 1024 then
    let k := (a - R.ST_RULE h 0) / 4 % 4
    if k = 0 then one ⟨a, 8, 8⟩ (w &&& 0xF000FF00)
    else if k = 2 then w &&& 0x7FFFFFFF
    else if k = 3 then w &&& 0x1F1F1F1F
    else w
  else match txOf a with
    | some (p, j) => txStreamWord p j v
    | none => w

/-- The value in force at a device-side register of head `h` is one its chapter accepts. -/
def State.valueOk (s : State) (h a : Nat) : Bool :=
  if a = R.HP_FRM_CFG h then s.get (F.HP_FRM_CFG_SRC h) ≤ 3
  else if a = R.TC_CFG h ∨ a = R.TC_GAIN0 h ∨ a = R.TC_GAIN1 h then
    s.gainsOk h (s.get (F.TC_GAIN0_G h)) (s.get (F.TC_GAIN1_G h)) (s.get (F.TC_CFG_RATIO h))
  else if a = R.CX_HCFG h then s.get (F.CX_HCFG_SHIFT h) ≤ 5
  else if a = R.CX_HKNEE h then
    let ks := s.get (F.CX_HKNEE_KS h)
    let ke := s.get (F.CX_HKNEE_KE h)
    within ks 8193 16367 && within ke (ks + 16) 16383
  else if a = R.CX_SCFG h then s.get (F.CX_SCFG_NINT h) != 0
  else if a = R.CX_RCFG h then s.get (F.CX_RCFG_U h) != 0
  else if a = R.CX_DFCFG h then
    let d := s.get (F.CX_DFCFG_DEPTH h)
    (d == 0 || within d 4 16) && within (s.get (F.CX_DFCFG_ORDER h)) 1 3
  else if a = R.FP_HTONE h then
    s.get (F.FP_HTONE_MODE h) != 3 && s.get (F.FP_HTONE_PLAT h) ≤ 10000 && s.get (F.FP_HTONE_TSH h) ≤ 20
  else if a = R.FP_HTAUTO h then s.get (F.FP_HTAUTO_PLO h) < s.get (F.FP_HTAUTO_PHI h) && s.get (F.FP_HTAUTO_PHI h) ≤ 1000
  else if a = R.FP_HOUT h then
    let d := s.get (F.FP_HOUT_DISP h)
    let c := s.get (F.FP_HOUT_COD h)
    d ≤ 3 && c ≤ 2 && (c == 0 || s.hasProf h) && (!s.hasProf h || (let (ow, oh) := s.outSize h; s.evenOk h ow oh))
  else if a = R.FP_HPIPE h then
    (!s.flag (F.FP_HPIPE_SC_EN h) || s.hasProf h) && (!s.hasProf h || s.pictureOk h)
  else if a = R.FP_HOSIZE h then
    s.hasProf h && s.scaleRange h && s.evenOk h (s.get (F.FP_HOSIZE_OW h)) (s.get (F.FP_HOSIZE_OH h))
  else if a = R.FP_HDBD h then !within (s.get (F.FP_HDBD_NBUF h)) 1 2
  else if a = R.FP_HDBC h then !within (s.get (F.FP_HDBC_NBUF h)) 1 2
  else if a = R.FP_HDBM h then !within (s.get (F.FP_HDBM_NBUF h)) 1 2
  else if a = R.CL_HMIR h then (List.range 4).all fun i => !s.mirrored h i || s.mirPlaced h i
  else if a = R.FP_RCFG h then s.rcfgOk h (s.get ⟨R.FP_RCFG h, 0, 5⟩)
  else if a = R.FP_RSA h ∨ a = R.FP_RSB h ∨ a = R.FP_RMA h ∨ a = R.FP_RMB h then
    s.rbaseOk h ((a - R.FP_RSA h) / 4 % 2) (a = R.FP_RMA h ∨ a = R.FP_RMB h)
  else if a = R.ST_HCFG h then s.get (F.ST_HCFG_HSH h) ≤ 20
  else if a = R.ST_HSBUF h then !within (s.get (F.ST_HSBUF_NSB h)) 1 2
  else if R.ST_RULE h 0 ≤ a ∧ a < R.ST_RULE h 1024 then
    let w := (s.reg a).toNat
    let k := (a - R.ST_RULE h 0) / 4 % 4
    if k = 0 then w / 2 ^ 28 % 4 != 3
    else if k = 3 then w % 32 ≤ w / 2 ^ 16 % 32 && w / 2 ^ 8 % 32 ≤ w / 2 ^ 24 % 32
    else true
  else if a = R.TH_HPOL h then s.get (F.TH_HPOL_D h) != 0
  else match txOf a with
    | some (p, j) => s.get (F.TX_S_KIND p j) != 3
    | none => true

/-- What a commit checks beyond that, against the state `old` before its entries: FPER of a streaming head (R108), loaded
recipe slots (R248), the bases of radiometric copies in use or named by a pending swap (R226). -/
def State.commitValueOk (s old : State) (h a : Nat) : Bool :=
  s.valueOk h a &&
  (if a = R.HP_FPER h then !old.streams h || s.fperValid h
   else if a = R.EN_HRCP h then
     (List.range 4).all fun p => match recipePoint (s.get (F.EN_HRCP_POINTS h)) p with
       | some n => bit (s.get F.EN_RSTAT_LOADED) n
       | none => true
   else if a = R.FP_RSA h ∨ a = R.FP_RSB h then
     let i := (a - R.FP_RSA h) / 4
     let named := i == old.get (F.FP_RSTAT_SEL h) || (old.head h).radPend || (old.head h).txnSwap.contains 2
     !named || s.reg a == old.reg a
   else true)

/-! ### Direct writes (R85, R112, R158, R187, R226, R248, R281, R298, R410) -/

/-- The flag a direct write refused for the mode sets. -/
def refusedFlag (h a : Nat) : Fld :=
  if a < 0x30000 then F.TH_STAT_DIRECT_REFUSED
  else if a < 0x200000 then F.HP_STAT_DIRECT_REFUSED h
  else if a < 0x300000 then F.TC_STAT_DIRECT_REFUSED h
  else if a < 0x340000 then F.CL_HSTAT_DIRECT_REFUSED h
  else if a < 0x400000 then F.CX_HSTAT_DIRECT_REFUSED h
  else if a = R.FP_RCFG h ∨ (R.FP_RSA h ≤ a ∧ a ≤ R.FP_RMB h) then F.FP_RSTAT_DIRECT_REFUSED h
  else if a < 0x480000 then F.FP_HSTAT_DIRECT_REFUSED h
  else if a < 0x500000 then F.ST_HSTAT_DIRECT_REFUSED h
  else F.EN_RSTAT_DIRECT_REFUSED

/-- The flag a direct write refused for its value sets. -/
def rejectFlag (h a : Nat) : Fld :=
  if a < 0x30000 then F.TH_STAT_VALUE_REJ
  else if a < 0x200000 then F.HP_TSTAT_VALUE_REJ h
  else if a < 0x300000 then F.TC_STAT_VALUE_REJ h
  else if a < 0x400000 then F.CX_HSTAT_VALUE_REJ h
  else if a = R.FP_RCFG h ∨ (R.FP_RSA h ≤ a ∧ a ≤ R.FP_RMB h) then F.FP_RSTAT_VALUE_REJ h
  else if a < 0x480000 then F.FP_HSTAT_VALUE_REJ h
  else F.ST_HSTAT_VALUE_REJ h

/-- CX_ registers of chapter 7: a change that reaches a head during an event takes effect after it (R212). -/
def shutterReg (h a : Nat) : Bool :=
  [R.CX_SCFG h, R.CX_SLIM h, R.CX_SSCHED h, R.CX_RCFG h, R.CX_DFCFG h, R.CX_DHIST h, R.CX_SWORK h].contains a

/-- A value takes force at a device-side register of head `h`. -/
def State.takeForce (s : State) (h a : Nat) (v : Word) : State :=
  let w := storedWord h a v
  if a = R.CL_HMIR h then s.setMirrors h (w.toNat % 16)
  else if a = R.FP_RCFG h then s.setRcfg h (w.toNat % 32)
  else if a = R.CL_HCMD h ∨ a = R.FP_RCMD h then s
  else if shutterReg h a && s.shutRunning h then
    s.modShut h fun e => { e with deferred := e.deferred ++ [(a, w)] }
  else
    let t := s.setReg a w
    if a = R.HP_FPER h then t.fperNote h
    else if a = R.TC_CFG h ∨ a = R.TC_GAIN0 h ∨ a = R.TC_GAIN1 h then t.syncGain h
    else match txOf a with
      | some (p, j) =>
        if s.get (F.TX_S_HEAD p j) = t.get (F.TX_S_HEAD p j) ∧ s.get (F.TX_S_KIND p j) = t.get (F.TX_S_KIND p j) ∧ t.txStream p j
        then t
        else t.modPort p fun q => { q with streams := q.streams.modify j fun x => { x with waiting := none } }
      | none => t


/-- A direct write of a device-side register of head `h` that has no row of its own: in SETUP a value its chapter accepts
takes force, any other is refused with VALUE_REJ; in every other mode the write is ignored with DIRECT_REFUSED. -/
def State.directWrite (s : State) (h a : Nat) (v : Word) : State :=
  if s.mode != .setup then s.put (refusedFlag h a) 1
  else if !(s.setReg a (storedWord h a v)).valueOk h a then s.put (rejectFlag h a) 1
  else s.takeForce h a v

end Sys2Proof.Machine
end

