-- ==== Sys2Proof/Machine/Txn.lean ====
section
/-! DEFINITION. Settings transactions (chapter 12): handles and staging, the commit and its checks, head writes, switches,
failure and undo; and the commands of other chapters that touch them. -/

namespace Sys2Proof.Machine

/-! ### Handles (R300) -/

/-- Handle `n` (written from 0). -/
def State.txn (s : State) (n : Nat) : Txn := tabGet s.txns {} n
/-- Change a handle. -/
def State.modTxn (s : State) (n : Nat) (f : Txn → Txn) : State := { s with txns := tabSet s.txns n (f (s.txn n)) }
/-- The state of a handle: 0 FREE, 1 OPEN, 2 COMMITTED, 3 WRITING, 4 SWITCHING, 5 UNDOING (Table 12-1). -/
def State.txnState (s : State) (n : Nat) : Nat := s.get (F.TXN_HSTAT_STATE n)
/-- A listed head of a transaction. -/
def State.txnHead (s : State) (n h : Nat) : Option TxnHead := (s.txn n).heads.find? fun x => x.head == h
/-- Change a listed head. -/
def State.modTxnHead (s : State) (n h : Nat) (f : TxnHead → TxnHead) : State :=
  s.modTxn n fun t => { t with heads := mapIf (fun x => x.head == h) f t.heads }

/-- Accepted transactions that list a head, in order of commit. -/
def State.txnsOn (s : State) (h : Nat) : List Nat := s.txnQ.filter fun n => (s.txnHead n h).isSome

/-- Transaction commands are taken (R315). -/
def State.txnAccess (s : State) : Bool := s.access R.TXN_CMD && s.mode != .safe

/-- A command or staging write is ignored. -/
def State.cmdRej (s : State) : State := s.put F.TXN_OPENRES_CMDREJ 1

/-- A port's place in the per-port latches. -/
def portIx : Port → Nat
  | .pcie => 0
  | .msp => 1

/-- The lowest FREE handle opens (R301): RESULT and HANDLE of the OPEN, with handles numbered from 1; NONE_FREE keeps the
HANDLE shown before. -/
def State.txnOpenNow (s : State) (old : Nat) : (Nat × Nat) × State :=
  match (List.range 16).find? fun n => s.txnState n == 0 with
  | none => ((2, old), s)
  | some n =>
    let s := (s.setReg (R.TXN_HSTAT n) 0).setReg (R.TXN_HINFO n) 0xFFFF0000
    ((1, n + 1), (s.modTxn n fun _ => {}).put (F.TXN_HSTAT_STATE n) 1)

/-- TXN_CMD.OPEN through a register port. -/
def txnOpen (p : Port) (s : State) : State :=
  s.whenever s.txnAccess fun s =>
    let (r, s) := s.txnOpenNow (s.openRes.getD (portIx p) (0, 0)).2
    { s with openRes := s.openRes.set (portIx p) r }

/-- A handle number names an OPEN handle: its place. -/
def State.openHandle (s : State) (handle : Nat) : Option Nat :=
  if 1 ≤ handle ∧ handle ≤ 16 ∧ s.txnState (handle - 1) = 1 then some (handle - 1) else none

/-- Append an entry to a handle (R302). A chip register's address in any block's window names the register (R250). -/
def State.stage (s : State) (handle : Nat) (e : TxnEntry) : State :=
  let e := { e with addr := canonAddr e.addr }
  match s.openHandle handle with
  | none => s.cmdRej
  | some n =>
    let abort := (List.range 8).any fun h => e.addr == R.HCP_CMD h && e.val.toNat.testBit 1
    if (stageClass e.addr).isNone || abort then s.put (F.TXN_HSTAT_SBAD n) 1
    else if 4096 ≤ (s.txn n).entries.length then s.put (F.TXN_HSTAT_SFULL n) 1
    else
      let s := s.modTxn n fun t => { t with entries := t.entries ++ [e] }
      s.put (F.TXN_HSTAT_COUNT n) (s.txn n).entries.length

/-- An entry from TXN_SADDR's layout and its value. -/
def entryOf (sa v : Word) : TxnEntry :=
  { undo := fieldOf F.TXN_SADDR_UNDO sa = 1, head := fieldOf F.TXN_SADDR_HEAD sa, addr := fieldOf F.TXN_SADDR_ADDR sa, val := v }

/-- A write of TXN_SVAL. -/
def txnStage (v : Word) (s : State) : State :=
  s.whenever s.txnAccess fun s => s.stage (s.get F.TXN_SHND_HANDLE) (entryOf (s.reg R.TXN_SADDR) v)

/-! ### Entries -/

/-- An entry of a class that is not an UNDO entry. -/
def TxnEntry.live (e : TxnEntry) (c : StageClass) : Bool :=
  !e.undo && (match stageClass e.addr with | some (c', _) => c' == c | none => false)

/-- The device-side entries of a transaction for a head, in entry order. -/
def Txn.device (t : Txn) (h : Nat) : List TxnEntry := t.entries.filter fun e => e.head == h && e.live .deviceSide
/-- The head-side entries for a head, in entry order. -/
def Txn.writes (t : Txn) (h : Nat) : List TxnEntry := t.entries.filter fun e => e.head == h && e.live .headSide
/-- The head-side UNDO entries for a head, in staged order. -/
def Txn.undos (t : Txn) (h : Nat) : List TxnEntry :=
  t.entries.filter fun e => e.head == h && e.undo && (match stageClass e.addr with | some (c, _) => c == .headSide | none => false)

/-- The swaps an entry asks for: 0 leaf, 1 residual, 2 radiometric set. -/
def TxnEntry.swaps (e : TxnEntry) : List Nat :=
  if e.undo then []
  else if e.addr = R.CL_HCMD e.head then
    (if fieldOf (F.CL_HCMD_LSWAP e.head) e.val = 1 then [0] else []) ++ (if fieldOf (F.CL_HCMD_RSWAP e.head) e.val = 1 then [1] else [])
  else if e.addr = R.FP_RCMD e.head then (if fieldOf (F.FP_RCMD_SWAP e.head) e.val = 1 then [2] else [])
  else []

/-- The swaps of a transaction for a head. -/
def Txn.headSwaps (t : Txn) (h : Nat) : List Nat := (t.entries.filter fun e => e.head == h).flatMap TxnEntry.swaps

/-! ### Commit checks (R305) -/

/-- Heads a TXN_CCFG word lists. -/
def listedHeads (ccfg : Word) : List Nat := (List.range 8).filter fun h => bit (fieldOf F.TXN_CCFG_HEADS ccfg) h

/-- Check 2 for one entry (R303, R85): refused class, a head that differs from its window, its TX_S value or is not listed,
and a stream moved from a head that is not listed. -/
def State.entryBad (s : State) (heads : List Nat) (e : TxnEntry) : Bool :=
  !heads.contains e.head ||
  (match stageClass e.addr with
   | none => true
   | some (.refused, _) => true
   | some (_, some h) => h != e.head
   | some (_, none) => false) ||
  (match txOf e.addr with
   | none => false
   | some (p, j) =>
     fieldOf (F.TX_S_HEAD p j) e.val != e.head ||
     (s.txStream p j && s.get (F.TX_S_HEAD p j) != e.head && !heads.contains (s.get (F.TX_S_HEAD p j))))

/-- The registers now in force as these device-side entries would leave them; earlier transactions that still wait are not counted
(log entry 174, DEDUCED). -/
def State.candidate (s : State) (es : List TxnEntry) : State :=
  es.foldl (fun s e => if e.live .deviceSide then s.setReg e.addr (storedWord e.head e.addr e.val) else s) s

/-- The ports with a refused stream in a candidate that had none before. -/
def State.badPorts (s c : State) : List Nat := (List.range 4).filter fun v => c.portBad v && !s.portBad v

/-- A device-side entry's final state fails check 3. -/
def State.entryValueBad (s c : State) (e : TxnEntry) : Bool :=
  e.live .deviceSide &&
  (!c.commitValueOk s e.head e.addr ||
   (match txOf e.addr with | some (p, j) => c.streamBad p j | none => false) ||
   (e.addr == R.FP_HOUT e.head && (s.badPorts c).any fun v => (List.range 8).any fun j =>
      c.streamBad v j && c.get (F.TX_S_HEAD v j) == e.head))

/-- The index of the first entry that satisfies a predicate. -/
def firstEntry (p : TxnEntry → Bool) (es : List TxnEntry) : Option Nat := es.findIdx? p

/-- Checks 2 and 3: result code of Table 12-3 and ENTRY; 0 when they pass. -/
def State.commitEntries (s c : State) (heads : List Nat) (es : List TxnEntry) : Nat × Nat :=
  if heads.isEmpty then (4, 0xFFFF)
  else match firstEntry (s.entryBad heads) es with
    | some i => (4, i)
    | none => match firstEntry (s.entryValueBad c) es with
      | some i => (3, i)
      | none => if c.configOk then (0, 0xFFFF) else (3, 0xFFFF)

/-- A register whose change the planner evaluates (R37, R248). -/
def planned (h a : Nat) : Bool :=
  [R.HP_FRM_CFG h, R.HP_FPER h, R.FP_HASSIGN h, R.FP_HOUT h, R.FP_HPIPE h, R.FP_HOSIZE h, R.EN_HRCP h].contains a

/-- The commit needs an evaluation (check 4). -/
def State.commitPlans (s c : State) (es : List TxnEntry) : Bool :=
  es.any fun e => e.live .deviceSide && planned e.head e.addr && s.reg e.addr != c.reg e.addr

/-- The enabled ports whose load a candidate changes (R279). -/
def State.loadPorts (s c : State) : List Nat :=
  (List.range 4).filter fun v => s.flag (F.TX_CFG_EN v) &&
    ((List.range 8).any fun j => s.reg (R.TX_S v j) != c.reg (R.TX_S v j) || (c.txStream v j &&
      (let h := c.get (F.TX_S_HEAD v j)
       [R.FP_HOUT h, R.FP_HPIPE h, R.FP_HOSIZE h, R.HP_FPER h].any fun a => s.reg a != c.reg a)))

/-- Check 5: the loads are shown, and a port over L is refused. -/
def State.commitLoads (s c : State) : Bool × State :=
  (s.loadPorts c).foldl (fun (acc : Bool × State) v =>
    let s := acc.2.showLoad v c
    if c.txOver v then (false, s.put (F.TX_STAT_CFGRES v) 2) else (acc.1, s.put (F.TX_STAT_CFGRES v) 1)) (true, s)


/-- The acceptance of a swap against the registers of `c` (R156, R157, R225): a code of Table 5-6, 2 when it is accepted and
M5 is granted. -/
def State.acceptSwap (s c : State) (h kind t : Nat) : Nat × State :=
  if s.swapPending h kind then (6, s.put (swapRes h kind) 6)
  else
    let code := if kind = 2 then c.radCheck h (1 - s.get (F.FP_RSTAT_SEL h)) else c.swapCheck h (c.swapTarget h kind)
    if code ≠ 0 then (code, s.swapRefuse h kind code)
    else match s.churnAsk .m5 (3 * h + kind) false t with
      | (.granted, s) => (2, (s.put (swapRes h kind) 2).modHead h fun u => { u with txnSwap := u.txnSwap ++ [kind] })
      | (_, s) => (6, s.put (swapRes h kind) 6)

/-- A swap accepted for a transaction is given up: M5 ends. What SWAPRES then shows is not stated: a free value. -/
def State.dropSwap (s : State) (h kind : Nat) : State :=
  let (v, s) := s.freshUpTo 15
  ((s.put (swapRes h kind) v).modHead h fun u => { u with txnSwap := u.txnSwap.filter (· != kind) }).churnDone .m5 (3 * h + kind)

/-- Check 6 over the swap entries: result, ENTRY, the swaps granted. -/
def State.commitSwaps (s c : State) (t : Nat) (es : List (TxnEntry × Nat)) : (Nat × Nat) × List (Nat × Nat) × State :=
  es.foldl (fun acc ei =>
    let (e, i) := ei
    e.swaps.foldl (fun (acc : (Nat × Nat) × List (Nat × Nat) × State) kind =>
      if acc.1.1 ≠ 0 then acc
      else match acc.2.2.acceptSwap c e.head kind t with
        | (2, s) => ((0, 0xFFFF), acc.2.1 ++ [(e.head, kind)], s)
        | (6, s) => ((0xE, i), acc.2.1, s)
        | (_, s) => ((3, i), acc.2.1, s)) acc) ((0, 0xFFFF), [], s)

/-- Check 7: four transactions pending on a head, or a full GEN. -/
def State.commitRoom (s : State) (heads : List Nat) : Nat :=
  if heads.any fun h => 4 ≤ ((s.txnsOn h).filter fun n => 2 ≤ s.txnState n && s.txnState n ≤ 4).length then 5
  else if heads.any fun h => (s.head h).gen = 0xFFFFFFFF then 0xD
  else 0

/-! ### Head writes (R51, R68, R308) -/

/-- The GP word of an address and the bits it writes: set to the value's bits for GP_OUT, set for GP_SET, cleared for GP_CLR. -/
def gpEntry (a : Nat) (v : Word) : Option (Nat × Nat × (Nat → Nat)) :=
  let w := v.toNat
  (List.range 2).findSome? fun i =>
    if a = R.GP_OUT i then some (i, 0xFFFFFFFF, fun _ => w)
    else if a = R.GP_SET i then some (i, w, fun x => x ||| w)
    else if a = R.GP_CLR i then some (i, w, fun x => x &&& (0xFFFFFFFF - w))
    else none

/-- Before an entry runs: the first of the transaction keeps the GP outputs and every HP_BIAS as they are, and each notes what it
is about to write, for the undo (R312). -/
def State.saveFor (s : State) (n h a : Nat) (v : Word) : State :=
  let s := if (s.txn n).gpWas.isSome then s
    else s.modTxn n fun t => { t with
      gpWas := some ((List.range 2).map fun i => (s.reg (R.GP_OUT i)).toNat)
      biasWas := (List.range 8).map fun g => (s.get (F.HP_BIAS_VBIAS g), s.get (F.HP_BIAS_VSKIM g)) }
  if a = R.HP_BIAS h then s.modTxnHead n h fun x => { x with bias := true }
  else match gpEntry a v with
    | some (i, m, _) => s.modTxnHead n h fun x => { x with gp := x.gp.set i (x.gp.getD i 0 ||| m) }
    | none => s

/-- HCP_CTRL as it is stored: DIV 0 and 200 to 255 as 199 (Table 2-19). -/
def hcpCtrlWord (h : Nat) (v : Word) : Word :=
  let w := match regDesc (R.HCP_CTRL h) with | some d => v &&& d.writable | none => 0
  let d := w.toNat % 256
  if d = 0 ∨ 200 ≤ d then withField ⟨0, 0, 8⟩ 199 w else w

/-- A head-side entry runs. A GO starts a transfer. -/
def State.headEntry (s : State) (h : Nat) (e : TxnEntry) : State :=
  if e.addr = R.HP_BIAS h then s.storeBias h (e.val.toNat / 65536) (e.val.toNat % 65536)
  else if e.addr = R.HCP_CTRL h then s.setReg e.addr (hcpCtrlWord h e.val)
  else if e.addr = R.HCP_CMD h then (if e.val.toNat.testBit 0 then s.hcpStart h true else s)
  else match gpEntry e.addr e.val with
    | some (i, _, f) => s.setReg (R.GP_OUT i) (BitVec.ofNat 32 (f (s.reg (R.GP_OUT i)).toNat))
    | none => s.setReg e.addr (match regDesc e.addr with | some d => e.val &&& d.writable | none => 0)

/-- Run a head's entries in order, up to a transfer; whether the sequence has ended. -/
def State.txnRun (s : State) (n h : Nat) : List TxnEntry → State × Bool
  | [] => (s.modTxnHead n h fun x => { x with left := [] }, true)
  | e :: es =>
    let s := if s.txnState n = 5 then s else s.saveFor n h e.addr e.val
    let s := s.headEntry h e
    if e.addr = R.HCP_CMD h ∧ e.val.toNat.testBit 0 then
      let err := s.get ⟨R.HCP_STAT h, 16, 4⟩
      if (s.head h).hcp.isSome then (s.modTxnHead n h fun x => { x with left := es, waiting := true }, false)
      else if err = 0 then s.txnRun n h es
      else (s.modTxnHead n h fun x => { x with left := es, waiting := true, err := err }, false)
    else s.txnRun n h es

/-! ### Ends and switches (R308, R311) -/

/-- A transaction's ring command is answered (R311). -/
def State.txnPost (s : State) (n code : Nat) : State :=
  let t := s.txn n
  if t.posted then s
  else
    let s := s.modTxn n fun t => { t with posted := true }
    match t.cmd with
    | some (ring, tag) => s.finishCmd ring tag 0 code (s.get (F.TXN_HINFO_ENTRY n))
    | none => s

/-- The device-side entries of a transaction for a head that change the converters early (R85). -/
def Txn.pgaEntries (t : Txn) (h : Nat) : List TxnEntry :=
  (t.device h).filter fun e => e.addr == R.TC_CFG h || e.addr == R.TC_GAIN0 h || e.addr == R.TC_GAIN1 h

/-- A transaction ends before the switch of a head whose converters have its gain and filter settings already: the settings in
force return, and what settles then is marked (R80, R85, R312). -/
def State.pgaRevert (s : State) (n h : Nat) : State :=
  let u := s.head h
  if u.pgaDone && u.pgaHandle == n then
    (s.modHead h fun u => { u with pgaDone := false }).settleMarks ((s.candidate ((s.txn n).pgaEntries h)).syncGain h) h s.dt
  else s

/-- A transaction ends with a result: swaps not made are given up, ports it owns are released, the handle is FREE. -/
def State.txnEnd (s : State) (n code : Nat) : State :=
  let t := s.txn n
  let s := t.heads.foldl (fun s x =>
    let s := if x.switched then s else (t.headSwaps x.head).foldl (fun s k => s.dropSwap x.head k) (s.pgaRevert n x.head)
    if (s.head x.head).hcpOwner = n + 1 then
      (s.modHead x.head fun u => { u with hcpOwner := 0 }).put (F.HCP_STAT_OWNER x.head) 0
    else s) s
  let s := (s.put (F.TXN_HSTAT_RESULT n) code).txnPost n code
  let s : State := { s with txnQ := s.txnQ.filter (· != n) }
  (s.modTxn n fun _ => {}).put (F.TXN_HSTAT_STATE n) 0

/-- Alarm rules whose words an entry changes (R293). -/
def ruleOf (h a : Nat) : Option Nat :=
  if R.ST_RULE h 0 ≤ a ∧ a < R.ST_RULE h 1024 then some ((a - R.ST_RULE h 0) / 16) else none

/-- The device-side switch of a head (R308, R310): its entries take effect together, its swaps are made, GEN rises. -/
def State.txnSwitch (s : State) (n h t : Nat) : State :=
  let tx := s.txn n
  let old := s
  let es := tx.device h
  let s := es.foldl (fun s e =>
    let rule := match ruleOf h e.addr with
      | some r => if s.reg e.addr = storedWord h e.addr e.val then none else some r
      | none => none
    let s := s.takeForce h e.addr e.val
    match rule with
    | some r => s.modAlarm h fun a => { a with resets := a.resets ++ [r] }
    | none => s) s
  let s := if (s.head h).pgaDone then s.modHead h fun u => { u with pgaDone := false } else s.settleMarks old h t
  let s := (tx.headSwaps h).foldl (fun s k =>
    let s := if k = 2 then s.radSwapNow h else s.swapNow h k
    ((s.put (swapRes h k) 1).modHead h fun u => { u with txnSwap := u.txnSwap.filter (· != k) }).churnDone .m5 (3 * h + k)) s
  let s := s.modHead h fun u => { u with gen := u.gen + 1 }
  let s := (s.modTxnHead n h fun x => { x with switched := true }).put (F.TXN_HSTAT_STATE n) 4
  if (s.txn n).heads.all fun x => x.switched then s.txnEnd n 1 else s

/-- The head writes of a transaction have all finished: SWITCHING, and an EARLY completion (R309, R311). -/
def State.txnWritesDone (s : State) (n : Nat) : State :=
  let t := s.txn n
  if t.heads.all (fun x => x.done) && 2 ≤ s.txnState n && s.txnState n ≤ 4 then
    let s := s.put (F.TXN_HSTAT_STATE n) 4
    if fieldOf F.TXN_CCFG_EARLY t.ccfg = 1 then (s.put (F.TXN_HSTAT_RESULT n) 1).txnPost n 1 else s
  else s

/-- Put a head's HP_BIAS and the GP bits it wrote back to what they were before the transaction's first entry (R312). -/
def State.restoreFor (s : State) (n : Nat) (x : TxnHead) : State :=
  let t := s.txn n
  let was := t.biasWas.getD x.head (0, 0)
  let s := if x.bias then s.storeBias x.head was.1 was.2 else s
  (List.range 2).foldl (fun s i =>
    let m := x.gp.getD i 0
    let v := (t.gpWas.getD []).getD i 0
    if m = 0 then s
    else s.setReg (R.GP_OUT i) (BitVec.ofNat 32 (((s.reg (R.GP_OUT i)).toNat &&& (0xFFFFFFFF - m)) ||| (v &&& m)))) s

/-- The port's owner lets it go. -/
def State.txnRelease (s : State) (h : Nat) : State :=
  (s.modHead h fun u => { u with hcpOwner := 0 }).put (F.HCP_STAT_OWNER h) 0

/-- The switches of listed heads that do not stream (R304): each as soon as every listed head's head writes have finished (R309)
and every earlier transaction on it has switched (R306). -/
def State.txnIdle (s : State) (t : Nat) : State :=
  s.txnQ.foldl (fun s n =>
    if s.txnState n = 5 || !((s.txn n).heads.all fun x => x.done) then s
    else (s.txn n).heads.foldl (fun s x =>
      let earlier := (s.txnsOn x.head).takeWhile (· != n)
      let waits := earlier.any fun m => match s.txnHead m x.head with | some y => !y.switched | none => false
      if !x.idle || x.switched || waits then s else s.txnSwitch n x.head t) s) s

/-- A sequence of a head has ended: head writes are done, or its undo. -/
def State.txnSeqEnd (s : State) (n h : Nat) : State :=
  match s.txnHead n h with
  | none => s
  | some x =>
    let s := s.txnRelease h
    if s.txnState n = 5 then (s.restoreFor n x).modTxnHead n h fun x => { x with undone := true }
    else ((s.modTxnHead n h fun x => { x with done := true }).txnWritesDone n).txnIdle s.dt

/-- The transaction that takes a free port next: an undo of the latest commit, else head writes of the earliest. -/
def State.txnNext (s : State) (h : Nat) : Option Nat :=
  let l := s.txnQ.filter fun n => match s.txnHead n h with | some x => x.queued | none => false
  match (l.filter fun n => s.txnState n = 5).getLast? with
  | some n => some n
  | none => l.head?

/-- Give a free port to the sequences that wait for it. -/
def State.txnPump (s : State) (h : Nat) : Nat → State
  | 0 => s
  | k + 1 =>
    if (s.head h).hcpOwner ≠ 0 then s
    else match s.txnNext h with
      | none => s
      | some n =>
        let s := (s.modHead h fun u => { u with hcpOwner := n + 1 }).put (F.HCP_STAT_OWNER h) 1
        let busy := (s.head h).hcp.isSome
        let s := s.modTxnHead n h fun x => { x with queued := false, began := true, waitOld := busy }
        if busy then s
        else match s.txnRun n h (match s.txnHead n h with | some x => x.left | none => []) with
          | (s, true) => (s.txnSeqEnd n h).txnPump h k
          | (s, false) => s

/-- A transfer of the port has ended: its owner goes on, or has failed (R312, R313). -/
def State.txnTransferEnd (s : State) (h : Nat) : State :=
  match (s.head h).hcpOwner with
  | 0 => s
  | n + 1 =>
    match s.txnHead n h with
    | none => s
    | some x =>
      let err := s.get ⟨R.HCP_STAT h, 16, 4⟩
      if x.waitOld || (x.waiting && err == 0) then
        match (s.modTxnHead n h fun x => { x with waitOld := false, waiting := false }).txnRun n h x.left with
        | (s, true) => (s.txnSeqEnd n h).txnPump h 32
        | (s, false) => s
      else if x.waiting then s.modTxnHead n h fun x => { x with err := err }
      else s

/-! ### Failure and undo (R306, R307, R312, R313) -/

/-- Give the port on, and end an undo whose transfer has ended in error (R313). -/
def State.txnSettle (s : State) (h : Nat) : Nat → State
  | 0 => s
  | k + 1 =>
    let s := s.txnPump h 32
    match (s.head h).hcpOwner with
    | 0 => s
    | n + 1 =>
      match s.txnHead n h with
      | some x =>
        if s.txnState n = 5 ∧ x.waiting ∧ x.err ≠ 0 then
          ((s.txnRelease h).modTxnHead n h fun x => { x with waiting := false, undone := true, undoBad := true }).txnSettle h k
        else s
      | none => s

/-- The head writes of one transaction stop and its undo is asked for on each listed head whose writes had begun, a head that
has switched among them (R312, R314). -/
def State.txnUndo (s : State) (n code : Nat) : State :=
  let s := (s.txn n).heads.foldl (fun s x => if x.switched then s else s.pgaRevert n x.head) s
  let s := (s.modTxn n fun t => { t with endRes := code }).put (F.TXN_HSTAT_STATE n) 5
  (s.txn n).heads.foldl (fun s x =>
    let h := x.head
    if !x.began then
      let s := if (s.head h).hcpOwner = n + 1 then s.txnRelease h else s
      s.modTxnHead n h fun x => { x with queued := false, undone := true }
    else
      let us := (s.txn n).undos h
      let mine := (s.head h).hcpOwner == n + 1
      let busy := (s.head h).hcp.isSome
      let s := s.modTxnHead n h fun x =>
        { x with left := us, waiting := false, err := 0, queued := !mine, waitOld := mine && busy }
      if mine && !busy then
        match s.txnRun n h us with
        | (s, true) => s.txnSeqEnd n h
        | (s, false) => s
      else s) s

/-- A transaction ends without having been applied on every head: with an undo where head writes had begun. -/
def State.txnStopOne (s : State) (n code : Nat) : State :=
  if !s.txnQ.contains n || s.txnState n = 5 then s
  else if (s.txn n).heads.any fun x => x.began then s.txnUndo n code
  else s.txnEnd n code

/-- The later transactions that share a head with a failed one, directly or through each other. -/
def State.dependents (s : State) (n : Nat) : List Nat :=
  let later := (s.txnQ.dropWhile (· != n)).drop 1
  let heads := fun m => (s.txn m).heads.map TxnHead.head
  (later.foldl (fun (acc : List Nat × List Nat) m =>
    if s.txnState m != 5 && (heads m).any acc.2.contains then (acc.1 ++ [m], acc.2 ++ heads m) else acc) ([], heads n)).1

/-- The transactions that depend on a failed one end too, the latest first (R306). -/
def State.txnDependents (s : State) (n : Nat) : State := (s.dependents n).reverse.foldl (fun s m => s.txnStopOne m 0xA) s

/-- Free ports are given on, and what waited for a transaction that has ended goes on. -/
def State.txnGoOn (s : State) : State := (s.forEach 8 (fun _ => true) fun h s => s.txnSettle h 32).txnIdle s.dt

/-- A transaction ends in failure before it is applied, and those that depend on it with it (R306, R307, R314). -/
def State.txnStop (s : State) (n code : Nat) : State :=
  if !s.txnQ.contains n || s.txnState n = 5 then s
  else ((s.txnDependents n).txnStopOne n code).txnGoOn

/-- A head write of a transaction fails (R312): the transactions that depend on it end too (R306). -/
def State.txnFail (s : State) (n h reason : Nat) : State :=
  if s.txnState n = 5 then s
  else
    let s := ((s.put (F.TXN_HSTAT_FAILV n) 1).put (F.TXN_HSTAT_FAILHEAD n) h).put (F.TXN_HINFO_REASON n) reason
    ((s.txnDependents n).txnUndo n 9).txnGoOn

/-- A head stops streaming: a transaction it has not switched ends with ABORTED and is undone (R314, R387). -/
def State.txnHeadStopped (s : State) (h : Nat) : State :=
  (s.txnsOn h).reverse.foldl (fun s n =>
    match s.txnHead n h with
    | some x => if x.switched || x.idle || s.txnState n = 5 then s else s.txnStop n 0xC
    | none => s) s

/-- An OPEN handle is freed; a ring COMMIT that waits for the planner is answered with ABORTED (R314). -/
def State.txnFree (s : State) (n : Nat) : State :=
  let cmd := (s.txn n).cmd
  let s := (s.modTxn n fun _ => {}).put (F.TXN_HSTAT_STATE n) 0
  match cmd with
  | some (ring, tag) => s.finishCmd ring tag 0 0xC 0xFFFF
  | none => s

/-- Entry to SAFE frees every handle and runs no undo (R314). -/
def State.txnAbortAll (s : State) : State :=
  let s := s.txnQ.foldl (fun s n => s.txnEnd n 0xC) s
  s.forEach 16 (fun n => s.txnState n == 1) fun n s => s.txnFree n


/-- Every head of an undoing transaction has ended its undo (R312, R313): the result, and a UC with the head HELD from its
next frame start for each head whose undo failed. Transactions committed on its heads while it ran end as the earlier
dependents did (R306). -/
def txnUndoDone (n : Nat) (ok : Bool) (s : State) : State :=
  let hs := (s.txn n).heads
  s.whenever (s.txnState n == 5 && hs.all (fun x => x.undone) && ok == !hs.any fun x => x.undoBad) fun s =>
    let s := s.txnDependents n
    let s := if ok then s.txnEnd n (s.txn n).endRes
      else
        let s := (hs.filter fun x => x.undoBad).foldl (fun s x =>
          (s.raise (20 + x.head) .uc (detailWord 0xFF 16 0x04C)).modHead x.head fun u => { u with portHeld := true, resume := false }) s
        s.txnEnd n 0xB
    s.txnGoOn

/-- A head write has failed: its transfer has ended with an error, or the head's supply has disconnected (R74, R312). -/
def txnHeadWriteFail (n h : Nat) (s : State) : State :=
  match s.txnHead n h with
  | none => s
  | some x =>
    let lost := (s.head h).supLost
    let bad := x.waiting && x.err != 0
    s.whenever ((s.txnState n == 2 || s.txnState n == 3) && x.began && !x.done && (bad || lost)) fun s =>
      s.txnFail n h (if bad then x.err else 0xF)

/-! ### Boundaries (R304, R306) -/

/-- Frame k of a head is known. A head without head writes has none to make (R309). -/
def State.txnClaim (s : State) (n h k : Nat) : State :=
  (s.modTxnHead n h fun x => { x with k := some k }).txnWritesDone n

/-- The DT at which the head's next frame is known to start: a pending start, or the internal timer's. -/
def State.nextStart (s : State) (h : Nat) : Option Nat :=
  let u := s.head h
  match u.startPending with
  | some p => some p
  | none => if s.get (F.HP_FRM_CFG_SRC h) = 0 ∧ !(s.prof h).headTimed then u.lastStart.map (· + s.fperNs h) else none

/-- In the blanking now running, the next frame of the head is the frame k of a MARK transaction: the mark's effect instant
is past or at the latest at the next frame start; or the head starts on that stream and its next mark is MSEQ. -/
def State.markNext (s : State) (t : Txn) (h now : Nat) : Bool :=
  let next := s.nextStart h
  match t.effect with
  | some e => e ≤ now || (match next with | some p => e ≤ p | none => false)
  | none =>
    s.get (F.HP_FRM_CFG_SRC h) == 1 && s.get (F.HP_FRM_CFG_SEL h) == fieldOf F.TXN_CCFG_MSTREAM t.ccfg &&
    next.isNone && (match s.ring.markSeq.getD (fieldOf F.TXN_CCFG_MSTREAM t.ccfg) none with
      | some l => (l + 1) % 32 == fieldOf F.TXN_CCFG_MSEQ t.ccfg
      | none => false)

/-- A transaction commits to a mark. -/
def Txn.mark (t : Txn) : Bool := fieldOf F.TXN_CCFG_MODE t.ccfg == 1

/-- The head's blanking that began at `b` is the one before frame k of the oldest transaction still without a frame k there
(R304, R306, R307). -/
def State.txnAssign (s : State) (h now : Nat) : State :=
  match (s.head h).blankFrom with
  | none => s
  | some b =>
    let k := (s.head h).starts + 1
    let open_ : List Nat := (s.txnsOn h).filter fun n => s.txnState n != 5 && (match s.txnHead n h with
      | some x => !x.idle && x.k.isNone | none => false)
    let taken := (s.txnsOn h).any fun n => match s.txnHead n h with | some x => x.k == some k | none => false
    match open_ with
    | [] => s
    | n :: _ =>
      let t := s.txn n
      if taken then s
      else if !t.mark then (if t.accAt < b then s.txnClaim n h k else s)
      else if !s.markNext t h now then s
      else if b < t.accAt && !(t.writes h).isEmpty then s.txnStop n 6
      else s.txnClaim n h k

/-- The first line of the head's accepted start `k` starts: head writes before that frame that have not finished fail (R68,
R312). -/
def State.txnFirstLine (s : State) (h : Nat) : State :=
  let k := (s.head h).starts
  (s.txnsOn h).foldl (fun s n =>
    match s.txnHead n h with
    | none => s
    | some x => if s.txnState n = 5 || x.switched || x.done || !x.k.any (· ≤ k) then s else s.txnFail n h 0xF) s

/-- The frame that starts now is accepted start `k` of the head: MARK transactions whose instant has come take it as their
frame k, head writes that have not finished fail where its first line starts with it, and switches due are made (R307 to
R309, R312). -/
def State.txnFrameStart (s : State) (h t : Nat) : State :=
  let k := (s.head h).starts
  let s := match (s.txnsOn h).find? fun n => s.txnState n != 5 && (match s.txnHead n h with
      | some x => !x.idle && x.k.isNone | none => false) with
    | some n =>
      let tx := s.txn n
      let taken := (s.txnsOn h).any fun n => match s.txnHead n h with | some x => x.k == some k | none => false
      let due := tx.mark && !taken && (match tx.effect with | some e => e ≤ t | none => false)
      if !due then s
      else
        let late : Bool := match (s.head h).blankFrom with | some b => decide (b < tx.accAt) | none => true
        if late && !(tx.writes h).isEmpty then s.txnStop n 6 else s.txnClaim n h k
    | none => s
  let s := if (s.prof h).headTimed then s else s.txnFirstLine h
  let s := (s.txnsOn h).foldl (fun s n =>
    match s.txnHead n h with
    | none => s
    | some x =>
      match x.k with
      | none => s
      | some j =>
        if s.txnState n = 5 ∨ x.switched then s
        else if j + (s.prof h).setlat = k then
          match (s.txn n).heads.find? fun (y : TxnHead) => !y.done with
          | some y => s.txnFail n y.head 0xF
          | none => s.txnSwitch n h t
        else s) s
  (s.txnIdle t).put (F.TXN_GEN_GEN h) (s.head h).gen

/-- Head writes begin in the blanking before frame k (R68, R308). -/
def txnHeadWritesStart (n h t : Nat) (s : State) : State :=
  match s.txnHead n h, (s.head h).blankFrom with
  | some x, some b =>
    s.whenever ((s.txnState n == 2 || s.txnState n == 3) && x.k == some ((s.head h).starts + 1) && !x.began && !x.done &&
        !x.queued && b ≤ t) fun s =>
      let s := (s.at t).put (F.TXN_HSTAT_STATE n) 3
      (s.modTxnHead n h fun x => { x with queued := true }).txnSettle h 32
  | _, _ => s

/-! ### Marks and deadlines (R307) -/

/-- MARK transactions follow a received mark: its instant becomes known, or a gap passes over MSEQ. -/
def State.txnMark (s : State) (stream seq : Nat) (gap : List Nat) (instant now : Nat) : State :=
  let l := s.txnQ.filter fun n =>
    let t := s.txn n
    t.mark && fieldOf F.TXN_CCFG_MSTREAM t.ccfg == stream && t.effect.isNone && (s.txnState n == 2 || s.txnState n == 3 || s.txnState n == 4)
  let s := l.foldl (fun s n =>
    let q := fieldOf F.TXN_CCFG_MSEQ (s.txn n).ccfg
    if gap.contains q then s.txnStop n 7
    else if q = seq then s.modTxn n fun t => { t with effect := some instant }
    else s) s
  s.forEach 8 (fun _ => true) fun h s => s.txnAssign h now

/-- A MARK character (R126, R127). -/
def ringMarkReceived (stream seq t : Nat) (s : State) : State :=
  s.whenever s.ringRx fun s =>
    let gap := skipped (s.ring.markSeq.getD stream none) seq
    let e := s.effectInstant t
    (s.markReceived stream seq t).txnMark stream seq gap (max t e.toNat) t

/-- The effect instant of a mark arrives (R107, R126). -/
def markEffect (stream seq t : Nat) (s : State) : State :=
  match s.ring.marks.find? fun m => !m.trig && m.stream == stream && m.seq == seq && m.instant ≤ t with
  | none => s
  | some m =>
    let s := (s.at t).modRing fun g => { g with marks := g.marks.erase m }
    (s.markNow stream m.instant).forEach 8 (fun _ => true) fun h s => s.txnAssign h t

/-- The deadline of a transaction (R307): no listed head's blanking before its frame k has begun. A head that does not stream has
no frame k; what it has taken at acceptance stays (log entry 165). -/
def txnDeadline (n t : Nat) (s : State) : State :=
  let tx := s.txn n
  let ms := fieldOf F.TXN_CCFG_DLMS tx.ccfg
  s.whenever (2 ≤ s.txnState n && s.txnState n ≤ 4 && ms != 0 && tx.accAt + ms * 1000000 ≤ t &&
      tx.heads.all (fun x => x.k.isNone) && tx.heads.any fun x => !x.idle) fun s => (s.at t).txnStop n 8

/-! ### Commit and rollback (R304, R305, R314) -/

/-- A commit is refused: the handle stays OPEN. -/
def State.txnRefuse (s : State) (n code entry reason : Nat) : State :=
  let cmd := (s.txn n).cmd
  let s := ((s.put (F.TXN_HSTAT_RESULT n) code).put (F.TXN_HINFO_ENTRY n) entry).put (F.TXN_HINFO_REASON n) reason
  let s := s.modTxn n fun t => { t with planWait := false, cmd := none }
  match cmd with
  | some (ring, tag) => s.finishCmd ring tag 0 code entry
  | none => s

/-- A commit is accepted. Listed heads that are not streaming begin at once (R304). -/
def State.txnAccept (s : State) (n t : Nat) : State :=
  let tx := s.txn n
  let hs : List TxnHead := (listedHeads tx.ccfg).map fun h =>
    { head := h, idle := !s.streams h, left := tx.writes h, done := (tx.writes h).isEmpty }
  let s := s.modTxn n fun x => { x with accAt := t, heads := hs, planWait := false, posted := false, effect := none }
  let s : State := { s with txnQ := s.txnQ ++ [n] }
  let s := ((s.put (F.TXN_HSTAT_RESULT n) 0).put (F.TXN_HSTAT_FAILV n) 0).put (F.TXN_HSTAT_FAILHEAD n) 0
  let s := (s.setReg (R.TXN_HINFO n) 0xFFFF0000).put (F.TXN_HSTAT_STATE n) 2
  let s := (hs.filter fun x => x.idle && !x.done).foldl (fun s x =>
    let s := s.put (F.TXN_HSTAT_STATE n) 3
    (s.modTxnHead n x.head fun y => { y with queued := true }).txnSettle x.head 32) s
  s.txnIdle t

/-- Checks 5 to 7 of a commit whose entries and load are admitted, then acceptance. -/
def State.txnDecide (s : State) (n t : Nat) : State :=
  let tx := s.txn n
  let heads := listedHeads tx.ccfg
  let c := s.candidate tx.entries
  match s.commitLoads c with
  | (false, s) => s.txnRefuse n 2 0xFFFF 0x80
  | (true, s) =>
    match s.commitSwaps c t (tx.entries.zip (List.range tx.entries.length)) with
    | ((0, _), granted, s) =>
      match s.commitRoom heads with
      | 0 => s.txnAccept n t
      | code => (granted.foldl (fun s g => s.dropSwap g.1 g.2) s).txnRefuse n code 0xFFFF 0
    | ((code, entry), granted, s) => (granted.foldl (fun s g => s.dropSwap g.1 g.2) s).txnRefuse n code entry 0

/-- A refused stream is reported by its port (R274). -/
def State.showBadPorts (s c : State) : State := (s.badPorts c).foldl (fun s v => s.put (F.TX_STAT_CFGRES v) 3) s

/-- A commit of an OPEN handle: checks 2 and 3, then the planner where the commit needs it, else the rest at once. -/
def State.txnCommitNow (s : State) (n : Nat) (ccfg : Word) (cmd : Option (Nat × Nat)) (t : Nat) : State :=
  let s := s.modTxn n fun x => { x with ccfg := ccfg, cmd := cmd }
  let es := (s.txn n).entries
  let c := s.candidate es
  match s.commitEntries c (listedHeads ccfg) es with
  | (0, _) =>
    if s.commitPlans c es then (s.modTxn n fun x => { x with planWait := true }).planAsk { kind := .commit, arg := n }
    else s.txnDecide n t
  | (code, entry) => (if code = 3 then s.showBadPorts c else s).txnRefuse n code entry 0

/-- What a commit does with the answer of its evaluation (R305). -/
def State.txnAnswer (s : State) (n t : Nat) (a : Nat × PlanResult) : State :=
  let s := s.planShow a.2
  if a.1 = 0 then s.txnDecide n t else s.txnRefuse n 2 0xFFFF a.1

/-- The evaluation a commit waits for has ended (R41, R305). -/
def State.txnPlanned (s : State) (n t : Nat) : State :=
  let tx := s.txn n
  if s.txnState n ≠ 1 || !tx.planWait then s.planPublish 0 0 none
  else
    let c := s.candidate tx.entries
    match s.commitEntries c (listedHeads tx.ccfg) tx.entries with
    | (0, _) =>
      s.txnAnswer n t (s.planAction c s.streamMask)
    | (code, entry) => (s.planPublish 0 0 none).txnRefuse n code entry 0

/-- TXN_CMD.COMMIT. -/
def txnCommit (handle t : Nat) (s : State) : State :=
  s.whenever s.txnAccess fun s =>
    let s := (s.at t).put F.TXN_CMD_HANDLE handle
    match s.openHandle handle with
    | some n => if (s.txn n).planWait then s.cmdRej else s.txnCommitNow n (s.reg R.TXN_CCFG) none t
    | none => s.cmdRej

/-- A handle is rolled back in OPEN or COMMITTED (R314). -/
def State.rollback (s : State) (handle : Nat) : State :=
  if handle = 0 ∨ 16 < handle then s.cmdRej
  else
    let n := handle - 1
    if s.txnState n = 1 then s.txnFree n
    else if s.txnState n = 2 then s.txnEnd n 0xC
    else s.cmdRej

/-- TXN_CMD.ROLLBACK. -/
def txnRollback (handle : Nat) (s : State) : State :=
  s.whenever s.txnAccess fun s => (s.put F.TXN_CMD_HANDLE handle).rollback handle

/-! ### Commands of other chapters that a transaction follows -/

/-- Vertical blanking begins: transactions find their frame k (R304). -/
def vblankTxn (h t : Nat) (s : State) : State :=
  let before := (s.head h).blankFrom
  let s := vblankStart h t s
  if before.isNone && (s.head h).blankFrom.isSome then s.txnAssign h t else s

/-- A transfer ends, and its transaction goes on (R68). -/
def State.txnAfter (s : State) (old : State) (h : Nat) : State :=
  if (old.head h).hcp.isSome && (s.head h).hcp.isNone then (s.txnTransferEnd h).txnSettle h 32 else s

/-- The open transaction whose switch of a head is due at the head's next frame start, its head writes' frame k known
(R85, R308). -/
def State.pgaTxn (s : State) (h : Nat) : Option Nat :=
  (s.txnsOn h).find? fun n => s.txnState n != 5 && (match s.txnHead n h with
    | some x => !x.switched && (match x.k with | some k => k + (s.prof h).setlat == (s.head h).starts + 1 | none => false)
    | none => false)

/-- The converters' gain and filter change before frame k + SETLAT (R85): every head write is done, and the switch of a
transaction with such entries is due at the next frame start, from which on TC_GEFF1 shows the codes (log entry 175, DEDUCED). -/
def pgaFilterChange (h t : Nat) (s : State) : State :=
  match s.pgaTxn h with
  | none => s
  | some n =>
    let es := (s.txn n).pgaEntries h
    s.whenever (!es.isEmpty && (s.txn n).heads.all (fun x => x.done) && (s.head h).blankFrom.isSome && !(s.head h).pgaDone) fun s =>
      let c := (s.candidate es).syncGain h
      let now := s.at t
      let marks := (c.settleMarks s h t).head h
      now.modHead h fun u => { u with pgaDone := true, pgaHandle := n, invMarks := marks.invMarks }

/-- EN_RCMD.LOAD (R245): a slot that a streaming head or a pending transaction names is BUSY. -/
def recipeLoad (slot : Nat) (s : State) : State :=
  s.whenever (s.access R.EN_RCMD) fun s =>
    let s := s.put F.EN_RCMD_SLOT slot
    let named := s.recipeInUse slot || s.txnQ.any fun n => (s.txn n).entries.any fun e =>
      !e.undo && e.addr == R.EN_HRCP e.head && recipeNames e.val.toNat slot
    if named || s.recipeLoad.isSome then s.put F.EN_RSTAT_RESULT 5
    else
      let a := 4096 * s.get F.EN_RBASE_BASE
      let img := s.recipeImage a
      { s with recipeLoad := some { slot := slot, code := recipeCheck a img, image := img } }

/-! ### Meanings -/

/-- `OPEN`. -/
def execTxnOpen (p : Port) (s : State) : Result := .next (txnOpen p s)
/-- `TXN_STAGE`. -/
def execTxnStage (v : Word) (s : State) : Result := .next (txnStage v s)
/-- `COMMIT`. -/
def execTxnCommit (n : Fin 32) (t : Nat) (s : State) : Result := .next (txnCommit n t s)
/-- `ROLLBACK`. -/
def execTxnRollback (n : Fin 32) (s : State) : Result := .next (txnRollback n s)
/-- `TXN_HEAD_WRITES_START`. -/
def execTxnHeadWritesStart (n : Handle) (h : Head) (t : Nat) (s : State) : Result := .next (txnHeadWritesStart n h t s)
/-- `TXN_HEAD_WRITE_FAIL`. -/
def execTxnHeadWriteFail (n : Handle) (h : Head) (s : State) : Result := .next (txnHeadWriteFail n h s)
/-- `TXN_UNDO_DONE`. -/
def execTxnUndoDone (n : Handle) (ok : Bool) (s : State) : Result := .next (txnUndoDone n ok s)
/-- `TXN_DEADLINE`. -/
def execTxnDeadline (n : Handle) (t : Nat) (s : State) : Result := .next (txnDeadline n t s)
/-- `VBLANK_START`. -/
def execVblankStart (h : Head) (t : Nat) (s : State) : Result := .next (vblankTxn h t s)
/-- `HCP_TRANSFER_DONE`. -/
def execHcpTransferDone (h : Head) (rx : List Bool) (extra : Bool) (s : State) : Result :=
  .next ((hcpTransferDone h rx extra s).txnAfter s h)
/-- `STROBE_SHORT`. -/
def execStrobeShort (h : Head) (rx : List Bool) (s : State) : Result := .next ((strobeShort h rx s).txnAfter s h)
/-- `HP_CTRL_WRITE`. -/
def execHpCtrlWrite (h : Head) (v : Word) (s : State) : Result := .next ((hpCtrlWrite h v s).txnAfter s h)
/-- `ABORT`. -/
def execHcpAbort (h : Head) (s : State) : Result := .next ((hcpAbort h s).txnAfter s h)
/-- `RING_MARK_RECEIVED`. -/
def execRingMarkReceived (n : Fin 8) (q : Fin 32) (t : Nat) (s : State) : Result := .next (ringMarkReceived n q t s)
/-- `MARK_EFFECT`. -/
def execMarkEffect (n : Fin 8) (q : Fin 32) (t : Nat) (s : State) : Result := .next (markEffect n q t s)
/-- `PGA_FILTER_CHANGE`. -/
def execPgaFilterChange (h : Head) (t : Nat) (s : State) : Result := .next (pgaFilterChange h t s)
/-- `RECIPE_LOAD`. -/
def execRecipeLoad (slot : Fin 8) (s : State) : Result := .next (recipeLoad slot s)

end Sys2Proof.Machine
end

