-- ==== Sys2Proof/Machine/Rings.lean ====
section
/-! DEFINITION. The commands of the host rings (chapter 13): contexts, doorbells, submission, commands, records, the link,
the BAR4 window. -/

namespace Sys2Proof.Machine

/-! ### Contexts (R324, Table 13-4) -/

/-- Vectors in a function's table (R317). -/
def vectors (f : Nat) : Nat := if f = 0 then 1056 else 32

/-- The ring is enabled and of a kind. -/
def State.enabledKind (s : State) (id kind : Nat) : Bool := let c := (s.ringOf id).ctx; c.en && c.kind == kind

/-- Checks 1 to 4 of Table 13-4 on enabling a ring. -/
def State.enableOk (s : State) (id : Nat) (c : RingCtx) : Bool :=
  match s.ringFunc id with
  | none => false
  | some f =>
    let loc := s.ringLocal id
    (if loc = 0 then c.kind == 3 else (s.ringOf (s.ringGlobal f 0)).ctx.en) &&
    within c.logN 4 16 && c.rbase % 4096 == 0 && (c.cls != 0 || c.kind == 3) && c.vec < vectors f &&
    (c.kind != 0 || (c.cq < 16 * s.get (F.Q_FRANGE_COUNT f) && s.enabledKind (s.ringGlobal f c.cq) 1)) &&
    (c.kind != 2 || s.subOk c)

/-- A reprocessing job ends with a code of Table 13-13. -/
def State.jobEnd (s : State) (j : ReJob) (code : Nat) : State :=
  let s : State := { s with jobs := s.jobs.filter fun x => !(x.ring == j.ring && x.tag == j.tag) }
  s.finishCmd j.ring j.tag 0 code j.done

/-- The job ring of a job. -/
def State.jobRing (s : State) (j : ReJob) : Nat := s.ringGlobal j.func (leAt j.body 0x12 2)

/-- A condition of the C0 bound has come back: the 1 ms of R338 begins. -/
def State.markC0 (s : State) : State := { s with c0Mark := s.dt }

/-- A ring is disabled (R325): work begun runs on, everything else of it is dropped. -/
def State.disableRing (s : State) (id : Nat) : State :=
  let s := s.modRingU id fun u =>
    { u with ctx := { u.ctx with en := false, state := 0 }, kept := none, wait := [], tail := u.ctx.cidx,
             items := u.items.filter fun i => match i with | .copy _ => true | .gap _ => false }
  let s := (s.jobs.filter fun j => s.jobRing j == id).foldl (fun s j => s.jobEnd j 5) s
  s.syncC0.markC0

/-- A ring is enabled with a context that has passed its checks. -/
def State.enableRing (s : State) (id : Nat) (c : RingCtx) : State :=
  let u := s.ringOf id
  let c := { c with en := true, pidx := 0, cidx := 0, gapcnt := 0, err := 0, state := 1 }
  (s.setRing id { ctx := c, cmds := u.cmds, nextTag := u.nextTag }).syncC0

/-- The fields a write to an enabled ring may not change. -/
def RingCtx.fixed (c : RingCtx) : RingCtx :=
  { c with en := false, irq := false, vec := 0, modcnt := 0, modus := 0, pidx := 0, cidx := 0, gapcnt := 0, state := 0, err := 0 }

/-- The staged context of Q_CTXD. -/
def State.stagedCtx (s : State) : RingCtx := parseCtx ((List.range 16).flatMap fun k => leBytes 4 (s.reg (R.Q_CTXD k)).toNat)

/-- A context command needs the planner's word (check 5): a subscription enabled in RUN or THROTTLED that passes the rest. -/
def State.ctxPlans (s : State) (id : Nat) (c : RingCtx) : Bool :=
  s.inRun && c.en && !(s.ringOf id).ctx.en && c.kind == 2 && !c.job && s.enableOk id c

/-- Q_CTXCMD.READ or WRITE. -/
def ctxCommand (write : Bool) (s : State) : State :=
  s.whenever (s.access R.Q_CTXCMD && s.ctxCmd.isNone) fun s =>
    let id := s.get F.Q_CTXSEL_RING
    let c := s.stagedCtx
    let waits := write && s.ringsMode && s.get F.Q_CTXBASE_BASE != 0 && s.ctxPlans id c
    let s := ({ s with ctxCmd := some { write := write, ring := id, ctx := c, waits := waits } } : State).put F.Q_CTXSTAT_BUSY 1
    if waits then s.planAsk { kind := .subscribe, arg := id } else s

/-- Q_CTXCMD.READ. -/
def ctxRead (s : State) : State := ctxCommand false s
/-- Q_CTXCMD.WRITE. -/
def ctxWrite (s : State) : State := ctxCommand true s

/-- The evaluation a context command waits for has ended. -/
def State.ctxPlanned (s : State) (id : Nat) : State :=
  match s.ctxCmd with
  | some x =>
    if x.waits && x.ring == id && s.ctxPlans id x.ctx then
      let (reason, m) := s.planAction (s.enableRing id x.ctx) s.streamMask
      ({ s with ctxCmd := some { x with waits := false, tooMuch := reason != 0 } } : State).planShow m
    else ({ s with ctxCmd := some { x with waits := false } } : State).planPublish 0 0 none
  | none => s.planPublish 0 0 none

/-- The context in device DRAM, with FUNC from Q_FRANGE. -/
def State.ctxImage (s : State) (id : Nat) : List Byte :=
  patch (s.dramRead (s.ctxAddr id) 64) 0x0A (leBytes 1 ((s.ringFunc id).getD 0))

/-- A write of a context takes effect: its RES code. -/
def State.ctxStore (s : State) (x : CtxCmd) : Nat × State :=
  let old := (s.ringOf x.ring).ctx
  let c := x.ctx
  if old.en then
    if c.fixed ≠ old.fixed ∨ vectors ((s.ringFunc x.ring).getD 0) ≤ c.vec then (2, s)
    else
      let s := s.modCtx x.ring fun o => { o with irq := c.irq, vec := c.vec, modcnt := c.modcnt, modus := c.modus }
      (1, if c.en then s else s.disableRing x.ring)
  else if !c.en then
    (1, s.modCtx x.ring fun o => { c with pidx := o.pidx, cidx := o.cidx, gapcnt := o.gapcnt, state := o.state, err := o.err })
  else if !s.enableOk x.ring c then (2, s)
  else if x.tooMuch then (3, s)
  else (1, s.enableRing x.ring c)

/-- A context command ends (R324): with CTX_ERR where the context cannot be read. -/
def ctxCmdDone (s : State) : State :=
  match s.ctxCmd with
  | none => s
  | some x =>
    s.whenever (!x.waits) fun s =>
      let s := ({ s with ctxCmd := none } : State).put F.Q_CTXSTAT_BUSY 0
      if !s.ringsMode || s.get F.Q_CTXBASE_BASE = 0 || s.ctxLost x.ring then (s.ctxHalts).put F.Q_CTXSTAT_RES 4
      else if x.write then
        let (res, s) := s.ctxStore x
        s.put F.Q_CTXSTAT_RES res
      else
        let b := s.ctxImage x.ring
        (s.forEach 16 (fun _ => true) fun k s => s.put (F.Q_CTXD_W k) (leAt b (4 * k) 4)).put F.Q_CTXSTAT_RES 1

/-- A write of Q_FRANGEf (R320). -/
def qFrangeWrite (f : Nat) (v : Word) (s : State) : State :=
  s.whenever (s.access (R.Q_FRANGE f)) fun s =>
    let b := fieldOf (F.Q_FRANGE_BASE f) v
    let n := fieldOf (F.Q_FRANGE_COUNT f) v
    let clash := n != 0 && (List.range 32).any fun g =>
      let b' := s.get (F.Q_FRANGE_BASE g)
      let n' := s.get (F.Q_FRANGE_COUNT g)
      g != f && n' != 0 && b < b' + n' && b' < b + n
    let lost := s.rings.any fun e => e.2.ctx.en && s.ringFunc e.1 == some f && !(16 * b ≤ e.1 && e.1 < 16 * (b + n))
    if clash || lost || 4096 < b + n then s.put F.Q_STAT_VALUE_REJ 1
    else (s.put (F.Q_FRANGE_BASE f) b).put (F.Q_FRANGE_COUNT f) n

/-! ### Doorbells (R329) -/

/-- A doorbell is discarded. -/
def State.dropDoorbell (s : State) : State := s.bump F.Q_STAT_DBDROP

/-- A doorbell of an enabled ring acts. -/
def State.ringBell (s : State) (id idx : Nat) : State :=
  let c := (s.ringOf id).ctx
  if !c.en then s.dropDoorbell
  else if !c.active then s
  else if c.n ≤ idx then s.haltRing id 2
  else if c.kind = 0 then s.modRingU id fun u => { u with tail := idx }
  else if (c.pidx + c.n - c.cidx) % c.n < (idx + c.n - c.cidx) % c.n then s.haltRing id 2
  else s.modCtx id fun c => { c with cidx := idx }

/-- A BAR2 write of a function. In DORMANT and SAFE it is kept for the next entry to SETUP. -/
def doorbell (f off size v : Nat) (s : State) : State :=
  s.whenever (s.up && (size == 4 || size == 8) && off % 8 == 0) fun s =>
    let loc := off / 8
    let idx := v % 65536
    let id := s.ringGlobal f loc
    if 16 * s.get (F.Q_FRANGE_COUNT f) ≤ loc then s.dropDoorbell
    else if s.mode = .dormant ∨ s.mode = .safe then s.modRingU id fun u => { u with kept := some idx }
    else s.ringBell id idx

/-- Doorbells kept in DORMANT or SAFE act at the entry to SETUP. -/
def State.keptBells (s : State) : State :=
  s.ringIds.foldl (fun s id => match (s.ringOf id).kept with
    | some idx => (s.modRingU id fun u => { u with kept := none }).ringBell id idx
    | none => s) s

/-! ### Submission (R327, R332) -/

/-- The ring is full. -/
def RingCtx.full (c : RingCtx) : Bool := c.n - 1 ≤ c.fill

/-- Descriptors of the ring may be fetched now. -/
def State.fetchable (s : State) (id : Nat) : Bool :=
  let u := s.ringOf id
  u.ctx.kind == 0 && u.ctx.active && u.tail != u.ctx.cidx && s.ringsMode && !s.flag F.DMA_STAT_HALT &&
  !(s.ringOf (s.cqOf id)).ctx.full && (match s.ringFunc id with | some f => s.hostUp f | none => false)

/-- The ring fetched next: by class, then round-robin within the class (R322). -/
def State.nextFetch (s : State) : Option Nat :=
  let l := s.ringIds.filter s.fetchable
  [1, 2, 3].findSome? fun cls =>
    let m := l.filter fun id => (s.ringOf id).ctx.cls == cls
    ((m.filter fun id => s.fetchLast.getD (cls - 1) 0 < id) ++ m).head?

/-- The opcode of a descriptor, and its OP where the opcode has one. -/
def opcodeOf (b : List Byte) : Nat := leAt b 0 1
def opOf (b : List Byte) : Nat := if opcodeOf b = 1 then leAt b 0x10 1 else if opcodeOf b = 2 then leAt b 0x11 1 else 0

/-- A descriptor no command answers: BAD_OPCODE or BAD_FIELD (Table 13-7). -/
def strayStatus (b : List Byte) : Option Nat :=
  if 6 < opcodeOf b then some 1
  else if (opcodeOf b = 1 ∧ 3 < opOf b) ∨ (opcodeOf b = 2 ∧ 2 < opOf b) then some 2
  else none

/-- The length of a read. -/
def DmaRead.size (r : DmaRead) : Nat :=
  match r.kind with
  | .data _ _ n => n
  | .cmp _ _ n => n
  | .elem _ _ => 16
  | .bar _ => 4
  | .dead _ n => n

/-- Where a read begins. -/
def DmaRead.addr (r : DmaRead) : Nat :=
  match r.kind with
  | .data a _ _ => a
  | .cmp a _ _ => a
  | .elem _ a => a
  | .bar a => a
  | .dead a _ => a

/-- Its data is no longer wanted. -/
def DmaRead.isDead (r : DmaRead) : Bool := match r.kind with | .dead _ _ => true | _ => false

/-- A read of `n` bytes by ring service finds room: fewer than 128 reads outstanding, and the reorder buffer (R347). Ring service
issues and consumes its reads within one command, so it holds nothing between commands (log entry 125). -/
def State.readRoom (s : State) (n : Nat) : Bool :=
  (s.dma.reads.filter fun r => r.data.isNone).length < 128 && s.dma.reads.foldl (fun a r => a + r.size) 0 + n ≤ 0x80000

/-- Take fetched descriptors in order, up to one without OWN. -/
def State.takeDescs (s : State) (id : Nat) : List (List Byte) → State
  | [] => s
  | d :: ds =>
    if !bit (leAt d 0x3F 1) 7 then s.haltRing id 1
    else
      let u := s.ringOf id
      let cidx := (u.ctx.cidx + 1) % u.ctx.n
      let stray := strayStatus d
      let n := s.dma.fetchNo
      let s : State := { s with dma := { s.dma with fetchNo := n + 1 } }
      let s := s.modRingU id fun u =>
        { u with ctx := { u.ctx with cidx := cidx }, nextTag := u.nextTag + 1,
                 cmds := u.cmds ++ [{ tag := u.nextTag, bytes := d, cidx := cidx, started := stray.isSome, order := n }] }
      let s := match stray with
        | some st => s.finishCmd id u.nextTag st 0
        | none => s
      s.takeDescs id ds

/-- The device fetches descriptors of the ring it serves next; `descs` is what host memory holds. -/
def submissionFetch (id : Nat) (descs : List (List Byte)) (s : State) : State :=
  s.whenever (s.nextFetch == some id && !descs.isEmpty && s.readRoom 512) fun s =>
    let u := s.ringOf id
    let n := min 8 ((u.tail + u.ctx.n - u.ctx.cidx) % u.ctx.n)
    ({ s with fetchLast := s.fetchLast.set (u.ctx.cls - 1) id } : State).takeDescs id (descs.take n)

/-- A range of a descriptor is 0. -/
def zeroAt (b : List Byte) (o n : Nat) : Bool := leAt b o n == 0

/-- The fields of a descriptor lie in range and its reserved bytes are 0 (Tables 13-5, 13-6, 13-12). -/
def descOk (b : List Byte) : Bool :=
  let o := opcodeOf b
  let u := fun a n => leAt b a n
  u 1 1 ≤ 1 && zeroAt b 2 6 && u 0x3F 1 == 0x80 &&
  (if o = 0 then zeroAt b 0x10 47
   else if o = 1 then
     let op := u 0x10 1
     zeroAt b 0x13 1 && zeroAt b 0x38 7 && (op == 0 || within (u 0x11 1) 1 16) && (op != 1 || within (u 0x12 1) 1 4)
   else if o = 2 then u 0x10 1 < 8 && zeroAt b 0x12 45
   else if o = 3 then u 0x10 1 < 8 && u 0x11 1 ≤ 2 && zeroAt b 0x12 45
   else if o = 4 then zeroAt b 0x12 2 && zeroAt b 0x18 39 && u 0x14 4 < 2 ^ 23
   else if o = 5 then u 0x10 1 < 64 && zeroAt b 0x11 7 && zeroAt b 0x38 7
   else u 0x10 1 < 8 && u 0x11 1 < 8 && u 0x16 2 != 0 && u 0x18 8 % 64 == 0 && zeroAt b 0x34 11)

/-- The modes of an opcode (Table 13-6). -/
def State.opMode (s : State) (o : Nat) : Bool :=
  if o = 0 then s.mode != .reset else if o = 2 then s.inRun else s.ringsMode

/-- The oldest command of a ring that has not started. -/
def State.nextCmd (s : State) (id : Nat) : Option RingCmd := (s.ringOf id).cmds.find? fun c => !c.started

/-- Every earlier command of the ring has completed (FENCE). -/
def State.fenceOpen (s : State) (id tag : Nat) : Bool :=
  (s.ringOf id).cmds.all fun c => tag ≤ c.tag || s.cmdDone.any fun d => d.ring == id && d.tag == c.tag && !d.held

/-- The oldest waiting command of a ring starts, when it has the opcode and OP given (R332): it completes at once with
NOT_PERMITTED, WRONG_MODE or BAD_FIELD, or does its work. -/
def State.ringStart (s : State) (id o op t : Nat) (work : RingCmd → State → State) : State :=
  match s.nextCmd id with
  | none => s
  | some c =>
    s.whenever (opcodeOf c.bytes == o && opOf c.bytes == op && (!bit (leAt c.bytes 1 1) 0 || s.fenceOpen id c.tag)) fun s =>
      let s := (s.at t).modRingU id fun u => { u with cmds := mapIf (fun x => x.tag == c.tag) (fun x => { x with started := true }) u.cmds }
      let f := (s.ringFunc id).getD 0
      if !bit (s.get (F.Q_FPERM_OPS f)) o then s.finishCmd id c.tag 3 0
      else if !s.opMode o then s.finishCmd id c.tag 4 0
      else if !descOk c.bytes then s.finishCmd id c.tag 2 0
      else work c s

/-- NOP. -/
def cmdNop (id t : Nat) (s : State) : State := s.ringStart id 0 0 t fun c s => s.finishCmd id c.tag 0 0

/-- A handle belongs to another function: one opened it through a ring of its own (R332, log entry 166). -/
def State.notMine (s : State) (id handle : Nat) : Bool :=
  s.txnState (handle - 1) != 0 && (s.txn (handle - 1)).owner != (s.ringFunc id).getD 0

/-- A SETTINGS command that ends at once shows the handle's RESULT and ENTRY. -/
def State.settingsDone (s : State) (id tag handle : Nat) : State :=
  s.finishCmd id tag 0 (s.get (F.TXN_HSTAT_RESULT (handle - 1))) (s.get (F.TXN_HINFO_ENTRY (handle - 1)))

/-- SETTINGS OPEN: TXN_OPENRES's layout. -/
def settingsOpen (id t : Nat) (s : State) : State :=
  s.ringStart id 1 0 t fun c s =>
    let ((res, h), s) := s.txnOpenNow 0
    let f := (s.ringFunc id).getD 0
    let s := if res = 1 then s.modTxn (h - 1) fun x => { x with owner := f } else s
    s.finishCmd id c.tag 0 (256 * res + h) 0xFFFF

/-- SETTINGS STAGE: the entries in body order. -/
def settingsStage (id t : Nat) (s : State) : State :=
  s.ringStart id 1 1 t fun c s =>
    let h := leAt c.bytes 0x11 1
    if s.notMine id h then s.finishCmd id c.tag 3 0
    else
      let s := (List.range (leAt c.bytes 0x12 1)).foldl (fun s i =>
        s.stage h (entryOf (BitVec.ofNat 32 (leAt c.bytes (0x18 + 8 * i) 4)) (BitVec.ofNat 32 (leAt c.bytes (0x1C + 8 * i) 4)))) s
      s.settingsDone id c.tag h

/-- SETTINGS COMMIT. -/
def settingsCommit (id t : Nat) (s : State) : State :=
  s.ringStart id 1 2 t fun c s =>
    let h := leAt c.bytes 0x11 1
    if s.notMine id h then s.finishCmd id c.tag 3 0
    else match s.openHandle h with
    | some n =>
      if (s.txn n).planWait then s.cmdRej.settingsDone id c.tag h
      else
        let ccfg : Word := BitVec.ofNat 32 (leAt c.bytes 0x14 4) &&& 0xFFF7FDFF
        s.txnCommitNow n ccfg (some (id, c.tag)) t
    | none => s.cmdRej.settingsDone id c.tag h

/-- SETTINGS ROLLBACK. -/
def settingsRollback (id t : Nat) (s : State) : State :=
  s.ringStart id 1 3 t fun c s =>
    let h := leAt c.bytes 0x11 1
    if s.notMine id h then s.finishCmd id c.tag 3 0 else (s.rollback h).settingsDone id c.tag h

/-- SHUTTER request (R188). -/
def cmdShutterRequest (id t : Nat) (s : State) : State :=
  s.ringStart id 2 0 t fun c s => s.shutRequest (leAt c.bytes 0x10 1) 3 (some (id, c.tag)) s.dt

/-- SHUTTER cancel (R200). -/
def cmdShutterCancel (id t : Nat) (s : State) : State :=
  s.ringStart id 2 1 t fun c s =>
    let h := leAt c.bytes 0x10 1
    let s := s.shutCancel h
    s.finishCmd id c.tag 0 (s.get (F.CX_SSTAT_RESULT h))

/-- SHUTTER refit (R206). -/
def cmdShutterRefit (id t : Nat) (s : State) : State :=
  s.ringStart id 2 2 t fun c s => s.refitRequest (leAt c.bytes 0x10 1) (some (id, c.tag)) s.dt

/-- TABLE_SWAP (R156, R225, R395): a head that streams swaps at its next frame start, any other at once. -/
def tableSwap (id t : Nat) (s : State) : State :=
  s.ringStart id 3 0 t fun c s =>
    let h := leAt c.bytes 0x10 1
    let kind := leAt c.bytes 0x11 1
    let fail := fun (s : State) code => (s.swapRefuse h kind code).finishCmd id c.tag 0 code
    if s.swapPending h kind then fail s 6
    else
      let code := if kind = 2 then s.radCheck h (1 - s.get (F.FP_RSTAT_SEL h)) else s.swapCheck h (s.swapTarget h kind)
      if code ≠ 0 then fail s code
      else match s.churnAsk .m5 (3 * h + kind) true s.dt with
        | (.granted, s) | (.queued, s) =>
          if s.streams h then
            (s.put (swapRes h kind) 2).modHead h fun u =>
              { u with leafPend := u.leafPend || kind == 0, resPend := u.resPend || kind == 1, radPend := u.radPend || kind == 2,
                       swapAt := u.swapAt.set kind s.dt,
                       swapWaiters := u.swapWaiters ++ [(kind, id, c.tag)] }
          else
            let s := if kind = 2 then s.radSwapNow h else s.swapNow h kind
            ((s.put (swapRes h kind) 1).churnDone .m5 (3 * h + kind)).finishCmd id c.tag 0 1
        | (_, s) => fail s 6

/-- MICROCODE (R236). -/
def microcode (id t : Nat) (s : State) : State :=
  s.ringStart id 4 0 t fun c s =>
    s.mcBegin (4096 * leAt c.bytes 0x14 4) (leAt c.bytes 0x10 2) (some (id, c.tag)) s.dt

/-! ### Reprocessing (R341, R342) -/

/-- Every copy a job names is usable: R152, R216 and the header checks. -/
def State.jobTables (s : State) (b : List Byte) : Bool :=
  let h := leAt b 0x10 1
  let c := leAt b 0x11 1
  let li := (bit c 0).toNat
  let ri := 2 + (bit c 1).toNat
  let si := (bit c 2).toNat
  s.copyPlaced h li && s.leafHeaderOk h (s.tableBytes h li (s.copyBase h li) 64) && s.copyPlaced h ri && s.radPlaced h si false &&
  s.setOk h si

/-- REPROCESS: a job is queued, in RUN and THROTTLED once the planner has admitted it. -/
def reprocess (id t : Nat) (s : State) : State :=
  s.ringStart id 6 0 t fun c s =>
    let b := c.bytes
    let f := (s.ringFunc id).getD 0
    let rid := s.ringGlobal f (leAt b 0x12 2)
    if s.inRun && leAt b 0x30 4 == 0 then s.finishCmd id c.tag 2 0
    else if 16 ≤ (s.jobs.filter fun j => j.started.isNone).length then s.finishCmd id c.tag 5 0
    else if 16 * s.get (F.Q_FRANGE_COUNT f) ≤ leAt b 0x12 2 || !s.enabledKind rid 2 || !(s.ringOf rid).ctx.job then
      s.finishCmd id c.tag 0 3
    else if !s.jobTables b then s.finishCmd id c.tag 0 2
    else
      let j : ReJob := { ring := id, tag := c.tag, func := f, body := b, waits := s.inRun }
      let s : State := { s with jobs := s.jobs ++ [j] }
      if j.waits then s.planAsk { kind := .job, arg := c.tag, cmd := some (id, c.tag) } else s

/-- The planner's answer to a job: the configuration with the job admitted, or the job ends with code 1. -/
def State.jobAnswer (s c : State) (j : ReJob) (a : Nat × PlanResult) : State :=
  if a.1 = 0 then c.planShow a.2 else (s.planShow a.2).jobEnd j 1

/-- The evaluation a job waits for has ended. -/
def State.jobPlanned (s : State) (cmd : Option (Nat × Nat)) : State :=
  match s.jobs.find? fun j => cmd == some (j.ring, j.tag) with
  | none => s.planPublish 0 0 none
  | some j =>
    let c : State := { s with jobs := mapIf (fun x => x.ring == j.ring && x.tag == j.tag) (fun x => { x with waits := false }) s.jobs }
    s.jobAnswer c j (s.planAction c s.streamMask)

/-- The next job in order starts. -/
def reprocessJobStart (s : State) : State :=
  match s.jobs with
  | [] => s
  | j :: js =>
    s.whenever (s.ringsMode && j.started.isNone && !j.waits) fun s =>
      { s with jobs := { j with started := some s.dt } :: js }

/-- The words of an input frame: extended count and INV (R341). -/
def jobPixel (input : List Byte) (w x y : Nat) : Int × Bool :=
  let v := leAt input (4 * (y * w + x)) 4
  (signed 20 v, v.testBit 31)

/-- The words of one quire of an input frame, corrected from R162 onward. -/
def State.jobQuire (s : State) (p : CorrParams) (px : Nat → Nat → Int × Bool) (q : Quire) : List (List Nat) :=
  let lines := (List.range 18).map fun (i : Nat) => (List.range p.width).map fun (x : Nat) =>
    let row : Int := (q.row0 : Int) + (i : Int) - 1
    if row < 0 ∨ p.height ≤ row ∨ q.nlines + 1 < i then none
    else
      let (x0, inv) := px x row.toNat
      let near := fun (dx dy : Int) =>
        let cx := (x : Int) + dx
        let cy := row + dy
        if cx < 0 ∨ p.width ≤ cx ∨ cy < 0 ∨ p.height ≤ cy ∨ cy < (q.row0 : Int) - 1 ∨ (q.row0 : Int) + q.nlines < cy then x0
        else (px cx.toNat cy.toNat).1
      some (s.pixelX p row.toNat x x0 false inv (s.pixelLost p (row.toNat * p.width + x)) near)
  s.commitRows p q lines

/-- The frame record of a job's frame. -/
def State.jobFrame (s : State) (j : ReJob) : Frame :=
  let b := j.body
  let h := leAt b 0x10 1
  let c := leAt b 0x11 1
  let tai := leAt b 0x20 8
  let f : Frame := { head := h, seq := leAt b 0x28 8 + j.done, dt := s.dt, gen := (s.head h).gen, snap := s.regs,
                     profile := s.prof h, tfpa := leAt b 0x14 2, tai := tai, ageUnk := tai == 0, leafSel := bit c 0,
                     resSel := bit c 1, radSel := bit c 2,
                     hdr := s.tableBytes h (bit c 0).toNat (s.copyBase h (bit c 0).toNat) 64, reprocessed := true,
                     tone := (s.head h).hist,
                     shpos := s.get (F.HP_STAT_SHPOS h), shphase := s.get (F.CX_SSTAT_PHASE h), complete := true }
  let ue := j.radUe || (s.flag (F.FP_RCFG_EN h) && s.radLost h (bit c 2).toNat)
  let f := { f with radUe := ue, degraded := ue }
  (f.withTerms f.tempUsed (snapFlag s.regs (F.CX_HCFG_GTC_EN h))).1

/-- Bytes of a staging slot for a kind of output, and the slot of frame `n` in the 128 MiB area. -/
def jobSlot (kind fmt ow oh n : Nat) : Nat × Nat :=
  let size := if kind = 3 then 24576 else ceilDiv (bufShape kind fmt ow oh).2 4096 * 4096
  (size, n % max 1 (0x8000000 / max size 1))

/-- A job's frame writes a statistics record into the head's record ring when the head has REC_EN (R288, R289). It is not the live
head's frame: it takes no pin and goes to no subscription of the live head (log entry 163). -/
def State.jobRecord (s : State) (f : Frame) (bytes : List Byte) : State :=
  if (f.kindShape 3).1 = 0 then s
  else match s.chooseBuf f 3 false with
    | (s, some b) => (s.dramWrite b.base bytes).bufComplete b
    | (s, none) => s

/-- A staged frame that a ring still holds lies in a range. -/
def RingUnit.stages (u : RingUnit) (r : Range) : Bool :=
  let hit := fun (i : RingItem) => i.isCopy fun b =>
    0x10000 ≤ b.idx && overlaps r (b.base, (jobSlot b.kind b.fmt b.ow b.oh 0).1)
  u.items.any hit || u.wait.any hit

/-- The running job ends OK once all its frames have been given to the job ring and each has been delivered or reported as a gap
there (Table 13-13): a job ring takes nothing else. -/
def State.jobsSettle (s : State) : State :=
  match s.jobs.find? fun j => j.started.isSome with
  | none => s
  | some j =>
    let u := s.ringOf (s.jobRing j)
    if leAt j.body 0x16 2 ≤ j.done && u.items.isEmpty && u.wait.isEmpty then s.jobEnd j 0 else s

/-- One frame of the running job is corrected, finished and offered to the job ring; `input` is its host data, none when the
read failed. A staged frame that any ring still holds keeps its bytes. -/
def reprocessFrameDone (input : Option (List Byte)) (t : Nat) (s : State) : State :=
  match s.jobs.find? fun j => j.started.isSome with
  | none => s
  | some j =>
    let h := leAt j.body 0x10 1
    let rate := leAt j.body 0x30 4
    let id := s.jobRing j
    let c := (s.ringOf id).ctx
    let f0 := s.jobFrame j
    let (fmt, ow, oh) := f0.kindShape c.skind
    let (size, slot) := jobSlot c.skind fmt ow oh j.done
    let area : Range := (4096 * s.get F.Q_RPBASE_BASE + slot * size, size)
    let busy := leAt j.body 0x16 2 ≤ j.done || s.rings.any fun e => e.2.stages area
    let paced := rate == 0 || (j.started.getD 0) * rate + (j.done + 1) * f0.profile.pixels * 1000000 ≤ t * rate
    let room := match input with | some i => 4 * f0.profile.pixels ≤ i.length | none => true
    s.whenever (s.ringsMode && paced && room && !busy && s.readRoom 512) fun s =>
      let s := s.at t
      match input with
      | none => s.jobEnd j 4
      | some inp =>
        let f := s.jobFrame j
        let p := s.corrParams f
        let px := jobPixel inp p.width
        let words := (List.range f.profile.quireCount).flatMap fun k =>
          s.jobQuire p px { head := h, seq := f.seq, region := regionOf h, qidx := k, row0 := 16 * k,
                            nlines := min 16 (p.height - 16 * k), first := k == 0, last := k + 1 == f.profile.quireCount }
        let sub := countBit words 24
        let unrec := countBit words 27
        let inv := (List.range p.height).foldl (fun a y => (List.range p.width).foldl (fun a x => a + (px x y).2.toNat) a) 0
        let (lo, hi) := s.countLoHi f words
        let f := { f with sub := sub, unrec := unrec, clip := countBit words 25, sat := countBit words 26, inv := inv,
                          degraded := f.degraded || decide (f.profile.pixels < 50 * (sub + unrec)), rlastLo := min lo 65535, rlastHi := min hi 65535 }
        let rows := s.radRows f words
        let vals := f.statRows rows
        let hist := f.histogram vals
        let d := frameDigest vals
        let thr := s.mode == .throttled
        let (free, s) := s.fresh
        let base := area.1
        let f := { f with degraded := f.degraded || s.rangeLost base size }
        let bytes := if c.skind = 3 then f.statRecord hist (f.zones vals) d
          else
            let pic := if c.skind = 2 then [] else f.picture free ow oh rows
            let planes := kindPlanes c.skind fmt ow oh pic rows
            let (t1, t2) := tailband f thr d (s.alarmsRaised h) f.unit16 (imageCrc planes)
            bufferBytes planes (s.frameHead f c.skind fmt ow oh) t1 t2
        let b : BufRec := { head := h, kind := c.skind, idx := 0x10000 + slot, seq := f.seq, base := base, fmt := fmt, ow := ow,
                            oh := oh, flags := f.recordFlags thr false, good := true, done := true, doneAt := s.dt }
        let s := (s.dramWrite base bytes).offer id b
        let s := if c.skind = 3 then s else s.jobRecord f (f.statRecord hist (f.zones vals) d)
        let j' := { j with done := j.done + 1, radUe := false }
        ({ s with jobs := mapIf (fun x => x.ring == j.ring && x.tag == j.tag) (fun _ => j') s.jobs } : State).jobsSettle

/-! ### Records (R328, R331, R334, R337) -/

/-- The completion record of a finished command (Table 13-7), without its OWN byte. -/
def State.completionBytes (s : State) (d : CmdDone) (c : RingCmd) : List Byte :=
  leBytes 1 1 ++ leBytes 1 (opcodeOf c.bytes) ++ leBytes 2 (s.ringLocal d.ring) ++ leBytes 2 c.cidx ++ leBytes 1 d.status ++
  leBytes 1 0 ++ (c.bytes.drop 8).take 8 ++ leBytes 8 d.dt ++ leBytes 4 d.result ++ leBytes 2 d.info ++ leBytes 1 0

/-- The oldest finished command whose completions go to a ring. -/
def State.doneFor (s : State) (cq : Nat) : Option CmdDone := s.cmdDone.find? fun d => !d.held && s.cqOf d.ring == cq

/-- The first `n` commands whose completion is held complete now. -/
def admitDone (t : Nat) : Nat → List CmdDone → List CmdDone
  | _, [] => []
  | 0, l => l
  | n + 1, d :: l => if d.held then { d with held := false, dt := t } :: admitDone t n l else d :: admitDone t (n + 1) l

/-- Held completions enter the on-chip queue as room returns (R343). -/
def State.admitHeld (s : State) : State := { s with cmdDone := admitDone s.dt (1024 - s.heldRecords) s.cmdDone }

/-- A finished command leaves its ring. -/
def State.dropDone (s : State) (d : CmdDone) : State :=
  let s : State := { s with cmdDone := s.cmdDone.erase d }
  s.modRingU d.ring fun u => { u with cmds := u.cmds.filter fun c => c.tag != d.tag }

/-- The function of a DMA channel. -/
def State.dmaFunc (s : State) (c : Nat) : Nat := s.get (F.DMA_CH_CFG_FUNC c)

/-- Signal a DMA channel's vector in its function's table (R360). -/
def State.dmaMessage (s : State) (c : Nat) : State :=
  let v := s.get (F.DMA_CH_VEC_VEC c)
  if v < vectors (s.dmaFunc c) then s.msixSend (s.dmaFunc c) v else s

/-- The oldest completion of a ring is posted, and the DMA channel it belongs to signals its vector; a disabled completion ring
takes none (R325, R360). -/
def State.postCompletion (s : State) (cq : Nat) : State :=
  match s.doneFor cq with
  | none => s
  | some d =>
    let q := (s.ringOf cq).ctx
    match (s.ringOf d.ring).cmds.find? fun c => c.tag == d.tag with
    | none => { s with cmdDone := s.cmdDone.erase d }
    | some c =>
      if !q.en then s.dropDone d
      else if q.active && !q.full && s.canPost cq then
        let s := (s.dropDone d).postRecord cq (s.completionBytes d c)
        match d.int with
        | some ch => s.dmaMessage ch
        | none => s
      else s

/-- A completion is posted once its ring has room. -/
def completionPost (cq t : Nat) (s : State) : State :=
  s.admitHeld.whenever (s.admitHeld.doneFor cq).isSome fun s => ((s.at t).postCompletion cq).admitHeld

/-- The event record that stands first is posted, or lost when the ring is full; a LOST record goes before it (R328). -/
def eventRecordPost (id t : Nat) (s : State) : State :=
  let u := s.ringOf id
  s.whenever (s.canPost id && u.ctx.kind == 3 && u.ctx.state != 2 && (u.lost != 0 || !u.out.isEmpty)) fun s =>
    let s := s.at t
    let u := s.ringOf id
    if u.ctx.full then
      match u.out with
      | [] => s
      | _ :: rest => (s.modRingU id fun u => { u with out := rest }).loseRecord id s.dt
    else if u.lost ≠ 0 then
      (s.modRingU id fun u => { u with lost := 0 }).postRecord id (eventRecord 0x21 [(4, 4, u.lost), (8, 8, u.lostDt)])
    else match u.out with
      | [] => s
      | b :: rest =>
        let s := if leAt b 0 1 = 0x10 ∨ leAt b 0 1 = 0x11 then s.sample 3 (leAt b 1 1) (s.dt - leAt b 0x10 8) else s
        (s.modRingU id fun u => { u with out := rest }).postRecord id b

/-- Lines of a region of interest: where line `j` of each part lies in the delivery buffer and in the host buffer, and its
bytes (Table 13-8). -/
def roiLines (kind fmt p oh hp x y w h : Nat) : List (Nat × Nat × Nat) :=
  if kind = 1 then
    let h16 := ceilDiv oh 16 * 16
    let ys := (List.range h).map fun j => (p * (1 + y + j) + x, 64 + j * hp, w)
    let c0 := p * (1 + h16)
    let o0 := 64 + h * hp
    if fmt = 1 then ys ++ (List.range (h / 2)).map fun j => (c0 + p * (y / 2 + j) + x, o0 + j * hp, w)
    else
      let pc := up64 (p / 2)
      let hc := up64 (hp / 2)
      let part := fun k => (List.range (h / 2)).map fun j =>
        (c0 + k * (pc * (h16 / 2)) + pc * (y / 2 + j) + x / 2, o0 + k * (hc * (h / 2)) + j * hc, w / 2)
      ys ++ part 0 ++ part 1
  else
    let b := pixBytes kind fmt
    (List.range h).map fun j => (p * (1 + y + j) + x * b, 64 + j * hp, w * b)

/-- A frame is copied into the host frame buffer at `a`: the bytes its record reports (R334). -/
def State.copyFrame (s : State) (c : RingCtx) (b : BufRec) (a : Nat) : State × Nat :=
  if b.kind = 3 then
    let n := 0x1040 + 16 * leAt (s.dramRead b.base 0x40) 0x25 1 * leAt (s.dramRead b.base 0x40) 0x26 1
    (s.hostWrite a (s.dramRead b.base n), n)
  else
    let (p, _) := bufShape b.kind b.fmt b.ow b.oh
    let (x, y, w, h) := if c.w = 0 then (0, 0, b.ow, b.oh) else (c.x0, c.y0, c.w, c.h)
    let img := hostImage b.kind b.fmt h c.hpitch
    let pc := if b.kind = 1 ∧ b.fmt = 2 then up64 (b.ow / 2) else 0
    let lines := if b.kind = 1 ∧ b.fmt = 2 then
        let h16 := ceilDiv b.oh 16 * 16
        let c0 := p * (1 + h16)
        let hc := up64 (c.hpitch / 2)
        ((roiLines 1 1 p b.oh c.hpitch x y w h).take h) ++ (List.range 2).flatMap fun k => (List.range (h / 2)).map fun j =>
          (c0 + k * (pc * (h16 / 2)) + pc * (y / 2 + j) + x / 2, 64 + h * c.hpitch + k * (hc * (h / 2)) + j * hc, w / 2)
      else roiLines b.kind b.fmt p b.oh c.hpitch x y w h
    let s := s.hostWrite a (s.dramRead b.base 64)
    let s := lines.foldl (fun s l => s.hostWrite (a + l.2.1) (s.dramRead (b.base + l.1) l.2.2)) s
    let t := s.bufTail b
    (s.hostWrite (a + 64 + img) (t.1 ++ t.2), 64 + img + 128)

/-- The copy at the front of a delivery ring has been written: gaps before it and its FRAME record are posted (R334). -/
def deliveryCopyDone (id t : Nat) (s : State) : State :=
  s.whenever (s.canPost id && (s.ringOf id).ctx.state != 2 && s.readRoom 512) fun s =>
    let s := (s.at t).postGaps id (s.ringOf id).items.length
    let u := s.ringOf id
    match u.items with
    | .copy b :: rest =>
      let (s, len) := s.copyFrame u.ctx b (u.ctx.hbase + u.ctx.pidx * u.ctx.bufsz)
      let hd := s.dramRead b.base 64
      let s := (s.modRingU id fun u => { u with items := rest }).sample 4 id (s.dt - b.doneAt)
      ((s.postRecord id (eventRecord 0x01 [(1, 1, b.head), (2, 1, b.kind + 4 * b.fmt), (3, 1, setBit b.flags 2 (bit b.flags 2 || s.bufLost b)),
        (4, 4, leAt hd 0x18 4),
        (8, 8, leAt hd 8 8), (0x10, 8, leAt hd 0x10 8), (0x18, 4, len)])).flushGaps id).jobsSettle
    | _ => s.jobsSettle

/-- A slot has freed: waiting frames and gaps take it (R337). -/
def waitingFrameDelivery (id t : Nat) (s : State) : State :=
  let u := s.ringOf id
  s.whenever (s.canPost id && u.ctx.active && u.free != 0 && !u.wait.isEmpty) fun s =>
    (((s.at t).placeWaiting id).flushGaps id).jobsSettle

/-- The moderation window of a ring ends (R331). -/
def msixModerationTimeout (id t : Nat) (s : State) : State :=
  let u := s.ringOf id
  match u.firstUnsig with
  | none => s
  | some d => s.whenever (u.ctx.irq && u.ctx.modus != 0 && d + u.ctx.modus * 1000 ≤ t) fun s => (s.at t).ringMessage id

/-! ### The C0 bound (R338) -/

/-- The failing conditions the device's state shows: RINGS, DMA_HALT, SAFE, LINK. -/
def State.c0Fails (s : State) : Nat :=
  (if 256 < s.get F.Q_C0STAT_NC0 then 1 else 0) + (if s.flag F.DMA_STAT_HALT then 4 else 0) +
  (if s.mode = .safe then 8 else 0) + (if s.flag F.Q_STAT_LINKUP && s.flag F.Q_STAT_BME then 0 else 16)

/-- A record for every active C0 ring with a free slot. -/
def State.toC0 (s : State) (bs : List Byte) : State :=
  (s.c0Rings.filter fun id => (s.ringOf id).ctx.active && !(s.ringOf id).ctx.full).foldl (fun s id => s.postEvent id bs) s

/-- A condition of the bound fails; whether C0 traffic is over its rate (bit 1) comes from outside the model's state. -/
def c0Suspend (reason t : Nat) (s : State) : State :=
  s.whenever (s.up && reason != 0 && setBit reason 1 false == s.c0Fails && reason != s.get F.Q_C0STAT_REASON) fun s =>
    let s := ((s.at t).put F.Q_C0STAT_BOUND 0).put F.Q_C0STAT_REASON reason
    (s.toC0 (eventRecord 0x30 [(1, 1, reason), (8, 8, s.dt)])).markC0

/-- Every condition has held again for 1 ms. -/
def c0Resume (t : Nat) (s : State) : State :=
  s.whenever (s.up && !s.flag F.Q_C0STAT_BOUND && s.c0Fails == 0 && s.c0Mark + 1000000 ≤ t) fun s =>
    let s := ((s.at t).put F.Q_C0STAT_BOUND 1).put F.Q_C0STAT_REASON 0
    s.toC0 (eventRecord 0x31 [(8, 8, s.dt)])

/-! ### The link (R318, R343, R344) -/


/-- The link is in L0: a LINK record after a loss, and the retrains to another rate or width. -/
def pcieLinkUp (speed width t : Nat) (s : State) : State :=
  s.whenever (s.up && within speed 1 5 && [1, 2, 4, 8, 16].contains width) fun s =>
    let old := (s.pcie.speed, s.pcie.width)
    let s := s.at t
    let s := if old.1 ≠ 0 ∧ old ≠ (speed, width) then s.bump F.Q_LINKCNT_RETRAIN else s
    let s := ((s.put F.Q_STAT_LINKUP 1).put F.Q_STAT_SPEED speed).put F.Q_STAT_WIDTH width
    let rep := s.pcie.reported
    let s : State := { s with pcie := { s.pcie with speed := speed, width := width, reported := true } }
    let s := if rep then s
      else s.postEvent s.pfRing0 (eventRecord 0x23 [(4, 1, speed), (5, 1, width), (8, 8, s.pcie.downAt), (0x10, 8, s.dt)])
    s.markC0

/-- A function's bus mastering is set or cleared. -/
def busMasterChange (f : Nat) (on : Bool) (t : Nat) (s : State) : State :=
  s.whenever s.up fun s =>
    let l := s.pcie.bme.filter (· != f)
    let s : State := { s.at t with pcie := { s.pcie with bme := if on then l ++ [f] else l } }
    if f = 0 then (s.putB F.Q_STAT_BME on).markC0 else s

/-- An error of the endpoint (R318). AER itself is in the PCIe configuration space, outside this model. -/
def pcieError (unc : Bool) (s : State) : State :=
  s.whenever s.up fun s => s.raise 44 (if unc then .uc else .ce) (detailWord 0xFF 0xFF 0x004)

/-- A function's MSI-X table and pending bits return to their reset state. -/
def State.msixReset (s : State) (f : Nat) : State :=
  let keep := fun (a : Nat) =>
    if f = 0 then !(R.Q_MSIXTAB 0 0 ≤ a && a < R.Q_MSIXPBA 0 + 4 * 33) else !(msixWord f 0 0 ≤ a && a < msixWord f 0 0 + 0x4000)
  { s with regs := s.regs.filter fun e => keep e.1 }

/-- The rings of a function are disabled without posting (R344). -/
def State.dropRings (s : State) (f : Nat) : State :=
  (s.ringIds.filter fun id => s.ringFunc id == some f).foldl (fun s id =>
    (s.disableRing id).modRingU id fun u => { u with out := [], lost := 0, items := [], unsig := 0, firstUnsig := none }) s

/-- A hot reset, a link-disable reset or an FLR of the PF: configuration space resets, every ring is disabled, the Q_
registers are cleared but for Q_CTXBASE and what shows the link. -/
def State.hotReset (s : State) : State :=
  let s := (List.range 32).foldl (fun s f => s.dropRings f) s
  let link := (s.reg R.Q_STAT).toNat &&& 0x8FF80000
  let base := s.reg R.Q_CTXBASE
  let s : State := { s with regs := s.regs.filter fun e => !(0x600000 ≤ e.1 && e.1 < 0x610000), ctxCmd := none,
                            pcie := { s.pcie with bme := [], d3 := [] } }
  let s := (List.range 32).foldl (fun s f => s.msixReset f) s
  (s.setReg R.Q_CTXBASE base).setReg R.Q_STAT (BitVec.ofNat 32 link)

/-- A hot reset. -/
def pcieHotReset (s : State) : State := s.whenever s.up State.hotReset

/-- PERST_N low resets the endpoint as a hot reset (R472). -/
def perstAssert (s : State) : State := s.whenever s.up State.hotReset

/-- An FLR of a VF. -/
def vfFlr (f : Nat) (s : State) : State :=
  s.whenever (s.up && f != 0) fun s =>
    let s := (s.dropRings f).msixReset f
    { s with pcie := { s.pcie with bme := s.pcie.bme.filter (· != f), d3 := s.pcie.d3.filter (· != f) } }

/-- D3hot of a function acts on its rings as cleared bus mastering (R344). -/
def functionD3hot (f : Nat) (enter : Bool) (s : State) : State :=
  s.whenever s.up fun s =>
    let l := s.pcie.d3.filter (· != f)
    { s with pcie := { s.pcie with d3 := if enter then l ++ [f] else l } }

/-! ### The BAR4 window (R319) -/


/-- The protected ranges with their owners. -/
def State.protAll (s : State) : List (Nat × Nat × Range) :=
  (List.range 8).flatMap fun h => (s.protRanges h).map fun e => (h, e.1, e.2)

/-- One byte of a BAR4 write. -/
def State.bar4Byte (s : State) (prot : List (Nat × Nat × Range)) (a : Nat) (b : Byte) : State :=
  if dramSize ≤ a then s
  else
    let hits := prot.filter fun e => inRange e.2.2 a
    let ctx := s.inCtxArea a
    let s := if ctx then s.put F.Q_STAT_PROT_WR 1 else s
    let s := hits.foldl (fun s e =>
      let s := if e.2.1 = 3 then s.put (F.ST_HSTAT_PROT_WR e.1) 1 else s
      s.put (if e.2.1 = 2 then F.FP_RSTAT_PROT_WR e.1 else F.CL_HSTAT_PROT_WR e.1) 1) s
    if ctx || !hits.isEmpty then s else s.dramWrite a [b]

/-- A BAR4 write: the bytes its byte enables select. -/
def bar4Write (off : Nat) (bytes : List (Option Byte)) (s : State) : State :=
  s.whenever s.ringsMode fun s =>
    let a := s.get F.Q_B4WIN_WIN * 0x40000000 + off
    let prot := s.protAll
    (List.range bytes.length).foldl (fun s i => match bytes.getD i none with
      | some b => s.bar4Byte prot (a + i) b
      | none => s) s

/-- A BAR4 read: data, all ones, or a poisoned completion with a UC, whose word is one of the channel's in the range. -/
def bar4Read (off len : Nat) (ue : Option Channel) (s : State) : State :=
  s.whenever s.up fun s =>
    let a := s.get F.Q_B4WIN_WIN * 0x40000000 + off
    if !s.ringsMode then { s with bar4 := some (List.replicate len 0xFF) }
    else match ue with
      | some ch =>
        let on := (List.range len).filter fun i => chanOf (a + i) == ch
        let (v, s) := ({ s with bar4 := none } : State).freshUpTo (on.length - 1)
        let x := a + on.getD v 0
        (s.dramUEAt ch x).ctxUe x
      | none => { s with bar4 := some ((List.range len).map fun i => if dramSize ≤ a + i then 0xFF else s.dramByte (a + i)) }

/-! ### Meanings -/

/-- `CTX_READ`. -/
def execCtxRead (s : State) : Result := .next (ctxRead s)
/-- `CTX_WRITE`. -/
def execCtxWrite (s : State) : Result := .next (ctxWrite s)
/-- `CTX_CMD_DONE`. -/
def execCtxCmdDone (s : State) : Result := .next (ctxCmdDone s)
/-- `Q_FRANGE_WRITE`. -/
def execQFrangeWrite (f : Fin 32) (v : Word) (s : State) : Result := .next (qFrangeWrite f v s)
/-- `DOORBELL`. -/
def execDoorbell (f : Fin 32) (off size v : Nat) (s : State) : Result := .next (doorbell f off size v s)
/-- `SUBMISSION_FETCH`. -/
def execSubmissionFetch (ring : Nat) (ds : List (List Byte)) (s : State) : Result := .next (submissionFetch ring ds s)
/-- `NOP`. -/
def execCmdNop (ring t : Nat) (s : State) : Result := .next (cmdNop ring t s)
/-- `SETTINGS_OPEN`. -/
def execSettingsOpen (ring t : Nat) (s : State) : Result := .next (settingsOpen ring t s)
/-- `SETTINGS_STAGE`. -/
def execSettingsStage (ring t : Nat) (s : State) : Result := .next (settingsStage ring t s)
/-- `SETTINGS_COMMIT`. -/
def execSettingsCommit (ring t : Nat) (s : State) : Result := .next (settingsCommit ring t s)
/-- `SETTINGS_ROLLBACK`. -/
def execSettingsRollback (ring t : Nat) (s : State) : Result := .next (settingsRollback ring t s)
/-- `SHUTTER_REQUEST`. -/
def execShutterRequest (ring t : Nat) (s : State) : Result := .next (cmdShutterRequest ring t s)
/-- `SHUTTER_CANCEL`. -/
def execCmdShutterCancel (ring t : Nat) (s : State) : Result := .next (cmdShutterCancel ring t s)
/-- `SHUTTER_REFIT`. -/
def execCmdShutterRefit (ring t : Nat) (s : State) : Result := .next (cmdShutterRefit ring t s)
/-- `TABLE_SWAP`. -/
def execTableSwap (ring t : Nat) (s : State) : Result := .next (tableSwap ring t s)
/-- `MICROCODE`. -/
def execMicrocode (ring t : Nat) (s : State) : Result := .next (microcode ring t s)
/-- `REPROCESS`. -/
def execReprocess (ring t : Nat) (s : State) : Result := .next (reprocess ring t s)
/-- `REPROCESS_JOB_START`. -/
def execReprocessJobStart (s : State) : Result := .next (reprocessJobStart s)
/-- `REPROCESS_FRAME_DONE`. -/
def execReprocessFrameDone (i : Option (List Byte)) (t : Nat) (s : State) : Result := .next (reprocessFrameDone i t s)
/-- `COMPLETION_POST`. -/
def execCompletionPost (cq t : Nat) (s : State) : Result := .next (completionPost cq t s)
/-- `DELIVERY_COPY_DONE`. -/
def execDeliveryCopyDone (ring t : Nat) (s : State) : Result := .next (deliveryCopyDone ring t s)
/-- `WAITING_FRAME_DELIVERY`. -/
def execWaitingFrameDelivery (ring t : Nat) (s : State) : Result := .next (waitingFrameDelivery ring t s)
/-- `EVENT_RECORD_POST`. -/
def execEventRecordPost (ring t : Nat) (s : State) : Result := .next (eventRecordPost ring t s)
/-- `MSIX_MODERATION_TIMEOUT`. -/
def execMsixModerationTimeout (ring t : Nat) (s : State) : Result := .next (msixModerationTimeout ring t s)
/-- `C0_SUSPEND`. -/
def execC0Suspend (reason : BitVec 5) (t : Nat) (s : State) : Result := .next (c0Suspend reason.toNat t s)
/-- `C0_RESUME`. -/
def execC0Resume (t : Nat) (s : State) : Result := .next (c0Resume t s)

/-- `PCIE_LINK_UP`. -/
def execPcieLinkUp (speed : Fin 8) (width : Fin 32) (t : Nat) (s : State) : Result := .next (pcieLinkUp speed width t s)
/-- `BUS_MASTER_CHANGE`. -/
def execBusMasterChange (f : Fin 32) (on : Bool) (t : Nat) (s : State) : Result := .next (busMasterChange f on t s)
/-- `PCIE_ERROR`. -/
def execPcieError (unc : Bool) (s : State) : Result := .next (pcieError unc s)
/-- `PCIE_HOT_RESET`. -/
def execPcieHotReset (s : State) : Result := .next (pcieHotReset s)
/-- `VF_FLR`. -/
def execVfFlr (f : Fin 32) (s : State) : Result := .next (vfFlr f s)
/-- `FUNCTION_D3HOT`. -/
def execFunctionD3hot (f : Fin 32) (enter : Bool) (s : State) : Result := .next (functionD3hot f enter s)
/-- `PERST_ASSERT`. -/
def execPerstAssert (s : State) : Result := .next (perstAssert s)
/-- `BAR4_WRITE`. -/
def execBar4Write (off : Nat) (bs : List (Option Byte)) (s : State) : Result := .next (bar4Write off bs s)
/-- `BAR4_READ`. -/
def execBar4Read (off len : Nat) (ue : Option Channel) (s : State) : Result := .next (bar4Read off len ue s)

end Sys2Proof.Machine
end

