-- ==== Sys2Proof/Machine/Dma.lean ====
section
/-! DEFINITION. The DMA engine (chapter 14): channels, descriptors, reads, the funnel, write-back, halt and restart. -/

namespace Sys2Proof.Machine

/-! ### Channels -/

/-- Channel `c`. -/
def State.chan (s : State) (c : Nat) : DmaChan := tabGet s.dma.chans {} c
/-- Change channel `c`. -/
def State.modChan (s : State) (c : Nat) (f : DmaChan → DmaChan) : State :=
  { s with dma := { s.dma with chans := tabSet s.dma.chans c (f (s.chan c)) } }
/-- Change the running descriptor of channel `c`. -/
def State.modRun (s : State) (c : Nat) (f : DmaRun → DmaRun) : State :=
  s.modChan c fun ch => { ch with run := ch.run.map f }

/-- Entries of the channel's ring. -/
def State.dmaN (s : State) (c : Nat) : Nat := 2 ^ s.get (F.DMA_CH_CFG_LOG2N c)

/-- Channels execute (R352, R362). -/
def State.dmaRuns (s : State) : Bool := s.ringsMode && !s.flag F.DMA_STAT_HALT

/-- The index the channel runs to: TAIL, or the TAIL of its SWPACE run (R351, R354). -/
def State.dmaGoal (s : State) (c : Nat) : Option Nat :=
  if s.flag (F.DMA_CH_CFG_SWPACE c) then (s.chan c).swEnd else some (s.get (F.DMA_CH_TAIL_TAIL c))

/-- The channel has a descriptor left to execute. -/
def State.dmaWork (s : State) (c : Nat) : Bool :=
  if s.flag (F.DMA_CH_CFG_SRC c) then !(s.chan c).queue.isEmpty
  else match s.dmaGoal c with | some g => g != s.get (F.DMA_CH_STAT_CIDX c) | none => false

/-- DMA_CH_STAT.STATE follows the channel; STOPPED stays until RESUME or a disable (Table 14-7). -/
def State.dmaSync (s : State) (c : Nat) : State :=
  if s.get (F.DMA_CH_STAT_STATE c) = 3 ∧ s.flag (F.DMA_CH_CFG_EN c) then s
  else
    let run := (s.chan c).run.isSome
    let on := s.flag (F.DMA_CH_CFG_EN c)
    s.put (F.DMA_CH_STAT_STATE c)
      (if !on && !run then 0 else if s.flag F.DMA_STAT_HALT then 4 else if run || s.dmaWork c then 2 else 1)

/-- The channel stops with an error (R351, R352, R361). -/
def State.dmaStop (s : State) (c err : Nat) : State :=
  (((s.modChan c fun ch => { ch with stop := 0, fetched := [] }).put (F.DMA_CH_STAT_STATE c) 3).put (F.DMA_CH_STAT_ERR c) err)

/-- Stop now, or once the current descriptor has finished. -/
def State.dmaStopSoon (s : State) (c err : Nat) : State :=
  if (s.chan c).run.isSome then s.modChan c fun ch => { ch with stop := if ch.stop = 0 then err else ch.stop }
  else s.dmaStop c err

/-! ### Descriptors (Tables 14-1, 14-2) -/

/-- LEN. -/
def DmaDesc.len (d : DmaDesc) : Nat := leAt d.bytes 0x10 4 % 0x10000000
/-- A flag of Table 14-2. -/
def DmaDesc.flag (d : DmaDesc) (i : Nat) : Bool := bit (leAt d.bytes 0x14 2) i
/-- SRC. -/
def DmaDesc.src (d : DmaDesc) : Nat := leAt d.bytes 0 8
/-- DST. -/
def DmaDesc.dst (d : DmaDesc) : Nat := leAt d.bytes 8 8
/-- FILL. -/
def DmaDesc.fill (d : DmaDesc) : Bool := d.flag 0
/-- CMP. -/
def DmaDesc.cmp (d : DmaDesc) : Bool := d.flag 1

/-- The BAD_DESC conditions of R355. -/
def DmaDesc.bad (d : DmaDesc) : Bool :=
  0x10000000 ≤ leAt d.bytes 0x10 4 || 256 ≤ leAt d.bytes 0x14 2 || leAt d.bytes 0x16 2 != 0 || leAt d.bytes 0x1C 3 != 0 ||
  (d.cmd.isNone && leAt d.bytes 0x1F 1 % 128 != 0) || d.len == 0 || (d.fill && d.cmp) || (d.fill && (d.flag 4 || d.flag 6))

/-- The BAD_ADDR conditions of R355 for a range of channel `c`. -/
def State.dmaBadAddr (s : State) (c : Nat) (dev : Bool) (a n : Nat) : Bool :=
  if dev then !s.flag (F.DMA_CH_CFG_DEVMEM c) || dramSize < a + n else Config.overlapsBar a n

/-- A range of device DRAM meets a protected range or the ring-context area (R355). -/
def State.dmaProtected (s : State) (a n : Nat) : Bool :=
  let base := 4096 * s.get F.Q_CTXBASE_BASE
  s.protAll.any (fun e => overlaps (a, n) e.2.2) || (base != 0 && overlaps (a, n) (base, 0x400000))

/-- The first failing check of a descriptor, 0 when it passes (R355). -/
def State.dmaCheck (s : State) (c : Nat) (d : DmaDesc) : Nat :=
  let range := fun (list : Bool) => if list then 16 else d.len
  if d.bad then 6
  else if (!d.fill && s.dmaBadAddr c (d.flag 4) d.src (range (d.flag 6))) || s.dmaBadAddr c (d.flag 5) d.dst (range (d.flag 7)) then 8
  else if d.flag 5 && !d.flag 7 && s.dmaProtected d.dst d.len then 5
  else if (d.flag 6 && d.src % 16 != 0) || (d.flag 7 && d.dst % 16 != 0) then 7
  else 0

/-! ### Segments (R356, R357) -/

/-- A segment's two ranges overlap. -/
def DmaRun.meets (r : DmaRun) (n : Nat) : Bool :=
  !r.desc.fill && !r.desc.cmp && r.src.dev == r.dst.dev && overlaps (r.src.addr, n) (r.dst.addr, n)

/-- Form the next segment, or end the descriptor, once the last segment is finished and both elements are known. -/
def DmaRun.form (r : DmaRun) : DmaRun :=
  if r.seg.isSome || r.result.isSome then r
  else if r.desc.len ≤ r.pos then { r with result := some (1, 0) }
  else
    let n := min r.src.left r.dst.left
    if n = 0 then r
    else
      let m := r.meets n
      { r with overlap := r.overlap || m,
               seg := some { src := r.src.addr, dst := r.dst.addr, len := n, down := m && r.src.addr < r.dst.addr } }

/-- A finished segment gives its bytes to both sides. -/
def DmaRun.settle (r : DmaRun) : DmaRun :=
  match r.seg with
  | none => r.form
  | some g =>
    if g.written < g.len then r
    else
      let use := fun (d : DmaSide) => { d with addr := d.addr + g.len, left := d.left - g.len }
      DmaRun.form { r with pos := r.pos + g.len, seg := none, src := use r.src, dst := use r.dst }

/-- The stream offset the descriptor has reached. -/
def DmaRun.moved (r : DmaRun) : Nat := r.pos + (match r.seg with | some g => g.written | none => 0)

/-- Bytes of the descriptor not written: all of them for a comparison, which writes none. -/
def DmaRun.resid (r : DmaRun) : Nat := if r.desc.cmp then r.desc.len else r.desc.len - r.moved

/-- The descriptor's run from its start. -/
def State.dmaBegin (s : State) (c : Nat) (d : DmaDesc) : DmaRun :=
  let side := fun (dev list : Bool) (a : Nat) =>
    { dev := dev, list := if list then some a else none, addr := if list then 0 else a, left := if list then 0 else d.len : DmaSide }
  let code := s.dmaCheck c d
  DmaRun.form { desc := d, src := if d.fill then side (d.flag 5) false 0 else side (d.flag 4) (d.flag 6) d.src,
                dst := side (d.flag 5) (d.flag 7) d.dst, result := if code = 0 then none else some (code, d.len) }

/-! ### Completion (R360) -/


/-- The next descriptor of a channel starts when it may: not behind a running one, not in a stopped or disabled channel.
A SWPACE run that has reached its end is over (R351, R354). -/
def State.dmaNext (s : State) (c : Nat) : State :=
  let ch := s.chan c
  if ch.run.isSome || !s.flag (F.DMA_CH_CFG_EN c) || s.get (F.DMA_CH_STAT_STATE c) == 3 || !s.dmaRuns then s.dmaSync c
  else if s.flag (F.DMA_CH_CFG_SRC c) then
    match ch.queue with
    | [] => s.dmaSync c
    | d :: q => (s.modChan c fun ch => { ch with queue := q, run := some (s.dmaBegin c d) }).dmaSync c
  else if ch.swEnd = some (s.get (F.DMA_CH_STAT_CIDX c)) then
    let s := (s.modChan c fun ch => { ch with swEnd := none, swInt := false, fetched := [] }).put (F.DMA_CH_STAT_RUNDONE c) 1
    (if ch.swInt then s.dmaMessage c else s).dmaSync c
  else if !s.dmaWork c then s.dmaSync c
  else match ch.fetched with
    | [] => s.dmaSync c
    | d :: q =>
      if bit (leAt d.bytes 0x1F 1) 7 then
        (s.modChan c fun ch => { ch with fetched := q, run := some (s.dmaBegin c d) }).dmaSync c
      else s.dmaStop c 1

/-- Reads of a channel whose data is no longer wanted: they keep their room until they have returned (R347). -/
def State.dmaForget (s : State) (c : Nat) : State :=
  let kill := fun (r : DmaRead) => if r.ch = c then { r with kind := .dead r.addr r.size } else r
  { s with dma := { s.dma with reads := (s.dma.reads.filter fun r => r.ch != c || r.data.isNone).map kill } }

/-- The running descriptor ends with a CODE and a RESID; its write-back follows. -/
def State.dmaEnd (s : State) (c code resid : Nat) : State :=
  (s.modRun c fun r => { r with result := some (code, resid) }).dmaForget c

/-- The status word. -/
def statusWord (code resid : Nat) : Nat := code * 0x10000000 + resid

/-- The completion of a DMA_COPY command signals a channel's vector once it is posted (R360). -/
def State.intDone (s : State) (ring tag : Nat) (c : Option Nat) : State :=
  { s with cmdDone := mapIf (fun d => d.ring == ring && d.tag == tag) (fun (d : CmdDone) => { d with int := c }) s.cmdDone }

/-- The running descriptor completes with its status word: written back or posted, counted, signalled; CIDX moves on, but in a
channel enabled anew meanwhile; the channel stops if that is due (R351, R352, R360). -/
def State.dmaComplete (s : State) (c code resid : Nat) : State :=
  let ch := s.chan c
  match ch.run with
  | none => s
  | some r =>
    let st := statusWord code resid
    let s := match r.desc.cmd with
      | some (ring, tag) => (s.finishCmd ring tag 0 st).intDone ring tag (if r.desc.flag 3 then some c else none)
      | none => (s.hostWrite (r.desc.addr + 0x18) (leBytes 4 st ++ leBytes 3 0)).hostWrite (r.desc.addr + 0x1F) [0]
    let s := (s.bump (F.DMA_CH_DONE_COUNT c)).sample 5 c (s.dt - r.desc.since)
    let s := if r.desc.cmd.isSome || (ch.closing && s.flag (F.DMA_CH_CFG_EN c)) then s
      else s.put (F.DMA_CH_STAT_CIDX c) ((s.get (F.DMA_CH_STAT_CIDX c) + 1) % s.dmaN c)
    let int := r.desc.flag 3 && r.desc.cmd.isNone
    let s := if int && ch.swEnd.isNone then s.dmaMessage c else s
    let s := (s.modChan c fun ch => { ch with run := none, closing := false, swInt := ch.swInt || (int && ch.swEnd.isSome) }).dmaForget c
    let s := if code = 9 then s.dmaStop c 4 else if ch.stop ≠ 0 then s.dmaStop c ch.stop else s
    s.dmaNext c

/-- With BAR, a copy to the host completes only after a read at the last DW written has returned (R360). -/
def DmaRun.barrier (r : DmaRun) : Bool :=
  r.result == some (1, 0) && r.desc.flag 2 && !r.dst.dev && !r.desc.cmp && !r.seen

/-- `DMA_WRITEBACK`: a descriptor that has ended is written back, once its barrier is through and the host can be reached. -/
def dmaWriteback (c : Nat) (s : State) : State :=
  match (s.chan c).run with
  | none => s
  | some r =>
    match r.result with
    | none => s
    | some (code, resid) =>
      s.whenever (s.dmaRuns && !r.barrier && (r.desc.cmd.isSome || s.hostUp (s.dmaFunc c))) fun s => s.dmaComplete c code resid

/-! ### Channel registers (R351 to R354) -/

/-- TAIL of N or more. -/
def State.dmaBadTail (s : State) (c : Nat) : Bool :=
  !s.flag (F.DMA_CH_CFG_SRC c) && s.dmaN c ≤ s.get (F.DMA_CH_TAIL_TAIL c)

/-- A write of DMA_CH_TAIL. -/
def dmaChTailWrite (c : Nat) (v : Word) (s : State) : State :=
  s.whenever (s.access (R.DMA_CH_TAIL c)) fun s =>
    let s := s.put (F.DMA_CH_TAIL_TAIL c) (v.toNat % 65536)
    if !s.flag (F.DMA_CH_CFG_EN c) || s.flag (F.DMA_CH_CFG_SWPACE c) || s.flag (F.DMA_CH_CFG_SRC c) then s
    else if s.dmaBadTail c && s.get (F.DMA_CH_STAT_STATE c) != 3 then s.dmaStopSoon c 2
    else s.dmaNext c

/-- The fields of DMA_CH_CFG but RATE and EN. -/
def dmaFixed (w : Word) : Word := w &&& 0xF8001F1C#32

/-- DMA_COPY descriptors that have not started complete with CANCELLED. -/
def State.dmaCancel (s : State) (c : Nat) : State :=
  let q := (s.chan c).queue
  let s := s.modChan c fun ch => { ch with queue := [], fetched := [], swEnd := none, swInt := false, stop := 0 }
  q.foldl (fun s d => match d.cmd with
    | some (ring, tag) => s.finishCmd ring tag 0 (statusWord 0xA d.len)
    | none => s) s

/-- A write of DMA_CH_CFG. -/
def dmaChCfgWrite (c : Nat) (v : Word) (s : State) : State :=
  s.whenever (s.access (R.DMA_CH_CFG c)) fun s =>
    let a := R.DMA_CH_CFG c
    let w := v &&& 0xF8FF1F1D#32
    let on := w.getLsbD 0
    if s.flag (F.DMA_CH_CFG_EN c) then
      if dmaFixed w ≠ dmaFixed (s.reg a) then s.put (F.DMA_CH_STAT_VALUE_REJ c) 1
      else if on then s.setReg a w
      else
        let s := ((s.setReg a w).dmaCancel c).put (F.DMA_CH_STAT_STATE c) 0
        (s.modChan c fun ch => { ch with closing := ch.run.isSome }).dmaSync c
    else if on then
      if !within (fieldOf (F.DMA_CH_CFG_LOG2N c) w) 4 16 then s.put (F.DMA_CH_STAT_VALUE_REJ c) 1
      else
        let s := (s.setReg a w).put (F.DMA_CH_STAT_CIDX c) 0
        let now := s.dt / 1000
        let s := s.modChan c fun ch => { ch with spent := 0, first := true, window := now }
        (((s.put (F.DMA_CH_TAIL_TAIL c) 0).put (F.DMA_CH_STAT_ERR c) 0).put (F.DMA_CH_STAT_STATE c) 1).dmaSync c
    else s.setReg a w

/-- DMA_CH_CMD.STOP. -/
def dmaChStop (c : Nat) (s : State) : State :=
  s.whenever (s.access (R.DMA_CH_CMD c) && s.flag (F.DMA_CH_CFG_EN c) && s.get (F.DMA_CH_STAT_STATE c) != 3) fun s =>
    s.dmaStopSoon c 3

/-- DMA_CH_CMD.RESUME. -/
def dmaChResume (c : Nat) (s : State) : State :=
  s.whenever (s.access (R.DMA_CH_CMD c) && s.flag (F.DMA_CH_CFG_EN c) && s.get (F.DMA_CH_STAT_STATE c) == 3) fun s =>
    let s := (s.put (F.DMA_CH_STAT_STATE c) 1).put (F.DMA_CH_STAT_ERR c) 0
    if !s.flag (F.DMA_CH_CFG_SWPACE c) && s.dmaBadTail c then s.dmaStop c 2 else s.dmaNext c

/-- DMA_CH_CMD.START. -/
def dmaChStart (c : Nat) (s : State) : State :=
  s.whenever (s.access (R.DMA_CH_CMD c)) fun s =>
    if !s.flag (F.DMA_CH_CFG_EN c) || !s.flag (F.DMA_CH_CFG_SWPACE c) || s.flag (F.DMA_CH_CFG_SRC c) || (s.chan c).swEnd.isSome then
      s.put (F.DMA_CH_STAT_VALUE_REJ c) 1
    else if s.dmaBadTail c then s.dmaStopSoon c 2
    else
      let tail := s.get (F.DMA_CH_TAIL_TAIL c)
      (s.modChan c fun ch => { ch with swEnd := some tail, swInt := false }).dmaNext c

/-- The entry a fetch of the channel begins at. -/
def State.dmaFetchAt (s : State) (c : Nat) : Nat :=
  let ch := s.chan c
  (s.get (F.DMA_CH_STAT_CIDX c) + (if ch.run.isSome && !ch.closing then 1 else 0)) % s.dmaN c

/-- The host address of entry `i` of the channel's ring. -/
def State.dmaEntry (s : State) (c i : Nat) : Nat :=
  4096 * s.get (F.DMA_CH_BASE_LO_BASE c) + 4294967296 * s.get (F.DMA_CH_BASE_HI_BASE c) + 32 * i

/-- A ring channel may read descriptors now. -/
def State.dmaFetchDue (s : State) (c : Nat) : Bool :=
  s.dmaRuns && s.flag (F.DMA_CH_CFG_EN c) && !s.flag (F.DMA_CH_CFG_SRC c) && s.get (F.DMA_CH_STAT_STATE c) != 3 &&
  s.hostUp (s.dmaFunc c) && (s.chan c).fetched.isEmpty && !s.dmaBadTail c &&
  (match s.dmaGoal c with | some g => g != s.dmaFetchAt c | none => false)

/-- A DMA_COPY of another ring for the same channel was fetched earlier and has not started (R350). -/
def State.copyAhead (s : State) (id : Nat) (cmd : RingCmd) : Bool :=
  let c := leAt cmd.bytes 0x10 1
  s.rings.any fun e => e.1 != id && s.ringFunc e.1 == some (s.dmaFunc c) && e.2.cmds.any fun x =>
    !x.started && opcodeOf x.bytes == 5 && leAt x.bytes 0x10 1 == c && decide (x.order < cmd.order)

/-- `DMA_COPY` (R349, R350): its descriptor joins the channel named, in the order of the fetches; a disabled channel cancels
it. -/
def dmaCopy (id t : Nat) (s : State) : State :=
  s.whenever (!(s.nextCmd id).any fun cmd => s.copyAhead id cmd) fun s => s.ringStart id 5 0 t fun cmd s =>
    let c := leAt cmd.bytes 0x10 1
    let d : DmaDesc := { bytes := (cmd.bytes.drop 0x18).take 32, cmd := some (id, cmd.tag), since := s.dt }
    if s.ringFunc id ≠ some (s.dmaFunc c) then s.finishCmd id cmd.tag 3 0
    else if !s.flag (F.DMA_CH_CFG_SRC c) then s.finishCmd id cmd.tag 2 0
    else if !s.flag (F.DMA_CH_CFG_EN c) then s.finishCmd id cmd.tag 0 (statusWord 0xA d.len)
    else (s.modChan c fun ch => { ch with queue := ch.queue ++ [d] }).dmaNext c

/-! ### Pacing (R353) -/

/-- The peak P of the running descriptor in bytes per µs. -/
def State.dmaPeak (s : State) (c : Nat) : Nat :=
  let dev := match (s.chan c).run with | some r => r.src.dev && r.dst.dev | none => false
  if dev then 64000 else let p := s.pciePeak; p.n / (p.d * 1000000)

/-- The budget B of a window. -/
def State.dmaBudget (s : State) (c : Nat) : Nat := (s.get (F.DMA_CH_CFG_RATE c) + 1) * s.dmaPeak c / 256

/-- A window has begun: the budget is renewed, an overrun is charged to it. -/
def State.dmaWindow (s : State) (c : Nat) : State :=
  let w := s.dt / 1000
  if w ≤ (s.chan c).window then s
  else
    let b := s.dmaBudget c
    s.modChan c fun ch => { ch with spent := ch.spent - b * (w - ch.window), window := w, first := true }

/-- A request of `n` bytes fits in what is left of the channel's window, or is its first (R353). -/
def State.dmaFits (s : State) (c n : Nat) : Bool :=
  s.flag (F.DMA_CH_CFG_SWPACE c) || (s.chan c).first || (s.chan c).spent + n ≤ s.dmaBudget c

/-- A request of `n` bytes is charged; a SWPACE run is not paced (R353, R354). -/
def State.dmaCharge (s : State) (c n : Nat) : State :=
  if s.flag (F.DMA_CH_CFG_SWPACE c) then s else s.modChan c fun ch => { ch with spent := ch.spent + n, first := false }

/-- Bytes a channel has reserved in the reorder buffer. -/
def State.dmaReserved (s : State) (c : Nat) : Nat := s.dma.reads.foldl (fun a r => if r.ch = c then a + r.size else a) 0

/-- A read of `n` bytes of the channel finds room (R347). -/
def State.dmaRoom (s : State) (c n : Nat) : Bool := s.dmaReserved c + n ≤ 0x10000 && s.readRoom n

/-- `DMA_DESC_FETCH`: up to 8 descriptors toward the tail, in one read that crosses no 512 B boundary and is charged like every
other. -/
def dmaDescFetch (c : Nat) (descs : List (List Byte)) (s : State) : State :=
  let s' := s.dmaWindow c
  let i := s.dmaFetchAt c
  let left := ((s.dmaGoal c).getD 0 + s.dmaN c - i) % s.dmaN c
  let n := min 8 (min left (16 - i % 16))
  s.whenever (s.dmaFetchDue c && !descs.isEmpty && s.dmaRoom c (32 * n) && s'.dmaFits c (32 * n)) fun _ =>
    let take : List DmaDesc := (List.range (min n descs.length)).map fun k =>
      { bytes := descs.getD k [], addr := s.dmaEntry c (i + k), since := s.dt }
    ((s'.dmaCharge c (32 * n)).modChan c fun ch => { ch with fetched := take }).dmaNext c

/-- `DMA_PACING_WINDOW`. -/
def dmaPacingWindow (t : Nat) (s : State) : State :=
  s.whenever s.ringsMode fun s => (List.range 64).foldl (fun s c => s.dmaWindow c) (s.at t)

/-! ### Requests (R347, R348) -/

/-- A request of a channel: a read, or a FILL write of a length. -/
inductive DmaWant where
  | read (dev : Bool) (k : DmaReadKind) (len : Nat)
  | fill (addr len : Nat)
  deriving DecidableEq, Repr

/-- The bytes a request is charged. -/
def DmaWant.size : DmaWant → Nat
  | .read _ _ n => n
  | .fill _ n => n

/-- A list element, or the last DW written, is being read for the channel. -/
def State.dmaReadsElem (s : State) (c : Nat) : Bool :=
  s.dma.reads.any fun r => r.ch == c && match r.kind with | .elem _ _ => true | .bar _ => true | _ => false

/-- The request the running descriptor has ready; `waits` says that a list element or the barrier is being read. -/
def DmaRun.want (r : DmaRun) (readsElem : Bool) : Option DmaWant :=
  if r.barrier then (if readsElem then none else some (.read false (.bar ((r.dst.addr - 1) / 4 * 4)) 4))
  else if r.result.isSome then none
  else match r.seg with
  | none =>
    if readsElem then none
    else if r.src.left = 0 then r.src.list.map fun a => .read r.src.dev (.elem false a) 16
    else r.dst.list.map fun a => .read r.dst.dev (.elem true a) 16
  | some g =>
    let room := fun (a : Nat) => 512 - a % 512
    let left := g.len - g.issued
    if r.desc.fill then
      let a := g.dst + g.written
      some (.fill a (min (g.len - g.written) (room a)))
    else if g.cmpd < g.issued ∧ r.desc.cmp then
      let n := g.issued - g.cmpd
      some (.read r.dst.dev (.cmp (g.dst + g.cmpd) g.cmpd n) n)
    else if left = 0 then none
    else if g.down then
      let e := g.src + left
      let n := min left ((e - 1) % 512 + 1)
      some (.read r.src.dev (.data (e - n) (left - n) n) n)
    else
      let a := g.src + g.issued
      let n := min left (room a)
      let n := if r.desc.cmp then min n (room (g.dst + g.issued)) else n
      some (.read r.src.dev (.data a g.issued n) n)

/-- A request touches host memory. -/
def DmaRun.wantsHost (r : DmaRun) : DmaWant → Bool
  | .read dev _ _ => !dev
  | .fill _ _ => !r.dst.dev

/-- The request channel `c` can have granted now. -/
def State.dmaReady (s : State) (c : Nat) : Option DmaWant :=
  match (s.chan c).run with
  | none => none
  | some r =>
    match r.want (s.dmaReadsElem c) with
    | none => none
    | some w =>
      let room := match w with | .read _ _ n => s.dmaRoom c n | .fill _ _ => true
      if s.dmaFits c w.size && room && (!r.wantsHost w || s.hostUp (s.dmaFunc c)) then some w else none

/-! ### Grants (R348) -/

/-- Ring service of a class has a request to issue: descriptors to fetch, a frame to copy, an event record or a completion to
post. -/
def State.ringReady (s : State) (cls : Nat) : Bool :=
  s.ringIds.any fun id =>
    let u := s.ringOf id
    u.ctx.cls == cls && u.ctx.active &&
    (if u.ctx.kind = 0 then s.fetchable id
     else if u.ctx.kind = 1 then s.canPost id && !u.ctx.full && (s.doneFor id).isSome
     else if u.ctx.kind = 2 then s.canPost id && !u.items.isEmpty
     else s.canPost id && !u.ctx.full && (u.lost != 0 || !u.out.isEmpty))

/-- Who gets the next request: ring service of a class, or a channel. -/
inductive DmaTurn where
  | ring (cls : Nat)
  | chan (c : Nat) (w : DmaWant)
  deriving DecidableEq, Repr

/-- The next of the rotation in which C2 ring service has the place behind CH63. -/
def State.dmaRotation (s : State) : Option DmaTurn :=
  ((List.range 65).map fun i => (s.dma.rr + 1 + i) % 65).findSome? fun c =>
    if c = 64 then (if s.ringReady 2 then some (.ring 2) else none) else (s.dmaReady c).map fun w => .chan c w

/-- The next grant: C0, C1, the rotation, C3. A grant that C3 is owed comes before one of the rotation, and before one of C1 only
where the rotation has none (R21; taken at once, log entry 181). -/
def State.dmaTurn (s : State) : Option DmaTurn :=
  let c2 := s.dmaRotation
  let owed := s.ringReady 3 && s.dma.floorOwed != 0
  if s.ringReady 0 then some (.ring 0)
  else if s.ringReady 1 then some (if owed && c2.isNone then .ring 3 else .ring 1)
  else if c2.isSome && !owed then c2
  else if s.ringReady 3 then some (.ring 3)
  else none

/-- A new 1 µs window owes C3 its 20 grants again. -/
def State.dmaFloor (s : State) : State :=
  let w := s.dt / 1000
  if w ≤ s.dma.floorAt then s else { s with dma := { s.dma with floorAt := w, floorOwed := 20 } }

/-! ### The funnel (R356 to R361) -/

/-- Write bytes on the destination side in units that no protected range meets; answer how many were written. -/
def State.dmaPut (s : State) (dev : Bool) : Nat → Nat → List Byte → Nat × State
  | 0, _, _ => (0, s)
  | n + 1, a, bs =>
    if !dev then (bs.length, s.hostWrite a bs)
    else if bs.isEmpty then (0, s)
    else
      let k := min bs.length (64 - a % 64)
      if s.dmaProtected a k then (0, s)
      else
        let (m, s) := (s.dramWrite a (bs.take k)).dmaPut dev n (a + k) (bs.drop k)
        (k + m, s)

/-- Bytes were committed by the channel. -/
def State.dmaBytes (s : State) (c n : Nat) : State :=
  let lo := F.DMA_CH_BYTES_LO_BYTES c
  let hi := F.DMA_CH_BYTES_HI_BYTES c
  s.put64 lo hi (min (s.get64 lo hi + n) (2 ^ 64 - 1))

/-- Write a piece of the present segment at offset `off`; a protected range ends the descriptor (R361). -/
def State.dmaWrite (s : State) (c off : Nat) (bs : List Byte) : State :=
  match (s.chan c).run with
  | none => s
  | some r =>
    match r.seg with
    | none => s
    | some g =>
      let (n, s) := s.dmaPut r.dst.dev (bs.length / 64 + 2) (g.dst + off) bs
      let s := s.dmaBytes c n
      let r' := { r with seg := some { g with written := g.written + n } }
      if n < bs.length then (s.modRun c fun _ => r').dmaEnd c 5 r'.resid
      else s.modRun c fun _ => r'.settle

/-- The offset of the first difference of two lists. -/
def firstDiff : List Byte → List Byte → Option Nat
  | a :: as, b :: bs => if a = b then (firstDiff as bs).map (· + 1) else some 0
  | _, _ => none

/-- The side takes a list element, when it is well formed (R355): ELEN not 0, no reserved bit set, the END flag on the element
that LEN ends in and on no other, at most 65,536 elements. -/
def DmaSide.take (side : DmaSide) (rem : Nat) (bs : List Byte) : Option DmaSide :=
  let n := leAt bs 8 4
  let fl := leAt bs 0xC 4
  if n = 0 ∨ 0x10000000 ≤ n ∨ 2 ≤ fl ∨ rem < n ∨ (n = rem ∧ fl = 0) ∨ (n < rem ∧ fl = 1) ∨ 65536 ≤ side.elems then none
  else some { side with addr := leAt bs 0 8, left := n, elems := side.elems + 1, list := side.list.map (· + 16) }

/-- Take the element a list read has returned (R355). -/
def State.dmaElement (s : State) (c : Nat) (dst : Bool) (bs : List Byte) : State :=
  match (s.chan c).run with
  | none => s
  | some r =>
    let side := if dst then r.dst else r.src
    match side.take (r.desc.len - r.pos) bs with
    | none => s.dmaEnd c 7 r.resid
    | some x =>
      if s.dmaBadAddr c x.dev x.addr x.left ∨ (leAt bs 0xC 4 = 0 ∧ s.dmaBadAddr c x.dev (x.list.getD 0) 16) then
        s.dmaEnd c 8 r.resid
      else if dst && x.dev && s.dmaProtected x.addr x.left then s.dmaEnd c 5 r.resid
      else s.modRun c fun r => DmaRun.form (if dst then { r with dst := x } else { r with src := x })

/-- Drop reads from the reorder buffer. -/
def State.dmaDrop (s : State) (ids : List Nat) : State :=
  { s with dma := { s.dma with reads := s.dma.reads.filter fun r => !ids.contains r.id } }

/-- Consume the channel's oldest read while its data is there. -/
def State.dmaDrain (s : State) (c : Nat) : Nat → State
  | 0 => s
  | fuel + 1 =>
    let own := s.dma.reads.filter fun r => r.ch == c && !r.isDead
    match own with
    | [] => s
    | r :: rest =>
      match r.data with
      | none => s
      | some bs =>
        let run := (s.chan c).run
        let resid := match run with | some x => x.resid | none => 0
        let cmp := match run with | some x => x.desc.cmp | none => false
        if r.ecc.isSome then (s.dmaDrop [r.id]).dmaEnd c 9 resid
        else match r.kind with
        | .elem dst _ => ((s.dmaDrop [r.id]).dmaElement c dst bs).dmaDrain c fuel
        | .bar _ => ((s.dmaDrop [r.id]).modRun c fun x => { x with seen := true }).dmaDrain c fuel
        | .data _ off n =>
          if !cmp then ((s.dmaDrop [r.id]).dmaWrite c off bs).dmaDrain c fuel
          else match rest with
            | [] => s
            | q :: _ => match q.data with
              | none => s
              | some ds =>
                let s := s.dmaDrop [r.id, q.id]
                if q.ecc.isSome then s.dmaEnd c 9 resid
                else match firstDiff bs ds with
                  | some k => s.dmaEnd c 2 ((match run with | some x => x.moved | none => 0) + k)
                  | none => (s.modRun c fun (x : DmaRun) => ({ x with seg := x.seg.map fun g => { g with written := g.written + n } } : DmaRun).settle).dmaDrain c fuel
        | _ => s

/-- Grant a request of channel `c`. -/
def State.dmaGrant (s : State) (c : Nat) (w : DmaWant) : State :=
  let s := s.dmaCharge c w.size
  let s : State := { s with dma := { s.dma with rr := c } }
  match w with
  | .fill a n =>
    let pat := match (s.chan c).run with | some r => r.desc.bytes.take 8 | none => []
    let off := match (s.chan c).run with | some r => (match r.seg with | some g => a - g.dst | none => 0) | none => 0
    s.dmaWrite c off ((List.range n).map fun i => pat.getD ((a + i) % 8) 0)
  | .read dev k n =>
    let rd : DmaRead := { id := s.dma.nextId, ch := c, dev := dev, kind := k }
    let s : State := { s with dma := { s.dma with reads := s.dma.reads ++ [rd], nextId := s.dma.nextId + 1 } }
    s.modRun c fun r => { r with seg := r.seg.map fun g => match k with
      | .data _ _ _ => { g with issued := g.issued + n }
      | .cmp _ _ _ => { g with cmpd := g.cmpd + n }
      | _ => g }

/-- `DMA_READ_ISSUE`: the next grant (R348). A grant to ring service takes its turn; the request itself comes with ring service's
own command. Data that came while no channel could execute is consumed first (R352). -/
def dmaReadIssue (t : Nat) (s : State) : State :=
  s.whenever s.dmaRuns fun s =>
    let s := ((List.range 64).foldl (fun s c => ((s.dmaDrain c 129).dmaNext c).dmaWindow c) (s.at t)).dmaFloor
    match s.dmaTurn with
    | none => s
    | some (.ring cls) =>
      if cls = 2 then { s with dma := { s.dma with rr := 64 } }
      else if cls = 3 then { s with dma := { s.dma with floorOwed := s.dma.floorOwed - 1 } }
      else s
    | some (.chan c w) => s.dmaGrant c w

/-- An uncorrectable word of a read of `n` bytes at `a`, on channel `ch`: which of the channel's bytes is free; one of a ring context
halts the ring (R323, R361). -/
def State.dmaUe (s : State) (ch a n : Nat) : State :=
  let on := (List.range n).filter fun i => chanOf (a + i) == ch
  let (v, s) := s.freshUpTo (on.length - 1)
  let x := a + on.getD v 0
  (s.dramUEAt ch x).ctxUe x

/-- `DMA_READ_COMPLETION`: host data comes with the completion, device data from DRAM; `ecc` names the channel of an
uncorrectable word, and a range on a lost channel is uncorrectable without a report (R383). During a halt the data is discarded
(R362); outside SETUP, RUN and THROTTLED no channel consumes it, and device DRAM does not answer (R352). -/
def dmaReadCompletion (id : Nat) (data : List Byte) (ecc : Option Nat) (s : State) : State :=
  match s.dma.reads.find? fun r => r.id == id && r.data.isNone with
  | none => s
  | some r =>
    if s.flag F.DMA_STAT_HALT || r.isDead then s.dmaDrop [id]
    else
      let a := r.addr
      let bs := if r.dev then s.dramRead a r.size else data
      if bs.length ≠ r.size ∨ (r.dev ∧ !s.ringsMode) then s
      else
        let e := if r.dev then ecc else none
        let lost := if r.dev && s.rangeLost a r.size then some (chanOf a) else none
        let s := match lost, e with
          | none, some ch => s.dmaUe ch a r.size
          | _, _ => s
        let put := fun (x : DmaRead) => if x.id = id then { x with data := some bs, ecc := (lost <|> e) } else x
        let s : State := { s with dma := { s.dma with reads := s.dma.reads.map put } }
        if s.ringsMode then s.dmaDrain r.ch 129 else s

/-! ### Halt and restart (R362 to R367) -/

/-- Step 1 and the discards of step 2; a frame copy that runs becomes a gap (R340). -/
def State.dmaStopAll (s : State) (cause : Nat) : State :=
  let t := s.dt
  let s := ((s.put F.DMA_STAT_HALT 1).put F.DMA_STAT_CAUSE cause).bump F.DMA_CNT_HALTS
  let s : State := { s with dma := { s.dma with reads := s.dma.reads.filter fun r => r.data.isNone } }
  let s := s.ringIds.foldl (fun s id => s.modRingU id fun u =>
    { u with items := mergeGaps (u.items.map fun i => i.lose (fun _ => true) 5 t) }) s
  (List.range 64).foldl (fun s c => s.dmaSync c) s

/-- The halt's first step with its UC under source 45 and the record of the failing request. -/
def State.dmaFail (s : State) (link : Bool) (ch : Option Nat) (left addr : Nat) : State :=
  let s := s.dmaStopAll (if link then 2 else 1)
  let s := (s.putB F.DMA_STAT_RINGSVC ch.isNone).put F.DMA_STAT_CH (ch.getD 0)
  let busy := match ch with | some c => (s.chan c).run.isSome | none => false
  let s : State := { s with dma := { s.dma with failing := if busy then ch else none, failLeft := left, failAddr := addr } }
  s.raise 45 .uc (detailWord (match ch with | some c => c | none => 0xFF) 31 0x004)

/-- Bytes of the final beat of a read (R364). -/
def lastBeat (a n : Nat) : Nat := min n ((a + n - 1) % 64 + 1)

/-- `DMA_HALT`: a request fails. `data` is what its completion delivered before the failing beat. -/
def dmaHalt (q : DmaReq) (link : Bool) (data : List Byte) (s : State) : State :=
  s.whenever (s.up && link == (link && !s.flag F.Q_STAT_LINKUP)) fun s =>
    let halted := s.flag F.DMA_STAT_HALT
    match q with
    | .read id =>
      match s.dma.reads.find? fun r => r.id == id && r.data.isNone && !r.dev with
      | none => s
      | some r =>
        let s := s.dmaDrop [id]
        if halted then s
        else
          let c := r.ch
          let resid := match (s.chan c).run with | some x => x.resid | none => 0
          match r.kind with
          | .data a off n =>
            let beat := lastBeat a n
            let cmp := match (s.chan c).run with | some x => x.desc.cmp | none => false
            if resid = n ∧ data.length = n - beat ∧ !cmp then
              let s := s.dmaWrite c off data
              s.dmaFail link (some c) (match (s.chan c).run with | some x => x.resid | none => 0) (a + n - beat)
            else s.dmaFail link (some c) resid a
          | .cmp a _ _ => s.dmaFail link (some c) resid a
          | .elem _ a => s.dmaFail link (some c) resid a
          | .bar a => s.dmaFail link (some c) 0 a
          | .dead a _ =>
            let s := s.dmaFail link (some c) 0 a
            { s with dma := { s.dma with failing := none } }
    | .fetch c =>
      s.whenever (!halted && (s.dmaFetchDue c || (link && s.flag (F.DMA_CH_CFG_EN c)))) fun s =>
        let a := s.dmaEntry c (s.dmaFetchAt c)
        let s := s.dmaFail link (some c) 0 a
        { s with dma := { s.dma with failing := none } }
    | .bar c =>
      match (s.chan c).run with
      | none => s
      | some r =>
        s.whenever (!halted && r.barrier) fun s =>
          let s : State := { s with dma := { s.dma with reads := s.dma.reads.filter fun x => x.ch != c } }
          s.dmaFail link (some c) 0 ((r.dst.addr - 1) / 4 * 4)
    | .ring id =>
      let u := s.ringOf id
      s.whenever (!halted && u.ctx.en) fun s =>
        let s := s.dmaFail link none 0 (u.ctx.rbase + 64 * u.ctx.cidx)
        if u.ctx.kind = 0 then s.haltRing id 3 else s

/-- The link leaves L0 (R318, R343): a UC, and a host read that is outstanding fails (R362). -/
def pcieLinkDown (t : Nat) (s : State) : State :=
  s.whenever (s.up && s.flag F.Q_STAT_LINKUP) fun s =>
    let s := ((s.at t).put F.Q_STAT_LINKUP 0).bump F.Q_LINKCNT_DOWN
    let s : State := { s with pcie := { s.pcie with downAt := s.dt, reported := false } }
    let s := s.raise 44 .uc (detailWord 0xFF 31 0x004)
    match s.dma.reads.find? fun r => !r.dev && r.data.isNone with
    | some r => dmaHalt (.read r.id) true [] s
    | none => s

/-- A segment of what is left of a descriptor overlaps (R357): none where that rests on a list element in host memory that has not
been read. -/
def State.dmaLater (s : State) (r : DmaRun) : Nat → Option Bool
  | 0 => some false
  | n + 1 =>
    if r.overlap then some true
    else if r.result.isSome then some false
    else match r.seg with
    | some g => s.dmaLater ({ r with seg := some { g with written := g.len } } : DmaRun).settle n
    | none =>
      let dst := r.src.left != 0
      let side := if dst then r.dst else r.src
      match side.list with
      | none => some false
      | some a =>
        if !side.dev then none
        else match side.take (r.desc.len - r.pos) (s.dramRead a 16) with
          | none => some false
          | some x => s.dmaLater (DmaRun.form (if dst then { r with dst := x } else { r with src := x })) n

/-- The running descriptor is an overlapping one (R357). Where a host list not yet read decides it, the answer is free (log entry
122). -/
def State.dmaOverlaps (s : State) (r : DmaRun) : Bool × State :=
  if r.overlap then (true, s)
  else if r.desc.fill || r.desc.cmp || r.src.dev != r.dst.dev then (false, s)
  else match s.dmaLater r 262144 with
    | some b => (b, s)
    | none => let (v, s) := s.freshUpTo 1; (v == 1, s)

/-- A running descriptor at step 3: the failing one and an overlapping one complete, any other goes back to wait. -/
def State.dmaSettle (s : State) (c : Nat) : State :=
  match (s.chan c).run with
  | none => s
  | some r =>
    let (ovl, s) := if s.dma.failing = some c then (false, s) else s.dmaOverlaps r
    let up := r.desc.cmd.isSome || s.hostUp (s.dmaFunc c)
    let finish := fun (s : State) code resid => if up then s.dmaComplete c code resid else s.dmaEnd c code resid
    if s.dma.failing = some c then
      (finish s 3 s.dma.failLeft).setReg R.DMA_HALTINFO (BitVec.ofNat 32 (statusWord 3 s.dma.failLeft))
    else if ovl then finish s 4 r.resid
    else if (s.chan c).closing then
      let s := match r.desc.cmd with
        | some (ring, tag) => s.finishCmd ring tag 0 (statusWord 0xA r.desc.len)
        | none => s
      (s.modChan c fun ch => { ch with run := none, closing := false }).dmaSync c
    else
      let s := s.modChan c fun ch =>
        if r.desc.cmd.isSome then { ch with run := none, queue := r.desc :: ch.queue }
        else { ch with run := none, fetched := r.desc :: ch.fetched }
      (if (s.chan c).stop ≠ 0 then s.dmaStop c (s.chan c).stop else s).dmaSync c

/-- `DMA_SETTLED`: nothing is outstanding. -/
def dmaSettled (s : State) : State :=
  s.whenever (s.flag F.DMA_STAT_HALT && !s.flag F.DMA_STAT_SETTLED && s.dma.reads.isEmpty) fun s =>
    let s := (s.put F.DMA_STAT_SETTLED 1).setReg R.DMA_HALTINFO 0
    let s := (s.put F.DMA_HALTADDR_LO_ADDR (s.dma.failAddr % 4294967296)).put F.DMA_HALTADDR_HI_ADDR (s.dma.failAddr / 4294967296)
    let s := (List.range 64).foldl (fun s c => s.dmaSettle c) s
    { s with dma := { s.dma with failing := none } }

/-- The engine runs again (R366). -/
def State.dmaResume (s : State) : State :=
  let s := (s.put F.DMA_STAT_HALT 0).put F.DMA_STAT_SETTLED 0
  ((List.range 64).foldl (fun s c => s.dmaNext c) s).markC0

/-- DMA_CMD.RESTART. -/
def dmaRestart (s : State) : State :=
  s.whenever (s.access R.DMA_CMD) fun s =>
    if s.flag F.DMA_STAT_SETTLED && s.flag F.Q_STAT_LINKUP && s.ringsMode then s.dmaResume else s.put F.DMA_STAT_CMDREJ 1

/-- `DMA_AUTO_RESTART`. -/
def dmaAutoRestart (s : State) : State :=
  s.whenever (s.flag F.DMA_STAT_HALT && s.flag F.DMA_STAT_SETTLED && s.get F.DMA_STAT_CAUSE == 2 && s.flag F.Q_STAT_LINKUP &&
      s.flag F.Q_STAT_BME) fun s => (s.bump F.DMA_CNT_AUTORST).dmaResume

/-- SAFE halts the engine without a fault (R367). -/
def State.dmaSafe (s : State) : State :=
  if s.flag F.DMA_STAT_HALT then s.put F.DMA_STAT_CAUSE 3
  else
    let s := s.dmaStopAll 3
    let s := (s.put F.DMA_STAT_RINGSVC 0).put F.DMA_STAT_CH 0
    { s with dma := { s.dma with failing := none, failLeft := 0, failAddr := 0 } }

/-- DMA_CMD.CLRCNT. -/
def dmaClrcnt (s : State) : State :=
  s.whenever (s.access R.DMA_CMD) fun s =>
    (List.range 64).foldl (fun s c => s.setReg (R.DMA_CH_DONE c) 0) (s.setReg R.DMA_CNT 0)

/-! ### Meanings -/

/-- `PCIE_LINK_DOWN`. -/
def execPcieLinkDown (t : Nat) (s : State) : Result := .next (pcieLinkDown t s)
/-- `DMA_COPY`. -/
def execDmaCopy (ring t : Nat) (s : State) : Result := .next (dmaCopy ring t s)
/-- `DMA_CH_TAIL_WRITE`. -/
def execDmaChTailWrite (c : DmaCh) (v : Word) (s : State) : Result := .next (dmaChTailWrite c v s)
/-- `DMA_CH_CFG_WRITE`. -/
def execDmaChCfgWrite (c : DmaCh) (v : Word) (s : State) : Result := .next (dmaChCfgWrite c v s)
/-- `DMA_CH_STOP`. -/
def execDmaChStop (c : DmaCh) (s : State) : Result := .next (dmaChStop c s)
/-- `DMA_CH_RESUME`. -/
def execDmaChResume (c : DmaCh) (s : State) : Result := .next (dmaChResume c s)
/-- `DMA_CH_START`. -/
def execDmaChStart (c : DmaCh) (s : State) : Result := .next (dmaChStart c s)
/-- `DMA_DESC_FETCH`. -/
def execDmaDescFetch (c : DmaCh) (ds : List (List Byte)) (s : State) : Result := .next (dmaDescFetch c ds s)
/-- `DMA_READ_ISSUE`. -/
def execDmaReadIssue (t : Nat) (s : State) : Result := .next (dmaReadIssue t s)
/-- `DMA_READ_COMPLETION`. -/
def execDmaReadCompletion (id : Nat) (data : List Byte) (ecc : Option Channel) (s : State) : Result :=
  .next (dmaReadCompletion id data (ecc.map Fin.val) s)
/-- `DMA_PACING_WINDOW`. -/
def execDmaPacingWindow (t : Nat) (s : State) : Result := .next (dmaPacingWindow t s)
/-- `DMA_WRITEBACK`. -/
def execDmaWriteback (c : DmaCh) (s : State) : Result := .next (dmaWriteback c s)
/-- `DMA_HALT`. -/
def execDmaHalt (q : DmaReq) (link : Bool) (data : List Byte) (s : State) : Result := .next (dmaHalt q link data s)
/-- `DMA_SETTLED`. -/
def execDmaSettled (s : State) : Result := .next (dmaSettled s)
/-- `RESTART`. -/
def execDmaRestart (s : State) : Result := .next (dmaRestart s)
/-- `DMA_AUTO_RESTART`. -/
def execDmaAutoRestart (s : State) : Result := .next (dmaAutoRestart s)
/-- `DMA_CLRCNT`. -/
def execDmaClrcnt (s : State) : Result := .next (dmaClrcnt s)

end Sys2Proof.Machine
end

