-- ==== Sys2Proof/Machine/Safe.lean ====
section
/-! DEFINITION. Mode changes (R402) and the entry to SAFE (R411, R412), the one operation every SAFE cause shares. -/

namespace Sys2Proof.Machine

/-! ### Mode changes (R402) -/

/-- The mode alone. -/
def State.setMode (s : State) (m : Mode) : State := { s with mode := m }

/-- The device changes mode: SYS_MODESTAT.CAUSE takes the cause code and a MODE record is written (R402, Table 15-4). -/
def State.modeTo (s : State) (m : Mode) (cause : Nat) : State :=
  let old := s.mode
  let s := (s.setMode m).put F.SYS_MODESTAT_CAUSE cause
  s.log { type := 5, info := [BitVec.ofNat 8 old.code, BitVec.ofNat 8 cause] }

/-! ### The end of streaming (R111, R200, R314) -/

/-- A head stops streaming: its events and its transactions end with ABORTED (R200, R314; log entry 36). -/
def State.headStopped (s : State) (h : Nat) : State :=
  let s := if (s.shut h).active then s.shutEnd h 0xA else s
  let s := if (s.shut h).refitPhase ≠ 0 then s.refitEnd h 0xA else s
  s.txnHeadStopped h

/-- Timing of a head that no longer streams. -/
def State.clearTiming (s : State) (h : Nat) : State :=
  (s.put (F.HP_STAT_STREAM h) 0).modHead h fun u =>
    { u with lastStart := none, startPending := none, blankFrom := none, heldRun := 0, openTest := false, pgaDone := false }


/-! ### DRAM (R404, R412) -/

/-- Trained channels enter self-refresh, keeping their contents; a channel in self-refresh is not in service (log
entry 57, DEDUCED). DRAM scrub stops (R393). -/
def State.dramSleep (s : State) : State :=
  (s.forEach 16 (fun c => s.flag (F.DR_CSTAT_TRAINED c)) fun c s =>
    (s.put (F.DR_CSTAT_TRAINED c) 0).put (F.DR_CSTAT_SREF c) 1).churnDrop fun j => j.act == .m8 && 16 ≤ j.res

/-! ### SAFE (R411, R412) -/

/-- The bit of SYS_SAFECAUSE of a cause code (Tables 16-2 and 16-4). -/
def safeBit (code : Nat) : Nat :=
  if code = 1 then 0 else if code = 4 then 1 else if code = 5 then 2 else if code = 6 then 3
  else if code = 7 then 4 else if code = 8 then 5 else 6

/-- The order of causes that arrive together, the first the smallest (R411). -/
def safeRank (code : Nat) : Nat :=
  if code = 7 then 0 else if code = 6 then 1 else if code = 4 then 2 else if code = 8 then 3
  else if code = 9 then 4 else if code = 5 then 5 else 6

/-- A transition in progress is abandoned (R404, R411): the evaluation of a RUN command or of a SYS_STREAM write decides
nothing any more. -/
def State.abandon (s : State) : State :=
  let dead := fun (q : PlanReq) => q.kind == .runCmd || q.kind == .stream
  let s : State := { s with
    power := { s.power with trans := none }
    planQ := s.planQ.filter fun q => !dead q
    planRun := s.planRun.map fun q => if dead q then { kind := .eval } else q }
  s.put F.SYS_MODESTAT_BUSY 0

/-- HSUP goes off once the close that SAFE orders has ended; at once where no shutter closes (R54). -/
def State.supplyOff (s : State) (h : Nat) : State :=
  let u := s.head h
  let closing := match u.drive with | some d => d.close | none => false
  if u.driveWait == some true || closing then s.modHead h fun u => { u with supOffAfterClose := true } else s.hsupOff h

/-- Step 1 and the posting of step 3 of R412: transactions, jobs, shutter events and refits end, and their completions are
posted before ring processing stops (R345). -/
def State.safeEndWork (s : State) (old : Mode) : State :=
  let s := s.txnAbortAll
  let s := s.jobs.foldl (fun s j => s.jobEnd j 5) s
  let s := s.mcFinish 8
  let s := s.forEach 8 (fun _ => true) fun h s => s.headStopped h
  let s := s.setMode old
  let s := s.cmdDone.foldl (fun s d => s.postCompletion (s.cqOf d.ring)) s
  s.setMode .safe

/-- Step 2 of R412 for one head: its frame is cut short, its shutter closes, its DACs go to 0 V, a transfer ends. -/
def State.safePort (s : State) (h : Nat) : State :=
  let s := ((s.cutCapture h).clearTiming h).hcpStop h
  let s := s.modHead h fun u => { u with cap := none, prevCap := none, dacHold := true }
  s.shutSafeClose h

/-- Activities that go on in SAFE (Table 16-1). -/
def keptActivity (j : Job) : Bool :=
  match j.act with
  | .m9p | .m9r | .m10 => true
  | .m8 => j.res < 16
  | _ => false

/-- Step 3 of R412: engines, pipes, Collators and CSI-2 stop; what they held of frames is gone. -/
def State.dataStop (s : State) : State :=
  let s := (s.forEach 16 (fun _ => true) fun b s => s.shadowStop b).csiStop
  let s := s.forEach 4 (fun _ => true) fun r s => s.calAbort r
  let s := s.frames.foldl (fun s f => s.clearsPost f) s
  ({ s with
    frames := [], quires := []
    pipes := Vector.replicate 4 {}
    bufs := s.bufs.filter fun b => b.done } : State).churnDrop fun j => !keptActivity j

/-- The MODE record with sequence number `seq`, its cause replaced; any other bytes as they are. -/
def recause (seq cause : Nat) (bs : List Byte) : List Byte :=
  if leAt bs 0 4 = seq ∧ leAt bs 4 1 = 5 then
    let body := (bs.set 0x2D (BitVec.ofNat 8 cause)).take 60
    body ++ leBytes 4 (crc32c body)
  else bs

/-- CAUSE takes a higher-ranked cause that arrived together with the one that entered SAFE, and the MODE record of the entry with
it, wherever it stands (R402, R411; log entry 84). -/
def State.modeCause (s : State) (cause : Nat) : State :=
  let put := recause s.power.safeSeq cause
  let a := 0x1C0000 + 64 * (s.power.safeSeq % 16384)
  let s : State := { s with nv := { s.nv with
    staged := s.nv.staged.map put
    wait := s.nv.wait.map fun w => match w with | .record bs => .record (put bs) | w => w } }
  (s.nvStore a (put (s.nvLoad a 64))).put F.SYS_MODESTAT_CAUSE cause

/-- Entry to SAFE with a cause code (R411, R412). In SAFE a further cause sets its bit; one of the same instant may take
CAUSE. A transition from SAFE to SETUP that it abandons leaves DRAM in self-refresh (R401). -/
def State.safeEnter (s : State) (code : Nat) : State :=
  if s.mode = .reset ∨ (code = 9 ∧ s.mode = .dormant) then s
  else
    let rising := s.power.trans.isSome
    let s := (s.putBit F.SYS_SAFECAUSE_CAUSE (safeBit code) true).abandon
    let supply := code = 4 ∨ code = 6
    if s.mode = .safe then
      let s := if rising then s.dramSleep else s
      if s.power.safeAt = some s.dt then
        let s := if safeRank code < safeRank (s.get F.SYS_MODESTAT_CAUSE) then s.modeCause code else s
        if supply then s.forEach 8 (fun _ => true) fun h s => s.supplyOff h else s
      else s
    else
      let old := s.mode
      let s : State := { s with power := { s.power with safeSeq := s.get F.FC_LOGSEQ_SEQ } }
      let s := s.modeTo .safe code
      let s := (s.safeEndWork old).dmaSafe
      let s := s.forEach 8 (fun _ => true) fun h s => s.safePort h
      let s := if supply then s.forEach 8 (fun _ => true) fun h s => s.supplyOff h else s
      let s := (s.put F.SYS_STREAM_HEADS 0).put F.SYS_MODESTAT_CMDTHR 0
      let s := s.dataStop.dramSleep
      let s := if old = .dormant then s.forEach 4 (fun r => (s.bank r).refDue.isNone && !s.bankFlag r F.TC_STAT_REFOK) fun r s =>
          s.refSettle r (settleNs (s.get (F.TC_REFCFG_SRC r)))
        else s
      { s with power := { s.power with safeAt := some s.dt } }

end Sys2Proof.Machine
end

