-- ==== Sys2Proof/Machine/Faults.lean ====
section
/-! DEFINITION. The fault collector (R369 to R391), its reactions and retirements, and the Churn's requests and scrub
(R392 to R400). -/

namespace Sys2Proof.Machine

/-! ### Sources (Table 15-1) -/

/-- The sources a source depends on. -/
def dependsOn (src : Nat) : List Nat :=
  let dram := (List.range 16).map (28 + ·)
  if src < 16 then (16 + src / 4) :: dram ++ [46, 53, 54]
  else if src < 20 then dram ++ [46, 53, 54]
  else if src < 28 then [16 + (src - 20) / 2, 53, 54]
  else if src < 44 then [53, 54]
  else if src = 44 ∨ src = 46 ∨ src = 50 then [53, 54]
  else if src = 45 then 44 :: dram ++ [46, 53, 54]
  else if src = 49 then [48, 54]
  else if src = 52 then dram ++ [46, 53, 54]
  else if src = 54 ∨ 56 ≤ src then []
  else [54]

/-- The code of a class: 0 CE, 1 UC, 2 FA. -/
def classCode : FaultClass → Nat
  | .ce => 0
  | .uc => 1
  | .fa => 2

/-- The unacknowledged flag of a class (R373). -/
def State.unack (s : State) (src cls : Nat) : Bool := bit (s.get (F.FC_SRC_UNACK src)) cls

/-- The class a report is recorded in (R374). -/
def State.recordedClass (s : State) (src cls : Nat) : Nat := if cls < 2 ∧ s.unack src cls then cls + 1 else cls

/-! ### Dependence (R376, R377) -/

/-- A dependency window opened at `o` is open at the present instant. -/
def State.windowOpen (s : State) (o : Nat) : Bool := o ≤ s.dt && s.dt < o + 1000000

/-- The roots that make a report of a source dependent, each with its t_r: a recorded UC or FA inside its window, or one that
waits in the same cycle and is not itself dependent. Reports that wait together count as one cycle (log entry 58). -/
def State.rootsOf (s : State) : Nat → Nat → List (Nat × Nat)
  | 0, _ => []
  | fuel + 1, src =>
    (dependsOn src).flatMap fun d =>
      let recorded := (s.faults.roots.filter fun r => r.src == d).flatMap fun r => (r.opens.filter s.windowOpen).map fun o => (o, d)
      let waiting := s.inbox.any fun r => r.source.val == d && !s.isRetired d && 1 ≤ s.recordedClass d (classCode r.cls)
      let here := if waiting && (s.rootsOf fuel d).isEmpty then [(s.dt, d)] else []
      recorded ++ here

/-- The root a dependent report is attributed to: the earliest t_r, then the lower source. -/
def State.rootOf (s : State) (src : Nat) : Option (Nat × Nat) :=
  (s.rootsOf 5 src).foldl (fun best e => match best with
    | none => some e
    | some b => if e.1 < b.1 ∨ (e.1 = b.1 ∧ e.2 < b.2) then some e else some b) none

/-- A root's window opens at the present instant; a new run begins where the last one has ended. -/
def State.openRoot (s : State) (src : Nat) : State :=
  let roots := s.faults.roots
  let upd := fun (r : FaultRoot) =>
    if r.ended then { r with opens := [s.dt], deps := 0, first := none, ended := false }
    else if r.opens.contains s.dt then r
    else { r with opens := r.opens ++ [s.dt] }
  let l := if roots.any fun r => r.src == src then mapIf (fun r => r.src == src) upd roots
    else roots ++ [{ src := src, opens := [s.dt] }]
  { s with faults := { s.faults with roots := l } }

/-- Remember what a source reported while it depended on a root: its highest class and that report's DETAIL. -/
def noteMade (l : List (Nat × Nat × Nat)) (src cls detail : Nat) : List (Nat × Nat × Nat) :=
  if l.any fun e => e.1 == src then mapIf (fun e => e.1 == src && e.2.1 < cls) (fun _ => (src, cls, detail)) l
  else l ++ [(src, cls, detail)]

/-- A dependent report is only counted (R376). -/
def State.countDependent (s : State) (src cls detail : Nat) (root : Nat × Nat) : State :=
  let s := if s.faults.roots.any fun r => r.src == root.2 && !r.ended then s else s.openRoot root.2
  let s := (s.bump (F.FC_DEP_DEPMADE src)).bump (F.FC_DEP_DEPCNT root.2)
  { s with faults := { s.faults with roots := mapIf (fun r => r.src == root.2) (fun (r : FaultRoot) =>
      { r with deps := r.deps + 1, first := some (r.first.getD src), made := noteMade r.made src cls detail }) s.faults.roots } }

/-! ### Retirement (R380 to R383, R386) -/

/-- FC_RET, its mirrors, the persisted retirements and a RETIRE record (R380, Table 15-4). -/
def State.retireMark (s : State) (src : Nat) (on : Bool) : State :=
  let v := setBit (s.get64 F.FC_RET_LO_RET F.FC_RET_HI_RET) src on
  let s := (s.put64 F.FC_RET_LO_RET F.FC_RET_HI_RET v).putB (F.FC_SRC_RETIRED src) on
  let s := if 28 ≤ src ∧ src < 44 then s.putB (F.DR_CSTAT_LOST (src - 28)) on else s
  (s.persist 2).log { type := 7, source := src, info := [if on then 1 else 2] }

/-- A frame goes HELD for good: its samples and quires are discarded, buffers it was writing are free again (R386), and its DT
is the slot's (R114). -/
def State.discardFrame (s : State) (f : Frame) : State :=
  let s : State := { s with
    frames := mapIf (fun (g : Frame) => g.head == f.head && g.seq == f.seq)
      (fun (g : Frame) => { g.dated g.slotAt with held := true, mute := true, complete := true, chosen := [] }) s.frames
    quires := s.quires.filter fun q => !(q.head == f.head && q.seq == f.seq)
    bufs := s.bufs.filter fun b => !(b.head == f.head && b.seq == f.seq && !b.done) }
  s.putFsdt f.head f.seq f.slotAt

/-- The digital part of a region is lost: frames its heads had not completed and frames its pipe had not finished go HELD,
and the streams are re-routed by a re-plan (R40, R381, R386). -/
def State.digitalLost (s : State) (r : Nat) : State :=
  if s.digitalFail.contains r then s
  else
    let hit := s.frames.filter fun f => !f.reported &&
      (regionOf f.head == r || s.collator f.head == r || (f.pipe == r && !f.finished))
    let s := hit.foldl State.discardFrame s
    let s : State := { s with digitalFail := s.digitalFail ++ [r] }
    (s.modPipe r fun _ => {}).planAuto

/-- A region's DETAIL names its converter bank: TC_STAT, TC_CELLREJ or TC_CALOK and their like, the registers of chapter 3
(R381, R390; log entry 59). -/
def bankDetail (detail : Nat) : Bool := [0x008, 0x018, 0x034].contains (detail % 65536)

/-- An FA of a region retires its converter bank or its digital part (R381). -/
def State.regionRetire (s : State) (r detail : Nat) : State :=
  if bankDetail detail then
    let s : State := { s with bankRetired := s.bankRetired ++ [r] }
    [2 * r, 2 * r + 1].foldl (fun s h => (s.modHead h fun u => { u with retired := true }).syncHeld h) s
  else s.digitalLost r

/-- An FA of a head port retires it (R382, R387). -/
def State.portRetire (s : State) (h : Nat) : State :=
  let s := (s.headStopped h).hcpStop h
  let s := ((s.hsupOff h).portHold h).shutSafeClose h
  let s := if s.get (F.CX_SSTAT_PHASE h) = 5 then s.put (F.CX_SSTAT_PHASE h) 0 else s
  let s := s.modHead h fun u => { u with retired := true }
  (s.putBit F.SYS_PLAN_HELD_HELD h true).syncHeld h

/-- The FA reaction of Table 15-1. A native FA of the thermal, clock and supply sources has entered SAFE with its own cause
(R384). -/
def State.faReact (s : State) (src detail : Nat) (named : Bool) : State :=
  if 44 ≤ src then (if named ∧ s.mode = .safe then s else s.safeEnter 5)
  else if s.isRetired src ∧ !(16 ≤ src ∧ src < 20) then s
  else
    let s := s.retireMark src true
    if src < 16 then s.retireBlock src
    else if src < 20 then s.regionRetire (src - 16) detail
    else if src < 28 then s.portRetire (src - 20)
    else
      let s : State := { s.put (F.DR_CSTAT_TRAINED (src - 28)) 0 with lostChan := s.lostChan ++ [src - 28] }
      ((s.readsReplay (src - 28)).ctxHalts).planAuto

/-! ### Recording (R371 to R375, R378, R379) -/

/-- CE flags whose hold has ended clear (R373). -/
def State.ceExpire (s : State) : State :=
  let due := s.faults.ceEnd.filter fun e => e.2 ≤ s.dt
  let s := due.foldl (fun s e => s.putBit (F.FC_SRC_UNACK e.1) 0 false) s
  { s with faults := { s.faults with
      ceEnd := s.faults.ceEnd.filter fun e => s.dt < e.2
      forced := s.faults.forced.filter fun e => !(e.2 == 0 && due.any fun d => d.1 == e.1) } }

/-- The flag of a class sets: who forced it, and when a CE flag clears by itself (R373, R374). -/
def State.setUnack (s : State) (src cls : Nat) (forced : Bool) : State :=
  let fresh := !s.unack src cls
  let hold := s.get F.FC_CTRL_CEHOLD
  let fl := s.faults.forced.filter fun e => e != (src, cls)
  let ce := if cls = 0 ∧ fresh ∧ hold ≠ 0 then s.faults.ceEnd ++ [(src, s.dt + hold * 1000000)] else s.faults.ceEnd
  let s : State := { s with faults := { s.faults with forced := if forced then fl ++ [(src, cls)] else fl, ceEnd := ce } }
  s.putBit (F.FC_SRC_UNACK src) cls true

/-- Set or clear a bit of a 64-bit source vector held in two registers. -/
def State.putSrc (s : State) (lo hi : Fld) (src : Nat) (b : Bool) : State :=
  s.put64 lo hi (setBit (s.get64 lo hi) src b)

/-- The FAULT record of an event ring (Table 13-9). -/
def State.postFault (s : State) (src cls : Nat) (forced esc : Bool) (idx detail : Nat) : State :=
  if s.flag F.Q_FEVT_EN then
    s.postEvent (s.get F.Q_FEVT_RING) (eventRecord 0x20 [(1, 1, src), (2, 1, cls), (3, 1, forced.toNat + 2 * esc.toNat),
      (4, 4, idx), (8, 8, s.dt), (0x10, 4, s.get (F.FC_DEP_DEPCNT src)), (0x14, 4, detail)])
  else s

/-- The first fault (R375). -/
def State.noteFirst (s : State) (src cls : Nat) (forced : Bool) : State :=
  if s.flag F.FC_FIRST_VALID then s
  else
    let s := ((s.put F.FC_FIRST_SOURCE src).put F.FC_FIRST_CLASS cls).putB F.FC_FIRST_FORCED forced
    (s.put F.FC_FIRST_VALID 1).put64 F.FC_FIRSTDT_LO_DT F.FC_FIRSTDT_HI_DT s.dt

/-- A report is recorded: escalation, latch, counts, log, event record, reaction (R371 to R379). -/
def State.record (s : State) (src cls detail : Nat) (forced : Bool) : State :=
  let esc := cls < 2 && s.unack src cls
  let fr := if esc then forced && s.faults.forced.contains (src, cls) else forced
  let c := s.recordedClass src cls

  let s := s.putSrc F.FC_FSW_LO_LATCH F.FC_FSW_HI_LATCH src true
  let s := (s.put (F.FC_SRC_CLASS src) (max (s.get (F.FC_SRC_CLASS src)) (c + 1))).putB (F.FC_SRC_FORCED src) fr
  let s := if c = 0 then s.bump (F.FC_SRC_CECNT src) else if c = 1 then s.bump (F.FC_SRC_UCCNT src) else s
  let s := (s.setUnack src c fr).noteFirst src c fr
  let s := if 1 ≤ c ∧ !fr then s.openRoot src else s
  let idx := s.get F.FC_LOGSEQ_SEQ
  let s := s.log { type := 1, source := src, cls := c, flags := fr.toNat + 2 * esc.toNat, detail := detail, forced := forced }
  let s := s.postFault src c fr esc idx detail
  if c = 2 ∧ (!fr ∨ s.mode = .setup) then
    s.faReact src detail (!esc && !fr && (src == 49 || src == 53 || src == 54))
  else s

/-! ### FAULT_REPORT (R370, R375, R376) -/

/-- The order in which reports of one cycle are taken: class, then source (R375). -/
def reportFirst (a b : Report) : Bool :=
  (classCode b.cls) < (classCode a.cls) || ((classCode a.cls) == (classCode b.cls) && a.source.val ≤ b.source.val)

/-- The first of a list of reports in that order. -/
def firstReport (l : List Report) : Option Report :=
  l.foldl (fun best r => match best with
    | none => some r
    | some b => if reportFirst b r then some b else some r) none

/-- The collector takes one report: dependent ones first, since dependence is judged before the order of R375. -/
def State.takeReport (s : State) : State :=
  let s : State := { s with inbox := s.inbox.filter fun r => r.source.val < 56 && !s.isRetired r.source }
  match firstReport (s.inbox.filter fun r => (s.rootOf r.source).isSome) with
  | some r => match s.rootOf r.source with
    | some root =>
      ({ s with inbox := s.inbox.erase r } : State).countDependent r.source (classCode r.cls) r.detail.toNat root
    | none => s
  | none => match firstReport s.inbox with
    | some r => ({ s with inbox := s.inbox.erase r } : State).record r.source (classCode r.cls) r.detail.toNat false
    | none => s

/-- A report arrives, from outside or from the units that wait, and the collector takes the first one due (R370). -/
def faultReport (unit : Option Report) (t : Nat) (s : State) : State :=
  s.whenever s.up fun s =>
    let s := (s.at t).ceExpire
    ({ s with inbox := s.inbox ++ unit.toList } : State).takeReport

/-! ### Roots end and settle (R377, Table 15-4) -/

/-- The end of a root's last open window. -/
def FaultRoot.windowEnd (r : FaultRoot) : Nat := r.opens.foldl max 0 + 1000000

/-- A root's last window ends: a DEPSUM record where a dependent was attributed during the run. -/
def depWindowEnd (src t : Nat) (s : State) : State :=
  match s.faults.roots.find? fun r => r.src == src && !r.ended with
  | none => s
  | some r =>
    s.whenever (s.up && r.windowEnd ≤ t) fun s =>
      let s := s.at t
      let s := if r.deps ≠ 0 then
          s.logAt r.windowEnd { type := 2, source := src, depcnt := r.deps, info := [BitVec.ofNat 8 (r.first.getD 0)] }
        else s
      let l := if r.made.isEmpty then s.faults.roots.filter fun x => x.src != src
        else mapIf (fun (x : FaultRoot) => x.src == src) (fun (x : FaultRoot) => { x with ended := true }) s.faults.roots
      { s with faults := { s.faults with roots := l } }

/-- A root settles: each source that made dependent reports and is LIVE is recorded, with its highest class (R377). -/
def depRootSettled (src t : Nat) (s : State) : State :=
  match s.faults.roots.find? fun r => r.src == src && r.ended with
  | none => s
  | some r =>
    s.whenever (s.up && (!s.liveOf src || s.isRetired src)) fun s =>
      let s := (s.at t).ceExpire
      let s : State := { s with faults := { s.faults with roots := s.faults.roots.filter fun x => x.src != src } }
      let due := r.made.filter fun e => s.liveOf e.1
      let byClass := fun c => (List.range 56).filterMap fun n => due.find? fun e => e.1 == n && e.2.1 == c
      (byClass 2 ++ byClass 1 ++ byClass 0).foldl (fun s e => s.record e.1 e.2.1 e.2.2 false) s

/-! ### Software's registers (R372, R373, R378, R399) -/

/-- The sources a word of a 64-bit FC_ register names. -/
def named (hi : Bool) (v : Word) : List Nat :=
  ((List.range 32).filter fun i => v.toNat.testBit i).map fun i => if hi then 32 + i else i

/-- The three flags of a source clear (R373). -/
def State.ackSource (s : State) (src : Nat) : State :=
  let s : State := { s with faults := { s.faults with
    ceEnd := s.faults.ceEnd.filter fun e => e.1 != src
    forced := s.faults.forced.filter fun e => e.1 != src } }
  s.put (F.FC_SRC_UNACK src) 0

/-- A write of FC_FSW (R372). -/
def faultClear (hi : Bool) (v : Word) (s : State) : State :=
  s.whenever (s.access R.FC_FSW_LO) fun s =>
    ((named hi v).filter (· < 56)).foldl (fun s src =>
      if s.liveOf src then
        ((s.put F.FC_STAT_CLRREJ 1).put F.FC_STAT_CLRSRC src).log { type := 3, source := src, info := [0] }
      else if bit (s.get64 F.FC_FSW_LO_LATCH F.FC_FSW_HI_LATCH) src then
        let s := s.putSrc F.FC_FSW_LO_LATCH F.FC_FSW_HI_LATCH src false
        ((s.put (F.FC_SRC_CLASS src) 0).ackSource src).log { type := 3, source := src, info := [1] }
      else s) s

/-- A write of FC_ACK (R373). -/
def faultAck (hi : Bool) (v : Word) (s : State) : State :=
  s.whenever (s.access R.FC_ACK_LO) fun s => ((named hi v).filter (· < 56)).foldl State.ackSource s

/-- CE flags clear CEHOLD ms after they set (R373). -/
def ceHoldExpire (t : Nat) (s : State) : State := s.whenever s.up fun s => (s.at t).ceExpire

/-- A write of FC_FORCE (R378). -/
def faultForce (hi : Bool) (v : Word) (s : State) : State :=
  s.whenever (s.access R.FC_FORCE_LO) fun s =>
    let s := s.ceExpire
    let cls := s.get F.FC_CTRL_FCLASS
    (named hi v).foldl (fun s src =>
      if 56 ≤ src ∨ s.isRetired src then s.put F.FC_STAT_FORCEREJ 1
      else match s.rootOf src with
        | some root => s.countDependent src cls 0xFFFFFFFF root
        | none => s.record src cls 0xFFFFFFFF true) s

/-- FC_CTRL.CLRFIRST. -/
def fcClrfirst (s : State) : State := s.whenever (s.access R.FC_CTRL) fun s => s.put F.FC_FIRST_VALID 0

/-- FC_CTRL.CLRCNT. -/
def fcClrcnt (s : State) : State :=
  s.whenever (s.access R.FC_CTRL) fun s => s.forEach 64 (fun _ => true) fun n s =>
    ((s.put (F.FC_SRC_CECNT n) 0).put (F.FC_SRC_UCCNT n) 0).setReg (R.FC_DEP n) 0

/-! ### Restore (R380) -/

/-- A write of FC_RESTORE: in SETUP the built-in test of each named retired unit of sources 0–43 runs. -/
def unitRestore (hi : Bool) (v : Word) (s : State) : State :=
  s.whenever (s.access R.FC_RESTORE_LO && s.mode == .setup) fun s =>
    let l := (named hi v).filter fun n => n < 44 && s.isRetired n && !s.faults.tests.contains n
    { s with faults := { s.faults with tests := s.faults.tests ++ l } }

/-- The unit of a source is back in service; a restore changes no assignment and no hold. A block's cells return to six in
service and a spare (log entry 60, DEDUCED). -/
def State.unitBack (s : State) (src : Nat) : State :=
  let s := if 20 ≤ src ∧ src < 28 then s.holdEnd (src - 20) else s
  if src < 16 then
    ((s.forEach 6 (fun _ => true) fun c s => s.setCell src c cellInService).setCell src 6 cellSpare).syncCx (src / 4)
  else if src < 20 then
    { s with digitalFail := s.digitalFail.filter (· != src - 16), bankRetired := s.bankRetired.filter (· != src - 16) }
  else if src < 28 then s.hsupEval (src - 20)
  else
    let c := src - 28
    (({ s with lostChan := s.lostChan.filter (· != c) } : State).put (F.DR_CSTAT_SREF c) 0).put (F.DR_CSTAT_TRAINED c) 1

/-- The built-in test ends (R380). -/
def restoreTestDone (src : Nat) (pass : Bool) (s : State) : State :=
  s.whenever (s.faults.tests.contains src) fun s =>
    let s : State := { s with faults := { s.faults with tests := s.faults.tests.filter (· != src) } }
    if pass then (s.retireMark src false).unitBack src
    else (s.put F.FC_STAT_RESTFAIL 1).log { type := 7, source := src, info := [3] }

/-! ### Scrub passes (R398) -/

/-- The M8 resource of a scrub unit: a block, or 16 and a channel. -/
def scrubRes (dram : Bool) (unit : Nat) : Nat := if dram then 16 + unit else unit

/-- A scrub may run: enabled, the device up, DRAM not in self-refresh (R393). -/
def State.scrubOn (s : State) (res : Nat) : Bool :=
  s.up && (if res < 16 then s.flag F.MC_CFG_SSCRUB_EN else s.flag F.MC_CFG_DSCRUB_EN && s.flag (F.DR_CSTAT_TRAINED (res - 16)))

/-- The period of a unit's passes in ns: SPER seconds, DPER hours. -/
def State.scrubPeriod (s : State) (res : Nat) : Nat :=
  if res < 16 then s.get F.MC_SCRUB_SPER * 1000000000 else s.get F.MC_SCRUB_DPER * 3600000000000

/-- The next pass of a unit is due: its period has run since the last one started. -/
def State.scrubDue (s : State) (res : Nat) : Bool :=
  s.scrubOn res && (s.scrubAt.find? fun e => e.1 == res).all fun e => e.2 + s.scrubPeriod res ≤ s.dt

/-- The pass of a unit starts as M8; one still running is complete. -/
def State.scrubBegin (s : State) (res : Nat) : State :=
  let s := if s.churnRuns .m8 res then
      (s.bump (if res < 16 then F.MC_SCRUBPASS_SPASS else F.MC_SCRUBPASS_DPASS)).churnDone .m8 res
    else s
  let t := s.dt
  let s : State := { s with scrubAt := (s.scrubAt.filter fun e => e.1 != res) ++ [(res, t)] }
  (s.churnAsk .m8 res true t).2

/-! ### The Churn (R393 to R397) -/

/-- A request of the activities that no command of software starts: the trim of a converter, scrub, NVM persist and
relocation, the sensor self-check. The other activities ask within the commands that start them. -/
def churnRequest (a : Activity) (res t : Nat) (s : State) : State :=
  let due := match a with
    | .m1 => s.inRun && s.trimReady (res / 16) && res % 16 == s.trimConv (res / 16)
    | .m8 => res < 32 && s.scrubDue res
    | .m9p => s.up && s.nv.req.contains res
    | .m9r => s.up && (nvRing res).isSome
    | .m10 => s.up && res < 24
    | _ => false
  s.whenever due fun s => if a = .m8 then (s.at t).scrubBegin res else ((s.at t).churnAsk a res true t).2

/-- The place of an activity in the order of R394. -/
def churnRank : Activity → Nat
  | .m3 => 0 | .m5 => 1 | .m4 => 2 | .m6 => 3 | .m7 => 4 | .m2 => 5 | .m1 => 6 | .m10 => 7 | .m9p => 8 | .m9r => 9 | .m8 => 10

/-- No running activity stands in a queued one's way. -/
def State.churnFree (s : State) (j : Job) : Bool :=
  !s.churnRun.any fun k => waitPair k.act j.act && sameResource k.act k.res j.act j.res

/-- The queued request that starts next: the first in the order of R394, then of arrival. -/
def State.churnNext (s : State) : Option Job :=
  (s.churnQueue.filter s.churnFree).foldl (fun best j => match best with
    | none => some j
    | some b => if churnRank j.act < churnRank b.act then some j else some b) none

/-- What a granted request does at its start. -/
def State.churnBegin (s : State) (j : Job) : State :=
  match j.act with
  | .m2 => s.calOrder j.res
  | .m3 => s.modShut j.res fun e => { e with granted := true }
  | .m4 => s.modShut j.res fun e => { e with refitPhase := if e.refitPhase = 6 then 1 else e.refitPhase }
  | .m5 => if j.res % 3 = 0 then
      s.modShut (j.res / 3) fun e => { e with refitPhase := if e.refitPhase = 3 then 4 else e.refitPhase }
    else s
  | .m6 => { s with mcLoad := s.mcLoad.map fun l => { l with cur := some j.res } }
  | _ => s

/-- A queued request starts when the activity it waited for has ended (R394, R395). -/
def churnQueuedStart (a : Activity) (res t : Nat) (s : State) : State :=
  match s.churnNext with
  | none => s
  | some j =>
    s.whenever (j.act == a && j.res == res) fun s =>
      let s : State := { s.at t with churnQueue := s.churnQueue.erase j, churnRun := s.churnRun ++ [j] }
      s.syncChurn.churnBegin j

/-- What a refusal with BUSY_MAINT ends (R98, R157, R206, R236). -/
def State.churnRefused (s : State) (a : Activity) (res : Nat) : State :=
  match a with
  | .m2 => s.putBank res F.TC_STAT_CALRESULT 4
  | .m3 => s.shutEnd res 9
  | .m4 => s.refitEnd res 9
  | .m5 =>
    let h := res / 3
    let k := res % 3
    if k = 0 ∧ (s.shut h).refitPhase = 3 then s.refitEnd h 9
    else
      let mine := (s.head h).swapWaiters.filter fun w => w.1 == k
      let s := mine.foldl (fun s w => s.finishCmd w.2.1 w.2.2 0 6) s
      let s := s.modHead h fun u => { u with
        swapWaiters := u.swapWaiters.filter fun w => w.1 != k
        leafPend := u.leafPend && k != 0, resPend := u.resPend && k != 1, radPend := u.radPend && k != 2 }
      s.put (swapRes h k) 6
  | .m6 => s.mcFinish 7
  | _ => s

/-- A request queued for QWAIT s is refused (R397). -/
def churnQwaitExpire (t : Nat) (s : State) : State :=
  let q := s.get F.MC_CFG_QWAIT
  let timed := fun (j : Job) => match j.act with
    | .m2 | .m3 | .m4 | .m5 | .m6 => j.since + q * 1000000000 ≤ t
    | _ => false
  s.whenever (q != 0) fun s =>
    let due := s.churnQueue.filter timed
    due.foldl (fun s j =>
      let s : State := { s with churnQueue := s.churnQueue.erase j }
      ((s.churnRefuse j.act j.res 0).syncChurn).churnRefused j.act j.res) (s.whenever (!due.isEmpty) fun s => s.at t)

/-! ### Scrub (R398) -/

/-- A pass of a unit starts; a pass of it that was running is complete (log entry 61). -/
def scrubPassStart (dram : Bool) (unit : Nat) (s : State) : State :=
  s.whenever (s.scrubDue (scrubRes dram unit)) fun s => s.scrubBegin (scrubRes dram unit)

/-- A word of a running pass is checked. Of an uncorrectable SRAM word the register has no address to show: a free value (log
entry 188). -/
def scrubWordCheck (dram : Bool) (unit addr : Nat) (r : WordCheck) (s : State) : State :=
  s.whenever (s.scrubOn (scrubRes dram unit) && s.churnRuns .m8 (scrubRes dram unit)) fun s =>
    match r with
    | .ok => s
    | .single =>
      let s := s.bump F.MC_SCRUBCNT_CE
      if dram then (s.bump (F.DR_ECC_CE unit)).raise (28 + unit) .ce (detailWord 0xFF 0xFF (0x004 + 0x40 * unit))
      else s.raise unit .ce (detailWord 0xFF 0xFF 0x020)
    | .uncorrectable =>
      let s := s.bump F.MC_SCRUBCNT_UE
      let (a, s) := if dram then (addr, s) else s.freshUpTo (2 ^ 64 - 1)
      let s := s.put64 F.MC_SCRUBERR_LO_ADDR F.MC_SCRUBERR_HI_ADDR a
      if !dram then s.raise unit .uc (detailWord 0xFF 0xFF 0x020)
      else
        (s.dramUEAt unit addr).ctxUe addr

/-- MC_CTRL.CLRCNT. -/
def mcClrcnt (s : State) : State :=
  s.whenever (s.access R.MC_CTRL) fun s => (s.setReg R.MC_CNT 0).setReg R.MC_SCRUBCNT 0

/-! ### Meanings -/

/-- `FAULT_REPORT`. -/
def execFaultReport (unit : Option Report) (t : Nat) (s : State) : Result := .next (faultReport unit t s)
/-- `DEP_WINDOW_END`. -/
def execDepWindowEnd (src : Source) (t : Nat) (s : State) : Result := .next (depWindowEnd src t s)
/-- `DEP_ROOT_SETTLED`. -/
def execDepRootSettled (src : Source) (t : Nat) (s : State) : Result := .next (depRootSettled src t s)
/-- `FAULT_CLEAR`. -/
def execFaultClear (hi : Bool) (v : Word) (s : State) : Result := .next (faultClear hi v s)
/-- `FAULT_ACK`. -/
def execFaultAck (hi : Bool) (v : Word) (s : State) : Result := .next (faultAck hi v s)
/-- `CE_HOLD_EXPIRE`. -/
def execCeHoldExpire (t : Nat) (s : State) : Result := .next (ceHoldExpire t s)
/-- `FAULT_FORCE`. -/
def execFaultForce (hi : Bool) (v : Word) (s : State) : Result := .next (faultForce hi v s)
/-- `CLRFIRST`. -/
def execFcClrfirst (s : State) : Result := .next (fcClrfirst s)
/-- `FC_CLRCNT`. -/
def execFcClrcnt (s : State) : Result := .next (fcClrcnt s)
/-- `UNIT_RESTORE`. -/
def execUnitRestore (hi : Bool) (v : Word) (s : State) : Result := .next (unitRestore hi v s)
/-- `RESTORE_TEST_DONE`. -/
def execRestoreTestDone (src : Source) (pass : Bool) (s : State) : Result := .next (restoreTestDone src pass s)
/-- `CHURN_REQUEST`. -/
def execChurnRequest (a : Activity) (res t : Nat) (s : State) : Result := .next (churnRequest a res t s)
/-- `CHURN_QUEUED_START`. -/
def execChurnQueuedStart (a : Activity) (res t : Nat) (s : State) : Result := .next (churnQueuedStart a res t s)
/-- `CHURN_QWAIT_EXPIRE`. -/
def execChurnQwaitExpire (t : Nat) (s : State) : Result := .next (churnQwaitExpire t s)
/-- `SCRUB_PASS_START`. -/
def execScrubPassStart (dram : Bool) (unit : Fin 16) (s : State) : Result := .next (scrubPassStart dram unit s)
/-- `SCRUB_WORD_CHECK`. -/
def execScrubWordCheck (dram : Bool) (unit : Fin 16) (addr : Nat) (r : WordCheck) (s : State) : Result :=
  .next (scrubWordCheck dram unit addr r s)
/-- `MC_CLRCNT`. -/
def execMcClrcnt (s : State) : Result := .next (mcClrcnt s)

end Sys2Proof.Machine
end

