-- ==== Sys2Proof/Machine/Thermal.lean ====
section
/-! DEFINITION. The milk round and thermal protection (R419 to R427), and the terms a frame takes from its temperature
(R61, R168 to R170). -/

namespace Sys2Proof.Machine

/-! ### The inputs (Table 16-8, R420) -/

/-- An input is reserved and never converted. -/
def hkReserved (i : Nat) : Bool := (64 ≤ i && i < 72) || (80 ≤ i && i < 87) || 96 ≤ i

/-- A round converts an input, with a mask of external inputs. -/
def hkConverted (xmask i : Nat) : Bool := !hkReserved i && (!(46 ≤ i && i < 64) || bit xmask (i - 46))

/-- The slots of a round: those in which a converter has an input. -/
def hkSlots (xmask : Nat) : List Nat := (List.range 48).filter fun k => hkConverted xmask k || hkConverted xmask (48 + k)

/-! ### Terms of a frame (R168 to R170) -/

/-- A frame computes d, h_s and g_T from its TFPA and its TAI; CX_HDT, CX_HAGE and the age flags show them. -/
def State.frameTerms (s : State) (f : Frame) : State :=
  let h := f.head
  let (f, neg) := f.withTerms f.tempUsed (snapFlag f.snap (F.CX_HCFG_GTC_EN h))
  let s := s.modFrame h f.seq fun _ => f
  if s.frames.any fun g => g.head == h && f.seq < g.seq then s
  else
    let s := (s.put (F.CX_HDT_D h) (unsigned 17 f.d)).put (F.CX_HAGE_HOURS h) (f.hs / 3600)
    (s.putB (F.CX_HSTAT_AGE_UNK h) f.ageUnk).putB (F.CX_HSTAT_AGENEG h) neg

/-! ### The band-gap comparison (R92) -/

/-- A result of HK87: DIFF, and DISAGREE with a UC where it begins. -/
def State.bandgap (s : State) (code : Nat) : State :=
  let c : Int := (code : Int) - 2048
  let s := s.put F.TC_BG_DIFF (unsigned 8 (max (-127) (min 127 (roundDiv (c * 20000) 65536))))
  let bad := 66 ≤ c.natAbs
  let s := if bad && !s.flag F.TC_BG_DISAGREE then s.raise 48 .uc (detailWord 0xFF 29 0x028) else s
  let s := if bad then s.degradeFrames fun _ => true else s
  s.putB F.TC_BG_DISAGREE bad

/-! ### Conversions (R419, R422, R423) -/

/-- A conversion result is written. -/
def State.hkResult (s : State) (i code : Nat) (inj : Bool) : State :=
  let s := (s.put (F.HK_RES_VALID i) 1).putB (F.HK_RES_INJ i) inj
  (s.put (F.HK_RES_ROUND i) (s.get F.HK_ROUND_COUNT % 16384)).put (F.HK_RES_CODE i) code

/-- HK_STAT.INJQ follows the queue. -/
def State.syncInj (s : State) : State := s.put F.HK_STAT_INJQ s.hk.inj.length

/-- The converters take what comes next: a queued injection, then the next slot of the round. -/
def State.hkNext (s : State) : State :=
  if s.hk.cur.isSome then s
  else match s.hk.inj, s.hk.slots with
    | q :: is, _ => ({ s with hk := { s.hk with inj := is, cur := some (.inj q) } } : State).syncInj
    | [], k :: ks => { s with hk := { s.hk with slots := ks, cur := some (.slot k) } }
    | [], [] => s

/-- A request takes its place in the queue: after those of earlier instants, and in ascending input number among those of its
own (R422). -/
def hkQueue (q : HkInj) : List HkInj → List HkInj
  | [] => [q]
  | a :: l => if a.instant = q.instant ∧ q.input < a.input then q :: a :: l else a :: hkQueue q l

/-- Request an injected conversion, for the frame whose start asks for it or for none. One that the converters took at this very
instant gives way to a lower input. The queue holds 16 requests; a request that finds it full is lost (log entry 190). -/
def State.hkRequest (s : State) (i : Nat) (frame : Option Nat) : State :=
  let q : HkInj := { input := i, frame := frame, instant := s.dt }
  let s : State := match s.hk.cur with
    | some (.inj c) =>
      if c.instant = s.dt ∧ i < c.input then { s with hk := { s.hk with cur := none, inj := hkQueue c s.hk.inj } } else s
    | _ => s
  if 16 ≤ s.hk.inj.length then s.hkNext
  else (({ s with hk := { s.hk with inj := hkQueue q s.hk.inj } } : State).syncInj).hkNext

/-- The use an injected result is put to at once: the band-gap comparison, or the head's temperature, which is the TFPA of the
frame whose start requested the conversion (R422). -/
def State.hkInjected (s : State) (q : HkInj) (code : Nat) : State :=
  if q.input = 87 then s.bandgap code
  else if 88 ≤ q.input ∧ q.input < 96 then
    let h := q.input - 88
    let s := s.thmConvert h code
    match q.frame.bind fun n => s.frame h n with
    | some f => if f.committed = 0 then s.frameTerms { f with
        tfpa := s.get (F.HP_THM_TEMP h), thmHeld := s.flag (F.HP_STAT_THM_HELD h) } else s
    | none => s
  else s

/-- The divider before an input (Tables 16-5 and 16-8). -/
def hkDivider (i : Nat) : Nat :=
  if 24 ≤ i ∧ i < 32 ∨ i = 36 then 3 else if i = 35 ∨ i = 43 then 2 else if i = 37 then 6 else 1

/-- The code of an input that carries `uv` µV before its divider (R419): the quantum is 2.4 V / 4,096 = 9,375/16 µV. -/
def hkCode (i uv : Nat) : Nat := min (16 * uv / (9375 * hkDivider i)) 4095

/-- A conversion pair, or an injected conversion, completes: `uvA` and `uvB` are the voltages, in µV, of the inputs of HKA and
HKB at the sampling instant. -/
def hkConversionDone (uvA uvB : Nat) (s : State) : State :=
  match s.hk.cur with
  | none => s
  | some j =>
    s.whenever s.up fun s =>
      let code := fun i => hkCode i (if i < 48 then uvA else uvB)
      let s : State := { s with hk := { s.hk with cur := none } }
      match j with
      | .inj q => ((s.hkResult q.input (code q.input) true).hkInjected q (code q.input)).hkNext
      | .slot k =>
        let s := if hkConverted s.hk.xmask k then s.hkResult k (code k) false else s
        (if hkConverted s.hk.xmask (48 + k) then s.hkResult (48 + k) (code (48 + k)) false else s).hkNext

/-! ### Rounds (R420, R421) -/

/-- The round period in ns. -/
def State.hkPeriod (s : State) : Nat := s.get F.HK_CFG_PER * 100000

/-- A round is due at an instant: on its window, on a source event, or on the backstop, which falls each period after the last
round start. A start taken or skipped is due no more. -/
def State.hkDue (s : State) (t : Nat) : Bool :=
  match s.hk.lastWin with
  | none => true
  | some l =>
    let passed := fun a => (l - a) / s.hkPeriod < (t - a) / s.hkPeriod
    if fieldOf F.HK_TRIG_SRC s.hk.trig = 0 then passed s.hk.anchor
    else (s.hk.due.any fun d => d ≤ t) || passed s.hk.lastStart

/-- A round begins, with the HK_XMASK and the HK_TRIG that stand then; delayed starts of another source are due no more. -/
def State.hkBegin (s : State) (t : Nat) : State :=
  let x := s.get F.HK_XMASK_X
  let s : State := { s with hk := { s.hk with
    slots := hkSlots x, xmask := x, lastStart := t, again := false
    trig := s.reg R.HK_TRIG, due := if s.reg R.HK_TRIG = s.hk.trig then s.hk.due else [] } }
  ((s.put F.HK_STAT_RUNNING 1).put64 F.HK_RDT_LO_DT F.HK_RDT_HI_DT t).hkNext

/-- A round start: a start that falls while a round runs is skipped and counted. -/
def hkRoundStart (t : Nat) (s : State) : State :=
  let s := s.trigsDue t
  s.whenever (s.up && s.hkDue t) fun s =>
    let s : State := { s.at t with hk := { s.hk with due := s.hk.due.filter (fun d => t < d), lastWin := some t } }
    if s.flag F.HK_STAT_RUNNING then s.bump F.HK_STAT_ROUNDSKIP else s.hkBegin t

/-- A write of HK_CFG: the windows count from it, and a round starts at once, or directly after the running one. -/
def hkCfgWrite (v : Word) (t : Nat) (s : State) : State :=
  s.whenever (s.access R.HK_CFG) fun s =>
    let per := fieldOf F.HK_CFG_PER v
    let acq := fieldOf F.HK_CFG_ACQ v
    if per < 10 ∨ 10000 < per ∨ acq < 2 then s.put F.HK_STAT_VALUE_REJ 1
    else
      let s := ((s.at t).put F.HK_CFG_PER per).put F.HK_CFG_ACQ acq
      if s.flag F.HK_STAT_RUNNING then { s with hk := { s.hk with anchor := t, lastWin := some t, again := true } }
      else { s with hk := { s.hk with anchor := t, lastWin := none } }

/-- A write of HK_INJ. -/
def hkInj (v : Word) (s : State) : State :=
  s.whenever (s.access R.HK_INJ) fun s =>
    let i := fieldOf F.HK_INJ_INPUT v
    if hkReserved i then s.put F.HK_STAT_VALUE_REJ 1
    else
      let go := fieldOf F.HK_INJ_GO v = 1
      if go ∧ 8 ≤ s.hk.inj.length then s.put F.HK_STAT_VALUE_REJ 1
      else
        let s := s.put F.HK_INJ_INPUT i
        if go then s.hkRequest i none else s

/-! ### The sensor self-check, M10 (R424) -/

/-- The sensors of a sensor's group. -/
def sensorGroup (n : Nat) : List Nat := if n < 20 then (List.range 5).map (5 * (n / 5) + ·) else [20, 21, 22, 23]

/-- The reading of a sensor, in 0.01 °C. -/
def State.sensorReading (s : State) (n : Nat) : Int := Config.sensorTemp n (s.nvLoad 0x200 248) (s.get (F.HK_RES_CODE n))

/-- The monitor samples of a milk round: the die temperatures and the input codes (R295). -/
def State.roundSamples (s : State) : State :=
  (s.sampleOf 0x20 fun n => some (s.sensorReading n)).sampleOf 0x21 fun n => some (s.get (F.HK_RES_CODE n))

/-- Put a value into an ascending list. -/
def insertInt (v : Int) : List Int → List Int
  | [] => [v]
  | a :: l => if v ≤ a then v :: a :: l else a :: insertInt v l

/-- Twice the median of a list that is not empty. -/
def median2 (l : List Int) : Int :=
  let l := l.foldl (fun a v => insertInt v a) []
  l.getD ((l.length - 1) / 2) 0 + l.getD (l.length / 2) 0

/-- A sensor fails the check: open, short, or more than 8 °C from the median of the others. -/
def State.sensorBad (s : State) (failed : List Nat) (n : Nat) : Bool :=
  let c := s.get (F.HK_RES_CODE n)
  let others := (sensorGroup n).filter fun m => m != n && !failed.contains m
  4090 ≤ c || c ≤ 5 ||
    (!others.isEmpty && 1600 < (2 * s.sensorReading n - median2 (others.map s.sensorReading)).natAbs)

/-- The check of one sensor, with the sensors that were failed when the check began. -/
def State.sensorCheck (s : State) (failed : List Nat) (n : Nat) : State :=
  let s := s.churnDone .m10 n
  if s.sensorBad failed n then
    let s : State := { s with hk := { s.hk with passes := s.hk.passes.set n 0 } }
    if failed.contains n then s
    else
      let s : State := { s with hk := { s.hk with failed := s.hk.failed ++ [n] } }
      (s.putBit F.TH_SFAIL_FAIL n true).raise 49 .ce (detailWord n n 0x808)
  else
    let s := s.put (F.TH_TEMP_TEMP n) (unsigned 16 (s.sensorReading n))
    if !failed.contains n then s
    else
      let k := s.hk.passes.getD n 0 + 1
      if k < 16 then { s with hk := { s.hk with passes := s.hk.passes.set n k } }
      else { s with hk := { s.hk with passes := s.hk.passes.set n 0, failed := s.hk.failed.filter (· != n) } }

/-- M10 over every sensor; three failed sensors enter SAFE (R426). -/
def State.selfCheck (s : State) : State :=
  let failed := s.hk.failed
  let s := (List.range 24).foldl (fun s n => ((s.churnAsk .m10 n true s.dt).2).sensorCheck failed n) s
  let n := s.hk.failed.length
  let s := s.put F.TH_STAT_NFAIL n
  if 3 ≤ n ∧ failed.length < 3 then (s.raise 49 .fa (detailWord 0xFF 0xFF 0x804)).safeEnter 8 else s

/-! ### Tj and the thresholds (R408, R425, R426) -/

/-- The thermal cause sets or ends (R408). -/
def State.thermalCause (s : State) (on : Bool) : State :=
  let s := s.putB F.SYS_MODESTAT_THTHR on
  if on ∧ s.mode = .run then s.modeTo .throttled 2
  else if !on ∧ s.mode = .throttled ∧ !s.flag F.SYS_MODESTAT_CMDTHR then s.modeTo .run 3
  else s

/-- A threshold of TH_CFG in 0.01 °C. -/
def State.threshold (s : State) (f : Fld) : Int := (100 * s.get f : Nat)

/-- A state of Table 16-9 follows Tj with hysteresis: whether it changes, and to what. -/
def State.thermalMove (s : State) (st th : Fld) (tj : Int) : Option Bool :=
  if !s.flag st ∧ s.threshold th ≤ tj then some true
  else if s.flag st ∧ tj < s.threshold th - s.threshold F.TH_CFG_HYST then some false
  else none

/-- The contribution of a sensor to Tj (R425). -/
def State.contribution (s : State) (n : Nat) : Option Int :=
  if bit (s.get F.TH_MASK_MASK) n then none
  else if s.hk.failed.contains n then some (s.threshold F.TH_CFG_THR + 200)
  else some (s.sensorReading n)

/-- Tj is compared with the thresholds (R426). -/
def State.thermalCompare (s : State) : State :=
  let tj := signed 16 (s.get F.TH_STAT_TJ)
  let s := match s.thermalMove F.TH_STAT_WARN F.TH_CFG_WARN tj with
    | some b => (if b then s.raise 49 .ce (detailWord 0xFF 31 0x804) else s).putB F.TH_STAT_WARN b
    | none => s
  let s := match s.thermalMove F.TH_STAT_THROT F.TH_CFG_THR tj with
    | some b => (s.putB F.TH_STAT_THROT b).thermalCause b
    | none => s
  match s.thermalMove F.TH_STAT_SHUT F.TH_CFG_SHUT tj with
  | some true => ((s.put F.TH_STAT_SHUT 1).raise 49 .fa (detailWord 0xFF 29 0x804)).safeEnter 4
  | some false => s.put F.TH_STAT_SHUT 0
  | none => s

/-- The evaluation at the end of a round; Tj keeps its value when no sensor contributes. Of equal contributions the lowest sensor
is shown (log entry 62). -/
def State.thermalEval (s : State) : State :=
  let best := (List.range 24).foldl (fun (b : Option (Int × Nat)) n => match s.contribution n, b with
    | none, b => b
    | some v, none => some (v, n)
    | some v, some (w, m) => if w < v then some (v, n) else some (w, m)) none
  (match best with
    | none => s.put F.TH_STAT_HOT 0x1F
    | some (tj, n) => (s.put F.TH_STAT_TJ (unsigned 16 tj)).put F.TH_STAT_HOT n).thermalCompare

/-- The temperature interlock of NVM writes (R425, R436). -/
def State.nvTemperature (s : State) : State :=
  let away := s.hk.failed.contains 23 || bit (s.get F.TH_MASK_MASK) 23
  let t2 := if away then median2 ([20, 21, 22].map s.sensorReading) else 2 * s.sensorReading 23
  if t2 < -1000 ∨ 21000 < t2 then s.put F.NV_STAT_ILK_TEMP 1
  else if 0 ≤ t2 ∧ t2 ≤ 20000 then s.put F.NV_STAT_ILK_TEMP 0
  else s

/-- Readings of a round that registers show: HSUP voltage and current (R423, Table 16-8), thermistors (R61). -/
def State.roundReadings (s : State) : State :=
  let s := s.forEach 8 (fun _ => true) fun h s =>
    (s.put (F.HP_HSUPMON_VOLT h) (roundDivN (7200 * s.get (F.HK_RES_CODE (24 + h))) 4096)).put (F.HP_HSUPMON_CURR h)
      (roundDivN (293 * s.get (F.HK_RES_CODE (72 + h))) 1000)
  s.forEach 8 (fun _ => true) fun h s => s.thmConvert h (s.get (F.HK_RES_CODE (88 + h)))

/-- A round ends: its results are used (R423). -/
def hkRoundEnd (t : Nat) (s : State) : State :=
  s.whenever (s.up && s.flag F.HK_STAT_RUNNING && s.hk.slots.isEmpty && s.hk.cur.isNone) fun s =>
    let s := ((s.at t).put F.HK_STAT_RUNNING 0).bump F.HK_ROUND_COUNT
    let s := (s.roundReadings.bandgap (s.get (F.HK_RES_CODE 87))).selfCheck.nvTurn.nvTemperature.thermalEval.roundSamples
    if s.hk.again then s.hkBegin t else s

/-! ### TH_CFG and TH_MASK (R425, R427) -/

/-- A write of TH_CFG. -/
def thCfgWrite (v : Word) (s : State) : State :=
  s.whenever (s.access R.TH_CFG) fun s =>
    let w := fieldOf F.TH_CFG_WARN v
    let th := fieldOf F.TH_CFG_THR v
    let sh := fieldOf F.TH_CFG_SHUT v
    let hy := fieldOf F.TH_CFG_HYST v
    if !(60 ≤ w && w ≤ th && th + 5 ≤ sh && sh ≤ 115 && 1 ≤ hy && hy ≤ 10) then s.put F.TH_STAT_VALUE_REJ 1
    else if (s.get F.TH_CFG_WARN < w ∨ s.get F.TH_CFG_THR < th ∨ s.get F.TH_CFG_SHUT < sh) ∧
        s.mode ≠ .dormant ∧ s.mode ≠ .setup then s.put F.TH_STAT_DIRECT_REFUSED 1
    else (((s.put F.TH_CFG_WARN w).put F.TH_CFG_THR th).put F.TH_CFG_SHUT sh).put F.TH_CFG_HYST hy

/-- A write of TH_MASK: bits clear freely, and set for a failed sensor once source 49 is acknowledged. -/
def thMaskWrite (v : Word) (s : State) : State :=
  s.whenever (s.access R.TH_MASK) fun s =>
    let old := s.get F.TH_MASK_MASK
    let new := fieldOf F.TH_MASK_MASK v
    let free := s.get (F.FC_SRC_UNACK 49) == 0
    (List.range 24).foldl (fun s n =>
      if bit new n && !bit old n then
        if free && s.hk.failed.contains n then s.putBit F.TH_MASK_MASK n true else s.put F.TH_STAT_VALUE_REJ 1
      else if !bit new n then s.putBit F.TH_MASK_MASK n false
      else s) s

/-! ### Meanings -/

/-- `HK_ROUND_START`. -/
def execHkRoundStart (t : Nat) (s : State) : Result := .next (hkRoundStart t s)
/-- `HK_CONVERSION_DONE`. -/
def execHkConversionDone (uvA uvB : Nat) (s : State) : Result := .next (hkConversionDone uvA uvB s)
/-- `HK_ROUND_END`. -/
def execHkRoundEnd (t : Nat) (s : State) : Result := .next (hkRoundEnd t s)
/-- `HK_CFG_WRITE`. -/
def execHkCfgWrite (v : Word) (t : Nat) (s : State) : Result := .next (hkCfgWrite v t s)
/-- `HK_INJ`. -/
def execHkInj (v : Word) (s : State) : Result := .next (hkInj v s)
/-- `TH_CFG_WRITE`. -/
def execThCfgWrite (v : Word) (s : State) : Result := .next (thCfgWrite v s)
/-- `TH_MASK_WRITE`. -/
def execThMaskWrite (v : Word) (s : State) : Result := .next (thMaskWrite v s)

end Sys2Proof.Machine
end

