-- ==== Sys2Proof/Machine/Modes.lean ====
section
/-! DEFINITION. The modes (chapter 16): commands, transitions, RESET and its release, rails, the reference clock, power
failure, and what an ended planner evaluation decides. -/

namespace Sys2Proof.Machine

/-! ### Commands (R404, Table 16-3) -/

/-- The result of a mode command (Table 16-11). -/
def State.cmdRes (s : State) (code : Nat) : State := s.put F.SYS_MODESTAT_CMDRES code

/-- A mode command is heard: registers answer, and no transition runs. -/
def State.modeCmd (s : State) (f : State → State) : State :=
  s.whenever (s.access R.SYS_MODECMD) fun s => if s.flag F.SYS_MODESTAT_BUSY then s.cmdRes 6 else f s

/-- A port at entry to DORMANT (R54, R75); SHPOS stays (log entry 171, DESIGN CHOICE). -/
def State.dormantPort (s : State) (h : Nat) : State :=
  (((s.hsupOff h).hcpStop h).modHead h fun u => { u with drive := none, driveWait := none, bridge := .idle }).txnAfter s h

/-- SYS_MODECMD.DORMANT. -/
def modeDormant (s : State) : State :=
  s.modeCmd fun s =>
    if s.mode ≠ .setup then s.cmdRes 2
    else
      let s := s.cmdRes 1
      let s := s.forEach 8 (fun _ => true) fun h s => s.dormantPort h
      let s := s.forEach 4 (fun _ => true) fun r s =>
        ((s.calAbort r).putValid r F.TC_STAT_REFOK 0).modBank r fun b => { b with refDue := none }
      s.dramSleep.modeTo .dormant 1

/-- The transition of a SETUP command from DORMANT or SAFE begins (R405, R413). -/
def State.setupUp (s : State) (first : Bool) : State :=
  let s := (s.cmdRes 1).put F.SYS_MODESTAT_BUSY 1
  let chans := (List.range 16).filter fun c => !s.lostChan.contains c
  let s := chans.foldl (fun s c => s.put (F.DR_CSTAT_TRIES c) 0) s
  let s := if s.mode = .dormant then s.forEach 4 (fun _ => true) fun r s => s.refSettle r (settleNs (s.get (F.TC_REFCFG_SRC r)))
    else s
  let s := if first then s.forEach 4 (fun _ => true) fun r s => s.calOrder r else s
  let s : State := { s with power := { s.power with trans := some (.up first chans) } }
  s.hkRequest 87 none

/-- What entering SETUP brings back: supplies, kept doorbells, DMA channels (R54, R329, R345, R351); the hold of a shutter that
SAFE closed ends with SAFE (R60). -/
def State.setupIn (s : State) : State :=
  let safe := s.mode == .safe
  let s := (s.modeTo .setup 1).markC0
  let s := s.forEach 8 (fun _ => true) fun h s =>
    let s := (s.hsupEval h).modHead h fun u => { u with supOffAfterClose := false }
    if safe then s.holdEnd h else s
  (List.range 64).foldl (fun s c => s.dmaNext c) s.keptBells

/-- Leaving RUN and THROTTLED: the engines and CSI-2 stop (R238, R278). -/
def State.runOut (s : State) : State := (s.forEach 16 (fun _ => true) fun b s => s.shadowStop b).csiFinish.csiStop

/-- A SETUP command from RUN or THROTTLED is done when the last head has stopped and its last frame is complete (R406). -/
def State.downDone (s : State) : State :=
  if s.power.trans = some .down ∧ !((List.range 8).any s.streams) ∧ s.frames.all fun f => f.reported then
    let s : State := { s with power := { s.power with trans := none }, frames := [] }
    (s.put F.SYS_MODESTAT_BUSY 0).runOut.setupIn
  else s

/-- SYS_MODECMD.SETUP. -/
def modeSetup (t : Nat) (s : State) : State :=
  s.modeCmd fun s =>
    let s := s.at t
    match s.mode with
    | .dormant => s.setupUp (!s.flag F.SYS_MODESTAT_FIRSTDONE)
    | .safe =>
      if s.get F.SYS_SAFECAUSE_CAUSE ≠ 0 ∨ s.get F.FC_FSW_HI_LATCH / 2 ^ 12 % 2 ^ 12 ≠ 0 then s.cmdRes 3 else s.setupUp false
    | .run | .throttled =>
      let s := ((s.cmdRes 1).put F.SYS_MODESTAT_BUSY 1).put F.SYS_MODESTAT_CMDTHR 0
      ({ s with power := { s.power with trans := some .down } } : State).downDone
    | _ => s.cmdRes 2

/-- The CSI-2 check of the RUN command (R279): every enabled port's load is shown and compared. -/
def State.csiCheck (s : State) : Bool × State :=
  (List.range 4).foldl (fun (acc : Bool × State) v =>
    if !acc.2.flag (F.TX_CFG_EN v) then acc
    else
      let s := acc.2.showLoad v acc.2
      if s.txOver v then (false, s.put (F.TX_STAT_CFGRES v) 2) else (acc.1, s.put (F.TX_STAT_CFGRES v) 1)) (true, s)

/-- SYS_MODECMD.RUN: checked at once by R483 and R279, then by the planner (R37, R41). The transition runs until the
evaluation ends (log entry 64). -/
def modeRun (s : State) : State :=
  s.modeCmd fun s =>
    if s.mode ≠ .setup then s.cmdRes 2
    else if !s.configOk then s.cmdRes 7
    else
      let (ok, s) := s.csiCheck
      if !ok then s.cmdRes 4
      else
        let s : State := { s with power := { s.power with trans := some .run } }
        (s.put F.SYS_MODESTAT_BUSY 1).planAsk { kind := .runCmd }

/-- SYS_MODECMD.THROTTLE. -/
def modeThrottle (s : State) : State :=
  s.modeCmd fun s =>
    if s.mode ≠ .run then s.cmdRes 2 else ((s.put F.SYS_MODESTAT_CMDTHR 1).cmdRes 1).modeTo .throttled 1

/-- SYS_MODECMD.UNTHROTTLE. -/
def modeUnthrottle (s : State) : State :=
  s.modeCmd fun s =>
    if s.mode ≠ .throttled then s.cmdRes 2
    else
      let s := (s.put F.SYS_MODESTAT_CMDTHR 0).cmdRes 1
      if s.flag F.SYS_MODESTAT_THTHR then s else s.modeTo .run 1

/-- SYS_MODECMD.SAFE: accepted while a transition runs too (R404, R411). -/
def modeSafe (t : Nat) (s : State) : State :=
  s.whenever (s.access R.SYS_MODECMD) fun s =>
    if s.mode = .safe then s.cmdRes (if s.flag F.SYS_MODESTAT_BUSY then 1 else 2) |>.whenever (s.flag F.SYS_MODESTAT_BUSY)
      fun s => (s.at t).safeEnter 1
    else ((s.at t).cmdRes 1).safeEnter 1

/-! ### The transition to SETUP (R405) -/

/-- A training attempt of a channel ends: `mib` is the density found (R477). The third failure loses the channel. -/
def dramTrainingDone (ch : Nat) (ok : Bool) (mib : Nat) (s : State) : State :=
  match s.power.trans with
  | some (.up first l) =>
    s.whenever (l.contains ch) fun s =>
      let leave := fun (s : State) => { s with power := { s.power with trans := some (.up first (l.filter (· != ch))) } }
      let s := s.put (F.DR_CSTAT_MIB ch) mib
      if ok && mib == 2048 then leave ((s.put (F.DR_CSTAT_TRAINED ch) 1).put (F.DR_CSTAT_SREF ch) 0)
      else
        let s := s.bump (F.DR_CSTAT_TRIES ch)
        if s.get (F.DR_CSTAT_TRIES ch) < 3 then s
        else leave (s.raise (28 + ch) .fa (detailWord 0xFF 0xFF (0x040 * ch)))
  | _ => s

/-- Training and the bank A load are done. -/
def setupTransitionDone (s : State) : State :=
  match s.power.trans with
  | some (.up first []) =>
    let s := if first then s.mcBoot.put F.SYS_MODESTAT_FIRSTDONE 1 else s
    (({ s with power := { s.power with trans := none } } : State).put F.SYS_MODESTAT_BUSY 0).setupIn
  | _ => s

/-! ### SYS_STREAM (R407) -/

/-- A write of SYS_STREAM. -/
def sysStreamWrite (v : Word) (s : State) : State :=
  s.whenever (s.access R.SYS_STREAM) fun s =>
    let old := s.get F.SYS_STREAM_HEADS
    let new := fieldOf F.SYS_STREAM_HEADS v
    let sets := (List.range 8).any fun h => bit new h && !bit old h
    if !s.inRun ∨ s.power.trans = some .down ∨ !sets then s.put F.SYS_STREAM_HEADS new
    else if !s.configOk then s.cmdRes 7
    else s.planAsk { kind := .stream, arg := new }

/-! ### SYS_SAFECAUSE (R413, Table 16-4) -/

/-- The nominal voltage of a rail in µV: that of VDD_IO is chosen at RESET release (R415). -/
def State.nominal (s : State) (k : Nat) : Nat := if k = 11 ∧ !s.power.io33 then 1800000 else railNominals.getD k 0

/-- A voltage is below, or above, a percentage of a rail's nominal (R415). -/
def State.below (s : State) (k uv pct : Nat) : Bool := uv * 100 < pct * s.nominal k
/-- See `below`. -/
def State.above (s : State) (k uv pct : Nat) : Bool := pct * s.nominal k < uv * 100

/-- A rail is good (R415). -/
def State.railOk (s : State) (k : Nat) : Bool :=
  let uv := s.power.level.getD k 0
  !s.below k uv 93 && !s.above k uv 107

/-- Every monitored rail is good: all but VSHUT. -/
def State.railsGood (s : State) : Bool := (List.range 14).all fun k => k == 5 || s.railOk k

/-- The condition under which a cause bit may be cleared. -/
def State.causeGone (s : State) (b : Nat) : Bool :=
  if b = 1 then decide (signed 16 (s.get F.TH_STAT_TJ) < s.threshold F.TH_CFG_SHUT - s.threshold F.TH_CFG_HYST)
  else if b = 3 then s.railsGood
  else if b = 4 then !s.power.pfPin && s.railOk 12
  else if b = 5 then s.hk.failed.length < 3
  else if b = 6 then s.flag F.SYS_PWRSTAT_PLLOK
  else true

/-- A write of SYS_SAFECAUSE. -/
def safeCauseClear (v : Word) (s : State) : State :=
  s.whenever (s.access R.SYS_SAFECAUSE) fun s =>
    (List.range 7).foldl (fun s b =>
      if v.toNat.testBit b && bit (s.get F.SYS_SAFECAUSE_CAUSE) b then
        if s.causeGone b then s.putBit F.SYS_SAFECAUSE_CAUSE b false else s.cmdRes 3
      else s) s

/-! ### What an evaluation decides (R37, R41) -/

/-- What a RUN command does with the answer of its evaluation. -/
def State.runAnswer (s : State) (a : Nat × PlanResult) : State :=
  let s := (s.planShow a.2).put F.SYS_MODESTAT_BUSY 0
  let s : State := { s with power := { s.power with trans := none } }
  if a.1 ≠ 0 then s.cmdRes 4
  else
    let s := s.cmdRes 1
    let s := if s.flag F.SYS_MODESTAT_THTHR then s.modeTo .throttled 2 else s.modeTo .run 1
    let s := s.forEach 8 (fun _ => true) fun h s => s.fperNote h
    s.forEach 16 (fun _ => true) fun b s => s.shadowAsk b

/-- A RUN command whose evaluation has ended. -/
def State.runDecide (s : State) : State := s.runAnswer (s.planAction s (s.get F.SYS_STREAM_HEADS))

/-- What a SYS_STREAM write does with the answer of its evaluation. -/
def State.streamAnswer (s : State) (new : Nat) (a : Nat × PlanResult) : State :=
  let s := s.planShow a.2
  if a.1 ≠ 0 then s.cmdRes 4
  else (s.put F.SYS_STREAM_HEADS new).forEach 8 (fun _ => true) fun h s => s.fperNote h

/-- A SYS_STREAM write whose evaluation has ended. -/
def State.streamDecide (s : State) (new : Nat) : State := s.streamAnswer new (s.planAction s new)

/-- EVAL: the configuration in force, or with an open handle's entries (Table 1-9). -/
def State.evalDecide (s : State) (handle : Nat) : State :=
  if handle = 0 then s.planShow (s.planAction s s.streamMask).2
  else if handle ≤ 16 ∧ s.txnState (handle - 1) = 1 then
    s.planShow (s.planAction (s.candidate (s.txn (handle - 1)).entries) s.streamMask).2
  else s.planPublish 0 0 none

/-- A re-plan has ended: heads newly held have stopped streaming for their transactions and events (R39, R387). -/
def State.replanDecide (s : State) (auto : Bool) : State :=
  let (s, held) := s.replan auto
  held.foldl (fun s h => s.headStopped h) s

/-- The running evaluation ends. -/
def planEvalDone (s : State) : State :=
  match s.planRun with
  | none => s
  | some q =>
    let s := match q.kind with
      | .runCmd => s.runDecide
      | .commit => s.txnPlanned q.arg s.dt
      | .subscribe => s.ctxPlanned q.arg
      | .stream => s.streamDecide q.arg
      | .job => s.jobPlanned q.cmd
      | .eval => s.evalDecide q.arg
      | .replan => s.replanDecide false
      | .auto => s.replanDecide true
    planEvalStart s

/-! ### FRAME_COMPLETE_REPORT (R270, R406) -/

/-- A frame of a head is reported; a SETUP command from RUN may be done with it. -/
def frameCompleteReport (h t : Nat) (s : State) : State := (frameReport h t s).downDone

/-! ### RESET (R403) -/

/-- The field of SYS_RSTCAUSE of a cause (Table 18-2). -/
def resetFld : ResetCause → Fld
  | .por => F.SYS_RSTCAUSE_POR
  | .pin => F.SYS_RSTCAUSE_PIN
  | .rail => F.SYS_RSTCAUSE_RAIL

/-- The device enters RESET, which its release then ascribes to these causes (R453): everything but the stores outside the logic
takes its reset value; page writes in progress stop between words (R435). -/
def State.toReset (s : State) (causes : List ResetCause) : State :=
  let s := s.nvStep.nvCut
  { State.reset with
    nvm := s.nvm, host := s.host, freeCnt := s.freeCnt, pending := s.pending, refStopped := s.refStopped, tap := s.tap
    power := { State.reset.power with level := s.power.level, causes := causes } }

/-- The device enters RESET for a cause, and for those that a power-fail sequence held. -/
def State.resetNow (s : State) (c : ResetCause) : State := s.toReset (c :: s.power.resetWait)

/-- A further cause while RESET holds. -/
def State.resetToo (s : State) (c : ResetCause) : State := { s with power := { s.power with causes := c :: s.power.causes } }

/-- The power-fail sequence starts (R417): SAFE, and a relocation stops after its word (R396); one that waits for a software write
is left over. -/
def State.powerStart (s : State) : State :=
  let late := fun (w : NvWork) => match w with | .reloc p => some p | _ => none
  let s : State := { s with
    power := { s.power with seq := true }
    nv := { s.nv with wait := s.nv.wait.filter fun w => (late w).isNone, relocWait := s.nv.relocWait ++ s.nv.wait.filterMap late }
    churnRun := s.churnRun.filter fun j => j.act != .m9r
    churnQueue := s.churnQueue.filter fun j => j.act != .m9r }
  (s.put F.SYS_PWRSTAT_PERSISTED 0).syncChurn.nvAbort.safeEnter 7

/-- A power-fail condition arises: the sequence starts when every earlier condition has ended (R417). -/
def State.powerCond (s : State) (pin : Bool) : State :=
  let had := s.power.pfPin || s.power.pfRail
  let s : State := { s with power :=
    { s.power with pfPin := s.power.pfPin || pin, pfRail := s.power.pfRail || !pin } }
  let s := s.put F.SYS_PWRSTAT_PFAIL 1
  if had then s else s.powerStart

/-- RESET waits for a power-fail sequence (R403). -/
def State.resetHold (s : State) (c : ResetCause) : State :=
  { s with power := { s.power with resetWait := c :: s.power.resetWait } }

/-- A RESET that a rail other than VDD_AON asks for below its reset threshold (R403, R417): it follows the power-fail sequence,
which runs, has ended already, or starts here while VDD_AON is good. -/
def State.resetAfter (s : State) : State :=
  if s.power.seq then (s.powerCond false).resetHold .rail
  else if s.power.pfPin || s.power.pfRail || !s.railOk 12 then s.resetNow .rail
  else (s.powerCond false).resetHold .rail

/-- The device is told to reset (R403): a running power-fail sequence holds RESET_N and a rail; a rail that falls below its
reset threshold starts the sequence first. -/
def resetEntry (c : ResetCause) (s : State) : State :=
  if s.mode = .reset then
    if s.power.released then s.resetNow c else s.resetToo c
  else match c with
    | .por => s.resetNow c
    | .pin => if s.power.seq then s.resetHold c else s.resetNow c
    | .rail => s.resetAfter

/-- The supply monitor's reading of a rail is kept. -/
def State.setLevel (s : State) (k uv : Nat) : State := { s with power := { s.power with level := s.power.level.set k uv } }

/-- VDD_AON falls below 1.55 V; the model reads it at 0 V from then on (log entry 189). -/
def aonCollapse (s : State) : State :=
  let s := s.setLevel 12 0
  if s.mode = .reset then s.resetToo .rail else s.resetNow .rail

/-! ### RESET release (R91, R101, R211, R230, R389, R440 to R443, R453) -/

/-- A factory item's check word holds (R443). -/
def State.itemOk (s : State) (a n : Nat) : Bool :=
  let b := s.nvLoad a n
  leAt b (n - 8) 4 == crc32c (b.take (n - 8)) && leAt b (n - 4) 4 == 0

/-- The sequence number of a valid slot of ring `n` (R440). -/
def State.slotSeq (s : State) (n j : Nat) : Option Nat :=
  match nvRing n with
  | none => none
  | some (_, size, base) =>
    let b := s.nvLoad (base + size * j) size
    if crc32c (b.take (size - 8)) = leAt b (size - 8) 4 ∧ leAt b (size - 4) 2 = n then some (leAt b (size - 16) 8) else none

/-- The current slot of a ring: the valid one with the highest SEQ. -/
def State.slotScan (s : State) (n : Nat) : Option (Nat × Nat) :=
  (s.ringSlots n).foldl (fun best j => match s.slotSeq n j, best with
    | none, b => b
    | some q, none => some (j, q)
    | some q, some (i, p) => if p < q then some (j, q) else some (i, p)) none

/-- The values of a ring's current slot, zeros where it has none. -/
def State.slotValues (s : State) (n : Nat) : List Byte :=
  match nvRing n, s.nv.cur.getD n none with
  | some (_, size, base), some (j, _) => s.nvLoad (base + size * j) (size - 16)
  | some (_, size, _), none => List.replicate (size - 16) 0
  | none, _ => []

/-- Scan one ring; one without a valid slot raises a UC, whose DETAIL the spec does not give. -/
def State.scanRing (s : State) (n : Nat) : State :=
  match s.slotScan n with
  | some c => { s with nv := { s.nv with cur := s.nv.cur.set n (some c) } }
  | none =>
    let (d, s) := ({ s with nv := { s.nv with cur := s.nv.cur.set n none } } : State).fresh
    s.raise 47 .uc d

/-- Relocation entries of the RMAP ring (R442). -/
def parseRelocs (b : List Byte) : List (Nat × Nat) :=
  ((List.range 126).map fun k => (leAt b (8 * k) 2, leAt b (8 * k + 2) 2)).filter fun e => e.2 != 0

/-- The trims of the band-gaps: words 0 and 1 of their item (R91; log entry 65). -/
def State.loadTrims (s : State) : State :=
  let b := s.nvLoad 0x100 24
  if s.itemOk 0x100 24 then (s.put F.TC_BG_TRIM (leAt b 0 1)).put F.TC_BG_CHKTRIM (leAt b 8 1)
  else (((s.put F.TC_BG_TRIMBAD 1).raise 47 .uc (detailWord 0xFF 31 0x028)).put F.TC_BG_CHKTRIMBAD 1).raise 47 .uc
    (detailWord 0xFF 30 0x028)

/-- Identity from the part header (R453). -/
def State.loadHeader (s : State) : State :=
  let b := s.nvLoad 0 16
  let s := (s.put F.SYS_SERIAL_LO_SERIAL (leAt b 0 4)).put F.SYS_SERIAL_HI_SERIAL (leAt b 4 4)
  (s.put F.SYS_ID_MREV (leAt b 9 1 % 16)).put F.SYS_TESTDATE_DATE (leAt b 0xC 4)

/-- The factor words of a bank in the FACT layout (Table 17-2). -/
def State.putFact (s : State) (r : Nat) (b : List Byte) : State :=
  (List.range 32).foldl (fun s c => (List.range 12).foldl (fun s w =>
    s.put (F.TC_FACT_FACTOR (2 * r + c / 16) (16 * (c % 16) + w)) (leAt b (24 * c + 2 * w) 2)) s) s

/-- Ring FACTr is loaded, falling back on the factory factors, then on 0 (R101). -/
def State.loadFact (s : State) (r : Nat) : State :=
  let v := s.slotValues (16 + r)
  let a := 0x400 + 0x400 * r
  let noSlot := (s.nv.cur.getD (16 + r) none).isNone
  let s := s.putFact r (if noSlot ∧ s.itemOk a 1024 then s.nvLoad a 768 else v)
  let s := if noSlot ∧ !s.itemOk a 1024 then (let (d, s) := s.fresh; s.raise 47 .uc d) else s
  let s := (s.put (F.TC_CALOK_COUNT r) (leAt v 768 4)).put (F.TC_CALFAIL_COUNT r) (leAt v 772 4)
  (s.put64 (F.TC_CALDT_LO_DT_LO r) (F.TC_CALDT_HI_DT_HI r) (leAt v 776 8)).put (F.TC_CALTAI_TAI r) (leAt v 784 4)

/-- Ring SHUTh is loaded (R211). -/
def State.loadShut (s : State) (h : Nat) : State :=
  let v := s.slotValues (4 + h)
  let s := (s.put (F.CX_SOK_COUNT h) (leAt v 0 4)).put (F.CX_SFAIL_COUNT h) (leAt v 4 4)
  (s.put64 (F.CX_SLDT_LO_DT h) (F.CX_SLDT_HI_DT h) (leAt v 8 8)).put (F.CX_SLTAI_TAI h) (leAt v 16 4)

/-- A block's cells after RESET: those recorded as retired, the spare in their place (R230, R240). -/
def State.loadCells (s : State) (b rec : Nat) : State :=
  let gone := (List.range 7).filter fun c => rec / 4 ^ c % 4 == cellRetired
  let six := gone.any fun c => c < 6
  (List.range 7).foldl (fun s c => s.setCell b c
    (if gone.contains c then cellRetired else if c < 6 ∨ six then cellInService else cellSpare)) s

/-- Retirements are re-applied (R240, R380). A region's record does not say which part is retired: its digital part is (log
entry 59). -/
def State.loadRetired (s : State) : State :=
  let v := s.slotValues 2
  let ret := leAt v 0 8
  let s := s.put64 F.FC_RET_LO_RET F.FC_RET_HI_RET ret
  let s := s.forEach 44 (fun n => bit ret n) fun n s =>
    let s := s.put (F.FC_SRC_RETIRED n) 1
    if n < 16 then s
    else if n < 20 then { s with digitalFail := s.digitalFail ++ [n - 16] }
    else if n < 28 then
      ((s.putBit F.SYS_PLAN_HELD_HELD (n - 20) true).modHead (n - 20) fun u => { u with retired := true }).syncHeld (n - 20)
    else ({ s with lostChan := s.lostChan ++ [n - 28] } : State).put (F.DR_CSTAT_LOST (n - 28)) 1
  s.forEach 16 (fun _ => true) fun b s =>
    (s.loadCells b (if bit ret b then 0x3FFF else leAt v (8 + 2 * b) 2)).put (F.EN_BCNT_RETIRED b) (leAt v (40 + 2 * b) 2)

/-- The power-on count and the powered time (R441). -/
def State.loadBoot (s : State) : State :=
  let v := s.slotValues 1
  let boots := leAt v 0 8 + 1
  let s : State := { s with nv := { s.nv with boots := boots, secsBase := leAt v 8 8, lastHour := 0 } }
  (s.put F.NV_BOOT_COUNT (boots % 2 ^ 32)).persist 1

/-- The sequence number the log goes on with (R389). -/
def State.logScan (s : State) : Nat :=
  (List.range 16384).foldl (fun next i =>
    let b := s.nvLoad (0x1C0000 + 64 * i) 64
    if crc32c (b.take 60) = leAt b 60 4 then max next (leAt b 0 4 + 1) else next) 0

/-- DT starts at 0 (R115). -/
def State.dtZero (s : State) : State := { s with dt := 0, dtFrac := 0 }

/-- VDD_IO takes 1.8 V as nominal when it reads below 2.5 V, and 3.3 V otherwise (R415). -/
def State.chooseIo (s : State) : State :=
  { s with power := { s.power with io33 := decide (2500000 ≤ s.power.level.getD 11 0) } }

/-- RESET is released while every rail is good: DT starts, the causes of the RESET show, the NVM is scanned, the values it keeps
are loaded, and the POWER record is written. -/
def resetRelease (s : State) : State :=
  s.whenever (s.mode == .reset && !s.power.released && s.chooseIo.railsGood) fun s =>
    let s := s.chooseIo.dtZero
    let s := s.power.causes.foldl (fun s c => s.put (resetFld c) 1) s
    let s : State := { s with power := { s.power with released := true, causes := [] } }
    let s := s.scanRing 0
    let s : State := { s with nv := { s.nv with relocs := parseRelocs (s.slotValues 0) } }
    let s := (s.put F.NV_SPARE_LEFT (126 - s.nv.relocs.length)).put F.NV_CNT_RELOC s.nv.relocs.length
    let s := ((List.range 21).filter fun n => n != 0 && (nvRing n).isSome).foldl State.scanRing s
    let s := s.loadHeader.loadTrims.loadBoot.loadRetired
    let s := s.put F.EN_MCMIN_SVN (leAt (s.slotValues 3) 0 4)
    let s := s.forEach 8 (fun _ => true) fun h s => s.loadShut h
    let s := s.forEach 4 (fun _ => true) fun r s => s.loadFact r
    (s.put F.FC_LOGSEQ_SEQ s.logScan).log { type := 6, info := [1] }

/-- The device enters DORMANT; the milk round's windows count from here (R403, R421). -/
def dormantEntry (t : Nat) (s : State) : State :=
  s.whenever (s.mode == .reset && s.power.released) fun s =>
    let s : State := { s.at t with power := { s.power with released := false } }
    ({ s with hk := { s.hk with anchor := s.dt, lastWin := none } } : State).modeTo .dormant 0

/-! ### The reference clock (R414) -/

/-- REF stops. -/
def refClockStop (t : Nat) (s : State) : State :=
  if s.refStopped then s
  else if s.mode = .reset then { s with refStopped := true }
  else
    let s : State := { s.at t with refStopped := true }
    let s := s.put F.SYS_PWRSTAT_PLLOK 0
    let hit := s.mode == .setup || s.inRun
    let s := s.raise 53 (if hit then .fa else .uc) (detailWord 0xFF 15 0x210)
    if hit then s.safeEnter 9 else s

/-- REF returns; the PLLs begin to relock. -/
def refClockReturn (s : State) : State := { s with refStopped := false }

/-- The CORE, DRAM and CSI-2 port PLLs are locked. -/
def pllLocked (s : State) : State :=
  s.whenever (!s.refStopped && (s.up || s.power.released)) fun s => s.put F.SYS_PWRSTAT_PLLOK 1

/-! ### Rails (R415, R416) -/

/-- The supply monitor watches a rail: all but VSHUT, in every mode except RESET. -/
def State.watched (s : State) (k : Nat) : Bool := s.up && k != 5

/-- SYS_PWRSTAT.SAG of a rail; NV_STAT.ILK_SAG shows a sag of any rail, before which a software write whose turn it is has
started (R434, R436). -/
def State.putSag (s : State) (k : Nat) (b : Bool) : State :=
  let s := s.nvTurn.putBit F.SYS_PWRSTAT_SAG k b
  s.putB F.NV_STAT_ILK_SAG (s.get F.SYS_PWRSTAT_SAG != 0)

/-- A supply disconnects because VDD_HSUP has failed (R55, R416): whether it counts as a short or as a back-feed is free (log
entry 66). -/
def State.hsupLost (s : State) (h : Nat) : State :=
  let (back, s) := s.freshUpTo 1
  if back = 1 then hsupReverseDisconnect h s.dt s else hsupShortDisconnect h s.dt s

/-- A rail's reading is a sag: below 93 % for 1 µs (R415). -/
def State.readsSag (s : State) (r : RailReading) : Bool := s.below r.rail r.uv 93 && 1000 ≤ r.ns

/-- A rail's reading is a failure: below 88 % or above 110 % for 10 µs. -/
def State.readsFail (s : State) (r : RailReading) : Bool :=
  (s.below r.rail r.uv 88 || s.above r.rail r.uv 110) && 10000 ≤ r.ns

/-- A rail's reading is below its reset threshold: 80 % on a rail marked in Table 16-5; VDD_AON, too, below 1.55 V (R403). -/
def State.readsReset (s : State) (r : RailReading) : Bool :=
  (r.rail.val != 4 && s.below r.rail r.uv 80) || (r.rail.val == 12 && r.uv < 1550000)

/-- VDD_AON's reading is a power failure: below 95 % for 1 µs (R417). -/
def State.readsAonLow (s : State) (r : RailReading) : Bool := r.rail.val == 12 && s.below 12 r.uv 95 && 1000 ≤ r.ns

/-- A power-fail condition of the rails holds (R417): VDD_AON below 95 %, a failure of VDD_NVM, another rail below its reset
threshold. -/
def State.railCond (s : State) : Bool :=
  s.below 12 (s.power.level.getD 12 0) 95 || s.power.failing.contains 13 ||
    (List.range 14).any fun k => k != 4 && k != 5 && k != 12 && s.below k (s.power.level.getD k 0) 80

/-- SYS_PWRSTAT.PFAIL falls once no condition holds. -/
def State.syncPfail (s : State) : State :=
  let s : State := { s with power := { s.power with pfRail := s.power.pfRail && s.railCond } }
  s.putB F.SYS_PWRSTAT_PFAIL (s.power.pfPin || s.power.pfRail)

/-- A rail begins to fail (R416, R417). -/
def State.railFails (s : State) (k : Nat) : State :=
  let s := s.putBit F.SYS_PWRSTAT_FAIL k true
  let d := detailWord k (16 + k) 0x210
  if s.power.failing.contains k then s
  else
    let s : State := { s with power := { s.power with failing := s.power.failing ++ [k] } }
    if k = 4 then (s.raise 54 .uc d).forEach 8 (fun h => s.get (F.HP_STAT_HSUP h) == 2) fun h s => s.hsupLost h
    else if k = 12 then s
    else if k = 13 then s.powerCond false
    else (s.raise 54 .fa d).safeEnter 6

/-- The supply monitor takes a reading of a rail (R415 to R417): sag, failure, power failure, reset. -/
def State.monitor (s : State) (r : RailReading) : State :=
  let k := r.rail.val
  let s := s.setLevel k r.uv
  let s := if s.readsSag r then s.putSag k true else if s.below k r.uv 93 then s else s.putSag k false
  let s := if s.readsFail r then s.railFails k
    else if s.below k r.uv 88 || s.above k r.uv 110 then s
    else { s with power := { s.power with failing := s.power.failing.filter (· != k) } }
  let s := if s.readsAonLow r then s.powerCond false else s
  if !s.readsReset r then s.syncPfail
  else if k = 12 then s.resetNow .rail
  else s.resetAfter

/-- A reading reaches the supply monitor at an instant: in RESET it is only kept, otherwise it acts where it is what the command
names. -/
def State.railRead (s : State) (r : RailReading) (due : Bool) (t : Nat) : State :=
  if s.mode = .reset then s.setLevel r.rail r.uv else s.whenever (s.watched r.rail && due) fun s => (s.at t).monitor r

/-- A rail sags. -/
def railSag (r : RailReading) (s : State) : State := s.railRead r (s.readsSag r) s.dt

/-- A rail fails, or falls below its reset threshold. -/
def railFailure (k : Rail) (v : RailLevel) (t : Nat) (s : State) : State :=
  let r : RailReading := { rail := k, uv := v.uv, ns := v.ns }
  s.railRead r (s.readsFail r || s.readsReset r) t

/-- A rail is good again: neither in sag nor failing. -/
def railGood (r : RailReading) (s : State) : State :=
  s.railRead r (!s.below r.rail r.uv 93 && !s.above r.rail r.uv 110) s.dt

/-! ### Power failure (R417) -/

/-- A rail's reading is a power failure. -/
def State.readsPower (s : State) (r : RailReading) : Bool :=
  s.readsAonLow r || (r.rail.val == 13 && s.readsFail r) || (r.rail.val != 12 && s.readsReset r)

/-- POWERFAIL_N goes low, or the supply monitor finds a power failure. -/
def powerfailAssert (c : PowerfailCause) (t : Nat) (s : State) : State :=
  match c with
  | .pin => s.whenever s.up fun s => (s.at t).powerCond true
  | .rail r => s.railRead r (s.readsPower r) t

/-- A ring the power-fail sequence persists: dirty, asked for, or the installed image that waits (R437, R438, R441). -/
def State.ringWaits (s : State) (n : Nat) : Bool :=
  n == 1 || bit (s.get F.NV_DIRTY_RING) n || s.nv.req.contains n || (n == 20 && s.nv.install)

/-- The sequence ends: staged records, rings, the POWER record, PERSISTED; a held RESET follows. -/
def powerfailPersistDone (s : State) : State :=
  s.whenever (s.up && s.power.seq) fun s =>
    let s := s.logFlush
    let s := s.forEach 21 (fun n => s.ringWaits n && !s.ringDead n) fun n s => s.slotWrite n
    let s := (s.logForce { type := 6, info := [2] }).put F.SYS_PWRSTAT_PERSISTED 1
    let s : State := { s with nv := { s.nv with install := false, run := [] }, power := { s.power with seq := false } }
    if s.power.resetWait.isEmpty then s else s.toReset s.power.resetWait

/-- POWERFAIL_N returns high and VDD_AON is good; PFAIL clears unless a condition of the rails still holds. -/
def powerfailEnd (s : State) : State :=
  s.whenever (s.up && s.railOk 12) fun s => ({ s with power := { s.power with pfPin := false } } : State).syncPfail

/-! ### Meanings -/

/-- `PLAN_EVAL_DONE`. -/
def execPlanEvalDone (s : State) : Result := .next (planEvalDone s)
/-- `FRAME_COMPLETE_REPORT`. -/
def execFrameCompleteReport (h : Head) (t : Nat) (s : State) : Result := .next (frameCompleteReport h t s)
/-- `DORMANT`. -/
def execModeDormant (s : State) : Result := .next (modeDormant s)
/-- `SETUP`. -/
def execModeSetup (t : Nat) (s : State) : Result := .next (modeSetup t s)
/-- `RUN`. -/
def execModeRun (s : State) : Result := .next (modeRun s)
/-- `THROTTLE`. -/
def execModeThrottle (s : State) : Result := .next (modeThrottle s)
/-- `UNTHROTTLE`. -/
def execModeUnthrottle (s : State) : Result := .next (modeUnthrottle s)
/-- `SAFE`. -/
def execModeSafe (t : Nat) (s : State) : Result := .next (modeSafe t s)
/-- `SETUP_TRANSITION_DONE`. -/
def execSetupTransitionDone (s : State) : Result := .next (setupTransitionDone s)
/-- `DRAM_TRAINING_DONE`. -/
def execDramTrainingDone (ch : Channel) (ok : Bool) (mib : Nat) (s : State) : Result := .next (dramTrainingDone ch ok mib s)
/-- `SYS_STREAM_WRITE`. -/
def execSysStreamWrite (v : Word) (s : State) : Result := .next (sysStreamWrite v s)
/-- `SAFE_CAUSE_CLEAR`. -/
def execSafeCauseClear (v : Word) (s : State) : Result := .next (safeCauseClear v s)
/-- `RESET_ENTRY`. -/
def execResetEntry (c : ResetCause) (s : State) : Result := .next (resetEntry c s)
/-- `RESET_RELEASE`. -/
def execResetRelease (s : State) : Result := .next (resetRelease s)
/-- `DORMANT_ENTRY`. -/
def execDormantEntry (t : Nat) (s : State) : Result := .next (dormantEntry t s)
/-- `REF_CLOCK_STOP`. -/
def execRefClockStop (t : Nat) (s : State) : Result := .next (refClockStop t s)
/-- `REF_CLOCK_RETURN`. -/
def execRefClockReturn (s : State) : Result := .next (refClockReturn s)
/-- `PLL_LOCKED`. -/
def execPllLocked (s : State) : Result := .next (pllLocked s)
/-- `RAIL_SAG`. -/
def execRailSag (k : RailReading) (s : State) : Result := .next (railSag k s)
/-- `RAIL_FAILURE`. -/
def execRailFailure (k : Rail) (v : RailLevel) (t : Nat) (s : State) : Result := .next (railFailure k v t s)
/-- `RAIL_GOOD`. -/
def execRailGood (k : RailReading) (s : State) : Result := .next (railGood k s)
/-- `POWERFAIL_ASSERT`. -/
def execPowerfailAssert (c : PowerfailCause) (t : Nat) (s : State) : Result := .next (powerfailAssert c t s)
/-- `POWERFAIL_PERSIST_DONE`. -/
def execPowerfailPersistDone (s : State) : Result := .next (powerfailPersistDone s)
/-- `POWERFAIL_END`. -/
def execPowerfailEnd (s : State) : Result := .next (powerfailEnd s)
/-- `AON_COLLAPSE`. -/
def execAonCollapse (s : State) : Result := .next (aonCollapse s)

end Sys2Proof.Machine
end

