-- ==== Sys2Proof/Machine/FrameStart.lean ====
section
/-! DEFINITION. The start of a frame (R107 to R114) and everything that takes effect there: holds, swaps, parameter sets,
decimation, the roles of shutter events, the terms of the frame; the start and the end of streaming (R111, R407); and the
HELD slots of a lost source (R117). -/

namespace Sys2Proof.Machine

/-! ### Holds that a frame start looks at -/

/-- A copy in use lies on a lost channel and has no synced mirror (R154). -/
def State.copyLost (s : State) (h i : Nat) : Bool :=
  let base := s.copyBase h i
  let pages := (base + s.copySize h i + 4095) / 4096 - base / 4096
  !(s.mirrored h i && bit (s.get (F.CL_HSTAT_MIRSYNC h)) i) &&
  (List.range (min pages 16)).any fun k => s.lostChan.contains (chanOf (base + 4096 * k))

/-- A channel loss holds the head (R154). -/
def State.chanHolds (s : State) (h : Nat) : Bool :=
  !s.lostChan.isEmpty && (s.copyLost h (s.leafSel h) || (s.flag (F.CX_HCFG_RES_EN h) && s.copyLost h (s.resSel h)))

/-- The causes that begin or end with a frame start: lost lock (R87), a lost channel (R154), RESUME with the supply on
(R56). -/
def State.holdsAtStart (s : State) (h : Nat) : State :=
  let lock := s.bankFlag (regionOf h) F.TC_STAT_SCLK_LOCK
  let chan := s.chanHolds h
  (s.modHead h fun u =>
    { u with heldSclk := !lock, heldChan := chan, portHeld := u.portHeld && !u.resume, supHeld := u.supHeld && !u.resume,
             resume := false }).syncHeld h

/-- A calibration of the head's bank occupies this instant (R99). -/
def State.calibrating (s : State) (h : Nat) : Bool :=
  match (s.bank (regionOf h)).cal with
  | .passA | .passB | .checks => true
  | .idle | .waiting => false

/-- The digital part that takes the head's samples, or the one of its pipe, is lost and no re-plan has carried the head yet
(R386). -/
def State.digitalDown (s : State) (h : Nat) : Bool :=
  s.digitalFail.contains (s.collator h) || s.digitalFail.contains (s.get (F.FP_HASSIGN_PIPE h))

/-! ### Swaps that wait for a frame start (R156, R225) -/

/-- The swap of a TABLE_SWAP command takes effect once its activity runs (R395), at a frame start after its acceptance
(R157); one whose activity SAFE has ended asks for it again (log entry 135). -/
def State.swapDue (s : State) (h kind : Nat) : State :=
  let u := s.head h
  let pend := if kind = 0 then u.leafPend else if kind = 1 then u.resPend else u.radPend
  let queued := s.churnQueue.any fun j => j.act == .m5 && j.res == 3 * h + kind
  if !pend || queued || s.dt ≤ u.swapAt.getD kind 0 then s
  else
    let (a, s) := if s.churnRuns .m5 (3 * h + kind) then (.granted, s) else s.churnAsk .m5 (3 * h + kind) true s.dt
    if a != .granted then s
    else
    let s := if kind = 2 then s.radSwapNow h else s.swapNow h kind
    let s := (s.put (swapRes h kind) 1).churnDone .m5 (3 * h + kind)
    let mine := u.swapWaiters.filter fun w => w.1 == kind
    let s := mine.foldl (fun s w => s.finishCmd w.2.1 w.2.2 0 1) s
    s.modHead h fun u => { u with
      swapWaiters := u.swapWaiters.filter fun w => w.1 != kind
      leafPend := u.leafPend && kind != 0, resPend := u.resPend && kind != 1, radPend := u.radPend && kind != 2 }

/-- Every swap due at a frame start: TABLE_SWAP, a finished refit (R209), a refresh (R202), the end of an event (R198,
R199). -/
def State.swapsAtStart (s : State) (h t : Nat) : State :=
  let s := ((s.swapDue h 0).swapDue h 1).swapDue h 2
  ((s.refitSwapNow h).refreshSwap h).shutResume h t

/-! ### The frame slot (R113, R114) -/

/-- A frame slot: the next sequence number and the DT `t` of the frame. -/
def State.frameSlot (s : State) (h t : Nat) : State :=
  let n := s.get64 (F.HP_FSEQ_LO_FSEQ h) (F.HP_FSEQ_HI_FSEQ h) + 1
  (s.put64 (F.HP_FSEQ_LO_FSEQ h) (F.HP_FSEQ_HI_FSEQ h) n).put64 (F.HP_FSDT_LO_FSDT h) (F.HP_FSDT_HI_FSDT h) t


/-- The record of a frame slot at `t` with DT `dt` and the settings in force now (R161). A faulty tap, a late open circuit, a
reference on its fallback (R90) and band-gaps that disagree (R92) degrade it. -/
def State.newFrame (s : State) (h t dt : Nat) : Frame :=
  let inv := s.get (F.HP_TAPFLT_OPEN h) ||| s.get (F.HP_TAPFLT_SHORT h)
  let ref := s.bankFlag (regionOf h) F.TC_STAT_REF_FALLBACK || s.flag F.TC_BG_DISAGREE
  { head := h, seq := s.get64 (F.HP_FSEQ_LO_FSEQ h) (F.HP_FSEQ_HI_FSEQ h), dt := dt, gen := (s.head h).gen,
    slotAt := t, locked := s.ring.everLocked,
    snap := s.regs, profile := s.prof h, tai := (s.taiAt dt).getD 0, ageUnk := (s.taiAt dt).isNone,
    tfpa := s.get (F.HP_THM_TEMP h), thmHeld := s.flag (F.HP_STAT_THM_HELD h),
    leafSel := s.leafSel h == 1, resSel := s.resSel h == 3, radSel := s.flag (F.FP_RSTAT_SEL h),
    hdr := s.tableBytes h (s.leafSel h) (s.copyBase h (s.leafSel h)) 64,
    swap := s.get (F.HP_TAPSWAP_SWAP h), tapInv := inv, degraded := inv != 0 || (s.head h).openLate || ref,
    shpos := s.get (F.HP_STAT_SHPOS h), shphase := s.get (F.CX_SSTAT_PHASE h) }

/-- A frame slot counts against the event that runs (R200). -/
def State.slotCount (s : State) (h : Nat) : State :=
  if (s.shut h).active && 2 ≤ s.get (F.CX_SSTAT_PHASE h) then s.shutSlot h else s

/-- The alarm rules and the statistics registers at a frame start (R283, R293). -/
def State.rulesAtStart (s : State) (f : Frame) : State :=
  let s := (s.alarm f.head).resets.foldl (fun s n => s.ruleReset f n) s
  (s.modAlarm f.head fun a => { a with resets := [] }).alarmFrameStart f

/-- A frame in its use: HELD or dropped frames are not captured. -/
def Frame.use (f : Frame) (held drop : Bool) (role : FrameRole) (fresh : Bool) : Frame :=
  { f with held := held, decimated := drop, mute := held || drop, complete := held || drop, role := role, refresh := fresh }

/-- What a frame is for: THROTTLED drops a captured frame whose number is no multiple of D (R409); another takes a role in a
shutter event, or refreshes. -/
def State.frameUse (s : State) (h seq : Nat) (held : Bool) (f : State → Frame) : State × Frame :=
  let drop := !held && s.mode == .throttled && seq % max (s.get (F.TH_HPOL_D h)) 1 != 0
  let (role, s) := if held || drop then (.picture, s) else s.shutRole h
  let (fresh, s) := if held || drop then (false, s) else s.refreshPick h
  (s, (f s).use held drop role fresh)

/-- The frame begins: what it is for, and its terms. A HELD slot is not captured. -/
def State.startFrame (s : State) (h t : Nat) : State :=
  let cal := s.calibrating h
  let other := s.headHeld h || s.digitalDown h
  let held := other || cal
  let dt := if held then t else s.captureDt h t
  let s := (s.frameSlot h dt).slotCount h
  let seq := s.get64 (F.HP_FSEQ_LO_FSEQ h) (F.HP_FSEQ_HI_FSEQ h)
  let (s, f) := s.frameUse h seq held fun s =>
    { s.newFrame h t dt with calHeld := if cal && !other then some false else none }
  let f := if f.role = .picture then f else f.dated t
  let s := ({ s with frames := s.frames ++ [f] } : State).putFsdt h seq f.dt
  let s := s.modHead h fun u => { u with
    cap := some { seq := seq, start := t, hfv := (s.prof h).headTimed } }
  let s := s.frameTerms f
  let f := (s.frame h seq).getD f
  let s := (s.radFrameStart f).rulesAtStart f
  let s := s.driftMonitor h f.tfpa t
  let s := if s.flag (F.HP_CTRL_THM_EN h) then s.hkRequest (88 + h) (some seq) else s
  let s := s.heldAtSlot ((s.frame h seq).getD f)
  s.hkEvent 1 h t

/-! ### Streaming starts and ends (R111, R407) -/

/-- A head may stream: commanded, no SETUP transition, a VALID profile, PORT_EN, a valid FPER. -/
def State.mayStream (s : State) (h : Nat) : Bool :=
  s.commanded h && s.power.trans != some .down && s.hasProf h && s.flag (F.HP_CTRL_PORT_EN h) && s.fperValid h

/-- The first frame of a run of streaming: no good frame of an earlier run is repeated (R269). -/
def State.streamBegins (s : State) (h : Nat) : State :=
  if s.streams h then s
  else
    let s := (s.put (F.HP_STAT_STREAM h) 1).modHead h fun u => { u with hist := none, cap := none, blankFrom := none }
    { s with bufs := mapIf (fun b => b.head == h) (fun (b : BufRec) => { b with stale := true }) s.bufs }

/-- Streaming ends at a frame start; the frame in progress has completed (R111, R314, R406). -/
def State.streamEnds (s : State) (h : Nat) : State :=
  (((((s.turnCapture h).clearTiming h).trimStop h).modHead h fun u => { u with cap := none }).headStopped h).downDone

/-- A frame of the head starts at `t` (R107): or streaming ends there, or the head does not start yet. -/
def State.frameAt (s : State) (h t : Nat) : State :=
  let s := (s.at t).fperNote h
  if !s.mayStream h then
    if s.streams h then s.streamEnds h else s.modHead h fun u => { u with startPending := none }
  else if !s.streams h && s.calibrating h then s.modHead h fun u => { u with startPending := none }
  else
    let s := (s.streamBegins h).turnCapture h
    let s := s.modHead h fun u => { u with starts := u.starts + 1 }
    let s := (s.flushDeferred h).txnFrameStart h t
    let run := s.mode == .run
    let s := s.modHead h fun u => { u with
      lastStart := some t, heldRun := 0, startPending := none, blankFrom := none,
      firstRunStart := if u.firstRunStart.isNone && run then some t else u.firstRunStart }
    let s := (s.putLive h 0 false).holdsAtStart h
    let s := s.put (F.HP_TAPSWAP_SWAP h) (s.head h).swapNext
    (s.swapsAtStart h t).startFrame h t

/-! ### Rows -/

/-- FRAME_START: the internal timer (R107): a frame every FPER from the first one on. -/
def frameStart (h t : Nat) (s : State) : State :=
  let due : Bool := match (s.head h).lastStart with
    | some l => !s.streams h || l + s.fperNs h ≤ t
    | none => true
  s.whenever (s.inRun && !(s.prof h).headTimed && s.get (F.HP_FRM_CFG_SRC h) == 0 && due) fun s => s.frameAt h t

/-- The earliest begin of a pending start: its instant, and the end of the minimum blanking (R109); none while the frame in
progress has not ended. -/
def State.pendingBegin (s : State) (h : Nat) : Option (Nat × Bool) :=
  let u := s.head h
  match u.startPending with
  | none => none
  | some p =>
    match u.cap, u.blankFrom with
    | none, _ => some (p, false)
    | some _, none => none
    | some _, some b =>
      let e := b + s.hcyc h ((s.prof h).vblankMin * (s.prof h).p)
      some (max p e, decide (p < e))

/-- FRAME_START_PENDING: a pending start begins its frame (R107, R109). -/
def frameStartPending (h t : Nat) (s : State) : State :=
  let s := s.trigsDue t
  match s.pendingBegin h with
  | none => s
  | some (e, late) =>
    s.whenever (s.inRun && e ≤ t) fun s =>
      let s := if late then s.bump (F.HP_TCNT2_LATE h) else s
      s.frameAt h t

/-- HFV_RISE (R110, R120): an accepted edge starts a frame. -/
def hfvRise (h t : Nat) (s : State) : State :=
  s.whenever (s.up && (s.prof h).headTimed) fun s =>
    let s := (s.at t).modHead h fun u => { u with hfvSince := some t }
    if !(s.commanded h || s.streams h) then s
    else if inHoldoff (s.head h).hfvAcc (s.hcyc h (s.prof h).tmin / 2) t then s.bump (F.HP_TCNT1_FRM_OVR h)
    else (s.modHead h fun u => { u with hfvAcc := some t }).frameAt h t

/-- HELD_SLOT_DUE (R117): no start has been accepted in [T, T + 2 FPER), then one slot every FPER. Received triggers due by then
come first (R126); the slot's copies begin at its instant (R270). -/
def heldSlotDue (h t : Nat) (s : State) : State :=
  let s := s.trigsDue t
  match (s.head h).lastStart with
  | none => s
  | some l =>
    let u := s.head h
    let due := l + s.hcyc h ((2 + u.heldRun) * s.get (F.HP_FPER_FPER h))
    s.whenever (s.inRun && s.streams h && u.startPending.isNone && due ≤ t) fun s =>
      let s := ((s.at t).frameSlot h t).slotCount h
      let s := s.bump (F.HP_TCNT2_MISSED h)
      let s := if u.heldRun = 0 then
          ((s.put (F.HP_TSTAT_SRC_LOST h) 1).putLive h 0 true).raise (20 + h) .ce (detailWord 0xFF 0 0x088)
        else s
      let f : Frame := { s.newFrame h t t with held := true, mute := true, complete := true, captured := true }
      let s : State := { s with frames := s.frames ++ [f] }
      (s.modHead h fun u => { u with heldRun := u.heldRun + 1 }).heldAtSlot f

/-! ### The first line of a head-timed frame (R114) -/

/-- The frame's DT is settled: HP_FSDT, TAI_f and the terms that rest on it follow, the DT of a resume frame (R211), and the
records that give it (R293). A frame of a shutter event is a HELD slot and keeps its slot's DT. -/
def State.retime (s : State) (h seq dt : Nat) : State :=
  match s.frame h seq with
  | none => s
  | some f =>
    if f.held || f.role != .picture then s
    else
      let s := if s.get64 (F.CX_SLDT_LO_DT h) (F.CX_SLDT_HI_DT h) = f.slotAt then s.resumeStamp h dt else s
      let f := f.dated dt
      ((s.putFsdt h seq dt).frameTerms f).clearsPost f

/-- HLV_RISE: the first accepted line of a frame gives its DT, and head writes before the frame must have finished (R312). -/
def hlvLine (h t : Nat) (s : State) : State :=
  let first := fun (s : State) => match (s.head h).cap with | some c => c.lines == 0 | none => true
  let s' := hlvRise h t s
  if first s && !first s' then
    match (s'.head h).cap with
    | some c => (s'.txnFirstLine h).retime h c.seq (t + s.hcyc h (s.prof h).pixdly)
    | none => s'
  else s'

/-! ### Calibrations and the frames they hold (R94, R99) -/

/-- DT at which a capture's first sample cycle begins, once it is known. -/
def State.firstSample (s : State) (h : Nat) (c : Cap) : Option Nat :=
  if (s.prof h).headTimed && c.lines == 0 then none else some (s.lineStartAt h c 0 + s.hcyc h (s.prof h).pixdly)

/-- A capture has sample cycles from `t` on. -/
def State.samplesAfter (s : State) (h : Nat) (c : Cap) (t : Nat) : Bool :=
  let p := s.prof h
  (!c.closed && decide (c.lines < p.l)) || (c.lines != 0 && t < s.lineStartAt h c (c.lines - 1) + s.hcyc h (p.pixdly + p.s))

/-- A calibration begins at `t`: the frames of the head whose sample cycles overlap it go HELD (R99). -/
def State.calMute (s : State) (h t : Nat) : State :=
  ((s.head h).prevCap.toList ++ (s.head h).cap.toList).foldl (fun s c =>
    match s.frame h c.seq with
    | none => s
    | some f =>
      if f.held || f.decimated || !s.samplesAfter h c t then s
      else
        let fresh := (s.firstSample h c).all fun e => t ≤ e
        (s.discardFrame f).modFrame h c.seq fun f => { f with calHeld := if fresh then some true else none }) s

/-- A calibration has ended at `t`: a frame it alone held, none of whose sample cycles it overlapped, is captured (R99). -/
def State.calRelease (s : State) (h t : Nat) : State :=
  match (s.head h).cap with
  | none => s
  | some c =>
    match s.frame h c.seq with
    | none => s
    | some f =>
      let sampled := (s.firstSample h c).any fun e => e < t
      if s.calibrating h || f.reported || sampled then s
      else match f.calHeld with
        | none => s
        | some given =>
          let held := s.headHeld h || s.digitalDown h
          let f : Frame := { f with calHeld := none }
          let (s, f) := if given && !held then (s, f.use false f.decimated f.role f.refresh)
            else s.frameUse h c.seq held fun _ => f
          let s := s.modFrame h c.seq fun _ => f
          s.retime h c.seq ((s.firstSample h c).getD f.slotAt)

/-- Both heads of a region. -/
def State.calReleases (s : State) (r t : Nat) : State := (s.calRelease (2 * r) t).calRelease (2 * r + 1) t

/-- Pass A starts: when REFOK is set, and in RUN and THROTTLED at a frame start of the lower-numbered streaming head of
the region (R94, R99); with no head of the region streaming it starts at once (log entry 151). -/
def bankCalStart (r t : Nat) (s : State) : State :=
  s.whenever ((s.bank r).cal == .waiting && s.bankFlag r F.TC_STAT_REFOK) fun s =>
    let low := if s.streams (2 * r) then some (2 * r) else if s.streams (2 * r + 1) then some (2 * r + 1) else none
    let ready := !s.inRun || (match low with
      | some h => (s.head h).lastStart == some t
      | none => true)
    s.whenever ready fun s =>
      let s := ((s.at t).put (F.TC_CELLREJ_REJ_EVEN r) 0).put (F.TC_CELLREJ_REJ_ODD r) 0
      let s := (s.calMute (2 * r) t).calMute (2 * r + 1) t
      s.modBank r fun b => { b with cal := .passA, passStart := t, passA := [], passB := [] }

/-! ### Meanings -/

/-- `BANK_CAL_START`. -/
def execBankCalStart (r : Region) (t : Nat) (s : State) : Result := .next (bankCalStart r t s)
/-- `CAL_END`. -/
def execCalEnd (r : Region) (t : Nat) (s : State) : Result := .next ((calEnd r t s).calReleases r t)
/-- `REF_FALLBACK`. -/
def execRefFallback (r : Region) (s : State) : Result := .next ((refFallback r s).calReleases r s.dt)
/-- `HLV_RISE`. -/
def execHlvRise (h : Head) (t : Nat) (s : State) : Result := .next (hlvLine h t s)

/-- `FRAME_START`. -/
def execFrameStart (h : Head) (t : Nat) (s : State) : Result := .next (frameStart h t s)
/-- `FRAME_START_PENDING`. -/
def execFrameStartPending (h : Head) (t : Nat) (s : State) : Result := .next (frameStartPending h t s)
/-- `HFV_RISE`. -/
def execHfvRise (h : Head) (t : Nat) (s : State) : Result := .next (hfvRise h t s)
/-- `HELD_SLOT_DUE`. -/
def execHeldSlotDue (h : Head) (t : Nat) (s : State) : Result := .next (heldSlotDue h t s)

end Sys2Proof.Machine
end

