-- ==== Sys2Proof/Machine/Access.lean ====
section
/-! DEFINITION. Register access (chapter 18, R446 to R453): aliases, reads with the shadows of 64-bit pairs, and writes, which
go by address to the effect their chapter gives them. -/

namespace Sys2Proof.Machine

/-! ### Addresses (R447) -/

/-- The number of a port in the shadows. -/
def portNo (p : Port) : Nat := match p with | .pcie => 0 | .msp => 1

/-! ### Reads -/

/-- A VF's function number and the offset in its BAR0, which stands at 64 MiB + 16 KiB × f (log entry 40). -/
def vfOf (a : Nat) : Option (Nat × Nat) :=
  if 0x4000000 ≤ a ∧ a < 0x4000000 + 0x4000 * 32 then some ((a - 0x4000000) / 0x4000, a % 0x4000) else none

/-- The bits of 32 sources from source `n` on that satisfy `p`. -/
def sourceBits (n : Nat) (p : Nat → Bool) : Nat :=
  (List.range 32).foldl (fun m i => if p (n + i) then m + 2 ^ i else m) 0

/-- The word a register shows at canonical address `a` through a port: the stored word, and what is derived at the read. -/
def State.busWord (s : State) (p : Port) (a : Nat) : Word :=
  let w := s.reg a
  if a = R.SYS_MODESTAT then withField F.SYS_MODESTAT_MODE s.mode.code w
  else if a = R.FC_LIVE_LO then BitVec.ofNat 32 (sourceBits 0 s.liveOf)
  else if a = R.FC_LIVE_HI then BitVec.ofNat 32 (sourceBits 32 s.liveOf)
  else if a = R.FC_ACK_LO then BitVec.ofNat 32 (sourceBits 0 fun n => s.get (F.FC_SRC_UNACK n) != 0)
  else if a = R.FC_ACK_HI then BitVec.ofNat 32 (sourceBits 32 fun n => s.get (F.FC_SRC_UNACK n) != 0)
  else if a = R.GP_SET 0 then s.reg (R.GP_OUT 0)
  else if a = R.GP_SET 1 then s.reg (R.GP_OUT 1)
  else if (List.range 4).any fun r => a == R.CL_STAT r then
    let r := a / 0x10000 % 4
    let l := (List.range 8).filter fun h => s.streams h && s.collator h == r
    withField ⟨a, 28, 4⟩ l.length (withField ⟨a, 0, 8⟩ (l.foldl (fun m h => m + 2 ^ h) 0) w)
  else if (List.range 4).any fun r => a == R.FP_STAT r then
    let r := a / 0x10000 % 4
    withField ⟨a, 24, 8⟩ (((List.range 8).filter fun h => s.get (F.FP_HASSIGN_PIPE h) == r).foldl (fun m h => m + 2 ^ h) 0) w
  else if a = R.TRG_DTSTAT ∧ s.refStopped then withField F.TRG_DTSTAT_SRC 2 w
  else if a = R.TRG_DT_LO then BitVec.ofNat 32 s.dt
  else if a = R.TRG_DT_HI then BitVec.ofNat 32 (s.dt / 4294967296)
  else if a = R.TRG_STAT then withField F.TRG_STAT_HOLD s.ringHold.toNat w
  else if a = R.TXN_OPENRES then
    let r := s.openRes.getD (portNo p) (0, 0)
    withField F.TXN_OPENRES_RESULT r.1 (withField F.TXN_OPENRES_HANDLE r.2 w)
  else if a = R.NV_HOURS then BitVec.ofNat 32 (s.nvSeconds / 3600)
  else match vfOf a with
    | some (f, o) =>
      if o = 0x1000 then s.reg (R.Q_FRANGE f)
      else if o = 0x1004 then s.reg (R.Q_FPERM f)
      else if o < 0x200 ∨ o = 0x800 then w
      else 0
    | none => match regDesc a with
      | some d => w &&& d.readable
      | none => 0

/-- Find the index below `n` at which a register address stands. -/
def regIndex (n a : Nat) (f : Nat → Nat) : Option Nat := (List.range n).find? fun i => f i == a

/-- A 64-bit pair whose _LO word is at `a` (R451), with the OVW bit its chapter names, if any. Bit-vector pairs that act word by
word are none. -/
def pairAt (a : Nat) : Option (Option Fld) :=
  if a = R.TRG_DT_LO then some (some F.TRG_DTSTAT_OVW)
  else if [R.FC_FSW_LO, R.FC_LIVE_LO, R.FC_RET_LO, R.FC_FIRSTDT_LO, R.MC_SCRUBERR_LO].contains a then some (some F.FC_STAT_OVW)
  else if a = R.HK_RDT_LO then some (some F.HK_STAT_OVW)
  else if [R.SYS_SERIAL_LO, R.TRG_TAIOFF_LO, R.CX_TAISW_LO, R.DMA_HALTADDR_LO].contains a then some none
  else if a < 0x100000 then (regIndex 4 a R.TRG_TRIGDT_LO).map fun n => some (F.TRG_TRIGSTAT_OVW n)
  else if a < 0x200000 then
    ((regIndex 8 a R.HP_FSEQ_LO).or (regIndex 8 a R.HP_FSDT_LO)).map fun h => some (F.HP_TSTAT_OVW h)
  else if a < 0x300000 then (regIndex 4 a R.TC_CALDT_LO).map fun _ => none
  else if a < 0x400000 then ((regIndex 8 a R.CX_SQST_LO).or (regIndex 8 a R.CX_SLDT_LO)).map fun _ => none
  else if a < 0x800000 then
    match regIndex 64 a R.DMA_CH_BYTES_LO with
    | some c => some (some (F.DMA_CH_STAT_OVW c))
    | none => (regIndex 64 a R.DMA_CH_BASE_LO).map fun _ => none
  else if a < 0xA00000 then (regIndex 16 a R.DR_ERRADDR_LO).map fun c => some (F.DR_CSTAT_OVW c)
  else
    (((regIndex 32 a R.MON_CNT_LO).or (regIndex 32 a R.MON_SCNT_LO)).or (regIndex 32 a R.MON_SDT_LO)).map fun n =>
      some (F.MON_STAT_OVW n)

/-- The 64-bit value a pair shows now. -/
def State.pairValue (s : State) (p : Port) (a : Nat) : Nat := (s.busWord p a).toNat + 4294967296 * (s.busWord p (a + 4)).toNat

/-- The unit has replaced the value a port has latched: TRG_DT by its high word (R129), a pair derived at the read by its
value, any other by the count of its replacements. -/
def State.pairReplaced (s : State) (p : Port) (a v ver : Nat) : Bool :=
  if a = R.TRG_DT_LO then s.dt / 4294967296 % 4294967296 != v / 4294967296
  else if a = R.FC_LIVE_LO then s.pairValue p a != v
  else alGet (fun _ => 0) s.pairVer a != ver

/-- The key of a port's shadow of the pair at `a`. -/
def shadowKey (p : Port) (a : Nat) : Nat := a + portNo p

/-- A read of the _LO word of a pair: the low word, and the latch. -/
def State.readLo (s : State) (p : Port) (a : Nat) : Word × State :=
  let v := s.pairValue p a
  (BitVec.ofNat 32 v,
   { s with pairRead := alSet (fun _ => none) s.pairRead (shadowKey p a) (some (v, alGet (fun _ => 0) s.pairVer a)) })

/-- A read of the _HI word of the pair at `a`: the latched high word, 0 before the first latch. -/
def State.readHi (s : State) (p : Port) (a : Nat) (ovw : Option Fld) : Word × State :=
  match alGet (fun _ => none) s.pairRead (shadowKey p a) with
  | none => (0, s)
  | some (v, ver) =>
    let s := match ovw with
      | some f => if s.pairReplaced p a v ver then s.put f 1 else s
      | none => s
    (BitVec.ofNat 32 (v / 4294967296), s)

/-- What the SECDED check of a word finds, by a number below 3. -/
def wordCheckOf (k : Nat) : WordCheck := if k = 0 then .ok else if k = 1 then .single else .uncorrectable

/-- A register read through the NVM window: what the SECDED check finds is free (R430; log entry 191). -/
def State.readWindow (s : State) (a : Nat) : Word × State :=
  let (k, s) := s.freshUpTo 2
  let (s, w) := s.nvWindow (s.windowAddr (a - 0x38000)) (wordCheckOf k)
  (w, s)

/-- A read of one DW: 0 with no byte enable, all ones where REF is stopped (R447, R448, R452). A trigger whose instant has passed
has had its effect on what the TRG window shows (R126). -/
def State.readReg (s : State) (p : Port) (addr be : Nat) : Word × State :=
  let a := canonAddr (addr / 4 * 4)
  if be = 0 then (0, s)
  else if !s.access a then (0xFFFFFFFF, s)
  else if 0x38000 ≤ a ∧ a < 0x40000 then s.readWindow a
  else
    let s := if 0x40000 ≤ a ∧ a < 0x50000 then s.trigsDue s.dt else s
    match pairAt a with
    | some _ => s.readLo p a
    | none => match (if 4 ≤ a then pairAt (a - 4) else none) with
      | some ovw => s.readHi p (a - 4) ovw
      | none => (s.busWord p a, s)

/-- The address is that of the _HI word of a pair. -/
def isHi (a : Nat) : Bool := 4 ≤ a && (pairAt (a - 4)).isSome

/-- A read of one DW through a port: what it returns stands in `lastRead`. PAIR_HI_READ reads the _HI word of a pair, PAIR_LO_READ
any other register, of which the _LO word of a pair is latched (R448, R451; log entry 192). -/
def pairRead (p : Port) (addr be : Nat) (hi : Bool) (s : State) : State :=
  s.whenever (s.up && isHi (canonAddr (addr / 4 * 4)) == hi) fun s =>
    let (w, s) := s.readReg p addr be
    { s with lastRead := (p, w) }

/-! ### Writes -/

/-- The bits of the enabled bytes. -/
def byteMask (be : Nat) : Word :=
  BitVec.ofNat 32 ((List.range 4).foldl (fun m i => if bit be i then m + 255 * 256 ^ i else m) 0)

/-- The written word as the register sees it (R448): an RW field keeps its value in a byte not enabled, any other bit of
such a byte acts as 0. -/
def State.written (s : State) (a be : Nat) (v : Word) : Word :=
  let m := byteMask be
  let keep : Word := match regDesc a with | some d => d.writable | none => if (vfOf a).isSome then 0xFFFFFFFF else 0
  (v &&& m) ||| (s.reg a &&& keep &&& ~~~m)

/-- RW fields take the word, W1C fields clear where it has a 1 (Table 0-3). -/
def State.plain (s : State) (a : Nat) (w : Word) : State :=
  match regDesc a with
  | none => s
  | some d => s.setReg a (((s.reg a &&& ~~~d.writable) ||| (w &&& d.writable)) &&& ~~~(w &&& d.w1c))

/-- A plain write whose bits in `no` act as 0. -/
def State.plainBut (s : State) (a : Nat) (w : Word) (no : Nat) : State := s.plain a (w &&& ~~~(BitVec.ofNat 32 no))

/-- Do `f` where bit `i` of the word is set. -/
def State.onBit (s : State) (w : Word) (i : Nat) (f : State → State) : State := if w.getLsbD i then f s else s

/-- A refused write sets its flag. -/
def State.refuse (s : State) (f : Fld) : State := s.put f 1

/-- SYS_MODECMD (R404). -/
def State.writeModeCmd (s : State) (w : Word) (t : Nat) : State :=
  let n := (List.range 6).countP fun i => w.getLsbD i
  if n = 0 then s
  else if 1 < n then s.cmdRes 5
  else if w.getLsbD 0 then modeDormant s
  else if w.getLsbD 1 then modeSetup t s
  else if w.getLsbD 2 then modeRun s
  else if w.getLsbD 3 then modeThrottle s
  else if w.getLsbD 4 then modeUnthrottle s
  else modeSafe t s

/-- SYS_MSPCTRL.CLRCNT (R461). -/
def mspClrcnt (s : State) : State := s.whenever (s.access R.SYS_MSPCTRL) fun s => s.setReg R.SYS_MSPCNT 0

/-- The SYS window. -/
def State.writeSys (s : State) (a : Nat) (w : Word) (t : Nat) : State :=
  if a = R.SYS_MODECMD then s.writeModeCmd w t
  else if a = R.SYS_SAFECAUSE then safeCauseClear w s
  else if a = R.SYS_STREAM then sysStreamWrite w s
  else if a = R.SYS_PWRSTAT then s.plainBut a w (s.power.failing.foldl (fun m k => setBit m (16 + k) true) 0)
  else if a = R.SYS_MSPCTRL then s.onBit w 0 mspClrcnt
  else if a = R.SYS_PLAN_CMD then
    if w.getLsbD 1 then planReplan w s
    else if w.getLsbD 0 then Machine.planEval w s
    else s.plain a w
  else if a = R.SYS_PLAN_LIMIT then planLimitWrite w s
  else s.plain a w

/-- The FC window. -/
def State.writeFc (s : State) (a : Nat) (w : Word) : State :=
  if a = R.FC_FSW_LO then faultClear false w s
  else if a = R.FC_FSW_HI then faultClear true w s
  else if a = R.FC_ACK_LO then faultAck false w s
  else if a = R.FC_ACK_HI then faultAck true w s
  else if a = R.FC_FORCE_LO then faultForce false w s
  else if a = R.FC_FORCE_HI then faultForce true w s
  else if a = R.FC_RESTORE_LO then unitRestore false w s
  else if a = R.FC_RESTORE_HI then unitRestore true w s
  else if a = R.FC_CTRL then
    if fieldOf F.FC_CTRL_FCLASS w = 3 then s.refuse F.FC_STAT_VALUE_REJ
    else ((s.plain a w).onBit w 3 fcClrcnt).onBit w 2 fcClrfirst
  else s.plain a w

/-- The HK and TH windows. -/
def State.writeHk (s : State) (a : Nat) (w : Word) (t : Nat) : State :=
  if a = R.HK_CFG then hkCfgWrite w t s
  else if a = R.HK_TRIG then (if 3 < fieldOf F.HK_TRIG_SRC w then s.refuse F.HK_STAT_VALUE_REJ else s.plain a w)
  else if a = R.HK_INJ then hkInj w s
  else if a = R.TH_CFG then thCfgWrite w s
  else if a = R.TH_MASK then thMaskWrite w s
  else if a = R.TH_SFAIL then s.plainBut a w (s.hk.failed.foldl (fun m k => setBit m k true) 0)
  else match regIndex 8 a R.TH_HPOL with
    | some h => s.directWrite h a w
    | none => s.plain a w

/-- The NV window (R430, R431). -/
def State.writeNv (s : State) (a : Nat) (w : Word) : State :=
  let busy := s.flag F.NV_STAT_BUSY
  if a = R.NV_CTRL then s.onBit w 0 nvClrcnt
  else if a = R.NV_CMD then (if busy then s.refuse F.NV_STAT_CMDREJ else s.onBit w 0 nvWrite)
  else if a = R.NV_STAT ∨ a = R.NV_WIN then s.plain a w
  else if busy ∧ (regDesc a).any (fun d => d.writable != 0) then s.refuse F.NV_STAT_CMDREJ
  else if a = R.NV_WLEN ∧ !within (w.toNat % 512) 1 256 then s.refuse F.NV_STAT_VALUE_REJ
  else s.plain a w

/-- The TRG window. A stuck flag clears only once its pin has deasserted (Table 4-11). -/
def State.writeTrg (s : State) (a : Nat) (w : Word) (t : Nat) : State :=
  let s := s.trigsDue t
  if a = R.TRG_CTRL then
    let on := s.flag F.TRG_CTRL_EN
    let s := (s.put F.TRG_CTRL_DISC (fieldOf F.TRG_CTRL_DISC w)).onBit w 2 trgClrcnt
    if w.getLsbD 0 then ringEnable s
    else if on then ringDisable t s
    else s
  else if a = R.TRG_MSGCMD then ((s.plain a w).onBit w 16 msgSend).onBit w 17 msgPop
  else match regIndex 4 a R.TRG_TRIGSTAT with
    | some n => s.plainBut a w (if s.flag (F.TRG_TRIGSTAT_LIVE n) then 1 else 0)
    | none => s.plain a w

/-- The HP window of head `h`. -/
def State.writeHp (s : State) (h a : Nat) (w : Word) : State :=
  if a = R.HP_CTRL h then (hpCtrlWrite h w s).txnAfter s h
  else if a = R.HP_CMD h then
    let s := ((s.onBit w 0 (profileValidate h)).onBit w 2 (resume h)).onBit w 3 (hsupRetry h)
    if w.getLsbD 4 && w.getLsbD 5 then s
    else (s.onBit w 4 (shutCommand h true)).onBit w 5 (shutCommand h false)
  else if a = R.HP_FLT h then s.plainBut a w (s.fltPresent h)
  else if a = R.HP_BIAS h then hpBiasWrite h w s
  else if a = R.HCP_CTRL h then s.setReg a (hcpCtrlWord h w)
  else if a = R.HCP_CMD h then
    if w.getLsbD 1 then (hcpAbort h s).txnAfter s h else s.onBit w 0 (hcpGo h)
  else if a = R.HP_FRM_CFG h ∨ a = R.HP_FPER h then s.directWrite h a w
  else if a = R.HP_TSTAT h then (s.plainBut a w (s.get (F.HP_TSTAT_LIVE h))).onBit w 31 (hpTstatClrcnt h)
  else if a = R.HCP_LEN h ∨ (R.HCP_TXBUF h 0 ≤ a ∧ a < R.HCP_TXBUF h 2048) then
    if (s.head h).hcp.isSome then s else s.plain a w
  else if R.HP_PROF h 0 ≤ a ∧ a < R.HP_PROF h 1024 then
    if s.streams h || s.flag (F.HP_STAT_PVBUSY h) then s else s.plain a w
  else s.plain a w

/-- The TC window of head `h`. -/
def State.writeTc (s : State) (h a : Nat) (w : Word) : State :=
  let r := regionOf h
  if a = R.TC_CFG h then tcCfgWrite h w s
  else if a = R.TC_GAIN0 h then tcGainWrite h 0 w s
  else if a = R.TC_GAIN1 h then tcGainWrite h 1 w s
  else if a = R.TC_CMD r then s.onBit w 0 (selfcal r)
  else if a = R.TC_SCLK r then tcSclkWrite r w s
  else if a = R.TC_REFCFG r then tcRefcfgWrite r w s
  else s.plain a w

/-- The CL window: region `r`, head `h` of the head registers. -/
def State.writeCl (s : State) (r h a : Nat) (w : Word) : State :=
  if a = R.CL_CTRL r then s.onBit w 0 (clClrcnt r)
  else if a % 0x10000 < 0x100 then s.plain a w
  else if a = R.CL_HCMD h then ((s.onBit w 0 (lswap h)).onBit w 1 (rswap h)).onBit w 2 (msync h false)
  else if a = R.CL_HMIR h then clHmirWrite h w s
  else if (stageClass a).isSome then s.directWrite h a w
  else s.plain a w

/-- The CX window. Commands of one CX_SCMD write apply in bit order (log entry 73). -/
def State.writeCx (s : State) (r h a : Nat) (w : Word) : State :=
  if a = R.CX_CTRL r then (s.plain a w).onBit w 0 (cxClrcnt r)
  else if a % 0x10000 < 0x100 then s.plain a w
  else if a = R.CX_SCMD h then
    (((s.onBit w 0 (shreq h)).onBit w 1 (shutterCancel h)).onBit w 3 (refit h)).onBit w 4 (breset h)
  else if a = R.CX_SQLEN h then quietWindowArm h w s
  else if (stageClass a).isSome then s.directWrite h a w
  else s.plain a w

/-- The bank of a curve, palette or coefficient table at offset `t` of a head's tables, and the bank in force (R281). -/
def State.tableBanks (s : State) (h t : Nat) : Nat × Nat :=
  if t < 0x4000 then (t / 0x2000, s.get (F.FP_HTONE_CBANK h))
  else if t < 0x6000 then ((t - 0x4000) / 0x1000, s.get (F.FP_HPIPE_PBANK h))
  else ((t - 0x6000) / 0x600, s.get (F.FP_HPIPE_SBANK h))

/-- The FP window. -/
def State.writeFp (s : State) (r a : Nat) (w : Word) : State :=
  let o := a % 0x10000
  if a = R.FP_CTRL r then
    (if s.mode = .setup && r < 2 then s.plain a w else s).onBit w 0 (fpClrcnt r)
  else if 0x1000 ≤ o then
    let h := 2 * r + (if o < 0x8000 then 0 else 1)
    let (b, used) := s.tableBanks h (if o < 0x8000 then o - 0x1000 else o - 0x8000)
    if (regDesc a).isSome && b == used && s.streams h then s.refuse (F.FP_HSTAT_PROT_WR h) else s.plain a w
  else
    let h := if o < 0x800 then 2 * r + (o - 0x100) / 0x80 else 2 * r + (o - 0x800) / 0x40
    if a = R.FP_RCMD h then (s.onBit w 0 (fpSwap h)).onBit w 1 (msync h true)
    else if (stageClass a).isSome then s.directWrite h a w
    else s.plain a w

/-- The ST window. -/
def State.writeSt (s : State) (a : Nat) (w : Word) : State :=
  if a = R.ST_CTRL then s.onBit w 0 stClrcnt
  else match stageClass a with
    | some (_, some h) => s.directWrite h a w
    | _ => s.plain a w

/-- The TX window of port `p`. -/
def State.writeTx (s : State) (p a : Nat) (w : Word) : State :=
  if a = R.TX_CFG p then txCfgWrite p w s
  else if a = R.TX_RATE p then txRateWrite p w s
  else if a = R.TX_GAP p then txGapWrite p w s
  else match regIndex 8 a (R.TX_S p) with
    | some j => txStreamWrite p j w s
    | none => s.plain a w

/-- A write of an MSI-X table word of a function: unmasking a vector whose bit is pending sends its message. -/
def State.writeMsix (s : State) (f v a : Nat) (w : Word) : State :=
  let s := s.setReg a w
  let pba := msixPba f v
  if s.hostUp f && bit (s.reg pba).toNat (v % 32) && (s.reg (msixWord f v 3)).toNat % 2 == 0 then
    (s.setReg pba (BitVec.ofNat 32 (setBit (s.reg pba).toNat (v % 32) false))).msixSend f v
  else s

/-- The Q window (R346). -/
def State.writeQ (s : State) (a : Nat) (w : Word) : State :=
  if a = R.Q_CTXBASE then
    if s.mode != .setup || s.rings.any (fun e => e.2.ctx.en) then s.refuse F.Q_STAT_DIRECT_REFUSED else s.plain a w
  else if a = R.Q_RPBASE then (if s.mode != .setup then s.refuse F.Q_STAT_DIRECT_REFUSED else s.plain a w)
  else if a = R.Q_B4WIN then (if 24 < w.toNat % 32 then s.refuse F.Q_STAT_VALUE_REJ else s.plain a w)
  else if a = R.Q_CTXCMD then
    if w.getLsbD 0 && w.getLsbD 1 then s.refuse F.Q_STAT_VALUE_REJ
    else (s.onBit w 0 ctxRead).onBit w 1 ctxWrite
  else if R.Q_FRANGE 0 ≤ a ∧ a ≤ R.Q_FRANGE 31 then qFrangeWrite ((a - R.Q_FRANGE 0) / 4) w s
  else if a = R.Q_FPERM 0 then s
  else if R.Q_MSIXTAB 0 0 ≤ a ∧ a < R.Q_MSIXTAB 1056 0 then s.writeMsix 0 ((a - R.Q_MSIXTAB 0 0) / 16) a w
  else s.plain a w

/-- The DMA window. Commands of one write apply in bit order (log entry 73). -/
def State.writeDma (s : State) (a : Nat) (w : Word) : State :=
  if a = R.DMA_CMD then (s.onBit w 0 dmaRestart).onBit w 1 dmaClrcnt
  else if a < R.DMA_CH_CFG 0 then s.plain a w
  else
    let c := (a - R.DMA_CH_CFG 0) / 0x40
    if a = R.DMA_CH_CFG c then dmaChCfgWrite c w s
    else if a = R.DMA_CH_CMD c then ((s.onBit w 0 (dmaChStop c)).onBit w 1 (dmaChResume c)).onBit w 2 (dmaChStart c)
    else if a = R.DMA_CH_TAIL c then dmaChTailWrite c w s
    else s.plain a w

/-- The EN window: a block register, or a chip register (R248, R250). -/
def State.writeEn (s : State) (a : Nat) (w : Word) : State :=
  let b := (a - 0x800000) / 0x10000
  if a = R.EN_BCMD b then
    let s := s.onBit w 7 (enClrcnt b)
    if w.toNat % 128 = 0 then s else unretire b (w.toNat % 128) s
  else if a = R.EN_SHCFG b then shCfgWrite b w s
  else if a = R.EN_MCMD then
    let s := if w.getLsbD 16 then Machine.mcLoad w s else s.plain a w
    (s.onBit w 17 mcInstall).onBit w 18 mcSetmin
  else if a = R.EN_MCBASE ∨ a = R.EN_RBASE then (if s.mode = .safe then s else s.plain a w)
  else if a = R.EN_RCMD then (if w.getLsbD 4 then Machine.recipeLoad (w.toNat % 8) s else s.plain a w)
  else match regIndex 8 a R.EN_HRCP with
    | some h => s.directWrite h a w
    | none => s.plain a w

/-- DR_CTRL.CLRCNT (R462). -/
def drClrcnt (s : State) : State :=
  s.whenever (s.access R.DR_CTRL) fun s => s.forEach 16 (fun _ => true) fun c s => s.setReg (R.DR_ECC c) 0

/-- The MON window (R299). -/
def State.writeMon (s : State) (a : Nat) (w : Word) (t : Nat) : State :=
  if a = R.MON_SNAP then (if w = 0 then s else monSnap w t s)
  else if a = R.MON_CLR then monClr w s
  else if a = R.MON_PER then monPerWrite w t s
  else if a < R.MON_CFG 0 then s.plain a w
  else
    let n := (a - R.MON_CFG 0) / 0x400
    if a = R.MON_CFG n then monCfgWrite n false w s
    else if a = R.MON_BLO n then monCfgWrite n true w s
    else s.plain a w

/-- The TXN window: not written in SAFE (R315); a write of more than one command is ignored with CMDREJ. -/
def State.writeTxn (s : State) (p : Port) (a : Nat) (w : Word) (t : Nat) : State :=
  if !s.txnAccess then s
  else if a = R.TXN_CMD then
    if 1 < (List.range 3).countP fun i => w.getLsbD i then s.cmdRej
    else
      let s := s.plain a w
      let k := s.get F.TXN_CMD_HANDLE
      ((s.onBit w 0 (txnOpen p)).onBit w 1 (txnCommit k t)).onBit w 2 (txnRollback k)
  else if a = R.TXN_SVAL then txnStage w s
  else s.plain a w

/-- The MC window (R400). -/
def State.writeMc (s : State) (a : Nat) (w : Word) : State :=
  if a = R.MC_CTRL then s.onBit w 0 mcClrcnt
  else if a = R.MC_CFG ∨ a = R.MC_SCRUB then
    if s.mode != .setup then s.refuse F.MC_STAT_DIRECT_REFUSED
    else if a = R.MC_SCRUB ∧ (fieldOf F.MC_SCRUB_SPER w = 0 ∨ fieldOf F.MC_SCRUB_DPER w = 0) then s.refuse F.MC_STAT_VALUE_REJ
    else s.plain a w
  else s.plain a w

/-- The _LO word of a writable pair is held in the port's write shadow; the write of _HI applies both words (R451). -/
def State.writePair (s : State) (p : Port) (a : Nat) (hi : Bool) (w : Word) : State :=
  if hi then
    let k := shadowKey p (a - 4)
    let s := match alGet (fun _ => none) s.pairHold k with
      | some v => s.plain (a - 4) (BitVec.ofNat 32 v)
      | none => s
    { s.plain a w with pairHold := alSet (fun _ => none) s.pairHold k none }
  else { s with pairHold := alSet (fun _ => none) s.pairHold (shadowKey p a) (some w.toNat) }

/-- A writable pair: CX_TAISW, CX_SQST, DMA_CH_BASE (R451). -/
def writablePair (a : Nat) : Bool := (pairAt a).isSome && (regDesc a).any fun d => d.writable != 0

/-- A write reaches the register at canonical address `a` with the word `w`. -/
def State.writeAt (s : State) (p : Port) (a : Nat) (w : Word) (t : Nat) : State :=
  let i := a / 0x10000 % 16
  let h := 2 * (i % 4) + (a % 0x10000 - 0x100) / 0x80
  if writablePair a then s.writePair p a false w
  else if 4 ≤ a && writablePair (a - 4) then s.writePair p a true w
  else if a < 0x10000 then s.writeSys a w t
  else if a < 0x20000 then s.writeFc a w
  else if a < 0x30000 then s.writeHk a w t
  else if a < 0x40000 then s.writeNv a w
  else if a < 0x100000 then s.writeTrg a w t
  else if a < 0x200000 then s.writeHp (i % 8) a w
  else if a < 0x300000 then s.writeTc (i % 8) a w
  else if a < 0x340000 then s.writeCl (i % 4) h a w
  else if a < 0x400000 then s.writeCx (i % 4) h a w
  else if a < 0x480000 then s.writeFp (i % 4) a w
  else if a < 0x500000 then s.writeSt a w
  else if a < 0x600000 then s.writeTx (i % 4) a w
  else if a < 0x700000 then s.writeQ a w
  else if a < 0x800000 then s.writeDma a w
  else if a < 0x900000 then s.writeEn a w
  else if a < 0xA00000 then (if a = R.DR_CTRL then s.onBit w 0 drClrcnt else s.plain a w)
  else if a < 0xB00000 then s.writeMon a w t
  else if a < 0xC00000 then s.writeTxn p a w t
  else if a < 0xD00000 then
    if R.GP_SET 0 ≤ a ∧ a ≤ R.GP_SET 1 then gpSetWrite ((a - R.GP_SET 0) / 4) w s
    else if R.GP_CLR 0 ≤ a ∧ a ≤ R.GP_CLR 1 then gpClrWrite ((a - R.GP_CLR 0) / 4) w s
    else s.plain a w
  else if a < 0xE00000 then s.writeMc a w
  else match vfOf a with
    | some (f, o) => if o < 0x200 ∧ f ≠ 0 ∧ p = .pcie then s.writeMsix f (o / 16) a w else s
    | none => s

/-- A write of one DW through a port at DT `t` (R447, R448, R452). -/
def State.writeReg (s : State) (p : Port) (addr be : Nat) (v : Word) (t : Nat) : State :=
  let a := canonAddr (addr / 4 * 4)
  if !s.access a || be % 16 = 0 then s
  else
    let s := s.at t
    match (if be % 2 = 0 then regIndex 16 a R.EN_SHCFG else none) with
    | some b => s.shCount b (s.written a be v)
    | none => s.writeAt p a (s.written a be v) t

/-- A write of a word of a writable pair. -/
def pairWrite (p : Port) (addr be : Nat) (hi : Bool) (v : Word) (s : State) : State :=
  let a := canonAddr (addr / 4 * 4)
  s.whenever (writablePair (if hi then a - 4 else a)) fun s => s.writeReg p addr be v s.dt

/-! ### Meanings -/

/-- `PAIR_LO_READ`. -/
def execPairLoRead (p : Port) (addr : Nat) (be : Fin 16) (s : State) : Result := .next (pairRead p addr be false s)
/-- `PAIR_HI_READ`. -/
def execPairHiRead (p : Port) (addr : Nat) (be : Fin 16) (s : State) : Result := .next (pairRead p addr be true s)
/-- `PAIR_LO_WRITE`. -/
def execPairLoWrite (p : Port) (addr : Nat) (be : Fin 16) (v : Word) (s : State) : Result :=
  .next (pairWrite p addr be false v s)
/-- `PAIR_HI_WRITE`. -/
def execPairHiWrite (p : Port) (addr : Nat) (be : Fin 16) (v : Word) (s : State) : Result :=
  .next (pairWrite p addr be true v s)
/-- `REGISTER_WRITE`. -/
def execRegisterWrite (p : Port) (addr : Nat) (be : Fin 16) (v : Word) (t : Nat) (s : State) : Result :=
  .next (s.writeReg p addr be v t)
/-- `MSP_CLRCNT`. -/
def execMspClrcnt (s : State) : Result := .next (mspClrcnt s)
/-- `DR_CLRCNT`. -/
def execDrClrcnt (s : State) : Result := .next (drClrcnt s)

end Sys2Proof.Machine
end

