-- ==== Sys2Proof/Machine/Msp.lean ====
section
/-! DEFINITION. The management serial port (R454 to R461): status bytes, write frames, read frames and their fetches. A frame
command carries the bits shifted in after its command byte, most significant first. -/

namespace Sys2Proof.Machine

/-- The number of a list of bits, most significant first (R454). -/
def msbNat (bs : List Bool) : Nat := bs.foldl (fun n b => 2 * n + b.toNat) 0

/-- The unit windows of Table 18-1: start, end, stride of the instances. -/
def unitWindows : List (Nat × Nat × Nat) :=
  [(0x0, 0x10000, 0x10000), (0x10000, 0x20000, 0x10000), (0x20000, 0x30000, 0x10000), (0x30000, 0x40000, 0x10000),
   (0x40000, 0x50000, 0x10000), (0x100000, 0x180000, 0x10000), (0x200000, 0x280000, 0x10000),
   (0x300000, 0x340000, 0x10000), (0x340000, 0x380000, 0x10000), (0x400000, 0x440000, 0x10000),
   (0x480000, 0x500000, 0x80000), (0x500000, 0x540000, 0x10000), (0x600000, 0x700000, 0x100000),
   (0x700000, 0x800000, 0x100000), (0x800000, 0x900000, 0x10000), (0x900000, 0xA00000, 0x100000),
   (0xA00000, 0xB00000, 0x100000), (0xB00000, 0xC00000, 0x100000), (0xC00000, 0xD00000, 0x100000),
   (0xD00000, 0xE00000, 0x100000)]

/-- The end of the unit window of byte address `a`; outside every window, of the whole reserved range (R458). -/
def windowEnd (a : Nat) : Nat :=
  match unitWindows.find? fun w => w.1 ≤ a && a < w.2.1 with
  | some (b, _, n) => b + ((a - b) / n + 1) * n
  | none => match unitWindows.find? fun w => a < w.1 with
    | some (b, _, _) => b
    | none => 0x4000000

/-- Word `i` of a frame at word address `a` lies beyond the end of the frame's unit window. -/
def pastWindow (a i : Nat) : Bool := windowEnd (4 * a) ≤ 4 * (a + i)

/-- The CRC-8 of a unit: the 24-bit word address and 32 data bits, most significant first (R459). -/
def unitCrc (a : Nat) (w : Word) : Nat :=
  crcMsb 8 0x07 0 (((leBytes 3 a).reverse ++ (leBytes 4 w.toNat).reverse))

/-- A status byte (Table 18-4). -/
def State.mspByte (s : State) (ready past crc : Bool) : Nat :=
  let fault := (List.range 64).any fun n => 2 ≤ s.get (F.FC_SRC_CLASS n)
  128 * ready.toNat + 64 * past.toNat + 32 * crc.toNat + 4 * s.mode.code + 2 * fault.toNat

/-- The status byte of a command byte: every write of an earlier frame has taken effect (R455). -/
def State.mspStatusByte (s : State) : Nat := s.mspByte true s.msp.pastEnd s.msp.crcErr

/-- A wait byte of the read frame in progress: READY once its first data word has been fetched (R457). -/
def State.mspWaitByte (s : State) : Nat := s.mspByte (!s.msp.words.isEmpty) false false

/-- Change the port's unit. -/
def State.modMsp (s : State) (f : MspUnit → MspUnit) : State := { s with msp := f s.msp }

/-- A frame ends: counted, its last word's address kept, its crossing of the window end latched for the next status byte. -/
def State.mspEnd (s : State) (a words : Nat) : State :=
  let past := words != 0 && pastWindow a (words - 1)
  let s := (s.bump F.SYS_MSPCNT_FRAMES).put F.SYS_MSPSTAT_ACTIVE 0
  let s := if words = 0 then s else s.put F.SYS_MSPSTAT_LASTADDR (a + words - 1)
  let s := if past then s.put F.SYS_MSPSTAT_PAST_END 1 else s
  s.modMsp fun m => { m with read := none, pastEnd := past }

/-- The next word of the read frame is fetched, with its latch effect; beyond the window end it is 0 (R457, R458). The frame
ends once the word after the last one shifted out has been fetched. -/
def State.mspFetch (s : State) : State :=
  match s.msp.read with
  | none => s
  | some r =>
    let a := r.addr + r.next
    let (w, s) := if pastWindow r.addr r.next then (0, s) else s.readReg .msp (4 * a) 15
    let s := s.modMsp fun m => { m with
      words := m.words ++ [w], crcs := if r.crc then m.crcs ++ [unitCrc (a % 16777216) w] else m.crcs,
      read := some { r with next := r.next + 1 } }
    let s : State := { s with lastRead := (.msp, w) }
    if r.words ≤ r.next then s.mspEnd r.addr r.words else s

/-- Fetches of a read frame that are still to come have completed before the next frame begins. -/
def State.mspFetches (s : State) : Nat → State
  | 0 => s
  | n + 1 => if s.msp.read.isSome then s.mspFetch.mspFetches n else s

/-- A frame begins: its command byte shifts the status byte out, which shows each flag of the frame before once (R455). -/
def State.mspBegin (s : State) : State :=
  let s := match s.msp.read with
    | some r => s.mspFetches (r.words + 1 - r.next)
    | none => s
  let b := s.mspStatusByte
  s.modMsp fun m => { m with status := b, pastEnd := false, crcErr := false }

/-- A frame is discarded or ignored. -/
def State.mspDiscard (s : State) : State := s.bump F.SYS_MSPCNT_DISCARD

/-- A frame ends within its address. -/
def State.mspShort (s : State) : State := ((s.put F.SYS_MSPSTAT_PARTIAL 1).mspDiscard).mspEnd 0 0

/-- `n` units of `k` bits. -/
def mspUnits (k : Nat) : Nat → List Bool → List (List Bool)
  | 0, _ => []
  | n + 1, bs => bs.take k :: mspUnits k n (bs.drop k)

/-- A write frame: its words take effect in order, or it is discarded whole (R456, R458, R459). -/
def State.mspWriteFrame (s : State) (crc : Bool) (bits : List Bool) (t : Nat) : State :=
  let s := (s.at t).mspBegin
  if bits.length < 24 then s.mspShort
  else
    let a := msbNat (bits.take 24)
    let k := if crc then 40 else 32
    let body := bits.drop 24
    let n := body.length / k
    let ws := (mspUnits k n body).map fun u => (BitVec.ofNat 32 (msbNat (u.take 32)), msbNat (u.drop 32))
    let cut := body.length % k != 0
    let past := 256 < n
    let bad := crc && (ws.zip (List.range n)).any fun x => x.1.2 != unitCrc ((a + x.2) % 16777216) x.1.1
    let drop := cut || past || bad
    let s := if drop then s
      else (ws.zip (List.range n)).foldl (fun s x => if pastWindow a x.2 then s else s.writeReg .msp (4 * (a + x.2)) 15 x.1.1 t) s
    let s := if cut then s.put F.SYS_MSPSTAT_PARTIAL 1 else s
    let s := if past then s.put F.SYS_MSPSTAT_OVFL 1 else s
    let s := if bad then
        (((s.put F.SYS_MSPSTAT_CRC_ERR 1).bump F.SYS_MSPCNT_CRCERR).raise 51 .ce (detailWord 0xFF 30 0x300)).modMsp
          fun m => { m with crcErr := true }
      else s
    (if drop then s.mspDiscard else s).mspEnd a n

/-- A read frame with the data words it shifts out: the fetch of its first word begins (R457). -/
def State.mspReadFrame (s : State) (crc : Bool) (bits : List Bool) (words : Nat) : State :=
  let s := s.mspBegin
  if bits.length < 24 then s.mspShort
  else
    (s.put F.SYS_MSPSTAT_ACTIVE 1).modMsp fun m => { m with
      read := some { addr := msbNat (bits.take 24), words := words, crc := crc }, words := [], crcs := [] }

/-! ### Rows -/

/-- A STATUS frame (R455). -/
def mspStatus (s : State) : State := s.whenever s.up fun s => s.mspBegin.mspEnd 0 0

/-- A WRITE or WRITE_CRC frame. -/
def mspWrite (crc : Bool) (bits : List Bool) (t : Nat) (s : State) : State :=
  s.whenever s.up fun s => s.mspWriteFrame crc bits t

/-- A READ or READ_CRC frame. -/
def mspRead (crc : Bool) (bits : List Bool) (words : Nat) (s : State) : State :=
  s.whenever s.up fun s => s.mspReadFrame crc bits words

/-- A fetch of the read frame in progress completes. -/
def mspReadFetch (s : State) : State := s.whenever s.up State.mspFetch

/-- The command bytes of Table 18-3. -/
def mspCodes : List Nat := [0x00, 0x02, 0x03, 0x12, 0x13]

/-- A frame cut within its command byte is ignored without a flag; an unknown command byte sets BADCMD (R454). -/
def mspBadFrame (cmd : List Bool) (s : State) : State :=
  s.whenever (s.up && (cmd.length < 8 || !mspCodes.contains (msbNat (cmd.take 8)))) fun s =>
    let s := s.mspBegin
    let s := if cmd.length < 8 then s else s.put F.SYS_MSPSTAT_BADCMD 1
    s.mspDiscard.mspEnd 0 0

/-- The command that a whole frame is: the bits shifted in between the edges of MSP_CS_N, the data words shifted out of a read
frame, the DT of the rising edge (R454, Table 18-3). -/
def mspFrame (bits : List Bool) (words t : Nat) : Instr :=
  let code := msbNat (bits.take 8)
  let rest := bits.drop 8
  if bits.length < 8 then .mspBadFrame bits
  else if code = 0x00 then .mspStatus
  else if code = 0x02 then .mspWrite rest t
  else if code = 0x03 then .mspRead rest words
  else if code = 0x12 then .mspWriteCrc rest t
  else if code = 0x13 then .mspReadCrc rest words
  else .mspBadFrame bits

/-! ### Meanings -/

/-- `MSP_STATUS`. -/
def execMspStatus (s : State) : Result := .next (mspStatus s)
/-- `MSP_WRITE`. -/
def execMspWrite (bits : List Bool) (t : Nat) (s : State) : Result := .next (mspWrite false bits t s)
/-- `MSP_READ`. -/
def execMspRead (bits : List Bool) (words : Nat) (s : State) : Result := .next (mspRead false bits words s)
/-- `MSP_WRITE_CRC`. -/
def execMspWriteCrc (bits : List Bool) (t : Nat) (s : State) : Result := .next (mspWrite true bits t s)
/-- `MSP_READ_CRC`. -/
def execMspReadCrc (bits : List Bool) (words : Nat) (s : State) : Result := .next (mspRead true bits words s)
/-- `MSP_READ_FETCH`. -/
def execMspReadFetch (s : State) : Result := .next (mspReadFetch s)
/-- `MSP_BAD_FRAME`. -/
def execMspBadFrame (cmd : List Bool) (s : State) : Result := .next (mspBadFrame cmd s)

end Sys2Proof.Machine
end

