-- ==== Sys2Proof/Machine/Spine.lean ====
section
/-! DEFINITION. The Spine (R19 to R21): retries, failed links and the C3 floor. -/

namespace Sys2Proof.Machine

/-- Consecutive failures of the flit at the head of a link. -/
def State.flitCount (s : State) (l : Link) : Nat :=
  match s.flitFails.find? fun e => e.1 == l with
  | some e => e.2
  | none => 0

/-- Note the failures of a link's flit; none are kept for a good one. -/
def State.setFlit (s : State) (l : Link) (n : Nat) : State :=
  let rest := s.flitFails.filter fun e => e.1 != l
  { s with flitFails := if n = 0 then rest else rest ++ [(l, n)] }

/-- The number of an uplink among the eight. -/
def uplinkNo (r i : Nat) : Nat := 2 * r + i

/-- The DETAIL word of a Spine report: the sub-unit is the uplink number, 0xFF for a crossbar link; no register shows the
condition (R390; log entry 74). -/
def linkDetail : Link → Nat
  | .uplink r i => detailWord (uplinkNo r i) 0xFF 0xFFFF
  | .chip _ => detailWord 0xFF 0xFF 0xFFFF

/-- The link has been declared failed. -/
def State.linkDown (s : State) (l : Link) : Bool :=
  match l with
  | .uplink r i => s.uplinkDown.contains (uplinkNo r i)
  | .chip src => s.chipDown.contains src.val

/-- A flit fails its CRC-16; `same` tells that the flit before it on this link was the same one. Each retry counts as a CE; the
sixteenth failure in a row gives no further retry (R19). -/
def spineFlitCrcFail (l : Link) (same : Bool) (s : State) : State :=
  s.whenever (s.up && !s.linkDown l && s.flitCount l < 16) fun s =>
    let n := if same then s.flitCount l + 1 else 1
    let s := s.setFlit l n
    if n < 16 then s.raise 46 .ce (linkDetail l) else s

/-- A flit has failed 16 consecutive times: the link is declared failed. A region keeps its other uplink, and a re-plan follows
the loss of capacity; without one its digital part is lost (R19, R39, R40). The unit behind a crossbar link reports under its
own source, in a class that is not stated (log entry 74). -/
def spineLinkFailed (l : Link) (s : State) : State :=
  s.whenever (s.up && s.flitCount l == 16) fun s =>
    let s := (s.setFlit l 0).raise 46 .uc (linkDetail l)
    match l with
    | .uplink r i =>
      let s : State := { s with uplinkDown := s.uplinkDown ++ [uplinkNo r i] }
      if s.uplinkDown.contains (uplinkNo r 0) && s.uplinkDown.contains (uplinkNo r 1) then s.digitalLost r else s.planAuto
    | .chip src =>
      let (c, s) := ({ s with chipDown := s.chipDown ++ [src.val] } : State).freshUpTo 2
      s.raise src (if c = 0 then .ce else if c = 1 then .uc else .fa) (detailWord 0xFF 0xFF 0xFFFF)

/-- The floor window of a link. -/
def State.floor (s : State) (l : Link) : FloorWindow :=
  match s.floors.find? fun e => e.1 == l with
  | some e => e.2
  | none => {}

/-- A floor window ends: slots still owed are dropped, and the next window owes 20 (R21). -/
def c3FloorWindowEnd (l : Link) (t : Nat) (s : State) : State :=
  s.whenever (s.up && (s.floor l).start + 1000 ≤ t) fun s =>
    { s.at t with floors := (s.floors.filter fun e => e.1 != l) ++ [(l, { start := t / 1000 * 1000 })] }

/-! ### Meanings -/

/-- `SPINE_FLIT_CRC_FAIL`. -/
def execSpineFlitCrcFail (l : Link) (same : Bool) (s : State) : Result := .next (spineFlitCrcFail l same s)
/-- `SPINE_LINK_FAILED`. -/
def execSpineLinkFailed (l : Link) (s : State) : Result := .next (spineLinkFailed l s)
/-- `C3_FLOOR_WINDOW_END`. -/
def execC3FloorWindowEnd (l : Link) (t : Nat) (s : State) : Result := .next (c3FloorWindowEnd l t s)

end Sys2Proof.Machine
end

