-- ==== Sys2Proof/Machine/BoundaryScan.lean ====
section
/-! DEFINITION. The test access port (R481, R482): its instructions, the safe state of the ports while the boundary cells drive
the pins, and the reset that follows such an instruction. -/

namespace Sys2Proof.Machine

/-- The identification register (R481). -/
def idcodeWord : Word := 0xC812874B#32

/-- The port runs: VDD_IO and VDD_AON are good (R481). -/
def State.tapRuns (s : State) : Bool := s.railOk 11 && s.railOk 12

/-- What the selected data register shifts out, least significant bit first: the identification value, the 0 that BYPASS captures
(as IEEE 1149.1 has it, log entry 75), or the boundary cells. -/
def State.tapOut (s : State) : List Bool :=
  match s.tap.dr with
  | .idcode => (List.range 32).map fun i => idcodeWord.getLsbD i
  | .bypass => [false]
  | .boundary => s.tap.cells

/-- The data register an instruction selects (R481; HIGHZ and CLAMP as IEEE 1149.1 has them, log entry 75). -/
def tapSelect (code : BitVec 8) : TapDr :=
  if code = 1 then .idcode
  else if [0, 2, 5, 6].contains code.toNat then .boundary
  else .bypass

/-- Every port is held safe: HSUP off, drives stopped, the DACs at 0 V (R482). -/
def State.portsSafe (s : State) : State :=
  s.forEach 8 (fun _ => true) fun h s =>
    (s.hsupOff h).modHead h fun u => { u with bridge := .idle, drive := none, driveWait := none }

/-- An instruction enters the instruction register. Leaving a boundary-driving one asks for the reset of R482. -/
def State.tapLoad (s : State) (code : BitVec 8) : State :=
  let leave := s.testMode && code != s.tap.ir
  let s : State := { s with tap := { s.tap with ir := code, dr := tapSelect code, leave := s.tap.leave || leave } }
  if s.testMode then s.portsSafe else s

/-- An instruction of Table 19-12. -/
def tapInstruction (code : BitVec 8) (s : State) : State := s.whenever s.tapRuns fun s => s.tapLoad code

/-- SAMPLE/PRELOAD: the cells are preloaded, no pin changes. -/
def tapPreload (cells : List Bool) (s : State) : State :=
  s.whenever s.tapRuns fun s =>
    let s := s.tapLoad 2
    { s with tap := { s.tap with cells := cells } }

/-- BYPASS: 0xFF and every code Table 19-12 does not list. -/
def tapBypass (code : BitVec 8) (s : State) : State :=
  s.whenever (6 < code.toNat) fun s => tapInstruction code s

/-- TRST_N low, or five TCK cycles with TMS high: IDCODE is selected. -/
def tapReset (s : State) : State := tapInstruction 1 s

/-- The reset that follows a boundary-driving instruction, as a RESET_N pulse gives it (R482). -/
def testModeExitReset (s : State) : State :=
  s.whenever s.tap.leave fun s => resetEntry .pin { s with tap := { s.tap with leave := false } }

/-! ### Meanings -/

/-- `EXTEST`. -/
def execTapExtest (s : State) : Result := .next (tapInstruction 0 s)
/-- `IDCODE`. -/
def execTapIdcode (s : State) : Result := .next (tapInstruction 1 s)
/-- `SAMPLE_PRELOAD`. -/
def execTapSamplePreload (cells : List Bool) (s : State) : Result := .next (tapPreload cells s)
/-- `HIGHZ`. -/
def execTapHighz (s : State) : Result := .next (tapInstruction 3 s)
/-- `CLAMP`. -/
def execTapClamp (s : State) : Result := .next (tapInstruction 4 s)
/-- `EXTEST_PULSE`. -/
def execTapExtestPulse (s : State) : Result := .next (tapInstruction 5 s)
/-- `EXTEST_TRAIN`. -/
def execTapExtestTrain (s : State) : Result := .next (tapInstruction 6 s)
/-- `BYPASS`. -/
def execTapBypass (code : BitVec 8) (s : State) : Result := .next (tapBypass code s)
/-- `TEST_MODE_EXIT_RESET`. -/
def execTestModeExitReset (s : State) : Result := .next (testModeExitReset s)
/-- `TAP_RESET`. -/
def execTapReset (s : State) : Result := .next (tapReset s)

end Sys2Proof.Machine
end

