-- ==== Sys2Proof/Machine/Arbiter.lean ====
section
/-! DEFINITION. How commands come to wait (R76, R448, R450, R460): what arrives in one cycle of the register arbiter joins the
queue in the order in which it takes effect. -/

namespace Sys2Proof.Machine

/-- What arrives: a PCIe memory request to BAR0 with the byte enables of each of its DWs, an access or a frame of the MSP, or an
event of the hardware. -/
inductive Arrival where
  | pcieWrite (addr : Nat) (dws : List (Fin 16 × Word)) (t : Nat)
  | pcieRead (addr : Nat) (dws : List (Fin 16))
  | access (p : Port) (c : Instr)
  | event (c : Instr)
  deriving DecidableEq, Repr

/-- The read of one DW. -/
def readOf (p : Port) (addr : Nat) (be : Fin 16) : Instr :=
  if isHi (canonAddr (addr / 4 * 4)) then .pairHiRead p addr be else .pairLoRead p addr be

/-- The writes of a request, in ascending address order (R448). -/
def pcieWrites (t : Nat) : Nat → List (Fin 16 × Word) → List Instr
  | _, [] => []
  | a, (be, v) :: l => .registerWrite .pcie a be v t :: pcieWrites t (a + 4) l

/-- The reads of a request, in ascending address order (R448). -/
def pcieReads : Nat → List (Fin 16) → List Instr
  | _, [] => []
  | a, be :: l => readOf .pcie a be :: pcieReads (a + 4) l

/-- The accesses of an arrival through a port: one unbroken sequence. -/
def Arrival.accesses (p : Port) : Arrival → List Instr
  | .pcieWrite a l t => if p = .pcie then pcieWrites t a l else []
  | .pcieRead a l => if p = .pcie then pcieReads a l else []
  | .access q c => if q = p then [c] else []
  | .event _ => []

/-- The event of an arrival. -/
def Arrival.events : Arrival → List Instr
  | .event c => [c]
  | _ => []

/-- The bits of a GP word that a command sets (`true`) or clears (`false`) through GP_SET or GP_CLR. -/
def gpBits (i : Nat) (set : Bool) : Instr → Word
  | .gpSetWrite j v => if set && j.val == i then v else 0
  | .gpClrWrite j v => if !set && j.val == i then v else 0
  | .registerWrite _ a be v _ =>
    if canonAddr (a / 4 * 4) = (if set then R.GP_SET i else R.GP_CLR i) then v &&& byteMask be else 0
  | _ => 0

/-- A GP_SET or GP_CLR without the bits that both of one cycle name: those stay as they are (R76). -/
def gpLess (keep : Nat → Word) : Instr → Instr
  | .gpSetWrite j v => .gpSetWrite j (v &&& ~~~keep j.val)
  | .gpClrWrite j v => .gpClrWrite j (v &&& ~~~keep j.val)
  | .registerWrite p a be v t =>
    let b := canonAddr (a / 4 * 4)
    let i := b / 4 % 2
    if b = R.GP_SET i ∨ b = R.GP_CLR i then .registerWrite p a be (v &&& ~~~keep i) t else .registerWrite p a be v t
  | c => c

/-- The bits of GP word `i` that some command of a list sets or clears. -/
def gpAll (i : Nat) (set : Bool) (l : List Instr) : Word := l.foldl (fun w c => w ||| gpBits i set c) 0

/-- The accesses of one cycle with what GP_SET and GP_CLR both name taken out. -/
def gpMeet (l : List Instr) : List Instr := l.map (gpLess fun i => gpAll i true l &&& gpAll i false l)

/-- The CLRCNT bit of a register, where it has one. -/
def clrcntBit (a : Nat) : Option Nat :=
  if a = R.TRG_CTRL then some 2
  else if a = R.DMA_CMD then some 1
  else if a = R.FC_CTRL then some 3
  else if [R.ST_CTRL, R.MC_CTRL, R.NV_CTRL, R.SYS_MSPCTRL, R.DR_CTRL].contains a then some 0
  else if (regIndex 8 a R.HP_TSTAT).isSome then some 31
  else if (((regIndex 4 a R.CL_CTRL).or (regIndex 4 a R.CX_CTRL)).or (regIndex 4 a R.FP_CTRL)).isSome then some 0
  else if (regIndex 16 a R.EN_BCMD).isSome then some 7
  else if (regIndex 4 a R.TX_CFG).isSome then some 5
  else none

/-- An access that clears latched bits (W1C) or counters (CLRCNT): it acts before the events of its cycle, which then set and
count. Any other access, a W1S command among them, acts after them, as a new command where one completes (R450). -/
def clears : Instr → Bool
  | .registerWrite _ a be v _ =>
    let a := canonAddr (a / 4 * 4)
    let w := v &&& byteMask be
    (match regDesc a with | some d => w &&& d.w1c != 0 | none => false) || (a == R.MON_CLR && w != 0) ||
      match clrcntBit a with | some i => w.getLsbD i | none => false
  | .safeCauseClear _ | .faultClear _ _ | .monClr _ => true
  | .trgClrcnt | .clClrcnt _ | .cxClrcnt _ | .enClrcnt _ | .fpClrcnt _ | .stClrcnt | .txClrcnt _ | .dmaClrcnt | .fcClrcnt
  | .mcClrcnt | .nvClrcnt | .mspClrcnt | .drClrcnt | .hpTstatClrcnt _ => true
  | _ => false

/-- What arrives in one cycle, in the order in which it takes effect: the MSP's accesses, then those of PCIe (R460), before or
after the events as R450 has it. -/
def arrivalOrder (l : List Arrival) : List Instr :=
  let acc := gpMeet (l.flatMap (Arrival.accesses .msp) ++ l.flatMap (Arrival.accesses .pcie))
  let ev := l.flatMap Arrival.events
  if acc.any clears then acc ++ ev else ev ++ acc

/-- The arrivals of one cycle join the queue. -/
def State.arrive (s : State) (l : List Arrival) : State := { s with pending := s.pending ++ arrivalOrder l }

end Sys2Proof.Machine
end

