-- ==== Sys2Proof/Machine/Clock.lean ====
section
/-! DEFINITION. The advance of Device Time by one clock cycle, which the block makes when no command waits (log entry 76). -/

namespace Sys2Proof.Machine

/-- Device Time advances by `inc` units of 2⁻³² ns of its 32.32 accumulator (R115). -/
def State.advance (s : State) (inc : Nat) : State :=
  let acc := s.dt * 2 ^ 32 + s.dtFrac + inc
  { s with dt := acc / 2 ^ 32, dtFrac := acc % 2 ^ 32 }

/-- The 32.32 increment of one REF cycle: 10 ns, steered by the rate of R128 in parts per million. -/
def refIncrement (ppm : Int) : Nat := (10 * 2 ^ 32 * (1000000 + ppm) / 1000000).toNat

/-- Device Time advances, and received triggers whose effect instant it has reached take effect (R126). -/
def State.advanceTo (s : State) (inc : Nat) : State :=
  let s := s.advance inc
  s.trigsDue s.dt

/-- One clock cycle (R115): none in RESET; a REF cycle of nominal 10 ns; while REF is stopped an AON cycle of nominal 20 ns
within ±2 %, whose length within that bound is free. -/
def clockTick (s : State) : State :=
  if s.mode = .reset then s
  else if s.refStopped then
    let (v, s) := s.freshUpTo 3435973836
    s.advanceTo (84181359002 + v)
  else s.advanceTo (refIncrement s.ring.steer)

end Sys2Proof.Machine
end

