-- ==== Sys2Proof/Machine/Dispatch.lean ====
section
/-! DEFINITION. One arm per command: each is one call of that command's meaning. -/

namespace Sys2Proof.Machine

def exec (i : Instr) (s : State) : Host.Outcome State Fault Refusal :=
  match i with
  | .spineFlitCrcFail l same => Sys2Proof.Machine.execSpineFlitCrcFail l same s
  | .spineLinkFailed l => Sys2Proof.Machine.execSpineLinkFailed l s
  | .c3FloorWindowEnd l t => Sys2Proof.Machine.execC3FloorWindowEnd l t s
  | .collatorLinePlaced h line cycles t => Sys2Proof.Machine.execCollatorLinePlaced h line cycles t s
  | .quireSlotWrite r t => Sys2Proof.Machine.execQuireSlotWrite r t s
  | .quireDispatch r t => Sys2Proof.Machine.execQuireDispatch r t s
  | .quireFinished b c => Sys2Proof.Machine.execQuireFinished b c s
  | .quireCommit h t => Sys2Proof.Machine.execQuireCommit h t s
  | .residueMismatch b c retryOk => Sys2Proof.Machine.execResidueMismatch b c retryOk s
  | .quireTimeout b c t => Sys2Proof.Machine.execQuireTimeout b c t s
  | .sramSecdedError b slot off uncorrectable => Sys2Proof.Machine.execSramSecdedError b slot off uncorrectable s
  | .leafReadUe b c ch r repeatFails => Sys2Proof.Machine.execLeafReadUe b c ch r repeatFails s
  | .planEval v => Sys2Proof.Machine.execPlanEval v s
  | .planReplan v => Sys2Proof.Machine.execPlanReplan v s
  | .planEvalStart => Sys2Proof.Machine.execPlanEvalStart s
  | .planEvalDone => Sys2Proof.Machine.execPlanEvalDone s
  | .planLimitWrite v => Sys2Proof.Machine.execPlanLimitWrite v s
  | .profileValidate h => Sys2Proof.Machine.execProfileValidate h s
  | .profileValidationDone h => Sys2Proof.Machine.execProfileValidationDone h s
  | .hpBiasWrite h v => Sys2Proof.Machine.execHpBiasWrite h v s
  | .hpCtrlWrite h v => Sys2Proof.Machine.execHpCtrlWrite h v s
  | .hsupRampDone h t => Sys2Proof.Machine.execHsupRampDone h t s
  | .hsupShortDisconnect h t => Sys2Proof.Machine.execHsupShortDisconnect h t s
  | .hsupReverseDisconnect h t => Sys2Proof.Machine.execHsupReverseDisconnect h t s
  | .hsupRetryStart h t => Sys2Proof.Machine.execHsupRetryStart h t s
  | .hsupRetryCountReset h t => Sys2Proof.Machine.execHsupRetryCountReset h t s
  | .hsupRetry h => Sys2Proof.Machine.execHsupRetry h s
  | .resume h => Sys2Proof.Machine.execResume h s
  | .dacOvercurrent h => Sys2Proof.Machine.execDacOvercurrent h s
  | .shutClose h => Sys2Proof.Machine.execShutClose h s
  | .shutOpen h => Sys2Proof.Machine.execShutOpen h s
  | .shutterDriveStart h vshut t => Sys2Proof.Machine.execShutterDriveStart h vshut t s
  | .shutterPulseEnd h t => Sys2Proof.Machine.execShutterPulseEnd h t s
  | .shutterPositionInput h p0 p1 t => Sys2Proof.Machine.execShutterPositionInput h p0 p1 t s
  | .shutterPosTimeout h t => Sys2Proof.Machine.execShutterPosTimeout h t s
  | .shutterCoilOpen h => Sys2Proof.Machine.execShutterCoilOpen h s
  | .shutterCoilShort h => Sys2Proof.Machine.execShutterCoilShort h s
  | .hcpGo h => Sys2Proof.Machine.execHcpGo h s
  | .hcpAbort h => Sys2Proof.Machine.execHcpAbort h s
  | .hcpTransferDone h rx extra => Sys2Proof.Machine.execHcpTransferDone h rx extra s
  | .strobeShort h rx => Sys2Proof.Machine.execStrobeShort h rx s
  | .gpSetWrite idx v => Sys2Proof.Machine.execGpSetWrite idx v s
  | .gpClrWrite idx v => Sys2Proof.Machine.execGpClrWrite idx v s
  | .vblankStart h t => Sys2Proof.Machine.execVblankStart h t s
  | .tapOpenTestDone h moves => Sys2Proof.Machine.execTapOpenTestDone h moves s
  | .tcCfgWrite h v => Sys2Proof.Machine.execTcCfgWrite h v s
  | .tcGainWrite h idx v => Sys2Proof.Machine.execTcGainWrite h idx v s
  | .pgaFilterChange h t => Sys2Proof.Machine.execPgaFilterChange h t s
  | .tcSclkWrite r v => Sys2Proof.Machine.execTcSclkWrite r v s
  | .sclkLocked r => Sys2Proof.Machine.execSclkLocked r s
  | .sclkLockLost r => Sys2Proof.Machine.execSclkLockLost r s
  | .sclkFallback r => Sys2Proof.Machine.execSclkFallback r s
  | .tcRefcfgWrite r v => Sys2Proof.Machine.execTcRefcfgWrite r v s
  | .refokSet r t => Sys2Proof.Machine.execRefokSet r t s
  | .refFallback r => Sys2Proof.Machine.execRefFallback r s
  | .selfcal r => Sys2Proof.Machine.execSelfcal r s
  | .bankCalStart r t => Sys2Proof.Machine.execBankCalStart r t s
  | .calPassDone r factors t => Sys2Proof.Machine.execCalPassDone r factors t s
  | .calEnd r t => Sys2Proof.Machine.execCalEnd r t s
  | .bgtrimMeasure h words => Sys2Proof.Machine.execBgtrimMeasure h words s
  | .frameStart h t => Sys2Proof.Machine.execFrameStart h t s
  | .frameStartPending h t => Sys2Proof.Machine.execFrameStartPending h t s
  | .lineStart h t => Sys2Proof.Machine.execLineStart h t s
  | .ringMarkReceived stream seq t => Sys2Proof.Machine.execRingMarkReceived stream seq t s
  | .markEffect stream seq t => Sys2Proof.Machine.execMarkEffect stream seq t s
  | .ringTrigReceived stream seq t => Sys2Proof.Machine.execRingTrigReceived stream seq t s
  | .trigPinEdge n e => Sys2Proof.Machine.execTrigPinEdge n e s
  | .gpFrameEdge pin level t => Sys2Proof.Machine.execGpFrameEdge pin level t s
  | .hfvRise h t => Sys2Proof.Machine.execHfvRise h t s
  | .hfvFall h t => Sys2Proof.Machine.execHfvFall h t s
  | .hlvRise h t => Sys2Proof.Machine.execHlvRise h t s
  | .inputStuck idx t => Sys2Proof.Machine.execInputStuck idx t s
  | .heldSlotDue h t => Sys2Proof.Machine.execHeldSlotDue h t s
  | .pairLoRead p addr be => Sys2Proof.Machine.execPairLoRead p addr be s
  | .pairHiRead p addr be => Sys2Proof.Machine.execPairHiRead p addr be s
  | .pairLoWrite p addr be v => Sys2Proof.Machine.execPairLoWrite p addr be v s
  | .pairHiWrite p addr be v => Sys2Proof.Machine.execPairHiWrite p addr be v s
  | .ringRxLock => Sys2Proof.Machine.execRingRxLock s
  | .ringUpstreamLoss => Sys2Proof.Machine.execRingUpstreamLoss s
  | .ringTimePacket bytes t => Sys2Proof.Machine.execRingTimePacket bytes t s
  | .dtDisciplineTimeout t => Sys2Proof.Machine.execDtDisciplineTimeout t s
  | .ringMsgReceived bytes => Sys2Proof.Machine.execRingMsgReceived bytes s
  | .msgSend => Sys2Proof.Machine.execMsgSend s
  | .msgInsert t => Sys2Proof.Machine.execMsgInsert t s
  | .msgReturned bytes => Sys2Proof.Machine.execMsgReturned bytes s
  | .msgLostTimeout t => Sys2Proof.Machine.execMsgLostTimeout t s
  | .msgPop => Sys2Proof.Machine.execMsgPop s
  | .ringEnable => Sys2Proof.Machine.execRingEnable s
  | .ringSelftestDone pass => Sys2Proof.Machine.execRingSelftestDone pass s
  | .ringHoldRaise => Sys2Proof.Machine.execRingHoldRaise s
  | .ringDisable t => Sys2Proof.Machine.execRingDisable t s
  | .ringTxOff t => Sys2Proof.Machine.execRingTxOff t s
  | .trgClrcnt => Sys2Proof.Machine.execTrgClrcnt s
  | .hpTstatClrcnt h => Sys2Proof.Machine.execHpTstatClrcnt h s
  | .clHmirWrite h v => Sys2Proof.Machine.execClHmirWrite h v s
  | .msync h radiometric => Sys2Proof.Machine.execMsync h radiometric s
  | .mirrorCopyDone h k => Sys2Proof.Machine.execMirrorCopyDone h k s
  | .lswap h => Sys2Proof.Machine.execLswap h s
  | .rswap h => Sys2Proof.Machine.execRswap h s
  | .clClrcnt r => Sys2Proof.Machine.execClClrcnt r s
  | .cxClrcnt r => Sys2Proof.Machine.execCxClrcnt r s
  | .shreq h => Sys2Proof.Machine.execShreq h s
  | .shutterScheduleDue h t => Sys2Proof.Machine.execShutterScheduleDue h t s
  | .shutterCancel h => Sys2Proof.Machine.execShutterCancel h s
  | .refit h => Sys2Proof.Machine.execRefit h s
  | .breset h => Sys2Proof.Machine.execBreset h s
  | .quietWindowArm h v => Sys2Proof.Machine.execQuietWindowArm h v s
  | .quietWindowEnd h t => Sys2Proof.Machine.execQuietWindowEnd h t s
  | .shutterEventStart h t => Sys2Proof.Machine.execShutterEventStart h t s
  | .shutterDeadline h t => Sys2Proof.Machine.execShutterDeadline h t s
  | .shutterApplyDone h => Sys2Proof.Machine.execShutterApplyDone h s
  | .shutterEventTimeout h => Sys2Proof.Machine.execShutterEventTimeout h s
  | .refitStart h => Sys2Proof.Machine.execRefitStart h s
  | .refitComputeDone h => Sys2Proof.Machine.execRefitComputeDone h s
  | .refitWritesDone h => Sys2Proof.Machine.execRefitWritesDone h s
  | .fpSwap h => Sys2Proof.Machine.execFpSwap h s
  | .radiometricSetReadUe h r repeatFails => Sys2Proof.Machine.execRadiometricSetReadUe h r repeatFails s
  | .mcLoad v => Sys2Proof.Machine.execMcLoad v s
  | .microcodeBlockLoadDone b => Sys2Proof.Machine.execMicrocodeBlockLoadDone b s
  | .mcInstall => Sys2Proof.Machine.execMcInstall s
  | .mcSetmin => Sys2Proof.Machine.execMcSetmin s
  | .shadowThirdRunDone b target shadow third => Sys2Proof.Machine.execShadowThirdRunDone b target shadow third s
  | .spareRotation b => Sys2Proof.Machine.execSpareRotation b s
  | .unretire b mask => Sys2Proof.Machine.execUnretire b mask s
  | .unretireTestDone b c pass => Sys2Proof.Machine.execUnretireTestDone b c pass s
  | .enClrcnt b => Sys2Proof.Machine.execEnClrcnt b s
  | .recipeLoad slot => Sys2Proof.Machine.execRecipeLoad slot s
  | .recipeLoadDone => Sys2Proof.Machine.execRecipeLoadDone s
  | .pipeQuireTake r p => Sys2Proof.Machine.execPipeQuireTake r p s
  | .frameCompleteReport h t => Sys2Proof.Machine.execFrameCompleteReport h t s
  | .fpClrcnt r => Sys2Proof.Machine.execFpClrcnt r s
  | .txCfgWrite p v => Sys2Proof.Machine.execTxCfgWrite p v s
  | .txClrcnt p => Sys2Proof.Machine.execTxClrcnt p s
  | .csiFrameStart p => Sys2Proof.Machine.execCsiFrameStart p s
  | .csiPacketSend p late => Sys2Proof.Machine.execCsiPacketSend p late s
  | .monitorSample n v t => Sys2Proof.Machine.execMonitorSample n v t s
  | .monSnap mask t => Sys2Proof.Machine.execMonSnap mask t s
  | .monClr mask => Sys2Proof.Machine.execMonClr mask s
  | .monPerWrite v t => Sys2Proof.Machine.execMonPerWrite v t s
  | .monitorPeriodEnd t => Sys2Proof.Machine.execMonitorPeriodEnd t s
  | .monCfgWrite n blo v => Sys2Proof.Machine.execMonCfgWrite n blo v s
  | .stClrcnt => Sys2Proof.Machine.execStClrcnt s
  | .txnOpen p => Sys2Proof.Machine.execTxnOpen p s
  | .txnStage v => Sys2Proof.Machine.execTxnStage v s
  | .txnCommit n t => Sys2Proof.Machine.execTxnCommit n t s
  | .txnRollback n => Sys2Proof.Machine.execTxnRollback n s
  | .txnHeadWritesStart n h t => Sys2Proof.Machine.execTxnHeadWritesStart n h t s
  | .txnHeadWriteFail n h => Sys2Proof.Machine.execTxnHeadWriteFail n h s
  | .txnUndoDone n ok => Sys2Proof.Machine.execTxnUndoDone n ok s
  | .txnDeadline n t => Sys2Proof.Machine.execTxnDeadline n t s
  | .ctxRead => Sys2Proof.Machine.execCtxRead s
  | .ctxWrite => Sys2Proof.Machine.execCtxWrite s
  | .ctxCmdDone => Sys2Proof.Machine.execCtxCmdDone s
  | .qFrangeWrite f v => Sys2Proof.Machine.execQFrangeWrite f v s
  | .doorbell f off size v => Sys2Proof.Machine.execDoorbell f off size v s
  | .submissionFetch ring descs => Sys2Proof.Machine.execSubmissionFetch ring descs s
  | .cmdNop ring t => Sys2Proof.Machine.execCmdNop ring t s
  | .settingsOpen ring t => Sys2Proof.Machine.execSettingsOpen ring t s
  | .settingsStage ring t => Sys2Proof.Machine.execSettingsStage ring t s
  | .settingsCommit ring t => Sys2Proof.Machine.execSettingsCommit ring t s
  | .settingsRollback ring t => Sys2Proof.Machine.execSettingsRollback ring t s
  | .shutterRequest ring t => Sys2Proof.Machine.execShutterRequest ring t s
  | .cmdShutterCancel ring t => Sys2Proof.Machine.execCmdShutterCancel ring t s
  | .cmdShutterRefit ring t => Sys2Proof.Machine.execCmdShutterRefit ring t s
  | .tableSwap ring t => Sys2Proof.Machine.execTableSwap ring t s
  | .microcode ring t => Sys2Proof.Machine.execMicrocode ring t s
  | .dmaCopy ring t => Sys2Proof.Machine.execDmaCopy ring t s
  | .reprocess ring t => Sys2Proof.Machine.execReprocess ring t s
  | .reprocessJobStart => Sys2Proof.Machine.execReprocessJobStart s
  | .reprocessFrameDone input t => Sys2Proof.Machine.execReprocessFrameDone input t s
  | .completionPost cq t => Sys2Proof.Machine.execCompletionPost cq t s
  | .deliveryCopyDone ring t => Sys2Proof.Machine.execDeliveryCopyDone ring t s
  | .waitingFrameDelivery ring t => Sys2Proof.Machine.execWaitingFrameDelivery ring t s
  | .eventRecordPost ring t => Sys2Proof.Machine.execEventRecordPost ring t s
  | .msixModerationTimeout ring t => Sys2Proof.Machine.execMsixModerationTimeout ring t s
  | .c0Suspend reason t => Sys2Proof.Machine.execC0Suspend reason t s
  | .c0Resume t => Sys2Proof.Machine.execC0Resume t s
  | .pcieLinkDown t => Sys2Proof.Machine.execPcieLinkDown t s
  | .pcieLinkUp speed width t => Sys2Proof.Machine.execPcieLinkUp speed width t s
  | .busMasterChange f on t => Sys2Proof.Machine.execBusMasterChange f on t s
  | .pcieError uncorrectable => Sys2Proof.Machine.execPcieError uncorrectable s
  | .pcieHotReset => Sys2Proof.Machine.execPcieHotReset s
  | .vfFlr f => Sys2Proof.Machine.execVfFlr f s
  | .functionD3hot f enter => Sys2Proof.Machine.execFunctionD3hot f enter s
  | .perstAssert => Sys2Proof.Machine.execPerstAssert s
  | .bar4Write off bytes => Sys2Proof.Machine.execBar4Write off bytes s
  | .bar4Read off len ue => Sys2Proof.Machine.execBar4Read off len ue s
  | .dmaChTailWrite c v => Sys2Proof.Machine.execDmaChTailWrite c v s
  | .dmaChCfgWrite c v => Sys2Proof.Machine.execDmaChCfgWrite c v s
  | .dmaChStop c => Sys2Proof.Machine.execDmaChStop c s
  | .dmaChResume c => Sys2Proof.Machine.execDmaChResume c s
  | .dmaChStart c => Sys2Proof.Machine.execDmaChStart c s
  | .dmaDescFetch c descs => Sys2Proof.Machine.execDmaDescFetch c descs s
  | .dmaReadIssue t => Sys2Proof.Machine.execDmaReadIssue t s
  | .dmaReadCompletion id data ecc => Sys2Proof.Machine.execDmaReadCompletion id data ecc s
  | .dmaPacingWindow t => Sys2Proof.Machine.execDmaPacingWindow t s
  | .dmaWriteback c => Sys2Proof.Machine.execDmaWriteback c s
  | .dmaHalt q link data => Sys2Proof.Machine.execDmaHalt q link data s
  | .dmaSettled => Sys2Proof.Machine.execDmaSettled s
  | .dmaRestart => Sys2Proof.Machine.execDmaRestart s
  | .dmaAutoRestart => Sys2Proof.Machine.execDmaAutoRestart s
  | .dmaClrcnt => Sys2Proof.Machine.execDmaClrcnt s
  | .faultReport unit t => Sys2Proof.Machine.execFaultReport unit t s
  | .depWindowEnd src t => Sys2Proof.Machine.execDepWindowEnd src t s
  | .depRootSettled src t => Sys2Proof.Machine.execDepRootSettled src t s
  | .faultClear hi v => Sys2Proof.Machine.execFaultClear hi v s
  | .faultAck hi v => Sys2Proof.Machine.execFaultAck hi v s
  | .ceHoldExpire t => Sys2Proof.Machine.execCeHoldExpire t s
  | .faultForce hi v => Sys2Proof.Machine.execFaultForce hi v s
  | .fcClrfirst => Sys2Proof.Machine.execFcClrfirst s
  | .fcClrcnt => Sys2Proof.Machine.execFcClrcnt s
  | .unitRestore hi v => Sys2Proof.Machine.execUnitRestore hi v s
  | .restoreTestDone src pass => Sys2Proof.Machine.execRestoreTestDone src pass s
  | .churnRequest a res t => Sys2Proof.Machine.execChurnRequest a res t s
  | .churnQueuedStart a res t => Sys2Proof.Machine.execChurnQueuedStart a res t s
  | .churnQwaitExpire t => Sys2Proof.Machine.execChurnQwaitExpire t s
  | .scrubPassStart dram unit => Sys2Proof.Machine.execScrubPassStart dram unit s
  | .scrubWordCheck dram unit addr r => Sys2Proof.Machine.execScrubWordCheck dram unit addr r s
  | .mcClrcnt => Sys2Proof.Machine.execMcClrcnt s
  | .modeDormant => Sys2Proof.Machine.execModeDormant s
  | .modeSetup t => Sys2Proof.Machine.execModeSetup t s
  | .modeRun => Sys2Proof.Machine.execModeRun s
  | .modeThrottle => Sys2Proof.Machine.execModeThrottle s
  | .modeUnthrottle => Sys2Proof.Machine.execModeUnthrottle s
  | .modeSafe t => Sys2Proof.Machine.execModeSafe t s
  | .setupTransitionDone => Sys2Proof.Machine.execSetupTransitionDone s
  | .dramTrainingDone ch ok mib => Sys2Proof.Machine.execDramTrainingDone ch ok mib s
  | .sysStreamWrite v => Sys2Proof.Machine.execSysStreamWrite v s
  | .safeCauseClear v => Sys2Proof.Machine.execSafeCauseClear v s
  | .resetEntry c => Sys2Proof.Machine.execResetEntry c s
  | .resetRelease => Sys2Proof.Machine.execResetRelease s
  | .dormantEntry t => Sys2Proof.Machine.execDormantEntry t s
  | .refClockStop t => Sys2Proof.Machine.execRefClockStop t s
  | .refClockReturn => Sys2Proof.Machine.execRefClockReturn s
  | .pllLocked => Sys2Proof.Machine.execPllLocked s
  | .railSag k => Sys2Proof.Machine.execRailSag k s
  | .railFailure k v t => Sys2Proof.Machine.execRailFailure k v t s
  | .railGood k => Sys2Proof.Machine.execRailGood k s
  | .powerfailAssert c t => Sys2Proof.Machine.execPowerfailAssert c t s
  | .powerfailPersistDone => Sys2Proof.Machine.execPowerfailPersistDone s
  | .aonCollapse => Sys2Proof.Machine.execAonCollapse s
  | .hkRoundStart t => Sys2Proof.Machine.execHkRoundStart t s
  | .hkConversionDone uvA uvB => Sys2Proof.Machine.execHkConversionDone uvA uvB s
  | .hkRoundEnd t => Sys2Proof.Machine.execHkRoundEnd t s
  | .hkCfgWrite v t => Sys2Proof.Machine.execHkCfgWrite v t s
  | .hkInj v => Sys2Proof.Machine.execHkInj v s
  | .thCfgWrite v => Sys2Proof.Machine.execThCfgWrite v s
  | .thMaskWrite v => Sys2Proof.Machine.execThMaskWrite v s
  | .nvWrite => Sys2Proof.Machine.execNvWrite s
  | .nvPageWriteDone verifyOk => Sys2Proof.Machine.execNvPageWriteDone verifyOk s
  | .nvWindowRead p off err => Sys2Proof.Machine.execNvWindowRead p off err s
  | .nvInterlockClear t => Sys2Proof.Machine.execNvInterlockClear t s
  | .slotPersist ring t => Sys2Proof.Machine.execSlotPersist ring t s
  | .persistWindowEnd ring t => Sys2Proof.Machine.execPersistWindowEnd ring t s
  | .bootHourlyPersist t => Sys2Proof.Machine.execBootHourlyPersist t s
  | .nvRelocation page => Sys2Proof.Machine.execNvRelocation page s
  | .nvClrcnt => Sys2Proof.Machine.execNvClrcnt s
  | .mspStatus => Sys2Proof.Machine.execMspStatus s
  | .mspWrite bits t => Sys2Proof.Machine.execMspWrite bits t s
  | .mspRead bits words => Sys2Proof.Machine.execMspRead bits words s
  | .mspWriteCrc bits t => Sys2Proof.Machine.execMspWriteCrc bits t s
  | .mspReadCrc bits words => Sys2Proof.Machine.execMspReadCrc bits words s
  | .mspReadFetch => Sys2Proof.Machine.execMspReadFetch s
  | .mspBadFrame cmd => Sys2Proof.Machine.execMspBadFrame cmd s
  | .mspClrcnt => Sys2Proof.Machine.execMspClrcnt s
  | .drClrcnt => Sys2Proof.Machine.execDrClrcnt s
  | .registerWrite p addr be v t => Sys2Proof.Machine.execRegisterWrite p addr be v t s
  | .tapExtest => Sys2Proof.Machine.execTapExtest s
  | .tapIdcode => Sys2Proof.Machine.execTapIdcode s
  | .tapSamplePreload cells => Sys2Proof.Machine.execTapSamplePreload cells s
  | .tapHighz => Sys2Proof.Machine.execTapHighz s
  | .tapClamp => Sys2Proof.Machine.execTapClamp s
  | .tapExtestPulse => Sys2Proof.Machine.execTapExtestPulse s
  | .tapExtestTrain => Sys2Proof.Machine.execTapExtestTrain s
  | .tapBypass code => Sys2Proof.Machine.execTapBypass code s
  | .testModeExitReset => Sys2Proof.Machine.execTestModeExitReset s
  | .tapReset => Sys2Proof.Machine.execTapReset s
  | .timingInputDeassert idx t => Sys2Proof.Machine.execTimingInputDeassert idx t s
  | .ringCharError packet => Sys2Proof.Machine.execRingCharError packet s
  | .powerfailEnd => Sys2Proof.Machine.execPowerfailEnd s

end Sys2Proof.Machine
end

