-- ==== Sys2Proof/Safety.lean ====
section
/-! DEFINITION. What a safe state is, in the terms the statements use: every sparse store of the state is in its one canonical
form, so that equal contents are equal data. -/

namespace Sys2Proof.Machine

/-- The canonical form of a byte memory whose unlisted bytes read as `dflt` says. -/
abbrev Memory.wf (dflt : Nat → Byte) (m : List Host.Cell) : Bool := alWf dflt m

/-- Every register outside a list reads as before. -/
def SameRegs (l : List Nat) (s t : State) : Prop := ∀ a, a ∉ l → t.reg a = s.reg a

/-- Every register outside a range of addresses reads as before. -/
def SameRegsOut (lo hi : Nat) (s t : State) : Prop := ∀ a, a < lo ∨ hi ≤ a → t.reg a = s.reg a

/-- Every byte of device DRAM, NVM and host memory reads as before. -/
def SameMem (s t : State) : Prop :=
  (∀ a, t.dramByte a = s.dramByte a) ∧ (∀ a, t.nvmByte a = s.nvmByte a) ∧ ∀ a, t.hostByte a = s.hostByte a

/-- Every byte of device DRAM outside a range of n bytes reads as before. -/
def SameDramBut (base n : Nat) (s t : State) : Prop := ∀ a, a < base ∨ base + n ≤ a → t.dramByte a = s.dramByte a

/-- Device DRAM holds pieces of bytes written one after another, a later one over an earlier one, and is as before everywhere
else. -/
def DramWrote (ws : List (Nat × List Byte)) (s t : State) : Prop :=
  ∀ a, t.dramByte a = match ws.reverse.find? fun w => decide (w.1 ≤ a) && decide (a < w.1 + w.2.length) with
    | some w => w.2.getD (a - w.1) 0
    | none => s.dramByte a

/-- A write of such pieces reaches no other byte: no channel is lost and no copy of a table is mirrored. -/
def State.plainDram (s : State) : Bool :=
  s.lostChan.isEmpty && (List.range 8).all fun h => s.get (F.CL_HMIR_EN h) == 0 && !s.radMirrored h 0 && !s.radMirrored h 1

/-- An address lies in no piece and is the mirror of no byte of one. -/
def State.spared (s : State) (ws : List (Nat × List Byte)) (a : Nat) : Prop :=
  ∀ w ∈ ws, ∀ i, i < w.2.length → a ≠ w.1 + i ∧ a ∉ s.mirrorsOf (w.1 + i)

/-- Device DRAM reads as before at every address that pieces of bytes and their mirrors spare. -/
def SameDramBeside (ws : List (Nat × List Byte)) (s t : State) : Prop := ∀ a, s.spared ws a → t.dramByte a = s.dramByte a

/-- The NVM reads as a list of bytes from an address on, and as before everywhere else. -/
def NvmWrote (a : Nat) (bs : List Byte) (s t : State) : Prop :=
  ∀ x, t.nvmByte x = if a ≤ x ∧ x < a + bs.length then bs.getD (x - a) 0 else s.nvmByte x

/-- Nothing but registers differs. -/
def OnlyRegs (s t : State) : Prop := t = { s with regs := t.regs }

/-- One report of a source and class joined the fault inbox, and nothing else did. -/
def Reported (src : Nat) (cls : FaultClass) (s t : State) : Prop :=
  ∃ d, t.inbox = s.inbox ++ [{ source := Fin.ofNat 64 src, cls := cls, detail := d }]

/-- The first report that joined the fault inbox is one of a source and class. -/
def ReportedFirst (src : Nat) (cls : FaultClass) (s t : State) : Prop :=
  ∃ d rest, t.inbox = s.inbox ++ { source := Fin.ofNat 64 src, cls := cls, detail := d } :: rest

/-- Entry to SAFE, and what ends with it, changes the mode, Device Time, registers and memories, and what the heads, banks, frames,
outputs, transactions, rings, the DMA engine, the Churn, the planner and the NVM controller hold, and nothing else. -/
def SafeWork (s t : State) : Prop :=
  t = { s with
    mode := t.mode, regs := t.regs, dt := t.dt, freeCnt := t.freeCnt, power := t.power, heads := t.heads,
    inbox := t.inbox, frames := t.frames, quires := t.quires, nextBlock := t.nextBlock, churnRun := t.churnRun,
    churnQueue := t.churnQueue, banks := t.banks, pipes := t.pipes, bufs := t.bufs, csi := t.csi, blocks := t.blocks,
    rings := t.rings, dram := t.dram, nv := t.nv, nvm := t.nvm, jobs := t.jobs, ring := t.ring, cmdDone := t.cmdDone,
    txnQ := t.txnQ, txns := t.txns, host := t.host, shutters := t.shutters, alarms := t.alarms,
    mirCopies := t.mirCopies, mcLoad := t.mcLoad, dma := t.dma, planQ := t.planQ, planRun := t.planRun }

/-- A frame start changes the mode (where it ends RUN), Device Time, registers and memories, and what the heads, frames, outputs,
transactions, shutter events, rings, the DMA engine, the milk round, the Churn and the NVM controller hold, and nothing else. -/
def FrameStartWork (s t : State) : Prop :=
  t = { s with
    mode := t.mode, regs := t.regs, dt := t.dt, freeCnt := t.freeCnt, txnQ := t.txnQ, heads := t.heads,
    txns := t.txns, ring := t.ring, cmdDone := t.cmdDone, churnRun := t.churnRun, churnQueue := t.churnQueue,
    alarms := t.alarms, mirCopies := t.mirCopies, csi := t.csi, shutters := t.shutters, inbox := t.inbox,
    power := t.power, frames := t.frames, quires := t.quires, blocks := t.blocks, c0Mark := t.c0Mark,
    rings := t.rings, dram := t.dram, dma := t.dma, host := t.host, nv := t.nv, nvm := t.nvm,
    nextBlock := t.nextBlock, pairVer := t.pairVer, hk := t.hk, bufs := t.bufs }

/-- RESET: every field of the state is that of `State.reset` but what R403, R416 and the interface keep (the NVM, host memory, the
queue, the clock, the boundary port, the rails), the free values drawn and the causes. -/
def ResetFrom (s t : State) : Prop :=
  t = { State.reset with
    nvm := t.nvm, host := s.host, freeCnt := t.freeCnt, pending := s.pending, refStopped := s.refStopped, tap := s.tap,
    power := { State.reset.power with level := t.power.level, causes := t.power.causes } }

/-- The register store, device DRAM, NVM and host memory are in canonical form. -/
structure State.Wf (s : State) : Prop where
  regs : alWf resetWord s.regs = true
  dram : Memory.wf dramReset s.dram = true
  nvm : Memory.wf nvmReset s.nvm = true
  host : Memory.wf dramReset s.host = true

/-- The oldest waiting command of a ring is `c`, of an opcode and OP, and no fence holds it. -/
abbrev RingHead (s : State) (id o op : Nat) (c : RingCmd) : Prop :=
  s.nextCmd id = some c ∧ opcodeOf c.bytes = o ∧ opOf c.bytes = op ∧ (leAt c.bytes 1 1 % 2 = 1 → s.fenceOpen id c.tag = true)

/-- That command is permitted, in a mode that takes it, and its fields lie in range. -/
abbrev RingRuns (s : State) (id o op : Nat) (c : RingCmd) : Prop :=
  RingHead s id o op c ∧ bit (s.get (F.Q_FPERM_OPS ((s.ringFunc id).getD 0))) o = true ∧ s.opMode o = true ∧ descOk c.bytes = true

/-- The answer to a ring command: it joined the finished commands, behind the answers to others. -/
abbrev RingAnswer (s : State) (id : Nat) (c : RingCmd) (status result info : Nat) (t : State) : Prop :=
  ∃ hd : Bool, t.cmdDone =
    s.cmdDone ++ [{ ring := id, tag := c.tag, status := status, result := result, info := info, dt := t.dt, held := hd }]

/-- The state in which a command of a ring has started, at a Device Time. -/
def State.started (s : State) (id : Nat) (c : RingCmd) (t : Nat) : State :=
  (s.at t).modRingU id fun u => { u with cmds := mapIf (fun x => x.tag == c.tag) (fun x => { x with started := true }) u.cmds }

/-- Entry `i` of a SETTINGS STAGE body. -/
def stageEntry (c : RingCmd) (i : Nat) : TxnEntry :=
  entryOf (BitVec.ofNat 32 (leAt c.bytes (0x18 + 8 * i) 4)) (BitVec.ofNat 32 (leAt c.bytes (0x1C + 8 * i) 4))

/-- The state at DT `t`, in which the received triggers due by then have taken effect (R126). -/
abbrev State.atDue (s : State) (t : Nat) : State := (s.at t).trigsDue t

/-- The state in which the collector judges the reports that wait at DT `t`: CE flags whose hold has ended are clear, reports of
retired or absent sources are gone (R370, R373). -/
def State.judged (s : State) (unit : Option Report) (t : Nat) : State :=
  let u := (s.at t).ceExpire
  { u with inbox := (u.inbox ++ unit.toList).filter fun r => r.source.val < 56 && !u.isRetired r.source }

/-- The waiting reports that depend on a root (R376). -/
abbrev State.dependentReports (s : State) : List Report := s.inbox.filter fun r => (s.rootOf r.source).isSome

/-- The sources of a word of FC_FSW that clear: latched, and their conditions are gone (R372). -/
abbrev State.clearable (s : State) (k : Nat) : Bool :=
  k < 56 && !s.liveOf k && bit (s.get64 F.FC_FSW_LO_LATCH F.FC_FSW_HI_LATCH) k

/-- The commands that may change the mode: mode commands and their transitions, RESET, rails, the clock, power failure, faults
and limits that enter SAFE or THROTTLED, the ends of what a transition waits for, and writes through a port. -/
def mayChangeMode : Instr → Bool
  | .planEvalDone | .frameStart .. | .frameStartPending .. | .hfvRise .. | .frameCompleteReport .. | .faultReport .. |
    .depRootSettled .. | .faultForce .. | .modeDormant | .modeSetup .. | .modeThrottle | .modeUnthrottle | .modeSafe .. |
    .setupTransitionDone | .resetEntry .. | .dormantEntry .. | .refClockStop .. | .railSag .. | .railFailure .. | .railGood .. |
    .powerfailAssert .. | .powerfailPersistDone | .aonCollapse | .hkRoundEnd .. | .mspWrite .. | .mspWriteCrc .. |
    .registerWrite .. | .testModeExitReset => true
  | _ => false

/-- The commands that may change the NVM: its own writes, slots and log records of what they do, and reads through the NVM
window, which find a running write further on. -/
def mayWriteNvm : Instr → Bool
  | .planEvalDone | .hsupShortDisconnect .. | .hsupRetryStart .. | .frameStart .. | .frameStartPending .. | .hfvRise .. |
    .frameCompleteReport .. | .faultReport .. | .depWindowEnd .. | .depRootSettled .. | .faultClear .. | .faultForce .. |
    .restoreTestDone .. | .modeDormant | .modeSetup .. | .modeThrottle | .modeUnthrottle | .modeSafe .. |
    .setupTransitionDone | .resetEntry .. | .resetRelease | .dormantEntry .. | .refClockStop .. | .railSag .. | .railFailure .. |
    .railGood .. | .powerfailAssert .. | .powerfailPersistDone | .aonCollapse | .hkRoundEnd .. | .nvPageWriteDone .. |
    .nvWindowRead .. | .pairLoRead .. | .mspStatus | .mspRead .. | .mspReadCrc .. | .mspReadFetch | .mspBadFrame .. |
    .nvInterlockClear .. | .slotPersist .. | .persistWindowEnd .. | .bootHourlyPersist .. | .nvRelocation .. |
    .mspWrite .. | .mspWriteCrc .. | .registerWrite .. | .testModeExitReset => true
  | _ => false

/-- The commands that may write host memory: the DMA engine, ring records and messages, and what can end in SAFE. -/
def mayWriteHost : Instr → Bool
  | .frameStart .. | .frameStartPending .. | .hfvRise .. | .frameCompleteReport .. | .dmaCopy .. | .completionPost .. |
    .deliveryCopyDone .. | .waitingFrameDelivery .. | .eventRecordPost .. | .msixModerationTimeout .. | .dmaChTailWrite .. |
    .dmaChResume .. | .dmaChStart .. | .dmaDescFetch .. | .dmaReadIssue .. | .dmaReadCompletion .. | .dmaWriteback .. |
    .dmaHalt .. | .dmaSettled | .dmaRestart | .dmaAutoRestart | .faultReport .. | .depRootSettled .. | .faultForce .. |
    .modeSetup .. | .modeSafe .. | .setupTransitionDone | .resetEntry .. | .refClockStop .. | .railSag .. | .railFailure .. |
    .railGood .. | .pcieLinkDown .. | .powerfailAssert .. | .hkRoundEnd .. | .mspWrite .. | .mspWriteCrc .. |
    .registerWrite .. | .testModeExitReset => true
  | _ => false

/-- The commands after which Device Time may be lower: RESET, what leads to it, and its release. -/
def mayRestartTime : Instr → Bool
  | .resetEntry .. | .resetRelease | .railSag .. | .railFailure .. | .powerfailAssert .. | .powerfailPersistDone | .aonCollapse |
    .testModeExitReset => true
  | _ => false

end Sys2Proof.Machine
end

