-- ==== Sys2Proof/Certificates/Slice0/Obligations.lean ====
section
/-! DEFINITION. The statements about the model, for the provers. -/

section

open Sys2Proof Sys2Proof.Machine

/-- For a link that is up: a failing flit counts its consecutive failures; below 16 each retry reports one CE under source 46
and nothing else but the count changes; the sixteenth reports nothing. A link whose flit has failed 16 times reports a UC
under source 46, its count restarts, and the link is failed from then on; when the region's other uplink has failed too, the
region's digital path is lost, and the region's frames not yet reported become HELD slots. A C3 floor window that has lasted
1 µs ends: the next one starts at the whole microsecond and owes the floor in full, with nothing carried over. Registers and
memories are as before in the retry and the floor window. (The DETAIL words and the floor's bookkeeping are the model's: log
entries 74 and 77.) Rules: R19, R21. -/
def Obligations.SpineRetriesCountAndFail : Prop :=
  (∀ (l : Link) (same : Bool) (s : State), s.up = true → s.linkDown l = false → s.flitCount l < 15 →
    ∃ t, exec (.spineFlitCrcFail l same) s = .next t ∧
      t.flitCount l = (if same then s.flitCount l + 1 else 1) ∧
      Reported 46 .ce s t ∧
      SameRegs [] s t ∧ SameMem s t ∧ t.mode = s.mode ∧ t.dt = s.dt ∧
      t = { s with inbox := t.inbox, flitFails := t.flitFails }) ∧
  (∀ (l : Link) (s : State), s.up = true → s.linkDown l = false → s.flitCount l = 15 →
    ∃ t, exec (.spineFlitCrcFail l true) s = .next t ∧ t.flitCount l = 16 ∧ t.inbox = s.inbox ∧
      SameRegs [] s t ∧ SameMem s t ∧
      t = { s with inbox := t.inbox, flitFails := t.flitFails }) ∧
  (∀ (l : Link) (s : State), s.up = true → s.flitCount l = 16 →
    ∃ t, exec (.spineLinkFailed l) s = .next t ∧ t.flitCount l = 0 ∧ t.linkDown l = true ∧
      ReportedFirst 46 .uc s t ∧
      SameMem s t ∧ t.mode = s.mode ∧ t.dt = s.dt ∧
      t = { s with regs := t.regs, freeCnt := t.freeCnt, inbox := t.inbox, digitalFail := t.digitalFail, uplinkDown := t.uplinkDown, chipDown := t.chipDown, flitFails := t.flitFails, pairVer := t.pairVer, planQ := t.planQ, planRun := t.planRun, pipes := t.pipes, bufs := t.bufs, frames := t.frames, quires := t.quires }) ∧
  (∀ (r : Region) (i : Fin 2) (s : State), s.up = true → s.flitCount (.uplink r i) = 16 →
    s.linkDown (.uplink r (1 - i)) = true →
    ∃ t, exec (.spineLinkFailed (.uplink r i)) s = .next t ∧ t.digitalFail.contains r.val = true ∧
      (∀ f ∈ t.frames, regionOf f.head = r.val → f.reported = false → f.held = true ∧ f.mute = true ∨ s.digitalFail.contains r.val = true) ∧
      t = { s with inbox := t.inbox, freeCnt := t.freeCnt, flitFails := t.flitFails, uplinkDown := t.uplinkDown, digitalFail := t.digitalFail, pipes := t.pipes, planQ := t.planQ, planRun := t.planRun, regs := t.regs, bufs := t.bufs, frames := t.frames, quires := t.quires, pairVer := t.pairVer }) ∧
  (∀ (l : Link) (t : Nat) (s : State), s.up = true → (s.floor l).start + 1000 ≤ t →
    ∃ u, exec (.c3FloorWindowEnd l t) s = .next u ∧ u.floor l = { start := t / 1000 * 1000, owed := 20 } ∧
      u.dt = max s.dt t ∧ u.inbox = s.inbox ∧ SameRegs [] s u ∧ SameMem s u ∧
      u = { s with dt := u.dt, floors := u.floors })

/-- In every state in which SYS_PLAN_CMD answers: EVAL stores its handle and, with REPLAN 0, asks for an evaluation, which
starts at once when the planner is idle and waits otherwise, after every request of an earlier instant; of requests made at
one instant an EVAL goes ahead of a stream change or a re-plan of the device's own; with REPLAN set in the same write, EVAL
asks for nothing. REPLAN asks likewise. A waiting evaluation starts when none runs and sets BUSY. A write of SYS_PLAN_LIMIT
stores LIMIT cut at 85.00 %. An evaluation that an EVAL asked for ends: the next waiting one starts, or BUSY clears.
Memories, the mode and Device Time are as before; the limit changes no other register. (The order among the kinds that the
list of actions does not name is the model's: log entry 142.) Rules: R33, R36, R39, R41. -/
def Obligations.PlannerCommandsPublish : Prop :=
  (∀ (v : Word) (s : State), s.access R.SYS_PLAN_CMD = true → fieldOf F.SYS_PLAN_CMD_REPLAN v = 0 →
    ∃ t, exec (.planEval v) s = .next t ∧ t.get F.SYS_PLAN_CMD_HANDLE = fieldOf F.SYS_PLAN_CMD_HANDLE v ∧
      (s.planRun = none → s.planQ = [] →
        t.planRun = some { kind := .eval, arg := fieldOf F.SYS_PLAN_CMD_HANDLE v, asked := s.dt } ∧
        t.get F.SYS_PLAN_STAT_BUSY = 1) ∧
      (s.planRun ≠ none → (∀ q ∈ s.planRun.toList ++ s.planQ, q.asked ≠ s.dt) → t.planRun = s.planRun ∧
        t.planQ = s.planQ ++ [{ kind := .eval, arg := fieldOf F.SYS_PLAN_CMD_HANDLE v, asked := s.dt }]) ∧
      SameRegs [R.SYS_PLAN_CMD, R.SYS_PLAN_STAT] s t ∧ SameMem s t ∧ t.mode = s.mode ∧ t.dt = s.dt ∧
      t = { s with regs := t.regs, planQ := t.planQ, planRun := t.planRun }) ∧
  (∀ (v : Word) (s : State), s.access R.SYS_PLAN_CMD = true → fieldOf F.SYS_PLAN_CMD_REPLAN v = 1 →
    ∃ t, exec (.planEval v) s = .next t ∧ t = s.put F.SYS_PLAN_CMD_HANDLE (fieldOf F.SYS_PLAN_CMD_HANDLE v)) ∧
  (∀ (v : Word) (s : State), s.access R.SYS_PLAN_CMD = true →
    ∃ t, exec (.planReplan v) s = .next t ∧ t.get F.SYS_PLAN_CMD_HANDLE = fieldOf F.SYS_PLAN_CMD_HANDLE v ∧
      (s.planRun = none → s.planQ = [] → t.planRun = some { kind := .replan, asked := s.dt } ∧ t.get F.SYS_PLAN_STAT_BUSY = 1) ∧
      (s.planRun ≠ none → (∀ q ∈ s.planRun.toList ++ s.planQ, q.asked ≠ s.dt) → t.planRun = s.planRun ∧
        t.planQ = s.planQ ++ [{ kind := .replan, asked := s.dt }]) ∧
      SameRegs [R.SYS_PLAN_CMD, R.SYS_PLAN_STAT] s t ∧ SameMem s t ∧ t.mode = s.mode ∧ t.dt = s.dt ∧
      t = { s with regs := t.regs, freeCnt := t.freeCnt, heads := t.heads, reroute := t.reroute, planQ := t.planQ, planRun := t.planRun }) ∧
  (∀ (v : Word) (r : PlanReq) (s : State), s.access R.SYS_PLAN_CMD = true → fieldOf F.SYS_PLAN_CMD_REPLAN v = 0 →
    s.planRun = some r → s.planQ = [] → r.asked = s.dt → (r.kind = .stream ∨ r.kind = .auto) →
    ∃ t, exec (.planEval v) s = .next t ∧ t.planQ = [r] ∧
      t.planRun = some { kind := .eval, arg := fieldOf F.SYS_PLAN_CMD_HANDLE v, asked := s.dt } ∧
      SameRegs [R.SYS_PLAN_CMD, R.SYS_PLAN_STAT] s t ∧ t = { s with regs := t.regs, planQ := t.planQ, planRun := t.planRun }) ∧
  (∀ (q : PlanReq) (rest : List PlanReq) (s : State), s.planRun = none → s.planQ = q :: rest →
    ∃ t, exec .planEvalStart s = .next t ∧ t.planRun = some q ∧ t.planQ = rest ∧ t.get F.SYS_PLAN_STAT_BUSY = 1 ∧
      SameRegs [R.SYS_PLAN_STAT] s t ∧ SameMem s t ∧ t.mode = s.mode ∧ t.dt = s.dt ∧
      t = { s with regs := t.regs, planQ := t.planQ, planRun := t.planRun }) ∧
  (∀ (q : PlanReq) (s : State), s.planRun = some q → q.kind = .eval →
    ∃ t, exec .planEvalDone s = .next t ∧ t.planRun = s.planQ.head? ∧ t.planQ = s.planQ.tail ∧
      t.get F.SYS_PLAN_STAT_BUSY = (if s.planQ = [] then 0 else 1) ∧
      SameRegs [R.SYS_PLAN_STAT, R.SYS_PLAN_LOAD0, R.SYS_PLAN_LOAD1, R.SYS_PLAN_RATE] s t ∧ SameMem s t ∧
      t.mode = s.mode ∧
      SafeWork { s with reroute := t.reroute, ctxCmd := t.ctxCmd } t) ∧
  (∀ (v : Word) (s : State), s.access R.SYS_PLAN_LIMIT = true →
    ∃ t, exec (.planLimitWrite v) s = .next t ∧
      t.get F.SYS_PLAN_LIMIT_LIMIT = min 8500 (fieldOf F.SYS_PLAN_LIMIT_LIMIT v) ∧
      SameRegs [R.SYS_PLAN_LIMIT] s t ∧ OnlyRegs s t)

/-- In every state in which the command's register answers, each of the counter-clear commands (timing, head status, collation,
correction, engine, finishing, statistics, DMA, monitoring, fault control, churn, NVM, service port, DRAM, first-fault) sets
exactly the counters its rule names to 0; every other register and every other part of the state is as before. Rules: R135,
R158, R187, R250, R281, R298, R368, R375, R399, R400, R445, R461. -/
def Obligations.CounterClearsClearTheirCounters : Prop :=
  (∀ s : State, s.access R.TRG_CTRL = true →
    ∃ t, exec .trgClrcnt s = .next t ∧ t.reg R.TRG_ERRCNT = 0 ∧ t.get F.TRG_STAT_MKLOST = 0 ∧
      (∀ n : Nat, n < 4 → t.reg (R.TRG_TRIGCNT n) = 0) ∧
      SameRegs [R.TRG_ERRCNT, R.TRG_STAT, R.TRG_TRIGCNT 0, R.TRG_TRIGCNT 1, R.TRG_TRIGCNT 2, R.TRG_TRIGCNT 3] s t ∧
      OnlyRegs s t) ∧
  (∀ (h : Head) (s : State), s.access (R.HP_TSTAT h) = true →
    ∃ t, exec (.hpTstatClrcnt h) s = .next t ∧
      t.reg (R.HP_TCNT0 h) = 0 ∧ t.reg (R.HP_TCNT1 h) = 0 ∧ t.reg (R.HP_TCNT2 h) = 0 ∧
      SameRegs [R.HP_TCNT0 h, R.HP_TCNT1 h, R.HP_TCNT2 h] s t ∧ OnlyRegs s t) ∧
  (∀ (r : Region) (s : State), s.access (R.CL_CTRL r) = true →
    ∃ t, exec (.clClrcnt r) s = .next t ∧ t.reg (R.CL_CNT r) = 0 ∧ t.reg (R.CL_HCNT (2 * r)) = 0 ∧
      t.reg (R.CL_HCNT (2 * r + 1)) = 0 ∧ t.get (F.CL_STAT_FIFOMAX r) = 0 ∧
      SameRegs [R.CL_CNT r, R.CL_HCNT (2 * r), R.CL_HCNT (2 * r + 1), R.CL_STAT r] s t ∧
      t = { s with regs := t.regs, fifoPeak := t.fifoPeak }) ∧
  (∀ (r : Region) (s : State), s.access (R.CX_CTRL r) = true →
    ∃ t, exec (.cxClrcnt r) s = .next t ∧ t.reg (R.CX_RCNT r) = 0 ∧ t.get (F.CX_STAT_TMOCNT r) = 0 ∧
      t.reg (R.CX_HCNT (2 * r)) = 0 ∧ t.reg (R.CX_HCNT (2 * r + 1)) = 0 ∧
      SameRegs [R.CX_RCNT r, R.CX_STAT r, R.CX_HCNT (2 * r), R.CX_HCNT (2 * r + 1)] s t ∧ OnlyRegs s t) ∧
  (∀ (b : Block) (s : State), s.access (R.EN_BCMD b) = true →
    ∃ t, exec (.enClrcnt b) s = .next t ∧ t.reg (R.EN_BCNT b) = 0 ∧ t.get (F.EN_SHSTAT_MISMATCH b) = 0 ∧
      t.get (F.EN_SHSTAT_NOMAJ b) = 0 ∧ SameRegs [R.EN_BCNT b, R.EN_SHSTAT b] s t ∧ OnlyRegs s t) ∧
  (∀ (r : Region) (s : State), s.access (R.FP_CTRL r) = true →
    ∃ t, exec (.fpClrcnt r) s = .next t ∧ t.get (F.FP_STAT_SWITCH r) = 0 ∧ t.reg (R.FP_HCNT (2 * r)) = 0 ∧
      t.reg (R.FP_HCNT (2 * r + 1)) = 0 ∧
      SameRegs [R.FP_STAT r, R.FP_HCNT (2 * r), R.FP_HCNT (2 * r + 1)] s t ∧ OnlyRegs s t) ∧
  (∀ s : State, s.access R.ST_CTRL = true →
    ∃ t, exec .stClrcnt s = .next t ∧ (∀ h : Nat, h < 8 → t.reg (R.ST_HCNT h) = 0) ∧
      SameRegs ((List.range 8).map R.ST_HCNT) s t ∧ OnlyRegs s t) ∧
  (∀ s : State, s.access R.DMA_CMD = true →
    ∃ t, exec .dmaClrcnt s = .next t ∧ t.reg R.DMA_CNT = 0 ∧ (∀ c : Nat, c < 64 → t.reg (R.DMA_CH_DONE c) = 0) ∧
      SameRegs (R.DMA_CNT :: (List.range 64).map R.DMA_CH_DONE) s t ∧ OnlyRegs s t) ∧
  (∀ s : State, s.access R.FC_CTRL = true →
    ∃ t, exec .fcClrcnt s = .next t ∧
      (∀ n : Nat, n < 64 → t.get (F.FC_SRC_CECNT n) = 0 ∧ t.get (F.FC_SRC_UCCNT n) = 0 ∧ t.reg (R.FC_DEP n) = 0) ∧
      SameRegs ((List.range 64).map R.FC_SRC ++ (List.range 64).map R.FC_DEP) s t ∧ OnlyRegs s t) ∧
  (∀ s : State, s.access R.FC_CTRL = true →
    ∃ t, exec .fcClrfirst s = .next t ∧ t.get F.FC_FIRST_VALID = 0 ∧ SameRegs [R.FC_FIRST] s t ∧ OnlyRegs s t) ∧
  (∀ s : State, s.access R.MC_CTRL = true →
    ∃ t, exec .mcClrcnt s = .next t ∧ t.reg R.MC_CNT = 0 ∧ t.reg R.MC_SCRUBCNT = 0 ∧
      SameRegs [R.MC_CNT, R.MC_SCRUBCNT] s t ∧ OnlyRegs s t) ∧
  (∀ s : State, s.access R.NV_CTRL = true →
    ∃ t, exec .nvClrcnt s = .next t ∧ t.get F.NV_CNT_SECC = 0 ∧ t.get F.NV_CNT_RELOC = s.get F.NV_CNT_RELOC ∧
      SameRegs [R.NV_CNT] s t ∧ OnlyRegs s t) ∧
  (∀ s : State, s.access R.SYS_MSPCTRL = true →
    ∃ t, exec .mspClrcnt s = .next t ∧ t.reg R.SYS_MSPCNT = 0 ∧ SameRegs [R.SYS_MSPCNT] s t ∧ OnlyRegs s t) ∧
  (∀ s : State, s.access R.DR_CTRL = true →
    ∃ t, exec .drClrcnt s = .next t ∧ (∀ c : Nat, c < 16 → t.reg (R.DR_ECC c) = 0) ∧
      SameRegs ((List.range 16).map R.DR_ECC) s t ∧ OnlyRegs s t)

/-- A Quire of region r without a slot gets the slot the dispatcher picks, which is a free slot of a block of r, and the next
search starts at the following block. The ready Quire chosen for dispatch is marked running on the idle cell found at that
instant, with the bank selected when it first ran, and INFLIGHT counts the running Quires, saturating at 255; on a shadowed
cell the shadow cell runs it too. When its cell finishes, a Quire that is not shadowed is finished; a shadowed one waits for
both, and then is finished when they agree, which counts, and runs a third time when they do not. The next Quire in the
order of a head is freed, its frame counts it and keeps its instant; the last completes the frame. Registers other than
CX_STAT of the region are as before, and so is memory, where no through-memory buffer and no shutter accumulator is written.
Rules: R25, R26, R159, R183. -/
def Obligations.QuiresMoveThroughTheEngines : Prop :=
  (∀ (r : Region) (t : Nat) (s : State) (q : Quire) (b n : Nat),
    (s.quires.find? fun q => q.region == r.val && q.slot.isNone) = some q → s.nextSlotOf r = some (b, n) → s.nextBlock.length = 4 →
    ∃ u, exec (.quireSlotWrite r t) s = .next u ∧ b / 4 = r.val ∧ n < 8 ∧ s.slotFree b n = true ∧
      u.quires = mapIf (fun x => x.head == q.head && x.seq == q.seq && x.qidx == q.qidx)
        (fun x => { x with slot := some (b, n) }) s.quires ∧
      u.nextBlock.getD r 0 = (b + 1) % 4 ∧
      u = { s with dt := max s.dt t, quires := u.quires, nextBlock := u.nextBlock }) ∧
  (∀ (r : Region) (t : Nat) (s : State) (q : Quire) (b0 n b c : Nat),
    s.nextReady r = some q → q.slot = some (b0, n) → s.idleEngine b0 = some (b, c) → (s.block b).target ≠ some c →
    ∃ u, exec (.quireDispatch r t) s = .next u ∧ u.dt = max s.dt t ∧
      u.quires = mapIf (fun x => x.head == q.head && x.seq == q.seq && x.qidx == q.qidx)
        (fun x => if x.third then { x with stage := .running b c (max s.dt t) } else
          { x with stage := .running b c (max s.dt t), started := some (x.started.getD b), shadow := none, mainDone := false,
                   bank := (if q.started.isSome then q.bank else s.get (F.EN_BSTAT_BANK b)), shadowDone := false,
                   ranOn := some (b, c) }) s.quires ∧
      u.get (F.CX_STAT_INFLIGHT r) =
        min 255 (u.quires.countP fun q => q.region == r.val && (match q.stage with | .running .. => true | _ => false)) ∧
      SameRegs [R.CX_STAT r] s u ∧ SameMem s u ∧ u.mode = s.mode ∧ u.inbox = s.inbox ∧
      u = { s with regs := u.regs, dt := u.dt, churnRun := u.churnRun, churnQueue := u.churnQueue, nextCell := u.nextCell, quires := u.quires }) ∧
  (∀ (r : Region) (t : Nat) (s : State) (q : Quire) (b0 n b c x : Nat) (l : List Nat),
    s.nextReady r = some q → q.slot = some (b0, n) → s.idleEngine b0 = some (b, c) → (s.block b).target = some c →
    q.third = false → s.churnRuns .m6 b = false → s.cellsIn b cellShadow = x :: l →
    ∃ u, exec (.quireDispatch r t) s = .next u ∧
      (∀ y ∈ u.quires, y.head = q.head → y.seq = q.seq → y.qidx = q.qidx → y.third = false →
        y.stage = .running b c (max s.dt t) ∧ y.shadow = some x) ∧
      SameMem s u ∧ u.mode = s.mode ∧
      u = { s with regs := u.regs, dt := u.dt, churnRun := u.churnRun, churnQueue := u.churnQueue, nextCell := u.nextCell, quires := u.quires }) ∧
  (∀ (b : Block) (c : Cell) (agree : Bool) (s : State) (q : Quire) (f : Frame),
    s.quireOn b c = some q → s.frame q.head q.seq = some f → q.third = false → q.runsOn b c = true → q.shadow = none →
    ∃ u, exec (.quireFinished b ⟨c, agree⟩) s = .next u ∧
      (∀ x ∈ u.quires, x.head = q.head → x.seq = q.seq → x.qidx = q.qidx → x.stage = .finished ∧ x.mainDone = true) ∧
      u.quires.length = s.quires.length ∧ SameRegs [R.CX_STAT q.region] s u ∧ u.mode = s.mode ∧ u.dt = s.dt ∧
      u.inbox = s.inbox ∧ (f.role = .picture → SameMem s u) ∧
      u = { s with regs := u.regs, freeCnt := u.freeCnt, dram := u.dram, churnRun := u.churnRun, churnQueue := u.churnQueue, blocks := u.blocks, quires := u.quires }) ∧
  (∀ (b : Block) (c : Cell) (agree : Bool) (s : State) (q : Quire) (f : Frame) (x : Nat),
    s.quireOn b c = some q → s.frame q.head q.seq = some f → q.third = false → q.runsOn b c = true → q.shadow = some x →
    q.shadowsOn b c = false → q.shadowDone = false →
    ∃ u, exec (.quireFinished b ⟨c, agree⟩) s = .next u ∧
      (∀ y ∈ u.quires, y.head = q.head → y.seq = q.seq → y.qidx = q.qidx → y.mainDone = true ∧ y.shadowDone = false) ∧
      (u.block b).agree = (s.block b).agree ∧ SameRegs [R.CX_STAT q.region] s u ∧ u.mode = s.mode ∧
      u = { s with regs := u.regs, freeCnt := u.freeCnt, dram := u.dram, churnRun := u.churnRun, churnQueue := u.churnQueue, blocks := u.blocks, quires := u.quires }) ∧
  (∀ (b : Block) (c : Cell) (s : State) (q : Quire) (f : Frame),
    s.quireOn b c = some q → s.frame q.head q.seq = some f → q.third = false → q.shadow = some c.val → q.shadowsOn b c = true →
    q.mainDone = true →
    ∃ u, exec (.quireFinished b ⟨c, true⟩) s = .next u ∧
      (∀ y ∈ u.quires, y.head = q.head → y.seq = q.seq → y.qidx = q.qidx → y.stage = .finished) ∧
      (u.block b).agree = (s.block b).agree + 1 ∧ SameMem s u ∧ u.mode = s.mode ∧
      u = { s with regs := u.regs, freeCnt := u.freeCnt, dram := u.dram, churnRun := u.churnRun, churnQueue := u.churnQueue, blocks := u.blocks, quires := u.quires }) ∧
  (∀ (b : Block) (c : Cell) (s : State) (q : Quire) (f : Frame),
    s.quireOn b c = some q → s.frame q.head q.seq = some f → q.third = false → q.shadow = some c.val → q.shadowsOn b c = true →
    q.mainDone = true →
    ∃ u, exec (.quireFinished b ⟨c, false⟩) s = .next u ∧
      (∀ y ∈ u.quires, y.head = q.head → y.seq = q.seq → y.qidx = q.qidx → y.third = true ∧ y.stage ≠ .finished) ∧
      (u.block b).agree = 0 ∧ SameMem s u ∧ u.mode = s.mode ∧
      u = { s with regs := u.regs, freeCnt := u.freeCnt, dram := u.dram, churnRun := u.churnRun, churnQueue := u.churnQueue, blocks := u.blocks, quires := u.quires }) ∧
  (∀ (h : Head) (t : Nat) (s : State) (f : Frame) (q : Quire),
    s.nextCommit h = some (f, q) → s.frame h f.seq = some f → q.last = false →
    ∃ u, exec (.quireCommit h t) s = .next u ∧ u.dt = max s.dt t ∧ q.stage = .finished ∧ q.qidx = f.committed ∧
      u.quires = s.quires.filter (fun x => !(x.head == h.val && x.seq == q.seq && x.qidx == q.qidx)) ∧
      (∃ g, u.frame h f.seq = some g ∧ g.committed = f.committed + 1 ∧ g.commitDts = f.commitDts ++ [max s.dt t]) ∧
      u.mode = s.mode ∧
      (f.committed ≠ 0 → f.tmBuf = none → SameRegs [R.CX_STAT q.region] s u ∧ SameMem s u ∧ u.inbox = s.inbox) ∧
      u = { s with regs := u.regs, dt := u.dt, freeCnt := u.freeCnt, dram := u.dram, inbox := u.inbox, heads := u.heads, shutters := u.shutters, ring := u.ring, nv := u.nv, cmdDone := u.cmdDone, churnRun := u.churnRun, churnQueue := u.churnQueue, pairVer := u.pairVer, samples := u.samples, frames := u.frames, quires := u.quires }) ∧
  (∀ (h : Head) (t : Nat) (s : State) (f : Frame) (q : Quire),
    s.nextCommit h = some (f, q) → s.frame h f.seq = some f → q.last = true →
    ∃ u, exec (.quireCommit h t) s = .next u ∧ u.dt = max s.dt t ∧ q.stage = .finished ∧ q.qidx = f.committed ∧
      u.quires = s.quires.filter (fun x => !(x.head == h.val && x.seq == q.seq && x.qidx == q.qidx)) ∧
      (∃ g, u.frame h f.seq = some g ∧ g.committed = f.committed + 1 ∧ g.complete = true) ∧ u.mode = s.mode ∧
      u = { s with regs := u.regs, dt := u.dt, freeCnt := u.freeCnt, dram := u.dram, inbox := u.inbox, heads := u.heads, shutters := u.shutters, ring := u.ring, nv := u.nv, cmdDone := u.cmdDone, churnRun := u.churnRun, churnQueue := u.churnQueue, pairVer := u.pairVer, samples := u.samples, frames := u.frames, quires := u.quires })

/-- While a cell runs a Quire: a residue mismatch whose retry succeeds counts RETRYOK of its region and reports a CE under its
block; one whose retry fails reports a UC under its block and retires the cell. A Quire past the time limit counts TMOCNT
and reports a UC under its block. A corrected SRAM error of a taken slot reports a CE; an uncorrectable one reports a UC and
marks the whole Quire bad in the slot's header, the pixels of the word in its lines. An uncorrectable leaf or residual read
of a channel that the synchronous mirror can repeat counts the channel's UE and reports nothing; without such a mirror, or
when the repeat fails too, it counts and reports a UC under the channel, and the pixels read are bad; a lost channel is not
read. (DETAIL words carry the cell or slot and the offset of the register or word.) Rules: R154, R180, R181, R185. -/
def Obligations.EngineFaultsAreCounted : Prop :=
  (∀ (b : Block) (c : Cell) (s : State), s.cellBusy b c = true →
    ∃ u, exec (.residueMismatch b c true) s = .next u ∧
      u.get (F.CX_RCNT_RETRYOK (b / 4)) = min (s.get (F.CX_RCNT_RETRYOK (b / 4)) + 1) (2 ^ (F.CX_RCNT_RETRYOK (b / 4)).w - 1) ∧
      Reported b .ce s u ∧
      SameRegs [R.CX_RCNT (b / 4)] s u ∧ u = { s with regs := u.regs, inbox := u.inbox }) ∧
  (∀ (b : Block) (c : Cell) (s : State), s.cellBusy b c = true →
    ∃ u, exec (.residueMismatch b c false) s = .next u ∧
      ReportedFirst b .uc s u ∧
      u.cellState b c = cellRetired ∧ SameMem s u ∧ u.mode = s.mode ∧
      u = { s with regs := u.regs, inbox := u.inbox, nv := u.nv, churnRun := u.churnRun, churnQueue := u.churnQueue, blocks := u.blocks, planQ := u.planQ, planRun := u.planRun, quires := u.quires }) ∧
  (∀ (b : Block) (c : Cell) (t : Nat) (s : State) (q : Quire) (n : Nat),
    (s.quires.find? fun q => q.runsOn b c) = some q → q.stage = .running b c n → s.get (F.CX_CTRL_QTMO q.region) ≠ 0 →
    n + 1000 * s.get (F.CX_CTRL_QTMO q.region) ≤ t →
    ∃ u, exec (.quireTimeout b c t) s = .next u ∧
      u.get (F.CX_STAT_TMOCNT q.region) = min (s.get (F.CX_STAT_TMOCNT q.region) + 1) (2 ^ (F.CX_STAT_TMOCNT q.region).w - 1) ∧
      ReportedFirst b .uc s u ∧
      u.dt = max s.dt t ∧ SameMem s u ∧ u.mode = s.mode ∧
      u = { s with regs := u.regs, dt := u.dt, inbox := u.inbox, nv := u.nv, churnRun := u.churnRun, churnQueue := u.churnQueue, blocks := u.blocks, planQ := u.planQ, planRun := u.planRun, quires := u.quires }) ∧
  (∀ (b : Block) (slot : Fin 8) (off : Nat) (s : State) (q : Quire),
    (s.quires.find? fun q => q.slot == some (b.val, slot.val)) = some q →
    ∃ u, exec (.sramSecdedError b slot off false) s = .next u ∧
      u = { s with inbox := s.inbox ++ [{ source := Fin.ofNat 64 b, cls := .ce, detail := BitVec.ofNat 32 (detailWord slot 0xFF off) }] }) ∧
  (∀ (b : Block) (slot : Fin 8) (off : Nat) (s : State) (q : Quire),
    (s.quires.find? fun q => q.slot == some (b.val, slot.val)) = some q → off < 0x40 →
    ∃ u, exec (.sramSecdedError b slot off true) s = .next u ∧
      (∀ x ∈ u.quires, x.head = q.head → x.seq = q.seq → x.qidx = q.qidx → x.allBad = true) ∧
      u = { s with quires := u.quires, inbox := s.inbox ++
              [{ source := Fin.ofNat 64 b, cls := .uc, detail := BitVec.ofNat 32 (detailWord slot 0xFF off) }] }) ∧
  (∀ (b : Block) (slot : Fin 8) (off : Nat) (s : State) (q : Quire),
    (s.quires.find? fun q => q.slot == some (b.val, slot.val)) = some q → 0x40 ≤ off →
    ∃ u, exec (.sramSecdedError b slot off true) s = .next u ∧
      (0x100 ≤ off → off < 0x48100 → (s.prof q.head).dual = false → (off - 0x100) % 0x4000 / 8 * 4 < (s.prof q.head).width →
        ∀ x ∈ u.quires, x.head = q.head → x.seq = q.seq → x.qidx = q.qidx →
          (off - 0x100) / 0x4000 * (s.prof q.head).width + (off - 0x100) % 0x4000 / 8 * 4 ∈ x.bad) ∧
      (off < 0x100 → u.quires = s.quires) ∧
      u = { s with quires := u.quires, inbox := s.inbox ++
              [{ source := Fin.ofNat 64 b, cls := .uc, detail := BitVec.ofNat 32 (detailWord slot 0xFF off) }] }) ∧
  (∀ (b : Block) (c : Cell) (ch : Channel) (res : Bool) (px : List Nat) (s : State) (q : Quire) (f : Frame),
    s.quireOn b c = some q → s.frame q.head q.seq = some f → s.lostChan.contains ch.val = false →
    s.mirrored q.head (if res then (if f.resSel then 3 else 2) else if f.leafSel then 1 else 0) = true →
    bit (s.get (F.CL_HSTAT_MIRSYNC q.head)) (if res then (if f.resSel then 3 else 2) else if f.leafSel then 1 else 0) = true →
    ∃ u, exec (.leafReadUe b c ch ⟨res, px⟩ false) s = .next u ∧
      u.get (F.DR_ECC_UE ch) = min (s.get (F.DR_ECC_UE ch) + 1) (2 ^ (F.DR_ECC_UE ch).w - 1) ∧
      SameRegs [R.DR_ECC ch, R.DR_ERRADDR_LO ch, R.DR_ERRADDR_HI ch] s u ∧ u = { s with regs := u.regs, pairVer := u.pairVer, freeCnt := u.freeCnt }) ∧
  (∀ (b : Block) (c : Cell) (ch : Channel) (res fails : Bool) (px : List Nat) (s : State) (q : Quire) (f : Frame),
    s.quireOn b c = some q → s.frame q.head q.seq = some f → s.lostChan.contains ch.val = false →
    (fails = true ∨ s.mirrored q.head (if res then (if f.resSel then 3 else 2) else if f.leafSel then 1 else 0) = false) →
    ∃ u, exec (.leafReadUe b c ch ⟨res, px⟩ fails) s = .next u ∧
      u.get (F.DR_ECC_UE ch) = min (s.get (F.DR_ECC_UE ch) + 1) (2 ^ (F.DR_ECC_UE ch).w - 1) ∧
      Reported (28 + ch) .uc s u ∧
      (∀ x ∈ u.quires, x.head = q.head → x.seq = q.seq → x.qidx = q.qidx → ∀ p ∈ px, (ch.val, p) ∈ x.badRead) ∧
      SameRegs [R.DR_ECC ch, R.DR_ERRADDR_LO ch, R.DR_ERRADDR_HI ch] s u ∧ SameMem s u ∧ u.mode = s.mode ∧ u.dt = s.dt ∧
      u = { s with regs := u.regs, freeCnt := u.freeCnt, inbox := u.inbox, pairVer := u.pairVer, quires := u.quires }) ∧
  (∀ (b : Block) (c : Cell) (ch : Channel) (res fails : Bool) (px : List Nat) (s : State), s.lostChan.contains ch.val = true →
    ∃ u, exec (.leafReadUe b c ch ⟨res, px⟩ fails) s = .next u ∧ u = s)

/-- VALIDATE sets PVBUSY, or PSTAT = 6 while the head streams; the end of validation clears PVBUSY and leaves a failing image's
status in PSTAT with the head's profile as before. A supply that ramps is on (HSUP = 2) from the ramp's end. A short
disconnects the supply: with three retries used it stays off (HSUP = 3, LOCKOUT), with fewer it is retried 100 ms later;
reverse current disconnects it without a retry. A due retry counts RETRIES and ramps again for 1 ms; 10 s of steady supply
reset RETRIES; HSUP_RETRY restarts a stopped supply; RESUME ends the converters' hold unless the block is in SAFE or a
supply that disconnected is not on again, and lets the head's hold end at its next frame unless a disconnected supply is not
on; an over-current sets BIAS_OC, reports a UC and holds the port. Rules: R46, R53, R55, R56, R70. -/
def Obligations.HeadProfileAndSupplyCommands : Prop :=
  (∀ (h : Head) (s : State), s.access (R.HP_CMD h) = true → s.flag (F.HP_STAT_PVBUSY h) = false → s.streams h = false →
    ∃ t, exec (.profileValidate h) s = .next t ∧ t.get (F.HP_STAT_PVBUSY h) = 1 ∧
      t.get (F.HP_STAT_PSTAT h) = s.get (F.HP_STAT_PSTAT h) ∧ SameRegs [R.HP_STAT h] s t ∧ OnlyRegs s t) ∧
  (∀ (h : Head) (s : State), s.access (R.HP_CMD h) = true → s.flag (F.HP_STAT_PVBUSY h) = false → s.streams h = true →
    ∃ t, exec (.profileValidate h) s = .next t ∧ t.get (F.HP_STAT_PSTAT h) = 6 ∧ t.get (F.HP_STAT_PVBUSY h) = 0 ∧
      SameRegs [R.HP_STAT h] s t ∧ OnlyRegs s t) ∧
  (∀ (h : Head) (s : State), s.flag (F.HP_STAT_PVBUSY h) = true → profileStatus (s.profImage h) ≠ 1 →
    ∃ t, exec (.profileValidationDone h) s = .next t ∧ t.get (F.HP_STAT_PVBUSY h) = 0 ∧
      t.get (F.HP_STAT_PSTAT h) = profileStatus (s.profImage h) ∧ SameRegs [R.HP_STAT h] s t ∧ OnlyRegs s t) ∧
  (∀ (h : Head) (s : State), s.flag (F.HP_STAT_PVBUSY h) = true → profileStatus (s.profImage h) = 1 →
    ∃ t, exec (.profileValidationDone h) s = .next t ∧ t.get (F.HP_STAT_PVBUSY h) = 0 ∧ t.get (F.HP_STAT_PSTAT h) = 1 ∧
      (t.head h).profile = some (parseProfile (s.profImage h)) ∧ SameMem s t ∧ t.mode = s.mode ∧
      t = { s with regs := t.regs, inbox := t.inbox, heads := t.heads }) ∧
  (∀ (h : Head) (t : Nat) (s : State), s.get (F.HP_STAT_HSUP h) = 1 → (s.head h).rampEnd ≤ t →
    ∃ u, exec (.hsupRampDone h t) s = .next u ∧ u.get (F.HP_STAT_HSUP h) = 2 ∧ (u.head h).onSince = t ∧
      SameRegs [R.HP_STAT h] s u ∧ u = { s with dt := max s.dt t, regs := u.regs, heads := u.heads }) ∧
  (∀ (h : Head) (t : Nat) (s : State), (s.get (F.HP_STAT_HSUP h) = 1 ∨ s.get (F.HP_STAT_HSUP h) = 2) →
    s.get (F.HP_STAT_RETRIES h) ≠ 3 →
    ∃ u, exec (.hsupShortDisconnect h t) s = .next u ∧ u.get (F.HP_STAT_HSUP h) = 0 ∧ u.get (F.HP_FLT_HSUP_SHORT h) = 1 ∧
      (u.head h).retryAt = some (t + 100000000) ∧ (u.head h).dacHold = true ∧ (u.head h).portHeld = true ∧
      ((s.head h).supUc = false → Reported (20 + h) .uc s u) ∧ ((s.head h).supUc = true → u.inbox = s.inbox) ∧
      SameRegs [R.HP_STAT h, R.HP_FLT h] s u ∧
      u = { s with dt := max s.dt t, regs := u.regs, heads := u.heads, inbox := u.inbox }) ∧
  (∀ (h : Head) (t : Nat) (s : State), (s.get (F.HP_STAT_HSUP h) = 1 ∨ s.get (F.HP_STAT_HSUP h) = 2) →
    s.get (F.HP_STAT_RETRIES h) = 3 →
    ∃ u, exec (.hsupShortDisconnect h t) s = .next u ∧ u.get (F.HP_STAT_HSUP h) = 3 ∧ (u.head h).dacHold = true ∧
      u.get (F.HP_FLT_HSUP_SHORT h) = 1 ∧ u.get (F.HP_FLT_HSUP_LOCKOUT h) = 1 ∧ u.mode = s.mode ∧ u.dram = s.dram ∧ u.host = s.host ∧
      u = { s with regs := u.regs, dt := u.dt, nvm := u.nvm, inbox := u.inbox, heads := u.heads, nv := u.nv }) ∧
  (∀ (h : Head) (t : Nat) (s : State), (s.get (F.HP_STAT_HSUP h) = 1 ∨ s.get (F.HP_STAT_HSUP h) = 2) →
    ∃ u, exec (.hsupReverseDisconnect h t) s = .next u ∧ u.get (F.HP_STAT_HSUP h) = 0 ∧ u.get (F.HP_FLT_HSUP_REV h) = 1 ∧
      (u.head h).retryAt = none ∧ (u.head h).supStopped = true ∧ SameRegs [R.HP_STAT h, R.HP_FLT h] s u ∧
      u = { s with dt := max s.dt t, regs := u.regs, heads := u.heads, inbox := u.inbox }) ∧
  (∀ (h : Head) (t d : Nat) (s : State), (s.head h).retryAt = some d → d ≤ t → s.hsupWanted h = true →
    s.get (F.HP_STAT_RETRIES h) < 3 →
    ∃ u, exec (.hsupRetryStart h t) s = .next u ∧ u.get (F.HP_STAT_RETRIES h) = s.get (F.HP_STAT_RETRIES h) + 1 ∧
      u.get (F.HP_STAT_HSUP h) = 1 ∧ (u.head h).rampEnd = max s.dt t + 1000000 ∧ (u.head h).retryAt = none ∧
      u.mode = s.mode ∧ u.dram = s.dram ∧ u.host = s.host ∧
      u = { s with regs := u.regs, dt := u.dt, nvm := u.nvm, heads := u.heads, nv := u.nv }) ∧
  (∀ (h : Head) (t : Nat) (s : State), s.get (F.HP_STAT_HSUP h) = 2 → (s.head h).onSince + 10000000000 ≤ t →
    ∃ u, exec (.hsupRetryCountReset h t) s = .next u ∧ u.get (F.HP_STAT_RETRIES h) = 0 ∧ (u.head h).supUc = false ∧
      u.get (F.HP_STAT_HSUP h) = 2 ∧ SameRegs [R.HP_STAT h] s u ∧
      u = { s with dt := max s.dt t, regs := u.regs, heads := u.heads }) ∧
  (∀ (h : Head) (s : State), s.access (R.HP_CMD h) = true → (s.get (F.HP_STAT_HSUP h) = 3 ∨ (s.head h).supStopped = true) →
    s.hsupWanted h = true →
    ∃ t, exec (.hsupRetry h) s = .next t ∧ t.get (F.HP_STAT_RETRIES h) = 0 ∧ t.get (F.HP_STAT_HSUP h) = 1 ∧
      (t.head h).rampEnd = s.dt + 1000000 ∧ (t.head h).supStopped = false ∧ SameRegs [R.HP_STAT h] s t ∧
      t = { s with regs := t.regs, heads := t.heads }) ∧
  (∀ (h : Head) (s : State), s.access (R.HP_CMD h) = true →
    ∃ t, exec (.resume h) s = .next t ∧
      (t.head h).dacHold = ((s.head h).dacHold && (s.mode == .safe || (s.head h).supLost)) ∧
      (t.head h).resume = ((s.head h).resume || !(s.head h).supHeld || s.get (F.HP_STAT_HSUP h) == 2) ∧
      t = { s with heads := t.heads }) ∧
  (∀ (h : Head) (s : State), s.dacDriven h = true →
    ∃ t, exec (.dacOvercurrent h) s = .next t ∧ t.get (F.HP_FLT_BIAS_OC h) = 1 ∧ (t.head h).dacHold = true ∧
      (t.head h).portHeld = true ∧ Reported (20 + h) .uc s t ∧ SameRegs [R.HP_FLT h, R.HP_STAT h] s t ∧
      t = { s with regs := t.regs, heads := t.heads, inbox := t.inbox })

/-- A write of HP_BIAS in RUN or THROTTLED is ignored and sets DIRECT_REFUSED. In the other modes each code is stored clamped to
the profile's limits, and a clamp sets BIAS_CLAMP. Without a profile both are stored as 0. A write of HP_CTRL stores its
bits; with PORT_EN 0 the bridge idles, a drive and an order for one end, and a supply that is not locked out is off; with
PORT_EN 1 bridge, drive and transfer stay as they are. Rules: R51, R53. -/
def Obligations.HeadBiasAndControlWrites : Prop :=
  (∀ (h : Head) (v : Word) (s : State), s.access (R.HP_BIAS h) = true → s.inRun = true →
    ∃ t, exec (.hpBiasWrite h v) s = .next t ∧ t.get (F.HP_STAT_DIRECT_REFUSED h) = 1 ∧ SameRegs [R.HP_STAT h] s t ∧ OnlyRegs s t) ∧
  (∀ (h : Head) (v : Word) (s : State) (p : Profile), s.access (R.HP_BIAS h) = true → s.inRun = false → (s.head h).profile = some p →
    p.vbiasMin ≤ p.vbiasMax → p.vskimMin ≤ p.vskimMax → p.vbiasMax < 65536 → p.vskimMax < 65536 →
    ∃ t, exec (.hpBiasWrite h v) s = .next t ∧
      t.get (F.HP_BIAS_VBIAS h) = max p.vbiasMin (min p.vbiasMax (v.toNat / 65536)) ∧
      t.get (F.HP_BIAS_VSKIM h) = max p.vskimMin (min p.vskimMax (v.toNat % 65536)) ∧
      t.get (F.HP_FLT_BIAS_CLAMP h) =
        (if (p.vbiasMin ≤ v.toNat / 65536 ∧ v.toNat / 65536 ≤ p.vbiasMax) ∧ p.vskimMin ≤ v.toNat % 65536 ∧ v.toNat % 65536 ≤ p.vskimMax
          then s.get (F.HP_FLT_BIAS_CLAMP h) else 1) ∧
      SameRegs [R.HP_BIAS h, R.HP_FLT h] s t ∧ OnlyRegs s t) ∧
  (∀ (h : Head) (v : Word) (s : State), s.access (R.HP_BIAS h) = true → s.inRun = false → (s.head h).profile = none →
    ∃ t, exec (.hpBiasWrite h v) s = .next t ∧ t.get (F.HP_BIAS_VBIAS h) = 0 ∧ t.get (F.HP_BIAS_VSKIM h) = 0 ∧
      (v ≠ 0 → t.get (F.HP_FLT_BIAS_CLAMP h) = 1) ∧ SameRegs [R.HP_BIAS h, R.HP_FLT h] s t ∧ OnlyRegs s t) ∧
  (∀ (h : Head) (v : Word) (s : State), s.access (R.HP_CTRL h) = true → fieldOf (F.HP_CTRL_PORT_EN h) v = 0 →
    s.get (F.HP_STAT_HSUP h) ≠ 3 →
    ∃ t, exec (.hpCtrlWrite h v) s = .next t ∧ t.get (F.HP_CTRL_PORT_EN h) = 0 ∧
      t.reg (R.HP_CTRL h) = (s.reg (R.HP_CTRL h) &&& 0xFFFFFF00) ||| (v &&& 0xFF) ∧ (t.head h).bridge = .idle ∧ (t.head h).drive = none ∧
      (t.head h).driveWait = none ∧ t.get (F.HP_STAT_HSUP h) = 0 ∧ SameMem s t ∧ t.mode = s.mode ∧
      t = { s with regs := t.regs, dt := t.dt, freeCnt := t.freeCnt, inbox := t.inbox, heads := t.heads, shutters := t.shutters, ring := t.ring, cmdDone := t.cmdDone, churnRun := t.churnRun, churnQueue := t.churnQueue, mirCopies := t.mirCopies, csi := t.csi, alarms := t.alarms, txns := t.txns, txnQ := t.txnQ }) ∧
  (∀ (h : Head) (v : Word) (s : State), s.access (R.HP_CTRL h) = true → fieldOf (F.HP_CTRL_PORT_EN h) v = 1 →
    ∃ t, exec (.hpCtrlWrite h v) s = .next t ∧ t.reg (R.HP_CTRL h) = (s.reg (R.HP_CTRL h) &&& 0xFFFFFF00) ||| (v &&& 0xFF) ∧
      (t.head h).bridge = (s.head h).bridge ∧ (t.head h).drive = (s.head h).drive ∧ (t.head h).hcp = (s.head h).hcp ∧
      SameRegs [R.HP_CTRL h, R.HP_STAT h] s t ∧ t = { s with regs := t.regs, heads := t.heads })

/-- CLOSE and OPEN are refused with DIRECT_REFUSED in RUN and THROTTLED, in SETUP wait as an order, and do nothing in the other
modes or on a retired port. A waiting drive with enough VSHUT starts: the bridge takes the commanded polarity, SHPOS is
MOVING, the pulse and the position time limit count from the drive's start; a held shutter opens when its hold ends, without
a pulse; with too little VSHUT a close is refused with SHUT_NOVSHUT and a CE. The pulse's end leaves the bridge idle (a held
shutter's close keeps the PWM hold), and without a position input ends the drive with SHPOS as commanded. A position input
that reports closed or open sets SHPOS; both at once sets SHUT_POS and SHPOS UNKNOWN with a CE; neither, under a drive,
reads MOVING. A missed position sets SHUT_POS and SHPOS UNKNOWN with a CE, and ends a closing event with SHUTTER. A coil
failure sets its flag and SHPOS UNKNOWN, ends the drive and reports a UC. Rules: R57, R58, R59, R60. -/
def Obligations.ShutterCommandsAndInputs : Prop :=
  (∀ (h : Head) (s : State), s.access (R.HP_CMD h) = true → s.inRun = true →
    ∃ t, exec (.shutClose h) s = .next t ∧ t.get (F.HP_STAT_DIRECT_REFUSED h) = 1 ∧ SameRegs [R.HP_STAT h] s t ∧ OnlyRegs s t) ∧
  (∀ (h : Head) (s : State), s.access (R.HP_CMD h) = true → s.mode = .setup → s.isRetired (20 + h) = false →
    ∃ t, exec (.shutClose h) s = .next t ∧ (t.head h).driveWait = some true ∧ t = { s with heads := t.heads }) ∧
  (∀ (h : Head) (s : State), s.access (R.HP_CMD h) = true → s.mode = .setup → s.isRetired (20 + h) = false →
    ∃ t, exec (.shutOpen h) s = .next t ∧ (t.head h).driveWait = some false ∧ t = { s with heads := t.heads }) ∧
  (∀ (h : Head) (s : State), s.inRun = false → (s.mode ≠ .setup ∨ s.isRetired (20 + h) = true) →
    ∃ t, exec (.shutClose h) s = .next t ∧ t = s) ∧
  (∀ (h : Head) (vshut t : Nat) (close : Bool) (s : State), (s.head h).driveWait = some close → (s.head h).drive = none →
    (s.mode == .setup || s.inRun || s.mode == .safe) = true → s.canDrive h = true → (s.prof h).vshutMin ≤ vshut →
    (close = true ∨ (s.prof h).shutType ≠ 2) →
    ∃ u, exec (.shutterDriveStart h vshut t) s = .next u ∧ (u.head h).driveWait = none ∧
      (u.head h).drive = some { close := close, start := t, pulseEnd := t + (s.prof h).shutPulse * 1000000,
                                deadline := t + (s.prof h).shutPostmo * 1000000 } ∧
      (u.head h).bridge = (if close then .closing else .opening) ∧ u.get (F.HP_STAT_SHPOS h) = 3 ∧
      SameRegs [R.HP_STAT h] s u ∧ u = { s with dt := max s.dt t, regs := u.regs, heads := u.heads }) ∧
  (∀ (h : Head) (vshut t : Nat) (s : State), (s.head h).driveWait = some false → (s.head h).drive = none →
    (s.mode == .setup || s.inRun || s.mode == .safe) = true → (s.prof h).shutType = 2 →
    ∃ u, exec (.shutterDriveStart h vshut t) s = .next u ∧ (u.head h).driveWait = none ∧ (u.head h).bridge = .idle ∧
      ((s.prof h).posClosed = false → (s.prof h).posOpen = false → u.get (F.HP_STAT_SHPOS h) = 2 ∧ (u.head h).drive = none) ∧
      SameRegs [R.HP_STAT h, R.CX_SSTAT h] s u ∧ u = { s with dt := max s.dt t, regs := u.regs, heads := u.heads }) ∧
  (∀ (h : Head) (vshut t : Nat) (s : State), (s.head h).driveWait = some true → (s.head h).drive = none →
    (s.mode == .setup || s.inRun || s.mode == .safe) = true → s.canDrive h = true → vshut < (s.prof h).vshutMin →
    (s.head h).supOffAfterClose = false →
    ∃ u, exec (.shutterDriveStart h vshut t) s = .next u ∧ (u.head h).driveWait = none ∧ (u.head h).drive = none ∧
      u.get (F.HP_FLT_SHUT_NOVSHUT h) = 1 ∧ Reported (20 + h) .ce s u ∧ SameRegs [R.HP_FLT h] s u ∧
      u = { s with dt := max s.dt t, regs := u.regs, heads := u.heads, inbox := u.inbox }) ∧
  (∀ (h : Head) (t : Nat) (d : Drive) (s : State), (s.head h).drive = some d → d.pulseDone = false → d.pulseEnd ≤ t →
    (s.prof h).posClosed = false → (s.prof h).posOpen = false → (s.head h).supOffAfterClose = false →
    ∃ u, exec (.shutterPulseEnd h t) s = .next u ∧ (u.head h).drive = none ∧
      (u.head h).bridge = (if d.close = true ∧ (s.prof h).shutType = 2 then .hold else .idle) ∧
      u.get (F.HP_STAT_SHPOS h) = (if d.close then 1 else 2) ∧ SameRegs [R.HP_STAT h, R.CX_SSTAT h] s u ∧
      u = { s with dt := max s.dt t, regs := u.regs, heads := u.heads }) ∧
  (∀ (h : Head) (t : Nat) (d : Drive) (s : State), (s.head h).drive = some d → d.pulseDone = false → d.pulseEnd ≤ t →
    ((s.prof h).posClosed || (s.prof h).posOpen) = true → s.get (F.HP_STAT_SHPOS h) ≠ (if d.close then 1 else 2) →
    ∃ u, exec (.shutterPulseEnd h t) s = .next u ∧ (u.head h).drive = some { d with pulseDone := true } ∧
      (u.head h).bridge = (if d.close = true ∧ (s.prof h).shutType = 2 then .hold else .idle) ∧
      SameRegs [] s u ∧ u = { s with dt := max s.dt t, heads := u.heads }) ∧
  (∀ (h : Head) (p0 p1 : Bool) (t : Nat) (s : State), s.up = true → s.hasProf h = true → shutInputs (s.prof h) p0 p1 = 3 →
    ∃ u, exec (.shutterPositionInput h p0 p1 t) s = .next u ∧ u.get (F.HP_FLT_SHUT_POS h) = 1 ∧ u.get (F.HP_STAT_SHPOS h) = 0 ∧
      (u.head h).p0 = p0 ∧ (u.head h).p1 = p1 ∧ Reported (20 + h) .ce s u ∧ SameRegs [R.HP_FLT h, R.HP_STAT h] s u ∧
      u = { s with dt := max s.dt t, regs := u.regs, heads := u.heads, inbox := u.inbox }) ∧
  (∀ (h : Head) (p0 p1 : Bool) (t : Nat) (s : State), s.up = true → s.hasProf h = true → (s.head h).drive = none →
    shutInputs (s.prof h) p0 p1 = 2 →
    ∃ u, exec (.shutterPositionInput h p0 p1 t) s = .next u ∧ u.get (F.HP_STAT_SHPOS h) = 2 ∧ (u.head h).openLate = false ∧
      SameRegs [R.HP_STAT h] s u ∧ u = { s with dt := max s.dt t, regs := u.regs, heads := u.heads }) ∧
  (∀ (h : Head) (p0 p1 : Bool) (t : Nat) (s : State), s.up = true → s.hasProf h = true → (s.head h).supOffAfterClose = false →
    shutInputs (s.prof h) p0 p1 = 1 →
    ∃ u, exec (.shutterPositionInput h p0 p1 t) s = .next u ∧ u.get (F.HP_STAT_SHPOS h) = 1 ∧
      (∀ d, (s.head h).drive = some d → d.pulseDone = true → d.close = true → (u.head h).drive = none) ∧
      (s.get (F.CX_SSTAT_PHASE h) = 2 → u.get (F.CX_SSTAT_PHASE h) = 3) ∧
      SameRegs [R.HP_STAT h, R.CX_SSTAT h] s u ∧ u = { s with dt := max s.dt t, regs := u.regs, heads := u.heads }) ∧
  (∀ (h : Head) (p0 p1 : Bool) (t : Nat) (s : State), s.up = true → s.hasProf h = true → (s.head h).drive.isSome = true →
    shutInputs (s.prof h) p0 p1 = 0 →
    ∃ u, exec (.shutterPositionInput h p0 p1 t) s = .next u ∧ u.get (F.HP_STAT_SHPOS h) = 3 ∧
      SameRegs [R.HP_STAT h] s u ∧ u = { s with dt := max s.dt t, regs := u.regs, heads := u.heads }) ∧
  (∀ (h : Head) (t : Nat) (d : Drive) (s : State), (s.head h).drive = some d → d.pulseDone = true → d.deadline ≤ t →
    s.shutRunning h = false → (s.head h).supOffAfterClose = false →
    ∃ u, exec (.shutterPosTimeout h t) s = .next u ∧ u.get (F.HP_FLT_SHUT_POS h) = 1 ∧ u.get (F.HP_STAT_SHPOS h) = 0 ∧
      (u.head h).drive = none ∧ (d.close = false → (u.head h).openLate = true) ∧ Reported (20 + h) .ce s u ∧
      SameRegs [R.HP_FLT h, R.HP_STAT h, R.CX_SSTAT h] s u ∧
      u = { s with dt := max s.dt t, regs := u.regs, heads := u.heads, inbox := u.inbox }) ∧
  (∀ (h : Head) (t : Nat) (d : Drive) (s : State), (s.head h).drive = some d → d.pulseDone = true → d.deadline ≤ t →
    s.shutRunning h = true → d.close = true →
    ∃ u, exec (.shutterPosTimeout h t) s = .next u ∧ u.get (F.HP_FLT_SHUT_POS h) = 1 ∧ u.get (F.HP_STAT_SHPOS h) = 0 ∧
      u.get (F.CX_SSTAT_RESULT h) = 7 ∧ (u.shut h).active = false ∧ SameMem s u ∧ u.mode = s.mode ∧
      u = { s with regs := u.regs, dt := u.dt, inbox := u.inbox, heads := u.heads, shutters := u.shutters, ring := u.ring, nv := u.nv, cmdDone := u.cmdDone, churnRun := u.churnRun, churnQueue := u.churnQueue }) ∧
  (∀ (h : Head) (s : State), ((s.head h).drive.isSome || (s.head h).bridge == .hold) = true → s.shutRunning h = false →
    (s.head h).supOffAfterClose = false →
    ∃ t, exec (.shutterCoilOpen h) s = .next t ∧ t.get (F.HP_FLT_SHUT_OPEN h) = 1 ∧ t.get (F.HP_STAT_SHPOS h) = (if s.shutSeen h = 3 then 0 else s.shutSeen h) ∧
      (t.head h).bridge = .idle ∧ (t.head h).drive = none ∧ (t.head h).driveWait = none ∧ Reported (20 + h) .uc s t ∧
      SameRegs [R.HP_FLT h, R.HP_STAT h, R.CX_SSTAT h] s t ∧
      t = { s with regs := t.regs, heads := t.heads, inbox := t.inbox }) ∧
  (∀ (h : Head) (s : State), ((s.head h).drive.isSome || (s.head h).bridge == .hold) = true → s.shutRunning h = false →
    (s.head h).supOffAfterClose = false →
    ∃ t, exec (.shutterCoilShort h) s = .next t ∧ t.get (F.HP_FLT_SHUT_SHORT h) = 1 ∧ t.get (F.HP_STAT_SHPOS h) = (if s.shutSeen h = 3 then 0 else s.shutSeen h) ∧
      (t.head h).bridge = .idle ∧ (t.head h).drive = none ∧ (t.head h).driveWait = none ∧ Reported (20 + h) .uc s t ∧
      SameRegs [R.HP_FLT h, R.HP_STAT h, R.CX_SSTAT h] s t ∧
      t = { s with regs := t.regs, heads := t.heads, inbox := t.inbox })

/-- GO on an idle port starts a transfer of LEN bits and sets BUSY; on a busy one it answers BUSY's result and a CE; with no
port it answers NO_PORT, with a length of no chain CHAIN, with LEN 0 it ends at once with OK. A whole transfer leaves the
received bits in RXBUF, their count in RXCOUNT, BUSY clear and OK, 2 with extra strobes, or 3 with a bad prefix, each with a
CE; a short one and ABORT end it too, where no transaction waits for the port (log entry 80: the bits of an aborted one are
free). GP_SET and GP_CLR set and clear the bits written as 1 and no other. Rules: R65, R67. -/
def Obligations.HeadControlPortAndPins : Prop :=
  (∀ (h : Head) (s : State), s.access (R.HCP_CMD h) = true → (s.head h).hcp = none → s.flag (F.HCP_STAT_OWNER h) = false →
    s.hcpReady h = true → s.get (F.HCP_LEN_LEN h) ≠ 0 →
    ((s.prof h).hcpChains = 0 ∨ s.get (F.HCP_LEN_LEN h) ∈ (s.prof h).chainLen) →
    ∃ t, exec (.hcpGo h) s = .next t ∧ t.get (F.HCP_STAT_BUSY h) = 1 ∧
      (∃ x, (t.head h).hcp = some x ∧ x.len = s.get (F.HCP_LEN_LEN h) ∧ x.tx = s.hcpTx h x.len) ∧
      SameRegs [R.HCP_STAT h] s t ∧ t = { s with regs := t.regs, heads := t.heads }) ∧
  (∀ (h : Head) (s : State), s.access (R.HCP_CMD h) = true → (s.head h).hcp = none → s.flag (F.HCP_STAT_OWNER h) = false →
    s.hcpReady h = false →
    ∃ t, exec (.hcpGo h) s = .next t ∧ t.get (F.HCP_STAT_ERR h) = 7 ∧ t.get (F.HCP_STAT_RXCOUNT h) = 0 ∧
      t.get (F.HP_FLT_HCP_ERR h) = 1 ∧ Reported (20 + h) .ce s t ∧ SameRegs [R.HCP_STAT h, R.HP_FLT h] s t ∧
      t = { s with regs := t.regs, inbox := t.inbox }) ∧
  (∀ (h : Head) (s : State), s.access (R.HCP_CMD h) = true → (s.head h).hcp = none → s.flag (F.HCP_STAT_OWNER h) = false →
    s.hcpReady h = true → s.get (F.HCP_LEN_LEN h) = 0 →
    ∃ t, exec (.hcpGo h) s = .next t ∧ t.get (F.HCP_STAT_ERR h) = 0 ∧ t.get (F.HCP_STAT_RXCOUNT h) = 0 ∧
      SameRegs [R.HCP_STAT h] s t ∧ OnlyRegs s t) ∧
  (∀ (h : Head) (s : State), s.access (R.HCP_CMD h) = true → (s.head h).hcp = none → s.flag (F.HCP_STAT_OWNER h) = false →
    s.hcpReady h = true → s.get (F.HCP_LEN_LEN h) ≠ 0 → (s.prof h).hcpChains ≠ 0 →
    s.get (F.HCP_LEN_LEN h) ∉ (s.prof h).chainLen →
    ∃ t, exec (.hcpGo h) s = .next t ∧ t.get (F.HCP_STAT_ERR h) = 4 ∧ t.get (F.HP_FLT_HCP_ERR h) = 1 ∧
      Reported (20 + h) .ce s t ∧ SameRegs [R.HCP_STAT h, R.HP_FLT h] s t ∧
      t = { s with regs := t.regs, inbox := t.inbox }) ∧
  (∀ (h : Head) (s : State), s.access (R.HCP_CMD h) = true → ((s.head h).hcp.isSome || s.flag (F.HCP_STAT_OWNER h)) = true →
    ∃ t, exec (.hcpGo h) s = .next t ∧ t.get (F.HCP_STAT_ERR h) = 6 ∧ t.get (F.HP_FLT_HCP_ERR h) = 1 ∧
      (t.head h).hcp = (s.head h).hcp ∧ Reported (20 + h) .ce s t ∧ SameRegs [R.HCP_STAT h, R.HP_FLT h] s t ∧
      t = { s with regs := t.regs, inbox := t.inbox }) ∧
  (∀ (h : Head) (x : HcpXfer) (s : State), s.access (R.HCP_CMD h) = true → (s.head h).hcp = some x →
    (s.head h).hcpOwner = 0 → s.txnNext h = none →
    ∃ t, exec (.hcpAbort h) s = .next t ∧ (t.head h).hcp = none ∧ t.get (F.HCP_STAT_BUSY h) = 0 ∧ t.get (F.HCP_STAT_ERR h) = 5 ∧
      t.get (F.HP_FLT_HCP_ERR h) = 1 ∧ Reported (20 + h) .ce s t ∧ SameMem s t ∧ t.mode = s.mode ∧ t.dt = s.dt ∧
      t = { s with regs := t.regs, dt := t.dt, freeCnt := t.freeCnt, inbox := t.inbox, heads := t.heads, shutters := t.shutters, ring := t.ring, cmdDone := t.cmdDone, churnRun := t.churnRun, churnQueue := t.churnQueue, mirCopies := t.mirCopies, csi := t.csi, alarms := t.alarms, txns := t.txns, txnQ := t.txnQ }) ∧
  (∀ (h : Head) (rx : List Bool) (extra : Bool) (x : HcpXfer) (s : State), (s.head h).hcp = some x → rx.length = x.len →
    x.len < 65536 → x.owned = false → (s.head h).hcpOwner = 0 → s.txnNext h = none →
    ∃ t, exec (.hcpTransferDone h rx extra) s = .next t ∧ (t.head h).hcp = none ∧ t.get (F.HCP_STAT_BUSY h) = 0 ∧
      t.get (F.HCP_STAT_ERR h) = (if extra then 2 else if s.prefixBad h rx then 3 else 0) ∧ t.get (F.HCP_STAT_RXCOUNT h) = x.len ∧
      (extra = false → s.prefixBad h rx = false → t.inbox = s.inbox ∧ t.reg (R.HP_FLT h) = s.reg (R.HP_FLT h)) ∧
      (extra || s.prefixBad h rx = true → Reported (20 + h) .ce s t ∧ t.get (F.HP_FLT_HCP_ERR h) = 1) ∧
      SameRegs (R.HCP_STAT h :: R.HP_FLT h :: (List.range (ceilDiv x.len 32)).map (R.HCP_RXBUF h)) s t ∧
      t = { s with regs := t.regs, heads := t.heads, inbox := t.inbox }) ∧
  (∀ (h : Head) (rx : List Bool) (x : HcpXfer) (s : State), (s.head h).hcp = some x → rx.length < x.len → x.len < 65536 →
    (s.head h).hcpOwner = 0 → s.txnNext h = none →
    ∃ t, exec (.strobeShort h rx) s = .next t ∧ (t.head h).hcp = none ∧ t.get (F.HCP_STAT_BUSY h) = 0 ∧
      t.get (F.HCP_STAT_ERR h) = 1 ∧ t.get (F.HCP_STAT_RXCOUNT h) = rx.length ∧ t.get (F.HP_FLT_HCP_ERR h) = 1 ∧
      Reported (20 + h) .ce s t ∧
      SameRegs (R.HCP_STAT h :: R.HP_FLT h :: (List.range (ceilDiv rx.length 32)).map (R.HCP_RXBUF h)) s t ∧
      t = { s with regs := t.regs, heads := t.heads, inbox := t.inbox }) ∧
  (∀ (i : Fin 2) (v : Word) (s : State), s.access (R.GP_SET i) = true →
    ∃ t, exec (.gpSetWrite i v) s = .next t ∧ t.reg (R.GP_OUT i) = s.reg (R.GP_OUT i) ||| v ∧ SameRegs [R.GP_OUT i] s t ∧
      OnlyRegs s t) ∧
  (∀ (i : Fin 2) (v : Word) (s : State), s.access (R.GP_CLR i) = true →
    ∃ t, exec (.gpClrWrite i v) s = .next t ∧ t.reg (R.GP_OUT i) = s.reg (R.GP_OUT i) &&& ~~~v ∧ SameRegs [R.GP_OUT i] s t ∧
      OnlyRegs s t)

/-- When the last line of a capture is in, vertical blanking begins at the instant given, and with the open-tap test on and the
port enabled in RUN the test is made in a long enough blanking or its skip is counted. A tap whose code moves by more than
160 is flagged open at once with a UC; a tap that does not move counts a pass, and the second pass clears the flag. Rules:
R71, R108. -/
def Obligations.BlankingTestsFlagTaps : Prop :=
  (∀ (h : Head) (t : Nat) (c : Cap) (s : State), (s.head h).cap = some c → c.lines ≤ c.placed →
    (if (s.prof h).headTimed = true then c.closed else decide ((s.prof h).l ≤ c.lines)) = true →
    (s.head h).blankFrom = none →
    ∃ u, exec (.vblankStart h t) s = .next u ∧ (u.head h).blankFrom = some t ∧
      ((u.head h).cap.map fun x => x.closed) = some true ∧
      (u.head h).openTest = ((s.flag (F.HP_CTRL_OPENTEST_EN h) && s.flag (F.HP_CTRL_PORT_EN h) && s.inRun && decide (40000 ≤ s.blankNs h)) ||
        (s.head h).openTest) ∧ SameMem s u ∧ u.mode = s.mode ∧ u.dt = max s.dt t ∧
      u = { s with regs := u.regs, dt := u.dt, freeCnt := u.freeCnt, inbox := u.inbox, heads := u.heads, shutters := u.shutters, ring := u.ring, cmdDone := u.cmdDone, churnRun := u.churnRun, churnQueue := u.churnQueue, mirCopies := u.mirCopies, csi := u.csi, alarms := u.alarms, txns := u.txns, txnQ := u.txnQ, frames := u.frames }) ∧
  (∀ (h : Head) (t : Nat) (c : Cap) (s : State), (s.head h).cap = some c → c.lines ≤ c.placed →
    (if (s.prof h).headTimed = true then c.closed else decide ((s.prof h).l ≤ c.lines)) = true →
    (s.head h).blankFrom = none → s.flag (F.HP_CTRL_SHORTTEST_EN h) = false → s.flag (F.CL_HCFG_POLDET_EN h) = false →
    s.flag (F.HP_CTRL_OPENTEST_EN h) = true → s.flag (F.HP_CTRL_PORT_EN h) = true → s.inRun = true → s.txnsOn h = [] → s.blankNs h < 40000 →
    ∃ u, exec (.vblankStart h t) s = .next u ∧ (u.head h).blankFrom = some t ∧ (u.head h).openTest = (s.head h).openTest ∧
      u.get (F.HP_STAT_OTSKIP h) = min (s.get (F.HP_STAT_OTSKIP h) + 1) (2 ^ (F.HP_STAT_OTSKIP h).w - 1) ∧
      SameRegs [R.HP_STAT h, R.HP_TCNT0 h] s u ∧ SameMem s u ∧ u.mode = s.mode ∧ u.dt = max s.dt t ∧ u.inbox = s.inbox ∧
      u = { s with regs := u.regs, dt := u.dt, freeCnt := u.freeCnt, inbox := u.inbox, heads := u.heads, shutters := u.shutters, ring := u.ring, cmdDone := u.cmdDone, churnRun := u.churnRun, churnQueue := u.churnQueue, mirCopies := u.mirCopies, csi := u.csi, alarms := u.alarms, txns := u.txns, txnQ := u.txnQ, frames := u.frames }) ∧
  (∀ (h : Head) (t : Nat) (c : Cap) (s : State), (s.head h).cap = some c → c.lines ≤ c.placed →
    (if (s.prof h).headTimed = true then c.closed else decide ((s.prof h).l ≤ c.lines)) = true →
    (s.head h).blankFrom = none → s.flag (F.HP_CTRL_SHORTTEST_EN h) = false → s.flag (F.CL_HCFG_POLDET_EN h) = false →
    s.flag (F.HP_CTRL_OPENTEST_EN h) = true → s.flag (F.HP_CTRL_PORT_EN h) = true → s.inRun = true → s.txnsOn h = [] → 40000 ≤ s.blankNs h →
    ∃ u, exec (.vblankStart h t) s = .next u ∧ (u.head h).blankFrom = some t ∧ (u.head h).openTest = true ∧
      SameRegs [R.HP_TCNT0 h] s u ∧ u = { s with dt := max s.dt t, regs := u.regs, heads := u.heads, frames := u.frames }) ∧
  (∀ (h : Head) (l : List Nat) (s : State), (s.head h).openTest = true → (s.prof h).taps ≤ 16 → (s.head h).openPass.length = 16 →
    ∃ t, exec (.tapOpenTestDone h l) s = .next t ∧ (t.head h).openTest = false ∧
      ((List.range (s.prof h).taps).all fun n => bit (t.get (F.HP_TAPFLT_OPEN h)) n ==
        (decide (160 < l.getD n 0) || bit (s.get (F.HP_TAPFLT_OPEN h)) n && tapAt (s.head h).openPass n == 0)) = true ∧
      SameRegs [R.HP_TAPFLT h, R.HP_FLT h] s t ∧ t = { s with regs := t.regs, heads := t.heads, inbox := t.inbox }) ∧
  (∀ (h : Head) (m : Nat) (s : State), (s.head h).openTest = true → (s.prof h).taps = 1 → s.get (F.HP_TAPFLT_OPEN h) = 0 → 160 < m →
    ∃ t, exec (.tapOpenTestDone h [m]) s = .next t ∧ t.get (F.HP_TAPFLT_OPEN h) = 1 ∧ t.get (F.HP_FLT_TAP h) = 1 ∧
      (t.head h).openTest = false ∧ Reported (20 + h) .uc s t ∧ SameRegs [R.HP_TAPFLT h, R.HP_FLT h] s t ∧
      t = { s with regs := t.regs, heads := t.heads, inbox := t.inbox }) ∧
  (∀ (h : Head) (m : Nat) (s : State), (s.head h).openTest = true → (s.prof h).taps = 1 → s.get (F.HP_TAPFLT_OPEN h) = 1 → m ≤ 160 →
    tapAt (s.head h).openPass 0 = 1 →
    ∃ t, exec (.tapOpenTestDone h [m]) s = .next t ∧ t.get (F.HP_TAPFLT_OPEN h) = 0 ∧ (t.head h).openTest = false ∧
      SameRegs [R.HP_TAPFLT h] s t ∧ t = { s with regs := t.regs, heads := t.heads })

/-- Outside SETUP a write of TC_CFG, TC_GAINn, TC_SCLK or TC_REFCFG changes only DIRECT_REFUSED (a bank's register: in both
heads' TC_STAT, log entry 21). In SETUP a gain that the rules allow is stored and the effective gain follows; one they
forbid sets VALUE_REJ. TC_SCLK takes 0 or 1,000 to 10,000 and clears SCLK_LOCK and SCLK_FALLBACK until the synthesiser
locks; another value sets VALUE_REJ. TC_REFCFG, which a running calibration also refuses, takes the sources 0 to 2, clears
REFOK and REF_FALLBACK and settles for the source's time. The converters' gain and filter change before a transaction's
switch changes no register. Rules: R83, R85, R86, R89. -/
def Obligations.ConverterAndClockWrites : Prop :=
  (∀ (h : Head) (v : Word) (s : State), s.access (R.TC_CFG h) = true → s.mode ≠ .setup →
    ∃ t, exec (.tcCfgWrite h v) s = .next t ∧ t.get (F.TC_STAT_DIRECT_REFUSED h) = 1 ∧ SameRegs [R.TC_STAT h] s t ∧ OnlyRegs s t) ∧
  (∀ (h : Head) (v : Word) (s : State), s.access (R.TC_CFG h) = true → s.mode = .setup →
    s.gainsOk h (s.get (F.TC_GAIN0_G h)) (s.get (F.TC_GAIN1_G h)) (v.toNat / 4 % 4) = true →
    ∃ t, exec (.tcCfgWrite h v) s = .next t ∧
      t.reg (R.TC_CFG h) = (s.reg (R.TC_CFG h) &&& 0xFFFFFFE0) ||| (v &&& 0x1F) ∧
      SameRegs [R.TC_CFG h, R.TC_GEFF1 h] s t ∧ t = { s with regs := t.regs, heads := t.heads }) ∧
  (∀ (h : Head) (v : Word) (s : State), s.access (R.TC_CFG h) = true → s.mode = .setup →
    s.gainsOk h (s.get (F.TC_GAIN0_G h)) (s.get (F.TC_GAIN1_G h)) (v.toNat / 4 % 4) = false →
    ∃ t, exec (.tcCfgWrite h v) s = .next t ∧ t.get (F.TC_STAT_VALUE_REJ h) = 1 ∧ SameRegs [R.TC_STAT h] s t ∧ OnlyRegs s t) ∧
  (∀ (h : Head) (i : Fin 2) (v : Word) (s : State), s.access (R.TC_GAIN0 h) = true → s.mode ≠ .setup →
    ∃ t, exec (.tcGainWrite h i v) s = .next t ∧ t.get (F.TC_STAT_DIRECT_REFUSED h) = 1 ∧ SameRegs [R.TC_STAT h] s t ∧
      OnlyRegs s t) ∧
  (∀ (h : Head) (i : Fin 2) (v : Word) (s : State), s.access (R.TC_GAIN0 h) = true → s.mode = .setup →
    s.gainsOk h (if i = 0 then v.toNat else s.get (F.TC_GAIN0_G h)) (if i = 0 then s.get (F.TC_GAIN1_G h) else v.toNat)
      (s.get (F.TC_CFG_RATIO h)) = true →
    ∃ t, exec (.tcGainWrite h i v) s = .next t ∧
      t.get (F.TC_GAIN0_G h) = (if i = 0 then v.toNat else s.get (F.TC_GAIN0_G h)) ∧
      t.get (F.TC_GAIN1_G h) = (if i = 0 then s.get (F.TC_GAIN1_G h) else v.toNat) ∧
      SameRegs [R.TC_GAIN0 h, R.TC_GAIN1 h, R.TC_GEFF1 h] s t ∧ t = { s with regs := t.regs, heads := t.heads }) ∧
  (∀ (h : Head) (i : Fin 2) (v : Word) (s : State), s.access (R.TC_GAIN0 h) = true → s.mode = .setup →
    s.gainsOk h (if i = 0 then v.toNat else s.get (F.TC_GAIN0_G h)) (if i = 0 then s.get (F.TC_GAIN1_G h) else v.toNat)
      (s.get (F.TC_CFG_RATIO h)) = false →
    ∃ t, exec (.tcGainWrite h i v) s = .next t ∧ t.get (F.TC_STAT_VALUE_REJ h) = 1 ∧ SameRegs [R.TC_STAT h] s t ∧ OnlyRegs s t) ∧
  (∀ (h : Head) (t n : Nat) (s : State), s.pgaTxn h = some n →
    (((s.txn n).device h).filter fun e => e.addr == R.TC_CFG h || e.addr == R.TC_GAIN0 h || e.addr == R.TC_GAIN1 h) ≠ [] →
    ((s.txn n).heads.all fun x => x.done) = true → (s.head h).blankFrom.isSome = true → (s.head h).pgaDone = false →
    ∃ u, exec (.pgaFilterChange h t) s = .next u ∧ (u.head h).pgaDone = true ∧
      u = { s with dt := max s.dt t, heads := u.heads }) ∧
  (∀ (r : Region) (v : Word) (s : State), s.access (R.TC_SCLK r) = true → s.mode = .setup →
    (v.toNat % 16384 = 0 ∨ 1000 ≤ v.toNat % 16384 ∧ v.toNat % 16384 ≤ 10000) →
    ∃ t, exec (.tcSclkWrite r v) s = .next t ∧ t.get (F.TC_SCLK_FREQ r) = v.toNat % 16384 ∧
      t.get (F.TC_SCLK_SRC r) = v.toNat / 65536 % 2 ∧ t.get (F.TC_STAT_SCLK_LOCK (2 * r)) = 0 ∧
      t.get (F.TC_STAT_SCLK_LOCK (2 * r + 1)) = 0 ∧ (t.bank r).lockWait = (v.toNat % 16384 != 0) ∧
      SameRegs [R.TC_SCLK r, R.TC_STAT (2 * r), R.TC_STAT (2 * r + 1), R.HP_TSTAT (2 * r), R.HP_TSTAT (2 * r + 1)] s t ∧
      t = { s with regs := t.regs, banks := t.banks }) ∧
  (∀ (r : Region) (v : Word) (s : State), s.access (R.TC_SCLK r) = true → s.mode = .setup →
    v.toNat % 16384 ≠ 0 → (v.toNat % 16384 < 1000 ∨ 10000 < v.toNat % 16384) →
    ∃ t, exec (.tcSclkWrite r v) s = .next t ∧ t.get (F.TC_STAT_VALUE_REJ (2 * r)) = 1 ∧
      t.get (F.TC_STAT_VALUE_REJ (2 * r + 1)) = 1 ∧ SameRegs [R.TC_STAT (2 * r), R.TC_STAT (2 * r + 1)] s t ∧ OnlyRegs s t) ∧
  (∀ (r : Region) (v : Word) (s : State), s.access (R.TC_SCLK r) = true → s.mode ≠ .setup →
    ∃ t, exec (.tcSclkWrite r v) s = .next t ∧ t.get (F.TC_STAT_DIRECT_REFUSED (2 * r)) = 1 ∧
      t.get (F.TC_STAT_DIRECT_REFUSED (2 * r + 1)) = 1 ∧ SameRegs [R.TC_STAT (2 * r), R.TC_STAT (2 * r + 1)] s t ∧ OnlyRegs s t) ∧
  (∀ (r : Region) (v : Word) (s : State), s.access (R.TC_REFCFG r) = true → s.mode = .setup →
    s.bankFlag r F.TC_STAT_CALBUSY = false → v.toNat % 4 = 3 →
    ∃ t, exec (.tcRefcfgWrite r v) s = .next t ∧ t.get (F.TC_STAT_VALUE_REJ (2 * r)) = 1 ∧
      t.get (F.TC_STAT_VALUE_REJ (2 * r + 1)) = 1 ∧ SameRegs [R.TC_STAT (2 * r), R.TC_STAT (2 * r + 1)] s t ∧ OnlyRegs s t) ∧
  (∀ (r : Region) (v : Word) (s : State), s.access (R.TC_REFCFG r) = true → s.mode = .setup →
    s.bankFlag r F.TC_STAT_CALBUSY = false → v.toNat % 4 ≠ 3 →
    ∃ t, exec (.tcRefcfgWrite r v) s = .next t ∧ t.get (F.TC_REFCFG_SRC r) = v.toNat % 4 ∧
      t.get (F.TC_STAT_REFOK (2 * r)) = 0 ∧ t.get (F.TC_STAT_REFOK (2 * r + 1)) = 0 ∧
      t.get (F.TC_STAT_REF_FALLBACK (2 * r)) = 0 ∧
      (t.bank r).refDue = some (s.dt + (if v.toNat % 4 = 0 then 2000000 else 200000)) ∧
      SameRegs [R.TC_REFCFG r, R.TC_STAT (2 * r), R.TC_STAT (2 * r + 1)] s t ∧ t = { s with regs := t.regs, banks := t.banks }) ∧
  (∀ (r : Region) (v : Word) (s : State), s.access (R.TC_REFCFG r) = true →
    (s.mode ≠ .setup ∨ s.bankFlag r F.TC_STAT_CALBUSY = true) →
    ∃ t, exec (.tcRefcfgWrite r v) s = .next t ∧ t.get (F.TC_STAT_DIRECT_REFUSED (2 * r)) = 1 ∧
      t.get (F.TC_STAT_DIRECT_REFUSED (2 * r + 1)) = 1 ∧ SameRegs [R.TC_STAT (2 * r), R.TC_STAT (2 * r + 1)] s t ∧ OnlyRegs s t)

/-- A synthesiser that waits for lock sets SCLK_LOCK in both heads of its region. Its loss clears SCLK_LOCK in both, waits for
lock again, and in RUN and THROTTLED raises a UC under source 53. With SRC 1, loss of the ring clock sets SCLK_FALLBACK and
raises a CE under source 50, and the lock stays. REFOK sets once the reference has settled. An external reference out of
range sets REF_FALLBACK, clears REFOK for 50 µs, aborts a running calibration, degrades the region's frames not yet reported
and raises a UC under source 16 + r. Rules: R86, R87, R88, R89, R90. -/
def Obligations.SampleClockAndReferenceEvents : Prop :=
  (∀ (r : Region) (s : State), s.up = true → s.refStopped = false → (s.bank r).lockWait = true →
    ∃ t, exec (.sclkLocked r) s = .next t ∧ t.get (F.TC_STAT_SCLK_LOCK (2 * r)) = 1 ∧ t.get (F.TC_STAT_SCLK_LOCK (2 * r + 1)) = 1 ∧
      (t.bank r).lockWait = false ∧ SameRegs [R.TC_STAT (2 * r), R.TC_STAT (2 * r + 1)] s t ∧
      t = { s with regs := t.regs, banks := t.banks }) ∧
  (∀ (r : Region) (s : State), s.bankFlag r F.TC_STAT_SCLK_LOCK = true → s.inRun = true →
    ∃ t, exec (.sclkLockLost r) s = .next t ∧ t.get (F.TC_STAT_SCLK_LOCK (2 * r)) = 0 ∧ t.get (F.TC_STAT_SCLK_LOCK (2 * r + 1)) = 0 ∧
      (t.bank r).lockWait = true ∧ Reported 53 .uc s t ∧ SameRegs [R.TC_STAT (2 * r), R.TC_STAT (2 * r + 1)] s t ∧
      t = { s with regs := t.regs, banks := t.banks, inbox := t.inbox }) ∧
  (∀ (r : Region) (s : State), s.bankFlag r F.TC_STAT_SCLK_LOCK = true → s.mode = .setup →
    ∃ t, exec (.sclkLockLost r) s = .next t ∧ t.get (F.TC_STAT_SCLK_LOCK (2 * r)) = 0 ∧
      t = { s with regs := t.regs, banks := t.banks }) ∧
  (∀ (r : Region) (s : State), s.up = true → s.flag (F.TC_SCLK_SRC r) = true → s.bankFlag r F.TC_STAT_SCLK_FALLBACK = false →
    ∃ t, exec (.sclkFallback r) s = .next t ∧ t.get (F.TC_STAT_SCLK_FALLBACK (2 * r)) = 1 ∧
      t.get (F.TC_STAT_SCLK_FALLBACK (2 * r + 1)) = 1 ∧ Reported 50 .ce s t ∧
      t.get (F.TC_STAT_SCLK_LOCK (2 * r)) = s.get (F.TC_STAT_SCLK_LOCK (2 * r)) ∧
      SameRegs [R.TC_STAT (2 * r), R.TC_STAT (2 * r + 1)] s t ∧ t = { s with regs := t.regs, inbox := t.inbox }) ∧
  (∀ (r : Region) (t d : Nat) (s : State), s.up = true → (s.bank r).refDue = some d → d ≤ t →
    ∃ u, exec (.refokSet r t) s = .next u ∧ u.get (F.TC_STAT_REFOK (2 * r)) = 1 ∧ u.get (F.TC_STAT_REFOK (2 * r + 1)) = 1 ∧
      (u.bank r).refDue = none ∧ SameRegs [R.TC_STAT (2 * r), R.TC_STAT (2 * r + 1)] s u ∧
      u = { s with dt := max s.dt t, regs := u.regs, banks := u.banks }) ∧
  (∀ (r : Region) (s : State), s.up = true → s.mode ≠ .dormant → s.get (F.TC_REFCFG_SRC r) = 1 →
    s.bankFlag r F.TC_STAT_REF_FALLBACK = false →
    ∃ t, exec (.refFallback r) s = .next t ∧ t.get (F.TC_STAT_REF_FALLBACK (2 * r)) = 1 ∧ t.get (F.TC_STAT_REFOK (2 * r)) = 0 ∧
      (t.bank r).refDue = some (s.dt + 50000) ∧ Reported (16 + r) .uc s t ∧ (t.bank r).cal = .idle ∧
      (s.bankFlag r F.TC_STAT_CALBUSY = true → (s.bank r).cal ≠ .idle → t.get (F.TC_STAT_CALRESULT (2 * r)) = 5 ∧
        t.get (F.TC_STAT_CALBUSY (2 * r)) = 0) ∧
      (∀ f ∈ t.frames, regionOf f.head = r.val → f.reported = false → f.degraded = true) ∧ t.mode = s.mode ∧
      t = { s with regs := t.regs, freeCnt := t.freeCnt, dram := t.dram, inbox := t.inbox, heads := t.heads, banks := t.banks, shutters := t.shutters, churnRun := t.churnRun, churnQueue := t.churnQueue, pairVer := t.pairVer, rings := t.rings, frames := t.frames }) ∧
  (∀ (r : Region) (s : State), s.up = true → s.mode ≠ .dormant → s.get (F.TC_REFCFG_SRC r) = 1 →
    s.bankFlag r F.TC_STAT_REF_FALLBACK = false → (s.bank r).cal = .idle →
    (s.head (2 * r)).cap = none → (s.head (2 * r + 1)).cap = none →
    ∃ t, exec (.refFallback r) s = .next t ∧ SameRegs [R.TC_STAT (2 * r), R.TC_STAT (2 * r + 1)] s t ∧
      t = { s with regs := t.regs, banks := t.banks, inbox := t.inbox, frames := t.frames })

/-- SELFCAL in SETUP, and in RUN when the churn budget grants it, orders a calibration and sets CALBUSY in both heads; it waits
in the Churn's queue otherwise, does nothing while CALBUSY, and the other modes refuse it. With REFOK the waiting
calibration starts at once outside RUN, in RUN at a frame start of the region's lowest streaming head, and clears the
rejections. A first pass that has lasted 19 ms is followed by the second, and the second by the checks. When every converter
passes its range and agreement checks the calibration ends with CALRESULT OK, the means are the new factors, CALBUSY clears
and CALOK counts; with one rejected it ends with CELL_REJECT and a CE; with every converter in use rejected it FAILS and
counts. A blind-column measurement within range moves each word by at most 4; one out of range is discarded with a CE; one
the Churn has not granted changes nothing, and a head whose trim has ceased leaves the Churn. (A start in RUN with no head
streaming is the model's: log entry 151.) Rules: R94, R96, R98, R99, R103. -/
def Obligations.BankCalibrationRuns : Prop :=
  (∀ (r : Region) (s : State), s.access (R.TC_CMD r) = true → s.bankFlag r F.TC_STAT_CALBUSY = false → s.mode = .setup →
    ∃ t, exec (.selfcal r) s = .next t ∧ t.get (F.TC_STAT_CALBUSY (2 * r)) = 1 ∧ t.get (F.TC_STAT_CALBUSY (2 * r + 1)) = 1 ∧
      (t.bank r).cal = .waiting ∧ (t.bank r).repeats = 0 ∧ SameRegs [R.TC_STAT (2 * r), R.TC_STAT (2 * r + 1)] s t ∧
      t = { s with regs := t.regs, banks := t.banks }) ∧
  (∀ (r : Region) (s : State), s.access (R.TC_CMD r) = true → s.bankFlag r F.TC_STAT_CALBUSY = false → s.inRun = true →
    (s.churnAsk .m2 r true s.dt).1 = .granted →
    ∃ t, exec (.selfcal r) s = .next t ∧ t.get (F.TC_STAT_CALBUSY (2 * r)) = 1 ∧ t.get (F.TC_STAT_CALBUSY (2 * r + 1)) = 1 ∧
      (t.bank r).cal = .waiting ∧ SameMem s t ∧ t.mode = s.mode ∧ t.inbox = s.inbox ∧
      t = { s with regs := t.regs, banks := t.banks, churnRun := t.churnRun, churnQueue := t.churnQueue }) ∧
  (∀ (r : Region) (s : State), s.access (R.TC_CMD r) = true → s.bankFlag r F.TC_STAT_CALBUSY = false → s.inRun = true →
    (s.churnAsk .m2 r true s.dt).1 ≠ .granted →
    ∃ t, exec (.selfcal r) s = .next t ∧ t = (s.churnAsk .m2 r true s.dt).2 ∧ (t.bank r).cal = (s.bank r).cal ∧
      SameRegs [R.MC_STAT, R.MC_CNT] s t ∧ (t.churnQueue ++ t.churnRun).any (fun j => j.act == .m2 && j.res == r.val) = true) ∧
  (∀ (r : Region) (s : State), s.bankFlag r F.TC_STAT_CALBUSY = true → ∃ t, exec (.selfcal r) s = .next t ∧ t = s) ∧
  (∀ (r : Region) (s : State), s.access (R.TC_CMD r) = true → s.bankFlag r F.TC_STAT_CALBUSY = false → s.inRun = false →
    s.mode ≠ .setup →
    ∃ t, exec (.selfcal r) s = .next t ∧ t.get (F.TC_STAT_DIRECT_REFUSED (2 * r)) = 1 ∧
      SameRegs [R.TC_STAT (2 * r), R.TC_STAT (2 * r + 1)] s t ∧ OnlyRegs s t) ∧
  (∀ (r : Region) (t : Nat) (s : State), (s.bank r).cal = .waiting → s.bankFlag r F.TC_STAT_REFOK = true →
    (s.inRun = true → s.streams (2 * r) = true → (s.head (2 * r)).lastStart = some t) →
    (s.inRun = true → s.streams (2 * r) = false → s.streams (2 * r + 1) = true → (s.head (2 * r + 1)).lastStart = some t) →
    ∃ u, exec (.bankCalStart r t) s = .next u ∧ (u.bank r).cal = .passA ∧ (u.bank r).passStart = t ∧
      u.reg (R.TC_CELLREJ r) = 0 ∧ SameMem s u ∧ u.mode = s.mode ∧ u.dt = max s.dt t ∧ u.inbox = s.inbox ∧
      u = { s with regs := u.regs, dt := u.dt, freeCnt := u.freeCnt, banks := u.banks, pairVer := u.pairVer, bufs := u.bufs, frames := u.frames, quires := u.quires }) ∧
  (∀ (r : Region) (t : Nat) (s : State), (s.bank r).cal = .waiting → s.bankFlag r F.TC_STAT_REFOK = true → s.inRun = false →
    (s.head (2 * r)).cap = none → (s.head (2 * r + 1)).cap = none →
    ∃ u, exec (.bankCalStart r t) s = .next u ∧ SameRegs [R.TC_CELLREJ r] s u ∧
      u = { s with dt := max s.dt t, regs := u.regs, banks := u.banks }) ∧
  (∀ (r : Region) (factors : List (List Int)) (t : Nat) (s : State), (s.bank r).cal = .passA → (s.bank r).passStart + 19000000 ≤ t →
    ∃ u, exec (.calPassDone r factors t) s = .next u ∧ (u.bank r).cal = .passB ∧ (u.bank r).passA = factors ∧
      (u.bank r).passStart = t ∧ u = { s with dt := max s.dt t, banks := u.banks }) ∧
  (∀ (r : Region) (factors : List (List Int)) (t : Nat) (s : State), (s.bank r).cal = .passB → (s.bank r).passStart + 19000000 ≤ t →
    ∃ u, exec (.calPassDone r factors t) s = .next u ∧ (u.bank r).cal = .checks ∧ (u.bank r).passB = factors ∧
      (u.bank r).passA = (s.bank r).passA ∧ u = { s with dt := max s.dt t, banks := u.banks }) ∧
  (∀ (r : Region) (t : Nat) (s : State), (s.bank r).cal = .checks →
    ((List.range 32).all fun c => factorsOk ((s.bank r).passA.getD c []) && factorsOk ((s.bank r).passB.getD c []) &&
      passesAgree ((s.bank r).passA.getD c []) ((s.bank r).passB.getD c [])) = true →
    ∃ u, exec (.calEnd r t) s = .next u ∧ u.get (F.TC_STAT_CALBUSY (2 * r)) = 0 ∧ u.get (F.TC_STAT_CALBUSY (2 * r + 1)) = 0 ∧
      u.get (F.TC_STAT_CALRESULT (2 * r)) = 1 ∧ (u.bank r).cal = .idle ∧
      u.get (F.TC_CALOK_COUNT r) = min (s.get (F.TC_CALOK_COUNT r) + 1) (2 ^ (F.TC_CALOK_COUNT r).w - 1) ∧
      ((List.range 32).all fun c => (List.range 12).all fun w =>
        u.get (F.TC_FACT_FACTOR (2 * r + c / 16) (16 * (c % 16) + w)) ==
          unsigned 16 (meanWord (((s.bank r).passA.getD c []).getD w 0) (((s.bank r).passB.getD c []).getD w 0))) = true ∧
      u.mode = s.mode ∧ u.inbox = s.inbox ∧
      ((s.head (2 * r)).cap = none → (s.head (2 * r + 1)).cap = none → SameMem s u ∧ u.dt = max s.dt t) ∧
      u = { s with regs := u.regs, dt := u.dt, freeCnt := u.freeCnt, dram := u.dram, inbox := u.inbox, heads := u.heads, banks := u.banks, shutters := u.shutters, nv := u.nv, churnRun := u.churnRun, churnQueue := u.churnQueue, pairVer := u.pairVer, rings := u.rings, frames := u.frames }) ∧
  (∀ (r : Region) (t c : Nat) (s : State), (s.bank r).cal = .checks → c < 32 → s.convUsed r c = true →
    factorsOk ((s.bank r).passA.getD c []) = true → factorsOk ((s.bank r).passB.getD c []) = true →
    ((List.range 32).all fun c => !(factorsOk ((s.bank r).passA.getD c []) && factorsOk ((s.bank r).passB.getD c [])) ||
      passesAgree ((s.bank r).passA.getD c []) ((s.bank r).passB.getD c [])) = true →
    ((List.range 32).any fun c => !(factorsOk ((s.bank r).passA.getD c []) && factorsOk ((s.bank r).passB.getD c []))) = true →
    ∃ u, exec (.calEnd r t) s = .next u ∧ u.get (F.TC_STAT_CALBUSY (2 * r)) = 0 ∧ u.get (F.TC_STAT_CALRESULT (2 * r)) = 2 ∧
      (u.bank r).cal = .idle ∧ ReportedFirst (16 + r) .ce s u ∧
      u.mode = s.mode ∧
      u = { s with regs := u.regs, dt := u.dt, freeCnt := u.freeCnt, dram := u.dram, inbox := u.inbox, heads := u.heads, banks := u.banks, shutters := u.shutters, nv := u.nv, churnRun := u.churnRun, churnQueue := u.churnQueue, pairVer := u.pairVer, rings := u.rings, frames := u.frames }) ∧
  (∀ (r : Region) (t c : Nat) (s : State), (s.bank r).cal = .checks → c < 32 → s.convUsed r c = true →
    ((List.range 32).all fun c => !s.convUsed r c ||
      !(factorsOk ((s.bank r).passA.getD c []) && factorsOk ((s.bank r).passB.getD c []))) = true →
    ∃ u, exec (.calEnd r t) s = .next u ∧ u.get (F.TC_STAT_CALBUSY (2 * r)) = 0 ∧ u.get (F.TC_STAT_CALRESULT (2 * r)) = 3 ∧
      u.get (F.TC_CALFAIL_COUNT r) = min (s.get (F.TC_CALFAIL_COUNT r) + 1) (2 ^ (F.TC_CALFAIL_COUNT r).w - 1) ∧
      u.get (F.TC_CALOK_COUNT r) = s.get (F.TC_CALOK_COUNT r) ∧ (u.bank r).cal = .idle ∧ u.mode = s.mode ∧
      u = { s with regs := u.regs, dt := u.dt, freeCnt := u.freeCnt, dram := u.dram, inbox := u.inbox, heads := u.heads, banks := u.banks, shutters := u.shutters, nv := u.nv, churnRun := u.churnRun, churnQueue := u.churnQueue, pairVer := u.pairVer, rings := u.rings, frames := u.frames }) ∧
  (∀ (h : Head) (ws : List Int) (s : State) (p : Profile), s.flag (F.TC_CFG_BGTRIM_EN h) = true → s.streams h = true →
    (s.head h).profile = some p → (s.bank (h / 2)).cal = .idle → p.headTimed = false → p.hblank < 12 →
    ∃ t, exec (.bgtrimMeasure h ws) s = .next t ∧ t.get (F.TC_STAT_BGT_SKIP h) = 1 ∧ SameRegs [R.TC_STAT h] s t ∧ OnlyRegs s t) ∧
  (∀ (h : Head) (ws : List Int) (s : State) (p : Profile) (c : Nat), s.flag (F.TC_CFG_BGTRIM_EN h) = true → s.streams h = true →
    (s.head h).profile = some p → (s.bank (h / 2)).cal = .idle → (p.headTimed = true ∨ 12 ≤ p.hblank) →
    p.convs.getD ((s.head h).bgtNext % max p.convs.length 1) 0 = c → c < 16 → s.churnRuns .m1 (16 * h + c) = true →
    ((List.range 10).all fun w => factorOk w (ws.getD w 0)) = true →
    ∃ t, exec (.bgtrimMeasure h ws) s = .next t ∧
      (∀ w : Nat, w < 10 → t.get (F.TC_FACT_FACTOR h (16 * c + w)) = unsigned 16 (signed 16 (s.get (F.TC_FACT_FACTOR h (16 * c + w))) +
        max (-4) (min 4 (ws.getD w 0 - signed 16 (s.get (F.TC_FACT_FACTOR h (16 * c + w))))))) ∧
      (t.head h).bgtNext = ((s.head h).bgtNext + 1) % max p.convs.length 1 ∧ t.churnRuns .m1 (16 * h + c) = false ∧
      SameRegs ((List.range 10).map fun w => R.TC_FACT h (16 * c + w)) (s.churnDone .m1 (16 * h + c)) t ∧
      SameMem s t ∧ t.mode = s.mode ∧ t.inbox = s.inbox ∧
      t = { s with regs := t.regs, inbox := t.inbox, heads := t.heads, churnRun := t.churnRun, churnQueue := t.churnQueue }) ∧
  (∀ (h : Head) (ws : List Int) (s : State) (p : Profile) (c : Nat), s.flag (F.TC_CFG_BGTRIM_EN h) = true → s.streams h = true →
    (s.head h).profile = some p → (s.bank (h / 2)).cal = .idle → (p.headTimed = true ∨ 12 ≤ p.hblank) →
    p.convs.getD ((s.head h).bgtNext % max p.convs.length 1) 0 = c → c < 16 → s.churnRuns .m1 (16 * h + c) = true →
    ((List.range 10).all fun w => factorOk w (ws.getD w 0)) = false →
    ∃ t, exec (.bgtrimMeasure h ws) s = .next t ∧ Reported (16 + h / 2) .ce s t ∧
      (∀ w : Nat, w < 256 → t.reg (R.TC_FACT h w) = s.reg (R.TC_FACT h w)) ∧ SameMem s t ∧ t.mode = s.mode ∧ t.churnRuns .m1 (16 * h + c) = false ∧
      t = { s with regs := t.regs, inbox := t.inbox, heads := t.heads, churnRun := t.churnRun, churnQueue := t.churnQueue }) ∧
  (∀ (h : Head) (ws : List Int) (s : State) (p : Profile) (c : Nat), s.flag (F.TC_CFG_BGTRIM_EN h) = true → s.streams h = true →
    (s.head h).profile = some p → (s.bank (h / 2)).cal = .idle → (p.headTimed = true ∨ 12 ≤ p.hblank) →
    p.convs.getD ((s.head h).bgtNext % max p.convs.length 1) 0 = c → s.churnRuns .m1 (16 * h + c) = false →
    ∃ t, exec (.bgtrimMeasure h ws) s = .next t ∧ t = s) ∧
  (∀ (h : Head) (ws : List Int) (s : State), s.flag (F.TC_CFG_BGTRIM_EN h) = false ∨ s.streams h = false ∨ s.hasProf h = false ∨ (s.bank (h / 2)).cal ≠ .idle →
    ∃ t, exec (.bgtrimMeasure h ws) s = .next t ∧ (t.churnRun.all fun j => !(j.act == .m1 && j.res / 16 == h.val)) = true ∧
      SameRegs [R.MC_STAT] s t ∧ t = { s with regs := t.regs, churnRun := t.churnRun, churnQueue := t.churnQueue })

/-- For a head that may stream, and streams already or whose bank is not being calibrated: a due internal frame start, a pending
start that is due (a late one counts LATE), and an HFV rise of a head-timed head each begin a frame: STREAM sets, the
capture starts at the instant given and the frame's slot is listed with it; an HFV rise within the hold-off counts FRM_OVR
instead. A due line start counts one line. A falling HFV closes the capture, and a frame with lines missing is SHORT. An HLV
rise counts one line and its instant, or one excess line of a frame that has all; one within the hold-off or the sampling of
the line before counts LINE_OVR. A frame period that passes without a start counts MISSED and gives one HELD slot; the first
of a run sets SRC_LOST with a CE. Rules: R48, R107, R109, R110, R117. -/
def Obligations.FrameAndLineStarts : Prop :=
  (∀ (h : Head) (t : Nat) (s : State), s.mayStream h = true → (s.streams h = true ∨ s.calibrating h = false) →
    (s.prof h).headTimed = false → s.get (F.HP_FRM_CFG_SRC h) = 0 →
    (match (s.head h).lastStart with | some l => !s.streams h || decide (l + s.fperNs h ≤ t) | none => true) = true →
    ∃ u, exec (.frameStart h t) s = .next u ∧ u.get (F.HP_STAT_STREAM h) = 1 ∧ (u.head h).lastStart = some t ∧
      (u.head h).heldRun = 0 ∧ (u.head h).startPending = none ∧ ((u.head h).cap.map fun c => c.start) = some t ∧
      (u.frames.getLast?.map fun f => (f.head, f.slotAt)) = some (h.val, t) ∧ u.dt = max s.dt t ∧
      FrameStartWork s u) ∧
  (∀ (h : Head) (t e : Nat) (late : Bool) (s : State), s.mayStream h = true → (s.streams h = true ∨ s.calibrating h = false) →
    (s.trigsDue t).pendingBegin h = some (e, late) → e ≤ t →
    ∃ u, exec (.frameStartPending h t) s = .next u ∧ u.get (F.HP_STAT_STREAM h) = 1 ∧ (u.head h).lastStart = some t ∧
      (u.head h).heldRun = 0 ∧ (u.head h).startPending = none ∧ ((u.head h).cap.map fun c => c.start) = some t ∧
      u.get (F.HP_TCNT2_LATE h) = (if late then min (s.get (F.HP_TCNT2_LATE h) + 1) (2 ^ (F.HP_TCNT2_LATE h).w - 1)
        else s.get (F.HP_TCNT2_LATE h)) ∧ u.dt = max s.dt t ∧
      FrameStartWork s u) ∧
  (∀ (h : Head) (t : Nat) (s : State), s.mayStream h = true → (s.streams h = true ∨ s.calibrating h = false) →
    (s.prof h).headTimed = true → inHoldoff (s.head h).hfvAcc (s.hcyc h (s.prof h).tmin / 2) t = false →
    ∃ u, exec (.hfvRise h t) s = .next u ∧ u.get (F.HP_STAT_STREAM h) = 1 ∧ (u.head h).lastStart = some t ∧
      (u.head h).hfvSince = some t ∧ (u.head h).hfvAcc = some t ∧
      ((u.head h).cap.map fun c => (c.start, c.hfv)) = some (t, true) ∧ u.dt = max s.dt t ∧
      FrameStartWork s u) ∧
  (∀ (h : Head) (t : Nat) (s : State), s.commanded h = true → (s.prof h).headTimed = true →
    inHoldoff (s.head h).hfvAcc (s.hcyc h (s.prof h).tmin / 2) t = true →
    ∃ u, exec (.hfvRise h t) s = .next u ∧
      u.get (F.HP_TCNT1_FRM_OVR h) = min (s.get (F.HP_TCNT1_FRM_OVR h) + 1) (2 ^ (F.HP_TCNT1_FRM_OVR h).w - 1) ∧
      (u.head h).cap = (s.head h).cap ∧ SameRegs [R.HP_TCNT1 h] s u ∧
      u = { s with dt := max s.dt t, regs := u.regs, heads := u.heads }) ∧
  (∀ (h : Head) (t : Nat) (c : Cap) (s : State), (s.head h).cap = some c → (s.prof h).headTimed = false → c.closed = false →
    c.lines < (s.prof h).l → s.lineStartAt h c c.lines ≤ t →
    ∃ u, exec (.lineStart h t) s = .next u ∧ (u.head h).cap = some { c with lines := c.lines + 1 } ∧
      u = { s with dt := max s.dt t, heads := u.heads }) ∧
  (∀ (h : Head) (t : Nat) (s : State), s.up = true → (s.prof h).headTimed = true →
    ∃ u, exec (.hfvFall h t) s = .next u ∧ (u.head h).hfvSince = none ∧ bit (u.get (F.HP_TSTAT_LIVE h)) 3 = false ∧
      (((s.head h).cap.any fun c => c.hfv) = true → ((u.head h).cap.any fun c => c.closed && !c.hfv || c.hfv && (s.head h).cap.any fun d => d.closed) = true ∨ (u.head h).cap = none) ∧
      u.mode = s.mode ∧ u.host = s.host ∧ u.dt = max s.dt t ∧
      u = { s with regs := u.regs, dt := u.dt, heads := u.heads, nextBlock := u.nextBlock, frames := u.frames, quires := u.quires }) ∧
  (∀ (h : Head) (t : Nat) (s : State), s.up = true → (s.prof h).headTimed = true → (s.head h).cap = none →
    (s.head h).prevCap = none →
    ∃ u, exec (.hfvFall h t) s = .next u ∧ (u.head h).hfvSince = none ∧ bit (u.get (F.HP_TSTAT_LIVE h)) 3 = false ∧
      SameRegs [R.HP_TSTAT h] s u ∧ u = { s with dt := max s.dt t, regs := u.regs, heads := u.heads }) ∧
  (∀ (h : Head) (t : Nat) (c : Cap) (s : State), s.up = true → (s.prof h).headTimed = true → (s.head h).cap = some c → c.hfv = true →
    c.closed = false → (s.head h).prevCap = none → c.placed < c.lines →
    ∃ u, exec (.hfvFall h t) s = .next u ∧ (u.head h).cap = some { c with closed := true, hfv := false } ∧
      (c.lines < (s.prof h).l → ∀ f ∈ u.frames, f.head = h.val → f.seq = c.seq → f.short = true) ∧
      SameRegs [R.HP_TSTAT h, R.HP_TCNT0 h] s u ∧ SameMem s u ∧ u.mode = s.mode ∧ u.inbox = s.inbox ∧
      u = { s with regs := u.regs, dt := u.dt, heads := u.heads, nextBlock := u.nextBlock, frames := u.frames, quires := u.quires }) ∧
  (∀ (h : Head) (t : Nat) (c : Cap) (s : State), s.up = true → (s.prof h).headTimed = true → (s.head h).cap = some c → c.hfv = true →
    inHoldoff (s.head h).hlvAcc (s.hcyc h (s.prof h).p / 2) t = false →
    elapsed (s.head h).hlvAcc (s.hcyc h ((s.prof h).pixdly + (s.prof h).s)) t = true → c.lines < (s.prof h).l →
    ∃ u, exec (.hlvRise h t) s = .next u ∧ (u.head h).hlvSince = some t ∧ (u.head h).hlvAcc = some t ∧
      (u.head h).cap = some { c with lines := c.lines + 1, lineStarts := c.lineStarts ++ [t] } ∧
      SameRegs [] s u ∧ u = { s with dt := max s.dt t, heads := u.heads }) ∧
  (∀ (h : Head) (t : Nat) (c : Cap) (s : State), s.up = true → (s.prof h).headTimed = true → (s.head h).cap = some c → c.hfv = true →
    inHoldoff (s.head h).hlvAcc (s.hcyc h (s.prof h).p / 2) t = false →
    elapsed (s.head h).hlvAcc (s.hcyc h ((s.prof h).pixdly + (s.prof h).s)) t = true → (s.prof h).l ≤ c.lines → 1 ≤ c.lines →
    ∃ u, exec (.hlvRise h t) s = .next u ∧ (u.head h).hlvAcc = some t ∧
      u.get (F.CL_HCNT_LONGEXC h) = min (s.get (F.CL_HCNT_LONGEXC h) + 1) (2 ^ (F.CL_HCNT_LONGEXC h).w - 1) ∧
      (u.head h).cap = some c ∧ SameMem s u ∧ u.dt = max s.dt t ∧
      u = { s with regs := u.regs, dt := u.dt, freeCnt := u.freeCnt, dram := u.dram, inbox := u.inbox, heads := u.heads, shutters := u.shutters, ring := u.ring, cmdDone := u.cmdDone, churnRun := u.churnRun, churnQueue := u.churnQueue, mirCopies := u.mirCopies, pairVer := u.pairVer, csi := u.csi, alarms := u.alarms, txns := u.txns, txnQ := u.txnQ, rings := u.rings, frames := u.frames }) ∧
  (∀ (h : Head) (t : Nat) (c : Cap) (s : State), s.up = true → (s.prof h).headTimed = true → (s.head h).cap = some c → c.hfv = true →
    (inHoldoff (s.head h).hlvAcc (s.hcyc h (s.prof h).p / 2) t = true ∨
      elapsed (s.head h).hlvAcc (s.hcyc h ((s.prof h).pixdly + (s.prof h).s)) t = false) →
    ∃ u, exec (.hlvRise h t) s = .next u ∧
      u.get (F.HP_TCNT1_LINE_OVR h) = min (s.get (F.HP_TCNT1_LINE_OVR h) + 1) (2 ^ (F.HP_TCNT1_LINE_OVR h).w - 1) ∧
      (u.head h).cap = some c ∧ SameRegs [R.HP_TCNT1 h] s u ∧
      u = { s with dt := max s.dt t, regs := u.regs, heads := u.heads }) ∧
  (∀ (h : Head) (t l : Nat) (s : State), s.inRun = true → s.streams h = true → (s.head h).lastStart = some l →
    (s.head h).startPending = none → l + s.hcyc h ((2 + (s.head h).heldRun) * s.get (F.HP_FPER_FPER h)) ≤ t →
    ∃ u, exec (.heldSlotDue h t) s = .next u ∧
      u.get (F.HP_TCNT2_MISSED h) = min (s.get (F.HP_TCNT2_MISSED h) + 1) (2 ^ (F.HP_TCNT2_MISSED h).w - 1) ∧
      ((s.head h).heldRun = 0 → u.get (F.HP_TSTAT_SRC_LOST h) = 1 ∧
        (u.inbox.any fun r => r.source == Fin.ofNat 64 (20 + h) && r.cls == .ce) = true) ∧
      (u.head h).heldRun = (s.head h).heldRun + 1 ∧ u.frames.length = s.frames.length + 1 ∧
      (u.frames.getLast?.map fun f => (f.head, f.dt, f.held)) = some (h.val, t, true) ∧ SameMem s u ∧ u.mode = s.mode ∧
      u = { s with regs := u.regs, dt := u.dt, dram := u.dram, inbox := u.inbox, heads := u.heads, shutters := u.shutters, ring := u.ring, pairVer := u.pairVer, bufs := u.bufs, csi := u.csi, rings := u.rings, hk := u.hk, frames := u.frames })

/-- A trigger pin's accepted edge, of the polarity set, counts ACC and latches its DT; one within half the minimum period counts
OVR; the other edge clears LIVE. A GP frame edge makes a pending start of the heads that take it. A stuck input sets its
STUCK flag and LIVE bit with a CE; its deassertion clears the LIVE bit. A ring mark or trigger counts the events its
sequence number skips in MKLOST; a mark whose instant has come takes effect once; a trigger waits for its instant, and one
whose instant has come takes effect as it arrives, counting LATE when it is late. Rules: R107, R120, R122, R126. -/
def Obligations.TimingInputsAndTriggers : Prop :=
  (∀ (n : Fin 4) (lv : Bool) (t : Nat) (s : State), s.up = true → s.flag (F.TRG_TRIGCFG_PIN n) = true →
    lv ≠ s.flag (F.TRG_TRIGCFG_POL n) →
    inHoldoff ((s.atDue t).ring.trigAcc.getD n none) (s.get (F.TRG_TRIGPER_MINPER n) * 1000 / 2) t = false → n.val < s.ring.trigAcc.length →
    ∃ u, exec (.trigPinEdge n ⟨lv, t⟩) s = .next u ∧
      u.get (F.TRG_TRIGCNT_ACC n) = min ((s.atDue t).get (F.TRG_TRIGCNT_ACC n) + 1) (2 ^ (F.TRG_TRIGCNT_ACC n).w - 1) ∧
      u.get64 (F.TRG_TRIGDT_LO_DT n) (F.TRG_TRIGDT_HI_DT n) = t % 2 ^ 64 ∧ u.ring.trigAcc.getD n none = some t ∧
      SameMem s u ∧ u.mode = s.mode ∧ u.dt = max s.dt t ∧ u.inbox = s.inbox ∧
      ((∀ h : Nat, h < 8 → s.get (F.HP_FRM_CFG_SRC h) ≠ 2) → fieldOf F.HK_TRIG_SRC s.hk.trig ≠ 2 → u.heads = s.heads ∧ u.hk = s.hk ∧
        SameRegs [R.TRG_TRIGCNT n, R.TRG_TRIGDT_LO n, R.TRG_TRIGDT_HI n] (s.atDue t) u) ∧
      u = { s with regs := u.regs, dt := u.dt, heads := u.heads, ring := u.ring, pairVer := u.pairVer, hk := u.hk }) ∧
  (∀ (n : Fin 4) (lv : Bool) (t : Nat) (s : State), s.up = true → s.flag (F.TRG_TRIGCFG_PIN n) = true →
    lv ≠ s.flag (F.TRG_TRIGCFG_POL n) →
    inHoldoff ((s.atDue t).ring.trigAcc.getD n none) (s.get (F.TRG_TRIGPER_MINPER n) * 1000 / 2) t = true →
    ∃ u, exec (.trigPinEdge n ⟨lv, t⟩) s = .next u ∧
      u.get (F.TRG_TRIGCNT_OVR n) = min ((s.atDue t).get (F.TRG_TRIGCNT_OVR n) + 1) (2 ^ (F.TRG_TRIGCNT_OVR n).w - 1) ∧
      SameRegs [R.TRG_TRIGCNT n] (s.atDue t) u ∧ u = { s.atDue t with regs := u.regs, ring := u.ring }) ∧
  (∀ (n : Fin 4) (lv : Bool) (t : Nat) (s : State), s.up = true → s.flag (F.TRG_TRIGCFG_PIN n) = true →
    lv = s.flag (F.TRG_TRIGCFG_POL n) →
    ∃ u, exec (.trigPinEdge n ⟨lv, t⟩) s = .next u ∧ u.get (F.TRG_TRIGSTAT_LIVE n) = 0 ∧ u.ring.trigSince.getD n none = none ∧
      SameRegs [R.TRG_TRIGSTAT n] (s.atDue t) u ∧ u = { s.atDue t with regs := u.regs, ring := u.ring }) ∧
  (∀ (n : Fin 4) (e : PinEdge) (s : State), s.flag (F.TRG_TRIGCFG_PIN n) = false → ∃ u, exec (.trigPinEdge n e) s = .next u ∧ u = s) ∧
  (∀ (h : Head) (pin : Fin 64) (t : Nat) (s : State), s.commanded h = true → s.gpDriven pin = none →
    s.get (F.HP_FRM_CFG_SRC h) = 3 → s.get (F.HP_FRM_CFG_SEL h) = pin →
    (s.prof h).headTimed = false → inHoldoff (s.head h).srcAcc (s.hcyc h (s.prof h).tmin / 2) t = false →
    (s.head h).startPending = none →
    ∃ u, exec (.gpFrameEdge pin (!s.flag (F.HP_FRM_CFG_INV h)) t) s = .next u ∧ (u.head h).startPending = some (t + 40) ∧ (u.head h).srcAcc = some t ∧
      (u.head h).srcSince = some t ∧ SameMem s u ∧ u.mode = s.mode ∧ u.dt = max s.dt t ∧ u.inbox = s.inbox ∧
      u = { s with regs := u.regs, dt := u.dt, heads := u.heads }) ∧
  (∀ (h : Head) (pin : Fin 64) (t : Nat) (s : State), s.commanded h = true → s.gpDriven pin = none →
    s.get (F.HP_FRM_CFG_SRC h) = 3 → s.get (F.HP_FRM_CFG_SEL h) = pin → (s.prof h).headTimed = false →
    inHoldoff (s.head h).srcAcc (s.hcyc h (s.prof h).tmin / 2) t = true ∨ (s.head h).startPending.isSome = true →
    ∃ u, exec (.gpFrameEdge pin (!s.flag (F.HP_FRM_CFG_INV h)) t) s = .next u ∧ (u.head h).startPending = (s.head h).startPending ∧
      u.get (F.HP_TCNT1_FRM_OVR h) = min (s.get (F.HP_TCNT1_FRM_OVR h) + 1) (2 ^ (F.HP_TCNT1_FRM_OVR h).w - 1) ∧
      (u.head h).srcSince = some t ∧ SameMem s u ∧ u.dt = max s.dt t ∧ u.inbox = s.inbox ∧
      u = { s with regs := u.regs, dt := u.dt, heads := u.heads }) ∧
  (∀ (h : Head) (pin : Fin 64) (t : Nat) (s : State), s.up = true → s.gpDriven pin = none →
    s.get (F.HP_FRM_CFG_SRC h) = 3 → s.get (F.HP_FRM_CFG_SEL h) = pin → (s.prof h).headTimed = false →
    ∃ u, exec (.gpFrameEdge pin (s.flag (F.HP_FRM_CFG_INV h)) t) s = .next u ∧ (u.head h).srcSince = none ∧
      bit (u.get (F.HP_TSTAT_LIVE h)) 1 = false ∧ SameMem s u ∧ u.dt = max s.dt t ∧ u.inbox = s.inbox ∧
      u = { s with regs := u.regs, dt := u.dt, heads := u.heads }) ∧
  (∀ (h : Head) (t a : Nat) (s : State), s.up = true → (s.head h).hlvSince = some a → a + 2 * s.hcyc h (s.prof h).p ≤ t →
    bit (s.get (F.HP_TSTAT_LIVE h)) 2 = false →
    ∃ u, exec (.inputStuck (.hlv h) t) s = .next u ∧ u.get (F.HP_TSTAT_HLV_STUCK h) = 1 ∧ bit (u.get (F.HP_TSTAT_LIVE h)) 2 = true ∧
      Reported (20 + h) .ce s u ∧ SameRegs [R.HP_TSTAT h] s u ∧
      u = { s with dt := max s.dt t, regs := u.regs, inbox := u.inbox }) ∧
  (∀ (h : Head) (t a : Nat) (s : State), s.up = true → (s.head h).hfvSince = some a → a + 2 * s.fperNs h ≤ t →
    bit (s.get (F.HP_TSTAT_LIVE h)) 3 = false →
    ∃ u, exec (.inputStuck (.hfv h) t) s = .next u ∧ u.get (F.HP_TSTAT_HFV_STUCK h) = 1 ∧ bit (u.get (F.HP_TSTAT_LIVE h)) 3 = true ∧
      Reported (20 + h) .ce s u ∧ (((s.head h).cap.any fun c => c.hfv && !c.closed) = true → ((u.head h).cap.any fun c => c.closed && !c.hfv) = true ∧
        u.get (F.HP_TCNT0_LONG h) = min (s.get (F.HP_TCNT0_LONG h) + 1) (2 ^ (F.HP_TCNT0_LONG h).w - 1)) ∧
      SameRegs [R.HP_TSTAT h, R.HP_TCNT0 h] s u ∧ SameMem s u ∧ u.mode = s.mode ∧ u.dt = max s.dt t ∧
      u = { s with regs := u.regs, dt := u.dt, inbox := u.inbox, heads := u.heads, nextBlock := u.nextBlock, frames := u.frames, quires := u.quires }) ∧
  (∀ (h : Head) (t a : Nat) (s : State), s.up = true → (s.head h).hfvSince = some a → a + 2 * s.fperNs h ≤ t →
    bit (s.get (F.HP_TSTAT_LIVE h)) 3 = false → (s.head h).cap = none → (s.head h).prevCap = none →
    ∃ u, exec (.inputStuck (.hfv h) t) s = .next u ∧ u.get (F.HP_TSTAT_HFV_STUCK h) = 1 ∧ bit (u.get (F.HP_TSTAT_LIVE h)) 3 = true ∧
      Reported (20 + h) .ce s u ∧ SameRegs [R.HP_TSTAT h] s u ∧
      u = { s with dt := max s.dt t, regs := u.regs, inbox := u.inbox }) ∧
  (∀ (h : Head) (t a : Nat) (s : State), s.up = true → (s.prof h).headTimed = false → (s.head h).srcSince = some a → a + 2 * s.fperNs h ≤ t →
    bit (s.get (F.HP_TSTAT_LIVE h)) 1 = false →
    ∃ u, exec (.inputStuck (.gp h) t) s = .next u ∧ u.get (F.HP_TSTAT_SRC_STUCK h) = 1 ∧ bit (u.get (F.HP_TSTAT_LIVE h)) 1 = true ∧
      Reported (20 + h) .ce s u ∧ SameRegs [R.HP_TSTAT h] s u ∧
      u = { s with dt := max s.dt t, regs := u.regs, inbox := u.inbox }) ∧
  (∀ (n : Fin 4) (t a : Nat) (s : State), s.up = true → s.ring.trigSince.getD n none = some a → s.get (F.TRG_TRIGPER_EXPPER n) ≠ 0 →
    a + 2 * s.get (F.TRG_TRIGPER_EXPPER n) * 1000 ≤ t → s.flag (F.TRG_TRIGSTAT_LIVE n) = false →
    ∃ u, exec (.inputStuck (.trig n) t) s = .next u ∧ u.get (F.TRG_TRIGSTAT_STUCK n) = 1 ∧ u.get (F.TRG_TRIGSTAT_LIVE n) = 1 ∧
      Reported 50 .ce s u ∧ SameRegs [R.TRG_TRIGSTAT n] s u ∧ u = { s with dt := max s.dt t, regs := u.regs, inbox := u.inbox }) ∧
  (∀ (h : Head) (t : Nat) (s : State), s.up = true →
    ∃ u, exec (.timingInputDeassert (.hlv h) t) s = .next u ∧ (u.head h).hlvSince = none ∧
      bit (u.get (F.HP_TSTAT_LIVE h)) 2 = false ∧ SameRegs [R.HP_TSTAT h] s u ∧
      u = { s with dt := max s.dt t, regs := u.regs, heads := u.heads }) ∧
  (∀ (h : Head) (t : Nat) (s : State), s.up = true →
    ∃ u, exec (.timingInputDeassert (.hfv h) t) s = .next u ∧ (u.head h).hfvSince = none ∧
      bit (u.get (F.HP_TSTAT_LIVE h)) 3 = false ∧ SameRegs [R.HP_TSTAT h] s u ∧
      u = { s with dt := max s.dt t, regs := u.regs, heads := u.heads }) ∧
  (∀ (h : Head) (t : Nat) (s : State), s.up = true →
    ∃ u, exec (.timingInputDeassert (.gp h) t) s = .next u ∧ (u.head h).srcSince = none ∧
      bit (u.get (F.HP_TSTAT_LIVE h)) 1 = false ∧ SameRegs [R.HP_TSTAT h] s u ∧
      u = { s with dt := max s.dt t, regs := u.regs, heads := u.heads }) ∧
  (∀ (n : Fin 4) (t : Nat) (s : State), s.up = true →
    ∃ u, exec (.timingInputDeassert (.trig n) t) s = .next u ∧ u.ring.trigSince.getD n none = none ∧
      u.get (F.TRG_TRIGSTAT_LIVE n) = 0 ∧ SameRegs [R.TRG_TRIGSTAT n] s u ∧
      u = { s with dt := max s.dt t, regs := u.regs, ring := u.ring }) ∧
  (∀ (n : Fin 8) (q : Fin 32) (t : Nat) (s : State), s.ringRx = true → s.effectInstant t < (t : Int) →
    ∃ u, exec (.ringMarkReceived n q t) s = .next u ∧
      u.get F.TRG_STAT_MKLOST = min (s.get F.TRG_STAT_MKLOST + lostEvents (s.ring.markSeq.getD n none) q) (2 ^ F.TRG_STAT_MKLOST.w - 1) ∧
      u.get F.TRG_STAT_LATE = min (s.get F.TRG_STAT_LATE + 1) (2 ^ F.TRG_STAT_LATE.w - 1) ∧
      u.ring.markSeq = s.ring.markSeq.set n (some q.val) ∧ u.ring.marks = s.ring.marks ∧ u.mode = s.mode ∧ u.host = s.host ∧ u.dt = max s.dt t ∧
      u = { s with regs := u.regs, dt := u.dt, freeCnt := u.freeCnt, inbox := u.inbox, heads := u.heads, shutters := u.shutters, ring := u.ring, cmdDone := u.cmdDone, churnRun := u.churnRun, churnQueue := u.churnQueue, mirCopies := u.mirCopies, csi := u.csi, alarms := u.alarms, txns := u.txns, txnQ := u.txnQ, hk := u.hk }) ∧
  (∀ (n : Fin 8) (q : Fin 32) (t : Nat) (s : State), s.ringRx = true → (t : Int) ≤ s.effectInstant t →
    ∃ u, exec (.ringMarkReceived n q t) s = .next u ∧
      u.get F.TRG_STAT_MKLOST = min (s.get F.TRG_STAT_MKLOST + lostEvents (s.ring.markSeq.getD n none) q) (2 ^ F.TRG_STAT_MKLOST.w - 1) ∧
      u.get F.TRG_STAT_LATE = s.get F.TRG_STAT_LATE ∧ u.ring.markSeq = s.ring.markSeq.set n (some q.val) ∧
      u.ring.marks = markInsert { trig := false, stream := n, seq := q, instant := (s.effectInstant t).toNat } s.ring.marks ∧
      u.mode = s.mode ∧ u.host = s.host ∧ u.dt = max s.dt t ∧
      u = { s with regs := u.regs, dt := u.dt, freeCnt := u.freeCnt, inbox := u.inbox, heads := u.heads, shutters := u.shutters, ring := u.ring, cmdDone := u.cmdDone, churnRun := u.churnRun, churnQueue := u.churnQueue, mirCopies := u.mirCopies, csi := u.csi, alarms := u.alarms, txns := u.txns, txnQ := u.txnQ, hk := u.hk }) ∧
  (∀ (n : Fin 8) (q l : Fin 32) (t : Nat) (s : State), s.ringRx = true → s.ring.markSeq = (List.replicate 8 none).set n (some l.val) →
    (t : Int) ≤ s.effectInstant t → s.txnQ = [] → (∀ h : Nat, h < 8 → (s.head h).hcpOwner = 0) →
    ∃ u, exec (.ringMarkReceived n q t) s = .next u ∧
      u.get F.TRG_STAT_MKLOST = min (s.get F.TRG_STAT_MKLOST + (q.val + 31 - l.val) % 32) (2 ^ F.TRG_STAT_MKLOST.w - 1) ∧
      u.ring.markSeq.getD n none = some q.val ∧
      u.ring.marks = markInsert { trig := false, stream := n, seq := q, instant := (s.effectInstant t).toNat } s.ring.marks ∧
      SameRegs [R.TRG_STAT] s u ∧ u = { s with dt := max s.dt t, regs := u.regs, ring := u.ring }) ∧
  (∀ (n : Fin 8) (q : Fin 32) (t : Nat) (m : MarkEvent) (s : State),
    (s.ring.marks.find? fun m => !m.trig && m.stream == n.val && m.seq == q.val && m.instant ≤ t) = some m →
    ∃ u, exec (.markEffect n q t) s = .next u ∧ u.ring.marks = s.ring.marks.erase m ∧
      (∀ h : Head, s.get (F.HP_FRM_CFG_SRC h) = 1 → s.get (F.HP_FRM_CFG_SEL h) = n → s.commanded h = true → (s.prof h).headTimed = false →
        inHoldoff (s.head h).srcAcc (s.hcyc h (s.prof h).tmin / 2) m.instant = false → (s.head h).startPending = none →
        (u.head h).startPending = some m.instant ∧ (u.head h).srcAcc = some m.instant) ∧
      u.mode = s.mode ∧ u.host = s.host ∧ u.dt = max s.dt t ∧
      u = { s with regs := u.regs, dt := u.dt, freeCnt := u.freeCnt, inbox := u.inbox, heads := u.heads, shutters := u.shutters, ring := u.ring, cmdDone := u.cmdDone, churnRun := u.churnRun, churnQueue := u.churnQueue, mirCopies := u.mirCopies, csi := u.csi, alarms := u.alarms, txns := u.txns, txnQ := u.txnQ, hk := u.hk }) ∧
  (∀ (n : Fin 8) (q : Fin 32) (t : Nat) (m : MarkEvent) (s : State),
    (s.ring.marks.find? fun m => !m.trig && m.stream == n.val && m.seq == q.val && m.instant ≤ t) = some m →
    (∀ h : Nat, h < 8 → s.get (F.HP_FRM_CFG_SRC h) ≠ 1) → fieldOf F.HK_TRIG_SRC s.hk.trig ≠ 3 → s.txnQ = [] →
    ∃ u, exec (.markEffect n q t) s = .next u ∧ u.ring.marks = s.ring.marks.erase m ∧ SameRegs [] s u ∧
      u = { s with dt := max s.dt t, ring := u.ring }) ∧
  (∀ (n : Fin 4) (q : Fin 32) (t : Nat) (s : State), s.ringRx = true → (t : Int) < s.effectInstant t →
    ∃ u, exec (.ringTrigReceived n q t) s = .next u ∧
      u.get F.TRG_STAT_MKLOST = min (s.get F.TRG_STAT_MKLOST + lostEvents (s.ring.trigSeq.getD n none) q) (2 ^ F.TRG_STAT_MKLOST.w - 1) ∧
      u.get F.TRG_STAT_LATE = s.get F.TRG_STAT_LATE ∧ u.ring.trigSeq = s.ring.trigSeq.set n (some q.val) ∧
      u.ring.marks = markInsert { trig := true, stream := n, seq := q, instant := (s.effectInstant t).toNat }
        (s.ring.marks.filter fun m => !(m.trig && decide (m.instant ≤ t))) ∧
      SameRegs [R.TRG_STAT] (s.atDue t) u ∧ u = { s.atDue t with regs := u.regs, ring := u.ring }) ∧
  (∀ (n : Fin 4) (q : Fin 32) (t : Nat) (s : State), s.ringRx = true → s.effectInstant t ≤ (t : Int) →
    s.flag (F.TRG_TRIGCFG_RING n) = true → n.val < s.ring.trigAcc.length →
    inHoldoff ((s.atDue t).ring.trigAcc.getD n none) (s.get (F.TRG_TRIGPER_MINPER n) * 1000 / 2) t = false →
    ∃ u, exec (.ringTrigReceived n q t) s = .next u ∧
      u.get (F.TRG_TRIGCNT_ACC n) = min ((s.atDue t).get (F.TRG_TRIGCNT_ACC n) + 1) (2 ^ (F.TRG_TRIGCNT_ACC n).w - 1) ∧
      u.get64 (F.TRG_TRIGDT_LO_DT n) (F.TRG_TRIGDT_HI_DT n) = t % 2 ^ 64 ∧
      u.get F.TRG_STAT_LATE = (if s.effectInstant t < t then min (s.get F.TRG_STAT_LATE + 1) (2 ^ F.TRG_STAT_LATE.w - 1)
        else s.get F.TRG_STAT_LATE) ∧
      SameMem s u ∧ u.mode = s.mode ∧ u.dt = max s.dt t ∧ u.inbox = s.inbox ∧
      u = { s with regs := u.regs, dt := u.dt, heads := u.heads, ring := u.ring, pairVer := u.pairVer, hk := u.hk })

/-- A read of TRG_DT_LO by a port that answers returns the low word of DT and latches the whole 64-bit DT for that port, leaving
the other port's latch. A read of TRG_DT_HI returns the latched high word; OVW sets when the live high word differs from the
latched one, and is as before otherwise. With no latch taken the read returns 0 and sets no OVW. Everything else is as
before, but for the effect of a trigger whose instant has passed (R126). Rules: R129. -/
def Obligations.DeviceTimeReadsAsOnePair : Prop :=
  (∀ (p q : Port) (be : Fin 16) (s : State), s.access R.TRG_DT_LO = true → be ≠ 0 → q ≠ p →
    ∃ t, exec (.pairLoRead p R.TRG_DT_LO be) s = .next t ∧ t.lastRead = (p, BitVec.ofNat 32 s.dt) ∧
      (alGet (fun _ => none) t.pairRead (shadowKey p R.TRG_DT_LO)).map (fun e => e.1) = some (s.dt % 2 ^ 64) ∧
      alGet (fun _ => none) t.pairRead (shadowKey q R.TRG_DT_LO) = alGet (fun _ => none) s.pairRead (shadowKey q R.TRG_DT_LO) ∧
      t = { s.trigsDue s.dt with lastRead := t.lastRead, pairRead := t.pairRead }) ∧
  (∀ (p : Port) (be : Fin 16) (v ver : Nat) (s : State), s.access R.TRG_DT_HI = true → be ≠ 0 →
    alGet (fun _ => none) s.pairRead (shadowKey p R.TRG_DT_LO) = some (v, ver) →
    ∃ t, exec (.pairHiRead p R.TRG_DT_HI be) s = .next t ∧ t.lastRead = (p, BitVec.ofNat 32 (v / 2 ^ 32)) ∧
      t.get F.TRG_DTSTAT_OVW = (if s.dt / 2 ^ 32 % 2 ^ 32 = v / 2 ^ 32 then s.get F.TRG_DTSTAT_OVW else 1) ∧
      SameRegs [R.TRG_DTSTAT] (s.trigsDue s.dt) t ∧ t = { s.trigsDue s.dt with regs := t.regs, lastRead := t.lastRead }) ∧
  (∀ (p : Port) (be : Fin 16) (s : State), s.access R.TRG_DT_HI = true → be ≠ 0 →
    alGet (fun _ => none) s.pairRead (shadowKey p R.TRG_DT_LO) = none →
    ∃ t, exec (.pairHiRead p R.TRG_DT_HI be) s = .next t ∧ t.lastRead = (p, 0) ∧ t = { s.trigsDue s.dt with lastRead := (p, 0) })

/-- For the shutter schedule's pair of each head, written whole: the write of the low word is held for its port and changes no
register; the write of the high word stores the held low word and the high word together, and ends the hold. Nothing else
changes but Device Time's own progress. Rules: R451. -/
def Obligations.PairWritesTakeEffectTogether : Prop :=
  (∀ (p : Port) (h : Head) (v : Word) (s : State), s.up = true → s.refStopped = false →
    ∃ t, exec (.pairLoWrite p (R.CX_SQST_LO h) 15 v) s = .next t ∧
      alGet (fun _ => none) t.pairHold (shadowKey p (R.CX_SQST_LO h)) = some v.toNat ∧ SameRegs [] s t ∧
      t = { s with pairHold := t.pairHold }) ∧
  (∀ (p : Port) (h : Head) (v : Word) (lo : Nat) (s : State), s.up = true → s.refStopped = false →
    alGet (fun _ => none) s.pairHold (shadowKey p (R.CX_SQST_LO h)) = some lo →
    ∃ t, exec (.pairHiWrite p (R.CX_SQST_LO h + 4) 15 v) s = .next t ∧ t.reg (R.CX_SQST_LO h) = BitVec.ofNat 32 lo ∧
      t.reg (R.CX_SQST_LO h + 4) = v ∧ alGet (fun _ => none) t.pairHold (shadowKey p (R.CX_SQST_LO h)) = none ∧
      SameRegs [R.CX_SQST_LO h, R.CX_SQST_LO h + 4] s t ∧ SameMem s t ∧ t.mode = s.mode ∧ t.dt = s.dt ∧
      t = { s with regs := t.regs, pairHold := t.pairHold })

/-- With the ring enabled, receive lock sets RXLOCK and clears UPLOSS; loss of the upstream sets UPLOSS, clears RXLOCK and
raises a CE under source 50. A time packet with a bad CRC counts it; a good one sets HOP to its hop field plus 1 (modulo 32,
with HOPERR and a CE above 31), and the first one of a disciplined block sets the TAI offset to the packet's time plus the
path delay less DT, with SRC = 1. After 10 ms without a time packet LOCKED clears and SRC returns to 0. A character error
counts. Rules: R123, R128, R131. -/
def Obligations.TimingRingLinkAndTime : Prop :=
  (∀ s : State, s.up = true → s.flag F.TRG_CTRL_EN = true →
    ∃ t, exec .ringRxLock s = .next t ∧ t.get F.TRG_STAT_RXLOCK = 1 ∧ t.get F.TRG_STAT_UPLOSS = 0 ∧ SameRegs [R.TRG_STAT] s t ∧
      OnlyRegs s t) ∧
  (∀ s : State, s.ringRx = true →
    ∃ t, exec .ringUpstreamLoss s = .next t ∧ t.get F.TRG_STAT_RXLOCK = 0 ∧ t.get F.TRG_STAT_UPLOSS = 1 ∧ ReportedFirst 50 .ce s t ∧
      (∀ r : Region, s.flag (F.TC_SCLK_SRC r) = true → t.get (F.TC_STAT_SCLK_FALLBACK (2 * r)) = 1) ∧ SameMem s t ∧ t.mode = s.mode ∧ t.dt = s.dt ∧
      t = { s with regs := t.regs, inbox := t.inbox, ring := t.ring }) ∧
  (∀ s : State, s.ringRx = true → (∀ r : Nat, r < 4 → s.flag (F.TC_SCLK_SRC r) = false) →
    ∃ t, exec .ringUpstreamLoss s = .next t ∧ t.get F.TRG_STAT_RXLOCK = 0 ∧ t.get F.TRG_STAT_UPLOSS = 1 ∧ Reported 50 .ce s t ∧
      SameRegs [R.TRG_STAT] s t ∧ t = { s with regs := t.regs, inbox := t.inbox, ring := t.ring }) ∧
  (∀ (bs : List Byte) (t : Nat) (s : State), s.ringRx = true → beNat ((bs.drop 11).take 2) ≠ crc16 (bs.take 10) →
    ∃ u, exec (.ringTimePacket bs t) s = .next u ∧
      u.get F.TRG_ERRCNT_CRC = min (s.get F.TRG_ERRCNT_CRC + 1) (2 ^ F.TRG_ERRCNT_CRC.w - 1) ∧ SameRegs [R.TRG_ERRCNT] s u ∧
      u = { s with dt := max s.dt t, regs := u.regs, ring := u.ring }) ∧
  (∀ (bs : List Byte) (t : Nat) (s : State), s.ringRx = true → beNat ((bs.drop 11).take 2) = crc16 (bs.take 10) →
    ∃ u, exec (.ringTimePacket bs t) s = .next u ∧ u.get F.TRG_STAT_HOP = (leAt bs 10 1 + 1) % 32 ∧
      u.flag F.TRG_STAT_HOPERR = decide (31 ≤ leAt bs 10 1) ∧ (31 ≤ leAt bs 10 1 → s.flag F.TRG_STAT_HOPERR = false → Reported 50 .ce s u) ∧
      (s.flag F.TRG_CTRL_DISC = true → u.ring.lastTime = some t) ∧ (s.flag F.TRG_CTRL_DISC = false → SameRegs [R.TRG_STAT] s u) ∧
      SameMem s u ∧ u.mode = s.mode ∧ u.dt = max s.dt t ∧
      u = { s with regs := u.regs, dt := u.dt, freeCnt := u.freeCnt, inbox := u.inbox, ring := u.ring, pairVer := u.pairVer }) ∧
  (∀ (bs : List Byte) (t : Nat) (s : State), s.ringRx = true → beNat ((bs.drop 11).take 2) = crc16 (bs.take 10) →
    leAt bs 10 1 < 31 → s.flag F.TRG_CTRL_DISC = true → s.ring.offsetSet = false →
    ∃ u, exec (.ringTimePacket bs t) s = .next u ∧ u.get F.TRG_STAT_HOP = leAt bs 10 1 + 1 ∧ u.get F.TRG_STAT_HOPERR = 0 ∧
      u.get F.TRG_DTSTAT_SRC = 1 ∧
      u.get64 F.TRG_TAIOFF_LO_TAIOFF F.TRG_TAIOFF_HI_TAIOFF =
        unsigned 64 ((beNat (bs.take 6) * 1000000000 + beNat ((bs.drop 6).take 4) + leAt bs 10 1 * 40 + s.get F.TRG_CABLEDLY_DLY : Nat) - t) ∧
      u.ring.lastTime = some t ∧ u.ring.offsetSet = true ∧
      SameRegs [R.TRG_STAT, R.TRG_DTSTAT, R.TRG_TAIOFF_LO, R.TRG_TAIOFF_HI] s u ∧ SameMem s u ∧ u.dt = max s.dt t ∧
      u = { s with regs := u.regs, dt := u.dt, freeCnt := u.freeCnt, inbox := u.inbox, ring := u.ring, pairVer := u.pairVer }) ∧
  (∀ (t l : Nat) (s : State), s.up = true → s.ring.lastTime = some l → l + 10000000 ≤ t → s.get F.TRG_DTSTAT_SRC ≤ 1 →
    ∃ u, exec (.dtDisciplineTimeout t) s = .next u ∧ u.get F.TRG_DTSTAT_LOCKED = 0 ∧ u.get F.TRG_DTSTAT_SRC = 0 ∧
      u.ring.lastTime = none ∧ u.ring.goodTime = 0 ∧ SameRegs [R.TRG_DTSTAT] s u ∧
      u = { s with dt := max s.dt t, regs := u.regs, ring := u.ring }) ∧
  (∀ (pk : Bool) (s : State), s.up = true →
    ∃ t, exec (.ringCharError pk) s = .next t ∧
      t.get F.TRG_ERRCNT_CRC = (if pk then min (s.get F.TRG_ERRCNT_CRC + 1) (2 ^ F.TRG_ERRCNT_CRC.w - 1) else s.get F.TRG_ERRCNT_CRC) ∧
      t.get F.TRG_ERRCNT_CHAR = (if pk then s.get F.TRG_ERRCNT_CHAR else min (s.get F.TRG_ERRCNT_CHAR + 1) (2 ^ F.TRG_ERRCNT_CHAR.w - 1)) ∧
      SameRegs [R.TRG_ERRCNT] s t ∧ OnlyRegs s t)

/-- SEND with a length of 1 to 16 and no message under way takes the first LEN bytes of the transmit words as the message's
payload, sets TXBUSY and starts the time limit; another length, or one under way, sets VALUE_REJ only. Insertion, while
RING_HOLD is high, puts its packet on the ring and marks it sent; otherwise it changes nothing. A returned message that is
intact ends it with result 1 when its ack bit is set or it was a broadcast, and 2 otherwise; one that is not counts CRC and
is discarded; 100 µs after SEND it ends with 3. A message with a bad CRC counts CRC; one for this hop joins the receive
queue of 8, and a ninth counts RXOVF; one for another device is only repeated. POP removes the oldest. Rules: R132. -/
def Obligations.TimingRingMessages : Prop :=
  (∀ s : State, s.access R.TRG_MSGCMD = true → s.flag F.TRG_MSGSTAT_TXBUSY = false → 1 ≤ s.get F.TRG_MSGCMD_LEN →
    s.get F.TRG_MSGCMD_LEN ≤ 16 →
    ∃ t, exec .msgSend s = .next t ∧ t.get F.TRG_MSGSTAT_TXBUSY = 1 ∧ t.ring.txSent = none ∧ t.ring.sendAt = s.dt ∧
      (t.ring.tx.map fun m => (m.src, m.dst)) = some (s.get F.TRG_STAT_HOP, s.get F.TRG_MSGCMD_DST) ∧
      (t.ring.tx.map fun m => m.payload) =
        some (((List.range 4).flatMap fun k => leBytes 4 (s.get (F.TRG_MSGTX_W k))).take (s.get F.TRG_MSGCMD_LEN)) ∧
      SameRegs [R.TRG_MSGSTAT] s t ∧ t = { s with regs := t.regs, ring := t.ring }) ∧
  (∀ s : State, s.access R.TRG_MSGCMD = true →
    (s.flag F.TRG_MSGSTAT_TXBUSY = true ∨ s.get F.TRG_MSGCMD_LEN = 0 ∨ 16 < s.get F.TRG_MSGCMD_LEN) →
    ∃ t, exec .msgSend s = .next t ∧ t.get F.TRG_MSGSTAT_VALUE_REJ = 1 ∧ SameRegs [R.TRG_MSGSTAT] s t ∧ OnlyRegs s t) ∧
  (∀ (t : Nat) (m : RingMsg) (s : State), s.ringHold = true → s.ring.tx = some m → s.ring.txSent = none →
    ∃ u, exec (.msgInsert t) s = .next u ∧ u.ring = { s.ring with txSent := some t, sent := some { kind := .msg, bytes := m.packet 0, at_ := t } } ∧
      SameRegs [] s u ∧ u = { s with dt := max s.dt t, ring := u.ring }) ∧
  (∀ (t : Nat) (s : State), s.ringHold = false ∨ s.ring.tx = none ∨ s.ring.txSent.isSome = true → ∃ u, exec (.msgInsert t) s = .next u ∧ u = s) ∧
  (∀ (bs : List Byte) (m : RingMsg) (n : Nat) (s : State), s.ringRx = true → s.ring.tx = some m → s.ring.txSent = some n →
    msgSound bs = false →
    ∃ t, exec (.msgReturned bs) s = .next t ∧
      t.get F.TRG_ERRCNT_CRC = min (s.get F.TRG_ERRCNT_CRC + 1) (2 ^ F.TRG_ERRCNT_CRC.w - 1) ∧ SameRegs [R.TRG_ERRCNT] s t ∧
      OnlyRegs s t) ∧
  (∀ (bs : List Byte) (m : RingMsg) (n : Nat) (s : State), s.ringRx = true → s.ring.tx = some m → s.ring.txSent = some n →
    msgSound bs = true →
    ∃ t, exec (.msgReturned bs) s = .next t ∧ t.get F.TRG_MSGSTAT_TXBUSY = 0 ∧
      t.get F.TRG_MSGSTAT_TXRESULT = (if m.dst = 0xFF ∨ bit (leAt bs (3 + leAt bs 2 1) 1) 0 = true then 1 else 2) ∧ t.ring.tx = none ∧
      SameRegs [R.TRG_MSGSTAT] s t ∧ t = { s with regs := t.regs, ring := t.ring }) ∧
  (∀ (t : Nat) (s : State), s.ring.tx.isSome = true → s.ring.sendAt + 100000 ≤ t →
    ∃ u, exec (.msgLostTimeout t) s = .next u ∧ u.get F.TRG_MSGSTAT_TXBUSY = 0 ∧ u.get F.TRG_MSGSTAT_TXRESULT = 3 ∧ u.ring.tx = none ∧
      SameRegs [R.TRG_MSGSTAT] s u ∧ u = { s with dt := max s.dt t, regs := u.regs, ring := u.ring }) ∧
  (∀ (bs : List Byte) (s : State), s.ringRx = true → 1 ≤ leAt bs 2 1 → leAt bs 2 1 ≤ 16 →
    beNat ((bs.drop (4 + leAt bs 2 1)).take 2) = crc16 (bs.take (3 + leAt bs 2 1)) →
    (leAt bs 1 1 = 0xFF ∨ leAt bs 1 1 = s.get F.TRG_STAT_HOP) → s.ring.rx.length < 8 →
    ∃ t, exec (.ringMsgReceived bs) s = .next t ∧
      t.ring.rx = s.ring.rx ++ [{ src := leAt bs 0 1, dst := leAt bs 1 1, payload := (bs.drop 3).take (leAt bs 2 1) }] ∧
      t.get F.TRG_MSGSTAT_RXCOUNT = s.ring.rx.length + 1 ∧ t.ring.acked = true ∧
      SameRegs ([R.TRG_MSGSTAT, R.TRG_MSGRXHDR] ++ (List.range 4).map R.TRG_MSGRX) s t ∧ t = { s with regs := t.regs, ring := t.ring }) ∧
  (∀ (bs : List Byte) (s : State), s.ringRx = true → msgSound bs = true → leAt bs 1 1 ≠ 0xFF → leAt bs 1 1 ≠ s.get F.TRG_STAT_HOP →
    ∃ t, exec (.ringMsgReceived bs) s = .next t ∧ t.ring.rx = s.ring.rx ∧ t.ring.acked = false ∧
      (s.ringHold = true → t.ring.sent = some { kind := .msg, bytes := bs, at_ := s.dt + 40 }) ∧ SameRegs [] s t ∧ t = { s with ring := t.ring }) ∧
  (∀ (bs : List Byte) (s : State), s.ringRx = true → msgSound bs = false →
    ∃ t, exec (.ringMsgReceived bs) s = .next t ∧
      t.get F.TRG_ERRCNT_CRC = min (s.get F.TRG_ERRCNT_CRC + 1) (2 ^ F.TRG_ERRCNT_CRC.w - 1) ∧ t.ring.rx = s.ring.rx ∧
      SameRegs [R.TRG_ERRCNT] s t ∧ t = { s with regs := t.regs, ring := t.ring }) ∧
  (∀ (bs : List Byte) (s : State), s.ringRx = true → msgSound bs = true →
    (leAt bs 1 1 = 0xFF ∨ leAt bs 1 1 = s.get F.TRG_STAT_HOP) → 8 ≤ s.ring.rx.length →
    ∃ t, exec (.ringMsgReceived bs) s = .next t ∧
      t.get F.TRG_MSGSTAT_RXOVF = min (s.get F.TRG_MSGSTAT_RXOVF + 1) (2 ^ F.TRG_MSGSTAT_RXOVF.w - 1) ∧ t.ring.rx = s.ring.rx ∧
      t.ring.acked = false ∧ SameRegs [R.TRG_MSGSTAT] s t ∧ t = { s with regs := t.regs, ring := t.ring }) ∧
  (∀ s : State, s.access R.TRG_MSGCMD = true →
    ∃ t, exec .msgPop s = .next t ∧ t.ring = { s.ring with rx := s.ring.rx.drop 1 } ∧
      (s.ring.rx.length ≤ 8 → t.get F.TRG_MSGSTAT_RXCOUNT = s.ring.rx.length - 1) ∧
      SameRegs ([R.TRG_MSGSTAT, R.TRG_MSGRXHDR] ++ (List.range 4).map R.TRG_MSGRX) s t ∧ t = { s with regs := t.regs, ring := t.ring })

/-- Enabling sets EN, clears PATHFAIL and starts the self-test; with EN set and no PATHFAIL it changes nothing. A passed self-
test turns the transmitter on; a failed one sets PATHFAIL and raises a UC under source 50. HOLD is raised with the ring
enabled, its test passed and its transmitter on, and in no other state. Disabling clears EN and HOLD at once, and the
transmitter goes off 10 µs later. Rules: R133. -/
def Obligations.TimingRingEnablingAndPath : Prop :=
  (∀ s : State, s.access R.TRG_CTRL = true → s.flag F.TRG_CTRL_EN = true → s.flag F.TRG_STAT_PATHFAIL = false →
    ∃ t, exec .ringEnable s = .next t ∧ t = s) ∧
  (∀ s : State, s.access R.TRG_CTRL = true → s.flag F.TRG_CTRL_EN = false ∨ s.flag F.TRG_STAT_PATHFAIL = true →
    ∃ t, exec .ringEnable s = .next t ∧ t.get F.TRG_CTRL_EN = 1 ∧ t.get F.TRG_STAT_PATHFAIL = 0 ∧ t.ring.selftest = true ∧
      t.ring.passed = false ∧ SameRegs [R.TRG_CTRL, R.TRG_STAT] s t ∧ t = { s with regs := t.regs, ring := t.ring }) ∧
  (∀ s : State, s.up = true → s.ring.selftest = true →
    ∃ t, exec (.ringSelftestDone true) s = .next t ∧ t.ring.passed = true ∧ t.ring.txOn = true ∧ t.ring.selftest = false ∧
      t = { s with ring := t.ring }) ∧
  (∀ s : State, s.up = true → s.ring.selftest = true →
    ∃ t, exec (.ringSelftestDone false) s = .next t ∧ t.ring.passed = false ∧ t.get F.TRG_STAT_PATHFAIL = 1 ∧ Reported 50 .uc s t ∧
      SameRegs [R.TRG_STAT] s t ∧ t = { s with regs := t.regs, ring := t.ring, inbox := t.inbox }) ∧
  (∀ s : State, s.up = true → s.flag F.TRG_CTRL_EN = true → s.ring.passed = true → s.ring.txOn = true →
    ∃ t, exec .ringHoldRaise s = .next t ∧ t.get F.TRG_STAT_HOLD = 1 ∧ SameRegs [R.TRG_STAT] s t ∧ OnlyRegs s t) ∧
  (∀ s : State, s.up = false ∨ s.flag F.TRG_CTRL_EN = false ∨ s.ring.passed = false ∨ s.ring.txOn = false →
    ∃ t, exec .ringHoldRaise s = .next t ∧ t = s) ∧
  (∀ (b : Bool) (s : State), s.ring.selftest = false → ∃ t, exec (.ringSelftestDone b) s = .next t ∧ t = s) ∧
  (∀ (t : Nat) (s : State), s.access R.TRG_CTRL = true →
    ∃ u, exec (.ringDisable t) s = .next u ∧ u.get F.TRG_CTRL_EN = 0 ∧ u.get F.TRG_STAT_HOLD = 0 ∧
      u.ring.txOffAt = some (t + 10000) ∧ SameRegs [R.TRG_CTRL, R.TRG_STAT] s u ∧
      u = { s with dt := max s.dt t, regs := u.regs, ring := u.ring }) ∧
  (∀ (t d : Nat) (s : State), s.ring.txOffAt = some d → d ≤ t →
    ∃ u, exec (.ringTxOff t) s = .next u ∧ u.ring.txOn = false ∧ u.ring.txOffAt = none ∧ u = { s with dt := max s.dt t, ring := u.ring }) ∧
  (∀ (t : Nat) (s : State), (s.ring.txOffAt.all fun d => decide (t < d)) = true → ∃ u, exec (.ringTxOff t) s = .next u ∧ u = s)

/-- A line placed in time counts in its capture; an active row of a picture frame opens its Quire; a muted frame's line changes
nothing else. In SETUP a write of CL_HMIR with a bit clear ends that mirror; outside SETUP it sets DIRECT_REFUSED only.
MSYNC asks for a copy of every mirrored table; a copy's end makes the mirror read as the table and sets its MIRSYNC. LSWAP
and RSWAP in SETUP switch the leaf or residual copy when the checks pass and else give their code, and are refused
elsewhere. SWAP does the same for the radiometric set. Rules: R136, R153, R156, R224, R225. -/
def Obligations.LinesAndMirrors : Prop :=
  (∀ (h : Head) (line : Nat) (cy : List (List Int)) (t : Nat) (c : Cap) (f : Frame) (s : State), s.placing h = some c →
    s.frame h c.seq = some f → line = c.placed → c.placed < c.lines →
    s.lineStartAt h c line + s.hcyc h ((s.prof h).pixdly + (s.prof h).s) ≤ t →
    ∃ u, exec (.collatorLinePlaced h line cy t) s = .next u ∧ u.dt = max s.dt t ∧
      ((s.head h).prevCap = none → c.closed = false → ((s.prof h).headTimed = true ∨ line + 1 < (s.prof h).l) →
        ((u.head h).cap.map fun x => (x.placed, x.seq)) = some (c.placed + 1, c.seq)) ∧
      SameMem s u ∧ u.mode = s.mode ∧ u.churnRun = s.churnRun ∧
      u = { s with regs := u.regs, dt := u.dt, heads := u.heads, nextBlock := u.nextBlock, fifoPeak := u.fifoPeak, frames := u.frames, quires := u.quires }) ∧
  (∀ (h : Head) (line : Nat) (cy : List (List Int)) (t : Nat) (c : Cap) (f : Frame) (s : State), s.placing h = some c →
    s.frame h c.seq = some f → f.mute = true → line = c.placed → c.placed < c.lines →
    s.lineStartAt h c line + s.hcyc h ((s.prof h).pixdly + (s.prof h).s) ≤ t →
    ∃ u, exec (.collatorLinePlaced h line cy t) s = .next u ∧ u.quires = s.quires ∧ SameRegs [R.HP_TCNT0 h] s u ∧
      u = { s with dt := max s.dt t, regs := u.regs, heads := u.heads, frames := u.frames }) ∧
  (∀ (h : Head) (line : Nat) (cy : List (List Int)) (t : Nat) (c : Cap) (f : Frame) (s : State), s.placing h = some c →
    s.frame h c.seq = some f → f.mute = false → line = c.placed → c.placed < c.lines →
    (s.prof h).reftop ≤ line → line < (s.prof h).reftop + (s.prof h).height →
    s.lineStartAt h c line + s.hcyc h ((s.prof h).pixdly + (s.prof h).s) ≤ t →
    ∃ u, exec (.collatorLinePlaced h line cy t) s = .next u ∧
      (u.quire h c.seq ((line - (s.prof h).reftop) / 16)).isSome = true ∧
      u = { s with dt := u.dt, heads := u.heads, regs := u.regs, frames := u.frames, quires := u.quires, nextBlock := u.nextBlock, fifoPeak := u.fifoPeak }) ∧
  (∀ (h : Head) (v : Word) (s : State), s.access (R.CL_HMIR h) = true → s.mode = .setup → v.toNat % 16 = 0 →
    ∃ t, exec (.clHmirWrite h v) s = .next t ∧ t.get (F.CL_HMIR_EN h) = 0 ∧ t.get (F.CL_HSTAT_MIRSYNC h) = 0 ∧
      SameRegs [R.CL_HMIR h, R.CL_HSTAT h] s t ∧ OnlyRegs s t) ∧
  (∀ (h : Head) (v : Word) (s : State), s.access (R.CL_HMIR h) = true → s.mode = .setup →
    ∃ t, exec (.clHmirWrite h v) s = .next t ∧
      ((List.range 4).all fun i => if !bit v.toNat i then !t.mirrored h i && !bit (t.get (F.CL_HSTAT_MIRSYNC h)) i
        else if s.mirrored h i then t.mirrored h i && bit (t.get (F.CL_HSTAT_MIRSYNC h)) i == bit (s.get (F.CL_HSTAT_MIRSYNC h)) i
        else t.mirrored h i == t.mirCopies.any (fun e => e == (h.val, i)) || s.mirCopies.contains (h.val, i)) = true ∧
      t.mirCopies.take s.mirCopies.length = s.mirCopies ∧ SameRegs [R.CL_HMIR h, R.CL_HSTAT h] s t ∧
      t = { s with regs := t.regs, mirCopies := t.mirCopies }) ∧
  (∀ (h : Head) (v : Word) (s : State), s.access (R.CL_HMIR h) = true → s.mode ≠ .setup →
    ∃ t, exec (.clHmirWrite h v) s = .next t ∧ t.get (F.CL_HSTAT_DIRECT_REFUSED h) = 1 ∧ SameRegs [R.CL_HSTAT h] s t ∧ OnlyRegs s t) ∧
  (∀ (h : Head) (i : Fin 4) (v : Word) (s : State), s.access (R.CL_HMIR h) = true → s.mode = .setup → v.toNat % 16 = 2 ^ i.val →
    s.get (F.CL_HMIR_EN h) = 0 → s.mirPlaced h i = true →
    ∃ t, exec (.clHmirWrite h v) s = .next t ∧ t.get (F.CL_HMIR_EN h) = 2 ^ i.val ∧
      bit (t.get (F.CL_HSTAT_MIRSYNC h)) i = bit (s.get (F.CL_HSTAT_MIRSYNC h)) i ∧ t.mirCopies = s.mirCopies ++ [(h.val, i.val)] ∧
      SameRegs [R.CL_HMIR h, R.CL_HSTAT h] s t ∧ t = { s with regs := t.regs, mirCopies := t.mirCopies }) ∧
  (∀ (h : Head) (i : Fin 4) (v : Word) (s : State), s.access (R.CL_HMIR h) = true → s.mode = .setup → v.toNat % 16 = 2 ^ i.val →
    s.get (F.CL_HMIR_EN h) = 0 → s.mirPlaced h i = false →
    ∃ t, exec (.clHmirWrite h v) s = .next t ∧ t.get (F.CL_HMIR_EN h) = 0 ∧ t.get (F.CL_HSTAT_SWAPRES h) = 4 ∧
      SameRegs [R.CL_HMIR h, R.CL_HSTAT h] s t ∧ OnlyRegs s t) ∧
  (∀ (h : Head) (s : State), s.access (R.CL_HCMD h) = true → s.mode ≠ .safe →
    ∃ t, exec (.msync h false) s = .next t ∧
      ((List.range 4).all fun i => !s.mirrored h i || t.mirCopies.contains (h.val, i)) = true ∧ t = { s with mirCopies := t.mirCopies }) ∧
  (∀ (h : Head) (s : State), s.access (R.FP_RCMD h) = true → s.mode ≠ .safe →
    ∃ t, exec (.msync h true) s = .next t ∧
      ((List.range 2).all fun i => !s.radMirrored h i || t.mirCopies.contains (h.val, i + 4)) = true ∧
      t = { s with mirCopies := t.mirCopies }) ∧
  (∀ (h : Head) (k : CopyKind) (s : State), copyIndex k < 4 → s.mirCopies.contains (h.val, copyIndex k) = true →
    s.mirrored h (copyIndex k) = true → s.lostChan = [] →
    ∃ t, exec (.mirrorCopyDone h k) s = .next t ∧ bit (t.get (F.CL_HSTAT_MIRSYNC h)) (copyIndex k) = true ∧
      t.dramRead (s.mirBase h (copyIndex k)) (s.copySize h (copyIndex k)) = s.dramRead (s.copyBase h (copyIndex k)) (s.copySize h (copyIndex k)) ∧
      SameDramBut (s.mirBase h (copyIndex k)) (s.copySize h (copyIndex k)) s t ∧ SameRegs [R.CL_HSTAT h] s t ∧
      t = { s with regs := t.regs, dram := t.dram, mirCopies := t.mirCopies }) ∧
  (∀ (h : Head) (k : CopyKind) (s : State), s.mirCopies.contains (h.val, copyIndex k) = true →
    (if copyIndex k < 4 then s.mirrored h (copyIndex k) else s.radMirrored h (copyIndex k - 4)) = true →
    ∃ t, exec (.mirrorCopyDone h k) s = .next t ∧
      (if copyIndex k < 4 then bit (t.get (F.CL_HSTAT_MIRSYNC h)) (copyIndex k) else t.radSynced h (copyIndex k - 4)) = true ∧
      t.mirCopies = s.mirCopies.filter (fun e => e != (h.val, copyIndex k)) ∧ SameRegs [R.CL_HSTAT h, R.FP_RSTAT h] s t ∧
      t = { s with regs := t.regs, dram := t.dram, mirCopies := t.mirCopies }) ∧
  (∀ (h : Head) (k : CopyKind) (s : State), 4 ≤ copyIndex k → s.mirCopies.contains (h.val, copyIndex k) = true →
    s.radMirrored h (copyIndex k - 4) = true → s.lostChan = [] →
    ∃ t, exec (.mirrorCopyDone h k) s = .next t ∧
      t.get (if copyIndex k = 4 then F.FP_RSTAT_MIRSYNC_A h else F.FP_RSTAT_MIRSYNC_B h) = 1 ∧
      t.dramRead (s.radMirBase h (copyIndex k - 4)) radSize = s.dramRead (s.radBase h (copyIndex k - 4)) radSize ∧
      SameDramBut (s.radMirBase h (copyIndex k - 4)) radSize s t ∧ SameRegs [R.FP_RSTAT h] s t ∧
      t = { s with regs := t.regs, dram := t.dram, mirCopies := t.mirCopies }) ∧
  (∀ (h : Head) (s : State), s.access (R.CL_HCMD h) = true → s.mode = .setup → s.swapPending h 0 = false →
    s.swapCheck h (1 - s.leafSel h) = 0 →
    ∃ t, exec (.lswap h) s = .next t ∧ t.get (F.CL_HSTAT_LSEL h) = 1 - s.get (F.CL_HSTAT_LSEL h) ∧ t.get (F.CL_HSTAT_SWAPRES h) = 1 ∧
      SameRegs [R.CL_HSTAT h] s t ∧ OnlyRegs s t) ∧
  (∀ (h : Head) (s : State), s.access (R.CL_HCMD h) = true → s.mode = .setup →
    (s.swapPending h 0 = true ∨ s.swapCheck h (1 - s.leafSel h) ≠ 0) →
    ∃ t, exec (.lswap h) s = .next t ∧ t.get (F.CL_HSTAT_LSEL h) = s.get (F.CL_HSTAT_LSEL h) ∧
      t.get (F.CL_HSTAT_SWAPRES h) = (if s.swapPending h 0 = true then 6 else s.swapCheck h (1 - s.leafSel h)) ∧
      SameRegs [R.CL_HSTAT h] s t ∧ OnlyRegs s t) ∧
  (∀ (h : Head) (s : State), s.access (R.CL_HCMD h) = true → s.mode ≠ .setup →
    ∃ t, exec (.lswap h) s = .next t ∧ t.get (F.CL_HSTAT_DIRECT_REFUSED h) = 1 ∧ SameRegs [R.CL_HSTAT h] s t ∧ OnlyRegs s t) ∧
  (∀ (h : Head) (s : State), s.access (R.CL_HCMD h) = true → s.mode = .setup →
    (s.swapPending h 1 = true ∨ s.swapCheck h (5 - s.resSel h) ≠ 0) →
    ∃ t, exec (.rswap h) s = .next t ∧ t.get (F.CL_HSTAT_RSEL h) = s.get (F.CL_HSTAT_RSEL h) ∧
      t.get (F.CL_HSTAT_SWAPRES h) = (if s.swapPending h 1 = true then 6 else s.swapCheck h (5 - s.resSel h)) ∧
      SameRegs [R.CL_HSTAT h] s t ∧ OnlyRegs s t) ∧
  (∀ (h : Head) (s : State), s.access (R.CL_HCMD h) = true → s.mode ≠ .setup →
    ∃ t, exec (.rswap h) s = .next t ∧ t.get (F.CL_HSTAT_DIRECT_REFUSED h) = 1 ∧ SameRegs [R.CL_HSTAT h] s t ∧ OnlyRegs s t) ∧
  (∀ (h : Head) (s : State), s.access (R.CL_HCMD h) = true → s.mode = .setup → s.swapPending h 1 = false →
    s.swapCheck h (5 - s.resSel h) = 0 →
    ∃ t, exec (.rswap h) s = .next t ∧ t.get (F.CL_HSTAT_RSEL h) = 1 - s.get (F.CL_HSTAT_RSEL h) ∧ t.get (F.CL_HSTAT_SWAPRES h) = 1 ∧
      SameRegs [R.CL_HSTAT h] s t ∧ OnlyRegs s t) ∧
  (∀ (h : Head) (s : State), s.access (R.FP_RCMD h) = true → s.mode = .setup → s.swapPending h 2 = false →
    ∃ t, exec (.fpSwap h) s = .next t ∧
      t.get (F.FP_RSTAT_SEL h) = (if s.radCheck h (1 - s.get (F.FP_RSTAT_SEL h)) = 0 then 1 - s.get (F.FP_RSTAT_SEL h) else s.get (F.FP_RSTAT_SEL h)) ∧
      t.get (F.FP_RSTAT_SWAPRES h) = (if s.radCheck h (1 - s.get (F.FP_RSTAT_SEL h)) = 0 then 1 else s.radCheck h (1 - s.get (F.FP_RSTAT_SEL h))) ∧
      SameRegs [R.FP_RSTAT h] s t ∧ OnlyRegs s t) ∧
  (∀ (h : Head) (s : State), s.access (R.FP_RCMD h) = true → s.mode = .setup → s.swapPending h 2 = true →
    ∃ t, exec (.fpSwap h) s = .next t ∧ t.get (F.FP_RSTAT_SEL h) = s.get (F.FP_RSTAT_SEL h) ∧ t.get (F.FP_RSTAT_SWAPRES h) = 6 ∧
      SameRegs [R.FP_RSTAT h] s t ∧ OnlyRegs s t) ∧
  (∀ (h : Head) (s : State), s.access (R.FP_RCMD h) = true → s.mode ≠ .setup →
    ∃ t, exec (.fpSwap h) s = .next t ∧ t.get (F.FP_RSTAT_DIRECT_REFUSED h) = 1 ∧ SameRegs [R.FP_RSTAT h] s t ∧ OnlyRegs s t) ∧
  (∀ (h : Head) (ch : Channel) (f : Frame) (s : State), (s.frames.find? fun f => f.head == h.val && f.unconverted && snapFlag f.snap (F.FP_RCFG_EN h)) = some f →
    ∃ t, exec (.radiometricSetReadUe h ⟨ch, false⟩ false) s = .next t ∧
      t.get (F.DR_ECC_UE ch) = min (s.get (F.DR_ECC_UE ch) + 1) (2 ^ (F.DR_ECC_UE ch).w - 1) ∧
      SameRegs [R.DR_ECC ch, R.DR_ERRADDR_LO ch, R.DR_ERRADDR_HI ch] s t ∧ t.frames = s.frames ∧ t.inbox = s.inbox ∧ SameMem s t ∧ t.mode = s.mode ∧
      t = { s with regs := t.regs, freeCnt := t.freeCnt, inbox := t.inbox, pairVer := t.pairVer, jobs := t.jobs, frames := t.frames }) ∧
  (∀ (h : Head) (ch : Channel) (f : Frame) (s : State), (s.frames.find? fun f => f.head == h.val && f.unconverted && snapFlag f.snap (F.FP_RCFG_EN h)) = some f →
    ∃ t, exec (.radiometricSetReadUe h ⟨ch, false⟩ true) s = .next t ∧ t.get (F.FP_RSTAT_RDERR h) = 1 ∧ Reported (28 + ch) .uc s t ∧
      (∀ g ∈ t.frames, g.head = f.head → g.seq = f.seq → g.radUe = true ∧ g.degraded = true) ∧ t.jobs = s.jobs ∧
      SameRegs [R.DR_ECC ch, R.DR_ERRADDR_LO ch, R.DR_ERRADDR_HI ch, R.FP_RSTAT h] s t ∧ SameMem s t ∧ t.mode = s.mode ∧
      t = { s with regs := t.regs, freeCnt := t.freeCnt, inbox := t.inbox, pairVer := t.pairVer, jobs := t.jobs, frames := t.frames }) ∧
  (∀ (h : Head) (ch : Channel) (s : State), (s.jobs.any fun j => j.started.isSome && leAt j.body 0x10 1 == h.val) = true →
    ∃ t, exec (.radiometricSetReadUe h ⟨ch, true⟩ true) s = .next t ∧ t.get (F.FP_RSTAT_RDERR h) = 1 ∧ Reported (28 + ch) .uc s t ∧
      (∀ j ∈ t.jobs, j.started.isSome = true → leAt j.body 0x10 1 = h.val → j.radUe = true) ∧ t.frames = s.frames ∧
      SameMem s t ∧ t.mode = s.mode ∧
      t = { s with regs := t.regs, freeCnt := t.freeCnt, inbox := t.inbox, pairVer := t.pairVer, jobs := t.jobs, frames := t.frames })

/-- A request of a streaming head with its calibration enabled, a shutter and sound coils starts an event: PENDING with phase 1;
another ends at once with 0xC, 8 or 7, and one with an event under way merges into it. The schedule does the same, in any
mode, when its period has passed. CANCEL ends an active event with result 0xA and opens the shutter of a running one. SQLEN
arms a quiet window from SQST, and a window that has passed ends. At a frame start a pending event in its quiet window and
before its deadline starts when its tables are placed and the churn matrix grants it: RUNNING, phase 2, a close order; it
waits in the Churn's queue otherwise, and with tables misplaced it ends with 0xD. Past its deadline it starts so when DLACT
is 1, and ends with 6 when DLACT is 0, unless a conflicting activity runs. A running event that has used its slots ends with
0xB and opens the shutter. BRESET clears the drift base. Rules: R188, R190, R191, R200, R203. -/
def Obligations.ShutterCalibrationRequests : Prop :=
  (∀ (h : Head) (s : State), s.access (R.CX_SCMD h) = true → (s.shut h).active = false → s.streams h = true → s.inRun = true →
    s.flag (F.CX_SCFG_EN h) = true → (s.prof h).shutType ≠ 0 → s.coilFault h = false → s.isRetired (20 + h) = false →
    ∃ t, exec (.shreq h) s = .next t ∧ (t.shut h).active = true ∧ (t.shut h).reqAt = s.dt ∧ t.get (F.CX_SSTAT_RESULT h) = 2 ∧
      t.get (F.CX_SSTAT_PHASE h) = 1 ∧ t.get (F.CX_SSTAT_SRC h) = 0 ∧ t.get (F.CX_SSTAT_RETRY h) = 0 ∧ SameRegs [R.CX_SSTAT h] s t ∧
      t = { s with regs := t.regs, shutters := t.shutters }) ∧
  (∀ (h : Head) (s : State), s.access (R.CX_SCMD h) = true → (s.shut h).active = false →
    (s.streams h = false ∨ s.inRun = false ∨ s.flag (F.CX_SCFG_EN h) = false ∨ (s.prof h).shutType = 0 ∨ s.coilFault h = true ∨ s.isRetired (20 + h) = true) →
    ∃ t, exec (.shreq h) s = .next t ∧ t.get (F.CX_SSTAT_RESULT h) = (if !(s.streams h && s.inRun) then 0xC
      else if !s.flag (F.CX_SCFG_EN h) || (s.prof h).shutType == 0 then 8 else 7) ∧ SameRegs [R.CX_SSTAT h] s t ∧ OnlyRegs s t) ∧
  (∀ (h : Head) (s : State), s.access (R.CX_SCMD h) = true → (s.shut h).active = true →
    ∃ t, exec (.shreq h) s = .next t ∧ (t.shut h) = s.shut h ∧
      t.get (F.CX_SSTAT_SRC h) = (if (s.shut h).reqAt = s.dt then 0 else s.get (F.CX_SSTAT_SRC h)) ∧
      t.get (F.CX_SSTAT_RESULT h) = s.get (F.CX_SSTAT_RESULT h) ∧ SameRegs [R.CX_SSTAT h] s t ∧
      t = { s with regs := t.regs, dt := t.dt, shutters := t.shutters, ring := t.ring, cmdDone := t.cmdDone }) ∧
  (∀ (h : Head) (t e : Nat) (s : State), s.get (F.CX_SSCHED_PERIOD h) ≠ 0 → ((s.shut h).endAt <|> (s.head h).firstRunStart) = some e →
    e + s.get (F.CX_SSCHED_PERIOD h) * 60000000000 ≤ t → (s.shut h).active = false → s.shutQuieted h t = false →
    (s.streams h = false ∨ s.inRun = false ∨ s.flag (F.CX_SCFG_EN h) = false ∨ (s.prof h).shutType = 0 ∨ s.coilFault h = true ∨ s.isRetired (20 + h) = true) →
    ∃ u, exec (.shutterScheduleDue h t) s = .next u ∧ u.get (F.CX_SSTAT_RESULT h) = (if !(s.streams h && s.inRun) then 0xC
      else if !s.flag (F.CX_SCFG_EN h) || (s.prof h).shutType == 0 then 8 else 7) ∧ SameRegs [R.CX_SSTAT h] s u ∧
      u = { s with dt := max s.dt t, regs := u.regs }) ∧
  (∀ (h : Head) (t e : Nat) (s : State), s.inRun = true → s.get (F.CX_SSCHED_PERIOD h) ≠ 0 → ((s.shut h).endAt <|> (s.head h).firstRunStart) = some e →
    e + s.get (F.CX_SSCHED_PERIOD h) * 60000000000 ≤ t → (s.shut h).active = false → s.shutQuieted h t = false → s.streams h = true →
    s.flag (F.CX_SCFG_EN h) = true → (s.prof h).shutType ≠ 0 → s.coilFault h = false → s.isRetired (20 + h) = false →
    ∃ u, exec (.shutterScheduleDue h t) s = .next u ∧ (u.shut h).active = true ∧ (u.shut h).reqAt = t ∧
      u.get (F.CX_SSTAT_PHASE h) = 1 ∧ u.get (F.CX_SSTAT_SRC h) = 1 ∧ SameRegs [R.CX_SSTAT h] s u ∧
      u = { s with dt := max s.dt t, regs := u.regs, shutters := u.shutters }) ∧
  (∀ (h : Head) (s : State), s.access (R.CX_SCMD h) = true → (s.shut h).active = true → s.get (F.CX_SSTAT_PHASE h) = 1 →
    ∃ t, exec (.shutterCancel h) s = .next t ∧ (t.shut h).active = false ∧ t.get (F.CX_SSTAT_RESULT h) = 0xA ∧
      t.get (F.CX_SSTAT_PHASE h) = 0 ∧ (t.shut h).endAt = some s.dt ∧ SameRegs [R.CX_SSTAT h, R.MC_STAT] s t ∧ SameMem s t ∧
      t.mode = s.mode ∧ t.dt = s.dt ∧ t.inbox = s.inbox ∧
      t = { s with regs := t.regs, dt := t.dt, inbox := t.inbox, heads := t.heads, shutters := t.shutters, ring := t.ring, nv := t.nv, cmdDone := t.cmdDone, churnRun := t.churnRun, churnQueue := t.churnQueue }) ∧
  (∀ (h : Head) (s : State), s.access (R.CX_SCMD h) = true → (s.shut h).active = true →
    ∃ t, exec (.shutterCancel h) s = .next t ∧ (t.shut h).active = false ∧ t.get (F.CX_SSTAT_RESULT h) = 0xA ∧
      (t.shut h).endAt = some s.dt ∧ (within (s.get (F.CX_SSTAT_PHASE h)) 2 4 = true → s.mode ≠ .safe → t.get (F.CX_SSTAT_PHASE h) = 5 ∧ (t.shut h).ended = true) ∧
      SameMem s t ∧ t.mode = s.mode ∧ t.dt = s.dt ∧ t.inbox = s.inbox ∧
      t = { s with regs := t.regs, dt := t.dt, inbox := t.inbox, heads := t.heads, shutters := t.shutters, ring := t.ring, nv := t.nv, cmdDone := t.cmdDone, churnRun := t.churnRun, churnQueue := t.churnQueue }) ∧
  (∀ (h : Head) (s : State), s.access (R.CX_SCMD h) = true → (s.shut h).active = false →
    ∃ t, exec (.shutterCancel h) s = .next t ∧ t = s) ∧
  (∀ (h : Head) (v : Word) (s : State), s.access (R.CX_SQLEN h) = true → v = 0 →
    ∃ t, exec (.quietWindowArm h v) s = .next t ∧ t.reg (R.CX_SQLEN h) = 0 ∧ (t.shut h).quiet = none ∧ SameRegs [R.CX_SQLEN h] s t ∧
      t = { s with regs := t.regs, shutters := t.shutters }) ∧
  (∀ (h : Head) (v : Word) (s : State), s.access (R.CX_SQLEN h) = true → v ≠ 0 →
    ∃ t, exec (.quietWindowArm h v) s = .next t ∧ t.reg (R.CX_SQLEN h) = v ∧
      (t.shut h).quiet = some (s.get64 (F.CX_SQST_LO_QST h) (F.CX_SQST_HI_QST h),
        s.get64 (F.CX_SQST_LO_QST h) (F.CX_SQST_HI_QST h) + 1000 * v.toNat) ∧
      SameRegs [R.CX_SQLEN h] s t ∧ t = { s with regs := t.regs, shutters := t.shutters }) ∧
  (∀ (h : Head) (t a e : Nat) (s : State), (s.shut h).quiet = some (a, e) → e ≤ t →
    ∃ u, exec (.quietWindowEnd h t) s = .next u ∧ (u.shut h).quiet = none ∧ u = { s with dt := max s.dt t, shutters := u.shutters }) ∧
  (∀ (h : Head) (t : Nat) (s : State), (s.shut h).active = true → s.get (F.CX_SSTAT_PHASE h) = 1 → (s.head h).lastStart = some t →
    s.inQuiet h t = true → s.pastDeadline h t = false → s.shutBasesOk h = true → (s.shut h).granted = true ∨ (s.churnAsk .m3 h true t).1 = .granted →
    ∃ u, exec (.shutterEventStart h t) s = .next u ∧ u.get (F.CX_SSTAT_RESULT h) = 3 ∧ u.get (F.CX_SSTAT_PHASE h) = 2 ∧
      (u.shut h).granted = true ∧ (u.head h).driveWait = some true ∧
      u.churnRun = s.churnRun ++ (if (s.shut h).granted then [] else [{ act := .m3, res := h, since := t }]) ∧
      SameRegs [R.CX_SSTAT h, R.MC_STAT, R.HP_FSDT_LO h, R.HP_FSDT_HI h] s u ∧ SameMem s u ∧ u.mode = s.mode ∧ u.dt = s.dt ∧ u.inbox = s.inbox ∧
      u = { s with regs := u.regs, dt := u.dt, inbox := u.inbox, heads := u.heads, shutters := u.shutters, ring := u.ring, nv := u.nv, cmdDone := u.cmdDone, churnRun := u.churnRun, churnQueue := u.churnQueue, pairVer := u.pairVer, frames := u.frames }) ∧
  (∀ (h : Head) (t : Nat) (s : State), (s.shut h).active = true → s.get (F.CX_SSTAT_PHASE h) = 1 → (s.head h).lastStart = some t →
    s.inQuiet h t = true → s.pastDeadline h t = false → s.shutBasesOk h = true → (s.shut h).granted = false → (s.churnAsk .m3 h true t).1 ≠ .granted →
    ∃ u, exec (.shutterEventStart h t) s = .next u ∧ u.get (F.CX_SSTAT_PHASE h) = 1 ∧ (u.shut h).active = true ∧
      SameRegs [R.MC_STAT, R.MC_CNT] s u ∧ u = { s with regs := u.regs, churnQueue := u.churnQueue }) ∧
  (∀ (h : Head) (t : Nat) (s : State), (s.shut h).active = true → s.get (F.CX_SSTAT_PHASE h) = 1 → (s.head h).lastStart = some t →
    s.inQuiet h t = true → s.pastDeadline h t = false → s.shutBasesOk h = false →
    ∃ u, exec (.shutterEventStart h t) s = .next u ∧ u.get (F.CX_SSTAT_RESULT h) = 0xD ∧ (u.shut h).active = false ∧
      SameMem s u ∧ u.mode = s.mode ∧ u.inbox = s.inbox ∧
      u = { s with regs := u.regs, dt := u.dt, inbox := u.inbox, heads := u.heads, shutters := u.shutters, ring := u.ring, nv := u.nv, cmdDone := u.cmdDone, churnRun := u.churnRun, churnQueue := u.churnQueue, pairVer := u.pairVer, frames := u.frames }) ∧
  (∀ (h : Head) (t : Nat) (s : State), (s.shut h).active = false ∨ s.get (F.CX_SSTAT_PHASE h) ≠ 1 ∨ s.inQuiet h t = false →
    ∃ u, exec (.shutterEventStart h t) s = .next u ∧ u = s) ∧
  (∀ (h : Head) (t : Nat) (s : State), (s.shut h).active = true → s.get (F.CX_SSTAT_PHASE h) = 1 → (s.head h).lastStart = some t →
    s.pastDeadline h t = true → s.flag (F.CX_SCFG_DLACT h) = true → s.shutBasesOk h = true →
    (s.shut h).granted = true ∨ (s.churnAsk .m3 h true t).1 = .granted →
    ∃ u, exec (.shutterDeadline h t) s = .next u ∧ u.get (F.CX_SSTAT_RESULT h) = 3 ∧ u.get (F.CX_SSTAT_PHASE h) = 2 ∧
      (u.head h).driveWait = some true ∧ SameRegs [R.CX_SSTAT h, R.MC_STAT, R.HP_FSDT_LO h, R.HP_FSDT_HI h] s u ∧ SameMem s u ∧ u.mode = s.mode ∧
      u = { s with regs := u.regs, dt := u.dt, inbox := u.inbox, heads := u.heads, shutters := u.shutters, ring := u.ring, nv := u.nv, cmdDone := u.cmdDone, churnRun := u.churnRun, churnQueue := u.churnQueue, pairVer := u.pairVer, frames := u.frames }) ∧
  (∀ (h : Head) (t : Nat) (s : State), (s.shut h).active = true → s.get (F.CX_SSTAT_PHASE h) = 1 → (s.head h).lastStart = some t →
    s.pastDeadline h t = true → s.flag (F.CX_SCFG_DLACT h) = false → s.shutBasesOk h = true →
    (s.churnRun.any fun j => waitPair j.act .m3 && sameResource j.act j.res .m3 h) = true →
    ∃ u, exec (.shutterDeadline h t) s = .next u ∧ u = s) ∧
  (∀ (h : Head) (t : Nat) (s : State), (s.shut h).active = true → s.get (F.CX_SSTAT_PHASE h) = 1 → (s.head h).lastStart = some t →
    s.pastDeadline h t = true → s.flag (F.CX_SCFG_DLACT h) = false → s.shutBasesOk h = true →
    (s.churnRun.any fun j => waitPair j.act .m3 && sameResource j.act j.res .m3 h) = false →
    ∃ u, exec (.shutterDeadline h t) s = .next u ∧ u.get (F.CX_SSTAT_RESULT h) = 6 ∧
      (u.shut h).active = false ∧ (u.shut h).endAt = some s.dt ∧ SameMem s u ∧ u.mode = s.mode ∧ u.inbox = s.inbox ∧
      u = { s with regs := u.regs, dt := u.dt, inbox := u.inbox, heads := u.heads, shutters := u.shutters, ring := u.ring, nv := u.nv, cmdDone := u.cmdDone, churnRun := u.churnRun, churnQueue := u.churnQueue, pairVer := u.pairVer, frames := u.frames }) ∧
  (∀ (h : Head) (s : State), (s.shut h).active = true → within (s.get (F.CX_SSTAT_PHASE h)) 2 4 = true →
    (s.prof h).shutSettle + 8 * s.get (F.CX_SCFG_NINT h) + 64 < (s.shut h).slots →
    ∃ t, exec (.shutterEventTimeout h) s = .next t ∧ t.get (F.CX_SSTAT_RESULT h) = 0xB ∧ (t.shut h).active = false ∧
      (s.mode ≠ .safe → t.get (F.CX_SSTAT_PHASE h) = 5 ∧ (t.shut h).ended = true) ∧ Reported (20 + h) .ce s t ∧
      t.get (F.CX_SFAIL_COUNT h) = min (s.get (F.CX_SFAIL_COUNT h) + 1) (2 ^ (F.CX_SFAIL_COUNT h).w - 1) ∧ SameMem s t ∧ t.mode = s.mode ∧
      t = { s with regs := t.regs, dt := t.dt, inbox := t.inbox, heads := t.heads, shutters := t.shutters, ring := t.ring, nv := t.nv, cmdDone := t.cmdDone, churnRun := t.churnRun, churnQueue := t.churnQueue }) ∧
  (∀ (h : Head) (s : State), (s.shut h).active = true → s.get (F.CX_SSTAT_PHASE h) = 4 → s.inRun = true → s.coilFault h = false →
    (s.prof h).shutSettle + 8 * s.get (F.CX_SCFG_NINT h) + 64 < (s.shut h).slots →
    ∃ t, exec (.shutterEventTimeout h) s = .next t ∧ t.get (F.CX_SSTAT_RESULT h) = 0xB ∧ t.get (F.CX_SSTAT_PHASE h) = 5 ∧
      (t.shut h).active = false ∧ (t.head h).driveWait = some false ∧ Reported (20 + h) .ce s t ∧
      t.get (F.CX_SFAIL_COUNT h) = min (s.get (F.CX_SFAIL_COUNT h) + 1) (2 ^ (F.CX_SFAIL_COUNT h).w - 1) ∧
      SameRegs [R.CX_SSTAT h, R.CX_SFAIL h, R.MC_STAT, R.NV_DIRTY] s t ∧ SameMem s t ∧ t.mode = s.mode ∧
      t = { s with regs := t.regs, dt := t.dt, inbox := t.inbox, heads := t.heads, shutters := t.shutters, ring := t.ring, nv := t.nv, cmdDone := t.cmdDone, churnRun := t.churnRun, churnQueue := t.churnQueue }) ∧
  (∀ (h : Head) (s : State), s.access (R.CX_SCMD h) = true →
    ∃ t, exec (.breset h) s = .next t ∧ (t.head h).brefSet = false ∧ t = { s with heads := t.heads })

/-- When the integration's last frames are known, the apply step writes the inactive leaf copy, the inactive residual copy and
the plane's slot with the bytes R198 gives, at their bases, and marks itself done; no other byte of DRAM changes but mirrors
of those. A refit of a streaming head that the churn matrix grants is PENDING, then RUNNING; one that is not streaming
answers 0xC, one of a running refit 9; its computation counts the valid planes and ends with 0xE for too few, 4 for an
implausible fit, or asks for the swap; its writes put the fitted leaves at the base of the inactive leaf copy, and no other
byte of DRAM changes but its mirror. Registers other than those the rules name are as before. Rules: R198, R206, R209. -/
def Obligations.ShutterCalibrationResults : Prop :=
  (∀ (h : Head) (fa fb : Frame) (s : State), (s.shut h).lastA = some fa → (s.shut h).lastB = some fb → (s.shut h).active = true →
    5 ≤ s.get (F.CX_SSTAT_PHASE h) → (s.shut h).applyDone = false →
    ∃ t, exec (.shutterApplyDone h) s = .next t ∧ t.shut h = { s.shut h with applyDone := true } ∧ SameRegs [] s t ∧
      (s.plainDram = true → DramWrote (s.applyPieces h fa fb) s t) ∧ SameDramBeside (s.applyPieces h fa fb) s t ∧
      t = { s with dram := t.dram, shutters := t.shutters }) ∧
  (∀ (h : Head) (s : State), (s.shut h).active = false ∨ s.get (F.CX_SSTAT_PHASE h) < 5 ∨ (s.shut h).applyDone = true →
    ∃ t, exec (.shutterApplyDone h) s = .next t ∧ t = s) ∧
  (∀ (h : Head) (s : State), s.access (R.CX_SCMD h) = true → s.streams h = true → s.inRun = true → (s.churnAsk .m4 h true s.dt).1 ≠ .refused →
    ∃ t, exec (.refit h) s = .next t ∧ t.get (F.CX_SSTAT_DFRES h) = 2 ∧
      (t.shut h).refitPhase = (if (s.churnAsk .m4 h true s.dt).1 = .granted then 1 else 6) ∧
      t.churnRun = (s.churnAsk .m4 h true s.dt).2.churnRun ∧ t.churnQueue = (s.churnAsk .m4 h true s.dt).2.churnQueue ∧
      SameRegs [R.CX_SSTAT h, R.MC_STAT, R.MC_CNT] s t ∧
      t = { s with regs := t.regs, shutters := t.shutters, churnRun := t.churnRun, churnQueue := t.churnQueue }) ∧
  (∀ (h : Head) (s : State), s.access (R.CX_SCMD h) = true → s.streams h = true → s.inRun = true → (s.churnAsk .m4 h true s.dt).1 = .refused →
    ∃ t, exec (.refit h) s = .next t ∧ t.get (F.CX_SSTAT_DFRES h) = 9 ∧ SameRegs [R.CX_SSTAT h, R.MC_LAST, R.MC_CNT] s t ∧ OnlyRegs s t) ∧
  (∀ (h : Head) (s : State), s.access (R.CX_SCMD h) = true → s.streams h = false ∨ s.inRun = false →
    ∃ t, exec (.refit h) s = .next t ∧ t.get (F.CX_SSTAT_DFRES h) = 0xC ∧ SameRegs [R.CX_SSTAT h] s t ∧ OnlyRegs s t) ∧
  (∀ (h : Head) (s : State), (s.shut h).refitPhase = 1 →
    ∃ t, exec (.refitStart h) s = .next t ∧ t.get (F.CX_SSTAT_DFRES h) = 3 ∧ (t.shut h).refitPhase = 2 ∧ SameRegs [R.CX_SSTAT h] s t ∧
      t = { s with regs := t.regs, shutters := t.shutters }) ∧
  (∀ (h : Head) (s : State), (s.shut h).refitPhase = 2 → s.refitPlan h = none →
    ∃ t, exec (.refitComputeDone h) s = .next t ∧ t.get (F.CX_DFSTAT_PLANES h) = (s.validPlanes h).length % 2 ^ (F.CX_DFSTAT_PLANES h).w ∧
      t.get (F.CX_SSTAT_DFRES h) = 0xE ∧ (t.shut h).refitPhase = 0 ∧ SameRegs [R.CX_SSTAT h, R.CX_DFSTAT h, R.MC_STAT] s t ∧
      SameMem s t ∧ t.mode = s.mode ∧ t.inbox = s.inbox ∧
      t = { s with regs := t.regs, dt := t.dt, inbox := t.inbox, shutters := t.shutters, ring := t.ring, cmdDone := t.cmdDone, churnRun := t.churnRun, churnQueue := t.churnQueue }) ∧
  (∀ (h : Head) (s : State), (s.shut h).refitPhase = 2 →
    ∃ t, exec (.refitComputeDone h) s = .next t ∧ t.get (F.CX_DFSTAT_PLANES h) = (s.validPlanes h).length % 2 ^ (F.CX_DFSTAT_PLANES h).w ∧
      SameMem s t ∧ t.mode = s.mode ∧ t.dt = s.dt ∧
      t = { s with regs := t.regs, dt := t.dt, inbox := t.inbox, shutters := t.shutters, ring := t.ring, cmdDone := t.cmdDone, churnRun := t.churnRun, churnQueue := t.churnQueue }) ∧
  (∀ (h : Head) (g : RefitPlan) (s : State), (s.shut h).refitPhase = 2 → s.refitPlan h = some g →
    s.get (F.CX_SLIM_FAILPM h) * (s.refitAll h g).2.1 < 1000 * (s.refitAll h g).2.2 →
    ∃ t, exec (.refitComputeDone h) s = .next t ∧ t.get (F.CX_SSTAT_DFRES h) = 4 ∧ (t.shut h).refitPhase = 0 ∧ Reported (20 + h) .ce s t ∧ SameMem s t ∧
      t = { s with regs := t.regs, dt := t.dt, inbox := t.inbox, shutters := t.shutters, ring := t.ring, cmdDone := t.cmdDone, churnRun := t.churnRun, churnQueue := t.churnQueue }) ∧
  (∀ (h : Head) (g : RefitPlan) (s : State), (s.shut h).refitPhase = 2 → s.refitPlan h = some g →
    1000 * (s.refitAll h g).2.2 ≤ s.get (F.CX_SLIM_FAILPM h) * (s.refitAll h g).2.1 → (s.churnAsk .m5 (3 * h) true s.dt).1 = .granted →
    ∃ t, exec (.refitComputeDone h) s = .next t ∧ (t.shut h).refitPhase = 4 ∧ t.churnRuns .m5 (3 * h) = true ∧ t.inbox = s.inbox ∧ SameMem s t ∧
      t = { s with regs := t.regs, dt := t.dt, inbox := t.inbox, shutters := t.shutters, ring := t.ring, cmdDone := t.cmdDone, churnRun := t.churnRun, churnQueue := t.churnQueue }) ∧
  (∀ (h : Head) (g : RefitPlan) (s : State), (s.shut h).refitPhase = 4 → s.refitPlan h = some g →
    ∃ t, exec (.refitWritesDone h) s = .next t ∧ t.shut h = { s.shut h with refitPhase := 5 } ∧ SameRegs [] s t ∧
      (s.plainDram = true → DramWrote [(s.copyBase h (1 - s.leafSel h), s.refitLeaf h g)] s t) ∧
      SameDramBeside [(s.copyBase h (1 - s.leafSel h), s.refitLeaf h g)] s t ∧
      t = { s with dram := t.dram, shutters := t.shutters }) ∧
  (∀ (h : Head) (s : State), (s.shut h).refitPhase ≠ 4 → ∃ t, exec (.refitWritesDone h) s = .next t ∧ t = s) ∧
  (∀ (h : Head) (s : State), (s.shut h).refitPhase = 4 → s.refitPlan h = none →
    ∃ t, exec (.refitWritesDone h) s = .next t ∧ t.get (F.CX_SSTAT_DFRES h) = 0xE ∧ (t.shut h).refitPhase = 0 ∧ SameMem s t ∧
      t = { s with regs := t.regs, dt := t.dt, dram := t.dram, inbox := t.inbox, shutters := t.shutters, ring := t.ring, cmdDone := t.cmdDone, churnRun := t.churnRun, churnQueue := t.churnQueue })

/-- LOAD of a good image in SETUP sets RESULT to 2 and loads the named blocks one at a time from the lowest; in RUN the first
block waits for its Churn grant; while one runs it sets RESULT to 7; a bad header gives its code; no block named, or no such
mode, stores BLKMASK only. The end of a block's copy puts the code into the other bank of each of its cells that is not
retired, switches that block's bank when the signature is good (the key it is checked with is free: log entry 11), and the
next block follows, or the load ends OK; it leaves the bank otherwise and the load ends with RESULT 4 and a UC. INSTALL
after a load that ended OK asks for the image to be persisted (under the interlock, or while the ring's window is open, it
marks the ring dirty); SETMIN raises the least security version to the active image's and never lowers it. Rules: R234,
R237. -/
def Obligations.MicrocodeLoadsByBlock : Prop :=
  (∀ (v : Word) (s : State), s.access R.EN_MCMD = true → s.mode = .setup → v.toNat % 65536 ≠ 0 → s.mcLoad = none →
    s.mcHeader (4096 * s.get F.EN_MCBASE_BASE) = 1 →
    ∃ t, exec (.mcLoad v) s = .next t ∧ t.get F.EN_MCMD_BLKMASK = v.toNat % 65536 ∧ t.get F.EN_MCSTAT_RESULT = 2 ∧
      t.get F.EN_MCSTAT_DONE = 0 ∧
      (∃ l, t.mcLoad = some l ∧ l.left = (List.range 16).filter (bit (v.toNat % 65536)) ∧ l.cur = l.left.head?) ∧
      SameRegs [R.EN_MCMD, R.EN_MCSTAT] s t ∧ t = { s with regs := t.regs, mcLoad := t.mcLoad }) ∧
  (∀ (v : Word) (s : State), s.access R.EN_MCMD = true → s.inRun = true → v.toNat % 65536 ≠ 0 → s.mcLoad = none →
    s.mcHeader (4096 * s.get F.EN_MCBASE_BASE) = 1 → (s.churnRun ++ s.churnQueue).all (fun j => j.act != .m6) = true →
    ∃ t, exec (.mcLoad v) s = .next t ∧ t.get F.EN_MCMD_BLKMASK = v.toNat % 65536 ∧ t.get F.EN_MCSTAT_RESULT = 2 ∧
      t.get F.EN_MCSTAT_DONE = 0 ∧
      (∃ l, t.mcLoad = some l ∧ l.left = (List.range 16).filter (bit (v.toNat % 65536)) ∧
        (l.cur = l.left.head? ∧ t.churnQueue = s.churnQueue ∨ l.cur = none ∧ t.churnRun = s.churnRun)) ∧
      t = { s with regs := t.regs, mcLoad := t.mcLoad, churnRun := t.churnRun, churnQueue := t.churnQueue }) ∧
  (∀ (v : Word) (s : State), s.access R.EN_MCMD = true → v.toNat % 65536 = 0 ∨ (s.mode ≠ .setup ∧ s.inRun = false) → s.mcLoad = none →
    ∃ t, exec (.mcLoad v) s = .next t ∧ t.get F.EN_MCMD_BLKMASK = v.toNat % 65536 ∧ SameRegs [R.EN_MCMD] s t ∧ OnlyRegs s t) ∧
  (∀ (v : Word) (s : State), s.access R.EN_MCMD = true → s.mode = .setup ∨ s.inRun = true → v.toNat % 65536 ≠ 0 → s.mcLoad = none →
    s.mcHeader (4096 * s.get F.EN_MCBASE_BASE) ≠ 1 →
    ∃ t, exec (.mcLoad v) s = .next t ∧ t.get F.EN_MCSTAT_RESULT = s.mcHeader (4096 * s.get F.EN_MCBASE_BASE) ∧
      t.mcLoad = none ∧ SameRegs [R.EN_MCMD, R.EN_MCSTAT] s t ∧ OnlyRegs s t) ∧
  (∀ (v : Word) (l : McLoad) (s : State), s.access R.EN_MCMD = true → s.mode = .setup ∨ s.inRun = true → v.toNat % 65536 ≠ 0 → s.mcLoad = some l →
    ∃ t, exec (.mcLoad v) s = .next t ∧ t.get F.EN_MCSTAT_RESULT = 7 ∧ t.mcLoad = some l ∧ SameRegs [R.EN_MCSTAT] s t ∧
      OnlyRegs s t) ∧
  (∀ (b : Block) (l : McLoad) (s : State), s.mcLoad = some l → l.cur = some b.val → s.bankHeld b = false →
    ∃ t, exec (.microcodeBlockLoadDone b) s = .next t ∧
      t.get (F.EN_BSTAT_BANK b) = (if s.signatureOk (s.imageOf l) = true then 1 - s.get (F.EN_BSTAT_BANK b) else s.get (F.EN_BSTAT_BANK b)) ∧
      ((List.range 7).all fun c => s.cellState b c == cellRetired ||
        (if s.get (F.EN_BSTAT_BANK b) = 1 then (t.cell b c).bankA else (t.cell b c).bankB) == imageCode (s.imageOf l)) = true ∧
      (s.signatureOk (s.imageOf l) = true → t.mcActive = (leAt (s.imageOf l) 8 4, leAt (s.imageOf l) 0xC 4) ∧ t.inbox = s.inbox ∧
        (l.left.filter (· != b.val) = [] → t.mcLoad = none ∧ t.get F.EN_MCSTAT_RESULT = 1) ∧
        (s.inRun = false → l.left.filter (· != b.val) ≠ [] →
          t.mcLoad.bind (fun x => x.cur) = (l.left.filter (· != b.val)).head? ∧ t.get F.EN_MCSTAT_RESULT = s.get F.EN_MCSTAT_RESULT)) ∧
      (s.signatureOk (s.imageOf l) = false → t.mcActive = s.mcActive ∧ Reported b .uc s t ∧ t.mcLoad = none ∧ t.get F.EN_MCSTAT_RESULT = 4) ∧
      (l.cmd = none → t.cmdDone = s.cmdDone) ∧ SameMem s t ∧ t.mode = s.mode ∧ t.dt = s.dt ∧
      t = { s with regs := t.regs, dt := t.dt, inbox := t.inbox, ring := t.ring, cmdDone := t.cmdDone, churnRun := t.churnRun, churnQueue := t.churnQueue, image := t.image, blocks := t.blocks, mcLoad := t.mcLoad, mcActive := t.mcActive }) ∧
  (∀ s : State, s.access R.EN_MCMD = true → s.get F.EN_MCSTAT_RESULT = 1 →
    ∃ t, exec .mcInstall s = .next t ∧ (s.nvLocked = true → t.nv.install = true) ∧
      (if s.nvLocked || s.winOpen 20 then bit (t.get F.NV_DIRTY_RING) 20 = true else t.nv.req.contains 20 = true) ∧
      SameRegs [R.NV_DIRTY] s t ∧ t = { s with regs := t.regs, nv := t.nv }) ∧
  (∀ s : State, s.access R.EN_MCMD = true → s.get F.EN_MCSTAT_RESULT ≠ 1 →
    ∃ t, exec .mcInstall s = .next t ∧ t = s) ∧
  (∀ s : State, s.access R.EN_MCMD = true → s.mcActive.2 < 2 ^ 32 →
    ∃ t, exec .mcSetmin s = .next t ∧ t.get F.EN_MCMIN_SVN = max (s.get F.EN_MCMIN_SVN) s.mcActive.2 ∧
      (if s.winOpen 3 then bit (t.get F.NV_DIRTY_RING) 3 = true else t.nv.req.contains 3 = true) ∧
      SameRegs [R.EN_MCMIN, R.NV_DIRTY] s t ∧ t = { s with regs := t.regs, nv := t.nv })

/-- When a third run agrees with the target the shadow cell is retired, when it agrees with the shadow the target's cell is, and
when it agrees with neither NOMAJ counts and the block's shadowing stops; each raises a UC under the block. After the number
of agreeing Quires that COUNT gives, an idle target becomes a spare and its shadow takes its place, and ROTATE counts.
UNRETIRE in SETUP queues the retired cells it names for their test; a passed test returns the cell (to service while fewer
than six serve, else as a spare), a failed one sets UTFAIL. Rules: R238, R239, R240. -/
def Obligations.CellsRetireRotateAndReturn : Prop :=
  (∀ (b : Block) (tg sh th : List Word) (q : Quire) (c x : Nat) (s : State),
    (s.quires.find? fun q => q.third && q.stage != .ready && q.ranOn.any fun e => e.1 == b.val) = some q →
    q.ranOn = some (b.val, c) → q.shadow = some x → x < 7 → tg ≠ sh → tg = th →
    ∃ t, exec (.shadowThirdRunDone b tg sh th) s = .next t ∧ ReportedFirst b .uc s t ∧ t.cellState b x = cellRetired ∧
      t.get (F.EN_SHSTAT_MISMATCH b) = min (s.get (F.EN_SHSTAT_MISMATCH b) + 1) (2 ^ (F.EN_SHSTAT_MISMATCH b).w - 1) ∧
      SameMem s t ∧ t.mode = s.mode ∧ t.dt = s.dt ∧
      t = { s with regs := t.regs, freeCnt := t.freeCnt, inbox := t.inbox, nv := t.nv, churnRun := t.churnRun, churnQueue := t.churnQueue, blocks := t.blocks, planQ := t.planQ, planRun := t.planRun, quires := t.quires }) ∧
  (∀ (b : Block) (tg sh th : List Word) (q : Quire) (c x : Nat) (s : State),
    (s.quires.find? fun q => q.third && q.stage != .ready && q.ranOn.any fun e => e.1 == b.val) = some q →
    q.ranOn = some (b.val, c) → q.shadow = some x → c < 7 → tg ≠ sh → tg ≠ th → sh = th →
    ∃ t, exec (.shadowThirdRunDone b tg sh th) s = .next t ∧ ReportedFirst b .uc s t ∧ t.cellState b c = cellRetired ∧
      t.get (F.EN_SHSTAT_MISMATCH b) = min (s.get (F.EN_SHSTAT_MISMATCH b) + 1) (2 ^ (F.EN_SHSTAT_MISMATCH b).w - 1) ∧
      SameMem s t ∧ t.mode = s.mode ∧ t.dt = s.dt ∧
      t = { s with regs := t.regs, freeCnt := t.freeCnt, inbox := t.inbox, nv := t.nv, churnRun := t.churnRun, churnQueue := t.churnQueue, blocks := t.blocks, planQ := t.planQ, planRun := t.planRun, quires := t.quires }) ∧
  (∀ (b : Block) (tg sh th : List Word) (q : Quire) (c x : Nat) (s : State),
    (s.quires.find? fun q => q.third && q.stage != .ready && q.ranOn.any fun e => e.1 == b.val) = some q →
    q.ranOn = some (b.val, c) → q.shadow = some x → tg ≠ sh → tg ≠ th → sh ≠ th →
    ∃ t, exec (.shadowThirdRunDone b tg sh th) s = .next t ∧ ReportedFirst b .uc s t ∧ t.get (F.EN_SHSTAT_STOPPED b) = 1 ∧
      t.get (F.EN_SHSTAT_NOMAJ b) = min (s.get (F.EN_SHSTAT_NOMAJ b) + 1) (2 ^ (F.EN_SHSTAT_NOMAJ b).w - 1) ∧
      SameMem s t ∧ t.mode = s.mode ∧ t.dt = s.dt ∧
      t = { s with regs := t.regs, freeCnt := t.freeCnt, inbox := t.inbox, nv := t.nv, churnRun := t.churnRun, churnQueue := t.churnQueue, blocks := t.blocks, planQ := t.planQ, planRun := t.planRun, quires := t.quires }) ∧
  (∀ (b : Block) (c x : Nat) (l : List Nat) (s : State), (s.block b).target = some c → s.cellsIn b cellShadow = x :: l → c < 7 → c ≠ x →
    s.get (F.EN_SHCFG_COUNT b) ≤ (s.block b).agree → s.cellBusy b c = false → s.cellBusy b x = false →
    ∃ t, exec (.spareRotation b) s = .next t ∧
      t.get (F.EN_BCNT_ROTATE b) = min (s.get (F.EN_BCNT_ROTATE b) + 1) (2 ^ (F.EN_BCNT_ROTATE b).w - 1) ∧
      t.cellState b x = cellInService ∧ SameRegs [R.EN_BSTAT b, R.EN_BCNT b, R.EN_SHSTAT b] s t ∧
      t = { s with regs := t.regs, blocks := t.blocks }) ∧
  (∀ (b : Block) (m : BitVec 7) (s : State), s.access (R.EN_BCMD b) = true → s.mode = .setup →
    ∃ t, exec (.unretire b m) s = .next t ∧
      (∀ n : Nat, n < 7 → m.toNat.testBit n = true → s.cellState b n = cellRetired → (t.block b).unret.contains n = true) ∧
      t = { s with blocks := t.blocks }) ∧
  (∀ (b : Block) (m : BitVec 7) (s : State), s.access (R.EN_BCMD b) = true → s.mode ≠ .setup →
    ∃ t, exec (.unretire b m) s = .next t ∧ t = s) ∧
  (∀ (b : Block) (c : Cell) (s : State), (s.block b).unret.contains c.val = true → (s.cellsIn b cellInService).length < 6 →
    ∃ t, exec (.unretireTestDone b c true) s = .next t ∧ t.cellState b c = cellInService ∧
      bit (t.get (F.EN_BSTAT_UTFAIL b)) c = false ∧ (if s.winOpen 2 then bit (t.get F.NV_DIRTY_RING) 2 = true else t.nv.req.contains 2 = true) ∧
      SameRegs [R.EN_BSTAT b, R.EN_SHSTAT b, R.NV_DIRTY] s t ∧ t = { s with regs := t.regs, blocks := t.blocks, nv := t.nv }) ∧
  (∀ (b : Block) (c : Cell) (s : State), (s.block b).unret.contains c.val = true → 6 ≤ (s.cellsIn b cellInService).length →
    ∃ t, exec (.unretireTestDone b c true) s = .next t ∧ t.cellState b c = (if (t.cellsIn b cellShadow).contains c.val then cellShadow else cellSpare) ∧
      bit (t.get (F.EN_BSTAT_UTFAIL b)) c = false ∧ (if s.winOpen 2 then bit (t.get F.NV_DIRTY_RING) 2 = true else t.nv.req.contains 2 = true) ∧
      (s.inRun = false → t.cellState b c = cellSpare) ∧
      SameRegs [R.EN_BSTAT b, R.EN_SHSTAT b, R.NV_DIRTY] s t ∧ t = { s with regs := t.regs, blocks := t.blocks, nv := t.nv }) ∧
  (∀ (b : Block) (c : Cell) (s : State), (s.block b).unret.contains c.val = true →
    ∃ t, exec (.unretireTestDone b c false) s = .next t ∧ bit (t.get (F.EN_BSTAT_UTFAIL b)) c = true ∧
      t.cellState b c = s.cellState b c ∧ SameRegs [R.EN_BSTAT b] s t ∧ t = { s with regs := t.regs, blocks := t.blocks })

/-- A recipe load of a slot no stream or transaction names reads and checks the image; its end gives the check's code and
replaces the slot only when the code is 1. A pipe takes the next Quire of the frame it picks, counts a switch and shows the
head; with the frame's last Quire it shows none, and the frame is finished; uncorrectable lines in its buffers raise a UC
under source 16 + r and degrade the frame. A finished frame is reported once. Rules: R245, R253, R270. -/
def Obligations.RecipesAndPipes : Prop :=
  (∀ (n : Fin 8) (s : State), s.access R.EN_RCMD = true → s.recipeLoad = none →
    (s.recipeInUse n || s.txnQ.any fun m => (s.txn m).entries.any fun e =>
      !e.undo && e.addr == R.EN_HRCP e.head && recipeNames e.val.toNat n) = false →
    ∃ t, exec (.recipeLoad n) s = .next t ∧ t.get F.EN_RCMD_SLOT = n ∧
      (∃ l, t.recipeLoad = some l ∧ l.slot = n ∧ l.image = s.recipeImage (4096 * s.get F.EN_RBASE_BASE) ∧
        l.code = recipeCheck (4096 * s.get F.EN_RBASE_BASE) l.image) ∧
      SameRegs [R.EN_RCMD] s t ∧ t = { s with regs := t.regs, recipeLoad := t.recipeLoad }) ∧
  (∀ (n : Fin 8) (s : State), s.access R.EN_RCMD = true →
    ((s.recipeInUse n || s.txnQ.any fun m => (s.txn m).entries.any fun e =>
      !e.undo && e.addr == R.EN_HRCP e.head && recipeNames e.val.toNat n) ||
      s.recipeLoad.isSome) = true →
    ∃ t, exec (.recipeLoad n) s = .next t ∧ t.get F.EN_RSTAT_RESULT = 5 ∧ t.recipeLoad = s.recipeLoad ∧
      SameRegs [R.EN_RCMD, R.EN_RSTAT] s t ∧ OnlyRegs s t) ∧
  (∀ (l : RecipeLoad) (s : State), s.recipeLoad = some l → l.slot < 8 → l.code < 8 →
    ∃ t, exec .recipeLoadDone s = .next t ∧ t.recipeLoad = none ∧ t.get F.EN_RSTAT_RESULT = l.code ∧
      t.recipes = (if l.code = 1 then s.recipes.set l.slot l.image else s.recipes) ∧ SameRegs [R.EN_RSTAT] s t ∧
      t = { s with regs := t.regs, recipeLoad := t.recipeLoad, recipes := t.recipes }) ∧
  (∀ (r : Region) (t : Nat) (f : Frame) (sw : Bool) (s : State), s.inRun = true → s.pipePick r = some (f, sw) → f.begun = true →
    s.frame f.head f.seq = some f → f.taken + 1 < f.quires →
    (({ f with taken := f.taken + 1 } : Frame).rulesDue (16 * (f.taken + 1)) false).isEmpty = true → f.head < 8 →
    ∃ u, exec (.pipeQuireTake r ⟨.none, t⟩) s = .next u ∧ u.get (F.FP_STAT_CUR r) = f.head ∧
      u.get (F.FP_STAT_SWITCH r) = (if sw then min (s.get (F.FP_STAT_SWITCH r) + 1) (2 ^ (F.FP_STAT_SWITCH r).w - 1) else s.get (F.FP_STAT_SWITCH r)) ∧
      (∃ g, u.frame f.head f.seq = some g ∧ g.taken = f.taken + 1) ∧ SameRegs [R.FP_STAT r] s u ∧
      u = { s with dt := max s.dt t, regs := u.regs, pipes := u.pipes, frames := u.frames }) ∧
  (∀ (r : Region) (e : PipeError) (t : Nat) (f : Frame) (sw : Bool) (s : State), s.inRun = true → s.pipePick r = some (f, sw) →
    s.frame f.head f.seq = some f → f.head < 8 →
    ∃ u, exec (.pipeQuireTake r ⟨e, t⟩) s = .next u ∧ u.get (F.FP_STAT_CUR r) = (if f.quires ≤ f.taken + 1 then 0xF else f.head) ∧
      (∃ g, u.frame f.head f.seq = some g ∧ g.taken = f.taken + 1 ∧ (f.quires ≤ f.taken + 1 → g.converted = true)) ∧
      u.mode = s.mode ∧ u.dt = max s.dt t ∧
      u = { s with regs := u.regs, dt := u.dt, freeCnt := u.freeCnt, dram := u.dram, inbox := u.inbox, heads := u.heads, pairVer := u.pairVer, pipes := u.pipes, bufs := u.bufs, csi := u.csi, alarms := u.alarms, rings := u.rings, frames := u.frames }) ∧
  (∀ (r : Region) (t : Nat) (f : Frame) (sw : Bool) (l : List Nat) (s : State), s.inRun = true → s.pipePick r = some (f, sw) →
    f.begun = true → s.frame f.head f.seq = some f →
    ∃ u, exec (.pipeQuireTake r ⟨.lines l, t⟩) s = .next u ∧ ReportedFirst (16 + r) .uc s u ∧
      (∃ g, u.frame f.head f.seq = some g ∧ g.degraded = true) ∧
      u = { s with dt := u.dt, pipes := u.pipes, inbox := u.inbox, freeCnt := u.freeCnt, pairVer := u.pairVer, regs := u.regs, frames := u.frames, heads := u.heads, dram := u.dram, bufs := u.bufs, alarms := u.alarms, rings := u.rings, csi := u.csi }) ∧
  (∀ (h : Head) (t : Nat) (f : Frame) (s : State), s.mode ≠ .reset → s.mode ≠ .dormant → s.mode ≠ .safe →
    (s.frames.find? fun f => f.head == h.val && !f.reported) = some f → f.decimated = false → f.held = false → f.mute = false →
    f.role = .picture → f.finished = true → f.complete = true →
    ∃ u, exec (.frameCompleteReport h t) s = .next u ∧ (∀ g ∈ u.frames, g.head = h.val → g.seq = f.seq → g.reported = true) ∧
      u.nvm = s.nvm ∧ u.dt = max s.dt t ∧ (s.power.trans ≠ some .down → u.mode = s.mode) ∧
      u = { s with mode := u.mode, regs := u.regs, dt := u.dt, freeCnt := u.freeCnt, dram := u.dram, nvm := u.nvm, host := u.host, heads := u.heads, nv := u.nv, churnRun := u.churnRun, churnQueue := u.churnQueue, blocks := u.blocks, bufs := u.bufs, csi := u.csi, samples := u.samples, rings := u.rings, c0Mark := u.c0Mark, dma := u.dma, power := u.power, frames := u.frames, quires := u.quires }) ∧
  (∀ (h : Head) (t : Nat) (f : Frame) (s : State), s.mode = .run → s.power.trans = none →
    (s.frames.filter fun f => f.head == h.val && !f.reported) = [f] → f.outputs = true → f.finished = true → f.complete = true →
    ∃ u, exec (.frameCompleteReport h t) s = .next u ∧
      (∀ g ∈ u.frames, g.head = h.val → g.reported = true) ∧ u.mode = s.mode ∧
      (f.chosen = [] → SameRegs [] s u ∧ u = { s with dt := max s.dt t, frames := u.frames, samples := u.samples }))

/-- TX_CFG outside SETUP sets DIRECT_REFUSED only; in SETUP LANES 3 sets VALUE_REJ, a port left off takes the value, and one
turned on takes it when its streams are sound and fit the link, else CFGRES says why not. CLRCNT in SETUP clears the port's
counters. With a frame waiting and none being sent, the port sends its frame start. The packet after the last line is the
frame end and counts SENT; a long packet carries its line; a late one carries zeros after the data that came, counts
UNDERRUN and raises a CE under source 52. Rules: R275, R276, R279, R282. -/
def Obligations.CsiPortsSendFrames : Prop :=
  (∀ (p : Fin 4) (v : Word) (s : State), s.access (R.TX_CFG p) = true → s.mode ≠ .setup →
    ∃ t, exec (.txCfgWrite p v) s = .next t ∧ t.get (F.TX_STAT_DIRECT_REFUSED p) = 1 ∧ SameRegs [R.TX_STAT p] s t ∧ OnlyRegs s t) ∧
  (∀ (p : Fin 4) (v : Word) (s : State), s.access (R.TX_CFG p) = true → s.mode = .setup → fieldOf (F.TX_CFG_LANES p) v = 3 →
    ∃ t, exec (.txCfgWrite p v) s = .next t ∧ t.get (F.TX_STAT_VALUE_REJ p) = 1 ∧ SameRegs [R.TX_STAT p] s t ∧ OnlyRegs s t) ∧
  (∀ (p : Fin 4) (v : Word) (s : State), s.access (R.TX_CFG p) = true → s.mode = .setup → fieldOf (F.TX_CFG_LANES p) v ≠ 3 →
    fieldOf (F.TX_CFG_EN p) v = 0 → fieldOf (F.TX_CFG_CLRCNT p) v = 0 →
    ∃ t, exec (.txCfgWrite p v) s = .next t ∧ t.reg (R.TX_CFG p) = v &&& 0x1F ∧ SameRegs [R.TX_CFG p] s t ∧ OnlyRegs s t) ∧
  (∀ (p : Fin 4) (v : Word) (s : State), s.access (R.TX_CFG p) = true → s.mode = .setup → fieldOf (F.TX_CFG_LANES p) v ≠ 3 →
    fieldOf (F.TX_CFG_EN p) v = 1 → fieldOf (F.TX_CFG_CLRCNT p) v = 0 →
    ∃ t, exec (.txCfgWrite p v) s = .next t ∧
      t.get (F.TX_STAT_CFGRES p) = (if (s.setReg (R.TX_CFG p) (v &&& 0x1F)).portBad p = true then 3
        else if (s.setReg (R.TX_CFG p) (v &&& 0x1F)).txOver p = true then 2 else 1) ∧
      t.reg (R.TX_CFG p) = (if t.get (F.TX_STAT_CFGRES p) = 1 then v &&& 0x1F else s.reg (R.TX_CFG p)) ∧
      SameRegs [R.TX_CFG p, R.TX_STAT p] s t ∧ t = { s with regs := t.regs, csi := t.csi }) ∧
  (∀ (p : Fin 4) (s : State), s.access (R.TX_CFG p) = true → s.mode ≠ .setup →
    ∃ t, exec (.txClrcnt p) s = .next t ∧ t.get (F.TX_STAT_DIRECT_REFUSED p) = 1 ∧ SameRegs [R.TX_STAT p] s t ∧ OnlyRegs s t) ∧
  (∀ (p : Fin 4) (s : State), s.access (R.TX_CFG p) = true → s.mode = .setup →
    ∃ t, exec (.txClrcnt p) s = .next t ∧ t.reg (R.TX_CNT0 p) = 0 ∧ t.reg (R.TX_CNT1 p) = 0 ∧
      SameRegs [R.TX_CNT0 p, R.TX_CNT1 p] s t ∧ OnlyRegs s t) ∧
  (∀ (p : Fin 4) (j : Nat) (b : BufRec) (s : State), s.csiOn p = true → s.csiPick p = some j → j < 8 →
    (s.port p).streams.length = 8 → ((s.port p).streams.getD j {}).sending = none → ((s.port p).streams.getD j {}).waiting = some b →
    ∃ t, exec (.csiFrameStart p) s = .next t ∧ (t.port p).streams.getD j {} = { sending := some b, next := 1, vc := s.get (F.TX_S_VC p j) } ∧ (t.port p).rr = j ∧
      (t.port p).sent = some ⟨0, s.get (F.TX_S_VC p j), leBytes 2 (b.seq % 65535 + 1)⟩ ∧ (t.port p).hs = true ∧
      t.get (F.TX_STAT_ACTIVE p) = 1 ∧ SameRegs [R.TX_STAT p] s t ∧ t = { s with regs := t.regs, csi := t.csi }) ∧
  (∀ (p : Fin 4) (late : Bool) (j : Nat) (b : BufRec) (s : State), s.csiOn p = true → s.csiPick p = some j → j < 8 →
    (s.port p).streams.length = 8 → ((s.port p).streams.getD j {}).sending = some b →
    csiPart (s.flag (F.TX_CFG_LSE p)) b.oh ((s.port p).streams.getD j {}).next = .frameEnd →
    ∃ t, exec (.csiPacketSend p late) s = .next t ∧ ((t.port p).streams.getD j {}).sending = none ∧
      (t.port p).sent = some ⟨1, ((s.port p).streams.getD j {}).vc, leBytes 2 (b.seq % 65535 + 1)⟩ ∧
      t.get (F.TX_CNT0_SENT p) = min (s.get (F.TX_CNT0_SENT p) + 1) (2 ^ (F.TX_CNT0_SENT p).w - 1) ∧
      SameRegs [R.TX_STAT p, R.TX_CNT0 p] s t ∧ t = { s with regs := t.regs, csi := t.csi }) ∧
  (∀ (p : Fin 4) (late stop : Bool) (j : Nat) (b : BufRec) (s : State), s.csiOn p = true → s.csiPick p = some j → j < 8 →
    (s.port p).streams.length = 8 → ((s.port p).streams.getD j {}).sending = some b →
    csiPart (s.flag (F.TX_CFG_LSE p)) b.oh ((s.port p).streams.getD j {}).next = .lineMark stop →
    ∃ t, exec (.csiPacketSend p late) s = .next t ∧
      ((t.port p).streams.getD j {}).next = ((s.port p).streams.getD j {}).next + 1 ∧
      (∃ k, (t.port p).sent = some k ∧ k.dt = (if stop then 3 else 2) ∧ k.vc = ((s.port p).streams.getD j {}).vc ∧ k.payload.length = 2) ∧
      SameRegs [R.TX_STAT p] s t ∧ t = { s with regs := t.regs, csi := t.csi, freeCnt := t.freeCnt }) ∧
  (∀ (p : Fin 4) (j m : Nat) (b : BufRec) (s : State), s.csiOn p = true → s.csiPick p = some j → j < 8 →
    (s.port p).streams.length = 8 → ((s.port p).streams.getD j {}).sending = some b →
    csiPart (s.flag (F.TX_CFG_LSE p)) b.oh ((s.port p).streams.getD j {}).next = .long m →
    ∃ t, exec (.csiPacketSend p false) s = .next t ∧
      ((t.port p).streams.getD j {}).next = ((s.port p).streams.getD j {}).next + 1 ∧
      (t.port p).sent = some ⟨(s.csiLong b m).1, ((s.port p).streams.getD j {}).vc, (s.csiLong b m).2⟩ ∧
      SameRegs [R.TX_STAT p] s t ∧ t = { s with regs := t.regs, csi := t.csi }) ∧
  (∀ (p : Fin 4) (j m : Nat) (b : BufRec) (s : State), s.csiOn p = true → s.csiPick p = some j → j < 8 →
    (s.port p).streams.length = 8 → ((s.port p).streams.getD j {}).sending = some b →
    csiPart (s.flag (F.TX_CFG_LSE p)) b.oh ((s.port p).streams.getD j {}).next = .long m →
    ∃ t, exec (.csiPacketSend p true) s = .next t ∧
      ((t.port p).streams.getD j {}).next = ((s.port p).streams.getD j {}).next + 1 ∧
      ((t.port p).sent.map fun k => k.payload.length) = some (s.csiLong b m).2.length ∧
      t.get (F.TX_CNT1_UNDERRUN p) = min (s.get (F.TX_CNT1_UNDERRUN p) + 1) (2 ^ (F.TX_CNT1_UNDERRUN p).w - 1) ∧ Reported 52 .ce s t ∧
      SameRegs [R.TX_STAT p, R.TX_CNT1 p] s t ∧ SameMem s t ∧ t.mode = s.mode ∧
      t = { s with regs := t.regs, freeCnt := t.freeCnt, inbox := t.inbox, csi := t.csi })

/-- An enabled monitor whose source runs counts a sample of it, the measured value or, of a source that the block's own events
feed, the oldest they have made, follows the smallest and largest, and counts it in its bin, below or above. A snapshot
copies the counters of the monitors it names and the instant, and leaves the others; a clear zeroes the counters of the
monitors it names. A period write starts a new window now; the end of a period snapshots and clears the enabled monitors and
starts the next window at the period's end. A legal selection is stored and clears the monitor; an illegal one sets
VALUE_REJ only. Rules: R295, R297, R299. -/
def Obligations.MonitorsCountAndSnapshot : Prop :=
  (∀ (n : Fin 32) (v w : Int) (t : Nat) (s : State), s.up = true → s.flag (F.MON_CFG_EN n) = true → s.monCount n = 0 →
    (s.get F.MON_PER_PER = 0 ∨ t < s.monWin + 1000 * s.get F.MON_PER_PER) → eventSource (s.get (F.MON_CFG_SRC n)) = false →
    s.sourceRuns (s.get (F.MON_CFG_SRC n)) (s.get (F.MON_CFG_SEL n)) = true →
    w = s.sampleValue (s.get (F.MON_CFG_SRC n)) (s.get (F.MON_CFG_SEL n)) v →
    ∃ u, exec (.monitorSample n v t) s = .next u ∧ u.monCount n = 1 ∧ u.get (F.MON_MIN_VALUE n) = unsigned 32 w ∧
      u.get (F.MON_MAX_VALUE n) = unsigned 32 w ∧
      SameRegs ([R.MON_MIN n, R.MON_MAX n, R.MON_CNT_LO n, R.MON_CNT_HI n, R.MON_UNDER n, R.MON_OVER n] ++ (List.range 64).map (R.MON_HIST n)) s u ∧
      u = { s with dt := max s.dt t, regs := u.regs, pairVer := u.pairVer }) ∧
  (∀ (n : Fin 32) (v w : Int) (t : Nat) (s : State), s.up = true → s.flag (F.MON_CFG_EN n) = true → s.monCount n < 2 ^ 64 - 1 →
    (s.get F.MON_PER_PER = 0 ∨ t < s.monWin + 1000 * s.get F.MON_PER_PER) → eventSource (s.get (F.MON_CFG_SRC n)) = false →
    s.sourceRuns (s.get (F.MON_CFG_SRC n)) (s.get (F.MON_CFG_SEL n)) = true →
    w = s.sampleValue (s.get (F.MON_CFG_SRC n)) (s.get (F.MON_CFG_SEL n)) v →
    ∃ u, exec (.monitorSample n v t) s = .next u ∧ u.monCount n = s.monCount n + 1 ∧
      (w < signed 32 (s.get (F.MON_BLO_BLO n)) →
        u.get (F.MON_UNDER_COUNT n) = min (s.get (F.MON_UNDER_COUNT n) + 1) (2 ^ (F.MON_UNDER_COUNT n).w - 1)) ∧
      (signed 32 (s.get (F.MON_BLO_BLO n)) + 64 * (2 ^ s.get (F.MON_CFG_BSH n) : Nat) ≤ w →
        u.get (F.MON_OVER_COUNT n) = min (s.get (F.MON_OVER_COUNT n) + 1) (2 ^ (F.MON_OVER_COUNT n).w - 1)) ∧
      (∀ i : Nat, i < 64 → signed 32 (s.get (F.MON_BLO_BLO n)) + i * (2 ^ s.get (F.MON_CFG_BSH n) : Nat) ≤ w →
        w < signed 32 (s.get (F.MON_BLO_BLO n)) + (i + 1) * (2 ^ s.get (F.MON_CFG_BSH n) : Nat) →
        u.get (F.MON_HIST_W n i) = min (s.get (F.MON_HIST_W n i) + 1) (2 ^ (F.MON_HIST_W n i).w - 1)) ∧
      u = { s with dt := max s.dt t, regs := u.regs, pairVer := u.pairVer }) ∧
  (∀ (n : Fin 32) (v : Int) (t : Nat) (e : Nat × Int × Nat) (s : State), s.up = true → s.flag (F.MON_CFG_EN n) = true →
    s.monCount n < 2 ^ 64 - 1 → (s.get F.MON_PER_PER = 0 ∨ t < s.monWin + 1000 * s.get F.MON_PER_PER) →
    eventSource (s.get (F.MON_CFG_SRC n)) = true → (s.samples.find? fun e => e.1 == n.val) = some e →
    ∃ u, exec (.monitorSample n v t) s = .next u ∧ u.monCount n = s.monCount n + 1 ∧ u.samples = s.samples.erase e ∧
      (s.monCount n = 0 → u.get (F.MON_MIN_VALUE n) = unsigned 32 e.2.1 ∧ u.get (F.MON_MAX_VALUE n) = unsigned 32 e.2.1) ∧
      u = { s with dt := max s.dt t, regs := u.regs, pairVer := u.pairVer, samples := u.samples }) ∧
  (∀ (n : Fin 32) (v : Int) (t : Nat) (s : State), s.up = true → s.flag (F.MON_CFG_EN n) = true →
    (s.get F.MON_PER_PER = 0 ∨ t < s.monWin + 1000 * s.get F.MON_PER_PER) → eventSource (s.get (F.MON_CFG_SRC n)) = false →
    s.sourceRuns (s.get (F.MON_CFG_SRC n)) (s.get (F.MON_CFG_SEL n)) = false →
    ∃ u, exec (.monitorSample n v t) s = .next u ∧ u = { s with dt := max s.dt t }) ∧
  (∀ (m : Word) (t : Nat) (s : State), s.access R.MON_SNAP = true → (∀ e ∈ s.samples, max s.dt t ≤ e.2.2) →
    ∃ u, exec (.monSnap m t) s = .next u ∧
      (∀ n : Nat, n < 32 → m.toNat.testBit n = true → u.reg (R.MON_SMIN n) = s.reg (R.MON_MIN n) ∧ u.reg (R.MON_SMAX n) = s.reg (R.MON_MAX n) ∧
        u.reg (R.MON_SUNDER n) = s.reg (R.MON_UNDER n) ∧ u.reg (R.MON_SOVER n) = s.reg (R.MON_OVER n) ∧
        u.get64 (F.MON_SDT_LO_DT n) (F.MON_SDT_HI_DT n) = max s.dt t % 2 ^ 64) ∧
      (∀ n : Nat, n < 32 → m.toNat.testBit n = false → u.reg (R.MON_SMIN n) = s.reg (R.MON_SMIN n) ∧ u.reg (R.MON_SMAX n) = s.reg (R.MON_SMAX n)) ∧
      (∀ n : Nat, n < 32 → u.reg (R.MON_MIN n) = s.reg (R.MON_MIN n) ∧ u.monCount n = s.monCount n) ∧
      SameMem s u ∧ u.mode = s.mode ∧ u.dt = max s.dt t ∧ u.inbox = s.inbox ∧
      u = { s with regs := u.regs, dt := u.dt, pairVer := u.pairVer, samples := u.samples }) ∧
  (∀ (m : Word) (s : State), s.access R.MON_CLR = true →
    ∃ t, exec (.monClr m) s = .next t ∧
      (∀ n : Nat, n < 32 → m.toNat.testBit n = true → t.reg (R.MON_MIN n) = 0 ∧ t.reg (R.MON_MAX n) = 0 ∧ t.reg (R.MON_UNDER n) = 0 ∧
        t.reg (R.MON_OVER n) = 0 ∧ t.monCount n = 0) ∧
      (∀ n : Nat, n < 32 → m.toNat.testBit n = false → t.reg (R.MON_MIN n) = s.reg (R.MON_MIN n) ∧ t.monCount n = s.monCount n) ∧
      t = { s with regs := t.regs, pairVer := t.pairVer, samples := t.samples }) ∧
  (∀ (v : Word) (t : Nat) (s : State), s.access R.MON_PER = true →
    ∃ u, exec (.monPerWrite v t) s = .next u ∧ u.reg R.MON_PER = v ∧ u.monWin = max s.dt t ∧ SameRegs [R.MON_PER] s u ∧
      u = { s with dt := max s.dt t, regs := u.regs, monWin := u.monWin }) ∧
  (∀ (t : Nat) (s : State), s.up = true → s.get F.MON_PER_PER ≠ 0 → s.monWin + 1000 * s.get F.MON_PER_PER ≤ t →
    (∀ e ∈ s.samples, s.monWin + 1000 * s.get F.MON_PER_PER ≤ e.2.2) →
    ∃ u, exec (.monitorPeriodEnd t) s = .next u ∧ u.monWin = s.monWin + 1000 * s.get F.MON_PER_PER ∧
      (∀ n : Nat, n < 32 → s.flag (F.MON_CFG_EN n) = true → u.monCount n = 0 ∧ u.reg (R.MON_SMIN n) = s.reg (R.MON_MIN n)) ∧
      (∀ n : Nat, n < 32 → s.flag (F.MON_CFG_EN n) = false → u.monCount n = s.monCount n) ∧
      SameDramBut (4096 * s.get F.MON_SNBASE_BASE) 131072 s u ∧ u.nvm = s.nvm ∧ u.host = s.host ∧ u.mode = s.mode ∧
      u.dt = max s.dt t ∧
      (s.get F.MON_SNBASE_BASE = 0 →
        u = { s with dt := max s.dt t, regs := u.regs, monWin := u.monWin, pairVer := u.pairVer }) ∧
      (s.get F.MON_SNBASE_BASE ≠ 0 → u.get F.MON_SNIDX_COUNT =
        (s.get F.MON_SNIDX_COUNT + (List.range 32).countP fun n => s.flag (F.MON_CFG_EN n)) % 2 ^ F.MON_SNIDX_COUNT.w)) ∧
  (∀ (n : Fin 32) (v : Word) (s : State), s.access (R.MON_CFG n) = true →
    (match monSelRange (fieldOf (F.MON_CFG_SRC n) v) with | some m => decide (fieldOf (F.MON_CFG_SEL n) v < m) | none => false) = true →
    ∃ t, exec (.monCfgWrite n false v) s = .next t ∧ t.reg (R.MON_CFG n) = v &&& 0x9FFFFFFF ∧ t.monCount n = 0 ∧
      t.reg (R.MON_MIN n) = 0 ∧ t.reg (R.MON_UNDER n) = 0 ∧
      t = { s with regs := t.regs, pairVer := t.pairVer, samples := t.samples }) ∧
  (∀ (n : Fin 32) (v : Word) (s : State), s.access (R.MON_CFG n) = true →
    (match monSelRange (fieldOf (F.MON_CFG_SRC n) v) with | some m => decide (fieldOf (F.MON_CFG_SEL n) v < m) | none => false) = false →
    ∃ t, exec (.monCfgWrite n false v) s = .next t ∧ t.get (F.MON_STAT_VALUE_REJ n) = 1 ∧ SameRegs [R.MON_STAT n] s t ∧ OnlyRegs s t) ∧
  (∀ (n : Fin 32) (v : Word) (s : State), s.access (R.MON_CFG n) = true →
    ∃ t, exec (.monCfgWrite n true v) s = .next t ∧ t.reg (R.MON_BLO n) = v ∧ t.monCount n = 0 ∧ t.reg (R.MON_MIN n) = 0 ∧
      t.reg (R.MON_CFG n) = s.reg (R.MON_CFG n) ∧ t = { s with regs := t.regs, pairVer := t.pairVer, samples := t.samples })

/-- OPEN gives the lowest free handle with a fresh status, or result 2 when all sixteen are taken. STAGE appends a legal entry
to an open handle and counts it; an address that cannot be staged sets SBAD. COMMIT of a transaction without entries for
streaming heads is accepted: it becomes COMMITTED and joins the queue. With entries it is accepted when the entries are
legal, their values hold, no port has too much load, no replan is needed and every listed head has room; without room it is
refused with that code; a value that a plan must carry waits for the planner; an illegal entry is refused with BAD_ENTRY and
a bad value with BAD_VALUE, naming the entry, and the transaction stays open. With no head listed it is refused with
BAD_ENTRY and stays open. ROLLBACK frees an open handle. A handle that does not fit is answered with CMDREJ; a COMMITTED
transaction rolled back ends with 0xC. A transaction without a frame k whose DLMS runs out ends with 8. Rules: R301, R302,
R305, R307, R314. -/
def Obligations.TransactionsOpenStageAndCommit : Prop :=
  (∀ (p : Port) (n : Nat) (s : State), s.txnAccess = true → ((List.range 16).find? fun n => s.txnState n == 0) = some n →
    s.openRes.length = 2 →
    ∃ t, exec (.txnOpen p) s = .next t ∧ t.openRes.getD (portIx p) (0, 0) = (1, n + 1) ∧ t.txnState n = 1 ∧ (t.txn n).entries = [] ∧
      t.reg (R.TXN_HINFO n) = 0xFFFF0000 ∧ SameRegs [R.TXN_HSTAT n, R.TXN_HINFO n] s t ∧
      t = { s with regs := t.regs, txns := t.txns, openRes := t.openRes }) ∧
  (∀ (p : Port) (s : State), s.txnAccess = true → ((List.range 16).find? fun n => s.txnState n == 0) = none → s.openRes.length = 2 →
    ∃ t, exec (.txnOpen p) s = .next t ∧ (t.openRes.getD (portIx p) (0, 0)).1 = 2 ∧ t = { s with openRes := t.openRes }) ∧
  (∀ (v : Word) (n : Nat) (s : State), s.txnAccess = true → s.openHandle (s.get F.TXN_SHND_HANDLE) = some n →
    (stageClass (canonAddr (s.get F.TXN_SADDR_ADDR))).isSome = true →
    (bit v.toNat 1 = false ∨ ∀ h : Nat, h < 8 → canonAddr (s.get F.TXN_SADDR_ADDR) ≠ R.HCP_CMD h) →
    (s.txn n).entries.length < 4096 →
    ∃ t, exec (.txnStage v) s = .next t ∧
      (t.txn n).entries = (s.txn n).entries ++ [{ entryOf (s.reg R.TXN_SADDR) v with addr := canonAddr (s.get F.TXN_SADDR_ADDR) }] ∧
      t.get (F.TXN_HSTAT_COUNT n) = ((s.txn n).entries.length + 1) % 2 ^ (F.TXN_HSTAT_COUNT n).w ∧ SameRegs [R.TXN_HSTAT n] s t ∧
      t = { s with regs := t.regs, txns := t.txns }) ∧
  (∀ (v : Word) (n : Nat) (s : State), s.txnAccess = true → s.openHandle (s.get F.TXN_SHND_HANDLE) = some n →
    (stageClass (canonAddr (s.get F.TXN_SADDR_ADDR)) = none ∨
      (bit v.toNat 1 = true ∧ ((List.range 8).any fun h => canonAddr (s.get F.TXN_SADDR_ADDR) == R.HCP_CMD h) = true)) →
    ∃ t, exec (.txnStage v) s = .next t ∧ t.get (F.TXN_HSTAT_SBAD n) = 1 ∧ SameRegs [R.TXN_HSTAT n] s t ∧ OnlyRegs s t) ∧
  (∀ (v : Word) (n : Nat) (s : State), s.txnAccess = true → s.openHandle (s.get F.TXN_SHND_HANDLE) = some n →
    (stageClass (canonAddr (s.get F.TXN_SADDR_ADDR))).isSome = true →
    (bit v.toNat 1 = false ∨ ∀ h : Nat, h < 8 → canonAddr (s.get F.TXN_SADDR_ADDR) ≠ R.HCP_CMD h) →
    4096 ≤ (s.txn n).entries.length →
    ∃ t, exec (.txnStage v) s = .next t ∧ t.get (F.TXN_HSTAT_SFULL n) = 1 ∧ SameRegs [R.TXN_HSTAT n] s t ∧ OnlyRegs s t) ∧
  (∀ (d : Fin 32) (t n : Nat) (s : State), s.txnAccess = true → s.openHandle d = some n → (s.txn n).planWait = false → (s.txn n).entries = [] →
    s.commitEntries (s.candidate []) (listedHeads (s.reg R.TXN_CCFG)) [] = (0, 0xFFFF) →
    ((listedHeads (s.reg R.TXN_CCFG)).all fun h => s.streams h) = true → s.txnQ.contains n = false → s.commitRoom (listedHeads (s.reg R.TXN_CCFG)) = 0 →
    (s.txnQ.all fun m => (s.txn m).heads.all fun x => !x.idle || x.switched) = true →
    ∃ u, exec (.txnCommit d t) s = .next u ∧ u.txnState n = 2 ∧ u.txnQ = s.txnQ ++ [n] ∧ (u.txn n).accAt = t ∧
      u.get (F.TXN_HSTAT_RESULT n) = 0 ∧ ((u.txn n).heads.map fun x => x.head) = listedHeads (s.reg R.TXN_CCFG) ∧
      SameRegs [R.TXN_CMD, R.TXN_HSTAT n, R.TXN_HINFO n] s u ∧
      u = { s with dt := max s.dt t, regs := u.regs, txns := u.txns, txnQ := u.txnQ }) ∧
  (∀ (d : Fin 32) (t n : Nat) (s : State), s.txnAccess = true → s.openHandle d = some n → (s.txn n).planWait = false →
    s.commitEntries (s.candidate (s.txn n).entries) (listedHeads (s.reg R.TXN_CCFG)) (s.txn n).entries = (0, 0xFFFF) →
    s.commitPlans (s.candidate (s.txn n).entries) (s.txn n).entries = false →
    s.loadPorts (s.candidate (s.txn n).entries) = [] → ((s.txn n).entries.all fun e => e.swaps.isEmpty) = true →
    ((listedHeads (s.reg R.TXN_CCFG)).all fun h => s.streams h) = true → s.txnQ.contains n = false → s.commitRoom (listedHeads (s.reg R.TXN_CCFG)) = 0 →
    (s.txnQ.all fun m => (s.txn m).heads.all fun x => !x.idle || x.switched) = true →
    ∃ u, exec (.txnCommit d t) s = .next u ∧ u.txnState n = 2 ∧ u.txnQ = s.txnQ ++ [n] ∧ (u.txn n).accAt = t ∧
      (u.txn n).entries = (s.txn n).entries ∧ u.get (F.TXN_HSTAT_RESULT n) = 0 ∧
      ((u.txn n).heads.map fun x => (x.head, x.idle)) = (listedHeads (s.reg R.TXN_CCFG)).map (fun h => (h, false)) ∧
      SameRegs [R.TXN_CMD, R.TXN_HSTAT n, R.TXN_HINFO n] s u ∧
      u = { s with dt := max s.dt t, regs := u.regs, txns := u.txns, txnQ := u.txnQ }) ∧
  (∀ (d : Fin 32) (t n : Nat) (s : State), s.txnAccess = true → s.openHandle d = some n → (s.txn n).planWait = false →
    s.commitEntries (s.candidate (s.txn n).entries) (listedHeads (s.reg R.TXN_CCFG)) (s.txn n).entries = (0, 0xFFFF) →
    s.commitPlans (s.candidate (s.txn n).entries) (s.txn n).entries = false →
    s.loadPorts (s.candidate (s.txn n).entries) = [] → ((s.txn n).entries.all fun e => e.swaps.isEmpty) = true →
    s.commitRoom (listedHeads (s.reg R.TXN_CCFG)) ≠ 0 →
    ∃ u, exec (.txnCommit d t) s = .next u ∧ u.txnState n = 1 ∧ u.get (F.TXN_HSTAT_RESULT n) = s.commitRoom (listedHeads (s.reg R.TXN_CCFG)) ∧
      u.get (F.TXN_HINFO_ENTRY n) = 0xFFFF ∧ SameRegs [R.TXN_CMD, R.TXN_HSTAT n, R.TXN_HINFO n] s u ∧
      u = { s with dt := max s.dt t, regs := u.regs, txns := u.txns }) ∧
  (∀ (d : Fin 32) (t n : Nat) (s : State), s.txnAccess = true → s.openHandle d = some n → (s.txn n).planWait = false →
    s.commitEntries (s.candidate (s.txn n).entries) (listedHeads (s.reg R.TXN_CCFG)) (s.txn n).entries = (0, 0xFFFF) →
    s.commitPlans (s.candidate (s.txn n).entries) (s.txn n).entries = true →
    ∃ u, exec (.txnCommit d t) s = .next u ∧ (u.txn n).planWait = true ∧ u.txnState n = 1 ∧
      ((u.planRun.toList ++ u.planQ).any fun r => r.kind == .commit && r.arg == n) = true ∧
      SameRegs [R.TXN_CMD, R.SYS_PLAN_STAT] s u ∧
      u = { s with dt := max s.dt t, regs := u.regs, txns := u.txns, planRun := u.planRun, planQ := u.planQ }) ∧
  (∀ (d : Fin 32) (t n entry : Nat) (s : State), s.txnAccess = true → s.openHandle d = some n → (s.txn n).planWait = false →
    s.commitEntries (s.candidate (s.txn n).entries) (listedHeads (s.reg R.TXN_CCFG)) (s.txn n).entries = (4, entry) →
    ∃ u, exec (.txnCommit d t) s = .next u ∧ u.txnState n = 1 ∧ u.get (F.TXN_HSTAT_RESULT n) = 4 ∧
      u.get (F.TXN_HINFO_ENTRY n) = entry % 65536 ∧ (u.txn n).entries = (s.txn n).entries ∧
      SameRegs [R.TXN_CMD, R.TXN_HSTAT n, R.TXN_HINFO n] s u ∧
      u = { s with dt := max s.dt t, regs := u.regs, txns := u.txns }) ∧
  (∀ (d : Fin 32) (t n entry : Nat) (s : State), s.txnAccess = true → s.openHandle d = some n → (s.txn n).planWait = false →
    s.commitEntries (s.candidate (s.txn n).entries) (listedHeads (s.reg R.TXN_CCFG)) (s.txn n).entries = (3, entry) →
    ∃ u, exec (.txnCommit d t) s = .next u ∧ u.txnState n = 1 ∧ u.get (F.TXN_HSTAT_RESULT n) = 3 ∧
      u.get (F.TXN_HINFO_ENTRY n) = entry % 65536 ∧ (u.txn n).entries = (s.txn n).entries ∧
      u = { s with dt := max s.dt t, regs := u.regs, txns := u.txns }) ∧
  (∀ (d : Fin 32) (t n : Nat) (s : State), s.txnAccess = true → s.openHandle d = some n → (s.txn n).planWait = false →
    s.get F.TXN_CCFG_HEADS = 0 →
    ∃ u, exec (.txnCommit d t) s = .next u ∧ u.txnState n = 1 ∧ u.get (F.TXN_HSTAT_RESULT n) = 4 ∧
      u.get (F.TXN_HINFO_ENTRY n) = 0xFFFF ∧ SameRegs [R.TXN_CMD, R.TXN_HSTAT n, R.TXN_HINFO n] s u ∧
      u = { s with dt := max s.dt t, regs := u.regs, txns := u.txns }) ∧
  (∀ (d : Fin 32) (t : Nat) (s : State), s.txnAccess = true → (∀ n, s.openHandle d = some n → (s.txn n).planWait = true) →
    ∃ u, exec (.txnCommit d t) s = .next u ∧ u.get F.TXN_OPENRES_CMDREJ = 1 ∧ u.get F.TXN_CMD_HANDLE = d ∧
      SameRegs [R.TXN_CMD, R.TXN_OPENRES] s u ∧ u = { s with dt := max s.dt t, regs := u.regs }) ∧
  (∀ (d : Fin 32) (n : Nat) (s : State), s.txnAccess = true → s.openHandle d = some n →
    ∃ t, exec (.txnRollback d) s = .next t ∧ t.txnState n = 0 ∧ (t.txn n).entries = [] ∧ SameRegs [R.TXN_CMD, R.TXN_HSTAT n] s t ∧
      ((s.txn n).cmd = none → t.cmdDone = s.cmdDone) ∧
      t = { s with regs := t.regs, txns := t.txns, cmdDone := t.cmdDone }) ∧
  (∀ (d : Fin 32) (n : Nat) (s : State), s.txnAccess = true → d.val = n + 1 → n < 16 → s.txnState n = 2 →
    ∃ t, exec (.txnRollback d) s = .next t ∧ t.txnState n = 0 ∧ t.get (F.TXN_HSTAT_RESULT n) = 0xC ∧
      t.txnQ = s.txnQ.filter (fun m => m != n) ∧ SameMem s t ∧ t.mode = s.mode ∧ t.dt = s.dt ∧
      t = { s with regs := t.regs, dt := t.dt, freeCnt := t.freeCnt, heads := t.heads, ring := t.ring, cmdDone := t.cmdDone, churnRun := t.churnRun, churnQueue := t.churnQueue, txns := t.txns, txnQ := t.txnQ }) ∧
  (∀ (d : Fin 32) (s : State), s.txnAccess = true → (d.val = 0 ∨ 16 < d.val ∨ ¬ (s.txnState (d - 1) = 1 ∨ s.txnState (d - 1) = 2)) →
    ∃ t, exec (.txnRollback d) s = .next t ∧ t.get F.TXN_OPENRES_CMDREJ = 1 ∧ SameRegs [R.TXN_CMD, R.TXN_OPENRES] s t ∧ OnlyRegs s t) ∧
  (∀ (n : Fin 16) (t : Nat) (s : State), 2 ≤ s.txnState n → s.txnState n ≤ 4 → fieldOf F.TXN_CCFG_DLMS (s.txn n).ccfg ≠ 0 →
    (s.txn n).accAt + fieldOf F.TXN_CCFG_DLMS (s.txn n).ccfg * 1000000 ≤ t → ((s.txn n).heads.all fun x => x.k.isNone) = true →
    ((s.txn n).heads.any fun x => !x.idle) = true → ((s.txn n).heads.any fun x => x.began && !x.switched) = false →
    s.txnQ.contains n.val = true → s.dependents n = [] →
    (s.txnQ.all fun m => m == n.val || (s.txn m).heads.all fun x => !x.idle || x.switched) = true →
    ∃ u, exec (.txnDeadline n t) s = .next u ∧ u.txnState n = 0 ∧ u.get (F.TXN_HSTAT_RESULT n) = 8 ∧
      u.txnQ = s.txnQ.filter (fun m => m != n.val) ∧ SameMem s u ∧ u.mode = s.mode ∧ u.dt = max s.dt t ∧
      u = { s with regs := u.regs, dt := u.dt, freeCnt := u.freeCnt, inbox := u.inbox, heads := u.heads, shutters := u.shutters, ring := u.ring, cmdDone := u.cmdDone, churnRun := u.churnRun, churnQueue := u.churnQueue, mirCopies := u.mirCopies, csi := u.csi, alarms := u.alarms, txns := u.txns, txnQ := u.txnQ })

/-- In the blanking before frame k a transaction whose head port another owns queues its writes and is WRITING. A failed head
write records the head and the reason and turns the transaction to UNDO, releasing the port. When every head's undo is over
without a failure, the transaction ends with the result its failure set, and its handle is free; with a failed undo write it
ends with 0xB and holds the port. Rules: R308, R312. -/
def Obligations.TransactionHeadWritesAndUndo : Prop :=
  (∀ (n : Fin 16) (h : Head) (t b o : Nat) (x : TxnHead) (s : State), s.txnHead n h = some x → (s.head h).blankFrom = some b →
    (s.txnState n = 2 ∨ s.txnState n = 3) → x.k = some ((s.head h).starts + 1) → x.began = false → x.done = false → x.queued = false → b ≤ t →
    (s.head h).hcpOwner = o + 1 → o ≠ n →
    ((s.txnHead o h).all fun y => s.txnState o != 5 || !y.waiting || y.err == 0) = true →
    ∃ u, exec (.txnHeadWritesStart n h t) s = .next u ∧ u.txnState n = 3 ∧ ((u.txnHead n h).map fun x => x.queued) = some true ∧
      SameRegs [R.TXN_HSTAT n] s u ∧ u = { s with dt := max s.dt t, regs := u.regs, txns := u.txns }) ∧
  (∀ (n : Fin 16) (h : Head) (t b : Nat) (x : TxnHead) (s : State), s.txnHead n h = some x → (s.head h).blankFrom = some b →
    (s.txnState n = 2 ∨ s.txnState n = 3) → x.k = some ((s.head h).starts + 1) → x.began = false → x.done = false → x.queued = false → b ≤ t →
    ∃ u, exec (.txnHeadWritesStart n h t) s = .next u ∧ 3 ≤ u.txnState n + (if u.txnState n = 0 then 3 else 0) ∧ u.nvm = s.nvm ∧ u.mode = s.mode ∧
      u.dt = max s.dt t ∧
      u = { s with regs := u.regs, dt := u.dt, freeCnt := u.freeCnt, inbox := u.inbox, heads := u.heads, shutters := u.shutters, ring := u.ring, cmdDone := u.cmdDone, churnRun := u.churnRun, churnQueue := u.churnQueue, mirCopies := u.mirCopies, csi := u.csi, alarms := u.alarms, txns := u.txns, txnQ := u.txnQ }) ∧
  (∀ (n : Fin 16) (h : Head) (x : TxnHead) (s : State), s.txnQ = [n.val] → (s.txn n).heads = [x] → (s.txn n).entries = [] → x.head = h →
    (s.txnState n = 2 ∨ s.txnState n = 3) → x.began = true → x.done = false → x.switched = false → x.waiting = true → x.err ≠ 0 →
    x.err < 16 → (s.head h).hcpOwner = n + 1 → (s.head h).hcp = none →
    (∀ g : Nat, g < 8 → g ≠ h → (s.head g).hcpOwner = 0) →
    ∃ t, exec (.txnHeadWriteFail n h) s = .next t ∧ t.txnState n = 5 ∧ t.get (F.TXN_HSTAT_FAILV n) = 1 ∧
      t.get (F.TXN_HSTAT_FAILHEAD n) = h ∧ t.get (F.TXN_HINFO_REASON n) = x.err ∧ (t.head h).hcpOwner = 0 ∧
      ((t.txnHead n h).map fun y => y.undone) = some true ∧ SameMem s t ∧ t.mode = s.mode ∧ t.dt = s.dt ∧
      t = { s with regs := t.regs, dt := t.dt, freeCnt := t.freeCnt, inbox := t.inbox, heads := t.heads, shutters := t.shutters, ring := t.ring, cmdDone := t.cmdDone, churnRun := t.churnRun, churnQueue := t.churnQueue, mirCopies := t.mirCopies, csi := t.csi, alarms := t.alarms, txns := t.txns, txnQ := t.txnQ }) ∧
  (∀ (n : Fin 16) (h : Head) (x : TxnHead) (s : State), s.txnHead n h = some x → (s.txnState n = 2 ∨ s.txnState n = 3) → x.began = true →
    x.done = false → x.waiting = true → x.err ≠ 0 → x.err < 16 → s.txnQ.contains n.val = true →
    ∃ t, exec (.txnHeadWriteFail n h) s = .next t ∧ t.get (F.TXN_HSTAT_FAILV n) = 1 ∧ t.get (F.TXN_HSTAT_FAILHEAD n) = h ∧
      t.get (F.TXN_HINFO_REASON n) = x.err ∧ (t.txnState n = 5 ∨ t.txnState n = 0) ∧ t.dram = s.dram ∧ t.nvm = s.nvm ∧ t.mode = s.mode ∧ t.dt = s.dt ∧
      t = { s with regs := t.regs, dt := t.dt, freeCnt := t.freeCnt, inbox := t.inbox, heads := t.heads, shutters := t.shutters, ring := t.ring, cmdDone := t.cmdDone, churnRun := t.churnRun, churnQueue := t.churnQueue, mirCopies := t.mirCopies, csi := t.csi, alarms := t.alarms, txns := t.txns, txnQ := t.txnQ }) ∧
  (∀ (n : Fin 16) (s : State), s.txnState n = 5 → ((s.txn n).heads.all fun x => x.undone && !x.undoBad) = true →
    (s.txn n).endRes < 16 →
    ∃ t, exec (.txnUndoDone n true) s = .next t ∧ t.txnState n = 0 ∧ t.get (F.TXN_HSTAT_RESULT n) = (s.txn n).endRes ∧
      t.txnQ.contains n.val = false ∧ SameMem s t ∧ t.mode = s.mode ∧ t.dt = s.dt ∧
      t = { s with regs := t.regs, dt := t.dt, freeCnt := t.freeCnt, inbox := t.inbox, heads := t.heads, shutters := t.shutters, ring := t.ring, cmdDone := t.cmdDone, churnRun := t.churnRun, churnQueue := t.churnQueue, mirCopies := t.mirCopies, csi := t.csi, alarms := t.alarms, txns := t.txns, txnQ := t.txnQ }) ∧
  (∀ (n : Fin 16) (s : State), s.txnState n = 5 → ((s.txn n).heads.all fun x => x.undone) = true →
    ((s.txn n).heads.any fun x => x.undoBad) = true →
    ∃ t, exec (.txnUndoDone n false) s = .next t ∧ t.txnState n = 0 ∧ t.get (F.TXN_HSTAT_RESULT n) = 0xB ∧
      ((s.txn n).heads.all fun x => !x.undoBad || 8 ≤ x.head || (t.head x.head).portHeld) = true ∧
      t.txnQ.contains n.val = false ∧ SameMem s t ∧ t.mode = s.mode ∧ t.dt = s.dt ∧
      t = { s with regs := t.regs, dt := t.dt, freeCnt := t.freeCnt, inbox := t.inbox, heads := t.heads, shutters := t.shutters, ring := t.ring, cmdDone := t.cmdDone, churnRun := t.churnRun, churnQueue := t.churnQueue, mirCopies := t.mirCopies, csi := t.csi, alarms := t.alarms, txns := t.txns, txnQ := t.txnQ })

/-- CTX_READ and CTX_WRITE in a block without such a command under way set BUSY and keep the selected ring and the staged
context. The end of a read outside ring processing gives result 4; of a read with a context area shows the ring's 64 bytes
in Q_CTXD with result 1. Rules: R324. -/
def Obligations.RingContextCommands : Prop :=
  (∀ s : State, s.access R.Q_CTXCMD = true → s.ctxCmd = none →
    ∃ t, exec .ctxRead s = .next t ∧ t.get F.Q_CTXSTAT_BUSY = 1 ∧
      (t.ctxCmd.map fun x => (x.write, x.ring, x.ctx, x.waits)) = some (false, s.get F.Q_CTXSEL_RING, s.stagedCtx, false) ∧
      SameRegs [R.Q_CTXSTAT] s t ∧ t = { s with regs := t.regs, ctxCmd := t.ctxCmd }) ∧
  (∀ s : State, s.access R.Q_CTXCMD = true → s.ctxCmd = none → s.mode = .setup →
    ∃ t, exec .ctxWrite s = .next t ∧ t.get F.Q_CTXSTAT_BUSY = 1 ∧
      (t.ctxCmd.map fun x => (x.write, x.ring, x.ctx, x.waits)) = some (true, s.get F.Q_CTXSEL_RING, s.stagedCtx, false) ∧
      SameRegs [R.Q_CTXSTAT] s t ∧ t = { s with regs := t.regs, ctxCmd := t.ctxCmd }) ∧
  (∀ (x : CtxCmd) (s : State), s.ctxCmd = some x → x.waits = false → s.get F.Q_CTXBASE_BASE = 0 →
    ∃ t, exec .ctxCmdDone s = .next t ∧ t.ctxCmd = none ∧ t.get F.Q_CTXSTAT_BUSY = 0 ∧ t.get F.Q_CTXSTAT_RES = 4 ∧
      SameRegs [R.Q_CTXSTAT] s t ∧ t = { s with regs := t.regs, ctxCmd := t.ctxCmd }) ∧
  (∀ (x : CtxCmd) (s : State), s.ctxCmd = some x → x.waits = false → x.write = false → s.ringsMode = true → s.get F.Q_CTXBASE_BASE ≠ 0 →
    s.ctxLost x.ring = false →
    ∃ t, exec .ctxCmdDone s = .next t ∧ t.ctxCmd = none ∧ t.get F.Q_CTXSTAT_RES = 1 ∧
      (∀ k : Nat, k < 16 → (t.reg (R.Q_CTXD k)).toNat = leAt (s.ctxImage x.ring) (4 * k) 4) ∧
      SameRegs (R.Q_CTXSTAT :: (List.range 16).map R.Q_CTXD) s t ∧ t = { s with regs := t.regs, ctxCmd := t.ctxCmd }) ∧
  (∀ (x : CtxCmd) (s : State), s.ctxCmd = some x → x.waits = false → x.write = true → s.ringsMode = true → s.get F.Q_CTXBASE_BASE ≠ 0 →
    s.ctxLost x.ring = false →
    ∃ t, exec .ctxCmdDone s = .next t ∧ t.ctxCmd = none ∧ t.get F.Q_CTXSTAT_BUSY = 0 ∧ t.get F.Q_CTXSTAT_RES = (s.ctxStore x).1 ∧
      t.rings = (s.ctxStore x).2.rings ∧ t.host = s.host ∧ t.nvm = s.nvm ∧ t.mode = s.mode ∧ t.dt = s.dt ∧
      t = { s with regs := t.regs, dt := t.dt, dram := t.dram, ring := t.ring, cmdDone := t.cmdDone, rings := t.rings, jobs := t.jobs, ctxCmd := t.ctxCmd, c0Mark := t.c0Mark }) ∧
  (∀ (x : CtxCmd) (s : State), s.ctxCmd = some x → x.waits = true → ∃ t, exec .ctxCmdDone s = .next t ∧ t = s)

/-- A range that clashes with no other and holds every enabled ring of its function is kept; one past the last ring sets
VALUE_REJ only. A doorbell beyond the function's rings is counted and discarded. On an active submission ring it moves the
tail, on any other active ring the consumer index; an index past the ring halts it with error 2; in DORMANT and SAFE it is
kept. A fetched descriptor with OWN set joins its ring's commands and moves CIDX; one without OWN halts the ring with error
1. Rules: R320, R327, R329. -/
def Obligations.RingRangesDoorbellsAndFetch : Prop :=
  (∀ (f : Fin 32) (v : Word) (s : State), s.access (R.Q_FRANGE f) = true → s.rings = [] →
    (∀ g : Nat, g < 32 → g ≠ f → s.get (F.Q_FRANGE_COUNT g) = 0 ∨ fieldOf (F.Q_FRANGE_BASE f) v + fieldOf (F.Q_FRANGE_COUNT f) v ≤ s.get (F.Q_FRANGE_BASE g) ∨
      s.get (F.Q_FRANGE_BASE g) + s.get (F.Q_FRANGE_COUNT g) ≤ fieldOf (F.Q_FRANGE_BASE f) v) → fieldOf (F.Q_FRANGE_BASE f) v + fieldOf (F.Q_FRANGE_COUNT f) v ≤ 4096 →
    ∃ t, exec (.qFrangeWrite f v) s = .next t ∧ t.get (F.Q_FRANGE_BASE f) = fieldOf (F.Q_FRANGE_BASE f) v ∧
      t.get (F.Q_FRANGE_COUNT f) = fieldOf (F.Q_FRANGE_COUNT f) v ∧ SameRegs [R.Q_FRANGE f] s t ∧ OnlyRegs s t) ∧
  (∀ (f : Fin 32) (v : Word) (s : State), s.access (R.Q_FRANGE f) = true →
    4096 < fieldOf (F.Q_FRANGE_BASE f) v + fieldOf (F.Q_FRANGE_COUNT f) v →
    ∃ t, exec (.qFrangeWrite f v) s = .next t ∧ t.get F.Q_STAT_VALUE_REJ = 1 ∧ SameRegs [R.Q_STAT] s t ∧ OnlyRegs s t) ∧
  (∀ (f : Fin 32) (off size v : Nat) (s : State), s.up = true → size = 4 ∨ size = 8 → off % 8 = 0 →
    16 * s.get (F.Q_FRANGE_COUNT f) ≤ off / 8 →
    ∃ t, exec (.doorbell f off size v) s = .next t ∧
      t.get F.Q_STAT_DBDROP = min (s.get F.Q_STAT_DBDROP + 1) (2 ^ F.Q_STAT_DBDROP.w - 1) ∧ SameRegs [R.Q_STAT] s t ∧ OnlyRegs s t) ∧
  (∀ (f : Fin 32) (off size v : Nat) (s : State), s.ringsMode = true → size = 4 ∨ size = 8 → off % 8 = 0 →
    off / 8 < 16 * s.get (F.Q_FRANGE_COUNT f) → (s.ringOf (s.ringGlobal f (off / 8))).ctx.en = true →
    (s.ringOf (s.ringGlobal f (off / 8))).ctx.state = 1 → (s.ringOf (s.ringGlobal f (off / 8))).ctx.kind = 0 →
    v % 65536 < (s.ringOf (s.ringGlobal f (off / 8))).ctx.n →
    ∃ t, exec (.doorbell f off size v) s = .next t ∧
      t.ringOf (s.ringGlobal f (off / 8)) = { s.ringOf (s.ringGlobal f (off / 8)) with tail := v % 65536 } ∧
      (∀ i : Nat, i < 65536 → i ≠ s.ringGlobal f (off / 8) → t.ringOf i = s.ringOf i) ∧ t = { s with rings := t.rings }) ∧
  (∀ (f : Fin 32) (off size v : Nat) (s : State), s.ringsMode = true → size = 4 ∨ size = 8 → off % 8 = 0 →
    off / 8 < 16 * s.get (F.Q_FRANGE_COUNT f) → (s.ringOf (s.ringGlobal f (off / 8))).ctx.en = true →
    (s.ringOf (s.ringGlobal f (off / 8))).ctx.state = 1 → (s.ringOf (s.ringGlobal f (off / 8))).ctx.kind ≠ 0 →
    v % 65536 < (s.ringOf (s.ringGlobal f (off / 8))).ctx.n →
    (v % 65536 + (s.ringOf (s.ringGlobal f (off / 8))).ctx.n - (s.ringOf (s.ringGlobal f (off / 8))).ctx.cidx) %
      (s.ringOf (s.ringGlobal f (off / 8))).ctx.n ≤ (s.ringOf (s.ringGlobal f (off / 8))).ctx.fill →
    ∃ t, exec (.doorbell f off size v) s = .next t ∧ (t.ringOf (s.ringGlobal f (off / 8))).ctx.cidx = v % 65536 ∧
      (∀ i : Nat, i < 65536 → i ≠ s.ringGlobal f (off / 8) → t.ringOf i = s.ringOf i) ∧
      (s.get F.Q_CTXBASE_BASE = 0 → t.dram = s.dram) ∧ t = { s with rings := t.rings, dram := t.dram }) ∧
  (∀ (f : Fin 32) (off size v : Nat) (s : State), s.ringsMode = true → size = 4 ∨ size = 8 → off % 8 = 0 →
    off / 8 < 16 * s.get (F.Q_FRANGE_COUNT f) → (s.ringOf (s.ringGlobal f (off / 8))).ctx.en = true →
    (s.ringOf (s.ringGlobal f (off / 8))).ctx.state = 1 → (s.ringOf (s.ringGlobal f (off / 8))).ctx.n ≤ v % 65536 →
    ((s.ringFunc (s.ringGlobal f (off / 8))).map fun f => s.ringGlobal f 0) = some (s.ringGlobal f 0) → off ≠ 0 →
    ∃ t, exec (.doorbell f off size v) s = .next t ∧ (t.ringOf (s.ringGlobal f (off / 8))).ctx.state = 2 ∧
      (t.ringOf (s.ringGlobal f (off / 8))).ctx.err = 2 ∧ t = { s with rings := t.rings, dram := t.dram }) ∧
  (∀ (f : Fin 32) (off size v : Nat) (s : State), s.mode = .safe ∨ s.mode = .dormant → size = 4 ∨ size = 8 → off % 8 = 0 →
    off / 8 < 16 * s.get (F.Q_FRANGE_COUNT f) →
    ∃ t, exec (.doorbell f off size v) s = .next t ∧ (t.ringOf (s.ringGlobal f (off / 8))).kept = some (v % 65536) ∧
      (t.ringOf (s.ringGlobal f (off / 8))).ctx = (s.ringOf (s.ringGlobal f (off / 8))).ctx ∧ t = { s with rings := t.rings }) ∧
  (∀ (id : Nat) (d : List Byte) (s : State), s.nextFetch = some id → s.readRoom 512 = true → bit (leAt d 0x3F 1) 7 = true → strayStatus d = none →
    ((s.ringOf id).tail + (s.ringOf id).ctx.n - (s.ringOf id).ctx.cidx) % (s.ringOf id).ctx.n ≠ 0 →
    ∃ t, exec (.submissionFetch id [d]) s = .next t ∧
      (t.ringOf id).cmds = (s.ringOf id).cmds ++ [{ tag := (s.ringOf id).nextTag, bytes := d, cidx := ((s.ringOf id).ctx.cidx + 1) % (s.ringOf id).ctx.n, order := s.dma.fetchNo }] ∧
      (t.ringOf id).ctx = { (s.ringOf id).ctx with cidx := ((s.ringOf id).ctx.cidx + 1) % (s.ringOf id).ctx.n } ∧
      (s.get F.Q_CTXBASE_BASE = 0 → t.dram = s.dram) ∧
      t = { s with rings := t.rings, dram := t.dram, dma := { s.dma with fetchNo := s.dma.fetchNo + 1 },
                   fetchLast := s.fetchLast.set ((s.ringOf id).ctx.cls - 1) id }) ∧
  (∀ (id : Nat) (d : List Byte) (s : State), s.nextFetch = some id → s.readRoom 512 = true → bit (leAt d 0x3F 1) 7 = false →
    id ≠ s.ringGlobal ((s.ringFunc id).getD 0) 0 →
    ((s.ringOf id).tail + (s.ringOf id).ctx.n - (s.ringOf id).ctx.cidx) % (s.ringOf id).ctx.n ≠ 0 →
    ∃ t, exec (.submissionFetch id [d]) s = .next t ∧ (t.ringOf id).ctx.state = 2 ∧ (t.ringOf id).ctx.err = 1 ∧
      (t.ringOf id).cmds = (s.ringOf id).cmds ∧ t = { s with rings := t.rings, dram := t.dram, fetchLast := s.fetchLast.set ((s.ringOf id).ctx.cls - 1) id })

/-- NOP answers NOT_PERMITTED, WRONG_MODE, BAD_FIELD or OK, in that order of its checks. OPEN answers with the lowest free
handle. STAGE appends its entries in order. COMMIT with no head listed is refused with 4. ROLLBACK frees an open handle. A
handle of another function is answered NOT_PERMITTED. A shutter request of an enabled idle event begins it and answers
later; a cancel ends the event with 0xA; a granted refit begins; on a head that does not stream request and refit answer
0xC. Rules: R332. -/
def Obligations.RingCommandsAreCheckedAndAnswered : Prop :=
  (∀ (id t : Nat) (c : RingCmd) (s : State), RingHead s id 0 0 c →
    ∃ u, exec (.cmdNop id t) s = .next u ∧
      RingAnswer s id c (if bit (s.get (F.Q_FPERM_OPS ((s.ringFunc id).getD 0))) 0 = false then 3 else if s.opMode 0 = false then 4
        else if descOk c.bytes = false then 2 else 0) 0 0 u ∧
      u = { s.started id c t with cmdDone := u.cmdDone } ∧ u.dt = max s.dt t) ∧
  (∀ (id t n : Nat) (c : RingCmd) (s : State), RingRuns s id 1 0 c → ((List.range 16).find? fun n => s.txnState n == 0) = some n →
    ∃ u, exec (.settingsOpen id t) s = .next u ∧ RingAnswer s id c 0 (256 + n + 1) 0xFFFF u ∧ u.txnState n = 1 ∧
      (u.txn n).entries = [] ∧ SameRegs [R.TXN_HSTAT n, R.TXN_HINFO n] s u ∧
      u = { s.started id c t with cmdDone := u.cmdDone, regs := u.regs, txns := u.txns }) ∧
  (∀ (id t : Nat) (c : RingCmd) (s : State), RingRuns s id 1 0 c → ((List.range 16).find? fun n => s.txnState n == 0) = none →
    ∃ u, exec (.settingsOpen id t) s = .next u ∧ RingAnswer s id c 0 512 0xFFFF u ∧
      u = { s.started id c t with cmdDone := u.cmdDone }) ∧
  (∀ (id t n : Nat) (c : RingCmd) (s : State), RingRuns s id 1 1 c → s.openHandle (leAt c.bytes 0x11 1) = some n →
    (s.txn n).owner = (s.ringFunc id).getD 0 →
    (∀ i : Nat, i < leAt c.bytes 0x12 1 → (stageClass (canonAddr (stageEntry c i).addr)).isSome = true) →
    (∀ i : Nat, i < leAt c.bytes 0x12 1 → ∀ h : Nat, h < 8 → canonAddr (stageEntry c i).addr ≠ R.HCP_CMD h) →
    (s.txn n).entries.length + leAt c.bytes 0x12 1 ≤ 4096 →
    ∃ u, exec (.settingsStage id t) s = .next u ∧
      RingAnswer s id c 0 (s.get (F.TXN_HSTAT_RESULT n)) (s.get (F.TXN_HINFO_ENTRY n)) u ∧
      (u.txn n).entries = (s.txn n).entries ++ (List.range (leAt c.bytes 0x12 1)).map (fun i =>
        { stageEntry c i with addr := canonAddr (stageEntry c i).addr }) ∧ SameRegs [R.TXN_HSTAT n] s u ∧
      u = { s.started id c t with cmdDone := u.cmdDone, regs := u.regs, txns := u.txns }) ∧
  (∀ (id t : Nat) (c : RingCmd) (s : State), RingRuns s id 1 1 c → s.notMine id (leAt c.bytes 0x11 1) = true →
    ∃ u, exec (.settingsStage id t) s = .next u ∧ RingAnswer s id c 3 0 0 u ∧ u = { s.started id c t with cmdDone := u.cmdDone }) ∧
  (∀ (id t n : Nat) (c : RingCmd) (s : State), RingRuns s id 1 2 c → s.openHandle (leAt c.bytes 0x11 1) = some n →
    (s.txn n).owner = (s.ringFunc id).getD 0 → (s.txn n).planWait = false → (s.txn n).entries = [] →
    s.txnQ.contains n = false → (s.txnQ.all fun m => (s.txn m).heads.all fun x => !x.idle || x.switched) = true →
    s.commitEntries (s.candidate []) (listedHeads (BitVec.ofNat 32 (leAt c.bytes 0x14 4) &&& 0xFFF7FDFF)) [] = (0, 0xFFFF) →
    ((listedHeads (BitVec.ofNat 32 (leAt c.bytes 0x14 4) &&& 0xFFF7FDFF)).all fun h => s.streams h) = true →
    s.commitRoom (listedHeads (BitVec.ofNat 32 (leAt c.bytes 0x14 4) &&& 0xFFF7FDFF)) = 0 →
    ∃ u, exec (.settingsCommit id t) s = .next u ∧ u.cmdDone = s.cmdDone ∧ u.txnState n = 2 ∧ u.txnQ = s.txnQ ++ [n] ∧
      (u.txn n).cmd = some (id, c.tag) ∧ (u.txn n).ccfg = BitVec.ofNat 32 (leAt c.bytes 0x14 4) &&& 0xFFF7FDFF ∧
      SameRegs [R.TXN_HSTAT n, R.TXN_HINFO n] s u ∧
      u = { s.started id c t with regs := u.regs, txns := u.txns, txnQ := u.txnQ }) ∧
  (∀ (id t n : Nat) (c : RingCmd) (s : State), RingRuns s id 1 2 c → s.openHandle (leAt c.bytes 0x11 1) = some n →
    (s.txn n).owner = (s.ringFunc id).getD 0 → (s.txn n).planWait = false → leAt c.bytes 0x14 1 = 0 →
    ∃ u, exec (.settingsCommit id t) s = .next u ∧ RingAnswer s id c 0 4 0xFFFF u ∧ u.txnState n = 1 ∧
      SameRegs [R.TXN_HSTAT n, R.TXN_HINFO n] s u ∧
      u = { s.started id c t with cmdDone := u.cmdDone, regs := u.regs, txns := u.txns }) ∧
  (∀ (id t : Nat) (c : RingCmd) (s : State), RingRuns s id 1 2 c → s.notMine id (leAt c.bytes 0x11 1) = true →
    ∃ u, exec (.settingsCommit id t) s = .next u ∧ RingAnswer s id c 3 0 0 u ∧ u = { s.started id c t with cmdDone := u.cmdDone }) ∧
  (∀ (id t : Nat) (c : RingCmd) (s : State), RingRuns s id 1 3 c → s.notMine id (leAt c.bytes 0x11 1) = true →
    ∃ u, exec (.settingsRollback id t) s = .next u ∧ RingAnswer s id c 3 0 0 u ∧ u = { s.started id c t with cmdDone := u.cmdDone }) ∧
  (∀ (id t n : Nat) (c : RingCmd) (s : State), RingRuns s id 1 3 c → s.openHandle (leAt c.bytes 0x11 1) = some n →
    (s.txn n).owner = (s.ringFunc id).getD 0 → (s.txn n).cmd = none →
    ∃ u, exec (.settingsRollback id t) s = .next u ∧
      RingAnswer s id c 0 (s.get (F.TXN_HSTAT_RESULT n)) (s.get (F.TXN_HINFO_ENTRY n)) u ∧ u.txnState n = 0 ∧ (u.txn n).entries = [] ∧
      SameRegs [R.TXN_HSTAT n] s u ∧ u = { s.started id c t with cmdDone := u.cmdDone, regs := u.regs, txns := u.txns }) ∧
  (∀ (id t : Nat) (h : Head) (c : RingCmd) (s : State), RingRuns s id 2 0 c → leAt c.bytes 0x10 1 = h → (s.shut h).active = false →
    s.streams h = true → s.inRun = true → s.flag (F.CX_SCFG_EN h) = true → (s.prof h).shutType ≠ 0 → s.coilFault h = false →
    ∃ u, exec (.shutterRequest id t) s = .next u ∧ u.get (F.CX_SSTAT_RESULT h) = 2 ∧ u.get (F.CX_SSTAT_PHASE h) = 1 ∧
      u.get (F.CX_SSTAT_SRC h) = 3 ∧ u.get (F.CX_SSTAT_RETRY h) = 0 ∧ (u.shut h).active = true ∧ (u.shut h).reqAt = max s.dt t ∧
      (u.shut h).waiters = [(id, c.tag)] ∧ SameRegs [R.CX_SSTAT h] s u ∧
      u = { s.started id c t with regs := u.regs, shutters := u.shutters }) ∧
  (∀ (id t : Nat) (h : Head) (c : RingCmd) (s : State), RingRuns s id 2 0 c → leAt c.bytes 0x10 1 = h → (s.shut h).active = false →
    (s.streams h = false ∨ s.inRun = false) →
    ∃ u, exec (.shutterRequest id t) s = .next u ∧ RingAnswer s id c 0 0xC 0 u ∧ u.get (F.CX_SSTAT_RESULT h) = 0xC ∧
      SameRegs [R.CX_SSTAT h] s u ∧ u = { s.started id c t with regs := u.regs, cmdDone := u.cmdDone }) ∧
  (∀ (id t : Nat) (h : Head) (c : RingCmd) (s : State), RingRuns s id 2 1 c → leAt c.bytes 0x10 1 = h → (s.shut h).active = true →
    s.mode ≠ .safe → (∀ e ∈ (s.shut h).deferred, e.1 ≠ R.CX_SSTAT h) →
    ∃ u, exec (.cmdShutterCancel id t) s = .next u ∧ u.get (F.CX_SSTAT_RESULT h) = 0xA ∧
      u.get (F.CX_SSTAT_PHASE h) = (if s.get (F.CX_SSTAT_PHASE h) = 6 then 0 else if 2 ≤ s.get (F.CX_SSTAT_PHASE h) ∨ (s.shut h).ended = true then 5 else 0) ∧
      (2 ≤ s.get (F.CX_SSTAT_PHASE h) ∧ s.get (F.CX_SSTAT_PHASE h) ≤ 4 → (u.head h).driveWait = some false) ∧ (u.shut h).active = false ∧
      (u.cmdDone.map fun d => { d with held := false }) = (s.cmdDone.map fun d => { d with held := false }) ++
        (s.shut h).waiters.map (fun w => { ring := w.1, tag := w.2, status := 0, result := 0xA, dt := max s.dt t }) ++
        [{ ring := id, tag := c.tag, status := 0, result := 0xA, dt := max s.dt t }] ∧
      SameRegs ([R.CX_SSTAT h, R.MC_STAT] ++ (s.shut h).deferred.map (fun e => e.1)) s u ∧ SameMem s u ∧ u.mode = s.mode ∧
      u.dt = max s.dt t ∧
      u = { s with regs := u.regs, dt := u.dt, dram := u.dram, inbox := u.inbox, heads := u.heads, shutters := u.shutters, ring := u.ring, nv := u.nv, cmdDone := u.cmdDone, churnRun := u.churnRun, churnQueue := u.churnQueue, rings := u.rings }) ∧
  (∀ (id t : Nat) (h : Head) (c : RingCmd) (s : State), RingRuns s id 2 1 c → leAt c.bytes 0x10 1 = h → (s.shut h).active = false →
    ∃ u, exec (.cmdShutterCancel id t) s = .next u ∧ RingAnswer s id c 0 (s.get (F.CX_SSTAT_RESULT h)) 0 u ∧
      u = { s.started id c t with cmdDone := u.cmdDone }) ∧
  (∀ (id t : Nat) (h : Head) (c : RingCmd) (s : State), RingRuns s id 2 2 c → leAt c.bytes 0x10 1 = h → s.streams h = true →
    s.inRun = true → (s.churnAsk .m4 h true t).1 = .granted →
    ∃ u, exec (.cmdShutterRefit id t) s = .next u ∧ u.get (F.CX_SSTAT_DFRES h) = 2 ∧ (u.shut h).refitPhase = 1 ∧
      (u.shut h).refitWaiters = [(id, c.tag)] ∧ u.cmdDone = s.cmdDone ∧
      u.churnRun = s.churnRun ++ [{ act := .m4, res := h, since := max s.dt t }] ∧ SameRegs [R.CX_SSTAT h, R.MC_STAT] s u ∧
      u = { s.started id c t with regs := u.regs, shutters := u.shutters, churnRun := u.churnRun }) ∧
  (∀ (id t : Nat) (h : Head) (c : RingCmd) (s : State), RingRuns s id 2 2 c → leAt c.bytes 0x10 1 = h →
    (s.streams h = false ∨ s.inRun = false) →
    ∃ u, exec (.cmdShutterRefit id t) s = .next u ∧ u.get (F.CX_SSTAT_DFRES h) = 0xC ∧ RingAnswer s id c 0 0xC 0 u ∧
      SameRegs [R.CX_SSTAT h] s u ∧ u = { s.started id c t with regs := u.regs, cmdDone := u.cmdDone })

/-- TABLE_SWAP of a head that does not stream switches the leaf, residual or radiometric copy at once when its checks pass; of a
streaming head it waits for the frame start. MICROCODE with a good header begins a load of the named blocks. DMA_COPY on an
idle ring-driven channel of the function begins its descriptor. REPROCESS in SETUP queues its job when the tables it names
are usable and else ends with 2. The first job starts; a frame read in error ends it with 4; a frame processed is stored,
offered to the job ring, and the last one ends the job with 0. Rules: R156, R236, R341, R342, R350. -/
def Obligations.RingCommandsForTablesMicrocodeAndJobs : Prop :=
  (∀ (id t : Nat) (h : Head) (c : RingCmd) (s : State), RingRuns s id 3 0 c → leAt c.bytes 0x10 1 = h → leAt c.bytes 0x11 1 = 0 →
    s.swapPending h 0 = false → s.swapCheck h (1 - s.leafSel h) = 0 → (s.churnAsk .m5 (3 * h) true t).1 = .granted → s.streams h = false →
    ∃ u, exec (.tableSwap id t) s = .next u ∧ RingAnswer s id c 0 1 0 u ∧ u.get (F.CL_HSTAT_LSEL h) = 1 - s.get (F.CL_HSTAT_LSEL h) ∧
      u.get (F.CL_HSTAT_SWAPRES h) = 1 ∧ SameRegs [R.CL_HSTAT h, R.MC_STAT] s u ∧
      u = { s.started id c t with regs := u.regs, cmdDone := u.cmdDone }) ∧
  (∀ (id t : Nat) (h : Head) (c : RingCmd) (s : State), RingRuns s id 3 0 c → leAt c.bytes 0x10 1 = h → leAt c.bytes 0x11 1 = 1 →
    s.swapPending h 1 = false → s.swapCheck h (5 - s.resSel h) = 0 → (s.churnAsk .m5 (3 * h + 1) true t).1 = .granted → s.streams h = false →
    ∃ u, exec (.tableSwap id t) s = .next u ∧ RingAnswer s id c 0 1 0 u ∧ u.get (F.CL_HSTAT_RSEL h) = 1 - s.get (F.CL_HSTAT_RSEL h) ∧
      u.get (F.CL_HSTAT_SWAPRES h) = 1 ∧ SameRegs [R.CL_HSTAT h, R.MC_STAT] s u ∧
      u = { s.started id c t with regs := u.regs, cmdDone := u.cmdDone }) ∧
  (∀ (id t : Nat) (h : Head) (c : RingCmd) (s : State), RingRuns s id 3 0 c → leAt c.bytes 0x10 1 = h → leAt c.bytes 0x11 1 = 2 →
    s.swapPending h 2 = false → (s.churnAsk .m5 (3 * h + 2) true t).1 = .granted → s.streams h = false →
    s.radCheck h (1 - s.get (F.FP_RSTAT_SEL h)) < 16 →
    ∃ u, exec (.tableSwap id t) s = .next u ∧
      RingAnswer s id c 0 (if s.radCheck h (1 - s.get (F.FP_RSTAT_SEL h)) = 0 then 1 else s.radCheck h (1 - s.get (F.FP_RSTAT_SEL h))) 0 u ∧
      u.get (F.FP_RSTAT_SEL h) = (if s.radCheck h (1 - s.get (F.FP_RSTAT_SEL h)) = 0 then 1 - s.get (F.FP_RSTAT_SEL h) else s.get (F.FP_RSTAT_SEL h)) ∧
      SameRegs [R.FP_RSTAT h, R.MC_STAT] s u ∧ u = { s.started id c t with regs := u.regs, cmdDone := u.cmdDone }) ∧
  (∀ (id t : Nat) (h : Head) (c : RingCmd) (s : State), RingRuns s id 3 0 c → leAt c.bytes 0x10 1 = h → leAt c.bytes 0x11 1 = 0 →
    s.swapPending h 0 = false → s.swapCheck h (1 - s.leafSel h) = 0 → (s.churnAsk .m5 (3 * h) true t).1 = .granted → s.streams h = true →
    ∃ u, exec (.tableSwap id t) s = .next u ∧ u.cmdDone = s.cmdDone ∧ u.get (F.CL_HSTAT_SWAPRES h) = 2 ∧ (u.head h).leafPend = true ∧
      u.churnRun = s.churnRun ++ [{ act := .m5, res := 3 * h, since := max s.dt t }] ∧
      (u.head h).swapWaiters = (s.head h).swapWaiters ++ [(0, id, c.tag)] ∧ SameRegs [R.CL_HSTAT h, R.MC_STAT] s u ∧
      u = { s.started id c t with regs := u.regs, heads := u.heads, churnRun := u.churnRun }) ∧
  (∀ (id t b : Nat) (l : List Nat) (c : RingCmd) (s : State), RingRuns s id 4 0 c → s.mcLoad = none →
    s.mcHeader (4096 * leAt c.bytes 0x14 4) = 1 → (List.range 16).filter (bit (leAt c.bytes 0x10 2)) = b :: l →
    (s.inRun = false ∨ (s.churnAsk .m6 b true t).1 = .granted) →
    ∃ u, exec (.microcode id t) s = .next u ∧ u.cmdDone = s.cmdDone ∧ u.get F.EN_MCSTAT_RESULT = 2 ∧ u.get F.EN_MCSTAT_DONE = 0 ∧
      (u.mcLoad.map fun x => (x.left, x.cur, x.cmd)) = some (b :: l, some b, some (id, c.tag)) ∧
      (u.mcLoad.map fun x => (x.base, x.header)) =
        some (4096 * leAt c.bytes 0x14 4, s.dramRead (4096 * leAt c.bytes 0x14 4) 64) ∧ SameRegs [R.EN_MCSTAT, R.MC_STAT] s u ∧
      u = { s.started id c t with regs := u.regs, mcLoad := u.mcLoad, churnRun := u.churnRun }) ∧
  (∀ (id t : Nat) (c : RingCmd) (s : State), RingRuns s id 4 0 c → (s.mcLoad.isSome ∨ s.mcHeader (4096 * leAt c.bytes 0x14 4) ≠ 1) →
    ∃ u, exec (.microcode id t) s = .next u ∧
      RingAnswer s id c 0 (if s.mcLoad.isSome then 7 else s.mcHeader (4096 * leAt c.bytes 0x14 4)) 0 u ∧
      u.get F.EN_MCSTAT_RESULT = (if s.mcLoad.isSome then 7 else s.mcHeader (4096 * leAt c.bytes 0x14 4)) ∧ u.mcLoad = s.mcLoad ∧
      SameRegs [R.EN_MCSTAT] s u ∧ u = { s.started id c t with regs := u.regs, cmdDone := u.cmdDone }) ∧
  (∀ (id t : Nat) (n : Fin 64) (c : RingCmd) (s : State), RingRuns s id 5 0 c → leAt c.bytes 0x10 1 = n →
    s.ringFunc id = some (s.dmaFunc n) → s.flag (F.DMA_CH_CFG_SRC n) = true → s.flag (F.DMA_CH_CFG_EN n) = true →
    (s.chan n).run = none → (s.chan n).queue = [] → s.get (F.DMA_CH_STAT_STATE n) ≠ 3 → s.dmaRuns = true →
    ∃ u, exec (.dmaCopy id t) s = .next u ∧ u.cmdDone = s.cmdDone ∧
      ((u.chan n).run.map fun r => r.desc) = some { bytes := (c.bytes.drop 0x18).take 32, cmd := some (id, c.tag), since := max s.dt t } ∧
      (u.chan n).queue = [] ∧ u.get (F.DMA_CH_STAT_STATE n) = 2 ∧ SameRegs [R.DMA_CH_STAT n] s u ∧
      u = { s.started id c t with regs := u.regs, dma := u.dma }) ∧
  (∀ (id t : Nat) (n : Fin 64) (c : RingCmd) (s : State), RingRuns s id 5 0 c → leAt c.bytes 0x10 1 = n →
    (s.ringFunc id ≠ some (s.dmaFunc n) ∨ s.flag (F.DMA_CH_CFG_SRC n) = false) →
    ∃ u, exec (.dmaCopy id t) s = .next u ∧ RingAnswer s id c (if s.ringFunc id ≠ some (s.dmaFunc n) then 3 else 2) 0 0 u ∧
      u = { s.started id c t with cmdDone := u.cmdDone }) ∧
  (∀ (id t : Nat) (c : RingCmd) (s : State), RingRuns s id 6 0 c → s.inRun = false →
    (s.jobs.filter fun j => j.started.isNone).length < 16 →
    leAt c.bytes 0x12 2 < 16 * s.get (F.Q_FRANGE_COUNT ((s.ringFunc id).getD 0)) →
    s.enabledKind (s.ringGlobal ((s.ringFunc id).getD 0) (leAt c.bytes 0x12 2)) 2 = true →
    (s.ringOf (s.ringGlobal ((s.ringFunc id).getD 0) (leAt c.bytes 0x12 2))).ctx.job = true →
    ∃ u, exec (.reprocess id t) s = .next u ∧
      u.jobs = (if s.jobTables c.bytes then s.jobs ++ [{ ring := id, tag := c.tag, func := (s.ringFunc id).getD 0, body := c.bytes }] else s.jobs) ∧
      (if s.jobTables c.bytes then u.cmdDone = s.cmdDone else RingAnswer s id c 0 2 0 u) ∧
      u = { s.started id c t with jobs := u.jobs, cmdDone := u.cmdDone }) ∧
  (∀ (j : ReJob) (l : List ReJob) (s : State), s.jobs = j :: l → s.ringsMode = true → j.started = none → j.waits = false →
    ∃ u, exec .reprocessJobStart s = .next u ∧ u.jobs = { j with started := some s.dt } :: l ∧ u = { s with jobs := u.jobs }) ∧
  (∀ (t d : Nat) (j : ReJob) (s : State), s.jobs = [j] → s.ringsMode = true → j.started = some d → leAt j.body 0x30 4 = 0 →
    j.done < leAt j.body 0x16 2 → s.readRoom 512 = true → (s.rings.all fun e => e.2.items.isEmpty && e.2.wait.isEmpty) = true →
    ∃ u, exec (.reprocessFrameDone none t) s = .next u ∧ u.jobs = [] ∧ u.dt = max s.dt t ∧
      (u.cmdDone.map fun d => { d with held := false }) = (s.cmdDone.map fun d => { d with held := false }) ++
        [{ ring := j.ring, tag := j.tag, status := 0, result := 4, info := j.done, dt := max s.dt t }] ∧
      u = { s with dt := u.dt, jobs := [], cmdDone := u.cmdDone }) ∧
  (∀ (t d : Nat) (inp : List Byte) (j : ReJob) (s : State), s.jobs = [j] → s.ringsMode = true → j.started = some d →
    leAt j.body 0x30 4 = 0 → j.done < leAt j.body 0x16 2 → s.readRoom 512 = true →
    (s.rings.all fun e => e.2.items.isEmpty && e.2.wait.isEmpty) = true →
    4 * (s.prof (leAt j.body 0x10 1)).pixels ≤ inp.length →
    ∃ u, exec (.reprocessFrameDone (some inp) t) s = .next u ∧
      (if leAt j.body 0x16 2 ≤ j.done + 1 ∧ (u.ringOf (s.jobRing j)).items = [] ∧ (u.ringOf (s.jobRing j)).wait = [] then u.jobs = [] ∧
          (u.cmdDone.map fun d => { d with held := false }) = (s.cmdDone.map fun d => { d with held := false }) ++
            [{ ring := j.ring, tag := j.tag, status := 0, result := 0, info := j.done + 1, dt := max s.dt t }]
        else u.jobs = [{ j with done := j.done + 1, radUe := false }] ∧ u.cmdDone = s.cmdDone) ∧
      (s.enabledKind (s.jobRing j) 2 = true → (s.ringOf (s.jobRing j)).ctx.state = 1 →
        (((u.ringOf (s.jobRing j)).wait.any fun i => match i with | .copy b => b.seq == leAt j.body 0x28 8 + j.done | .gap _ => false) ||
          ((u.ringOf (s.jobRing j)).items.any fun i => match i with | .copy b => b.seq == leAt j.body 0x28 8 + j.done | .gap _ => false)) = true) ∧
      (((s.jobFrame j).kindShape 3).1 = 0 → SameRegs [] s u) ∧ u.nvm = s.nvm ∧ u.host = s.host ∧ u.mode = s.mode ∧ u.dt = max s.dt t ∧
      u = { s with regs := u.regs, dt := u.dt, freeCnt := u.freeCnt, dram := u.dram, heads := u.heads, ring := u.ring, cmdDone := u.cmdDone, bufs := u.bufs, csi := u.csi, rings := u.rings, jobs := u.jobs })

/-- A finished command's completion is written in the slot of its completion ring and PIDX advances; a disabled completion ring
drops it. An event that waits is posted in its slot, is lost when the ring is full, and the LOST record goes first. The copy
at the front of a delivery ring is written with its FRAME record and leaves the front. A waiting frame takes a freed slot.
The end of a moderation window sends the ring's message. Rules: R328, R331, R334, R337. -/
def Obligations.RecordsArePostedInHostMemory : Prop :=
  (∀ (cq t : Nat) (d : CmdDone) (c : RingCmd) (s : State), s.admitHeld.doneFor cq = some d →
    ((s.ringOf d.ring).cmds.find? fun c => c.tag == d.tag) = some c → (s.ringOf cq).ctx.en = true → (s.ringOf cq).ctx.state = 1 →
    (s.ringOf cq).ctx.full = false → (s.ringOf cq).ctx.irq = false → s.canPost cq = true → d.ring ≠ cq →
    ∃ u, exec (.completionPost cq t) s = .next u ∧
      (u.cmdDone.map fun x => (x.ring, x.tag, x.status)) = ((s.admitHeld.cmdDone.erase d).map fun x => (x.ring, x.tag, x.status)) ∧
      u.host = (s.hostWrite ((s.ringOf cq).ctx.rbase + 32 * (s.ringOf cq).ctx.pidx) (s.completionBytes d c ++ [0x80])).host ∧
      (u.ringOf cq).ctx = { (s.ringOf cq).ctx with pidx := ((s.ringOf cq).ctx.pidx + 1) % (s.ringOf cq).ctx.n } ∧
      (u.ringOf d.ring).cmds = (s.ringOf d.ring).cmds.filter (fun c => c.tag != d.tag) ∧
      (s.get F.Q_CTXBASE_BASE = 0 → u.dram = s.dram) ∧
      u = { s with dt := max s.dt t, cmdDone := u.cmdDone, host := u.host, rings := u.rings, dram := u.dram }) ∧
  (∀ (cq t : Nat) (d : CmdDone) (c : RingCmd) (s : State), s.admitHeld.doneFor cq = some d →
    ((s.ringOf d.ring).cmds.find? fun c => c.tag == d.tag) = some c → (s.ringOf cq).ctx.en = false →
    ∃ u, exec (.completionPost cq t) s = .next u ∧
      (u.cmdDone.map fun x => (x.ring, x.tag, x.status)) = ((s.admitHeld.cmdDone.erase d).map fun x => (x.ring, x.tag, x.status)) ∧ u.host = s.host ∧
      (u.ringOf d.ring).cmds = (s.ringOf d.ring).cmds.filter (fun c => c.tag != d.tag) ∧
      u = { s with dt := max s.dt t, cmdDone := u.cmdDone, rings := u.rings }) ∧
  (∀ (id t : Nat) (b : List Byte) (l : List (List Byte)) (s : State), s.canPost id = true → (s.ringOf id).ctx.kind = 3 →
    (s.ringOf id).ctx.state ≠ 2 → (s.ringOf id).ctx.full = false → (s.ringOf id).ctx.irq = false → (s.ringOf id).lost = 0 →
    (s.ringOf id).out = b :: l →
    ∃ u, exec (.eventRecordPost id t) s = .next u ∧
      u.host = (s.hostWrite ((s.ringOf id).ctx.rbase + 32 * (s.ringOf id).ctx.pidx) (b ++ [0x80])).host ∧ (u.ringOf id).out = l ∧
      (u.ringOf id).ctx = { (s.ringOf id).ctx with pidx := ((s.ringOf id).ctx.pidx + 1) % (s.ringOf id).ctx.n } ∧
      (s.get F.Q_CTXBASE_BASE = 0 → u.dram = s.dram) ∧
      u = { s with dt := max s.dt t, host := u.host, rings := u.rings, dram := u.dram, samples := u.samples }) ∧
  (∀ (id t : Nat) (b : List Byte) (l : List (List Byte)) (s : State), s.canPost id = true → (s.ringOf id).ctx.kind = 3 →
    (s.ringOf id).ctx.state ≠ 2 → (s.ringOf id).ctx.full = true → (s.ringOf id).out = b :: l →
    ∃ u, exec (.eventRecordPost id t) s = .next u ∧ (u.ringOf id).out = l ∧ (u.ringOf id).lost = (s.ringOf id).lost + 1 ∧
      (u.ringOf id).ctx.gapcnt = min ((s.ringOf id).ctx.gapcnt + 1) 0xFFFFFFFF ∧ u.host = s.host ∧
      u = { s with dt := max s.dt t, rings := u.rings, dram := u.dram }) ∧
  (∀ (id t : Nat) (s : State), s.canPost id = true → (s.ringOf id).ctx.kind = 3 → (s.ringOf id).ctx.state ≠ 2 →
    (s.ringOf id).ctx.full = false → (s.ringOf id).ctx.irq = false → (s.ringOf id).lost ≠ 0 →
    ∃ u, exec (.eventRecordPost id t) s = .next u ∧ (u.ringOf id).lost = 0 ∧ (u.ringOf id).out = (s.ringOf id).out ∧
      u.host = (s.hostWrite ((s.ringOf id).ctx.rbase + 32 * (s.ringOf id).ctx.pidx)
        (eventRecord 0x21 [(4, 4, (s.ringOf id).lost), (8, 8, (s.ringOf id).lostDt)] ++ [0x80])).host ∧
      u = { s with dt := max s.dt t, host := u.host, rings := u.rings, dram := u.dram }) ∧
  (∀ (id t : Nat) (b : BufRec) (l : List RingItem) (s : State), s.canPost id = true → (s.ringOf id).ctx.state = 1 →
    (s.ringOf id).items = .copy b :: l → (l.all fun i => i.isCopy fun _ => true) = true →
    (s.ringOf id).ctx.irq = false → s.get F.Q_CTXBASE_BASE = 0 →
    ∃ u, exec (.deliveryCopyDone id t) s = .next u ∧ (u.ringOf id).items = l ∧
      (u.ringOf id).ctx = { (s.ringOf id).ctx with pidx := ((s.ringOf id).ctx.pidx + 1) % (s.ringOf id).ctx.n } ∧
      u.host = ((s.copyFrame (s.ringOf id).ctx b ((s.ringOf id).ctx.hbase + (s.ringOf id).ctx.pidx * (s.ringOf id).ctx.bufsz)).1.hostWrite
        ((s.ringOf id).ctx.rbase + 32 * (s.ringOf id).ctx.pidx)
        (eventRecord 0x01 [(1, 1, b.head), (2, 1, b.kind + 4 * b.fmt), (3, 1, setBit b.flags 2 (bit b.flags 2 || s.bufLost b)), (4, 4, leAt (s.dramRead b.base 64) 0x18 4),
          (8, 8, leAt (s.dramRead b.base 64) 8 8), (0x10, 8, leAt (s.dramRead b.base 64) 0x10 8),
          (0x18, 4, (s.copyFrame (s.ringOf id).ctx b ((s.ringOf id).ctx.hbase + (s.ringOf id).ctx.pidx * (s.ringOf id).ctx.bufsz)).2)] ++ [0x80])).host ∧
      u = { s with dt := max s.dt t, host := u.host, rings := u.rings, samples := u.samples }) ∧
  (∀ (id t : Nat) (s : State), s.canPost id = true → (s.ringOf id).ctx.en = true → (s.ringOf id).ctx.state = 1 →
    (s.ringOf id).ctx.latest = false → (s.ringOf id).free ≠ 0 → (s.ringOf id).wait ≠ [] →
    (((s.ringOf id).items ++ (s.ringOf id).wait).all fun i => i.isCopy fun _ => true) = true →
    ∃ u, exec (.waitingFrameDelivery id t) s = .next u ∧
      u.ringOf id = { s.ringOf id with wait := (s.ringOf id).wait.drop (s.ringOf id).free,
                                       items := (s.ringOf id).items ++ (s.ringOf id).wait.take (s.ringOf id).free } ∧
      u = { s with dt := max s.dt t, rings := u.rings }) ∧
  (∀ (id t d : Nat) (s : State), (s.ringOf id).firstUnsig = some d → (s.ringOf id).ctx.irq = true → (s.ringOf id).ctx.modus ≠ 0 →
    d + (s.ringOf id).ctx.modus * 1000 ≤ t → s.hostUp ((s.ringFunc id).getD 0) = true →
    (s.reg (msixWord ((s.ringFunc id).getD 0) (s.ringOf id).ctx.vec 3)).toNat % 2 = 0 →
    ∃ u, exec (.msixModerationTimeout id t) s = .next u ∧ u.ringOf id = { s.ringOf id with unsig := 0, firstUnsig := none } ∧
      u.host = (s.hostWrite ((s.reg (msixWord ((s.ringFunc id).getD 0) (s.ringOf id).ctx.vec 0)).toNat +
        4294967296 * (s.reg (msixWord ((s.ringFunc id).getD 0) (s.ringOf id).ctx.vec 1)).toNat)
        (leBytes 4 (s.reg (msixWord ((s.ringFunc id).getD 0) (s.ringOf id).ctx.vec 2)).toNat)).host ∧
      u = { s with dt := max s.dt t, host := u.host, rings := u.rings }) ∧
  (∀ (id t d : Nat) (s : State), (s.ringOf id).firstUnsig = some d → (s.ringOf id).ctx.irq = true → (s.ringOf id).ctx.modus ≠ 0 →
    d + (s.ringOf id).ctx.modus * 1000 ≤ t →
    (s.reg (msixWord ((s.ringFunc id).getD 0) (s.ringOf id).ctx.vec 3)).toNat % 2 = 1 →
    ∃ u, exec (.msixModerationTimeout id t) s = .next u ∧
      bit (u.reg (msixPba ((s.ringFunc id).getD 0) (s.ringOf id).ctx.vec)).toNat ((s.ringOf id).ctx.vec % 32) = true ∧
      SameRegs [msixPba ((s.ringFunc id).getD 0) (s.ringOf id).ctx.vec] s u ∧
      u = { s with dt := max s.dt t, regs := u.regs, rings := u.rings })

/-- C0_SUSPEND clears BOUND and shows the failing conditions; C0_RESUME sets it again 1 ms after the last failure. The link
going down is counted and raises a UC of source 44; coming up it shows its speed and width and counts a retrain to another
rate or width. Bus mastering and D3hot of a function are set and cleared. A hot reset and PERST clear bus mastering and
D3hot of every function and the context command; a VF's FLR only its own. A BAR4 write stores the enabled bytes outside
protected ranges; a read gives data, or ones outside SETUP, RUN and THROTTLED. Rules: R318, R319, R338, R343, R344, R472. -/
def Obligations.LinkFunctionsAndBarWindow : Prop :=
  (∀ (r : BitVec 5) (t : Nat) (s : State), s.up = true → r ≠ 0 → setBit r.toNat 1 false = s.c0Fails → r.toNat ≠ s.get F.Q_C0STAT_REASON → s.c0Rings = [] →
    ∃ u, exec (.c0Suspend r t) s = .next u ∧ u.get F.Q_C0STAT_BOUND = 0 ∧ u.get F.Q_C0STAT_REASON = r.toNat ∧ SameRegs [R.Q_C0STAT] s u ∧
      u = { s with dt := max s.dt t, regs := u.regs, c0Mark := u.c0Mark }) ∧
  (∀ (r : BitVec 5) (t id : Nat) (s : State), s.up = true → r ≠ 0 → setBit r.toNat 1 false = s.c0Fails → r.toNat ≠ s.get F.Q_C0STAT_REASON →
    s.c0Rings = [id] → (s.ringOf id).ctx.kind = 3 → (s.ringOf id).ctx.state = 1 → (s.ringOf id).ctx.full = false → s.heldRecords < 1024 →
    ∃ u, exec (.c0Suspend r t) s = .next u ∧ u.get F.Q_C0STAT_BOUND = 0 ∧ u.get F.Q_C0STAT_REASON = r.toNat ∧
      (u.ringOf id).out = (s.ringOf id).out ++ [eventRecord 0x30 [(1, 1, r.toNat), (8, 8, u.dt)]] ∧ SameRegs [R.Q_C0STAT] s u ∧
      u = { s with dt := max s.dt t, regs := u.regs, rings := u.rings, c0Mark := u.c0Mark }) ∧
  (∀ (t : Nat) (s : State), s.up = true → s.flag F.Q_C0STAT_BOUND = false → s.c0Fails = 0 → s.c0Mark + 1000000 ≤ t → s.c0Rings = [] →
    ∃ u, exec (.c0Resume t) s = .next u ∧ u.get F.Q_C0STAT_BOUND = 1 ∧ u.get F.Q_C0STAT_REASON = 0 ∧ SameRegs [R.Q_C0STAT] s u ∧
      u = { s with dt := max s.dt t, regs := u.regs }) ∧
  (∀ (t : Nat) (s : State), s.up = true → s.flag F.Q_STAT_LINKUP = true →
    ∃ u, exec (.pcieLinkDown t) s = .next u ∧ u.get F.Q_STAT_LINKUP = 0 ∧
      u.get F.Q_LINKCNT_DOWN = min (s.get F.Q_LINKCNT_DOWN + 1) (2 ^ F.Q_LINKCNT_DOWN.w - 1) ∧ Reported 44 .uc s u ∧
      SameRegs [R.Q_STAT, R.Q_LINKCNT] s u ∧ u = { s with dt := max s.dt t, regs := u.regs, pcie := u.pcie, inbox := u.inbox }) ∧
  (∀ (sp : Fin 8) (w : Fin 32) (t : Nat) (s : State), s.up = true → 1 ≤ sp.val → sp.val ≤ 5 → [1, 2, 4, 8, 16].contains w.val = true →
    s.pcie.reported = true →
    ∃ u, exec (.pcieLinkUp sp w t) s = .next u ∧ u.get F.Q_STAT_LINKUP = 1 ∧ u.get F.Q_STAT_SPEED = sp ∧ u.get F.Q_STAT_WIDTH = w ∧
      u.get F.Q_LINKCNT_RETRAIN = (if s.pcie.speed ≠ 0 ∧ (s.pcie.speed, s.pcie.width) ≠ (sp.val, w.val)
        then min (s.get F.Q_LINKCNT_RETRAIN + 1) (2 ^ F.Q_LINKCNT_RETRAIN.w - 1) else s.get F.Q_LINKCNT_RETRAIN) ∧
      SameRegs [R.Q_STAT, R.Q_LINKCNT] s u ∧ u = { s with dt := max s.dt t, regs := u.regs, pcie := u.pcie, c0Mark := u.c0Mark }) ∧
  (∀ (on : Bool) (t : Nat) (s : State), s.up = true →
    ∃ u, exec (.busMasterChange 0 on t) s = .next u ∧ u.pcie.bme.contains 0 = on ∧ u.get F.Q_STAT_BME = on.toNat ∧ SameRegs [R.Q_STAT] s u ∧
      u = { s with dt := max s.dt t, regs := u.regs, pcie := { s.pcie with bme := u.pcie.bme }, c0Mark := u.c0Mark }) ∧
  (∀ (f : Fin 32) (on : Bool) (t : Nat) (s : State), s.up = true → f ≠ 0 →
    ∃ u, exec (.busMasterChange f on t) s = .next u ∧ u.pcie.bme.contains f.val = on ∧
      (∀ g : Nat, g < 32 → g ≠ f → u.pcie.bme.contains g = s.pcie.bme.contains g) ∧
      u = { s with dt := max s.dt t, pcie := { s.pcie with bme := u.pcie.bme } }) ∧
  (∀ (f : Fin 32) (e : Bool) (s : State), s.up = true →
    ∃ u, exec (.functionD3hot f e) s = .next u ∧ u.pcie.d3.contains f.val = e ∧
      (∀ g : Nat, g < 32 → g ≠ f → u.pcie.d3.contains g = s.pcie.d3.contains g) ∧ u = { s with pcie := { s.pcie with d3 := u.pcie.d3 } }) ∧
  (∀ (unc : Bool) (s : State), s.up = true →
    ∃ u, exec (.pcieError unc) s = .next u ∧ Reported 44 (if unc then .uc else .ce) s u ∧ u = { s with inbox := u.inbox }) ∧
  (∀ s : State, s.up = true →
    ∃ u, exec .pcieHotReset s = .next u ∧ u.pcie = { s.pcie with bme := [], d3 := [] } ∧ u.ctxCmd = none ∧
      u.reg R.Q_CTXBASE = s.reg R.Q_CTXBASE ∧ u.get F.Q_STAT_LINKUP = s.get F.Q_STAT_LINKUP ∧
      SameRegsOut 0x600000 0x4080000 s u ∧
      (s.ringIds.all fun id => (s.ringFunc id).isNone || !(u.ringOf id).ctx.en) = true ∧
      u = { s with regs := u.regs, pcie := u.pcie, ctxCmd := none, rings := u.rings, dram := u.dram, jobs := u.jobs,
                   cmdDone := u.cmdDone, c0Mark := u.c0Mark }) ∧
  (∀ s : State, s.up = true →
    ∃ u, exec .perstAssert s = .next u ∧ u.pcie = { s.pcie with bme := [], d3 := [] } ∧ u.ctxCmd = none ∧
      u.reg R.Q_CTXBASE = s.reg R.Q_CTXBASE ∧ u.get F.Q_STAT_LINKUP = s.get F.Q_STAT_LINKUP ∧
      SameRegsOut 0x600000 0x4080000 s u ∧
      (s.ringIds.all fun id => (s.ringFunc id).isNone || !(u.ringOf id).ctx.en) = true ∧
      u = { s with regs := u.regs, pcie := u.pcie, ctxCmd := none, rings := u.rings, dram := u.dram, jobs := u.jobs,
                   cmdDone := u.cmdDone, c0Mark := u.c0Mark }) ∧
  (∀ (f : Fin 32) (s : State), s.up = true → f ≠ 0 →
    ∃ u, exec (.vfFlr f) s = .next u ∧ u.pcie.bme = s.pcie.bme.filter (fun g : Nat => g != f.val) ∧ u.pcie.d3 = s.pcie.d3.filter (fun g : Nat => g != f.val) ∧
      (∀ a, a < 0x4000000 + 0x4000 * f ∨ 0x4004000 + 0x4000 * f ≤ a → a ≠ R.Q_C0STAT → u.reg a = s.reg a) ∧
      (s.ringIds.all fun id => s.ringFunc id != some f.val || !(u.ringOf id).ctx.en) = true ∧
      u = { s with regs := u.regs, pcie := u.pcie, rings := u.rings, dram := u.dram, jobs := u.jobs, cmdDone := u.cmdDone,
                   c0Mark := u.c0Mark }) ∧
  (∀ (off : Nat) (b : Byte) (s : State), s.ringsMode = true → s.get F.Q_B4WIN_WIN * 0x40000000 + off < dramSize →
    s.inCtxArea (s.get F.Q_B4WIN_WIN * 0x40000000 + off) = false →
    ((s.protAll.filter fun e => inRange e.2.2 (s.get F.Q_B4WIN_WIN * 0x40000000 + off)).isEmpty) = true →
    ∃ u, exec (.bar4Write off [some b]) s = .next u ∧
      u = { s with dram := (s.dramWrite (s.get F.Q_B4WIN_WIN * 0x40000000 + off) [b]).dram }) ∧
  (∀ (off : Nat) (b : Byte) (s : State), s.ringsMode = true → s.get F.Q_B4WIN_WIN * 0x40000000 + off < dramSize →
    s.inCtxArea (s.get F.Q_B4WIN_WIN * 0x40000000 + off) = true →
    ((s.protAll.filter fun e => inRange e.2.2 (s.get F.Q_B4WIN_WIN * 0x40000000 + off)).isEmpty) = true →
    ∃ u, exec (.bar4Write off [some b]) s = .next u ∧ u.get F.Q_STAT_PROT_WR = 1 ∧ SameRegs [R.Q_STAT] s u ∧ OnlyRegs s u) ∧
  (∀ (off len : Nat) (s : State), s.up = true → s.ringsMode = true → s.get F.Q_B4WIN_WIN * 0x40000000 + off + len ≤ dramSize →
    ∃ u, exec (.bar4Read off len none) s = .next u ∧
      u.bar4 = some ((List.range len).map fun i => s.dramByte (s.get F.Q_B4WIN_WIN * 0x40000000 + off + i)) ∧
      u = { s with bar4 := u.bar4 }) ∧
  (∀ (off len : Nat) (s : State), s.up = true → s.ringsMode = false →
    ∃ u, exec (.bar4Read off len none) s = .next u ∧ u.bar4 = some (List.replicate len 0xFF) ∧ u = { s with bar4 := u.bar4 })

/-- A TAIL write to a disabled, SWPACE or ring-driven channel only stores it; to a running ring channel it also shows RUNNING or
IDLE, and an index past the ring stops it with ERR 2. Enabling a channel clears its indexes and ERR; a LOG2N out of range
sets VALUE_REJ only; clearing EN of an idle one disables it. STOP of an idle channel stops it with ERR 3, of a busy one
after its descriptor. RESUME clears ERR. START begins a run to TAIL, and on a channel that is not SWPACE sets VALUE_REJ.
Rules: R351, R352, R354. -/
def Obligations.DmaChannelRegisters : Prop :=
  (∀ (c : DmaCh) (v : Word) (s : State), s.access (R.DMA_CH_TAIL c) = true → s.flag (F.DMA_CH_CFG_EN c) = false ∨ s.flag (F.DMA_CH_CFG_SWPACE c) = true ∨ s.flag (F.DMA_CH_CFG_SRC c) = true →
    ∃ t, exec (.dmaChTailWrite c v) s = .next t ∧ t.get (F.DMA_CH_TAIL_TAIL c) = v.toNat % 65536 ∧ SameRegs [R.DMA_CH_TAIL c] s t ∧ OnlyRegs s t) ∧
  (∀ (c : DmaCh) (v : Word) (s : State), s.access (R.DMA_CH_TAIL c) = true → s.flag (F.DMA_CH_CFG_EN c) = true →
    s.flag (F.DMA_CH_CFG_SWPACE c) = false → s.flag (F.DMA_CH_CFG_SRC c) = false → v.toNat % 65536 < s.dmaN c → s.get (F.DMA_CH_STAT_STATE c) ≠ 3 →
    s.flag F.DMA_STAT_HALT = false → (s.chan c).run = none → (s.chan c).fetched = [] → (s.chan c).swEnd = none →
    ∃ t, exec (.dmaChTailWrite c v) s = .next t ∧ t.get (F.DMA_CH_TAIL_TAIL c) = v.toNat % 65536 ∧
      t.get (F.DMA_CH_STAT_STATE c) = (if v.toNat % 65536 = s.get (F.DMA_CH_STAT_CIDX c) then 1 else 2) ∧
      SameRegs [R.DMA_CH_TAIL c, R.DMA_CH_STAT c] s t ∧ OnlyRegs s t) ∧
  (∀ (c : DmaCh) (v : Word) (s : State), s.access (R.DMA_CH_TAIL c) = true → s.flag (F.DMA_CH_CFG_EN c) = true →
    s.flag (F.DMA_CH_CFG_SWPACE c) = false → s.flag (F.DMA_CH_CFG_SRC c) = false → s.dmaN c ≤ v.toNat % 65536 → s.get (F.DMA_CH_STAT_STATE c) ≠ 3 →
    (s.chan c).run = none →
    ∃ t, exec (.dmaChTailWrite c v) s = .next t ∧ t.get (F.DMA_CH_STAT_STATE c) = 3 ∧ t.get (F.DMA_CH_STAT_ERR c) = 2 ∧
      (t.chan c).fetched = [] ∧ SameRegs [R.DMA_CH_TAIL c, R.DMA_CH_STAT c] s t ∧ t = { s with regs := t.regs, dma := t.dma }) ∧
  (∀ (c : DmaCh) (v : Word) (s : State), s.access (R.DMA_CH_CFG c) = true → s.flag (F.DMA_CH_CFG_EN c) = false → v.getLsbD 0 = true →
    within (fieldOf (F.DMA_CH_CFG_LOG2N c) v) 4 16 = true → s.flag F.DMA_STAT_HALT = false → (s.chan c).run = none → (s.chan c).queue = [] → (s.chan c).swEnd = none →
    ∃ t, exec (.dmaChCfgWrite c v) s = .next t ∧ t.reg (R.DMA_CH_CFG c) = v &&& 0xF8FF1F1D#32 ∧ t.get (F.DMA_CH_STAT_CIDX c) = 0 ∧
      t.get (F.DMA_CH_TAIL_TAIL c) = 0 ∧ t.get (F.DMA_CH_STAT_ERR c) = 0 ∧ t.get (F.DMA_CH_STAT_STATE c) = 1 ∧
      t.chan c = { s.chan c with spent := 0, first := true, window := s.dt / 1000 } ∧
      SameRegs [R.DMA_CH_CFG c, R.DMA_CH_TAIL c, R.DMA_CH_STAT c] s t ∧ t = { s with regs := t.regs, dma := t.dma }) ∧
  (∀ (c : DmaCh) (v : Word) (s : State), s.access (R.DMA_CH_CFG c) = true → s.flag (F.DMA_CH_CFG_EN c) = false → v.getLsbD 0 = true →
    within (fieldOf (F.DMA_CH_CFG_LOG2N c) v) 4 16 = false →
    ∃ t, exec (.dmaChCfgWrite c v) s = .next t ∧ t.get (F.DMA_CH_STAT_VALUE_REJ c) = 1 ∧ SameRegs [R.DMA_CH_STAT c] s t ∧ OnlyRegs s t) ∧
  (∀ (c : DmaCh) (v : Word) (s : State), s.access (R.DMA_CH_CFG c) = true → s.flag (F.DMA_CH_CFG_EN c) = true → v.getLsbD 0 = false →
    dmaFixed (v &&& 0xF8FF1F1D#32) = dmaFixed (s.reg (R.DMA_CH_CFG c)) → (s.chan c).run = none → (s.chan c).queue = [] →
    ∃ t, exec (.dmaChCfgWrite c v) s = .next t ∧ t.reg (R.DMA_CH_CFG c) = v &&& 0xF8FF1F1D#32 ∧ t.get (F.DMA_CH_STAT_STATE c) = 0 ∧
      (t.chan c).fetched = [] ∧ SameRegs [R.DMA_CH_CFG c, R.DMA_CH_STAT c] s t ∧ t = { s with regs := t.regs, dma := t.dma }) ∧
  (∀ (c : DmaCh) (s : State), s.access (R.DMA_CH_CMD c) = true → s.flag (F.DMA_CH_CFG_EN c) = true → s.get (F.DMA_CH_STAT_STATE c) ≠ 3 →
    (s.chan c).run = none →
    ∃ t, exec (.dmaChStop c) s = .next t ∧ t.get (F.DMA_CH_STAT_STATE c) = 3 ∧ t.get (F.DMA_CH_STAT_ERR c) = 3 ∧ (t.chan c).fetched = [] ∧
      SameRegs [R.DMA_CH_STAT c] s t ∧ t = { s with regs := t.regs, dma := t.dma }) ∧
  (∀ (c : DmaCh) (r : DmaRun) (s : State), s.access (R.DMA_CH_CMD c) = true → s.flag (F.DMA_CH_CFG_EN c) = true → s.get (F.DMA_CH_STAT_STATE c) ≠ 3 →
    (s.chan c).run = some r → (s.chan c).stop = 0 →
    ∃ t, exec (.dmaChStop c) s = .next t ∧ t.chan c = { s.chan c with stop := 3 } ∧ SameRegs [] s t ∧ t = { s with dma := t.dma }) ∧
  (∀ (c : DmaCh) (s : State), s.access (R.DMA_CH_CMD c) = true → s.flag (F.DMA_CH_CFG_EN c) = true → s.get (F.DMA_CH_STAT_STATE c) = 3 →
    s.flag (F.DMA_CH_CFG_SWPACE c) = false → s.flag (F.DMA_CH_CFG_SRC c) = false → s.dmaBadTail c = false → s.flag F.DMA_STAT_HALT = false →
    (s.chan c).run = none → (s.chan c).fetched = [] → (s.chan c).swEnd = none →
    ∃ t, exec (.dmaChResume c) s = .next t ∧ t.get (F.DMA_CH_STAT_ERR c) = 0 ∧
      t.get (F.DMA_CH_STAT_STATE c) = (if s.get (F.DMA_CH_TAIL_TAIL c) = s.get (F.DMA_CH_STAT_CIDX c) then 1 else 2) ∧
      SameRegs [R.DMA_CH_STAT c] s t ∧ OnlyRegs s t) ∧
  (∀ (c : DmaCh) (s : State), s.access (R.DMA_CH_CMD c) = true → s.flag (F.DMA_CH_CFG_EN c) = true → s.flag (F.DMA_CH_CFG_SWPACE c) = true →
    s.flag (F.DMA_CH_CFG_SRC c) = false → (s.chan c).swEnd = none → s.dmaBadTail c = false → s.get (F.DMA_CH_STAT_STATE c) ≠ 3 →
    s.flag F.DMA_STAT_HALT = false → (s.chan c).run = none → (s.chan c).fetched = [] → s.get (F.DMA_CH_TAIL_TAIL c) ≠ s.get (F.DMA_CH_STAT_CIDX c) →
    ∃ t, exec (.dmaChStart c) s = .next t ∧ (t.chan c).swEnd = some (s.get (F.DMA_CH_TAIL_TAIL c)) ∧ t.get (F.DMA_CH_STAT_STATE c) = 2 ∧
      SameRegs [R.DMA_CH_STAT c] s t ∧ t = { s with regs := t.regs, dma := t.dma }) ∧
  (∀ (c : DmaCh) (s : State), s.access (R.DMA_CH_CMD c) = true → s.flag (F.DMA_CH_CFG_SWPACE c) = false →
    ∃ t, exec (.dmaChStart c) s = .next t ∧ t.get (F.DMA_CH_STAT_VALUE_REJ c) = 1 ∧ SameRegs [R.DMA_CH_STAT c] s t ∧ OnlyRegs s t)

/-- A fetched descriptor with OWN starts on an idle channel and one without OWN stops it with ERR 1. The one channel with a
request gets its read. Data that returns is written at its place, counted and leaves the reorder buffer. A new pacing window
renews every channel's budget. A descriptor that has ended has its status word written in its ring entry with OWN cleared,
is counted, and CIDX moves on; one of a DMA_COPY command answers the command. Rules: R351, R353, R356, R360. -/
def Obligations.DmaMovesAndCompletes : Prop :=
  (∀ (c : DmaCh) (d : List Byte) (s : State), s.dmaFetchDue c = true → (s.chan c).run = none → s.flag (F.DMA_CH_CFG_SWPACE c) = false →
    s.get (F.DMA_CH_STAT_CIDX c) < s.dmaN c → (s.chan c).swEnd = none → bit (leAt d 0x1F 1) 7 = true →
    ∃ t, exec (.dmaDescFetch c [d]) s = .next t ∧
      ((t.chan c).run.map fun r => r.desc) = some { bytes := d, addr := s.dmaEntry c (s.get (F.DMA_CH_STAT_CIDX c)), since := s.dt } ∧ (t.chan c).fetched = [] ∧
      t.get (F.DMA_CH_STAT_STATE c) = 2 ∧ SameRegs [R.DMA_CH_STAT c] s t ∧ t = { s with regs := t.regs, dma := t.dma }) ∧
  (∀ (c : DmaCh) (d : List Byte) (s : State), s.dmaFetchDue c = true → (s.chan c).run = none → s.flag (F.DMA_CH_CFG_SWPACE c) = false →
    s.get (F.DMA_CH_STAT_CIDX c) < s.dmaN c → (s.chan c).swEnd = none → bit (leAt d 0x1F 1) 7 = false →
    ∃ t, exec (.dmaDescFetch c [d]) s = .next t ∧ (t.chan c).run = none ∧ t.get (F.DMA_CH_STAT_STATE c) = 3 ∧ t.get (F.DMA_CH_STAT_ERR c) = 1 ∧
      SameRegs [R.DMA_CH_STAT c] s t ∧ t = { s with regs := t.regs, dma := t.dma }) ∧
  (∀ (c : DmaCh) (t n : Nat) (dev : Bool) (k : DmaReadKind) (r : DmaRun) (s : State), s.dmaRuns = true → (s.chan c).run = some r → r.want false = some (.read dev k n) →
    (s.chan c).first = true → s.dma.reads = [] → (∀ k : Nat, k < 4 → s.ringReady k = false) → n ≤ 512 → s.hostUp (s.dmaFunc c) = true →
    (∀ e : Nat, e < 64 → e ≠ c → (s.chan e).run = none ∧ s.flag (F.DMA_CH_CFG_EN e) = false) →
    ∃ u, exec (.dmaReadIssue t) s = .next u ∧ u.dma.reads = [{ id := s.dma.nextId, ch := c, dev := dev, kind := k }] ∧ u.dma.rr = c ∧
      (u.chan c).first = false ∧ u.dt = max s.dt t ∧ SameRegs ((List.range 64).map fun e => R.DMA_CH_STAT e) s u ∧
      u = { s with dt := u.dt, regs := u.regs, dma := u.dma }) ∧
  (∀ (t : Nat) (s : State), s.dmaRuns = true →
    ∃ u, exec (.dmaReadIssue t) s = .next u ∧ u.dma.reads.length ≤ s.dma.reads.length + 1 ∧ u.dma.nextId ≤ s.dma.nextId + 1 ∧
      u.nvm = s.nvm ∧ u.mode = s.mode ∧ u.rings = s.rings ∧ u.frames = s.frames ∧ u.dt = max s.dt t ∧
      u = { s with regs := u.regs, dt := u.dt, dram := u.dram, host := u.host, pairVer := u.pairVer, dma := u.dma }) ∧
  (∀ (t : Nat) (s : State), s.dmaRuns = false → ∃ u, exec (.dmaReadIssue t) s = .next u ∧ u = s) ∧
  (∀ (id a off n : Nat) (c : DmaCh) (data : List Byte) (r : DmaRun) (g : DmaSeg) (s : State), s.flag F.DMA_STAT_HALT = false → s.ringsMode = true →
    s.dma.reads = [{ id := id, ch := c, dev := false, kind := .data a off n }] → data.length = n → (s.chan c).run = some r → r.seg = some g →
    r.desc.cmp = false → r.dst.dev = false →
    ∃ u, exec (.dmaReadCompletion id data none) s = .next u ∧ u.dma.reads = [] ∧ u.host = (s.hostWrite (g.dst + off) data).host ∧
      u.get64 (F.DMA_CH_BYTES_LO_BYTES c) (F.DMA_CH_BYTES_HI_BYTES c) = min (s.get64 (F.DMA_CH_BYTES_LO_BYTES c) (F.DMA_CH_BYTES_HI_BYTES c) + n) (2 ^ 64 - 1) ∧
      (u.chan c).run = some ({ r with seg := some { g with written := g.written + n } } : DmaRun).settle ∧
      SameRegs [R.DMA_CH_BYTES_LO c, R.DMA_CH_BYTES_HI c] s u ∧
      u = { s with regs := u.regs, pairVer := u.pairVer, dma := u.dma, host := u.host }) ∧
  (∀ (id a off n : Nat) (c : DmaCh) (data : List Byte) (r : DmaRun) (g : DmaSeg) (s : State), s.flag F.DMA_STAT_HALT = false → s.ringsMode = true →
    s.dma.reads = [{ id := id, ch := c, dev := false, kind := .data a off n }] → data.length = n → 1 ≤ n → n ≤ 64 - (g.dst + off) % 64 →
    (s.chan c).run = some r → r.seg = some g → r.desc.cmp = false → r.dst.dev = true → s.dmaProtected (g.dst + off) n = false →
    ∃ u, exec (.dmaReadCompletion id data none) s = .next u ∧ u.dma.reads = [] ∧ u.dram = (s.dramWrite (g.dst + off) data).dram ∧
      (u.chan c).run = some ({ r with seg := some { g with written := g.written + n } } : DmaRun).settle ∧
      SameRegs [R.DMA_CH_BYTES_LO c, R.DMA_CH_BYTES_HI c] s u ∧
      u = { s with regs := u.regs, pairVer := u.pairVer, dma := u.dma, dram := u.dram }) ∧
  (∀ (id : Nat) (data : List Byte) (r : DmaRead) (e : Option Channel) (s : State), s.dma.reads.find? (fun r => r.id == id && r.data.isNone) = some r →
    s.flag F.DMA_STAT_HALT = false → r.isDead = false → r.dev = false → data.length = r.size → s.ringsMode = false →
    ∃ u, exec (.dmaReadCompletion id data e) s = .next u ∧
      u.dma.reads = s.dma.reads.map (fun x => if x.id = id then { x with data := some data, ecc := none } else x) ∧
      u = { s with dma := u.dma }) ∧
  (∀ (id : Nat) (data : List Byte) (r : DmaRead) (e : Option Channel) (s : State), s.dma.reads.find? (fun r => r.id == id && r.data.isNone) = some r →
    (s.flag F.DMA_STAT_HALT = true ∨ r.isDead = true) →
    ∃ u, exec (.dmaReadCompletion id data e) s = .next u ∧ u.dma.reads = s.dma.reads.filter (fun x => x.id != id) ∧ u = { s with dma := u.dma }) ∧
  (∀ (t : Nat) (c : DmaCh) (s : State), s.ringsMode = true → (s.chan c).window < max s.dt t / 1000 →
    ∃ u, exec (.dmaPacingWindow t) s = .next u ∧
      u.chan c = { s.chan c with window := max s.dt t / 1000, first := true, spent := (s.chan c).spent - s.dmaBudget c * (max s.dt t / 1000 - (s.chan c).window) } ∧
      u = { s with dt := max s.dt t, dma := u.dma }) ∧
  (∀ (c : DmaCh) (code resid : Nat) (r : DmaRun) (s : State), (s.chan c).run = some r → r.result = some (code, resid) → s.dmaRuns = true →
    s.hostUp (s.dmaFunc c) = true → r.desc.cmd = none → code ≠ 9 → (s.chan c).stop = 0 → (s.chan c).closing = false → r.desc.flag 3 = false →
    (s.chan c).fetched = [] → (s.chan c).swEnd = none → (s.chan c).queue = [] → s.get (F.DMA_CH_STAT_STATE c) ≠ 3 →
    ∃ u, exec (.dmaWriteback c) s = .next u ∧ (u.chan c).run = none ∧
      u.host = ((s.hostWrite (r.desc.addr + 0x18) (leBytes 4 (statusWord code resid) ++ leBytes 3 0)).hostWrite (r.desc.addr + 0x1F) [0]).host ∧
      u.get (F.DMA_CH_DONE_COUNT c) = min (s.get (F.DMA_CH_DONE_COUNT c) + 1) (2 ^ 32 - 1) ∧
      u.get (F.DMA_CH_STAT_CIDX c) = (s.get (F.DMA_CH_STAT_CIDX c) + 1) % s.dmaN c % 65536 ∧ SameRegs [R.DMA_CH_DONE c, R.DMA_CH_STAT c] s u ∧
      u = { s with regs := u.regs, dma := u.dma, host := u.host }) ∧
  (∀ (c : DmaCh) (code resid ring tag : Nat) (r : DmaRun) (s : State), (s.chan c).run = some r → r.result = some (code, resid) → s.dmaRuns = true →
    r.desc.cmd = some (ring, tag) → code ≠ 9 → (s.chan c).stop = 0 → r.desc.flag 3 = false → (s.chan c).fetched = [] → (s.chan c).swEnd = none →
    (s.chan c).queue = [] → s.get (F.DMA_CH_STAT_STATE c) ≠ 3 →
    ∃ u, exec (.dmaWriteback c) s = .next u ∧ (u.chan c).run = none ∧
      u.cmdDone = s.cmdDone ++ [{ ring := ring, tag := tag, status := 0, result := statusWord code resid, dt := s.dt }] ∧
      u.get (F.DMA_CH_DONE_COUNT c) = min (s.get (F.DMA_CH_DONE_COUNT c) + 1) (2 ^ 32 - 1) ∧ SameRegs [R.DMA_CH_DONE c, R.DMA_CH_STAT c] s u ∧
      u = { s with regs := u.regs, dma := u.dma, cmdDone := u.cmdDone })

/-- A failed descriptor fetch halts the engine, counts the halt, records the channel and raises a UC of source 45; one of ring
service halts the failing submission ring. With nothing outstanding the halt settles and shows the failing address, and the
failing descriptor completes with code 3. RESTART of a settled engine with the link up resumes it, and otherwise sets
CMDREJ. A settled link halt resumes by itself when link and bus mastering are back. Rules: R362, R363, R366. -/
def Obligations.DmaHaltsAndRestarts : Prop :=
  (∀ (c : DmaCh) (link : Bool) (s : State), s.up = true → link = true → s.flag F.Q_STAT_LINKUP = false → s.flag F.DMA_STAT_HALT = false →
    s.flag (F.DMA_CH_CFG_EN c) = true →
    ∃ t, exec (.dmaHalt (.fetch c) link []) s = .next t ∧ t.get F.DMA_STAT_HALT = 1 ∧ t.get F.DMA_STAT_CAUSE = 2 ∧ t.get F.DMA_STAT_CH = c ∧
      t.get F.DMA_STAT_RINGSVC = 0 ∧ t.get F.DMA_CNT_HALTS = min (s.get F.DMA_CNT_HALTS + 1) 65535 ∧ Reported 45 .uc s t ∧
      t.dma.failAddr = s.dmaEntry c (s.dmaFetchAt c) ∧ SameRegs ([R.DMA_STAT, R.DMA_CNT] ++ (List.range 64).map fun e => R.DMA_CH_STAT e) s t ∧
      t = { s with regs := t.regs, dma := t.dma, rings := t.rings, inbox := t.inbox }) ∧
  (∀ (id : Nat) (s : State), s.up = true → s.flag F.DMA_STAT_HALT = false → (s.ringOf id).ctx.en = true → (s.ringOf id).ctx.kind = 0 →
    id ≠ s.ringGlobal ((s.ringFunc id).getD 0) 0 →
    ∃ t, exec (.dmaHalt (.ring id) false []) s = .next t ∧ t.get F.DMA_STAT_HALT = 1 ∧ t.get F.DMA_STAT_CAUSE = 1 ∧ t.get F.DMA_STAT_RINGSVC = 1 ∧
      Reported 45 .uc s t ∧ (t.ringOf id).ctx.state = 2 ∧ (t.ringOf id).ctx.err = 3 ∧
      t.dma.failAddr = (s.ringOf id).ctx.rbase + 64 * (s.ringOf id).ctx.cidx ∧
      SameRegs ([R.DMA_STAT, R.DMA_CNT] ++ (List.range 64).map fun e => R.DMA_CH_STAT e) s t ∧
      t = { s with regs := t.regs, dma := t.dma, rings := t.rings, dram := t.dram, inbox := t.inbox }) ∧
  (∀ s : State, s.flag F.DMA_STAT_HALT = true → s.flag F.DMA_STAT_SETTLED = false → s.dma.reads = [] → s.dma.failing = none → s.dma.failAddr < 2 ^ 64 →
    (∀ c : Nat, c < 64 → (s.chan c).run = none) →
    ∃ t, exec .dmaSettled s = .next t ∧ t.get F.DMA_STAT_SETTLED = 1 ∧ t.get64 F.DMA_HALTADDR_LO_ADDR F.DMA_HALTADDR_HI_ADDR = s.dma.failAddr ∧
      t.reg R.DMA_HALTINFO = 0 ∧ SameRegs [R.DMA_STAT, R.DMA_HALTINFO, R.DMA_HALTADDR_LO, R.DMA_HALTADDR_HI] s t ∧ OnlyRegs s t) ∧
  (∀ (c : DmaCh) (r : DmaRun) (s : State), s.flag F.DMA_STAT_HALT = true → s.flag F.DMA_STAT_SETTLED = false → s.dma.reads = [] →
    s.dma.failing = some c.val → (s.chan c).run = some r → r.desc.cmd = none → s.hostUp (s.dmaFunc c) = true → r.desc.flag 3 = false → (s.chan c).stop = 0 →
    (∀ e : Nat, e < 64 → e ≠ c → (s.chan e).run = none) →
    ∃ t, exec .dmaSettled s = .next t ∧ t.get F.DMA_STAT_SETTLED = 1 ∧ (t.chan c).run = none ∧ t.dma.failing = none ∧
      t.reg R.DMA_HALTINFO = BitVec.ofNat 32 (statusWord 3 s.dma.failLeft) ∧
      t.host = ((s.hostWrite (r.desc.addr + 0x18) (leBytes 4 (statusWord 3 s.dma.failLeft) ++ leBytes 3 0)).hostWrite (r.desc.addr + 0x1F) [0]).host ∧
      SameRegs [R.DMA_STAT, R.DMA_HALTINFO, R.DMA_HALTADDR_LO, R.DMA_HALTADDR_HI, R.DMA_CH_STAT c, R.DMA_CH_DONE c] s t ∧
      t = { s with regs := t.regs, dma := t.dma, host := t.host }) ∧
  (∀ s : State, s.access R.DMA_CMD = true → s.flag F.DMA_STAT_SETTLED = true → s.flag F.Q_STAT_LINKUP = true → s.ringsMode = true →
    (∀ c : Nat, c < 64 → s.flag (F.DMA_CH_CFG_EN c) = false) →
    ∃ t, exec .dmaRestart s = .next t ∧ t.get F.DMA_STAT_HALT = 0 ∧ t.get F.DMA_STAT_SETTLED = 0 ∧
      SameRegs ([R.DMA_STAT] ++ (List.range 64).map fun e => R.DMA_CH_STAT e) s t ∧ t = { s with regs := t.regs, c0Mark := t.c0Mark }) ∧
  (∀ s : State, s.access R.DMA_CMD = true → s.flag F.DMA_STAT_SETTLED = true → s.flag F.Q_STAT_LINKUP = true → s.ringsMode = true →
    ∃ t, exec .dmaRestart s = .next t ∧ t.get F.DMA_STAT_HALT = 0 ∧ t.get F.DMA_STAT_SETTLED = 0 ∧ SameMem s t ∧ t.mode = s.mode ∧ t.dt = s.dt ∧
      t = { s with regs := t.regs, host := t.host, c0Mark := t.c0Mark, dma := t.dma }) ∧
  (∀ s : State, s.access R.DMA_CMD = true → (s.flag F.DMA_STAT_SETTLED = false ∨ s.flag F.Q_STAT_LINKUP = false ∨ s.ringsMode = false) →
    ∃ t, exec .dmaRestart s = .next t ∧ t.get F.DMA_STAT_CMDREJ = 1 ∧ SameRegs [R.DMA_STAT] s t ∧ OnlyRegs s t) ∧
  (∀ s : State, s.flag F.DMA_STAT_HALT = true → s.flag F.DMA_STAT_SETTLED = true → s.get F.DMA_STAT_CAUSE = 2 → s.flag F.Q_STAT_LINKUP = true →
    s.flag F.Q_STAT_BME = true → (∀ c : Nat, c < 64 → s.flag (F.DMA_CH_CFG_EN c) = false) →
    ∃ t, exec .dmaAutoRestart s = .next t ∧ t.get F.DMA_STAT_HALT = 0 ∧ t.get F.DMA_STAT_SETTLED = 0 ∧
      t.get F.DMA_CNT_AUTORST = min (s.get F.DMA_CNT_AUTORST + 1) 65535 ∧
      SameRegs ([R.DMA_STAT, R.DMA_CNT] ++ (List.range 64).map fun e => R.DMA_CH_STAT e) s t ∧ t = { s with regs := t.regs, c0Mark := t.c0Mark }) ∧
  (∀ s : State, s.flag F.DMA_STAT_HALT = true → s.flag F.DMA_STAT_SETTLED = true → s.get F.DMA_STAT_CAUSE = 2 → s.flag F.Q_STAT_LINKUP = true →
    s.flag F.Q_STAT_BME = true →
    ∃ t, exec .dmaAutoRestart s = .next t ∧ t.get F.DMA_STAT_HALT = 0 ∧ t.get F.DMA_STAT_SETTLED = 0 ∧
      t.get F.DMA_CNT_AUTORST = min (s.get F.DMA_CNT_AUTORST + 1) 65535 ∧ SameMem s t ∧ t.mode = s.mode ∧ t.dt = s.dt ∧
      t = { s with regs := t.regs, host := t.host, c0Mark := t.c0Mark, dma := t.dma })

/-- Of the reports that wait, those of retired or absent sources are dropped; one that depends on a root is taken first and only
counted, at its source and at the root; else the first in the order of class and source is recorded, in the next higher
class where its own is unacknowledged: it latches its FSW bit, sets its class, flag and count and, as the first fault,
FC_FIRST; an FA of sources 44 to 55 enters SAFE, one of sources 0 to 43 retires its unit. With nothing waiting, nothing
happens. At the end of its last window a root that made dependents ends, another is dropped. A root whose fault is gone or
retired settles: it is dropped, and every dependent that is still LIVE is recorded. CEHOLD clears the CE flags whose end has
come. Rules: R370, R373, R377, R389. -/
def Obligations.FaultReportsAreRecordedOrCounted : Prop :=
  (∀ (unit : Option Report) (t : Nat) (r : Report) (s : State), s.up = true → (s.judged unit t).dependentReports = [] → firstReport (s.judged unit t).inbox = some r →
    ∃ u, exec (.faultReport unit t) s = .next u ∧ bit (u.get64 F.FC_FSW_LO_LATCH F.FC_FSW_HI_LATCH) r.source = true ∧
      u.unack r.source ((s.judged unit t).recordedClass r.source (classCode r.cls)) = true ∧
      u.get (F.FC_SRC_CLASS r.source) = max (s.get (F.FC_SRC_CLASS r.source)) ((s.judged unit t).recordedClass r.source (classCode r.cls) + 1) ∧
      u.get (F.FC_SRC_FORCED r.source) = 0 ∧
      u.get (F.FC_SRC_CECNT r.source) = (if (s.judged unit t).recordedClass r.source (classCode r.cls) = 0
        then min (s.get (F.FC_SRC_CECNT r.source) + 1) 65535 else s.get (F.FC_SRC_CECNT r.source)) ∧
      u.get (F.FC_SRC_UCCNT r.source) = (if (s.judged unit t).recordedClass r.source (classCode r.cls) = 1
        then min (s.get (F.FC_SRC_UCCNT r.source) + 1) 255 else s.get (F.FC_SRC_UCCNT r.source)) ∧
      u.get F.FC_FIRST_VALID = 1 ∧ (s.flag F.FC_FIRST_VALID = false → u.get F.FC_FIRST_SOURCE = r.source ∧
        u.get F.FC_FIRST_CLASS = (s.judged unit t).recordedClass r.source (classCode r.cls) ∧
        u.get64 F.FC_FIRSTDT_LO_DT F.FC_FIRSTDT_HI_DT = (max s.dt t) % 2 ^ 64) ∧ u.dt = max s.dt t ∧
      SafeWork { s with faults := u.faults, lostChan := u.lostChan, bankRetired := u.bankRetired, digitalFail := u.digitalFail, pairVer := u.pairVer } u) ∧
  (∀ (unit : Option Report) (t : Nat) (r : Report) (s : State), s.up = true → (s.judged unit t).dependentReports = [] → firstReport (s.judged unit t).inbox = some r →
    (s.judged unit t).recordedClass r.source (classCode r.cls) ≠ 2 →
    ∃ u, exec (.faultReport unit t) s = .next u ∧ u.inbox = (s.judged unit t).inbox.erase r ∧
      SameRegs [R.FC_FSW_LO, R.FC_FSW_HI, R.FC_SRC r.source, R.FC_FIRST, R.FC_FIRSTDT_LO, R.FC_FIRSTDT_HI, R.FC_LOGSEQ, R.FC_LOGLOST] (s.judged unit t) u ∧
      u.mode = s.mode ∧ (s.flag F.Q_FEVT_EN = false → u.dram = s.dram ∧ u.rings = s.rings) ∧ u.host = s.host ∧ u.dt = max s.dt t ∧
      SafeWork { s with digitalFail := u.digitalFail, bankRetired := u.bankRetired, lostChan := u.lostChan, pairVer := u.pairVer, faults := u.faults } u) ∧
  (∀ (unit : Option Report) (t : Nat) (r : Report) (s : State), s.up = true → (s.judged unit t).dependentReports = [] → firstReport (s.judged unit t).inbox = some r →
    (s.judged unit t).recordedClass r.source (classCode r.cls) = 2 → 44 ≤ r.source.val →
    ∃ u, exec (.faultReport unit t) s = .next u ∧ u.mode = .safe ∧ u.host = s.host ∧
      SafeWork { s with digitalFail := u.digitalFail, bankRetired := u.bankRetired, lostChan := u.lostChan, pairVer := u.pairVer, faults := u.faults } u) ∧
  (∀ (unit : Option Report) (t : Nat) (r : Report) (s : State), s.up = true → (s.judged unit t).dependentReports = [] → firstReport (s.judged unit t).inbox = some r →
    (s.judged unit t).recordedClass r.source (classCode r.cls) = 2 → r.source.val < 44 →
    ∃ u, exec (.faultReport unit t) s = .next u ∧ u.isRetired r.source = true ∧ u.get (F.FC_SRC_RETIRED r.source) = 1 ∧
      SafeWork { s with faults := u.faults, lostChan := u.lostChan, bankRetired := u.bankRetired, digitalFail := u.digitalFail, pairVer := u.pairVer } u) ∧
  (∀ (unit : Option Report) (t : Nat) (r : Report) (root : Nat × Nat) (s : State), s.up = true → firstReport (s.judged unit t).dependentReports = some r →
    (s.judged unit t).rootOf r.source = some root →
    ∃ u, exec (.faultReport unit t) s = .next u ∧ u.inbox = (s.judged unit t).inbox.erase r ∧
      u.get (F.FC_DEP_DEPMADE r.source) = min (s.get (F.FC_DEP_DEPMADE r.source) + 1) 65535 ∧
      u.get (F.FC_DEP_DEPCNT root.2) = min (s.get (F.FC_DEP_DEPCNT root.2) + 1) 65535 ∧
      SameRegs [R.FC_DEP r.source, R.FC_DEP root.2] (s.judged unit t) u ∧
      u = { s.judged unit t with inbox := u.inbox, regs := u.regs, faults := { (s.judged unit t).faults with roots := u.faults.roots } }) ∧
  (∀ (unit : Option Report) (t : Nat) (s : State), s.up = true → (s.judged unit t).inbox = [] →
    ∃ u, exec (.faultReport unit t) s = .next u ∧ u = s.judged unit t) ∧
  (∀ (src : Source) (t : Nat) (r : FaultRoot) (s : State), s.up = true → (s.faults.roots.find? fun x => x.src == src.val && !x.ended) = some r → r.windowEnd ≤ t →
    ∃ u, exec (.depWindowEnd src t) s = .next u ∧
      u.faults = { s.faults with roots := (if r.made.isEmpty then s.faults.roots.filter fun x => x.src != src.val
        else s.faults.roots.map fun x => if x.src = src.val then { x with ended := true } else x) } ∧
      SameRegs (if r.deps = 0 then [] else [R.FC_LOGSEQ, R.FC_LOGLOST]) s u ∧
      (r.deps ≠ 0 → s.nvLocked = false → s.nv.staged = [] → u.get F.FC_LOGSEQ_SEQ = (s.get F.FC_LOGSEQ_SEQ + 1) % 2 ^ 32) ∧
      (r.deps = 0 → u.nv = s.nv ∧ u.nvm = s.nvm) ∧ u.dram = s.dram ∧ u.host = s.host ∧ u.mode = s.mode ∧ u.dt = max s.dt t ∧
      u = { s with regs := u.regs, dt := u.dt, nvm := u.nvm, nv := u.nv, faults := u.faults }) ∧
  (∀ (src : Source) (t : Nat) (r : FaultRoot) (s : State), s.up = true → (s.faults.roots.find? fun x => x.src == src.val && x.ended) = some r →
    s.liveOf src = false ∨ s.isRetired src = true → (r.made.all fun e => !(s.at t).ceExpire.liveOf e.1) = true →
    ∃ u, exec (.depRootSettled src t) s = .next u ∧
      u = { (s.at t).ceExpire with faults := { (s.at t).ceExpire.faults with roots := s.faults.roots.filter fun x => x.src != src.val } }) ∧
  (∀ (src : Source) (t : Nat) (r : FaultRoot) (e : Nat × Nat × Nat) (s : State), s.up = true →
    (s.faults.roots.find? fun x => x.src == src.val && x.ended) = some r → s.liveOf src = false ∨ s.isRetired src = true → r.made = [e] → e.1 < 56 → e.2.1 < 3 →
    (s.at t).ceExpire.liveOf e.1 = true →
    ∃ u, exec (.depRootSettled src t) s = .next u ∧ bit (u.get64 F.FC_FSW_LO_LATCH F.FC_FSW_HI_LATCH) e.1 = true ∧
      u.unack e.1 ((s.at t).ceExpire.recordedClass e.1 e.2.1) = true ∧ u.dt = max s.dt t ∧
      SafeWork { s with faults := u.faults, lostChan := u.lostChan, bankRetired := u.bankRetired, digitalFail := u.digitalFail, pairVer := u.pairVer } u) ∧
  (∀ (t : Nat) (s : State), s.up = true →
    ∃ u, exec (.ceHoldExpire t) s = .next u ∧ (∀ e ∈ s.faults.ceEnd, e.2 ≤ max s.dt t → u.unack e.1 0 = false) ∧
      u.faults.ceEnd = (s.faults.ceEnd.filter fun e => max s.dt t < e.2) ∧ u.faults.roots = s.faults.roots ∧
      (∀ n ∈ List.range 64, u.unack n 1 = s.unack n 1 ∧ u.unack n 2 = s.unack n 2) ∧
      SameRegs (s.faults.ceEnd.map fun e => R.FC_SRC e.1) s u ∧ u = { s with dt := max s.dt t, regs := u.regs, faults := u.faults })

/-- A write of FC_FSW clears the latch, class and flags of every latched source named whose condition is gone; a live one stays,
sets CLRREJ and stands in CLRSRC, the last one named. FC_ACK clears the three flags of every source named. Forcing a source
that is absent or retired sets FORCEREJ; one that depends on a root is only counted; another is recorded, marked FORCED. In
SETUP the test of every retired unit of sources 0 to 43 named begins. A passed test puts the unit back in service: a block
its six cells and a spare, a region its bank and digital part, a port its supply as requested, a channel its memory; a
failed one sets RESTFAIL. Rules: R372, R373, R378, R380. -/
def Obligations.FaultSoftwareAndRestore : Prop :=
  (∀ (hi : Bool) (v : Word) (s : State), s.access R.FC_FSW_LO = true →
    ∃ t, exec (.faultClear hi v) s = .next t ∧
      (∀ k ∈ List.range 56, bit (t.get64 F.FC_FSW_LO_LATCH F.FC_FSW_HI_LATCH) k =
        (bit (s.get64 F.FC_FSW_LO_LATCH F.FC_FSW_HI_LATCH) k && !((named hi v).contains k && s.clearable k))) ∧
      (∀ k ∈ named hi v, s.clearable k = true → t.get (F.FC_SRC_CLASS k) = 0 ∧ t.get (F.FC_SRC_UNACK k) = 0) ∧
      t.flag F.FC_STAT_CLRREJ = (s.flag F.FC_STAT_CLRREJ || (named hi v).any fun k => decide (k < 56) && s.liveOf k) ∧
      t.get F.FC_STAT_CLRSRC = ((named hi v).filter fun k => decide (k < 56) && s.liveOf k).getLastD (s.get F.FC_STAT_CLRSRC) ∧
      SameRegs ([R.FC_FSW_LO, R.FC_FSW_HI, R.FC_STAT, R.FC_LOGSEQ, R.FC_LOGLOST] ++ ((named hi v).filter s.clearable).map R.FC_SRC) s t ∧
      t.dram = s.dram ∧ t.host = s.host ∧ t.mode = s.mode ∧
      t = { s with regs := t.regs, nvm := t.nvm, nv := t.nv, pairVer := t.pairVer, faults := t.faults }) ∧
  (∀ (hi : Bool) (v : Word) (s : State), s.access R.FC_ACK_LO = true →
    ∃ t, exec (.faultAck hi v) s = .next t ∧ (∀ k ∈ named hi v, k < 56 → t.get (F.FC_SRC_UNACK k) = 0) ∧
      t.faults.ceEnd = (s.faults.ceEnd.filter fun e => !((named hi v).contains e.1 && decide (e.1 < 56))) ∧
      SameRegs (((named hi v).filter fun k => decide (k < 56)).map R.FC_SRC) s t ∧ t = { s with regs := t.regs, faults := t.faults }) ∧
  (∀ (hi : Bool) (v : Word) (k : Nat) (s : State), s.access R.FC_FORCE_LO = true → k ∈ named hi v → 56 ≤ k ∨ s.isRetired k = true →
    ∃ t, exec (.faultForce hi v) s = .next t ∧ t.get F.FC_STAT_FORCEREJ = 1 ∧
      SafeWork { s with faults := t.faults, lostChan := t.lostChan, bankRetired := t.bankRetired, digitalFail := t.digitalFail, pairVer := t.pairVer } t) ∧
  (∀ (hi : Bool) (v : Word) (s : State), s.access R.FC_FORCE_LO = true → (∀ k ∈ named hi v, 56 ≤ k ∨ s.isRetired k = true) → named hi v ≠ [] →
    ∃ t, exec (.faultForce hi v) s = .next t ∧ t = s.ceExpire.put F.FC_STAT_FORCEREJ 1) ∧
  (∀ (hi : Bool) (v : Word) (k : Nat) (root : Nat × Nat) (s : State), s.access R.FC_FORCE_LO = true → named hi v = [k] → k < 56 → s.isRetired k = false →
    s.ceExpire.rootOf k = some root →
    ∃ t, exec (.faultForce hi v) s = .next t ∧ t.get (F.FC_DEP_DEPMADE k) = min (s.get (F.FC_DEP_DEPMADE k) + 1) 65535 ∧
      t.get (F.FC_DEP_DEPCNT root.2) = min (s.get (F.FC_DEP_DEPCNT root.2) + 1) 65535 ∧
      SameRegs [R.FC_DEP k, R.FC_DEP root.2] s.ceExpire t ∧
      t = { s.ceExpire with regs := t.regs, faults := { s.ceExpire.faults with roots := t.faults.roots } }) ∧
  (∀ (hi : Bool) (v : Word) (k : Nat) (s : State), s.access R.FC_FORCE_LO = true → named hi v = [k] → k < 56 → s.isRetired k = false →
    s.ceExpire.rootOf k = none →
    ∃ t, exec (.faultForce hi v) s = .next t ∧ bit (t.get64 F.FC_FSW_LO_LATCH F.FC_FSW_HI_LATCH) k = true ∧
      t.unack k (s.ceExpire.recordedClass k (s.get F.FC_CTRL_FCLASS)) = true ∧
      (s.ceExpire.recordedClass k (s.get F.FC_CTRL_FCLASS) = s.get F.FC_CTRL_FCLASS → t.get (F.FC_SRC_FORCED k) = 1) ∧
      t.get (F.FC_SRC_CECNT k) = (if s.ceExpire.recordedClass k (s.get F.FC_CTRL_FCLASS) = 0
        then min (s.get (F.FC_SRC_CECNT k) + 1) 65535 else s.get (F.FC_SRC_CECNT k)) ∧
      t.get (F.FC_SRC_UCCNT k) = (if s.ceExpire.recordedClass k (s.get F.FC_CTRL_FCLASS) = 1
        then min (s.get (F.FC_SRC_UCCNT k) + 1) 255 else s.get (F.FC_SRC_UCCNT k)) ∧ t.inbox.take s.inbox.length = s.inbox ∧ t.dt = s.dt ∧
      SafeWork { s with digitalFail := t.digitalFail, bankRetired := t.bankRetired, lostChan := t.lostChan, pairVer := t.pairVer, faults := t.faults } t) ∧
  (∀ (hi : Bool) (v : Word) (k : Nat) (s : State), s.access R.FC_FORCE_LO = true → named hi v = [k] → k < 56 → s.isRetired k = false →
    s.ceExpire.rootOf k = none → s.ceExpire.recordedClass k (s.get F.FC_CTRL_FCLASS) ≠ 2 →
    ∃ t, exec (.faultForce hi v) s = .next t ∧
      SameRegs [R.FC_FSW_LO, R.FC_FSW_HI, R.FC_SRC k, R.FC_FIRST, R.FC_FIRSTDT_LO, R.FC_FIRSTDT_HI, R.FC_LOGSEQ, R.FC_LOGLOST] s.ceExpire t ∧
      t.mode = s.mode ∧ (s.flag F.Q_FEVT_EN = false → t.dram = s.dram) ∧ t.host = s.host ∧ t.inbox = s.inbox ∧
      SafeWork { s with digitalFail := t.digitalFail, bankRetired := t.bankRetired, lostChan := t.lostChan, pairVer := t.pairVer, faults := t.faults } t) ∧
  (∀ (hi : Bool) (v : Word) (s : State), s.access R.FC_RESTORE_LO = true → s.mode = .setup →
    ∃ t, exec (.unitRestore hi v) s = .next t ∧
      t.faults = { s.faults with tests := s.faults.tests ++ (named hi v).filter fun n => decide (n < 44) && s.isRetired n && !s.faults.tests.contains n } ∧
      t = { s with faults := t.faults }) ∧
  (∀ (hi : Bool) (v : Word) (s : State), s.mode ≠ .setup → ∃ t, exec (.unitRestore hi v) s = .next t ∧ t = s) ∧
  (∀ (src : Source) (s : State), s.faults.tests.contains src.val = true →
    ∃ t, exec (.restoreTestDone src true) s = .next t ∧ t.isRetired src = false ∧ t.get (F.FC_SRC_RETIRED src) = 0 ∧
      t.faults = { s.faults with tests := s.faults.tests.filter (fun n => n != src.val) } ∧ t.host = s.host ∧ t.mode = s.mode ∧
      t = { s with regs := t.regs, nvm := t.nvm, heads := t.heads, nv := t.nv, digitalFail := t.digitalFail, bankRetired := t.bankRetired, lostChan := t.lostChan, pairVer := t.pairVer, faults := t.faults }) ∧
  (∀ (src : Block) (s : State), s.faults.tests.contains src.val = true →
    ∃ t, exec (.restoreTestDone ⟨src.val, by omega⟩ true) s = .next t ∧ t.cellsIn src cellInService = [0, 1, 2, 3, 4, 5] ∧ t.cellsIn src cellSpare = [6] ∧
      t.get (F.EN_BSTAT_NOSPARE src) = 0 ∧ t.quires = s.quires ∧ t.dram = s.dram ∧
      t = { s with regs := t.regs, nvm := t.nvm, heads := t.heads, nv := t.nv, digitalFail := t.digitalFail, bankRetired := t.bankRetired, lostChan := t.lostChan, pairVer := t.pairVer, faults := t.faults }) ∧
  (∀ (r : Region) (s : State), s.faults.tests.contains (16 + r.val) = true →
    ∃ t, exec (.restoreTestDone ⟨16 + r.val, by omega⟩ true) s = .next t ∧ t.digitalFail = s.digitalFail.filter (fun n => n != r.val) ∧
      t.bankRetired = s.bankRetired.filter (fun n => n != r.val) ∧
      SameRegs [R.FC_RET_LO, R.FC_RET_HI, R.FC_SRC (16 + r), R.FC_LOGSEQ, R.FC_LOGLOST, R.NV_DIRTY] s t ∧ t.dram = s.dram ∧
      t = { s with regs := t.regs, nvm := t.nvm, heads := t.heads, nv := t.nv, digitalFail := t.digitalFail, bankRetired := t.bankRetired, lostChan := t.lostChan, pairVer := t.pairVer, faults := t.faults }) ∧
  (∀ (h : Head) (s : State), s.faults.tests.contains (20 + h.val) = true → s.mode = .setup →
    ∃ t, exec (.restoreTestDone ⟨20 + h.val, by omega⟩ true) s = .next t ∧ (t.head h).bridge ≠ .hold ∧
      (t.hsupWanted h = false → t.get (F.HP_STAT_HSUP h) = (if s.get (F.HP_STAT_HSUP h) = 3 then 3 else 0)) ∧
      (t.hsupWanted h = true → s.get (F.HP_STAT_HSUP h) = 0 → (s.head h).supStopped = false → (s.head h).retryAt = none → t.get (F.HP_STAT_HSUP h) = 1) ∧ t.dram = s.dram ∧
      t = { s with regs := t.regs, nvm := t.nvm, heads := t.heads, nv := t.nv, digitalFail := t.digitalFail, bankRetired := t.bankRetired, lostChan := t.lostChan, pairVer := t.pairVer, faults := t.faults }) ∧
  (∀ (c : Channel) (s : State), s.faults.tests.contains (28 + c.val) = true →
    ∃ t, exec (.restoreTestDone ⟨28 + c.val, by omega⟩ true) s = .next t ∧ t.get (F.DR_CSTAT_LOST c) = 0 ∧
      t.get (F.DR_CSTAT_TRAINED c) = 1 ∧ t.get (F.DR_CSTAT_SREF c) = 0 ∧ t.lostChan = s.lostChan.filter (fun n => n != c.val) ∧
      SameRegs [R.FC_RET_LO, R.FC_RET_HI, R.FC_SRC (28 + c), R.DR_CSTAT c, R.FC_LOGSEQ, R.FC_LOGLOST, R.NV_DIRTY] s t ∧ t.dram = s.dram ∧
      t = { s with regs := t.regs, nvm := t.nvm, heads := t.heads, nv := t.nv, digitalFail := t.digitalFail, bankRetired := t.bankRetired, lostChan := t.lostChan, pairVer := t.pairVer, faults := t.faults }) ∧
  (∀ (src : Source) (s : State), s.faults.tests.contains src.val = true →
    ∃ t, exec (.restoreTestDone src false) s = .next t ∧ t.get F.FC_STAT_RESTFAIL = 1 ∧ t.isRetired src = s.isRetired src ∧
      t.faults = { s.faults with tests := s.faults.tests.filter (fun n => n != src.val) } ∧
      SameRegs [R.FC_STAT, R.FC_LOGSEQ, R.FC_LOGLOST] s t ∧ t.dram = s.dram ∧ t.host = s.host ∧ t.mode = s.mode ∧
      t = { s with regs := t.regs, nvm := t.nvm, heads := t.heads, nv := t.nv, digitalFail := t.digitalFail, bankRetired := t.bankRetired, lostChan := t.lostChan, pairVer := t.pairVer, faults := t.faults })

/-- A request whose resource does the same already is merged. One that no running activity stands in the way of runs at once,
another waits behind it; MC_STAT and MC_CNT.QUEUED show them. A due scrub pass starts, completing the pass that ran. The
queued request that is next starts when its way is free: the shutter event proceeds, the refit begins, the calibration is
ordered, the swap may go on, the block is loaded. A request queued for QWAIT s is refused and its user told. A checked word
that is good does nothing; a corrected one is counted and reported as CE; an uncorrectable one is counted and reported as
UC, with its address where it lies in DRAM. Rules: R393, R394, R397, R398. -/
def Obligations.ChurnAndScrub : Prop :=
  (∀ (a : Activity) (n : Nat) (t : Nat) (s : State), s.up = true → (a = .m9p ∧ s.nv.req.contains n = true) ∨ (a = .m9r ∧ (nvRing n).isSome = true) ∨ (a = .m10 ∧ n < 24) ∨
      (a = .m1 ∧ s.inRun = true ∧ s.trimReady (n / 16) = true ∧ n % 16 = s.trimConv (n / 16)) →
    ((s.churnRun ++ s.churnQueue).any fun j => j.act == a && j.res == n) = true →
    ∃ u, exec (.churnRequest a n t) s = .next u ∧ u = { s with dt := max s.dt t }) ∧
  (∀ (a : Activity) (n : Nat) (t : Nat) (s : State), s.up = true → (a = .m9p ∧ s.nv.req.contains n = true) ∨ (a = .m9r ∧ (nvRing n).isSome = true) ∨ (a = .m10 ∧ n < 24) ∨
      (a = .m1 ∧ s.inRun = true ∧ s.trimReady (n / 16) = true ∧ n % 16 = s.trimConv (n / 16)) →
    ((s.churnRun ++ s.churnQueue).any fun j => j.act == a && j.res == n) = false → (s.churnRun.any fun j => waitPair j.act a && sameResource j.act j.res a n) = false →
    ∃ u, exec (.churnRequest a n t) s = .next u ∧ u.churnRun = s.churnRun ++ [{ act := a, res := n, since := t }] ∧
      u.get F.MC_STAT_RUNNING = jobBits u.churnRun ∧ u.get F.MC_STAT_QUEUED = jobBits u.churnQueue ∧ SameRegs [R.MC_STAT] s u ∧
      u = { s with dt := max s.dt t, regs := u.regs, churnRun := u.churnRun }) ∧
  (∀ (a : Activity) (n : Nat) (t : Nat) (s : State), s.up = true → (a = .m9p ∧ s.nv.req.contains n = true) ∨ (a = .m9r ∧ (nvRing n).isSome = true) ∨
      (a = .m1 ∧ s.inRun = true ∧ s.trimReady (n / 16) = true ∧ n % 16 = s.trimConv (n / 16)) →
    ((s.churnRun ++ s.churnQueue).any fun j => j.act == a && j.res == n) = false → (s.churnRun.any fun j => waitPair j.act a && sameResource j.act j.res a n) = true →
    ∃ u, exec (.churnRequest a n t) s = .next u ∧ u.churnQueue = s.churnQueue ++ [{ act := a, res := n, since := t }] ∧
      u.get F.MC_STAT_RUNNING = jobBits u.churnRun ∧ u.get F.MC_STAT_QUEUED = jobBits u.churnQueue ∧
      u.get F.MC_CNT_QUEUED = min (s.get F.MC_CNT_QUEUED + 1) 65535 ∧ SameRegs [R.MC_STAT, R.MC_CNT] s u ∧
      u = { s with dt := max s.dt t, regs := u.regs, churnQueue := u.churnQueue }) ∧
  (∀ (n : Fin 32) (t : Nat) (s : State), s.scrubDue n = true →
    ∃ u, exec (.churnRequest .m8 n t) s = .next u ∧ u.churnRuns .m8 n = true ∧ u.scrubAt = (s.scrubAt.filter fun e => e.1 != n.val) ++ [(n.val, max s.dt t)] ∧
      SameRegs [R.MC_STAT, R.MC_SCRUBPASS] s u ∧
      u = { s with dt := max s.dt t, regs := u.regs, churnRun := u.churnRun, churnQueue := u.churnQueue, scrubAt := u.scrubAt }) ∧
  (∀ (j : Job) (t : Nat) (s : State), s.churnNext = some j →
    ∃ u, exec (.churnQueuedStart j.act j.res t) s = .next u ∧ u.churnRun = s.churnRun ++ [j] ∧ u.churnQueue = s.churnQueue.erase j ∧
      u.get F.MC_STAT_RUNNING = jobBits u.churnRun ∧ u.get F.MC_STAT_QUEUED = jobBits u.churnQueue ∧ u.dram = s.dram ∧ u.host = s.host ∧ u.dt = max s.dt t ∧
      (j.act ≠ .m2 → SameRegs [R.MC_STAT] s u) ∧
      u = { s with dt := u.dt, regs := u.regs, churnRun := u.churnRun, churnQueue := u.churnQueue, shutters := u.shutters, banks := u.banks, mcLoad := u.mcLoad }) ∧
  (∀ (j : Job) (t : Nat) (s : State), s.churnNext = some j → j.act = .m2 → j.res < 4 →
    ∃ u, exec (.churnQueuedStart .m2 j.res t) s = .next u ∧ (u.bank j.res).cal = .waiting ∧ u.get (F.TC_STAT_CALBUSY (2 * j.res)) = 1 ∧
      u = { s with dt := u.dt, regs := u.regs, banks := u.banks, churnRun := u.churnRun, churnQueue := u.churnQueue }) ∧
  (∀ (j : Job) (t : Nat) (s : State), s.churnNext = some j → j.act = .m3 → j.res < 8 →
    ∃ u, exec (.churnQueuedStart .m3 j.res t) s = .next u ∧ u.shut j.res = { s.shut j.res with granted := true } ∧
      u = { s with regs := u.regs, dt := u.dt, banks := u.banks, shutters := u.shutters, ring := u.ring, cmdDone := u.cmdDone, churnRun := u.churnRun, churnQueue := u.churnQueue, mcLoad := u.mcLoad }) ∧
  (∀ (j : Job) (t : Nat) (s : State), s.churnNext = some j → j.act = .m4 → j.res < 8 → (s.shut j.res).refitPhase = 6 →
    ∃ u, exec (.churnQueuedStart .m4 j.res t) s = .next u ∧ u.shut j.res = { s.shut j.res with refitPhase := 1 } ∧
      u = { s with regs := u.regs, dt := u.dt, banks := u.banks, shutters := u.shutters, ring := u.ring, cmdDone := u.cmdDone, churnRun := u.churnRun, churnQueue := u.churnQueue, mcLoad := u.mcLoad }) ∧
  (∀ (j : Job) (t : Nat) (s : State), s.churnNext = some j → j.act = .m5 → j.res % 3 = 0 → j.res < 24 → (s.shut (j.res / 3)).refitPhase = 3 →
    ∃ u, exec (.churnQueuedStart .m5 j.res t) s = .next u ∧ u.shut (j.res / 3) = { s.shut (j.res / 3) with refitPhase := 4 } ∧
      u = { s with regs := u.regs, dt := u.dt, banks := u.banks, shutters := u.shutters, ring := u.ring, cmdDone := u.cmdDone, churnRun := u.churnRun, churnQueue := u.churnQueue, mcLoad := u.mcLoad }) ∧
  (∀ (j : Job) (t : Nat) (l : McLoad) (s : State), s.churnNext = some j → j.act = .m6 → s.mcLoad = some l →
    ∃ u, exec (.churnQueuedStart .m6 j.res t) s = .next u ∧ u.mcLoad = some { l with cur := some j.res } ∧
      u = { s with regs := u.regs, dt := u.dt, banks := u.banks, shutters := u.shutters, ring := u.ring, cmdDone := u.cmdDone, churnRun := u.churnRun, churnQueue := u.churnQueue, mcLoad := u.mcLoad }) ∧
  (∀ (j : Job) (t : Nat) (s : State), j ∈ s.churnQueue → j.act ∈ [Activity.m2, .m3, .m4, .m5, .m6] → s.get F.MC_CFG_QWAIT ≠ 0 →
    j.since + s.get F.MC_CFG_QWAIT * 1000000000 ≤ t →
    ∃ u, exec (.churnQwaitExpire t) s = .next u ∧ j ∉ u.churnQueue ∧ min (s.get F.MC_CNT_REFUSED + 1) 65535 ≤ u.get F.MC_CNT_REFUSED ∧ u.dt = max s.dt t ∧
      u = { s with dt := u.dt, regs := u.regs, heads := u.heads, ring := u.ring, cmdDone := u.cmdDone, inbox := u.inbox, churnRun := u.churnRun, churnQueue := u.churnQueue, shutters := u.shutters, nv := u.nv, mcLoad := u.mcLoad }) ∧
  (∀ (j : Job) (t : Nat) (s : State), s.churnQueue = [j] → j.act = .m2 → j.res < 4 → s.get F.MC_CFG_QWAIT ≠ 0 →
    j.since + s.get F.MC_CFG_QWAIT * 1000000000 ≤ t →
    ∃ u, exec (.churnQwaitExpire t) s = .next u ∧ u.churnQueue = [] ∧ u.get (F.TC_STAT_CALRESULT (2 * j.res)) = 4 ∧ u.get F.MC_LAST_ACT = 2 ∧
      u.get F.MC_LAST_RESOURCE = j.res ∧ u.get F.MC_CNT_REFUSED = min (s.get F.MC_CNT_REFUSED + 1) 65535 ∧
      SameRegs [R.MC_LAST, R.MC_CNT, R.MC_STAT, R.TC_STAT (2 * j.res), R.TC_STAT (2 * j.res + 1)] s u ∧
      u = { s with dt := max s.dt t, regs := u.regs, churnQueue := [] }) ∧
  (∀ (t : Nat) (s : State), s.get F.MC_CFG_QWAIT = 0 → ∃ u, exec (.churnQwaitExpire t) s = .next u ∧ u = s) ∧
  (∀ (d : Bool) (n : Fin 16) (s : State), s.scrubDue (scrubRes d n) = true →
    ∃ t, exec (.scrubPassStart d n) s = .next t ∧ t.churnRuns .m8 (scrubRes d n) = true ∧
      t.scrubAt = (s.scrubAt.filter fun e => e.1 != scrubRes d n) ++ [(scrubRes d n, s.dt)] ∧
      t.get F.MC_SCRUBPASS_SPASS = (if !d && s.churnRuns .m8 (scrubRes d n) then min (s.get F.MC_SCRUBPASS_SPASS + 1) 65535 else s.get F.MC_SCRUBPASS_SPASS) ∧
      t.get F.MC_SCRUBPASS_DPASS = (if d && s.churnRuns .m8 (scrubRes d n) then min (s.get F.MC_SCRUBPASS_DPASS + 1) 65535 else s.get F.MC_SCRUBPASS_DPASS) ∧
      SameRegs [R.MC_STAT, R.MC_SCRUBPASS] s t ∧ t = { s with regs := t.regs, churnRun := t.churnRun, churnQueue := t.churnQueue, scrubAt := t.scrubAt }) ∧
  (∀ (d : Bool) (n : Fin 16) (s : State), s.scrubDue (scrubRes d n) = false → ∃ t, exec (.scrubPassStart d n) s = .next t ∧ t = s) ∧
  (∀ (d : Bool) (n : Fin 16) (a : Nat) (s : State), ∃ t, exec (.scrubWordCheck d n a .ok) s = .next t ∧ t = s) ∧
  (∀ (n : Fin 16) (a : Nat) (s : State), s.scrubOn n = true → s.churnRuns .m8 n = true →
    ∃ t, exec (.scrubWordCheck false n a .single) s = .next t ∧ t.get F.MC_SCRUBCNT_CE = min (s.get F.MC_SCRUBCNT_CE + 1) 65535 ∧
      Reported n .ce s t ∧ SameRegs [R.MC_SCRUBCNT] s t ∧ t = { s with regs := t.regs, inbox := t.inbox }) ∧
  (∀ (n : Fin 16) (a : Nat) (s : State), s.scrubOn (16 + n) = true → s.churnRuns .m8 (16 + n) = true →
    ∃ t, exec (.scrubWordCheck true n a .single) s = .next t ∧ t.get F.MC_SCRUBCNT_CE = min (s.get F.MC_SCRUBCNT_CE + 1) 65535 ∧
      t.get (F.DR_ECC_CE n) = min (s.get (F.DR_ECC_CE n) + 1) (2 ^ (F.DR_ECC_CE n).w - 1) ∧
      Reported (28 + n) .ce s t ∧ SameRegs [R.MC_SCRUBCNT, R.DR_ECC n] s t ∧ t = { s with regs := t.regs, inbox := t.inbox }) ∧
  (∀ (n : Fin 16) (a : Nat) (s : State), s.scrubOn n = true → s.churnRuns .m8 n = true →
    ∃ t, exec (.scrubWordCheck false n a .uncorrectable) s = .next t ∧ t.get F.MC_SCRUBCNT_UE = min (s.get F.MC_SCRUBCNT_UE + 1) 65535 ∧
      Reported n .uc s t ∧ SameRegs [R.MC_SCRUBCNT, R.MC_SCRUBERR_LO, R.MC_SCRUBERR_HI] s t ∧ SameMem s t ∧ t.mode = s.mode ∧ t.dt = s.dt ∧
      t = { s with regs := t.regs, freeCnt := t.freeCnt, dram := t.dram, inbox := t.inbox, pairVer := t.pairVer, rings := t.rings }) ∧
  (∀ (n : Fin 16) (a : Nat) (s : State), s.scrubOn (16 + n) = true → s.churnRuns .m8 (16 + n) = true → a < 2 ^ 64 →
    ∃ t, exec (.scrubWordCheck true n a .uncorrectable) s = .next t ∧ t.get F.MC_SCRUBCNT_UE = min (s.get F.MC_SCRUBCNT_UE + 1) 65535 ∧
      t.get64 F.MC_SCRUBERR_LO_ADDR F.MC_SCRUBERR_HI_ADDR = a ∧ t.get64 (F.DR_ERRADDR_LO_ADDR n) (F.DR_ERRADDR_HI_ADDR n) = a ∧
      t.get (F.DR_ECC_UE n) = min (s.get (F.DR_ECC_UE n) + 1) (2 ^ (F.DR_ECC_UE n).w - 1) ∧
      ReportedFirst (28 + n) .uc s t ∧
      t = { s with regs := t.regs, inbox := t.inbox, freeCnt := t.freeCnt, pairVer := t.pairVer, rings := t.rings, dram := t.dram }) ∧
  (∀ (n : Fin 16) (a : Nat) (s : State), s.scrubOn (16 + n) = true → s.churnRuns .m8 (16 + n) = true → a < 2 ^ 64 → s.inCtxArea a = false →
    ∃ t, exec (.scrubWordCheck true n a .uncorrectable) s = .next t ∧ Reported (28 + n) .uc s t ∧
      SameRegs [R.MC_SCRUBCNT, R.MC_SCRUBERR_LO, R.MC_SCRUBERR_HI, R.DR_ECC n, R.DR_ERRADDR_LO n, R.DR_ERRADDR_HI n] s t ∧
      t = { s with regs := t.regs, pairVer := t.pairVer, inbox := t.inbox })

/-- TH_CFG is accepted only when 60 <= WARN <= THR <= SHUT - 5 and SHUT <= 115, with HYST from 1 to 10. A write that raises any
threshold is accepted only in DORMANT and SETUP. A write that lowers or keeps every threshold is accepted in any mode except
RESET. A refused write changes nothing and sets VALUE_REJ (a value out of range) or DIRECT_REFUSED (a raise in another
mode). Rules: R427. -/
def Obligations.ThermalLimitsAreGuarded : Prop :=
  (∀ (v : Word) (s : State), s.mode ≠ .reset → 60 ≤ fieldOf F.TH_CFG_WARN v → fieldOf F.TH_CFG_WARN v ≤ fieldOf F.TH_CFG_THR v →
    fieldOf F.TH_CFG_THR v + 5 ≤ fieldOf F.TH_CFG_SHUT v → fieldOf F.TH_CFG_SHUT v ≤ 115 → 1 ≤ fieldOf F.TH_CFG_HYST v → fieldOf F.TH_CFG_HYST v ≤ 10 →
    s.mode = .dormant ∨ s.mode = .setup ∨ (fieldOf F.TH_CFG_WARN v ≤ s.get F.TH_CFG_WARN ∧ fieldOf F.TH_CFG_THR v ≤ s.get F.TH_CFG_THR ∧
      fieldOf F.TH_CFG_SHUT v ≤ s.get F.TH_CFG_SHUT) →
    ∃ t, exec (.thCfgWrite v) s = .next t ∧ t.get F.TH_CFG_WARN = fieldOf F.TH_CFG_WARN v ∧ t.get F.TH_CFG_THR = fieldOf F.TH_CFG_THR v ∧
      t.get F.TH_CFG_SHUT = fieldOf F.TH_CFG_SHUT v ∧ t.get F.TH_CFG_HYST = fieldOf F.TH_CFG_HYST v ∧ SameRegs [R.TH_CFG] s t ∧ OnlyRegs s t) ∧
  (∀ (v : Word) (s : State), s.mode ≠ .reset → 60 ≤ fieldOf F.TH_CFG_WARN v → fieldOf F.TH_CFG_WARN v ≤ fieldOf F.TH_CFG_THR v →
    fieldOf F.TH_CFG_THR v + 5 ≤ fieldOf F.TH_CFG_SHUT v → fieldOf F.TH_CFG_SHUT v ≤ 115 → 1 ≤ fieldOf F.TH_CFG_HYST v → fieldOf F.TH_CFG_HYST v ≤ 10 →
    s.mode ≠ .dormant → s.mode ≠ .setup → s.get F.TH_CFG_WARN < fieldOf F.TH_CFG_WARN v ∨ s.get F.TH_CFG_THR < fieldOf F.TH_CFG_THR v ∨
      s.get F.TH_CFG_SHUT < fieldOf F.TH_CFG_SHUT v →
    ∃ t, exec (.thCfgWrite v) s = .next t ∧ t = s.put F.TH_STAT_DIRECT_REFUSED 1 ∧ SameRegs [R.TH_STAT] s t) ∧
  (∀ (v : Word) (s : State), s.mode ≠ .reset → fieldOf F.TH_CFG_WARN v < 60 ∨ fieldOf F.TH_CFG_THR v < fieldOf F.TH_CFG_WARN v ∨
    fieldOf F.TH_CFG_SHUT v < fieldOf F.TH_CFG_THR v + 5 ∨ 115 < fieldOf F.TH_CFG_SHUT v ∨ fieldOf F.TH_CFG_HYST v = 0 ∨ 10 < fieldOf F.TH_CFG_HYST v →
    ∃ t, exec (.thCfgWrite v) s = .next t ∧ t = s.put F.TH_STAT_VALUE_REJ 1 ∧ SameRegs [R.TH_STAT] s t)

/-- A mode command while BUSY answers 6, except SAFE; in a mode that does not take it, it answers 2. DORMANT from SETUP enters
DORMANT. SETUP from DORMANT begins the transition with every channel to train and BUSY; from SAFE with a cause or a fault of
sources 44 to 55 left it answers 3, with none it begins the transition too; from RUN with a head that streams it becomes
BUSY until the heads have stopped, and enters SETUP at once when none streams and every frame is reported. RUN answers 7 for
a configuration that breaks a check and 4 for a CSI-2 port over its load, otherwise asks the planner and waits. THROTTLE and
UNTHROTTLE change between RUN and THROTTLED, UNTHROTTLE not while the thermal cause holds. SAFE enters SAFE from any mode
outside RESET, in SAFE it answers 2. Training with 2,048 MiB readies a channel, a failure counts, a third failure reports an
FA. The transition ends in SETUP. Rules: R404, R405, R408, R411. -/
def Obligations.ModeCommandsAndTransitions : Prop :=
  (∀ s : State, s.access R.SYS_MODECMD = true → s.flag F.SYS_MODESTAT_BUSY = false → s.mode = .setup →
    ∃ t, exec .modeDormant s = .next t ∧ t.mode = .dormant ∧ t.get F.SYS_MODESTAT_CMDRES = 1 ∧ t.dram = s.dram ∧ t.host = s.host ∧ t.dt = s.dt ∧
      t.txns = s.txns ∧ t.rings = s.rings ∧ t.frames = s.frames ∧
      t = { s with mode := t.mode, regs := t.regs, dt := t.dt, freeCnt := t.freeCnt, nvm := t.nvm, inbox := t.inbox, heads := t.heads, banks := t.banks, shutters := t.shutters, ring := t.ring, nv := t.nv, cmdDone := t.cmdDone, churnRun := t.churnRun, churnQueue := t.churnQueue, mirCopies := t.mirCopies, csi := t.csi, alarms := t.alarms, txns := t.txns, txnQ := t.txnQ }) ∧
  (∀ s : State, s.access R.SYS_MODECMD = true → s.flag F.SYS_MODESTAT_BUSY = false → s.mode ≠ .setup →
    ∃ t, exec .modeDormant s = .next t ∧ t.get F.SYS_MODESTAT_CMDRES = 2 ∧ SameRegs [R.SYS_MODESTAT] s t ∧ OnlyRegs s t) ∧
  (∀ s : State, s.access R.SYS_MODECMD = true → s.flag F.SYS_MODESTAT_BUSY = false → s.mode ≠ .setup →
    ∃ t, exec .modeRun s = .next t ∧ t.get F.SYS_MODESTAT_CMDRES = 2 ∧ SameRegs [R.SYS_MODESTAT] s t ∧ OnlyRegs s t) ∧
  (∀ s : State, s.access R.SYS_MODECMD = true → s.flag F.SYS_MODESTAT_BUSY = false → s.mode ≠ .run →
    ∃ t, exec .modeThrottle s = .next t ∧ t.get F.SYS_MODESTAT_CMDRES = 2 ∧ SameRegs [R.SYS_MODESTAT] s t ∧ OnlyRegs s t) ∧
  (∀ s : State, s.access R.SYS_MODECMD = true → s.flag F.SYS_MODESTAT_BUSY = false → s.mode ≠ .throttled →
    ∃ t, exec .modeUnthrottle s = .next t ∧ t.get F.SYS_MODESTAT_CMDRES = 2 ∧ SameRegs [R.SYS_MODESTAT] s t ∧ OnlyRegs s t) ∧
  (∀ (d : Nat) (s : State), s.access R.SYS_MODECMD = true → s.flag F.SYS_MODESTAT_BUSY = false → s.mode = .setup →
    ∃ t, exec (.modeSetup d) s = .next t ∧ t.get F.SYS_MODESTAT_CMDRES = 2 ∧ SameRegs [R.SYS_MODESTAT] s t ∧ t = { s with dt := max s.dt d, regs := t.regs }) ∧
  (∀ (i : Instr) (s : State), i ∈ [Instr.modeDormant, Instr.modeSetup 0, Instr.modeRun, Instr.modeThrottle, Instr.modeUnthrottle] →
    s.access R.SYS_MODECMD = true → s.flag F.SYS_MODESTAT_BUSY = true →
    ∃ t, exec i s = .next t ∧ t.get F.SYS_MODESTAT_CMDRES = 6 ∧ SameRegs [R.SYS_MODESTAT] s t ∧ OnlyRegs s t) ∧
  (∀ (d : Nat) (s : State), s.access R.SYS_MODECMD = true → s.flag F.SYS_MODESTAT_BUSY = false → s.mode = .dormant →
    ∃ t, exec (.modeSetup d) s = .next t ∧ t.mode = .dormant ∧ t.get F.SYS_MODESTAT_CMDRES = 1 ∧ t.get F.SYS_MODESTAT_BUSY = 1 ∧
      t.power = { s.power with trans := some (.up (!s.flag F.SYS_MODESTAT_FIRSTDONE) ((List.range 16).filter fun c => !s.lostChan.contains c)) } ∧
      SameMem s t ∧ t.dt = max s.dt d ∧
      t = { s with mode := t.mode, regs := t.regs, dt := t.dt, dram := t.dram, nvm := t.nvm, host := t.host, heads := t.heads, banks := t.banks, nv := t.nv, churnRun := t.churnRun, churnQueue := t.churnQueue, blocks := t.blocks, csi := t.csi, rings := t.rings, c0Mark := t.c0Mark, dma := t.dma, power := t.power, hk := t.hk, frames := t.frames, quires := t.quires }) ∧
  (∀ (d : Nat) (s : State), s.access R.SYS_MODECMD = true → s.flag F.SYS_MODESTAT_BUSY = false → s.mode = .safe → s.get F.SYS_SAFECAUSE_CAUSE ≠ 0 →
    ∃ t, exec (.modeSetup d) s = .next t ∧ t.get F.SYS_MODESTAT_CMDRES = 3 ∧ SameRegs [R.SYS_MODESTAT] s t ∧ t = { s with dt := max s.dt d, regs := t.regs }) ∧
  (∀ (d : Nat) (s : State), s.access R.SYS_MODECMD = true → s.flag F.SYS_MODESTAT_BUSY = false → s.mode = .safe →
    s.get F.FC_FSW_HI_LATCH / 2 ^ 12 % 2 ^ 12 ≠ 0 →
    ∃ t, exec (.modeSetup d) s = .next t ∧ t.get F.SYS_MODESTAT_CMDRES = 3 ∧ SameRegs [R.SYS_MODESTAT] s t ∧ t = { s with dt := max s.dt d, regs := t.regs }) ∧
  (∀ (d : Nat) (s : State), s.access R.SYS_MODECMD = true → s.flag F.SYS_MODESTAT_BUSY = false → s.mode = .safe → s.get F.SYS_SAFECAUSE_CAUSE = 0 →
    s.get F.FC_FSW_HI_LATCH / 2 ^ 12 % 2 ^ 12 = 0 →
    ∃ t, exec (.modeSetup d) s = .next t ∧ t.mode = .safe ∧ t.get F.SYS_MODESTAT_CMDRES = 1 ∧ t.get F.SYS_MODESTAT_BUSY = 1 ∧
      t.power = { s.power with trans := some (.up false ((List.range 16).filter fun c => !s.lostChan.contains c)) } ∧ SameMem s t ∧ t.dt = max s.dt d ∧
      t = { s with mode := t.mode, regs := t.regs, dt := t.dt, dram := t.dram, nvm := t.nvm, host := t.host, heads := t.heads, banks := t.banks, nv := t.nv, churnRun := t.churnRun, churnQueue := t.churnQueue, blocks := t.blocks, csi := t.csi, rings := t.rings, c0Mark := t.c0Mark, dma := t.dma, power := t.power, hk := t.hk, frames := t.frames, quires := t.quires }) ∧
  (∀ (d : Nat) (h : Head) (s : State), s.access R.SYS_MODECMD = true → s.flag F.SYS_MODESTAT_BUSY = false → s.inRun = true → s.streams h = true →
    ∃ t, exec (.modeSetup d) s = .next t ∧ t.get F.SYS_MODESTAT_CMDRES = 1 ∧ t.get F.SYS_MODESTAT_BUSY = 1 ∧ t.get F.SYS_MODESTAT_CMDTHR = 0 ∧
      t.power = { s.power with trans := some .down } ∧ SameRegs [R.SYS_MODESTAT] s t ∧ t = { s with dt := max s.dt d, regs := t.regs, power := t.power }) ∧
  (∀ (d : Nat) (s : State), s.access R.SYS_MODECMD = true → s.flag F.SYS_MODESTAT_BUSY = false → s.inRun = true → (List.range 8).any s.streams = false →
    (s.frames.all fun f => f.reported) = true →
    ∃ t, exec (.modeSetup d) s = .next t ∧ t.mode = .setup ∧ t.get F.SYS_MODESTAT_CMDRES = 1 ∧ t.get F.SYS_MODESTAT_BUSY = 0 ∧
      t.get F.SYS_MODESTAT_CMDTHR = 0 ∧ t.power.trans = none ∧ t.frames = [] ∧ t.dt = max s.dt d ∧
      t = { s with power := t.power, regs := t.regs, banks := t.banks, hk := t.hk, dt := t.dt, frames := t.frames, csi := t.csi, quires := t.quires, blocks := t.blocks, churnRun := t.churnRun, churnQueue := t.churnQueue, c0Mark := t.c0Mark, heads := t.heads, rings := t.rings, dram := t.dram, dma := t.dma, host := t.host, mode := t.mode, nv := t.nv, nvm := t.nvm }) ∧
  (∀ s : State, s.access R.SYS_MODECMD = true → s.flag F.SYS_MODESTAT_BUSY = false → s.mode = .setup → s.configOk = false →
    ∃ t, exec .modeRun s = .next t ∧ t.get F.SYS_MODESTAT_CMDRES = 7 ∧ SameRegs [R.SYS_MODESTAT] s t ∧ OnlyRegs s t) ∧
  (∀ s : State, s.access R.SYS_MODECMD = true → s.flag F.SYS_MODESTAT_BUSY = false → s.mode = .setup → s.configOk = true → s.csiCheck.1 = false →
    ∃ t, exec .modeRun s = .next t ∧ t.get F.SYS_MODESTAT_CMDRES = 4 ∧ t.mode = .setup ∧
      SameRegs (R.SYS_MODESTAT :: (List.range 4).map R.TX_STAT) s t ∧ OnlyRegs s t) ∧
  (∀ s : State, s.access R.SYS_MODECMD = true → s.flag F.SYS_MODESTAT_BUSY = false → s.mode = .setup → s.configOk = true → s.csiCheck.1 = true →
    ∃ t, exec .modeRun s = .next t ∧ t.mode = .setup ∧ t.get F.SYS_MODESTAT_BUSY = 1 ∧ t.power = { s.power with trans := some .run } ∧
      (∃ q ∈ t.planRun.toList ++ t.planQ, q = { kind := .runCmd, asked := s.dt }) ∧
      (s.planRun = none → s.planQ = [] → t.planRun = some { kind := .runCmd, asked := s.dt }) ∧
      SameRegs (R.SYS_MODESTAT :: R.SYS_PLAN_STAT :: (List.range 4).map R.TX_STAT) s t ∧
      t = { s with regs := t.regs, power := t.power, planRun := t.planRun, planQ := t.planQ }) ∧
  (∀ s : State, s.access R.SYS_MODECMD = true → s.flag F.SYS_MODESTAT_BUSY = false → s.mode = .run →
    ∃ t, exec .modeThrottle s = .next t ∧ t.mode = .throttled ∧ t.get F.SYS_MODESTAT_CMDTHR = 1 ∧ t.get F.SYS_MODESTAT_CMDRES = 1 ∧
      SameRegs [R.SYS_MODESTAT, R.FC_LOGSEQ, R.FC_LOGLOST] s t ∧ t = { s with mode := .throttled, regs := t.regs, nvm := t.nvm, nv := t.nv }) ∧
  (∀ s : State, s.access R.SYS_MODECMD = true → s.flag F.SYS_MODESTAT_BUSY = false → s.mode = .throttled → s.flag F.SYS_MODESTAT_THTHR = false →
    ∃ t, exec .modeUnthrottle s = .next t ∧ t.mode = .run ∧ t.get F.SYS_MODESTAT_CMDTHR = 0 ∧ t.get F.SYS_MODESTAT_CMDRES = 1 ∧
      SameRegs [R.SYS_MODESTAT, R.FC_LOGSEQ, R.FC_LOGLOST] s t ∧ t = { s with mode := .run, regs := t.regs, nvm := t.nvm, nv := t.nv }) ∧
  (∀ s : State, s.access R.SYS_MODECMD = true → s.flag F.SYS_MODESTAT_BUSY = false → s.mode = .throttled → s.flag F.SYS_MODESTAT_THTHR = true →
    ∃ t, exec .modeUnthrottle s = .next t ∧ t.mode = .throttled ∧ t.get F.SYS_MODESTAT_CMDTHR = 0 ∧ t.get F.SYS_MODESTAT_CMDRES = 1 ∧
      SameRegs [R.SYS_MODESTAT] s t ∧ OnlyRegs s t) ∧
  (∀ (d : Nat) (s : State), s.access R.SYS_MODECMD = true → s.mode ≠ .safe →
    ∃ t, exec (.modeSafe d) s = .next t ∧ t.mode = .safe ∧ t.get F.SYS_MODESTAT_CMDRES = 1 ∧ bit (t.get F.SYS_SAFECAUSE_CAUSE) 0 = true ∧
      t.get F.SYS_STREAM_HEADS = 0 ∧ t.frames = [] ∧ t.quires = [] ∧ t.dt = max s.dt d ∧
      SafeWork s t) ∧
  (∀ (d : Nat) (s : State), s.access R.SYS_MODECMD = true → s.mode = .safe → s.flag F.SYS_MODESTAT_BUSY = false →
    ∃ t, exec (.modeSafe d) s = .next t ∧ t.get F.SYS_MODESTAT_CMDRES = 2 ∧ SameRegs [R.SYS_MODESTAT] s t ∧ OnlyRegs s t) ∧
  (∀ (d : Nat) (s : State), s.access R.SYS_MODECMD = true → s.mode = .safe → s.flag F.SYS_MODESTAT_BUSY = true →
    ∃ t, exec (.modeSafe d) s = .next t ∧ t.mode = .safe ∧ t.get F.SYS_MODESTAT_CMDRES = 1 ∧ t.get F.SYS_MODESTAT_BUSY = 0 ∧ t.power.trans = none ∧
      bit (t.get F.SYS_SAFECAUSE_CAUSE) 0 = true ∧ t.dt = max s.dt d ∧
      SafeWork s t) ∧
  (∀ (f : Bool) (s : State), s.power.trans = some (.up f []) →
    ∃ t, exec .setupTransitionDone s = .next t ∧ t.mode = .setup ∧ t.get F.SYS_MODESTAT_BUSY = 0 ∧ (f = true → t.get F.SYS_MODESTAT_FIRSTDONE = 1) ∧
      t.power.trans = none ∧ t.txns = s.txns ∧ t.frames = s.frames ∧ t.dt = s.dt ∧
      t = { s with mode := t.mode, regs := t.regs, dram := t.dram, nvm := t.nvm, host := t.host, inbox := t.inbox, heads := t.heads, nv := t.nv, blocks := t.blocks, mcActive := t.mcActive, rings := t.rings, c0Mark := t.c0Mark, dma := t.dma, power := t.power }) ∧
  (∀ (c : Channel) (f : Bool) (l : List Nat) (s : State), s.power.trans = some (.up f l) → l.contains c.val = true →
    ∃ t, exec (.dramTrainingDone c true 2048) s = .next t ∧ t.get (F.DR_CSTAT_TRAINED c) = 1 ∧ t.get (F.DR_CSTAT_SREF c) = 0 ∧
      t.get (F.DR_CSTAT_MIB c) = 2048 % 2 ^ (F.DR_CSTAT_MIB c).w ∧ t.power = { s.power with trans := some (.up f (l.filter fun n => n != c.val)) } ∧
      SameRegs [R.DR_CSTAT c] s t ∧ t = { s with regs := t.regs, power := t.power }) ∧
  (∀ (c : Channel) (ok : Bool) (m : Nat) (f : Bool) (l : List Nat) (s : State), s.power.trans = some (.up f l) → l.contains c.val = true →
    (ok = false ∨ m ≠ 2048) → s.get (F.DR_CSTAT_TRIES c) < 2 →
    ∃ t, exec (.dramTrainingDone c ok m) s = .next t ∧ t.get (F.DR_CSTAT_TRIES c) = s.get (F.DR_CSTAT_TRIES c) + 1 ∧
      t.get (F.DR_CSTAT_MIB c) = m % 2 ^ (F.DR_CSTAT_MIB c).w ∧ SameRegs [R.DR_CSTAT c] s t ∧ OnlyRegs s t) ∧
  (∀ (c : Channel) (ok : Bool) (m : Nat) (f : Bool) (l : List Nat) (s : State), s.power.trans = some (.up f l) → l.contains c.val = true →
    (ok = false ∨ m ≠ 2048) → s.get (F.DR_CSTAT_TRIES c) = 2 →
    ∃ t, exec (.dramTrainingDone c ok m) s = .next t ∧ t.get (F.DR_CSTAT_TRIES c) = 3 ∧ Reported (28 + c) .fa s t ∧
      t.power = { s.power with trans := some (.up f (l.filter fun n => n != c.val)) } ∧ SameRegs [R.DR_CSTAT c] s t ∧
      t = { s with regs := t.regs, power := t.power, inbox := t.inbox })

/-- Outside RUN and THROTTLED a SYS_STREAM write takes effect at once, and so does one that adds no head; one that adds a head
in RUN answers 7 for a configuration that breaks a check, otherwise it waits for the planner. A SYS_SAFECAUSE write clears
each written cause whose condition has ended, and no other; one still present answers 3. The power-on reset and the RESET
pin put every register and store inside the logic at its reset value, keeping the host's memory, the rails' voltages and the
NVM but for unfinished page writes, and remember the cause. RESET_N during a power-fail sequence waits; VDD_AON's collapse
does not. Release, while every rail is good, sets the bits of the causes in SYS_RSTCAUSE, and DT counts from 0; DORMANT can
then be entered. A further cause while RESET holds is remembered too. Rules: R403, R407, R413. -/
def Obligations.StreamsSafeCausesAndReset : Prop :=
  (∀ (v : Word) (s : State), s.access R.SYS_STREAM = true →
    (s.inRun = false ∨ ∀ h : Nat, h < 8 → bit (fieldOf F.SYS_STREAM_HEADS v) h = true → bit (s.get F.SYS_STREAM_HEADS) h = true) →
    ∃ t, exec (.sysStreamWrite v) s = .next t ∧ t.get F.SYS_STREAM_HEADS = fieldOf F.SYS_STREAM_HEADS v ∧ SameRegs [R.SYS_STREAM] s t ∧ OnlyRegs s t) ∧
  (∀ (v : Word) (h : Head) (s : State), s.access R.SYS_STREAM = true → s.inRun = true → s.power.trans ≠ some .down → bit (fieldOf F.SYS_STREAM_HEADS v) h = true →
    bit (s.get F.SYS_STREAM_HEADS) h = false → s.configOk = true →
    ∃ t, exec (.sysStreamWrite v) s = .next t ∧
      (∃ q ∈ t.planRun.toList ++ t.planQ, q = { kind := .stream, arg := fieldOf F.SYS_STREAM_HEADS v, asked := s.dt }) ∧
      (s.planRun = none → s.planQ = [] → t.planRun = some { kind := .stream, arg := fieldOf F.SYS_STREAM_HEADS v, asked := s.dt }) ∧
      SameRegs [R.SYS_PLAN_STAT] s t ∧ t = { s with regs := t.regs, planRun := t.planRun, planQ := t.planQ }) ∧
  (∀ (v : Word) (h : Head) (s : State), s.access R.SYS_STREAM = true → s.inRun = true → s.power.trans ≠ some .down → bit (fieldOf F.SYS_STREAM_HEADS v) h = true →
    bit (s.get F.SYS_STREAM_HEADS) h = false → s.configOk = false →
    ∃ t, exec (.sysStreamWrite v) s = .next t ∧ t.get F.SYS_MODESTAT_CMDRES = 7 ∧ SameRegs [R.SYS_MODESTAT] s t ∧ OnlyRegs s t) ∧
  (∀ (v : Word) (s : State), s.access R.SYS_SAFECAUSE = true →
    ∃ t, exec (.safeCauseClear v) s = .next t ∧
      (∀ b : Nat, b < 7 → bit (t.get F.SYS_SAFECAUSE_CAUSE) b =
        (bit (s.get F.SYS_SAFECAUSE_CAUSE) b && !(v.toNat.testBit b && s.causeGone b))) ∧
      t.get F.SYS_MODESTAT_CMDRES =
        (if (List.range 7).any (fun b => v.toNat.testBit b && bit (s.get F.SYS_SAFECAUSE_CAUSE) b && !s.causeGone b) = true then 3
          else s.get F.SYS_MODESTAT_CMDRES) ∧
      SameRegs [R.SYS_SAFECAUSE, R.SYS_MODESTAT] s t ∧ OnlyRegs s t) ∧
  (∀ (c : ResetCause) (s : State), s.mode ≠ .reset → c = .por ∨ (c = .pin ∧ s.power.seq = false) →
    ∃ t, exec (.resetEntry c) s = .next t ∧ t.mode = .reset ∧ t.power.causes = c :: s.power.resetWait ∧
      (s.nv.wr = none → s.nvRuns = [] → t.nvm = s.nvm) ∧
      t = { State.reset with nvm := t.nvm, host := s.host, freeCnt := t.freeCnt, pending := s.pending, refStopped := s.refStopped,
                             tap := s.tap, power := { State.reset.power with level := s.power.level, causes := t.power.causes } }) ∧
  (∀ s : State, s.mode ≠ .reset → s.power.seq = true →
    ∃ t, exec (.resetEntry .pin) s = .next t ∧ t = { s with power := { s.power with resetWait := .pin :: s.power.resetWait } }) ∧
  (∀ s : State, s.mode ≠ .reset → s.power.seq = false → s.power.pfPin = false → s.power.pfRail = false → s.railOk 12 = true →
    ∃ t, exec (.resetEntry .rail) s = .next t ∧ t.mode = .safe ∧ t.power.seq = true ∧ t.power.resetWait = .rail :: s.power.resetWait ∧
      t.get F.SYS_PWRSTAT_PFAIL = 1 ∧ t.get F.SYS_PWRSTAT_PERSISTED = 0 ∧
      SafeWork s t) ∧
  (∀ (c : ResetCause) (s : State), s.mode = .reset → s.power.released = false →
    ∃ t, exec (.resetEntry c) s = .next t ∧ t = { s with power := { s.power with causes := c :: s.power.causes } }) ∧
  (∀ s : State, s.mode ≠ .reset →
    ∃ t, exec .aonCollapse s = .next t ∧ t.mode = .reset ∧ t.power.causes = .rail :: s.power.resetWait ∧ t.power.level = s.power.level.set 12 0 ∧
      t.regs = State.reset.regs ∧ t.dram = State.reset.dram ∧ t.host = s.host ∧ t.pending = s.pending ∧
      ResetFrom s t) ∧
  (∀ s : State, s.mode = .reset → s.power.released = false → s.chooseIo.railsGood = true →
    ∃ t, exec .resetRelease s = .next t ∧ t.mode = .reset ∧ t.power.released = true ∧ t.dt = 0 ∧
      (∀ c ∈ s.power.causes, t.get (resetFld c) = 1) ∧ t.power.io33 = decide (2500000 ≤ s.power.level.getD 11 0) ∧
      t.dram = s.dram ∧ t.host = s.host ∧ t.rings = s.rings ∧ t.txns = s.txns ∧
      t = { s with regs := t.regs, dt := t.dt, dtFrac := t.dtFrac, freeCnt := t.freeCnt, nvm := t.nvm, inbox := t.inbox, heads := t.heads, nv := t.nv, digitalFail := t.digitalFail, lostChan := t.lostChan, pairVer := t.pairVer, power := t.power }) ∧
  (∀ (d : Nat) (s : State), s.mode = .reset → s.power.released = true →
    ∃ t, exec (.dormantEntry d) s = .next t ∧ t.mode = .dormant ∧ t.power.released = false ∧ t.hk.anchor = max s.dt d ∧ t.hk.lastWin = none ∧
      t.get F.SYS_MODESTAT_CAUSE = 0 ∧ SameRegs [R.SYS_MODESTAT, R.FC_LOGSEQ, R.FC_LOGLOST] s t ∧
      t = { s with mode := .dormant, dt := max s.dt d, regs := t.regs, nvm := t.nvm, nv := t.nv, power := t.power, hk := t.hk })

/-- REF stopping clears PLLOK and raises a UC in DORMANT and SAFE, and enters SAFE with an FA from SETUP and RUN. Its return and
the lock are shown. A rail read below 93 % for 1 µs sags: shown in SYS_PWRSTAT and as the NVM interlock; a rail back between
93 % and 110 % sags and fails no more. A reading below 88 % or above 110 % for 10 µs is a failure: of VDD_HSUP a UC, and no
supply stays on; of VDD_NVM the power-fail sequence; of VDD_AON above range only its flag; of any other rail but VSHUT an FA
and SAFE with SUPPLY. A rail below 80 % asks for RESET, which follows the power-fail sequence; VDD_AON below 1.55 V resets
at once. POWERFAIL_N, or VDD_AON below 95 % for 1 µs, starts the sequence in SAFE once; its end sets PERSISTED; a held RESET
follows. PFAIL clears when no condition is left. In RESET a reading is only kept. (The conditions of the rows and VDD_IO's
nominal at reset: log entry 189.) Rules: R414, R415, R416, R417. -/
def Obligations.ClockRailsAndPowerFailure : Prop :=
  (∀ (d : Nat) (s : State), s.mode = .dormant ∨ s.mode = .safe → s.refStopped = false →
    ∃ t, exec (.refClockStop d) s = .next t ∧ t.refStopped = true ∧ t.get F.SYS_PWRSTAT_PLLOK = 0 ∧ Reported 53 .uc s t ∧
      SameRegs [R.SYS_PWRSTAT] s t ∧ t = { s with dt := max s.dt d, refStopped := true, regs := t.regs, inbox := t.inbox }) ∧
  (∀ (d : Nat) (s : State), s.mode = .setup ∨ s.mode = .run ∨ s.mode = .throttled → s.refStopped = false →
    ∃ t, exec (.refClockStop d) s = .next t ∧ t.refStopped = true ∧ t.get F.SYS_PWRSTAT_PLLOK = 0 ∧ ReportedFirst 53 .fa s t ∧ t.mode = .safe ∧
      bit (t.get F.SYS_SAFECAUSE_CAUSE) 6 = true ∧
      SafeWork { s with refStopped := true } t) ∧
  (∀ s : State, ∃ t, exec .refClockReturn s = .next t ∧ t = { s with refStopped := false }) ∧
  (∀ s : State, s.refStopped = false → s.up = true →
    ∃ t, exec .pllLocked s = .next t ∧ t.get F.SYS_PWRSTAT_PLLOK = 1 ∧ SameRegs [R.SYS_PWRSTAT] s t ∧ OnlyRegs s t) ∧
  (∀ (r : RailReading) (s : State), s.up = true → r.rail.val ≠ 5 → r.rail.val ≠ 12 → s.readsSag r = true → s.readsReset r = false →
    (s.readsFail r = true → r.rail.val ∈ s.power.failing) →
    ∃ t, exec (.railSag r) s = .next t ∧ bit (t.get F.SYS_PWRSTAT_SAG) r.rail = true ∧ t.get F.NV_STAT_ILK_SAG = 1 ∧
      t.power.level = s.power.level.set r.rail r.uv ∧ t.mode = s.mode ∧ t.dt = s.dt ∧ t.host = s.host ∧ t.dram = s.dram ∧
      (s.nv.wr = none → SameRegs [R.SYS_PWRSTAT, R.NV_STAT] s t ∧ t = { s with regs := t.regs, power := t.power })) ∧
  (∀ (r : RailReading) (s : State), s.up = true → r.rail.val ≠ 5 → s.below r.rail r.uv 93 = false → s.above r.rail r.uv 110 = false →
    s.readsAonLow r = false →
    ∃ t, exec (.railGood r) s = .next t ∧ bit (t.get F.SYS_PWRSTAT_SAG) r.rail = false ∧
      t.power.failing = s.power.failing.filter (fun n => n != r.rail.val) ∧ t.power.level = s.power.level.set r.rail r.uv ∧
      t.get F.NV_STAT_ILK_SAG = (if t.get F.SYS_PWRSTAT_SAG = 0 then 0 else 1) ∧ t.mode = s.mode ∧ t.dt = s.dt ∧
      (s.nv.wr = none → SameRegs [R.SYS_PWRSTAT, R.NV_STAT] s t ∧ t = { s with regs := t.regs, power := t.power })) ∧
  (∀ (v : RailLevel) (d : Nat) (s : State), s.up = true → s.power.failing.contains 12 = false → s.above 12 v.uv 110 = true → 10000 ≤ v.ns →
    ∃ t, exec (.railFailure 12 v d) s = .next t ∧ bit (t.get F.SYS_PWRSTAT_FAIL) 12 = true ∧ t.power.failing = s.power.failing ++ [12] ∧
      t.mode = s.mode ∧ t.inbox = s.inbox ∧ t.dt = max s.dt d ∧
      SafeWork s t) ∧
  (∀ (k : Rail) (v : RailLevel) (d : Nat) (s : State), s.up = true → s.mode ≠ .safe → k.val ≠ 4 → k.val ≠ 5 → k.val ≠ 12 → k.val ≠ 13 →
    s.power.failing.contains k.val = false → s.readsFail ⟨k, v.uv, v.ns⟩ = true → s.readsReset ⟨k, v.uv, v.ns⟩ = false →
    ∃ t, exec (.railFailure k v d) s = .next t ∧ bit (t.get F.SYS_PWRSTAT_FAIL) k = true ∧ t.mode = .safe ∧
      bit (t.get F.SYS_SAFECAUSE_CAUSE) 3 = true ∧ t.power.level = s.power.level.set k v.uv ∧ t.dt = max s.dt d ∧
      (s.nv.wr = none → ReportedFirst 54 .fa s t) ∧
      SafeWork s t) ∧
  (∀ (v : RailLevel) (d : Nat) (s : State), s.up = true → s.power.failing.contains 4 = false → s.readsFail ⟨4, v.uv, v.ns⟩ = true →
    ∃ t, exec (.railFailure 4 v d) s = .next t ∧ bit (t.get F.SYS_PWRSTAT_FAIL) 4 = true ∧ t.mode = s.mode ∧
      (∀ h : Nat, h < 8 → t.get (F.HP_STAT_HSUP h) ≠ 2) ∧ t.dt = max s.dt d ∧ (s.nv.wr = none → ReportedFirst 54 .uc s t) ∧
      SafeWork s t) ∧
  (∀ (v : RailLevel) (d : Nat) (s : State), s.up = true → s.power.failing.contains 13 = false → s.readsFail ⟨13, v.uv, v.ns⟩ = true →
    s.readsReset ⟨13, v.uv, v.ns⟩ = false → s.power.pfPin = false → s.power.pfRail = false →
    ∃ t, exec (.railFailure 13 v d) s = .next t ∧ bit (t.get F.SYS_PWRSTAT_FAIL) 13 = true ∧ t.mode = .safe ∧ t.get F.SYS_PWRSTAT_PFAIL = 1 ∧
      t.power.seq = true ∧ t.power.pfRail = true ∧ t.dt = max s.dt d ∧
      SafeWork s t) ∧
  (∀ (k : Rail) (v : RailLevel) (d : Nat) (s : State), s.up = true → k.val ≠ 4 → k.val ≠ 5 → k.val ≠ 12 → s.below k v.uv 80 = true →
    s.railOk 12 = true → s.power.seq = false → s.power.pfPin = false → s.power.pfRail = false →
    ∃ t, exec (.railFailure k v d) s = .next t ∧ t.mode = .safe ∧ t.power.seq = true ∧ t.power.resetWait = .rail :: s.power.resetWait ∧
      t.get F.SYS_PWRSTAT_PFAIL = 1 ∧ bit (t.get F.SYS_SAFECAUSE_CAUSE) 4 = true ∧ t.dt = max s.dt d ∧
      SafeWork s t) ∧
  (∀ (v : RailLevel) (d : Nat) (s : State), s.up = true → v.uv < 1550000 →
    ∃ t, exec (.railFailure 12 v d) s = .next t ∧ t.mode = .reset ∧ ResetCause.rail ∈ t.power.causes ∧ t.host = s.host ∧
      ResetFrom s t) ∧
  (∀ (d : Nat) (s : State), s.up = true → s.power.pfPin = false → s.power.pfRail = false →
    ∃ t, exec (.powerfailAssert .pin d) s = .next t ∧ t.mode = .safe ∧ t.get F.SYS_PWRSTAT_PFAIL = 1 ∧ t.get F.SYS_PWRSTAT_PERSISTED = 0 ∧ t.power.seq = true ∧
      t.power.pfPin = true ∧ t.power.pfRail = false ∧ bit (t.get F.SYS_SAFECAUSE_CAUSE) 4 = true ∧ t.dt = max s.dt d ∧
      SafeWork s t) ∧
  (∀ (r : RailReading) (d : Nat) (s : State), s.up = true → s.readsAonLow r = true → 1550000 ≤ r.uv → s.power.pfPin = false → s.power.pfRail = false →
    ∃ t, exec (.powerfailAssert (.rail r) d) s = .next t ∧ t.mode = .safe ∧ t.get F.SYS_PWRSTAT_PFAIL = 1 ∧ t.get F.SYS_PWRSTAT_PERSISTED = 0 ∧
      t.power.seq = true ∧ t.power.pfRail = true ∧ t.power.level = s.power.level.set 12 r.uv ∧ t.dt = max s.dt d ∧
      SafeWork s t) ∧
  (∀ (d : Nat) (s : State), s.up = true → (s.power.pfPin || s.power.pfRail) = true →
    ∃ t, exec (.powerfailAssert .pin d) s = .next t ∧ t.get F.SYS_PWRSTAT_PFAIL = 1 ∧ t.power = { s.power with pfPin := true } ∧
      SameRegs [R.SYS_PWRSTAT] s t ∧ t = { s with dt := max s.dt d, regs := t.regs, power := t.power }) ∧
  (∀ (r : RailReading) (s : State), s.mode = .reset →
    ∃ t, exec (.railGood r) s = .next t ∧ t = { s with power := { s.power with level := s.power.level.set r.rail r.uv } }) ∧
  (∀ s : State, s.up = true → s.power.seq = true → s.power.resetWait = [] →
    ∃ t, exec .powerfailPersistDone s = .next t ∧ t.get F.SYS_PWRSTAT_PERSISTED = 1 ∧ t.power = { s.power with seq := false } ∧ t.nv.install = false ∧
      t.mode = s.mode ∧ t.dram = s.dram ∧ t.host = s.host ∧ t.dt = s.dt ∧
      t = { s with regs := t.regs, nvm := t.nvm, nv := t.nv, power := t.power }) ∧
  (∀ s : State, s.up = true → s.power.seq = true → s.power.resetWait ≠ [] →
    ∃ t, exec .powerfailPersistDone s = .next t ∧ t.mode = .reset ∧ t.power.causes = s.power.resetWait ∧ t.dram = [] ∧ t.host = s.host ∧
      ResetFrom s t) ∧
  (∀ s : State, s.up = true → s.railOk 12 = true →
    ∃ t, exec .powerfailEnd s = .next t ∧ t.get F.SYS_PWRSTAT_PFAIL = (if (s.power.pfRail && s.railCond) = true then 1 else 0) ∧
      t.power = { s.power with pfPin := false, pfRail := s.power.pfRail && s.railCond } ∧
      SameRegs [R.SYS_PWRSTAT] s t ∧ t = { s with regs := t.regs, power := t.power })

/-- A round that is due begins with its first slot once the converters are free, or is skipped and counted while one runs. A
completed pair writes min(floor(V / q), 4,095) of each input it converts, V after the input's divider; an injected
conversion is marked. A round's end is counted, clears RUNNING, and shows the supplies' voltages. HK_CFG takes a period in
range and restarts the windows, after the running round when there is one; one out of range sets VALUE_REJ. An injection of
an input the table has starts or waits its turn; a reserved one, or one that finds 8 waiting, sets VALUE_REJ. A TH_MASK
write clears each bit written 0, and sets a bit written 1 only for a failed sensor when source 49 is acknowledged; a refused
bit sets VALUE_REJ. Rules: R421, R422, R423, R425. -/
def Obligations.MilkRoundRuns : Prop :=
  (∀ (d : Nat) (s : State), s.up = true → s.hkDue d = true → s.flag F.HK_STAT_RUNNING = false →
    ∃ t, exec (.hkRoundStart d) s = .next t ∧ t.get F.HK_STAT_RUNNING = 1 ∧ t.get64 F.HK_RDT_LO_DT F.HK_RDT_HI_DT = d % 2 ^ 64 ∧
      t.hk.lastStart = d ∧ t.hk.lastWin = some d ∧ t.hk.xmask = s.get F.HK_XMASK_X ∧ t.mode = s.mode ∧ SameMem s t ∧
      t = { s with regs := t.regs, dt := t.dt, heads := t.heads, ring := t.ring, pairVer := t.pairVer, hk := t.hk }) ∧
  (∀ (d k : Nat) (l : List Nat) (s : State), s.up = true → s.hkDue d = true → (s.ring.marks.any fun m => m.trig && m.instant ≤ d) = false → s.flag F.HK_STAT_RUNNING = false → s.hk.cur = none → s.hk.inj = [] →
    hkSlots (s.get F.HK_XMASK_X) = k :: l →
    ∃ t, exec (.hkRoundStart d) s = .next t ∧ t.get F.HK_STAT_RUNNING = 1 ∧ t.get64 F.HK_RDT_LO_DT F.HK_RDT_HI_DT = d % 2 ^ 64 ∧
      t.hk.cur = some (.slot k) ∧ t.hk.slots = l ∧ t.hk.lastStart = d ∧ SameRegs [R.HK_STAT, R.HK_RDT_LO, R.HK_RDT_HI] s t ∧
      t = { s with dt := max s.dt d, regs := t.regs, pairVer := t.pairVer, hk := t.hk }) ∧
  (∀ (d : Nat) (s : State), s.up = true → s.hkDue d = true → (s.ring.marks.any fun m => m.trig && m.instant ≤ d) = false → s.flag F.HK_STAT_RUNNING = true →
    ∃ t, exec (.hkRoundStart d) s = .next t ∧ t.get F.HK_STAT_ROUNDSKIP = min (s.get F.HK_STAT_ROUNDSKIP + 1) 255 ∧ t.hk.lastWin = some d ∧
      t.hk.lastStart = s.hk.lastStart ∧ SameRegs [R.HK_STAT] s t ∧ t = { s with dt := max s.dt d, regs := t.regs, hk := t.hk }) ∧
  (∀ (a b k : Nat) (s : State), s.up = true → s.hk.cur = some (.slot k) → k < 48 →
    ∃ t, exec (.hkConversionDone a b) s = .next t ∧
      (hkConverted s.hk.xmask k = true → t.get (F.HK_RES_CODE k) = min (16 * a / (9375 * hkDivider k)) 4095 ∧ t.get (F.HK_RES_VALID k) = 1 ∧
        t.get (F.HK_RES_INJ k) = 0 ∧ t.get (F.HK_RES_ROUND k) = s.get F.HK_ROUND_COUNT % 16384) ∧
      (hkConverted s.hk.xmask (48 + k) = true → t.get (F.HK_RES_CODE (48 + k)) = min (16 * b / 9375) 4095 ∧
        t.get (F.HK_RES_VALID (48 + k)) = 1 ∧ t.get (F.HK_RES_INJ (48 + k)) = 0) ∧
      (hkConverted s.hk.xmask k = false → t.reg (R.HK_RES k) = s.reg (R.HK_RES k)) ∧
      (hkConverted s.hk.xmask (48 + k) = false → t.reg (R.HK_RES (48 + k)) = s.reg (R.HK_RES (48 + k))) ∧
      (s.hk.inj = [] → t.hk.cur = s.hk.slots.head?.map HkConv.slot ∧ t.hk.slots = s.hk.slots.tail) ∧
      (∀ q l, s.hk.inj = q :: l → t.hk.cur = some (.inj q) ∧ t.hk.inj = l ∧ t.hk.slots = s.hk.slots) ∧
      SameRegs [R.HK_RES k, R.HK_RES (48 + k), R.HK_STAT] s t ∧ t = { s with regs := t.regs, hk := t.hk }) ∧
  (∀ (a b : Nat) (q : HkInj) (s : State), s.up = true → s.hk.cur = some (.inj q) → q.input < 87 →
    ∃ t, exec (.hkConversionDone a b) s = .next t ∧
      t.get (F.HK_RES_CODE q.input) = min (16 * (if q.input < 48 then a else b) / (9375 * hkDivider q.input)) 4095 ∧
      t.get (F.HK_RES_INJ q.input) = 1 ∧ t.get (F.HK_RES_VALID q.input) = 1 ∧
      SameRegs [R.HK_RES q.input, R.HK_STAT] s t ∧ t = { s with regs := t.regs, hk := t.hk }) ∧
  (∀ (a b : Nat) (q : HkInj) (s : State), s.up = true → s.hk.cur = some (.inj q) → 87 ≤ q.input → q.input < 96 →
    ∃ t, exec (.hkConversionDone a b) s = .next t ∧ t.get (F.HK_RES_CODE q.input) = min (16 * b / 9375) 4095 ∧
      t.get (F.HK_RES_INJ q.input) = 1 ∧ SameMem s t ∧ t.mode = s.mode ∧ t.dt = s.dt ∧
      t = { s with regs := t.regs, inbox := t.inbox, hk := t.hk, frames := t.frames }) ∧
  (∀ (d : Nat) (s : State), s.up = true → s.flag F.HK_STAT_RUNNING = true → s.hk.slots = [] → s.hk.cur = none →
    ∃ t, exec (.hkRoundEnd d) s = .next t ∧ t.get F.HK_STAT_RUNNING = (if s.hk.again = true then 1 else 0) ∧
      t.get F.HK_ROUND_COUNT = min (s.get F.HK_ROUND_COUNT + 1) (2 ^ 32 - 1) ∧
      (∀ h : Nat, h < 8 → t.get (F.HP_HSUPMON_VOLT h) = roundDivN (7200 * s.get (F.HK_RES_CODE (24 + h))) 4096 % 2 ^ (F.HP_HSUPMON_VOLT h).w) ∧
      t.dt = max s.dt d ∧
      SafeWork { s with hk := t.hk, samples := t.samples, pairVer := t.pairVer } t) ∧
  (∀ (v : Word) (d : Nat) (s : State), s.access R.HK_CFG = true → 10 ≤ fieldOf F.HK_CFG_PER v → fieldOf F.HK_CFG_PER v ≤ 10000 → 2 ≤ fieldOf F.HK_CFG_ACQ v →
    ∃ t, exec (.hkCfgWrite v d) s = .next t ∧ t.get F.HK_CFG_PER = fieldOf F.HK_CFG_PER v ∧ t.get F.HK_CFG_ACQ = fieldOf F.HK_CFG_ACQ v ∧
      t.hk = (if s.flag F.HK_STAT_RUNNING = true then { s.hk with anchor := d, lastWin := some d, again := true }
        else { s.hk with anchor := d, lastWin := none }) ∧
      SameRegs [R.HK_CFG] s t ∧ t = { s with dt := max s.dt d, regs := t.regs, hk := t.hk }) ∧
  (∀ (v : Word) (d : Nat) (s : State), s.access R.HK_CFG = true → fieldOf F.HK_CFG_PER v < 10 ∨ 10000 < fieldOf F.HK_CFG_PER v ∨ fieldOf F.HK_CFG_ACQ v < 2 →
    ∃ t, exec (.hkCfgWrite v d) s = .next t ∧ t.get F.HK_STAT_VALUE_REJ = 1 ∧ SameRegs [R.HK_STAT] s t ∧ OnlyRegs s t) ∧
  (∀ (v : Word) (s : State), s.access R.HK_INJ = true → hkReserved (fieldOf F.HK_INJ_INPUT v) = false → fieldOf F.HK_INJ_GO v = 1 → s.hk.inj.length < 8 →
    ∃ t, exec (.hkInj v) s = .next t ∧ t.get F.HK_INJ_INPUT = fieldOf F.HK_INJ_INPUT v ∧
      (∃ q ∈ t.hk.inj ++ (match t.hk.cur with | some (.inj q) => [q] | _ => []),
        q.input = fieldOf F.HK_INJ_INPUT v ∧ q.frame = none ∧ q.instant = s.dt) ∧
      (s.hk.cur = none → s.hk.inj = [] → t.hk.cur = some (.inj ⟨fieldOf F.HK_INJ_INPUT v, none, s.dt⟩) ∧ t.get F.HK_STAT_INJQ = 0) ∧
      SameRegs [R.HK_INJ, R.HK_STAT] s t ∧ t = { s with regs := t.regs, hk := t.hk }) ∧
  (∀ (v : Word) (s : State), s.access R.HK_INJ = true → hkReserved (fieldOf F.HK_INJ_INPUT v) = false → fieldOf F.HK_INJ_GO v = 0 →
    ∃ t, exec (.hkInj v) s = .next t ∧ t.get F.HK_INJ_INPUT = fieldOf F.HK_INJ_INPUT v ∧ SameRegs [R.HK_INJ] s t ∧ OnlyRegs s t) ∧
  (∀ (v : Word) (s : State), s.access R.HK_INJ = true →
    (hkReserved (fieldOf F.HK_INJ_INPUT v) = true ∨ fieldOf F.HK_INJ_GO v = 1 ∧ 8 ≤ s.hk.inj.length) →
    ∃ t, exec (.hkInj v) s = .next t ∧ t.get F.HK_STAT_VALUE_REJ = 1 ∧ SameRegs [R.HK_STAT] s t ∧ OnlyRegs s t) ∧
  (∀ (v : Word) (s : State), s.access R.TH_MASK = true →
    ∃ t, exec (.thMaskWrite v) s = .next t ∧
      (∀ n : Nat, n < 24 → bit (t.get F.TH_MASK_MASK) n = (bit (fieldOf F.TH_MASK_MASK v) n &&
        (bit (s.get F.TH_MASK_MASK) n || (s.get (F.FC_SRC_UNACK 49) == 0 && s.hk.failed.contains n)))) ∧
      ((∃ n : Nat, n < 24 ∧ bit (fieldOf F.TH_MASK_MASK v) n = true ∧ bit (t.get F.TH_MASK_MASK) n = false) → t.get F.TH_STAT_VALUE_REJ = 1) ∧
      SameRegs [R.TH_MASK, R.TH_STAT] s t ∧ OnlyRegs s t)

/-- A write that runs past the end of the page holding NV_WADDR writes only the bytes up to that page's end; the excess is
ignored and never wraps to the page start, and TRUNC sets. A WRITE that fits clears TRUNC. When the write ends the store
holds exactly those bytes of NV_WBUF from NV_WADDR on, and reads as before everywhere else. Rules: R432. -/
def Obligations.NvmWritesStayInTheirPage : Prop :=
  (∀ s : State, s.access R.NV_CMD = true → s.flag F.NV_STAT_BUSY = false → s.nvLocked = false → 0x2C0000 ≤ s.get F.NV_WADDR_ADDR →
    256 - s.get F.NV_WADDR_ADDR % 256 < s.get F.NV_WLEN_LEN →
    ∃ t, exec .nvWrite s = .next t ∧ t.get F.NV_STAT_TRUNC = 1 ∧ t.get F.NV_STAT_BUSY = 1 ∧
      t.nv = { s.nv with wr := some { addr := s.get F.NV_WADDR_ADDR, bytes := ((List.range 64).flatMap fun i => leBytes 4 (s.get (F.NV_WBUF_DATA i))).take (256 - s.get F.NV_WADDR_ADDR % 256), waits := !s.nvRuns.isEmpty } } ∧
      SameRegs [R.NV_STAT] s t ∧ t = { s with regs := t.regs, nv := t.nv }) ∧
  (∀ s : State, s.access R.NV_CMD = true → s.flag F.NV_STAT_BUSY = false → s.nvLocked = false → 0x2C0000 ≤ s.get F.NV_WADDR_ADDR →
    s.get F.NV_WLEN_LEN ≤ 256 - s.get F.NV_WADDR_ADDR % 256 →
    ∃ t, exec .nvWrite s = .next t ∧ t.get F.NV_STAT_TRUNC = 0 ∧ t.get F.NV_STAT_BUSY = 1 ∧
      t.nv = { s.nv with wr := some { addr := s.get F.NV_WADDR_ADDR, bytes := ((List.range 64).flatMap fun i => leBytes 4 (s.get (F.NV_WBUF_DATA i))).take (s.get F.NV_WLEN_LEN), waits := !s.nvRuns.isEmpty } } ∧
      SameRegs [R.NV_STAT] s t ∧ t = { s with regs := t.regs, nv := t.nv }) ∧
  (∀ (w : NvWrite) (s : State), s.nv.wr = some w → s.nv.wait = [] → (w.waits = false ∨ s.nvLocked = false) → 0x2C0000 ≤ w.addr → (s.nv.relocs.all fun e => decide (e.1 < 0x2C00)) = true →
    ∃ t, exec (.nvPageWriteDone true) s = .next t ∧ NvmWrote w.addr w.bytes s t ∧ t.get F.NV_STAT_BUSY = 0 ∧ t.get F.NV_STAT_RESULT = 1 ∧
      t.get F.NV_STAT_TRUNC = s.get F.NV_STAT_TRUNC ∧ t.nv = { s.nv with wr := none } ∧ SameRegs [R.NV_STAT] s t ∧
      t = { s with regs := t.regs, nv := t.nv, nvm := t.nvm })

/-- A WRITE outside the user area is PROTECTED, under the interlock refused with 3, while one runs it sets CMDREJ; one that
waited behind device writes is refused with 3 when its turn comes under the interlock. A verify failure ends with 5 and a
CE. A window read returns the word; a corrected one counts SECC; an uncorrectable one sets RDERR with a UC. The interlock's
end writes what was staged, persists the dirty rings and starts the relocations that waited. A persist of a requested ring
writes its next slot and opens its 1 s window, leaves it dirty under the interlock or within its window, and waits behind a
software write. The window's end persists a dirty ring. The BOOT ring is persisted each hour; NV_HOURS is the powered hours
at the read. A failing page moves to a spare, named by the page or by its spare; under the interlock it waits. Rules: R430,
R431, R433, R437, R441, R442, R451. -/
def Obligations.NvmWindowSlotsAndRelocation : Prop :=
  (∀ s : State, s.access R.NV_CMD = true → s.flag F.NV_STAT_BUSY = true →
    ∃ t, exec .nvWrite s = .next t ∧ t.get F.NV_STAT_CMDREJ = 1 ∧ SameRegs [R.NV_STAT] s t ∧ OnlyRegs s t) ∧
  (∀ s : State, s.access R.NV_CMD = true → s.flag F.NV_STAT_BUSY = false → s.get F.NV_WADDR_ADDR < 0x2C0000 →
    ∃ t, exec .nvWrite s = .next t ∧ t.get F.NV_STAT_PROT_WR = 1 ∧ t.get F.NV_STAT_RESULT = 2 ∧ t.get F.NV_STAT_BUSY = 0 ∧
      SameRegs [R.NV_STAT] s t ∧ OnlyRegs s t) ∧
  (∀ s : State, s.access R.NV_CMD = true → s.flag F.NV_STAT_BUSY = false → 0x2C0000 ≤ s.get F.NV_WADDR_ADDR → s.nvLocked = true → s.nvRuns = [] →
    ∃ t, exec .nvWrite s = .next t ∧ t.get F.NV_STAT_RESULT = 3 ∧ t.get F.NV_STAT_BUSY = 0 ∧ SameRegs [R.NV_STAT] s t ∧ OnlyRegs s t) ∧
  (∀ (w : NvWrite) (s : State), s.nv.wr = some w → s.nv.wait = [] → (w.waits = false ∨ s.nvLocked = false) →
    ∃ t, exec (.nvPageWriteDone false) s = .next t ∧ t.get F.NV_STAT_RESULT = 5 ∧ t.get F.NV_STAT_BUSY = 0 ∧ Reported 47 .ce s t ∧
      t.nvm = (s.nvStore w.addr w.bytes).nvm ∧ t.nv.wr = none ∧ SameRegs [R.NV_STAT] s t ∧
      t = { s with regs := t.regs, nv := t.nv, nvm := t.nvm, inbox := t.inbox }) ∧
  (∀ (w : NvWrite) (ok : Bool) (s : State), s.nv.wr = some w → s.nv.wait = [] → w.waits = true → s.nvLocked = true →
    ∃ t, exec (.nvPageWriteDone ok) s = .next t ∧ t.get F.NV_STAT_RESULT = 3 ∧ t.get F.NV_STAT_BUSY = 0 ∧ t.nv.wr = none ∧
      SameRegs [R.NV_STAT] s t ∧ t = { s with regs := t.regs, nv := t.nv }) ∧
  (∀ (ok : Bool) (s : State), s.nv.wr = none → ∃ t, exec (.nvPageWriteDone ok) s = .next t ∧ t = s) ∧
  (∀ (p : Port) (off : Nat) (s : State), s.access 0x38000 = true → s.nvRuns = [] → s.nv.wr = none →
    ∃ t, exec (.nvWindowRead p off .ok) s = .next t ∧
      t.lastRead = (p, BitVec.ofNat 32 (leNat (s.nvLoad ((s.get F.NV_WIN_WIN * 32768 + off % 32768) / 4 * 4) 4))) ∧
      t = { s with lastRead := t.lastRead, nv := { s.nv with run := [] } }) ∧
  (∀ (p : Port) (off : Nat) (s : State), s.access 0x38000 = true → (s.nv.wr.all fun w => !w.waits) = true →
    ∃ t, exec (.nvWindowRead p off .single) s = .next t ∧ t.lastRead.1 = p ∧
      t.get F.NV_CNT_SECC = min (s.get F.NV_CNT_SECC + 1) (2 ^ F.NV_CNT_SECC.w - 1) ∧ SameRegs [R.NV_CNT] s t ∧
      (s.nv.wr = none → t.nvm = s.nvm) ∧
      t = { s with regs := t.regs, nv := t.nv, nvm := t.nvm, lastRead := t.lastRead, freeCnt := t.freeCnt }) ∧
  (∀ (p : Port) (off : Nat) (s : State), s.access 0x38000 = true → (s.nv.wr.all fun w => !w.waits) = true →
    ∃ t, exec (.nvWindowRead p off .uncorrectable) s = .next t ∧ t.get F.NV_STAT_RDERR = 1 ∧ Reported 47 .uc s t ∧ t.lastRead.1 = p ∧
      SameRegs [R.NV_STAT] s t ∧ (s.nv.wr = none → t.nvm = s.nvm) ∧
      t = { s with regs := t.regs, inbox := t.inbox, nv := t.nv, nvm := t.nvm, lastRead := t.lastRead, freeCnt := t.freeCnt }) ∧
  (∀ (d : Nat) (s : State), s.up = true → s.nvLocked = false → s.get F.NV_DIRTY_RING = 0 → s.nv.relocWait = [] →
    ∃ t, exec (.nvInterlockClear d) s = .next t ∧ t.nv = { s.nv with staged := [], install := false, run := t.nv.run } ∧
      t.get F.FC_LOGLOST_STAGED = 0 ∧
      t.nvm = (s.nv.staged.foldl State.logPlace s).nvm ∧ SameRegs [R.FC_LOGLOST] s t ∧
      t = { s with dt := max s.dt d, regs := t.regs, nv := t.nv, nvm := t.nvm }) ∧
  (∀ (d : Nat) (s : State), s.up = true → s.nvLocked = false →
    ∃ t, exec (.nvInterlockClear d) s = .next t ∧ t.nv.staged = [] ∧ t.nv.install = false ∧ t.nv.relocWait = [] ∧
      t.get F.FC_LOGLOST_STAGED = 0 ∧ SameRegs [R.FC_LOGLOST, R.NV_DIRTY, R.NV_CNT, R.NV_SPARE, R.MC_STAT, R.MC_CNT] s t ∧
      t.dram = s.dram ∧ t.host = s.host ∧ t.mode = s.mode ∧ t.dt = max s.dt d ∧
      t = { s with regs := t.regs, dt := t.dt, nvm := t.nvm, inbox := t.inbox, nv := t.nv, churnRun := t.churnRun, churnQueue := t.churnQueue }) ∧
  (∀ (n : Fin 21) (d : Nat) (s : State), s.up = true → s.nv.req.contains n.val = true → s.churnRun = [] → s.churnQueue = [] → s.nvLocked = false →
    s.nv.wr = none → s.nv.wait = [] → (s.at d).winOpen n = false → s.ringDead n = false → (nvRing n).isSome = true → s.nv.cur.length = 21 →
    ∃ t, exec (.slotPersist n d) s = .next t ∧ t.nvm = ((s.at d).slotWrite n).nvm ∧ t.nv.cur.getD n none = s.nextSlot n ∧
      t.nv.req = s.nv.req.filter (fun m => m != n.val) ∧ t.nv.win.contains (n.val, max s.dt d) = true ∧
      bit (t.get F.NV_DIRTY_RING) n = false ∧ t.churnRun = [] ∧
      SameRegs [R.NV_DIRTY, R.MC_STAT] s t ∧ t = { s with dt := max s.dt d, regs := t.regs, nv := t.nv, nvm := t.nvm }) ∧
  (∀ (n : Fin 21) (d : Nat) (s : State), s.up = true → s.nv.req.contains n.val = true → s.churnRun = [] → s.churnQueue = [] →
    s.nv.wr = none → s.nv.wait = [] → (s.nvLocked = true ∨ (s.at d).winOpen n = true) →
    ∃ t, exec (.slotPersist n d) s = .next t ∧ bit (t.get F.NV_DIRTY_RING) n = true ∧ t.nv = { s.nv with req := s.nv.req.filter fun m => m != n.val } ∧
      SameRegs [R.NV_DIRTY, R.MC_STAT] s t ∧ t = { s with dt := max s.dt d, regs := t.regs, nv := t.nv }) ∧
  (∀ (n : Fin 21) (d : Nat) (w : NvWrite) (s : State), s.up = true → s.nv.req.contains n.val = true → s.churnRun = [] → s.churnQueue = [] →
    s.nv.wr = some w → s.nv.wait.contains (.slot n) = false →
    ∃ t, exec (.slotPersist n d) s = .next t ∧ t.nv.wait = s.nv.wait ++ [.slot n] ∧
      t.churnRun = [{ act := .m9p, res := n, since := max s.dt d }] ∧ SameRegs [R.MC_STAT] s t ∧
      t = { s with dt := max s.dt d, regs := t.regs, nv := t.nv, churnRun := t.churnRun }) ∧
  (∀ (n : Fin 21) (d o : Nat) (s : State), s.up = true → (s.nv.win.find? fun w => w.1 == n.val) = some (n.val, o) → o + 1000000000 ≤ d →
    bit (s.get F.NV_DIRTY_RING) n = false →
    ∃ t, exec (.persistWindowEnd n d) s = .next t ∧ t.nv = { s.nv with win := s.nv.win.filter fun w => w.1 != n.val } ∧
      t = { s with dt := max s.dt d, nv := t.nv }) ∧
  (∀ (n : Fin 21) (d o : Nat) (s : State), s.up = true → (s.nv.win.find? fun w => w.1 == n.val) = some (n.val, o) → o + 1000000000 ≤ d →
    bit (s.get F.NV_DIRTY_RING) n = true → s.nvLocked = false → s.ringDead n = false → (nvRing n).isSome = true → s.churnRun = [] → s.churnQueue = [] →
    s.nv.wr = none → s.nv.wait = [] →
    ∃ t, exec (.persistWindowEnd n d) s = .next t ∧ t.nv.win = (s.nv.win.filter fun w => w.1 != n.val) ++ [(n.val, max s.dt d)] ∧
      bit (t.get F.NV_DIRTY_RING) n = false ∧ t.nvm = ((s.at d).slotWrite n).nvm ∧ SameRegs [R.NV_DIRTY, R.MC_STAT] s t ∧
      t = { s with dt := max s.dt d, regs := t.regs, nv := t.nv, nvm := t.nvm }) ∧
  (∀ (d : Nat) (s : State), s.up = true → s.nv.lastHour + 3600000000000 ≤ d → s.churnRun = [] → s.churnQueue = [] → s.nv.wr = none → s.nv.wait = [] →
    (s.nvLocked = true ∨ (s.at d).winOpen 1 = true) →
    ∃ t, exec (.bootHourlyPersist d) s = .next t ∧ t.nv.lastHour = s.nv.lastHour + 3600000000000 ∧ bit (t.get F.NV_DIRTY_RING) 1 = true ∧
      SameRegs [R.NV_DIRTY, R.MC_STAT] s t ∧ t = { s with dt := max s.dt d, regs := t.regs, nv := t.nv }) ∧
  (∀ (d : Nat) (s : State), s.up = true → s.nv.lastHour + 3600000000000 ≤ d → s.churnRun = [] → s.churnQueue = [] → s.nv.wr = none → s.nv.wait = [] →
    s.nvLocked = false → (s.at d).winOpen 1 = false → s.ringDead 1 = false →
    ∃ t, exec (.bootHourlyPersist d) s = .next t ∧ t.nv.lastHour = s.nv.lastHour + 3600000000000 ∧
      t.nvm = ((s.at d).slotWrite 1).nvm ∧ t.nv.win.contains (1, max s.dt d) = true ∧
      SameRegs [R.NV_DIRTY, R.MC_STAT] s t ∧ t = { s with dt := max s.dt d, regs := t.regs, nv := t.nv, nvm := t.nvm }) ∧
  (∀ (p : Port) (be : Fin 16) (s : State), s.access R.NV_HOURS = true → be ≠ 0 →
    ∃ t, exec (.pairLoRead p R.NV_HOURS be) s = .next t ∧
      t.lastRead = (p, BitVec.ofNat 32 ((s.nv.secsBase + s.dt / 1000000000) / 3600)) ∧ t = { s with lastRead := t.lastRead }) ∧
  (∀ (page q : Nat) (s : State), s.up = true → devicePage (s.nvOwner page) = true → ((pageSlot (s.nvOwner page)).all fun e => e.1 != 0) = true →
    s.nvLocked = false → s.churnRun = [] → s.churnQueue = [] → s.nv.wr = none → s.nv.wait = [] → s.sparePage = some q → s.nv.relocs.length < 126 →
    ∃ t, exec (.nvRelocation page) s = .next t ∧ t.nv.relocs = s.nv.relocs ++ [(s.nvPage (s.nvOwner page), q)] ∧
      t.get F.NV_CNT_RELOC = min (s.get F.NV_CNT_RELOC + 1) 65535 ∧ t.get F.NV_SPARE_LEFT = 125 - s.nv.relocs.length ∧
      (if s.winOpen 0 then bit (t.get F.NV_DIRTY_RING) 0 = true else t.nv.req.contains 0 = true) ∧ Reported 47 .ce s t ∧
      SameRegs [R.NV_CNT, R.NV_SPARE, R.NV_DIRTY, R.MC_STAT] s t ∧ t = { s with regs := t.regs, nv := t.nv, nvm := t.nvm, inbox := t.inbox }) ∧
  (∀ (page : Nat) (s : State), s.up = true → devicePage (s.nvOwner page) = true → s.nvLocked = true → s.churnRun = [] → s.churnQueue = [] →
    s.nv.wr = none → s.nv.wait = [] →
    ∃ t, exec (.nvRelocation page) s = .next t ∧ t.nv.relocWait.contains (s.nvOwner page) = true ∧ t.nvm = s.nvm ∧
      SameRegs [R.MC_STAT] s t ∧ t = { s with regs := t.regs, nv := t.nv })

/-- A write of a plain register through PCIe or the MSP stores the bytes enabled, and does nothing in RESET or with no byte
enabled. A STATUS frame shifts the status byte out and is counted. An MSP write frame of one word writes it; with a CRC it
writes it only if the CRC is right, and else is discarded with CRC_ERR and a CE. A read frame becomes active and each fetch
adds a word until the last. An unknown command byte sets BADCMD and is discarded. Rules: R13, R454, R455, R456, R457, R459. -/
def Obligations.RegisterWritesThroughBothPorts : Prop :=
  (∀ (p : Port) (v : Word) (d : Nat) (s : State), s.up = true →
    ∃ t, exec (.registerWrite p R.HK_XMASK 15 v d) s = .next t ∧ t.get F.HK_XMASK_X = v.toNat % 2 ^ 18 ∧ SameRegs [R.HK_XMASK] s t ∧
      t = { s with dt := max s.dt d, regs := t.regs }) ∧
  (∀ (p : Port) (v : Word) (d : Nat) (s : State), s.up = true →
    ∃ t, exec (.registerWrite p R.HK_XMASK 1 v d) s = .next t ∧ t.get F.HK_XMASK_X = s.get F.HK_XMASK_X / 256 * 256 + v.toNat % 256 ∧
      SameRegs [R.HK_XMASK] s t ∧ t = { s with dt := max s.dt d, regs := t.regs }) ∧
  (∀ (p : Port) (a : Nat) (be : Fin 16) (v : Word) (d : Nat) (rd : RegDesc) (s : State),
    a ∈ [R.HK_XMASK, R.NV_WIN, R.Q_CTXSEL, R.Q_CTXD 0, R.Q_CTXD 15, R.MON_SNBASE, R.GP_DIR 0, R.GP_DIR 1, R.GP_OUT 0, R.GP_OUT 1] →
    s.access a = true → be ≠ 0 → regDesc a = some rd →
    ∃ t, exec (.registerWrite p a be v d) s = .next t ∧ t.reg a = (s.reg a &&& ~~~rd.writable) ||| (s.written a be v &&& rd.writable) ∧
      SameRegs [a] s t ∧ t = { s with dt := max s.dt d, regs := t.regs }) ∧
  (∀ (p : Port) (a : Nat) (v : Word) (d : Nat) (s : State), ∃ t, exec (.registerWrite p a 0 v d) s = .next t ∧ t = s) ∧
  (∀ (p : Port) (a : Nat) (be : Fin 16) (v : Word) (d : Nat) (s : State), s.mode = .reset →
    ∃ t, exec (.registerWrite p a be v d) s = .next t ∧ t = s) ∧
  (∀ s : State, s.up = true → s.msp.read = none →
    ∃ t, exec .mspStatus s = .next t ∧ t.msp.status = s.mspStatusByte ∧ t.msp.pastEnd = false ∧ t.msp.crcErr = false ∧
      t.get F.SYS_MSPCNT_FRAMES = min (s.get F.SYS_MSPCNT_FRAMES + 1) 65535 ∧ SameRegs [R.SYS_MSPCNT, R.SYS_MSPSTAT] s t ∧
      t = { s with regs := t.regs, msp := t.msp }) ∧
  (∀ (v : Word) (d : Nat) (s : State), s.up = true → s.msp.read = none →
    ∃ t, exec (.mspWrite ((List.range 24).map (fun i => (R.HK_XMASK / 4).testBit (23 - i)) ++ (List.range 32).map fun i => v.getLsbD (31 - i)) d) s = .next t ∧
      t.get F.HK_XMASK_X = v.toNat % 2 ^ 18 ∧ t.get F.SYS_MSPCNT_FRAMES = min (s.get F.SYS_MSPCNT_FRAMES + 1) 65535 ∧
      t.get F.SYS_MSPSTAT_LASTADDR = R.HK_XMASK / 4 ∧ SameRegs [R.HK_XMASK, R.SYS_MSPCNT, R.SYS_MSPSTAT] s t ∧
      t = { s with dt := max s.dt d, regs := t.regs, msp := t.msp }) ∧
  (∀ (v : Word) (c : BitVec 8) (d : Nat) (s : State), s.up = true → s.msp.read = none → c.toNat = unitCrc (R.HK_XMASK / 4) v →
    ∃ t, exec (.mspWriteCrc ((List.range 24).map (fun i => (R.HK_XMASK / 4).testBit (23 - i)) ++ (List.range 32).map (fun i => v.getLsbD (31 - i)) ++
        (List.range 8).map fun i => c.getLsbD (7 - i)) d) s = .next t ∧
      t.get F.HK_XMASK_X = v.toNat % 2 ^ 18 ∧ t.msp.crcErr = false ∧ SameRegs [R.HK_XMASK, R.SYS_MSPCNT, R.SYS_MSPSTAT] s t ∧
      t = { s with dt := max s.dt d, regs := t.regs, msp := t.msp }) ∧
  (∀ (v : Word) (c : BitVec 8) (d : Nat) (s : State), s.up = true → s.msp.read = none → c.toNat ≠ unitCrc (R.HK_XMASK / 4) v →
    ∃ t, exec (.mspWriteCrc ((List.range 24).map (fun i => (R.HK_XMASK / 4).testBit (23 - i)) ++ (List.range 32).map (fun i => v.getLsbD (31 - i)) ++
        (List.range 8).map fun i => c.getLsbD (7 - i)) d) s = .next t ∧
      t.get F.SYS_MSPSTAT_CRC_ERR = 1 ∧ t.get F.SYS_MSPCNT_CRCERR = min (s.get F.SYS_MSPCNT_CRCERR + 1) 255 ∧
      t.get F.SYS_MSPCNT_DISCARD = min (s.get F.SYS_MSPCNT_DISCARD + 1) 255 ∧ t.msp.crcErr = true ∧ Reported 51 .ce s t ∧
      SameRegs [R.SYS_MSPCNT, R.SYS_MSPSTAT] s t ∧ t = { s with dt := max s.dt d, regs := t.regs, msp := t.msp, inbox := t.inbox }) ∧
  (∀ (bits : List Bool) (n : Nat) (s : State), s.up = true → s.msp.read = none → 24 ≤ bits.length →
    ∃ t, exec (.mspRead bits n) s = .next t ∧ t.get F.SYS_MSPSTAT_ACTIVE = 1 ∧ t.msp.words = [] ∧ t.msp.status = s.mspStatusByte ∧
      t.msp.read = some { addr := msbNat (bits.take 24), words := n, crc := false } ∧ SameRegs [R.SYS_MSPSTAT] s t ∧
      t = { s with regs := t.regs, msp := t.msp }) ∧
  (∀ (bits : List Bool) (n : Nat) (s : State), s.up = true → s.msp.read = none → 24 ≤ bits.length →
    ∃ t, exec (.mspReadCrc bits n) s = .next t ∧ t.get F.SYS_MSPSTAT_ACTIVE = 1 ∧ t.msp.words = [] ∧ t.msp.crcs = [] ∧
      t.msp.read = some { addr := msbNat (bits.take 24), words := n, crc := true } ∧ SameRegs [R.SYS_MSPSTAT] s t ∧
      t = { s with regs := t.regs, msp := t.msp }) ∧
  (∀ (r : MspRead) (s : State), s.up = true → s.msp.read = some r → r.next < r.words → pastWindow r.addr r.next = false →
    ∃ t, exec .mspReadFetch s = .next t ∧ t.msp.words = s.msp.words ++ [(s.readReg .msp (4 * (r.addr + r.next)) 15).1] ∧
      t.msp.read = some { r with next := r.next + 1 } ∧ t.lastRead = (.msp, (s.readReg .msp (4 * (r.addr + r.next)) 15).1) ∧ SameMem s t ∧ t.mode = s.mode ∧
      t = { s with regs := t.regs, freeCnt := t.freeCnt, nvm := t.nvm, inbox := t.inbox, heads := t.heads, ring := t.ring, nv := t.nv, churnRun := t.churnRun, churnQueue := t.churnQueue, lastRead := t.lastRead, pairVer := t.pairVer, pairRead := t.pairRead, hk := t.hk, msp := t.msp }) ∧
  (∀ (r : MspRead) (s : State), s.up = true → s.msp.read = some r → r.next = r.words → pastWindow r.addr r.next = true →
    ∃ t, exec .mspReadFetch s = .next t ∧ t.msp.words = s.msp.words ++ [0] ∧ t.msp.read = none ∧ t.get F.SYS_MSPSTAT_ACTIVE = 0 ∧
      t.get F.SYS_MSPCNT_FRAMES = min (s.get F.SYS_MSPCNT_FRAMES + 1) 65535 ∧ SameRegs [R.SYS_MSPCNT, R.SYS_MSPSTAT] s t ∧
      t = { s with regs := t.regs, msp := t.msp, lastRead := (.msp, 0) }) ∧
  (∀ (cmd : List Bool) (s : State), s.up = true → s.msp.read = none → 8 ≤ cmd.length → mspCodes.contains (msbNat (cmd.take 8)) = false →
    ∃ t, exec (.mspBadFrame cmd) s = .next t ∧ t.get F.SYS_MSPSTAT_BADCMD = 1 ∧ t.get F.SYS_MSPCNT_DISCARD = min (s.get F.SYS_MSPCNT_DISCARD + 1) 255 ∧
      t.get F.SYS_MSPCNT_FRAMES = min (s.get F.SYS_MSPCNT_FRAMES + 1) 65535 ∧ SameRegs [R.SYS_MSPCNT, R.SYS_MSPSTAT] s t ∧
      t = { s with regs := t.regs, msp := t.msp })

/-- Each instruction of the test access port enters its instruction register while VDD_IO and VDD_AON are good: IDCODE and reset
select the identification register, the boundary-scan ones the boundary register, any other code BYPASS. One that drives the
pins turns every port's supply off and leaves the rest; leaving it asks for a reset, which follows as a RESET_N pulse, after
a power-fail sequence that runs. The identification register gives the bits of 0xC812874B from the least significant. Rules:
R481, R482. -/
def Obligations.TestAccessPort : Prop :=
  (∀ s : State, s.tapRuns = true →
    ∃ t, exec .tapExtest s = .next t ∧ t.tap.ir = 0 ∧ t.tap.dr = .boundary ∧ (∀ h : Nat, h < 8 → (t.head h).drive = none ∧ (t.head h).bridge = .idle) ∧
      SameRegs ((List.range 8).map fun h => R.HP_STAT h) s t ∧ t = { s with tap := t.tap, regs := t.regs, heads := t.heads }) ∧
  (∀ s : State, s.tapRuns = true →
    ∃ t, exec .tapHighz s = .next t ∧ t.tap.ir = 3 ∧ t.tap.dr = .bypass ∧ (∀ h : Nat, h < 8 → (t.head h).drive = none ∧ (t.head h).bridge = .idle) ∧
      SameRegs ((List.range 8).map fun h => R.HP_STAT h) s t ∧ t = { s with tap := t.tap, regs := t.regs, heads := t.heads }) ∧
  (∀ s : State, s.tapRuns = true →
    ∃ t, exec .tapClamp s = .next t ∧ t.tap.ir = 4 ∧ t.tap.dr = .bypass ∧ (∀ h : Nat, h < 8 → (t.head h).drive = none ∧ (t.head h).bridge = .idle) ∧
      SameRegs ((List.range 8).map fun h => R.HP_STAT h) s t ∧ t = { s with tap := t.tap, regs := t.regs, heads := t.heads }) ∧
  (∀ s : State, s.tapRuns = true →
    ∃ t, exec .tapExtestPulse s = .next t ∧ t.tap.ir = 5 ∧ t.tap.dr = .boundary ∧ (∀ h : Nat, h < 8 → (t.head h).drive = none ∧ (t.head h).bridge = .idle) ∧
      SameRegs ((List.range 8).map fun h => R.HP_STAT h) s t ∧ t = { s with tap := t.tap, regs := t.regs, heads := t.heads }) ∧
  (∀ s : State, s.tapRuns = true →
    ∃ t, exec .tapExtestTrain s = .next t ∧ t.tap.ir = 6 ∧ t.tap.dr = .boundary ∧ (∀ h : Nat, h < 8 → (t.head h).drive = none ∧ (t.head h).bridge = .idle) ∧
      SameRegs ((List.range 8).map fun h => R.HP_STAT h) s t ∧ t = { s with tap := t.tap, regs := t.regs, heads := t.heads }) ∧
  (∀ s : State, s.tapRuns = true →
    ∃ t, exec .tapIdcode s = .next t ∧ t.tap = { s.tap with ir := 1, dr := .idcode, leave := s.tap.leave || s.testMode } ∧
      t.tapOut = ((List.range 32).map fun i => (0xC812874B#32).getLsbD i) ∧ t = { s with tap := t.tap }) ∧
  (∀ s : State, s.tapRuns = true →
    ∃ t, exec .tapReset s = .next t ∧ t.tap = { s.tap with ir := 1, dr := .idcode, leave := s.tap.leave || s.testMode } ∧
      t.tapOut = ((List.range 32).map fun i => (0xC812874B#32).getLsbD i) ∧ t = { s with tap := t.tap }) ∧
  (∀ (l : List Bool) (s : State), s.tapRuns = true →
    ∃ t, exec (.tapSamplePreload l) s = .next t ∧ t.tap = { ir := 2, dr := .boundary, cells := l, leave := s.tap.leave || s.testMode } ∧ t = { s with tap := t.tap }) ∧
  (∀ (c : BitVec 8) (s : State), s.tapRuns = true → 6 < c.toNat →
    ∃ t, exec (.tapBypass c) s = .next t ∧ t.tap = { s.tap with ir := c, dr := .bypass, leave := s.tap.leave || s.testMode } ∧ t = { s with tap := t.tap }) ∧
  (∀ s : State, s.tap.leave = true → s.mode ≠ .reset → s.power.seq = false → s.nv.wr = none → s.nvRuns = [] →
    ∃ t, exec .testModeExitReset s = .next t ∧ t =
      { State.reset with nvm := s.nvm, host := s.host, freeCnt := s.freeCnt, pending := s.pending, refStopped := s.refStopped,
                         tap := { s.tap with leave := false },
                         power := { State.reset.power with level := s.power.level, causes := [.pin] } }) ∧
  (∀ s : State, s.tap.leave = true → s.mode ≠ .reset → s.power.seq = true →
    ∃ t, exec .testModeExitReset s = .next t ∧ t.power.resetWait = .pin :: s.power.resetWait ∧ t.tap.leave = false ∧
      t = { s with tap := t.tap, power := t.power })

/-- The state after reset is in mode RESET at Device Time 0 with no command waiting, no fault reported, no ring, frame or
transaction, and its stores in canonical form. Registers read the values the spec gives for reset: among them the thresholds
of TH_CFG, the spares of the NVM, the period of the milk round. (What DRAM, host memory and the shipped NVM read as are the
model's choices of log entries 13 and 14.) Rules: R403, R115, R442. -/
def Obligations.ResetStateIsAsTheSpecSays : Prop :=
  State.reset.mode = .reset ∧ State.reset.dt = 0 ∧ State.reset.pending = [] ∧ State.reset.inbox = [] ∧ State.reset.rings = [] ∧
    State.reset.frames = [] ∧ State.reset.txnQ = [] ∧ State.reset.dram = [] ∧ State.reset.host = [] ∧ State.reset.Wf ∧
    State.reset.get F.TH_CFG_WARN = 95 ∧ State.reset.get F.TH_CFG_THR = 100 ∧ State.reset.get F.TH_CFG_SHUT = 110 ∧
    State.reset.get F.TH_CFG_HYST = 5 ∧ State.reset.get F.HK_CFG_PER = 100 ∧ State.reset.get F.NV_SPARE_LEFT = 126 ∧
    State.reset.get F.MC_CFG_QWAIT = 0 ∧ (∀ h : Nat, h < 8 → State.reset.streams h = false)

/-- From every state whose register store, device DRAM, NVM and host memory are in canonical form, a step answers a state whose
stores are in canonical form: equal contents are equal data after any command, and after a clock cycle. Rules: R430, R433,
R447. -/
def Obligations.StoresStayCanonicalInEveryStep : Prop :=
  ∀ s t : State, s.Wf → step s = .next t → t.Wf

/-- For every command c and state s, a step of s with c at the front of its queue is exec of c on s with the queue's rest. The
queue of waiting commands, first in first out, is the model's own (the row models a block). Rules: R447. -/
def Obligations.StepTakesTheFrontCommand : Prop :=
  ∀ (c : Instr) (l : List Instr) (s : State), step { s with pending := c :: l } = exec c { s with pending := l }

/-- With no command waiting, a step passes one clock cycle (log entry 76, the model's choice of when cycles pass): none in
RESET; a REF cycle of 10 ns while the ring does not steer; while REF is stopped an AON cycle of 20 ns within 2 percent, of a
length that is free. Device Time never goes back, and its advance is at most 21 ns. Rules: R115. -/
def Obligations.IdleStepPassesOneClockCycle : Prop :=
  (∀ s : State, s.pending = [] → s.mode = .reset → step s = .next s) ∧
  (∀ s : State, s.pending = [] → s.mode ≠ .reset → s.refStopped = false → s.ring.steer = 0 → s.dtFrac < 2 ^ 32 →
    step s = .next { s with dt := s.dt + 10 }) ∧
  (∀ s t : State, s.pending = [] → s.mode ≠ .reset → s.refStopped = true → s.dtFrac < 2 ^ 32 → step s = .next t →
    s.dt + 19 ≤ t.dt ∧ t.dt ≤ s.dt + 21 ∧ t = { s with dt := t.dt, dtFrac := t.dtFrac, freeCnt := t.freeCnt })

/-- Whatever a command does, the queue of waiting commands is the same after it: only a step takes a command from the queue.
What arrives in one cycle joins at its end: the MSP's access before those of PCIe, the DWs of a PCIe request in ascending
address order, an access that clears latched bits or counters before the cycle's event and any other after it, and of a
GP_SET and a GP_CLR of one cycle neither acts on the bits that both name. (That an access which is no clear follows the
event is the model's reading, log entry 140.) Rules: R76, R448, R450, R460. -/
def Obligations.NoCommandTouchesTheQueue : Prop :=
  (∀ (i : Instr) (s t : State), exec i s = .next t → t.pending = s.pending) ∧
  (∀ (l : List Arrival) (s : State), s.arrive l = { s with pending := s.pending ++ arrivalOrder l }) ∧
  (∀ (a : Nat) (l : List (Fin 16)) (c : Instr), arrivalOrder [.pcieRead a l, .access .msp c] = c :: pcieReads a l) ∧
  (∀ (a t : Nat) (x y : Fin 16 × Word), arrivalOrder [.pcieWrite a [x, y] t] =
    [.registerWrite .pcie a x.1 x.2 t, .registerWrite .pcie (a + 4) y.1 y.2 t]) ∧
  (∀ (p : Port) (c e : Instr), arrivalOrder [.event e, .access p c] = if clears c then [c, e] else [e, c]) ∧
  (∀ (i : Fin 2) (v w : Word), arrivalOrder [.access .pcie (.gpSetWrite i v), .access .msp (.gpClrWrite i w)] =
    [.gpClrWrite i (w &&& ~~~(v &&& w)), .gpSetWrite i (v &&& ~~~(v &&& w))])

/-- A command that leaves the machine in another mode is one of the list mayChangeMode: the mode commands and the ends of their
transitions, RESET, its release's end, the loss of the reference clock, of a rail or of power, faults and thermal limits,
the frame events a SETUP from RUN waits for, and register writes that carry a mode command. No other command of any family
changes the mode. Rules: R402, R403, R404, R408, R411. -/
def Obligations.OnlyTheseCommandsChangeTheMode : Prop :=
  ∀ (i : Instr) (s t : State), exec i s = .next t → t.mode ≠ s.mode → mayChangeMode i = true

/-- A command after which some byte of the NVM differs is one of the list mayWriteNvm: page writes, persists, relocations, the
commands whose effects the event log records, and reads through the NVM window, which find a running write further on. Every
other command leaves every byte of the NVM as it was. Rules: R389, R430, R433, R441. -/
def Obligations.OnlyTheseCommandsWriteTheNvm : Prop :=
  ∀ (i : Instr) (s t : State), exec i s = .next t → (∃ a, t.nvmByte a ≠ s.nvmByte a) → mayWriteNvm i = true

/-- A command after which some byte of host memory differs is one of the list mayWriteHost: DMA transfers and their write-backs,
ring records and frame copies, messages, and the commands that can enter SAFE, whose ended commands are still answered.
Every other command leaves the host's memory as it was. Rules: R328, R331, R334, R347. -/
def Obligations.OnlyTheseCommandsWriteHostMemory : Prop :=
  ∀ (i : Instr) (s t : State), exec i s = .next t → (∃ a, t.hostByte a ≠ s.hostByte a) → mayWriteHost i = true

/-- After any command but those of the list mayRestartTime (RESET, what leads to it, and its release, after which DT counts from
0) Device Time is not lower than before. Rules: R115, R403. -/
def Obligations.DeviceTimeNeverGoesBackOutsideReset : Prop :=
  ∀ (i : Instr) (s t : State), mayRestartTime i = false → exec i s = .next t → s.dt ≤ t.dt

end
end

