-- ==== Sys2Proof/Laws/Store.lean ====
section
/-! SUPPORT. The laws of the sparse stores: what a read after a write gives, and that a write keeps the canonical form. -/

namespace Sys2Proof.Machine

/-- Every key of a store is above `a`. -/
def keysAbove {α : Type} (a : Nat) (l : List (Nat × α)) : Prop := ∀ e ∈ l, a < e.1

theorem risingKeys_cons {α : Type} (a : Nat) (v : α) (l : List (Nat × α)) :
    risingKeys ((a, v) :: l) = true ↔ keysAbove a l ∧ risingKeys l = true := by
  induction l generalizing a v with
  | nil => simp [risingKeys, keysAbove]
  | cons e l ih =>
    obtain ⟨b, w⟩ := e
    simp only [risingKeys, Bool.and_eq_true, decide_eq_true_eq, keysAbove, List.mem_cons, forall_eq_or_imp]
    constructor
    · rintro ⟨hab, hr⟩
      refine ⟨⟨hab, fun e he => ?_⟩, hr⟩
      exact lt_trans hab ((ih b w).1 hr |>.1 e he)
    · rintro ⟨⟨hab, -⟩, hr⟩
      exact ⟨hab, hr⟩

theorem risingKeys_filter {α : Type} (p : Nat × α → Bool) (l : List (Nat × α)) (h : risingKeys l = true) :
    risingKeys (l.filter p) = true := by
  induction l with
  | nil => simpa using h
  | cons e l ih =>
    obtain ⟨a, v⟩ := e
    obtain ⟨ha, hr⟩ := (risingKeys_cons a v l).1 h
    by_cases hp : p (a, v) = true
    · rw [List.filter_cons_of_pos hp, risingKeys_cons]
      exact ⟨fun e he => ha e (List.mem_filter.1 he).1, ih hr⟩
    · rw [List.filter_cons_of_neg (by simpa using hp)]
      exact ih hr

theorem mem_alInsert {α : Type} (a : Nat) (v : α) (l : List (Nat × α)) (e : Nat × α) :
    e ∈ alInsert a v l ↔ e = (a, v) ∨ e ∈ l := by
  induction l with
  | nil => simp [alInsert]
  | cons x l ih =>
    simp only [alInsert]
    split
    · simp
    · simp only [List.mem_cons, ih]; tauto

theorem risingKeys_alInsert {α : Type} (a : Nat) (v : α) (l : List (Nat × α)) (h : risingKeys l = true)
    (hn : ∀ e ∈ l, e.1 ≠ a) : risingKeys (alInsert a v l) = true := by
  induction l with
  | nil => simp [alInsert, risingKeys]
  | cons x l ih =>
    obtain ⟨b, w⟩ := x
    obtain ⟨hb, hr⟩ := (risingKeys_cons b w l).1 h
    have hne : b ≠ a := hn (b, w) (by simp)
    simp only [alInsert]
    split
    · next hlt =>
      rw [risingKeys_cons]
      refine ⟨fun e he => ?_, h⟩
      rcases List.mem_cons.1 he with rfl | he
      · exact hlt
      · exact lt_trans hlt (hb e he)
    · rw [risingKeys_cons]
      refine ⟨fun e he => ?_, ih hr fun e he => hn e (by simp [he])⟩
      rcases (mem_alInsert a v l e).1 he with rfl | he
      · show b < a; omega
      · exact hb e he

/-- Writing a store keeps its canonical form. -/
theorem alWf_alSet {α : Type} [DecidableEq α] (d : Nat → α) (l : List (Nat × α)) (a : Nat) (v : α) (h : alWf d l = true) :
    alWf d (alSet d l a v) = true := by
  simp only [alWf, Bool.and_eq_true, List.all_eq_true, decide_eq_true_eq] at h ⊢
  obtain ⟨hr, hd⟩ := h
  have hf := risingKeys_filter (fun e => e.1 != a) l hr
  have hd' : ∀ e ∈ l.filter (fun e => e.1 != a), e.2 ≠ d e.1 := fun e he => hd e (List.mem_filter.1 he).1
  unfold alSet
  split
  · exact ⟨hf, hd'⟩
  · next hv =>
    refine ⟨risingKeys_alInsert a v _ hf fun e he => ?_, fun e he => ?_⟩
    · simpa using (List.mem_filter.1 he).2
    · rcases (mem_alInsert a v _ e).1 he with rfl | he
      · exact hv
      · exact hd' e he

theorem alGet_filter_other {α : Type} (d : Nat → α) (l : List (Nat × α)) (a b : Nat) (h : b ≠ a) :
    alGet d (l.filter fun e => e.1 != a) b = alGet d l b := by
  induction l with
  | nil => rfl
  | cons x l ih =>
    obtain ⟨c, w⟩ := x
    by_cases hc : c = a
    · have : b ≠ c := by omega
      simp [alGet, hc, ih, h]
    · rw [List.filter_cons_of_pos (by simpa using hc)]
      simp [alGet, ih]

theorem alGet_filter_self {α : Type} (d : Nat → α) (l : List (Nat × α)) (a : Nat) :
    alGet d (l.filter fun e => e.1 != a) a = d a := by
  induction l with
  | nil => rfl
  | cons x l ih =>
    obtain ⟨c, w⟩ := x
    by_cases hc : c = a
    · simp [hc, ih]
    · rw [List.filter_cons_of_pos (by simpa using hc)]
      have : a ≠ c := fun e => hc e.symm
      simp [alGet, ih, this]

theorem alGet_alInsert_self {α : Type} (d : Nat → α) (l : List (Nat × α)) (a : Nat) (v : α) (hn : ∀ e ∈ l, e.1 ≠ a) :
    alGet d (alInsert a v l) a = v := by
  induction l with
  | nil => simp [alInsert, alGet]
  | cons x l ih =>
    obtain ⟨c, w⟩ := x
    have hc : c ≠ a := hn (c, w) (by simp)
    simp only [alInsert]
    split
    · simp [alGet]
    · simp [alGet, Ne.symm hc, ih fun e he => hn e (by simp [he])]

theorem alGet_alInsert_other {α : Type} (d : Nat → α) (l : List (Nat × α)) (a b : Nat) (v : α) (h : b ≠ a) :
    alGet d (alInsert a v l) b = alGet d l b := by
  induction l with
  | nil => simp [alInsert, alGet, h]
  | cons x l ih =>
    obtain ⟨c, w⟩ := x
    simp only [alInsert]
    split
    · simp [alGet, h]
    · simp [alGet, ih]

/-- A read after a write to the same key gives the value written. -/
@[simp] theorem alGet_alSet_self {α : Type} [DecidableEq α] (d : Nat → α) (l : List (Nat × α)) (a : Nat) (v : α) :
    alGet d (alSet d l a v) a = v := by
  unfold alSet
  split
  · next hv => rw [alGet_filter_self, hv]
  · exact alGet_alInsert_self d _ a v fun e he => by simpa using (List.mem_filter.1 he).2

/-- A write leaves every other key as it was. -/
theorem alGet_alSet_other {α : Type} [DecidableEq α] (d : Nat → α) (l : List (Nat × α)) (a b : Nat) (v : α) (h : b ≠ a) :
    alGet d (alSet d l a v) b = alGet d l b := by
  unfold alSet
  split
  · exact alGet_filter_other d l a b h
  · rw [alGet_alInsert_other d _ a b v h, alGet_filter_other d l a b h]

theorem alGet_alSet {α : Type} [DecidableEq α] (d : Nat → α) (l : List (Nat × α)) (a b : Nat) (v : α) :
    alGet d (alSet d l a v) b = if b = a then v else alGet d l b := by
  split
  · next h => rw [h, alGet_alSet_self]
  · next h => exact alGet_alSet_other d l a b v h

@[simp] theorem alGet_nil {α : Type} (d : Nat → α) (a : Nat) : alGet d [] a = d a := rfl

/-- Storing bytes keeps the canonical form. -/
theorem alWf_storeBytes (d : Nat → Byte) (m : List Host.Cell) (a : Nat) (bs : List Byte) (h : alWf d m = true) :
    alWf d (storeBytes d m a bs) = true := by
  induction bs generalizing m a with
  | nil => exact h
  | cons b bs ih => exact ih _ _ (alWf_alSet d m a b h)

/-- A byte after a store of bytes: the byte stored there, or what stood there before. -/
theorem alGet_storeBytes (d : Nat → Byte) (m : List Host.Cell) (a : Nat) (bs : List Byte) (x : Nat) :
    alGet d (storeBytes d m a bs) x = if h : a ≤ x ∧ x < a + bs.length then bs[x - a]'(by omega) else alGet d m x := by
  induction bs generalizing m a with
  | nil => simp [storeBytes]
  | cons b bs ih =>
    rw [storeBytes, ih, alGet_alSet]
    by_cases hx : x = a
    · subst hx
      simp
    · by_cases hr : a + 1 ≤ x ∧ x < a + 1 + bs.length
      · have h2 : a ≤ x ∧ x < a + (b :: bs).length := by simp; omega
        rw [dif_pos hr, dif_pos h2]
        have : x - a = (x - (a + 1)) + 1 := by omega
        simp [this]
      · have h2 : ¬ (a ≤ x ∧ x < a + (b :: bs).length) := by simp; omega
        rw [dif_neg hr, dif_neg h2, if_neg hx]

/-- A byte outside the stored bytes is as it was. -/
theorem alGet_storeBytes_other (d : Nat → Byte) (m : List Host.Cell) (a : Nat) (bs : List Byte) (x : Nat)
    (h : x < a ∨ a + bs.length ≤ x) : alGet d (storeBytes d m a bs) x = alGet d m x := by
  rw [alGet_storeBytes, dif_neg]; omega

/-- Two canonical stores that read alike are equal. -/
theorem alWf_ext {α : Type} [DecidableEq α] (d : Nat → α) (l m : List (Nat × α)) (hl : alWf d l = true) (hm : alWf d m = true)
    (h : ∀ a, alGet d l a = alGet d m a) : l = m := by
  have above : ∀ (l : List (Nat × α)) (a : Nat), keysAbove a l → alGet d l a = d a := by
    intro l a
    induction l with
    | nil => intro _; rfl
    | cons x l ih =>
      obtain ⟨c, w⟩ := x
      intro hk
      have : a < c := hk (c, w) (by simp)
      simp only [alGet]
      rw [if_neg (by omega)]
      exact ih fun e he => hk e (by simp [he])
  induction l generalizing m with
  | nil =>
    cases m with
    | nil => rfl
    | cons y m =>
      obtain ⟨b, w⟩ := y
      have := h b
      simp only [alWf, Bool.and_eq_true, List.all_eq_true, decide_eq_true_eq] at hm
      simp [alGet] at this
      exact absurd this.symm (hm.2 (b, w) (by simp))
  | cons x l ih =>
    obtain ⟨a, v⟩ := x
    simp only [alWf, Bool.and_eq_true, List.all_eq_true, decide_eq_true_eq] at hl hm ih
    obtain ⟨ha, hlr⟩ := (risingKeys_cons a v l).1 hl.1
    cases m with
    | nil =>
      have := h a
      simp [alGet] at this
      exact absurd this (hl.2 (a, v) (by simp))
    | cons y m =>
      obtain ⟨b, w⟩ := y
      obtain ⟨hb, hmr⟩ := (risingKeys_cons b w m).1 hm.1
      have hva : v ≠ d a := hl.2 (a, v) (by simp)
      have hwb : w ≠ d b := hm.2 (b, w) (by simp)
      have hab : a = b := by
        rcases Nat.lt_trichotomy a b with hlt | heq | hgt
        · have h1 := h a
          rw [above ((b, w) :: m) a (by
            intro e he
            rcases List.mem_cons.1 he with rfl | he
            · exact hlt
            · exact lt_trans hlt (hb e he))] at h1
          simp [alGet] at h1
          exact absurd h1 hva
        · exact heq
        · have h1 := h b
          rw [above ((a, v) :: l) b (by
            intro e he
            rcases List.mem_cons.1 he with rfl | he
            · exact hgt
            · exact lt_trans hgt (ha e he))] at h1
          simp [alGet] at h1
          exact absurd h1.symm hwb
      subst hab
      have hvw : v = w := by simpa [alGet] using h a
      subst hvw
      congr 1
      refine ih m ⟨hlr, fun e he => hl.2 e (by simp [he])⟩ ⟨hmr, fun e he => hm.2 e (by simp [he])⟩ fun c => ?_
      by_cases hc : c = a
      · subst hc
        rw [above l c ha, above m c hb]
      · simpa [alGet, hc] using h c

end Sys2Proof.Machine
end

