-- ==== Sys2Proof/Laws/Fields.lean ====
section
/-! SUPPORT. The laws of registers and fields: what a field reads as after a field of the same or of another register is
set. -/

namespace Sys2Proof.Machine

theorem State.reg_setReg (s : State) (a b : Nat) (w : Word) : (s.setReg a w).reg b = if b = a then w else s.reg b := by
  simp [State.reg, State.setReg, alGet_alSet]

@[simp] theorem State.reg_setReg_self (s : State) (a : Nat) (w : Word) : (s.setReg a w).reg a = w := by
  simp [State.reg_setReg]

theorem State.reg_setReg_other (s : State) (a b : Nat) (w : Word) (h : b ≠ a) : (s.setReg a w).reg b = s.reg b := by
  simp [State.reg_setReg, h]

/-- A register other than the field's is as it was. -/
theorem State.reg_put_other (s : State) (f : Fld) (v b : Nat) (h : b ≠ f.addr) : (s.put f v).reg b = s.reg b :=
  State.reg_setReg_other s _ _ _ h

theorem State.reg_put_self (s : State) (f : Fld) (v : Nat) : (s.put f v).reg f.addr = withField f v (s.reg f.addr) := by
  simp [State.put]

/-- The field that was set reads as the value, cut to its width. -/
theorem fieldOf_withField (f : Fld) (v : Nat) (w : Word) (h : f.lo + f.w ≤ 32) : fieldOf f (withField f v w) = v % 2 ^ f.w := by
  obtain ⟨a, lo, n⟩ := f
  simp only at h
  have hx : (withField ⟨a, lo, n⟩ v w).extractLsb' lo n = BitVec.ofNat n v := by
    ext i hi
    have h1 : lo + i < 32 := by omega
    have h2 : i < 32 := by omega
    have hv : (BitVec.ofNat n v)[i] = v.testBit i := by
      rw [← BitVec.getLsbD_eq_getElem hi, BitVec.getLsbD_ofNat]; simp [hi]
    have hw : (BitVec.ofNat 32 v)[i] = v.testBit i := by
      rw [← BitVec.getLsbD_eq_getElem h2, BitVec.getLsbD_ofNat]; simp [h2]
    simp [withField, hv, hw, h1, hi]
  rw [fieldOf, hx, BitVec.toNat_ofNat]

/-- Setting one field of a word leaves a field that shares no bit with it. -/
theorem fieldOf_withField_disjoint (f g : Fld) (v : Nat) (w : Word) (h : g.lo + g.w ≤ f.lo ∨ f.lo + f.w ≤ g.lo) :
    fieldOf g (withField f v w) = fieldOf g w := by
  obtain ⟨a, lo, n⟩ := f
  obtain ⟨b, l2, m⟩ := g
  simp only at h
  have hx : (withField ⟨a, lo, n⟩ v w).extractLsb' l2 m = w.extractLsb' l2 m := by
    ext i hi
    simp only [withField, BitVec.getElem_extractLsb', BitVec.getLsbD_or, BitVec.getLsbD_and, BitVec.getLsbD_not,
      BitVec.getLsbD_shiftLeft, BitVec.getLsbD_setWidth, BitVec.getLsbD_ofNat, BitVec.getLsbD_allOnes]
    by_cases h32 : l2 + i < 32
    · rcases h with h | h
      · have : l2 + i < lo := by omega
        simp [h32, this]
      · have h1 : ¬ l2 + i - lo < n := by omega
        simp [h32, h1]
    · simp [h32, BitVec.getLsbD_of_ge w (l2 + i) (by omega)]
  rw [fieldOf, hx, fieldOf]

/-- A field reads as it was set. -/
theorem State.get_put_self (s : State) (f : Fld) (v : Nat) (h : f.lo + f.w ≤ 32) : (s.put f v).get f = v % 2 ^ f.w := by
  rw [State.get, State.reg_put_self, fieldOf_withField f v _ h]

/-- A field of another register is as it was. -/
theorem State.get_put_reg (s : State) (f g : Fld) (v : Nat) (h : g.addr ≠ f.addr) : (s.put f v).get g = s.get g := by
  rw [State.get, State.reg_put_other s f v _ h, State.get]

/-- A field that shares no bit with the one set is as it was. -/
theorem State.get_put_disjoint (s : State) (f g : Fld) (v : Nat)
    (h : g.addr = f.addr → g.lo + g.w ≤ f.lo ∨ f.lo + f.w ≤ g.lo) : (s.put f v).get g = s.get g := by
  by_cases ha : g.addr = f.addr
  · rw [State.get, ha, State.reg_put_self, fieldOf_withField_disjoint f g v _ (h ha), State.get, ha]
  · exact State.get_put_reg s f g v ha

theorem fieldOf_lt (f : Fld) (w : Word) : fieldOf f w < 2 ^ f.w := (w.extractLsb' f.lo f.w).isLt

theorem State.get_lt (s : State) (f : Fld) : s.get f < 2 ^ f.w := fieldOf_lt f _

/-- A saturating counter counts one up, and stays at its maximum. -/
theorem State.get_bump_self (s : State) (f : Fld) (h : f.lo + f.w ≤ 32) :
    (s.bump f).get f = min (s.get f + 1) (2 ^ f.w - 1) := by
  have hp : 0 < 2 ^ f.w := Nat.two_pow_pos _
  rw [State.bump, State.bumpBy, State.get_put_self _ _ _ h, Nat.mod_eq_of_lt]
  omega

theorem State.get_bump_disjoint (s : State) (f g : Fld)
    (h : g.addr = f.addr → g.lo + g.w ≤ f.lo ∨ f.lo + f.w ≤ g.lo) : (s.bump f).get g = s.get g :=
  State.get_put_disjoint s f g _ h

theorem State.reg_bump_other (s : State) (f : Fld) (b : Nat) (h : b ≠ f.addr) : (s.bump f).reg b = s.reg b :=
  State.reg_put_other s f _ b h

theorem State.flag_put_self (s : State) (f : Fld) (v : Nat) (h : f.lo + f.w ≤ 32) :
    (s.put f v).flag f = (v % 2 ^ f.w == 1) := by
  rw [State.flag, State.get_put_self s f v h]

/-- Setting a register or a field keeps the register store canonical. -/
theorem State.regs_setReg_wf (s : State) (a : Nat) (w : Word) (h : alWf resetWord s.regs = true) :
    alWf resetWord (s.setReg a w).regs = true := alWf_alSet _ _ _ _ h

/-! ### Tables of units -/

@[simp] theorem tabGet_tabSet_self {α : Type} {n : Nat} (v : Vector α n) (d : α) (i : Nat) (x : α) (h : i < n) :
    tabGet (tabSet v i x) d i = x := by simp [tabGet, tabSet, h]

theorem tabGet_tabSet_other {α : Type} {n : Nat} (v : Vector α n) (d : α) (i j : Nat) (x : α) (h : j ≠ i) :
    tabGet (tabSet v i x) d j = tabGet v d j := by
  unfold tabGet tabSet
  split
  · split
    · rw [Vector.getElem_set_ne]; omega
    · rfl
  · rfl

theorem State.head_modHead_self (s : State) (h : Nat) (f : HeadUnit → HeadUnit) (hh : h < 8) :
    (s.modHead h f).head h = f (s.head h) := by simp [State.head, State.modHead, hh]

theorem State.head_modHead_other (s : State) (h k : Nat) (f : HeadUnit → HeadUnit) (hk : k ≠ h) :
    (s.modHead h f).head k = s.head k := by simp [State.head, State.modHead, tabGet_tabSet_other _ _ _ _ _ hk]

theorem State.bank_modBank_self (s : State) (r : Nat) (f : Bank → Bank) (hr : r < 4) :
    (s.modBank r f).bank r = f (s.bank r) := by simp [State.bank, State.modBank, hr]

theorem State.shut_modShut_self (s : State) (h : Nat) (f : Shutter → Shutter) (hh : h < 8) :
    (s.modShut h f).shut h = f (s.shut h) := by simp [State.shut, State.modShut, hh]

theorem State.shut_modShut_other (s : State) (h k : Nat) (f : Shutter → Shutter) (hk : k ≠ h) :
    (s.modShut h f).shut k = s.shut k := by simp [State.shut, State.modShut, tabGet_tabSet_other _ _ _ _ _ hk]

/-! ### Conditional commands -/

theorem State.whenever_pos (s : State) (c : Bool) (f : State → State) (h : c = true) : s.whenever c f = f s := by
  simp [State.whenever, h]

theorem State.whenever_neg (s : State) (c : Bool) (f : State → State) (h : c = false) : s.whenever c f = s := by
  simp [State.whenever, h]

end Sys2Proof.Machine
end

