-- ==== Sys2Proof/Laws/Keeps.lean ====
section
/-! SUPPORT. One relation between a state and the state an operation makes of it, which every operation of the model is in: the
queue is the same, the stores stay canonical, and the mode, each memory and Device Time change only where the operation's
lemma says that they may. -/

namespace Sys2Proof.Machine

/-- What may change: the mode, device DRAM, NVM, host memory; and whether Device Time may go back. -/
structure Parts where
  mode : Bool := false
  dram : Bool := false
  nvm : Bool := false
  host : Bool := false
  dt : Bool := false

/-- `b` comes from `a` with changes to the parts `k` allows. -/
structure Keeps (k : Parts) (a b : State) : Prop where
  queue : b.pending = a.pending
  wf : a.Wf → b.Wf
  mode : k.mode = false → b.mode = a.mode
  dram : k.dram = false → b.dram = a.dram
  nvm : k.nvm = false → b.nvm = a.nvm
  host : k.host = false → b.host = a.host
  dt : k.dt = false → a.dt ≤ b.dt

theorem Keeps.rfl {k : Parts} {a : State} : Keeps k a a :=
  ⟨Eq.refl _, id, fun _ => Eq.refl _, fun _ => Eq.refl _, fun _ => Eq.refl _, fun _ => Eq.refl _, fun _ => le_refl _⟩

theorem Keeps.trans {k : Parts} {a b c : State} (h : Keeps k a b) (g : Keeps k b c) : Keeps k a c :=
  ⟨g.queue.trans h.queue, fun w => g.wf (h.wf w), fun m => (g.mode m).trans (h.mode m), fun m => (g.dram m).trans (h.dram m),
   fun m => (g.nvm m).trans (h.nvm m), fun m => (g.host m).trans (h.host m), fun m => (h.dt m).trans (g.dt m)⟩

/-- A change of fields outside the parts. -/
theorem Keeps.upd {k : Parts} {a s t : State} (h : Keeps k a s) (hq : t.pending = s.pending) (hr : t.regs = s.regs)
    (hm : t.mode = s.mode) (hd : t.dram = s.dram) (hn : t.nvm = s.nvm) (hh : t.host = s.host) (ht : t.dt = s.dt) :
    Keeps k a t :=
  h.trans ⟨hq, fun w => ⟨hr ▸ w.regs, hd ▸ w.dram, hn ▸ w.nvm, hh ▸ w.host⟩, fun _ => hm, fun _ => hd, fun _ => hn, fun _ => hh,
    fun _ => ht ▸ le_refl _⟩

/-- A change of fields outside the parts, and of the mode. -/
theorem Keeps.updMode {k : Parts} {a s t : State} (h : Keeps k a s) (km : k.mode = true) (hq : t.pending = s.pending)
    (hr : t.regs = s.regs) (hd : t.dram = s.dram) (hn : t.nvm = s.nvm) (hh : t.host = s.host) (ht : t.dt = s.dt) :
    Keeps k a t :=
  h.trans ⟨hq, fun w => ⟨hr ▸ w.regs, hd ▸ w.dram, hn ▸ w.nvm, hh ▸ w.host⟩, fun m => by simp [km] at m, fun _ => hd, fun _ => hn,
    fun _ => hh, fun _ => ht ▸ le_refl _⟩

/-- A change of fields outside the parts after which registers are dropped or rewritten in canonical form. -/
theorem Keeps.updRegs {k : Parts} {a s t : State} (h : Keeps k a s)
    (hr : alWf resetWord s.regs = true → alWf resetWord t.regs = true) (hq : t.pending = s.pending)
    (hm : t.mode = s.mode) (hd : t.dram = s.dram) (hn : t.nvm = s.nvm) (hh : t.host = s.host) (ht : t.dt = s.dt) :
    Keeps k a t :=
  h.trans ⟨hq, fun w => ⟨hr w.regs, hd ▸ w.dram, hn ▸ w.nvm, hh ▸ w.host⟩, fun _ => hm, fun _ => hd, fun _ => hn, fun _ => hh,
    fun _ => ht ▸ le_refl _⟩

/-- An intermediate state. -/
theorem Keeps.cut {k : Parts} {a t : State} (x : State) (h : Keeps k a x) (g : Keeps k a x → Keeps k a t) : Keeps k a t := g h

/-- An intermediate state that an operation answers beside a value. -/
theorem Keeps.cut2 {α : Type} {k : Parts} {a t : State} (x : α × State) (h : Keeps k a x.2) (g : Keeps k a x.2 → Keeps k a t) :
    Keeps k a t := g h

theorem Keeps.cut1 {α : Type} {k : Parts} {a t : State} (x : State × α) (h : Keeps k a x.1) (g : Keeps k a x.1 → Keeps k a t) :
    Keeps k a t := g h

/-- An intermediate change. -/
theorem Keeps.cutF {k : Parts} {a t : State} (f : State → State) (h : ∀ x, Keeps k a x → Keeps k a (f x))
    (g : (∀ x, Keeps k a x → Keeps k a (f x)) → Keeps k a t) : Keeps k a t := g h

theorem Keeps.cutF2 {α : Type} {k : Parts} {a t : State} (f : State → α → State) (h : ∀ x, Keeps k a x → ∀ i, Keeps k a (f x i))
    (g : (∀ x, Keeps k a x → ∀ i, Keeps k a (f x i)) → Keeps k a t) : Keeps k a t := g h

theorem Keeps.cutF3 {α : Type} {k : Parts} {a t : State} (f : α → State → State) (h : ∀ i x, Keeps k a x → Keeps k a (f i x))
    (g : (∀ i x, Keeps k a x → Keeps k a (f i x)) → Keeps k a t) : Keeps k a t := g h

theorem Keeps.cutF4 {α β : Type} {k : Parts} {a t : State} (f : State → α → β → State)
    (h : ∀ x, Keeps k a x → ∀ i j, Keeps k a (f x i j)) (g : (∀ x, Keeps k a x → ∀ i j, Keeps k a (f x i j)) → Keeps k a t) :
    Keeps k a t := g h

theorem Keeps.cutF5 {α β : Type} {k : Parts} {a t : State} (f : α → β → State → State)
    (h : ∀ i j x, Keeps k a x → Keeps k a (f i j x)) (g : (∀ i j x, Keeps k a x → Keeps k a (f i j x)) → Keeps k a t) :
    Keeps k a t := g h

/-- A fold of operations. -/
theorem Keeps.foldl {α : Type} {k : Parts} {a s : State} {f : State → α → State} {l : List α} (h : Keeps k a s)
    (hf : ∀ x, Keeps k a x → ∀ i, Keeps k a (f x i)) : Keeps k a (l.foldl f s) := by
  induction l generalizing s with
  | nil => exact h
  | cons x l ih => exact ih (hf s h x)

theorem Keeps.foldl2 {α β : Type} {k : Parts} {a : State} {p : β × State} {f : β × State → α → β × State} {l : List α}
    (h : Keeps k a p.2) (hf : ∀ x : β × State, Keeps k a x.2 → ∀ i, Keeps k a (f x i).2) : Keeps k a (l.foldl f p).2 := by
  induction l generalizing p with
  | nil => exact h
  | cons x l ih => exact ih (hf p h x)

theorem Keeps.foldl1 {α β : Type} {k : Parts} {a : State} {p : State × β} {f : State × β → α → State × β} {l : List α}
    (h : Keeps k a p.1) (hf : ∀ x : State × β, Keeps k a x.1 → ∀ i, Keeps k a (f x i).1) : Keeps k a (l.foldl f p).1 := by
  induction l generalizing p with
  | nil => exact h
  | cons x l ih => exact ih (hf p h x)

theorem Keeps.foldl3 {α β γ : Type} {k : Parts} {a : State} {p : β × γ × State} {f : β × γ × State → α → β × γ × State}
    {l : List α} (h : Keeps k a p.2.2) (hf : ∀ x : β × γ × State, Keeps k a x.2.2 → ∀ i, Keeps k a (f x i).2.2) :
    Keeps k a (l.foldl f p).2.2 := by
  induction l generalizing p with
  | nil => exact h
  | cons x l ih => exact ih (hf p h x)

/-- The state an operation answered beside a value. -/
theorem Keeps.ofEq2 {α : Type} {k : Parts} {a s : State} {p : α × State} {v : α} (e : p = (v, s)) (h : Keeps k a p.2) :
    Keeps k a s := by subst e; exact h

theorem Keeps.ofEq1 {α : Type} {k : Parts} {a s : State} {p : State × α} {v : α} (e : p = (s, v)) (h : Keeps k a p.1) :
    Keeps k a s := by subst e; exact h

theorem Keeps.ofEq3 {α β : Type} {k : Parts} {a s : State} {p : α × β × State} {u : α} {v : β} (e : p = (u, v, s))
    (h : Keeps k a p.2.2) : Keeps k a s := by subst e; exact h

theorem Keeps.whenever {k : Parts} {a s : State} (c : Bool) (f : State → State) (h : Keeps k a s)
    (hf : ∀ x, Keeps k a x → Keeps k a (f x)) : Keeps k a (s.whenever c f) := by
  unfold State.whenever; split
  · exact hf s h
  · exact h

theorem Keeps.forEach {k : Parts} {a s : State} (n : Nat) (p : Nat → Bool) (f : Nat → State → State) (h : Keeps k a s)
    (hf : ∀ i x, Keeps k a x → Keeps k a (f i x)) : Keeps k a (s.forEach n p f) := by
  refine Keeps.foldl h fun x hx i => ?_
  split
  · exact hf i x hx
  · exact hx

/-- A record update of fields outside the parts. -/
theorem Keeps.mkUpd {k : Parts} {a s : State}
    {x3 : Nat} {x4 : Nat} {x8 : List Report} {x9 : Vector HeadUnit 8} {x10 : Vector Bank 4} {x11 : Vector Shutter 8}
    {x12 : Ring} {x13 : Nvm} {x14 : List CmdDone} {x15 : List Job} {x16 : List Job} {x17 : List (Nat × Nat)} {x18 : List
    Byte} {x19 : List Nat} {x20 : List Nat} {x21 : List Nat} {x22 : List (Nat × Nat)} {x23 : List Nat} {x24 : List Nat}
    {x25 : List Nat} {x26 : List Nat} {x27 : List (Link × Nat)} {x28 : List Nat} {x29 : List (Nat × Nat)} {x30 : Port ×
    Word} {x31 : List (Nat × Nat)} {x32 : List (Nat × Option (Nat × Nat))} {x33 : List (Nat × Option Nat)} {x34 : Bool}
    {x35 : Vector BlockUnit 16} {x36 : Option McLoad} {x37 : Nat × Nat} {x38 : List (List Byte)} {x39 : Option
    RecipeLoad} {x40 : List PlanReq} {x41 : Option PlanReq} {x42 : Vector PipeUnit 4} {x43 : List BufRec} {x44 : Vector
    CsiPort 4} {x45 : Vector AlarmUnit 8} {x46 : Vector Txn 16} {x47 : List Nat} {x48 : List (Nat × Nat)} {x49 : Nat}
    {x50 : List (Nat × Int × Nat)} {x51 : List (Nat × RingUnit)} {x52 : List ReJob} {x53 : Option CtxCmd} {x54 : List
    Nat} {x55 : Option (List Byte)} {x56 : Nat} {x57 : PcieUnit} {x58 : DmaUnit} {x59 : FaultUnit} {x60 : PowerUnit}
    {x61 : HkUnit} {x62 : MspUnit} {x63 : TapUnit} {x64 : List (Link × FloorWindow)} {x65 : List Frame} {x66 : List
    Quire}
    (h : Keeps k a s) :
    Keeps k a
    (State.mk s.mode s.regs s.dt x3 x4 s.dram s.nvm s.host x8 x9 x10 x11 x12 x13 x14 x15 x16 x17 x18 x19 x20 x21 x22 x23 x24
    x25 x26 x27 x28 x29 x30 x31 x32 x33 x34 x35 x36 x37 x38 x39 x40 x41 x42 x43 x44 x45 x46 x47 x48 x49 x50 x51 x52 x53 x54
    x55 x56 x57 x58 x59 x60 x61 x62 x63 x64 x65 x66 s.pending) :=
  Keeps.upd h (Eq.refl _) (Eq.refl _) (Eq.refl _) (Eq.refl _) (Eq.refl _) (Eq.refl _) (Eq.refl _)

theorem alWf_filter {α : Type} [DecidableEq α] (d : Nat → α) (p : Nat × α → Bool) (l : List (Nat × α)) (h : alWf d l = true) :
    alWf d (l.filter p) = true := by
  simp only [alWf, Bool.and_eq_true, List.all_eq_true] at h ⊢
  exact ⟨risingKeys_filter p l h.1, fun e he => h.2 e (List.mem_filter.1 he).1⟩

/-- A record update of fields outside the parts that returns some registers to their reset values. -/
theorem Keeps.mkFilter {k : Parts} {a s : State} {p : Nat × Word → Bool}
    {x3 : Nat} {x4 : Nat} {x8 : List Report} {x9 : Vector HeadUnit 8} {x10 : Vector Bank 4} {x11 : Vector Shutter 8}
    {x12 : Ring} {x13 : Nvm} {x14 : List CmdDone} {x15 : List Job} {x16 : List Job} {x17 : List (Nat × Nat)} {x18 : List
    Byte} {x19 : List Nat} {x20 : List Nat} {x21 : List Nat} {x22 : List (Nat × Nat)} {x23 : List Nat} {x24 : List Nat}
    {x25 : List Nat} {x26 : List Nat} {x27 : List (Link × Nat)} {x28 : List Nat} {x29 : List (Nat × Nat)} {x30 : Port ×
    Word} {x31 : List (Nat × Nat)} {x32 : List (Nat × Option (Nat × Nat))} {x33 : List (Nat × Option Nat)} {x34 : Bool}
    {x35 : Vector BlockUnit 16} {x36 : Option McLoad} {x37 : Nat × Nat} {x38 : List (List Byte)} {x39 : Option
    RecipeLoad} {x40 : List PlanReq} {x41 : Option PlanReq} {x42 : Vector PipeUnit 4} {x43 : List BufRec} {x44 : Vector
    CsiPort 4} {x45 : Vector AlarmUnit 8} {x46 : Vector Txn 16} {x47 : List Nat} {x48 : List (Nat × Nat)} {x49 : Nat}
    {x50 : List (Nat × Int × Nat)} {x51 : List (Nat × RingUnit)} {x52 : List ReJob} {x53 : Option CtxCmd} {x54 : List
    Nat} {x55 : Option (List Byte)} {x56 : Nat} {x57 : PcieUnit} {x58 : DmaUnit} {x59 : FaultUnit} {x60 : PowerUnit}
    {x61 : HkUnit} {x62 : MspUnit} {x63 : TapUnit} {x64 : List (Link × FloorWindow)} {x65 : List Frame} {x66 : List
    Quire}
    (h : Keeps k a s) :
    Keeps k a
    (State.mk s.mode (s.regs.filter p) s.dt x3 x4 s.dram s.nvm s.host x8 x9 x10 x11 x12 x13 x14 x15 x16 x17 x18 x19 x20 x21
    x22 x23 x24 x25 x26 x27 x28 x29 x30 x31 x32 x33 x34 x35 x36 x37 x38 x39 x40 x41 x42 x43 x44 x45 x46 x47 x48 x49 x50 x51
    x52 x53 x54 x55 x56 x57 x58 x59 x60 x61 x62 x63 x64 x65 x66 s.pending) :=
  Keeps.updRegs h (fun w => alWf_filter _ _ _ w) (Eq.refl _) (Eq.refl _) (Eq.refl _) (Eq.refl _) (Eq.refl _) (Eq.refl _)

/-- A record update of the mode and of fields outside the parts. -/
theorem Keeps.mkMode {k : Parts} {a s : State}
    {x3 : Nat} {x4 : Nat} {x8 : List Report} {x9 : Vector HeadUnit 8} {x10 : Vector Bank 4} {x11 : Vector Shutter 8}
    {x12 : Ring} {x13 : Nvm} {x14 : List CmdDone} {x15 : List Job} {x16 : List Job} {x17 : List (Nat × Nat)} {x18 : List
    Byte} {x19 : List Nat} {x20 : List Nat} {x21 : List Nat} {x22 : List (Nat × Nat)} {x23 : List Nat} {x24 : List Nat}
    {x25 : List Nat} {x26 : List Nat} {x27 : List (Link × Nat)} {x28 : List Nat} {x29 : List (Nat × Nat)} {x30 : Port ×
    Word} {x31 : List (Nat × Nat)} {x32 : List (Nat × Option (Nat × Nat))} {x33 : List (Nat × Option Nat)} {x34 : Bool}
    {x35 : Vector BlockUnit 16} {x36 : Option McLoad} {x37 : Nat × Nat} {x38 : List (List Byte)} {x39 : Option
    RecipeLoad} {x40 : List PlanReq} {x41 : Option PlanReq} {x42 : Vector PipeUnit 4} {x43 : List BufRec} {x44 : Vector
    CsiPort 4} {x45 : Vector AlarmUnit 8} {x46 : Vector Txn 16} {x47 : List Nat} {x48 : List (Nat × Nat)} {x49 : Nat}
    {x50 : List (Nat × Int × Nat)} {x51 : List (Nat × RingUnit)} {x52 : List ReJob} {x53 : Option CtxCmd} {x54 : List
    Nat} {x55 : Option (List Byte)} {x56 : Nat} {x57 : PcieUnit} {x58 : DmaUnit} {x59 : FaultUnit} {x60 : PowerUnit}
    {x61 : HkUnit} {x62 : MspUnit} {x63 : TapUnit} {x64 : List (Link × FloorWindow)} {x65 : List Frame} {x66 : List
    Quire}
    {m : Mode} (km : k.mode = true) (h : Keeps k a s) :
    Keeps k a
    (State.mk m s.regs s.dt x3 x4 s.dram s.nvm s.host x8 x9 x10 x11 x12 x13 x14 x15 x16 x17 x18 x19 x20 x21 x22 x23 x24 x25
    x26 x27 x28 x29 x30 x31 x32 x33 x34 x35 x36 x37 x38 x39 x40 x41 x42 x43 x44 x45 x46 x47 x48 x49 x50 x51 x52 x53 x54 x55
    x56 x57 x58 x59 x60 x61 x62 x63 x64 x65 x66 s.pending) :=
  Keeps.updMode h km (Eq.refl _) (Eq.refl _) (Eq.refl _) (Eq.refl _) (Eq.refl _) (Eq.refl _)

/-- A record update of Device Time and of fields outside the parts. -/
theorem Keeps.mkDt {k : Parts} {a s : State}
    {x3 : Nat} {x4 : Nat} {x8 : List Report} {x9 : Vector HeadUnit 8} {x10 : Vector Bank 4} {x11 : Vector Shutter 8}
    {x12 : Ring} {x13 : Nvm} {x14 : List CmdDone} {x15 : List Job} {x16 : List Job} {x17 : List (Nat × Nat)} {x18 : List
    Byte} {x19 : List Nat} {x20 : List Nat} {x21 : List Nat} {x22 : List (Nat × Nat)} {x23 : List Nat} {x24 : List Nat}
    {x25 : List Nat} {x26 : List Nat} {x27 : List (Link × Nat)} {x28 : List Nat} {x29 : List (Nat × Nat)} {x30 : Port ×
    Word} {x31 : List (Nat × Nat)} {x32 : List (Nat × Option (Nat × Nat))} {x33 : List (Nat × Option Nat)} {x34 : Bool}
    {x35 : Vector BlockUnit 16} {x36 : Option McLoad} {x37 : Nat × Nat} {x38 : List (List Byte)} {x39 : Option
    RecipeLoad} {x40 : List PlanReq} {x41 : Option PlanReq} {x42 : Vector PipeUnit 4} {x43 : List BufRec} {x44 : Vector
    CsiPort 4} {x45 : Vector AlarmUnit 8} {x46 : Vector Txn 16} {x47 : List Nat} {x48 : List (Nat × Nat)} {x49 : Nat}
    {x50 : List (Nat × Int × Nat)} {x51 : List (Nat × RingUnit)} {x52 : List ReJob} {x53 : Option CtxCmd} {x54 : List
    Nat} {x55 : Option (List Byte)} {x56 : Nat} {x57 : PcieUnit} {x58 : DmaUnit} {x59 : FaultUnit} {x60 : PowerUnit}
    {x61 : HkUnit} {x62 : MspUnit} {x63 : TapUnit} {x64 : List (Link × FloorWindow)} {x65 : List Frame} {x66 : List
    Quire}
    {m : Nat} (km : k.dt = true) (h : Keeps k a s) :
    Keeps k a
    (State.mk s.mode s.regs m x3 x4 s.dram s.nvm s.host x8 x9 x10 x11 x12 x13 x14 x15 x16 x17 x18 x19 x20 x21 x22 x23 x24 x25
    x26 x27 x28 x29 x30 x31 x32 x33 x34 x35 x36 x37 x38 x39 x40 x41 x42 x43 x44 x45 x46 x47 x48 x49 x50 x51 x52 x53 x54 x55
    x56 x57 x58 x59 x60 x61 x62 x63 x64 x65 x66 s.pending) :=
  h.trans ⟨Eq.refl _, fun w => ⟨w.regs, w.dram, w.nvm, w.host⟩, fun _ => Eq.refl _, fun _ => Eq.refl _, fun _ => Eq.refl _,
    fun _ => Eq.refl _, fun e => by simp [km] at e⟩

theorem State.setReg_keeps {k : Parts} {st0 s : State} (a : Nat) (w : Word) (hk : Keeps k st0 s) :
    Keeps k st0 (s.setReg a w) :=
  Keeps.updRegs hk (fun h => alWf_alSet _ _ _ _ h) (Eq.refl _) (Eq.refl _) (Eq.refl _) (Eq.refl _) (Eq.refl _) (Eq.refl _)

theorem State.hostWrite_keeps {k : Parts} {st0 s : State} (a : Nat) (bs : List Byte) (k_host : k.host = true)
    (hk : Keeps k st0 s) : Keeps k st0 (s.hostWrite a bs) :=
  hk.trans ⟨Eq.refl _, fun w => ⟨w.regs, w.dram, w.nvm, alWf_storeBytes _ _ _ _ w.host⟩, fun _ => Eq.refl _, fun _ => Eq.refl _,
    fun _ => Eq.refl _, fun h => by simp [k_host] at h, fun _ => le_refl _⟩

theorem State.nvmWrite_keeps {k : Parts} {st0 s : State} (a : Nat) (bs : List Byte) (k_nvm : k.nvm = true)
    (hk : Keeps k st0 s) : Keeps k st0 (s.nvmWrite a bs) :=
  hk.trans ⟨Eq.refl _, fun w => ⟨w.regs, w.dram, alWf_storeBytes _ _ _ _ w.nvm, w.host⟩, fun _ => Eq.refl _, fun _ => Eq.refl _,
    fun h => by simp [k_nvm] at h, fun _ => Eq.refl _, fun _ => le_refl _⟩

theorem State.dramWriteRaw_keeps {k : Parts} {st0 s : State} (a : Nat) (bs : List Byte) (k_dram : k.dram = true)
    (hk : Keeps k st0 s) : Keeps k st0 (s.dramWriteRaw a bs) :=
  hk.trans ⟨Eq.refl _, fun w => ⟨w.regs, alWf_storeBytes _ _ _ _ w.dram, w.nvm, w.host⟩, fun _ => Eq.refl _,
    fun h => by simp [k_dram] at h, fun _ => Eq.refl _, fun _ => Eq.refl _, fun _ => le_refl _⟩

theorem State.at_keeps {k : Parts} {st0 s : State} (t : Nat) (hk : Keeps k st0 s) : Keeps k st0 (s.at t) :=
  hk.trans ⟨Eq.refl _, fun w => ⟨w.regs, w.dram, w.nvm, w.host⟩, fun _ => Eq.refl _, fun _ => Eq.refl _, fun _ => Eq.refl _,
    fun _ => Eq.refl _, fun _ => le_max_left _ _⟩

theorem State.fresh_keeps {k : Parts} {st0 s : State} (hk : Keeps k st0 s) : Keeps k st0 s.fresh.2 :=
  Keeps.upd hk (Eq.refl _) (Eq.refl _) (Eq.refl _) (Eq.refl _) (Eq.refl _) (Eq.refl _) (Eq.refl _)

theorem Keeps.ite {k : Parts} {a s t : State} {c : Prop} {_ : Decidable c} (hs : Keeps k a s) (ht : Keeps k a t) :
    Keeps k a (if c then s else t) := by split <;> assumption

theorem Keeps.ite' {k : Parts} {a s t : State} {c : Prop} {_ : Decidable c} (hs : c → Keeps k a s)
    (ht : ¬c → Keeps k a t) : Keeps k a (if c then s else t) := by
  split
  · exact hs ‹_›
  · exact ht ‹_›

theorem Keeps.ite2 {α : Type} {k : Parts} {a : State} {c : Prop} {_ : Decidable c} {p q : α × State} (hp : Keeps k a p.2)
    (hq : Keeps k a q.2) : Keeps k a (if c then p else q).2 := by split <;> assumption

theorem Keeps.ite1 {α : Type} {k : Parts} {a : State} {c : Prop} {_ : Decidable c} {p q : State × α} (hp : Keeps k a p.1)
    (hq : Keeps k a q.1) : Keeps k a (if c then p else q).1 := by split <;> assumption

/-- A chain of operations each of which is known to be in the relation: the goal is taken apart along its conditions, matches,
folds and intermediate states, and each part is closed by a hypothesis. -/
theorem Keeps.chain {P : Prop} (h : P := by
  with_reducible repeat' first
    | assumption
    | (intro _; intros)
    | (extract_lets +onlyGivenNames x
       first
       | (guard_hyp x : State := _
          refine Keeps.cut x ?_ fun _ => ?_
          on_goal 1 => (unfold x; clear x)
          on_goal 2 => clear_value x)
       | (guard_hyp x : State → State := _
          refine Keeps.cutF x ?_ fun _ => ?_
          on_goal 1 => (unfold x; clear x)
          on_goal 2 => clear_value x)
       | (guard_hyp x : State → _ → State := _
          refine Keeps.cutF2 x ?_ fun _ => ?_
          on_goal 1 => (unfold x; clear x)
          on_goal 2 => clear_value x)
       | (guard_hyp x : _ → State → State := _
          refine Keeps.cutF3 x ?_ fun _ => ?_
          on_goal 1 => (unfold x; clear x)
          on_goal 2 => clear_value x)
       | (guard_hyp x : State → _ → _ → State := _
          refine Keeps.cutF4 x ?_ fun _ => ?_
          on_goal 1 => (unfold x; clear x)
          on_goal 2 => clear_value x)
       | (guard_hyp x : _ → _ → State → State := _
          refine Keeps.cutF5 x ?_ fun _ => ?_
          on_goal 1 => (unfold x; clear x)
          on_goal 2 => clear_value x)
       | (guard_hyp x : _ × State := _
          refine Keeps.cut2 x ?_ fun _ => ?_
          on_goal 1 => (unfold x; clear x)
          on_goal 2 => clear_value x)
       | (guard_hyp x : State × _ := _
          refine Keeps.cut1 x ?_ fun _ => ?_
          on_goal 1 => (unfold x; clear x)
          on_goal 2 => clear_value x)
       | clear_value x
       | skip)
    | apply_assumption (transparency := .reducible) -exfalso -symm
    | apply Keeps.ite
    | apply Keeps.ite2
    | apply Keeps.ite1
    | split
    | apply Keeps.foldl
    | (refine Keeps.ofEq2 ‹_ = (_, _)› ?_)
    | (refine Keeps.ofEq1 ‹_ = (_, _)› ?_)
    | (refine Keeps.ofEq3 ‹_ = (_, _, _)› ?_)
    | apply Keeps.foldl3
    | apply Keeps.foldl2
    | apply Keeps.foldl1
    | (dsimp -zeta only)
    | (fail_if_no_progress apply Keeps.mkUpd)
    | apply Keeps.mkFilter) : P := h

end Sys2Proof.Machine
end

