-- ==== Sys2Proof/Laws/KeepsOps.lean ====
section
/-! SUPPORT. The operations of Machine/Ops.lean are in the relation `Keeps`: each lemma says what its operation may change. -/

set_option linter.tactic.unusedName false
set_option Elab.async false

namespace Sys2Proof.Machine

theorem State.put_keeps {kp : Parts} {st0 s : State} (f : Fld) (v : Nat) (hk : Keeps kp st0 s) :
    Keeps kp st0 (State.put s f v) := by
  have := @State.setReg_keeps
  unfold State.put; exact Keeps.chain

theorem State.putB_keeps {kp : Parts} {st0 s : State} (f : Fld) (b : Bool) (hk : Keeps kp st0 s) :
    Keeps kp st0 (State.putB s f b) := by
  have := @State.put_keeps
  unfold State.putB; exact Keeps.chain

theorem State.bumpBy_keeps {kp : Parts} {st0 s : State} (f : Fld) (n : Nat) (hk : Keeps kp st0 s) :
    Keeps kp st0 (State.bumpBy s f n) := by
  have := @State.put_keeps
  unfold State.bumpBy; exact Keeps.chain

theorem State.bump_keeps {kp : Parts} {st0 s : State} (f : Fld) (hk : Keeps kp st0 s) :
    Keeps kp st0 (State.bump s f) := by
  have := @State.bumpBy_keeps
  unfold State.bump; exact Keeps.chain

theorem State.sampleOf_keeps {kp : Parts} {st0 s : State} (src : Nat) (f : Nat → Option Int) (hk : Keeps kp st0 s) :
    Keeps kp st0 (State.sampleOf s src f) := by
  unfold State.sampleOf; exact Keeps.chain

theorem State.sample_keeps {kp : Parts} {st0 s : State} (src : Nat) (sel : Nat) (v : Int) (hk : Keeps kp st0 s) :
    Keeps kp st0 (State.sample s src sel v) := by
  have := @State.sampleOf_keeps
  unfold State.sample; exact Keeps.chain

theorem State.bumpPair_keeps {kp : Parts} {st0 s : State} (a : Nat) (hk : Keeps kp st0 s) :
    Keeps kp st0 (State.bumpPair s a) := by
  unfold State.bumpPair; exact Keeps.chain

theorem State.put64_keeps {kp : Parts} {st0 s : State} (lo : Fld) (hi : Fld) (v : Nat) (hk : Keeps kp st0 s) :
    Keeps kp st0 (State.put64 s lo hi v) := by
  have := @State.put_keeps
  have := @State.bumpPair_keeps
  unfold State.put64; exact Keeps.chain

theorem State.putBit_keeps {kp : Parts} {st0 s : State} (f : Fld) (i : Nat) (b : Bool) (hk : Keeps kp st0 s) :
    Keeps kp st0 (State.putBit s f i b) := by
  have := @State.put_keeps
  unfold State.putBit; exact Keeps.chain

theorem State.modHead_keeps {kp : Parts} {st0 s : State} (h : Nat) (f : HeadUnit → HeadUnit) (hk : Keeps kp st0 s) :
    Keeps kp st0 (State.modHead s h f) := by
  unfold State.modHead; exact Keeps.chain

theorem State.modBank_keeps {kp : Parts} {st0 s : State} (r : Nat) (f : Bank → Bank) (hk : Keeps kp st0 s) :
    Keeps kp st0 (State.modBank s r f) := by
  unfold State.modBank; exact Keeps.chain

theorem State.modShut_keeps {kp : Parts} {st0 s : State} (h : Nat) (f : Shutter → Shutter) (hk : Keeps kp st0 s) :
    Keeps kp st0 (State.modShut s h f) := by
  unfold State.modShut; exact Keeps.chain

theorem State.freshUpTo_keeps {kp : Parts} {st0 s : State} (b : Nat) (hk : Keeps kp st0 s) :
    Keeps kp st0 (State.freshUpTo s b).2 := by
  have := @State.fresh_keeps
  unfold State.freshUpTo; exact Keeps.chain

theorem State.raise_keeps {kp : Parts} {st0 s : State} (src : Nat) (cls : FaultClass) (detail : Nat) (hk : Keeps kp st0 s) :
    Keeps kp st0 (State.raise s src cls detail) := by
  unfold State.raise; exact Keeps.chain

theorem State.finishCmd_keeps {kp : Parts} {st0 s : State} (ring : Nat) (tag : Nat) (status : Nat) (result : Nat) (info : Nat) (hk : Keeps kp st0 s) :
    Keeps kp st0 (State.finishCmd s ring tag status result info) := by
  unfold State.finishCmd; exact Keeps.chain

theorem State.syncChurn_keeps {kp : Parts} {st0 s : State} (hk : Keeps kp st0 s) :
    Keeps kp st0 (State.syncChurn s) := by
  have := @State.put_keeps
  unfold State.syncChurn; exact Keeps.chain

theorem State.churnDone_keeps {kp : Parts} {st0 s : State} (a : Activity) (res : Nat) (hk : Keeps kp st0 s) :
    Keeps kp st0 (State.churnDone s a res) := by
  have := @State.syncChurn_keeps
  unfold State.churnDone; exact Keeps.chain

theorem State.churnDrop_keeps {kp : Parts} {st0 s : State} (gone : Job → Bool) (hk : Keeps kp st0 s) :
    Keeps kp st0 (State.churnDrop s gone) := by
  have := @State.syncChurn_keeps
  unfold State.churnDrop; exact Keeps.chain

theorem State.churnRefuse_keeps {kp : Parts} {st0 s : State} (a : Activity) (res : Nat) (blocker : Nat) (hk : Keeps kp st0 s) :
    Keeps kp st0 (State.churnRefuse s a res blocker) := by
  have := @State.put_keeps
  have := @State.bump_keeps
  unfold State.churnRefuse; exact Keeps.chain

theorem State.churnAsk_keeps {kp : Parts} {st0 s : State} (a : Activity) (res : Nat) (canWait : Bool) (t : Nat) (hk : Keeps kp st0 s) :
    Keeps kp st0 (State.churnAsk s a res canWait t).2 := by
  have := @State.churnRefuse_keeps
  have := @State.bump_keeps
  have := @State.syncChurn_keeps
  unfold State.churnAsk; exact Keeps.chain

theorem State.fperNote_keeps {kp : Parts} {st0 s : State} (h : Nat) (hk : Keeps kp st0 s) :
    Keeps kp st0 (State.fperNote s h) := by
  have := @State.put_keeps
  unfold State.fperNote; exact Keeps.chain

end Sys2Proof.Machine
end

