-- ==== Sys2Proof/Laws/KeepsNvm.lean ====
section
/-! SUPPORT. The operations of Machine/Nvm.lean are in the relation `Keeps`: each lemma says what its operation may change. -/

set_option linter.tactic.unusedName false
set_option Elab.async false

namespace Sys2Proof.Machine

theorem State.nvStore_keeps {kp : Parts} {st0 s : State}  (a : Nat) (bs : List Byte) (k_nvm : kp.nvm = true) (hk : Keeps kp st0 s) :
    Keeps kp st0 (State.nvStore s a bs) := by
  have := @State.nvmWrite_keeps
  induction bs generalizing a s with
  | nil => unfold State.nvStore; exact Keeps.chain
  | cons x l ih => unfold State.nvStore; exact Keeps.chain

theorem State.nvDevice_keeps {kp : Parts} {st0 s : State} (a : Nat) (bs : List Byte) (k_nvm : kp.nvm = true) (hk : Keeps kp st0 s) :
    Keeps kp st0 (State.nvDevice s a bs) := by
  have := @State.nvStore_keeps
  unfold State.nvDevice; exact Keeps.chain

theorem State.nvOn_keeps {kp : Parts} {st0 s : State} (hk : Keeps kp st0 s) :
    Keeps kp st0 (State.nvOn s) := by
  have := @State.freshUpTo_keeps
  unfold State.nvOn; exact Keeps.chain

theorem State.nvCut_keeps {kp : Parts} {st0 s : State} (k_nvm : kp.nvm = true) (hk : Keeps kp st0 s) :
    Keeps kp st0 (State.nvCut s) := by
  have := @State.nvOn_keeps
  have := @State.nvmWrite_keeps
  unfold State.nvCut; exact Keeps.chain

theorem State.logPlace_keeps {kp : Parts} {st0 s : State} (bs : List Byte) (k_nvm : kp.nvm = true) (hk : Keeps kp st0 s) :
    Keeps kp st0 (State.logPlace s bs) := by
  have := @State.nvDevice_keeps
  unfold State.logPlace; exact Keeps.chain

theorem State.logStart_keeps {kp : Parts} {st0 s : State} (bs : List Byte) (k_nvm : kp.nvm = true) (hk : Keeps kp st0 s) :
    Keeps kp st0 (State.logStart s bs) := by
  have := @State.bump_keeps
  have := @State.logPlace_keeps
  unfold State.logStart; exact Keeps.chain

theorem State.nvWait_keeps {kp : Parts} {st0 s : State} (w : NvWork) (hk : Keeps kp st0 s) :
    Keeps kp st0 (State.nvWait s w) := by
  unfold State.nvWait; exact Keeps.chain

theorem State.logAt_keeps {kp : Parts} {st0 s : State} (t : Nat) (r : LogRec) (k_nvm : kp.nvm = true) (hk : Keeps kp st0 s) :
    Keeps kp st0 (State.logAt s t r) := by
  have := @State.nvWait_keeps
  have := @State.put_keeps
  have := @State.logStart_keeps
  unfold State.logAt; exact Keeps.chain

theorem State.log_keeps {kp : Parts} {st0 s : State} (r : LogRec) (k_nvm : kp.nvm = true) (hk : Keeps kp st0 s) :
    Keeps kp st0 (State.log s r) := by
  have := @State.logAt_keeps
  unfold State.log; exact Keeps.chain

theorem State.logForce_keeps {kp : Parts} {st0 s : State} (r : LogRec) (k_nvm : kp.nvm = true) (hk : Keeps kp st0 s) :
    Keeps kp st0 (State.logForce s r) := by
  have := @State.logPlace_keeps
  have := @State.put_keeps
  unfold State.logForce; exact Keeps.chain

theorem State.logFlush_keeps {kp : Parts} {st0 s : State} (k_nvm : kp.nvm = true) (hk : Keeps kp st0 s) :
    Keeps kp st0 (State.logFlush s) := by
  have := @State.logPlace_keeps
  have := @State.put_keeps
  unfold State.logFlush; exact Keeps.chain

theorem State.logUnit_keeps {kp : Parts} {st0 s : State} (source : Nat) (detail : Nat) (word : Nat) (k_nvm : kp.nvm = true) (hk : Keeps kp st0 s) :
    Keeps kp st0 (State.logUnit s source detail word) := by
  have := @State.log_keeps
  unfold State.logUnit; exact Keeps.chain

theorem State.persist_keeps {kp : Parts} {st0 s : State} (n : Nat) (hk : Keeps kp st0 s) :
    Keeps kp st0 (State.persist s n) := by
  have := @State.putBit_keeps
  unfold State.persist; exact Keeps.chain

theorem State.slotWrite_keeps {kp : Parts} {st0 s : State} (n : Nat) (k_nvm : kp.nvm = true) (hk : Keeps kp st0 s) :
    Keeps kp st0 (State.slotWrite s n) := by
  have := @State.nvDevice_keeps
  have := @State.putBit_keeps
  unfold State.slotWrite; exact Keeps.chain

theorem State.persistNow_keeps {kp : Parts} {st0 s : State} (n : Nat) (k_nvm : kp.nvm = true) (hk : Keeps kp st0 s) :
    Keeps kp st0 (State.persistNow s n) := by
  have := @State.putBit_keeps
  have := @State.slotWrite_keeps
  unfold State.persistNow; exact Keeps.chain

theorem State.persistRun_keeps {kp : Parts} {st0 s : State} (n : Nat) (k_nvm : kp.nvm = true) (hk : Keeps kp st0 s) :
    Keeps kp st0 (State.persistRun s n) := by
  have := @State.nvWait_keeps
  have := @State.persistNow_keeps
  have := @State.churnDone_keeps
  unfold State.persistRun; exact Keeps.chain

theorem State.persistAsk_keeps {kp : Parts} {st0 s : State} (n : Nat) (k_nvm : kp.nvm = true) (hk : Keeps kp st0 s) :
    Keeps kp st0 (State.persistAsk s n) := by
  have := @State.persistRun_keeps
  have := @State.churnAsk_keeps
  unfold State.persistAsk; exact Keeps.chain

theorem State.pageDrop_keeps {kp : Parts} {st0 s : State} (page : Nat) (hk : Keeps kp st0 s) :
    Keeps kp st0 (State.pageDrop s page) := by
  have := @State.putBit_keeps
  have := @State.bump_keeps
  unfold State.pageDrop; exact Keeps.chain

theorem State.relocate_keeps {kp : Parts} {st0 s : State} (page : Nat) (k_nvm : kp.nvm = true) (hk : Keeps kp st0 s) :
    Keeps kp st0 (State.relocate s page) := by
  have := @State.pageDrop_keeps
  have := @State.raise_keeps
  have := @State.nvDevice_keeps
  have := @State.bump_keeps
  have := @State.put_keeps
  have := @State.persist_keeps
  unfold State.relocate; exact Keeps.chain

theorem State.relocStart_keeps {kp : Parts} {st0 s : State} (page : Nat) (k_nvm : kp.nvm = true) (hk : Keeps kp st0 s) :
    Keeps kp st0 (State.relocStart s page) := by
  have := @State.churnDone_keeps
  have := @State.relocate_keeps
  unfold State.relocStart; exact Keeps.chain

theorem State.relocRun_keeps {kp : Parts} {st0 s : State} (page : Nat) (k_nvm : kp.nvm = true) (hk : Keeps kp st0 s) :
    Keeps kp st0 (State.relocRun s page) := by
  have := @State.nvWait_keeps
  have := @State.relocStart_keeps
  unfold State.relocRun; exact Keeps.chain

theorem State.relocAsk_keeps {kp : Parts} {st0 s : State} (page : Nat) (k_nvm : kp.nvm = true) (hk : Keeps kp st0 s) :
    Keeps kp st0 (State.relocAsk s page) := by
  have := @State.relocRun_keeps
  have := @State.churnAsk_keeps
  unfold State.relocAsk; exact Keeps.chain

theorem State.nvGoOn_keeps {kp : Parts} {st0 s : State} (k_nvm : kp.nvm = true) (hk : Keeps kp st0 s) :
    Keeps kp st0 (State.nvGoOn s) := by
  have := @State.logStart_keeps
  have := @State.persistNow_keeps
  have := @State.churnDone_keeps
  have := @State.relocStart_keeps
  unfold State.nvGoOn; exact Keeps.chain

theorem State.nvEnd_keeps {kp : Parts} {st0 s : State} (res : Nat) (hk : Keeps kp st0 s) :
    Keeps kp st0 (State.nvEnd s res) := by
  have := @State.put_keeps
  unfold State.nvEnd; exact Keeps.chain

theorem State.nvBegin_keeps {kp : Parts} {st0 s : State} (k_nvm : kp.nvm = true) (hk : Keeps kp st0 s) :
    Keeps kp st0 (State.nvBegin s) := by
  have := @State.nvEnd_keeps
  have := @State.nvGoOn_keeps
  unfold State.nvBegin; exact Keeps.chain

theorem State.nvTurn_keeps {kp : Parts} {st0 s : State} (k_nvm : kp.nvm = true) (hk : Keeps kp st0 s) :
    Keeps kp st0 (State.nvTurn s) := by
  have := @State.nvBegin_keeps
  unfold State.nvTurn; exact Keeps.chain

theorem State.nvStep_keeps {kp : Parts} {st0 s : State} (k_nvm : kp.nvm = true) (hk : Keeps kp st0 s) :
    Keeps kp st0 (State.nvStep s) := by
  have := @State.freshUpTo_keeps
  have := @State.nvStore_keeps
  unfold State.nvStep; exact Keeps.chain

theorem State.nvWindow_keeps {kp : Parts} {st0 s : State} (a : Nat) (err : WordCheck) (k_nvm : kp.nvm = true) (hk : Keeps kp st0 s) :
    Keeps kp st0 (State.nvWindow s a err).1 := by
  have := @State.nvTurn_keeps
  have := @State.nvOn_keeps
  have := @State.nvStep_keeps
  have := @State.bump_keeps
  have := @State.freshUpTo_keeps
  have := @State.put_keeps
  have := @State.raise_keeps
  unfold State.nvWindow; exact Keeps.chain

theorem nvWrite_keeps {kp : Parts} {st0 s : State} (hk : Keeps kp st0 s) :
    Keeps kp st0 (nvWrite s) := by
  have := @Keeps.whenever
  have := @State.put_keeps
  have := @State.putB_keeps
  unfold nvWrite; exact Keeps.chain

theorem nvPageWriteDone_keeps {kp : Parts} {st0 s : State} (verifyOk : Bool) (k_nvm : kp.nvm = true) (hk : Keeps kp st0 s) :
    Keeps kp st0 (nvPageWriteDone verifyOk s) := by
  have := @State.nvBegin_keeps
  have := @State.nvStore_keeps
  have := @State.nvEnd_keeps
  have := @State.raise_keeps
  have := @State.nvGoOn_keeps
  unfold nvPageWriteDone; exact Keeps.chain

theorem State.nvAbort_keeps {kp : Parts} {st0 s : State} (k_nvm : kp.nvm = true) (hk : Keeps kp st0 s) :
    Keeps kp st0 (State.nvAbort s) := by
  have := @State.nvStep_keeps
  have := @State.nvEnd_keeps
  have := @State.nvGoOn_keeps
  unfold State.nvAbort; exact Keeps.chain

theorem nvWindowRead_keeps {kp : Parts} {st0 s : State} (p : Port) (off : Nat) (err : WordCheck) (k_nvm : kp.nvm = true) (hk : Keeps kp st0 s) :
    Keeps kp st0 (nvWindowRead p off err s) := by
  have := @Keeps.whenever
  have := @State.nvWindow_keeps
  unfold nvWindowRead; exact Keeps.chain

theorem nvInterlockClear_keeps {kp : Parts} {st0 s : State} (t : Nat) (k_nvm : kp.nvm = true) (hk : Keeps kp st0 s) :
    Keeps kp st0 (nvInterlockClear t s) := by
  have := @Keeps.whenever
  have := @State.at_keeps
  have := @State.logFlush_keeps
  have := @Keeps.forEach
  have := @State.persistAsk_keeps
  have := @State.relocAsk_keeps
  unfold nvInterlockClear; exact Keeps.chain

theorem slotPersist_keeps {kp : Parts} {st0 s : State} (n : Fin 21) (t : Nat) (k_nvm : kp.nvm = true) (hk : Keeps kp st0 s) :
    Keeps kp st0 (slotPersist n t s) := by
  have := @Keeps.whenever
  have := @State.at_keeps
  have := @State.persistAsk_keeps
  unfold slotPersist; exact Keeps.chain

theorem persistWindowEnd_keeps {kp : Parts} {st0 s : State} (n : Fin 21) (t : Nat) (k_nvm : kp.nvm = true) (hk : Keeps kp st0 s) :
    Keeps kp st0 (persistWindowEnd n t s) := by
  have := @Keeps.whenever
  have := @State.at_keeps
  have := @State.persistAsk_keeps
  unfold persistWindowEnd; exact Keeps.chain

theorem bootHourlyPersist_keeps {kp : Parts} {st0 s : State} (t : Nat) (k_nvm : kp.nvm = true) (hk : Keeps kp st0 s) :
    Keeps kp st0 (bootHourlyPersist t s) := by
  have := @Keeps.whenever
  have := @State.at_keeps
  have := @State.persistAsk_keeps
  unfold bootHourlyPersist; exact Keeps.chain

theorem nvRelocation_keeps {kp : Parts} {st0 s : State} (page : Nat) (k_nvm : kp.nvm = true) (hk : Keeps kp st0 s) :
    Keeps kp st0 (nvRelocation page s) := by
  have := @Keeps.whenever
  have := @State.relocAsk_keeps
  unfold nvRelocation; exact Keeps.chain

theorem nvClrcnt_keeps {kp : Parts} {st0 s : State} (hk : Keeps kp st0 s) :
    Keeps kp st0 (nvClrcnt s) := by
  have := @Keeps.whenever
  have := @State.put_keeps
  unfold nvClrcnt; exact Keeps.chain

end Sys2Proof.Machine
end

