-- ==== Sys2Proof/Laws/KeepsHeadOps.lean ====
section
/-! SUPPORT. The operations of Machine/HeadOps.lean are in the relation `Keeps`: each lemma says what its operation may change. -/

set_option linter.tactic.unusedName false
set_option Elab.async false

namespace Sys2Proof.Machine

theorem State.portFault_keeps {kp : Parts} {st0 s : State} (h : Nat) (f : Fld) (cls : FaultClass) (hk : Keeps kp st0 s) :
    Keeps kp st0 (State.portFault s h f cls) := by
  have := @State.put_keeps
  have := @State.raise_keeps
  unfold State.portFault; exact Keeps.chain

theorem State.syncHeld_keeps {kp : Parts} {st0 s : State} (h : Nat) (hk : Keeps kp st0 s) :
    Keeps kp st0 (State.syncHeld s h) := by
  have := @State.putB_keeps
  unfold State.syncHeld; exact Keeps.chain

theorem State.syncGain_keeps {kp : Parts} {st0 s : State} (h : Nat) (hk : Keeps kp st0 s) :
    Keeps kp st0 (State.syncGain s h) := by
  have := @State.put_keeps
  unfold State.syncGain; exact Keeps.chain

theorem State.storeBias_keeps {kp : Parts} {st0 s : State} (h : Nat) (vbias : Nat) (vskim : Nat) (hk : Keeps kp st0 s) :
    Keeps kp st0 (State.storeBias s h vbias vskim) := by
  have := @State.put_keeps
  unfold State.storeBias; exact Keeps.chain

theorem State.hsupRamp_keeps {kp : Parts} {st0 s : State} (h : Nat) (hk : Keeps kp st0 s) :
    Keeps kp st0 (State.hsupRamp s h) := by
  have := @State.put_keeps
  have := @State.modHead_keeps
  unfold State.hsupRamp; exact Keeps.chain

theorem State.hsupOff_keeps {kp : Parts} {st0 s : State} (h : Nat) (hk : Keeps kp st0 s) :
    Keeps kp st0 (State.hsupOff s h) := by
  have := @State.modHead_keeps
  have := @State.put_keeps
  unfold State.hsupOff; exact Keeps.chain

theorem State.hsupEval_keeps {kp : Parts} {st0 s : State} (h : Nat) (hk : Keeps kp st0 s) :
    Keeps kp st0 (State.hsupEval s h) := by
  have := @State.hsupOff_keeps
  have := @State.hsupRamp_keeps
  unfold State.hsupEval; exact Keeps.chain

theorem State.portHold_keeps {kp : Parts} {st0 s : State} (h : Nat) (hk : Keeps kp st0 s) :
    Keeps kp st0 (State.portHold s h) := by
  have := @State.modHead_keeps
  have := @State.syncHeld_keeps
  unfold State.portHold; exact Keeps.chain

theorem State.driveOrder_keeps {kp : Parts} {st0 s : State} (h : Nat) (close : Bool) (hk : Keeps kp st0 s) :
    Keeps kp st0 (State.driveOrder s h close) := by
  have := @State.modHead_keeps
  unfold State.driveOrder; exact Keeps.chain

theorem State.driveEnded_keeps {kp : Parts} {st0 s : State} (h : Nat) (hk : Keeps kp st0 s) :
    Keeps kp st0 (State.driveEnded s h) := by
  have := @State.modHead_keeps
  have := @State.hsupOff_keeps
  have := @State.put_keeps
  unfold State.driveEnded; exact Keeps.chain

theorem State.setShpos_keeps {kp : Parts} {st0 s : State} (h : Nat) (v : Nat) (hk : Keeps kp st0 s) :
    Keeps kp st0 (State.setShpos s h v) := by
  have := @State.put_keeps
  have := @State.modHead_keeps
  unfold State.setShpos; exact Keeps.chain

theorem State.shutSafeClose_keeps {kp : Parts} {st0 s : State} (h : Nat) (hk : Keeps kp st0 s) :
    Keeps kp st0 (State.shutSafeClose s h) := by
  have := @State.modHead_keeps
  have := @State.driveOrder_keeps
  unfold State.shutSafeClose; exact Keeps.chain

theorem State.pulseOver_keeps {kp : Parts} {st0 s : State} (h : Nat) (d : Drive) (b : Bridge) (hk : Keeps kp st0 s) :
    Keeps kp st0 (State.pulseOver s h d b) := by
  have := @State.modHead_keeps
  have := @State.setShpos_keeps
  have := @State.driveEnded_keeps
  unfold State.pulseOver; exact Keeps.chain

theorem State.holdRelease_keeps {kp : Parts} {st0 s : State} (h : Nat) (t : Nat) (hk : Keeps kp st0 s) :
    Keeps kp st0 (State.holdRelease s h t) := by
  have := @State.modHead_keeps
  have := @State.setShpos_keeps
  have := @State.pulseOver_keeps
  unfold State.holdRelease; exact Keeps.chain

theorem State.holdEnd_keeps {kp : Parts} {st0 s : State} (h : Nat) (hk : Keeps kp st0 s) :
    Keeps kp st0 (State.holdEnd s h) := by
  have := @State.holdRelease_keeps
  unfold State.holdEnd; exact Keeps.chain

theorem State.shutResult_keeps {kp : Parts} {st0 s : State} (h : Nat) (code : Nat) (hk : Keeps kp st0 s) :
    Keeps kp st0 (State.shutResult s h code) := by
  have := @State.put_keeps
  have := @State.bump_keeps
  have := @State.persist_keeps
  have := @State.raise_keeps
  have := @State.finishCmd_keeps
  have := @State.churnDone_keeps
  unfold State.shutResult; exact Keeps.chain

theorem State.flushDeferred_keeps {kp : Parts} {st0 s : State} (h : Nat) (hk : Keeps kp st0 s) :
    Keeps kp st0 (State.flushDeferred s h) := by
  have := @State.setReg_keeps
  have := @State.modShut_keeps
  unfold State.flushDeferred; exact Keeps.chain

theorem State.shutEnd_keeps {kp : Parts} {st0 s : State} (h : Nat) (code : Nat) (hk : Keeps kp st0 s) :
    Keeps kp st0 (State.shutEnd s h code) := by
  have := @State.shutResult_keeps
  have := @State.modShut_keeps
  have := @State.flushDeferred_keeps
  have := @State.put_keeps
  have := @State.driveOrder_keeps
  unfold State.shutEnd; exact Keeps.chain

end Sys2Proof.Machine
end

