-- ==== Sys2Proof/Laws/KeepsHeadPort.lean ====
section
/-! SUPPORT. The operations of Machine/HeadPort.lean are in the relation `Keeps`: each lemma says what its operation may change. -/

set_option linter.tactic.unusedName false
set_option Elab.async false

namespace Sys2Proof.Machine

theorem profileValidate_keeps {kp : Parts} {st0 s : State} (h : Nat) (hk : Keeps kp st0 s) :
    Keeps kp st0 (profileValidate h s) := by
  have := @Keeps.whenever
  have := @State.put_keeps
  unfold profileValidate; exact Keeps.chain

theorem State.clearGain_keeps {kp : Parts} {st0 s : State} (h : Nat) (hk : Keeps kp st0 s) :
    Keeps kp st0 (State.clearGain s h) := by
  have := @State.put_keeps
  unfold State.clearGain; exact Keeps.chain

theorem State.shutInputsAct_keeps {kp : Parts} {st0 s : State} (h : Nat) (hk : Keeps kp st0 s) :
    Keeps kp st0 (State.shutInputsAct s h) := by
  have := @State.portFault_keeps
  have := @State.setShpos_keeps
  have := @State.driveEnded_keeps
  unfold State.shutInputsAct; exact Keeps.chain

theorem State.adoptProfile_keeps {kp : Parts} {st0 s : State} (h : Nat) (p : Profile) (hk : Keeps kp st0 s) :
    Keeps kp st0 (State.adoptProfile s h p) := by
  have := @State.clearGain_keeps
  have := @State.modHead_keeps
  have := @State.syncGain_keeps
  have := @State.storeBias_keeps
  have := @State.hsupEval_keeps
  have := @State.shutInputsAct_keeps
  unfold State.adoptProfile; exact Keeps.chain

theorem profileValidationDone_keeps {kp : Parts} {st0 s : State} (h : Nat) (hk : Keeps kp st0 s) :
    Keeps kp st0 (profileValidationDone h s) := by
  have := @Keeps.whenever
  have := @State.put_keeps
  have := @State.adoptProfile_keeps
  unfold profileValidationDone; exact Keeps.chain

theorem hpBiasWrite_keeps {kp : Parts} {st0 s : State} (h : Nat) (v : Word) (hk : Keeps kp st0 s) :
    Keeps kp st0 (hpBiasWrite h v s) := by
  have := @Keeps.whenever
  have := @State.put_keeps
  have := @State.storeBias_keeps
  unfold hpBiasWrite; exact Keeps.chain

theorem dacOvercurrent_keeps {kp : Parts} {st0 s : State} (h : Nat) (hk : Keeps kp st0 s) :
    Keeps kp st0 (dacOvercurrent h s) := by
  have := @Keeps.whenever
  have := @State.portFault_keeps
  have := @State.portHold_keeps
  unfold dacOvercurrent; exact Keeps.chain

theorem hsupRampDone_keeps {kp : Parts} {st0 s : State} (h : Nat) (t : Nat) (hk : Keeps kp st0 s) :
    Keeps kp st0 (hsupRampDone h t s) := by
  have := @Keeps.whenever
  have := @State.at_keeps
  have := @State.put_keeps
  have := @State.modHead_keeps
  unfold hsupRampDone; exact Keeps.chain

theorem State.hsupDisconnect_keeps {kp : Parts} {st0 s : State} (h : Nat) (f : Fld) (hk : Keeps kp st0 s) :
    Keeps kp st0 (State.hsupDisconnect s h f) := by
  have := @State.put_keeps
  have := @State.portFault_keeps
  have := @State.modHead_keeps
  have := @State.portHold_keeps
  unfold State.hsupDisconnect; exact Keeps.chain

theorem hsupShortDisconnect_keeps {kp : Parts} {st0 s : State} (h : Nat) (t : Nat) (k_nvm : kp.nvm = true) (hk : Keeps kp st0 s) :
    Keeps kp st0 (hsupShortDisconnect h t s) := by
  have := @Keeps.whenever
  have := @State.at_keeps
  have := @State.hsupDisconnect_keeps
  have := @State.put_keeps
  have := @State.logUnit_keeps
  have := @State.modHead_keeps
  unfold hsupShortDisconnect; exact Keeps.chain

theorem hsupReverseDisconnect_keeps {kp : Parts} {st0 s : State} (h : Nat) (t : Nat) (hk : Keeps kp st0 s) :
    Keeps kp st0 (hsupReverseDisconnect h t s) := by
  have := @Keeps.whenever
  have := @State.at_keeps
  have := @State.hsupDisconnect_keeps
  have := @State.put_keeps
  have := @State.modHead_keeps
  unfold hsupReverseDisconnect; exact Keeps.chain

theorem hsupRetryStart_keeps {kp : Parts} {st0 s : State} (h : Nat) (t : Nat) (k_nvm : kp.nvm = true) (hk : Keeps kp st0 s) :
    Keeps kp st0 (hsupRetryStart h t s) := by
  have := @Keeps.whenever
  have := @State.at_keeps
  have := @State.put_keeps
  have := @State.hsupRamp_keeps
  have := @State.logUnit_keeps
  unfold hsupRetryStart; exact Keeps.chain

theorem hsupRetryCountReset_keeps {kp : Parts} {st0 s : State} (h : Nat) (t : Nat) (hk : Keeps kp st0 s) :
    Keeps kp st0 (hsupRetryCountReset h t s) := by
  have := @Keeps.whenever
  have := @State.at_keeps
  have := @State.put_keeps
  have := @State.modHead_keeps
  unfold hsupRetryCountReset; exact Keeps.chain

theorem hsupRetry_keeps {kp : Parts} {st0 s : State} (h : Nat) (hk : Keeps kp st0 s) :
    Keeps kp st0 (hsupRetry h s) := by
  have := @Keeps.whenever
  have := @State.put_keeps
  have := @State.hsupRamp_keeps
  unfold hsupRetry; exact Keeps.chain

theorem resume_keeps {kp : Parts} {st0 s : State} (h : Nat) (hk : Keeps kp st0 s) :
    Keeps kp st0 (resume h s) := by
  have := @Keeps.whenever
  have := @State.modHead_keeps
  unfold resume; exact Keeps.chain

theorem shutCommand_keeps {kp : Parts} {st0 s : State} (h : Nat) (close : Bool) (hk : Keeps kp st0 s) :
    Keeps kp st0 (shutCommand h close s) := by
  have := @Keeps.whenever
  have := @State.put_keeps
  have := @State.driveOrder_keeps
  unfold shutCommand; exact Keeps.chain

theorem shutClose_keeps {kp : Parts} {st0 s : State} (h : Nat) (hk : Keeps kp st0 s) :
    Keeps kp st0 (shutClose h s) := by
  have := @shutCommand_keeps
  unfold shutClose; exact Keeps.chain

theorem shutOpen_keeps {kp : Parts} {st0 s : State} (h : Nat) (hk : Keeps kp st0 s) :
    Keeps kp st0 (shutOpen h s) := by
  have := @shutCommand_keeps
  unfold shutOpen; exact Keeps.chain

theorem State.openWaits_keeps {kp : Parts} {st0 s : State} (h : Nat) (t : Nat) (hk : Keeps kp st0 s) :
    Keeps kp st0 (State.openWaits s h t) := by
  have := @State.modHead_keeps
  unfold State.openWaits; exact Keeps.chain

theorem State.driveRefused_keeps {kp : Parts} {st0 s : State} (h : Nat) (close : Bool) (t : Nat) (hk : Keeps kp st0 s) :
    Keeps kp st0 (State.driveRefused s h close t) := by
  have := @State.hsupOff_keeps
  have := @State.modHead_keeps
  have := @State.openWaits_keeps
  unfold State.driveRefused; exact Keeps.chain

theorem shutterDriveStart_keeps {kp : Parts} {st0 s : State} (h : Nat) (vshut : Nat) (t : Nat) (hk : Keeps kp st0 s) :
    Keeps kp st0 (shutterDriveStart h vshut t s) := by
  have := @Keeps.whenever
  have := @State.at_keeps
  have := @State.modHead_keeps
  have := @State.driveRefused_keeps
  have := @State.holdRelease_keeps
  have := @State.portFault_keeps
  have := @State.setShpos_keeps
  unfold shutterDriveStart; exact Keeps.chain

theorem shutterPulseEnd_keeps {kp : Parts} {st0 s : State} (h : Nat) (t : Nat) (hk : Keeps kp st0 s) :
    Keeps kp st0 (shutterPulseEnd h t s) := by
  have := @Keeps.whenever
  have := @State.at_keeps
  have := @State.pulseOver_keeps
  unfold shutterPulseEnd; exact Keeps.chain

theorem shutterPositionInput_keeps {kp : Parts} {st0 s : State} (h : Nat) (p0 : Bool) (p1 : Bool) (t : Nat) (hk : Keeps kp st0 s) :
    Keeps kp st0 (shutterPositionInput h p0 p1 t s) := by
  have := @Keeps.whenever
  have := @State.at_keeps
  have := @State.modHead_keeps
  have := @State.shutInputsAct_keeps
  unfold shutterPositionInput; exact Keeps.chain

theorem shutterPosTimeout_keeps {kp : Parts} {st0 s : State} (h : Nat) (t : Nat) (hk : Keeps kp st0 s) :
    Keeps kp st0 (shutterPosTimeout h t s) := by
  have := @Keeps.whenever
  have := @State.at_keeps
  have := @State.portFault_keeps
  have := @State.setShpos_keeps
  have := @State.modHead_keeps
  have := @State.driveEnded_keeps
  have := @State.shutEnd_keeps
  unfold shutterPosTimeout; exact Keeps.chain

theorem State.coilFail_keeps {kp : Parts} {st0 s : State} (h : Nat) (f : Fld) (hk : Keeps kp st0 s) :
    Keeps kp st0 (State.coilFail s h f) := by
  have := @State.portFault_keeps
  have := @State.modHead_keeps
  have := @State.setShpos_keeps
  have := @State.driveEnded_keeps
  have := @State.shutEnd_keeps
  have := @State.openWaits_keeps
  unfold State.coilFail; exact Keeps.chain

theorem shutterCoilOpen_keeps {kp : Parts} {st0 s : State} (h : Nat) (hk : Keeps kp st0 s) :
    Keeps kp st0 (shutterCoilOpen h s) := by
  have := @Keeps.whenever
  have := @State.coilFail_keeps
  unfold shutterCoilOpen; exact Keeps.chain

theorem shutterCoilShort_keeps {kp : Parts} {st0 s : State} (h : Nat) (hk : Keeps kp st0 s) :
    Keeps kp st0 (shutterCoilShort h s) := by
  have := @Keeps.whenever
  have := @State.coilFail_keeps
  unfold shutterCoilShort; exact Keeps.chain

theorem State.hcpResult_keeps {kp : Parts} {st0 s : State} (h : Nat) (code : Nat) (hk : Keeps kp st0 s) :
    Keeps kp st0 (State.hcpResult s h code) := by
  have := @State.put_keeps
  have := @State.portFault_keeps
  unfold State.hcpResult; exact Keeps.chain

theorem State.hcpRx_keeps {kp : Parts} {st0 s : State} (h : Nat) (rx : List Bool) (hk : Keeps kp st0 s) :
    Keeps kp st0 (State.hcpRx s h rx) := by
  have := @State.put_keeps
  unfold State.hcpRx; exact Keeps.chain

theorem State.hcpStart_keeps {kp : Parts} {st0 s : State} (h : Nat) (owned : Bool) (hk : Keeps kp st0 s) :
    Keeps kp st0 (State.hcpStart s h owned) := by
  have := @State.put_keeps
  have := @State.hcpResult_keeps
  have := @State.modHead_keeps
  unfold State.hcpStart; exact Keeps.chain

theorem hcpGo_keeps {kp : Parts} {st0 s : State} (h : Nat) (hk : Keeps kp st0 s) :
    Keeps kp st0 (hcpGo h s) := by
  have := @Keeps.whenever
  have := @State.hcpResult_keeps
  have := @State.hcpStart_keeps
  unfold hcpGo; exact Keeps.chain

theorem State.hcpEnd_keeps {kp : Parts} {st0 s : State} (h : Nat) (rx : List Bool) (sent : Nat) (code : Nat) (hk : Keeps kp st0 s) :
    Keeps kp st0 (State.hcpEnd s h rx sent code) := by
  have := @State.modHead_keeps
  have := @State.hcpRx_keeps
  have := @State.put_keeps
  have := @State.hcpResult_keeps
  unfold State.hcpEnd; exact Keeps.chain

theorem hcpTransferDone_keeps {kp : Parts} {st0 s : State} (h : Nat) (rx : List Bool) (extra : Bool) (hk : Keeps kp st0 s) :
    Keeps kp st0 (hcpTransferDone h rx extra s) := by
  have := @Keeps.whenever
  have := @State.hcpEnd_keeps
  unfold hcpTransferDone; exact Keeps.chain

theorem strobeShort_keeps {kp : Parts} {st0 s : State} (h : Nat) (rx : List Bool) (hk : Keeps kp st0 s) :
    Keeps kp st0 (strobeShort h rx s) := by
  have := @Keeps.whenever
  have := @State.hcpEnd_keeps
  unfold strobeShort; exact Keeps.chain

theorem State.hcpCut_keeps {kp : Parts} {st0 s : State} (h : Nat) (code : Nat) (hk : Keeps kp st0 s) :
    Keeps kp st0 (State.hcpCut s h code) := by
  have := @State.freshUpTo_keeps
  have := @State.fresh_keeps
  have := @State.hcpEnd_keeps
  unfold State.hcpCut; exact Keeps.chain

theorem hcpAbort_keeps {kp : Parts} {st0 s : State} (h : Nat) (hk : Keeps kp st0 s) :
    Keeps kp st0 (hcpAbort h s) := by
  have := @Keeps.whenever
  have := @State.hcpCut_keeps
  unfold hcpAbort; exact Keeps.chain

theorem State.hcpStop_keeps {kp : Parts} {st0 s : State} (h : Nat) (hk : Keeps kp st0 s) :
    Keeps kp st0 (State.hcpStop s h) := by
  have := @State.hcpCut_keeps
  have := @State.modHead_keeps
  unfold State.hcpStop; exact Keeps.chain

theorem hpCtrlWrite_keeps {kp : Parts} {st0 s : State} (h : Nat) (v : Word) (hk : Keeps kp st0 s) :
    Keeps kp st0 (hpCtrlWrite h v s) := by
  have := @Keeps.whenever
  have := @State.put_keeps
  have := @State.hcpStop_keeps
  have := @State.modHead_keeps
  have := @State.hsupEval_keeps
  unfold hpCtrlWrite; exact Keeps.chain

theorem gpSetWrite_keeps {kp : Parts} {st0 s : State} (i : Nat) (v : Word) (hk : Keeps kp st0 s) :
    Keeps kp st0 (gpSetWrite i v s) := by
  have := @Keeps.whenever
  have := @State.setReg_keeps
  unfold gpSetWrite; exact Keeps.chain

theorem gpClrWrite_keeps {kp : Parts} {st0 s : State} (i : Nat) (v : Word) (hk : Keeps kp st0 s) :
    Keeps kp st0 (gpClrWrite i v s) := by
  have := @Keeps.whenever
  have := @State.setReg_keeps
  unfold gpClrWrite; exact Keeps.chain

theorem State.thmConvert_keeps {kp : Parts} {st0 s : State} (h : Nat) (code : Nat) (hk : Keeps kp st0 s) :
    Keeps kp st0 (State.thmConvert s h code) := by
  have := @Keeps.whenever
  have := @State.portFault_keeps
  have := @State.put_keeps
  have := @State.putB_keeps
  unfold State.thmConvert; exact Keeps.chain

end Sys2Proof.Machine
end

