-- ==== Sys2Proof/Laws/KeepsConverters.lean ====
section
/-! SUPPORT. The operations of Machine/Converters.lean are in the relation `Keeps`: each lemma says what its operation may change. -/

set_option linter.tactic.unusedName false
set_option Elab.async false

namespace Sys2Proof.Machine

theorem State.markInv_keeps {kp : Parts} {st0 s : State} (h : Nat) (mask : Nat) (n : Nat) (t : Nat) (hk : Keeps kp st0 s) :
    Keeps kp st0 (State.markInv s h mask n t) := by
  have := @State.modHead_keeps
  unfold State.markInv; exact Keeps.chain

theorem State.settleMarks_keeps {kp : Parts} {st0 s : State} (old : State) (h : Nat) (t : Nat) (hk : Keeps kp st0 s) :
    Keeps kp st0 (State.settleMarks s old h t) := by
  have := @State.markInv_keeps
  unfold State.settleMarks; exact Keeps.chain

theorem tcCfgWrite_keeps {kp : Parts} {st0 s : State} (h : Nat) (v : Word) (hk : Keeps kp st0 s) :
    Keeps kp st0 (tcCfgWrite h v s) := by
  have := @Keeps.whenever
  have := @State.put_keeps
  have := @State.syncGain_keeps
  have := @State.settleMarks_keeps
  unfold tcCfgWrite; exact Keeps.chain

theorem tcGainWrite_keeps {kp : Parts} {st0 s : State} (h : Nat) (i : Nat) (v : Word) (hk : Keeps kp st0 s) :
    Keeps kp st0 (tcGainWrite h i v s) := by
  have := @Keeps.whenever
  have := @State.put_keeps
  have := @State.syncGain_keeps
  have := @State.settleMarks_keeps
  unfold tcGainWrite; exact Keeps.chain

theorem State.putBank_keeps {kp : Parts} {st0 s : State} (r : Nat) (f : Nat → Fld) (v : Nat) (hk : Keeps kp st0 s) :
    Keeps kp st0 (State.putBank s r f v) := by
  have := @State.put_keeps
  unfold State.putBank; exact Keeps.chain

theorem State.noteOutage_keeps {kp : Parts} {st0 s : State} (r : Nat) (hk : Keeps kp st0 s) :
    Keeps kp st0 (State.noteOutage s r) := by
  have := @State.modBank_keeps
  unfold State.noteOutage; exact Keeps.chain

theorem State.putValid_keeps {kp : Parts} {st0 s : State} (r : Nat) (f : Nat → Fld) (v : Nat) (hk : Keeps kp st0 s) :
    Keeps kp st0 (State.putValid s r f v) := by
  have := @State.putBank_keeps
  have := @State.noteOutage_keeps
  unfold State.putValid; exact Keeps.chain

theorem State.bankRefuse_keeps {kp : Parts} {st0 s : State} (r : Nat) (hk : Keeps kp st0 s) :
    Keeps kp st0 (State.bankRefuse s r) := by
  have := @State.putBank_keeps
  unfold State.bankRefuse; exact Keeps.chain

theorem State.bankReject_keeps {kp : Parts} {st0 s : State} (r : Nat) (hk : Keeps kp st0 s) :
    Keeps kp st0 (State.bankReject s r) := by
  have := @State.putBank_keeps
  unfold State.bankReject; exact Keeps.chain

theorem tcSclkWrite_keeps {kp : Parts} {st0 s : State} (r : Nat) (v : Word) (hk : Keeps kp st0 s) :
    Keeps kp st0 (tcSclkWrite r v s) := by
  have := @Keeps.whenever
  have := @State.bankRefuse_keeps
  have := @State.bankReject_keeps
  have := @State.put_keeps
  have := @State.putValid_keeps
  have := @State.putBank_keeps
  have := @State.modBank_keeps
  have := @State.fperNote_keeps
  unfold tcSclkWrite; exact Keeps.chain

theorem sclkLocked_keeps {kp : Parts} {st0 s : State} (r : Nat) (hk : Keeps kp st0 s) :
    Keeps kp st0 (sclkLocked r s) := by
  have := @Keeps.whenever
  have := @State.putValid_keeps
  have := @State.modBank_keeps
  unfold sclkLocked; exact Keeps.chain

theorem sclkLockLost_keeps {kp : Parts} {st0 s : State} (r : Nat) (hk : Keeps kp st0 s) :
    Keeps kp st0 (sclkLockLost r s) := by
  have := @Keeps.whenever
  have := @State.putValid_keeps
  have := @State.modBank_keeps
  have := @State.raise_keeps
  unfold sclkLockLost; exact Keeps.chain

theorem sclkFallback_keeps {kp : Parts} {st0 s : State} (r : Nat) (hk : Keeps kp st0 s) :
    Keeps kp st0 (sclkFallback r s) := by
  have := @Keeps.whenever
  have := @State.putBank_keeps
  have := @State.raise_keeps
  unfold sclkFallback; exact Keeps.chain

theorem State.degradeFrames_keeps {kp : Parts} {st0 s : State} (of : Nat → Bool) (hk : Keeps kp st0 s) :
    Keeps kp st0 (State.degradeFrames s of) := by
  unfold State.degradeFrames; exact Keeps.chain

theorem State.calAbort_keeps {kp : Parts} {st0 s : State} (r : Nat) (hk : Keeps kp st0 s) :
    Keeps kp st0 (State.calAbort s r) := by
  have := @State.putBank_keeps
  have := @State.modBank_keeps
  have := @State.churnDone_keeps
  unfold State.calAbort; exact Keeps.chain

theorem State.refSettle_keeps {kp : Parts} {st0 s : State} (r : Nat) (ns : Nat) (hk : Keeps kp st0 s) :
    Keeps kp st0 (State.refSettle s r ns) := by
  have := @State.putValid_keeps
  have := @State.modBank_keeps
  unfold State.refSettle; exact Keeps.chain

theorem tcRefcfgWrite_keeps {kp : Parts} {st0 s : State} (r : Nat) (v : Word) (hk : Keeps kp st0 s) :
    Keeps kp st0 (tcRefcfgWrite r v s) := by
  have := @Keeps.whenever
  have := @State.bankRefuse_keeps
  have := @State.bankReject_keeps
  have := @State.put_keeps
  have := @State.putBank_keeps
  have := @State.refSettle_keeps
  unfold tcRefcfgWrite; exact Keeps.chain

theorem refokSet_keeps {kp : Parts} {st0 s : State} (r : Nat) (t : Nat) (hk : Keeps kp st0 s) :
    Keeps kp st0 (refokSet r t s) := by
  have := @Keeps.whenever
  have := @State.at_keeps
  have := @State.putValid_keeps
  have := @State.modBank_keeps
  unfold refokSet; exact Keeps.chain

theorem refFallback_keeps {kp : Parts} {st0 s : State} (r : Nat) (hk : Keeps kp st0 s) :
    Keeps kp st0 (refFallback r s) := by
  have := @Keeps.whenever
  have := @State.putBank_keeps
  have := @State.refSettle_keeps
  have := @State.raise_keeps
  have := @State.calAbort_keeps
  have := @State.degradeFrames_keeps
  unfold refFallback; exact Keeps.chain

theorem State.calOrder_keeps {kp : Parts} {st0 s : State} (r : Nat) (hk : Keeps kp st0 s) :
    Keeps kp st0 (State.calOrder s r) := by
  have := @State.putBank_keeps
  have := @State.modBank_keeps
  unfold State.calOrder; exact Keeps.chain

theorem selfcal_keeps {kp : Parts} {st0 s : State} (r : Nat) (hk : Keeps kp st0 s) :
    Keeps kp st0 (selfcal r s) := by
  have := @Keeps.whenever
  have := @State.calOrder_keeps
  have := @State.churnAsk_keeps
  have := @State.putBank_keeps
  have := @State.bankRefuse_keeps
  unfold selfcal; exact Keeps.chain

theorem calPassDone_keeps {kp : Parts} {st0 s : State} (r : Nat) (factors : List (List Int)) (t : Nat) (hk : Keeps kp st0 s) :
    Keeps kp st0 (calPassDone r factors t s) := by
  have := @Keeps.whenever
  have := @State.at_keeps
  have := @State.modBank_keeps
  unfold calPassDone; exact Keeps.chain

theorem State.cellReject_keeps {kp : Parts} {st0 s : State} (r : Nat) (c : Nat) (hk : Keeps kp st0 s) :
    Keeps kp st0 (State.cellReject s r c) := by
  have := @State.putBit_keeps
  have := @State.raise_keeps
  unfold State.cellReject; exact Keeps.chain

theorem State.putFactors_keeps {kp : Parts} {st0 s : State} (r : Nat) (c : Nat) (ws : List Int) (hk : Keeps kp st0 s) :
    Keeps kp st0 (State.putFactors s r c ws) := by
  have := @State.put_keeps
  unfold State.putFactors; exact Keeps.chain

theorem State.calFinish_keeps {kp : Parts} {st0 s : State} (r : Nat) (res : Nat) (hk : Keeps kp st0 s) :
    Keeps kp st0 (State.calFinish s r res) := by
  have := @State.putBank_keeps
  have := @State.modBank_keeps
  have := @State.bump_keeps
  have := @State.put64_keeps
  have := @State.put_keeps
  have := @State.persist_keeps
  have := @State.churnDone_keeps
  unfold State.calFinish; exact Keeps.chain

theorem calEnd_keeps {kp : Parts} {st0 s : State} (r : Nat) (t : Nat) (hk : Keeps kp st0 s) :
    Keeps kp st0 (calEnd r t s) := by
  have := @Keeps.whenever
  have := @State.at_keeps
  have := @State.cellReject_keeps
  have := @State.calFinish_keeps
  have := @State.putFactors_keeps
  have := @State.modBank_keeps
  have := @State.raise_keeps
  unfold calEnd; exact Keeps.chain

theorem State.trimStop_keeps {kp : Parts} {st0 s : State} (h : Nat) (hk : Keeps kp st0 s) :
    Keeps kp st0 (State.trimStop s h) := by
  have := @State.churnDrop_keeps
  unfold State.trimStop; exact Keeps.chain

theorem bgtrimMeasure_keeps {kp : Parts} {st0 s : State} (h : Nat) (words : List Int) (hk : Keeps kp st0 s) :
    Keeps kp st0 (bgtrimMeasure h words s) := by
  have := @State.trimStop_keeps
  have := @State.put_keeps
  have := @State.modHead_keeps
  have := @State.churnDone_keeps
  have := @State.cellReject_keeps
  unfold bgtrimMeasure; exact Keeps.chain

end Sys2Proof.Machine
end

