-- ==== Sys2Proof/Laws/KeepsTiming.lean ====
section
/-! SUPPORT. The operations of Machine/Timing.lean are in the relation `Keeps`: each lemma says what its operation may change. -/

set_option linter.tactic.unusedName false
set_option Elab.async false

namespace Sys2Proof.Machine

theorem State.modCap_keeps {kp : Parts} {st0 s : State} (h : Nat) (f : Cap → Cap) (hk : Keeps kp st0 s) :
    Keeps kp st0 (State.modCap s h f) := by
  have := @State.modHead_keeps
  unfold State.modCap; exact Keeps.chain

theorem State.modFrame_keeps {kp : Parts} {st0 s : State} (h : Nat) (seq : Nat) (f : Frame → Frame) (hk : Keeps kp st0 s) :
    Keeps kp st0 (State.modFrame s h seq f) := by
  unfold State.modFrame; exact Keeps.chain

theorem State.putFsdt_keeps {kp : Parts} {st0 s : State} (h : Nat) (seq : Nat) (dt : Nat) (hk : Keeps kp st0 s) :
    Keeps kp st0 (State.putFsdt s h seq dt) := by
  have := @State.put64_keeps
  unfold State.putFsdt; exact Keeps.chain

theorem State.slotHeld_keeps {kp : Parts} {st0 s : State} (h : Nat) (seq : Nat) (hk : Keeps kp st0 s) :
    Keeps kp st0 (State.slotHeld s h seq) := by
  have := @State.modFrame_keeps
  have := @State.putFsdt_keeps
  unfold State.slotHeld; exact Keeps.chain

theorem State.srcEdge_keeps {kp : Parts} {st0 s : State} (h : Nat) (stamp : Nat) (instant : Nat) (hk : Keeps kp st0 s) :
    Keeps kp st0 (State.srcEdge s h stamp instant) := by
  have := @State.bump_keeps
  have := @State.modHead_keeps
  unfold State.srcEdge; exact Keeps.chain

theorem State.sourceEvent_keeps {kp : Parts} {st0 s : State} (src : Nat) (sel : Nat) (stamp : Nat) (instant : Nat) (hk : Keeps kp st0 s) :
    Keeps kp st0 (State.sourceEvent s src sel stamp instant) := by
  have := @Keeps.forEach
  have := @State.srcEdge_keeps
  unfold State.sourceEvent; exact Keeps.chain

theorem State.putLive_keeps {kp : Parts} {st0 s : State} (h : Nat) (i : Nat) (b : Bool) (hk : Keeps kp st0 s) :
    Keeps kp st0 (State.putLive s h i b) := by
  have := @State.putBit_keeps
  unfold State.putLive; exact Keeps.chain

theorem gpFrameEdge_keeps {kp : Parts} {st0 s : State} (pin : Nat) (level : Bool) (t : Nat) (hk : Keeps kp st0 s) :
    Keeps kp st0 (gpFrameEdge pin level t s) := by
  have := @Keeps.whenever
  have := @State.at_keeps
  have := @Keeps.forEach
  have := @State.modHead_keeps
  have := @State.srcEdge_keeps
  have := @State.putLive_keeps
  unfold gpFrameEdge; exact Keeps.chain

theorem State.hkEvent_keeps {kp : Parts} {st0 s : State} (src : Nat) (sel : Nat) (t : Nat) (hk : Keeps kp st0 s) :
    Keeps kp st0 (State.hkEvent s src sel t) := by
  unfold State.hkEvent; exact Keeps.chain

theorem State.trigEvent_keeps {kp : Parts} {st0 s : State} (n : Nat) (stamp : Nat) (hk : Keeps kp st0 s) :
    Keeps kp st0 (State.trigEvent s n stamp) := by
  have := @State.bump_keeps
  have := @State.put64_keeps
  have := @State.sourceEvent_keeps
  have := @State.hkEvent_keeps
  unfold State.trigEvent; exact Keeps.chain

theorem State.trigsDue_keeps {kp : Parts} {st0 s : State} (t : Nat) (hk : Keeps kp st0 s) :
    Keeps kp st0 (State.trigsDue s t) := by
  have := @State.trigEvent_keeps
  unfold State.trigsDue; exact Keeps.chain

theorem trigPinEdge_keeps {kp : Parts} {st0 s : State} (n : Nat) (level : Bool) (t : Nat) (hk : Keeps kp st0 s) :
    Keeps kp st0 (trigPinEdge n level t s) := by
  have := @Keeps.whenever
  have := @State.at_keeps
  have := @State.trigsDue_keeps
  have := @State.trigEvent_keeps
  have := @State.put_keeps
  unfold trigPinEdge; exact Keeps.chain

theorem lineStart_keeps {kp : Parts} {st0 s : State} (h : Nat) (t : Nat) (hk : Keeps kp st0 s) :
    Keeps kp st0 (lineStart h t s) := by
  have := @Keeps.whenever
  have := @State.at_keeps
  have := @State.modCap_keeps
  unfold lineStart; exact Keeps.chain

theorem State.closeCap_keeps {kp : Parts} {st0 s : State} (h : Nat) (stuck : Bool) (hk : Keeps kp st0 s) :
    Keeps kp st0 (State.closeCap s h stuck) := by
  have := @State.modCap_keeps
  have := @State.modFrame_keeps
  have := @State.bump_keeps
  unfold State.closeCap; exact Keeps.chain

theorem hfvFall_keeps {kp : Parts} {st0 s : State} (h : Nat) (t : Nat) (hk : Keeps kp st0 s) :
    Keeps kp st0 (hfvFall h t s) := by
  have := @Keeps.whenever
  have := @State.at_keeps
  have := @State.modHead_keeps
  have := @State.putLive_keeps
  have := @State.closeCap_keeps
  unfold hfvFall; exact Keeps.chain

theorem State.trimAbandon_keeps {kp : Parts} {st0 s : State} (h : Nat) (t : Nat) (hk : Keeps kp st0 s) :
    Keeps kp st0 (State.trimAbandon s h t) := by
  have := @State.modHead_keeps
  have := @State.churnDone_keeps
  unfold State.trimAbandon; exact Keeps.chain

theorem hlvRise_keeps {kp : Parts} {st0 s : State} (h : Nat) (t : Nat) (hk : Keeps kp st0 s) :
    Keeps kp st0 (hlvRise h t s) := by
  have := @Keeps.whenever
  have := @State.at_keeps
  have := @State.modHead_keeps
  have := @State.bump_keeps
  have := @State.trimAbandon_keeps
  have := @State.modCap_keeps
  have := @State.modFrame_keeps
  unfold hlvRise; exact Keeps.chain

theorem State.stuckFault_keeps {kp : Parts} {st0 s : State} (h : Nat) (i : Nat) (f : Fld) (hk : Keeps kp st0 s) :
    Keeps kp st0 (State.stuckFault s h i f) := by
  have := @State.put_keeps
  have := @State.putLive_keeps
  have := @State.raise_keeps
  unfold State.stuckFault; exact Keeps.chain

theorem inputStuck_keeps {kp : Parts} {st0 s : State} (i : TimingInput) (t : Nat) (hk : Keeps kp st0 s) :
    Keeps kp st0 (inputStuck i t s) := by
  have := @Keeps.whenever
  have := @State.at_keeps
  have := @State.stuckFault_keeps
  have := @State.closeCap_keeps
  have := @State.put_keeps
  have := @State.raise_keeps
  unfold inputStuck; exact Keeps.chain

theorem timingInputDeassert_keeps {kp : Parts} {st0 s : State} (i : TimingInput) (t : Nat) (hk : Keeps kp st0 s) :
    Keeps kp st0 (timingInputDeassert i t s) := by
  have := @Keeps.whenever
  have := @State.at_keeps
  have := @State.modHead_keeps
  have := @State.putLive_keeps
  have := @State.put_keeps
  unfold timingInputDeassert; exact Keeps.chain

theorem State.tapFault_keeps {kp : Parts} {st0 s : State} (h : Nat) (n : Nat) (f : Fld) (hk : Keeps kp st0 s) :
    Keeps kp st0 (State.tapFault s h n f) := by
  have := @State.putBit_keeps
  have := @State.put_keeps
  have := @State.raise_keeps
  unfold State.tapFault; exact Keeps.chain

theorem State.shortTest_keeps {kp : Parts} {st0 s : State} (h : Nat) (c : Cap) (n : Nat) (hk : Keeps kp st0 s) :
    Keeps kp st0 (State.shortTest s h c n) := by
  have := @State.modHead_keeps
  have := @State.tapFault_keeps
  have := @State.putBit_keeps
  unfold State.shortTest; exact Keeps.chain

theorem State.polarityTest_keeps {kp : Parts} {st0 s : State} (h : Nat) (c : Cap) (n : Nat) (hk : Keeps kp st0 s) :
    Keeps kp st0 (State.polarityTest s h c n) := by
  have := @State.modHead_keeps
  have := @State.bump_keeps
  have := @State.raise_keeps
  unfold State.polarityTest; exact Keeps.chain

theorem vblankStart_keeps {kp : Parts} {st0 s : State} (h : Nat) (t : Nat) (hk : Keeps kp st0 s) :
    Keeps kp st0 (vblankStart h t s) := by
  have := @Keeps.whenever
  have := @State.at_keeps
  have := @State.closeCap_keeps
  have := @State.modHead_keeps
  have := @State.shortTest_keeps
  have := @State.polarityTest_keeps
  have := @State.bump_keeps
  unfold vblankStart; exact Keeps.chain

theorem tapOpenTestDone_keeps {kp : Parts} {st0 s : State} (h : Nat) (moves : List Nat) (hk : Keeps kp st0 s) :
    Keeps kp st0 (tapOpenTestDone h moves s) := by
  have := @Keeps.whenever
  have := @State.modHead_keeps
  have := @State.tapFault_keeps
  have := @State.putBit_keeps
  unfold tapOpenTestDone; exact Keeps.chain

theorem hpTstatClrcnt_keeps {kp : Parts} {st0 s : State} (h : Nat) (hk : Keeps kp st0 s) :
    Keeps kp st0 (hpTstatClrcnt h s) := by
  have := @Keeps.whenever
  have := @State.setReg_keeps
  unfold hpTstatClrcnt; exact Keeps.chain

end Sys2Proof.Machine
end

