-- ==== Sys2Proof/Laws/KeepsTimingRing.lean ====
section
/-! SUPPORT. The operations of Machine/TimingRing.lean are in the relation `Keeps`: each lemma says what its operation may change. -/

set_option linter.tactic.unusedName false
set_option Elab.async false

namespace Sys2Proof.Machine

theorem State.modRing_keeps {kp : Parts} {st0 s : State} (f : Ring → Ring) (hk : Keeps kp st0 s) :
    Keeps kp st0 (State.modRing s f) := by
  unfold State.modRing; exact Keeps.chain

theorem State.repeatOut_keeps {kp : Parts} {st0 s : State} (kind : RingKind) (bytes : List Byte) (hk : Keeps kp st0 s) :
    Keeps kp st0 (State.repeatOut s kind bytes) := by
  have := @State.modRing_keeps
  unfold State.repeatOut; exact Keeps.chain

theorem State.countLate_keeps {kp : Parts} {st0 s : State} (late : Bool) (hk : Keeps kp st0 s) :
    Keeps kp st0 (State.countLate s late) := by
  have := @State.bump_keeps
  unfold State.countLate; exact Keeps.chain

theorem State.markNow_keeps {kp : Parts} {st0 s : State} (stream : Nat) (instant : Nat) (hk : Keeps kp st0 s) :
    Keeps kp st0 (State.markNow s stream instant) := by
  have := @State.sourceEvent_keeps
  have := @State.hkEvent_keeps
  unfold State.markNow; exact Keeps.chain

theorem State.markReceived_keeps {kp : Parts} {st0 s : State} (stream : Nat) (seq : Nat) (t : Nat) (hk : Keeps kp st0 s) :
    Keeps kp st0 (State.markReceived s stream seq t) := by
  have := @State.at_keeps
  have := @State.repeatOut_keeps
  have := @State.bumpBy_keeps
  have := @State.modRing_keeps
  have := @State.countLate_keeps
  have := @State.markNow_keeps
  unfold State.markReceived; exact Keeps.chain

theorem ringTrigReceived_keeps {kp : Parts} {st0 s : State} (stream : Nat) (seq : Nat) (t : Nat) (hk : Keeps kp st0 s) :
    Keeps kp st0 (ringTrigReceived stream seq t s) := by
  have := @Keeps.whenever
  have := @State.at_keeps
  have := @State.trigsDue_keeps
  have := @State.repeatOut_keeps
  have := @State.bumpBy_keeps
  have := @State.modRing_keeps
  have := @State.countLate_keeps
  unfold ringTrigReceived; exact Keeps.chain

theorem ringRxLock_keeps {kp : Parts} {st0 s : State} (hk : Keeps kp st0 s) :
    Keeps kp st0 (ringRxLock s) := by
  have := @Keeps.whenever
  have := @State.put_keeps
  unfold ringRxLock; exact Keeps.chain

theorem ringUpstreamLoss_keeps {kp : Parts} {st0 s : State} (hk : Keeps kp st0 s) :
    Keeps kp st0 (ringUpstreamLoss s) := by
  have := @Keeps.whenever
  have := @State.put_keeps
  have := @State.repeatOut_keeps
  have := @State.raise_keeps
  have := @sclkFallback_keeps
  unfold ringUpstreamLoss; exact Keeps.chain

theorem State.hopIndex_keeps {kp : Parts} {st0 s : State} (hop : Nat) (hk : Keeps kp st0 s) :
    Keeps kp st0 (State.hopIndex s hop) := by
  have := @State.put_keeps
  have := @State.putB_keeps
  have := @State.raise_keeps
  unfold State.hopIndex; exact Keeps.chain

theorem State.discipline_keeps {kp : Parts} {st0 s : State} (tai : Nat) (t : Nat) (hk : Keeps kp st0 s) :
    Keeps kp st0 (State.discipline s tai t) := by
  have := @State.put64_keeps
  have := @State.modRing_keeps
  have := @State.put_keeps
  have := @State.bump_keeps
  have := @State.freshUpTo_keeps
  unfold State.discipline; exact Keeps.chain

theorem ringTimePacket_keeps {kp : Parts} {st0 s : State} (bytes : List Byte) (t : Nat) (hk : Keeps kp st0 s) :
    Keeps kp st0 (ringTimePacket bytes t s) := by
  have := @Keeps.whenever
  have := @State.at_keeps
  have := @State.repeatOut_keeps
  have := @State.bump_keeps
  have := @State.hopIndex_keeps
  have := @State.discipline_keeps
  unfold ringTimePacket; exact Keeps.chain

theorem dtDisciplineTimeout_keeps {kp : Parts} {st0 s : State} (t : Nat) (hk : Keeps kp st0 s) :
    Keeps kp st0 (dtDisciplineTimeout t s) := by
  have := @Keeps.whenever
  have := @State.at_keeps
  have := @State.put_keeps
  have := @State.modRing_keeps
  unfold dtDisciplineTimeout; exact Keeps.chain

theorem State.syncRx_keeps {kp : Parts} {st0 s : State} (hk : Keeps kp st0 s) :
    Keeps kp st0 (State.syncRx s) := by
  have := @State.put_keeps
  unfold State.syncRx; exact Keeps.chain

theorem ringMsgReceived_keeps {kp : Parts} {st0 s : State} (bytes : List Byte) (hk : Keeps kp st0 s) :
    Keeps kp st0 (ringMsgReceived bytes s) := by
  have := @Keeps.whenever
  have := @State.repeatOut_keeps
  have := @State.bump_keeps
  have := @State.modRing_keeps
  have := @State.syncRx_keeps
  unfold ringMsgReceived; exact Keeps.chain

theorem msgSend_keeps {kp : Parts} {st0 s : State} (hk : Keeps kp st0 s) :
    Keeps kp st0 (msgSend s) := by
  have := @Keeps.whenever
  have := @State.put_keeps
  have := @State.modRing_keeps
  unfold msgSend; exact Keeps.chain

theorem msgInsert_keeps {kp : Parts} {st0 s : State} (t : Nat) (hk : Keeps kp st0 s) :
    Keeps kp st0 (msgInsert t s) := by
  have := @Keeps.whenever
  have := @State.at_keeps
  have := @State.modRing_keeps
  unfold msgInsert; exact Keeps.chain

theorem State.txEnd_keeps {kp : Parts} {st0 s : State} (code : Nat) (hk : Keeps kp st0 s) :
    Keeps kp st0 (State.txEnd s code) := by
  have := @State.put_keeps
  have := @State.modRing_keeps
  unfold State.txEnd; exact Keeps.chain

theorem msgReturned_keeps {kp : Parts} {st0 s : State} (bytes : List Byte) (hk : Keeps kp st0 s) :
    Keeps kp st0 (msgReturned bytes s) := by
  have := @Keeps.whenever
  have := @State.bump_keeps
  have := @State.repeatOut_keeps
  have := @State.txEnd_keeps
  unfold msgReturned; exact Keeps.chain

theorem msgLostTimeout_keeps {kp : Parts} {st0 s : State} (t : Nat) (hk : Keeps kp st0 s) :
    Keeps kp st0 (msgLostTimeout t s) := by
  have := @Keeps.whenever
  have := @State.at_keeps
  have := @State.txEnd_keeps
  unfold msgLostTimeout; exact Keeps.chain

theorem msgPop_keeps {kp : Parts} {st0 s : State} (hk : Keeps kp st0 s) :
    Keeps kp st0 (msgPop s) := by
  have := @Keeps.whenever
  have := @State.modRing_keeps
  have := @State.syncRx_keeps
  unfold msgPop; exact Keeps.chain

theorem ringEnable_keeps {kp : Parts} {st0 s : State} (hk : Keeps kp st0 s) :
    Keeps kp st0 (ringEnable s) := by
  have := @Keeps.whenever
  have := @State.put_keeps
  have := @State.modRing_keeps
  unfold ringEnable; exact Keeps.chain

theorem ringSelftestDone_keeps {kp : Parts} {st0 s : State} (pass : Bool) (hk : Keeps kp st0 s) :
    Keeps kp st0 (ringSelftestDone pass s) := by
  have := @Keeps.whenever
  have := @State.modRing_keeps
  have := @State.put_keeps
  have := @State.raise_keeps
  unfold ringSelftestDone; exact Keeps.chain

theorem ringHoldRaise_keeps {kp : Parts} {st0 s : State} (hk : Keeps kp st0 s) :
    Keeps kp st0 (ringHoldRaise s) := by
  have := @Keeps.whenever
  have := @State.put_keeps
  unfold ringHoldRaise; exact Keeps.chain

theorem ringDisable_keeps {kp : Parts} {st0 s : State} (t : Nat) (hk : Keeps kp st0 s) :
    Keeps kp st0 (ringDisable t s) := by
  have := @Keeps.whenever
  have := @State.at_keeps
  have := @State.put_keeps
  have := @State.modRing_keeps
  unfold ringDisable; exact Keeps.chain

theorem ringTxOff_keeps {kp : Parts} {st0 s : State} (t : Nat) (hk : Keeps kp st0 s) :
    Keeps kp st0 (ringTxOff t s) := by
  have := @Keeps.whenever
  have := @State.at_keeps
  have := @State.modRing_keeps
  unfold ringTxOff; exact Keeps.chain

theorem trgClrcnt_keeps {kp : Parts} {st0 s : State} (hk : Keeps kp st0 s) :
    Keeps kp st0 (trgClrcnt s) := by
  have := @Keeps.whenever
  have := @State.trigsDue_keeps
  have := @State.setReg_keeps
  have := @State.put_keeps
  have := @Keeps.forEach
  unfold trgClrcnt; exact Keeps.chain

theorem ringCharError_keeps {kp : Parts} {st0 s : State} (packet : Bool) (hk : Keeps kp st0 s) :
    Keeps kp st0 (ringCharError packet s) := by
  have := @Keeps.whenever
  have := @State.bump_keeps
  unfold ringCharError; exact Keeps.chain

theorem State.ringReset_keeps {kp : Parts} {st0 s : State} (hk : Keeps kp st0 s) :
    Keeps kp st0 (State.ringReset s) := by
  unfold State.ringReset; exact Keeps.chain

end Sys2Proof.Machine
end

