-- ==== Sys2Proof/Laws/KeepsTables.lean ====
section
/-! SUPPORT. The operations of Machine/Tables.lean are in the relation `Keeps`: each lemma says what its operation may change. -/

set_option linter.tactic.unusedName false
set_option Elab.async false

namespace Sys2Proof.Machine

theorem State.dramPut_keeps {kp : Parts} {st0 s : State}  (a : Nat) (bs : List Byte) (k_dram : kp.dram = true) (hk : Keeps kp st0 s) :
    Keeps kp st0 (State.dramPut s a bs) := by
  have := @State.dramWriteRaw_keeps
  induction bs generalizing a s with
  | nil => unfold State.dramPut; exact Keeps.chain
  | cons x l ih => unfold State.dramPut; exact Keeps.chain

theorem State.dramWrite_keeps {kp : Parts} {st0 s : State}  (a : Nat) (bs : List Byte) (k_dram : kp.dram = true) (hk : Keeps kp st0 s) :
    Keeps kp st0 (State.dramWrite s a bs) := by
  have := @State.put_keeps
  have := @State.dramWriteRaw_keeps
  induction bs generalizing a s with
  | nil => unfold State.dramWrite; exact Keeps.chain
  | cons x l ih => unfold State.dramWrite; exact Keeps.chain

theorem State.swapNow_keeps {kp : Parts} {st0 s : State} (h : Nat) (kind : Nat) (hk : Keeps kp st0 s) :
    Keeps kp st0 (State.swapNow s h kind) := by
  have := @State.put_keeps
  unfold State.swapNow; exact Keeps.chain

theorem State.swapRefuse_keeps {kp : Parts} {st0 s : State} (h : Nat) (kind : Nat) (code : Nat) (hk : Keeps kp st0 s) :
    Keeps kp st0 (State.swapRefuse s h kind code) := by
  have := @State.put_keeps
  unfold State.swapRefuse; exact Keeps.chain

theorem clSwap_keeps {kp : Parts} {st0 s : State} (h : Nat) (kind : Nat) (hk : Keeps kp st0 s) :
    Keeps kp st0 (clSwap h kind s) := by
  have := @Keeps.whenever
  have := @State.put_keeps
  have := @State.swapNow_keeps
  unfold clSwap; exact Keeps.chain

theorem lswap_keeps {kp : Parts} {st0 s : State} (h : Nat) (hk : Keeps kp st0 s) :
    Keeps kp st0 (lswap h s) := by
  have := @clSwap_keeps
  unfold lswap; exact Keeps.chain

theorem rswap_keeps {kp : Parts} {st0 s : State} (h : Nat) (hk : Keeps kp st0 s) :
    Keeps kp st0 (rswap h s) := by
  have := @clSwap_keeps
  unfold rswap; exact Keeps.chain

theorem State.setMirrors_keeps {kp : Parts} {st0 s : State} (h : Nat) (v : Nat) (hk : Keeps kp st0 s) :
    Keeps kp st0 (State.setMirrors s h v) := by
  have := @State.putBit_keeps
  have := @State.put_keeps
  unfold State.setMirrors; exact Keeps.chain

theorem clHmirWrite_keeps {kp : Parts} {st0 s : State} (h : Nat) (v : Word) (hk : Keeps kp st0 s) :
    Keeps kp st0 (clHmirWrite h v s) := by
  have := @Keeps.whenever
  have := @State.put_keeps
  have := @State.setMirrors_keeps
  unfold clHmirWrite; exact Keeps.chain

theorem msync_keeps {kp : Parts} {st0 s : State} (h : Nat) (rad : Bool) (hk : Keeps kp st0 s) :
    Keeps kp st0 (msync h rad s) := by
  have := @Keeps.whenever
  unfold msync; exact Keeps.chain

theorem State.mirrorDone_keeps {kp : Parts} {st0 s : State} (h : Nat) (i : Nat) (k_dram : kp.dram = true) (hk : Keeps kp st0 s) :
    Keeps kp st0 (State.mirrorDone s h i) := by
  have := @State.dramPut_keeps
  have := @State.put_keeps
  have := @State.putBit_keeps
  unfold State.mirrorDone; exact Keeps.chain

theorem clClrcnt_keeps {kp : Parts} {st0 s : State} (r : Nat) (hk : Keeps kp st0 s) :
    Keeps kp st0 (clClrcnt r s) := by
  have := @Keeps.whenever
  have := @State.setReg_keeps
  have := @State.put_keeps
  unfold clClrcnt; exact Keeps.chain

end Sys2Proof.Machine
end

