-- ==== Sys2Proof/Laws/KeepsCollation.lean ====
section
/-! SUPPORT. The operations of Machine/Collation.lean are in the relation `Keeps`: each lemma says what its operation may change. -/

set_option linter.tactic.unusedName false
set_option Elab.async false

namespace Sys2Proof.Machine

theorem State.modQuire_keeps {kp : Parts} {st0 s : State} (h : Nat) (seq : Nat) (q : Nat) (f : Quire → Quire) (hk : Keeps kp st0 s) :
    Keeps kp st0 (State.modQuire s h seq q f) := by
  unfold State.modQuire; exact Keeps.chain

theorem State.fifoNote_keeps {kp : Parts} {st0 s : State} (r : Nat) (hk : Keeps kp st0 s) :
    Keeps kp st0 (State.fifoNote s r) := by
  have := @State.put_keeps
  unfold State.fifoNote; exact Keeps.chain

theorem quireSlotWrite_keeps {kp : Parts} {st0 s : State} (r : Nat) (t : Nat) (hk : Keeps kp st0 s) :
    Keeps kp st0 (quireSlotWrite r t s) := by
  have := @State.at_keeps
  have := @State.modQuire_keeps
  unfold quireSlotWrite; exact Keeps.chain

theorem State.modPlacing_keeps {kp : Parts} {st0 s : State} (h : Nat) (f : Cap → Cap) (hk : Keeps kp st0 s) :
    Keeps kp st0 (State.modPlacing s h f) := by
  have := @State.modHead_keeps
  have := @State.modCap_keeps
  unfold State.modPlacing; exact Keeps.chain

theorem State.openQuire_keeps {kp : Parts} {st0 s : State} (h : Nat) (seq : Nat) (q : Nat) (hk : Keeps kp st0 s) :
    Keeps kp st0 (State.openQuire s h seq q) := by
  have := @State.bump_keeps
  unfold State.openQuire; exact Keeps.chain

theorem State.quireReady_keeps {kp : Parts} {st0 s : State} (h : Nat) (seq : Nat) (q : Nat) (hk : Keeps kp st0 s) :
    Keeps kp st0 (State.quireReady s h seq q) := by
  have := @State.modQuire_keeps
  unfold State.quireReady; exact Keeps.chain

theorem State.finishCapture_keeps {kp : Parts} {st0 s : State} (h : Nat) (c : Cap) (hk : Keeps kp st0 s) :
    Keeps kp st0 (State.finishCapture s h c) := by
  have := @State.modFrame_keeps
  have := @State.openQuire_keeps
  have := @State.quireReady_keeps
  unfold State.finishCapture; exact Keeps.chain

theorem State.settlePrev_keeps {kp : Parts} {st0 s : State} (h : Nat) (hk : Keeps kp st0 s) :
    Keeps kp st0 (State.settlePrev s h) := by
  have := @State.finishCapture_keeps
  have := @State.modHead_keeps
  unfold State.settlePrev; exact Keeps.chain

theorem State.settleCapture_keeps {kp : Parts} {st0 s : State} (h : Nat) (hk : Keeps kp st0 s) :
    Keeps kp st0 (State.settleCapture s h) := by
  have := @State.settlePrev_keeps
  have := @State.closeCap_keeps
  have := @State.finishCapture_keeps
  unfold State.settleCapture; exact Keeps.chain

theorem State.cutCapture_keeps {kp : Parts} {st0 s : State} (h : Nat) (hk : Keeps kp st0 s) :
    Keeps kp st0 (State.cutCapture s h) := by
  have := @State.modHead_keeps
  have := @State.settlePrev_keeps
  have := @State.modCap_keeps
  have := @State.closeCap_keeps
  have := @State.settleCapture_keeps
  unfold State.cutCapture; exact Keeps.chain

theorem State.turnCapture_keeps {kp : Parts} {st0 s : State} (h : Nat) (hk : Keeps kp st0 s) :
    Keeps kp st0 (State.turnCapture s h) := by
  have := @State.cutCapture_keeps
  have := @State.modHead_keeps
  have := @State.settlePrev_keeps
  have := @State.closeCap_keeps
  unfold State.turnCapture; exact Keeps.chain

theorem State.refRow_keeps {kp : Parts} {st0 s : State} (h : Nat) (f : Frame) (t0 : Nat) (cycles : List (List Int)) (hk : Keeps kp st0 s) :
    Keeps kp st0 (State.refRow s h f t0 cycles) := by
  have := @State.modPlacing_keeps
  unfold State.refRow; exact Keeps.chain

theorem State.actRow_keeps {kp : Parts} {st0 s : State} (h : Nat) (f : Frame) (t0 : Nat) (cycles : List (List Int)) (hk : Keeps kp st0 s) :
    Keeps kp st0 (State.actRow s h f t0 cycles) := by
  have := @State.modPlacing_keeps
  unfold State.actRow; exact Keeps.chain

theorem State.placeRef_keeps {kp : Parts} {st0 s : State} (h : Nat) (f : Frame) (t0 : Nat) (cycles : List (List Int)) (hk : Keeps kp st0 s) :
    Keeps kp st0 (State.placeRef s h f t0 cycles) := by
  have := @State.bump_keeps
  have := @State.refRow_keeps
  unfold State.placeRef; exact Keeps.chain

theorem State.dropLine_keeps {kp : Parts} {st0 s : State} (h : Nat) (f : Frame) (hk : Keeps kp st0 s) :
    Keeps kp st0 (State.dropLine s h f) := by
  have := @State.bump_keeps
  have := @State.modFrame_keeps
  unfold State.dropLine; exact Keeps.chain

theorem State.placeRow_keeps {kp : Parts} {st0 s : State} (h : Nat) (f : Frame) (y : Nat) (t0 : Nat) (cycles : List (List Int)) (hk : Keeps kp st0 s) :
    Keeps kp st0 (State.placeRow s h f y t0 cycles) := by
  have := @State.actRow_keeps
  have := @State.openQuire_keeps
  have := @State.dropLine_keeps
  have := @State.modFrame_keeps
  have := @State.modQuire_keeps
  have := @State.modPlacing_keeps
  have := @State.quireReady_keeps
  have := @State.fifoNote_keeps
  unfold State.placeRow; exact Keeps.chain

theorem collatorLinePlaced_keeps {kp : Parts} {st0 s : State} (h : Nat) (line : Nat) (cycles : List (List Int)) (t : Nat) (hk : Keeps kp st0 s) :
    Keeps kp st0 (collatorLinePlaced h line cycles t s) := by
  have := @State.settlePrev_keeps
  have := @Keeps.whenever
  have := @State.at_keeps
  have := @State.modPlacing_keeps
  have := @State.placeRef_keeps
  have := @State.placeRow_keeps
  have := @State.settleCapture_keeps
  unfold collatorLinePlaced; exact Keeps.chain

end Sys2Proof.Machine
end

