-- ==== Sys2Proof/Laws/KeepsEngines.lean ====
section
/-! SUPPORT. The operations of Machine/Engines.lean are in the relation `Keeps`: each lemma says what its operation may change. -/

set_option linter.tactic.unusedName false
set_option Elab.async false

namespace Sys2Proof.Machine

theorem State.planAsk_keeps {kp : Parts} {st0 s : State} (q : PlanReq) (hk : Keeps kp st0 s) :
    Keeps kp st0 (State.planAsk s q) := by
  have := @State.put_keeps
  unfold State.planAsk; exact Keeps.chain

theorem State.planAuto_keeps {kp : Parts} {st0 s : State} (hk : Keeps kp st0 s) :
    Keeps kp st0 (State.planAuto s) := by
  have := @State.planAsk_keeps
  unfold State.planAuto; exact Keeps.chain

theorem State.setCell_keeps {kp : Parts} {st0 s : State} (b : Nat) (n : Nat) (st : Nat) (hk : Keeps kp st0 s) :
    Keeps kp st0 (State.setCell s b n st) := by
  have := @State.put_keeps
  have := @State.putB_keeps
  unfold State.setCell; exact Keeps.chain

theorem State.modBlock_keeps {kp : Parts} {st0 s : State} (b : Nat) (f : BlockUnit → BlockUnit) (hk : Keeps kp st0 s) :
    Keeps kp st0 (State.modBlock s b f) := by
  unfold State.modBlock; exact Keeps.chain

theorem State.modCell_keeps {kp : Parts} {st0 s : State} (b : Nat) (c : Nat) (f : CellUnit → CellUnit) (hk : Keeps kp st0 s) :
    Keeps kp st0 (State.modCell s b c f) := by
  have := @State.modBlock_keeps
  unfold State.modCell; exact Keeps.chain

theorem State.cellRan_keeps {kp : Parts} {st0 s : State} (b : Nat) (c : Nat) (hk : Keeps kp st0 s) :
    Keeps kp st0 (State.cellRan s b c) := by
  have := @State.modCell_keeps
  unfold State.cellRan; exact Keeps.chain

theorem State.syncCx_keeps {kp : Parts} {st0 s : State} (r : Nat) (hk : Keeps kp st0 s) :
    Keeps kp st0 (State.syncCx s r) := by
  have := @State.put_keeps
  unfold State.syncCx; exact Keeps.chain

theorem State.shadowBegin_keeps {kp : Parts} {st0 s : State} (b : Nat) (hk : Keeps kp st0 s) :
    Keeps kp st0 (State.shadowBegin s b) := by
  have := @State.setCell_keeps
  have := @State.put_keeps
  have := @State.modBlock_keeps
  unfold State.shadowBegin; exact Keeps.chain

theorem State.shadowAsk_keeps {kp : Parts} {st0 s : State} (b : Nat) (hk : Keeps kp st0 s) :
    Keeps kp st0 (State.shadowAsk s b) := by
  have := @State.shadowBegin_keeps
  unfold State.shadowAsk; exact Keeps.chain

theorem State.shadowDrop_keeps {kp : Parts} {st0 s : State} (b : Nat) (hk : Keeps kp st0 s) :
    Keeps kp st0 (State.shadowDrop s b) := by
  unfold State.shadowDrop; exact Keeps.chain

theorem State.shadowEnd_keeps {kp : Parts} {st0 s : State} (b : Nat) (hk : Keeps kp st0 s) :
    Keeps kp st0 (State.shadowEnd s b) := by
  have := @State.churnDone_keeps
  unfold State.shadowEnd; exact Keeps.chain

theorem State.shadowStop_keeps {kp : Parts} {st0 s : State} (b : Nat) (hk : Keeps kp st0 s) :
    Keeps kp st0 (State.shadowStop s b) := by
  have := @State.setCell_keeps
  have := @State.shadowDrop_keeps
  have := @State.modBlock_keeps
  have := @State.put_keeps
  have := @State.churnDone_keeps
  unfold State.shadowStop; exact Keeps.chain

theorem State.shCount_keeps {kp : Parts} {st0 s : State} (b : Nat) (v : Word) (hk : Keeps kp st0 s) :
    Keeps kp st0 (State.shCount s b v) := by
  have := @State.put_keeps
  unfold State.shCount; exact Keeps.chain

theorem shCfgWrite_keeps {kp : Parts} {st0 s : State} (b : Nat) (v : Word) (hk : Keeps kp st0 s) :
    Keeps kp st0 (shCfgWrite b v s) := by
  have := @Keeps.whenever
  have := @State.put_keeps
  have := @State.shadowAsk_keeps
  have := @State.shadowStop_keeps
  unfold shCfgWrite; exact Keeps.chain

theorem spareRotation_keeps {kp : Parts} {st0 s : State} (b : Nat) (hk : Keeps kp st0 s) :
    Keeps kp st0 (spareRotation b s) := by
  have := @Keeps.whenever
  have := @State.setCell_keeps
  have := @State.bump_keeps
  have := @State.modBlock_keeps
  have := @State.shadowBegin_keeps
  unfold spareRotation; exact Keeps.chain

theorem State.quireReplay_keeps {kp : Parts} {st0 s : State} (q : Quire) (on : Option (Nat × Nat)) (hk : Keeps kp st0 s) :
    Keeps kp st0 (State.quireReplay s q on) := by
  have := @State.modQuire_keeps
  have := @State.bump_keeps
  have := @State.shadowEnd_keeps
  unfold State.quireReplay; exact Keeps.chain

theorem State.readsReplay_keeps {kp : Parts} {st0 s : State} (ch : Nat) (hk : Keeps kp st0 s) :
    Keeps kp st0 (State.readsReplay s ch) := by
  have := @State.modQuire_keeps
  have := @State.quireReplay_keeps
  unfold State.readsReplay; exact Keeps.chain

theorem State.retireCell_keeps {kp : Parts} {st0 s : State} (b : Nat) (c : Nat) (hk : Keeps kp st0 s) :
    Keeps kp st0 (State.retireCell s b c) := by
  have := @State.shadowStop_keeps
  have := @State.setCell_keeps
  have := @State.bump_keeps
  have := @State.persist_keeps
  have := @State.planAuto_keeps
  have := @State.quireReplay_keeps
  have := @State.shadowAsk_keeps
  have := @State.syncCx_keeps
  unfold State.retireCell; exact Keeps.chain

theorem State.retireBlock_keeps {kp : Parts} {st0 s : State} (b : Nat) (hk : Keeps kp st0 s) :
    Keeps kp st0 (State.retireBlock s b) := by
  have := @State.shadowStop_keeps
  have := @State.setCell_keeps
  have := @State.bump_keeps
  have := @State.quireReplay_keeps
  have := @State.persist_keeps
  have := @State.planAuto_keeps
  have := @State.syncCx_keeps
  unfold State.retireBlock; exact Keeps.chain

theorem unretire_keeps {kp : Parts} {st0 s : State} (b : Nat) (mask : Nat) (hk : Keeps kp st0 s) :
    Keeps kp st0 (unretire b mask s) := by
  have := @Keeps.whenever
  have := @State.modBlock_keeps
  unfold unretire; exact Keeps.chain

theorem unretireTestDone_keeps {kp : Parts} {st0 s : State} (b : Nat) (c : Nat) (pass : Bool) (hk : Keeps kp st0 s) :
    Keeps kp st0 (unretireTestDone b c pass s) := by
  have := @Keeps.whenever
  have := @State.modBlock_keeps
  have := @State.setCell_keeps
  have := @State.putBit_keeps
  have := @State.persist_keeps
  have := @State.shadowAsk_keeps
  unfold unretireTestDone; exact Keeps.chain

theorem enClrcnt_keeps {kp : Parts} {st0 s : State} (b : Nat) (hk : Keeps kp st0 s) :
    Keeps kp st0 (enClrcnt b s) := by
  have := @Keeps.whenever
  have := @State.setReg_keeps
  have := @State.put_keeps
  unfold enClrcnt; exact Keeps.chain

theorem State.loadCode_keeps {kp : Parts} {st0 s : State} (b : Nat) (k : Nat) (code : List Byte) (hk : Keeps kp st0 s) :
    Keeps kp st0 (State.loadCode s b k code) := by
  have := @State.modCell_keeps
  unfold State.loadCode; exact Keeps.chain

theorem State.mcFinish_keeps {kp : Parts} {st0 s : State} (code : Nat) (hk : Keeps kp st0 s) :
    Keeps kp st0 (State.mcFinish s code) := by
  have := @State.put_keeps
  have := @State.finishCmd_keeps
  unfold State.mcFinish; exact Keeps.chain

theorem State.mcNext_keeps {kp : Parts} {st0 s : State} (t : Nat) (hk : Keeps kp st0 s) :
    Keeps kp st0 (State.mcNext s t) := by
  have := @State.mcFinish_keeps
  have := @State.churnAsk_keeps
  unfold State.mcNext; exact Keeps.chain

theorem State.mcBegin_keeps {kp : Parts} {st0 s : State} (a : Nat) (mask : Nat) (cmd : Option (Nat × Nat)) (t : Nat) (hk : Keeps kp st0 s) :
    Keeps kp st0 (State.mcBegin s a mask cmd t) := by
  have := @State.finishCmd_keeps
  have := @State.put_keeps
  have := @State.mcNext_keeps
  unfold State.mcBegin; exact Keeps.chain

theorem mcLoad_keeps {kp : Parts} {st0 s : State} (v : Word) (hk : Keeps kp st0 s) :
    Keeps kp st0 (mcLoad v s) := by
  have := @Keeps.whenever
  have := @State.put_keeps
  have := @State.mcBegin_keeps
  unfold mcLoad; exact Keeps.chain

theorem microcodeBlockLoadDone_keeps {kp : Parts} {st0 s : State} (b : Nat) (hk : Keeps kp st0 s) :
    Keeps kp st0 (microcodeBlockLoadDone b s) := by
  have := @mcLoad_keeps
  have := @Keeps.whenever
  have := @State.churnDone_keeps
  have := @State.loadCode_keeps
  have := @State.put_keeps
  have := @State.putBit_keeps
  have := @State.mcNext_keeps
  have := @State.raise_keeps
  have := @State.mcFinish_keeps
  unfold microcodeBlockLoadDone; exact Keeps.chain

theorem mcInstall_keeps {kp : Parts} {st0 s : State} (hk : Keeps kp st0 s) :
    Keeps kp st0 (mcInstall s) := by
  have := @Keeps.whenever
  have := @State.putBit_keeps
  have := @State.persist_keeps
  unfold mcInstall; exact Keeps.chain

theorem mcSetmin_keeps {kp : Parts} {st0 s : State} (hk : Keeps kp st0 s) :
    Keeps kp st0 (mcSetmin s) := by
  have := @Keeps.whenever
  have := @State.put_keeps
  have := @State.persist_keeps
  unfold mcSetmin; exact Keeps.chain

theorem State.mcBoot_keeps {kp : Parts} {st0 s : State} (hk : Keeps kp st0 s) :
    Keeps kp st0 (State.mcBoot s) := by
  have := @State.loadCode_keeps
  have := @State.put_keeps
  have := @State.raise_keeps
  unfold State.mcBoot; exact Keeps.chain

theorem recipeLoadDone_keeps {kp : Parts} {st0 s : State} (hk : Keeps kp st0 s) :
    Keeps kp st0 (recipeLoadDone s) := by
  have := @State.put_keeps
  have := @State.putBit_keeps
  unfold recipeLoadDone; exact Keeps.chain

end Sys2Proof.Machine
end

