-- ==== Sys2Proof/Laws/KeepsCorrection.lean ====
section
/-! SUPPORT. The operations of Machine/Correction.lean are in the relation `Keeps`: each lemma says what its operation may change. -/

set_option linter.tactic.unusedName false
set_option Elab.async false

namespace Sys2Proof.Machine

theorem State.accAdd_keeps {kp : Parts} {st0 s : State} (a : Nat) (z : Option Int) (k_dram : kp.dram = true) (hk : Keeps kp st0 s) :
    Keeps kp st0 (State.accAdd s a z) := by
  have := @State.dramWrite_keeps
  unfold State.accAdd; exact Keeps.chain

theorem State.accQuire_keeps {kp : Parts} {st0 s : State} (q : Quire) (w : Nat) (px : List (List (Option Pix))) (rows : List (List Nat)) (second : Bool) (k_dram : kp.dram = true) (hk : Keeps kp st0 s) :
    Keeps kp st0 (State.accQuire s q w px rows second) := by
  have := @State.accAdd_keeps
  unfold State.accQuire; exact Keeps.chain

theorem quireDispatch_keeps {kp : Parts} {st0 s : State} (r : Nat) (t : Nat) (hk : Keeps kp st0 s) :
    Keeps kp st0 (quireDispatch r t s) := by
  have := @State.at_keeps
  have := @State.churnAsk_keeps
  have := @State.modQuire_keeps
  have := @State.syncCx_keeps
  unfold quireDispatch; exact Keeps.chain

theorem State.runQuire_keeps {kp : Parts} {st0 s : State} (f : Frame) (q : Quire) (k_dram : kp.dram = true) (hk : Keeps kp st0 s) :
    Keeps kp st0 (State.runQuire s f q) := by
  have := @State.accQuire_keeps
  have := @State.modQuire_keeps
  unfold State.runQuire; exact Keeps.chain

theorem State.noteAgree_keeps {kp : Parts} {st0 s : State} (b : Nat) (hk : Keeps kp st0 s) :
    Keeps kp st0 (State.noteAgree s b) := by
  have := @State.modBlock_keeps
  unfold State.noteAgree; exact Keeps.chain

theorem State.thirdRun_keeps {kp : Parts} {st0 s : State} (q : Quire) (hk : Keeps kp st0 s) :
    Keeps kp st0 (State.thirdRun s q) := by
  have := @State.modQuire_keeps
  unfold State.thirdRun; exact Keeps.chain

theorem quireFinished_keeps {kp : Parts} {st0 s : State} (b : Nat) (c : Nat) (agree : Bool) (k_dram : kp.dram = true) (hk : Keeps kp st0 s) :
    Keeps kp st0 (quireFinished b c agree s) := by
  have := @State.runQuire_keeps
  have := @State.cellRan_keeps
  have := @State.modQuire_keeps
  have := @State.noteAgree_keeps
  have := @State.modBlock_keeps
  have := @State.thirdRun_keeps
  have := @State.shadowEnd_keeps
  have := @State.syncCx_keeps
  unfold quireFinished; exact Keeps.chain

theorem shadowThirdRunDone_keeps {kp : Parts} {st0 s : State} (b : Nat) (target : List Word) (shadow : List Word) (third : List Word) (hk : Keeps kp st0 s) :
    Keeps kp st0 (shadowThirdRunDone b target shadow third s) := by
  have := @Keeps.whenever
  have := @State.cellRan_keeps
  have := @State.modQuire_keeps
  have := @State.syncCx_keeps
  have := @State.raise_keeps
  have := @State.bump_keeps
  have := @State.retireCell_keeps
  have := @State.put_keeps
  have := @State.shadowStop_keeps
  unfold shadowThirdRunDone; exact Keeps.chain

theorem residueMismatch_keeps {kp : Parts} {st0 s : State} (b : Nat) (c : Nat) (retryOk : Bool) (hk : Keeps kp st0 s) :
    Keeps kp st0 (residueMismatch b c retryOk s) := by
  have := @Keeps.whenever
  have := @State.bump_keeps
  have := @State.raise_keeps
  have := @State.retireCell_keeps
  unfold residueMismatch; exact Keeps.chain

theorem quireTimeout_keeps {kp : Parts} {st0 s : State} (b : Nat) (c : Nat) (t : Nat) (hk : Keeps kp st0 s) :
    Keeps kp st0 (quireTimeout b c t s) := by
  have := @Keeps.whenever
  have := @State.at_keeps
  have := @State.bump_keeps
  have := @State.raise_keeps
  have := @State.retireCell_keeps
  unfold quireTimeout; exact Keeps.chain

theorem sramSecdedError_keeps {kp : Parts} {st0 s : State} (b : Nat) (slot : Nat) (off : Nat) (unc : Bool) (hk : Keeps kp st0 s) :
    Keeps kp st0 (sramSecdedError b slot off unc s) := by
  have := @State.raise_keeps
  have := @State.modQuire_keeps
  unfold sramSecdedError; exact Keeps.chain

theorem State.dramNoteAt_keeps {kp : Parts} {st0 s : State} (ch : Nat) (a : Nat) (hk : Keeps kp st0 s) :
    Keeps kp st0 (State.dramNoteAt s ch a) := by
  have := @State.bump_keeps
  have := @State.put64_keeps
  unfold State.dramNoteAt; exact Keeps.chain

theorem State.dramUEAt_keeps {kp : Parts} {st0 s : State} (ch : Nat) (a : Nat) (hk : Keeps kp st0 s) :
    Keeps kp st0 (State.dramUEAt s ch a) := by
  have := @State.dramNoteAt_keeps
  have := @State.raise_keeps
  unfold State.dramUEAt; exact Keeps.chain

theorem State.dramNote_keeps {kp : Parts} {st0 s : State} (ch : Nat) (hk : Keeps kp st0 s) :
    Keeps kp st0 (State.dramNote s ch) := by
  have := @State.freshUpTo_keeps
  have := @State.dramNoteAt_keeps
  unfold State.dramNote; exact Keeps.chain

theorem State.dramUE_keeps {kp : Parts} {st0 s : State} (ch : Nat) (hk : Keeps kp st0 s) :
    Keeps kp st0 (State.dramUE s ch) := by
  have := @State.freshUpTo_keeps
  have := @State.dramUEAt_keeps
  unfold State.dramUE; exact Keeps.chain

theorem leafReadUe_keeps {kp : Parts} {st0 s : State} (b : Nat) (c : Nat) (ch : Nat) (res : Bool) (pixels : List Nat) (repeatFails : Bool) (hk : Keeps kp st0 s) :
    Keeps kp st0 (leafReadUe b c ch res pixels repeatFails s) := by
  have := @State.dramNote_keeps
  have := @State.dramUE_keeps
  have := @State.modQuire_keeps
  unfold leafReadUe; exact Keeps.chain

theorem cxClrcnt_keeps {kp : Parts} {st0 s : State} (r : Nat) (hk : Keeps kp st0 s) :
    Keeps kp st0 (cxClrcnt r s) := by
  have := @Keeps.whenever
  have := @State.setReg_keeps
  have := @State.put_keeps
  unfold cxClrcnt; exact Keeps.chain

theorem State.frameCorrected_keeps {kp : Parts} {st0 s : State} (f : Frame) (hk : Keeps kp st0 s) :
    Keeps kp st0 (State.frameCorrected s f) := by
  have := @State.put_keeps
  have := @State.bump_keeps
  have := @State.modFrame_keeps
  have := @State.raise_keeps
  unfold State.frameCorrected; exact Keeps.chain

theorem State.commitNext_keeps {kp : Parts} {st0 s : State} (h : Nat) (hk : Keeps kp st0 s) :
    Keeps kp st0 (State.commitNext s h).1 := by
  have := @State.modFrame_keeps
  have := @State.syncCx_keeps
  have := @State.sample_keeps
  have := @State.frameCorrected_keeps
  unfold State.commitNext; exact Keeps.chain

end Sys2Proof.Machine
end

