-- ==== Sys2Proof/Laws/KeepsShutter.lean ====
section
/-! SUPPORT. The operations of Machine/Shutter.lean are in the relation `Keeps`: each lemma says what its operation may change. -/

set_option linter.tactic.unusedName false
set_option Elab.async false

namespace Sys2Proof.Machine

theorem State.shutReject_keeps {kp : Parts} {st0 s : State} (h : Nat) (code : Nat) (cmd : Option (Nat × Nat)) (hk : Keeps kp st0 s) :
    Keeps kp st0 (State.shutReject s h code cmd) := by
  have := @State.put_keeps
  have := @State.finishCmd_keeps
  unfold State.shutReject; exact Keeps.chain

theorem State.shutRequest_keeps {kp : Parts} {st0 s : State} (h : Nat) (src : Nat) (cmd : Option (Nat × Nat)) (t : Nat) (hk : Keeps kp st0 s) :
    Keeps kp st0 (State.shutRequest s h src cmd t) := by
  have := @State.modShut_keeps
  have := @State.put_keeps
  have := @State.shutReject_keeps
  unfold State.shutRequest; exact Keeps.chain

theorem shreq_keeps {kp : Parts} {st0 s : State} (h : Nat) (hk : Keeps kp st0 s) :
    Keeps kp st0 (shreq h s) := by
  have := @Keeps.whenever
  have := @State.shutRequest_keeps
  unfold shreq; exact Keeps.chain

theorem shutterScheduleDue_keeps {kp : Parts} {st0 s : State} (h : Nat) (t : Nat) (hk : Keeps kp st0 s) :
    Keeps kp st0 (shutterScheduleDue h t s) := by
  have := @Keeps.whenever
  have := @State.at_keeps
  have := @State.shutRequest_keeps
  unfold shutterScheduleDue; exact Keeps.chain

theorem State.driftMonitor_keeps {kp : Parts} {st0 s : State} (h : Nat) (tfpa : Nat) (t : Nat) (hk : Keeps kp st0 s) :
    Keeps kp st0 (State.driftMonitor s h tfpa t) := by
  have := @State.shutRequest_keeps
  unfold State.driftMonitor; exact Keeps.chain

theorem State.shutCancel_keeps {kp : Parts} {st0 s : State} (h : Nat) (hk : Keeps kp st0 s) :
    Keeps kp st0 (State.shutCancel s h) := by
  have := @State.shutEnd_keeps
  unfold State.shutCancel; exact Keeps.chain

theorem shutterCancel_keeps {kp : Parts} {st0 s : State} (h : Nat) (hk : Keeps kp st0 s) :
    Keeps kp st0 (shutterCancel h s) := by
  have := @Keeps.whenever
  have := @State.shutCancel_keeps
  unfold shutterCancel; exact Keeps.chain

theorem breset_keeps {kp : Parts} {st0 s : State} (h : Nat) (hk : Keeps kp st0 s) :
    Keeps kp st0 (breset h s) := by
  have := @Keeps.whenever
  have := @State.modHead_keeps
  unfold breset; exact Keeps.chain

theorem quietWindowArm_keeps {kp : Parts} {st0 s : State} (h : Nat) (v : Word) (hk : Keeps kp st0 s) :
    Keeps kp st0 (quietWindowArm h v s) := by
  have := @Keeps.whenever
  have := @State.setReg_keeps
  have := @State.modShut_keeps
  unfold quietWindowArm; exact Keeps.chain

theorem quietWindowEnd_keeps {kp : Parts} {st0 s : State} (h : Nat) (t : Nat) (hk : Keeps kp st0 s) :
    Keeps kp st0 (quietWindowEnd h t s) := by
  have := @Keeps.whenever
  have := @State.at_keeps
  have := @State.modShut_keeps
  unfold quietWindowEnd; exact Keeps.chain

theorem State.shutGo_keeps {kp : Parts} {st0 s : State} (h : Nat) (hk : Keeps kp st0 s) :
    Keeps kp st0 (State.shutGo s h) := by
  have := @State.modShut_keeps
  have := @State.modHead_keeps
  have := @State.modFrame_keeps
  have := @State.slotHeld_keeps
  have := @State.put_keeps
  have := @State.driveOrder_keeps
  unfold State.shutGo; exact Keeps.chain

theorem State.shutClaim_keeps {kp : Parts} {st0 s : State} (h : Nat) (t : Nat) (hk : Keeps kp st0 s) :
    Keeps kp st0 (State.shutClaim s h t) := by
  have := @State.shutEnd_keeps
  have := @State.shutGo_keeps
  have := @State.churnAsk_keeps
  unfold State.shutClaim; exact Keeps.chain

theorem shutterEventStart_keeps {kp : Parts} {st0 s : State} (h : Nat) (t : Nat) (hk : Keeps kp st0 s) :
    Keeps kp st0 (shutterEventStart h t s) := by
  have := @Keeps.whenever
  have := @State.shutClaim_keeps
  unfold shutterEventStart; exact Keeps.chain

theorem shutterDeadline_keeps {kp : Parts} {st0 s : State} (h : Nat) (t : Nat) (hk : Keeps kp st0 s) :
    Keeps kp st0 (shutterDeadline h t s) := by
  have := @Keeps.whenever
  have := @State.shutClaim_keeps
  have := @State.shutEnd_keeps
  unfold shutterDeadline; exact Keeps.chain

theorem shutterEventTimeout_keeps {kp : Parts} {st0 s : State} (h : Nat) (hk : Keeps kp st0 s) :
    Keeps kp st0 (shutterEventTimeout h s) := by
  have := @Keeps.whenever
  have := @State.shutEnd_keeps
  unfold shutterEventTimeout; exact Keeps.chain

theorem State.accClear_keeps {kp : Parts} {st0 s : State} (h : Nat) (k_dram : kp.dram = true) (hk : Keeps kp st0 s) :
    Keeps kp st0 (State.accClear s h) := by
  have := @State.dramWrite_keeps
  unfold State.accClear; exact Keeps.chain

theorem State.shutRole_keeps {kp : Parts} {st0 s : State} (h : Nat) (k_dram : kp.dram = true) (hk : Keeps kp st0 s) :
    Keeps kp st0 (State.shutRole s h).2 := by
  have := @State.modShut_keeps
  have := @State.put_keeps
  have := @State.accClear_keeps
  unfold State.shutRole; exact Keeps.chain

theorem State.shutSlot_keeps {kp : Parts} {st0 s : State} (h : Nat) (hk : Keeps kp st0 s) :
    Keeps kp st0 (State.shutSlot s h) := by
  have := @State.modShut_keeps
  unfold State.shutSlot; exact Keeps.chain

theorem State.pairRetry_keeps {kp : Parts} {st0 s : State} (h : Nat) (hk : Keeps kp st0 s) :
    Keeps kp st0 (State.pairRetry s h) := by
  have := @State.modShut_keeps
  have := @State.put_keeps
  have := @State.shutEnd_keeps
  unfold State.pairRetry; exact Keeps.chain

theorem State.pairDone_keeps {kp : Parts} {st0 s : State} (h : Nat) (fa : Frame) (fb : Frame) (hk : Keeps kp st0 s) :
    Keeps kp st0 (State.pairDone s h fa fb) := by
  have := @State.put_keeps
  have := @State.pairRetry_keeps
  have := @State.shutEnd_keeps
  have := @State.driveOrder_keeps
  unfold State.pairDone; exact Keeps.chain

theorem State.shutFrameDone_keeps {kp : Parts} {st0 s : State} (f : Frame) (hk : Keeps kp st0 s) :
    Keeps kp st0 (State.shutFrameDone s f) := by
  have := @State.modShut_keeps
  have := @State.pairDone_keeps
  unfold State.shutFrameDone; exact Keeps.chain

theorem State.applyWrites_keeps {kp : Parts} {st0 s : State} (h : Nat) (fa : Frame) (fb : Frame) (k_dram : kp.dram = true) (hk : Keeps kp st0 s) :
    Keeps kp st0 (State.applyWrites s h fa fb) := by
  have := @State.dramWrite_keeps
  unfold State.applyWrites; exact Keeps.chain

theorem shutterApplyDone_keeps {kp : Parts} {st0 s : State} (h : Nat) (k_dram : kp.dram = true) (hk : Keeps kp st0 s) :
    Keeps kp st0 (shutterApplyDone h s) := by
  have := @Keeps.whenever
  have := @State.applyWrites_keeps
  have := @State.modShut_keeps
  unfold shutterApplyDone; exact Keeps.chain

theorem State.refitRequest_keeps {kp : Parts} {st0 s : State} (h : Nat) (cmd : Option (Nat × Nat)) (t : Nat) (hk : Keeps kp st0 s) :
    Keeps kp st0 (State.refitRequest s h cmd t) := by
  have := @State.put_keeps
  have := @State.finishCmd_keeps
  have := @State.churnAsk_keeps
  have := @State.modShut_keeps
  unfold State.refitRequest; exact Keeps.chain

theorem refit_keeps {kp : Parts} {st0 s : State} (h : Nat) (hk : Keeps kp st0 s) :
    Keeps kp st0 (refit h s) := by
  have := @Keeps.whenever
  have := @State.refitRequest_keeps
  unfold refit; exact Keeps.chain

theorem State.resumeStamp_keeps {kp : Parts} {st0 s : State} (h : Nat) (dt : Nat) (hk : Keeps kp st0 s) :
    Keeps kp st0 (State.resumeStamp s h dt) := by
  have := @State.put64_keeps
  have := @State.put_keeps
  unfold State.resumeStamp; exact Keeps.chain

theorem State.shutResume_keeps {kp : Parts} {st0 s : State} (h : Nat) (t : Nat) (hk : Keeps kp st0 s) :
    Keeps kp st0 (State.shutResume s h t) := by
  have := @State.swapNow_keeps
  have := @State.modHead_keeps
  have := @State.put_keeps
  have := @State.bump_keeps
  have := @State.resumeStamp_keeps
  have := @State.persist_keeps
  have := @State.shutResult_keeps
  have := @State.modShut_keeps
  have := @State.flushDeferred_keeps
  have := @State.refitRequest_keeps
  unfold State.shutResume; exact Keeps.chain

theorem State.refreshDone_keeps {kp : Parts} {st0 s : State} (f : Frame) (k_dram : kp.dram = true) (hk : Keeps kp st0 s) :
    Keeps kp st0 (State.refreshDone s f) := by
  have := @State.putB_keeps
  have := @State.put_keeps
  have := @State.modHead_keeps
  have := @State.dramWrite_keeps
  unfold State.refreshDone; exact Keeps.chain

theorem State.refreshSwap_keeps {kp : Parts} {st0 s : State} (h : Nat) (hk : Keeps kp st0 s) :
    Keeps kp st0 (State.refreshSwap s h) := by
  have := @State.swapNow_keeps
  have := @State.modHead_keeps
  have := @State.put_keeps
  unfold State.refreshSwap; exact Keeps.chain

theorem State.refreshPick_keeps {kp : Parts} {st0 s : State} (h : Nat) (hk : Keeps kp st0 s) :
    Keeps kp st0 (State.refreshPick s h).2 := by
  have := @State.putB_keeps
  have := @State.modHead_keeps
  unfold State.refreshPick; exact Keeps.chain

theorem State.refitEnd_keeps {kp : Parts} {st0 s : State} (h : Nat) (code : Nat) (hk : Keeps kp st0 s) :
    Keeps kp st0 (State.refitEnd s h code) := by
  have := @State.put_keeps
  have := @State.raise_keeps
  have := @State.finishCmd_keeps
  have := @State.modShut_keeps
  have := @State.churnDone_keeps
  unfold State.refitEnd; exact Keeps.chain

theorem refitStart_keeps {kp : Parts} {st0 s : State} (h : Nat) (hk : Keeps kp st0 s) :
    Keeps kp st0 (refitStart h s) := by
  have := @Keeps.whenever
  have := @State.put_keeps
  have := @State.modShut_keeps
  unfold refitStart; exact Keeps.chain

theorem refitComputeDone_keeps {kp : Parts} {st0 s : State} (h : Nat) (hk : Keeps kp st0 s) :
    Keeps kp st0 (refitComputeDone h s) := by
  have := @Keeps.whenever
  have := @State.put_keeps
  have := @State.refitEnd_keeps
  have := @State.churnAsk_keeps
  have := @State.modShut_keeps
  unfold refitComputeDone; exact Keeps.chain

theorem refitWritesDone_keeps {kp : Parts} {st0 s : State} (h : Nat) (k_dram : kp.dram = true) (hk : Keeps kp st0 s) :
    Keeps kp st0 (refitWritesDone h s) := by
  have := @Keeps.whenever
  have := @State.refitEnd_keeps
  have := @State.dramWrite_keeps
  have := @State.modShut_keeps
  unfold refitWritesDone; exact Keeps.chain

theorem State.refitSwapNow_keeps {kp : Parts} {st0 s : State} (h : Nat) (hk : Keeps kp st0 s) :
    Keeps kp st0 (State.refitSwapNow s h) := by
  have := @State.swapNow_keeps
  have := @State.refitEnd_keeps
  unfold State.refitSwapNow; exact Keeps.chain

end Sys2Proof.Machine
end

