-- ==== Sys2Proof/Laws/KeepsRadiometry.lean ====
section
/-! SUPPORT. The operations of Machine/Radiometry.lean are in the relation `Keeps`: each lemma says what its operation may change. -/

set_option linter.tactic.unusedName false
set_option Elab.async false

namespace Sys2Proof.Machine

theorem State.radReadLost_keeps {kp : Parts} {st0 s : State} (f : Frame) (hk : Keeps kp st0 s) :
    Keeps kp st0 (State.radReadLost s f) := by
  have := @State.modFrame_keeps
  have := @State.put_keeps
  unfold State.radReadLost; exact Keeps.chain

theorem State.radFrameStart_keeps {kp : Parts} {st0 s : State} (f : Frame) (hk : Keeps kp st0 s) :
    Keeps kp st0 (State.radFrameStart s f) := by
  have := @State.put_keeps
  have := @State.putB_keeps
  have := @State.radReadLost_keeps
  unfold State.radFrameStart; exact Keeps.chain

theorem State.radSwapNow_keeps {kp : Parts} {st0 s : State} (h : Nat) (hk : Keeps kp st0 s) :
    Keeps kp st0 (State.radSwapNow s h) := by
  have := @State.put_keeps
  unfold State.radSwapNow; exact Keeps.chain

theorem fpSwap_keeps {kp : Parts} {st0 s : State} (h : Nat) (hk : Keeps kp st0 s) :
    Keeps kp st0 (fpSwap h s) := by
  have := @Keeps.whenever
  have := @State.put_keeps
  have := @State.radSwapNow_keeps
  have := @State.swapRefuse_keeps
  unfold fpSwap; exact Keeps.chain

theorem State.setRcfg_keeps {kp : Parts} {st0 s : State} (h : Nat) (v : Nat) (hk : Keeps kp st0 s) :
    Keeps kp st0 (State.setRcfg s h v) := by
  have := @State.put_keeps
  have := @State.putB_keeps
  unfold State.setRcfg; exact Keeps.chain

theorem radiometricSetReadUe_keeps {kp : Parts} {st0 s : State} (h : Nat) (ch : Nat) (job : Bool) (repeatFails : Bool) (hk : Keeps kp st0 s) :
    Keeps kp st0 (radiometricSetReadUe h ch job repeatFails s) := by
  have := @Keeps.whenever
  have := @State.dramNote_keeps
  have := @State.dramUE_keeps
  have := @State.put_keeps
  have := @State.modFrame_keeps
  unfold radiometricSetReadUe; exact Keeps.chain

end Sys2Proof.Machine
end

