-- ==== Sys2Proof/Laws/KeepsRingOps.lean ====
section
/-! SUPPORT. The operations of Machine/RingOps.lean are in the relation `Keeps`: each lemma says what its operation may change. -/

set_option linter.tactic.unusedName false
set_option Elab.async false

namespace Sys2Proof.Machine

theorem State.setRing_keeps {kp : Parts} {st0 s : State} (id : Nat) (u : RingUnit) (k_dram : kp.dram = true) (hk : Keeps kp st0 s) :
    Keeps kp st0 (State.setRing s id u) := by
  have := @State.dramWrite_keeps
  unfold State.setRing; exact Keeps.chain

theorem State.modRingU_keeps {kp : Parts} {st0 s : State} (id : Nat) (f : RingUnit → RingUnit) (k_dram : kp.dram = true) (hk : Keeps kp st0 s) :
    Keeps kp st0 (State.modRingU s id f) := by
  have := @State.setRing_keeps
  unfold State.modRingU; exact Keeps.chain

theorem State.modCtx_keeps {kp : Parts} {st0 s : State} (id : Nat) (f : RingCtx → RingCtx) (k_dram : kp.dram = true) (hk : Keeps kp st0 s) :
    Keeps kp st0 (State.modCtx s id f) := by
  have := @State.modRingU_keeps
  unfold State.modCtx; exact Keeps.chain

theorem State.msixSend_keeps {kp : Parts} {st0 s : State} (f : Nat) (v : Nat) (k_host : kp.host = true) (hk : Keeps kp st0 s) :
    Keeps kp st0 (State.msixSend s f v) := by
  have := @State.setReg_keeps
  have := @State.hostWrite_keeps
  unfold State.msixSend; exact Keeps.chain

theorem State.ringMessage_keeps {kp : Parts} {st0 s : State} (id : Nat) (k_dram : kp.dram = true) (k_host : kp.host = true) (hk : Keeps kp st0 s) :
    Keeps kp st0 (State.ringMessage s id) := by
  have := @State.modRingU_keeps
  have := @State.msixSend_keeps
  unfold State.ringMessage; exact Keeps.chain

theorem State.ringModerate_keeps {kp : Parts} {st0 s : State} (id : Nat) (k_dram : kp.dram = true) (k_host : kp.host = true) (hk : Keeps kp st0 s) :
    Keeps kp st0 (State.ringModerate s id) := by
  have := @State.modRingU_keeps
  have := @State.ringMessage_keeps
  unfold State.ringModerate; exact Keeps.chain

theorem State.postRecord_keeps {kp : Parts} {st0 s : State} (id : Nat) (bs : List Byte) (k_dram : kp.dram = true) (k_host : kp.host = true) (hk : Keeps kp st0 s) :
    Keeps kp st0 (State.postRecord s id bs) := by
  have := @State.hostWrite_keeps
  have := @State.modCtx_keeps
  have := @State.ringModerate_keeps
  unfold State.postRecord; exact Keeps.chain

theorem State.loseRecord_keeps {kp : Parts} {st0 s : State} (id : Nat) (t : Nat) (k_dram : kp.dram = true) (hk : Keeps kp st0 s) :
    Keeps kp st0 (State.loseRecord s id t) := by
  have := @State.modRingU_keeps
  unfold State.loseRecord; exact Keeps.chain

theorem State.postEvent_keeps {kp : Parts} {st0 s : State} (id : Nat) (bs : List Byte) (k_dram : kp.dram = true) (hk : Keeps kp st0 s) :
    Keeps kp st0 (State.postEvent s id bs) := by
  have := @State.modCtx_keeps
  have := @State.loseRecord_keeps
  have := @State.modRingU_keeps
  unfold State.postEvent; exact Keeps.chain

theorem State.syncC0_keeps {kp : Parts} {st0 s : State} (hk : Keeps kp st0 s) :
    Keeps kp st0 (State.syncC0 s) := by
  have := @State.put_keeps
  unfold State.syncC0; exact Keeps.chain

theorem State.haltRing_keeps {kp : Parts} {st0 s : State} (id : Nat) (err : Nat) (k_dram : kp.dram = true) (hk : Keeps kp st0 s) :
    Keeps kp st0 (State.haltRing s id err) := by
  have := @State.modRingU_keeps
  have := @State.modCtx_keeps
  have := @State.postEvent_keeps
  unfold State.haltRing; exact Keeps.chain

theorem State.ctxUe_keeps {kp : Parts} {st0 s : State} (a : Nat) (k_dram : kp.dram = true) (hk : Keeps kp st0 s) :
    Keeps kp st0 (State.ctxUe s a) := by
  have := @State.haltRing_keeps
  unfold State.ctxUe; exact Keeps.chain

theorem State.ctxHalts_keeps {kp : Parts} {st0 s : State} (k_dram : kp.dram = true) (hk : Keeps kp st0 s) :
    Keeps kp st0 (State.ctxHalts s) := by
  have := @State.haltRing_keeps
  unfold State.ctxHalts; exact Keeps.chain

theorem State.loseWaiting_keeps {kp : Parts} {st0 s : State} (id : Nat) (p : BufRec → Bool) (reason : Nat) (k_dram : kp.dram = true) (hk : Keeps kp st0 s) :
    Keeps kp st0 (State.loseWaiting s id p reason) := by
  have := @State.modRingU_keeps
  unfold State.loseWaiting; exact Keeps.chain

theorem State.addGap_keeps {kp : Parts} {st0 s : State} (id : Nat) (b : BufRec) (reason : Nat) (k_dram : kp.dram = true) (hk : Keeps kp st0 s) :
    Keeps kp st0 (State.addGap s id b reason) := by
  have := @State.modRingU_keeps
  unfold State.addGap; exact Keeps.chain

theorem State.gapAll_keeps {kp : Parts} {st0 s : State} (b : BufRec) (reason : Nat) (k_dram : kp.dram = true) (hk : Keeps kp st0 s) :
    Keeps kp st0 (State.gapAll s b reason) := by
  have := @State.addGap_keeps
  unfold State.gapAll; exact Keeps.chain

theorem State.placeWaiting_keeps {kp : Parts} {st0 s : State} (id : Nat) (k_dram : kp.dram = true) (hk : Keeps kp st0 s) :
    Keeps kp st0 (State.placeWaiting s id) := by
  have := @State.loseWaiting_keeps
  have := @State.modRingU_keeps
  unfold State.placeWaiting; exact Keeps.chain

theorem State.offer_keeps {kp : Parts} {st0 s : State} (id : Nat) (b : BufRec) (k_dram : kp.dram = true) (hk : Keeps kp st0 s) :
    Keeps kp st0 (State.offer s id b) := by
  have := @State.loseWaiting_keeps
  have := @State.modRingU_keeps
  have := @State.placeWaiting_keeps
  unfold State.offer; exact Keeps.chain

theorem State.postGaps_keeps {kp : Parts} {st0 s : State} (id : Nat) (n : Nat) (k_dram : kp.dram = true) (k_host : kp.host = true) (hk : Keeps kp st0 s) :
    Keeps kp st0 (State.postGaps s id n) := by
  have := @State.modRingU_keeps
  have := @State.postRecord_keeps
  induction n generalizing s with
  | zero => unfold State.postGaps; exact Keeps.chain
  | succ n ih => unfold State.postGaps; exact Keeps.chain

theorem State.flushGaps_keeps {kp : Parts} {st0 s : State} (id : Nat) (k_dram : kp.dram = true) (k_host : kp.host = true) (hk : Keeps kp st0 s) :
    Keeps kp st0 (State.flushGaps s id) := by
  have := @State.postGaps_keeps
  unfold State.flushGaps; exact Keeps.chain

end Sys2Proof.Machine
end

