-- ==== Sys2Proof/Laws/KeepsStats.lean ====
section
/-! SUPPORT. The operations of Machine/Stats.lean are in the relation `Keeps`: each lemma says what its operation may change. -/

set_option linter.tactic.unusedName false
set_option Elab.async false

namespace Sys2Proof.Machine

theorem State.modAlarm_keeps {kp : Parts} {st0 s : State} (h : Nat) (f : AlarmUnit → AlarmUnit) (hk : Keeps kp st0 s) :
    Keeps kp st0 (State.modAlarm s h f) := by
  unfold State.modAlarm; exact Keeps.chain

theorem State.putRaised_keeps {kp : Parts} {st0 s : State} (h : Nat) (n : Nat) (b : Bool) (hk : Keeps kp st0 s) :
    Keeps kp st0 (State.putRaised s h n b) := by
  have := @State.putBit_keeps
  unfold State.putRaised; exact Keeps.chain

theorem State.postAlarm_keeps {kp : Parts} {st0 s : State} (f : Frame) (en : Bool) (ring : Nat) (type : Nat) (n : Nat) (flags : Nat) (zdt : Nat) (v : Int) (ezc : Nat) (ezr : Nat) (k_dram : kp.dram = true) (hk : Keeps kp st0 s) :
    Keeps kp st0 (State.postAlarm s f en ring type n flags zdt v ezc ezr) := by
  have := @State.postEvent_keeps
  unfold State.postAlarm; exact Keeps.chain

theorem State.ruleStep_keeps {kp : Parts} {st0 s : State} (f : Frame) (n : Nat) (r : AlarmRule) (q : Int × Nat × Nat) (k_dram : kp.dram = true) (hk : Keeps kp st0 s) :
    Keeps kp st0 (State.ruleStep s f n r q) := by
  have := @State.modAlarm_keeps
  have := @State.putRaised_keeps
  have := @State.bump_keeps
  have := @State.modFrame_keeps
  have := @State.postAlarm_keeps
  unfold State.ruleStep; exact Keeps.chain

theorem State.evalRules_keeps {kp : Parts} {st0 s : State} (f : Frame) (zones : List Acc) (rows : Nat) (atEnd : Bool) (k_dram : kp.dram = true) (hk : Keeps kp st0 s) :
    Keeps kp st0 (State.evalRules s f zones rows atEnd) := by
  have := @State.modFrame_keeps
  have := @State.ruleStep_keeps
  unfold State.evalRules; exact Keeps.chain

theorem State.postClear_keeps {kp : Parts} {st0 s : State} (f : Frame) (n : Nat) (k_dram : kp.dram = true) (hk : Keeps kp st0 s) :
    Keeps kp st0 (State.postClear s f n) := by
  have := @State.freshUpTo_keeps
  have := @State.postAlarm_keeps
  unfold State.postClear; exact Keeps.chain

theorem State.clearsPost_keeps {kp : Parts} {st0 s : State} (f : Frame) (k_dram : kp.dram = true) (hk : Keeps kp st0 s) :
    Keeps kp st0 (State.clearsPost s f) := by
  have := @State.postClear_keeps
  have := @State.modFrame_keeps
  unfold State.clearsPost; exact Keeps.chain

theorem State.ruleReset_keeps {kp : Parts} {st0 s : State} (f : Frame) (n : Nat) (k_dram : kp.dram = true) (hk : Keeps kp st0 s) :
    Keeps kp st0 (State.ruleReset s f n) := by
  have := @State.modAlarm_keeps
  have := @State.putRaised_keeps
  have := @State.postClear_keeps
  have := @State.modFrame_keeps
  unfold State.ruleReset; exact Keeps.chain

theorem State.alarmFrameStart_keeps {kp : Parts} {st0 s : State} (f : Frame) (k_dram : kp.dram = true) (hk : Keeps kp st0 s) :
    Keeps kp st0 (State.alarmFrameStart s f) := by
  have := @State.modAlarm_keeps
  have := @State.ruleReset_keeps
  have := @State.put_keeps
  unfold State.alarmFrameStart; exact Keeps.chain

theorem stClrcnt_keeps {kp : Parts} {st0 s : State} (hk : Keeps kp st0 s) :
    Keeps kp st0 (stClrcnt s) := by
  have := @Keeps.whenever
  have := @Keeps.forEach
  have := @State.setReg_keeps
  unfold stClrcnt; exact Keeps.chain

end Sys2Proof.Machine
end

