-- ==== Sys2Proof/Laws/KeepsFinishing.lean ====
section
/-! SUPPORT. The operations of Machine/Finishing.lean are in the relation `Keeps`: each lemma says what its operation may change. -/

set_option linter.tactic.unusedName false
set_option Elab.async false

namespace Sys2Proof.Machine

theorem State.modPipe_keeps {kp : Parts} {st0 s : State} (r : Nat) (f : PipeUnit → PipeUnit) (hk : Keeps kp st0 s) :
    Keeps kp st0 (State.modPipe s r f) := by
  unfold State.modPipe; exact Keeps.chain

theorem State.tmChoose_keeps {kp : Parts} {st0 s : State} (f : Frame) (hk : Keeps kp st0 s) :
    Keeps kp st0 (State.tmChoose s f) := by
  have := @State.slotHeld_keeps
  have := @State.bump_keeps
  have := @State.put_keeps
  have := @State.raise_keeps
  have := @State.modHead_keeps
  have := @State.modFrame_keeps
  unfold State.tmChoose; exact Keeps.chain

theorem State.tmWrite_keeps {kp : Parts} {st0 s : State} (f : Frame) (q : Quire) (k_dram : kp.dram = true) (hk : Keeps kp st0 s) :
    Keeps kp st0 (State.tmWrite s f q) := by
  have := @State.fresh_keeps
  have := @State.dramWrite_keeps
  unfold State.tmWrite; exact Keeps.chain

theorem State.pipeLoses_keeps {kp : Parts} {st0 s : State} (f : Frame) (px : List Nat) (lines : List Nat) (hk : Keeps kp st0 s) :
    Keeps kp st0 (State.pipeLoses s f px lines) := by
  have := @State.modFrame_keeps
  unfold State.pipeLoses; exact Keeps.chain

theorem quireCommit_keeps {kp : Parts} {st0 s : State} (h : Nat) (t : Nat) (k_dram : kp.dram = true) (hk : Keeps kp st0 s) :
    Keeps kp st0 (quireCommit h t s) := by
  have := @State.at_keeps
  have := @State.tmChoose_keeps
  have := @State.tmWrite_keeps
  have := @State.commitNext_keeps
  have := @State.modFrame_keeps
  have := @State.refreshDone_keeps
  have := @State.shutFrameDone_keeps
  unfold quireCommit; exact Keeps.chain

theorem State.modPort_keeps {kp : Parts} {st0 s : State} (v : Nat) (f : CsiPort → CsiPort) (hk : Keeps kp st0 s) :
    Keeps kp st0 (State.modPort s v f) := by
  unfold State.modPort; exact Keeps.chain

theorem State.reclaim_keeps {kp : Parts} {st0 s : State} (b : BufRec) (k_dram : kp.dram = true) (hk : Keeps kp st0 s) :
    Keeps kp st0 (State.reclaim s b) := by
  have := @State.loseWaiting_keeps
  have := @Keeps.forEach
  have := @State.modPort_keeps
  unfold State.reclaim; exact Keeps.chain

theorem State.chooseBuf_keeps {kp : Parts} {st0 s : State} (f : Frame) (kind : Nat) (good : Bool) (k_dram : kp.dram = true) (hk : Keeps kp st0 s) :
    Keeps kp st0 (State.chooseBuf s f kind good).1 := by
  have := @State.reclaim_keeps
  have := @State.modHead_keeps
  have := @State.bump_keeps
  unfold State.chooseBuf; exact Keeps.chain

theorem State.modBuf_keeps {kp : Parts} {st0 s : State} (b : BufRec) (f : BufRec → BufRec) (hk : Keeps kp st0 s) :
    Keeps kp st0 (State.modBuf s b f) := by
  unfold State.modBuf; exact Keeps.chain

theorem State.noteLast_keeps {kp : Parts} {st0 s : State} (b : BufRec) (hk : Keeps kp st0 s) :
    Keeps kp st0 (State.noteLast s b) := by
  have := @State.put_keeps
  unfold State.noteLast; exact Keeps.chain

theorem State.bufComplete_keeps {kp : Parts} {st0 s : State} (b : BufRec) (hk : Keeps kp st0 s) :
    Keeps kp st0 (State.bufComplete s b) := by
  have := @State.modBuf_keeps
  have := @State.noteLast_keeps
  unfold State.bufComplete; exact Keeps.chain

theorem State.beginFrame_keeps {kp : Parts} {st0 s : State} (f : Frame) (k_dram : kp.dram = true) (hk : Keeps kp st0 s) :
    Keeps kp st0 (State.beginFrame s f) := by
  have := @State.radReadLost_keeps
  have := @State.chooseBuf_keeps
  have := @State.modFrame_keeps
  unfold State.beginFrame; exact Keeps.chain

theorem State.writeKind_keeps {kp : Parts} {st0 s : State} (f : Frame) (kind : Nat) (idx : Nat) (free : Nat) (rows : List (Option (List RadPix))) (thr : Bool) (d : Digest) (hist : Hist) (zones : List Acc) (k_dram : kp.dram = true) (hk : Keeps kp st0 s) :
    Keeps kp st0 (State.writeKind s f kind idx free rows thr d hist zones) := by
  have := @State.modBuf_keeps
  have := @State.dramWrite_keeps
  unfold State.writeKind; exact Keeps.chain

theorem State.finishFrame_keeps {kp : Parts} {st0 s : State} (f : Frame) (k_dram : kp.dram = true) (hk : Keeps kp st0 s) :
    Keeps kp st0 (State.finishFrame s f) := by
  have := @State.evalRules_keeps
  have := @State.put_keeps
  have := @State.modFrame_keeps
  have := @State.modHead_keeps
  have := @State.fresh_keeps
  have := @State.writeKind_keeps
  unfold State.finishFrame; exact Keeps.chain

theorem State.pipeError_keeps {kp : Parts} {st0 s : State} (r : Nat) (f : Frame) (e : PipeError) (hk : Keeps kp st0 s) :
    Keeps kp st0 (State.pipeError s r f e) := by
  have := @State.raise_keeps
  have := @State.pipeLoses_keeps
  have := @State.bump_keeps
  have := @State.dramUE_keeps
  unfold State.pipeError; exact Keeps.chain

theorem pipeQuireTake_keeps {kp : Parts} {st0 s : State} (r : Nat) (e : PipeError) (t : Nat) (k_dram : kp.dram = true) (hk : Keeps kp st0 s) :
    Keeps kp st0 (pipeQuireTake r e t s) := by
  have := @Keeps.whenever
  have := @State.at_keeps
  have := @State.bump_keeps
  have := @State.modPipe_keeps
  have := @State.beginFrame_keeps
  have := @State.pipeError_keeps
  have := @State.pipeLoses_keeps
  have := @State.modFrame_keeps
  have := @State.finishFrame_keeps
  have := @State.put_keeps
  have := @State.evalRules_keeps
  unfold pipeQuireTake; exact Keeps.chain

theorem State.writeHeld_keeps {kp : Parts} {st0 s : State} (f : Frame) (k_dram : kp.dram = true) (hk : Keeps kp st0 s) :
    Keeps kp st0 (State.writeHeld s f) := by
  have := @State.chooseBuf_keeps
  have := @State.modBuf_keeps
  have := @State.dramWrite_keeps
  have := @State.modFrame_keeps
  unfold State.writeHeld; exact Keeps.chain

theorem State.heldAtSlot_keeps {kp : Parts} {st0 s : State} (f : Frame) (k_dram : kp.dram = true) (hk : Keeps kp st0 s) :
    Keeps kp st0 (State.heldAtSlot s f) := by
  have := @State.writeHeld_keeps
  unfold State.heldAtSlot; exact Keeps.chain

theorem State.offerCsi_keeps {kp : Parts} {st0 s : State} (b : BufRec) (hk : Keeps kp st0 s) :
    Keeps kp st0 (State.offerCsi s b) := by
  have := @Keeps.forEach
  have := @State.bump_keeps
  have := @State.modPort_keeps
  unfold State.offerCsi; exact Keeps.chain

theorem State.reportFrame_keeps {kp : Parts} {st0 s : State} (f : Frame) (k_dram : kp.dram = true) (hk : Keeps kp st0 s) :
    Keeps kp st0 (State.reportFrame s f) := by
  have := @State.bufComplete_keeps
  have := @State.offer_keeps
  have := @State.offerCsi_keeps
  have := @State.gapAll_keeps
  have := @State.sample_keeps
  have := @State.modFrame_keeps
  unfold State.reportFrame; exact Keeps.chain

theorem State.sweepFrames_keeps {kp : Parts} {st0 s : State} (hk : Keeps kp st0 s) :
    Keeps kp st0 (State.sweepFrames s) := by
  unfold State.sweepFrames; exact Keeps.chain

theorem State.gapThrottled_keeps {kp : Parts} {st0 s : State} (f : Frame) (k_dram : kp.dram = true) (hk : Keeps kp st0 s) :
    Keeps kp st0 (State.gapThrottled s f) := by
  have := @State.gapAll_keeps
  have := @State.modFrame_keeps
  unfold State.gapThrottled; exact Keeps.chain

theorem State.reportNext_keeps {kp : Parts} {st0 s : State} (h : Nat) (n : Nat) (k_dram : kp.dram = true) (hk : Keeps kp st0 s) :
    Keeps kp st0 (State.reportNext s h n) := by
  have := @State.clearsPost_keeps
  have := @State.gapThrottled_keeps
  have := @State.writeHeld_keeps
  have := @State.reportFrame_keeps
  induction n generalizing s with
  | zero => unfold State.reportNext; exact Keeps.chain
  | succ n ih => unfold State.reportNext; exact Keeps.chain

theorem frameReport_keeps {kp : Parts} {st0 s : State} (h : Nat) (t : Nat) (k_dram : kp.dram = true) (hk : Keeps kp st0 s) :
    Keeps kp st0 (frameReport h t s) := by
  have := @Keeps.whenever
  have := @State.at_keeps
  have := @State.reportNext_keeps
  have := @State.sweepFrames_keeps
  unfold frameReport; exact Keeps.chain

theorem fpClrcnt_keeps {kp : Parts} {st0 s : State} (r : Nat) (hk : Keeps kp st0 s) :
    Keeps kp st0 (fpClrcnt r s) := by
  have := @Keeps.whenever
  have := @State.put_keeps
  have := @State.setReg_keeps
  unfold fpClrcnt; exact Keeps.chain

end Sys2Proof.Machine
end

