-- ==== Sys2Proof/Laws/KeepsCsi.lean ====
section
/-! SUPPORT. The operations of Machine/Csi.lean are in the relation `Keeps`: each lemma says what its operation may change. -/

set_option linter.tactic.unusedName false
set_option Elab.async false

namespace Sys2Proof.Machine

theorem State.showLoad_keeps {kp : Parts} {st0 s : State} (v : Nat) (from_ : State) (hk : Keeps kp st0 s) :
    Keeps kp st0 (State.showLoad s v from_) := by
  have := @State.put_keeps
  unfold State.showLoad; exact Keeps.chain

theorem State.syncCsi_keeps {kp : Parts} {st0 s : State} (v : Nat) (hk : Keeps kp st0 s) :
    Keeps kp st0 (State.syncCsi s v) := by
  have := @State.putB_keeps
  unfold State.syncCsi; exact Keeps.chain

theorem State.csiFinish_keeps {kp : Parts} {st0 s : State} (hk : Keeps kp st0 s) :
    Keeps kp st0 (State.csiFinish s) := by
  have := @Keeps.forEach
  have := @State.modPort_keeps
  have := @State.bump_keeps
  unfold State.csiFinish; exact Keeps.chain

theorem State.csiStop_keeps {kp : Parts} {st0 s : State} (hk : Keeps kp st0 s) :
    Keeps kp st0 (State.csiStop s) := by
  have := @Keeps.forEach
  have := @State.modPort_keeps
  have := @State.syncCsi_keeps
  unfold State.csiStop; exact Keeps.chain

theorem State.txClear_keeps {kp : Parts} {st0 s : State} (v : Nat) (hk : Keeps kp st0 s) :
    Keeps kp st0 (State.txClear s v) := by
  have := @State.setReg_keeps
  unfold State.txClear; exact Keeps.chain

theorem State.txSetup_keeps {kp : Parts} {st0 s : State} (v : Nat) (f : State → State) (h_f : ∀  x, Keeps kp st0 x → Keeps kp st0 (f  x)) (hk : Keeps kp st0 s) :
    Keeps kp st0 (State.txSetup s v f) := by
  have := @State.put_keeps
  unfold State.txSetup; exact Keeps.chain

theorem State.txReject_keeps {kp : Parts} {st0 s : State} (v : Nat) (hk : Keeps kp st0 s) :
    Keeps kp st0 (State.txReject s v) := by
  have := @State.put_keeps
  unfold State.txReject; exact Keeps.chain

theorem txCfgWrite_keeps {kp : Parts} {st0 s : State} (p : Nat) (v : Word) (hk : Keeps kp st0 s) :
    Keeps kp st0 (txCfgWrite p v s) := by
  have := @Keeps.whenever
  have := @State.txSetup_keeps
  have := @State.txReject_keeps
  have := @State.txClear_keeps
  have := @State.setReg_keeps
  have := @State.put_keeps
  have := @State.showLoad_keeps
  have := @State.modPort_keeps
  unfold txCfgWrite; exact Keeps.chain

theorem txRateWrite_keeps {kp : Parts} {st0 s : State} (p : Nat) (v : Word) (hk : Keeps kp st0 s) :
    Keeps kp st0 (txRateWrite p v s) := by
  have := @State.txSetup_keeps
  have := @State.put_keeps
  have := @State.txReject_keeps
  unfold txRateWrite; exact Keeps.chain

theorem txGapWrite_keeps {kp : Parts} {st0 s : State} (p : Nat) (v : Word) (hk : Keeps kp st0 s) :
    Keeps kp st0 (txGapWrite p v s) := by
  have := @State.txSetup_keeps
  have := @State.put_keeps
  have := @State.txReject_keeps
  unfold txGapWrite; exact Keeps.chain

theorem txStreamWrite_keeps {kp : Parts} {st0 s : State} (p : Nat) (j : Nat) (v : Word) (hk : Keeps kp st0 s) :
    Keeps kp st0 (txStreamWrite p j v s) := by
  have := @State.txSetup_keeps
  have := @State.txReject_keeps
  have := @State.setReg_keeps
  have := @State.put_keeps
  unfold txStreamWrite; exact Keeps.chain

theorem txClrcnt_keeps {kp : Parts} {st0 s : State} (p : Nat) (hk : Keeps kp st0 s) :
    Keeps kp st0 (txClrcnt p s) := by
  have := @Keeps.whenever
  have := @State.txSetup_keeps
  have := @State.txClear_keeps
  unfold txClrcnt; exact Keeps.chain

theorem State.csiSend_keeps {kp : Parts} {st0 s : State} (v : Nat) (j : Nat) (x : CsiStream) (k : CsiPacket) (hk : Keeps kp st0 s) :
    Keeps kp st0 (State.csiSend s v j x k) := by
  have := @State.modPort_keeps
  have := @State.syncCsi_keeps
  unfold State.csiSend; exact Keeps.chain

theorem csiFrameStart_keeps {kp : Parts} {st0 s : State} (v : Nat) (hk : Keeps kp st0 s) :
    Keeps kp st0 (csiFrameStart v s) := by
  have := @Keeps.whenever
  have := @State.modPort_keeps
  have := @State.csiSend_keeps
  unfold csiFrameStart; exact Keeps.chain

theorem csiPacketSend_keeps {kp : Parts} {st0 s : State} (v : Nat) (late : Bool) (hk : Keeps kp st0 s) :
    Keeps kp st0 (csiPacketSend v late s) := by
  have := @Keeps.whenever
  have := @State.csiSend_keeps
  have := @State.bump_keeps
  have := @State.freshUpTo_keeps
  have := @State.raise_keeps
  unfold csiPacketSend; exact Keeps.chain

end Sys2Proof.Machine
end

