-- ==== Sys2Proof/Laws/KeepsMonitors.lean ====
section
/-! SUPPORT. The operations of Machine/Monitors.lean are in the relation `Keeps`: each lemma says what its operation may change. -/

set_option linter.tactic.unusedName false
set_option Elab.async false

namespace Sys2Proof.Machine

theorem State.monTake_keeps {kp : Parts} {st0 s : State} (n : Nat) (v : Int) (hk : Keeps kp st0 s) :
    Keeps kp st0 (State.monTake s n v) := by
  have := @State.put_keeps
  have := @State.put64_keeps
  have := @State.bump_keeps
  unfold State.monTake; exact Keeps.chain

theorem State.monClear_keeps {kp : Parts} {st0 s : State} (n : Nat) (hk : Keeps kp st0 s) :
    Keeps kp st0 (State.monClear s n) := by
  have := @State.setReg_keeps
  have := @State.put64_keeps
  have := @Keeps.forEach
  unfold State.monClear; exact Keeps.chain

theorem State.monSnapshot_keeps {kp : Parts} {st0 s : State} (n : Nat) (t : Nat) (hk : Keeps kp st0 s) :
    Keeps kp st0 (State.monSnapshot s n t) := by
  have := @State.setReg_keeps
  have := @State.put64_keeps
  have := @Keeps.forEach
  unfold State.monSnapshot; exact Keeps.chain

theorem State.monWriteRecord_keeps {kp : Parts} {st0 s : State} (n : Nat) (k_dram : kp.dram = true) (hk : Keeps kp st0 s) :
    Keeps kp st0 (State.monWriteRecord s n) := by
  have := @State.fresh_keeps
  have := @State.dramWrite_keeps
  have := @State.put_keeps
  unfold State.monWriteRecord; exact Keeps.chain

theorem State.monNext_keeps {kp : Parts} {st0 s : State} (n : Nat) (hk : Keeps kp st0 s) :
    Keeps kp st0 (State.monNext s n) := by
  have := @State.monTake_keeps
  unfold State.monNext; exact Keeps.chain

theorem State.monDrain_keeps {kp : Parts} {st0 s : State} (n : Nat) (t : Nat) (hk : Keeps kp st0 s) :
    Keeps kp st0 (State.monDrain s n t) := by
  have := @State.monTake_keeps
  unfold State.monDrain; exact Keeps.chain

theorem State.monEnd_keeps {kp : Parts} {st0 s : State} (k_dram : kp.dram = true) (hk : Keeps kp st0 s) :
    Keeps kp st0 (State.monEnd s) := by
  have := @Keeps.forEach
  have := @State.monDrain_keeps
  have := @State.monSnapshot_keeps
  have := @State.monClear_keeps
  have := @State.monWriteRecord_keeps
  unfold State.monEnd; exact Keeps.chain

theorem State.monEnds_keeps {kp : Parts} {st0 s : State} (t : Nat) (n : Nat) (k_dram : kp.dram = true) (hk : Keeps kp st0 s) :
    Keeps kp st0 (State.monEnds t n s) := by
  have := @State.monEnd_keeps
  induction n generalizing s with
  | zero => unfold State.monEnds; exact Keeps.chain
  | succ n ih => unfold State.monEnds; exact Keeps.chain

theorem monitorSample_keeps {kp : Parts} {st0 s : State} (n : Nat) (v : Int) (t : Nat) (k_dram : kp.dram = true) (hk : Keeps kp st0 s) :
    Keeps kp st0 (monitorSample n v t s) := by
  have := @Keeps.whenever
  have := @State.at_keeps
  have := @State.monEnds_keeps
  have := @State.monNext_keeps
  have := @State.monTake_keeps
  unfold monitorSample; exact Keeps.chain

theorem monSnap_keeps {kp : Parts} {st0 s : State} (mask : Word) (t : Nat) (hk : Keeps kp st0 s) :
    Keeps kp st0 (monSnap mask t s) := by
  have := @Keeps.whenever
  have := @State.at_keeps
  have := @Keeps.forEach
  have := @State.monDrain_keeps
  have := @State.monSnapshot_keeps
  unfold monSnap; exact Keeps.chain

theorem monClr_keeps {kp : Parts} {st0 s : State} (mask : Word) (hk : Keeps kp st0 s) :
    Keeps kp st0 (monClr mask s) := by
  have := @Keeps.whenever
  have := @Keeps.forEach
  have := @State.monDrain_keeps
  have := @State.monClear_keeps
  unfold monClr; exact Keeps.chain

theorem monPerWrite_keeps {kp : Parts} {st0 s : State} (v : Word) (t : Nat) (hk : Keeps kp st0 s) :
    Keeps kp st0 (monPerWrite v t s) := by
  have := @Keeps.whenever
  have := @State.at_keeps
  have := @State.setReg_keeps
  unfold monPerWrite; exact Keeps.chain

theorem monitorPeriodEnd_keeps {kp : Parts} {st0 s : State} (t : Nat) (k_dram : kp.dram = true) (hk : Keeps kp st0 s) :
    Keeps kp st0 (monitorPeriodEnd t s) := by
  have := @Keeps.whenever
  have := @State.at_keeps
  have := @State.monEnd_keeps
  unfold monitorPeriodEnd; exact Keeps.chain

theorem monCfgWrite_keeps {kp : Parts} {st0 s : State} (n : Nat) (blo : Bool) (v : Word) (hk : Keeps kp st0 s) :
    Keeps kp st0 (monCfgWrite n blo v s) := by
  have := @Keeps.whenever
  have := @State.setReg_keeps
  have := @State.monClear_keeps
  have := @State.put_keeps
  unfold monCfgWrite; exact Keeps.chain

end Sys2Proof.Machine
end

