-- ==== Sys2Proof/Laws/KeepsPlanner.lean ====
section
/-! SUPPORT. The operations of Machine/Planner.lean are in the relation `Keeps`: each lemma says what its operation may change. -/

set_option linter.tactic.unusedName false
set_option Elab.async false

namespace Sys2Proof.Machine

theorem State.planPublish_keeps {kp : Parts} {st0 s : State} (result : Nat) (reason : Nat) (m : Option PlanResult) (hk : Keeps kp st0 s) :
    Keeps kp st0 (State.planPublish s result reason m) := by
  have := @State.put_keeps
  unfold State.planPublish; exact Keeps.chain

theorem State.planShow_keeps {kp : Parts} {st0 s : State} (m : PlanResult) (hk : Keeps kp st0 s) :
    Keeps kp st0 (State.planShow s m) := by
  have := @State.planPublish_keeps
  unfold State.planShow; exact Keeps.chain

theorem State.carryHead_keeps {kp : Parts} {st0 s : State} (h : Nat) (w : Option (Nat × Nat)) (hk : Keeps kp st0 s) :
    Keeps kp st0 (State.carryHead s h w) := by
  have := @State.put_keeps
  unfold State.carryHead; exact Keeps.chain

theorem State.replanHeads_keeps {kp : Parts} {st0 s : State} (lim : Frac) (free : Nat) (stay : List Nat) (hs : List Nat) (hk : Keeps kp st0 s) :
    Keeps kp st0 (State.replanHeads s lim free stay hs).1 := by
  have := @State.carryHead_keeps
  unfold State.replanHeads; exact Keeps.chain

theorem State.replan_keeps {kp : Parts} {st0 s : State} (auto : Bool) (hk : Keeps kp st0 s) :
    Keeps kp st0 (State.replan s auto).1 := by
  have := @State.fresh_keeps
  have := @State.replanHeads_keeps
  have := @State.put_keeps
  have := @State.modHead_keeps
  have := @Keeps.forEach
  have := @State.syncHeld_keeps
  have := @State.planPublish_keeps
  unfold State.replan; exact Keeps.chain

theorem planEval_keeps {kp : Parts} {st0 s : State} (v : Word) (hk : Keeps kp st0 s) :
    Keeps kp st0 (planEval v s) := by
  have := @Keeps.whenever
  have := @State.put_keeps
  have := @State.planAsk_keeps
  unfold planEval; exact Keeps.chain

theorem planReplan_keeps {kp : Parts} {st0 s : State} (v : Word) (hk : Keeps kp st0 s) :
    Keeps kp st0 (planReplan v s) := by
  have := @Keeps.whenever
  have := @State.put_keeps
  have := @State.planAsk_keeps
  have := @State.replan_keeps
  unfold planReplan; exact Keeps.chain

theorem planEvalStart_keeps {kp : Parts} {st0 s : State} (hk : Keeps kp st0 s) :
    Keeps kp st0 (planEvalStart s) := by
  have := @State.put_keeps
  unfold planEvalStart; exact Keeps.chain

theorem planLimitWrite_keeps {kp : Parts} {st0 s : State} (v : Word) (hk : Keeps kp st0 s) :
    Keeps kp st0 (planLimitWrite v s) := by
  have := @Keeps.whenever
  have := @State.put_keeps
  unfold planLimitWrite; exact Keeps.chain

end Sys2Proof.Machine
end

