-- ==== Sys2Proof/Laws/KeepsValues.lean ====
section
/-! SUPPORT. The operations of Machine/Values.lean are in the relation `Keeps`: each lemma says what its operation may change. -/

set_option linter.tactic.unusedName false
set_option Elab.async false

namespace Sys2Proof.Machine

theorem State.takeForce_keeps {kp : Parts} {st0 s : State} (h : Nat) (a : Nat) (v : Word) (hk : Keeps kp st0 s) :
    Keeps kp st0 (State.takeForce s h a v) := by
  have := @State.setMirrors_keeps
  have := @State.setRcfg_keeps
  have := @State.modShut_keeps
  have := @State.setReg_keeps
  have := @State.fperNote_keeps
  have := @State.syncGain_keeps
  have := @State.modPort_keeps
  unfold State.takeForce; exact Keeps.chain

theorem State.directWrite_keeps {kp : Parts} {st0 s : State} (h : Nat) (a : Nat) (v : Word) (hk : Keeps kp st0 s) :
    Keeps kp st0 (State.directWrite s h a v) := by
  have := @State.put_keeps
  have := @State.setReg_keeps
  have := @State.takeForce_keeps
  unfold State.directWrite; exact Keeps.chain

end Sys2Proof.Machine
end

