-- ==== Sys2Proof/Laws/KeepsTxn.lean ====
section
/-! SUPPORT. The operations of Machine/Txn.lean are in the relation `Keeps`: each lemma says what its operation may change. -/

set_option linter.tactic.unusedName false
set_option Elab.async false

namespace Sys2Proof.Machine

theorem State.modTxn_keeps {kp : Parts} {st0 s : State} (n : Nat) (f : Txn → Txn) (hk : Keeps kp st0 s) :
    Keeps kp st0 (State.modTxn s n f) := by
  unfold State.modTxn; exact Keeps.chain

theorem State.modTxnHead_keeps {kp : Parts} {st0 s : State} (n : Nat) (h : Nat) (f : TxnHead → TxnHead) (hk : Keeps kp st0 s) :
    Keeps kp st0 (State.modTxnHead s n h f) := by
  have := @State.modTxn_keeps
  unfold State.modTxnHead; exact Keeps.chain

theorem State.cmdRej_keeps {kp : Parts} {st0 s : State} (hk : Keeps kp st0 s) :
    Keeps kp st0 (State.cmdRej s) := by
  have := @State.put_keeps
  unfold State.cmdRej; exact Keeps.chain

theorem State.txnOpenNow_keeps {kp : Parts} {st0 s : State} (old : Nat) (hk : Keeps kp st0 s) :
    Keeps kp st0 (State.txnOpenNow s old).2 := by
  have := @State.setReg_keeps
  have := @State.modTxn_keeps
  have := @State.put_keeps
  unfold State.txnOpenNow; exact Keeps.chain

theorem txnOpen_keeps {kp : Parts} {st0 s : State} (p : Port) (hk : Keeps kp st0 s) :
    Keeps kp st0 (txnOpen p s) := by
  have := @Keeps.whenever
  have := @State.txnOpenNow_keeps
  unfold txnOpen; exact Keeps.chain

theorem State.stage_keeps {kp : Parts} {st0 s : State} (handle : Nat) (e : TxnEntry) (hk : Keeps kp st0 s) :
    Keeps kp st0 (State.stage s handle e) := by
  have := @State.cmdRej_keeps
  have := @State.put_keeps
  have := @State.modTxn_keeps
  unfold State.stage; exact Keeps.chain

theorem txnStage_keeps {kp : Parts} {st0 s : State} (v : Word) (hk : Keeps kp st0 s) :
    Keeps kp st0 (txnStage v s) := by
  have := @Keeps.whenever
  have := @State.stage_keeps
  unfold txnStage; exact Keeps.chain

theorem State.candidate_keeps {kp : Parts} {st0 s : State} (es : List TxnEntry) (hk : Keeps kp st0 s) :
    Keeps kp st0 (State.candidate s es) := by
  have := @State.setReg_keeps
  unfold State.candidate; exact Keeps.chain

theorem State.commitLoads_keeps {kp : Parts} {st0 s : State} (c : State) (hk : Keeps kp st0 s) :
    Keeps kp st0 (State.commitLoads s c).2 := by
  have := @State.showLoad_keeps
  have := @State.put_keeps
  unfold State.commitLoads; exact Keeps.chain

theorem State.acceptSwap_keeps {kp : Parts} {st0 s : State} (c : State) (h : Nat) (kind : Nat) (t : Nat) (hk : Keeps kp st0 s) :
    Keeps kp st0 (State.acceptSwap s c h kind t).2 := by
  have := @State.put_keeps
  have := @State.swapRefuse_keeps
  have := @State.churnAsk_keeps
  have := @State.modHead_keeps
  unfold State.acceptSwap; exact Keeps.chain

theorem State.dropSwap_keeps {kp : Parts} {st0 s : State} (h : Nat) (kind : Nat) (hk : Keeps kp st0 s) :
    Keeps kp st0 (State.dropSwap s h kind) := by
  have := @State.freshUpTo_keeps
  have := @State.put_keeps
  have := @State.modHead_keeps
  have := @State.churnDone_keeps
  unfold State.dropSwap; exact Keeps.chain

theorem State.commitSwaps_keeps {kp : Parts} {st0 s : State} (c : State) (t : Nat) (es : List (TxnEntry × Nat)) (hk : Keeps kp st0 s) :
    Keeps kp st0 (State.commitSwaps s c t es).2.2 := by
  have := @State.acceptSwap_keeps
  unfold State.commitSwaps; exact Keeps.chain

theorem State.saveFor_keeps {kp : Parts} {st0 s : State} (n : Nat) (h : Nat) (a : Nat) (v : Word) (hk : Keeps kp st0 s) :
    Keeps kp st0 (State.saveFor s n h a v) := by
  have := @State.modTxn_keeps
  have := @State.modTxnHead_keeps
  unfold State.saveFor; exact Keeps.chain

theorem State.headEntry_keeps {kp : Parts} {st0 s : State} (h : Nat) (e : TxnEntry) (hk : Keeps kp st0 s) :
    Keeps kp st0 (State.headEntry s h e) := by
  have := @State.storeBias_keeps
  have := @State.setReg_keeps
  have := @State.hcpStart_keeps
  unfold State.headEntry; exact Keeps.chain

theorem State.txnRun_keeps {kp : Parts} {st0 s : State} (n : Nat) (h : Nat) (es : List TxnEntry) (hk : Keeps kp st0 s) :
    Keeps kp st0 (State.txnRun s n h es).1 := by
  have := @State.modTxnHead_keeps
  have := @State.saveFor_keeps
  have := @State.headEntry_keeps
  induction es generalizing s with
  | nil => unfold State.txnRun; exact Keeps.chain
  | cons x l ih => unfold State.txnRun; exact Keeps.chain

theorem State.txnPost_keeps {kp : Parts} {st0 s : State} (n : Nat) (code : Nat) (hk : Keeps kp st0 s) :
    Keeps kp st0 (State.txnPost s n code) := by
  have := @State.modTxn_keeps
  have := @State.finishCmd_keeps
  unfold State.txnPost; exact Keeps.chain

theorem State.pgaRevert_keeps {kp : Parts} {st0 s : State} (n : Nat) (h : Nat) (hk : Keeps kp st0 s) :
    Keeps kp st0 (State.pgaRevert s n h) := by
  have := @State.modHead_keeps
  have := @State.settleMarks_keeps
  have := @State.candidate_keeps
  have := @State.syncGain_keeps
  unfold State.pgaRevert; exact Keeps.chain

theorem State.txnEnd_keeps {kp : Parts} {st0 s : State} (n : Nat) (code : Nat) (hk : Keeps kp st0 s) :
    Keeps kp st0 (State.txnEnd s n code) := by
  have := @State.dropSwap_keeps
  have := @State.pgaRevert_keeps
  have := @State.modHead_keeps
  have := @State.put_keeps
  have := @State.txnPost_keeps
  have := @State.modTxn_keeps
  unfold State.txnEnd; exact Keeps.chain

theorem State.txnSwitch_keeps {kp : Parts} {st0 s : State} (n : Nat) (h : Nat) (t : Nat) (hk : Keeps kp st0 s) :
    Keeps kp st0 (State.txnSwitch s n h t) := by
  have := @State.takeForce_keeps
  have := @State.modAlarm_keeps
  have := @State.modHead_keeps
  have := @State.settleMarks_keeps
  have := @State.radSwapNow_keeps
  have := @State.swapNow_keeps
  have := @State.put_keeps
  have := @State.churnDone_keeps
  have := @State.modTxnHead_keeps
  have := @State.txnEnd_keeps
  unfold State.txnSwitch; exact Keeps.chain

theorem State.txnWritesDone_keeps {kp : Parts} {st0 s : State} (n : Nat) (hk : Keeps kp st0 s) :
    Keeps kp st0 (State.txnWritesDone s n) := by
  have := @State.put_keeps
  have := @State.txnPost_keeps
  unfold State.txnWritesDone; exact Keeps.chain

theorem State.restoreFor_keeps {kp : Parts} {st0 s : State} (n : Nat) (x : TxnHead) (hk : Keeps kp st0 s) :
    Keeps kp st0 (State.restoreFor s n x) := by
  have := @State.storeBias_keeps
  have := @State.setReg_keeps
  unfold State.restoreFor; exact Keeps.chain

theorem State.txnRelease_keeps {kp : Parts} {st0 s : State} (h : Nat) (hk : Keeps kp st0 s) :
    Keeps kp st0 (State.txnRelease s h) := by
  have := @State.modHead_keeps
  have := @State.put_keeps
  unfold State.txnRelease; exact Keeps.chain

theorem State.txnIdle_keeps {kp : Parts} {st0 s : State} (t : Nat) (hk : Keeps kp st0 s) :
    Keeps kp st0 (State.txnIdle s t) := by
  have := @State.txnSwitch_keeps
  unfold State.txnIdle; exact Keeps.chain

theorem State.txnSeqEnd_keeps {kp : Parts} {st0 s : State} (n : Nat) (h : Nat) (hk : Keeps kp st0 s) :
    Keeps kp st0 (State.txnSeqEnd s n h) := by
  have := @State.txnRelease_keeps
  have := @State.restoreFor_keeps
  have := @State.modTxnHead_keeps
  have := @State.txnWritesDone_keeps
  have := @State.txnIdle_keeps
  unfold State.txnSeqEnd; exact Keeps.chain

theorem State.txnPump_keeps {kp : Parts} {st0 s : State} (h : Nat) (n : Nat) (hk : Keeps kp st0 s) :
    Keeps kp st0 (State.txnPump s h n) := by
  have := @State.modHead_keeps
  have := @State.put_keeps
  have := @State.modTxnHead_keeps
  have := @State.txnRun_keeps
  have := @State.txnSeqEnd_keeps
  induction n generalizing s with
  | zero => unfold State.txnPump; exact Keeps.chain
  | succ n ih => unfold State.txnPump; exact Keeps.chain

theorem State.txnTransferEnd_keeps {kp : Parts} {st0 s : State} (h : Nat) (hk : Keeps kp st0 s) :
    Keeps kp st0 (State.txnTransferEnd s h) := by
  have := @State.modTxnHead_keeps
  have := @State.txnRun_keeps
  have := @State.txnSeqEnd_keeps
  have := @State.txnPump_keeps
  unfold State.txnTransferEnd; exact Keeps.chain

theorem State.txnSettle_keeps {kp : Parts} {st0 s : State} (h : Nat) (n : Nat) (hk : Keeps kp st0 s) :
    Keeps kp st0 (State.txnSettle s h n) := by
  have := @State.txnPump_keeps
  have := @State.txnRelease_keeps
  have := @State.modTxnHead_keeps
  induction n generalizing s with
  | zero => unfold State.txnSettle; exact Keeps.chain
  | succ n ih => unfold State.txnSettle; exact Keeps.chain

theorem State.txnUndo_keeps {kp : Parts} {st0 s : State} (n : Nat) (code : Nat) (hk : Keeps kp st0 s) :
    Keeps kp st0 (State.txnUndo s n code) := by
  have := @State.pgaRevert_keeps
  have := @State.modTxn_keeps
  have := @State.put_keeps
  have := @State.txnRelease_keeps
  have := @State.modTxnHead_keeps
  have := @State.txnRun_keeps
  have := @State.txnSeqEnd_keeps
  unfold State.txnUndo; exact Keeps.chain

theorem State.txnStopOne_keeps {kp : Parts} {st0 s : State} (n : Nat) (code : Nat) (hk : Keeps kp st0 s) :
    Keeps kp st0 (State.txnStopOne s n code) := by
  have := @State.txnUndo_keeps
  have := @State.txnEnd_keeps
  unfold State.txnStopOne; exact Keeps.chain

theorem State.txnDependents_keeps {kp : Parts} {st0 s : State} (n : Nat) (hk : Keeps kp st0 s) :
    Keeps kp st0 (State.txnDependents s n) := by
  have := @State.txnStopOne_keeps
  unfold State.txnDependents; exact Keeps.chain

theorem State.txnGoOn_keeps {kp : Parts} {st0 s : State} (hk : Keeps kp st0 s) :
    Keeps kp st0 (State.txnGoOn s) := by
  have := @Keeps.forEach
  have := @State.txnSettle_keeps
  have := @State.txnIdle_keeps
  unfold State.txnGoOn; exact Keeps.chain

theorem State.txnStop_keeps {kp : Parts} {st0 s : State} (n : Nat) (code : Nat) (hk : Keeps kp st0 s) :
    Keeps kp st0 (State.txnStop s n code) := by
  have := @State.txnDependents_keeps
  have := @State.txnStopOne_keeps
  have := @State.txnGoOn_keeps
  unfold State.txnStop; exact Keeps.chain

theorem State.txnFail_keeps {kp : Parts} {st0 s : State} (n : Nat) (h : Nat) (reason : Nat) (hk : Keeps kp st0 s) :
    Keeps kp st0 (State.txnFail s n h reason) := by
  have := @State.put_keeps
  have := @State.txnDependents_keeps
  have := @State.txnUndo_keeps
  have := @State.txnGoOn_keeps
  unfold State.txnFail; exact Keeps.chain

theorem State.txnHeadStopped_keeps {kp : Parts} {st0 s : State} (h : Nat) (hk : Keeps kp st0 s) :
    Keeps kp st0 (State.txnHeadStopped s h) := by
  have := @State.txnStop_keeps
  unfold State.txnHeadStopped; exact Keeps.chain

theorem State.txnFree_keeps {kp : Parts} {st0 s : State} (n : Nat) (hk : Keeps kp st0 s) :
    Keeps kp st0 (State.txnFree s n) := by
  have := @State.modTxn_keeps
  have := @State.put_keeps
  have := @State.finishCmd_keeps
  unfold State.txnFree; exact Keeps.chain

theorem State.txnAbortAll_keeps {kp : Parts} {st0 s : State} (hk : Keeps kp st0 s) :
    Keeps kp st0 (State.txnAbortAll s) := by
  have := @State.txnEnd_keeps
  have := @Keeps.forEach
  have := @State.txnFree_keeps
  unfold State.txnAbortAll; exact Keeps.chain

theorem txnUndoDone_keeps {kp : Parts} {st0 s : State} (n : Nat) (ok : Bool) (hk : Keeps kp st0 s) :
    Keeps kp st0 (txnUndoDone n ok s) := by
  have := @Keeps.whenever
  have := @State.txnDependents_keeps
  have := @State.txnEnd_keeps
  have := @State.raise_keeps
  have := @State.modHead_keeps
  have := @resume_keeps
  have := @State.txnGoOn_keeps
  unfold txnUndoDone; exact Keeps.chain

theorem txnHeadWriteFail_keeps {kp : Parts} {st0 s : State} (n : Nat) (h : Nat) (hk : Keeps kp st0 s) :
    Keeps kp st0 (txnHeadWriteFail n h s) := by
  have := @Keeps.whenever
  have := @State.txnFail_keeps
  unfold txnHeadWriteFail; exact Keeps.chain

theorem State.txnClaim_keeps {kp : Parts} {st0 s : State} (n : Nat) (h : Nat) (k : Nat) (hk : Keeps kp st0 s) :
    Keeps kp st0 (State.txnClaim s n h k) := by
  have := @State.modTxnHead_keeps
  have := @State.txnWritesDone_keeps
  unfold State.txnClaim; exact Keeps.chain

theorem State.txnAssign_keeps {kp : Parts} {st0 s : State} (h : Nat) (now : Nat) (hk : Keeps kp st0 s) :
    Keeps kp st0 (State.txnAssign s h now) := by
  have := @State.txnClaim_keeps
  have := @State.txnStop_keeps
  unfold State.txnAssign; exact Keeps.chain

theorem State.txnFirstLine_keeps {kp : Parts} {st0 s : State} (h : Nat) (hk : Keeps kp st0 s) :
    Keeps kp st0 (State.txnFirstLine s h) := by
  have := @State.txnFail_keeps
  unfold State.txnFirstLine; exact Keeps.chain

theorem State.txnFrameStart_keeps {kp : Parts} {st0 s : State} (h : Nat) (t : Nat) (hk : Keeps kp st0 s) :
    Keeps kp st0 (State.txnFrameStart s h t) := by
  have := @State.txnStop_keeps
  have := @State.txnClaim_keeps
  have := @State.txnFirstLine_keeps
  have := @State.txnFail_keeps
  have := @State.txnSwitch_keeps
  have := @State.txnIdle_keeps
  have := @State.put_keeps
  unfold State.txnFrameStart; exact Keeps.chain

theorem txnHeadWritesStart_keeps {kp : Parts} {st0 s : State} (n : Nat) (h : Nat) (t : Nat) (hk : Keeps kp st0 s) :
    Keeps kp st0 (txnHeadWritesStart n h t s) := by
  have := @Keeps.whenever
  have := @State.at_keeps
  have := @State.put_keeps
  have := @State.modTxnHead_keeps
  have := @State.txnSettle_keeps
  unfold txnHeadWritesStart; exact Keeps.chain

theorem State.txnMark_keeps {kp : Parts} {st0 s : State} (stream : Nat) (seq : Nat) (gap : List Nat) (instant : Nat) (now : Nat) (hk : Keeps kp st0 s) :
    Keeps kp st0 (State.txnMark s stream seq gap instant now) := by
  have := @State.txnStop_keeps
  have := @State.modTxn_keeps
  have := @Keeps.forEach
  have := @State.txnAssign_keeps
  unfold State.txnMark; exact Keeps.chain

theorem ringMarkReceived_keeps {kp : Parts} {st0 s : State} (stream : Nat) (seq : Nat) (t : Nat) (hk : Keeps kp st0 s) :
    Keeps kp st0 (ringMarkReceived stream seq t s) := by
  have := @Keeps.whenever
  have := @State.markReceived_keeps
  have := @State.txnMark_keeps
  unfold ringMarkReceived; exact Keeps.chain

theorem markEffect_keeps {kp : Parts} {st0 s : State} (stream : Nat) (seq : Nat) (t : Nat) (hk : Keeps kp st0 s) :
    Keeps kp st0 (markEffect stream seq t s) := by
  have := @State.at_keeps
  have := @State.modRing_keeps
  have := @State.markNow_keeps
  have := @Keeps.forEach
  have := @State.txnAssign_keeps
  unfold markEffect; exact Keeps.chain

theorem txnDeadline_keeps {kp : Parts} {st0 s : State} (n : Nat) (t : Nat) (hk : Keeps kp st0 s) :
    Keeps kp st0 (txnDeadline n t s) := by
  have := @Keeps.whenever
  have := @State.at_keeps
  have := @State.txnStop_keeps
  unfold txnDeadline; exact Keeps.chain

theorem State.txnRefuse_keeps {kp : Parts} {st0 s : State} (n : Nat) (code : Nat) (entry : Nat) (reason : Nat) (hk : Keeps kp st0 s) :
    Keeps kp st0 (State.txnRefuse s n code entry reason) := by
  have := @State.put_keeps
  have := @State.modTxn_keeps
  have := @State.finishCmd_keeps
  unfold State.txnRefuse; exact Keeps.chain

theorem State.txnAccept_keeps {kp : Parts} {st0 s : State} (n : Nat) (t : Nat) (hk : Keeps kp st0 s) :
    Keeps kp st0 (State.txnAccept s n t) := by
  have := @State.modTxn_keeps
  have := @State.put_keeps
  have := @State.setReg_keeps
  have := @State.modTxnHead_keeps
  have := @State.txnSettle_keeps
  have := @State.txnIdle_keeps
  unfold State.txnAccept; exact Keeps.chain

theorem State.txnDecide_keeps {kp : Parts} {st0 s : State} (n : Nat) (t : Nat) (hk : Keeps kp st0 s) :
    Keeps kp st0 (State.txnDecide s n t) := by
  have := @State.candidate_keeps
  have := @State.commitLoads_keeps
  have := @State.txnRefuse_keeps
  have := @State.commitSwaps_keeps
  have := @State.txnAccept_keeps
  have := @State.dropSwap_keeps
  unfold State.txnDecide; exact Keeps.chain

theorem State.showBadPorts_keeps {kp : Parts} {st0 s : State} (c : State) (hk : Keeps kp st0 s) :
    Keeps kp st0 (State.showBadPorts s c) := by
  have := @State.put_keeps
  unfold State.showBadPorts; exact Keeps.chain

theorem State.txnCommitNow_keeps {kp : Parts} {st0 s : State} (n : Nat) (ccfg : Word) (cmd : Option (Nat × Nat)) (t : Nat) (hk : Keeps kp st0 s) :
    Keeps kp st0 (State.txnCommitNow s n ccfg cmd t) := by
  have := @State.modTxn_keeps
  have := @State.candidate_keeps
  have := @State.planAsk_keeps
  have := @State.txnDecide_keeps
  have := @State.showBadPorts_keeps
  have := @State.txnRefuse_keeps
  unfold State.txnCommitNow; exact Keeps.chain

theorem State.txnAnswer_keeps {kp : Parts} {st0 s : State} (n : Nat) (t : Nat) (a : Nat × PlanResult) (hk : Keeps kp st0 s) :
    Keeps kp st0 (State.txnAnswer s n t a) := by
  have := @State.planShow_keeps
  have := @State.txnDecide_keeps
  have := @State.txnRefuse_keeps
  unfold State.txnAnswer; exact Keeps.chain

theorem State.txnPlanned_keeps {kp : Parts} {st0 s : State} (n : Nat) (t : Nat) (hk : Keeps kp st0 s) :
    Keeps kp st0 (State.txnPlanned s n t) := by
  have := @State.planPublish_keeps
  have := @State.candidate_keeps
  have := @State.txnAnswer_keeps
  have := @State.txnRefuse_keeps
  unfold State.txnPlanned; exact Keeps.chain

theorem txnCommit_keeps {kp : Parts} {st0 s : State} (handle : Nat) (t : Nat) (hk : Keeps kp st0 s) :
    Keeps kp st0 (txnCommit handle t s) := by
  have := @Keeps.whenever
  have := @State.at_keeps
  have := @State.put_keeps
  have := @State.cmdRej_keeps
  have := @State.txnCommitNow_keeps
  unfold txnCommit; exact Keeps.chain

theorem State.rollback_keeps {kp : Parts} {st0 s : State} (handle : Nat) (hk : Keeps kp st0 s) :
    Keeps kp st0 (State.rollback s handle) := by
  have := @State.cmdRej_keeps
  have := @State.txnFree_keeps
  have := @State.txnEnd_keeps
  unfold State.rollback; exact Keeps.chain

theorem txnRollback_keeps {kp : Parts} {st0 s : State} (handle : Nat) (hk : Keeps kp st0 s) :
    Keeps kp st0 (txnRollback handle s) := by
  have := @Keeps.whenever
  have := @State.put_keeps
  have := @State.rollback_keeps
  unfold txnRollback; exact Keeps.chain

theorem vblankTxn_keeps {kp : Parts} {st0 s : State} (h : Nat) (t : Nat) (hk : Keeps kp st0 s) :
    Keeps kp st0 (vblankTxn h t s) := by
  have := @vblankStart_keeps
  have := @State.txnAssign_keeps
  unfold vblankTxn; exact Keeps.chain

theorem State.txnAfter_keeps {kp : Parts} {st0 s : State} (old : State) (h : Nat) (hk : Keeps kp st0 s) :
    Keeps kp st0 (State.txnAfter s old h) := by
  have := @State.txnTransferEnd_keeps
  have := @State.txnSettle_keeps
  unfold State.txnAfter; exact Keeps.chain

theorem pgaFilterChange_keeps {kp : Parts} {st0 s : State} (h : Nat) (t : Nat) (hk : Keeps kp st0 s) :
    Keeps kp st0 (pgaFilterChange h t s) := by
  have := @Keeps.whenever
  have := @State.candidate_keeps
  have := @State.syncGain_keeps
  have := @State.at_keeps
  have := @State.settleMarks_keeps
  have := @State.modHead_keeps
  unfold pgaFilterChange; exact Keeps.chain

theorem recipeLoad_keeps {kp : Parts} {st0 s : State} (slot : Nat) (hk : Keeps kp st0 s) :
    Keeps kp st0 (recipeLoad slot s) := by
  have := @Keeps.whenever
  have := @State.put_keeps
  unfold recipeLoad; exact Keeps.chain

end Sys2Proof.Machine
end

