-- ==== Sys2Proof/Laws/KeepsRings.lean ====
section
/-! SUPPORT. The operations of Machine/Rings.lean are in the relation `Keeps`: each lemma says what its operation may change. -/

set_option linter.tactic.unusedName false
set_option Elab.async false

namespace Sys2Proof.Machine

theorem State.jobEnd_keeps {kp : Parts} {st0 s : State} (j : ReJob) (code : Nat) (hk : Keeps kp st0 s) :
    Keeps kp st0 (State.jobEnd s j code) := by
  have := @State.finishCmd_keeps
  unfold State.jobEnd; exact Keeps.chain

theorem State.markC0_keeps {kp : Parts} {st0 s : State} (hk : Keeps kp st0 s) :
    Keeps kp st0 (State.markC0 s) := by
  unfold State.markC0; exact Keeps.chain

theorem State.disableRing_keeps {kp : Parts} {st0 s : State} (id : Nat) (k_dram : kp.dram = true) (hk : Keeps kp st0 s) :
    Keeps kp st0 (State.disableRing s id) := by
  have := @State.modRingU_keeps
  have := @State.jobEnd_keeps
  have := @State.syncC0_keeps
  have := @State.markC0_keeps
  unfold State.disableRing; exact Keeps.chain

theorem State.enableRing_keeps {kp : Parts} {st0 s : State} (id : Nat) (c : RingCtx) (k_dram : kp.dram = true) (hk : Keeps kp st0 s) :
    Keeps kp st0 (State.enableRing s id c) := by
  have := @State.setRing_keeps
  have := @State.syncC0_keeps
  unfold State.enableRing; exact Keeps.chain

theorem ctxCommand_keeps {kp : Parts} {st0 s : State} (write : Bool) (hk : Keeps kp st0 s) :
    Keeps kp st0 (ctxCommand write s) := by
  have := @Keeps.whenever
  have := @State.put_keeps
  have := @State.planAsk_keeps
  unfold ctxCommand; exact Keeps.chain

theorem ctxRead_keeps {kp : Parts} {st0 s : State} (hk : Keeps kp st0 s) :
    Keeps kp st0 (ctxRead s) := by
  have := @ctxCommand_keeps
  unfold ctxRead; exact Keeps.chain

theorem ctxWrite_keeps {kp : Parts} {st0 s : State} (hk : Keeps kp st0 s) :
    Keeps kp st0 (ctxWrite s) := by
  have := @ctxCommand_keeps
  unfold ctxWrite; exact Keeps.chain

theorem State.ctxPlanned_keeps {kp : Parts} {st0 s : State} (id : Nat) (hk : Keeps kp st0 s) :
    Keeps kp st0 (State.ctxPlanned s id) := by
  have := @State.planShow_keeps
  have := @State.planPublish_keeps
  unfold State.ctxPlanned
  split
  · split
    · generalize s.planAction _ _ = p
      obtain ⟨r, m⟩ := p
      exact Keeps.chain
    · exact Keeps.chain
  · exact Keeps.chain

theorem State.ctxStore_keeps {kp : Parts} {st0 s : State} (x : CtxCmd) (k_dram : kp.dram = true) (hk : Keeps kp st0 s) :
    Keeps kp st0 (State.ctxStore s x).2 := by
  have := @State.modCtx_keeps
  have := @State.disableRing_keeps
  have := @State.enableRing_keeps
  unfold State.ctxStore; exact Keeps.chain

theorem ctxCmdDone_keeps {kp : Parts} {st0 s : State} (k_dram : kp.dram = true) (hk : Keeps kp st0 s) :
    Keeps kp st0 (ctxCmdDone s) := by
  have := @Keeps.whenever
  have := @State.put_keeps
  have := @State.ctxHalts_keeps
  have := @State.ctxStore_keeps
  have := @Keeps.forEach
  unfold ctxCmdDone; exact Keeps.chain

theorem qFrangeWrite_keeps {kp : Parts} {st0 s : State} (f : Nat) (v : Word) (hk : Keeps kp st0 s) :
    Keeps kp st0 (qFrangeWrite f v s) := by
  have := @Keeps.whenever
  have := @State.put_keeps
  unfold qFrangeWrite; exact Keeps.chain

theorem State.dropDoorbell_keeps {kp : Parts} {st0 s : State} (hk : Keeps kp st0 s) :
    Keeps kp st0 (State.dropDoorbell s) := by
  have := @State.bump_keeps
  unfold State.dropDoorbell; exact Keeps.chain

theorem State.ringBell_keeps {kp : Parts} {st0 s : State} (id : Nat) (idx : Nat) (k_dram : kp.dram = true) (hk : Keeps kp st0 s) :
    Keeps kp st0 (State.ringBell s id idx) := by
  have := @State.dropDoorbell_keeps
  have := @State.haltRing_keeps
  have := @State.modRingU_keeps
  have := @State.modCtx_keeps
  unfold State.ringBell; exact Keeps.chain

theorem doorbell_keeps {kp : Parts} {st0 s : State} (f : Nat) (off : Nat) (size : Nat) (v : Nat) (k_dram : kp.dram = true) (hk : Keeps kp st0 s) :
    Keeps kp st0 (doorbell f off size v s) := by
  have := @Keeps.whenever
  have := @State.dropDoorbell_keeps
  have := @State.modRingU_keeps
  have := @State.ringBell_keeps
  unfold doorbell; exact Keeps.chain

theorem State.keptBells_keeps {kp : Parts} {st0 s : State} (k_dram : kp.dram = true) (hk : Keeps kp st0 s) :
    Keeps kp st0 (State.keptBells s) := by
  have := @State.modRingU_keeps
  have := @State.ringBell_keeps
  unfold State.keptBells; exact Keeps.chain

theorem State.takeDescs_keeps {kp : Parts} {st0 s : State} (id : Nat) (ds : List (List Byte)) (k_dram : kp.dram = true) (hk : Keeps kp st0 s) :
    Keeps kp st0 (State.takeDescs s id ds) := by
  have := @State.haltRing_keeps
  have := @State.modRingU_keeps
  have := @State.finishCmd_keeps
  induction ds generalizing s with
  | nil => unfold State.takeDescs; exact Keeps.chain
  | cons x l ih => unfold State.takeDescs; exact Keeps.chain

theorem submissionFetch_keeps {kp : Parts} {st0 s : State} (id : Nat) (descs : List (List Byte)) (k_dram : kp.dram = true) (hk : Keeps kp st0 s) :
    Keeps kp st0 (submissionFetch id descs s) := by
  have := @Keeps.whenever
  have := @State.takeDescs_keeps
  unfold submissionFetch; exact Keeps.chain

theorem State.ringStart_keeps {kp : Parts} {st0 s : State} (id : Nat) (o : Nat) (op : Nat) (t : Nat) (work : RingCmd → State → State) (k_dram : kp.dram = true) (h_work : ∀ x0 x, Keeps kp st0 x → Keeps kp st0 (work x0 x)) (hk : Keeps kp st0 s) :
    Keeps kp st0 (State.ringStart s id o op t work) := by
  have := @Keeps.whenever
  have := @State.at_keeps
  have := @State.modRingU_keeps
  have := @State.finishCmd_keeps
  unfold State.ringStart; exact Keeps.chain

theorem cmdNop_keeps {kp : Parts} {st0 s : State} (id : Nat) (t : Nat) (k_dram : kp.dram = true) (hk : Keeps kp st0 s) :
    Keeps kp st0 (cmdNop id t s) := by
  have := @State.ringStart_keeps
  have := @State.finishCmd_keeps
  unfold cmdNop; exact Keeps.chain

theorem State.settingsDone_keeps {kp : Parts} {st0 s : State} (id : Nat) (tag : Nat) (handle : Nat) (hk : Keeps kp st0 s) :
    Keeps kp st0 (State.settingsDone s id tag handle) := by
  have := @State.finishCmd_keeps
  unfold State.settingsDone; exact Keeps.chain

theorem settingsOpen_keeps {kp : Parts} {st0 s : State} (id : Nat) (t : Nat) (k_dram : kp.dram = true) (hk : Keeps kp st0 s) :
    Keeps kp st0 (settingsOpen id t s) := by
  have := @State.ringStart_keeps
  have := @State.txnOpenNow_keeps
  have := @State.modTxn_keeps
  have := @State.finishCmd_keeps
  unfold settingsOpen; exact Keeps.chain

theorem settingsStage_keeps {kp : Parts} {st0 s : State} (id : Nat) (t : Nat) (k_dram : kp.dram = true) (hk : Keeps kp st0 s) :
    Keeps kp st0 (settingsStage id t s) := by
  have := @State.ringStart_keeps
  have := @State.finishCmd_keeps
  have := @State.stage_keeps
  have := @State.settingsDone_keeps
  unfold settingsStage; exact Keeps.chain

theorem settingsCommit_keeps {kp : Parts} {st0 s : State} (id : Nat) (t : Nat) (k_dram : kp.dram = true) (hk : Keeps kp st0 s) :
    Keeps kp st0 (settingsCommit id t s) := by
  have := @State.ringStart_keeps
  have := @State.finishCmd_keeps
  have := @State.cmdRej_keeps
  have := @State.settingsDone_keeps
  have := @State.txnCommitNow_keeps
  unfold settingsCommit; exact Keeps.chain

theorem settingsRollback_keeps {kp : Parts} {st0 s : State} (id : Nat) (t : Nat) (k_dram : kp.dram = true) (hk : Keeps kp st0 s) :
    Keeps kp st0 (settingsRollback id t s) := by
  have := @State.ringStart_keeps
  have := @State.finishCmd_keeps
  have := @State.rollback_keeps
  have := @State.settingsDone_keeps
  unfold settingsRollback; exact Keeps.chain

theorem cmdShutterRequest_keeps {kp : Parts} {st0 s : State} (id : Nat) (t : Nat) (k_dram : kp.dram = true) (hk : Keeps kp st0 s) :
    Keeps kp st0 (cmdShutterRequest id t s) := by
  have := @State.ringStart_keeps
  have := @State.shutRequest_keeps
  unfold cmdShutterRequest; exact Keeps.chain

theorem cmdShutterCancel_keeps {kp : Parts} {st0 s : State} (id : Nat) (t : Nat) (k_dram : kp.dram = true) (hk : Keeps kp st0 s) :
    Keeps kp st0 (cmdShutterCancel id t s) := by
  have := @State.ringStart_keeps
  have := @State.shutCancel_keeps
  have := @State.finishCmd_keeps
  unfold cmdShutterCancel; exact Keeps.chain

theorem cmdShutterRefit_keeps {kp : Parts} {st0 s : State} (id : Nat) (t : Nat) (k_dram : kp.dram = true) (hk : Keeps kp st0 s) :
    Keeps kp st0 (cmdShutterRefit id t s) := by
  have := @State.ringStart_keeps
  have := @State.refitRequest_keeps
  unfold cmdShutterRefit; exact Keeps.chain

theorem tableSwap_keeps {kp : Parts} {st0 s : State} (id : Nat) (t : Nat) (k_dram : kp.dram = true) (hk : Keeps kp st0 s) :
    Keeps kp st0 (tableSwap id t s) := by
  have := @State.ringStart_keeps
  have := @State.swapRefuse_keeps
  have := @State.finishCmd_keeps
  have := @State.churnAsk_keeps
  have := @State.put_keeps
  have := @State.modHead_keeps
  have := @State.radSwapNow_keeps
  have := @State.swapNow_keeps
  have := @State.churnDone_keeps
  unfold tableSwap; exact Keeps.chain

theorem microcode_keeps {kp : Parts} {st0 s : State} (id : Nat) (t : Nat) (k_dram : kp.dram = true) (hk : Keeps kp st0 s) :
    Keeps kp st0 (microcode id t s) := by
  have := @State.ringStart_keeps
  have := @State.mcBegin_keeps
  unfold microcode; exact Keeps.chain

theorem reprocess_keeps {kp : Parts} {st0 s : State} (id : Nat) (t : Nat) (k_dram : kp.dram = true) (hk : Keeps kp st0 s) :
    Keeps kp st0 (reprocess id t s) := by
  have := @State.ringStart_keeps
  have := @State.finishCmd_keeps
  have := @State.planAsk_keeps
  unfold reprocess; exact Keeps.chain

theorem State.jobAnswer_keeps {kp : Parts} {st0 s c : State} (j : ReJob) (a : Nat × PlanResult) (hk : Keeps kp st0 s)
    (hc : Keeps kp st0 c) : Keeps kp st0 (State.jobAnswer s c j a) := by
  have := @State.planShow_keeps
  have := @State.jobEnd_keeps
  unfold State.jobAnswer; exact Keeps.chain

theorem State.jobPlanned_keeps {kp : Parts} {st0 s : State} (cmd : Option (Nat × Nat)) (hk : Keeps kp st0 s) :
    Keeps kp st0 (State.jobPlanned s cmd) := by
  have := @State.planPublish_keeps
  have := @State.jobAnswer_keeps
  unfold State.jobPlanned; exact Keeps.chain

theorem reprocessJobStart_keeps {kp : Parts} {st0 s : State} (hk : Keeps kp st0 s) :
    Keeps kp st0 (reprocessJobStart s) := by
  have := @Keeps.whenever
  unfold reprocessJobStart; exact Keeps.chain

theorem State.jobRecord_keeps {kp : Parts} {st0 s : State} (f : Frame) (bytes : List Byte) (k_dram : kp.dram = true) (hk : Keeps kp st0 s) :
    Keeps kp st0 (State.jobRecord s f bytes) := by
  have := @State.chooseBuf_keeps
  have := @State.dramWrite_keeps
  have := @State.bufComplete_keeps
  unfold State.jobRecord; exact Keeps.chain

theorem State.jobsSettle_keeps {kp : Parts} {st0 s : State} (hk : Keeps kp st0 s) :
    Keeps kp st0 (State.jobsSettle s) := by
  have := @State.jobEnd_keeps
  unfold State.jobsSettle; exact Keeps.chain

theorem reprocessFrameDone_keeps {kp : Parts} {st0 s : State} (input : Option (List Byte)) (t : Nat) (k_dram : kp.dram = true) (hk : Keeps kp st0 s) :
    Keeps kp st0 (reprocessFrameDone input t s) := by
  have := @Keeps.whenever
  have := @State.at_keeps
  have := @State.jobEnd_keeps
  have := @State.fresh_keeps
  have := @State.dramWrite_keeps
  have := @State.offer_keeps
  have := @State.jobRecord_keeps
  have := @State.jobsSettle_keeps
  unfold reprocessFrameDone; exact Keeps.chain

theorem State.admitHeld_keeps {kp : Parts} {st0 s : State} (hk : Keeps kp st0 s) :
    Keeps kp st0 (State.admitHeld s) := by
  unfold State.admitHeld; exact Keeps.chain

theorem State.dropDone_keeps {kp : Parts} {st0 s : State} (d : CmdDone) (k_dram : kp.dram = true) (hk : Keeps kp st0 s) :
    Keeps kp st0 (State.dropDone s d) := by
  have := @State.modRingU_keeps
  unfold State.dropDone; exact Keeps.chain

theorem State.dmaMessage_keeps {kp : Parts} {st0 s : State} (c : Nat) (k_host : kp.host = true) (hk : Keeps kp st0 s) :
    Keeps kp st0 (State.dmaMessage s c) := by
  have := @State.msixSend_keeps
  unfold State.dmaMessage; exact Keeps.chain

theorem State.postCompletion_keeps {kp : Parts} {st0 s : State} (cq : Nat) (k_dram : kp.dram = true) (k_host : kp.host = true) (hk : Keeps kp st0 s) :
    Keeps kp st0 (State.postCompletion s cq) := by
  have := @State.dropDone_keeps
  have := @State.postRecord_keeps
  have := @State.dmaMessage_keeps
  unfold State.postCompletion; exact Keeps.chain

theorem completionPost_keeps {kp : Parts} {st0 s : State} (cq : Nat) (t : Nat) (k_dram : kp.dram = true) (k_host : kp.host = true) (hk : Keeps kp st0 s) :
    Keeps kp st0 (completionPost cq t s) := by
  have := @State.admitHeld_keeps
  have := @Keeps.whenever
  have := @State.at_keeps
  have := @State.postCompletion_keeps
  unfold completionPost; exact Keeps.chain

theorem eventRecordPost_keeps {kp : Parts} {st0 s : State} (id : Nat) (t : Nat) (k_dram : kp.dram = true) (k_host : kp.host = true) (hk : Keeps kp st0 s) :
    Keeps kp st0 (eventRecordPost id t s) := by
  have := @Keeps.whenever
  have := @State.at_keeps
  have := @State.modRingU_keeps
  have := @State.loseRecord_keeps
  have := @State.postRecord_keeps
  have := @State.sample_keeps
  unfold eventRecordPost; exact Keeps.chain

theorem State.copyFrame_keeps {kp : Parts} {st0 s : State} (c : RingCtx) (b : BufRec) (a : Nat) (k_host : kp.host = true) (hk : Keeps kp st0 s) :
    Keeps kp st0 (State.copyFrame s c b a).1 := by
  have := @State.hostWrite_keeps
  unfold State.copyFrame; exact Keeps.chain

theorem deliveryCopyDone_keeps {kp : Parts} {st0 s : State} (id : Nat) (t : Nat) (k_dram : kp.dram = true) (k_host : kp.host = true) (hk : Keeps kp st0 s) :
    Keeps kp st0 (deliveryCopyDone id t s) := by
  have := @Keeps.whenever
  have := @State.at_keeps
  have := @State.postGaps_keeps
  have := @State.copyFrame_keeps
  have := @State.modRingU_keeps
  have := @State.sample_keeps
  have := @State.postRecord_keeps
  have := @State.flushGaps_keeps
  have := @State.jobsSettle_keeps
  unfold deliveryCopyDone; exact Keeps.chain

theorem waitingFrameDelivery_keeps {kp : Parts} {st0 s : State} (id : Nat) (t : Nat) (k_dram : kp.dram = true) (k_host : kp.host = true) (hk : Keeps kp st0 s) :
    Keeps kp st0 (waitingFrameDelivery id t s) := by
  have := @Keeps.whenever
  have := @State.at_keeps
  have := @State.placeWaiting_keeps
  have := @State.flushGaps_keeps
  have := @State.jobsSettle_keeps
  unfold waitingFrameDelivery; exact Keeps.chain

theorem msixModerationTimeout_keeps {kp : Parts} {st0 s : State} (id : Nat) (t : Nat) (k_dram : kp.dram = true) (k_host : kp.host = true) (hk : Keeps kp st0 s) :
    Keeps kp st0 (msixModerationTimeout id t s) := by
  have := @Keeps.whenever
  have := @State.at_keeps
  have := @State.ringMessage_keeps
  unfold msixModerationTimeout; exact Keeps.chain

theorem State.toC0_keeps {kp : Parts} {st0 s : State} (bs : List Byte) (k_dram : kp.dram = true) (hk : Keeps kp st0 s) :
    Keeps kp st0 (State.toC0 s bs) := by
  have := @State.postEvent_keeps
  unfold State.toC0; exact Keeps.chain

theorem c0Suspend_keeps {kp : Parts} {st0 s : State} (reason : Nat) (t : Nat) (k_dram : kp.dram = true) (hk : Keeps kp st0 s) :
    Keeps kp st0 (c0Suspend reason t s) := by
  have := @Keeps.whenever
  have := @State.at_keeps
  have := @State.put_keeps
  have := @State.toC0_keeps
  have := @State.markC0_keeps
  unfold c0Suspend; exact Keeps.chain

theorem c0Resume_keeps {kp : Parts} {st0 s : State} (t : Nat) (k_dram : kp.dram = true) (hk : Keeps kp st0 s) :
    Keeps kp st0 (c0Resume t s) := by
  have := @Keeps.whenever
  have := @State.at_keeps
  have := @State.put_keeps
  have := @State.toC0_keeps
  unfold c0Resume; exact Keeps.chain

theorem pcieLinkUp_keeps {kp : Parts} {st0 s : State} (speed : Nat) (width : Nat) (t : Nat) (k_dram : kp.dram = true) (hk : Keeps kp st0 s) :
    Keeps kp st0 (pcieLinkUp speed width t s) := by
  have := @Keeps.whenever
  have := @State.at_keeps
  have := @State.bump_keeps
  have := @State.put_keeps
  have := @State.postEvent_keeps
  have := @State.markC0_keeps
  unfold pcieLinkUp; exact Keeps.chain

theorem busMasterChange_keeps {kp : Parts} {st0 s : State} (f : Nat) (on : Bool) (t : Nat) (hk : Keeps kp st0 s) :
    Keeps kp st0 (busMasterChange f on t s) := by
  have := @Keeps.whenever
  have := @State.at_keeps
  have := @State.putB_keeps
  have := @State.markC0_keeps
  unfold busMasterChange; exact Keeps.chain

theorem pcieError_keeps {kp : Parts} {st0 s : State} (unc : Bool) (hk : Keeps kp st0 s) :
    Keeps kp st0 (pcieError unc s) := by
  have := @Keeps.whenever
  have := @State.raise_keeps
  unfold pcieError; exact Keeps.chain

theorem State.msixReset_keeps {kp : Parts} {st0 s : State} (f : Nat) (hk : Keeps kp st0 s) :
    Keeps kp st0 (State.msixReset s f) := by
  unfold State.msixReset; exact Keeps.chain

theorem State.dropRings_keeps {kp : Parts} {st0 s : State} (f : Nat) (k_dram : kp.dram = true) (hk : Keeps kp st0 s) :
    Keeps kp st0 (State.dropRings s f) := by
  have := @State.disableRing_keeps
  have := @State.modRingU_keeps
  unfold State.dropRings; exact Keeps.chain

theorem State.hotReset_keeps {kp : Parts} {st0 s : State} (k_dram : kp.dram = true) (hk : Keeps kp st0 s) :
    Keeps kp st0 (State.hotReset s) := by
  have := @State.dropRings_keeps
  have := @State.msixReset_keeps
  have := @State.setReg_keeps
  unfold State.hotReset; exact Keeps.chain

theorem pcieHotReset_keeps {kp : Parts} {st0 s : State} (k_dram : kp.dram = true) (hk : Keeps kp st0 s) :
    Keeps kp st0 (pcieHotReset s) := by
  have := @Keeps.whenever
  have := @State.hotReset_keeps
  unfold pcieHotReset; exact Keeps.chain

theorem perstAssert_keeps {kp : Parts} {st0 s : State} (k_dram : kp.dram = true) (hk : Keeps kp st0 s) :
    Keeps kp st0 (perstAssert s) := by
  have := @Keeps.whenever
  have := @State.hotReset_keeps
  unfold perstAssert; exact Keeps.chain

theorem vfFlr_keeps {kp : Parts} {st0 s : State} (f : Nat) (k_dram : kp.dram = true) (hk : Keeps kp st0 s) :
    Keeps kp st0 (vfFlr f s) := by
  have := @Keeps.whenever
  have := @State.dropRings_keeps
  have := @State.msixReset_keeps
  unfold vfFlr; exact Keeps.chain

theorem functionD3hot_keeps {kp : Parts} {st0 s : State} (f : Nat) (enter : Bool) (hk : Keeps kp st0 s) :
    Keeps kp st0 (functionD3hot f enter s) := by
  have := @Keeps.whenever
  unfold functionD3hot; exact Keeps.chain

theorem State.bar4Byte_keeps {kp : Parts} {st0 s : State} (prot : List (Nat × Nat × Range)) (a : Nat) (b : Byte) (k_dram : kp.dram = true) (hk : Keeps kp st0 s) :
    Keeps kp st0 (State.bar4Byte s prot a b) := by
  have := @State.put_keeps
  have := @State.dramWrite_keeps
  unfold State.bar4Byte; exact Keeps.chain

theorem bar4Write_keeps {kp : Parts} {st0 s : State} (off : Nat) (bytes : List (Option Byte)) (k_dram : kp.dram = true) (hk : Keeps kp st0 s) :
    Keeps kp st0 (bar4Write off bytes s) := by
  have := @Keeps.whenever
  have := @State.bar4Byte_keeps
  unfold bar4Write; exact Keeps.chain

theorem bar4Read_keeps {kp : Parts} {st0 s : State} (off : Nat) (len : Nat) (ue : Option Channel) (k_dram : kp.dram = true) (hk : Keeps kp st0 s) :
    Keeps kp st0 (bar4Read off len ue s) := by
  have := @Keeps.whenever
  have := @State.freshUpTo_keeps
  have := @State.dramUEAt_keeps
  have := @State.ctxUe_keeps
  unfold bar4Read; exact Keeps.chain

end Sys2Proof.Machine
end

