-- ==== Sys2Proof/Laws/KeepsDma.lean ====
section
/-! SUPPORT. The operations of Machine/Dma.lean are in the relation `Keeps`: each lemma says what its operation may change. -/

set_option linter.tactic.unusedName false
set_option Elab.async false

namespace Sys2Proof.Machine

theorem State.modChan_keeps {kp : Parts} {st0 s : State} (c : Nat) (f : DmaChan → DmaChan) (hk : Keeps kp st0 s) :
    Keeps kp st0 (State.modChan s c f) := by
  unfold State.modChan; exact Keeps.chain

theorem State.modRun_keeps {kp : Parts} {st0 s : State} (c : Nat) (f : DmaRun → DmaRun) (hk : Keeps kp st0 s) :
    Keeps kp st0 (State.modRun s c f) := by
  have := @State.modChan_keeps
  unfold State.modRun; exact Keeps.chain

theorem State.dmaSync_keeps {kp : Parts} {st0 s : State} (c : Nat) (hk : Keeps kp st0 s) :
    Keeps kp st0 (State.dmaSync s c) := by
  have := @State.put_keeps
  unfold State.dmaSync; exact Keeps.chain

theorem State.dmaStop_keeps {kp : Parts} {st0 s : State} (c : Nat) (err : Nat) (hk : Keeps kp st0 s) :
    Keeps kp st0 (State.dmaStop s c err) := by
  have := @State.modChan_keeps
  have := @State.put_keeps
  unfold State.dmaStop; exact Keeps.chain

theorem State.dmaStopSoon_keeps {kp : Parts} {st0 s : State} (c : Nat) (err : Nat) (hk : Keeps kp st0 s) :
    Keeps kp st0 (State.dmaStopSoon s c err) := by
  have := @State.modChan_keeps
  have := @State.dmaStop_keeps
  unfold State.dmaStopSoon; exact Keeps.chain

theorem State.dmaNext_keeps {kp : Parts} {st0 s : State} (c : Nat) (k_host : kp.host = true) (hk : Keeps kp st0 s) :
    Keeps kp st0 (State.dmaNext s c) := by
  have := @State.dmaSync_keeps
  have := @State.modChan_keeps
  have := @State.put_keeps
  have := @State.dmaMessage_keeps
  have := @State.dmaStop_keeps
  unfold State.dmaNext; exact Keeps.chain

theorem State.dmaForget_keeps {kp : Parts} {st0 s : State} (c : Nat) (hk : Keeps kp st0 s) :
    Keeps kp st0 (State.dmaForget s c) := by
  unfold State.dmaForget; exact Keeps.chain

theorem State.dmaEnd_keeps {kp : Parts} {st0 s : State} (c : Nat) (code : Nat) (resid : Nat) (hk : Keeps kp st0 s) :
    Keeps kp st0 (State.dmaEnd s c code resid) := by
  have := @State.modRun_keeps
  have := @State.dmaForget_keeps
  unfold State.dmaEnd; exact Keeps.chain

theorem State.intDone_keeps {kp : Parts} {st0 s : State} (ring : Nat) (tag : Nat) (c : Option Nat) (hk : Keeps kp st0 s) :
    Keeps kp st0 (State.intDone s ring tag c) := by
  unfold State.intDone; exact Keeps.chain

theorem State.dmaComplete_keeps {kp : Parts} {st0 s : State} (c : Nat) (code : Nat) (resid : Nat) (k_host : kp.host = true) (hk : Keeps kp st0 s) :
    Keeps kp st0 (State.dmaComplete s c code resid) := by
  have := @State.finishCmd_keeps
  have := @State.intDone_keeps
  have := @State.hostWrite_keeps
  have := @State.bump_keeps
  have := @State.sample_keeps
  have := @State.put_keeps
  have := @State.dmaMessage_keeps
  have := @State.modChan_keeps
  have := @State.dmaForget_keeps
  have := @State.dmaStop_keeps
  have := @State.dmaNext_keeps
  unfold State.dmaComplete; exact Keeps.chain

theorem dmaWriteback_keeps {kp : Parts} {st0 s : State} (c : Nat) (k_host : kp.host = true) (hk : Keeps kp st0 s) :
    Keeps kp st0 (dmaWriteback c s) := by
  have := @Keeps.whenever
  have := @State.dmaComplete_keeps
  unfold dmaWriteback; exact Keeps.chain

theorem dmaChTailWrite_keeps {kp : Parts} {st0 s : State} (c : Nat) (v : Word) (k_host : kp.host = true) (hk : Keeps kp st0 s) :
    Keeps kp st0 (dmaChTailWrite c v s) := by
  have := @Keeps.whenever
  have := @State.put_keeps
  have := @State.dmaStopSoon_keeps
  have := @State.dmaNext_keeps
  unfold dmaChTailWrite; exact Keeps.chain

theorem State.dmaCancel_keeps {kp : Parts} {st0 s : State} (c : Nat) (hk : Keeps kp st0 s) :
    Keeps kp st0 (State.dmaCancel s c) := by
  have := @State.modChan_keeps
  have := @State.finishCmd_keeps
  unfold State.dmaCancel; exact Keeps.chain

theorem dmaChCfgWrite_keeps {kp : Parts} {st0 s : State} (c : Nat) (v : Word) (hk : Keeps kp st0 s) :
    Keeps kp st0 (dmaChCfgWrite c v s) := by
  have := @Keeps.whenever
  have := @State.put_keeps
  have := @State.setReg_keeps
  have := @State.dmaCancel_keeps
  have := @State.modChan_keeps
  have := @State.dmaSync_keeps
  unfold dmaChCfgWrite; exact Keeps.chain

theorem dmaChStop_keeps {kp : Parts} {st0 s : State} (c : Nat) (hk : Keeps kp st0 s) :
    Keeps kp st0 (dmaChStop c s) := by
  have := @Keeps.whenever
  have := @State.dmaStopSoon_keeps
  unfold dmaChStop; exact Keeps.chain

theorem dmaChResume_keeps {kp : Parts} {st0 s : State} (c : Nat) (k_host : kp.host = true) (hk : Keeps kp st0 s) :
    Keeps kp st0 (dmaChResume c s) := by
  have := @Keeps.whenever
  have := @State.put_keeps
  have := @State.dmaStop_keeps
  have := @State.dmaNext_keeps
  unfold dmaChResume; exact Keeps.chain

theorem dmaChStart_keeps {kp : Parts} {st0 s : State} (c : Nat) (k_host : kp.host = true) (hk : Keeps kp st0 s) :
    Keeps kp st0 (dmaChStart c s) := by
  have := @Keeps.whenever
  have := @State.put_keeps
  have := @State.dmaStopSoon_keeps
  have := @State.modChan_keeps
  have := @State.dmaNext_keeps
  unfold dmaChStart; exact Keeps.chain

theorem dmaCopy_keeps {kp : Parts} {st0 s : State} (id : Nat) (t : Nat) (k_dram : kp.dram = true) (k_host : kp.host = true) (hk : Keeps kp st0 s) :
    Keeps kp st0 (dmaCopy id t s) := by
  have := @Keeps.whenever
  have := @State.ringStart_keeps
  have := @State.finishCmd_keeps
  have := @State.modChan_keeps
  have := @State.dmaNext_keeps
  unfold dmaCopy; exact Keeps.chain

theorem State.dmaWindow_keeps {kp : Parts} {st0 s : State} (c : Nat) (hk : Keeps kp st0 s) :
    Keeps kp st0 (State.dmaWindow s c) := by
  have := @State.modChan_keeps
  unfold State.dmaWindow; exact Keeps.chain

theorem State.dmaCharge_keeps {kp : Parts} {st0 s : State} (c : Nat) (n : Nat) (hk : Keeps kp st0 s) :
    Keeps kp st0 (State.dmaCharge s c n) := by
  have := @State.modChan_keeps
  unfold State.dmaCharge; exact Keeps.chain

theorem dmaDescFetch_keeps {kp : Parts} {st0 s : State} (c : Nat) (descs : List (List Byte)) (k_host : kp.host = true) (hk : Keeps kp st0 s) :
    Keeps kp st0 (dmaDescFetch c descs s) := by
  have := @State.dmaWindow_keeps
  have := @Keeps.whenever
  have := @State.dmaCharge_keeps
  have := @State.modChan_keeps
  have := @State.dmaNext_keeps
  unfold dmaDescFetch; exact Keeps.chain

theorem dmaPacingWindow_keeps {kp : Parts} {st0 s : State} (t : Nat) (hk : Keeps kp st0 s) :
    Keeps kp st0 (dmaPacingWindow t s) := by
  have := @Keeps.whenever
  have := @State.dmaWindow_keeps
  have := @State.at_keeps
  unfold dmaPacingWindow; exact Keeps.chain

theorem State.dmaFloor_keeps {kp : Parts} {st0 s : State} (hk : Keeps kp st0 s) :
    Keeps kp st0 (State.dmaFloor s) := by
  unfold State.dmaFloor; exact Keeps.chain

theorem State.dmaPut_keeps {kp : Parts} {st0 s : State} (dev : Bool) (n : Nat) (a : Nat) (bs : List Byte) (k_dram : kp.dram = true) (k_host : kp.host = true) (hk : Keeps kp st0 s) :
    Keeps kp st0 (State.dmaPut s dev n a bs).2 := by
  have := @State.hostWrite_keeps
  have := @State.dramWrite_keeps
  induction n generalizing a bs s with
  | zero => unfold State.dmaPut; exact Keeps.chain
  | succ n ih => unfold State.dmaPut; exact Keeps.chain

theorem State.dmaBytes_keeps {kp : Parts} {st0 s : State} (c : Nat) (n : Nat) (hk : Keeps kp st0 s) :
    Keeps kp st0 (State.dmaBytes s c n) := by
  have := @State.put64_keeps
  unfold State.dmaBytes; exact Keeps.chain

theorem State.dmaWrite_keeps {kp : Parts} {st0 s : State} (c : Nat) (off : Nat) (bs : List Byte) (k_dram : kp.dram = true) (k_host : kp.host = true) (hk : Keeps kp st0 s) :
    Keeps kp st0 (State.dmaWrite s c off bs) := by
  have := @State.dmaPut_keeps
  have := @State.dmaBytes_keeps
  have := @State.modRun_keeps
  have := @State.dmaEnd_keeps
  unfold State.dmaWrite; exact Keeps.chain

theorem State.dmaElement_keeps {kp : Parts} {st0 s : State} (c : Nat) (dst : Bool) (bs : List Byte) (hk : Keeps kp st0 s) :
    Keeps kp st0 (State.dmaElement s c dst bs) := by
  have := @State.dmaEnd_keeps
  have := @State.modRun_keeps
  unfold State.dmaElement; exact Keeps.chain

theorem State.dmaDrop_keeps {kp : Parts} {st0 s : State} (ids : List Nat) (hk : Keeps kp st0 s) :
    Keeps kp st0 (State.dmaDrop s ids) := by
  unfold State.dmaDrop; exact Keeps.chain

theorem State.dmaDrain_keeps {kp : Parts} {st0 s : State} (c : Nat) (n : Nat) (k_dram : kp.dram = true) (k_host : kp.host = true) (hk : Keeps kp st0 s) :
    Keeps kp st0 (State.dmaDrain s c n) := by
  have := @State.dmaDrop_keeps
  have := @State.dmaEnd_keeps
  have := @State.dmaElement_keeps
  have := @State.modRun_keeps
  have := @State.dmaWrite_keeps
  induction n generalizing s with
  | zero => unfold State.dmaDrain; exact Keeps.chain
  | succ n ih => unfold State.dmaDrain; exact Keeps.chain

theorem State.dmaGrant_keeps {kp : Parts} {st0 s : State} (c : Nat) (w : DmaWant) (k_dram : kp.dram = true) (k_host : kp.host = true) (hk : Keeps kp st0 s) :
    Keeps kp st0 (State.dmaGrant s c w) := by
  have := @State.dmaCharge_keeps
  have := @State.dmaWrite_keeps
  have := @State.modRun_keeps
  unfold State.dmaGrant; exact Keeps.chain

theorem dmaReadIssue_keeps {kp : Parts} {st0 s : State} (t : Nat) (k_dram : kp.dram = true) (k_host : kp.host = true) (hk : Keeps kp st0 s) :
    Keeps kp st0 (dmaReadIssue t s) := by
  have := @Keeps.whenever
  have := @State.dmaDrain_keeps
  have := @State.dmaNext_keeps
  have := @State.dmaWindow_keeps
  have := @State.at_keeps
  have := @State.dmaFloor_keeps
  have := @State.dmaGrant_keeps
  unfold dmaReadIssue; exact Keeps.chain

theorem State.dmaUe_keeps {kp : Parts} {st0 s : State} (ch : Nat) (a : Nat) (n : Nat) (k_dram : kp.dram = true) (hk : Keeps kp st0 s) :
    Keeps kp st0 (State.dmaUe s ch a n) := by
  have := @State.freshUpTo_keeps
  have := @State.dramUEAt_keeps
  have := @State.ctxUe_keeps
  unfold State.dmaUe; exact Keeps.chain

theorem dmaReadCompletion_keeps {kp : Parts} {st0 s : State} (id : Nat) (data : List Byte) (ecc : Option Nat) (k_dram : kp.dram = true) (k_host : kp.host = true) (hk : Keeps kp st0 s) :
    Keeps kp st0 (dmaReadCompletion id data ecc s) := by
  have := @State.dmaDrop_keeps
  have := @State.dmaUe_keeps
  have := @State.put_keeps
  have := @State.dmaDrain_keeps
  unfold dmaReadCompletion; exact Keeps.chain

theorem State.dmaStopAll_keeps {kp : Parts} {st0 s : State} (cause : Nat) (k_dram : kp.dram = true) (hk : Keeps kp st0 s) :
    Keeps kp st0 (State.dmaStopAll s cause) := by
  have := @State.put_keeps
  have := @State.bump_keeps
  have := @State.modRingU_keeps
  have := @State.dmaSync_keeps
  unfold State.dmaStopAll; exact Keeps.chain

theorem State.dmaFail_keeps {kp : Parts} {st0 s : State} (link : Bool) (ch : Option Nat) (left : Nat) (addr : Nat) (k_dram : kp.dram = true) (hk : Keeps kp st0 s) :
    Keeps kp st0 (State.dmaFail s link ch left addr) := by
  have := @State.dmaStopAll_keeps
  have := @State.putB_keeps
  have := @State.put_keeps
  have := @State.raise_keeps
  unfold State.dmaFail; exact Keeps.chain

theorem dmaHalt_keeps {kp : Parts} {st0 s : State} (q : DmaReq) (link : Bool) (data : List Byte) (k_dram : kp.dram = true) (k_host : kp.host = true) (hk : Keeps kp st0 s) :
    Keeps kp st0 (dmaHalt q link data s) := by
  have := @Keeps.whenever
  have := @State.dmaDrop_keeps
  have := @State.dmaWrite_keeps
  have := @State.dmaFail_keeps
  have := @State.haltRing_keeps
  unfold dmaHalt; exact Keeps.chain

theorem pcieLinkDown_keeps {kp : Parts} {st0 s : State} (t : Nat) (k_dram : kp.dram = true) (k_host : kp.host = true) (hk : Keeps kp st0 s) :
    Keeps kp st0 (pcieLinkDown t s) := by
  have := @Keeps.whenever
  have := @State.at_keeps
  have := @State.put_keeps
  have := @State.bump_keeps
  have := @State.raise_keeps
  have := @dmaHalt_keeps
  unfold pcieLinkDown; exact Keeps.chain

theorem State.dmaOverlaps_keeps {kp : Parts} {st0 s : State} (r : DmaRun) (hk : Keeps kp st0 s) :
    Keeps kp st0 (State.dmaOverlaps s r).2 := by
  have := @State.freshUpTo_keeps
  unfold State.dmaOverlaps; exact Keeps.chain

theorem State.dmaSettle_keeps {kp : Parts} {st0 s : State} (c : Nat) (k_host : kp.host = true) (hk : Keeps kp st0 s) :
    Keeps kp st0 (State.dmaSettle s c) := by
  have := @State.dmaOverlaps_keeps
  have := @State.dmaComplete_keeps
  have := @State.dmaEnd_keeps
  have := @State.setReg_keeps
  have := @State.finishCmd_keeps
  have := @State.modChan_keeps
  have := @State.dmaSync_keeps
  have := @State.dmaStop_keeps
  unfold State.dmaSettle; exact Keeps.chain

theorem dmaSettled_keeps {kp : Parts} {st0 s : State} (k_host : kp.host = true) (hk : Keeps kp st0 s) :
    Keeps kp st0 (dmaSettled s) := by
  have := @Keeps.whenever
  have := @State.put_keeps
  have := @State.setReg_keeps
  have := @State.dmaSettle_keeps
  unfold dmaSettled; exact Keeps.chain

theorem State.dmaResume_keeps {kp : Parts} {st0 s : State} (k_host : kp.host = true) (hk : Keeps kp st0 s) :
    Keeps kp st0 (State.dmaResume s) := by
  have := @State.put_keeps
  have := @State.dmaNext_keeps
  have := @State.markC0_keeps
  unfold State.dmaResume; exact Keeps.chain

theorem dmaRestart_keeps {kp : Parts} {st0 s : State} (k_host : kp.host = true) (hk : Keeps kp st0 s) :
    Keeps kp st0 (dmaRestart s) := by
  have := @Keeps.whenever
  have := @State.dmaResume_keeps
  have := @State.put_keeps
  unfold dmaRestart; exact Keeps.chain

theorem dmaAutoRestart_keeps {kp : Parts} {st0 s : State} (k_host : kp.host = true) (hk : Keeps kp st0 s) :
    Keeps kp st0 (dmaAutoRestart s) := by
  have := @Keeps.whenever
  have := @State.bump_keeps
  have := @State.dmaResume_keeps
  unfold dmaAutoRestart; exact Keeps.chain

theorem State.dmaSafe_keeps {kp : Parts} {st0 s : State} (k_dram : kp.dram = true) (hk : Keeps kp st0 s) :
    Keeps kp st0 (State.dmaSafe s) := by
  have := @State.put_keeps
  have := @State.dmaStopAll_keeps
  unfold State.dmaSafe; exact Keeps.chain

theorem dmaClrcnt_keeps {kp : Parts} {st0 s : State} (hk : Keeps kp st0 s) :
    Keeps kp st0 (dmaClrcnt s) := by
  have := @Keeps.whenever
  have := @State.setReg_keeps
  unfold dmaClrcnt; exact Keeps.chain

end Sys2Proof.Machine
end

