-- ==== Sys2Proof/Laws/KeepsSafe.lean ====
section
/-! SUPPORT. The operations of Machine/Safe.lean are in the relation `Keeps`: each lemma says what its operation may change. -/

set_option linter.tactic.unusedName false
set_option Elab.async false

namespace Sys2Proof.Machine

theorem State.setMode_keeps {kp : Parts} {st0 s : State} (m : Mode) (k_mode : kp.mode = true) (hk : Keeps kp st0 s) :
    Keeps kp st0 (State.setMode s m) := Keeps.mkMode k_mode hk

theorem State.modeTo_keeps {kp : Parts} {st0 s : State} (m : Mode) (cause : Nat) (k_mode : kp.mode = true) (k_nvm : kp.nvm = true) (hk : Keeps kp st0 s) :
    Keeps kp st0 (State.modeTo s m cause) := by
  have := @State.setMode_keeps
  have := @State.put_keeps
  have := @State.log_keeps
  unfold State.modeTo; exact Keeps.chain

theorem State.headStopped_keeps {kp : Parts} {st0 s : State} (h : Nat) (hk : Keeps kp st0 s) :
    Keeps kp st0 (State.headStopped s h) := by
  have := @State.shutEnd_keeps
  have := @State.refitEnd_keeps
  have := @State.txnHeadStopped_keeps
  unfold State.headStopped; exact Keeps.chain

theorem State.clearTiming_keeps {kp : Parts} {st0 s : State} (h : Nat) (hk : Keeps kp st0 s) :
    Keeps kp st0 (State.clearTiming s h) := by
  have := @State.put_keeps
  have := @State.modHead_keeps
  unfold State.clearTiming; exact Keeps.chain

theorem State.dramSleep_keeps {kp : Parts} {st0 s : State} (hk : Keeps kp st0 s) :
    Keeps kp st0 (State.dramSleep s) := by
  have := @Keeps.forEach
  have := @State.put_keeps
  have := @State.churnDrop_keeps
  unfold State.dramSleep; exact Keeps.chain

theorem State.abandon_keeps {kp : Parts} {st0 s : State} (hk : Keeps kp st0 s) :
    Keeps kp st0 (State.abandon s) := by
  have := @State.put_keeps
  unfold State.abandon; exact Keeps.chain

theorem State.supplyOff_keeps {kp : Parts} {st0 s : State} (h : Nat) (hk : Keeps kp st0 s) :
    Keeps kp st0 (State.supplyOff s h) := by
  have := @State.modHead_keeps
  have := @State.hsupOff_keeps
  unfold State.supplyOff; exact Keeps.chain

theorem State.safeEndWork_keeps {kp : Parts} {st0 s : State} (old : Mode) (k_mode : kp.mode = true) (k_dram : kp.dram = true) (k_host : kp.host = true) (hk : Keeps kp st0 s) :
    Keeps kp st0 (State.safeEndWork s old) := by
  have := @State.txnAbortAll_keeps
  have := @State.jobEnd_keeps
  have := @State.mcFinish_keeps
  have := @Keeps.forEach
  have := @State.headStopped_keeps
  have := @State.setMode_keeps
  have := @State.postCompletion_keeps
  unfold State.safeEndWork; exact Keeps.chain

theorem State.safePort_keeps {kp : Parts} {st0 s : State} (h : Nat) (hk : Keeps kp st0 s) :
    Keeps kp st0 (State.safePort s h) := by
  have := @State.cutCapture_keeps
  have := @State.clearTiming_keeps
  have := @State.hcpStop_keeps
  have := @State.modHead_keeps
  have := @State.shutSafeClose_keeps
  unfold State.safePort; exact Keeps.chain

theorem State.dataStop_keeps {kp : Parts} {st0 s : State} (k_dram : kp.dram = true) (hk : Keeps kp st0 s) :
    Keeps kp st0 (State.dataStop s) := by
  have := @Keeps.forEach
  have := @State.shadowStop_keeps
  have := @State.csiStop_keeps
  have := @State.calAbort_keeps
  have := @State.clearsPost_keeps
  have := @State.churnDrop_keeps
  unfold State.dataStop; exact Keeps.chain

theorem State.modeCause_keeps {kp : Parts} {st0 s : State} (cause : Nat) (k_nvm : kp.nvm = true) (hk : Keeps kp st0 s) :
    Keeps kp st0 (State.modeCause s cause) := by
  have := @State.put_keeps
  have := @State.nvStore_keeps
  unfold State.modeCause; exact Keeps.chain

theorem State.safeEnter_keeps {kp : Parts} {st0 s : State} (code : Nat) (k_mode : kp.mode = true) (k_dram : kp.dram = true) (k_nvm : kp.nvm = true) (k_host : kp.host = true) (hk : Keeps kp st0 s) :
    Keeps kp st0 (State.safeEnter s code) := by
  have := @State.putBit_keeps
  have := @State.abandon_keeps
  have := @State.dramSleep_keeps
  have := @State.modeCause_keeps
  have := @Keeps.forEach
  have := @State.supplyOff_keeps
  have := @State.modeTo_keeps
  have := @State.safeEndWork_keeps
  have := @State.dmaSafe_keeps
  have := @State.safePort_keeps
  have := @State.put_keeps
  have := @State.dataStop_keeps
  have := @State.refSettle_keeps
  unfold State.safeEnter; exact Keeps.chain

end Sys2Proof.Machine
end

