-- ==== Sys2Proof/Laws/KeepsFaults.lean ====
section
/-! SUPPORT. The operations of Machine/Faults.lean are in the relation `Keeps`: each lemma says what its operation may change. -/

set_option linter.tactic.unusedName false
set_option Elab.async false

namespace Sys2Proof.Machine

theorem State.openRoot_keeps {kp : Parts} {st0 s : State} (src : Nat) (hk : Keeps kp st0 s) :
    Keeps kp st0 (State.openRoot s src) := by
  unfold State.openRoot; exact Keeps.chain

theorem State.countDependent_keeps {kp : Parts} {st0 s : State} (src : Nat) (cls : Nat) (detail : Nat) (root : Nat × Nat) (hk : Keeps kp st0 s) :
    Keeps kp st0 (State.countDependent s src cls detail root) := by
  have := @State.openRoot_keeps
  have := @State.bump_keeps
  unfold State.countDependent; exact Keeps.chain

theorem State.retireMark_keeps {kp : Parts} {st0 s : State} (src : Nat) (on : Bool) (k_nvm : kp.nvm = true) (hk : Keeps kp st0 s) :
    Keeps kp st0 (State.retireMark s src on) := by
  have := @State.put64_keeps
  have := @State.putB_keeps
  have := @State.persist_keeps
  have := @State.log_keeps
  unfold State.retireMark; exact Keeps.chain

theorem State.discardFrame_keeps {kp : Parts} {st0 s : State} (f : Frame) (hk : Keeps kp st0 s) :
    Keeps kp st0 (State.discardFrame s f) := by
  have := @State.putFsdt_keeps
  unfold State.discardFrame; exact Keeps.chain

theorem State.digitalLost_keeps {kp : Parts} {st0 s : State} (r : Nat) (hk : Keeps kp st0 s) :
    Keeps kp st0 (State.digitalLost s r) := by
  have := @State.discardFrame_keeps
  have := @State.modPipe_keeps
  have := @State.planAuto_keeps
  unfold State.digitalLost; exact Keeps.chain

theorem State.regionRetire_keeps {kp : Parts} {st0 s : State} (r : Nat) (detail : Nat) (hk : Keeps kp st0 s) :
    Keeps kp st0 (State.regionRetire s r detail) := by
  have := @State.modHead_keeps
  have := @State.syncHeld_keeps
  have := @State.digitalLost_keeps
  unfold State.regionRetire; exact Keeps.chain

theorem State.portRetire_keeps {kp : Parts} {st0 s : State} (h : Nat) (hk : Keeps kp st0 s) :
    Keeps kp st0 (State.portRetire s h) := by
  have := @State.headStopped_keeps
  have := @State.hcpStop_keeps
  have := @State.hsupOff_keeps
  have := @State.portHold_keeps
  have := @State.shutSafeClose_keeps
  have := @State.put_keeps
  have := @State.modHead_keeps
  have := @State.putBit_keeps
  have := @State.syncHeld_keeps
  unfold State.portRetire; exact Keeps.chain

theorem State.faReact_keeps {kp : Parts} {st0 s : State} (src : Nat) (detail : Nat) (named : Bool) (k_mode : kp.mode = true) (k_dram : kp.dram = true) (k_nvm : kp.nvm = true) (k_host : kp.host = true) (hk : Keeps kp st0 s) :
    Keeps kp st0 (State.faReact s src detail named) := by
  have := @State.safeEnter_keeps
  have := @State.retireMark_keeps
  have := @State.retireBlock_keeps
  have := @State.regionRetire_keeps
  have := @State.portRetire_keeps
  have := @State.put_keeps
  have := @State.readsReplay_keeps
  have := @State.ctxHalts_keeps
  have := @State.planAuto_keeps
  unfold State.faReact; exact Keeps.chain

theorem State.ceExpire_keeps {kp : Parts} {st0 s : State} (hk : Keeps kp st0 s) :
    Keeps kp st0 (State.ceExpire s) := by
  have := @State.putBit_keeps
  unfold State.ceExpire; exact Keeps.chain

theorem State.setUnack_keeps {kp : Parts} {st0 s : State} (src : Nat) (cls : Nat) (forced : Bool) (hk : Keeps kp st0 s) :
    Keeps kp st0 (State.setUnack s src cls forced) := by
  have := @State.fresh_keeps
  have := @State.putBit_keeps
  unfold State.setUnack; exact Keeps.chain

theorem State.putSrc_keeps {kp : Parts} {st0 s : State} (lo : Fld) (hi : Fld) (src : Nat) (b : Bool) (hk : Keeps kp st0 s) :
    Keeps kp st0 (State.putSrc s lo hi src b) := by
  have := @State.put64_keeps
  unfold State.putSrc; exact Keeps.chain

theorem State.postFault_keeps {kp : Parts} {st0 s : State} (src : Nat) (cls : Nat) (forced : Bool) (esc : Bool) (idx : Nat) (detail : Nat) (k_dram : kp.dram = true) (hk : Keeps kp st0 s) :
    Keeps kp st0 (State.postFault s src cls forced esc idx detail) := by
  have := @State.postEvent_keeps
  unfold State.postFault; exact Keeps.chain

theorem State.noteFirst_keeps {kp : Parts} {st0 s : State} (src : Nat) (cls : Nat) (forced : Bool) (hk : Keeps kp st0 s) :
    Keeps kp st0 (State.noteFirst s src cls forced) := by
  have := @State.put_keeps
  have := @State.putB_keeps
  have := @State.put64_keeps
  unfold State.noteFirst; exact Keeps.chain

theorem State.record_keeps {kp : Parts} {st0 s : State} (src : Nat) (cls : Nat) (detail : Nat) (forced : Bool) (k_mode : kp.mode = true) (k_dram : kp.dram = true) (k_nvm : kp.nvm = true) (k_host : kp.host = true) (hk : Keeps kp st0 s) :
    Keeps kp st0 (State.record s src cls detail forced) := by
  have := @State.putSrc_keeps
  have := @State.put_keeps
  have := @State.putB_keeps
  have := @State.bump_keeps
  have := @State.setUnack_keeps
  have := @State.noteFirst_keeps
  have := @State.openRoot_keeps
  have := @State.log_keeps
  have := @State.postFault_keeps
  have := @State.faReact_keeps
  unfold State.record; exact Keeps.chain

theorem State.takeReport_keeps {kp : Parts} {st0 s : State} (k_mode : kp.mode = true) (k_dram : kp.dram = true) (k_nvm : kp.nvm = true) (k_host : kp.host = true) (hk : Keeps kp st0 s) :
    Keeps kp st0 (State.takeReport s) := by
  have := @State.countDependent_keeps
  have := @State.record_keeps
  unfold State.takeReport; exact Keeps.chain

theorem faultReport_keeps {kp : Parts} {st0 s : State} (unit : Option Report) (t : Nat) (k_mode : kp.mode = true) (k_dram : kp.dram = true) (k_nvm : kp.nvm = true) (k_host : kp.host = true) (hk : Keeps kp st0 s) :
    Keeps kp st0 (faultReport unit t s) := by
  have := @Keeps.whenever
  have := @State.at_keeps
  have := @State.ceExpire_keeps
  have := @State.takeReport_keeps
  unfold faultReport; exact Keeps.chain

theorem depWindowEnd_keeps {kp : Parts} {st0 s : State} (src : Nat) (t : Nat) (k_nvm : kp.nvm = true) (hk : Keeps kp st0 s) :
    Keeps kp st0 (depWindowEnd src t s) := by
  have := @Keeps.whenever
  have := @State.at_keeps
  have := @State.logAt_keeps
  unfold depWindowEnd; exact Keeps.chain

theorem depRootSettled_keeps {kp : Parts} {st0 s : State} (src : Nat) (t : Nat) (k_mode : kp.mode = true) (k_dram : kp.dram = true) (k_nvm : kp.nvm = true) (k_host : kp.host = true) (hk : Keeps kp st0 s) :
    Keeps kp st0 (depRootSettled src t s) := by
  have := @Keeps.whenever
  have := @State.at_keeps
  have := @State.ceExpire_keeps
  have := @State.record_keeps
  unfold depRootSettled; exact Keeps.chain

theorem State.ackSource_keeps {kp : Parts} {st0 s : State} (src : Nat) (hk : Keeps kp st0 s) :
    Keeps kp st0 (State.ackSource s src) := by
  have := @State.put_keeps
  unfold State.ackSource; exact Keeps.chain

theorem faultClear_keeps {kp : Parts} {st0 s : State} (hi : Bool) (v : Word) (k_nvm : kp.nvm = true) (hk : Keeps kp st0 s) :
    Keeps kp st0 (faultClear hi v s) := by
  have := @Keeps.whenever
  have := @State.put_keeps
  have := @State.log_keeps
  have := @State.putSrc_keeps
  have := @State.ackSource_keeps
  unfold faultClear; exact Keeps.chain

theorem faultAck_keeps {kp : Parts} {st0 s : State} (hi : Bool) (v : Word) (hk : Keeps kp st0 s) :
    Keeps kp st0 (faultAck hi v s) := by
  have := @Keeps.whenever
  have := @State.ackSource_keeps
  unfold faultAck; exact Keeps.chain

theorem ceHoldExpire_keeps {kp : Parts} {st0 s : State} (t : Nat) (hk : Keeps kp st0 s) :
    Keeps kp st0 (ceHoldExpire t s) := by
  have := @Keeps.whenever
  have := @State.at_keeps
  have := @State.ceExpire_keeps
  unfold ceHoldExpire; exact Keeps.chain

theorem faultForce_keeps {kp : Parts} {st0 s : State} (hi : Bool) (v : Word) (k_mode : kp.mode = true) (k_dram : kp.dram = true) (k_nvm : kp.nvm = true) (k_host : kp.host = true) (hk : Keeps kp st0 s) :
    Keeps kp st0 (faultForce hi v s) := by
  have := @Keeps.whenever
  have := @State.ceExpire_keeps
  have := @State.put_keeps
  have := @State.countDependent_keeps
  have := @State.record_keeps
  unfold faultForce; exact Keeps.chain

theorem fcClrfirst_keeps {kp : Parts} {st0 s : State} (hk : Keeps kp st0 s) :
    Keeps kp st0 (fcClrfirst s) := by
  have := @Keeps.whenever
  have := @State.put_keeps
  unfold fcClrfirst; exact Keeps.chain

theorem fcClrcnt_keeps {kp : Parts} {st0 s : State} (hk : Keeps kp st0 s) :
    Keeps kp st0 (fcClrcnt s) := by
  have := @Keeps.whenever
  have := @Keeps.forEach
  have := @State.put_keeps
  have := @State.setReg_keeps
  unfold fcClrcnt; exact Keeps.chain

theorem unitRestore_keeps {kp : Parts} {st0 s : State} (hi : Bool) (v : Word) (hk : Keeps kp st0 s) :
    Keeps kp st0 (unitRestore hi v s) := by
  have := @Keeps.whenever
  unfold unitRestore; exact Keeps.chain

theorem State.unitBack_keeps {kp : Parts} {st0 s : State} (src : Nat) (hk : Keeps kp st0 s) :
    Keeps kp st0 (State.unitBack s src) := by
  have := @State.holdEnd_keeps
  have := @Keeps.forEach
  have := @State.setCell_keeps
  have := @State.syncCx_keeps
  have := @State.hsupEval_keeps
  have := @State.put_keeps
  unfold State.unitBack; exact Keeps.chain

theorem restoreTestDone_keeps {kp : Parts} {st0 s : State} (src : Nat) (pass : Bool) (k_nvm : kp.nvm = true) (hk : Keeps kp st0 s) :
    Keeps kp st0 (restoreTestDone src pass s) := by
  have := @Keeps.whenever
  have := @State.retireMark_keeps
  have := @State.unitBack_keeps
  have := @State.put_keeps
  have := @State.log_keeps
  unfold restoreTestDone; exact Keeps.chain

theorem State.scrubBegin_keeps {kp : Parts} {st0 s : State} (res : Nat) (hk : Keeps kp st0 s) :
    Keeps kp st0 (State.scrubBegin s res) := by
  have := @State.bump_keeps
  have := @State.churnDone_keeps
  have := @State.churnAsk_keeps
  unfold State.scrubBegin; exact Keeps.chain

theorem churnRequest_keeps {kp : Parts} {st0 s : State} (a : Activity) (res : Nat) (t : Nat) (hk : Keeps kp st0 s) :
    Keeps kp st0 (churnRequest a res t s) := by
  have := @Keeps.whenever
  have := @State.at_keeps
  have := @State.scrubBegin_keeps
  have := @State.churnAsk_keeps
  unfold churnRequest; exact Keeps.chain

theorem State.churnBegin_keeps {kp : Parts} {st0 s : State} (j : Job) (hk : Keeps kp st0 s) :
    Keeps kp st0 (State.churnBegin s j) := by
  have := @State.calOrder_keeps
  have := @State.modShut_keeps
  have := @mcLoad_keeps
  unfold State.churnBegin; exact Keeps.chain

theorem churnQueuedStart_keeps {kp : Parts} {st0 s : State} (a : Activity) (res : Nat) (t : Nat) (hk : Keeps kp st0 s) :
    Keeps kp st0 (churnQueuedStart a res t s) := by
  have := @Keeps.whenever
  have := @State.at_keeps
  have := @State.syncChurn_keeps
  have := @State.churnBegin_keeps
  unfold churnQueuedStart; exact Keeps.chain

theorem State.churnRefused_keeps {kp : Parts} {st0 s : State} (a : Activity) (res : Nat) (hk : Keeps kp st0 s) :
    Keeps kp st0 (State.churnRefused s a res) := by
  have := @State.putBank_keeps
  have := @State.shutEnd_keeps
  have := @State.refitEnd_keeps
  have := @State.finishCmd_keeps
  have := @State.modHead_keeps
  have := @State.put_keeps
  have := @State.mcFinish_keeps
  unfold State.churnRefused; exact Keeps.chain

theorem churnQwaitExpire_keeps {kp : Parts} {st0 s : State} (t : Nat) (hk : Keeps kp st0 s) :
    Keeps kp st0 (churnQwaitExpire t s) := by
  have := @Keeps.whenever
  have := @State.churnRefuse_keeps
  have := @State.syncChurn_keeps
  have := @State.churnRefused_keeps
  have := @State.at_keeps
  unfold churnQwaitExpire; exact Keeps.chain

theorem scrubPassStart_keeps {kp : Parts} {st0 s : State} (dram : Bool) (unit : Nat) (hk : Keeps kp st0 s) :
    Keeps kp st0 (scrubPassStart dram unit s) := by
  have := @Keeps.whenever
  have := @State.scrubBegin_keeps
  unfold scrubPassStart; exact Keeps.chain

theorem scrubWordCheck_keeps {kp : Parts} {st0 s : State} (dram : Bool) (unit : Nat) (addr : Nat) (r : WordCheck) (k_dram : kp.dram = true) (hk : Keeps kp st0 s) :
    Keeps kp st0 (scrubWordCheck dram unit addr r s) := by
  have := @Keeps.whenever
  have := @State.bump_keeps
  have := @State.raise_keeps
  have := @State.freshUpTo_keeps
  have := @State.put64_keeps
  have := @State.dramUEAt_keeps
  have := @State.ctxUe_keeps
  unfold scrubWordCheck; exact Keeps.chain

theorem mcClrcnt_keeps {kp : Parts} {st0 s : State} (hk : Keeps kp st0 s) :
    Keeps kp st0 (mcClrcnt s) := by
  have := @Keeps.whenever
  have := @State.setReg_keeps
  unfold mcClrcnt; exact Keeps.chain

end Sys2Proof.Machine
end

