-- ==== Sys2Proof/Laws/KeepsThermal.lean ====
section
/-! SUPPORT. The operations of Machine/Thermal.lean are in the relation `Keeps`: each lemma says what its operation may change. -/

set_option linter.tactic.unusedName false
set_option Elab.async false

namespace Sys2Proof.Machine

theorem State.frameTerms_keeps {kp : Parts} {st0 s : State} (f : Frame) (hk : Keeps kp st0 s) :
    Keeps kp st0 (State.frameTerms s f) := by
  have := @State.modFrame_keeps
  have := @State.put_keeps
  have := @State.putB_keeps
  unfold State.frameTerms; exact Keeps.chain

theorem State.bandgap_keeps {kp : Parts} {st0 s : State} (code : Nat) (hk : Keeps kp st0 s) :
    Keeps kp st0 (State.bandgap s code) := by
  have := @State.put_keeps
  have := @State.raise_keeps
  have := @State.degradeFrames_keeps
  have := @State.putB_keeps
  unfold State.bandgap; exact Keeps.chain

theorem State.hkResult_keeps {kp : Parts} {st0 s : State} (i : Nat) (code : Nat) (inj : Bool) (hk : Keeps kp st0 s) :
    Keeps kp st0 (State.hkResult s i code inj) := by
  have := @State.put_keeps
  have := @State.putB_keeps
  unfold State.hkResult; exact Keeps.chain

theorem State.syncInj_keeps {kp : Parts} {st0 s : State} (hk : Keeps kp st0 s) :
    Keeps kp st0 (State.syncInj s) := by
  have := @State.put_keeps
  unfold State.syncInj; exact Keeps.chain

theorem State.hkNext_keeps {kp : Parts} {st0 s : State} (hk : Keeps kp st0 s) :
    Keeps kp st0 (State.hkNext s) := by
  have := @State.syncInj_keeps
  unfold State.hkNext; exact Keeps.chain

theorem State.hkRequest_keeps {kp : Parts} {st0 s : State} (i : Nat) (frame : Option Nat) (hk : Keeps kp st0 s) :
    Keeps kp st0 (State.hkRequest s i frame) := by
  have := @State.hkNext_keeps
  have := @State.syncInj_keeps
  unfold State.hkRequest; exact Keeps.chain

theorem State.hkInjected_keeps {kp : Parts} {st0 s : State} (q : HkInj) (code : Nat) (hk : Keeps kp st0 s) :
    Keeps kp st0 (State.hkInjected s q code) := by
  have := @State.bandgap_keeps
  have := @State.thmConvert_keeps
  have := @State.frameTerms_keeps
  unfold State.hkInjected; exact Keeps.chain

theorem hkConversionDone_keeps {kp : Parts} {st0 s : State} (uvA : Nat) (uvB : Nat) (hk : Keeps kp st0 s) :
    Keeps kp st0 (hkConversionDone uvA uvB s) := by
  have := @Keeps.whenever
  have := @State.hkResult_keeps
  have := @State.hkInjected_keeps
  have := @State.hkNext_keeps
  unfold hkConversionDone; exact Keeps.chain

theorem State.hkBegin_keeps {kp : Parts} {st0 s : State} (t : Nat) (hk : Keeps kp st0 s) :
    Keeps kp st0 (State.hkBegin s t) := by
  have := @State.put_keeps
  have := @State.put64_keeps
  have := @State.hkNext_keeps
  unfold State.hkBegin; exact Keeps.chain

theorem hkRoundStart_keeps {kp : Parts} {st0 s : State} (t : Nat) (hk : Keeps kp st0 s) :
    Keeps kp st0 (hkRoundStart t s) := by
  have := @State.trigsDue_keeps
  have := @Keeps.whenever
  have := @State.at_keeps
  have := @State.bump_keeps
  have := @State.hkBegin_keeps
  unfold hkRoundStart; exact Keeps.chain

theorem hkCfgWrite_keeps {kp : Parts} {st0 s : State} (v : Word) (t : Nat) (hk : Keeps kp st0 s) :
    Keeps kp st0 (hkCfgWrite v t s) := by
  have := @Keeps.whenever
  have := @State.put_keeps
  have := @State.at_keeps
  unfold hkCfgWrite; exact Keeps.chain

theorem hkInj_keeps {kp : Parts} {st0 s : State} (v : Word) (hk : Keeps kp st0 s) :
    Keeps kp st0 (hkInj v s) := by
  have := @Keeps.whenever
  have := @State.put_keeps
  have := @State.hkRequest_keeps
  unfold hkInj; exact Keeps.chain

theorem State.roundSamples_keeps {kp : Parts} {st0 s : State} (hk : Keeps kp st0 s) :
    Keeps kp st0 (State.roundSamples s) := by
  have := @State.sampleOf_keeps
  unfold State.roundSamples; exact Keeps.chain

theorem State.sensorCheck_keeps {kp : Parts} {st0 s : State} (failed : List Nat) (n : Nat) (hk : Keeps kp st0 s) :
    Keeps kp st0 (State.sensorCheck s failed n) := by
  have := @State.churnDone_keeps
  have := @State.putBit_keeps
  have := @State.raise_keeps
  have := @State.put_keeps
  unfold State.sensorCheck; exact Keeps.chain

theorem State.selfCheck_keeps {kp : Parts} {st0 s : State} (k_mode : kp.mode = true) (k_dram : kp.dram = true) (k_nvm : kp.nvm = true) (k_host : kp.host = true) (hk : Keeps kp st0 s) :
    Keeps kp st0 (State.selfCheck s) := by
  have := @State.churnAsk_keeps
  have := @State.sensorCheck_keeps
  have := @State.put_keeps
  have := @State.raise_keeps
  have := @State.safeEnter_keeps
  unfold State.selfCheck; exact Keeps.chain

theorem State.thermalCause_keeps {kp : Parts} {st0 s : State} (on : Bool) (k_mode : kp.mode = true) (k_nvm : kp.nvm = true) (hk : Keeps kp st0 s) :
    Keeps kp st0 (State.thermalCause s on) := by
  have := @State.putB_keeps
  have := @State.modeTo_keeps
  unfold State.thermalCause; exact Keeps.chain

theorem State.thermalCompare_keeps {kp : Parts} {st0 s : State} (k_mode : kp.mode = true) (k_dram : kp.dram = true) (k_nvm : kp.nvm = true) (k_host : kp.host = true) (hk : Keeps kp st0 s) :
    Keeps kp st0 (State.thermalCompare s) := by
  have := @State.raise_keeps
  have := @State.putB_keeps
  have := @State.thermalCause_keeps
  have := @State.put_keeps
  have := @State.safeEnter_keeps
  unfold State.thermalCompare; exact Keeps.chain

theorem State.thermalEval_keeps {kp : Parts} {st0 s : State} (k_mode : kp.mode = true) (k_dram : kp.dram = true) (k_nvm : kp.nvm = true) (k_host : kp.host = true) (hk : Keeps kp st0 s) :
    Keeps kp st0 (State.thermalEval s) := by
  have := @State.put_keeps
  have := @State.thermalCompare_keeps
  unfold State.thermalEval; exact Keeps.chain

theorem State.nvTemperature_keeps {kp : Parts} {st0 s : State} (hk : Keeps kp st0 s) :
    Keeps kp st0 (State.nvTemperature s) := by
  have := @State.put_keeps
  unfold State.nvTemperature; exact Keeps.chain

theorem State.roundReadings_keeps {kp : Parts} {st0 s : State} (hk : Keeps kp st0 s) :
    Keeps kp st0 (State.roundReadings s) := by
  have := @Keeps.forEach
  have := @State.put_keeps
  have := @State.thmConvert_keeps
  unfold State.roundReadings; exact Keeps.chain

theorem hkRoundEnd_keeps {kp : Parts} {st0 s : State} (t : Nat) (k_mode : kp.mode = true) (k_dram : kp.dram = true) (k_nvm : kp.nvm = true) (k_host : kp.host = true) (hk : Keeps kp st0 s) :
    Keeps kp st0 (hkRoundEnd t s) := by
  have := @Keeps.whenever
  have := @State.at_keeps
  have := @State.put_keeps
  have := @State.bump_keeps
  have := @State.roundReadings_keeps
  have := @State.bandgap_keeps
  have := @State.selfCheck_keeps
  have := @State.nvTurn_keeps
  have := @State.nvTemperature_keeps
  have := @State.thermalEval_keeps
  have := @State.roundSamples_keeps
  have := @State.hkBegin_keeps
  unfold hkRoundEnd; exact Keeps.chain

theorem thCfgWrite_keeps {kp : Parts} {st0 s : State} (v : Word) (hk : Keeps kp st0 s) :
    Keeps kp st0 (thCfgWrite v s) := by
  have := @Keeps.whenever
  have := @State.put_keeps
  unfold thCfgWrite; exact Keeps.chain

theorem thMaskWrite_keeps {kp : Parts} {st0 s : State} (v : Word) (hk : Keeps kp st0 s) :
    Keeps kp st0 (thMaskWrite v s) := by
  have := @Keeps.whenever
  have := @State.putBit_keeps
  have := @State.put_keeps
  unfold thMaskWrite; exact Keeps.chain

end Sys2Proof.Machine
end

