-- ==== Sys2Proof/Laws/KeepsModes.lean ====
section
/-! SUPPORT. The operations of Machine/Modes.lean are in the relation `Keeps`: each lemma says what its operation may change. -/

set_option linter.tactic.unusedName false
set_option Elab.async false

namespace Sys2Proof.Machine

theorem State.cmdRes_keeps {kp : Parts} {st0 s : State} (code : Nat) (hk : Keeps kp st0 s) :
    Keeps kp st0 (State.cmdRes s code) := by
  have := @State.put_keeps
  unfold State.cmdRes; exact Keeps.chain

theorem State.modeCmd_keeps {kp : Parts} {st0 s : State} (f : State → State) (h_f : ∀  x, Keeps kp st0 x → Keeps kp st0 (f  x)) (hk : Keeps kp st0 s) :
    Keeps kp st0 (State.modeCmd s f) := by
  have := @Keeps.whenever
  have := @State.cmdRes_keeps
  unfold State.modeCmd; exact Keeps.chain

theorem State.dormantPort_keeps {kp : Parts} {st0 s : State} (h : Nat) (hk : Keeps kp st0 s) :
    Keeps kp st0 (State.dormantPort s h) := by
  have := @State.hsupOff_keeps
  have := @State.hcpStop_keeps
  have := @State.modHead_keeps
  have := @State.txnAfter_keeps
  unfold State.dormantPort; exact Keeps.chain

theorem modeDormant_keeps {kp : Parts} {st0 s : State} (k_mode : kp.mode = true) (k_nvm : kp.nvm = true) (hk : Keeps kp st0 s) :
    Keeps kp st0 (modeDormant s) := by
  have := @State.modeCmd_keeps
  have := @State.cmdRes_keeps
  have := @Keeps.forEach
  have := @State.dormantPort_keeps
  have := @State.calAbort_keeps
  have := @State.putValid_keeps
  have := @State.modBank_keeps
  have := @State.dramSleep_keeps
  have := @State.modeTo_keeps
  unfold modeDormant; exact Keeps.chain

theorem State.setupUp_keeps {kp : Parts} {st0 s : State} (first : Bool) (hk : Keeps kp st0 s) :
    Keeps kp st0 (State.setupUp s first) := by
  have := @State.cmdRes_keeps
  have := @State.put_keeps
  have := @Keeps.forEach
  have := @State.refSettle_keeps
  have := @State.calOrder_keeps
  have := @State.hkRequest_keeps
  unfold State.setupUp; exact Keeps.chain

theorem State.setupIn_keeps {kp : Parts} {st0 s : State} (k_mode : kp.mode = true) (k_dram : kp.dram = true) (k_nvm : kp.nvm = true) (k_host : kp.host = true) (hk : Keeps kp st0 s) :
    Keeps kp st0 (State.setupIn s) := by
  have := @State.modeTo_keeps
  have := @State.markC0_keeps
  have := @Keeps.forEach
  have := @State.hsupEval_keeps
  have := @State.modHead_keeps
  have := @State.holdEnd_keeps
  have := @State.dmaNext_keeps
  have := @State.keptBells_keeps
  unfold State.setupIn; exact Keeps.chain

theorem State.runOut_keeps {kp : Parts} {st0 s : State} (hk : Keeps kp st0 s) :
    Keeps kp st0 (State.runOut s) := by
  have := @Keeps.forEach
  have := @State.shadowStop_keeps
  have := @State.csiFinish_keeps
  have := @State.csiStop_keeps
  unfold State.runOut; exact Keeps.chain

theorem State.downDone_keeps {kp : Parts} {st0 s : State} (k_mode : kp.mode = true) (k_dram : kp.dram = true) (k_nvm : kp.nvm = true) (k_host : kp.host = true) (hk : Keeps kp st0 s) :
    Keeps kp st0 (State.downDone s) := by
  have := @State.put_keeps
  have := @State.runOut_keeps
  have := @State.setupIn_keeps
  unfold State.downDone; exact Keeps.chain

theorem modeSetup_keeps {kp : Parts} {st0 s : State} (t : Nat) (k_mode : kp.mode = true) (k_dram : kp.dram = true) (k_nvm : kp.nvm = true) (k_host : kp.host = true) (hk : Keeps kp st0 s) :
    Keeps kp st0 (modeSetup t s) := by
  have := @State.modeCmd_keeps
  have := @State.at_keeps
  have := @State.setupUp_keeps
  have := @State.cmdRes_keeps
  have := @State.put_keeps
  have := @State.downDone_keeps
  unfold modeSetup; exact Keeps.chain

theorem State.csiCheck_keeps {kp : Parts} {st0 s : State} (hk : Keeps kp st0 s) :
    Keeps kp st0 (State.csiCheck s).2 := by
  have := @State.showLoad_keeps
  have := @State.put_keeps
  unfold State.csiCheck; exact Keeps.chain

theorem modeRun_keeps {kp : Parts} {st0 s : State} (hk : Keeps kp st0 s) :
    Keeps kp st0 (modeRun s) := by
  have := @State.modeCmd_keeps
  have := @State.cmdRes_keeps
  have := @State.csiCheck_keeps
  have := @State.put_keeps
  have := @State.planAsk_keeps
  unfold modeRun; exact Keeps.chain

theorem modeThrottle_keeps {kp : Parts} {st0 s : State} (k_mode : kp.mode = true) (k_nvm : kp.nvm = true) (hk : Keeps kp st0 s) :
    Keeps kp st0 (modeThrottle s) := by
  have := @State.modeCmd_keeps
  have := @State.cmdRes_keeps
  have := @State.put_keeps
  have := @State.modeTo_keeps
  unfold modeThrottle; exact Keeps.chain

theorem modeUnthrottle_keeps {kp : Parts} {st0 s : State} (k_mode : kp.mode = true) (k_nvm : kp.nvm = true) (hk : Keeps kp st0 s) :
    Keeps kp st0 (modeUnthrottle s) := by
  have := @State.modeCmd_keeps
  have := @State.cmdRes_keeps
  have := @State.put_keeps
  have := @State.modeTo_keeps
  unfold modeUnthrottle; exact Keeps.chain

theorem modeSafe_keeps {kp : Parts} {st0 s : State} (t : Nat) (k_mode : kp.mode = true) (k_dram : kp.dram = true) (k_nvm : kp.nvm = true) (k_host : kp.host = true) (hk : Keeps kp st0 s) :
    Keeps kp st0 (modeSafe t s) := by
  have := @Keeps.whenever
  have := @State.cmdRes_keeps
  have := @State.at_keeps
  have := @State.safeEnter_keeps
  unfold modeSafe; exact Keeps.chain

theorem dramTrainingDone_keeps {kp : Parts} {st0 s : State} (ch : Nat) (ok : Bool) (mib : Nat) (hk : Keeps kp st0 s) :
    Keeps kp st0 (dramTrainingDone ch ok mib s) := by
  have := @Keeps.whenever
  have := @State.put_keeps
  have := @State.bump_keeps
  have := @State.raise_keeps
  unfold dramTrainingDone; exact Keeps.chain

theorem setupTransitionDone_keeps {kp : Parts} {st0 s : State} (k_mode : kp.mode = true) (k_dram : kp.dram = true) (k_nvm : kp.nvm = true) (k_host : kp.host = true) (hk : Keeps kp st0 s) :
    Keeps kp st0 (setupTransitionDone s) := by
  have := @State.mcBoot_keeps
  have := @State.put_keeps
  have := @State.setupIn_keeps
  unfold setupTransitionDone; exact Keeps.chain

theorem sysStreamWrite_keeps {kp : Parts} {st0 s : State} (v : Word) (hk : Keeps kp st0 s) :
    Keeps kp st0 (sysStreamWrite v s) := by
  have := @Keeps.whenever
  have := @State.put_keeps
  have := @State.cmdRes_keeps
  have := @State.planAsk_keeps
  unfold sysStreamWrite; exact Keeps.chain

theorem safeCauseClear_keeps {kp : Parts} {st0 s : State} (v : Word) (hk : Keeps kp st0 s) :
    Keeps kp st0 (safeCauseClear v s) := by
  have := @Keeps.whenever
  have := @State.putBit_keeps
  have := @State.cmdRes_keeps
  unfold safeCauseClear; exact Keeps.chain

theorem State.runAnswer_keeps {kp : Parts} {st0 s : State} (a : Nat × PlanResult) (k_mode : kp.mode = true) (k_nvm : kp.nvm = true) (hk : Keeps kp st0 s) :
    Keeps kp st0 (State.runAnswer s a) := by
  have := @State.planShow_keeps
  have := @State.put_keeps
  have := @State.cmdRes_keeps
  have := @State.modeTo_keeps
  have := @Keeps.forEach
  have := @State.fperNote_keeps
  have := @State.shadowAsk_keeps
  unfold State.runAnswer; exact Keeps.chain

theorem State.runDecide_keeps {kp : Parts} {st0 s : State} (k_mode : kp.mode = true) (k_nvm : kp.nvm = true) (hk : Keeps kp st0 s) :
    Keeps kp st0 (State.runDecide s) := by
  have := @State.runAnswer_keeps
  unfold State.runDecide; exact Keeps.chain

theorem State.streamAnswer_keeps {kp : Parts} {st0 s : State} (new : Nat) (a : Nat × PlanResult) (hk : Keeps kp st0 s) :
    Keeps kp st0 (State.streamAnswer s new a) := by
  have := @State.planShow_keeps
  have := @State.cmdRes_keeps
  have := @State.put_keeps
  have := @Keeps.forEach
  have := @State.fperNote_keeps
  unfold State.streamAnswer; exact Keeps.chain

theorem State.streamDecide_keeps {kp : Parts} {st0 s : State} (new : Nat) (hk : Keeps kp st0 s) :
    Keeps kp st0 (State.streamDecide s new) := by
  have := @State.streamAnswer_keeps
  unfold State.streamDecide; exact Keeps.chain

theorem State.evalDecide_keeps {kp : Parts} {st0 s : State} (handle : Nat) (hk : Keeps kp st0 s) :
    Keeps kp st0 (State.evalDecide s handle) := by
  have := @State.planShow_keeps
  have := @State.candidate_keeps
  have := @State.planPublish_keeps
  unfold State.evalDecide; exact Keeps.chain

theorem State.replanDecide_keeps {kp : Parts} {st0 s : State} (auto : Bool) (hk : Keeps kp st0 s) :
    Keeps kp st0 (State.replanDecide s auto) := by
  have := @State.replan_keeps
  have := @State.headStopped_keeps
  unfold State.replanDecide; exact Keeps.chain

theorem planEvalDone_keeps {kp : Parts} {st0 s : State} (k_mode : kp.mode = true) (k_nvm : kp.nvm = true) (hk : Keeps kp st0 s) :
    Keeps kp st0 (planEvalDone s) := by
  have := @State.runDecide_keeps
  have := @State.txnPlanned_keeps
  have := @State.ctxPlanned_keeps
  have := @State.streamDecide_keeps
  have := @State.jobPlanned_keeps
  have := @State.evalDecide_keeps
  have := @State.replan_keeps
  have := @State.replanDecide_keeps
  have := @planEvalStart_keeps
  unfold planEvalDone; exact Keeps.chain

theorem frameCompleteReport_keeps {kp : Parts} {st0 s : State} (h : Nat) (t : Nat) (k_mode : kp.mode = true) (k_dram : kp.dram = true) (k_nvm : kp.nvm = true) (k_host : kp.host = true) (hk : Keeps kp st0 s) :
    Keeps kp st0 (frameCompleteReport h t s) := by
  have := @frameReport_keeps
  have := @State.downDone_keeps
  unfold frameCompleteReport; exact Keeps.chain

theorem State.toReset_keeps {kp : Parts} {st0 s : State} (c : List ResetCause) (k_mode : kp.mode = true) (k_dram : kp.dram = true)
    (k_nvm : kp.nvm = true) (k_dt : kp.dt = true) (hk : Keeps kp st0 s) : Keeps kp st0 (State.toReset s c) := by
  have h := State.nvCut_keeps k_nvm (State.nvStep_keeps k_nvm hk)
  unfold State.toReset
  exact h.trans ⟨Eq.refl _, fun w => ⟨Eq.refl _, Eq.refl _, w.nvm, w.host⟩, fun e => by simp [k_mode] at e, fun e => by simp [k_dram] at e,
    fun _ => Eq.refl _, fun _ => Eq.refl _, fun e => by simp [k_dt] at e⟩

theorem State.resetNow_keeps {kp : Parts} {st0 s : State} (c : ResetCause) (k_mode : kp.mode = true) (k_dram : kp.dram = true) (k_nvm : kp.nvm = true) (k_dt : kp.dt = true) (hk : Keeps kp st0 s) :
    Keeps kp st0 (State.resetNow s c) := by
  have := @State.toReset_keeps
  unfold State.resetNow; exact Keeps.chain

theorem State.resetToo_keeps {kp : Parts} {st0 s : State} (c : ResetCause) (hk : Keeps kp st0 s) :
    Keeps kp st0 (State.resetToo s c) := by
  unfold State.resetToo; exact Keeps.chain

theorem State.powerStart_keeps {kp : Parts} {st0 s : State} (k_mode : kp.mode = true) (k_dram : kp.dram = true) (k_nvm : kp.nvm = true) (k_host : kp.host = true) (hk : Keeps kp st0 s) :
    Keeps kp st0 (State.powerStart s) := by
  have := @State.put_keeps
  have := @State.syncChurn_keeps
  have := @State.nvAbort_keeps
  have := @State.safeEnter_keeps
  unfold State.powerStart; exact Keeps.chain

theorem State.powerCond_keeps {kp : Parts} {st0 s : State} (pin : Bool) (k_mode : kp.mode = true) (k_dram : kp.dram = true) (k_nvm : kp.nvm = true) (k_host : kp.host = true) (hk : Keeps kp st0 s) :
    Keeps kp st0 (State.powerCond s pin) := by
  have := @State.put_keeps
  have := @State.powerStart_keeps
  unfold State.powerCond; exact Keeps.chain

theorem State.resetHold_keeps {kp : Parts} {st0 s : State} (c : ResetCause) (hk : Keeps kp st0 s) :
    Keeps kp st0 (State.resetHold s c) := by
  unfold State.resetHold; exact Keeps.chain

theorem State.resetAfter_keeps {kp : Parts} {st0 s : State} (k_mode : kp.mode = true) (k_dram : kp.dram = true) (k_nvm : kp.nvm = true) (k_host : kp.host = true) (k_dt : kp.dt = true) (hk : Keeps kp st0 s) :
    Keeps kp st0 (State.resetAfter s) := by
  have := @State.powerCond_keeps
  have := @State.resetHold_keeps
  have := @State.resetNow_keeps
  unfold State.resetAfter; exact Keeps.chain

theorem resetEntry_keeps {kp : Parts} {st0 s : State} (c : ResetCause) (k_mode : kp.mode = true) (k_dram : kp.dram = true) (k_nvm : kp.nvm = true) (k_host : kp.host = true) (k_dt : kp.dt = true) (hk : Keeps kp st0 s) :
    Keeps kp st0 (resetEntry c s) := by
  have := @State.resetNow_keeps
  have := @State.resetToo_keeps
  have := @State.resetHold_keeps
  have := @State.resetAfter_keeps
  unfold resetEntry; exact Keeps.chain

theorem State.setLevel_keeps {kp : Parts} {st0 s : State} (k : Nat) (uv : Nat) (hk : Keeps kp st0 s) :
    Keeps kp st0 (State.setLevel s k uv) := by
  unfold State.setLevel; exact Keeps.chain

theorem aonCollapse_keeps {kp : Parts} {st0 s : State} (k_mode : kp.mode = true) (k_dram : kp.dram = true) (k_nvm : kp.nvm = true) (k_dt : kp.dt = true) (hk : Keeps kp st0 s) :
    Keeps kp st0 (aonCollapse s) := by
  have := @State.setLevel_keeps
  have := @State.resetToo_keeps
  have := @State.resetNow_keeps
  unfold aonCollapse; exact Keeps.chain

theorem State.scanRing_keeps {kp : Parts} {st0 s : State} (n : Nat) (hk : Keeps kp st0 s) :
    Keeps kp st0 (State.scanRing s n) := by
  have := @State.fresh_keeps
  have := @State.raise_keeps
  unfold State.scanRing; exact Keeps.chain

theorem State.loadTrims_keeps {kp : Parts} {st0 s : State} (hk : Keeps kp st0 s) :
    Keeps kp st0 (State.loadTrims s) := by
  have := @State.put_keeps
  have := @State.raise_keeps
  unfold State.loadTrims; exact Keeps.chain

theorem State.loadHeader_keeps {kp : Parts} {st0 s : State} (hk : Keeps kp st0 s) :
    Keeps kp st0 (State.loadHeader s) := by
  have := @State.put_keeps
  unfold State.loadHeader; exact Keeps.chain

theorem State.putFact_keeps {kp : Parts} {st0 s : State} (r : Nat) (b : List Byte) (hk : Keeps kp st0 s) :
    Keeps kp st0 (State.putFact s r b) := by
  have := @State.put_keeps
  unfold State.putFact; exact Keeps.chain

theorem State.loadFact_keeps {kp : Parts} {st0 s : State} (r : Nat) (hk : Keeps kp st0 s) :
    Keeps kp st0 (State.loadFact s r) := by
  have := @State.putFact_keeps
  have := @State.fresh_keeps
  have := @State.raise_keeps
  have := @State.put_keeps
  have := @State.put64_keeps
  unfold State.loadFact; exact Keeps.chain

theorem State.loadShut_keeps {kp : Parts} {st0 s : State} (h : Nat) (hk : Keeps kp st0 s) :
    Keeps kp st0 (State.loadShut s h) := by
  have := @State.put_keeps
  have := @State.put64_keeps
  unfold State.loadShut; exact Keeps.chain

theorem State.loadCells_keeps {kp : Parts} {st0 s : State} (b : Nat) (rec : Nat) (hk : Keeps kp st0 s) :
    Keeps kp st0 (State.loadCells s b rec) := by
  have := @State.setCell_keeps
  unfold State.loadCells; exact Keeps.chain

theorem State.loadRetired_keeps {kp : Parts} {st0 s : State} (hk : Keeps kp st0 s) :
    Keeps kp st0 (State.loadRetired s) := by
  have := @State.put64_keeps
  have := @Keeps.forEach
  have := @State.put_keeps
  have := @State.putBit_keeps
  have := @State.modHead_keeps
  have := @State.syncHeld_keeps
  have := @State.loadCells_keeps
  unfold State.loadRetired; exact Keeps.chain

theorem State.loadBoot_keeps {kp : Parts} {st0 s : State} (hk : Keeps kp st0 s) :
    Keeps kp st0 (State.loadBoot s) := by
  have := @State.put_keeps
  have := @State.persist_keeps
  unfold State.loadBoot; exact Keeps.chain

theorem State.dtZero_keeps {kp : Parts} {st0 s : State} (k_dt : kp.dt = true) (hk : Keeps kp st0 s) :
    Keeps kp st0 (State.dtZero s) := Keeps.mkDt k_dt hk

theorem State.chooseIo_keeps {kp : Parts} {st0 s : State} (hk : Keeps kp st0 s) :
    Keeps kp st0 (State.chooseIo s) := by
  unfold State.chooseIo; exact Keeps.chain

theorem resetRelease_keeps {kp : Parts} {st0 s : State} (k_nvm : kp.nvm = true) (k_dt : kp.dt = true) (hk : Keeps kp st0 s) :
    Keeps kp st0 (resetRelease s) := by
  have := @Keeps.whenever
  have := @State.chooseIo_keeps
  have := @State.dtZero_keeps
  have := @State.put_keeps
  have := @State.scanRing_keeps
  have := @State.loadHeader_keeps
  have := @State.loadTrims_keeps
  have := @State.loadBoot_keeps
  have := @State.loadRetired_keeps
  have := @Keeps.forEach
  have := @State.loadShut_keeps
  have := @State.loadFact_keeps
  have := @State.log_keeps
  unfold resetRelease; exact Keeps.chain

theorem dormantEntry_keeps {kp : Parts} {st0 s : State} (t : Nat) (k_mode : kp.mode = true) (k_nvm : kp.nvm = true) (hk : Keeps kp st0 s) :
    Keeps kp st0 (dormantEntry t s) := by
  have := @Keeps.whenever
  have := @State.at_keeps
  have := @State.modeTo_keeps
  unfold dormantEntry; exact Keeps.chain

theorem refClockStop_keeps {kp : Parts} {st0 s : State} (t : Nat) (k_mode : kp.mode = true) (k_dram : kp.dram = true) (k_nvm : kp.nvm = true) (k_host : kp.host = true) (hk : Keeps kp st0 s) :
    Keeps kp st0 (refClockStop t s) := by
  have := @State.at_keeps
  have := @State.put_keeps
  have := @State.raise_keeps
  have := @State.safeEnter_keeps
  unfold refClockStop; exact Keeps.chain

theorem refClockReturn_keeps {kp : Parts} {st0 s : State} (hk : Keeps kp st0 s) :
    Keeps kp st0 (refClockReturn s) := by
  unfold refClockReturn; exact Keeps.chain

theorem pllLocked_keeps {kp : Parts} {st0 s : State} (hk : Keeps kp st0 s) :
    Keeps kp st0 (pllLocked s) := by
  have := @Keeps.whenever
  have := @State.put_keeps
  unfold pllLocked; exact Keeps.chain

theorem State.putSag_keeps {kp : Parts} {st0 s : State} (k : Nat) (b : Bool) (k_nvm : kp.nvm = true) (hk : Keeps kp st0 s) :
    Keeps kp st0 (State.putSag s k b) := by
  have := @State.nvTurn_keeps
  have := @State.putBit_keeps
  have := @State.putB_keeps
  unfold State.putSag; exact Keeps.chain

theorem State.hsupLost_keeps {kp : Parts} {st0 s : State} (h : Nat) (k_nvm : kp.nvm = true) (hk : Keeps kp st0 s) :
    Keeps kp st0 (State.hsupLost s h) := by
  have := @State.freshUpTo_keeps
  have := @hsupReverseDisconnect_keeps
  have := @hsupShortDisconnect_keeps
  unfold State.hsupLost; exact Keeps.chain

theorem State.syncPfail_keeps {kp : Parts} {st0 s : State} (hk : Keeps kp st0 s) :
    Keeps kp st0 (State.syncPfail s) := by
  have := @State.putB_keeps
  unfold State.syncPfail; exact Keeps.chain

theorem State.railFails_keeps {kp : Parts} {st0 s : State} (k : Nat) (k_mode : kp.mode = true) (k_dram : kp.dram = true) (k_nvm : kp.nvm = true) (k_host : kp.host = true) (hk : Keeps kp st0 s) :
    Keeps kp st0 (State.railFails s k) := by
  have := @State.putBit_keeps
  have := @State.raise_keeps
  have := @Keeps.forEach
  have := @State.hsupLost_keeps
  have := @State.powerCond_keeps
  have := @State.safeEnter_keeps
  unfold State.railFails; exact Keeps.chain

theorem State.monitor_keeps {kp : Parts} {st0 s : State} (r : RailReading) (k_mode : kp.mode = true) (k_dram : kp.dram = true) (k_nvm : kp.nvm = true) (k_host : kp.host = true) (k_dt : kp.dt = true) (hk : Keeps kp st0 s) :
    Keeps kp st0 (State.monitor s r) := by
  have := @State.setLevel_keeps
  have := @State.putSag_keeps
  have := @State.railFails_keeps
  have := @State.powerCond_keeps
  have := @State.syncPfail_keeps
  have := @State.resetNow_keeps
  have := @State.resetAfter_keeps
  unfold State.monitor; exact Keeps.chain

theorem State.railRead_keeps {kp : Parts} {st0 s : State} (r : RailReading) (due : Bool) (t : Nat) (k_mode : kp.mode = true) (k_dram : kp.dram = true) (k_nvm : kp.nvm = true) (k_host : kp.host = true) (k_dt : kp.dt = true) (hk : Keeps kp st0 s) :
    Keeps kp st0 (State.railRead s r due t) := by
  have := @State.setLevel_keeps
  have := @Keeps.whenever
  have := @State.at_keeps
  have := @State.monitor_keeps
  unfold State.railRead; exact Keeps.chain

theorem railSag_keeps {kp : Parts} {st0 s : State} (r : RailReading) (k_mode : kp.mode = true) (k_dram : kp.dram = true) (k_nvm : kp.nvm = true) (k_host : kp.host = true) (k_dt : kp.dt = true) (hk : Keeps kp st0 s) :
    Keeps kp st0 (railSag r s) := by
  have := @State.railRead_keeps
  unfold railSag; exact Keeps.chain

theorem railFailure_keeps {kp : Parts} {st0 s : State} (k : Rail) (v : RailLevel) (t : Nat) (k_mode : kp.mode = true) (k_dram : kp.dram = true) (k_nvm : kp.nvm = true) (k_host : kp.host = true) (k_dt : kp.dt = true) (hk : Keeps kp st0 s) :
    Keeps kp st0 (railFailure k v t s) := by
  have := @State.railRead_keeps
  unfold railFailure; exact Keeps.chain

theorem railGood_keeps {kp : Parts} {st0 s : State} (r : RailReading) (k_mode : kp.mode = true) (k_dram : kp.dram = true) (k_nvm : kp.nvm = true) (k_host : kp.host = true) (k_dt : kp.dt = true) (hk : Keeps kp st0 s) :
    Keeps kp st0 (railGood r s) := by
  have := @State.railRead_keeps
  unfold railGood; exact Keeps.chain

theorem powerfailAssert_keeps {kp : Parts} {st0 s : State} (c : PowerfailCause) (t : Nat) (k_mode : kp.mode = true) (k_dram : kp.dram = true) (k_nvm : kp.nvm = true) (k_host : kp.host = true) (k_dt : kp.dt = true) (hk : Keeps kp st0 s) :
    Keeps kp st0 (powerfailAssert c t s) := by
  have := @Keeps.whenever
  have := @State.at_keeps
  have := @State.powerCond_keeps
  have := @State.railRead_keeps
  unfold powerfailAssert; exact Keeps.chain

theorem powerfailPersistDone_keeps {kp : Parts} {st0 s : State} (k_mode : kp.mode = true) (k_dram : kp.dram = true) (k_nvm : kp.nvm = true) (k_dt : kp.dt = true) (hk : Keeps kp st0 s) :
    Keeps kp st0 (powerfailPersistDone s) := by
  have := @Keeps.whenever
  have := @State.logFlush_keeps
  have := @Keeps.forEach
  have := @State.slotWrite_keeps
  have := @State.logForce_keeps
  have := @State.put_keeps
  have := @State.toReset_keeps
  unfold powerfailPersistDone; exact Keeps.chain

theorem powerfailEnd_keeps {kp : Parts} {st0 s : State} (hk : Keeps kp st0 s) :
    Keeps kp st0 (powerfailEnd s) := by
  have := @Keeps.whenever
  have := @State.syncPfail_keeps
  unfold powerfailEnd; exact Keeps.chain

end Sys2Proof.Machine
end

