-- ==== Sys2Proof/Laws/KeepsFrameStart.lean ====
section
/-! SUPPORT. The operations of Machine/FrameStart.lean are in the relation `Keeps`: each lemma says what its operation may change. -/

set_option linter.tactic.unusedName false
set_option Elab.async false

namespace Sys2Proof.Machine

theorem State.holdsAtStart_keeps {kp : Parts} {st0 s : State} (h : Nat) (hk : Keeps kp st0 s) :
    Keeps kp st0 (State.holdsAtStart s h) := by
  have := @State.modHead_keeps
  have := @resume_keeps
  have := @State.syncHeld_keeps
  unfold State.holdsAtStart; exact Keeps.chain

theorem State.swapDue_keeps {kp : Parts} {st0 s : State} (h : Nat) (kind : Nat) (hk : Keeps kp st0 s) :
    Keeps kp st0 (State.swapDue s h kind) := by
  have := @State.churnAsk_keeps
  have := @State.radSwapNow_keeps
  have := @State.swapNow_keeps
  have := @State.put_keeps
  have := @State.churnDone_keeps
  have := @State.finishCmd_keeps
  have := @State.modHead_keeps
  unfold State.swapDue; exact Keeps.chain

theorem State.swapsAtStart_keeps {kp : Parts} {st0 s : State} (h : Nat) (t : Nat) (hk : Keeps kp st0 s) :
    Keeps kp st0 (State.swapsAtStart s h t) := by
  have := @State.swapDue_keeps
  have := @State.refitSwapNow_keeps
  have := @State.refreshSwap_keeps
  have := @State.shutResume_keeps
  unfold State.swapsAtStart; exact Keeps.chain

theorem State.frameSlot_keeps {kp : Parts} {st0 s : State} (h : Nat) (t : Nat) (hk : Keeps kp st0 s) :
    Keeps kp st0 (State.frameSlot s h t) := by
  have := @State.put64_keeps
  unfold State.frameSlot; exact Keeps.chain

theorem State.slotCount_keeps {kp : Parts} {st0 s : State} (h : Nat) (hk : Keeps kp st0 s) :
    Keeps kp st0 (State.slotCount s h) := by
  have := @State.shutSlot_keeps
  unfold State.slotCount; exact Keeps.chain

theorem State.rulesAtStart_keeps {kp : Parts} {st0 s : State} (f : Frame) (k_dram : kp.dram = true) (hk : Keeps kp st0 s) :
    Keeps kp st0 (State.rulesAtStart s f) := by
  have := @State.ruleReset_keeps
  have := @State.modAlarm_keeps
  have := @State.alarmFrameStart_keeps
  unfold State.rulesAtStart; exact Keeps.chain

theorem State.frameUse_keeps {kp : Parts} {st0 s : State} (h : Nat) (seq : Nat) (held : Bool) (f : State → Frame) (k_dram : kp.dram = true) (hk : Keeps kp st0 s) :
    Keeps kp st0 (State.frameUse s h seq held f).1 := by
  have := @State.shutRole_keeps
  have := @State.fresh_keeps
  have := @State.refreshPick_keeps
  unfold State.frameUse; exact Keeps.chain

theorem State.startFrame_keeps {kp : Parts} {st0 s : State} (h : Nat) (t : Nat) (k_dram : kp.dram = true) (hk : Keeps kp st0 s) :
    Keeps kp st0 (State.startFrame s h t) := by
  have := @State.frameSlot_keeps
  have := @State.slotCount_keeps
  have := @State.frameUse_keeps
  have := @State.putFsdt_keeps
  have := @State.modHead_keeps
  have := @State.frameTerms_keeps
  have := @State.radFrameStart_keeps
  have := @State.rulesAtStart_keeps
  have := @State.driftMonitor_keeps
  have := @State.hkRequest_keeps
  have := @State.heldAtSlot_keeps
  have := @State.hkEvent_keeps
  unfold State.startFrame; exact Keeps.chain

theorem State.streamBegins_keeps {kp : Parts} {st0 s : State} (h : Nat) (hk : Keeps kp st0 s) :
    Keeps kp st0 (State.streamBegins s h) := by
  have := @State.put_keeps
  have := @State.modHead_keeps
  unfold State.streamBegins; exact Keeps.chain

theorem State.streamEnds_keeps {kp : Parts} {st0 s : State} (h : Nat) (k_mode : kp.mode = true) (k_dram : kp.dram = true) (k_nvm : kp.nvm = true) (k_host : kp.host = true) (hk : Keeps kp st0 s) :
    Keeps kp st0 (State.streamEnds s h) := by
  have := @State.turnCapture_keeps
  have := @State.clearTiming_keeps
  have := @State.trimStop_keeps
  have := @State.modHead_keeps
  have := @State.headStopped_keeps
  have := @State.downDone_keeps
  unfold State.streamEnds; exact Keeps.chain

theorem State.frameAt_keeps {kp : Parts} {st0 s : State} (h : Nat) (t : Nat) (k_mode : kp.mode = true) (k_dram : kp.dram = true) (k_nvm : kp.nvm = true) (k_host : kp.host = true) (hk : Keeps kp st0 s) :
    Keeps kp st0 (State.frameAt s h t) := by
  have := @State.at_keeps
  have := @State.fperNote_keeps
  have := @State.streamEnds_keeps
  have := @State.modHead_keeps
  have := @State.streamBegins_keeps
  have := @State.turnCapture_keeps
  have := @State.flushDeferred_keeps
  have := @State.txnFrameStart_keeps
  have := @State.putLive_keeps
  have := @State.holdsAtStart_keeps
  have := @State.put_keeps
  have := @State.swapsAtStart_keeps
  have := @State.startFrame_keeps
  unfold State.frameAt; exact Keeps.chain

theorem frameStart_keeps {kp : Parts} {st0 s : State} (h : Nat) (t : Nat) (k_mode : kp.mode = true) (k_dram : kp.dram = true) (k_nvm : kp.nvm = true) (k_host : kp.host = true) (hk : Keeps kp st0 s) :
    Keeps kp st0 (frameStart h t s) := by
  have := @Keeps.whenever
  have := @State.frameAt_keeps
  unfold frameStart; exact Keeps.chain

theorem frameStartPending_keeps {kp : Parts} {st0 s : State} (h : Nat) (t : Nat) (k_mode : kp.mode = true) (k_dram : kp.dram = true) (k_nvm : kp.nvm = true) (k_host : kp.host = true) (hk : Keeps kp st0 s) :
    Keeps kp st0 (frameStartPending h t s) := by
  have := @State.trigsDue_keeps
  have := @Keeps.whenever
  have := @State.bump_keeps
  have := @State.frameAt_keeps
  unfold frameStartPending; exact Keeps.chain

theorem hfvRise_keeps {kp : Parts} {st0 s : State} (h : Nat) (t : Nat) (k_mode : kp.mode = true) (k_dram : kp.dram = true) (k_nvm : kp.nvm = true) (k_host : kp.host = true) (hk : Keeps kp st0 s) :
    Keeps kp st0 (hfvRise h t s) := by
  have := @Keeps.whenever
  have := @State.at_keeps
  have := @State.modHead_keeps
  have := @State.bump_keeps
  have := @State.frameAt_keeps
  unfold hfvRise; exact Keeps.chain

theorem heldSlotDue_keeps {kp : Parts} {st0 s : State} (h : Nat) (t : Nat) (k_dram : kp.dram = true) (hk : Keeps kp st0 s) :
    Keeps kp st0 (heldSlotDue h t s) := by
  have := @State.trigsDue_keeps
  have := @Keeps.whenever
  have := @State.at_keeps
  have := @State.frameSlot_keeps
  have := @State.slotCount_keeps
  have := @State.bump_keeps
  have := @State.put_keeps
  have := @State.putLive_keeps
  have := @State.raise_keeps
  have := @State.modHead_keeps
  have := @State.heldAtSlot_keeps
  unfold heldSlotDue; exact Keeps.chain

theorem State.retime_keeps {kp : Parts} {st0 s : State} (h : Nat) (seq : Nat) (dt : Nat) (k_dram : kp.dram = true) (hk : Keeps kp st0 s) :
    Keeps kp st0 (State.retime s h seq dt) := by
  have := @State.resumeStamp_keeps
  have := @State.putFsdt_keeps
  have := @State.frameTerms_keeps
  have := @State.clearsPost_keeps
  unfold State.retime; exact Keeps.chain

theorem hlvLine_keeps {kp : Parts} {st0 s : State} (h : Nat) (t : Nat) (k_dram : kp.dram = true) (hk : Keeps kp st0 s) :
    Keeps kp st0 (hlvLine h t s) := by
  have := @hlvRise_keeps
  have := @State.txnFirstLine_keeps
  have := @State.retime_keeps
  unfold hlvLine; exact Keeps.chain

theorem State.calMute_keeps {kp : Parts} {st0 s : State} (h : Nat) (t : Nat) (hk : Keeps kp st0 s) :
    Keeps kp st0 (State.calMute s h t) := by
  have := @State.fresh_keeps
  have := @State.discardFrame_keeps
  have := @State.modFrame_keeps
  unfold State.calMute; exact Keeps.chain

theorem State.calRelease_keeps {kp : Parts} {st0 s : State} (h : Nat) (t : Nat) (k_dram : kp.dram = true) (hk : Keeps kp st0 s) :
    Keeps kp st0 (State.calRelease s h t) := by
  have := @State.frameUse_keeps
  have := @State.modFrame_keeps
  have := @State.retime_keeps
  unfold State.calRelease; exact Keeps.chain

theorem State.calReleases_keeps {kp : Parts} {st0 s : State} (r : Nat) (t : Nat) (k_dram : kp.dram = true) (hk : Keeps kp st0 s) :
    Keeps kp st0 (State.calReleases s r t) := by
  have := @State.calRelease_keeps
  unfold State.calReleases; exact Keeps.chain

theorem bankCalStart_keeps {kp : Parts} {st0 s : State} (r : Nat) (t : Nat) (hk : Keeps kp st0 s) :
    Keeps kp st0 (bankCalStart r t s) := by
  have := @Keeps.whenever
  have := @State.at_keeps
  have := @State.put_keeps
  have := @State.calMute_keeps
  have := @State.modBank_keeps
  unfold bankCalStart; exact Keeps.chain

end Sys2Proof.Machine
end

