-- ==== Sys2Proof/Laws/KeepsAccess.lean ====
section
/-! SUPPORT. The operations of Machine/Access.lean are in the relation `Keeps`: each lemma says what its operation may change. -/

set_option linter.tactic.unusedName false
set_option Elab.async false

namespace Sys2Proof.Machine

theorem State.readLo_keeps {kp : Parts} {st0 s : State} (p : Port) (a : Nat) (hk : Keeps kp st0 s) :
    Keeps kp st0 (State.readLo s p a).2 := by
  unfold State.readLo; exact Keeps.chain

theorem State.readHi_keeps {kp : Parts} {st0 s : State} (p : Port) (a : Nat) (ovw : Option Fld) (hk : Keeps kp st0 s) :
    Keeps kp st0 (State.readHi s p a ovw).2 := by
  have := @State.put_keeps
  unfold State.readHi; exact Keeps.chain

theorem State.readWindow_keeps {kp : Parts} {st0 s : State} (a : Nat) (k_nvm : kp.nvm = true) (hk : Keeps kp st0 s) :
    Keeps kp st0 (State.readWindow s a).2 := by
  have := @State.freshUpTo_keeps
  have := @State.nvWindow_keeps
  unfold State.readWindow; exact Keeps.chain

theorem State.readReg_keeps {kp : Parts} {st0 s : State} (p : Port) (addr : Nat) (be : Nat) (k_nvm : kp.nvm = true) (hk : Keeps kp st0 s) :
    Keeps kp st0 (State.readReg s p addr be).2 := by
  have := @State.readWindow_keeps
  have := @State.trigsDue_keeps
  have := @State.readLo_keeps
  have := @State.readHi_keeps
  unfold State.readReg; exact Keeps.chain

theorem pairRead_keeps {kp : Parts} {st0 s : State} (p : Port) (addr : Nat) (be : Nat) (hi : Bool) (k_nvm : kp.nvm = true) (hk : Keeps kp st0 s) :
    Keeps kp st0 (pairRead p addr be hi s) := by
  have := @Keeps.whenever
  have := @State.readReg_keeps
  unfold pairRead; exact Keeps.chain

theorem State.plain_keeps {kp : Parts} {st0 s : State} (a : Nat) (w : Word) (hk : Keeps kp st0 s) :
    Keeps kp st0 (State.plain s a w) := by
  have := @State.setReg_keeps
  unfold State.plain; exact Keeps.chain

theorem State.plainBut_keeps {kp : Parts} {st0 s : State} (a : Nat) (w : Word) (no : Nat) (hk : Keeps kp st0 s) :
    Keeps kp st0 (State.plainBut s a w no) := by
  have := @State.plain_keeps
  unfold State.plainBut; exact Keeps.chain

theorem State.onBit_keeps {kp : Parts} {st0 s : State} (w : Word) (i : Nat) (f : State → State) (h_f : ∀  x, Keeps kp st0 x → Keeps kp st0 (f  x)) (hk : Keeps kp st0 s) :
    Keeps kp st0 (State.onBit s w i f) := by
  unfold State.onBit; exact Keeps.chain

theorem State.refuse_keeps {kp : Parts} {st0 s : State} (f : Fld) (hk : Keeps kp st0 s) :
    Keeps kp st0 (State.refuse s f) := by
  have := @State.put_keeps
  unfold State.refuse; exact Keeps.chain

theorem State.writeModeCmd_keeps {kp : Parts} {st0 s : State} (w : Word) (t : Nat) (k_mode : kp.mode = true) (k_dram : kp.dram = true) (k_nvm : kp.nvm = true) (k_host : kp.host = true) (hk : Keeps kp st0 s) :
    Keeps kp st0 (State.writeModeCmd s w t) := by
  have := @State.cmdRes_keeps
  have := @modeDormant_keeps
  have := @modeSetup_keeps
  have := @modeRun_keeps
  have := @modeThrottle_keeps
  have := @modeUnthrottle_keeps
  have := @modeSafe_keeps
  unfold State.writeModeCmd; exact Keeps.chain

theorem mspClrcnt_keeps {kp : Parts} {st0 s : State} (hk : Keeps kp st0 s) :
    Keeps kp st0 (mspClrcnt s) := by
  have := @Keeps.whenever
  have := @State.setReg_keeps
  unfold mspClrcnt; exact Keeps.chain

theorem State.writeSys_keeps {kp : Parts} {st0 s : State} (a : Nat) (w : Word) (t : Nat) (k_mode : kp.mode = true) (k_dram : kp.dram = true) (k_nvm : kp.nvm = true) (k_host : kp.host = true) (hk : Keeps kp st0 s) :
    Keeps kp st0 (State.writeSys s a w t) := by
  have := @State.writeModeCmd_keeps
  have := @safeCauseClear_keeps
  have := @sysStreamWrite_keeps
  have := @State.plainBut_keeps
  have := @State.onBit_keeps
  have := @mspClrcnt_keeps
  have := @planReplan_keeps
  have := @planEval_keeps
  have := @State.plain_keeps
  have := @planLimitWrite_keeps
  unfold State.writeSys; exact Keeps.chain

theorem State.writeFc_keeps {kp : Parts} {st0 s : State} (a : Nat) (w : Word) (k_mode : kp.mode = true) (k_dram : kp.dram = true) (k_nvm : kp.nvm = true) (k_host : kp.host = true) (hk : Keeps kp st0 s) :
    Keeps kp st0 (State.writeFc s a w) := by
  have := @faultClear_keeps
  have := @faultAck_keeps
  have := @faultForce_keeps
  have := @unitRestore_keeps
  have := @State.refuse_keeps
  have := @State.plain_keeps
  have := @State.onBit_keeps
  have := @fcClrcnt_keeps
  have := @fcClrfirst_keeps
  unfold State.writeFc; exact Keeps.chain

theorem State.writeHk_keeps {kp : Parts} {st0 s : State} (a : Nat) (w : Word) (t : Nat) (hk : Keeps kp st0 s) :
    Keeps kp st0 (State.writeHk s a w t) := by
  have := @hkCfgWrite_keeps
  have := @State.refuse_keeps
  have := @State.plain_keeps
  have := @hkInj_keeps
  have := @thCfgWrite_keeps
  have := @thMaskWrite_keeps
  have := @State.plainBut_keeps
  have := @State.directWrite_keeps
  unfold State.writeHk; exact Keeps.chain

theorem State.writeNv_keeps {kp : Parts} {st0 s : State} (a : Nat) (w : Word) (hk : Keeps kp st0 s) :
    Keeps kp st0 (State.writeNv s a w) := by
  have := @State.onBit_keeps
  have := @nvClrcnt_keeps
  have := @State.refuse_keeps
  have := @nvWrite_keeps
  have := @State.plain_keeps
  unfold State.writeNv; exact Keeps.chain

theorem State.writeTrg_keeps {kp : Parts} {st0 s : State} (a : Nat) (w : Word) (t : Nat) (hk : Keeps kp st0 s) :
    Keeps kp st0 (State.writeTrg s a w t) := by
  have := @State.trigsDue_keeps
  have := @State.put_keeps
  have := @State.onBit_keeps
  have := @trgClrcnt_keeps
  have := @ringEnable_keeps
  have := @ringDisable_keeps
  have := @State.plain_keeps
  have := @msgSend_keeps
  have := @msgPop_keeps
  have := @State.plainBut_keeps
  unfold State.writeTrg; exact Keeps.chain

theorem State.writeHp_keeps {kp : Parts} {st0 s : State} (h : Nat) (a : Nat) (w : Word) (hk : Keeps kp st0 s) :
    Keeps kp st0 (State.writeHp s h a w) := by
  have := @hpCtrlWrite_keeps
  have := @State.txnAfter_keeps
  have := @State.onBit_keeps
  have := @profileValidate_keeps
  have := @resume_keeps
  have := @hsupRetry_keeps
  have := @shutCommand_keeps
  have := @State.plainBut_keeps
  have := @hpBiasWrite_keeps
  have := @State.setReg_keeps
  have := @hcpAbort_keeps
  have := @hcpGo_keeps
  have := @State.directWrite_keeps
  have := @hpTstatClrcnt_keeps
  have := @State.plain_keeps
  unfold State.writeHp; exact Keeps.chain

theorem State.writeTc_keeps {kp : Parts} {st0 s : State} (h : Nat) (a : Nat) (w : Word) (hk : Keeps kp st0 s) :
    Keeps kp st0 (State.writeTc s h a w) := by
  have := @tcCfgWrite_keeps
  have := @tcGainWrite_keeps
  have := @State.onBit_keeps
  have := @selfcal_keeps
  have := @tcSclkWrite_keeps
  have := @tcRefcfgWrite_keeps
  have := @State.plain_keeps
  unfold State.writeTc; exact Keeps.chain

theorem State.writeCl_keeps {kp : Parts} {st0 s : State} (r : Nat) (h : Nat) (a : Nat) (w : Word) (hk : Keeps kp st0 s) :
    Keeps kp st0 (State.writeCl s r h a w) := by
  have := @State.onBit_keeps
  have := @clClrcnt_keeps
  have := @State.plain_keeps
  have := @lswap_keeps
  have := @rswap_keeps
  have := @msync_keeps
  have := @clHmirWrite_keeps
  have := @State.directWrite_keeps
  unfold State.writeCl; exact Keeps.chain

theorem State.writeCx_keeps {kp : Parts} {st0 s : State} (r : Nat) (h : Nat) (a : Nat) (w : Word) (hk : Keeps kp st0 s) :
    Keeps kp st0 (State.writeCx s r h a w) := by
  have := @State.plain_keeps
  have := @State.onBit_keeps
  have := @cxClrcnt_keeps
  have := @shreq_keeps
  have := @shutterCancel_keeps
  have := @refit_keeps
  have := @breset_keeps
  have := @quietWindowArm_keeps
  have := @State.directWrite_keeps
  unfold State.writeCx; exact Keeps.chain

theorem State.writeFp_keeps {kp : Parts} {st0 s : State} (r : Nat) (a : Nat) (w : Word) (hk : Keeps kp st0 s) :
    Keeps kp st0 (State.writeFp s r a w) := by
  have := @State.plain_keeps
  have := @State.onBit_keeps
  have := @fpClrcnt_keeps
  have := @State.refuse_keeps
  have := @fpSwap_keeps
  have := @msync_keeps
  have := @State.directWrite_keeps
  unfold State.writeFp; exact Keeps.chain

theorem State.writeSt_keeps {kp : Parts} {st0 s : State} (a : Nat) (w : Word) (hk : Keeps kp st0 s) :
    Keeps kp st0 (State.writeSt s a w) := by
  have := @State.onBit_keeps
  have := @stClrcnt_keeps
  have := @State.directWrite_keeps
  have := @State.plain_keeps
  unfold State.writeSt; exact Keeps.chain

theorem State.writeTx_keeps {kp : Parts} {st0 s : State} (p : Nat) (a : Nat) (w : Word) (hk : Keeps kp st0 s) :
    Keeps kp st0 (State.writeTx s p a w) := by
  have := @txCfgWrite_keeps
  have := @txRateWrite_keeps
  have := @txGapWrite_keeps
  have := @txStreamWrite_keeps
  have := @State.plain_keeps
  unfold State.writeTx; exact Keeps.chain

theorem State.writeMsix_keeps {kp : Parts} {st0 s : State} (f : Nat) (v : Nat) (a : Nat) (w : Word) (k_host : kp.host = true) (hk : Keeps kp st0 s) :
    Keeps kp st0 (State.writeMsix s f v a w) := by
  have := @State.setReg_keeps
  have := @State.msixSend_keeps
  unfold State.writeMsix; exact Keeps.chain

theorem State.writeQ_keeps {kp : Parts} {st0 s : State} (a : Nat) (w : Word) (k_host : kp.host = true) (hk : Keeps kp st0 s) :
    Keeps kp st0 (State.writeQ s a w) := by
  have := @State.refuse_keeps
  have := @State.plain_keeps
  have := @State.onBit_keeps
  have := @ctxRead_keeps
  have := @ctxWrite_keeps
  have := @qFrangeWrite_keeps
  have := @State.writeMsix_keeps
  unfold State.writeQ; exact Keeps.chain

theorem State.writeDma_keeps {kp : Parts} {st0 s : State} (a : Nat) (w : Word) (k_host : kp.host = true) (hk : Keeps kp st0 s) :
    Keeps kp st0 (State.writeDma s a w) := by
  have := @State.onBit_keeps
  have := @dmaRestart_keeps
  have := @dmaClrcnt_keeps
  have := @State.plain_keeps
  have := @dmaChCfgWrite_keeps
  have := @dmaChStop_keeps
  have := @dmaChResume_keeps
  have := @dmaChStart_keeps
  have := @dmaChTailWrite_keeps
  unfold State.writeDma; exact Keeps.chain

theorem State.writeEn_keeps {kp : Parts} {st0 s : State} (a : Nat) (w : Word) (hk : Keeps kp st0 s) :
    Keeps kp st0 (State.writeEn s a w) := by
  have := @State.onBit_keeps
  have := @enClrcnt_keeps
  have := @unretire_keeps
  have := @shCfgWrite_keeps
  have := @mcLoad_keeps
  have := @State.plain_keeps
  have := @mcInstall_keeps
  have := @mcSetmin_keeps
  have := @recipeLoad_keeps
  have := @State.directWrite_keeps
  unfold State.writeEn; exact Keeps.chain

theorem drClrcnt_keeps {kp : Parts} {st0 s : State} (hk : Keeps kp st0 s) :
    Keeps kp st0 (drClrcnt s) := by
  have := @Keeps.whenever
  have := @Keeps.forEach
  have := @State.setReg_keeps
  unfold drClrcnt; exact Keeps.chain

theorem State.writeMon_keeps {kp : Parts} {st0 s : State} (a : Nat) (w : Word) (t : Nat) (hk : Keeps kp st0 s) :
    Keeps kp st0 (State.writeMon s a w t) := by
  have := @monSnap_keeps
  have := @monClr_keeps
  have := @monPerWrite_keeps
  have := @State.plain_keeps
  have := @monCfgWrite_keeps
  unfold State.writeMon; exact Keeps.chain

theorem State.writeTxn_keeps {kp : Parts} {st0 s : State} (p : Port) (a : Nat) (w : Word) (t : Nat) (hk : Keeps kp st0 s) :
    Keeps kp st0 (State.writeTxn s p a w t) := by
  have := @State.cmdRej_keeps
  have := @State.plain_keeps
  have := @State.onBit_keeps
  have := @txnOpen_keeps
  have := @txnCommit_keeps
  have := @txnRollback_keeps
  have := @txnStage_keeps
  unfold State.writeTxn; exact Keeps.chain

theorem State.writeMc_keeps {kp : Parts} {st0 s : State} (a : Nat) (w : Word) (hk : Keeps kp st0 s) :
    Keeps kp st0 (State.writeMc s a w) := by
  have := @State.onBit_keeps
  have := @mcClrcnt_keeps
  have := @State.refuse_keeps
  have := @State.plain_keeps
  unfold State.writeMc; exact Keeps.chain

theorem State.writePair_keeps {kp : Parts} {st0 s : State} (p : Port) (a : Nat) (hi : Bool) (w : Word) (hk : Keeps kp st0 s) :
    Keeps kp st0 (State.writePair s p a hi w) := by
  have := @State.plain_keeps
  unfold State.writePair; exact Keeps.chain

theorem State.writeAt_keeps {kp : Parts} {st0 s : State} (p : Port) (a : Nat) (w : Word) (t : Nat) (k_mode : kp.mode = true) (k_dram : kp.dram = true) (k_nvm : kp.nvm = true) (k_host : kp.host = true) (hk : Keeps kp st0 s) :
    Keeps kp st0 (State.writeAt s p a w t) := by
  have := @State.writePair_keeps
  have := @State.writeSys_keeps
  have := @State.writeFc_keeps
  have := @State.writeHk_keeps
  have := @State.writeNv_keeps
  have := @State.writeTrg_keeps
  have := @State.writeHp_keeps
  have := @State.writeTc_keeps
  have := @State.writeCl_keeps
  have := @State.writeCx_keeps
  have := @State.writeFp_keeps
  have := @State.writeSt_keeps
  have := @State.writeTx_keeps
  have := @State.writeQ_keeps
  have := @State.writeDma_keeps
  have := @State.writeEn_keeps
  have := @State.onBit_keeps
  have := @drClrcnt_keeps
  have := @State.plain_keeps
  have := @State.writeMon_keeps
  have := @State.writeTxn_keeps
  have := @gpSetWrite_keeps
  have := @gpClrWrite_keeps
  have := @State.writeMc_keeps
  have := @State.writeMsix_keeps
  unfold State.writeAt; exact Keeps.chain

theorem State.writeReg_keeps {kp : Parts} {st0 s : State} (p : Port) (addr : Nat) (be : Nat) (v : Word) (t : Nat) (k_mode : kp.mode = true) (k_dram : kp.dram = true) (k_nvm : kp.nvm = true) (k_host : kp.host = true) (hk : Keeps kp st0 s) :
    Keeps kp st0 (State.writeReg s p addr be v t) := by
  have := @State.at_keeps
  have := @State.shCount_keeps
  have := @State.writeAt_keeps
  unfold State.writeReg; exact Keeps.chain

theorem State.writeAt_pair_keeps {kp : Parts} {st0 s : State} (p : Port) (a : Nat) (w : Word) (t : Nat)
    (h : writablePair a = true ∨ 4 ≤ a ∧ writablePair (a - 4) = true) (hk : Keeps kp st0 s) :
    Keeps kp st0 (State.writeAt s p a w t) := by
  delta State.writeAt
  by_cases h1 : writablePair a = true
  · exact (if_pos h1).symm ▸ State.writePair_keeps p a false w hk
  · have h2 : (decide (4 ≤ a) && writablePair (a - 4)) = true := by
      obtain h | ⟨h, h2⟩ := h
      · exact absurd h h1
      · rw [h2, decide_eq_true h]; rfl
    exact (if_neg h1).symm ▸ (if_pos h2).symm ▸ State.writePair_keeps p a true w hk

theorem writablePair_zero : writablePair 0 = false := by decide +kernel

theorem pairWrite_keeps {kp : Parts} {st0 s : State} (p : Port) (addr : Nat) (be : Nat) (hi : Bool) (v : Word)
    (hk : Keeps kp st0 s) : Keeps kp st0 (pairWrite p addr be hi v s) := by
  delta pairWrite State.whenever State.writeReg
  dsimp only
  refine Keeps.ite' (fun h => Keeps.ite hk ?_) fun _ => hk
  split
  · exact State.shCount_keeps _ _ (State.at_keeps _ hk)
  refine State.writeAt_pair_keeps _ _ _ _ ?_ (State.at_keeps _ hk)
  cases hi
  · exact .inl (by simpa using h)
  · rw [if_pos rfl] at h
    by_cases h4 : 4 ≤ canonAddr (addr / 4 * 4)
    · exact .inr ⟨h4, h⟩
    · rw [show canonAddr (addr / 4 * 4) - 4 = 0 by omega, writablePair_zero] at h; cases h

end Sys2Proof.Machine
end

