-- ==== Sys2Proof/Laws/KeepsMsp.lean ====
section
/-! SUPPORT. The operations of Machine/Msp.lean are in the relation `Keeps`: each lemma says what its operation may change. -/

set_option linter.tactic.unusedName false
set_option Elab.async false

namespace Sys2Proof.Machine

theorem State.modMsp_keeps {kp : Parts} {st0 s : State} (f : MspUnit → MspUnit) (hk : Keeps kp st0 s) :
    Keeps kp st0 (State.modMsp s f) := by
  unfold State.modMsp; exact Keeps.chain

theorem State.mspEnd_keeps {kp : Parts} {st0 s : State} (a : Nat) (words : Nat) (hk : Keeps kp st0 s) :
    Keeps kp st0 (State.mspEnd s a words) := by
  have := @State.bump_keeps
  have := @State.put_keeps
  have := @State.modMsp_keeps
  unfold State.mspEnd; exact Keeps.chain

theorem State.mspFetch_keeps {kp : Parts} {st0 s : State} (k_nvm : kp.nvm = true) (hk : Keeps kp st0 s) :
    Keeps kp st0 (State.mspFetch s) := by
  have := @State.readReg_keeps
  have := @State.modMsp_keeps
  have := @State.mspEnd_keeps
  unfold State.mspFetch; exact Keeps.chain

theorem State.mspFetches_keeps {kp : Parts} {st0 s : State}  (n : Nat) (k_nvm : kp.nvm = true) (hk : Keeps kp st0 s) :
    Keeps kp st0 (State.mspFetches s n) := by
  have := @State.mspFetch_keeps
  induction n generalizing s with
  | zero => unfold State.mspFetches; exact Keeps.chain
  | succ n ih => unfold State.mspFetches; exact Keeps.chain

theorem State.mspBegin_keeps {kp : Parts} {st0 s : State} (k_nvm : kp.nvm = true) (hk : Keeps kp st0 s) :
    Keeps kp st0 (State.mspBegin s) := by
  have := @State.mspFetches_keeps
  have := @State.modMsp_keeps
  unfold State.mspBegin; exact Keeps.chain

theorem State.mspDiscard_keeps {kp : Parts} {st0 s : State} (hk : Keeps kp st0 s) :
    Keeps kp st0 (State.mspDiscard s) := by
  have := @State.bump_keeps
  unfold State.mspDiscard; exact Keeps.chain

theorem State.mspShort_keeps {kp : Parts} {st0 s : State} (hk : Keeps kp st0 s) :
    Keeps kp st0 (State.mspShort s) := by
  have := @State.put_keeps
  have := @State.mspDiscard_keeps
  have := @State.mspEnd_keeps
  unfold State.mspShort; exact Keeps.chain

theorem State.mspWriteFrame_keeps {kp : Parts} {st0 s : State} (crc : Bool) (bits : List Bool) (t : Nat) (k_mode : kp.mode = true) (k_dram : kp.dram = true) (k_nvm : kp.nvm = true) (k_host : kp.host = true) (hk : Keeps kp st0 s) :
    Keeps kp st0 (State.mspWriteFrame s crc bits t) := by
  have := @State.at_keeps
  have := @State.mspBegin_keeps
  have := @State.mspShort_keeps
  have := @State.writeReg_keeps
  have := @State.put_keeps
  have := @State.bump_keeps
  have := @State.raise_keeps
  have := @State.modMsp_keeps
  have := @State.mspDiscard_keeps
  have := @State.mspEnd_keeps
  unfold State.mspWriteFrame; exact Keeps.chain

theorem State.mspReadFrame_keeps {kp : Parts} {st0 s : State} (crc : Bool) (bits : List Bool) (words : Nat) (k_nvm : kp.nvm = true) (hk : Keeps kp st0 s) :
    Keeps kp st0 (State.mspReadFrame s crc bits words) := by
  have := @State.mspBegin_keeps
  have := @State.mspShort_keeps
  have := @State.put_keeps
  have := @State.modMsp_keeps
  unfold State.mspReadFrame; exact Keeps.chain

theorem mspStatus_keeps {kp : Parts} {st0 s : State} (k_nvm : kp.nvm = true) (hk : Keeps kp st0 s) :
    Keeps kp st0 (mspStatus s) := by
  have := @Keeps.whenever
  have := @State.mspBegin_keeps
  have := @State.mspEnd_keeps
  unfold mspStatus; exact Keeps.chain

theorem mspWrite_keeps {kp : Parts} {st0 s : State} (crc : Bool) (bits : List Bool) (t : Nat) (k_mode : kp.mode = true) (k_dram : kp.dram = true) (k_nvm : kp.nvm = true) (k_host : kp.host = true) (hk : Keeps kp st0 s) :
    Keeps kp st0 (mspWrite crc bits t s) := by
  have := @Keeps.whenever
  have := @State.mspWriteFrame_keeps
  unfold mspWrite; exact Keeps.chain

theorem mspRead_keeps {kp : Parts} {st0 s : State} (crc : Bool) (bits : List Bool) (words : Nat) (k_nvm : kp.nvm = true) (hk : Keeps kp st0 s) :
    Keeps kp st0 (mspRead crc bits words s) := by
  have := @Keeps.whenever
  have := @State.mspReadFrame_keeps
  unfold mspRead; exact Keeps.chain

theorem mspReadFetch_keeps {kp : Parts} {st0 s : State} (k_nvm : kp.nvm = true) (hk : Keeps kp st0 s) :
    Keeps kp st0 (mspReadFetch s) := by
  have := @Keeps.whenever
  have := @State.mspFetch_keeps
  unfold mspReadFetch; exact Keeps.chain

theorem mspBadFrame_keeps {kp : Parts} {st0 s : State} (cmd : List Bool) (k_nvm : kp.nvm = true) (hk : Keeps kp st0 s) :
    Keeps kp st0 (mspBadFrame cmd s) := by
  have := @Keeps.whenever
  have := @State.mspBegin_keeps
  have := @State.put_keeps
  have := @State.mspDiscard_keeps
  have := @State.mspEnd_keeps
  unfold mspBadFrame; exact Keeps.chain

end Sys2Proof.Machine
end

