-- ==== Sys2Proof/Laws/KeepsSpine.lean ====
section
/-! SUPPORT. The operations of Machine/Spine.lean are in the relation `Keeps`: each lemma says what its operation may change. -/

set_option linter.tactic.unusedName false
set_option Elab.async false

namespace Sys2Proof.Machine

theorem State.setFlit_keeps {kp : Parts} {st0 s : State} (l : Link) (n : Nat) (hk : Keeps kp st0 s) :
    Keeps kp st0 (State.setFlit s l n) := by
  unfold State.setFlit; exact Keeps.chain

theorem spineFlitCrcFail_keeps {kp : Parts} {st0 s : State} (l : Link) (same : Bool) (hk : Keeps kp st0 s) :
    Keeps kp st0 (spineFlitCrcFail l same s) := by
  have := @Keeps.whenever
  have := @State.setFlit_keeps
  have := @State.raise_keeps
  unfold spineFlitCrcFail; exact Keeps.chain

theorem spineLinkFailed_keeps {kp : Parts} {st0 s : State} (l : Link) (hk : Keeps kp st0 s) :
    Keeps kp st0 (spineLinkFailed l s) := by
  have := @Keeps.whenever
  have := @State.setFlit_keeps
  have := @State.raise_keeps
  have := @State.digitalLost_keeps
  have := @State.planAuto_keeps
  have := @State.freshUpTo_keeps
  unfold spineLinkFailed; exact Keeps.chain

theorem c3FloorWindowEnd_keeps {kp : Parts} {st0 s : State} (l : Link) (t : Nat) (hk : Keeps kp st0 s) :
    Keeps kp st0 (c3FloorWindowEnd l t s) := by
  have := @Keeps.whenever
  have := @State.at_keeps
  unfold c3FloorWindowEnd; exact Keeps.chain

end Sys2Proof.Machine
end

