-- ==== Sys2Proof/Laws/KeepsBoundaryScan.lean ====
section
/-! SUPPORT. The operations of Machine/BoundaryScan.lean are in the relation `Keeps`: each lemma says what its operation may change. -/

set_option linter.tactic.unusedName false
set_option Elab.async false

namespace Sys2Proof.Machine

theorem State.portsSafe_keeps {kp : Parts} {st0 s : State} (hk : Keeps kp st0 s) :
    Keeps kp st0 (State.portsSafe s) := by
  have := @Keeps.forEach
  have := @State.hsupOff_keeps
  have := @State.modHead_keeps
  unfold State.portsSafe; exact Keeps.chain

theorem State.tapLoad_keeps {kp : Parts} {st0 s : State} (code : BitVec 8) (hk : Keeps kp st0 s) :
    Keeps kp st0 (State.tapLoad s code) := by
  have := @State.portsSafe_keeps
  unfold State.tapLoad; exact Keeps.chain

theorem tapInstruction_keeps {kp : Parts} {st0 s : State} (code : BitVec 8) (hk : Keeps kp st0 s) :
    Keeps kp st0 (tapInstruction code s) := by
  have := @Keeps.whenever
  have := @State.tapLoad_keeps
  unfold tapInstruction; exact Keeps.chain

theorem tapPreload_keeps {kp : Parts} {st0 s : State} (cells : List Bool) (hk : Keeps kp st0 s) :
    Keeps kp st0 (tapPreload cells s) := by
  have := @Keeps.whenever
  have := @State.tapLoad_keeps
  unfold tapPreload; exact Keeps.chain

theorem tapBypass_keeps {kp : Parts} {st0 s : State} (code : BitVec 8) (hk : Keeps kp st0 s) :
    Keeps kp st0 (tapBypass code s) := by
  have := @Keeps.whenever
  have := @tapInstruction_keeps
  unfold tapBypass; exact Keeps.chain

theorem tapReset_keeps {kp : Parts} {st0 s : State} (hk : Keeps kp st0 s) :
    Keeps kp st0 (tapReset s) := by
  have := @tapInstruction_keeps
  unfold tapReset; exact Keeps.chain

theorem testModeExitReset_keeps {kp : Parts} {st0 s : State} (k_mode : kp.mode = true) (k_dram : kp.dram = true) (k_nvm : kp.nvm = true) (k_host : kp.host = true) (k_dt : kp.dt = true) (hk : Keeps kp st0 s) :
    Keeps kp st0 (testModeExitReset s) := by
  have := @Keeps.whenever
  have := @resetEntry_keeps
  unfold testModeExitReset; exact Keeps.chain

end Sys2Proof.Machine
end

