-- ==== Sys2Proof/Laws/KeepsClock.lean ====
section
/-! SUPPORT. The operations of Machine/Clock.lean are in the relation `Keeps`: each lemma says what its operation may change. -/

set_option linter.tactic.unusedName false
set_option Elab.async false

namespace Sys2Proof.Machine

theorem le_div_add (a b c n : Nat) (h : 0 < n) : a ≤ (a * n + b + c) / n := by
  rw [Nat.le_div_iff_mul_le h, Nat.add_assoc]; exact Nat.le_add_right _ _

theorem State.advance_keeps {kp : Parts} {st0 s : State} (inc : Nat) (hk : Keeps kp st0 s) :
    Keeps kp st0 (State.advance s inc) := by
  delta State.advance
  exact hk.trans ⟨Eq.refl _, fun w => ⟨w.regs, w.dram, w.nvm, w.host⟩, fun _ => Eq.refl _, fun _ => Eq.refl _,
    fun _ => Eq.refl _, fun _ => Eq.refl _, fun _ => le_div_add _ _ _ _ (by norm_num)⟩

theorem State.advanceTo_keeps {kp : Parts} {st0 s : State} (inc : Nat) (hk : Keeps kp st0 s) :
    Keeps kp st0 (State.advanceTo s inc) := by
  have := @State.advance_keeps
  have := @State.trigsDue_keeps
  unfold State.advanceTo; exact Keeps.chain

theorem clockTick_keeps {kp : Parts} {st0 s : State} (hk : Keeps kp st0 s) :
    Keeps kp st0 (clockTick s) := by
  have := @State.freshUpTo_keeps
  have := @State.advanceTo_keeps
  unfold clockTick; exact Keeps.chain

end Sys2Proof.Machine
end

