-- ==== Sys2Proof/Laws/State.lean ====
section
/-! SUPPORT. One lemma per field of the state per named update: what the update leaves as it was, and what it sets. -/

namespace Sys2Proof.Machine

/-! ### State.setReg -/

@[simp] theorem State.setReg_mode (s : State) (a : Nat) (w : Word) : (s.setReg a w).mode = s.mode := rfl
@[simp] theorem State.setReg_dt (s : State) (a : Nat) (w : Word) : (s.setReg a w).dt = s.dt := rfl
@[simp] theorem State.setReg_dtFrac (s : State) (a : Nat) (w : Word) : (s.setReg a w).dtFrac = s.dtFrac := rfl
@[simp] theorem State.setReg_freeCnt (s : State) (a : Nat) (w : Word) : (s.setReg a w).freeCnt = s.freeCnt := rfl
@[simp] theorem State.setReg_dram (s : State) (a : Nat) (w : Word) : (s.setReg a w).dram = s.dram := rfl
@[simp] theorem State.setReg_nvm (s : State) (a : Nat) (w : Word) : (s.setReg a w).nvm = s.nvm := rfl
@[simp] theorem State.setReg_host (s : State) (a : Nat) (w : Word) : (s.setReg a w).host = s.host := rfl
@[simp] theorem State.setReg_inbox (s : State) (a : Nat) (w : Word) : (s.setReg a w).inbox = s.inbox := rfl
@[simp] theorem State.setReg_heads (s : State) (a : Nat) (w : Word) : (s.setReg a w).heads = s.heads := rfl
@[simp] theorem State.setReg_banks (s : State) (a : Nat) (w : Word) : (s.setReg a w).banks = s.banks := rfl
@[simp] theorem State.setReg_shutters (s : State) (a : Nat) (w : Word) : (s.setReg a w).shutters = s.shutters := rfl
@[simp] theorem State.setReg_ring (s : State) (a : Nat) (w : Word) : (s.setReg a w).ring = s.ring := rfl
@[simp] theorem State.setReg_nv (s : State) (a : Nat) (w : Word) : (s.setReg a w).nv = s.nv := rfl
@[simp] theorem State.setReg_cmdDone (s : State) (a : Nat) (w : Word) : (s.setReg a w).cmdDone = s.cmdDone := rfl
@[simp] theorem State.setReg_churnRun (s : State) (a : Nat) (w : Word) : (s.setReg a w).churnRun = s.churnRun := rfl
@[simp] theorem State.setReg_churnQueue (s : State) (a : Nat) (w : Word) : (s.setReg a w).churnQueue = s.churnQueue := rfl
@[simp] theorem State.setReg_scrubAt (s : State) (a : Nat) (w : Word) : (s.setReg a w).scrubAt = s.scrubAt := rfl
@[simp] theorem State.setReg_image (s : State) (a : Nat) (w : Word) : (s.setReg a w).image = s.image := rfl
@[simp] theorem State.setReg_nextBlock (s : State) (a : Nat) (w : Word) : (s.setReg a w).nextBlock = s.nextBlock := rfl
@[simp] theorem State.setReg_nextCell (s : State) (a : Nat) (w : Word) : (s.setReg a w).nextCell = s.nextCell := rfl
@[simp] theorem State.setReg_fifoPeak (s : State) (a : Nat) (w : Word) : (s.setReg a w).fifoPeak = s.fifoPeak := rfl
@[simp] theorem State.setReg_reroute (s : State) (a : Nat) (w : Word) : (s.setReg a w).reroute = s.reroute := rfl
@[simp] theorem State.setReg_digitalFail (s : State) (a : Nat) (w : Word) : (s.setReg a w).digitalFail = s.digitalFail := rfl
@[simp] theorem State.setReg_bankRetired (s : State) (a : Nat) (w : Word) : (s.setReg a w).bankRetired = s.bankRetired := rfl
@[simp] theorem State.setReg_uplinkDown (s : State) (a : Nat) (w : Word) : (s.setReg a w).uplinkDown = s.uplinkDown := rfl
@[simp] theorem State.setReg_chipDown (s : State) (a : Nat) (w : Word) : (s.setReg a w).chipDown = s.chipDown := rfl
@[simp] theorem State.setReg_flitFails (s : State) (a : Nat) (w : Word) : (s.setReg a w).flitFails = s.flitFails := rfl
@[simp] theorem State.setReg_lostChan (s : State) (a : Nat) (w : Word) : (s.setReg a w).lostChan = s.lostChan := rfl
@[simp] theorem State.setReg_mirCopies (s : State) (a : Nat) (w : Word) : (s.setReg a w).mirCopies = s.mirCopies := rfl
@[simp] theorem State.setReg_lastRead (s : State) (a : Nat) (w : Word) : (s.setReg a w).lastRead = s.lastRead := rfl
@[simp] theorem State.setReg_pairVer (s : State) (a : Nat) (w : Word) : (s.setReg a w).pairVer = s.pairVer := rfl
@[simp] theorem State.setReg_pairRead (s : State) (a : Nat) (w : Word) : (s.setReg a w).pairRead = s.pairRead := rfl
@[simp] theorem State.setReg_pairHold (s : State) (a : Nat) (w : Word) : (s.setReg a w).pairHold = s.pairHold := rfl
@[simp] theorem State.setReg_refStopped (s : State) (a : Nat) (w : Word) : (s.setReg a w).refStopped = s.refStopped := rfl
@[simp] theorem State.setReg_blocks (s : State) (a : Nat) (w : Word) : (s.setReg a w).blocks = s.blocks := rfl
@[simp] theorem State.setReg_mcLoad (s : State) (a : Nat) (w : Word) : (s.setReg a w).mcLoad = s.mcLoad := rfl
@[simp] theorem State.setReg_mcActive (s : State) (a : Nat) (w : Word) : (s.setReg a w).mcActive = s.mcActive := rfl
@[simp] theorem State.setReg_recipes (s : State) (a : Nat) (w : Word) : (s.setReg a w).recipes = s.recipes := rfl
@[simp] theorem State.setReg_recipeLoad (s : State) (a : Nat) (w : Word) : (s.setReg a w).recipeLoad = s.recipeLoad := rfl
@[simp] theorem State.setReg_planQ (s : State) (a : Nat) (w : Word) : (s.setReg a w).planQ = s.planQ := rfl
@[simp] theorem State.setReg_planRun (s : State) (a : Nat) (w : Word) : (s.setReg a w).planRun = s.planRun := rfl
@[simp] theorem State.setReg_pipes (s : State) (a : Nat) (w : Word) : (s.setReg a w).pipes = s.pipes := rfl
@[simp] theorem State.setReg_bufs (s : State) (a : Nat) (w : Word) : (s.setReg a w).bufs = s.bufs := rfl
@[simp] theorem State.setReg_csi (s : State) (a : Nat) (w : Word) : (s.setReg a w).csi = s.csi := rfl
@[simp] theorem State.setReg_alarms (s : State) (a : Nat) (w : Word) : (s.setReg a w).alarms = s.alarms := rfl
@[simp] theorem State.setReg_txns (s : State) (a : Nat) (w : Word) : (s.setReg a w).txns = s.txns := rfl
@[simp] theorem State.setReg_txnQ (s : State) (a : Nat) (w : Word) : (s.setReg a w).txnQ = s.txnQ := rfl
@[simp] theorem State.setReg_openRes (s : State) (a : Nat) (w : Word) : (s.setReg a w).openRes = s.openRes := rfl
@[simp] theorem State.setReg_monWin (s : State) (a : Nat) (w : Word) : (s.setReg a w).monWin = s.monWin := rfl
@[simp] theorem State.setReg_samples (s : State) (a : Nat) (w : Word) : (s.setReg a w).samples = s.samples := rfl
@[simp] theorem State.setReg_rings (s : State) (a : Nat) (w : Word) : (s.setReg a w).rings = s.rings := rfl
@[simp] theorem State.setReg_jobs (s : State) (a : Nat) (w : Word) : (s.setReg a w).jobs = s.jobs := rfl
@[simp] theorem State.setReg_ctxCmd (s : State) (a : Nat) (w : Word) : (s.setReg a w).ctxCmd = s.ctxCmd := rfl
@[simp] theorem State.setReg_fetchLast (s : State) (a : Nat) (w : Word) : (s.setReg a w).fetchLast = s.fetchLast := rfl
@[simp] theorem State.setReg_bar4 (s : State) (a : Nat) (w : Word) : (s.setReg a w).bar4 = s.bar4 := rfl
@[simp] theorem State.setReg_c0Mark (s : State) (a : Nat) (w : Word) : (s.setReg a w).c0Mark = s.c0Mark := rfl
@[simp] theorem State.setReg_pcie (s : State) (a : Nat) (w : Word) : (s.setReg a w).pcie = s.pcie := rfl
@[simp] theorem State.setReg_dma (s : State) (a : Nat) (w : Word) : (s.setReg a w).dma = s.dma := rfl
@[simp] theorem State.setReg_faults (s : State) (a : Nat) (w : Word) : (s.setReg a w).faults = s.faults := rfl
@[simp] theorem State.setReg_power (s : State) (a : Nat) (w : Word) : (s.setReg a w).power = s.power := rfl
@[simp] theorem State.setReg_hk (s : State) (a : Nat) (w : Word) : (s.setReg a w).hk = s.hk := rfl
@[simp] theorem State.setReg_msp (s : State) (a : Nat) (w : Word) : (s.setReg a w).msp = s.msp := rfl
@[simp] theorem State.setReg_tap (s : State) (a : Nat) (w : Word) : (s.setReg a w).tap = s.tap := rfl
@[simp] theorem State.setReg_floors (s : State) (a : Nat) (w : Word) : (s.setReg a w).floors = s.floors := rfl
@[simp] theorem State.setReg_frames (s : State) (a : Nat) (w : Word) : (s.setReg a w).frames = s.frames := rfl
@[simp] theorem State.setReg_quires (s : State) (a : Nat) (w : Word) : (s.setReg a w).quires = s.quires := rfl
@[simp] theorem State.setReg_pending (s : State) (a : Nat) (w : Word) : (s.setReg a w).pending = s.pending := rfl
@[simp] theorem State.setReg_head (s : State) (a : Nat) (w : Word) (x : Nat) : (s.setReg a w).head x = s.head x := rfl
@[simp] theorem State.setReg_inRun (s : State) (a : Nat) (w : Word) : (s.setReg a w).inRun = s.inRun := rfl
@[simp] theorem State.setReg_access (s : State) (a : Nat) (w : Word) (x : Nat) : (s.setReg a w).access x = s.access x := rfl

/-! ### State.put -/

@[simp] theorem State.put_mode (s : State) (f : Fld) (v : Nat) : (s.put f v).mode = s.mode := rfl
@[simp] theorem State.put_dt (s : State) (f : Fld) (v : Nat) : (s.put f v).dt = s.dt := rfl
@[simp] theorem State.put_dtFrac (s : State) (f : Fld) (v : Nat) : (s.put f v).dtFrac = s.dtFrac := rfl
@[simp] theorem State.put_freeCnt (s : State) (f : Fld) (v : Nat) : (s.put f v).freeCnt = s.freeCnt := rfl
@[simp] theorem State.put_dram (s : State) (f : Fld) (v : Nat) : (s.put f v).dram = s.dram := rfl
@[simp] theorem State.put_nvm (s : State) (f : Fld) (v : Nat) : (s.put f v).nvm = s.nvm := rfl
@[simp] theorem State.put_host (s : State) (f : Fld) (v : Nat) : (s.put f v).host = s.host := rfl
@[simp] theorem State.put_inbox (s : State) (f : Fld) (v : Nat) : (s.put f v).inbox = s.inbox := rfl
@[simp] theorem State.put_heads (s : State) (f : Fld) (v : Nat) : (s.put f v).heads = s.heads := rfl
@[simp] theorem State.put_banks (s : State) (f : Fld) (v : Nat) : (s.put f v).banks = s.banks := rfl
@[simp] theorem State.put_shutters (s : State) (f : Fld) (v : Nat) : (s.put f v).shutters = s.shutters := rfl
@[simp] theorem State.put_ring (s : State) (f : Fld) (v : Nat) : (s.put f v).ring = s.ring := rfl
@[simp] theorem State.put_nv (s : State) (f : Fld) (v : Nat) : (s.put f v).nv = s.nv := rfl
@[simp] theorem State.put_cmdDone (s : State) (f : Fld) (v : Nat) : (s.put f v).cmdDone = s.cmdDone := rfl
@[simp] theorem State.put_churnRun (s : State) (f : Fld) (v : Nat) : (s.put f v).churnRun = s.churnRun := rfl
@[simp] theorem State.put_churnQueue (s : State) (f : Fld) (v : Nat) : (s.put f v).churnQueue = s.churnQueue := rfl
@[simp] theorem State.put_scrubAt (s : State) (f : Fld) (v : Nat) : (s.put f v).scrubAt = s.scrubAt := rfl
@[simp] theorem State.put_image (s : State) (f : Fld) (v : Nat) : (s.put f v).image = s.image := rfl
@[simp] theorem State.put_nextBlock (s : State) (f : Fld) (v : Nat) : (s.put f v).nextBlock = s.nextBlock := rfl
@[simp] theorem State.put_nextCell (s : State) (f : Fld) (v : Nat) : (s.put f v).nextCell = s.nextCell := rfl
@[simp] theorem State.put_fifoPeak (s : State) (f : Fld) (v : Nat) : (s.put f v).fifoPeak = s.fifoPeak := rfl
@[simp] theorem State.put_reroute (s : State) (f : Fld) (v : Nat) : (s.put f v).reroute = s.reroute := rfl
@[simp] theorem State.put_digitalFail (s : State) (f : Fld) (v : Nat) : (s.put f v).digitalFail = s.digitalFail := rfl
@[simp] theorem State.put_bankRetired (s : State) (f : Fld) (v : Nat) : (s.put f v).bankRetired = s.bankRetired := rfl
@[simp] theorem State.put_uplinkDown (s : State) (f : Fld) (v : Nat) : (s.put f v).uplinkDown = s.uplinkDown := rfl
@[simp] theorem State.put_chipDown (s : State) (f : Fld) (v : Nat) : (s.put f v).chipDown = s.chipDown := rfl
@[simp] theorem State.put_flitFails (s : State) (f : Fld) (v : Nat) : (s.put f v).flitFails = s.flitFails := rfl
@[simp] theorem State.put_lostChan (s : State) (f : Fld) (v : Nat) : (s.put f v).lostChan = s.lostChan := rfl
@[simp] theorem State.put_mirCopies (s : State) (f : Fld) (v : Nat) : (s.put f v).mirCopies = s.mirCopies := rfl
@[simp] theorem State.put_lastRead (s : State) (f : Fld) (v : Nat) : (s.put f v).lastRead = s.lastRead := rfl
@[simp] theorem State.put_pairVer (s : State) (f : Fld) (v : Nat) : (s.put f v).pairVer = s.pairVer := rfl
@[simp] theorem State.put_pairRead (s : State) (f : Fld) (v : Nat) : (s.put f v).pairRead = s.pairRead := rfl
@[simp] theorem State.put_pairHold (s : State) (f : Fld) (v : Nat) : (s.put f v).pairHold = s.pairHold := rfl
@[simp] theorem State.put_refStopped (s : State) (f : Fld) (v : Nat) : (s.put f v).refStopped = s.refStopped := rfl
@[simp] theorem State.put_blocks (s : State) (f : Fld) (v : Nat) : (s.put f v).blocks = s.blocks := rfl
@[simp] theorem State.put_mcLoad (s : State) (f : Fld) (v : Nat) : (s.put f v).mcLoad = s.mcLoad := rfl
@[simp] theorem State.put_mcActive (s : State) (f : Fld) (v : Nat) : (s.put f v).mcActive = s.mcActive := rfl
@[simp] theorem State.put_recipes (s : State) (f : Fld) (v : Nat) : (s.put f v).recipes = s.recipes := rfl
@[simp] theorem State.put_recipeLoad (s : State) (f : Fld) (v : Nat) : (s.put f v).recipeLoad = s.recipeLoad := rfl
@[simp] theorem State.put_planQ (s : State) (f : Fld) (v : Nat) : (s.put f v).planQ = s.planQ := rfl
@[simp] theorem State.put_planRun (s : State) (f : Fld) (v : Nat) : (s.put f v).planRun = s.planRun := rfl
@[simp] theorem State.put_pipes (s : State) (f : Fld) (v : Nat) : (s.put f v).pipes = s.pipes := rfl
@[simp] theorem State.put_bufs (s : State) (f : Fld) (v : Nat) : (s.put f v).bufs = s.bufs := rfl
@[simp] theorem State.put_csi (s : State) (f : Fld) (v : Nat) : (s.put f v).csi = s.csi := rfl
@[simp] theorem State.put_alarms (s : State) (f : Fld) (v : Nat) : (s.put f v).alarms = s.alarms := rfl
@[simp] theorem State.put_txns (s : State) (f : Fld) (v : Nat) : (s.put f v).txns = s.txns := rfl
@[simp] theorem State.put_txnQ (s : State) (f : Fld) (v : Nat) : (s.put f v).txnQ = s.txnQ := rfl
@[simp] theorem State.put_openRes (s : State) (f : Fld) (v : Nat) : (s.put f v).openRes = s.openRes := rfl
@[simp] theorem State.put_monWin (s : State) (f : Fld) (v : Nat) : (s.put f v).monWin = s.monWin := rfl
@[simp] theorem State.put_samples (s : State) (f : Fld) (v : Nat) : (s.put f v).samples = s.samples := rfl
@[simp] theorem State.put_rings (s : State) (f : Fld) (v : Nat) : (s.put f v).rings = s.rings := rfl
@[simp] theorem State.put_jobs (s : State) (f : Fld) (v : Nat) : (s.put f v).jobs = s.jobs := rfl
@[simp] theorem State.put_ctxCmd (s : State) (f : Fld) (v : Nat) : (s.put f v).ctxCmd = s.ctxCmd := rfl
@[simp] theorem State.put_fetchLast (s : State) (f : Fld) (v : Nat) : (s.put f v).fetchLast = s.fetchLast := rfl
@[simp] theorem State.put_bar4 (s : State) (f : Fld) (v : Nat) : (s.put f v).bar4 = s.bar4 := rfl
@[simp] theorem State.put_c0Mark (s : State) (f : Fld) (v : Nat) : (s.put f v).c0Mark = s.c0Mark := rfl
@[simp] theorem State.put_pcie (s : State) (f : Fld) (v : Nat) : (s.put f v).pcie = s.pcie := rfl
@[simp] theorem State.put_dma (s : State) (f : Fld) (v : Nat) : (s.put f v).dma = s.dma := rfl
@[simp] theorem State.put_faults (s : State) (f : Fld) (v : Nat) : (s.put f v).faults = s.faults := rfl
@[simp] theorem State.put_power (s : State) (f : Fld) (v : Nat) : (s.put f v).power = s.power := rfl
@[simp] theorem State.put_hk (s : State) (f : Fld) (v : Nat) : (s.put f v).hk = s.hk := rfl
@[simp] theorem State.put_msp (s : State) (f : Fld) (v : Nat) : (s.put f v).msp = s.msp := rfl
@[simp] theorem State.put_tap (s : State) (f : Fld) (v : Nat) : (s.put f v).tap = s.tap := rfl
@[simp] theorem State.put_floors (s : State) (f : Fld) (v : Nat) : (s.put f v).floors = s.floors := rfl
@[simp] theorem State.put_frames (s : State) (f : Fld) (v : Nat) : (s.put f v).frames = s.frames := rfl
@[simp] theorem State.put_quires (s : State) (f : Fld) (v : Nat) : (s.put f v).quires = s.quires := rfl
@[simp] theorem State.put_pending (s : State) (f : Fld) (v : Nat) : (s.put f v).pending = s.pending := rfl
@[simp] theorem State.put_head (s : State) (f : Fld) (v : Nat) (x : Nat) : (s.put f v).head x = s.head x := rfl
@[simp] theorem State.put_inRun (s : State) (f : Fld) (v : Nat) : (s.put f v).inRun = s.inRun := rfl
@[simp] theorem State.put_access (s : State) (f : Fld) (v : Nat) (x : Nat) : (s.put f v).access x = s.access x := rfl

/-! ### State.putB -/

@[simp] theorem State.putB_mode (s : State) (f : Fld) (b : Bool) : (s.putB f b).mode = s.mode := rfl
@[simp] theorem State.putB_dt (s : State) (f : Fld) (b : Bool) : (s.putB f b).dt = s.dt := rfl
@[simp] theorem State.putB_dtFrac (s : State) (f : Fld) (b : Bool) : (s.putB f b).dtFrac = s.dtFrac := rfl
@[simp] theorem State.putB_freeCnt (s : State) (f : Fld) (b : Bool) : (s.putB f b).freeCnt = s.freeCnt := rfl
@[simp] theorem State.putB_dram (s : State) (f : Fld) (b : Bool) : (s.putB f b).dram = s.dram := rfl
@[simp] theorem State.putB_nvm (s : State) (f : Fld) (b : Bool) : (s.putB f b).nvm = s.nvm := rfl
@[simp] theorem State.putB_host (s : State) (f : Fld) (b : Bool) : (s.putB f b).host = s.host := rfl
@[simp] theorem State.putB_inbox (s : State) (f : Fld) (b : Bool) : (s.putB f b).inbox = s.inbox := rfl
@[simp] theorem State.putB_heads (s : State) (f : Fld) (b : Bool) : (s.putB f b).heads = s.heads := rfl
@[simp] theorem State.putB_banks (s : State) (f : Fld) (b : Bool) : (s.putB f b).banks = s.banks := rfl
@[simp] theorem State.putB_shutters (s : State) (f : Fld) (b : Bool) : (s.putB f b).shutters = s.shutters := rfl
@[simp] theorem State.putB_ring (s : State) (f : Fld) (b : Bool) : (s.putB f b).ring = s.ring := rfl
@[simp] theorem State.putB_nv (s : State) (f : Fld) (b : Bool) : (s.putB f b).nv = s.nv := rfl
@[simp] theorem State.putB_cmdDone (s : State) (f : Fld) (b : Bool) : (s.putB f b).cmdDone = s.cmdDone := rfl
@[simp] theorem State.putB_churnRun (s : State) (f : Fld) (b : Bool) : (s.putB f b).churnRun = s.churnRun := rfl
@[simp] theorem State.putB_churnQueue (s : State) (f : Fld) (b : Bool) : (s.putB f b).churnQueue = s.churnQueue := rfl
@[simp] theorem State.putB_scrubAt (s : State) (f : Fld) (b : Bool) : (s.putB f b).scrubAt = s.scrubAt := rfl
@[simp] theorem State.putB_image (s : State) (f : Fld) (b : Bool) : (s.putB f b).image = s.image := rfl
@[simp] theorem State.putB_nextBlock (s : State) (f : Fld) (b : Bool) : (s.putB f b).nextBlock = s.nextBlock := rfl
@[simp] theorem State.putB_nextCell (s : State) (f : Fld) (b : Bool) : (s.putB f b).nextCell = s.nextCell := rfl
@[simp] theorem State.putB_fifoPeak (s : State) (f : Fld) (b : Bool) : (s.putB f b).fifoPeak = s.fifoPeak := rfl
@[simp] theorem State.putB_reroute (s : State) (f : Fld) (b : Bool) : (s.putB f b).reroute = s.reroute := rfl
@[simp] theorem State.putB_digitalFail (s : State) (f : Fld) (b : Bool) : (s.putB f b).digitalFail = s.digitalFail := rfl
@[simp] theorem State.putB_bankRetired (s : State) (f : Fld) (b : Bool) : (s.putB f b).bankRetired = s.bankRetired := rfl
@[simp] theorem State.putB_uplinkDown (s : State) (f : Fld) (b : Bool) : (s.putB f b).uplinkDown = s.uplinkDown := rfl
@[simp] theorem State.putB_chipDown (s : State) (f : Fld) (b : Bool) : (s.putB f b).chipDown = s.chipDown := rfl
@[simp] theorem State.putB_flitFails (s : State) (f : Fld) (b : Bool) : (s.putB f b).flitFails = s.flitFails := rfl
@[simp] theorem State.putB_lostChan (s : State) (f : Fld) (b : Bool) : (s.putB f b).lostChan = s.lostChan := rfl
@[simp] theorem State.putB_mirCopies (s : State) (f : Fld) (b : Bool) : (s.putB f b).mirCopies = s.mirCopies := rfl
@[simp] theorem State.putB_lastRead (s : State) (f : Fld) (b : Bool) : (s.putB f b).lastRead = s.lastRead := rfl
@[simp] theorem State.putB_pairVer (s : State) (f : Fld) (b : Bool) : (s.putB f b).pairVer = s.pairVer := rfl
@[simp] theorem State.putB_pairRead (s : State) (f : Fld) (b : Bool) : (s.putB f b).pairRead = s.pairRead := rfl
@[simp] theorem State.putB_pairHold (s : State) (f : Fld) (b : Bool) : (s.putB f b).pairHold = s.pairHold := rfl
@[simp] theorem State.putB_refStopped (s : State) (f : Fld) (b : Bool) : (s.putB f b).refStopped = s.refStopped := rfl
@[simp] theorem State.putB_blocks (s : State) (f : Fld) (b : Bool) : (s.putB f b).blocks = s.blocks := rfl
@[simp] theorem State.putB_mcLoad (s : State) (f : Fld) (b : Bool) : (s.putB f b).mcLoad = s.mcLoad := rfl
@[simp] theorem State.putB_mcActive (s : State) (f : Fld) (b : Bool) : (s.putB f b).mcActive = s.mcActive := rfl
@[simp] theorem State.putB_recipes (s : State) (f : Fld) (b : Bool) : (s.putB f b).recipes = s.recipes := rfl
@[simp] theorem State.putB_recipeLoad (s : State) (f : Fld) (b : Bool) : (s.putB f b).recipeLoad = s.recipeLoad := rfl
@[simp] theorem State.putB_planQ (s : State) (f : Fld) (b : Bool) : (s.putB f b).planQ = s.planQ := rfl
@[simp] theorem State.putB_planRun (s : State) (f : Fld) (b : Bool) : (s.putB f b).planRun = s.planRun := rfl
@[simp] theorem State.putB_pipes (s : State) (f : Fld) (b : Bool) : (s.putB f b).pipes = s.pipes := rfl
@[simp] theorem State.putB_bufs (s : State) (f : Fld) (b : Bool) : (s.putB f b).bufs = s.bufs := rfl
@[simp] theorem State.putB_csi (s : State) (f : Fld) (b : Bool) : (s.putB f b).csi = s.csi := rfl
@[simp] theorem State.putB_alarms (s : State) (f : Fld) (b : Bool) : (s.putB f b).alarms = s.alarms := rfl
@[simp] theorem State.putB_txns (s : State) (f : Fld) (b : Bool) : (s.putB f b).txns = s.txns := rfl
@[simp] theorem State.putB_txnQ (s : State) (f : Fld) (b : Bool) : (s.putB f b).txnQ = s.txnQ := rfl
@[simp] theorem State.putB_openRes (s : State) (f : Fld) (b : Bool) : (s.putB f b).openRes = s.openRes := rfl
@[simp] theorem State.putB_monWin (s : State) (f : Fld) (b : Bool) : (s.putB f b).monWin = s.monWin := rfl
@[simp] theorem State.putB_samples (s : State) (f : Fld) (b : Bool) : (s.putB f b).samples = s.samples := rfl
@[simp] theorem State.putB_rings (s : State) (f : Fld) (b : Bool) : (s.putB f b).rings = s.rings := rfl
@[simp] theorem State.putB_jobs (s : State) (f : Fld) (b : Bool) : (s.putB f b).jobs = s.jobs := rfl
@[simp] theorem State.putB_ctxCmd (s : State) (f : Fld) (b : Bool) : (s.putB f b).ctxCmd = s.ctxCmd := rfl
@[simp] theorem State.putB_fetchLast (s : State) (f : Fld) (b : Bool) : (s.putB f b).fetchLast = s.fetchLast := rfl
@[simp] theorem State.putB_bar4 (s : State) (f : Fld) (b : Bool) : (s.putB f b).bar4 = s.bar4 := rfl
@[simp] theorem State.putB_c0Mark (s : State) (f : Fld) (b : Bool) : (s.putB f b).c0Mark = s.c0Mark := rfl
@[simp] theorem State.putB_pcie (s : State) (f : Fld) (b : Bool) : (s.putB f b).pcie = s.pcie := rfl
@[simp] theorem State.putB_dma (s : State) (f : Fld) (b : Bool) : (s.putB f b).dma = s.dma := rfl
@[simp] theorem State.putB_faults (s : State) (f : Fld) (b : Bool) : (s.putB f b).faults = s.faults := rfl
@[simp] theorem State.putB_power (s : State) (f : Fld) (b : Bool) : (s.putB f b).power = s.power := rfl
@[simp] theorem State.putB_hk (s : State) (f : Fld) (b : Bool) : (s.putB f b).hk = s.hk := rfl
@[simp] theorem State.putB_msp (s : State) (f : Fld) (b : Bool) : (s.putB f b).msp = s.msp := rfl
@[simp] theorem State.putB_tap (s : State) (f : Fld) (b : Bool) : (s.putB f b).tap = s.tap := rfl
@[simp] theorem State.putB_floors (s : State) (f : Fld) (b : Bool) : (s.putB f b).floors = s.floors := rfl
@[simp] theorem State.putB_frames (s : State) (f : Fld) (b : Bool) : (s.putB f b).frames = s.frames := rfl
@[simp] theorem State.putB_quires (s : State) (f : Fld) (b : Bool) : (s.putB f b).quires = s.quires := rfl
@[simp] theorem State.putB_pending (s : State) (f : Fld) (b : Bool) : (s.putB f b).pending = s.pending := rfl
@[simp] theorem State.putB_head (s : State) (f : Fld) (b : Bool) (x : Nat) : (s.putB f b).head x = s.head x := rfl
@[simp] theorem State.putB_inRun (s : State) (f : Fld) (b : Bool) : (s.putB f b).inRun = s.inRun := rfl
@[simp] theorem State.putB_access (s : State) (f : Fld) (b : Bool) (x : Nat) : (s.putB f b).access x = s.access x := rfl

/-! ### State.putBit -/

@[simp] theorem State.putBit_mode (s : State) (f : Fld) (i : Nat) (b : Bool) : (s.putBit f i b).mode = s.mode := rfl
@[simp] theorem State.putBit_dt (s : State) (f : Fld) (i : Nat) (b : Bool) : (s.putBit f i b).dt = s.dt := rfl
@[simp] theorem State.putBit_dtFrac (s : State) (f : Fld) (i : Nat) (b : Bool) : (s.putBit f i b).dtFrac = s.dtFrac := rfl
@[simp] theorem State.putBit_freeCnt (s : State) (f : Fld) (i : Nat) (b : Bool) : (s.putBit f i b).freeCnt = s.freeCnt := rfl
@[simp] theorem State.putBit_dram (s : State) (f : Fld) (i : Nat) (b : Bool) : (s.putBit f i b).dram = s.dram := rfl
@[simp] theorem State.putBit_nvm (s : State) (f : Fld) (i : Nat) (b : Bool) : (s.putBit f i b).nvm = s.nvm := rfl
@[simp] theorem State.putBit_host (s : State) (f : Fld) (i : Nat) (b : Bool) : (s.putBit f i b).host = s.host := rfl
@[simp] theorem State.putBit_inbox (s : State) (f : Fld) (i : Nat) (b : Bool) : (s.putBit f i b).inbox = s.inbox := rfl
@[simp] theorem State.putBit_heads (s : State) (f : Fld) (i : Nat) (b : Bool) : (s.putBit f i b).heads = s.heads := rfl
@[simp] theorem State.putBit_banks (s : State) (f : Fld) (i : Nat) (b : Bool) : (s.putBit f i b).banks = s.banks := rfl
@[simp] theorem State.putBit_shutters (s : State) (f : Fld) (i : Nat) (b : Bool) : (s.putBit f i b).shutters = s.shutters := rfl
@[simp] theorem State.putBit_ring (s : State) (f : Fld) (i : Nat) (b : Bool) : (s.putBit f i b).ring = s.ring := rfl
@[simp] theorem State.putBit_nv (s : State) (f : Fld) (i : Nat) (b : Bool) : (s.putBit f i b).nv = s.nv := rfl
@[simp] theorem State.putBit_cmdDone (s : State) (f : Fld) (i : Nat) (b : Bool) : (s.putBit f i b).cmdDone = s.cmdDone := rfl
@[simp] theorem State.putBit_churnRun (s : State) (f : Fld) (i : Nat) (b : Bool) : (s.putBit f i b).churnRun = s.churnRun := rfl
@[simp] theorem State.putBit_churnQueue (s : State) (f : Fld) (i : Nat) (b : Bool) :
    (s.putBit f i b).churnQueue = s.churnQueue := rfl
@[simp] theorem State.putBit_scrubAt (s : State) (f : Fld) (i : Nat) (b : Bool) : (s.putBit f i b).scrubAt = s.scrubAt := rfl
@[simp] theorem State.putBit_image (s : State) (f : Fld) (i : Nat) (b : Bool) : (s.putBit f i b).image = s.image := rfl
@[simp] theorem State.putBit_nextBlock (s : State) (f : Fld) (i : Nat) (b : Bool) :
    (s.putBit f i b).nextBlock = s.nextBlock := rfl
@[simp] theorem State.putBit_nextCell (s : State) (f : Fld) (i : Nat) (b : Bool) : (s.putBit f i b).nextCell = s.nextCell := rfl
@[simp] theorem State.putBit_fifoPeak (s : State) (f : Fld) (i : Nat) (b : Bool) : (s.putBit f i b).fifoPeak = s.fifoPeak := rfl
@[simp] theorem State.putBit_reroute (s : State) (f : Fld) (i : Nat) (b : Bool) : (s.putBit f i b).reroute = s.reroute := rfl
@[simp] theorem State.putBit_digitalFail (s : State) (f : Fld) (i : Nat) (b : Bool) :
    (s.putBit f i b).digitalFail = s.digitalFail := rfl
@[simp] theorem State.putBit_bankRetired (s : State) (f : Fld) (i : Nat) (b : Bool) :
    (s.putBit f i b).bankRetired = s.bankRetired := rfl
@[simp] theorem State.putBit_uplinkDown (s : State) (f : Fld) (i : Nat) (b : Bool) :
    (s.putBit f i b).uplinkDown = s.uplinkDown := rfl
@[simp] theorem State.putBit_chipDown (s : State) (f : Fld) (i : Nat) (b : Bool) : (s.putBit f i b).chipDown = s.chipDown := rfl
@[simp] theorem State.putBit_flitFails (s : State) (f : Fld) (i : Nat) (b : Bool) :
    (s.putBit f i b).flitFails = s.flitFails := rfl
@[simp] theorem State.putBit_lostChan (s : State) (f : Fld) (i : Nat) (b : Bool) : (s.putBit f i b).lostChan = s.lostChan := rfl
@[simp] theorem State.putBit_mirCopies (s : State) (f : Fld) (i : Nat) (b : Bool) :
    (s.putBit f i b).mirCopies = s.mirCopies := rfl
@[simp] theorem State.putBit_lastRead (s : State) (f : Fld) (i : Nat) (b : Bool) : (s.putBit f i b).lastRead = s.lastRead := rfl
@[simp] theorem State.putBit_pairVer (s : State) (f : Fld) (i : Nat) (b : Bool) : (s.putBit f i b).pairVer = s.pairVer := rfl
@[simp] theorem State.putBit_pairRead (s : State) (f : Fld) (i : Nat) (b : Bool) : (s.putBit f i b).pairRead = s.pairRead := rfl
@[simp] theorem State.putBit_pairHold (s : State) (f : Fld) (i : Nat) (b : Bool) : (s.putBit f i b).pairHold = s.pairHold := rfl
@[simp] theorem State.putBit_refStopped (s : State) (f : Fld) (i : Nat) (b : Bool) :
    (s.putBit f i b).refStopped = s.refStopped := rfl
@[simp] theorem State.putBit_blocks (s : State) (f : Fld) (i : Nat) (b : Bool) : (s.putBit f i b).blocks = s.blocks := rfl
@[simp] theorem State.putBit_mcLoad (s : State) (f : Fld) (i : Nat) (b : Bool) : (s.putBit f i b).mcLoad = s.mcLoad := rfl
@[simp] theorem State.putBit_mcActive (s : State) (f : Fld) (i : Nat) (b : Bool) : (s.putBit f i b).mcActive = s.mcActive := rfl
@[simp] theorem State.putBit_recipes (s : State) (f : Fld) (i : Nat) (b : Bool) : (s.putBit f i b).recipes = s.recipes := rfl
@[simp] theorem State.putBit_recipeLoad (s : State) (f : Fld) (i : Nat) (b : Bool) :
    (s.putBit f i b).recipeLoad = s.recipeLoad := rfl
@[simp] theorem State.putBit_planQ (s : State) (f : Fld) (i : Nat) (b : Bool) : (s.putBit f i b).planQ = s.planQ := rfl
@[simp] theorem State.putBit_planRun (s : State) (f : Fld) (i : Nat) (b : Bool) : (s.putBit f i b).planRun = s.planRun := rfl
@[simp] theorem State.putBit_pipes (s : State) (f : Fld) (i : Nat) (b : Bool) : (s.putBit f i b).pipes = s.pipes := rfl
@[simp] theorem State.putBit_bufs (s : State) (f : Fld) (i : Nat) (b : Bool) : (s.putBit f i b).bufs = s.bufs := rfl
@[simp] theorem State.putBit_csi (s : State) (f : Fld) (i : Nat) (b : Bool) : (s.putBit f i b).csi = s.csi := rfl
@[simp] theorem State.putBit_alarms (s : State) (f : Fld) (i : Nat) (b : Bool) : (s.putBit f i b).alarms = s.alarms := rfl
@[simp] theorem State.putBit_txns (s : State) (f : Fld) (i : Nat) (b : Bool) : (s.putBit f i b).txns = s.txns := rfl
@[simp] theorem State.putBit_txnQ (s : State) (f : Fld) (i : Nat) (b : Bool) : (s.putBit f i b).txnQ = s.txnQ := rfl
@[simp] theorem State.putBit_openRes (s : State) (f : Fld) (i : Nat) (b : Bool) : (s.putBit f i b).openRes = s.openRes := rfl
@[simp] theorem State.putBit_monWin (s : State) (f : Fld) (i : Nat) (b : Bool) : (s.putBit f i b).monWin = s.monWin := rfl
@[simp] theorem State.putBit_samples (s : State) (f : Fld) (i : Nat) (b : Bool) : (s.putBit f i b).samples = s.samples := rfl
@[simp] theorem State.putBit_rings (s : State) (f : Fld) (i : Nat) (b : Bool) : (s.putBit f i b).rings = s.rings := rfl
@[simp] theorem State.putBit_jobs (s : State) (f : Fld) (i : Nat) (b : Bool) : (s.putBit f i b).jobs = s.jobs := rfl
@[simp] theorem State.putBit_ctxCmd (s : State) (f : Fld) (i : Nat) (b : Bool) : (s.putBit f i b).ctxCmd = s.ctxCmd := rfl
@[simp] theorem State.putBit_fetchLast (s : State) (f : Fld) (i : Nat) (b : Bool) :
    (s.putBit f i b).fetchLast = s.fetchLast := rfl
@[simp] theorem State.putBit_bar4 (s : State) (f : Fld) (i : Nat) (b : Bool) : (s.putBit f i b).bar4 = s.bar4 := rfl
@[simp] theorem State.putBit_c0Mark (s : State) (f : Fld) (i : Nat) (b : Bool) : (s.putBit f i b).c0Mark = s.c0Mark := rfl
@[simp] theorem State.putBit_pcie (s : State) (f : Fld) (i : Nat) (b : Bool) : (s.putBit f i b).pcie = s.pcie := rfl
@[simp] theorem State.putBit_dma (s : State) (f : Fld) (i : Nat) (b : Bool) : (s.putBit f i b).dma = s.dma := rfl
@[simp] theorem State.putBit_faults (s : State) (f : Fld) (i : Nat) (b : Bool) : (s.putBit f i b).faults = s.faults := rfl
@[simp] theorem State.putBit_power (s : State) (f : Fld) (i : Nat) (b : Bool) : (s.putBit f i b).power = s.power := rfl
@[simp] theorem State.putBit_hk (s : State) (f : Fld) (i : Nat) (b : Bool) : (s.putBit f i b).hk = s.hk := rfl
@[simp] theorem State.putBit_msp (s : State) (f : Fld) (i : Nat) (b : Bool) : (s.putBit f i b).msp = s.msp := rfl
@[simp] theorem State.putBit_tap (s : State) (f : Fld) (i : Nat) (b : Bool) : (s.putBit f i b).tap = s.tap := rfl
@[simp] theorem State.putBit_floors (s : State) (f : Fld) (i : Nat) (b : Bool) : (s.putBit f i b).floors = s.floors := rfl
@[simp] theorem State.putBit_frames (s : State) (f : Fld) (i : Nat) (b : Bool) : (s.putBit f i b).frames = s.frames := rfl
@[simp] theorem State.putBit_quires (s : State) (f : Fld) (i : Nat) (b : Bool) : (s.putBit f i b).quires = s.quires := rfl
@[simp] theorem State.putBit_pending (s : State) (f : Fld) (i : Nat) (b : Bool) : (s.putBit f i b).pending = s.pending := rfl
@[simp] theorem State.putBit_head (s : State) (f : Fld) (i : Nat) (b : Bool) (x : Nat) :
    (s.putBit f i b).head x = s.head x := rfl
@[simp] theorem State.putBit_inRun (s : State) (f : Fld) (i : Nat) (b : Bool) : (s.putBit f i b).inRun = s.inRun := rfl
@[simp] theorem State.putBit_access (s : State) (f : Fld) (i : Nat) (b : Bool) (x : Nat) :
    (s.putBit f i b).access x = s.access x := rfl

/-! ### State.bumpBy -/

@[simp] theorem State.bumpBy_mode (s : State) (f : Fld) (n : Nat) : (s.bumpBy f n).mode = s.mode := rfl
@[simp] theorem State.bumpBy_dt (s : State) (f : Fld) (n : Nat) : (s.bumpBy f n).dt = s.dt := rfl
@[simp] theorem State.bumpBy_dtFrac (s : State) (f : Fld) (n : Nat) : (s.bumpBy f n).dtFrac = s.dtFrac := rfl
@[simp] theorem State.bumpBy_freeCnt (s : State) (f : Fld) (n : Nat) : (s.bumpBy f n).freeCnt = s.freeCnt := rfl
@[simp] theorem State.bumpBy_dram (s : State) (f : Fld) (n : Nat) : (s.bumpBy f n).dram = s.dram := rfl
@[simp] theorem State.bumpBy_nvm (s : State) (f : Fld) (n : Nat) : (s.bumpBy f n).nvm = s.nvm := rfl
@[simp] theorem State.bumpBy_host (s : State) (f : Fld) (n : Nat) : (s.bumpBy f n).host = s.host := rfl
@[simp] theorem State.bumpBy_inbox (s : State) (f : Fld) (n : Nat) : (s.bumpBy f n).inbox = s.inbox := rfl
@[simp] theorem State.bumpBy_heads (s : State) (f : Fld) (n : Nat) : (s.bumpBy f n).heads = s.heads := rfl
@[simp] theorem State.bumpBy_banks (s : State) (f : Fld) (n : Nat) : (s.bumpBy f n).banks = s.banks := rfl
@[simp] theorem State.bumpBy_shutters (s : State) (f : Fld) (n : Nat) : (s.bumpBy f n).shutters = s.shutters := rfl
@[simp] theorem State.bumpBy_ring (s : State) (f : Fld) (n : Nat) : (s.bumpBy f n).ring = s.ring := rfl
@[simp] theorem State.bumpBy_nv (s : State) (f : Fld) (n : Nat) : (s.bumpBy f n).nv = s.nv := rfl
@[simp] theorem State.bumpBy_cmdDone (s : State) (f : Fld) (n : Nat) : (s.bumpBy f n).cmdDone = s.cmdDone := rfl
@[simp] theorem State.bumpBy_churnRun (s : State) (f : Fld) (n : Nat) : (s.bumpBy f n).churnRun = s.churnRun := rfl
@[simp] theorem State.bumpBy_churnQueue (s : State) (f : Fld) (n : Nat) : (s.bumpBy f n).churnQueue = s.churnQueue := rfl
@[simp] theorem State.bumpBy_scrubAt (s : State) (f : Fld) (n : Nat) : (s.bumpBy f n).scrubAt = s.scrubAt := rfl
@[simp] theorem State.bumpBy_image (s : State) (f : Fld) (n : Nat) : (s.bumpBy f n).image = s.image := rfl
@[simp] theorem State.bumpBy_nextBlock (s : State) (f : Fld) (n : Nat) : (s.bumpBy f n).nextBlock = s.nextBlock := rfl
@[simp] theorem State.bumpBy_nextCell (s : State) (f : Fld) (n : Nat) : (s.bumpBy f n).nextCell = s.nextCell := rfl
@[simp] theorem State.bumpBy_fifoPeak (s : State) (f : Fld) (n : Nat) : (s.bumpBy f n).fifoPeak = s.fifoPeak := rfl
@[simp] theorem State.bumpBy_reroute (s : State) (f : Fld) (n : Nat) : (s.bumpBy f n).reroute = s.reroute := rfl
@[simp] theorem State.bumpBy_digitalFail (s : State) (f : Fld) (n : Nat) : (s.bumpBy f n).digitalFail = s.digitalFail := rfl
@[simp] theorem State.bumpBy_bankRetired (s : State) (f : Fld) (n : Nat) : (s.bumpBy f n).bankRetired = s.bankRetired := rfl
@[simp] theorem State.bumpBy_uplinkDown (s : State) (f : Fld) (n : Nat) : (s.bumpBy f n).uplinkDown = s.uplinkDown := rfl
@[simp] theorem State.bumpBy_chipDown (s : State) (f : Fld) (n : Nat) : (s.bumpBy f n).chipDown = s.chipDown := rfl
@[simp] theorem State.bumpBy_flitFails (s : State) (f : Fld) (n : Nat) : (s.bumpBy f n).flitFails = s.flitFails := rfl
@[simp] theorem State.bumpBy_lostChan (s : State) (f : Fld) (n : Nat) : (s.bumpBy f n).lostChan = s.lostChan := rfl
@[simp] theorem State.bumpBy_mirCopies (s : State) (f : Fld) (n : Nat) : (s.bumpBy f n).mirCopies = s.mirCopies := rfl
@[simp] theorem State.bumpBy_lastRead (s : State) (f : Fld) (n : Nat) : (s.bumpBy f n).lastRead = s.lastRead := rfl
@[simp] theorem State.bumpBy_pairVer (s : State) (f : Fld) (n : Nat) : (s.bumpBy f n).pairVer = s.pairVer := rfl
@[simp] theorem State.bumpBy_pairRead (s : State) (f : Fld) (n : Nat) : (s.bumpBy f n).pairRead = s.pairRead := rfl
@[simp] theorem State.bumpBy_pairHold (s : State) (f : Fld) (n : Nat) : (s.bumpBy f n).pairHold = s.pairHold := rfl
@[simp] theorem State.bumpBy_refStopped (s : State) (f : Fld) (n : Nat) : (s.bumpBy f n).refStopped = s.refStopped := rfl
@[simp] theorem State.bumpBy_blocks (s : State) (f : Fld) (n : Nat) : (s.bumpBy f n).blocks = s.blocks := rfl
@[simp] theorem State.bumpBy_mcLoad (s : State) (f : Fld) (n : Nat) : (s.bumpBy f n).mcLoad = s.mcLoad := rfl
@[simp] theorem State.bumpBy_mcActive (s : State) (f : Fld) (n : Nat) : (s.bumpBy f n).mcActive = s.mcActive := rfl
@[simp] theorem State.bumpBy_recipes (s : State) (f : Fld) (n : Nat) : (s.bumpBy f n).recipes = s.recipes := rfl
@[simp] theorem State.bumpBy_recipeLoad (s : State) (f : Fld) (n : Nat) : (s.bumpBy f n).recipeLoad = s.recipeLoad := rfl
@[simp] theorem State.bumpBy_planQ (s : State) (f : Fld) (n : Nat) : (s.bumpBy f n).planQ = s.planQ := rfl
@[simp] theorem State.bumpBy_planRun (s : State) (f : Fld) (n : Nat) : (s.bumpBy f n).planRun = s.planRun := rfl
@[simp] theorem State.bumpBy_pipes (s : State) (f : Fld) (n : Nat) : (s.bumpBy f n).pipes = s.pipes := rfl
@[simp] theorem State.bumpBy_bufs (s : State) (f : Fld) (n : Nat) : (s.bumpBy f n).bufs = s.bufs := rfl
@[simp] theorem State.bumpBy_csi (s : State) (f : Fld) (n : Nat) : (s.bumpBy f n).csi = s.csi := rfl
@[simp] theorem State.bumpBy_alarms (s : State) (f : Fld) (n : Nat) : (s.bumpBy f n).alarms = s.alarms := rfl
@[simp] theorem State.bumpBy_txns (s : State) (f : Fld) (n : Nat) : (s.bumpBy f n).txns = s.txns := rfl
@[simp] theorem State.bumpBy_txnQ (s : State) (f : Fld) (n : Nat) : (s.bumpBy f n).txnQ = s.txnQ := rfl
@[simp] theorem State.bumpBy_openRes (s : State) (f : Fld) (n : Nat) : (s.bumpBy f n).openRes = s.openRes := rfl
@[simp] theorem State.bumpBy_monWin (s : State) (f : Fld) (n : Nat) : (s.bumpBy f n).monWin = s.monWin := rfl
@[simp] theorem State.bumpBy_samples (s : State) (f : Fld) (n : Nat) : (s.bumpBy f n).samples = s.samples := rfl
@[simp] theorem State.bumpBy_rings (s : State) (f : Fld) (n : Nat) : (s.bumpBy f n).rings = s.rings := rfl
@[simp] theorem State.bumpBy_jobs (s : State) (f : Fld) (n : Nat) : (s.bumpBy f n).jobs = s.jobs := rfl
@[simp] theorem State.bumpBy_ctxCmd (s : State) (f : Fld) (n : Nat) : (s.bumpBy f n).ctxCmd = s.ctxCmd := rfl
@[simp] theorem State.bumpBy_fetchLast (s : State) (f : Fld) (n : Nat) : (s.bumpBy f n).fetchLast = s.fetchLast := rfl
@[simp] theorem State.bumpBy_bar4 (s : State) (f : Fld) (n : Nat) : (s.bumpBy f n).bar4 = s.bar4 := rfl
@[simp] theorem State.bumpBy_c0Mark (s : State) (f : Fld) (n : Nat) : (s.bumpBy f n).c0Mark = s.c0Mark := rfl
@[simp] theorem State.bumpBy_pcie (s : State) (f : Fld) (n : Nat) : (s.bumpBy f n).pcie = s.pcie := rfl
@[simp] theorem State.bumpBy_dma (s : State) (f : Fld) (n : Nat) : (s.bumpBy f n).dma = s.dma := rfl
@[simp] theorem State.bumpBy_faults (s : State) (f : Fld) (n : Nat) : (s.bumpBy f n).faults = s.faults := rfl
@[simp] theorem State.bumpBy_power (s : State) (f : Fld) (n : Nat) : (s.bumpBy f n).power = s.power := rfl
@[simp] theorem State.bumpBy_hk (s : State) (f : Fld) (n : Nat) : (s.bumpBy f n).hk = s.hk := rfl
@[simp] theorem State.bumpBy_msp (s : State) (f : Fld) (n : Nat) : (s.bumpBy f n).msp = s.msp := rfl
@[simp] theorem State.bumpBy_tap (s : State) (f : Fld) (n : Nat) : (s.bumpBy f n).tap = s.tap := rfl
@[simp] theorem State.bumpBy_floors (s : State) (f : Fld) (n : Nat) : (s.bumpBy f n).floors = s.floors := rfl
@[simp] theorem State.bumpBy_frames (s : State) (f : Fld) (n : Nat) : (s.bumpBy f n).frames = s.frames := rfl
@[simp] theorem State.bumpBy_quires (s : State) (f : Fld) (n : Nat) : (s.bumpBy f n).quires = s.quires := rfl
@[simp] theorem State.bumpBy_pending (s : State) (f : Fld) (n : Nat) : (s.bumpBy f n).pending = s.pending := rfl
@[simp] theorem State.bumpBy_head (s : State) (f : Fld) (n : Nat) (x : Nat) : (s.bumpBy f n).head x = s.head x := rfl
@[simp] theorem State.bumpBy_inRun (s : State) (f : Fld) (n : Nat) : (s.bumpBy f n).inRun = s.inRun := rfl
@[simp] theorem State.bumpBy_access (s : State) (f : Fld) (n : Nat) (x : Nat) : (s.bumpBy f n).access x = s.access x := rfl

/-! ### State.bump -/

@[simp] theorem State.bump_mode (s : State) (f : Fld) : (s.bump f).mode = s.mode := rfl
@[simp] theorem State.bump_dt (s : State) (f : Fld) : (s.bump f).dt = s.dt := rfl
@[simp] theorem State.bump_dtFrac (s : State) (f : Fld) : (s.bump f).dtFrac = s.dtFrac := rfl
@[simp] theorem State.bump_freeCnt (s : State) (f : Fld) : (s.bump f).freeCnt = s.freeCnt := rfl
@[simp] theorem State.bump_dram (s : State) (f : Fld) : (s.bump f).dram = s.dram := rfl
@[simp] theorem State.bump_nvm (s : State) (f : Fld) : (s.bump f).nvm = s.nvm := rfl
@[simp] theorem State.bump_host (s : State) (f : Fld) : (s.bump f).host = s.host := rfl
@[simp] theorem State.bump_inbox (s : State) (f : Fld) : (s.bump f).inbox = s.inbox := rfl
@[simp] theorem State.bump_heads (s : State) (f : Fld) : (s.bump f).heads = s.heads := rfl
@[simp] theorem State.bump_banks (s : State) (f : Fld) : (s.bump f).banks = s.banks := rfl
@[simp] theorem State.bump_shutters (s : State) (f : Fld) : (s.bump f).shutters = s.shutters := rfl
@[simp] theorem State.bump_ring (s : State) (f : Fld) : (s.bump f).ring = s.ring := rfl
@[simp] theorem State.bump_nv (s : State) (f : Fld) : (s.bump f).nv = s.nv := rfl
@[simp] theorem State.bump_cmdDone (s : State) (f : Fld) : (s.bump f).cmdDone = s.cmdDone := rfl
@[simp] theorem State.bump_churnRun (s : State) (f : Fld) : (s.bump f).churnRun = s.churnRun := rfl
@[simp] theorem State.bump_churnQueue (s : State) (f : Fld) : (s.bump f).churnQueue = s.churnQueue := rfl
@[simp] theorem State.bump_scrubAt (s : State) (f : Fld) : (s.bump f).scrubAt = s.scrubAt := rfl
@[simp] theorem State.bump_image (s : State) (f : Fld) : (s.bump f).image = s.image := rfl
@[simp] theorem State.bump_nextBlock (s : State) (f : Fld) : (s.bump f).nextBlock = s.nextBlock := rfl
@[simp] theorem State.bump_nextCell (s : State) (f : Fld) : (s.bump f).nextCell = s.nextCell := rfl
@[simp] theorem State.bump_fifoPeak (s : State) (f : Fld) : (s.bump f).fifoPeak = s.fifoPeak := rfl
@[simp] theorem State.bump_reroute (s : State) (f : Fld) : (s.bump f).reroute = s.reroute := rfl
@[simp] theorem State.bump_digitalFail (s : State) (f : Fld) : (s.bump f).digitalFail = s.digitalFail := rfl
@[simp] theorem State.bump_bankRetired (s : State) (f : Fld) : (s.bump f).bankRetired = s.bankRetired := rfl
@[simp] theorem State.bump_uplinkDown (s : State) (f : Fld) : (s.bump f).uplinkDown = s.uplinkDown := rfl
@[simp] theorem State.bump_chipDown (s : State) (f : Fld) : (s.bump f).chipDown = s.chipDown := rfl
@[simp] theorem State.bump_flitFails (s : State) (f : Fld) : (s.bump f).flitFails = s.flitFails := rfl
@[simp] theorem State.bump_lostChan (s : State) (f : Fld) : (s.bump f).lostChan = s.lostChan := rfl
@[simp] theorem State.bump_mirCopies (s : State) (f : Fld) : (s.bump f).mirCopies = s.mirCopies := rfl
@[simp] theorem State.bump_lastRead (s : State) (f : Fld) : (s.bump f).lastRead = s.lastRead := rfl
@[simp] theorem State.bump_pairVer (s : State) (f : Fld) : (s.bump f).pairVer = s.pairVer := rfl
@[simp] theorem State.bump_pairRead (s : State) (f : Fld) : (s.bump f).pairRead = s.pairRead := rfl
@[simp] theorem State.bump_pairHold (s : State) (f : Fld) : (s.bump f).pairHold = s.pairHold := rfl
@[simp] theorem State.bump_refStopped (s : State) (f : Fld) : (s.bump f).refStopped = s.refStopped := rfl
@[simp] theorem State.bump_blocks (s : State) (f : Fld) : (s.bump f).blocks = s.blocks := rfl
@[simp] theorem State.bump_mcLoad (s : State) (f : Fld) : (s.bump f).mcLoad = s.mcLoad := rfl
@[simp] theorem State.bump_mcActive (s : State) (f : Fld) : (s.bump f).mcActive = s.mcActive := rfl
@[simp] theorem State.bump_recipes (s : State) (f : Fld) : (s.bump f).recipes = s.recipes := rfl
@[simp] theorem State.bump_recipeLoad (s : State) (f : Fld) : (s.bump f).recipeLoad = s.recipeLoad := rfl
@[simp] theorem State.bump_planQ (s : State) (f : Fld) : (s.bump f).planQ = s.planQ := rfl
@[simp] theorem State.bump_planRun (s : State) (f : Fld) : (s.bump f).planRun = s.planRun := rfl
@[simp] theorem State.bump_pipes (s : State) (f : Fld) : (s.bump f).pipes = s.pipes := rfl
@[simp] theorem State.bump_bufs (s : State) (f : Fld) : (s.bump f).bufs = s.bufs := rfl
@[simp] theorem State.bump_csi (s : State) (f : Fld) : (s.bump f).csi = s.csi := rfl
@[simp] theorem State.bump_alarms (s : State) (f : Fld) : (s.bump f).alarms = s.alarms := rfl
@[simp] theorem State.bump_txns (s : State) (f : Fld) : (s.bump f).txns = s.txns := rfl
@[simp] theorem State.bump_txnQ (s : State) (f : Fld) : (s.bump f).txnQ = s.txnQ := rfl
@[simp] theorem State.bump_openRes (s : State) (f : Fld) : (s.bump f).openRes = s.openRes := rfl
@[simp] theorem State.bump_monWin (s : State) (f : Fld) : (s.bump f).monWin = s.monWin := rfl
@[simp] theorem State.bump_samples (s : State) (f : Fld) : (s.bump f).samples = s.samples := rfl
@[simp] theorem State.bump_rings (s : State) (f : Fld) : (s.bump f).rings = s.rings := rfl
@[simp] theorem State.bump_jobs (s : State) (f : Fld) : (s.bump f).jobs = s.jobs := rfl
@[simp] theorem State.bump_ctxCmd (s : State) (f : Fld) : (s.bump f).ctxCmd = s.ctxCmd := rfl
@[simp] theorem State.bump_fetchLast (s : State) (f : Fld) : (s.bump f).fetchLast = s.fetchLast := rfl
@[simp] theorem State.bump_bar4 (s : State) (f : Fld) : (s.bump f).bar4 = s.bar4 := rfl
@[simp] theorem State.bump_c0Mark (s : State) (f : Fld) : (s.bump f).c0Mark = s.c0Mark := rfl
@[simp] theorem State.bump_pcie (s : State) (f : Fld) : (s.bump f).pcie = s.pcie := rfl
@[simp] theorem State.bump_dma (s : State) (f : Fld) : (s.bump f).dma = s.dma := rfl
@[simp] theorem State.bump_faults (s : State) (f : Fld) : (s.bump f).faults = s.faults := rfl
@[simp] theorem State.bump_power (s : State) (f : Fld) : (s.bump f).power = s.power := rfl
@[simp] theorem State.bump_hk (s : State) (f : Fld) : (s.bump f).hk = s.hk := rfl
@[simp] theorem State.bump_msp (s : State) (f : Fld) : (s.bump f).msp = s.msp := rfl
@[simp] theorem State.bump_tap (s : State) (f : Fld) : (s.bump f).tap = s.tap := rfl
@[simp] theorem State.bump_floors (s : State) (f : Fld) : (s.bump f).floors = s.floors := rfl
@[simp] theorem State.bump_frames (s : State) (f : Fld) : (s.bump f).frames = s.frames := rfl
@[simp] theorem State.bump_quires (s : State) (f : Fld) : (s.bump f).quires = s.quires := rfl
@[simp] theorem State.bump_pending (s : State) (f : Fld) : (s.bump f).pending = s.pending := rfl
@[simp] theorem State.bump_head (s : State) (f : Fld) (x : Nat) : (s.bump f).head x = s.head x := rfl
@[simp] theorem State.bump_inRun (s : State) (f : Fld) : (s.bump f).inRun = s.inRun := rfl
@[simp] theorem State.bump_access (s : State) (f : Fld) (x : Nat) : (s.bump f).access x = s.access x := rfl

/-! ### State.put64 -/

@[simp] theorem State.put64_mode (s : State) (lo hi : Fld) (v : Nat) : (s.put64 lo hi v).mode = s.mode := rfl
@[simp] theorem State.put64_dt (s : State) (lo hi : Fld) (v : Nat) : (s.put64 lo hi v).dt = s.dt := rfl
@[simp] theorem State.put64_dtFrac (s : State) (lo hi : Fld) (v : Nat) : (s.put64 lo hi v).dtFrac = s.dtFrac := rfl
@[simp] theorem State.put64_freeCnt (s : State) (lo hi : Fld) (v : Nat) : (s.put64 lo hi v).freeCnt = s.freeCnt := rfl
@[simp] theorem State.put64_dram (s : State) (lo hi : Fld) (v : Nat) : (s.put64 lo hi v).dram = s.dram := rfl
@[simp] theorem State.put64_nvm (s : State) (lo hi : Fld) (v : Nat) : (s.put64 lo hi v).nvm = s.nvm := rfl
@[simp] theorem State.put64_host (s : State) (lo hi : Fld) (v : Nat) : (s.put64 lo hi v).host = s.host := rfl
@[simp] theorem State.put64_inbox (s : State) (lo hi : Fld) (v : Nat) : (s.put64 lo hi v).inbox = s.inbox := rfl
@[simp] theorem State.put64_heads (s : State) (lo hi : Fld) (v : Nat) : (s.put64 lo hi v).heads = s.heads := rfl
@[simp] theorem State.put64_banks (s : State) (lo hi : Fld) (v : Nat) : (s.put64 lo hi v).banks = s.banks := rfl
@[simp] theorem State.put64_shutters (s : State) (lo hi : Fld) (v : Nat) : (s.put64 lo hi v).shutters = s.shutters := rfl
@[simp] theorem State.put64_ring (s : State) (lo hi : Fld) (v : Nat) : (s.put64 lo hi v).ring = s.ring := rfl
@[simp] theorem State.put64_nv (s : State) (lo hi : Fld) (v : Nat) : (s.put64 lo hi v).nv = s.nv := rfl
@[simp] theorem State.put64_cmdDone (s : State) (lo hi : Fld) (v : Nat) : (s.put64 lo hi v).cmdDone = s.cmdDone := rfl
@[simp] theorem State.put64_churnRun (s : State) (lo hi : Fld) (v : Nat) : (s.put64 lo hi v).churnRun = s.churnRun := rfl
@[simp] theorem State.put64_churnQueue (s : State) (lo hi : Fld) (v : Nat) : (s.put64 lo hi v).churnQueue = s.churnQueue := rfl
@[simp] theorem State.put64_scrubAt (s : State) (lo hi : Fld) (v : Nat) : (s.put64 lo hi v).scrubAt = s.scrubAt := rfl
@[simp] theorem State.put64_image (s : State) (lo hi : Fld) (v : Nat) : (s.put64 lo hi v).image = s.image := rfl
@[simp] theorem State.put64_nextBlock (s : State) (lo hi : Fld) (v : Nat) : (s.put64 lo hi v).nextBlock = s.nextBlock := rfl
@[simp] theorem State.put64_nextCell (s : State) (lo hi : Fld) (v : Nat) : (s.put64 lo hi v).nextCell = s.nextCell := rfl
@[simp] theorem State.put64_fifoPeak (s : State) (lo hi : Fld) (v : Nat) : (s.put64 lo hi v).fifoPeak = s.fifoPeak := rfl
@[simp] theorem State.put64_reroute (s : State) (lo hi : Fld) (v : Nat) : (s.put64 lo hi v).reroute = s.reroute := rfl
@[simp] theorem State.put64_digitalFail (s : State) (lo hi : Fld) (v : Nat) :
    (s.put64 lo hi v).digitalFail = s.digitalFail := rfl
@[simp] theorem State.put64_bankRetired (s : State) (lo hi : Fld) (v : Nat) :
    (s.put64 lo hi v).bankRetired = s.bankRetired := rfl
@[simp] theorem State.put64_uplinkDown (s : State) (lo hi : Fld) (v : Nat) : (s.put64 lo hi v).uplinkDown = s.uplinkDown := rfl
@[simp] theorem State.put64_chipDown (s : State) (lo hi : Fld) (v : Nat) : (s.put64 lo hi v).chipDown = s.chipDown := rfl
@[simp] theorem State.put64_flitFails (s : State) (lo hi : Fld) (v : Nat) : (s.put64 lo hi v).flitFails = s.flitFails := rfl
@[simp] theorem State.put64_lostChan (s : State) (lo hi : Fld) (v : Nat) : (s.put64 lo hi v).lostChan = s.lostChan := rfl
@[simp] theorem State.put64_mirCopies (s : State) (lo hi : Fld) (v : Nat) : (s.put64 lo hi v).mirCopies = s.mirCopies := rfl
@[simp] theorem State.put64_lastRead (s : State) (lo hi : Fld) (v : Nat) : (s.put64 lo hi v).lastRead = s.lastRead := rfl
@[simp] theorem State.put64_pairRead (s : State) (lo hi : Fld) (v : Nat) : (s.put64 lo hi v).pairRead = s.pairRead := rfl
@[simp] theorem State.put64_pairHold (s : State) (lo hi : Fld) (v : Nat) : (s.put64 lo hi v).pairHold = s.pairHold := rfl
@[simp] theorem State.put64_refStopped (s : State) (lo hi : Fld) (v : Nat) : (s.put64 lo hi v).refStopped = s.refStopped := rfl
@[simp] theorem State.put64_blocks (s : State) (lo hi : Fld) (v : Nat) : (s.put64 lo hi v).blocks = s.blocks := rfl
@[simp] theorem State.put64_mcLoad (s : State) (lo hi : Fld) (v : Nat) : (s.put64 lo hi v).mcLoad = s.mcLoad := rfl
@[simp] theorem State.put64_mcActive (s : State) (lo hi : Fld) (v : Nat) : (s.put64 lo hi v).mcActive = s.mcActive := rfl
@[simp] theorem State.put64_recipes (s : State) (lo hi : Fld) (v : Nat) : (s.put64 lo hi v).recipes = s.recipes := rfl
@[simp] theorem State.put64_recipeLoad (s : State) (lo hi : Fld) (v : Nat) : (s.put64 lo hi v).recipeLoad = s.recipeLoad := rfl
@[simp] theorem State.put64_planQ (s : State) (lo hi : Fld) (v : Nat) : (s.put64 lo hi v).planQ = s.planQ := rfl
@[simp] theorem State.put64_planRun (s : State) (lo hi : Fld) (v : Nat) : (s.put64 lo hi v).planRun = s.planRun := rfl
@[simp] theorem State.put64_pipes (s : State) (lo hi : Fld) (v : Nat) : (s.put64 lo hi v).pipes = s.pipes := rfl
@[simp] theorem State.put64_bufs (s : State) (lo hi : Fld) (v : Nat) : (s.put64 lo hi v).bufs = s.bufs := rfl
@[simp] theorem State.put64_csi (s : State) (lo hi : Fld) (v : Nat) : (s.put64 lo hi v).csi = s.csi := rfl
@[simp] theorem State.put64_alarms (s : State) (lo hi : Fld) (v : Nat) : (s.put64 lo hi v).alarms = s.alarms := rfl
@[simp] theorem State.put64_txns (s : State) (lo hi : Fld) (v : Nat) : (s.put64 lo hi v).txns = s.txns := rfl
@[simp] theorem State.put64_txnQ (s : State) (lo hi : Fld) (v : Nat) : (s.put64 lo hi v).txnQ = s.txnQ := rfl
@[simp] theorem State.put64_openRes (s : State) (lo hi : Fld) (v : Nat) : (s.put64 lo hi v).openRes = s.openRes := rfl
@[simp] theorem State.put64_monWin (s : State) (lo hi : Fld) (v : Nat) : (s.put64 lo hi v).monWin = s.monWin := rfl
@[simp] theorem State.put64_samples (s : State) (lo hi : Fld) (v : Nat) : (s.put64 lo hi v).samples = s.samples := rfl
@[simp] theorem State.put64_rings (s : State) (lo hi : Fld) (v : Nat) : (s.put64 lo hi v).rings = s.rings := rfl
@[simp] theorem State.put64_jobs (s : State) (lo hi : Fld) (v : Nat) : (s.put64 lo hi v).jobs = s.jobs := rfl
@[simp] theorem State.put64_ctxCmd (s : State) (lo hi : Fld) (v : Nat) : (s.put64 lo hi v).ctxCmd = s.ctxCmd := rfl
@[simp] theorem State.put64_fetchLast (s : State) (lo hi : Fld) (v : Nat) : (s.put64 lo hi v).fetchLast = s.fetchLast := rfl
@[simp] theorem State.put64_bar4 (s : State) (lo hi : Fld) (v : Nat) : (s.put64 lo hi v).bar4 = s.bar4 := rfl
@[simp] theorem State.put64_c0Mark (s : State) (lo hi : Fld) (v : Nat) : (s.put64 lo hi v).c0Mark = s.c0Mark := rfl
@[simp] theorem State.put64_pcie (s : State) (lo hi : Fld) (v : Nat) : (s.put64 lo hi v).pcie = s.pcie := rfl
@[simp] theorem State.put64_dma (s : State) (lo hi : Fld) (v : Nat) : (s.put64 lo hi v).dma = s.dma := rfl
@[simp] theorem State.put64_faults (s : State) (lo hi : Fld) (v : Nat) : (s.put64 lo hi v).faults = s.faults := rfl
@[simp] theorem State.put64_power (s : State) (lo hi : Fld) (v : Nat) : (s.put64 lo hi v).power = s.power := rfl
@[simp] theorem State.put64_hk (s : State) (lo hi : Fld) (v : Nat) : (s.put64 lo hi v).hk = s.hk := rfl
@[simp] theorem State.put64_msp (s : State) (lo hi : Fld) (v : Nat) : (s.put64 lo hi v).msp = s.msp := rfl
@[simp] theorem State.put64_tap (s : State) (lo hi : Fld) (v : Nat) : (s.put64 lo hi v).tap = s.tap := rfl
@[simp] theorem State.put64_floors (s : State) (lo hi : Fld) (v : Nat) : (s.put64 lo hi v).floors = s.floors := rfl
@[simp] theorem State.put64_frames (s : State) (lo hi : Fld) (v : Nat) : (s.put64 lo hi v).frames = s.frames := rfl
@[simp] theorem State.put64_quires (s : State) (lo hi : Fld) (v : Nat) : (s.put64 lo hi v).quires = s.quires := rfl
@[simp] theorem State.put64_pending (s : State) (lo hi : Fld) (v : Nat) : (s.put64 lo hi v).pending = s.pending := rfl
@[simp] theorem State.put64_head (s : State) (lo hi : Fld) (v : Nat) (x : Nat) : (s.put64 lo hi v).head x = s.head x := rfl
@[simp] theorem State.put64_inRun (s : State) (lo hi : Fld) (v : Nat) : (s.put64 lo hi v).inRun = s.inRun := rfl
@[simp] theorem State.put64_access (s : State) (lo hi : Fld) (v : Nat) (x : Nat) :
    (s.put64 lo hi v).access x = s.access x := rfl

/-! ### State.at -/

@[simp] theorem State.at_mode (s : State) (t : Nat) : (s.at t).mode = s.mode := rfl
@[simp] theorem State.at_regs (s : State) (t : Nat) : (s.at t).regs = s.regs := rfl
@[simp] theorem State.at_dtFrac (s : State) (t : Nat) : (s.at t).dtFrac = s.dtFrac := rfl
@[simp] theorem State.at_freeCnt (s : State) (t : Nat) : (s.at t).freeCnt = s.freeCnt := rfl
@[simp] theorem State.at_dram (s : State) (t : Nat) : (s.at t).dram = s.dram := rfl
@[simp] theorem State.at_nvm (s : State) (t : Nat) : (s.at t).nvm = s.nvm := rfl
@[simp] theorem State.at_host (s : State) (t : Nat) : (s.at t).host = s.host := rfl
@[simp] theorem State.at_inbox (s : State) (t : Nat) : (s.at t).inbox = s.inbox := rfl
@[simp] theorem State.at_heads (s : State) (t : Nat) : (s.at t).heads = s.heads := rfl
@[simp] theorem State.at_banks (s : State) (t : Nat) : (s.at t).banks = s.banks := rfl
@[simp] theorem State.at_shutters (s : State) (t : Nat) : (s.at t).shutters = s.shutters := rfl
@[simp] theorem State.at_ring (s : State) (t : Nat) : (s.at t).ring = s.ring := rfl
@[simp] theorem State.at_nv (s : State) (t : Nat) : (s.at t).nv = s.nv := rfl
@[simp] theorem State.at_cmdDone (s : State) (t : Nat) : (s.at t).cmdDone = s.cmdDone := rfl
@[simp] theorem State.at_churnRun (s : State) (t : Nat) : (s.at t).churnRun = s.churnRun := rfl
@[simp] theorem State.at_churnQueue (s : State) (t : Nat) : (s.at t).churnQueue = s.churnQueue := rfl
@[simp] theorem State.at_scrubAt (s : State) (t : Nat) : (s.at t).scrubAt = s.scrubAt := rfl
@[simp] theorem State.at_image (s : State) (t : Nat) : (s.at t).image = s.image := rfl
@[simp] theorem State.at_nextBlock (s : State) (t : Nat) : (s.at t).nextBlock = s.nextBlock := rfl
@[simp] theorem State.at_nextCell (s : State) (t : Nat) : (s.at t).nextCell = s.nextCell := rfl
@[simp] theorem State.at_fifoPeak (s : State) (t : Nat) : (s.at t).fifoPeak = s.fifoPeak := rfl
@[simp] theorem State.at_reroute (s : State) (t : Nat) : (s.at t).reroute = s.reroute := rfl
@[simp] theorem State.at_digitalFail (s : State) (t : Nat) : (s.at t).digitalFail = s.digitalFail := rfl
@[simp] theorem State.at_bankRetired (s : State) (t : Nat) : (s.at t).bankRetired = s.bankRetired := rfl
@[simp] theorem State.at_uplinkDown (s : State) (t : Nat) : (s.at t).uplinkDown = s.uplinkDown := rfl
@[simp] theorem State.at_chipDown (s : State) (t : Nat) : (s.at t).chipDown = s.chipDown := rfl
@[simp] theorem State.at_flitFails (s : State) (t : Nat) : (s.at t).flitFails = s.flitFails := rfl
@[simp] theorem State.at_lostChan (s : State) (t : Nat) : (s.at t).lostChan = s.lostChan := rfl
@[simp] theorem State.at_mirCopies (s : State) (t : Nat) : (s.at t).mirCopies = s.mirCopies := rfl
@[simp] theorem State.at_lastRead (s : State) (t : Nat) : (s.at t).lastRead = s.lastRead := rfl
@[simp] theorem State.at_pairVer (s : State) (t : Nat) : (s.at t).pairVer = s.pairVer := rfl
@[simp] theorem State.at_pairRead (s : State) (t : Nat) : (s.at t).pairRead = s.pairRead := rfl
@[simp] theorem State.at_pairHold (s : State) (t : Nat) : (s.at t).pairHold = s.pairHold := rfl
@[simp] theorem State.at_refStopped (s : State) (t : Nat) : (s.at t).refStopped = s.refStopped := rfl
@[simp] theorem State.at_blocks (s : State) (t : Nat) : (s.at t).blocks = s.blocks := rfl
@[simp] theorem State.at_mcLoad (s : State) (t : Nat) : (s.at t).mcLoad = s.mcLoad := rfl
@[simp] theorem State.at_mcActive (s : State) (t : Nat) : (s.at t).mcActive = s.mcActive := rfl
@[simp] theorem State.at_recipes (s : State) (t : Nat) : (s.at t).recipes = s.recipes := rfl
@[simp] theorem State.at_recipeLoad (s : State) (t : Nat) : (s.at t).recipeLoad = s.recipeLoad := rfl
@[simp] theorem State.at_planQ (s : State) (t : Nat) : (s.at t).planQ = s.planQ := rfl
@[simp] theorem State.at_planRun (s : State) (t : Nat) : (s.at t).planRun = s.planRun := rfl
@[simp] theorem State.at_pipes (s : State) (t : Nat) : (s.at t).pipes = s.pipes := rfl
@[simp] theorem State.at_bufs (s : State) (t : Nat) : (s.at t).bufs = s.bufs := rfl
@[simp] theorem State.at_csi (s : State) (t : Nat) : (s.at t).csi = s.csi := rfl
@[simp] theorem State.at_alarms (s : State) (t : Nat) : (s.at t).alarms = s.alarms := rfl
@[simp] theorem State.at_txns (s : State) (t : Nat) : (s.at t).txns = s.txns := rfl
@[simp] theorem State.at_txnQ (s : State) (t : Nat) : (s.at t).txnQ = s.txnQ := rfl
@[simp] theorem State.at_openRes (s : State) (t : Nat) : (s.at t).openRes = s.openRes := rfl
@[simp] theorem State.at_monWin (s : State) (t : Nat) : (s.at t).monWin = s.monWin := rfl
@[simp] theorem State.at_samples (s : State) (t : Nat) : (s.at t).samples = s.samples := rfl
@[simp] theorem State.at_rings (s : State) (t : Nat) : (s.at t).rings = s.rings := rfl
@[simp] theorem State.at_jobs (s : State) (t : Nat) : (s.at t).jobs = s.jobs := rfl
@[simp] theorem State.at_ctxCmd (s : State) (t : Nat) : (s.at t).ctxCmd = s.ctxCmd := rfl
@[simp] theorem State.at_fetchLast (s : State) (t : Nat) : (s.at t).fetchLast = s.fetchLast := rfl
@[simp] theorem State.at_bar4 (s : State) (t : Nat) : (s.at t).bar4 = s.bar4 := rfl
@[simp] theorem State.at_c0Mark (s : State) (t : Nat) : (s.at t).c0Mark = s.c0Mark := rfl
@[simp] theorem State.at_pcie (s : State) (t : Nat) : (s.at t).pcie = s.pcie := rfl
@[simp] theorem State.at_dma (s : State) (t : Nat) : (s.at t).dma = s.dma := rfl
@[simp] theorem State.at_faults (s : State) (t : Nat) : (s.at t).faults = s.faults := rfl
@[simp] theorem State.at_power (s : State) (t : Nat) : (s.at t).power = s.power := rfl
@[simp] theorem State.at_hk (s : State) (t : Nat) : (s.at t).hk = s.hk := rfl
@[simp] theorem State.at_msp (s : State) (t : Nat) : (s.at t).msp = s.msp := rfl
@[simp] theorem State.at_tap (s : State) (t : Nat) : (s.at t).tap = s.tap := rfl
@[simp] theorem State.at_floors (s : State) (t : Nat) : (s.at t).floors = s.floors := rfl
@[simp] theorem State.at_frames (s : State) (t : Nat) : (s.at t).frames = s.frames := rfl
@[simp] theorem State.at_quires (s : State) (t : Nat) : (s.at t).quires = s.quires := rfl
@[simp] theorem State.at_pending (s : State) (t : Nat) : (s.at t).pending = s.pending := rfl
@[simp] theorem State.at_reg (s : State) (t : Nat) (x : Nat) : (s.at t).reg x = s.reg x := rfl
@[simp] theorem State.at_get (s : State) (t : Nat) (x : Fld) : (s.at t).get x = s.get x := rfl
@[simp] theorem State.at_flag (s : State) (t : Nat) (x : Fld) : (s.at t).flag x = s.flag x := rfl
@[simp] theorem State.at_head (s : State) (t : Nat) (x : Nat) : (s.at t).head x = s.head x := rfl
@[simp] theorem State.at_inRun (s : State) (t : Nat) : (s.at t).inRun = s.inRun := rfl
@[simp] theorem State.at_access (s : State) (t : Nat) (x : Nat) : (s.at t).access x = s.access x := rfl

/-! ### State.raise -/

@[simp] theorem State.raise_mode (s : State) (src : Nat) (cls : FaultClass) (d : Nat) : (s.raise src cls d).mode = s.mode := rfl
@[simp] theorem State.raise_regs (s : State) (src : Nat) (cls : FaultClass) (d : Nat) : (s.raise src cls d).regs = s.regs := rfl
@[simp] theorem State.raise_dt (s : State) (src : Nat) (cls : FaultClass) (d : Nat) : (s.raise src cls d).dt = s.dt := rfl
@[simp] theorem State.raise_dtFrac (s : State) (src : Nat) (cls : FaultClass) (d : Nat) :
    (s.raise src cls d).dtFrac = s.dtFrac := rfl
@[simp] theorem State.raise_freeCnt (s : State) (src : Nat) (cls : FaultClass) (d : Nat) :
    (s.raise src cls d).freeCnt = s.freeCnt := rfl
@[simp] theorem State.raise_dram (s : State) (src : Nat) (cls : FaultClass) (d : Nat) : (s.raise src cls d).dram = s.dram := rfl
@[simp] theorem State.raise_nvm (s : State) (src : Nat) (cls : FaultClass) (d : Nat) : (s.raise src cls d).nvm = s.nvm := rfl
@[simp] theorem State.raise_host (s : State) (src : Nat) (cls : FaultClass) (d : Nat) : (s.raise src cls d).host = s.host := rfl
@[simp] theorem State.raise_heads (s : State) (src : Nat) (cls : FaultClass) (d : Nat) :
    (s.raise src cls d).heads = s.heads := rfl
@[simp] theorem State.raise_banks (s : State) (src : Nat) (cls : FaultClass) (d : Nat) :
    (s.raise src cls d).banks = s.banks := rfl
@[simp] theorem State.raise_shutters (s : State) (src : Nat) (cls : FaultClass) (d : Nat) :
    (s.raise src cls d).shutters = s.shutters := rfl
@[simp] theorem State.raise_ring (s : State) (src : Nat) (cls : FaultClass) (d : Nat) : (s.raise src cls d).ring = s.ring := rfl
@[simp] theorem State.raise_nv (s : State) (src : Nat) (cls : FaultClass) (d : Nat) : (s.raise src cls d).nv = s.nv := rfl
@[simp] theorem State.raise_cmdDone (s : State) (src : Nat) (cls : FaultClass) (d : Nat) :
    (s.raise src cls d).cmdDone = s.cmdDone := rfl
@[simp] theorem State.raise_churnRun (s : State) (src : Nat) (cls : FaultClass) (d : Nat) :
    (s.raise src cls d).churnRun = s.churnRun := rfl
@[simp] theorem State.raise_churnQueue (s : State) (src : Nat) (cls : FaultClass) (d : Nat) :
    (s.raise src cls d).churnQueue = s.churnQueue := rfl
@[simp] theorem State.raise_scrubAt (s : State) (src : Nat) (cls : FaultClass) (d : Nat) :
    (s.raise src cls d).scrubAt = s.scrubAt := rfl
@[simp] theorem State.raise_image (s : State) (src : Nat) (cls : FaultClass) (d : Nat) :
    (s.raise src cls d).image = s.image := rfl
@[simp] theorem State.raise_nextBlock (s : State) (src : Nat) (cls : FaultClass) (d : Nat) :
    (s.raise src cls d).nextBlock = s.nextBlock := rfl
@[simp] theorem State.raise_nextCell (s : State) (src : Nat) (cls : FaultClass) (d : Nat) :
    (s.raise src cls d).nextCell = s.nextCell := rfl
@[simp] theorem State.raise_fifoPeak (s : State) (src : Nat) (cls : FaultClass) (d : Nat) :
    (s.raise src cls d).fifoPeak = s.fifoPeak := rfl
@[simp] theorem State.raise_reroute (s : State) (src : Nat) (cls : FaultClass) (d : Nat) :
    (s.raise src cls d).reroute = s.reroute := rfl
@[simp] theorem State.raise_digitalFail (s : State) (src : Nat) (cls : FaultClass) (d : Nat) :
    (s.raise src cls d).digitalFail = s.digitalFail := rfl
@[simp] theorem State.raise_bankRetired (s : State) (src : Nat) (cls : FaultClass) (d : Nat) :
    (s.raise src cls d).bankRetired = s.bankRetired := rfl
@[simp] theorem State.raise_uplinkDown (s : State) (src : Nat) (cls : FaultClass) (d : Nat) :
    (s.raise src cls d).uplinkDown = s.uplinkDown := rfl
@[simp] theorem State.raise_chipDown (s : State) (src : Nat) (cls : FaultClass) (d : Nat) :
    (s.raise src cls d).chipDown = s.chipDown := rfl
@[simp] theorem State.raise_flitFails (s : State) (src : Nat) (cls : FaultClass) (d : Nat) :
    (s.raise src cls d).flitFails = s.flitFails := rfl
@[simp] theorem State.raise_lostChan (s : State) (src : Nat) (cls : FaultClass) (d : Nat) :
    (s.raise src cls d).lostChan = s.lostChan := rfl
@[simp] theorem State.raise_mirCopies (s : State) (src : Nat) (cls : FaultClass) (d : Nat) :
    (s.raise src cls d).mirCopies = s.mirCopies := rfl
@[simp] theorem State.raise_lastRead (s : State) (src : Nat) (cls : FaultClass) (d : Nat) :
    (s.raise src cls d).lastRead = s.lastRead := rfl
@[simp] theorem State.raise_pairVer (s : State) (src : Nat) (cls : FaultClass) (d : Nat) :
    (s.raise src cls d).pairVer = s.pairVer := rfl
@[simp] theorem State.raise_pairRead (s : State) (src : Nat) (cls : FaultClass) (d : Nat) :
    (s.raise src cls d).pairRead = s.pairRead := rfl
@[simp] theorem State.raise_pairHold (s : State) (src : Nat) (cls : FaultClass) (d : Nat) :
    (s.raise src cls d).pairHold = s.pairHold := rfl
@[simp] theorem State.raise_refStopped (s : State) (src : Nat) (cls : FaultClass) (d : Nat) :
    (s.raise src cls d).refStopped = s.refStopped := rfl
@[simp] theorem State.raise_blocks (s : State) (src : Nat) (cls : FaultClass) (d : Nat) :
    (s.raise src cls d).blocks = s.blocks := rfl
@[simp] theorem State.raise_mcLoad (s : State) (src : Nat) (cls : FaultClass) (d : Nat) :
    (s.raise src cls d).mcLoad = s.mcLoad := rfl
@[simp] theorem State.raise_mcActive (s : State) (src : Nat) (cls : FaultClass) (d : Nat) :
    (s.raise src cls d).mcActive = s.mcActive := rfl
@[simp] theorem State.raise_recipes (s : State) (src : Nat) (cls : FaultClass) (d : Nat) :
    (s.raise src cls d).recipes = s.recipes := rfl
@[simp] theorem State.raise_recipeLoad (s : State) (src : Nat) (cls : FaultClass) (d : Nat) :
    (s.raise src cls d).recipeLoad = s.recipeLoad := rfl
@[simp] theorem State.raise_planQ (s : State) (src : Nat) (cls : FaultClass) (d : Nat) :
    (s.raise src cls d).planQ = s.planQ := rfl
@[simp] theorem State.raise_planRun (s : State) (src : Nat) (cls : FaultClass) (d : Nat) :
    (s.raise src cls d).planRun = s.planRun := rfl
@[simp] theorem State.raise_pipes (s : State) (src : Nat) (cls : FaultClass) (d : Nat) :
    (s.raise src cls d).pipes = s.pipes := rfl
@[simp] theorem State.raise_bufs (s : State) (src : Nat) (cls : FaultClass) (d : Nat) : (s.raise src cls d).bufs = s.bufs := rfl
@[simp] theorem State.raise_csi (s : State) (src : Nat) (cls : FaultClass) (d : Nat) : (s.raise src cls d).csi = s.csi := rfl
@[simp] theorem State.raise_alarms (s : State) (src : Nat) (cls : FaultClass) (d : Nat) :
    (s.raise src cls d).alarms = s.alarms := rfl
@[simp] theorem State.raise_txns (s : State) (src : Nat) (cls : FaultClass) (d : Nat) : (s.raise src cls d).txns = s.txns := rfl
@[simp] theorem State.raise_txnQ (s : State) (src : Nat) (cls : FaultClass) (d : Nat) : (s.raise src cls d).txnQ = s.txnQ := rfl
@[simp] theorem State.raise_openRes (s : State) (src : Nat) (cls : FaultClass) (d : Nat) :
    (s.raise src cls d).openRes = s.openRes := rfl
@[simp] theorem State.raise_monWin (s : State) (src : Nat) (cls : FaultClass) (d : Nat) :
    (s.raise src cls d).monWin = s.monWin := rfl
@[simp] theorem State.raise_samples (s : State) (src : Nat) (cls : FaultClass) (d : Nat) :
    (s.raise src cls d).samples = s.samples := rfl
@[simp] theorem State.raise_rings (s : State) (src : Nat) (cls : FaultClass) (d : Nat) :
    (s.raise src cls d).rings = s.rings := rfl
@[simp] theorem State.raise_jobs (s : State) (src : Nat) (cls : FaultClass) (d : Nat) : (s.raise src cls d).jobs = s.jobs := rfl
@[simp] theorem State.raise_ctxCmd (s : State) (src : Nat) (cls : FaultClass) (d : Nat) :
    (s.raise src cls d).ctxCmd = s.ctxCmd := rfl
@[simp] theorem State.raise_fetchLast (s : State) (src : Nat) (cls : FaultClass) (d : Nat) :
    (s.raise src cls d).fetchLast = s.fetchLast := rfl
@[simp] theorem State.raise_bar4 (s : State) (src : Nat) (cls : FaultClass) (d : Nat) : (s.raise src cls d).bar4 = s.bar4 := rfl
@[simp] theorem State.raise_c0Mark (s : State) (src : Nat) (cls : FaultClass) (d : Nat) :
    (s.raise src cls d).c0Mark = s.c0Mark := rfl
@[simp] theorem State.raise_pcie (s : State) (src : Nat) (cls : FaultClass) (d : Nat) : (s.raise src cls d).pcie = s.pcie := rfl
@[simp] theorem State.raise_dma (s : State) (src : Nat) (cls : FaultClass) (d : Nat) : (s.raise src cls d).dma = s.dma := rfl
@[simp] theorem State.raise_faults (s : State) (src : Nat) (cls : FaultClass) (d : Nat) :
    (s.raise src cls d).faults = s.faults := rfl
@[simp] theorem State.raise_power (s : State) (src : Nat) (cls : FaultClass) (d : Nat) :
    (s.raise src cls d).power = s.power := rfl
@[simp] theorem State.raise_hk (s : State) (src : Nat) (cls : FaultClass) (d : Nat) : (s.raise src cls d).hk = s.hk := rfl
@[simp] theorem State.raise_msp (s : State) (src : Nat) (cls : FaultClass) (d : Nat) : (s.raise src cls d).msp = s.msp := rfl
@[simp] theorem State.raise_tap (s : State) (src : Nat) (cls : FaultClass) (d : Nat) : (s.raise src cls d).tap = s.tap := rfl
@[simp] theorem State.raise_floors (s : State) (src : Nat) (cls : FaultClass) (d : Nat) :
    (s.raise src cls d).floors = s.floors := rfl
@[simp] theorem State.raise_frames (s : State) (src : Nat) (cls : FaultClass) (d : Nat) :
    (s.raise src cls d).frames = s.frames := rfl
@[simp] theorem State.raise_quires (s : State) (src : Nat) (cls : FaultClass) (d : Nat) :
    (s.raise src cls d).quires = s.quires := rfl
@[simp] theorem State.raise_pending (s : State) (src : Nat) (cls : FaultClass) (d : Nat) :
    (s.raise src cls d).pending = s.pending := rfl
@[simp] theorem State.raise_reg (s : State) (src : Nat) (cls : FaultClass) (d : Nat) (x : Nat) :
    (s.raise src cls d).reg x = s.reg x := rfl
@[simp] theorem State.raise_get (s : State) (src : Nat) (cls : FaultClass) (d : Nat) (x : Fld) :
    (s.raise src cls d).get x = s.get x := rfl
@[simp] theorem State.raise_flag (s : State) (src : Nat) (cls : FaultClass) (d : Nat) (x : Fld) :
    (s.raise src cls d).flag x = s.flag x := rfl
@[simp] theorem State.raise_head (s : State) (src : Nat) (cls : FaultClass) (d : Nat) (x : Nat) :
    (s.raise src cls d).head x = s.head x := rfl
@[simp] theorem State.raise_inRun (s : State) (src : Nat) (cls : FaultClass) (d : Nat) :
    (s.raise src cls d).inRun = s.inRun := rfl
@[simp] theorem State.raise_access (s : State) (src : Nat) (cls : FaultClass) (d : Nat) (x : Nat) :
    (s.raise src cls d).access x = s.access x := rfl

/-! ### State.finishCmd -/

@[simp] theorem State.finishCmd_mode (s : State) (r g st res i : Nat) : (s.finishCmd r g st res i).mode = s.mode := rfl
@[simp] theorem State.finishCmd_regs (s : State) (r g st res i : Nat) : (s.finishCmd r g st res i).regs = s.regs := rfl
@[simp] theorem State.finishCmd_dt (s : State) (r g st res i : Nat) : (s.finishCmd r g st res i).dt = s.dt := rfl
@[simp] theorem State.finishCmd_dtFrac (s : State) (r g st res i : Nat) : (s.finishCmd r g st res i).dtFrac = s.dtFrac := rfl
@[simp] theorem State.finishCmd_freeCnt (s : State) (r g st res i : Nat) : (s.finishCmd r g st res i).freeCnt = s.freeCnt := rfl
@[simp] theorem State.finishCmd_dram (s : State) (r g st res i : Nat) : (s.finishCmd r g st res i).dram = s.dram := rfl
@[simp] theorem State.finishCmd_nvm (s : State) (r g st res i : Nat) : (s.finishCmd r g st res i).nvm = s.nvm := rfl
@[simp] theorem State.finishCmd_host (s : State) (r g st res i : Nat) : (s.finishCmd r g st res i).host = s.host := rfl
@[simp] theorem State.finishCmd_inbox (s : State) (r g st res i : Nat) : (s.finishCmd r g st res i).inbox = s.inbox := rfl
@[simp] theorem State.finishCmd_heads (s : State) (r g st res i : Nat) : (s.finishCmd r g st res i).heads = s.heads := rfl
@[simp] theorem State.finishCmd_banks (s : State) (r g st res i : Nat) : (s.finishCmd r g st res i).banks = s.banks := rfl
@[simp] theorem State.finishCmd_shutters (s : State) (r g st res i : Nat) :
    (s.finishCmd r g st res i).shutters = s.shutters := rfl
@[simp] theorem State.finishCmd_ring (s : State) (r g st res i : Nat) : (s.finishCmd r g st res i).ring = s.ring := rfl
@[simp] theorem State.finishCmd_nv (s : State) (r g st res i : Nat) : (s.finishCmd r g st res i).nv = s.nv := rfl
@[simp] theorem State.finishCmd_churnRun (s : State) (r g st res i : Nat) :
    (s.finishCmd r g st res i).churnRun = s.churnRun := rfl
@[simp] theorem State.finishCmd_churnQueue (s : State) (r g st res i : Nat) :
    (s.finishCmd r g st res i).churnQueue = s.churnQueue := rfl
@[simp] theorem State.finishCmd_scrubAt (s : State) (r g st res i : Nat) : (s.finishCmd r g st res i).scrubAt = s.scrubAt := rfl
@[simp] theorem State.finishCmd_image (s : State) (r g st res i : Nat) : (s.finishCmd r g st res i).image = s.image := rfl
@[simp] theorem State.finishCmd_nextBlock (s : State) (r g st res i : Nat) :
    (s.finishCmd r g st res i).nextBlock = s.nextBlock := rfl
@[simp] theorem State.finishCmd_nextCell (s : State) (r g st res i : Nat) :
    (s.finishCmd r g st res i).nextCell = s.nextCell := rfl
@[simp] theorem State.finishCmd_fifoPeak (s : State) (r g st res i : Nat) :
    (s.finishCmd r g st res i).fifoPeak = s.fifoPeak := rfl
@[simp] theorem State.finishCmd_reroute (s : State) (r g st res i : Nat) : (s.finishCmd r g st res i).reroute = s.reroute := rfl
@[simp] theorem State.finishCmd_digitalFail (s : State) (r g st res i : Nat) :
    (s.finishCmd r g st res i).digitalFail = s.digitalFail := rfl
@[simp] theorem State.finishCmd_bankRetired (s : State) (r g st res i : Nat) :
    (s.finishCmd r g st res i).bankRetired = s.bankRetired := rfl
@[simp] theorem State.finishCmd_uplinkDown (s : State) (r g st res i : Nat) :
    (s.finishCmd r g st res i).uplinkDown = s.uplinkDown := rfl
@[simp] theorem State.finishCmd_chipDown (s : State) (r g st res i : Nat) :
    (s.finishCmd r g st res i).chipDown = s.chipDown := rfl
@[simp] theorem State.finishCmd_flitFails (s : State) (r g st res i : Nat) :
    (s.finishCmd r g st res i).flitFails = s.flitFails := rfl
@[simp] theorem State.finishCmd_lostChan (s : State) (r g st res i : Nat) :
    (s.finishCmd r g st res i).lostChan = s.lostChan := rfl
@[simp] theorem State.finishCmd_mirCopies (s : State) (r g st res i : Nat) :
    (s.finishCmd r g st res i).mirCopies = s.mirCopies := rfl
@[simp] theorem State.finishCmd_lastRead (s : State) (r g st res i : Nat) :
    (s.finishCmd r g st res i).lastRead = s.lastRead := rfl
@[simp] theorem State.finishCmd_pairVer (s : State) (r g st res i : Nat) : (s.finishCmd r g st res i).pairVer = s.pairVer := rfl
@[simp] theorem State.finishCmd_pairRead (s : State) (r g st res i : Nat) :
    (s.finishCmd r g st res i).pairRead = s.pairRead := rfl
@[simp] theorem State.finishCmd_pairHold (s : State) (r g st res i : Nat) :
    (s.finishCmd r g st res i).pairHold = s.pairHold := rfl
@[simp] theorem State.finishCmd_refStopped (s : State) (r g st res i : Nat) :
    (s.finishCmd r g st res i).refStopped = s.refStopped := rfl
@[simp] theorem State.finishCmd_blocks (s : State) (r g st res i : Nat) : (s.finishCmd r g st res i).blocks = s.blocks := rfl
@[simp] theorem State.finishCmd_mcLoad (s : State) (r g st res i : Nat) : (s.finishCmd r g st res i).mcLoad = s.mcLoad := rfl
@[simp] theorem State.finishCmd_mcActive (s : State) (r g st res i : Nat) :
    (s.finishCmd r g st res i).mcActive = s.mcActive := rfl
@[simp] theorem State.finishCmd_recipes (s : State) (r g st res i : Nat) : (s.finishCmd r g st res i).recipes = s.recipes := rfl
@[simp] theorem State.finishCmd_recipeLoad (s : State) (r g st res i : Nat) :
    (s.finishCmd r g st res i).recipeLoad = s.recipeLoad := rfl
@[simp] theorem State.finishCmd_planQ (s : State) (r g st res i : Nat) : (s.finishCmd r g st res i).planQ = s.planQ := rfl
@[simp] theorem State.finishCmd_planRun (s : State) (r g st res i : Nat) : (s.finishCmd r g st res i).planRun = s.planRun := rfl
@[simp] theorem State.finishCmd_pipes (s : State) (r g st res i : Nat) : (s.finishCmd r g st res i).pipes = s.pipes := rfl
@[simp] theorem State.finishCmd_bufs (s : State) (r g st res i : Nat) : (s.finishCmd r g st res i).bufs = s.bufs := rfl
@[simp] theorem State.finishCmd_csi (s : State) (r g st res i : Nat) : (s.finishCmd r g st res i).csi = s.csi := rfl
@[simp] theorem State.finishCmd_alarms (s : State) (r g st res i : Nat) : (s.finishCmd r g st res i).alarms = s.alarms := rfl
@[simp] theorem State.finishCmd_txns (s : State) (r g st res i : Nat) : (s.finishCmd r g st res i).txns = s.txns := rfl
@[simp] theorem State.finishCmd_txnQ (s : State) (r g st res i : Nat) : (s.finishCmd r g st res i).txnQ = s.txnQ := rfl
@[simp] theorem State.finishCmd_openRes (s : State) (r g st res i : Nat) : (s.finishCmd r g st res i).openRes = s.openRes := rfl
@[simp] theorem State.finishCmd_monWin (s : State) (r g st res i : Nat) : (s.finishCmd r g st res i).monWin = s.monWin := rfl
@[simp] theorem State.finishCmd_samples (s : State) (r g st res i : Nat) : (s.finishCmd r g st res i).samples = s.samples := rfl
@[simp] theorem State.finishCmd_rings (s : State) (r g st res i : Nat) : (s.finishCmd r g st res i).rings = s.rings := rfl
@[simp] theorem State.finishCmd_jobs (s : State) (r g st res i : Nat) : (s.finishCmd r g st res i).jobs = s.jobs := rfl
@[simp] theorem State.finishCmd_ctxCmd (s : State) (r g st res i : Nat) : (s.finishCmd r g st res i).ctxCmd = s.ctxCmd := rfl
@[simp] theorem State.finishCmd_fetchLast (s : State) (r g st res i : Nat) :
    (s.finishCmd r g st res i).fetchLast = s.fetchLast := rfl
@[simp] theorem State.finishCmd_bar4 (s : State) (r g st res i : Nat) : (s.finishCmd r g st res i).bar4 = s.bar4 := rfl
@[simp] theorem State.finishCmd_c0Mark (s : State) (r g st res i : Nat) : (s.finishCmd r g st res i).c0Mark = s.c0Mark := rfl
@[simp] theorem State.finishCmd_pcie (s : State) (r g st res i : Nat) : (s.finishCmd r g st res i).pcie = s.pcie := rfl
@[simp] theorem State.finishCmd_dma (s : State) (r g st res i : Nat) : (s.finishCmd r g st res i).dma = s.dma := rfl
@[simp] theorem State.finishCmd_faults (s : State) (r g st res i : Nat) : (s.finishCmd r g st res i).faults = s.faults := rfl
@[simp] theorem State.finishCmd_power (s : State) (r g st res i : Nat) : (s.finishCmd r g st res i).power = s.power := rfl
@[simp] theorem State.finishCmd_hk (s : State) (r g st res i : Nat) : (s.finishCmd r g st res i).hk = s.hk := rfl
@[simp] theorem State.finishCmd_msp (s : State) (r g st res i : Nat) : (s.finishCmd r g st res i).msp = s.msp := rfl
@[simp] theorem State.finishCmd_tap (s : State) (r g st res i : Nat) : (s.finishCmd r g st res i).tap = s.tap := rfl
@[simp] theorem State.finishCmd_floors (s : State) (r g st res i : Nat) : (s.finishCmd r g st res i).floors = s.floors := rfl
@[simp] theorem State.finishCmd_frames (s : State) (r g st res i : Nat) : (s.finishCmd r g st res i).frames = s.frames := rfl
@[simp] theorem State.finishCmd_quires (s : State) (r g st res i : Nat) : (s.finishCmd r g st res i).quires = s.quires := rfl
@[simp] theorem State.finishCmd_pending (s : State) (r g st res i : Nat) : (s.finishCmd r g st res i).pending = s.pending := rfl
@[simp] theorem State.finishCmd_reg (s : State) (r g st res i : Nat) (x : Nat) :
    (s.finishCmd r g st res i).reg x = s.reg x := rfl
@[simp] theorem State.finishCmd_get (s : State) (r g st res i : Nat) (x : Fld) :
    (s.finishCmd r g st res i).get x = s.get x := rfl
@[simp] theorem State.finishCmd_flag (s : State) (r g st res i : Nat) (x : Fld) :
    (s.finishCmd r g st res i).flag x = s.flag x := rfl
@[simp] theorem State.finishCmd_head (s : State) (r g st res i : Nat) (x : Nat) :
    (s.finishCmd r g st res i).head x = s.head x := rfl
@[simp] theorem State.finishCmd_inRun (s : State) (r g st res i : Nat) : (s.finishCmd r g st res i).inRun = s.inRun := rfl
@[simp] theorem State.finishCmd_access (s : State) (r g st res i : Nat) (x : Nat) :
    (s.finishCmd r g st res i).access x = s.access x := rfl

/-! ### State.modHead -/

@[simp] theorem State.modHead_mode (s : State) (h : Nat) (f : HeadUnit → HeadUnit) : (s.modHead h f).mode = s.mode := rfl
@[simp] theorem State.modHead_regs (s : State) (h : Nat) (f : HeadUnit → HeadUnit) : (s.modHead h f).regs = s.regs := rfl
@[simp] theorem State.modHead_dt (s : State) (h : Nat) (f : HeadUnit → HeadUnit) : (s.modHead h f).dt = s.dt := rfl
@[simp] theorem State.modHead_dtFrac (s : State) (h : Nat) (f : HeadUnit → HeadUnit) : (s.modHead h f).dtFrac = s.dtFrac := rfl
@[simp] theorem State.modHead_freeCnt (s : State) (h : Nat) (f : HeadUnit → HeadUnit) :
    (s.modHead h f).freeCnt = s.freeCnt := rfl
@[simp] theorem State.modHead_dram (s : State) (h : Nat) (f : HeadUnit → HeadUnit) : (s.modHead h f).dram = s.dram := rfl
@[simp] theorem State.modHead_nvm (s : State) (h : Nat) (f : HeadUnit → HeadUnit) : (s.modHead h f).nvm = s.nvm := rfl
@[simp] theorem State.modHead_host (s : State) (h : Nat) (f : HeadUnit → HeadUnit) : (s.modHead h f).host = s.host := rfl
@[simp] theorem State.modHead_inbox (s : State) (h : Nat) (f : HeadUnit → HeadUnit) : (s.modHead h f).inbox = s.inbox := rfl
@[simp] theorem State.modHead_banks (s : State) (h : Nat) (f : HeadUnit → HeadUnit) : (s.modHead h f).banks = s.banks := rfl
@[simp] theorem State.modHead_shutters (s : State) (h : Nat) (f : HeadUnit → HeadUnit) :
    (s.modHead h f).shutters = s.shutters := rfl
@[simp] theorem State.modHead_ring (s : State) (h : Nat) (f : HeadUnit → HeadUnit) : (s.modHead h f).ring = s.ring := rfl
@[simp] theorem State.modHead_nv (s : State) (h : Nat) (f : HeadUnit → HeadUnit) : (s.modHead h f).nv = s.nv := rfl
@[simp] theorem State.modHead_cmdDone (s : State) (h : Nat) (f : HeadUnit → HeadUnit) :
    (s.modHead h f).cmdDone = s.cmdDone := rfl
@[simp] theorem State.modHead_churnRun (s : State) (h : Nat) (f : HeadUnit → HeadUnit) :
    (s.modHead h f).churnRun = s.churnRun := rfl
@[simp] theorem State.modHead_churnQueue (s : State) (h : Nat) (f : HeadUnit → HeadUnit) :
    (s.modHead h f).churnQueue = s.churnQueue := rfl
@[simp] theorem State.modHead_scrubAt (s : State) (h : Nat) (f : HeadUnit → HeadUnit) :
    (s.modHead h f).scrubAt = s.scrubAt := rfl
@[simp] theorem State.modHead_image (s : State) (h : Nat) (f : HeadUnit → HeadUnit) : (s.modHead h f).image = s.image := rfl
@[simp] theorem State.modHead_nextBlock (s : State) (h : Nat) (f : HeadUnit → HeadUnit) :
    (s.modHead h f).nextBlock = s.nextBlock := rfl
@[simp] theorem State.modHead_nextCell (s : State) (h : Nat) (f : HeadUnit → HeadUnit) :
    (s.modHead h f).nextCell = s.nextCell := rfl
@[simp] theorem State.modHead_fifoPeak (s : State) (h : Nat) (f : HeadUnit → HeadUnit) :
    (s.modHead h f).fifoPeak = s.fifoPeak := rfl
@[simp] theorem State.modHead_reroute (s : State) (h : Nat) (f : HeadUnit → HeadUnit) :
    (s.modHead h f).reroute = s.reroute := rfl
@[simp] theorem State.modHead_digitalFail (s : State) (h : Nat) (f : HeadUnit → HeadUnit) :
    (s.modHead h f).digitalFail = s.digitalFail := rfl
@[simp] theorem State.modHead_bankRetired (s : State) (h : Nat) (f : HeadUnit → HeadUnit) :
    (s.modHead h f).bankRetired = s.bankRetired := rfl
@[simp] theorem State.modHead_uplinkDown (s : State) (h : Nat) (f : HeadUnit → HeadUnit) :
    (s.modHead h f).uplinkDown = s.uplinkDown := rfl
@[simp] theorem State.modHead_chipDown (s : State) (h : Nat) (f : HeadUnit → HeadUnit) :
    (s.modHead h f).chipDown = s.chipDown := rfl
@[simp] theorem State.modHead_flitFails (s : State) (h : Nat) (f : HeadUnit → HeadUnit) :
    (s.modHead h f).flitFails = s.flitFails := rfl
@[simp] theorem State.modHead_lostChan (s : State) (h : Nat) (f : HeadUnit → HeadUnit) :
    (s.modHead h f).lostChan = s.lostChan := rfl
@[simp] theorem State.modHead_mirCopies (s : State) (h : Nat) (f : HeadUnit → HeadUnit) :
    (s.modHead h f).mirCopies = s.mirCopies := rfl
@[simp] theorem State.modHead_lastRead (s : State) (h : Nat) (f : HeadUnit → HeadUnit) :
    (s.modHead h f).lastRead = s.lastRead := rfl
@[simp] theorem State.modHead_pairVer (s : State) (h : Nat) (f : HeadUnit → HeadUnit) :
    (s.modHead h f).pairVer = s.pairVer := rfl
@[simp] theorem State.modHead_pairRead (s : State) (h : Nat) (f : HeadUnit → HeadUnit) :
    (s.modHead h f).pairRead = s.pairRead := rfl
@[simp] theorem State.modHead_pairHold (s : State) (h : Nat) (f : HeadUnit → HeadUnit) :
    (s.modHead h f).pairHold = s.pairHold := rfl
@[simp] theorem State.modHead_refStopped (s : State) (h : Nat) (f : HeadUnit → HeadUnit) :
    (s.modHead h f).refStopped = s.refStopped := rfl
@[simp] theorem State.modHead_blocks (s : State) (h : Nat) (f : HeadUnit → HeadUnit) : (s.modHead h f).blocks = s.blocks := rfl
@[simp] theorem State.modHead_mcLoad (s : State) (h : Nat) (f : HeadUnit → HeadUnit) : (s.modHead h f).mcLoad = s.mcLoad := rfl
@[simp] theorem State.modHead_mcActive (s : State) (h : Nat) (f : HeadUnit → HeadUnit) :
    (s.modHead h f).mcActive = s.mcActive := rfl
@[simp] theorem State.modHead_recipes (s : State) (h : Nat) (f : HeadUnit → HeadUnit) :
    (s.modHead h f).recipes = s.recipes := rfl
@[simp] theorem State.modHead_recipeLoad (s : State) (h : Nat) (f : HeadUnit → HeadUnit) :
    (s.modHead h f).recipeLoad = s.recipeLoad := rfl
@[simp] theorem State.modHead_planQ (s : State) (h : Nat) (f : HeadUnit → HeadUnit) : (s.modHead h f).planQ = s.planQ := rfl
@[simp] theorem State.modHead_planRun (s : State) (h : Nat) (f : HeadUnit → HeadUnit) :
    (s.modHead h f).planRun = s.planRun := rfl
@[simp] theorem State.modHead_pipes (s : State) (h : Nat) (f : HeadUnit → HeadUnit) : (s.modHead h f).pipes = s.pipes := rfl
@[simp] theorem State.modHead_bufs (s : State) (h : Nat) (f : HeadUnit → HeadUnit) : (s.modHead h f).bufs = s.bufs := rfl
@[simp] theorem State.modHead_csi (s : State) (h : Nat) (f : HeadUnit → HeadUnit) : (s.modHead h f).csi = s.csi := rfl
@[simp] theorem State.modHead_alarms (s : State) (h : Nat) (f : HeadUnit → HeadUnit) : (s.modHead h f).alarms = s.alarms := rfl
@[simp] theorem State.modHead_txns (s : State) (h : Nat) (f : HeadUnit → HeadUnit) : (s.modHead h f).txns = s.txns := rfl
@[simp] theorem State.modHead_txnQ (s : State) (h : Nat) (f : HeadUnit → HeadUnit) : (s.modHead h f).txnQ = s.txnQ := rfl
@[simp] theorem State.modHead_openRes (s : State) (h : Nat) (f : HeadUnit → HeadUnit) :
    (s.modHead h f).openRes = s.openRes := rfl
@[simp] theorem State.modHead_monWin (s : State) (h : Nat) (f : HeadUnit → HeadUnit) : (s.modHead h f).monWin = s.monWin := rfl
@[simp] theorem State.modHead_samples (s : State) (h : Nat) (f : HeadUnit → HeadUnit) :
    (s.modHead h f).samples = s.samples := rfl
@[simp] theorem State.modHead_rings (s : State) (h : Nat) (f : HeadUnit → HeadUnit) : (s.modHead h f).rings = s.rings := rfl
@[simp] theorem State.modHead_jobs (s : State) (h : Nat) (f : HeadUnit → HeadUnit) : (s.modHead h f).jobs = s.jobs := rfl
@[simp] theorem State.modHead_ctxCmd (s : State) (h : Nat) (f : HeadUnit → HeadUnit) : (s.modHead h f).ctxCmd = s.ctxCmd := rfl
@[simp] theorem State.modHead_fetchLast (s : State) (h : Nat) (f : HeadUnit → HeadUnit) :
    (s.modHead h f).fetchLast = s.fetchLast := rfl
@[simp] theorem State.modHead_bar4 (s : State) (h : Nat) (f : HeadUnit → HeadUnit) : (s.modHead h f).bar4 = s.bar4 := rfl
@[simp] theorem State.modHead_c0Mark (s : State) (h : Nat) (f : HeadUnit → HeadUnit) : (s.modHead h f).c0Mark = s.c0Mark := rfl
@[simp] theorem State.modHead_pcie (s : State) (h : Nat) (f : HeadUnit → HeadUnit) : (s.modHead h f).pcie = s.pcie := rfl
@[simp] theorem State.modHead_dma (s : State) (h : Nat) (f : HeadUnit → HeadUnit) : (s.modHead h f).dma = s.dma := rfl
@[simp] theorem State.modHead_faults (s : State) (h : Nat) (f : HeadUnit → HeadUnit) : (s.modHead h f).faults = s.faults := rfl
@[simp] theorem State.modHead_power (s : State) (h : Nat) (f : HeadUnit → HeadUnit) : (s.modHead h f).power = s.power := rfl
@[simp] theorem State.modHead_hk (s : State) (h : Nat) (f : HeadUnit → HeadUnit) : (s.modHead h f).hk = s.hk := rfl
@[simp] theorem State.modHead_msp (s : State) (h : Nat) (f : HeadUnit → HeadUnit) : (s.modHead h f).msp = s.msp := rfl
@[simp] theorem State.modHead_tap (s : State) (h : Nat) (f : HeadUnit → HeadUnit) : (s.modHead h f).tap = s.tap := rfl
@[simp] theorem State.modHead_floors (s : State) (h : Nat) (f : HeadUnit → HeadUnit) : (s.modHead h f).floors = s.floors := rfl
@[simp] theorem State.modHead_frames (s : State) (h : Nat) (f : HeadUnit → HeadUnit) : (s.modHead h f).frames = s.frames := rfl
@[simp] theorem State.modHead_quires (s : State) (h : Nat) (f : HeadUnit → HeadUnit) : (s.modHead h f).quires = s.quires := rfl
@[simp] theorem State.modHead_pending (s : State) (h : Nat) (f : HeadUnit → HeadUnit) :
    (s.modHead h f).pending = s.pending := rfl
@[simp] theorem State.modHead_reg (s : State) (h : Nat) (f : HeadUnit → HeadUnit) (x : Nat) :
    (s.modHead h f).reg x = s.reg x := rfl
@[simp] theorem State.modHead_get (s : State) (h : Nat) (f : HeadUnit → HeadUnit) (x : Fld) :
    (s.modHead h f).get x = s.get x := rfl
@[simp] theorem State.modHead_flag (s : State) (h : Nat) (f : HeadUnit → HeadUnit) (x : Fld) :
    (s.modHead h f).flag x = s.flag x := rfl
@[simp] theorem State.modHead_inRun (s : State) (h : Nat) (f : HeadUnit → HeadUnit) : (s.modHead h f).inRun = s.inRun := rfl
@[simp] theorem State.modHead_access (s : State) (h : Nat) (f : HeadUnit → HeadUnit) (x : Nat) :
    (s.modHead h f).access x = s.access x := rfl

/-! ### State.modBank -/

@[simp] theorem State.modBank_mode (s : State) (r : Nat) (f : Bank → Bank) : (s.modBank r f).mode = s.mode := rfl
@[simp] theorem State.modBank_regs (s : State) (r : Nat) (f : Bank → Bank) : (s.modBank r f).regs = s.regs := rfl
@[simp] theorem State.modBank_dt (s : State) (r : Nat) (f : Bank → Bank) : (s.modBank r f).dt = s.dt := rfl
@[simp] theorem State.modBank_dtFrac (s : State) (r : Nat) (f : Bank → Bank) : (s.modBank r f).dtFrac = s.dtFrac := rfl
@[simp] theorem State.modBank_freeCnt (s : State) (r : Nat) (f : Bank → Bank) : (s.modBank r f).freeCnt = s.freeCnt := rfl
@[simp] theorem State.modBank_dram (s : State) (r : Nat) (f : Bank → Bank) : (s.modBank r f).dram = s.dram := rfl
@[simp] theorem State.modBank_nvm (s : State) (r : Nat) (f : Bank → Bank) : (s.modBank r f).nvm = s.nvm := rfl
@[simp] theorem State.modBank_host (s : State) (r : Nat) (f : Bank → Bank) : (s.modBank r f).host = s.host := rfl
@[simp] theorem State.modBank_inbox (s : State) (r : Nat) (f : Bank → Bank) : (s.modBank r f).inbox = s.inbox := rfl
@[simp] theorem State.modBank_heads (s : State) (r : Nat) (f : Bank → Bank) : (s.modBank r f).heads = s.heads := rfl
@[simp] theorem State.modBank_shutters (s : State) (r : Nat) (f : Bank → Bank) : (s.modBank r f).shutters = s.shutters := rfl
@[simp] theorem State.modBank_ring (s : State) (r : Nat) (f : Bank → Bank) : (s.modBank r f).ring = s.ring := rfl
@[simp] theorem State.modBank_nv (s : State) (r : Nat) (f : Bank → Bank) : (s.modBank r f).nv = s.nv := rfl
@[simp] theorem State.modBank_cmdDone (s : State) (r : Nat) (f : Bank → Bank) : (s.modBank r f).cmdDone = s.cmdDone := rfl
@[simp] theorem State.modBank_churnRun (s : State) (r : Nat) (f : Bank → Bank) : (s.modBank r f).churnRun = s.churnRun := rfl
@[simp] theorem State.modBank_churnQueue (s : State) (r : Nat) (f : Bank → Bank) :
    (s.modBank r f).churnQueue = s.churnQueue := rfl
@[simp] theorem State.modBank_scrubAt (s : State) (r : Nat) (f : Bank → Bank) : (s.modBank r f).scrubAt = s.scrubAt := rfl
@[simp] theorem State.modBank_image (s : State) (r : Nat) (f : Bank → Bank) : (s.modBank r f).image = s.image := rfl
@[simp] theorem State.modBank_nextBlock (s : State) (r : Nat) (f : Bank → Bank) : (s.modBank r f).nextBlock = s.nextBlock := rfl
@[simp] theorem State.modBank_nextCell (s : State) (r : Nat) (f : Bank → Bank) : (s.modBank r f).nextCell = s.nextCell := rfl
@[simp] theorem State.modBank_fifoPeak (s : State) (r : Nat) (f : Bank → Bank) : (s.modBank r f).fifoPeak = s.fifoPeak := rfl
@[simp] theorem State.modBank_reroute (s : State) (r : Nat) (f : Bank → Bank) : (s.modBank r f).reroute = s.reroute := rfl
@[simp] theorem State.modBank_digitalFail (s : State) (r : Nat) (f : Bank → Bank) :
    (s.modBank r f).digitalFail = s.digitalFail := rfl
@[simp] theorem State.modBank_bankRetired (s : State) (r : Nat) (f : Bank → Bank) :
    (s.modBank r f).bankRetired = s.bankRetired := rfl
@[simp] theorem State.modBank_uplinkDown (s : State) (r : Nat) (f : Bank → Bank) :
    (s.modBank r f).uplinkDown = s.uplinkDown := rfl
@[simp] theorem State.modBank_chipDown (s : State) (r : Nat) (f : Bank → Bank) : (s.modBank r f).chipDown = s.chipDown := rfl
@[simp] theorem State.modBank_flitFails (s : State) (r : Nat) (f : Bank → Bank) : (s.modBank r f).flitFails = s.flitFails := rfl
@[simp] theorem State.modBank_lostChan (s : State) (r : Nat) (f : Bank → Bank) : (s.modBank r f).lostChan = s.lostChan := rfl
@[simp] theorem State.modBank_mirCopies (s : State) (r : Nat) (f : Bank → Bank) : (s.modBank r f).mirCopies = s.mirCopies := rfl
@[simp] theorem State.modBank_lastRead (s : State) (r : Nat) (f : Bank → Bank) : (s.modBank r f).lastRead = s.lastRead := rfl
@[simp] theorem State.modBank_pairVer (s : State) (r : Nat) (f : Bank → Bank) : (s.modBank r f).pairVer = s.pairVer := rfl
@[simp] theorem State.modBank_pairRead (s : State) (r : Nat) (f : Bank → Bank) : (s.modBank r f).pairRead = s.pairRead := rfl
@[simp] theorem State.modBank_pairHold (s : State) (r : Nat) (f : Bank → Bank) : (s.modBank r f).pairHold = s.pairHold := rfl
@[simp] theorem State.modBank_refStopped (s : State) (r : Nat) (f : Bank → Bank) :
    (s.modBank r f).refStopped = s.refStopped := rfl
@[simp] theorem State.modBank_blocks (s : State) (r : Nat) (f : Bank → Bank) : (s.modBank r f).blocks = s.blocks := rfl
@[simp] theorem State.modBank_mcLoad (s : State) (r : Nat) (f : Bank → Bank) : (s.modBank r f).mcLoad = s.mcLoad := rfl
@[simp] theorem State.modBank_mcActive (s : State) (r : Nat) (f : Bank → Bank) : (s.modBank r f).mcActive = s.mcActive := rfl
@[simp] theorem State.modBank_recipes (s : State) (r : Nat) (f : Bank → Bank) : (s.modBank r f).recipes = s.recipes := rfl
@[simp] theorem State.modBank_recipeLoad (s : State) (r : Nat) (f : Bank → Bank) :
    (s.modBank r f).recipeLoad = s.recipeLoad := rfl
@[simp] theorem State.modBank_planQ (s : State) (r : Nat) (f : Bank → Bank) : (s.modBank r f).planQ = s.planQ := rfl
@[simp] theorem State.modBank_planRun (s : State) (r : Nat) (f : Bank → Bank) : (s.modBank r f).planRun = s.planRun := rfl
@[simp] theorem State.modBank_pipes (s : State) (r : Nat) (f : Bank → Bank) : (s.modBank r f).pipes = s.pipes := rfl
@[simp] theorem State.modBank_bufs (s : State) (r : Nat) (f : Bank → Bank) : (s.modBank r f).bufs = s.bufs := rfl
@[simp] theorem State.modBank_csi (s : State) (r : Nat) (f : Bank → Bank) : (s.modBank r f).csi = s.csi := rfl
@[simp] theorem State.modBank_alarms (s : State) (r : Nat) (f : Bank → Bank) : (s.modBank r f).alarms = s.alarms := rfl
@[simp] theorem State.modBank_txns (s : State) (r : Nat) (f : Bank → Bank) : (s.modBank r f).txns = s.txns := rfl
@[simp] theorem State.modBank_txnQ (s : State) (r : Nat) (f : Bank → Bank) : (s.modBank r f).txnQ = s.txnQ := rfl
@[simp] theorem State.modBank_openRes (s : State) (r : Nat) (f : Bank → Bank) : (s.modBank r f).openRes = s.openRes := rfl
@[simp] theorem State.modBank_monWin (s : State) (r : Nat) (f : Bank → Bank) : (s.modBank r f).monWin = s.monWin := rfl
@[simp] theorem State.modBank_samples (s : State) (r : Nat) (f : Bank → Bank) : (s.modBank r f).samples = s.samples := rfl
@[simp] theorem State.modBank_rings (s : State) (r : Nat) (f : Bank → Bank) : (s.modBank r f).rings = s.rings := rfl
@[simp] theorem State.modBank_jobs (s : State) (r : Nat) (f : Bank → Bank) : (s.modBank r f).jobs = s.jobs := rfl
@[simp] theorem State.modBank_ctxCmd (s : State) (r : Nat) (f : Bank → Bank) : (s.modBank r f).ctxCmd = s.ctxCmd := rfl
@[simp] theorem State.modBank_fetchLast (s : State) (r : Nat) (f : Bank → Bank) : (s.modBank r f).fetchLast = s.fetchLast := rfl
@[simp] theorem State.modBank_bar4 (s : State) (r : Nat) (f : Bank → Bank) : (s.modBank r f).bar4 = s.bar4 := rfl
@[simp] theorem State.modBank_c0Mark (s : State) (r : Nat) (f : Bank → Bank) : (s.modBank r f).c0Mark = s.c0Mark := rfl
@[simp] theorem State.modBank_pcie (s : State) (r : Nat) (f : Bank → Bank) : (s.modBank r f).pcie = s.pcie := rfl
@[simp] theorem State.modBank_dma (s : State) (r : Nat) (f : Bank → Bank) : (s.modBank r f).dma = s.dma := rfl
@[simp] theorem State.modBank_faults (s : State) (r : Nat) (f : Bank → Bank) : (s.modBank r f).faults = s.faults := rfl
@[simp] theorem State.modBank_power (s : State) (r : Nat) (f : Bank → Bank) : (s.modBank r f).power = s.power := rfl
@[simp] theorem State.modBank_hk (s : State) (r : Nat) (f : Bank → Bank) : (s.modBank r f).hk = s.hk := rfl
@[simp] theorem State.modBank_msp (s : State) (r : Nat) (f : Bank → Bank) : (s.modBank r f).msp = s.msp := rfl
@[simp] theorem State.modBank_tap (s : State) (r : Nat) (f : Bank → Bank) : (s.modBank r f).tap = s.tap := rfl
@[simp] theorem State.modBank_floors (s : State) (r : Nat) (f : Bank → Bank) : (s.modBank r f).floors = s.floors := rfl
@[simp] theorem State.modBank_frames (s : State) (r : Nat) (f : Bank → Bank) : (s.modBank r f).frames = s.frames := rfl
@[simp] theorem State.modBank_quires (s : State) (r : Nat) (f : Bank → Bank) : (s.modBank r f).quires = s.quires := rfl
@[simp] theorem State.modBank_pending (s : State) (r : Nat) (f : Bank → Bank) : (s.modBank r f).pending = s.pending := rfl
@[simp] theorem State.modBank_reg (s : State) (r : Nat) (f : Bank → Bank) (x : Nat) : (s.modBank r f).reg x = s.reg x := rfl
@[simp] theorem State.modBank_get (s : State) (r : Nat) (f : Bank → Bank) (x : Fld) : (s.modBank r f).get x = s.get x := rfl
@[simp] theorem State.modBank_flag (s : State) (r : Nat) (f : Bank → Bank) (x : Fld) : (s.modBank r f).flag x = s.flag x := rfl
@[simp] theorem State.modBank_head (s : State) (r : Nat) (f : Bank → Bank) (x : Nat) : (s.modBank r f).head x = s.head x := rfl
@[simp] theorem State.modBank_inRun (s : State) (r : Nat) (f : Bank → Bank) : (s.modBank r f).inRun = s.inRun := rfl
@[simp] theorem State.modBank_access (s : State) (r : Nat) (f : Bank → Bank) (x : Nat) :
    (s.modBank r f).access x = s.access x := rfl

/-! ### State.modShut -/

@[simp] theorem State.modShut_mode (s : State) (h : Nat) (f : Shutter → Shutter) : (s.modShut h f).mode = s.mode := rfl
@[simp] theorem State.modShut_regs (s : State) (h : Nat) (f : Shutter → Shutter) : (s.modShut h f).regs = s.regs := rfl
@[simp] theorem State.modShut_dt (s : State) (h : Nat) (f : Shutter → Shutter) : (s.modShut h f).dt = s.dt := rfl
@[simp] theorem State.modShut_dtFrac (s : State) (h : Nat) (f : Shutter → Shutter) : (s.modShut h f).dtFrac = s.dtFrac := rfl
@[simp] theorem State.modShut_freeCnt (s : State) (h : Nat) (f : Shutter → Shutter) : (s.modShut h f).freeCnt = s.freeCnt := rfl
@[simp] theorem State.modShut_dram (s : State) (h : Nat) (f : Shutter → Shutter) : (s.modShut h f).dram = s.dram := rfl
@[simp] theorem State.modShut_nvm (s : State) (h : Nat) (f : Shutter → Shutter) : (s.modShut h f).nvm = s.nvm := rfl
@[simp] theorem State.modShut_host (s : State) (h : Nat) (f : Shutter → Shutter) : (s.modShut h f).host = s.host := rfl
@[simp] theorem State.modShut_inbox (s : State) (h : Nat) (f : Shutter → Shutter) : (s.modShut h f).inbox = s.inbox := rfl
@[simp] theorem State.modShut_heads (s : State) (h : Nat) (f : Shutter → Shutter) : (s.modShut h f).heads = s.heads := rfl
@[simp] theorem State.modShut_banks (s : State) (h : Nat) (f : Shutter → Shutter) : (s.modShut h f).banks = s.banks := rfl
@[simp] theorem State.modShut_ring (s : State) (h : Nat) (f : Shutter → Shutter) : (s.modShut h f).ring = s.ring := rfl
@[simp] theorem State.modShut_nv (s : State) (h : Nat) (f : Shutter → Shutter) : (s.modShut h f).nv = s.nv := rfl
@[simp] theorem State.modShut_cmdDone (s : State) (h : Nat) (f : Shutter → Shutter) : (s.modShut h f).cmdDone = s.cmdDone := rfl
@[simp] theorem State.modShut_churnRun (s : State) (h : Nat) (f : Shutter → Shutter) :
    (s.modShut h f).churnRun = s.churnRun := rfl
@[simp] theorem State.modShut_churnQueue (s : State) (h : Nat) (f : Shutter → Shutter) :
    (s.modShut h f).churnQueue = s.churnQueue := rfl
@[simp] theorem State.modShut_scrubAt (s : State) (h : Nat) (f : Shutter → Shutter) : (s.modShut h f).scrubAt = s.scrubAt := rfl
@[simp] theorem State.modShut_image (s : State) (h : Nat) (f : Shutter → Shutter) : (s.modShut h f).image = s.image := rfl
@[simp] theorem State.modShut_nextBlock (s : State) (h : Nat) (f : Shutter → Shutter) :
    (s.modShut h f).nextBlock = s.nextBlock := rfl
@[simp] theorem State.modShut_nextCell (s : State) (h : Nat) (f : Shutter → Shutter) :
    (s.modShut h f).nextCell = s.nextCell := rfl
@[simp] theorem State.modShut_fifoPeak (s : State) (h : Nat) (f : Shutter → Shutter) :
    (s.modShut h f).fifoPeak = s.fifoPeak := rfl
@[simp] theorem State.modShut_reroute (s : State) (h : Nat) (f : Shutter → Shutter) : (s.modShut h f).reroute = s.reroute := rfl
@[simp] theorem State.modShut_digitalFail (s : State) (h : Nat) (f : Shutter → Shutter) :
    (s.modShut h f).digitalFail = s.digitalFail := rfl
@[simp] theorem State.modShut_bankRetired (s : State) (h : Nat) (f : Shutter → Shutter) :
    (s.modShut h f).bankRetired = s.bankRetired := rfl
@[simp] theorem State.modShut_uplinkDown (s : State) (h : Nat) (f : Shutter → Shutter) :
    (s.modShut h f).uplinkDown = s.uplinkDown := rfl
@[simp] theorem State.modShut_chipDown (s : State) (h : Nat) (f : Shutter → Shutter) :
    (s.modShut h f).chipDown = s.chipDown := rfl
@[simp] theorem State.modShut_flitFails (s : State) (h : Nat) (f : Shutter → Shutter) :
    (s.modShut h f).flitFails = s.flitFails := rfl
@[simp] theorem State.modShut_lostChan (s : State) (h : Nat) (f : Shutter → Shutter) :
    (s.modShut h f).lostChan = s.lostChan := rfl
@[simp] theorem State.modShut_mirCopies (s : State) (h : Nat) (f : Shutter → Shutter) :
    (s.modShut h f).mirCopies = s.mirCopies := rfl
@[simp] theorem State.modShut_lastRead (s : State) (h : Nat) (f : Shutter → Shutter) :
    (s.modShut h f).lastRead = s.lastRead := rfl
@[simp] theorem State.modShut_pairVer (s : State) (h : Nat) (f : Shutter → Shutter) : (s.modShut h f).pairVer = s.pairVer := rfl
@[simp] theorem State.modShut_pairRead (s : State) (h : Nat) (f : Shutter → Shutter) :
    (s.modShut h f).pairRead = s.pairRead := rfl
@[simp] theorem State.modShut_pairHold (s : State) (h : Nat) (f : Shutter → Shutter) :
    (s.modShut h f).pairHold = s.pairHold := rfl
@[simp] theorem State.modShut_refStopped (s : State) (h : Nat) (f : Shutter → Shutter) :
    (s.modShut h f).refStopped = s.refStopped := rfl
@[simp] theorem State.modShut_blocks (s : State) (h : Nat) (f : Shutter → Shutter) : (s.modShut h f).blocks = s.blocks := rfl
@[simp] theorem State.modShut_mcLoad (s : State) (h : Nat) (f : Shutter → Shutter) : (s.modShut h f).mcLoad = s.mcLoad := rfl
@[simp] theorem State.modShut_mcActive (s : State) (h : Nat) (f : Shutter → Shutter) :
    (s.modShut h f).mcActive = s.mcActive := rfl
@[simp] theorem State.modShut_recipes (s : State) (h : Nat) (f : Shutter → Shutter) : (s.modShut h f).recipes = s.recipes := rfl
@[simp] theorem State.modShut_recipeLoad (s : State) (h : Nat) (f : Shutter → Shutter) :
    (s.modShut h f).recipeLoad = s.recipeLoad := rfl
@[simp] theorem State.modShut_planQ (s : State) (h : Nat) (f : Shutter → Shutter) : (s.modShut h f).planQ = s.planQ := rfl
@[simp] theorem State.modShut_planRun (s : State) (h : Nat) (f : Shutter → Shutter) : (s.modShut h f).planRun = s.planRun := rfl
@[simp] theorem State.modShut_pipes (s : State) (h : Nat) (f : Shutter → Shutter) : (s.modShut h f).pipes = s.pipes := rfl
@[simp] theorem State.modShut_bufs (s : State) (h : Nat) (f : Shutter → Shutter) : (s.modShut h f).bufs = s.bufs := rfl
@[simp] theorem State.modShut_csi (s : State) (h : Nat) (f : Shutter → Shutter) : (s.modShut h f).csi = s.csi := rfl
@[simp] theorem State.modShut_alarms (s : State) (h : Nat) (f : Shutter → Shutter) : (s.modShut h f).alarms = s.alarms := rfl
@[simp] theorem State.modShut_txns (s : State) (h : Nat) (f : Shutter → Shutter) : (s.modShut h f).txns = s.txns := rfl
@[simp] theorem State.modShut_txnQ (s : State) (h : Nat) (f : Shutter → Shutter) : (s.modShut h f).txnQ = s.txnQ := rfl
@[simp] theorem State.modShut_openRes (s : State) (h : Nat) (f : Shutter → Shutter) : (s.modShut h f).openRes = s.openRes := rfl
@[simp] theorem State.modShut_monWin (s : State) (h : Nat) (f : Shutter → Shutter) : (s.modShut h f).monWin = s.monWin := rfl
@[simp] theorem State.modShut_samples (s : State) (h : Nat) (f : Shutter → Shutter) : (s.modShut h f).samples = s.samples := rfl
@[simp] theorem State.modShut_rings (s : State) (h : Nat) (f : Shutter → Shutter) : (s.modShut h f).rings = s.rings := rfl
@[simp] theorem State.modShut_jobs (s : State) (h : Nat) (f : Shutter → Shutter) : (s.modShut h f).jobs = s.jobs := rfl
@[simp] theorem State.modShut_ctxCmd (s : State) (h : Nat) (f : Shutter → Shutter) : (s.modShut h f).ctxCmd = s.ctxCmd := rfl
@[simp] theorem State.modShut_fetchLast (s : State) (h : Nat) (f : Shutter → Shutter) :
    (s.modShut h f).fetchLast = s.fetchLast := rfl
@[simp] theorem State.modShut_bar4 (s : State) (h : Nat) (f : Shutter → Shutter) : (s.modShut h f).bar4 = s.bar4 := rfl
@[simp] theorem State.modShut_c0Mark (s : State) (h : Nat) (f : Shutter → Shutter) : (s.modShut h f).c0Mark = s.c0Mark := rfl
@[simp] theorem State.modShut_pcie (s : State) (h : Nat) (f : Shutter → Shutter) : (s.modShut h f).pcie = s.pcie := rfl
@[simp] theorem State.modShut_dma (s : State) (h : Nat) (f : Shutter → Shutter) : (s.modShut h f).dma = s.dma := rfl
@[simp] theorem State.modShut_faults (s : State) (h : Nat) (f : Shutter → Shutter) : (s.modShut h f).faults = s.faults := rfl
@[simp] theorem State.modShut_power (s : State) (h : Nat) (f : Shutter → Shutter) : (s.modShut h f).power = s.power := rfl
@[simp] theorem State.modShut_hk (s : State) (h : Nat) (f : Shutter → Shutter) : (s.modShut h f).hk = s.hk := rfl
@[simp] theorem State.modShut_msp (s : State) (h : Nat) (f : Shutter → Shutter) : (s.modShut h f).msp = s.msp := rfl
@[simp] theorem State.modShut_tap (s : State) (h : Nat) (f : Shutter → Shutter) : (s.modShut h f).tap = s.tap := rfl
@[simp] theorem State.modShut_floors (s : State) (h : Nat) (f : Shutter → Shutter) : (s.modShut h f).floors = s.floors := rfl
@[simp] theorem State.modShut_frames (s : State) (h : Nat) (f : Shutter → Shutter) : (s.modShut h f).frames = s.frames := rfl
@[simp] theorem State.modShut_quires (s : State) (h : Nat) (f : Shutter → Shutter) : (s.modShut h f).quires = s.quires := rfl
@[simp] theorem State.modShut_pending (s : State) (h : Nat) (f : Shutter → Shutter) : (s.modShut h f).pending = s.pending := rfl
@[simp] theorem State.modShut_reg (s : State) (h : Nat) (f : Shutter → Shutter) (x : Nat) :
    (s.modShut h f).reg x = s.reg x := rfl
@[simp] theorem State.modShut_get (s : State) (h : Nat) (f : Shutter → Shutter) (x : Fld) :
    (s.modShut h f).get x = s.get x := rfl
@[simp] theorem State.modShut_flag (s : State) (h : Nat) (f : Shutter → Shutter) (x : Fld) :
    (s.modShut h f).flag x = s.flag x := rfl
@[simp] theorem State.modShut_head (s : State) (h : Nat) (f : Shutter → Shutter) (x : Nat) :
    (s.modShut h f).head x = s.head x := rfl
@[simp] theorem State.modShut_inRun (s : State) (h : Nat) (f : Shutter → Shutter) : (s.modShut h f).inRun = s.inRun := rfl
@[simp] theorem State.modShut_access (s : State) (h : Nat) (f : Shutter → Shutter) (x : Nat) :
    (s.modShut h f).access x = s.access x := rfl

/-! ### State.modRing -/

@[simp] theorem State.modRing_mode (s : State) (f : Ring → Ring) : (s.modRing f).mode = s.mode := rfl
@[simp] theorem State.modRing_regs (s : State) (f : Ring → Ring) : (s.modRing f).regs = s.regs := rfl
@[simp] theorem State.modRing_dt (s : State) (f : Ring → Ring) : (s.modRing f).dt = s.dt := rfl
@[simp] theorem State.modRing_dtFrac (s : State) (f : Ring → Ring) : (s.modRing f).dtFrac = s.dtFrac := rfl
@[simp] theorem State.modRing_freeCnt (s : State) (f : Ring → Ring) : (s.modRing f).freeCnt = s.freeCnt := rfl
@[simp] theorem State.modRing_dram (s : State) (f : Ring → Ring) : (s.modRing f).dram = s.dram := rfl
@[simp] theorem State.modRing_nvm (s : State) (f : Ring → Ring) : (s.modRing f).nvm = s.nvm := rfl
@[simp] theorem State.modRing_host (s : State) (f : Ring → Ring) : (s.modRing f).host = s.host := rfl
@[simp] theorem State.modRing_inbox (s : State) (f : Ring → Ring) : (s.modRing f).inbox = s.inbox := rfl
@[simp] theorem State.modRing_heads (s : State) (f : Ring → Ring) : (s.modRing f).heads = s.heads := rfl
@[simp] theorem State.modRing_banks (s : State) (f : Ring → Ring) : (s.modRing f).banks = s.banks := rfl
@[simp] theorem State.modRing_shutters (s : State) (f : Ring → Ring) : (s.modRing f).shutters = s.shutters := rfl
@[simp] theorem State.modRing_nv (s : State) (f : Ring → Ring) : (s.modRing f).nv = s.nv := rfl
@[simp] theorem State.modRing_cmdDone (s : State) (f : Ring → Ring) : (s.modRing f).cmdDone = s.cmdDone := rfl
@[simp] theorem State.modRing_churnRun (s : State) (f : Ring → Ring) : (s.modRing f).churnRun = s.churnRun := rfl
@[simp] theorem State.modRing_churnQueue (s : State) (f : Ring → Ring) : (s.modRing f).churnQueue = s.churnQueue := rfl
@[simp] theorem State.modRing_scrubAt (s : State) (f : Ring → Ring) : (s.modRing f).scrubAt = s.scrubAt := rfl
@[simp] theorem State.modRing_image (s : State) (f : Ring → Ring) : (s.modRing f).image = s.image := rfl
@[simp] theorem State.modRing_nextBlock (s : State) (f : Ring → Ring) : (s.modRing f).nextBlock = s.nextBlock := rfl
@[simp] theorem State.modRing_nextCell (s : State) (f : Ring → Ring) : (s.modRing f).nextCell = s.nextCell := rfl
@[simp] theorem State.modRing_fifoPeak (s : State) (f : Ring → Ring) : (s.modRing f).fifoPeak = s.fifoPeak := rfl
@[simp] theorem State.modRing_reroute (s : State) (f : Ring → Ring) : (s.modRing f).reroute = s.reroute := rfl
@[simp] theorem State.modRing_digitalFail (s : State) (f : Ring → Ring) : (s.modRing f).digitalFail = s.digitalFail := rfl
@[simp] theorem State.modRing_bankRetired (s : State) (f : Ring → Ring) : (s.modRing f).bankRetired = s.bankRetired := rfl
@[simp] theorem State.modRing_uplinkDown (s : State) (f : Ring → Ring) : (s.modRing f).uplinkDown = s.uplinkDown := rfl
@[simp] theorem State.modRing_chipDown (s : State) (f : Ring → Ring) : (s.modRing f).chipDown = s.chipDown := rfl
@[simp] theorem State.modRing_flitFails (s : State) (f : Ring → Ring) : (s.modRing f).flitFails = s.flitFails := rfl
@[simp] theorem State.modRing_lostChan (s : State) (f : Ring → Ring) : (s.modRing f).lostChan = s.lostChan := rfl
@[simp] theorem State.modRing_mirCopies (s : State) (f : Ring → Ring) : (s.modRing f).mirCopies = s.mirCopies := rfl
@[simp] theorem State.modRing_lastRead (s : State) (f : Ring → Ring) : (s.modRing f).lastRead = s.lastRead := rfl
@[simp] theorem State.modRing_pairVer (s : State) (f : Ring → Ring) : (s.modRing f).pairVer = s.pairVer := rfl
@[simp] theorem State.modRing_pairRead (s : State) (f : Ring → Ring) : (s.modRing f).pairRead = s.pairRead := rfl
@[simp] theorem State.modRing_pairHold (s : State) (f : Ring → Ring) : (s.modRing f).pairHold = s.pairHold := rfl
@[simp] theorem State.modRing_refStopped (s : State) (f : Ring → Ring) : (s.modRing f).refStopped = s.refStopped := rfl
@[simp] theorem State.modRing_blocks (s : State) (f : Ring → Ring) : (s.modRing f).blocks = s.blocks := rfl
@[simp] theorem State.modRing_mcLoad (s : State) (f : Ring → Ring) : (s.modRing f).mcLoad = s.mcLoad := rfl
@[simp] theorem State.modRing_mcActive (s : State) (f : Ring → Ring) : (s.modRing f).mcActive = s.mcActive := rfl
@[simp] theorem State.modRing_recipes (s : State) (f : Ring → Ring) : (s.modRing f).recipes = s.recipes := rfl
@[simp] theorem State.modRing_recipeLoad (s : State) (f : Ring → Ring) : (s.modRing f).recipeLoad = s.recipeLoad := rfl
@[simp] theorem State.modRing_planQ (s : State) (f : Ring → Ring) : (s.modRing f).planQ = s.planQ := rfl
@[simp] theorem State.modRing_planRun (s : State) (f : Ring → Ring) : (s.modRing f).planRun = s.planRun := rfl
@[simp] theorem State.modRing_pipes (s : State) (f : Ring → Ring) : (s.modRing f).pipes = s.pipes := rfl
@[simp] theorem State.modRing_bufs (s : State) (f : Ring → Ring) : (s.modRing f).bufs = s.bufs := rfl
@[simp] theorem State.modRing_csi (s : State) (f : Ring → Ring) : (s.modRing f).csi = s.csi := rfl
@[simp] theorem State.modRing_alarms (s : State) (f : Ring → Ring) : (s.modRing f).alarms = s.alarms := rfl
@[simp] theorem State.modRing_txns (s : State) (f : Ring → Ring) : (s.modRing f).txns = s.txns := rfl
@[simp] theorem State.modRing_txnQ (s : State) (f : Ring → Ring) : (s.modRing f).txnQ = s.txnQ := rfl
@[simp] theorem State.modRing_openRes (s : State) (f : Ring → Ring) : (s.modRing f).openRes = s.openRes := rfl
@[simp] theorem State.modRing_monWin (s : State) (f : Ring → Ring) : (s.modRing f).monWin = s.monWin := rfl
@[simp] theorem State.modRing_samples (s : State) (f : Ring → Ring) : (s.modRing f).samples = s.samples := rfl
@[simp] theorem State.modRing_rings (s : State) (f : Ring → Ring) : (s.modRing f).rings = s.rings := rfl
@[simp] theorem State.modRing_jobs (s : State) (f : Ring → Ring) : (s.modRing f).jobs = s.jobs := rfl
@[simp] theorem State.modRing_ctxCmd (s : State) (f : Ring → Ring) : (s.modRing f).ctxCmd = s.ctxCmd := rfl
@[simp] theorem State.modRing_fetchLast (s : State) (f : Ring → Ring) : (s.modRing f).fetchLast = s.fetchLast := rfl
@[simp] theorem State.modRing_bar4 (s : State) (f : Ring → Ring) : (s.modRing f).bar4 = s.bar4 := rfl
@[simp] theorem State.modRing_c0Mark (s : State) (f : Ring → Ring) : (s.modRing f).c0Mark = s.c0Mark := rfl
@[simp] theorem State.modRing_pcie (s : State) (f : Ring → Ring) : (s.modRing f).pcie = s.pcie := rfl
@[simp] theorem State.modRing_dma (s : State) (f : Ring → Ring) : (s.modRing f).dma = s.dma := rfl
@[simp] theorem State.modRing_faults (s : State) (f : Ring → Ring) : (s.modRing f).faults = s.faults := rfl
@[simp] theorem State.modRing_power (s : State) (f : Ring → Ring) : (s.modRing f).power = s.power := rfl
@[simp] theorem State.modRing_hk (s : State) (f : Ring → Ring) : (s.modRing f).hk = s.hk := rfl
@[simp] theorem State.modRing_msp (s : State) (f : Ring → Ring) : (s.modRing f).msp = s.msp := rfl
@[simp] theorem State.modRing_tap (s : State) (f : Ring → Ring) : (s.modRing f).tap = s.tap := rfl
@[simp] theorem State.modRing_floors (s : State) (f : Ring → Ring) : (s.modRing f).floors = s.floors := rfl
@[simp] theorem State.modRing_frames (s : State) (f : Ring → Ring) : (s.modRing f).frames = s.frames := rfl
@[simp] theorem State.modRing_quires (s : State) (f : Ring → Ring) : (s.modRing f).quires = s.quires := rfl
@[simp] theorem State.modRing_pending (s : State) (f : Ring → Ring) : (s.modRing f).pending = s.pending := rfl
@[simp] theorem State.modRing_reg (s : State) (f : Ring → Ring) (x : Nat) : (s.modRing f).reg x = s.reg x := rfl
@[simp] theorem State.modRing_get (s : State) (f : Ring → Ring) (x : Fld) : (s.modRing f).get x = s.get x := rfl
@[simp] theorem State.modRing_flag (s : State) (f : Ring → Ring) (x : Fld) : (s.modRing f).flag x = s.flag x := rfl
@[simp] theorem State.modRing_head (s : State) (f : Ring → Ring) (x : Nat) : (s.modRing f).head x = s.head x := rfl
@[simp] theorem State.modRing_inRun (s : State) (f : Ring → Ring) : (s.modRing f).inRun = s.inRun := rfl
@[simp] theorem State.modRing_access (s : State) (f : Ring → Ring) (x : Nat) : (s.modRing f).access x = s.access x := rfl

/-! ### State.hostWrite -/

@[simp] theorem State.hostWrite_mode (s : State) (a : Nat) (bs : List Byte) : (s.hostWrite a bs).mode = s.mode := rfl
@[simp] theorem State.hostWrite_regs (s : State) (a : Nat) (bs : List Byte) : (s.hostWrite a bs).regs = s.regs := rfl
@[simp] theorem State.hostWrite_dt (s : State) (a : Nat) (bs : List Byte) : (s.hostWrite a bs).dt = s.dt := rfl
@[simp] theorem State.hostWrite_dtFrac (s : State) (a : Nat) (bs : List Byte) : (s.hostWrite a bs).dtFrac = s.dtFrac := rfl
@[simp] theorem State.hostWrite_freeCnt (s : State) (a : Nat) (bs : List Byte) : (s.hostWrite a bs).freeCnt = s.freeCnt := rfl
@[simp] theorem State.hostWrite_dram (s : State) (a : Nat) (bs : List Byte) : (s.hostWrite a bs).dram = s.dram := rfl
@[simp] theorem State.hostWrite_nvm (s : State) (a : Nat) (bs : List Byte) : (s.hostWrite a bs).nvm = s.nvm := rfl
@[simp] theorem State.hostWrite_inbox (s : State) (a : Nat) (bs : List Byte) : (s.hostWrite a bs).inbox = s.inbox := rfl
@[simp] theorem State.hostWrite_heads (s : State) (a : Nat) (bs : List Byte) : (s.hostWrite a bs).heads = s.heads := rfl
@[simp] theorem State.hostWrite_banks (s : State) (a : Nat) (bs : List Byte) : (s.hostWrite a bs).banks = s.banks := rfl
@[simp] theorem State.hostWrite_shutters (s : State) (a : Nat) (bs : List Byte) :
    (s.hostWrite a bs).shutters = s.shutters := rfl
@[simp] theorem State.hostWrite_ring (s : State) (a : Nat) (bs : List Byte) : (s.hostWrite a bs).ring = s.ring := rfl
@[simp] theorem State.hostWrite_nv (s : State) (a : Nat) (bs : List Byte) : (s.hostWrite a bs).nv = s.nv := rfl
@[simp] theorem State.hostWrite_cmdDone (s : State) (a : Nat) (bs : List Byte) : (s.hostWrite a bs).cmdDone = s.cmdDone := rfl
@[simp] theorem State.hostWrite_churnRun (s : State) (a : Nat) (bs : List Byte) :
    (s.hostWrite a bs).churnRun = s.churnRun := rfl
@[simp] theorem State.hostWrite_churnQueue (s : State) (a : Nat) (bs : List Byte) :
    (s.hostWrite a bs).churnQueue = s.churnQueue := rfl
@[simp] theorem State.hostWrite_scrubAt (s : State) (a : Nat) (bs : List Byte) : (s.hostWrite a bs).scrubAt = s.scrubAt := rfl
@[simp] theorem State.hostWrite_image (s : State) (a : Nat) (bs : List Byte) : (s.hostWrite a bs).image = s.image := rfl
@[simp] theorem State.hostWrite_nextBlock (s : State) (a : Nat) (bs : List Byte) :
    (s.hostWrite a bs).nextBlock = s.nextBlock := rfl
@[simp] theorem State.hostWrite_nextCell (s : State) (a : Nat) (bs : List Byte) :
    (s.hostWrite a bs).nextCell = s.nextCell := rfl
@[simp] theorem State.hostWrite_fifoPeak (s : State) (a : Nat) (bs : List Byte) :
    (s.hostWrite a bs).fifoPeak = s.fifoPeak := rfl
@[simp] theorem State.hostWrite_reroute (s : State) (a : Nat) (bs : List Byte) : (s.hostWrite a bs).reroute = s.reroute := rfl
@[simp] theorem State.hostWrite_digitalFail (s : State) (a : Nat) (bs : List Byte) :
    (s.hostWrite a bs).digitalFail = s.digitalFail := rfl
@[simp] theorem State.hostWrite_bankRetired (s : State) (a : Nat) (bs : List Byte) :
    (s.hostWrite a bs).bankRetired = s.bankRetired := rfl
@[simp] theorem State.hostWrite_uplinkDown (s : State) (a : Nat) (bs : List Byte) :
    (s.hostWrite a bs).uplinkDown = s.uplinkDown := rfl
@[simp] theorem State.hostWrite_chipDown (s : State) (a : Nat) (bs : List Byte) :
    (s.hostWrite a bs).chipDown = s.chipDown := rfl
@[simp] theorem State.hostWrite_flitFails (s : State) (a : Nat) (bs : List Byte) :
    (s.hostWrite a bs).flitFails = s.flitFails := rfl
@[simp] theorem State.hostWrite_lostChan (s : State) (a : Nat) (bs : List Byte) :
    (s.hostWrite a bs).lostChan = s.lostChan := rfl
@[simp] theorem State.hostWrite_mirCopies (s : State) (a : Nat) (bs : List Byte) :
    (s.hostWrite a bs).mirCopies = s.mirCopies := rfl
@[simp] theorem State.hostWrite_lastRead (s : State) (a : Nat) (bs : List Byte) :
    (s.hostWrite a bs).lastRead = s.lastRead := rfl
@[simp] theorem State.hostWrite_pairVer (s : State) (a : Nat) (bs : List Byte) : (s.hostWrite a bs).pairVer = s.pairVer := rfl
@[simp] theorem State.hostWrite_pairRead (s : State) (a : Nat) (bs : List Byte) :
    (s.hostWrite a bs).pairRead = s.pairRead := rfl
@[simp] theorem State.hostWrite_pairHold (s : State) (a : Nat) (bs : List Byte) :
    (s.hostWrite a bs).pairHold = s.pairHold := rfl
@[simp] theorem State.hostWrite_refStopped (s : State) (a : Nat) (bs : List Byte) :
    (s.hostWrite a bs).refStopped = s.refStopped := rfl
@[simp] theorem State.hostWrite_blocks (s : State) (a : Nat) (bs : List Byte) : (s.hostWrite a bs).blocks = s.blocks := rfl
@[simp] theorem State.hostWrite_mcLoad (s : State) (a : Nat) (bs : List Byte) : (s.hostWrite a bs).mcLoad = s.mcLoad := rfl
@[simp] theorem State.hostWrite_mcActive (s : State) (a : Nat) (bs : List Byte) :
    (s.hostWrite a bs).mcActive = s.mcActive := rfl
@[simp] theorem State.hostWrite_recipes (s : State) (a : Nat) (bs : List Byte) : (s.hostWrite a bs).recipes = s.recipes := rfl
@[simp] theorem State.hostWrite_recipeLoad (s : State) (a : Nat) (bs : List Byte) :
    (s.hostWrite a bs).recipeLoad = s.recipeLoad := rfl
@[simp] theorem State.hostWrite_planQ (s : State) (a : Nat) (bs : List Byte) : (s.hostWrite a bs).planQ = s.planQ := rfl
@[simp] theorem State.hostWrite_planRun (s : State) (a : Nat) (bs : List Byte) : (s.hostWrite a bs).planRun = s.planRun := rfl
@[simp] theorem State.hostWrite_pipes (s : State) (a : Nat) (bs : List Byte) : (s.hostWrite a bs).pipes = s.pipes := rfl
@[simp] theorem State.hostWrite_bufs (s : State) (a : Nat) (bs : List Byte) : (s.hostWrite a bs).bufs = s.bufs := rfl
@[simp] theorem State.hostWrite_csi (s : State) (a : Nat) (bs : List Byte) : (s.hostWrite a bs).csi = s.csi := rfl
@[simp] theorem State.hostWrite_alarms (s : State) (a : Nat) (bs : List Byte) : (s.hostWrite a bs).alarms = s.alarms := rfl
@[simp] theorem State.hostWrite_txns (s : State) (a : Nat) (bs : List Byte) : (s.hostWrite a bs).txns = s.txns := rfl
@[simp] theorem State.hostWrite_txnQ (s : State) (a : Nat) (bs : List Byte) : (s.hostWrite a bs).txnQ = s.txnQ := rfl
@[simp] theorem State.hostWrite_openRes (s : State) (a : Nat) (bs : List Byte) : (s.hostWrite a bs).openRes = s.openRes := rfl
@[simp] theorem State.hostWrite_monWin (s : State) (a : Nat) (bs : List Byte) : (s.hostWrite a bs).monWin = s.monWin := rfl
@[simp] theorem State.hostWrite_samples (s : State) (a : Nat) (bs : List Byte) : (s.hostWrite a bs).samples = s.samples := rfl
@[simp] theorem State.hostWrite_rings (s : State) (a : Nat) (bs : List Byte) : (s.hostWrite a bs).rings = s.rings := rfl
@[simp] theorem State.hostWrite_jobs (s : State) (a : Nat) (bs : List Byte) : (s.hostWrite a bs).jobs = s.jobs := rfl
@[simp] theorem State.hostWrite_ctxCmd (s : State) (a : Nat) (bs : List Byte) : (s.hostWrite a bs).ctxCmd = s.ctxCmd := rfl
@[simp] theorem State.hostWrite_fetchLast (s : State) (a : Nat) (bs : List Byte) :
    (s.hostWrite a bs).fetchLast = s.fetchLast := rfl
@[simp] theorem State.hostWrite_bar4 (s : State) (a : Nat) (bs : List Byte) : (s.hostWrite a bs).bar4 = s.bar4 := rfl
@[simp] theorem State.hostWrite_c0Mark (s : State) (a : Nat) (bs : List Byte) : (s.hostWrite a bs).c0Mark = s.c0Mark := rfl
@[simp] theorem State.hostWrite_pcie (s : State) (a : Nat) (bs : List Byte) : (s.hostWrite a bs).pcie = s.pcie := rfl
@[simp] theorem State.hostWrite_dma (s : State) (a : Nat) (bs : List Byte) : (s.hostWrite a bs).dma = s.dma := rfl
@[simp] theorem State.hostWrite_faults (s : State) (a : Nat) (bs : List Byte) : (s.hostWrite a bs).faults = s.faults := rfl
@[simp] theorem State.hostWrite_power (s : State) (a : Nat) (bs : List Byte) : (s.hostWrite a bs).power = s.power := rfl
@[simp] theorem State.hostWrite_hk (s : State) (a : Nat) (bs : List Byte) : (s.hostWrite a bs).hk = s.hk := rfl
@[simp] theorem State.hostWrite_msp (s : State) (a : Nat) (bs : List Byte) : (s.hostWrite a bs).msp = s.msp := rfl
@[simp] theorem State.hostWrite_tap (s : State) (a : Nat) (bs : List Byte) : (s.hostWrite a bs).tap = s.tap := rfl
@[simp] theorem State.hostWrite_floors (s : State) (a : Nat) (bs : List Byte) : (s.hostWrite a bs).floors = s.floors := rfl
@[simp] theorem State.hostWrite_frames (s : State) (a : Nat) (bs : List Byte) : (s.hostWrite a bs).frames = s.frames := rfl
@[simp] theorem State.hostWrite_quires (s : State) (a : Nat) (bs : List Byte) : (s.hostWrite a bs).quires = s.quires := rfl
@[simp] theorem State.hostWrite_pending (s : State) (a : Nat) (bs : List Byte) : (s.hostWrite a bs).pending = s.pending := rfl
@[simp] theorem State.hostWrite_reg (s : State) (a : Nat) (bs : List Byte) (x : Nat) : (s.hostWrite a bs).reg x = s.reg x := rfl
@[simp] theorem State.hostWrite_get (s : State) (a : Nat) (bs : List Byte) (x : Fld) : (s.hostWrite a bs).get x = s.get x := rfl
@[simp] theorem State.hostWrite_flag (s : State) (a : Nat) (bs : List Byte) (x : Fld) :
    (s.hostWrite a bs).flag x = s.flag x := rfl
@[simp] theorem State.hostWrite_head (s : State) (a : Nat) (bs : List Byte) (x : Nat) :
    (s.hostWrite a bs).head x = s.head x := rfl
@[simp] theorem State.hostWrite_inRun (s : State) (a : Nat) (bs : List Byte) : (s.hostWrite a bs).inRun = s.inRun := rfl
@[simp] theorem State.hostWrite_access (s : State) (a : Nat) (bs : List Byte) (x : Nat) :
    (s.hostWrite a bs).access x = s.access x := rfl

/-! ### State.nvmWrite -/

@[simp] theorem State.nvmWrite_mode (s : State) (a : Nat) (bs : List Byte) : (s.nvmWrite a bs).mode = s.mode := rfl
@[simp] theorem State.nvmWrite_regs (s : State) (a : Nat) (bs : List Byte) : (s.nvmWrite a bs).regs = s.regs := rfl
@[simp] theorem State.nvmWrite_dt (s : State) (a : Nat) (bs : List Byte) : (s.nvmWrite a bs).dt = s.dt := rfl
@[simp] theorem State.nvmWrite_dtFrac (s : State) (a : Nat) (bs : List Byte) : (s.nvmWrite a bs).dtFrac = s.dtFrac := rfl
@[simp] theorem State.nvmWrite_freeCnt (s : State) (a : Nat) (bs : List Byte) : (s.nvmWrite a bs).freeCnt = s.freeCnt := rfl
@[simp] theorem State.nvmWrite_dram (s : State) (a : Nat) (bs : List Byte) : (s.nvmWrite a bs).dram = s.dram := rfl
@[simp] theorem State.nvmWrite_host (s : State) (a : Nat) (bs : List Byte) : (s.nvmWrite a bs).host = s.host := rfl
@[simp] theorem State.nvmWrite_inbox (s : State) (a : Nat) (bs : List Byte) : (s.nvmWrite a bs).inbox = s.inbox := rfl
@[simp] theorem State.nvmWrite_heads (s : State) (a : Nat) (bs : List Byte) : (s.nvmWrite a bs).heads = s.heads := rfl
@[simp] theorem State.nvmWrite_banks (s : State) (a : Nat) (bs : List Byte) : (s.nvmWrite a bs).banks = s.banks := rfl
@[simp] theorem State.nvmWrite_shutters (s : State) (a : Nat) (bs : List Byte) : (s.nvmWrite a bs).shutters = s.shutters := rfl
@[simp] theorem State.nvmWrite_ring (s : State) (a : Nat) (bs : List Byte) : (s.nvmWrite a bs).ring = s.ring := rfl
@[simp] theorem State.nvmWrite_nv (s : State) (a : Nat) (bs : List Byte) : (s.nvmWrite a bs).nv = s.nv := rfl
@[simp] theorem State.nvmWrite_cmdDone (s : State) (a : Nat) (bs : List Byte) : (s.nvmWrite a bs).cmdDone = s.cmdDone := rfl
@[simp] theorem State.nvmWrite_churnRun (s : State) (a : Nat) (bs : List Byte) : (s.nvmWrite a bs).churnRun = s.churnRun := rfl
@[simp] theorem State.nvmWrite_churnQueue (s : State) (a : Nat) (bs : List Byte) :
    (s.nvmWrite a bs).churnQueue = s.churnQueue := rfl
@[simp] theorem State.nvmWrite_scrubAt (s : State) (a : Nat) (bs : List Byte) : (s.nvmWrite a bs).scrubAt = s.scrubAt := rfl
@[simp] theorem State.nvmWrite_image (s : State) (a : Nat) (bs : List Byte) : (s.nvmWrite a bs).image = s.image := rfl
@[simp] theorem State.nvmWrite_nextBlock (s : State) (a : Nat) (bs : List Byte) :
    (s.nvmWrite a bs).nextBlock = s.nextBlock := rfl
@[simp] theorem State.nvmWrite_nextCell (s : State) (a : Nat) (bs : List Byte) : (s.nvmWrite a bs).nextCell = s.nextCell := rfl
@[simp] theorem State.nvmWrite_fifoPeak (s : State) (a : Nat) (bs : List Byte) : (s.nvmWrite a bs).fifoPeak = s.fifoPeak := rfl
@[simp] theorem State.nvmWrite_reroute (s : State) (a : Nat) (bs : List Byte) : (s.nvmWrite a bs).reroute = s.reroute := rfl
@[simp] theorem State.nvmWrite_digitalFail (s : State) (a : Nat) (bs : List Byte) :
    (s.nvmWrite a bs).digitalFail = s.digitalFail := rfl
@[simp] theorem State.nvmWrite_bankRetired (s : State) (a : Nat) (bs : List Byte) :
    (s.nvmWrite a bs).bankRetired = s.bankRetired := rfl
@[simp] theorem State.nvmWrite_uplinkDown (s : State) (a : Nat) (bs : List Byte) :
    (s.nvmWrite a bs).uplinkDown = s.uplinkDown := rfl
@[simp] theorem State.nvmWrite_chipDown (s : State) (a : Nat) (bs : List Byte) : (s.nvmWrite a bs).chipDown = s.chipDown := rfl
@[simp] theorem State.nvmWrite_flitFails (s : State) (a : Nat) (bs : List Byte) :
    (s.nvmWrite a bs).flitFails = s.flitFails := rfl
@[simp] theorem State.nvmWrite_lostChan (s : State) (a : Nat) (bs : List Byte) : (s.nvmWrite a bs).lostChan = s.lostChan := rfl
@[simp] theorem State.nvmWrite_mirCopies (s : State) (a : Nat) (bs : List Byte) :
    (s.nvmWrite a bs).mirCopies = s.mirCopies := rfl
@[simp] theorem State.nvmWrite_lastRead (s : State) (a : Nat) (bs : List Byte) : (s.nvmWrite a bs).lastRead = s.lastRead := rfl
@[simp] theorem State.nvmWrite_pairVer (s : State) (a : Nat) (bs : List Byte) : (s.nvmWrite a bs).pairVer = s.pairVer := rfl
@[simp] theorem State.nvmWrite_pairRead (s : State) (a : Nat) (bs : List Byte) : (s.nvmWrite a bs).pairRead = s.pairRead := rfl
@[simp] theorem State.nvmWrite_pairHold (s : State) (a : Nat) (bs : List Byte) : (s.nvmWrite a bs).pairHold = s.pairHold := rfl
@[simp] theorem State.nvmWrite_refStopped (s : State) (a : Nat) (bs : List Byte) :
    (s.nvmWrite a bs).refStopped = s.refStopped := rfl
@[simp] theorem State.nvmWrite_blocks (s : State) (a : Nat) (bs : List Byte) : (s.nvmWrite a bs).blocks = s.blocks := rfl
@[simp] theorem State.nvmWrite_mcLoad (s : State) (a : Nat) (bs : List Byte) : (s.nvmWrite a bs).mcLoad = s.mcLoad := rfl
@[simp] theorem State.nvmWrite_mcActive (s : State) (a : Nat) (bs : List Byte) : (s.nvmWrite a bs).mcActive = s.mcActive := rfl
@[simp] theorem State.nvmWrite_recipes (s : State) (a : Nat) (bs : List Byte) : (s.nvmWrite a bs).recipes = s.recipes := rfl
@[simp] theorem State.nvmWrite_recipeLoad (s : State) (a : Nat) (bs : List Byte) :
    (s.nvmWrite a bs).recipeLoad = s.recipeLoad := rfl
@[simp] theorem State.nvmWrite_planQ (s : State) (a : Nat) (bs : List Byte) : (s.nvmWrite a bs).planQ = s.planQ := rfl
@[simp] theorem State.nvmWrite_planRun (s : State) (a : Nat) (bs : List Byte) : (s.nvmWrite a bs).planRun = s.planRun := rfl
@[simp] theorem State.nvmWrite_pipes (s : State) (a : Nat) (bs : List Byte) : (s.nvmWrite a bs).pipes = s.pipes := rfl
@[simp] theorem State.nvmWrite_bufs (s : State) (a : Nat) (bs : List Byte) : (s.nvmWrite a bs).bufs = s.bufs := rfl
@[simp] theorem State.nvmWrite_csi (s : State) (a : Nat) (bs : List Byte) : (s.nvmWrite a bs).csi = s.csi := rfl
@[simp] theorem State.nvmWrite_alarms (s : State) (a : Nat) (bs : List Byte) : (s.nvmWrite a bs).alarms = s.alarms := rfl
@[simp] theorem State.nvmWrite_txns (s : State) (a : Nat) (bs : List Byte) : (s.nvmWrite a bs).txns = s.txns := rfl
@[simp] theorem State.nvmWrite_txnQ (s : State) (a : Nat) (bs : List Byte) : (s.nvmWrite a bs).txnQ = s.txnQ := rfl
@[simp] theorem State.nvmWrite_openRes (s : State) (a : Nat) (bs : List Byte) : (s.nvmWrite a bs).openRes = s.openRes := rfl
@[simp] theorem State.nvmWrite_monWin (s : State) (a : Nat) (bs : List Byte) : (s.nvmWrite a bs).monWin = s.monWin := rfl
@[simp] theorem State.nvmWrite_samples (s : State) (a : Nat) (bs : List Byte) : (s.nvmWrite a bs).samples = s.samples := rfl
@[simp] theorem State.nvmWrite_rings (s : State) (a : Nat) (bs : List Byte) : (s.nvmWrite a bs).rings = s.rings := rfl
@[simp] theorem State.nvmWrite_jobs (s : State) (a : Nat) (bs : List Byte) : (s.nvmWrite a bs).jobs = s.jobs := rfl
@[simp] theorem State.nvmWrite_ctxCmd (s : State) (a : Nat) (bs : List Byte) : (s.nvmWrite a bs).ctxCmd = s.ctxCmd := rfl
@[simp] theorem State.nvmWrite_fetchLast (s : State) (a : Nat) (bs : List Byte) :
    (s.nvmWrite a bs).fetchLast = s.fetchLast := rfl
@[simp] theorem State.nvmWrite_bar4 (s : State) (a : Nat) (bs : List Byte) : (s.nvmWrite a bs).bar4 = s.bar4 := rfl
@[simp] theorem State.nvmWrite_c0Mark (s : State) (a : Nat) (bs : List Byte) : (s.nvmWrite a bs).c0Mark = s.c0Mark := rfl
@[simp] theorem State.nvmWrite_pcie (s : State) (a : Nat) (bs : List Byte) : (s.nvmWrite a bs).pcie = s.pcie := rfl
@[simp] theorem State.nvmWrite_dma (s : State) (a : Nat) (bs : List Byte) : (s.nvmWrite a bs).dma = s.dma := rfl
@[simp] theorem State.nvmWrite_faults (s : State) (a : Nat) (bs : List Byte) : (s.nvmWrite a bs).faults = s.faults := rfl
@[simp] theorem State.nvmWrite_power (s : State) (a : Nat) (bs : List Byte) : (s.nvmWrite a bs).power = s.power := rfl
@[simp] theorem State.nvmWrite_hk (s : State) (a : Nat) (bs : List Byte) : (s.nvmWrite a bs).hk = s.hk := rfl
@[simp] theorem State.nvmWrite_msp (s : State) (a : Nat) (bs : List Byte) : (s.nvmWrite a bs).msp = s.msp := rfl
@[simp] theorem State.nvmWrite_tap (s : State) (a : Nat) (bs : List Byte) : (s.nvmWrite a bs).tap = s.tap := rfl
@[simp] theorem State.nvmWrite_floors (s : State) (a : Nat) (bs : List Byte) : (s.nvmWrite a bs).floors = s.floors := rfl
@[simp] theorem State.nvmWrite_frames (s : State) (a : Nat) (bs : List Byte) : (s.nvmWrite a bs).frames = s.frames := rfl
@[simp] theorem State.nvmWrite_quires (s : State) (a : Nat) (bs : List Byte) : (s.nvmWrite a bs).quires = s.quires := rfl
@[simp] theorem State.nvmWrite_pending (s : State) (a : Nat) (bs : List Byte) : (s.nvmWrite a bs).pending = s.pending := rfl
@[simp] theorem State.nvmWrite_reg (s : State) (a : Nat) (bs : List Byte) (x : Nat) : (s.nvmWrite a bs).reg x = s.reg x := rfl
@[simp] theorem State.nvmWrite_get (s : State) (a : Nat) (bs : List Byte) (x : Fld) : (s.nvmWrite a bs).get x = s.get x := rfl
@[simp] theorem State.nvmWrite_flag (s : State) (a : Nat) (bs : List Byte) (x : Fld) :
    (s.nvmWrite a bs).flag x = s.flag x := rfl
@[simp] theorem State.nvmWrite_head (s : State) (a : Nat) (bs : List Byte) (x : Nat) :
    (s.nvmWrite a bs).head x = s.head x := rfl
@[simp] theorem State.nvmWrite_inRun (s : State) (a : Nat) (bs : List Byte) : (s.nvmWrite a bs).inRun = s.inRun := rfl
@[simp] theorem State.nvmWrite_access (s : State) (a : Nat) (bs : List Byte) (x : Nat) :
    (s.nvmWrite a bs).access x = s.access x := rfl

/-! ### State.dramWriteRaw -/

@[simp] theorem State.dramWriteRaw_mode (s : State) (a : Nat) (bs : List Byte) : (s.dramWriteRaw a bs).mode = s.mode := rfl
@[simp] theorem State.dramWriteRaw_regs (s : State) (a : Nat) (bs : List Byte) : (s.dramWriteRaw a bs).regs = s.regs := rfl
@[simp] theorem State.dramWriteRaw_dt (s : State) (a : Nat) (bs : List Byte) : (s.dramWriteRaw a bs).dt = s.dt := rfl
@[simp] theorem State.dramWriteRaw_dtFrac (s : State) (a : Nat) (bs : List Byte) :
    (s.dramWriteRaw a bs).dtFrac = s.dtFrac := rfl
@[simp] theorem State.dramWriteRaw_freeCnt (s : State) (a : Nat) (bs : List Byte) :
    (s.dramWriteRaw a bs).freeCnt = s.freeCnt := rfl
@[simp] theorem State.dramWriteRaw_nvm (s : State) (a : Nat) (bs : List Byte) : (s.dramWriteRaw a bs).nvm = s.nvm := rfl
@[simp] theorem State.dramWriteRaw_host (s : State) (a : Nat) (bs : List Byte) : (s.dramWriteRaw a bs).host = s.host := rfl
@[simp] theorem State.dramWriteRaw_inbox (s : State) (a : Nat) (bs : List Byte) : (s.dramWriteRaw a bs).inbox = s.inbox := rfl
@[simp] theorem State.dramWriteRaw_heads (s : State) (a : Nat) (bs : List Byte) : (s.dramWriteRaw a bs).heads = s.heads := rfl
@[simp] theorem State.dramWriteRaw_banks (s : State) (a : Nat) (bs : List Byte) : (s.dramWriteRaw a bs).banks = s.banks := rfl
@[simp] theorem State.dramWriteRaw_shutters (s : State) (a : Nat) (bs : List Byte) :
    (s.dramWriteRaw a bs).shutters = s.shutters := rfl
@[simp] theorem State.dramWriteRaw_ring (s : State) (a : Nat) (bs : List Byte) : (s.dramWriteRaw a bs).ring = s.ring := rfl
@[simp] theorem State.dramWriteRaw_nv (s : State) (a : Nat) (bs : List Byte) : (s.dramWriteRaw a bs).nv = s.nv := rfl
@[simp] theorem State.dramWriteRaw_cmdDone (s : State) (a : Nat) (bs : List Byte) :
    (s.dramWriteRaw a bs).cmdDone = s.cmdDone := rfl
@[simp] theorem State.dramWriteRaw_churnRun (s : State) (a : Nat) (bs : List Byte) :
    (s.dramWriteRaw a bs).churnRun = s.churnRun := rfl
@[simp] theorem State.dramWriteRaw_churnQueue (s : State) (a : Nat) (bs : List Byte) :
    (s.dramWriteRaw a bs).churnQueue = s.churnQueue := rfl
@[simp] theorem State.dramWriteRaw_scrubAt (s : State) (a : Nat) (bs : List Byte) :
    (s.dramWriteRaw a bs).scrubAt = s.scrubAt := rfl
@[simp] theorem State.dramWriteRaw_image (s : State) (a : Nat) (bs : List Byte) : (s.dramWriteRaw a bs).image = s.image := rfl
@[simp] theorem State.dramWriteRaw_nextBlock (s : State) (a : Nat) (bs : List Byte) :
    (s.dramWriteRaw a bs).nextBlock = s.nextBlock := rfl
@[simp] theorem State.dramWriteRaw_nextCell (s : State) (a : Nat) (bs : List Byte) :
    (s.dramWriteRaw a bs).nextCell = s.nextCell := rfl
@[simp] theorem State.dramWriteRaw_fifoPeak (s : State) (a : Nat) (bs : List Byte) :
    (s.dramWriteRaw a bs).fifoPeak = s.fifoPeak := rfl
@[simp] theorem State.dramWriteRaw_reroute (s : State) (a : Nat) (bs : List Byte) :
    (s.dramWriteRaw a bs).reroute = s.reroute := rfl
@[simp] theorem State.dramWriteRaw_digitalFail (s : State) (a : Nat) (bs : List Byte) :
    (s.dramWriteRaw a bs).digitalFail = s.digitalFail := rfl
@[simp] theorem State.dramWriteRaw_bankRetired (s : State) (a : Nat) (bs : List Byte) :
    (s.dramWriteRaw a bs).bankRetired = s.bankRetired := rfl
@[simp] theorem State.dramWriteRaw_uplinkDown (s : State) (a : Nat) (bs : List Byte) :
    (s.dramWriteRaw a bs).uplinkDown = s.uplinkDown := rfl
@[simp] theorem State.dramWriteRaw_chipDown (s : State) (a : Nat) (bs : List Byte) :
    (s.dramWriteRaw a bs).chipDown = s.chipDown := rfl
@[simp] theorem State.dramWriteRaw_flitFails (s : State) (a : Nat) (bs : List Byte) :
    (s.dramWriteRaw a bs).flitFails = s.flitFails := rfl
@[simp] theorem State.dramWriteRaw_lostChan (s : State) (a : Nat) (bs : List Byte) :
    (s.dramWriteRaw a bs).lostChan = s.lostChan := rfl
@[simp] theorem State.dramWriteRaw_mirCopies (s : State) (a : Nat) (bs : List Byte) :
    (s.dramWriteRaw a bs).mirCopies = s.mirCopies := rfl
@[simp] theorem State.dramWriteRaw_lastRead (s : State) (a : Nat) (bs : List Byte) :
    (s.dramWriteRaw a bs).lastRead = s.lastRead := rfl
@[simp] theorem State.dramWriteRaw_pairVer (s : State) (a : Nat) (bs : List Byte) :
    (s.dramWriteRaw a bs).pairVer = s.pairVer := rfl
@[simp] theorem State.dramWriteRaw_pairRead (s : State) (a : Nat) (bs : List Byte) :
    (s.dramWriteRaw a bs).pairRead = s.pairRead := rfl
@[simp] theorem State.dramWriteRaw_pairHold (s : State) (a : Nat) (bs : List Byte) :
    (s.dramWriteRaw a bs).pairHold = s.pairHold := rfl
@[simp] theorem State.dramWriteRaw_refStopped (s : State) (a : Nat) (bs : List Byte) :
    (s.dramWriteRaw a bs).refStopped = s.refStopped := rfl
@[simp] theorem State.dramWriteRaw_blocks (s : State) (a : Nat) (bs : List Byte) :
    (s.dramWriteRaw a bs).blocks = s.blocks := rfl
@[simp] theorem State.dramWriteRaw_mcLoad (s : State) (a : Nat) (bs : List Byte) :
    (s.dramWriteRaw a bs).mcLoad = s.mcLoad := rfl
@[simp] theorem State.dramWriteRaw_mcActive (s : State) (a : Nat) (bs : List Byte) :
    (s.dramWriteRaw a bs).mcActive = s.mcActive := rfl
@[simp] theorem State.dramWriteRaw_recipes (s : State) (a : Nat) (bs : List Byte) :
    (s.dramWriteRaw a bs).recipes = s.recipes := rfl
@[simp] theorem State.dramWriteRaw_recipeLoad (s : State) (a : Nat) (bs : List Byte) :
    (s.dramWriteRaw a bs).recipeLoad = s.recipeLoad := rfl
@[simp] theorem State.dramWriteRaw_planQ (s : State) (a : Nat) (bs : List Byte) : (s.dramWriteRaw a bs).planQ = s.planQ := rfl
@[simp] theorem State.dramWriteRaw_planRun (s : State) (a : Nat) (bs : List Byte) :
    (s.dramWriteRaw a bs).planRun = s.planRun := rfl
@[simp] theorem State.dramWriteRaw_pipes (s : State) (a : Nat) (bs : List Byte) : (s.dramWriteRaw a bs).pipes = s.pipes := rfl
@[simp] theorem State.dramWriteRaw_bufs (s : State) (a : Nat) (bs : List Byte) : (s.dramWriteRaw a bs).bufs = s.bufs := rfl
@[simp] theorem State.dramWriteRaw_csi (s : State) (a : Nat) (bs : List Byte) : (s.dramWriteRaw a bs).csi = s.csi := rfl
@[simp] theorem State.dramWriteRaw_alarms (s : State) (a : Nat) (bs : List Byte) :
    (s.dramWriteRaw a bs).alarms = s.alarms := rfl
@[simp] theorem State.dramWriteRaw_txns (s : State) (a : Nat) (bs : List Byte) : (s.dramWriteRaw a bs).txns = s.txns := rfl
@[simp] theorem State.dramWriteRaw_txnQ (s : State) (a : Nat) (bs : List Byte) : (s.dramWriteRaw a bs).txnQ = s.txnQ := rfl
@[simp] theorem State.dramWriteRaw_openRes (s : State) (a : Nat) (bs : List Byte) :
    (s.dramWriteRaw a bs).openRes = s.openRes := rfl
@[simp] theorem State.dramWriteRaw_monWin (s : State) (a : Nat) (bs : List Byte) :
    (s.dramWriteRaw a bs).monWin = s.monWin := rfl
@[simp] theorem State.dramWriteRaw_samples (s : State) (a : Nat) (bs : List Byte) :
    (s.dramWriteRaw a bs).samples = s.samples := rfl
@[simp] theorem State.dramWriteRaw_rings (s : State) (a : Nat) (bs : List Byte) : (s.dramWriteRaw a bs).rings = s.rings := rfl
@[simp] theorem State.dramWriteRaw_jobs (s : State) (a : Nat) (bs : List Byte) : (s.dramWriteRaw a bs).jobs = s.jobs := rfl
@[simp] theorem State.dramWriteRaw_ctxCmd (s : State) (a : Nat) (bs : List Byte) :
    (s.dramWriteRaw a bs).ctxCmd = s.ctxCmd := rfl
@[simp] theorem State.dramWriteRaw_fetchLast (s : State) (a : Nat) (bs : List Byte) :
    (s.dramWriteRaw a bs).fetchLast = s.fetchLast := rfl
@[simp] theorem State.dramWriteRaw_bar4 (s : State) (a : Nat) (bs : List Byte) : (s.dramWriteRaw a bs).bar4 = s.bar4 := rfl
@[simp] theorem State.dramWriteRaw_c0Mark (s : State) (a : Nat) (bs : List Byte) :
    (s.dramWriteRaw a bs).c0Mark = s.c0Mark := rfl
@[simp] theorem State.dramWriteRaw_pcie (s : State) (a : Nat) (bs : List Byte) : (s.dramWriteRaw a bs).pcie = s.pcie := rfl
@[simp] theorem State.dramWriteRaw_dma (s : State) (a : Nat) (bs : List Byte) : (s.dramWriteRaw a bs).dma = s.dma := rfl
@[simp] theorem State.dramWriteRaw_faults (s : State) (a : Nat) (bs : List Byte) :
    (s.dramWriteRaw a bs).faults = s.faults := rfl
@[simp] theorem State.dramWriteRaw_power (s : State) (a : Nat) (bs : List Byte) : (s.dramWriteRaw a bs).power = s.power := rfl
@[simp] theorem State.dramWriteRaw_hk (s : State) (a : Nat) (bs : List Byte) : (s.dramWriteRaw a bs).hk = s.hk := rfl
@[simp] theorem State.dramWriteRaw_msp (s : State) (a : Nat) (bs : List Byte) : (s.dramWriteRaw a bs).msp = s.msp := rfl
@[simp] theorem State.dramWriteRaw_tap (s : State) (a : Nat) (bs : List Byte) : (s.dramWriteRaw a bs).tap = s.tap := rfl
@[simp] theorem State.dramWriteRaw_floors (s : State) (a : Nat) (bs : List Byte) :
    (s.dramWriteRaw a bs).floors = s.floors := rfl
@[simp] theorem State.dramWriteRaw_frames (s : State) (a : Nat) (bs : List Byte) :
    (s.dramWriteRaw a bs).frames = s.frames := rfl
@[simp] theorem State.dramWriteRaw_quires (s : State) (a : Nat) (bs : List Byte) :
    (s.dramWriteRaw a bs).quires = s.quires := rfl
@[simp] theorem State.dramWriteRaw_pending (s : State) (a : Nat) (bs : List Byte) :
    (s.dramWriteRaw a bs).pending = s.pending := rfl
@[simp] theorem State.dramWriteRaw_reg (s : State) (a : Nat) (bs : List Byte) (x : Nat) :
    (s.dramWriteRaw a bs).reg x = s.reg x := rfl
@[simp] theorem State.dramWriteRaw_get (s : State) (a : Nat) (bs : List Byte) (x : Fld) :
    (s.dramWriteRaw a bs).get x = s.get x := rfl
@[simp] theorem State.dramWriteRaw_flag (s : State) (a : Nat) (bs : List Byte) (x : Fld) :
    (s.dramWriteRaw a bs).flag x = s.flag x := rfl
@[simp] theorem State.dramWriteRaw_head (s : State) (a : Nat) (bs : List Byte) (x : Nat) :
    (s.dramWriteRaw a bs).head x = s.head x := rfl
@[simp] theorem State.dramWriteRaw_inRun (s : State) (a : Nat) (bs : List Byte) : (s.dramWriteRaw a bs).inRun = s.inRun := rfl
@[simp] theorem State.dramWriteRaw_access (s : State) (a : Nat) (bs : List Byte) (x : Nat) :
    (s.dramWriteRaw a bs).access x = s.access x := rfl

@[simp] theorem State.at_dt (s : State) (t : Nat) : (s.at t).dt = max s.dt t := rfl
@[simp] theorem State.raise_inbox (s : State) (src : Nat) (cls : FaultClass) (d : Nat) :
    (s.raise src cls d).inbox = s.inbox ++
      [{ source := Fin.ofNat 64 src, cls := cls, detail := BitVec.ofNat 32 d }] := rfl

end Sys2Proof.Machine
end

