-- ==== Sys2Proof/WellFormed.lean ====
section
/-! DEFINITION. Which commands are well formed: the bounds their operands have beyond their types. A command that is not is no
command of the table; what the block does with one is of no concern. -/

namespace Sys2Proof

/-- A Spine link: an uplink, or the crossbar link of a chip unit (sources 28 to 54 but the Spine itself; R19, Table 15-1). -/
def wfLink : Link → Bool
  | .uplink _ _ => true
  | .chip src => 28 ≤ src.val && src.val < 55 && src.val ≠ 46

/-- A byte address of BAR0, 64 MiB (R446). -/
def wfAddr (a : Nat) : Bool := a < 0x4000000

/-- The operands of a command keep to the bounds of what they stand for. -/
def WellFormed : Instr → Bool
  | .spineFlitCrcFail l _ => wfLink l
  | .spineLinkFailed l => wfLink l
  | .c3FloorWindowEnd l _ => wfLink l
  | .collatorLinePlaced _ _ cycles _ => cycles.all fun c => c.length == 16
  | .quireSlotWrite _ _ => true
  | .quireDispatch _ _ => true
  | .quireFinished _ _ => true
  | .quireCommit _ _ => true
  | .residueMismatch _ _ _ => true
  | .quireTimeout _ _ _ => true
  | .sramSecdedError _ _ off _ => off % 8 == 0
  | .leafReadUe _ _ _ r _ => r.pixels.all fun p => p < 18 * 4096
  | .planEval _ => true
  | .planReplan _ => true
  | .planEvalStart => true
  | .planEvalDone => true
  | .planLimitWrite _ => true
  | .profileValidate _ => true
  | .profileValidationDone _ => true
  | .hpBiasWrite _ _ => true
  | .hpCtrlWrite _ _ => true
  | .hsupRampDone _ _ => true
  | .hsupShortDisconnect _ _ => true
  | .hsupReverseDisconnect _ _ => true
  | .hsupRetryStart _ _ => true
  | .hsupRetryCountReset _ _ => true
  | .hsupRetry _ => true
  | .resume _ => true
  | .dacOvercurrent _ => true
  | .shutClose _ => true
  | .shutOpen _ => true
  | .shutterDriveStart _ _ _ => true
  | .shutterPulseEnd _ _ => true
  | .shutterPositionInput _ _ _ _ => true
  | .shutterPosTimeout _ _ => true
  | .shutterCoilOpen _ => true
  | .shutterCoilShort _ => true
  | .hcpGo _ => true
  | .hcpAbort _ => true
  | .hcpTransferDone _ _ _ => true
  | .strobeShort _ _ => true
  | .gpSetWrite _ _ => true
  | .gpClrWrite _ _ => true
  | .vblankStart _ _ => true
  | .tapOpenTestDone _ moves => moves.length == 16
  | .tcCfgWrite _ _ => true
  | .tcGainWrite _ _ _ => true
  | .pgaFilterChange _ _ => true
  | .tcSclkWrite _ _ => true
  | .sclkLocked _ => true
  | .sclkLockLost _ => true
  | .sclkFallback _ => true
  | .tcRefcfgWrite _ _ => true
  | .refokSet _ _ => true
  | .refFallback _ => true
  | .selfcal _ => true
  | .bankCalStart _ _ => true
  | .calPassDone _ factors _ => factors.length == 32 && factors.all fun f => f.length == 12
  | .calEnd _ _ => true
  | .bgtrimMeasure _ words => words.length == 10
  | .frameStart _ _ => true
  | .frameStartPending _ _ => true
  | .lineStart _ _ => true
  | .ringMarkReceived _ _ _ => true
  | .markEffect _ _ _ => true
  | .ringTrigReceived _ _ _ => true
  | .trigPinEdge _ _ => true
  | .gpFrameEdge _ _ _ => true
  | .hfvRise _ _ => true
  | .hfvFall _ _ => true
  | .hlvRise _ _ => true
  | .inputStuck _ _ => true
  | .heldSlotDue _ _ => true
  | .pairLoRead _ addr _ => wfAddr addr && addr % 4 == 0
  | .pairHiRead _ addr _ => wfAddr addr && addr % 4 == 0
  | .pairLoWrite _ addr _ _ => wfAddr addr && addr % 4 == 0
  | .pairHiWrite _ addr _ _ => wfAddr addr && addr % 4 == 0
  | .ringRxLock => true
  | .ringUpstreamLoss => true
  | .ringTimePacket bytes _ => bytes.length == 13
  | .dtDisciplineTimeout _ => true
  | .ringMsgReceived bytes => 4 ≤ bytes.length && bytes.length ≤ 22
  | .msgSend => true
  | .msgInsert _ => true
  | .msgReturned bytes => 4 ≤ bytes.length && bytes.length ≤ 22
  | .msgLostTimeout _ => true
  | .msgPop => true
  | .ringEnable => true
  | .ringSelftestDone _ => true
  | .ringHoldRaise => true
  | .ringDisable _ => true
  | .ringTxOff _ => true
  | .trgClrcnt => true
  | .hpTstatClrcnt _ => true
  | .clHmirWrite _ _ => true
  | .msync _ _ => true
  | .mirrorCopyDone _ _ => true
  | .lswap _ => true
  | .rswap _ => true
  | .clClrcnt _ => true
  | .cxClrcnt _ => true
  | .shreq _ => true
  | .shutterScheduleDue _ _ => true
  | .shutterCancel _ => true
  | .refit _ => true
  | .breset _ => true
  | .quietWindowArm _ _ => true
  | .quietWindowEnd _ _ => true
  | .shutterEventStart _ _ => true
  | .shutterDeadline _ _ => true
  | .shutterApplyDone _ => true
  | .shutterEventTimeout _ => true
  | .refitStart _ => true
  | .refitComputeDone _ => true
  | .refitWritesDone _ => true
  | .fpSwap _ => true
  | .radiometricSetReadUe _ _ _ => true
  | .mcLoad _ => true
  | .microcodeBlockLoadDone _ => true
  | .mcInstall => true
  | .mcSetmin => true
  | .shadowThirdRunDone _ target shadow third => target.length == shadow.length && shadow.length == third.length
  | .spareRotation _ => true
  | .unretire _ _ => true
  | .unretireTestDone _ _ _ => true
  | .enClrcnt _ => true
  | .recipeLoad _ => true
  | .recipeLoadDone => true
  | .pipeQuireTake _ _ => true
  | .frameCompleteReport _ _ => true
  | .fpClrcnt _ => true
  | .txCfgWrite _ _ => true
  | .txClrcnt _ => true
  | .csiFrameStart _ => true
  | .csiPacketSend _ _ => true
  | .monitorSample _ _ _ => true
  | .monSnap _ _ => true
  | .monClr _ => true
  | .monPerWrite _ _ => true
  | .monitorPeriodEnd _ => true
  | .monCfgWrite _ _ _ => true
  | .stClrcnt => true
  | .txnOpen _ => true
  | .txnStage _ => true
  | .txnCommit _ _ => true
  | .txnRollback _ => true
  | .txnHeadWritesStart _ _ _ => true
  | .txnHeadWriteFail _ _ => true
  | .txnUndoDone _ _ => true
  | .txnDeadline _ _ => true
  | .ctxRead => true
  | .ctxWrite => true
  | .ctxCmdDone => true
  | .qFrangeWrite _ _ => true
  | .doorbell _ _ size _ => (size == 1 || size == 2 || size == 4 || size == 8)
  | .submissionFetch _ descs => descs.length ≤ 8 && descs.all fun d => d.length == 64
  | .cmdNop _ _ => true
  | .settingsOpen _ _ => true
  | .settingsStage _ _ => true
  | .settingsCommit _ _ => true
  | .settingsRollback _ _ => true
  | .shutterRequest _ _ => true
  | .cmdShutterCancel _ _ => true
  | .cmdShutterRefit _ _ => true
  | .tableSwap _ _ => true
  | .microcode _ _ => true
  | .dmaCopy _ _ => true
  | .reprocess _ _ => true
  | .reprocessJobStart => true
  | .reprocessFrameDone _ _ => true
  | .completionPost _ _ => true
  | .deliveryCopyDone _ _ => true
  | .waitingFrameDelivery _ _ => true
  | .eventRecordPost _ _ => true
  | .msixModerationTimeout _ _ => true
  | .c0Suspend _ _ => true
  | .c0Resume _ => true
  | .pcieLinkDown _ => true
  | .pcieLinkUp speed width _ => 1 ≤ speed.val && speed.val ≤ 5 && [1, 2, 4, 8, 16].contains width.val
  | .busMasterChange _ _ _ => true
  | .pcieError _ => true
  | .pcieHotReset => true
  | .vfFlr _ => true
  | .functionD3hot _ _ => true
  | .perstAssert => true
  | .bar4Write off bytes => off + bytes.length ≤ 2 ^ 32
  | .bar4Read off len _ => off + len ≤ 2 ^ 32
  | .dmaChTailWrite _ _ => true
  | .dmaChCfgWrite _ _ => true
  | .dmaChStop _ => true
  | .dmaChResume _ => true
  | .dmaChStart _ => true
  | .dmaDescFetch _ descs => descs.length ≤ 8 && descs.all fun d => d.length == 32
  | .dmaReadIssue _ => true
  | .dmaReadCompletion _ _ _ => true
  | .dmaPacingWindow _ => true
  | .dmaWriteback _ => true
  | .dmaHalt _ _ _ => true
  | .dmaSettled => true
  | .dmaRestart => true
  | .dmaAutoRestart => true
  | .dmaClrcnt => true
  | .faultReport unit _ => match unit with | some u => u.source.val < 56 | none => true
  | .depWindowEnd src _ => src.val < 56
  | .depRootSettled src _ => src.val < 56
  | .faultClear _ _ => true
  | .faultAck _ _ => true
  | .ceHoldExpire _ => true
  | .faultForce _ _ => true
  | .fcClrfirst => true
  | .fcClrcnt => true
  | .unitRestore _ _ => true
  | .restoreTestDone src _ => src.val < 56
  | .churnRequest _ _ _ => true
  | .churnQueuedStart _ _ _ => true
  | .churnQwaitExpire _ => true
  | .scrubPassStart _ _ => true
  | .scrubWordCheck _ _ _ _ => true
  | .mcClrcnt => true
  | .modeDormant => true
  | .modeSetup _ => true
  | .modeRun => true
  | .modeThrottle => true
  | .modeUnthrottle => true
  | .modeSafe _ => true
  | .setupTransitionDone => true
  | .dramTrainingDone _ _ mib => mib < 65536
  | .sysStreamWrite _ => true
  | .safeCauseClear _ => true
  | .resetEntry _ => true
  | .resetRelease => true
  | .dormantEntry _ => true
  | .refClockStop _ => true
  | .refClockReturn => true
  | .pllLocked => true
  | .railSag _ => true
  | .railFailure _ _ _ => true
  | .railGood _ => true
  | .powerfailAssert _ _ => true
  | .powerfailPersistDone => true
  | .aonCollapse => true
  | .hkRoundStart _ => true
  | .hkConversionDone _ _ => true
  | .hkRoundEnd _ => true
  | .hkCfgWrite _ _ => true
  | .hkInj _ => true
  | .thCfgWrite _ => true
  | .thMaskWrite _ => true
  | .nvWrite => true
  | .nvPageWriteDone _ => true
  | .nvWindowRead _ off _ => off < 32768
  | .nvInterlockClear _ => true
  | .slotPersist _ _ => true
  | .persistWindowEnd _ _ => true
  | .bootHourlyPersist _ => true
  | .nvRelocation page => page < 0x4000
  | .nvClrcnt => true
  | .mspStatus => true
  | .mspWrite _ _ => true
  | .mspRead _ _ => true
  | .mspWriteCrc _ _ => true
  | .mspReadCrc _ _ => true
  | .mspReadFetch => true
  | .mspBadFrame _ => true
  | .mspClrcnt => true
  | .drClrcnt => true
  | .registerWrite _ addr _ _ _ => wfAddr addr && addr % 4 == 0
  | .tapExtest => true
  | .tapIdcode => true
  | .tapSamplePreload _ => true
  | .tapHighz => true
  | .tapClamp => true
  | .tapExtestPulse => true
  | .tapExtestTrain => true
  | .tapBypass code => 7 ≤ code.toNat
  | .testModeExitReset => true
  | .tapReset => true
  | .timingInputDeassert _ _ => true
  | .ringCharError _ => true
  | .powerfailEnd => true

end Sys2Proof
end

