-- ==== Sys2Proof/Tests/Slice0.lean ====
section
/-! SUPPORT. Tests: ill-formed commands are refused by `WellFormed`; the hypotheses of every statement are met by a small
state and operands; single steps with values worked out by hand from the rules. -/

set_option maxRecDepth 10000
set_option Elab.async false

namespace Sys2Proof.Machine

/-- A block in a mode, with everything else as at reset. -/
def wIn (m : Mode) : State := { State.reset with mode := m }

/-- The block in SETUP. -/
def wSetup : State := wIn .setup

/-- The block in RUN. -/
def wRun : State := wIn .run


/-- A small profile: one tap, 32 × 32 pixels, a bistable shutter with a closed input. -/
def wProf : Profile :=
  { width := 32, height := 32, vbiasMin := 100, vbiasMax := 200, vskimMax := 50, shutType := 1, posClosed := true, shutPulse := 20,
    shutPostmo := 40 }

/-- SETUP with a port on: a profile, the port, the supply request and the shutter drive enabled. -/
def wSup (h : Nat) : State :=
  (((wSetup.put (F.HP_CTRL_PORT_EN h) 1).put (F.HP_CTRL_HSUP_EN h) 1).put (F.HP_CTRL_SHUT_EN h) 1).modHead h
    fun u => { u with profile := some wProf }

/-- SETUP with a drive of a head under way. -/
def wDrive (h : Nat) (close pulseDone : Bool) : State :=
  (wSup h).modHead h fun u =>
    { u with drive := some { close := close, start := 0, pulseEnd := 20000000, pulseDone := pulseDone, deadline := 40000000 } }

/-- RUN with a closed capture of a head-timed head, at a frame period. -/
def wBlank (h fper : Nat) : State :=
  (((wRun.put (F.HP_FPER_FPER h) fper |>.put (F.TC_SCLK_FREQ (h / 2)) 1000).setReg (R.HP_CTRL h) (withField (F.HP_CTRL_PORT_EN h) 1 (withField (F.HP_CTRL_OPENTEST_EN h) 1 0))).modHead h fun u =>
    { u with profile := some { wProf with headTimed := true }, cap := some { seq := 4, start := 0, closed := true } })

/-- The words of a valid profile image (checksum 0x9811CFF3). -/
def wWords : List Word :=
  [
    0x48465250, 0x1, 0x1, 0x200020, 0x0, 0x10004, 0x0, 0x320000, 0xC80000, 0x320000, 0x1, 0x0, 0x0, 0x0, 0x0,
    0x0, 0x10000, 0xFFFF, 0xFFFF, 0xFFFF, 0xFFFF, 0xFFFF, 0xFFFF, 0xFFFF, 0xFFFF, 0xFFFF, 0xFFFF, 0xFFFF,
    0xFFFF, 0xFFFF, 0xFFFF, 0xFFFF, 0x1, 0x0, 0x2, 0x0, 0x3, 0x0, 0x4, 0x0, 0x5, 0x0, 0x6, 0x0, 0x7, 0x0, 0x8,
    0x0, 0x9, 0x0, 0xA, 0x0, 0xB, 0x0, 0xC, 0x0, 0xD, 0x0, 0xE, 0x0, 0xF, 0x0, 0x10, 0x0, 0x11, 0x0, 0x12, 0x0,
    0x13, 0x0, 0x14, 0x0, 0x15, 0x0, 0x16, 0x0, 0x17, 0x0, 0x18, 0x0, 0x19, 0x0, 0x1A, 0x0, 0x1B, 0x0, 0x1C,
    0x0, 0x1D, 0x0, 0x1E, 0x0, 0x1F, 0x0, 0x20, 0x0, 0x0, 0x0, 0x0, 0x0, 0x0, 0x0, 0x0, 0x0, 0x100
  ] ++ List.replicate 918 0 ++ [0x9811CFF3]

/-- SETUP with that image in head 3's window and its validation begun. -/
def wImg : State :=
  { wSetup with regs := (R.HP_STAT 3, 256) :: (List.range 1024).map fun k => (R.HP_PROF 3 k, wWords.getD k 0) }

/-- A read of a run of consecutive words. -/
theorem alGet_of_run {α : Type} (d : Nat → α) (f : Nat → α) (b k : Nat) (l : List Nat) (h : k ∈ l) :
    alGet d (l.map fun i => (b + 4 * i, f i)) (b + 4 * k) = f k := by
  induction l with
  | nil => simp at h
  | cons x l ih =>
    simp only [List.map_cons, alGet]
    split
    · have : k = x := by omega
      rw [this]
    · exact ih (by rcases List.mem_cons.1 h with rfl | h' <;> [omega; exact h'])

/-- The image that validation reads. -/
theorem wImg_words : wImg.profImage 3 = wWords.flatMap fun w => leBytes 4 w.toNat := by
  have n : wWords.length = 1024 := by simp [wWords]
  have h : (List.range 1024).map (fun k => wWords.getD k 0) = wWords := by
    refine List.ext_getElem (by simp [n]) fun i hi _ => ?_
    simp only [List.length_map, List.length_range] at hi
    simp [List.getElem?_eq_getElem (n ▸ hi : i < wWords.length)]
  rw [← h, List.flatMap_map]
  unfold State.profImage
  refine List.flatMap_congr fun k hk => ?_
  have := alGet_of_run resetWord (fun k => wWords.getD k 0) (R.HP_PROF 3 0) k (List.range 1024) hk
  have e : wImg.reg (R.HP_PROF 3 k) = wWords.getD k 0 := by
    unfold State.reg wImg
    rw [alGet, if_neg (by simp only [R.HP_PROF, R.HP_STAT]; omega)]
    simpa [R.HP_PROF] using this
  rw [e]

theorem wImg_valid : wImg.flag (F.HP_STAT_PVBUSY 3) = true ∧ profileStatus (wImg.profImage 3) = 1 :=
  ⟨by decide +kernel, by rw [wImg_words]; decide +kernel⟩

/-- RUN with a streaming head whose profile has a horizontal blanking and whose blind-column trim is on. -/
def wTrim (h hblank : Nat) : State :=
  ((wRun.put (F.TC_CFG_BGTRIM_EN h) 1).put (F.HP_STAT_STREAM h) 1).modHead h fun u =>
    { u with profile := some { wProf with hblank := hblank } }

/-- `wTrim` with the trim of the head's first converter granted. -/
def wTrimM1 (h hblank : Nat) : State := { wTrim h hblank with churnRun := [{ act := .m1, res := 16 * h }] }

/-- RUN with a transaction of handle 2 whose entry for TC_CFG of head 3 switches at the next frame start. -/
def wPga : State :=
  let s := (wRun.put (F.TXN_HSTAT_STATE 2) 2).modHead 3 fun u => { u with blankFrom := some 0, starts := 4 }
  { s with txnQ := [2],
           txns := s.txns.set 2 { entries := [{ undo := false, head := 3, addr := R.TC_CFG 3, val := 0 }],
                                  heads := [{ head := 3, k := some 5, done := true }] } }

/-- RUN with a head commanded to stream at 10 MHz and a frame period of 50,000 cycles, its port on and its profile loaded. -/
def wGo (h : Nat) : State :=
  ((((wRun.put (F.HP_FPER_FPER h) 50000).put (F.TC_SCLK_FREQ (h / 2)) 1000).put (F.HP_CTRL_PORT_EN h) 1).put
    F.SYS_STREAM_HEADS (2 ^ h)).modHead h fun u => { u with profile := some wProf }

/-- SETUP with a CSI-2 port whose one stream exceeds a load limit of 0. -/
def wOver : State :=
  let s := (((wGo 3).put (F.TX_CFG_EN 2) 1).put (F.TX_S_EN 2 1) 1).put (F.TX_S_HEAD 2 1) 3
  { ((s.put (F.FP_HOUT_DISP 3) 1).put (F.TX_RATE_RATE 2) 1000).put F.SYS_PLAN_LIMIT_LIMIT 0 with mode := .setup }

/-- `wGo` with a head-timed profile. -/
def wTimed (h : Nat) : State := (wGo h).modHead h fun u => { u with profile := some { wProf with headTimed := true } }

/-- The ring locked to its upstream. -/
def wRing : State := ((wSetup.put F.TRG_CTRL_EN 1).put F.TRG_STAT_RXLOCK 1)

/-- A profile of one pixel. -/
def wOne : Profile := { wProf with width := 1, height := 1 }

/-- RUN with a head of one pixel that streams, its frame of wQuire's kind under way, and its shutter calibration enabled. -/
def wShut (h : Nat) (e : Shutter) (phase : Nat) : State :=
  ((((((wGo h).put (F.HP_STAT_STREAM h) 1).put (F.CX_SCFG_EN h) 1).put (F.CX_SSTAT_PHASE h) phase).modHead h fun u =>
    { u with profile := some wOne, lastStart := some 50 })).modShut h fun _ => e

/-- A frame of head 3 with its own row placed. -/
def wFrame3 : Frame := { head := 3, seq := 1, dt := 0, gen := 0, snap := [], profile := wOne, captured := true }

/-- A frame of head 3 whose temperatures are still to be made. -/
def wRadFrame : Frame := { wFrame3 with seq := 2, snap := [(R.FP_RCFG 3, 1)] }

/-- `wShut` for head 3 with two valid planes of one pixel in its history ring. -/
def wPlanes (phase : Nat) : State :=
  let s := ((((wShut 3 { refitPhase := phase } 0).put (F.CX_DFCFG_DEPTH 3) 2).put (F.CX_DHIST_BASE 3) 16).put (F.CX_DFCFG_ORDER 3) 0).put
    (F.CX_DFCFG_MINSPAN 3) 0
  (s.dramWriteRaw 65536 (planeHeader 1 1 1 100 50 1)).dramWriteRaw (65536 + 4096) (planeHeader 1 1 1 300 90 2)

/-- `wPlanes` with both planes' pixel unused. -/
def wPlanesBad (phase : Nat) : State :=
  ((wPlanes phase).dramWriteRaw (65536 + 64) (leBytes 4 accInvalid)).dramWriteRaw (65536 + 4096 + 64) (leBytes 4 accInvalid)

/-- `wPlanes` with a bad pixel, which no refit fits. -/
def wPlanesNone (phase : Nat) : State := (wPlanes phase).dramWriteRaw 74 [0xC0]

/-- The plan of a refit of head 3. -/
def wPlan (s : State) : RefitPlan :=
  match s.refitPlan 3 with
  | some g => g
  | none => { planes := [], newest := { base := 0, tfpa := 0, tai := 0 }, order := 0, fitK := false, m := 0 }

/-- The tables of head 3 placed on pages of their own. -/
def wPages (s : State) : State :=
  ((((s.put (F.CL_HLA_BASE 3) 1).put (F.CL_HLB_BASE 3) 2).put (F.CL_HRA_BASE 3) 3).put (F.CL_HRB_BASE 3) 4).put (F.CX_SWORK_BASE 3) 5

/-- The header of a leaf copy of one pixel. -/
def wLeafHeader : List Byte :=
  let hdr := leBytes 4 0x4641454C ++ leBytes 2 1 ++ leBytes 2 0 ++ leBytes 2 1 ++ leBytes 2 1 ++ List.replicate 48 0
  hdr ++ leBytes 4 (crc32 hdr)

/-- `wShut` for head 3 with its tables placed and a good header in leaf copy B. -/
def wPlaced (e : Shutter) (phase : Nat) : State := (wPages (wShut 3 e phase)).dramWriteRaw 8192 wLeafHeader

/-- SETUP with placed tables of one pixel and a good header in leaf copy B of head 3. -/
def wSwap (h : Nat) : State :=
  (wPages (wSetup.modHead h fun u => { u with profile := some wOne })).dramWriteRaw 8192 wLeafHeader

/-- SETUP with a well-formed microcode image header of security version 5 at page 3. -/
def wMc : State :=
  let h := leBytes 4 0x48434942 ++ leBytes 2 1 ++ leBytes 2 0 ++ leBytes 4 7 ++ leBytes 4 5 ++ leBytes 4 1024 ++ List.replicate 40 0
  (wSetup.put F.EN_MCBASE_BASE 3).dramWriteRaw 12288 (h ++ leBytes 4 (crc32 h))

/-- A Quire of head 3 that ran on cell 1 of block 2, was shadowed by cell 6 and now runs a third time on cell 3. -/
def wShadowed : Quire :=
  { head := 3, seq := 5, region := 0, qidx := 0, row0 := 0, nlines := 1, first := true, last := true, third := true,
    shadow := some 6, ranOn := some (2, 1), slot := some (2, 0), stage := .running 2 3 0, started := some 2 }

/-- RUN with `wShadowed`. -/
def wThird : State :=
  { ((wRun.setCell 2 6 cellShadow).modBlock 2 fun u => { u with target := some 1, agree := 9 }) with quires := [wShadowed] }

/-- A frame of head 3 of 32 × 32 pixels, all committed, none taken. -/
def wPicture : Frame := { head := 3, seq := 1, dt := 0, gen := 0, snap := [], profile := wProf, captured := true, begun := true,
                          committed := 2, complete := true }

/-- `wPicture` with one Quire left to take. -/
def wLastTake : Frame := { wPicture with taken := 1 }

/-- A CSI port on with one frame waiting in stream 1. -/
def wCsi (x : CsiStream) : State :=
  (wRun.put (F.TX_CFG_EN 2) 1).modPort 2 fun p => { p with streams := p.streams.set 1 x }

/-- RUN with transaction 2 listed for a streaming head 3. -/
def wTxn (st : Nat) (x : Txn) : State :=
  let s := ((wGo 3).put (F.HP_STAT_STREAM 3) 1).put (F.TXN_HSTAT_STATE 2) st
  { s with txnQ := [2], txns := s.txns.set 2 x }

/-- Rings of the PF: 32 of them, every opcode permitted, the link up and bus mastering set. -/
def wRings (l : List (Nat × RingUnit)) (s : State) : State :=
  { ((s.put (F.Q_FRANGE_COUNT 0) 2).put (F.Q_FPERM_OPS 0) 0x7F).put F.Q_STAT_LINKUP 1 with rings := l, pcie := { bme := [0] } }

/-- A descriptor of 64 bytes with some of them given, its OWN bit set. -/
def wDesc (l : List (Nat × Byte)) : List Byte :=
  (List.range 64).map fun i => if i = 63 then 0x80 else alGet (fun _ => 0) l i

/-- A waiting ring command of those bytes. -/
def wCmd (l : List (Nat × Byte)) : RingCmd := { tag := 7, bytes := wDesc l, cidx := 2 }

/-- An active ring 5 of the PF with that command. -/
def wSub (s : State) (c : RingCmd) : State := wRings [(5, { ctx := { en := true, logN := 4, cls := 1, state := 1 }, cmds := [c] })] s

/-- An active ring of a kind. -/
def wCtx (kind : Nat) : RingCtx := { en := true, kind := kind, logN := 4, cls := 1, state := 1 }

/-- Channel 2 enabled with a ring of 16, the host reached, and its state. -/
def wChan (ch : DmaChan) (s : State) : State :=
  (((wRings [] s).put (F.DMA_CH_CFG_LOG2N 2) 4).put (F.DMA_CH_CFG_EN 2) 1).modChan 2 fun _ => ch

/-- A run of 100 bytes from host 0x1000 to host 0x2000. -/
def wRunDma : DmaRun :=
  { desc := { bytes := [0, 0x10, 0, 0, 0, 0, 0, 0, 0, 0x20, 0, 0, 0, 0, 0, 0, 100, 0, 0, 0] ++ List.replicate 12 0, addr := 0x8000 },
    src := { dev := false, addr := 0x1000, left := 100 }, dst := { dev := false, addr := 0x2000, left := 100 },
    seg := some { src := 0x1000, dst := 0x2000, len := 100 } }

/-- The `n` bits of a number, most significant first. -/
def wBits (n v : Nat) : List Bool := (List.range n).map fun i => v.testBit (n - 1 - i)

/-! ### Ill-formed commands: one that each check of `WellFormed` refuses -/

theorem test_illFormed_link : WellFormed (.spineLinkFailed (.chip 46)) = false := by decide +kernel
theorem test_wellFormed_link : WellFormed (.spineLinkFailed (.chip 44)) = true := by decide +kernel
theorem test_illFormed_linkRetry : WellFormed (.spineFlitCrcFail (.chip 5) true) = false := by decide +kernel
theorem test_illFormed_floorWindow : WellFormed (.c3FloorWindowEnd (.chip 55) 0) = false := by decide +kernel
theorem test_illFormed_cycles : WellFormed (.collatorLinePlaced 0 0 [[1, 2]] 5) = false := by decide +kernel
theorem test_illFormed_sramOffset : WellFormed (.sramSecdedError 0 0 4 true) = false := by decide +kernel
theorem test_illFormed_leafPixels : WellFormed (.leafReadUe 0 0 0 ⟨true, [73728]⟩ false) = false := by decide +kernel
theorem test_illFormed_openTest : WellFormed (.tapOpenTestDone 0 [1]) = false := by decide +kernel
theorem test_illFormed_factors : WellFormed (.calPassDone 0 [[1]] 0) = false := by decide +kernel
theorem test_illFormed_trimWords : WellFormed (.bgtrimMeasure 0 [1]) = false := by decide +kernel
theorem test_illFormed_pairLo : WellFormed (.pairLoRead .msp 0x146 15) = false := by decide +kernel
theorem test_illFormed_pairHi : WellFormed (.pairHiRead .msp 0x141 15) = false := by decide +kernel
theorem test_illFormed_pairWriteLo : WellFormed (.pairLoWrite .msp 0x4000000 15 0) = false := by decide +kernel
theorem test_illFormed_pairWriteHi : WellFormed (.pairHiWrite .msp 0x142 15 0) = false := by decide +kernel
theorem test_illFormed_timePacket : WellFormed (.ringTimePacket [1] 0) = false := by decide +kernel
theorem test_illFormed_message : WellFormed (.ringMsgReceived [1, 2, 3]) = false := by decide +kernel
theorem test_illFormed_returned : WellFormed (.msgReturned (List.replicate 23 0)) = false := by decide +kernel
theorem test_illFormed_shadow : WellFormed (.shadowThirdRunDone 0 [1] [1, 2] [1]) = false := by decide +kernel
theorem test_illFormed_doorbell : WellFormed (.doorbell 0 0 3 0) = false := by decide +kernel
theorem test_illFormed_descriptors : WellFormed (.submissionFetch 0 [[1]]) = false := by decide +kernel
theorem test_illFormed_link_width : WellFormed (.pcieLinkUp 3 3 0) = false := by decide +kernel
theorem test_illFormed_bar4Write : WellFormed (.bar4Write 0xFFFFFFFF [some 1, some 2]) = false := by decide +kernel
theorem test_illFormed_bar4Read : WellFormed (.bar4Read 0xFFFFFFFF 2 none) = false := by decide +kernel
theorem test_illFormed_dmaDescriptors : WellFormed (.dmaDescFetch 0 [[1]]) = false := by decide +kernel
theorem test_illFormed_report : WellFormed (.faultReport (some { source := 60, cls := .ce, detail := 0 }) 0) = false := by decide +kernel
theorem test_illFormed_depWindow : WellFormed (.depWindowEnd 56 0) = false := by decide +kernel
theorem test_illFormed_depRoot : WellFormed (.depRootSettled 56 0) = false := by decide +kernel
theorem test_illFormed_restore : WellFormed (.restoreTestDone 63 true) = false := by decide +kernel
theorem test_illFormed_density : WellFormed (.dramTrainingDone 0 true 65536) = false := by decide +kernel
theorem test_illFormed_window : WellFormed (.nvWindowRead .msp 32768 .ok) = false := by decide +kernel
theorem test_illFormed_page : WellFormed (.nvRelocation 0x4000) = false := by decide +kernel
theorem test_illFormed_register : WellFormed (.registerWrite .pcie 0x201 15 0 0) = false := by decide +kernel
theorem test_illFormed_bypass : WellFormed (.tapBypass 6) = false := by decide +kernel

/-! ### Single steps with values worked out by hand -/

/-- No row gives bits, so no word spells a command (spec/opcode_table.json). -/
theorem test_noWordSpellsACommand : decodeTableWord 8 5 = none := rfl

/-- R115: a REF cycle without steering is 10 ns. -/
theorem test_idleTickIsTenNs : step wSetup = .next { wSetup with dt := 10 } := rfl

/-- Table 16-11: a mode command in a mode that does not take it answers 2 (THROTTLE in SETUP). -/
theorem test_throttleInSetupIsWrongMode :
    (modeThrottle wSetup).get F.SYS_MODESTAT_CMDRES = 2 ∧ (modeThrottle wSetup).mode = .setup := by decide +kernel

/-- R427: WARN above THR is refused with VALUE_REJ (0x5 hysteresis, SHUT 110, THR 90, WARN 95). -/
theorem test_warnAboveThrIsRefused : (thCfgWrite 0x506E5A5F wSetup).get F.TH_STAT_VALUE_REJ = 1 := by decide +kernel

/-- R459: the CRC-8 of polynomial 0x07 from 0 over one byte 0x01 is 0x07. -/
theorem test_crc8OfOne : crcMsb 8 0x07 0 [1] = 7 := by decide +kernel
theorem test_spineRetriesCountAndFail_1_hypotheses :
    ∃ (l : Link) (s : State),
      s.up = true ∧
      s.linkDown l = false ∧
      s.flitCount l < 15 :=
  ⟨.uplink 1 0, wSetup, by decide +kernel⟩

theorem test_spineRetriesCountAndFail_2_hypotheses :
    ∃ (l : Link) (s : State),
      s.up = true ∧
      s.linkDown l = false ∧
      s.flitCount l = 15 :=
  ⟨.chip 44, { wSetup with flitFails := [(.chip 44, 15)] }, by decide +kernel⟩

theorem test_spineRetriesCountAndFail_3_hypotheses :
    ∃ (l : Link) (s : State),
      s.up = true ∧
      s.flitCount l = 16 :=
  ⟨.uplink 3 1, { wSetup with flitFails := [(.uplink 3 1, 16)] }, by decide +kernel⟩

theorem test_spineRetriesCountAndFail_4_hypotheses :
    ∃ (r : Region) (i : Fin 2) (s : State),
      s.up = true ∧
      s.flitCount (.uplink r i) = 16 ∧
      s.linkDown (.uplink r (1 - i)) = true :=
  ⟨3, 1, { wSetup with flitFails := [(.uplink 3 1, 16)], uplinkDown := [6] }, by decide +kernel⟩

theorem test_spineRetriesCountAndFail_5_hypotheses :
    ∃ (l : Link) (t : Nat) (s : State),
      s.up = true ∧
      (s.floor l).start + 1000 ≤ t :=
  ⟨.uplink 0 0, 1000, wSetup, by decide +kernel⟩

theorem test_plannerCommandsPublish_1_hypotheses :
    ∃ (v : Word) (s : State),
      s.access R.SYS_PLAN_CMD = true ∧
      fieldOf F.SYS_PLAN_CMD_REPLAN v = 0 :=
  ⟨0, wSetup, by decide +kernel⟩

theorem test_plannerCommandsPublish_2_hypotheses :
    ∃ (v : Word) (s : State),
      s.access R.SYS_PLAN_CMD = true ∧
      fieldOf F.SYS_PLAN_CMD_REPLAN v = 1 :=
  ⟨3, wSetup, by decide +kernel⟩

theorem test_plannerCommandsPublish_3_hypotheses :
    ∃ (s : State),
      s.access R.SYS_PLAN_CMD = true :=
  ⟨{ wSetup with planRun := some { kind := .auto, asked := 7 } }, by decide +kernel⟩

theorem test_plannerCommandsPublish_4_hypotheses :
    ∃ (v : Word) (r : PlanReq) (s : State),
      s.access R.SYS_PLAN_CMD = true ∧
      fieldOf F.SYS_PLAN_CMD_REPLAN v = 0 ∧
      s.planRun = some r ∧
      s.planQ = [] ∧
      r.asked = s.dt ∧
      (r.kind = .stream ∨ r.kind = .auto) :=
  ⟨0, { kind := .auto }, { wSetup with planRun := some { kind := .auto } }, by decide +kernel⟩

theorem test_plannerCommandsPublish_5_hypotheses :
    ∃ (q : PlanReq) (rest : List PlanReq) (s : State),
      s.planRun = none ∧
      s.planQ = q :: rest :=
  ⟨{ kind := .auto }, [], { wSetup with planQ := [{ kind := .auto }] }, by decide +kernel⟩

theorem test_plannerCommandsPublish_6_hypotheses :
    ∃ (q : PlanReq) (s : State),
      s.planRun = some q ∧
      q.kind = .eval :=
  ⟨{ kind := .eval }, { wSetup with planRun := some { kind := .eval } }, by decide +kernel⟩

theorem test_plannerCommandsPublish_7_hypotheses :
    ∃ (s : State),
      s.access R.SYS_PLAN_LIMIT = true :=
  ⟨wSetup, by decide +kernel⟩

theorem test_counterClearsClearTheirCounters_1_hypotheses :
    ∃ (s : State),
      s.access R.TRG_CTRL = true :=
  ⟨(wSetup.setReg R.TRG_ERRCNT 9).setReg (R.TRG_TRIGCNT 3) 7, by decide +kernel⟩

theorem test_counterClearsClearTheirCounters_2_hypotheses :
    ∃ (h : Head) (s : State),
      s.access (R.HP_TSTAT h) = true :=
  ⟨7, wSetup.setReg (R.HP_TCNT1 7) 9, by decide +kernel⟩

theorem test_counterClearsClearTheirCounters_3_hypotheses :
    ∃ (r : Region) (s : State),
      s.access (R.CL_CTRL r) = true :=
  ⟨3, (wSetup.setReg (R.CL_STAT 3) 0xFFFFFFFF).setReg (R.CL_HCNT 7) 3, by decide +kernel⟩

theorem test_counterClearsClearTheirCounters_4_hypotheses :
    ∃ (r : Region) (s : State),
      s.access (R.CX_CTRL r) = true :=
  ⟨3, wSetup.setReg (R.CX_STAT 3) 0xFFFFFFFF, by decide +kernel⟩

theorem test_counterClearsClearTheirCounters_5_hypotheses :
    ∃ (b : Block) (s : State),
      s.access (R.EN_BCMD b) = true :=
  ⟨11, wSetup.setReg (R.EN_SHSTAT 11) 0xFFFFFFFF, by decide +kernel⟩

theorem test_counterClearsClearTheirCounters_6_hypotheses :
    ∃ (r : Region) (s : State),
      s.access (R.FP_CTRL r) = true :=
  ⟨2, wSetup.setReg (R.FP_STAT 2) 0xFFFFFFFF, by decide +kernel⟩

theorem test_counterClearsClearTheirCounters_7_hypotheses :
    ∃ (s : State),
      s.access R.ST_CTRL = true :=
  ⟨wSetup.setReg (R.ST_HCNT 5) 3, by decide +kernel⟩

theorem test_counterClearsClearTheirCounters_8_hypotheses :
    ∃ (s : State),
      s.access R.DMA_CMD = true :=
  ⟨wSetup.setReg (R.DMA_CH_DONE 63) 3, by decide +kernel⟩

theorem test_counterClearsClearTheirCounters_9_hypotheses :
    ∃ (s : State),
      s.access R.FC_CTRL = true :=
  ⟨wSetup.setReg (R.FC_SRC 63) 0xFFFFFFFF, by decide +kernel⟩

theorem test_counterClearsClearTheirCounters_10_hypotheses :
    ∃ (s : State),
      s.access R.FC_CTRL = true :=
  ⟨wSetup.setReg R.FC_FIRST 0xFFFFFFFF, by decide +kernel⟩

theorem test_counterClearsClearTheirCounters_11_hypotheses :
    ∃ (s : State),
      s.access R.MC_CTRL = true :=
  ⟨wSetup.setReg R.MC_CNT 3, by decide +kernel⟩

theorem test_counterClearsClearTheirCounters_12_hypotheses :
    ∃ (s : State),
      s.access R.NV_CTRL = true :=
  ⟨wSetup.setReg R.NV_CNT 0xFFFFFFFF, by decide +kernel⟩

theorem test_counterClearsClearTheirCounters_13_hypotheses :
    ∃ (s : State),
      s.access R.SYS_MSPCTRL = true :=
  ⟨wSetup.setReg R.SYS_MSPCNT 5, by decide +kernel⟩

theorem test_counterClearsClearTheirCounters_14_hypotheses :
    ∃ (s : State),
      s.access R.DR_CTRL = true :=
  ⟨wSetup.setReg (R.DR_ECC 15) 5, by decide +kernel⟩

/-- A Quire of head 0 on region 0 with its frame. -/
def wQuire : Quire := { head := 0, seq := 5, region := 0, qidx := 1, row0 := 16, nlines := 16, first := false, last := false }

/-- The frame of `wQuire`. -/
def wFrame : Frame := { head := 0, seq := 5, dt := 0, gen := 0, snap := [], profile := wRun.prof 0, committed := 1 }

/-- RUN with one Quire of `wFrame`. -/
def wRan (q : Quire) : State := { wRun with quires := [q], frames := [wFrame] }

/-- RUN with one Quire, cell 0 of block 0 the shadow's target and cell 6 the shadow. -/
def wDual (q : Quire) : State :=
  { ((wRun.setCell 0 6 cellShadow).modBlock 0 fun u => { u with target := some 0 }) with quires := [q] }

theorem test_quiresMoveThroughTheEngines_1_hypotheses :
    ∃ (r : Region) (s : State) (q : Quire) (b : Nat) (n : Nat),
      (s.quires.find? fun q => q.region == r.val && q.slot.isNone) = some q ∧
      s.nextSlotOf r = some (b, n) ∧
      s.nextBlock.length = 4 :=
  ⟨0, { wRun with quires := [wQuire] }, wQuire, 0, 0, by decide +kernel⟩

theorem test_quiresMoveThroughTheEngines_2_hypotheses :
    ∃ (r : Region) (s : State) (q : Quire) (b0 : Nat) (n : Nat) (b : Nat) (c : Nat),
      s.nextReady r = some q ∧
      q.slot = some (b0, n) ∧
      s.idleEngine b0 = some (b, c) ∧
      (s.block b).target ≠ some c :=
  ⟨0, { wRun with quires := [{ wQuire with stage := .ready, slot := some (0, 0) }] }, { wQuire with stage := .ready, slot := some (0, 0) }, 0, 0, 0, 0, by decide +kernel⟩

theorem test_quiresMoveThroughTheEngines_3_hypotheses :
    ∃ (r : Region) (s : State) (q : Quire) (b0 : Nat) (n : Nat) (b : Nat) (c : Nat) (x : Nat) (l : List Nat),
      s.nextReady r = some q ∧
      q.slot = some (b0, n) ∧
      s.idleEngine b0 = some (b, c) ∧
      (s.block b).target = some c ∧
      q.third = false ∧
      s.churnRuns .m6 b = false ∧
      s.cellsIn b cellShadow = x :: l :=
  ⟨0, wDual { wQuire with stage := .ready, slot := some (0, 0) }, { wQuire with stage := .ready, slot := some (0, 0) }, 0, 0, 0, 0, 6, [], by decide +kernel⟩

theorem test_quiresMoveThroughTheEngines_4_hypotheses :
    ∃ (b : Block) (c : Cell) (s : State) (q : Quire) (f : Frame),
      s.quireOn b c = some q ∧
      s.frame q.head q.seq = some f ∧
      q.third = false ∧
      q.runsOn b c = true ∧
      q.shadow = none :=
  ⟨0, 2, wRan { wQuire with stage := .running 0 2 0 }, { wQuire with stage := .running 0 2 0 }, wFrame, by decide +kernel⟩

theorem test_quiresMoveThroughTheEngines_5_hypotheses :
    ∃ (b : Block) (c : Cell) (s : State) (q : Quire) (f : Frame) (x : Nat),
      s.quireOn b c = some q ∧
      s.frame q.head q.seq = some f ∧
      q.third = false ∧
      q.runsOn b c = true ∧
      q.shadow = some x ∧
      q.shadowsOn b c = false ∧
      q.shadowDone = false :=
  ⟨0, 2, wRan { wQuire with stage := .running 0 2 0, shadow := some 6 }, { wQuire with stage := .running 0 2 0, shadow := some 6 }, wFrame, 6, by decide +kernel⟩

theorem test_quiresMoveThroughTheEngines_6_hypotheses :
    ∃ (b : Block) (c : Cell) (s : State) (q : Quire) (f : Frame),
      s.quireOn b c = some q ∧
      s.frame q.head q.seq = some f ∧
      q.third = false ∧
      q.shadow = some c.val ∧
      q.shadowsOn b c = true ∧
      q.mainDone = true :=
  ⟨0, 6, wRan { wQuire with stage := .running 0 2 0, shadow := some 6, mainDone := true }, { wQuire with stage := .running 0 2 0, shadow := some 6, mainDone := true }, wFrame, by decide +kernel⟩

theorem test_quiresMoveThroughTheEngines_7_hypotheses :
    ∃ (b : Block) (c : Cell) (s : State) (q : Quire) (f : Frame),
      s.quireOn b c = some q ∧
      s.frame q.head q.seq = some f ∧
      q.third = false ∧
      q.shadow = some c.val ∧
      q.shadowsOn b c = true ∧
      q.mainDone = true :=
  ⟨0, 6, wRan { wQuire with stage := .running 0 2 0, shadow := some 6, mainDone := true }, { wQuire with stage := .running 0 2 0, shadow := some 6, mainDone := true }, wFrame, by decide +kernel⟩

theorem test_quiresMoveThroughTheEngines_8_hypotheses :
    ∃ (h : Head) (s : State) (f : Frame) (q : Quire),
      s.nextCommit h = some (f, q) ∧
      s.frame h f.seq = some f ∧
      q.last = false :=
  ⟨0, wRan { wQuire with stage := .finished }, wFrame, { wQuire with stage := .finished }, by decide +kernel⟩

theorem test_quiresMoveThroughTheEngines_9_hypotheses :
    ∃ (h : Head) (s : State) (f : Frame) (q : Quire),
      s.nextCommit h = some (f, q) ∧
      s.frame h f.seq = some f ∧
      q.last = true :=
  ⟨0, wRan { wQuire with stage := .finished, last := true }, wFrame, { wQuire with stage := .finished, last := true }, by decide +kernel⟩

theorem test_engineFaultsAreCounted_1_hypotheses :
    ∃ (b : Block) (c : Cell) (s : State),
      s.cellBusy b c = true :=
  ⟨0, 2, { wRun with quires := [{ wQuire with stage := .running 0 2 0 }] }, by decide +kernel⟩

theorem test_engineFaultsAreCounted_2_hypotheses :
    ∃ (b : Block) (c : Cell) (s : State),
      s.cellBusy b c = true :=
  ⟨0, 2, { wRun with quires := [{ wQuire with stage := .running 0 2 0 }] }, by decide +kernel⟩

theorem test_engineFaultsAreCounted_3_hypotheses :
    ∃ (b : Block) (c : Cell) (t : Nat) (s : State) (q : Quire) (n : Nat),
      (s.quires.find? fun q => q.runsOn b c) = some q ∧
      q.stage = .running b c n ∧
      s.get (F.CX_CTRL_QTMO q.region) ≠ 0 ∧
      n + 1000 * s.get (F.CX_CTRL_QTMO q.region) ≤ t :=
  ⟨0, 2, 65535000, { wRun.put (F.CX_CTRL_QTMO 0) 20 with quires := [{ wQuire with stage := .running 0 2 0 }] }, { wQuire with stage := .running 0 2 0 }, 0, by decide +kernel⟩

theorem test_engineFaultsAreCounted_4_hypotheses :
    ∃ (b : Block) (slot : Fin 8) (s : State) (q : Quire),
      (s.quires.find? fun q => q.slot == some (b.val, slot.val)) = some q :=
  ⟨0, 3, { wRun with quires := [{ wQuire with slot := some (0, 3) }] }, { wQuire with slot := some (0, 3) }, by decide +kernel⟩

theorem test_engineFaultsAreCounted_5_hypotheses :
    ∃ (b : Block) (slot : Fin 8) (off : Nat) (s : State) (q : Quire),
      (s.quires.find? fun q => q.slot == some (b.val, slot.val)) = some q ∧
      off < 0x40 :=
  ⟨0, 3, 0x20, { wRun with quires := [{ wQuire with slot := some (0, 3) }] }, { wQuire with slot := some (0, 3) }, by decide +kernel⟩

theorem test_engineFaultsAreCounted_6_hypotheses :
    ∃ (b : Block) (slot : Fin 8) (off : Nat) (s : State) (q : Quire),
      (s.quires.find? fun q => q.slot == some (b.val, slot.val)) = some q ∧
      0x40 ≤ off :=
  ⟨0, 3, 0x40F8, { wRun with quires := [{ wQuire with slot := some (0, 3) }] }, { wQuire with slot := some (0, 3) }, by decide +kernel⟩

theorem test_engineFaultsAreCounted_7_hypotheses :
    ∃ (b : Block) (c : Cell) (ch : Channel) (res : Bool) (s : State) (q : Quire) (f : Frame),
      s.quireOn b c = some q ∧
      s.frame q.head q.seq = some f ∧
      s.lostChan.contains ch.val = false ∧
      s.mirrored q.head (if res then (if f.resSel then 3 else 2) else if f.leafSel then 1 else 0) = true ∧
      bit (s.get (F.CL_HSTAT_MIRSYNC q.head)) (if res then (if f.resSel then 3 else 2) else if f.leafSel then 1 else 0) = true :=
  ⟨0, 2, 7, false, { ((wRun.put (F.CL_HSTAT_MIRSYNC 0) 1).put (F.CL_HMIR_EN 0) 1) with quires := [{ wQuire with stage := .running 0 2 0 }], frames := [wFrame] }, { wQuire with stage := .running 0 2 0 }, wFrame, by decide +kernel⟩

theorem test_engineFaultsAreCounted_8_hypotheses :
    ∃ (b : Block) (c : Cell) (ch : Channel) (res : Bool) (fails : Bool) (s : State) (q : Quire) (f : Frame),
      s.quireOn b c = some q ∧
      s.frame q.head q.seq = some f ∧
      s.lostChan.contains ch.val = false ∧
      (fails = true ∨ s.mirrored q.head (if res then (if f.resSel then 3 else 2) else if f.leafSel then 1 else 0) = false) :=
  ⟨0, 2, 7, true, false, { wRun with quires := [{ wQuire with stage := .running 0 2 0 }], frames := [wFrame] }, { wQuire with stage := .running 0 2 0 }, wFrame, by decide +kernel⟩

theorem test_engineFaultsAreCounted_9_hypotheses :
    ∃ (ch : Channel) (s : State),
      s.lostChan.contains ch.val = true :=
  ⟨7, { wRun with lostChan := [7] }, by decide +kernel⟩

theorem test_headProfileAndSupplyCommands_3_hypotheses :
    ∃ (h : Head) (s : State), s.flag (F.HP_STAT_PVBUSY h) = true ∧ profileStatus (s.profImage h) ≠ 1 :=
  ⟨3, wSetup.put (F.HP_STAT_PVBUSY 3) 1, by decide, by
    intro e
    have m : (leAt (State.profImage (wSetup.put (F.HP_STAT_PVBUSY 3) 1) ((3 : Head) : Nat)) 0 4 != 0x48465250 ||
        leAt (State.profImage (wSetup.put (F.HP_STAT_PVBUSY 3) 1) ((3 : Head) : Nat)) 4 2 != 1) = true := by decide +kernel
    unfold profileStatus at e
    split at e
    · exact absurd e (by decide)
    · rename_i n
      exact absurd m (by simp_all)⟩

theorem test_headProfileAndSupplyCommands_1_hypotheses :
    ∃ (h : Head) (s : State),
      s.access (R.HP_CMD h) = true ∧
      s.flag (F.HP_STAT_PVBUSY h) = false ∧
      s.streams h = false :=
  ⟨3, wSetup, by decide +kernel⟩

theorem test_headProfileAndSupplyCommands_2_hypotheses :
    ∃ (h : Head) (s : State),
      s.access (R.HP_CMD h) = true ∧
      s.flag (F.HP_STAT_PVBUSY h) = false ∧
      s.streams h = true :=
  ⟨3, wRun.put (F.HP_STAT_STREAM 3) 1, by decide +kernel⟩

theorem test_headProfileAndSupplyCommands_4_hypotheses :
    ∃ (h : Head) (s : State),
      s.flag (F.HP_STAT_PVBUSY h) = true ∧
      profileStatus (s.profImage h) = 1 :=
  ⟨3, wImg, by exact wImg_valid⟩

theorem test_headProfileAndSupplyCommands_5_hypotheses :
    ∃ (h : Head) (t : Nat) (s : State),
      s.get (F.HP_STAT_HSUP h) = 1 ∧
      (s.head h).rampEnd ≤ t :=
  ⟨3, 2000000, wSetup.put (F.HP_STAT_HSUP 3) 1, by decide +kernel⟩

theorem test_headProfileAndSupplyCommands_6_hypotheses :
    ∃ (h : Head) (s : State),
      (s.get (F.HP_STAT_HSUP h) = 1 ∨ s.get (F.HP_STAT_HSUP h) = 2) ∧
      s.get (F.HP_STAT_RETRIES h) ≠ 3 :=
  ⟨3, wSetup.put (F.HP_STAT_HSUP 3) 2, by decide +kernel⟩

theorem test_headProfileAndSupplyCommands_7_hypotheses :
    ∃ (h : Head) (s : State),
      (s.get (F.HP_STAT_HSUP h) = 1 ∨ s.get (F.HP_STAT_HSUP h) = 2) ∧
      s.get (F.HP_STAT_RETRIES h) = 3 :=
  ⟨3, (wSetup.put (F.HP_STAT_HSUP 3) 2).put (F.HP_STAT_RETRIES 3) 3, by decide +kernel⟩

theorem test_headProfileAndSupplyCommands_8_hypotheses :
    ∃ (h : Head) (s : State),
      (s.get (F.HP_STAT_HSUP h) = 1 ∨ s.get (F.HP_STAT_HSUP h) = 2) :=
  ⟨3, wSetup.put (F.HP_STAT_HSUP 3) 2, by decide +kernel⟩

theorem test_headProfileAndSupplyCommands_9_hypotheses :
    ∃ (h : Head) (t : Nat) (d : Nat) (s : State),
      (s.head h).retryAt = some d ∧
      d ≤ t ∧
      s.hsupWanted h = true ∧
      s.get (F.HP_STAT_RETRIES h) < 3 :=
  ⟨7, 500, 400, (wSup 7).modHead 7 fun u => { u with retryAt := some 400 }, by decide +kernel⟩

theorem test_headProfileAndSupplyCommands_10_hypotheses :
    ∃ (h : Head) (t : Nat) (s : State),
      s.get (F.HP_STAT_HSUP h) = 2 ∧
      (s.head h).onSince + 10000000000 ≤ t :=
  ⟨7, 20000000000, wSetup.put (F.HP_STAT_HSUP 7) 2, by decide +kernel⟩

theorem test_headProfileAndSupplyCommands_11_hypotheses :
    ∃ (h : Head) (s : State),
      s.access (R.HP_CMD h) = true ∧
      (s.get (F.HP_STAT_HSUP h) = 3 ∨ (s.head h).supStopped = true) ∧
      s.hsupWanted h = true :=
  ⟨7, (wSup 7).put (F.HP_STAT_HSUP 7) 3, by decide +kernel⟩

theorem test_headProfileAndSupplyCommands_12_hypotheses :
    ∃ (h : Head) (s : State),
      s.access (R.HP_CMD h) = true :=
  ⟨7, (wSup 7).put (F.HP_STAT_HSUP 7) 2, by decide +kernel⟩

theorem test_headProfileAndSupplyCommands_13_hypotheses :
    ∃ (h : Head) (s : State),
      s.dacDriven h = true :=
  ⟨7, ((wSup 7).put (F.HP_STAT_HSUP 7) 2).put (F.HP_CTRL_BIAS_EN 7) 1, by decide +kernel⟩

theorem test_headBiasAndControlWrites_1_hypotheses :
    ∃ (h : Head) (s : State),
      s.access (R.HP_BIAS h) = true ∧
      s.inRun = true :=
  ⟨3, wRun, by decide +kernel⟩

theorem test_headBiasAndControlWrites_2_hypotheses :
    ∃ (h : Head) (s : State) (p : Profile),
      s.access (R.HP_BIAS h) = true ∧
      s.inRun = false ∧
      (s.head h).profile = some p ∧
      p.vbiasMin ≤ p.vbiasMax ∧
      p.vskimMin ≤ p.vskimMax ∧
      p.vbiasMax < 65536 ∧
      p.vskimMax < 65536 :=
  ⟨3, wSup 3, wProf, by decide +kernel⟩

theorem test_headBiasAndControlWrites_3_hypotheses :
    ∃ (h : Head) (s : State),
      s.access (R.HP_BIAS h) = true ∧
      s.inRun = false ∧
      (s.head h).profile = none :=
  ⟨3, wSetup, by decide +kernel⟩

theorem test_headBiasAndControlWrites_4_hypotheses :
    ∃ (h : Head) (v : Word) (s : State),
      s.access (R.HP_CTRL h) = true ∧
      fieldOf (F.HP_CTRL_PORT_EN h) v = 0 ∧
      s.get (F.HP_STAT_HSUP h) ≠ 3 :=
  ⟨3, 2, (wSup 3).put (F.HP_STAT_HSUP 3) 2, by decide +kernel⟩

theorem test_headBiasAndControlWrites_5_hypotheses :
    ∃ (h : Head) (v : Word) (s : State),
      s.access (R.HP_CTRL h) = true ∧
      fieldOf (F.HP_CTRL_PORT_EN h) v = 1 :=
  ⟨3, 3, wDrive 3 true false, by decide +kernel⟩

theorem test_shutterCommandsAndInputs_1_hypotheses :
    ∃ (h : Head) (s : State),
      s.access (R.HP_CMD h) = true ∧
      s.inRun = true :=
  ⟨3, wRun, by decide +kernel⟩

theorem test_shutterCommandsAndInputs_2_hypotheses :
    ∃ (h : Head) (s : State),
      s.access (R.HP_CMD h) = true ∧
      s.mode = .setup ∧
      s.isRetired (20 + h) = false :=
  ⟨3, wSup 3, by decide +kernel⟩

theorem test_shutterCommandsAndInputs_3_hypotheses :
    ∃ (h : Head) (s : State),
      s.access (R.HP_CMD h) = true ∧
      s.mode = .setup ∧
      s.isRetired (20 + h) = false :=
  ⟨3, wSup 3, by decide +kernel⟩

theorem test_shutterCommandsAndInputs_4_hypotheses :
    ∃ (h : Head) (s : State),
      s.inRun = false ∧
      (s.mode ≠ .setup ∨ s.isRetired (20 + h) = true) :=
  ⟨3, wIn .dormant, by decide +kernel⟩

theorem test_shutterCommandsAndInputs_5_hypotheses :
    ∃ (h : Head) (vshut : Nat) (close : Bool) (s : State),
      (s.head h).driveWait = some close ∧
      (s.head h).drive = none ∧
      (s.mode == .setup || s.inRun || s.mode == .safe) = true ∧
      s.canDrive h = true ∧
      (s.prof h).vshutMin ≤ vshut ∧
      (close = true ∨ (s.prof h).shutType ≠ 2) :=
  ⟨3, 5000, false, (wSup 3).modHead 3 fun u => { u with driveWait := some false }, by decide +kernel⟩

theorem test_shutterCommandsAndInputs_6_hypotheses :
    ∃ (h : Head) (s : State),
      (s.head h).driveWait = some false ∧
      (s.head h).drive = none ∧
      (s.mode == .setup || s.inRun || s.mode == .safe) = true ∧
      (s.prof h).shutType = 2 :=
  ⟨3, (wSup 3).modHead 3 fun u => { u with driveWait := some false, bridge := .hold, profile := some { wProf with shutType := 2, posClosed := false } }, by decide +kernel⟩

theorem test_shutterCommandsAndInputs_7_hypotheses :
    ∃ (h : Head) (vshut : Nat) (s : State),
      (s.head h).driveWait = some true ∧
      (s.head h).drive = none ∧
      (s.mode == .setup || s.inRun || s.mode == .safe) = true ∧
      s.canDrive h = true ∧
      vshut < (s.prof h).vshutMin ∧
      (s.head h).supOffAfterClose = false :=
  ⟨3, 4000, (wSup 3).modHead 3 fun u => { u with driveWait := some true, profile := some { wProf with vshutMin := 5000 } }, by decide +kernel⟩

theorem test_shutterCommandsAndInputs_8_hypotheses :
    ∃ (h : Head) (t : Nat) (d : Drive) (s : State),
      (s.head h).drive = some d ∧
      d.pulseDone = false ∧
      d.pulseEnd ≤ t ∧
      (s.prof h).posClosed = false ∧
      (s.prof h).posOpen = false ∧
      (s.head h).supOffAfterClose = false :=
  ⟨3, 20000000, { close := true, start := 0, pulseEnd := 20000000, deadline := 40000000 }, (wDrive 3 true false).modHead 3 fun u => { u with profile := some { wProf with shutType := 2, posClosed := false } }, by decide +kernel⟩

theorem test_shutterCommandsAndInputs_9_hypotheses :
    ∃ (h : Head) (t : Nat) (d : Drive) (s : State),
      (s.head h).drive = some d ∧
      d.pulseDone = false ∧
      d.pulseEnd ≤ t ∧
      ((s.prof h).posClosed || (s.prof h).posOpen) = true ∧
      s.get (F.HP_STAT_SHPOS h) ≠ (if d.close then 1 else 2) :=
  ⟨3, 20000000, { close := false, start := 0, pulseEnd := 20000000, deadline := 40000000 }, wDrive 3 false false, by decide +kernel⟩

theorem test_shutterCommandsAndInputs_10_hypotheses :
    ∃ (h : Head) (p0 : Bool) (p1 : Bool) (s : State),
      s.up = true ∧
      s.hasProf h = true ∧
      shutInputs (s.prof h) p0 p1 = 3 :=
  ⟨3, true, true, (wSup 3).modHead 3 fun u => { u with profile := some { wProf with posOpen := true } }, by decide +kernel⟩

theorem test_shutterCommandsAndInputs_11_hypotheses :
    ∃ (h : Head) (p0 : Bool) (p1 : Bool) (s : State),
      s.up = true ∧
      s.hasProf h = true ∧
      (s.head h).drive = none ∧
      shutInputs (s.prof h) p0 p1 = 2 :=
  ⟨3, false, true, (wSup 3).modHead 3 fun u => { u with profile := some { wProf with posOpen := true } }, by decide +kernel⟩

theorem test_shutterCommandsAndInputs_12_hypotheses :
    ∃ (h : Head) (p0 : Bool) (p1 : Bool) (s : State),
      s.up = true ∧
      s.hasProf h = true ∧
      (s.head h).supOffAfterClose = false ∧
      shutInputs (s.prof h) p0 p1 = 1 :=
  ⟨3, true, false, (wDrive 3 true true).put (F.CX_SSTAT_PHASE 3) 2, by decide +kernel⟩

theorem test_shutterCommandsAndInputs_13_hypotheses :
    ∃ (h : Head) (p0 : Bool) (p1 : Bool) (s : State),
      s.up = true ∧
      s.hasProf h = true ∧
      (s.head h).drive.isSome = true ∧
      shutInputs (s.prof h) p0 p1 = 0 :=
  ⟨3, false, false, wDrive 3 true true, by decide +kernel⟩

theorem test_shutterCommandsAndInputs_14_hypotheses :
    ∃ (h : Head) (t : Nat) (d : Drive) (s : State),
      (s.head h).drive = some d ∧
      d.pulseDone = true ∧
      d.deadline ≤ t ∧
      s.shutRunning h = false ∧
      (s.head h).supOffAfterClose = false :=
  ⟨3, 40000000, { close := false, start := 0, pulseEnd := 20000000, pulseDone := true, deadline := 40000000 }, wDrive 3 false true, by decide +kernel⟩

theorem test_shutterCommandsAndInputs_15_hypotheses :
    ∃ (h : Head) (t : Nat) (d : Drive) (s : State),
      (s.head h).drive = some d ∧
      d.pulseDone = true ∧
      d.deadline ≤ t ∧
      s.shutRunning h = true ∧
      d.close = true :=
  ⟨3, 40000000, { close := true, start := 0, pulseEnd := 20000000, pulseDone := true, deadline := 40000000 }, ((wDrive 3 true true).put (F.CX_SSTAT_PHASE 3) 2).modShut 3 fun e => { e with active := true }, by decide +kernel⟩

theorem test_shutterCommandsAndInputs_16_hypotheses :
    ∃ (h : Head) (s : State),
      ((s.head h).drive.isSome || (s.head h).bridge == .hold) = true ∧
      s.shutRunning h = false ∧
      (s.head h).supOffAfterClose = false :=
  ⟨3, (wSup 3).modHead 3 fun u => { u with bridge := .hold }, by decide +kernel⟩

theorem test_shutterCommandsAndInputs_17_hypotheses :
    ∃ (h : Head) (s : State),
      ((s.head h).drive.isSome || (s.head h).bridge == .hold) = true ∧
      s.shutRunning h = false ∧
      (s.head h).supOffAfterClose = false :=
  ⟨3, wDrive 3 true false, by decide +kernel⟩

theorem test_headControlPortAndPins_1_hypotheses :
    ∃ (h : Head) (s : State),
      s.access (R.HCP_CMD h) = true ∧
      (s.head h).hcp = none ∧
      s.flag (F.HCP_STAT_OWNER h) = false ∧
      s.hcpReady h = true ∧
      s.get (F.HCP_LEN_LEN h) ≠ 0 ∧
      ((s.prof h).hcpChains = 0 ∨ s.get (F.HCP_LEN_LEN h) ∈ (s.prof h).chainLen) :=
  ⟨3, (wSup 3).put (F.HCP_LEN_LEN 3) 9, by decide +kernel⟩

theorem test_headControlPortAndPins_2_hypotheses :
    ∃ (h : Head) (s : State),
      s.access (R.HCP_CMD h) = true ∧
      (s.head h).hcp = none ∧
      s.flag (F.HCP_STAT_OWNER h) = false ∧
      s.hcpReady h = false :=
  ⟨3, wSetup, by decide +kernel⟩

theorem test_headControlPortAndPins_3_hypotheses :
    ∃ (h : Head) (s : State),
      s.access (R.HCP_CMD h) = true ∧
      (s.head h).hcp = none ∧
      s.flag (F.HCP_STAT_OWNER h) = false ∧
      s.hcpReady h = true ∧
      s.get (F.HCP_LEN_LEN h) = 0 :=
  ⟨3, wSup 3, by decide +kernel⟩

theorem test_headControlPortAndPins_4_hypotheses :
    ∃ (h : Head) (s : State),
      s.access (R.HCP_CMD h) = true ∧
      (s.head h).hcp = none ∧
      s.flag (F.HCP_STAT_OWNER h) = false ∧
      s.hcpReady h = true ∧
      s.get (F.HCP_LEN_LEN h) ≠ 0 ∧
      (s.prof h).hcpChains ≠ 0 ∧
      s.get (F.HCP_LEN_LEN h) ∉ (s.prof h).chainLen :=
  ⟨3, ((wSup 3).put (F.HCP_LEN_LEN 3) 9).modHead 3 fun u => { u with profile := some { wProf with hcpChains := 1, chainLen := [8] } }, by decide +kernel⟩

theorem test_headControlPortAndPins_5_hypotheses :
    ∃ (h : Head) (s : State),
      s.access (R.HCP_CMD h) = true ∧
      ((s.head h).hcp.isSome || s.flag (F.HCP_STAT_OWNER h)) = true :=
  ⟨3, (wSup 3).modHead 3 fun u => { u with hcp := some { len := 40, tx := [], owned := false } }, by decide +kernel⟩

theorem test_headControlPortAndPins_6_hypotheses :
    ∃ (h : Head) (x : HcpXfer) (s : State),
      s.access (R.HCP_CMD h) = true ∧
      (s.head h).hcp = some x ∧
      (s.head h).hcpOwner = 0 ∧
      s.txnNext h = none :=
  ⟨3, { len := 40, tx := [], owned := false }, (wSup 3).modHead 3 fun u => { u with hcp := some { len := 40, tx := [], owned := false } }, by decide +kernel⟩

theorem test_headControlPortAndPins_7_hypotheses :
    ∃ (h : Head) (rx : List Bool) (x : HcpXfer) (s : State),
      (s.head h).hcp = some x ∧
      rx.length = x.len ∧
      x.len < 65536 ∧
      x.owned = false ∧
      (s.head h).hcpOwner = 0 ∧
      s.txnNext h = none :=
  ⟨3, List.replicate 40 true, { len := 40, tx := [], owned := false }, (wSup 3).modHead 3 fun u => { u with hcp := some { len := 40, tx := [], owned := false } }, by decide +kernel⟩

theorem test_headControlPortAndPins_8_hypotheses :
    ∃ (h : Head) (rx : List Bool) (x : HcpXfer) (s : State),
      (s.head h).hcp = some x ∧
      rx.length < x.len ∧
      x.len < 65536 ∧
      (s.head h).hcpOwner = 0 ∧
      s.txnNext h = none :=
  ⟨3, List.replicate 33 true, { len := 40, tx := [], owned := false }, (wSup 3).modHead 3 fun u => { u with hcp := some { len := 40, tx := [], owned := false } }, by decide +kernel⟩

theorem test_headControlPortAndPins_9_hypotheses :
    ∃ (i : Fin 2) (s : State),
      s.access (R.GP_SET i) = true :=
  ⟨1, wSetup.setReg (R.GP_OUT 1) 0x31, by decide +kernel⟩

theorem test_headControlPortAndPins_10_hypotheses :
    ∃ (i : Fin 2) (s : State),
      s.access (R.GP_CLR i) = true :=
  ⟨1, wSetup.setReg (R.GP_OUT 1) 0x31, by decide +kernel⟩

theorem test_blankingTestsFlagTaps_1_hypotheses :
    ∃ (h : Head) (c : Cap) (s : State),
      (s.head h).cap = some c ∧
      c.lines ≤ c.placed ∧
      (if (s.prof h).headTimed = true then c.closed else decide ((s.prof h).l ≤ c.lines)) = true ∧
      (s.head h).blankFrom = none :=
  ⟨3, { seq := 4, start := 0, lines := 32, placed := 32 }, (wGo 3).modHead 3 fun u => { u with cap := some { seq := 4, start := 0, lines := 32, placed := 32 } }, by decide +kernel⟩

theorem test_blankingTestsFlagTaps_2_hypotheses :
    ∃ (h : Head) (c : Cap) (s : State),
      (s.head h).cap = some c ∧
      c.lines ≤ c.placed ∧
      (if (s.prof h).headTimed = true then c.closed else decide ((s.prof h).l ≤ c.lines)) = true ∧
      (s.head h).blankFrom = none ∧
      s.flag (F.HP_CTRL_SHORTTEST_EN h) = false ∧
      s.flag (F.CL_HCFG_POLDET_EN h) = false ∧
      s.flag (F.HP_CTRL_OPENTEST_EN h) = true ∧
      s.flag (F.HP_CTRL_PORT_EN h) = true ∧
      s.inRun = true ∧
      s.txnsOn h = [] ∧
      s.blankNs h < 40000 :=
  ⟨3, { seq := 4, start := 0, closed := true }, wBlank 3 0, by decide +kernel⟩

theorem test_blankingTestsFlagTaps_3_hypotheses :
    ∃ (h : Head) (c : Cap) (s : State),
      (s.head h).cap = some c ∧
      c.lines ≤ c.placed ∧
      (if (s.prof h).headTimed = true then c.closed else decide ((s.prof h).l ≤ c.lines)) = true ∧
      (s.head h).blankFrom = none ∧
      s.flag (F.HP_CTRL_SHORTTEST_EN h) = false ∧
      s.flag (F.CL_HCFG_POLDET_EN h) = false ∧
      s.flag (F.HP_CTRL_OPENTEST_EN h) = true ∧
      s.flag (F.HP_CTRL_PORT_EN h) = true ∧
      s.inRun = true ∧
      s.txnsOn h = [] ∧
      40000 ≤ s.blankNs h :=
  ⟨3, { seq := 4, start := 0, closed := true }, wBlank 3 20000, by decide +kernel⟩

theorem test_blankingTestsFlagTaps_4_hypotheses :
    ∃ (h : Head) (s : State),
      (s.head h).openTest = true ∧
      (s.prof h).taps ≤ 16 ∧
      (s.head h).openPass.length = 16 :=
  ⟨3, ((wSup 3).put (F.HP_TAPFLT_OPEN 3) 2).modHead 3 fun u => { u with openTest := true, profile := some { wProf with taps := 2 } }, by decide +kernel⟩

theorem test_blankingTestsFlagTaps_5_hypotheses :
    ∃ (h : Head) (m : Nat) (s : State),
      (s.head h).openTest = true ∧
      (s.prof h).taps = 1 ∧
      s.get (F.HP_TAPFLT_OPEN h) = 0 ∧
      160 < m :=
  ⟨3, 161, (wSup 3).modHead 3 fun u => { u with openTest := true }, by decide +kernel⟩

theorem test_blankingTestsFlagTaps_6_hypotheses :
    ∃ (h : Head) (m : Nat) (s : State),
      (s.head h).openTest = true ∧
      (s.prof h).taps = 1 ∧
      s.get (F.HP_TAPFLT_OPEN h) = 1 ∧
      m ≤ 160 ∧
      tapAt (s.head h).openPass 0 = 1 :=
  ⟨3, 160, ((wSup 3).put (F.HP_TAPFLT_OPEN 3) 1).modHead 3 fun u => { u with openTest := true, openPass := 1 :: List.replicate 15 0 }, by decide +kernel⟩

theorem test_converterAndClockWrites_1_hypotheses :
    ∃ (h : Head) (s : State),
      s.access (R.TC_CFG h) = true ∧
      s.mode ≠ .setup :=
  ⟨3, wRun, by decide +kernel⟩

theorem test_converterAndClockWrites_2_hypotheses :
    ∃ (h : Head) (v : Word) (s : State),
      s.access (R.TC_CFG h) = true ∧
      s.mode = .setup ∧
      s.gainsOk h (s.get (F.TC_GAIN0_G h)) (s.get (F.TC_GAIN1_G h)) (v.toNat / 4 % 4) = true :=
  ⟨3, 4, wSetup, by decide +kernel⟩

theorem test_converterAndClockWrites_3_hypotheses :
    ∃ (h : Head) (v : Word) (s : State),
      s.access (R.TC_CFG h) = true ∧
      s.mode = .setup ∧
      s.gainsOk h (s.get (F.TC_GAIN0_G h)) (s.get (F.TC_GAIN1_G h)) (v.toNat / 4 % 4) = false :=
  ⟨3, 8, (wSetup.put (F.TC_GAIN0_G 3) 5).modHead 3 fun u => { u with profile := some { wProf with dual := true, taps := 1 } }, by decide +kernel⟩

theorem test_converterAndClockWrites_4_hypotheses :
    ∃ (h : Head) (s : State),
      s.access (R.TC_GAIN0 h) = true ∧
      s.mode ≠ .setup :=
  ⟨3, wRun, by decide +kernel⟩

theorem test_converterAndClockWrites_5_hypotheses :
    ∃ (h : Head) (i : Fin 2) (v : Word) (s : State),
      s.access (R.TC_GAIN0 h) = true ∧
      s.mode = .setup ∧
      s.gainsOk h (if i = 0 then v.toNat else s.get (F.TC_GAIN0_G h)) (if i = 0 then s.get (F.TC_GAIN1_G h) else v.toNat) (s.get (F.TC_CFG_RATIO h)) = true :=
  ⟨3, 1, 0, wSetup, by decide +kernel⟩

theorem test_converterAndClockWrites_6_hypotheses :
    ∃ (h : Head) (i : Fin 2) (v : Word) (s : State),
      s.access (R.TC_GAIN0 h) = true ∧
      s.mode = .setup ∧
      s.gainsOk h (if i = 0 then v.toNat else s.get (F.TC_GAIN0_G h)) (if i = 0 then s.get (F.TC_GAIN1_G h) else v.toNat) (s.get (F.TC_CFG_RATIO h)) = false :=
  ⟨3, 0, 7, wSetup, by decide +kernel⟩

theorem test_converterAndClockWrites_7_hypotheses :
    ∃ (h : Head) (n : Nat) (s : State),
      s.pgaTxn h = some n ∧
      (((s.txn n).device h).filter fun e => e.addr == R.TC_CFG h || e.addr == R.TC_GAIN0 h || e.addr == R.TC_GAIN1 h) ≠ [] ∧
      ((s.txn n).heads.all fun x => x.done) = true ∧
      (s.head h).blankFrom.isSome = true ∧
      (s.head h).pgaDone = false :=
  ⟨3, 2, wPga, by decide +kernel⟩

theorem test_converterAndClockWrites_8_hypotheses :
    ∃ (r : Region) (v : Word) (s : State),
      s.access (R.TC_SCLK r) = true ∧
      s.mode = .setup ∧
      (v.toNat % 16384 = 0 ∨ 1000 ≤ v.toNat % 16384 ∧ v.toNat % 16384 ≤ 10000) :=
  ⟨3, 0x11388, wSetup, by decide +kernel⟩

theorem test_converterAndClockWrites_9_hypotheses :
    ∃ (r : Region) (v : Word) (s : State),
      s.access (R.TC_SCLK r) = true ∧
      s.mode = .setup ∧
      v.toNat % 16384 ≠ 0 ∧
      (v.toNat % 16384 < 1000 ∨ 10000 < v.toNat % 16384) :=
  ⟨3, 999, wSetup, by decide +kernel⟩

theorem test_converterAndClockWrites_10_hypotheses :
    ∃ (r : Region) (s : State),
      s.access (R.TC_SCLK r) = true ∧
      s.mode ≠ .setup :=
  ⟨3, wRun, by decide +kernel⟩

theorem test_converterAndClockWrites_11_hypotheses :
    ∃ (r : Region) (v : Word) (s : State),
      s.access (R.TC_REFCFG r) = true ∧
      s.mode = .setup ∧
      s.bankFlag r F.TC_STAT_CALBUSY = false ∧
      v.toNat % 4 = 3 :=
  ⟨3, 3, wSetup, by decide +kernel⟩

theorem test_converterAndClockWrites_12_hypotheses :
    ∃ (r : Region) (v : Word) (s : State),
      s.access (R.TC_REFCFG r) = true ∧
      s.mode = .setup ∧
      s.bankFlag r F.TC_STAT_CALBUSY = false ∧
      v.toNat % 4 ≠ 3 :=
  ⟨3, 1, wSetup, by decide +kernel⟩

theorem test_converterAndClockWrites_13_hypotheses :
    ∃ (r : Region) (s : State),
      s.access (R.TC_REFCFG r) = true ∧
      (s.mode ≠ .setup ∨ s.bankFlag r F.TC_STAT_CALBUSY = true) :=
  ⟨3, wRun, by decide +kernel⟩

theorem test_sampleClockAndReferenceEvents_1_hypotheses :
    ∃ (r : Region) (s : State),
      s.up = true ∧
      s.refStopped = false ∧
      (s.bank r).lockWait = true :=
  ⟨3, wSetup.modBank 3 fun b => { b with lockWait := true }, by decide +kernel⟩

theorem test_sampleClockAndReferenceEvents_2_hypotheses :
    ∃ (r : Region) (s : State),
      s.bankFlag r F.TC_STAT_SCLK_LOCK = true ∧
      s.inRun = true :=
  ⟨3, wRun.putBank 3 F.TC_STAT_SCLK_LOCK 1, by decide +kernel⟩

theorem test_sampleClockAndReferenceEvents_3_hypotheses :
    ∃ (r : Region) (s : State),
      s.bankFlag r F.TC_STAT_SCLK_LOCK = true ∧
      s.mode = .setup :=
  ⟨3, wSetup.putBank 3 F.TC_STAT_SCLK_LOCK 1, by decide +kernel⟩

theorem test_sampleClockAndReferenceEvents_4_hypotheses :
    ∃ (r : Region) (s : State),
      s.up = true ∧
      s.flag (F.TC_SCLK_SRC r) = true ∧
      s.bankFlag r F.TC_STAT_SCLK_FALLBACK = false :=
  ⟨3, wSetup.put (F.TC_SCLK_SRC 3) 1, by decide +kernel⟩

theorem test_sampleClockAndReferenceEvents_5_hypotheses :
    ∃ (r : Region) (t : Nat) (d : Nat) (s : State),
      s.up = true ∧
      (s.bank r).refDue = some d ∧
      d ≤ t :=
  ⟨3, 200, 100, wSetup.modBank 3 fun b => { b with refDue := some 100 }, by decide +kernel⟩

theorem test_sampleClockAndReferenceEvents_6_hypotheses :
    ∃ (r : Region) (s : State),
      s.up = true ∧
      s.mode ≠ .dormant ∧
      s.get (F.TC_REFCFG_SRC r) = 1 ∧
      s.bankFlag r F.TC_STAT_REF_FALLBACK = false :=
  ⟨3, { ((wSetup.put (F.TC_REFCFG_SRC 3) 1).putBank 3 F.TC_STAT_CALBUSY 1).modBank 3 fun b => { b with cal := .passB } with frames := [{ wFrame3 with head := 6 }] }, by decide +kernel⟩

theorem test_sampleClockAndReferenceEvents_7_hypotheses :
    ∃ (r : Region) (s : State),
      s.up = true ∧
      s.mode ≠ .dormant ∧
      s.get (F.TC_REFCFG_SRC r) = 1 ∧
      s.bankFlag r F.TC_STAT_REF_FALLBACK = false ∧
      (s.bank r).cal = .idle ∧
      (s.head (2 * r)).cap = none ∧
      (s.head (2 * r + 1)).cap = none :=
  ⟨3, wSetup.put (F.TC_REFCFG_SRC 3) 1, by decide +kernel⟩

/-- SETUP with a calibration of region 3 at its checks. -/
def wChecks : State := wSetup.modBank 3 fun b => { b with cal := .checks }

/-- `wChecks` with a head that has a profile, and factors out of range for one converter. -/
def wChecksBad (h c : Nat) : State :=
  (wSetup.modHead h fun u => { u with profile := some wProf }).modBank 3 fun b =>
    { b with cal := .checks, passA := List.replicate c [] ++ [[99999]], passB := List.replicate c [] ++ [[99999]] }

theorem passesAgree_self (a : List Int) : passesAgree a a = true := by simp [passesAgree]

theorem wChecks_all : ((List.range 32).all fun c => factorsOk (([] : List (List Int)).getD c []) && factorsOk (([] : List (List Int)).getD c []) &&
    passesAgree (([] : List (List Int)).getD c []) (([] : List (List Int)).getD c [])) = true := by
  simp [passesAgree_self, show factorsOk [] = true by decide]

theorem test_bankCalibrationRuns_10_hypotheses :
    ∃ (r : Region) (s : State), (s.bank r).cal = .checks ∧
      ((List.range 32).all fun c => factorsOk ((s.bank r).passA.getD c []) && factorsOk ((s.bank r).passB.getD c []) &&
        passesAgree ((s.bank r).passA.getD c []) ((s.bank r).passB.getD c [])) = true :=
  ⟨3, wChecks, by decide +kernel, wChecks_all⟩

theorem test_bankCalibrationRuns_11_hypotheses :
    ∃ (r : Region) (c : Nat) (s : State), (s.bank r).cal = .checks ∧ c < 32 ∧ s.convUsed r c = true ∧
      factorsOk ((s.bank r).passA.getD c []) = true ∧ factorsOk ((s.bank r).passB.getD c []) = true ∧
      ((List.range 32).all fun c => !(factorsOk ((s.bank r).passA.getD c []) && factorsOk ((s.bank r).passB.getD c [])) ||
        passesAgree ((s.bank r).passA.getD c []) ((s.bank r).passB.getD c [])) = true ∧
      ((List.range 32).any fun c => !(factorsOk ((s.bank r).passA.getD c []) && factorsOk ((s.bank r).passB.getD c []))) = true :=
  ⟨3, 16, wChecksBad 7 0, by decide +kernel, by decide, by decide +kernel, by decide +kernel, by decide +kernel, by
    have e : ((wChecksBad 7 0).bank ((3 : Region) : Nat)).passB = ((wChecksBad 7 0).bank ((3 : Region) : Nat)).passA := by decide +kernel
    rw [e]; simp [passesAgree_self], by decide +kernel⟩

theorem test_bankCalibrationRuns_1_hypotheses :
    ∃ (r : Region) (s : State),
      s.access (R.TC_CMD r) = true ∧
      s.bankFlag r F.TC_STAT_CALBUSY = false ∧
      s.mode = .setup :=
  ⟨3, wSetup, by decide +kernel⟩

theorem test_bankCalibrationRuns_2_hypotheses :
    ∃ (r : Region) (s : State),
      s.access (R.TC_CMD r) = true ∧
      s.bankFlag r F.TC_STAT_CALBUSY = false ∧
      s.inRun = true ∧
      (s.churnAsk .m2 r true s.dt).1 = .granted :=
  ⟨3, wRun, by decide +kernel⟩

theorem test_bankCalibrationRuns_3_hypotheses :
    ∃ (r : Region) (s : State),
      s.access (R.TC_CMD r) = true ∧
      s.bankFlag r F.TC_STAT_CALBUSY = false ∧
      s.inRun = true ∧
      (s.churnAsk .m2 r true s.dt).1 ≠ .granted :=
  ⟨3, { wRun with churnRun := [{ act := .m1, res := 96 }] }, by decide +kernel⟩

theorem test_bankCalibrationRuns_4_hypotheses :
    ∃ (r : Region) (s : State),
      s.bankFlag r F.TC_STAT_CALBUSY = true :=
  ⟨3, wSetup.putBank 3 F.TC_STAT_CALBUSY 1, by decide +kernel⟩

theorem test_bankCalibrationRuns_5_hypotheses :
    ∃ (r : Region) (s : State),
      s.access (R.TC_CMD r) = true ∧
      s.bankFlag r F.TC_STAT_CALBUSY = false ∧
      s.inRun = false ∧
      s.mode ≠ .setup :=
  ⟨3, wIn .safe, by decide +kernel⟩

theorem test_bankCalibrationRuns_6_hypotheses :
    ∃ (r : Region) (t : Nat) (s : State),
      (s.bank r).cal = .waiting ∧
      s.bankFlag r F.TC_STAT_REFOK = true ∧
      (s.inRun = true → s.streams (2 * r) = true → (s.head (2 * r)).lastStart = some t) ∧
      (s.inRun = true → s.streams (2 * r) = false → s.streams (2 * r + 1) = true → (s.head (2 * r + 1)).lastStart = some t) :=
  ⟨3, 9, ((wRun.putBank 3 F.TC_STAT_REFOK 1).put (F.HP_STAT_STREAM 7) 1 |>.modHead 7 fun u => { u with lastStart := some 9 }).modBank 3 fun b => { b with cal := .waiting }, by decide +kernel⟩

theorem test_bankCalibrationRuns_7_hypotheses :
    ∃ (r : Region) (s : State),
      (s.bank r).cal = .waiting ∧
      s.bankFlag r F.TC_STAT_REFOK = true ∧
      s.inRun = false ∧
      (s.head (2 * r)).cap = none ∧
      (s.head (2 * r + 1)).cap = none :=
  ⟨3, (wSetup.putBank 3 F.TC_STAT_REFOK 1).modBank 3 fun b => { b with cal := .waiting }, by decide +kernel⟩

theorem test_bankCalibrationRuns_8_hypotheses :
    ∃ (r : Region) (t : Nat) (s : State),
      (s.bank r).cal = .passA ∧
      (s.bank r).passStart + 19000000 ≤ t :=
  ⟨3, 19000000, wSetup.modBank 3 fun b => { b with cal := .passA }, by decide +kernel⟩

theorem test_bankCalibrationRuns_9_hypotheses :
    ∃ (r : Region) (t : Nat) (s : State),
      (s.bank r).cal = .passB ∧
      (s.bank r).passStart + 19000000 ≤ t :=
  ⟨3, 19000000, wSetup.modBank 3 fun b => { b with cal := .passB }, by decide +kernel⟩

theorem test_bankCalibrationRuns_12_hypotheses :
    ∃ (r : Region) (c : Nat) (s : State),
      (s.bank r).cal = .checks ∧
      c < 32 ∧
      s.convUsed r c = true ∧
      ((List.range 32).all fun c => !s.convUsed r c || !(factorsOk ((s.bank r).passA.getD c []) && factorsOk ((s.bank r).passB.getD c []))) = true :=
  ⟨3, 0, wChecksBad 6 0, by decide +kernel⟩

theorem test_bankCalibrationRuns_13_hypotheses :
    ∃ (h : Head) (s : State) (p : Profile),
      s.flag (F.TC_CFG_BGTRIM_EN h) = true ∧
      s.streams h = true ∧
      (s.head h).profile = some p ∧
      (s.bank (h / 2)).cal = .idle ∧
      p.headTimed = false ∧
      p.hblank < 12 :=
  ⟨3, (wTrim 3 4), { wProf with hblank := 4 }, by decide +kernel⟩

theorem test_bankCalibrationRuns_14_hypotheses :
    ∃ (h : Head) (ws : List Int) (s : State) (p : Profile) (c : Nat),
      s.flag (F.TC_CFG_BGTRIM_EN h) = true ∧
      s.streams h = true ∧
      (s.head h).profile = some p ∧
      (s.bank (h / 2)).cal = .idle ∧
      (p.headTimed = true ∨ 12 ≤ p.hblank) ∧
      p.convs.getD ((s.head h).bgtNext % max p.convs.length 1) 0 = c ∧
      c < 16 ∧
      s.churnRuns .m1 (16 * h + c) = true ∧
      ((List.range 10).all fun w => factorOk w (ws.getD w 0)) = true :=
  ⟨3, [9, -9, 1, 2, 3, -4, -5, 5, 0, 100], wTrimM1 3 12, { wProf with hblank := 12 }, 0, by decide +kernel⟩

theorem test_bankCalibrationRuns_15_hypotheses :
    ∃ (h : Head) (ws : List Int) (s : State) (p : Profile) (c : Nat),
      s.flag (F.TC_CFG_BGTRIM_EN h) = true ∧
      s.streams h = true ∧
      (s.head h).profile = some p ∧
      (s.bank (h / 2)).cal = .idle ∧
      (p.headTimed = true ∨ 12 ≤ p.hblank) ∧
      p.convs.getD ((s.head h).bgtNext % max p.convs.length 1) 0 = c ∧
      c < 16 ∧
      s.churnRuns .m1 (16 * h + c) = true ∧
      ((List.range 10).all fun w => factorOk w (ws.getD w 0)) = false :=
  ⟨3, [9999], wTrimM1 3 12, { wProf with hblank := 12 }, 0, by decide +kernel⟩

theorem test_bankCalibrationRuns_16_hypotheses :
    ∃ (h : Head) (s : State) (p : Profile) (c : Nat),
      s.flag (F.TC_CFG_BGTRIM_EN h) = true ∧
      s.streams h = true ∧
      (s.head h).profile = some p ∧
      (s.bank (h / 2)).cal = .idle ∧
      (p.headTimed = true ∨ 12 ≤ p.hblank) ∧
      p.convs.getD ((s.head h).bgtNext % max p.convs.length 1) 0 = c ∧
      s.churnRuns .m1 (16 * h + c) = false :=
  ⟨3, wTrim 3 12, { wProf with hblank := 12 }, 0, by decide +kernel⟩

theorem test_bankCalibrationRuns_17_hypotheses :
    ∃ (h : Head) (s : State),
      s.flag (F.TC_CFG_BGTRIM_EN h) = false ∨ s.streams h = false ∨ s.hasProf h = false ∨ (s.bank (h / 2)).cal ≠ .idle :=
  ⟨3, (wTrimM1 3 12).put (F.TC_CFG_BGTRIM_EN 3) 0, by decide +kernel⟩

theorem test_frameAndLineStarts_1_hypotheses :
    ∃ (h : Head) (t : Nat) (s : State),
      s.mayStream h = true ∧
      (s.streams h = true ∨ s.calibrating h = false) ∧
      (s.prof h).headTimed = false ∧
      s.get (F.HP_FRM_CFG_SRC h) = 0 ∧
      (match (s.head h).lastStart with | some l => !s.streams h || decide (l + s.fperNs h ≤ t) | none => true) = true :=
  ⟨3, 50, wGo 3, by decide +kernel⟩

theorem test_frameAndLineStarts_2_hypotheses :
    ∃ (h : Head) (t : Nat) (e : Nat) (late : Bool) (s : State),
      s.mayStream h = true ∧
      (s.streams h = true ∨ s.calibrating h = false) ∧
      (s.trigsDue t).pendingBegin h = some (e, late) ∧
      e ≤ t :=
  ⟨3, 50, 40, false, (wGo 3).modHead 3 fun u => { u with startPending := some 40 }, by decide +kernel⟩

theorem test_frameAndLineStarts_3_hypotheses :
    ∃ (h : Head) (t : Nat) (s : State),
      s.mayStream h = true ∧
      (s.streams h = true ∨ s.calibrating h = false) ∧
      (s.prof h).headTimed = true ∧
      inHoldoff (s.head h).hfvAcc (s.hcyc h (s.prof h).tmin / 2) t = false :=
  ⟨3, 50, wTimed 3, by decide +kernel⟩

theorem test_frameAndLineStarts_4_hypotheses :
    ∃ (h : Head) (t : Nat) (s : State),
      s.commanded h = true ∧
      (s.prof h).headTimed = true ∧
      inHoldoff (s.head h).hfvAcc (s.hcyc h (s.prof h).tmin / 2) t = true :=
  ⟨3, 50, (wTimed 3).modHead 3 fun u => { u with hfvAcc := some 40 }, by decide +kernel⟩

theorem test_frameAndLineStarts_5_hypotheses :
    ∃ (h : Head) (t : Nat) (c : Cap) (s : State),
      (s.head h).cap = some c ∧
      (s.prof h).headTimed = false ∧
      c.closed = false ∧
      c.lines < (s.prof h).l ∧
      s.lineStartAt h c c.lines ≤ t :=
  ⟨3, 50, { seq := 1, start := 0 }, (wGo 3).modHead 3 fun u => { u with cap := some { seq := 1, start := 0 } }, by decide +kernel⟩

theorem test_frameAndLineStarts_6_hypotheses :
    ∃ (h : Head) (s : State),
      s.up = true ∧
      (s.prof h).headTimed = true :=
  ⟨3, (wTimed 3).modHead 3 fun u => { u with cap := some { seq := 1, start := 0, hfv := true, lines := 9 } }, by decide +kernel⟩

theorem test_frameAndLineStarts_7_hypotheses :
    ∃ (h : Head) (s : State),
      s.up = true ∧
      (s.prof h).headTimed = true ∧
      (s.head h).cap = none ∧
      (s.head h).prevCap = none :=
  ⟨3, wTimed 3, by decide +kernel⟩

theorem test_frameAndLineStarts_8_hypotheses :
    ∃ (h : Head) (c : Cap) (s : State),
      s.up = true ∧
      (s.prof h).headTimed = true ∧
      (s.head h).cap = some c ∧
      c.hfv = true ∧
      c.closed = false ∧
      (s.head h).prevCap = none ∧
      c.placed < c.lines :=
  ⟨3, { seq := 1, start := 0, hfv := true, lines := 9 }, (wTimed 3).modHead 3 fun u => { u with cap := some { seq := 1, start := 0, hfv := true, lines := 9 } }, by decide +kernel⟩

theorem test_frameAndLineStarts_9_hypotheses :
    ∃ (h : Head) (t : Nat) (c : Cap) (s : State),
      s.up = true ∧
      (s.prof h).headTimed = true ∧
      (s.head h).cap = some c ∧
      c.hfv = true ∧
      inHoldoff (s.head h).hlvAcc (s.hcyc h (s.prof h).p / 2) t = false ∧
      elapsed (s.head h).hlvAcc (s.hcyc h ((s.prof h).pixdly + (s.prof h).s)) t = true ∧
      c.lines < (s.prof h).l :=
  ⟨3, 50, { seq := 1, start := 0, hfv := true }, (wTimed 3).modHead 3 fun u => { u with cap := some { seq := 1, start := 0, hfv := true } }, by decide +kernel⟩

theorem test_frameAndLineStarts_10_hypotheses :
    ∃ (h : Head) (t : Nat) (c : Cap) (s : State),
      s.up = true ∧
      (s.prof h).headTimed = true ∧
      (s.head h).cap = some c ∧
      c.hfv = true ∧
      inHoldoff (s.head h).hlvAcc (s.hcyc h (s.prof h).p / 2) t = false ∧
      elapsed (s.head h).hlvAcc (s.hcyc h ((s.prof h).pixdly + (s.prof h).s)) t = true ∧
      (s.prof h).l ≤ c.lines ∧
      1 ≤ c.lines :=
  ⟨3, 50, { seq := 1, start := 0, hfv := true, lines := 32 }, (wTimed 3).modHead 3 fun u => { u with cap := some { seq := 1, start := 0, hfv := true, lines := 32 } }, by decide +kernel⟩

theorem test_frameAndLineStarts_11_hypotheses :
    ∃ (h : Head) (t : Nat) (c : Cap) (s : State),
      s.up = true ∧
      (s.prof h).headTimed = true ∧
      (s.head h).cap = some c ∧
      c.hfv = true ∧
      (inHoldoff (s.head h).hlvAcc (s.hcyc h (s.prof h).p / 2) t = true ∨ elapsed (s.head h).hlvAcc (s.hcyc h ((s.prof h).pixdly + (s.prof h).s)) t = false) :=
  ⟨3, 50, { seq := 1, start := 0, hfv := true }, (wTimed 3).modHead 3 fun u => { u with hlvAcc := some 40, cap := some { seq := 1, start := 0, hfv := true } }, by decide +kernel⟩

theorem test_frameAndLineStarts_12_hypotheses :
    ∃ (h : Head) (t : Nat) (l : Nat) (s : State),
      s.inRun = true ∧
      s.streams h = true ∧
      (s.head h).lastStart = some l ∧
      (s.head h).startPending = none ∧
      l + s.hcyc h ((2 + (s.head h).heldRun) * s.get (F.HP_FPER_FPER h)) ≤ t :=
  ⟨3, 10000000, 0, ((wGo 3).put (F.HP_STAT_STREAM 3) 1).modHead 3 fun u => { u with lastStart := some 0 }, by decide +kernel⟩

theorem test_timingInputsAndTriggers_1_hypotheses :
    ∃ (n : Fin 4) (lv : Bool) (t : Nat) (s : State),
      s.up = true ∧
      s.flag (F.TRG_TRIGCFG_PIN n) = true ∧
      lv ≠ s.flag (F.TRG_TRIGCFG_POL n) ∧
      inHoldoff ((s.atDue t).ring.trigAcc.getD n none) (s.get (F.TRG_TRIGPER_MINPER n) * 1000 / 2) t = false ∧
      n.val < s.ring.trigAcc.length :=
  ⟨3, true, 50, wSetup.put (F.TRG_TRIGCFG_PIN 3) 1, by decide +kernel⟩

theorem test_timingInputsAndTriggers_2_hypotheses :
    ∃ (n : Fin 4) (lv : Bool) (t : Nat) (s : State),
      s.up = true ∧
      s.flag (F.TRG_TRIGCFG_PIN n) = true ∧
      lv ≠ s.flag (F.TRG_TRIGCFG_POL n) ∧
      inHoldoff ((s.atDue t).ring.trigAcc.getD n none) (s.get (F.TRG_TRIGPER_MINPER n) * 1000 / 2) t = true :=
  ⟨3, true, 50, { (wSetup.put (F.TRG_TRIGCFG_PIN 3) 1).put (F.TRG_TRIGPER_MINPER 3) 1 with ring := { trigAcc := [none, none, none, some 40] } }, by decide +kernel⟩

theorem test_timingInputsAndTriggers_3_hypotheses :
    ∃ (n : Fin 4) (lv : Bool) (s : State),
      s.up = true ∧
      s.flag (F.TRG_TRIGCFG_PIN n) = true ∧
      lv = s.flag (F.TRG_TRIGCFG_POL n) :=
  ⟨3, true, { (wSetup.put (F.TRG_TRIGCFG_PIN 3) 1).put (F.TRG_TRIGCFG_POL 3) 1 with ring := { trigSince := [none, none, none, some 40] } }, by decide +kernel⟩

theorem test_timingInputsAndTriggers_4_hypotheses :
    ∃ (n : Fin 4) (s : State),
      s.flag (F.TRG_TRIGCFG_PIN n) = false :=
  ⟨3, wSetup, by decide +kernel⟩

theorem test_timingInputsAndTriggers_5_hypotheses :
    ∃ (h : Head) (pin : Fin 64) (t : Nat) (s : State),
      s.commanded h = true ∧
      s.gpDriven pin = none ∧
      s.get (F.HP_FRM_CFG_SRC h) = 3 ∧
      s.get (F.HP_FRM_CFG_SEL h) = pin ∧
      (s.prof h).headTimed = false ∧
      inHoldoff (s.head h).srcAcc (s.hcyc h (s.prof h).tmin / 2) t = false ∧
      (s.head h).startPending = none :=
  ⟨3, 33, 70, ((wGo 3).put (F.HP_FRM_CFG_SRC 3) 3).put (F.HP_FRM_CFG_SEL 3) 33, by decide +kernel⟩

theorem test_timingInputsAndTriggers_6_hypotheses :
    ∃ (h : Head) (pin : Fin 64) (t : Nat) (s : State),
      s.commanded h = true ∧
      s.gpDriven pin = none ∧
      s.get (F.HP_FRM_CFG_SRC h) = 3 ∧
      s.get (F.HP_FRM_CFG_SEL h) = pin ∧
      (s.prof h).headTimed = false ∧
      inHoldoff (s.head h).srcAcc (s.hcyc h (s.prof h).tmin / 2) t = true ∨ (s.head h).startPending.isSome = true :=
  ⟨3, 33, 70, (((wGo 3).put (F.HP_FRM_CFG_SRC 3) 3).put (F.HP_FRM_CFG_SEL 3) 33).modHead 3 fun u => { u with startPending := some 40 }, by decide +kernel⟩

theorem test_timingInputsAndTriggers_7_hypotheses :
    ∃ (h : Head) (pin : Fin 64) (s : State),
      s.up = true ∧
      s.gpDriven pin = none ∧
      s.get (F.HP_FRM_CFG_SRC h) = 3 ∧
      s.get (F.HP_FRM_CFG_SEL h) = pin ∧
      (s.prof h).headTimed = false :=
  ⟨3, 33, (((wGo 3).put (F.HP_FRM_CFG_SRC 3) 3).put (F.HP_FRM_CFG_SEL 3) 33).put (F.HP_TSTAT_LIVE 3) 2, by decide +kernel⟩

theorem test_timingInputsAndTriggers_8_hypotheses :
    ∃ (h : Head) (t : Nat) (a : Nat) (s : State),
      s.up = true ∧
      (s.head h).hlvSince = some a ∧
      a + 2 * s.hcyc h (s.prof h).p ≤ t ∧
      bit (s.get (F.HP_TSTAT_LIVE h)) 2 = false :=
  ⟨3, 70000, 0, (wTimed 3).modHead 3 fun u => { u with hlvSince := some 0 }, by decide +kernel⟩

theorem test_timingInputsAndTriggers_9_hypotheses :
    ∃ (h : Head) (t : Nat) (a : Nat) (s : State),
      s.up = true ∧
      (s.head h).hfvSince = some a ∧
      a + 2 * s.fperNs h ≤ t ∧
      bit (s.get (F.HP_TSTAT_LIVE h)) 3 = false :=
  ⟨3, 10000000, 0, (wTimed 3).modHead 3 fun u => { u with hfvSince := some 0, cap := some { seq := 1, start := 0, hfv := true, lines := 9 } }, by decide +kernel⟩

theorem test_timingInputsAndTriggers_10_hypotheses :
    ∃ (h : Head) (t : Nat) (a : Nat) (s : State),
      s.up = true ∧
      (s.head h).hfvSince = some a ∧
      a + 2 * s.fperNs h ≤ t ∧
      bit (s.get (F.HP_TSTAT_LIVE h)) 3 = false ∧
      (s.head h).cap = none ∧
      (s.head h).prevCap = none :=
  ⟨3, 10000000, 0, (wTimed 3).modHead 3 fun u => { u with hfvSince := some 0 }, by decide +kernel⟩

theorem test_timingInputsAndTriggers_11_hypotheses :
    ∃ (h : Head) (t : Nat) (a : Nat) (s : State),
      s.up = true ∧
      (s.prof h).headTimed = false ∧
      (s.head h).srcSince = some a ∧
      a + 2 * s.fperNs h ≤ t ∧
      bit (s.get (F.HP_TSTAT_LIVE h)) 1 = false :=
  ⟨3, 10000000, 0, (wGo 3).modHead 3 fun u => { u with srcSince := some 0 }, by decide +kernel⟩

theorem test_timingInputsAndTriggers_12_hypotheses :
    ∃ (n : Fin 4) (t : Nat) (a : Nat) (s : State),
      s.up = true ∧
      s.ring.trigSince.getD n none = some a ∧
      s.get (F.TRG_TRIGPER_EXPPER n) ≠ 0 ∧
      a + 2 * s.get (F.TRG_TRIGPER_EXPPER n) * 1000 ≤ t ∧
      s.flag (F.TRG_TRIGSTAT_LIVE n) = false :=
  ⟨2, 70000, 0, { wSetup.put (F.TRG_TRIGPER_EXPPER 2) 35 with ring := { trigSince := [none, none, some 0, none] } }, by decide +kernel⟩

theorem test_timingInputsAndTriggers_13_hypotheses :
    ∃ (s : State),
      s.up = true :=
  ⟨(wTimed 3).put (F.HP_TSTAT_LIVE 3) 4, by decide +kernel⟩

theorem test_timingInputsAndTriggers_14_hypotheses :
    ∃ (s : State),
      s.up = true :=
  ⟨(wTimed 3).put (F.HP_TSTAT_LIVE 3) 8, by decide +kernel⟩

theorem test_timingInputsAndTriggers_15_hypotheses :
    ∃ (s : State),
      s.up = true :=
  ⟨(wGo 3).put (F.HP_TSTAT_LIVE 3) 2, by decide +kernel⟩

theorem test_timingInputsAndTriggers_16_hypotheses :
    ∃ (s : State),
      s.up = true :=
  ⟨{ wSetup.put (F.TRG_TRIGSTAT_LIVE 2) 1 with ring := { trigSince := [none, none, some 0, none] } }, by decide +kernel⟩

theorem test_timingInputsAndTriggers_17_hypotheses :
    ∃ (t : Nat) (s : State),
      s.ringRx = true ∧
      s.effectInstant t < (t : Int) :=
  ⟨70, { (wRing.put F.TRG_ALIGN_ALIGN 0).put F.TRG_CABLEDLY_DLY 30 with ring := { markSeq := (List.replicate 8 none).set 5 (some 30) } }, by decide +kernel⟩

theorem test_timingInputsAndTriggers_18_hypotheses :
    ∃ (t : Nat) (s : State),
      s.ringRx = true ∧
      (t : Int) ≤ s.effectInstant t :=
  ⟨70, { wRing.put F.TRG_ALIGN_ALIGN 500 with ring := { markSeq := (List.replicate 8 none).set 5 (some 30) } }, by decide +kernel⟩

theorem test_timingInputsAndTriggers_19_hypotheses :
    ∃ (n : Fin 8) (l : Fin 32) (t : Nat) (s : State),
      s.ringRx = true ∧
      s.ring.markSeq = (List.replicate 8 none).set n (some l.val) ∧
      (t : Int) ≤ s.effectInstant t ∧
      s.txnQ = [] ∧
      (∀ h : Nat, h < 8 → (s.head h).hcpOwner = 0) :=
  ⟨5, 30, 70, { wRing.put F.TRG_ALIGN_ALIGN 500 with ring := { markSeq := (List.replicate 8 none).set 5 (some 30) } }, by decide +kernel⟩

theorem test_timingInputsAndTriggers_20_hypotheses :
    ∃ (n : Fin 8) (q : Fin 32) (t : Nat) (m : MarkEvent) (s : State),
      (s.ring.marks.find? fun m => !m.trig && m.stream == n.val && m.seq == q.val && m.instant ≤ t) = some m :=
  ⟨5, 3, 70, { trig := false, stream := 5, seq := 3, instant := 60 }, { ((wGo 3).put (F.HP_FRM_CFG_SRC 3) 1).put (F.HP_FRM_CFG_SEL 3) 5 with ring := { marks := [{ trig := false, stream := 5, seq := 3, instant := 60 }] } }, by decide +kernel⟩

theorem test_timingInputsAndTriggers_21_hypotheses :
    ∃ (n : Fin 8) (q : Fin 32) (t : Nat) (m : MarkEvent) (s : State),
      (s.ring.marks.find? fun m => !m.trig && m.stream == n.val && m.seq == q.val && m.instant ≤ t) = some m ∧
      (∀ h : Nat, h < 8 → s.get (F.HP_FRM_CFG_SRC h) ≠ 1) ∧
      fieldOf F.HK_TRIG_SRC s.hk.trig ≠ 3 ∧
      s.txnQ = [] :=
  ⟨5, 3, 70, { trig := false, stream := 5, seq := 3, instant := 60 }, { wRing with ring := { marks := [{ trig := false, stream := 5, seq := 3, instant := 60 }] } }, by decide +kernel⟩

theorem test_timingInputsAndTriggers_22_hypotheses :
    ∃ (t : Nat) (s : State),
      s.ringRx = true ∧
      (t : Int) < s.effectInstant t :=
  ⟨70, { wRing.put F.TRG_ALIGN_ALIGN 500 with ring := { trigSeq := (List.replicate 4 none).set 2 (some 30) } }, by decide +kernel⟩

theorem test_timingInputsAndTriggers_23_hypotheses :
    ∃ (n : Fin 4) (t : Nat) (s : State),
      s.ringRx = true ∧
      s.effectInstant t ≤ (t : Int) ∧
      s.flag (F.TRG_TRIGCFG_RING n) = true ∧
      n.val < s.ring.trigAcc.length ∧
      inHoldoff ((s.atDue t).ring.trigAcc.getD n none) (s.get (F.TRG_TRIGPER_MINPER n) * 1000 / 2) t = false :=
  ⟨2, 70, ((wRing.put (F.TRG_TRIGCFG_RING 2) 1).put F.TRG_CABLEDLY_DLY 30).put F.TRG_ALIGN_ALIGN 0, by decide +kernel⟩

theorem test_deviceTimeReadsAsOnePair_1_hypotheses :
    ∃ (p : Port) (q : Port) (be : Fin 16) (s : State),
      s.access R.TRG_DT_LO = true ∧
      be ≠ 0 ∧
      q ≠ p :=
  ⟨.pcie, .msp, 3, { wSetup with dt := 12884901893 }, by decide +kernel⟩

theorem test_deviceTimeReadsAsOnePair_2_hypotheses :
    ∃ (p : Port) (be : Fin 16) (v : Nat) (ver : Nat) (s : State),
      s.access R.TRG_DT_HI = true ∧
      be ≠ 0 ∧
      alGet (fun _ => none) s.pairRead (shadowKey p R.TRG_DT_LO) = some (v, ver) :=
  ⟨.msp, 3, 8589934597, 0, { wSetup with dt := 12884901893, pairRead := [(shadowKey .msp R.TRG_DT_LO, some (8589934597, 0))] }, by decide +kernel⟩

theorem test_deviceTimeReadsAsOnePair_3_hypotheses :
    ∃ (p : Port) (be : Fin 16) (s : State),
      s.access R.TRG_DT_HI = true ∧
      be ≠ 0 ∧
      alGet (fun _ => none) s.pairRead (shadowKey p R.TRG_DT_LO) = none :=
  ⟨.msp, 15, wSetup, by decide +kernel⟩

theorem test_pairWritesTakeEffectTogether_1_hypotheses :
    ∃ (s : State),
      s.up = true ∧
      s.refStopped = false :=
  ⟨wSetup, by decide +kernel⟩

theorem test_pairWritesTakeEffectTogether_2_hypotheses :
    ∃ (p : Port) (h : Head) (lo : Nat) (s : State),
      s.up = true ∧
      s.refStopped = false ∧
      alGet (fun _ => none) s.pairHold (shadowKey p (R.CX_SQST_LO h)) = some lo :=
  ⟨.msp, 5, 77, { wSetup with pairHold := [(shadowKey .msp (R.CX_SQST_LO 5), some 77)] }, by decide +kernel⟩

theorem test_timingRingLinkAndTime_1_hypotheses :
    ∃ (s : State),
      s.up = true ∧
      s.flag F.TRG_CTRL_EN = true :=
  ⟨wSetup.put F.TRG_CTRL_EN 1, by decide +kernel⟩

theorem test_timingRingLinkAndTime_2_hypotheses :
    ∃ (s : State),
      s.ringRx = true :=
  ⟨wRing.put (F.TC_SCLK_SRC 2) 1, by decide +kernel⟩

theorem test_timingRingLinkAndTime_3_hypotheses :
    ∃ (s : State),
      s.ringRx = true ∧
      (∀ r : Nat, r < 4 → s.flag (F.TC_SCLK_SRC r) = false) :=
  ⟨wRing, by decide +kernel⟩

theorem test_timingRingLinkAndTime_4_hypotheses :
    ∃ (bs : List Byte) (s : State),
      s.ringRx = true ∧
      beNat ((bs.drop 11).take 2) ≠ crc16 (bs.take 10) :=
  ⟨List.replicate 13 0, wRing, by decide +kernel⟩

theorem test_timingRingLinkAndTime_5_hypotheses :
    ∃ (bs : List Byte) (s : State),
      s.ringRx = true ∧
      beNat ((bs.drop 11).take 2) = crc16 (bs.take 10) :=
  ⟨[0, 0, 0, 0, 0, 0, 0, 0, 0, 0, 40, 0xE1, 0x39], wRing, by decide +kernel⟩

theorem test_timingRingLinkAndTime_6_hypotheses :
    ∃ (bs : List Byte) (s : State),
      s.ringRx = true ∧
      beNat ((bs.drop 11).take 2) = crc16 (bs.take 10) ∧
      leAt bs 10 1 < 31 ∧
      s.flag F.TRG_CTRL_DISC = true ∧
      s.ring.offsetSet = false :=
  ⟨[0, 0, 0, 0, 0, 0, 0, 0, 0, 0, 0, 0xE1, 0x39], wRing.put F.TRG_CTRL_DISC 1, by decide +kernel⟩

theorem test_timingRingLinkAndTime_7_hypotheses :
    ∃ (t : Nat) (l : Nat) (s : State),
      s.up = true ∧
      s.ring.lastTime = some l ∧
      l + 10000000 ≤ t ∧
      s.get F.TRG_DTSTAT_SRC ≤ 1 :=
  ⟨10000005, 5, { wRing.put F.TRG_DTSTAT_SRC 1 with ring := { lastTime := some 5 } }, by decide +kernel⟩

theorem test_timingRingLinkAndTime_8_hypotheses :
    ∃ (s : State),
      s.up = true :=
  ⟨wSetup, by decide +kernel⟩

theorem test_timingRingMessages_1_hypotheses :
    ∃ (s : State),
      s.access R.TRG_MSGCMD = true ∧
      s.flag F.TRG_MSGSTAT_TXBUSY = false ∧
      1 ≤ s.get F.TRG_MSGCMD_LEN ∧
      s.get F.TRG_MSGCMD_LEN ≤ 16 :=
  ⟨wRing.put F.TRG_MSGCMD_LEN 16, by decide +kernel⟩

theorem test_timingRingMessages_2_hypotheses :
    ∃ (s : State),
      s.access R.TRG_MSGCMD = true ∧
      (s.flag F.TRG_MSGSTAT_TXBUSY = true ∨ s.get F.TRG_MSGCMD_LEN = 0 ∨ 16 < s.get F.TRG_MSGCMD_LEN) :=
  ⟨wRing.put F.TRG_MSGCMD_LEN 17, by decide +kernel⟩

theorem test_timingRingMessages_3_hypotheses :
    ∃ (m : RingMsg) (s : State),
      s.ringHold = true ∧
      s.ring.tx = some m ∧
      s.ring.txSent = none :=
  ⟨{ src := 1, dst := 2, payload := [5] }, { wRing.put F.TRG_STAT_HOLD 1 with ring := { tx := some { src := 1, dst := 2, payload := [5] } } }, by decide +kernel⟩

theorem test_timingRingMessages_4_hypotheses :
    ∃ (s : State),
      s.ringHold = false ∨ s.ring.tx = none ∨ s.ring.txSent.isSome = true :=
  ⟨{ wRing with ring := { tx := some { src := 1, dst := 2, payload := [5] } } }, by decide +kernel⟩

theorem test_timingRingMessages_5_hypotheses :
    ∃ (bs : List Byte) (m : RingMsg) (n : Nat) (s : State),
      s.ringRx = true ∧
      s.ring.tx = some m ∧
      s.ring.txSent = some n ∧
      msgSound bs = false :=
  ⟨[1, 2, 1, 5, 1, 0, 0], { src := 1, dst := 2, payload := [5] }, 4, { wRing with ring := { tx := some { src := 1, dst := 2, payload := [5] }, txSent := some 4 } }, by decide +kernel⟩

theorem test_timingRingMessages_6_hypotheses :
    ∃ (bs : List Byte) (m : RingMsg) (n : Nat) (s : State),
      s.ringRx = true ∧
      s.ring.tx = some m ∧
      s.ring.txSent = some n ∧
      msgSound bs = true :=
  ⟨[5, 0xFF, 1, 0x42, 0, 0xAC, 0x51], { src := 1, dst := 2, payload := [5] }, 4, { wRing with ring := { tx := some { src := 1, dst := 2, payload := [5] }, txSent := some 4 } }, by decide +kernel⟩

theorem test_timingRingMessages_7_hypotheses :
    ∃ (t : Nat) (s : State),
      s.ring.tx.isSome = true ∧
      s.ring.sendAt + 100000 ≤ t :=
  ⟨100005, { wRing with ring := { tx := some { src := 1, dst := 2, payload := [5] }, sendAt := 5 } }, by decide +kernel⟩

theorem test_timingRingMessages_8_hypotheses :
    ∃ (bs : List Byte) (s : State),
      s.ringRx = true ∧
      1 ≤ leAt bs 2 1 ∧
      leAt bs 2 1 ≤ 16 ∧
      beNat ((bs.drop (4 + leAt bs 2 1)).take 2) = crc16 (bs.take (3 + leAt bs 2 1)) ∧
      (leAt bs 1 1 = 0xFF ∨ leAt bs 1 1 = s.get F.TRG_STAT_HOP) ∧
      s.ring.rx.length < 8 :=
  ⟨[5, 0xFF, 1, 0x42, 0, 0xAC, 0x51], wRing, by decide +kernel⟩

theorem test_timingRingMessages_9_hypotheses :
    ∃ (bs : List Byte) (s : State),
      s.ringRx = true ∧
      msgSound bs = true ∧
      leAt bs 1 1 ≠ 0xFF ∧
      leAt bs 1 1 ≠ s.get F.TRG_STAT_HOP :=
  ⟨[0, 2, 1, 0, 0, 0xD9, 0x91], wRing.put F.TRG_STAT_HOLD 1, by decide +kernel⟩

theorem test_timingRingMessages_10_hypotheses :
    ∃ (bs : List Byte) (s : State),
      s.ringRx = true ∧
      msgSound bs = false :=
  ⟨[5, 0xFF, 1, 0x42, 0, 0xAC, 0x52], wRing, by decide +kernel⟩

theorem test_timingRingMessages_11_hypotheses :
    ∃ (bs : List Byte) (s : State),
      s.ringRx = true ∧
      msgSound bs = true ∧
      (leAt bs 1 1 = 0xFF ∨ leAt bs 1 1 = s.get F.TRG_STAT_HOP) ∧
      8 ≤ s.ring.rx.length :=
  ⟨[5, 0xFF, 1, 0x42, 0, 0xAC, 0x51], { wRing with ring := { rx := List.replicate 8 { src := 1, dst := 2, payload := [5] } } }, by decide +kernel⟩

theorem test_timingRingMessages_12_hypotheses :
    ∃ (s : State),
      s.access R.TRG_MSGCMD = true :=
  ⟨{ wRing with ring := { rx := [{ src := 1, dst := 2, payload := [5] }] } }, by decide +kernel⟩

theorem test_timingRingEnablingAndPath_1_hypotheses :
    ∃ (s : State),
      s.access R.TRG_CTRL = true ∧
      s.flag F.TRG_CTRL_EN = true ∧
      s.flag F.TRG_STAT_PATHFAIL = false :=
  ⟨wRing, by decide +kernel⟩

theorem test_timingRingEnablingAndPath_2_hypotheses :
    ∃ (s : State),
      s.access R.TRG_CTRL = true ∧
      s.flag F.TRG_CTRL_EN = false ∨ s.flag F.TRG_STAT_PATHFAIL = true :=
  ⟨(wRing.put F.TRG_STAT_PATHFAIL 1), by decide +kernel⟩

theorem test_timingRingEnablingAndPath_3_hypotheses :
    ∃ (s : State),
      s.up = true ∧
      s.ring.selftest = true :=
  ⟨{ wSetup with ring := { selftest := true } }, by decide +kernel⟩

theorem test_timingRingEnablingAndPath_4_hypotheses :
    ∃ (s : State),
      s.up = true ∧
      s.ring.selftest = true :=
  ⟨{ wSetup with ring := { selftest := true } }, by decide +kernel⟩

theorem test_timingRingEnablingAndPath_5_hypotheses :
    ∃ (s : State),
      s.up = true ∧
      s.flag F.TRG_CTRL_EN = true ∧
      s.ring.passed = true ∧
      s.ring.txOn = true :=
  ⟨{ wRing with ring := { passed := true, txOn := true } }, by decide +kernel⟩

theorem test_timingRingEnablingAndPath_6_hypotheses :
    ∃ (s : State),
      s.up = false ∨ s.flag F.TRG_CTRL_EN = false ∨ s.ring.passed = false ∨ s.ring.txOn = false :=
  ⟨{ wRing with ring := { passed := false, txOn := true } }, by decide +kernel⟩

theorem test_timingRingEnablingAndPath_7_hypotheses :
    ∃ (s : State),
      s.ring.selftest = false :=
  ⟨wRing, by decide +kernel⟩

theorem test_timingRingEnablingAndPath_8_hypotheses :
    ∃ (s : State),
      s.access R.TRG_CTRL = true :=
  ⟨wRing, by decide +kernel⟩

theorem test_timingRingEnablingAndPath_9_hypotheses :
    ∃ (t : Nat) (d : Nat) (s : State),
      s.ring.txOffAt = some d ∧
      d ≤ t :=
  ⟨10007, 10007, { wRing with ring := { txOn := true, txOffAt := some 10007 } }, by decide +kernel⟩

theorem test_timingRingEnablingAndPath_10_hypotheses :
    ∃ (t : Nat) (s : State),
      (s.ring.txOffAt.all fun d => decide (t < d)) = true :=
  ⟨10006, { wRing with ring := { txOn := true, txOffAt := some 10007 } }, by decide +kernel⟩

theorem test_linesAndMirrors_1_hypotheses :
    ∃ (h : Head) (line : Nat) (t : Nat) (c : Cap) (f : Frame) (s : State),
      s.placing h = some c ∧
      s.frame h c.seq = some f ∧
      line = c.placed ∧
      c.placed < c.lines ∧
      s.lineStartAt h c line + s.hcyc h ((s.prof h).pixdly + (s.prof h).s) ≤ t :=
  ⟨3, 0, 5000, { seq := 1, start := 0, lines := 1 }, wFrame3, { (wGo 3).modHead 3 (fun u => { u with cap := some { seq := 1, start := 0, lines := 1 } }) with frames := [wFrame3] }, by decide +kernel⟩

theorem test_linesAndMirrors_2_hypotheses :
    ∃ (h : Head) (line : Nat) (t : Nat) (c : Cap) (f : Frame) (s : State),
      s.placing h = some c ∧
      s.frame h c.seq = some f ∧
      f.mute = true ∧
      line = c.placed ∧
      c.placed < c.lines ∧
      s.lineStartAt h c line + s.hcyc h ((s.prof h).pixdly + (s.prof h).s) ≤ t :=
  ⟨3, 0, 5000, { seq := 1, start := 0, lines := 1 }, { wFrame3 with mute := true }, { (wGo 3).modHead 3 (fun u => { u with cap := some { seq := 1, start := 0, lines := 1 } }) with frames := [{ wFrame3 with mute := true }] }, by decide +kernel⟩

theorem test_linesAndMirrors_3_hypotheses :
    ∃ (h : Head) (line : Nat) (t : Nat) (c : Cap) (f : Frame) (s : State),
      s.placing h = some c ∧
      s.frame h c.seq = some f ∧
      f.mute = false ∧
      line = c.placed ∧
      c.placed < c.lines ∧
      (s.prof h).reftop ≤ line ∧
      line < (s.prof h).reftop + (s.prof h).height ∧
      s.lineStartAt h c line + s.hcyc h ((s.prof h).pixdly + (s.prof h).s) ≤ t :=
  ⟨3, 0, 5000, { seq := 1, start := 0, lines := 1 }, wFrame3, { (wGo 3).modHead 3 (fun u => { u with cap := some { seq := 1, start := 0, lines := 1 } }) with frames := [wFrame3] }, by decide +kernel⟩

theorem test_linesAndMirrors_4_hypotheses :
    ∃ (h : Head) (v : Word) (s : State),
      s.access (R.CL_HMIR h) = true ∧
      s.mode = .setup ∧
      v.toNat % 16 = 0 :=
  ⟨3, 0xFFF0, (wSup 3).put (F.CL_HMIR_EN 3) 5, by decide +kernel⟩

theorem test_linesAndMirrors_5_hypotheses :
    ∃ (h : Head) (s : State),
      s.access (R.CL_HMIR h) = true ∧
      s.mode = .setup :=
  ⟨3, (wPages ((wSup 3).modHead 3 fun u => { u with profile := some wOne })).put (F.CL_HMIR_EN 3) 9, by decide +kernel⟩

theorem test_linesAndMirrors_6_hypotheses :
    ∃ (h : Head) (s : State),
      s.access (R.CL_HMIR h) = true ∧
      s.mode ≠ .setup :=
  ⟨3, wRun, by decide +kernel⟩

theorem test_linesAndMirrors_7_hypotheses :
    ∃ (h : Head) (i : Fin 4) (v : Word) (s : State),
      s.access (R.CL_HMIR h) = true ∧
      s.mode = .setup ∧
      v.toNat % 16 = 2 ^ i.val ∧
      s.get (F.CL_HMIR_EN h) = 0 ∧
      s.mirPlaced h i = true :=
  ⟨3, 2, 4, (wPages ((wSup 3).modHead 3 fun u => { u with profile := some wOne })).put (F.CL_HMRA_BASE 3) 11, by decide +kernel⟩

theorem test_linesAndMirrors_8_hypotheses :
    ∃ (h : Head) (i : Fin 4) (v : Word) (s : State),
      s.access (R.CL_HMIR h) = true ∧
      s.mode = .setup ∧
      v.toNat % 16 = 2 ^ i.val ∧
      s.get (F.CL_HMIR_EN h) = 0 ∧
      s.mirPlaced h i = false :=
  ⟨3, 2, 4, (wSup 3), by decide +kernel⟩

theorem test_linesAndMirrors_9_hypotheses :
    ∃ (h : Head) (s : State),
      s.access (R.CL_HCMD h) = true ∧
      s.mode ≠ .safe :=
  ⟨3, wSetup.put (F.CL_HMIR_EN 3) 5, by decide +kernel⟩

theorem test_linesAndMirrors_10_hypotheses :
    ∃ (h : Head) (s : State),
      s.access (R.FP_RCMD h) = true ∧
      s.mode ≠ .safe :=
  ⟨3, wSetup.put (F.FP_RCFG_MIRB 3) 1, by decide +kernel⟩

theorem test_linesAndMirrors_11_hypotheses :
    ∃ (h : Head) (k : CopyKind) (s : State),
      copyIndex k < 4 ∧
      s.mirCopies.contains (h.val, copyIndex k) = true ∧
      s.mirrored h (copyIndex k) = true ∧
      s.lostChan = [] :=
  ⟨3, .resA, ({ ((wSup 3).put (F.CL_HMIR_EN 3) 4).put (F.CL_HMRA_BASE 3) 7 with mirCopies := [(3, 2)] }).dramWriteRaw 5 [9, 8], by decide +kernel⟩

theorem test_linesAndMirrors_12_hypotheses :
    ∃ (h : Head) (k : CopyKind) (s : State),
      s.mirCopies.contains (h.val, copyIndex k) = true ∧
      (if copyIndex k < 4 then s.mirrored h (copyIndex k) else s.radMirrored h (copyIndex k - 4)) = true :=
  ⟨3, .radB, { ((wSup 3).put (F.FP_RCFG_MIRB 3) 1).put (F.FP_RMB_BASE 3) 7 with mirCopies := [(3, 5)], lostChan := [2] }, by decide +kernel⟩

theorem test_linesAndMirrors_13_hypotheses :
    ∃ (h : Head) (k : CopyKind) (s : State),
      4 ≤ copyIndex k ∧
      s.mirCopies.contains (h.val, copyIndex k) = true ∧
      s.radMirrored h (copyIndex k - 4) = true ∧
      s.lostChan = [] :=
  ⟨3, .radB, { ((wSup 3).put (F.FP_RCFG_MIRB 3) 1).put (F.FP_RMB_BASE 3) 7 with mirCopies := [(3, 5)] }, by decide +kernel⟩

theorem test_linesAndMirrors_14_hypotheses :
    ∃ (h : Head) (s : State),
      s.access (R.CL_HCMD h) = true ∧
      s.mode = .setup ∧
      s.swapPending h 0 = false ∧
      s.swapCheck h (1 - s.leafSel h) = 0 :=
  ⟨3, (wSwap 3), by decide +kernel⟩

theorem test_linesAndMirrors_15_hypotheses :
    ∃ (h : Head) (s : State),
      s.access (R.CL_HCMD h) = true ∧
      s.mode = .setup ∧
      (s.swapPending h 0 = true ∨ s.swapCheck h (1 - s.leafSel h) ≠ 0) :=
  ⟨3, wSup 3, by decide +kernel⟩

theorem test_linesAndMirrors_16_hypotheses :
    ∃ (h : Head) (s : State),
      s.access (R.CL_HCMD h) = true ∧
      s.mode ≠ .setup :=
  ⟨3, wRun, by decide +kernel⟩

theorem test_linesAndMirrors_17_hypotheses :
    ∃ (h : Head) (s : State),
      s.access (R.CL_HCMD h) = true ∧
      s.mode = .setup ∧
      (s.swapPending h 1 = true ∨ s.swapCheck h (5 - s.resSel h) ≠ 0) :=
  ⟨3, wSup 3, by decide +kernel⟩

theorem test_linesAndMirrors_18_hypotheses :
    ∃ (h : Head) (s : State),
      s.access (R.CL_HCMD h) = true ∧
      s.mode ≠ .setup :=
  ⟨3, wRun, by decide +kernel⟩

theorem test_linesAndMirrors_19_hypotheses :
    ∃ (h : Head) (s : State),
      s.access (R.CL_HCMD h) = true ∧
      s.mode = .setup ∧
      s.swapPending h 1 = false ∧
      s.swapCheck h (5 - s.resSel h) = 0 :=
  ⟨3, (wSwap 3), by decide +kernel⟩

theorem test_linesAndMirrors_20_hypotheses :
    ∃ (h : Head) (s : State),
      s.access (R.FP_RCMD h) = true ∧
      s.mode = .setup ∧
      s.swapPending h 2 = false :=
  ⟨3, wSetup, by decide +kernel⟩

theorem test_linesAndMirrors_21_hypotheses :
    ∃ (h : Head) (s : State),
      s.access (R.FP_RCMD h) = true ∧
      s.mode = .setup ∧
      s.swapPending h 2 = true :=
  ⟨3, wSetup.modHead 3 fun u => { u with radPend := true }, by decide +kernel⟩

theorem test_linesAndMirrors_22_hypotheses :
    ∃ (h : Head) (s : State),
      s.access (R.FP_RCMD h) = true ∧
      s.mode ≠ .setup :=
  ⟨3, wRun, by decide +kernel⟩

theorem test_linesAndMirrors_23_hypotheses :
    ∃ (h : Head) (f : Frame) (s : State),
      (s.frames.find? fun f => f.head == h.val && f.unconverted && snapFlag f.snap (F.FP_RCFG_EN h)) = some f :=
  ⟨3, wRadFrame, { wRun with frames := [wFrame3, wRadFrame] }, by decide +kernel⟩

theorem test_linesAndMirrors_24_hypotheses :
    ∃ (h : Head) (f : Frame) (s : State),
      (s.frames.find? fun f => f.head == h.val && f.unconverted && snapFlag f.snap (F.FP_RCFG_EN h)) = some f :=
  ⟨3, wRadFrame, { wRun with frames := [wFrame3, wRadFrame] }, by decide +kernel⟩

theorem test_linesAndMirrors_25_hypotheses :
    ∃ (h : Head) (s : State),
      (s.jobs.any fun j => j.started.isSome && leAt j.body 0x10 1 == h.val) = true :=
  ⟨3, { wRun with jobs := [{ ring := 5, tag := 7, func := 0, started := some 0, body := List.replicate 16 0 ++ [3] }] }, by decide +kernel⟩

theorem test_shutterCalibrationRequests_1_hypotheses :
    ∃ (h : Head) (s : State),
      s.access (R.CX_SCMD h) = true ∧
      (s.shut h).active = false ∧
      s.streams h = true ∧
      s.inRun = true ∧
      s.flag (F.CX_SCFG_EN h) = true ∧
      (s.prof h).shutType ≠ 0 ∧
      s.coilFault h = false ∧
      s.isRetired (20 + h) = false :=
  ⟨3, wShut 3 {} 0, by decide +kernel⟩

theorem test_shutterCalibrationRequests_2_hypotheses :
    ∃ (h : Head) (s : State),
      s.access (R.CX_SCMD h) = true ∧
      (s.shut h).active = false ∧
      (s.streams h = false ∨ s.inRun = false ∨ s.flag (F.CX_SCFG_EN h) = false ∨ (s.prof h).shutType = 0 ∨ s.coilFault h = true ∨ s.isRetired (20 + h) = true) :=
  ⟨3, (wShut 3 {} 0).put (F.CX_SCFG_EN 3) 0, by decide +kernel⟩

theorem test_shutterCalibrationRequests_3_hypotheses :
    ∃ (h : Head) (s : State),
      s.access (R.CX_SCMD h) = true ∧
      (s.shut h).active = true :=
  ⟨3, (wShut 3 { active := true } 1).put (F.CX_SSTAT_SRC 3) 2, by decide +kernel⟩

theorem test_shutterCalibrationRequests_4_hypotheses :
    ∃ (h : Head) (t : Nat) (e : Nat) (s : State),
      s.get (F.CX_SSCHED_PERIOD h) ≠ 0 ∧
      ((s.shut h).endAt <|> (s.head h).firstRunStart) = some e ∧
      e + s.get (F.CX_SSCHED_PERIOD h) * 60000000000 ≤ t ∧
      (s.shut h).active = false ∧
      s.shutQuieted h t = false ∧
      (s.streams h = false ∨ s.inRun = false ∨ s.flag (F.CX_SCFG_EN h) = false ∨ (s.prof h).shutType = 0 ∨ s.coilFault h = true ∨ s.isRetired (20 + h) = true) :=
  ⟨3, 60000000007, 7, { (wShut 3 { endAt := some 7 } 0).put (F.CX_SSCHED_PERIOD 3) 1 with mode := .setup }, by decide +kernel⟩

theorem test_shutterCalibrationRequests_5_hypotheses :
    ∃ (h : Head) (t : Nat) (e : Nat) (s : State),
      s.inRun = true ∧
      s.get (F.CX_SSCHED_PERIOD h) ≠ 0 ∧
      ((s.shut h).endAt <|> (s.head h).firstRunStart) = some e ∧
      e + s.get (F.CX_SSCHED_PERIOD h) * 60000000000 ≤ t ∧
      (s.shut h).active = false ∧
      s.shutQuieted h t = false ∧
      s.streams h = true ∧
      s.flag (F.CX_SCFG_EN h) = true ∧
      (s.prof h).shutType ≠ 0 ∧
      s.coilFault h = false ∧
      s.isRetired (20 + h) = false :=
  ⟨3, 60000000007, 7, (wShut 3 { endAt := some 7 } 0).put (F.CX_SSCHED_PERIOD 3) 1, by decide +kernel⟩

theorem test_shutterCalibrationRequests_6_hypotheses :
    ∃ (h : Head) (s : State),
      s.access (R.CX_SCMD h) = true ∧
      (s.shut h).active = true ∧
      s.get (F.CX_SSTAT_PHASE h) = 1 :=
  ⟨3, wShut 3 { active := true } 1, by decide +kernel⟩

theorem test_shutterCalibrationRequests_7_hypotheses :
    ∃ (h : Head) (s : State),
      s.access (R.CX_SCMD h) = true ∧
      (s.shut h).active = true :=
  ⟨3, wShut 3 { active := true } 3, by decide +kernel⟩

theorem test_shutterCalibrationRequests_8_hypotheses :
    ∃ (h : Head) (s : State),
      s.access (R.CX_SCMD h) = true ∧
      (s.shut h).active = false :=
  ⟨3, wShut 3 {} 0, by decide +kernel⟩

theorem test_shutterCalibrationRequests_9_hypotheses :
    ∃ (h : Head) (v : Word) (s : State),
      s.access (R.CX_SQLEN h) = true ∧
      v = 0 :=
  ⟨3, 0, wSetup, by decide +kernel⟩

theorem test_shutterCalibrationRequests_10_hypotheses :
    ∃ (h : Head) (v : Word) (s : State),
      s.access (R.CX_SQLEN h) = true ∧
      v ≠ 0 :=
  ⟨3, 9, wSetup, by decide +kernel⟩

theorem test_shutterCalibrationRequests_11_hypotheses :
    ∃ (h : Head) (t : Nat) (a : Nat) (e : Nat) (s : State),
      (s.shut h).quiet = some (a, e) ∧
      e ≤ t :=
  ⟨3, 9000, 5, 9000, wShut 3 { quiet := some (5, 9000) } 0, by decide +kernel⟩

theorem test_shutterCalibrationRequests_12_hypotheses :
    ∃ (h : Head) (t : Nat) (s : State),
      (s.shut h).active = true ∧
      s.get (F.CX_SSTAT_PHASE h) = 1 ∧
      (s.head h).lastStart = some t ∧
      s.inQuiet h t = true ∧
      s.pastDeadline h t = false ∧
      s.shutBasesOk h = true ∧
      (s.shut h).granted = true ∨ (s.churnAsk .m3 h true t).1 = .granted :=
  ⟨3, 50, { wPlaced { active := true } 1 with churnRun := [{ act := .m10, res := 1 }] }, by decide +kernel⟩

theorem test_shutterCalibrationRequests_13_hypotheses :
    ∃ (h : Head) (t : Nat) (s : State),
      (s.shut h).active = true ∧
      s.get (F.CX_SSTAT_PHASE h) = 1 ∧
      (s.head h).lastStart = some t ∧
      s.inQuiet h t = true ∧
      s.pastDeadline h t = false ∧
      s.shutBasesOk h = true ∧
      (s.shut h).granted = false ∧
      (s.churnAsk .m3 h true t).1 ≠ .granted :=
  ⟨3, 50, { wPlaced { active := true } 1 with churnRun := [{ act := .m4, res := 3 }] }, by decide +kernel⟩

theorem test_shutterCalibrationRequests_14_hypotheses :
    ∃ (h : Head) (t : Nat) (s : State),
      (s.shut h).active = true ∧
      s.get (F.CX_SSTAT_PHASE h) = 1 ∧
      (s.head h).lastStart = some t ∧
      s.inQuiet h t = true ∧
      s.pastDeadline h t = false ∧
      s.shutBasesOk h = false :=
  ⟨3, 50, (wPlaced { active := true } 1).put (F.CL_HLB_BASE 3) 1, by decide +kernel⟩

theorem test_shutterCalibrationRequests_15_hypotheses :
    ∃ (h : Head) (t : Nat) (s : State),
      (s.shut h).active = false ∨ s.get (F.CX_SSTAT_PHASE h) ≠ 1 ∨ s.inQuiet h t = false :=
  ⟨3, 50, (wPlaced { active := true } 1).put (F.CX_SCFG_QUIET_REQ 3) 1, by decide +kernel⟩

theorem test_shutterCalibrationRequests_16_hypotheses :
    ∃ (h : Head) (t : Nat) (s : State),
      (s.shut h).active = true ∧
      s.get (F.CX_SSTAT_PHASE h) = 1 ∧
      (s.head h).lastStart = some t ∧
      s.pastDeadline h t = true ∧
      s.flag (F.CX_SCFG_DLACT h) = true ∧
      s.shutBasesOk h = true ∧
      (s.shut h).granted = true ∨ (s.churnAsk .m3 h true t).1 = .granted :=
  ⟨3, 1000000000, (((wPlaced { active := true } 1).put (F.CX_SCFG_DLSEC 3) 1).put (F.CX_SCFG_DLACT 3) 1).modHead 3 fun u => { u with lastStart := some 1000000000 }, by decide +kernel⟩

theorem test_shutterCalibrationRequests_17_hypotheses :
    ∃ (h : Head) (t : Nat) (s : State),
      (s.shut h).active = true ∧
      s.get (F.CX_SSTAT_PHASE h) = 1 ∧
      (s.head h).lastStart = some t ∧
      s.pastDeadline h t = true ∧
      s.flag (F.CX_SCFG_DLACT h) = false ∧
      s.shutBasesOk h = true ∧
      (s.churnRun.any fun j => waitPair j.act .m3 && sameResource j.act j.res .m3 h) = true :=
  ⟨3, 1000000000, { ((wPlaced { active := true } 1).put (F.CX_SCFG_DLSEC 3) 1).modHead 3 fun u => { u with lastStart := some 1000000000 } with churnRun := [{ act := .m4, res := 3 }] }, by decide +kernel⟩

theorem test_shutterCalibrationRequests_18_hypotheses :
    ∃ (h : Head) (t : Nat) (s : State),
      (s.shut h).active = true ∧
      s.get (F.CX_SSTAT_PHASE h) = 1 ∧
      (s.head h).lastStart = some t ∧
      s.pastDeadline h t = true ∧
      s.flag (F.CX_SCFG_DLACT h) = false ∧
      s.shutBasesOk h = true ∧
      (s.churnRun.any fun j => waitPair j.act .m3 && sameResource j.act j.res .m3 h) = false :=
  ⟨3, 1000000000, ((wPlaced { active := true } 1).put (F.CX_SCFG_DLSEC 3) 1).modHead 3 fun u => { u with lastStart := some 1000000000 }, by decide +kernel⟩

theorem test_shutterCalibrationRequests_19_hypotheses :
    ∃ (h : Head) (s : State),
      (s.shut h).active = true ∧
      within (s.get (F.CX_SSTAT_PHASE h)) 2 4 = true ∧
      (s.prof h).shutSettle + 8 * s.get (F.CX_SCFG_NINT h) + 64 < (s.shut h).slots :=
  ⟨3, wShut 3 { active := true, slots := 500 } 2, by decide +kernel⟩

theorem test_shutterCalibrationRequests_20_hypotheses :
    ∃ (h : Head) (s : State),
      (s.shut h).active = true ∧
      s.get (F.CX_SSTAT_PHASE h) = 4 ∧
      s.inRun = true ∧
      s.coilFault h = false ∧
      (s.prof h).shutSettle + 8 * s.get (F.CX_SCFG_NINT h) + 64 < (s.shut h).slots :=
  ⟨3, wShut 3 { active := true, slots := 500 } 4, by decide +kernel⟩

theorem test_shutterCalibrationRequests_21_hypotheses :
    ∃ (h : Head) (s : State),
      s.access (R.CX_SCMD h) = true :=
  ⟨3, (wShut 3 {} 0).modHead 3 fun u => { u with brefSet := true }, by decide +kernel⟩

theorem test_shutterCalibrationResults_1_hypotheses :
    ∃ (h : Head) (fa : Frame) (fb : Frame) (s : State),
      (s.shut h).lastA = some fa ∧
      (s.shut h).lastB = some fb ∧
      (s.shut h).active = true ∧
      5 ≤ s.get (F.CX_SSTAT_PHASE h) ∧
      (s.shut h).applyDone = false :=
  ⟨3, wFrame3, wFrame3, ((wPages (wShut 3 { active := true, lastA := some wFrame3, lastB := some wFrame3 } 5)).put (F.CX_DFCFG_DEPTH 3) 2).put (F.CX_DHIST_BASE 3) 16, by decide +kernel⟩

theorem test_shutterCalibrationResults_2_hypotheses :
    ∃ (h : Head) (s : State),
      (s.shut h).active = false ∨ s.get (F.CX_SSTAT_PHASE h) < 5 ∨ (s.shut h).applyDone = true :=
  ⟨3, wShut 3 { active := true, lastA := some wFrame3, lastB := some wFrame3 } 4, by decide +kernel⟩

theorem test_shutterCalibrationResults_3_hypotheses :
    ∃ (h : Head) (s : State),
      s.access (R.CX_SCMD h) = true ∧
      s.streams h = true ∧
      s.inRun = true ∧
      (s.churnAsk .m4 h true s.dt).1 ≠ .refused :=
  ⟨3, wShut 3 {} 0, by decide +kernel⟩

theorem test_shutterCalibrationResults_4_hypotheses :
    ∃ (h : Head) (s : State),
      s.access (R.CX_SCMD h) = true ∧
      s.streams h = true ∧
      s.inRun = true ∧
      (s.churnAsk .m4 h true s.dt).1 = .refused :=
  ⟨3, { wShut 3 {} 0 with churnRun := [{ act := .m4, res := 3 }] }, by decide +kernel⟩

theorem test_shutterCalibrationResults_5_hypotheses :
    ∃ (h : Head) (s : State),
      s.access (R.CX_SCMD h) = true ∧
      s.streams h = false ∨ s.inRun = false :=
  ⟨3, wSetup, by decide +kernel⟩

theorem test_shutterCalibrationResults_6_hypotheses :
    ∃ (h : Head) (s : State),
      (s.shut h).refitPhase = 1 :=
  ⟨3, wShut 3 { refitPhase := 1 } 0, by decide +kernel⟩

theorem test_shutterCalibrationResults_7_hypotheses :
    ∃ (h : Head) (s : State),
      (s.shut h).refitPhase = 2 ∧
      s.refitPlan h = none :=
  ⟨3, wShut 3 { refitPhase := 2 } 0, by decide +kernel⟩

theorem test_shutterCalibrationResults_8_hypotheses :
    ∃ (h : Head) (s : State),
      (s.shut h).refitPhase = 2 :=
  ⟨3, wPlanes 2, by decide +kernel⟩

theorem test_shutterCalibrationResults_9_hypotheses :
    ∃ (h : Head) (g : RefitPlan) (s : State),
      (s.shut h).refitPhase = 2 ∧
      s.refitPlan h = some g ∧
      s.get (F.CX_SLIM_FAILPM h) * (s.refitAll h g).2.1 < 1000 * (s.refitAll h g).2.2 :=
  ⟨3, wPlan (wPlanesBad 2), wPlanesBad 2, by decide +kernel⟩

theorem test_shutterCalibrationResults_10_hypotheses :
    ∃ (h : Head) (g : RefitPlan) (s : State),
      (s.shut h).refitPhase = 2 ∧
      s.refitPlan h = some g ∧
      1000 * (s.refitAll h g).2.2 ≤ s.get (F.CX_SLIM_FAILPM h) * (s.refitAll h g).2.1 ∧
      (s.churnAsk .m5 (3 * h) true s.dt).1 = .granted :=
  ⟨3, wPlan (wPlanesNone 2), wPlanesNone 2, by decide +kernel⟩

theorem test_shutterCalibrationResults_11_hypotheses :
    ∃ (h : Head) (g : RefitPlan) (s : State),
      (s.shut h).refitPhase = 4 ∧
      s.refitPlan h = some g :=
  ⟨3, wPlan (wPlanes 4), wPlanes 4, by decide +kernel⟩

theorem test_shutterCalibrationResults_12_hypotheses :
    ∃ (h : Head) (s : State),
      (s.shut h).refitPhase ≠ 4 :=
  ⟨3, wPlanes 2, by decide +kernel⟩

theorem test_shutterCalibrationResults_13_hypotheses :
    ∃ (h : Head) (s : State),
      (s.shut h).refitPhase = 4 ∧
      s.refitPlan h = none :=
  ⟨3, wShut 3 { refitPhase := 4 } 0, by decide +kernel⟩

theorem test_microcodeLoadsByBlock_1_hypotheses :
    ∃ (v : Word) (s : State),
      s.access R.EN_MCMD = true ∧
      s.mode = .setup ∧
      v.toNat % 65536 ≠ 0 ∧
      s.mcLoad = none ∧
      s.mcHeader (4096 * s.get F.EN_MCBASE_BASE) = 1 :=
  ⟨0x1004, wMc, by decide +kernel⟩

theorem test_microcodeLoadsByBlock_2_hypotheses :
    ∃ (v : Word) (s : State),
      s.access R.EN_MCMD = true ∧
      s.inRun = true ∧
      v.toNat % 65536 ≠ 0 ∧
      s.mcLoad = none ∧
      s.mcHeader (4096 * s.get F.EN_MCBASE_BASE) = 1 ∧
      (s.churnRun ++ s.churnQueue).all (fun j => j.act != .m6) = true :=
  ⟨0x1004, { wMc with mode := .run }, by decide +kernel⟩

theorem test_microcodeLoadsByBlock_3_hypotheses :
    ∃ (v : Word) (s : State),
      s.access R.EN_MCMD = true ∧
      v.toNat % 65536 = 0 ∨ (s.mode ≠ .setup ∧ s.inRun = false) ∧
      s.mcLoad = none :=
  ⟨0, wRun, by decide +kernel⟩

theorem test_microcodeLoadsByBlock_4_hypotheses :
    ∃ (v : Word) (s : State),
      s.access R.EN_MCMD = true ∧
      s.mode = .setup ∨ s.inRun = true ∧
      v.toNat % 65536 ≠ 0 ∧
      s.mcLoad = none ∧
      s.mcHeader (4096 * s.get F.EN_MCBASE_BASE) ≠ 1 :=
  ⟨4, wSetup, by decide +kernel⟩

theorem test_microcodeLoadsByBlock_5_hypotheses :
    ∃ (v : Word) (l : McLoad) (s : State),
      s.access R.EN_MCMD = true ∧
      s.mode = .setup ∨ s.inRun = true ∧
      v.toNat % 65536 ≠ 0 ∧
      s.mcLoad = some l :=
  ⟨4, { left := [11], cur := some 11 }, { wRun with mcLoad := some { left := [11], cur := some 11 } }, by decide +kernel⟩

theorem test_microcodeLoadsByBlock_6_hypotheses :
    ∃ (b : Block) (l : McLoad) (s : State),
      s.mcLoad = some l ∧
      l.cur = some b.val ∧
      s.bankHeld b = false :=
  ⟨11, { left := [11, 12, 13], cur := some 11 }, { wRun with mcLoad := some { left := [11, 12, 13], cur := some 11 } }, by decide +kernel⟩

theorem test_microcodeLoadsByBlock_7_hypotheses :
    ∃ (s : State),
      s.access R.EN_MCMD = true ∧
      s.get F.EN_MCSTAT_RESULT = 1 :=
  ⟨wSetup.put F.EN_MCSTAT_RESULT 1, by decide +kernel⟩

theorem test_microcodeLoadsByBlock_8_hypotheses :
    ∃ (s : State),
      s.access R.EN_MCMD = true ∧
      s.get F.EN_MCSTAT_RESULT ≠ 1 :=
  ⟨wRun, by decide +kernel⟩

theorem test_microcodeLoadsByBlock_9_hypotheses :
    ∃ (s : State),
      s.access R.EN_MCMD = true ∧
      s.mcActive.2 < 2 ^ 32 :=
  ⟨{ wSetup.put F.EN_MCMIN_SVN 4 with mcActive := (3, 9) }, by decide +kernel⟩

theorem test_cellsRetireRotateAndReturn_1_hypotheses :
    ∃ (b : Block) (tg : List Word) (sh : List Word) (th : List Word) (q : Quire) (c : Nat) (x : Nat) (s : State),
      (s.quires.find? fun q => q.third && q.stage != .ready && q.ranOn.any fun e => e.1 == b.val) = some q ∧
      q.ranOn = some (b.val, c) ∧
      q.shadow = some x ∧
      x < 7 ∧
      tg ≠ sh ∧
      tg = th :=
  ⟨2, [1], [2], [1], wShadowed, 1, 6, wThird, by decide +kernel⟩

theorem test_cellsRetireRotateAndReturn_2_hypotheses :
    ∃ (b : Block) (tg : List Word) (sh : List Word) (th : List Word) (q : Quire) (c : Nat) (x : Nat) (s : State),
      (s.quires.find? fun q => q.third && q.stage != .ready && q.ranOn.any fun e => e.1 == b.val) = some q ∧
      q.ranOn = some (b.val, c) ∧
      q.shadow = some x ∧
      c < 7 ∧
      tg ≠ sh ∧
      tg ≠ th ∧
      sh = th :=
  ⟨2, [1], [2], [2], wShadowed, 1, 6, wThird, by decide +kernel⟩

theorem test_cellsRetireRotateAndReturn_3_hypotheses :
    ∃ (b : Block) (tg : List Word) (sh : List Word) (th : List Word) (q : Quire) (c : Nat) (x : Nat) (s : State),
      (s.quires.find? fun q => q.third && q.stage != .ready && q.ranOn.any fun e => e.1 == b.val) = some q ∧
      q.ranOn = some (b.val, c) ∧
      q.shadow = some x ∧
      tg ≠ sh ∧
      tg ≠ th ∧
      sh ≠ th :=
  ⟨2, [1], [2], [3], wShadowed, 1, 6, wThird, by decide +kernel⟩

theorem test_cellsRetireRotateAndReturn_4_hypotheses :
    ∃ (b : Block) (c : Nat) (x : Nat) (l : List Nat) (s : State),
      (s.block b).target = some c ∧
      s.cellsIn b cellShadow = x :: l ∧
      c < 7 ∧
      c ≠ x ∧
      s.get (F.EN_SHCFG_COUNT b) ≤ (s.block b).agree ∧
      s.cellBusy b c = false ∧
      s.cellBusy b x = false :=
  ⟨2, 1, 6, [], { (wThird.put (F.EN_SHCFG_COUNT 2) 9) with quires := [] }, by decide +kernel⟩

theorem test_cellsRetireRotateAndReturn_5_hypotheses :
    ∃ (b : Block) (s : State),
      s.access (R.EN_BCMD b) = true ∧
      s.mode = .setup :=
  ⟨2, wSetup.setCell 2 5 cellRetired, by decide +kernel⟩

theorem test_cellsRetireRotateAndReturn_6_hypotheses :
    ∃ (b : Block) (s : State),
      s.access (R.EN_BCMD b) = true ∧
      s.mode ≠ .setup :=
  ⟨2, wRun, by decide +kernel⟩

theorem test_cellsRetireRotateAndReturn_7_hypotheses :
    ∃ (b : Block) (c : Cell) (s : State),
      (s.block b).unret.contains c.val = true ∧
      (s.cellsIn b cellInService).length < 6 :=
  ⟨2, 5, (wSetup.setCell 2 5 cellRetired).modBlock 2 fun u => { u with unret := [5] }, by decide +kernel⟩

theorem test_cellsRetireRotateAndReturn_8_hypotheses :
    ∃ (b : Block) (c : Cell) (s : State),
      (s.block b).unret.contains c.val = true ∧
      6 ≤ (s.cellsIn b cellInService).length :=
  ⟨2, 6, wSetup.modBlock 2 fun u => { u with unret := [6] }, by decide +kernel⟩

theorem test_cellsRetireRotateAndReturn_9_hypotheses :
    ∃ (b : Block) (c : Cell) (s : State),
      (s.block b).unret.contains c.val = true :=
  ⟨2, 5, (wSetup.setCell 2 5 cellRetired).modBlock 2 fun u => { u with unret := [5] }, by decide +kernel⟩

theorem test_recipesAndPipes_1_hypotheses :
    ∃ (n : Fin 8) (s : State),
      s.access R.EN_RCMD = true ∧
      s.recipeLoad = none ∧
      (s.recipeInUse n || s.txnQ.any fun m => (s.txn m).entries.any fun e => !e.undo && e.addr == R.EN_HRCP e.head && recipeNames e.val.toNat n) = false :=
  ⟨5, wSetup, by decide +kernel⟩

theorem test_recipesAndPipes_2_hypotheses :
    ∃ (n : Fin 8) (s : State),
      s.access R.EN_RCMD = true ∧
      ((s.recipeInUse n || s.txnQ.any fun m => (s.txn m).entries.any fun e => !e.undo && e.addr == R.EN_HRCP e.head && recipeNames e.val.toNat n) || s.recipeLoad.isSome) = true :=
  ⟨5, (wRun.put (F.HP_STAT_STREAM 3) 1).put (F.EN_HRCP_POINTS 3) 0xD, by decide +kernel⟩

theorem test_recipesAndPipes_3_hypotheses :
    ∃ (l : RecipeLoad) (s : State),
      s.recipeLoad = some l ∧
      l.slot < 8 ∧
      l.code < 8 :=
  ⟨{ slot := 5, code := 1, image := [5] }, { wSetup with recipeLoad := some { slot := 5, code := 1, image := [5] } }, by decide +kernel⟩

theorem test_recipesAndPipes_4_hypotheses :
    ∃ (r : Region) (f : Frame) (sw : Bool) (s : State),
      s.inRun = true ∧
      s.pipePick r = some (f, sw) ∧
      f.begun = true ∧
      s.frame f.head f.seq = some f ∧
      f.taken + 1 < f.quires ∧
      (({ f with taken := f.taken + 1 } : Frame).rulesDue (16 * (f.taken + 1)) false).isEmpty = true ∧
      f.head < 8 :=
  ⟨1, wPicture, false, { wRun with frames := [wPicture] }, by decide +kernel⟩

theorem test_recipesAndPipes_5_hypotheses :
    ∃ (r : Region) (f : Frame) (sw : Bool) (s : State),
      s.inRun = true ∧
      s.pipePick r = some (f, sw) ∧
      s.frame f.head f.seq = some f ∧
      f.head < 8 :=
  ⟨1, wLastTake, false, { wRun with frames := [wLastTake] }, by decide +kernel⟩

theorem test_recipesAndPipes_6_hypotheses :
    ∃ (r : Region) (f : Frame) (sw : Bool) (s : State),
      s.inRun = true ∧
      s.pipePick r = some (f, sw) ∧
      f.begun = true ∧
      s.frame f.head f.seq = some f :=
  ⟨1, wPicture, false, { wRun with frames := [wPicture] }, by decide +kernel⟩

theorem test_recipesAndPipes_7_hypotheses :
    ∃ (h : Head) (f : Frame) (s : State),
      s.mode ≠ .reset ∧
      s.mode ≠ .dormant ∧
      s.mode ≠ .safe ∧
      (s.frames.find? fun f => f.head == h.val && !f.reported) = some f ∧
      f.decimated = false ∧
      f.held = false ∧
      f.mute = false ∧
      f.role = .picture ∧
      f.finished = true ∧
      f.complete = true :=
  ⟨3, { wPicture with taken := 2 }, { wRun with frames := [{ wPicture with taken := 2 }, { wPicture with seq := 41 }] }, by decide +kernel⟩

theorem test_recipesAndPipes_8_hypotheses :
    ∃ (h : Head) (f : Frame) (s : State),
      s.mode = .run ∧
      s.power.trans = none ∧
      (s.frames.filter fun f => f.head == h.val && !f.reported) = [f] ∧
      f.outputs = true ∧
      f.finished = true ∧
      f.complete = true :=
  ⟨3, { wPicture with taken := 2 }, { wRun with frames := [{ wPicture with taken := 2 }] }, by decide +kernel⟩

theorem test_csiPortsSendFrames_1_hypotheses :
    ∃ (p : Fin 4) (s : State),
      s.access (R.TX_CFG p) = true ∧
      s.mode ≠ .setup :=
  ⟨2, wRun, by decide +kernel⟩

theorem test_csiPortsSendFrames_2_hypotheses :
    ∃ (p : Fin 4) (v : Word) (s : State),
      s.access (R.TX_CFG p) = true ∧
      s.mode = .setup ∧
      fieldOf (F.TX_CFG_LANES p) v = 3 :=
  ⟨2, 6, wSetup, by decide +kernel⟩

theorem test_csiPortsSendFrames_3_hypotheses :
    ∃ (p : Fin 4) (v : Word) (s : State),
      s.access (R.TX_CFG p) = true ∧
      s.mode = .setup ∧
      fieldOf (F.TX_CFG_LANES p) v ≠ 3 ∧
      fieldOf (F.TX_CFG_EN p) v = 0 ∧
      fieldOf (F.TX_CFG_CLRCNT p) v = 0 :=
  ⟨2, 0, wSetup, by decide +kernel⟩

theorem test_csiPortsSendFrames_4_hypotheses :
    ∃ (p : Fin 4) (v : Word) (s : State),
      s.access (R.TX_CFG p) = true ∧
      s.mode = .setup ∧
      fieldOf (F.TX_CFG_LANES p) v ≠ 3 ∧
      fieldOf (F.TX_CFG_EN p) v = 1 ∧
      fieldOf (F.TX_CFG_CLRCNT p) v = 0 :=
  ⟨2, 1, wSetup, by decide +kernel⟩

theorem test_csiPortsSendFrames_5_hypotheses :
    ∃ (p : Fin 4) (s : State),
      s.access (R.TX_CFG p) = true ∧
      s.mode ≠ .setup :=
  ⟨2, wRun, by decide +kernel⟩

theorem test_csiPortsSendFrames_6_hypotheses :
    ∃ (p : Fin 4) (s : State),
      s.access (R.TX_CFG p) = true ∧
      s.mode = .setup :=
  ⟨2, wSetup.setReg (R.TX_CNT1 2) 9, by decide +kernel⟩

theorem test_csiPortsSendFrames_7_hypotheses :
    ∃ (p : Fin 4) (j : Nat) (b : BufRec) (s : State),
      s.csiOn p = true ∧
      s.csiPick p = some j ∧
      j < 8 ∧
      (s.port p).streams.length = 8 ∧
      ((s.port p).streams.getD j {}).sending = none ∧
      ((s.port p).streams.getD j {}).waiting = some b :=
  ⟨2, 1, { head := 3, kind := 0, idx := 0, seq := 65535, base := 0 }, wCsi { waiting := some { head := 3, kind := 0, idx := 0, seq := 65535, base := 0 } }, by decide +kernel⟩

theorem test_csiPortsSendFrames_8_hypotheses :
    ∃ (p : Fin 4) (j : Nat) (b : BufRec) (s : State),
      s.csiOn p = true ∧
      s.csiPick p = some j ∧
      j < 8 ∧
      (s.port p).streams.length = 8 ∧
      ((s.port p).streams.getD j {}).sending = some b ∧
      csiPart (s.flag (F.TX_CFG_LSE p)) b.oh ((s.port p).streams.getD j {}).next = .frameEnd :=
  ⟨2, 1, { head := 3, kind := 0, idx := 0, seq := 7, base := 0, oh := 2 }, wCsi { sending := some { head := 3, kind := 0, idx := 0, seq := 7, base := 0, oh := 2 }, next := 6 }, by decide +kernel⟩

theorem test_csiPortsSendFrames_9_hypotheses :
    ∃ (p : Fin 4) (stop : Bool) (j : Nat) (b : BufRec) (s : State),
      s.csiOn p = true ∧
      s.csiPick p = some j ∧
      j < 8 ∧
      (s.port p).streams.length = 8 ∧
      ((s.port p).streams.getD j {}).sending = some b ∧
      csiPart (s.flag (F.TX_CFG_LSE p)) b.oh ((s.port p).streams.getD j {}).next = .lineMark stop :=
  ⟨2, false, 1, { head := 3, kind := 0, idx := 0, seq := 7, base := 0, oh := 2, ow := 4, fmt := 1 }, (wCsi { sending := some { head := 3, kind := 0, idx := 0, seq := 7, base := 0, oh := 2, ow := 4, fmt := 1 }, next := 1 }).put (F.TX_CFG_LSE 2) 1, by decide +kernel⟩

theorem test_csiPortsSendFrames_10_hypotheses :
    ∃ (p : Fin 4) (j : Nat) (m : Nat) (b : BufRec) (s : State),
      s.csiOn p = true ∧
      s.csiPick p = some j ∧
      j < 8 ∧
      (s.port p).streams.length = 8 ∧
      ((s.port p).streams.getD j {}).sending = some b ∧
      csiPart (s.flag (F.TX_CFG_LSE p)) b.oh ((s.port p).streams.getD j {}).next = .long m :=
  ⟨2, 1, 1, { head := 3, kind := 0, idx := 0, seq := 7, base := 0, oh := 2, ow := 4, fmt := 1 }, wCsi { sending := some { head := 3, kind := 0, idx := 0, seq := 7, base := 0, oh := 2, ow := 4, fmt := 1 }, next := 2 }, by decide +kernel⟩

theorem test_csiPortsSendFrames_11_hypotheses :
    ∃ (p : Fin 4) (j : Nat) (m : Nat) (b : BufRec) (s : State),
      s.csiOn p = true ∧
      s.csiPick p = some j ∧
      j < 8 ∧
      (s.port p).streams.length = 8 ∧
      ((s.port p).streams.getD j {}).sending = some b ∧
      csiPart (s.flag (F.TX_CFG_LSE p)) b.oh ((s.port p).streams.getD j {}).next = .long m :=
  ⟨2, 1, 1, { head := 3, kind := 0, idx := 0, seq := 7, base := 0, oh := 2, ow := 4, fmt := 1 }, wCsi { sending := some { head := 3, kind := 0, idx := 0, seq := 7, base := 0, oh := 2, ow := 4, fmt := 1 }, next := 2 }, by decide +kernel⟩

/-- SETUP with monitor 31 on a source. -/
def wMon (src : Nat) : State := (wSetup.put (F.MON_CFG_EN 31) 1).put (F.MON_CFG_SRC 31) src

theorem test_monitorsCountAndSnapshot_1_hypotheses :
    ∃ (n : Fin 32) (v : Int) (w : Int) (t : Nat) (s : State),
      s.up = true ∧
      s.flag (F.MON_CFG_EN n) = true ∧
      s.monCount n = 0 ∧
      (s.get F.MON_PER_PER = 0 ∨ t < s.monWin + 1000 * s.get F.MON_PER_PER) ∧
      eventSource (s.get (F.MON_CFG_SRC n)) = false ∧
      s.sourceRuns (s.get (F.MON_CFG_SRC n)) (s.get (F.MON_CFG_SEL n)) = true ∧
      w = s.sampleValue (s.get (F.MON_CFG_SRC n)) (s.get (F.MON_CFG_SEL n)) v :=
  ⟨31, -5, -5, 9, wMon 6, by decide +kernel⟩

theorem test_monitorsCountAndSnapshot_2_hypotheses :
    ∃ (n : Fin 32) (v : Int) (w : Int) (t : Nat) (s : State),
      s.up = true ∧
      s.flag (F.MON_CFG_EN n) = true ∧
      s.monCount n < 2 ^ 64 - 1 ∧
      (s.get F.MON_PER_PER = 0 ∨ t < s.monWin + 1000 * s.get F.MON_PER_PER) ∧
      eventSource (s.get (F.MON_CFG_SRC n)) = false ∧
      s.sourceRuns (s.get (F.MON_CFG_SRC n)) (s.get (F.MON_CFG_SEL n)) = true ∧
      w = s.sampleValue (s.get (F.MON_CFG_SRC n)) (s.get (F.MON_CFG_SEL n)) v :=
  ⟨31, 63, 63, 9, (wMon 6).put (F.MON_CNT_LO_COUNT 31) 6, by decide +kernel⟩

theorem test_monitorsCountAndSnapshot_3_hypotheses :
    ∃ (n : Fin 32) (t : Nat) (e : Nat × Int × Nat) (s : State),
      s.up = true ∧
      s.flag (F.MON_CFG_EN n) = true ∧
      s.monCount n < 2 ^ 64 - 1 ∧
      (s.get F.MON_PER_PER = 0 ∨ t < s.monWin + 1000 * s.get F.MON_PER_PER) ∧
      eventSource (s.get (F.MON_CFG_SRC n)) = true ∧
      (s.samples.find? fun e => e.1 == n.val) = some e :=
  ⟨31, 9, (31, 77, 5), { wMon 1 with samples := [(30, 4, 1), (31, 77, 5)] }, by decide +kernel⟩

theorem test_monitorsCountAndSnapshot_4_hypotheses :
    ∃ (n : Fin 32) (t : Nat) (s : State),
      s.up = true ∧
      s.flag (F.MON_CFG_EN n) = true ∧
      (s.get F.MON_PER_PER = 0 ∨ t < s.monWin + 1000 * s.get F.MON_PER_PER) ∧
      eventSource (s.get (F.MON_CFG_SRC n)) = false ∧
      s.sourceRuns (s.get (F.MON_CFG_SRC n)) (s.get (F.MON_CFG_SEL n)) = false :=
  ⟨31, 9, { wMon 6 with lostChan := [0] }, by decide +kernel⟩

theorem test_monitorsCountAndSnapshot_5_hypotheses :
    ∃ (t : Nat) (s : State),
      s.access R.MON_SNAP = true ∧
      (∀ e ∈ s.samples, max s.dt t ≤ e.2.2) :=
  ⟨9, wSetup.setReg (R.MON_MIN 31) 6, by decide +kernel⟩

theorem test_monitorsCountAndSnapshot_6_hypotheses :
    ∃ (s : State),
      s.access R.MON_CLR = true :=
  ⟨(wSetup.setReg (R.MON_MIN 31) 6).setReg (R.MON_MIN 30) 6, by decide +kernel⟩

theorem test_monitorsCountAndSnapshot_7_hypotheses :
    ∃ (s : State),
      s.access R.MON_PER = true :=
  ⟨wSetup, by decide +kernel⟩

theorem test_monitorsCountAndSnapshot_8_hypotheses :
    ∃ (t : Nat) (s : State),
      s.up = true ∧
      s.get F.MON_PER_PER ≠ 0 ∧
      s.monWin + 1000 * s.get F.MON_PER_PER ≤ t ∧
      (∀ e ∈ s.samples, s.monWin + 1000 * s.get F.MON_PER_PER ≤ e.2.2) :=
  ⟨9000, (wSetup.put F.MON_PER_PER 9).put (F.MON_CFG_EN 31) 1, by decide +kernel⟩

theorem test_monitorsCountAndSnapshot_9_hypotheses :
    ∃ (n : Fin 32) (v : Word) (s : State),
      s.access (R.MON_CFG n) = true ∧
      (match monSelRange (fieldOf (F.MON_CFG_SRC n) v) with | some m => decide (fieldOf (F.MON_CFG_SEL n) v < m) | none => false) = true :=
  ⟨31, 0x90010007, wSetup, by decide +kernel⟩

theorem test_monitorsCountAndSnapshot_10_hypotheses :
    ∃ (n : Fin 32) (v : Word) (s : State),
      s.access (R.MON_CFG n) = true ∧
      (match monSelRange (fieldOf (F.MON_CFG_SRC n) v) with | some m => decide (fieldOf (F.MON_CFG_SEL n) v < m) | none => false) = false :=
  ⟨31, 0, wSetup, by decide +kernel⟩

theorem test_monitorsCountAndSnapshot_11_hypotheses :
    ∃ (n : Fin 32) (s : State),
      s.access (R.MON_CFG n) = true :=
  ⟨31, wSetup, by decide +kernel⟩

theorem test_transactionsOpenStageAndCommit_1_hypotheses :
    ∃ (n : Nat) (s : State),
      s.txnAccess = true ∧
      ((List.range 16).find? fun n => s.txnState n == 0) = some n ∧
      s.openRes.length = 2 :=
  ⟨0, wSetup, by decide +kernel⟩

theorem test_transactionsOpenStageAndCommit_2_hypotheses :
    ∃ (s : State),
      s.txnAccess = true ∧
      ((List.range 16).find? fun n => s.txnState n == 0) = none ∧
      s.openRes.length = 2 :=
  ⟨(List.range 16).foldl (fun (s : State) n => s.put (F.TXN_HSTAT_STATE n) 1) wSetup, by decide +kernel⟩

theorem test_transactionsOpenStageAndCommit_3_hypotheses :
    ∃ (v : Word) (n : Nat) (s : State),
      s.txnAccess = true ∧
      s.openHandle (s.get F.TXN_SHND_HANDLE) = some n ∧
      (stageClass (canonAddr (s.get F.TXN_SADDR_ADDR))).isSome = true ∧
      (bit v.toNat 1 = false ∨ ∀ h : Nat, h < 8 → canonAddr (s.get F.TXN_SADDR_ADDR) ≠ R.HCP_CMD h) ∧
      (s.txn n).entries.length < 4096 :=
  ⟨5, 2, (((wSetup.put (F.TXN_HSTAT_STATE 2) 1).put F.TXN_SHND_HANDLE 3).put F.TXN_SADDR_ADDR (R.HP_BIAS 3)).put F.TXN_SADDR_HEAD 3, by decide +kernel⟩

theorem test_transactionsOpenStageAndCommit_4_hypotheses :
    ∃ (v : Word) (n : Nat) (s : State),
      s.txnAccess = true ∧
      s.openHandle (s.get F.TXN_SHND_HANDLE) = some n ∧
      (stageClass (canonAddr (s.get F.TXN_SADDR_ADDR)) = none ∨ (bit v.toNat 1 = true ∧ ((List.range 8).any fun h => canonAddr (s.get F.TXN_SADDR_ADDR) == R.HCP_CMD h) = true)) :=
  ⟨5, 2, ((wSetup.put (F.TXN_HSTAT_STATE 2) 1).put F.TXN_SHND_HANDLE 3).put F.TXN_SADDR_ADDR 0, by decide +kernel⟩

theorem test_transactionsOpenStageAndCommit_5_hypotheses :
    ∃ (v : Word) (n : Nat) (s : State),
      s.txnAccess = true ∧
      s.openHandle (s.get F.TXN_SHND_HANDLE) = some n ∧
      (stageClass (canonAddr (s.get F.TXN_SADDR_ADDR))).isSome = true ∧
      (bit v.toNat 1 = false ∨ ∀ h : Nat, h < 8 → canonAddr (s.get F.TXN_SADDR_ADDR) ≠ R.HCP_CMD h) ∧
      4096 ≤ (s.txn n).entries.length :=
  ⟨5, 2, (((wSetup.put (F.TXN_HSTAT_STATE 2) 1).put F.TXN_SHND_HANDLE 3).put F.TXN_SADDR_ADDR (R.HP_BIAS 3)).modTxn 2 fun x => { x with entries := List.replicate 4096 { undo := false, head := 3, addr := R.HP_BIAS 3, val := 1 } }, by decide +kernel⟩

theorem test_transactionsOpenStageAndCommit_6_hypotheses :
    ∃ (d : Fin 32) (n : Nat) (s : State),
      s.txnAccess = true ∧
      s.openHandle d = some n ∧
      (s.txn n).planWait = false ∧
      (s.txn n).entries = [] ∧
      s.commitEntries (s.candidate []) (listedHeads (s.reg R.TXN_CCFG)) [] = (0, 0xFFFF) ∧
      ((listedHeads (s.reg R.TXN_CCFG)).all fun h => s.streams h) = true ∧
      s.txnQ.contains n = false ∧
      s.commitRoom (listedHeads (s.reg R.TXN_CCFG)) = 0 ∧
      (s.txnQ.all fun m => (s.txn m).heads.all fun x => !x.idle || x.switched) = true :=
  ⟨3, 2, ({ wTxn 1 {} with txnQ := [] }).put F.TXN_CCFG_HEADS 8, by decide +kernel⟩

theorem test_transactionsOpenStageAndCommit_7_hypotheses :
    ∃ (d : Fin 32) (n : Nat) (s : State),
      s.txnAccess = true ∧
      s.openHandle d = some n ∧
      (s.txn n).planWait = false ∧
      s.commitEntries (s.candidate (s.txn n).entries) (listedHeads (s.reg R.TXN_CCFG)) (s.txn n).entries = (0, 0xFFFF) ∧
      s.commitPlans (s.candidate (s.txn n).entries) (s.txn n).entries = false ∧
      s.loadPorts (s.candidate (s.txn n).entries) = [] ∧
      ((s.txn n).entries.all fun e => e.swaps.isEmpty) = true ∧
      ((listedHeads (s.reg R.TXN_CCFG)).all fun h => s.streams h) = true ∧
      s.txnQ.contains n = false ∧
      s.commitRoom (listedHeads (s.reg R.TXN_CCFG)) = 0 ∧
      (s.txnQ.all fun m => (s.txn m).heads.all fun x => !x.idle || x.switched) = true :=
  ⟨3, 2, ({ wTxn 1 { entries := [{ undo := false, head := 3, addr := R.HP_BIAS 3, val := 1 }] } with txnQ := [] }).put F.TXN_CCFG_HEADS 8, by decide +kernel⟩

theorem test_transactionsOpenStageAndCommit_8_hypotheses :
    ∃ (d : Fin 32) (n : Nat) (s : State),
      s.txnAccess = true ∧
      s.openHandle d = some n ∧
      (s.txn n).planWait = false ∧
      s.commitEntries (s.candidate (s.txn n).entries) (listedHeads (s.reg R.TXN_CCFG)) (s.txn n).entries = (0, 0xFFFF) ∧
      s.commitPlans (s.candidate (s.txn n).entries) (s.txn n).entries = false ∧
      s.loadPorts (s.candidate (s.txn n).entries) = [] ∧
      ((s.txn n).entries.all fun e => e.swaps.isEmpty) = true ∧
      s.commitRoom (listedHeads (s.reg R.TXN_CCFG)) ≠ 0 :=
  ⟨3, 2, (({ wTxn 1 { entries := [{ undo := false, head := 3, addr := R.HP_BIAS 3, val := 1 }] } with txnQ := [] }).put F.TXN_CCFG_HEADS 8).modHead 3 fun u => { u with gen := 0xFFFFFFFF }, by decide +kernel⟩

theorem test_transactionsOpenStageAndCommit_9_hypotheses :
    ∃ (d : Fin 32) (n : Nat) (s : State),
      s.txnAccess = true ∧
      s.openHandle d = some n ∧
      (s.txn n).planWait = false ∧
      s.commitEntries (s.candidate (s.txn n).entries) (listedHeads (s.reg R.TXN_CCFG)) (s.txn n).entries = (0, 0xFFFF) ∧
      s.commitPlans (s.candidate (s.txn n).entries) (s.txn n).entries = true :=
  ⟨3, 2, ({ wTxn 1 { entries := [{ undo := false, head := 3, addr := R.HP_FPER 3, val := 600000 }] } with txnQ := [] }).put F.TXN_CCFG_HEADS 8, by decide +kernel⟩

theorem test_transactionsOpenStageAndCommit_10_hypotheses :
    ∃ (d : Fin 32) (n : Nat) (entry : Nat) (s : State),
      s.txnAccess = true ∧
      s.openHandle d = some n ∧
      (s.txn n).planWait = false ∧
      s.commitEntries (s.candidate (s.txn n).entries) (listedHeads (s.reg R.TXN_CCFG)) (s.txn n).entries = (4, entry) :=
  ⟨3, 2, 0, ({ wTxn 1 { entries := [{ undo := false, head := 5, addr := R.HP_BIAS 5, val := 1 }] } with txnQ := [] }).put F.TXN_CCFG_HEADS 8, by decide +kernel⟩

theorem test_transactionsOpenStageAndCommit_11_hypotheses :
    ∃ (d : Fin 32) (n : Nat) (entry : Nat) (s : State),
      s.txnAccess = true ∧
      s.openHandle d = some n ∧
      (s.txn n).planWait = false ∧
      s.commitEntries (s.candidate (s.txn n).entries) (listedHeads (s.reg R.TXN_CCFG)) (s.txn n).entries = (3, entry) :=
  ⟨3, 2, 0, ({ wTxn 1 { entries := [{ undo := false, head := 3, addr := R.HP_FPER 3, val := 1 }] } with txnQ := [] }).put F.TXN_CCFG_HEADS 8, by decide +kernel⟩

theorem test_transactionsOpenStageAndCommit_12_hypotheses :
    ∃ (d : Fin 32) (n : Nat) (s : State),
      s.txnAccess = true ∧
      s.openHandle d = some n ∧
      (s.txn n).planWait = false ∧
      s.get F.TXN_CCFG_HEADS = 0 :=
  ⟨3, 2, { wTxn 1 {} with txnQ := [] }, by decide +kernel⟩

theorem test_transactionsOpenStageAndCommit_13_hypotheses :
    ∃ (d : Fin 32) (s : State),
      s.txnAccess = true ∧
      (∀ n, s.openHandle d = some n → (s.txn n).planWait = true) :=
  ⟨4, wTxn 1 {}, by decide +kernel⟩

theorem test_transactionsOpenStageAndCommit_14_hypotheses :
    ∃ (d : Fin 32) (n : Nat) (s : State),
      s.txnAccess = true ∧
      s.openHandle d = some n :=
  ⟨3, 2, { wTxn 1 { cmd := some (5, 7) } with txnQ := [] }, by decide +kernel⟩

theorem test_transactionsOpenStageAndCommit_15_hypotheses :
    ∃ (d : Fin 32) (n : Nat) (s : State),
      s.txnAccess = true ∧
      d.val = n + 1 ∧
      n < 16 ∧
      s.txnState n = 2 :=
  ⟨3, 2, wTxn 2 { heads := [{ head := 3, k := some 5 }] }, by decide +kernel⟩

theorem test_transactionsOpenStageAndCommit_16_hypotheses :
    ∃ (d : Fin 32) (s : State),
      s.txnAccess = true ∧
      (d.val = 0 ∨ 16 < d.val ∨ ¬ (s.txnState (d - 1) = 1 ∨ s.txnState (d - 1) = 2)) :=
  ⟨0, wTxn 2 {}, by decide +kernel⟩

theorem test_transactionsOpenStageAndCommit_17_hypotheses :
    ∃ (n : Fin 16) (t : Nat) (s : State),
      2 ≤ s.txnState n ∧
      s.txnState n ≤ 4 ∧
      fieldOf F.TXN_CCFG_DLMS (s.txn n).ccfg ≠ 0 ∧
      (s.txn n).accAt + fieldOf F.TXN_CCFG_DLMS (s.txn n).ccfg * 1000000 ≤ t ∧
      ((s.txn n).heads.all fun x => x.k.isNone) = true ∧
      ((s.txn n).heads.any fun x => !x.idle) = true ∧
      ((s.txn n).heads.any fun x => x.began && !x.switched) = false ∧
      s.txnQ.contains n.val = true ∧
      s.dependents n = [] ∧
      (s.txnQ.all fun m => m == n.val || (s.txn m).heads.all fun x => !x.idle || x.switched) = true :=
  ⟨2, 5000000, wTxn 2 { ccfg := withField F.TXN_CCFG_DLMS 5 (withField F.TXN_CCFG_MODE 1 0), heads := [{ head := 3 }] }, by decide +kernel⟩

theorem test_transactionHeadWritesAndUndo_1_hypotheses :
    ∃ (n : Fin 16) (h : Head) (t : Nat) (b : Nat) (o : Nat) (x : TxnHead) (s : State),
      s.txnHead n h = some x ∧
      (s.head h).blankFrom = some b ∧
      (s.txnState n = 2 ∨ s.txnState n = 3) ∧
      x.k = some ((s.head h).starts + 1) ∧
      x.began = false ∧
      x.done = false ∧
      x.queued = false ∧
      b ≤ t ∧
      (s.head h).hcpOwner = o + 1 ∧
      o ≠ n ∧
      ((s.txnHead o h).all fun y => s.txnState o != 5 || !y.waiting || y.err == 0) = true :=
  ⟨2, 3, 90, 80, 4, { head := 3, k := some 1 }, (wTxn 2 { heads := [{ head := 3, k := some 1 }] }).modHead 3 fun u => { u with blankFrom := some 80, hcpOwner := 5 }, by decide +kernel⟩

theorem test_transactionHeadWritesAndUndo_2_hypotheses :
    ∃ (n : Fin 16) (h : Head) (t : Nat) (b : Nat) (x : TxnHead) (s : State),
      s.txnHead n h = some x ∧
      (s.head h).blankFrom = some b ∧
      (s.txnState n = 2 ∨ s.txnState n = 3) ∧
      x.k = some ((s.head h).starts + 1) ∧
      x.began = false ∧
      x.done = false ∧
      x.queued = false ∧
      b ≤ t :=
  ⟨2, 3, 90, 80, { head := 3, k := some 1 }, (wTxn 2 { heads := [{ head := 3, k := some 1 }] }).modHead 3 fun u => { u with blankFrom := some 80 }, by decide +kernel⟩

theorem test_transactionHeadWritesAndUndo_3_hypotheses :
    ∃ (n : Fin 16) (h : Head) (x : TxnHead) (s : State),
      s.txnQ = [n.val] ∧
      (s.txn n).heads = [x] ∧
      (s.txn n).entries = [] ∧
      x.head = h ∧
      (s.txnState n = 2 ∨ s.txnState n = 3) ∧
      x.began = true ∧
      x.done = false ∧
      x.switched = false ∧
      x.waiting = true ∧
      x.err ≠ 0 ∧
      x.err < 16 ∧
      (s.head h).hcpOwner = n + 1 ∧
      (s.head h).hcp = none ∧
      (∀ g : Nat, g < 8 → g ≠ h → (s.head g).hcpOwner = 0) :=
  ⟨2, 3, { head := 3, began := true, waiting := true, err := 4 }, (wTxn 3 { heads := [{ head := 3, began := true, waiting := true, err := 4 }] }).modHead 3 fun u => { u with hcpOwner := 3 }, by decide +kernel⟩

theorem test_transactionHeadWritesAndUndo_4_hypotheses :
    ∃ (n : Fin 16) (h : Head) (x : TxnHead) (s : State),
      s.txnHead n h = some x ∧
      (s.txnState n = 2 ∨ s.txnState n = 3) ∧
      x.began = true ∧
      x.done = false ∧
      x.waiting = true ∧
      x.err ≠ 0 ∧
      x.err < 16 ∧
      s.txnQ.contains n.val = true :=
  ⟨2, 3, { head := 3, began := true, waiting := true, err := 4 }, (wTxn 3 { heads := [{ head := 3, began := true, waiting := true, err := 4 }, { head := 4, began := true }] }).modHead 3 fun u => { u with hcpOwner := 3 }, by decide +kernel⟩

theorem test_transactionHeadWritesAndUndo_5_hypotheses :
    ∃ (n : Fin 16) (s : State),
      s.txnState n = 5 ∧
      ((s.txn n).heads.all fun x => x.undone && !x.undoBad) = true ∧
      (s.txn n).endRes < 16 :=
  ⟨2, wTxn 5 { heads := [{ head := 3, undone := true }], endRes := 9 }, by decide +kernel⟩

theorem test_transactionHeadWritesAndUndo_6_hypotheses :
    ∃ (n : Fin 16) (s : State),
      s.txnState n = 5 ∧
      ((s.txn n).heads.all fun x => x.undone) = true ∧
      ((s.txn n).heads.any fun x => x.undoBad) = true :=
  ⟨2, wTxn 5 { heads := [{ head := 3, undone := true, undoBad := true }], endRes := 9 }, by decide +kernel⟩

theorem test_ringContextCommands_1_hypotheses :
    ∃ (s : State),
      s.access R.Q_CTXCMD = true ∧
      s.ctxCmd = none :=
  ⟨wSetup, by decide +kernel⟩

theorem test_ringContextCommands_2_hypotheses :
    ∃ (s : State),
      s.access R.Q_CTXCMD = true ∧
      s.ctxCmd = none ∧
      s.mode = .setup :=
  ⟨wSetup, by decide +kernel⟩

theorem test_ringContextCommands_3_hypotheses :
    ∃ (x : CtxCmd) (s : State),
      s.ctxCmd = some x ∧
      x.waits = false ∧
      s.get F.Q_CTXBASE_BASE = 0 :=
  ⟨{ write := false, ring := 5 }, { wSetup with ctxCmd := some { write := false, ring := 5 } }, by decide +kernel⟩

theorem test_ringContextCommands_4_hypotheses :
    ∃ (x : CtxCmd) (s : State),
      s.ctxCmd = some x ∧
      x.waits = false ∧
      x.write = false ∧
      s.ringsMode = true ∧
      s.get F.Q_CTXBASE_BASE ≠ 0 ∧
      s.ctxLost x.ring = false :=
  ⟨{ write := false, ring := 5 }, ({ wSetup with ctxCmd := some { write := false, ring := 5 } }).put F.Q_CTXBASE_BASE 1, by decide +kernel⟩

theorem test_ringContextCommands_5_hypotheses :
    ∃ (x : CtxCmd) (s : State),
      s.ctxCmd = some x ∧
      x.waits = false ∧
      x.write = true ∧
      s.ringsMode = true ∧
      s.get F.Q_CTXBASE_BASE ≠ 0 ∧
      s.ctxLost x.ring = false :=
  ⟨{ write := true, ring := 5 }, ({ wSetup with ctxCmd := some { write := true, ring := 5 } }).put F.Q_CTXBASE_BASE 1, by decide +kernel⟩

theorem test_ringContextCommands_6_hypotheses :
    ∃ (x : CtxCmd) (s : State),
      s.ctxCmd = some x ∧
      x.waits = true :=
  ⟨{ write := true, ring := 5, waits := true }, { wSetup with ctxCmd := some { write := true, ring := 5, waits := true } }, by decide +kernel⟩

theorem test_ringRangesDoorbellsAndFetch_1_hypotheses :
    ∃ (f : Fin 32) (v : Word) (s : State),
      s.access (R.Q_FRANGE f) = true ∧
      s.rings = [] ∧
      (∀ g : Nat, g < 32 → g ≠ f → s.get (F.Q_FRANGE_COUNT g) = 0 ∨ fieldOf (F.Q_FRANGE_BASE f) v + fieldOf (F.Q_FRANGE_COUNT f) v ≤ s.get (F.Q_FRANGE_BASE g) ∨ s.get (F.Q_FRANGE_BASE g) + s.get (F.Q_FRANGE_COUNT g) ≤ fieldOf (F.Q_FRANGE_BASE f) v) ∧
      fieldOf (F.Q_FRANGE_BASE f) v + fieldOf (F.Q_FRANGE_COUNT f) v ≤ 4096 :=
  ⟨0, 0x00040002, wSetup, by decide +kernel⟩

theorem test_ringRangesDoorbellsAndFetch_2_hypotheses :
    ∃ (f : Fin 32) (v : Word) (s : State),
      s.access (R.Q_FRANGE f) = true ∧
      4096 < fieldOf (F.Q_FRANGE_BASE f) v + fieldOf (F.Q_FRANGE_COUNT f) v :=
  ⟨3, 0x0FFF0002, wSetup, by decide +kernel⟩

theorem test_ringRangesDoorbellsAndFetch_3_hypotheses :
    ∃ (f : Fin 32) (off : Nat) (size : Nat) (s : State),
      s.up = true ∧
      size = 4 ∨ size = 8 ∧
      off % 8 = 0 ∧
      16 * s.get (F.Q_FRANGE_COUNT f) ≤ off / 8 :=
  ⟨0, 800, 4, wRings [] wSetup, by decide +kernel⟩

theorem test_ringRangesDoorbellsAndFetch_4_hypotheses :
    ∃ (f : Fin 32) (off : Nat) (size : Nat) (v : Nat) (s : State),
      s.ringsMode = true ∧
      size = 4 ∨ size = 8 ∧
      off % 8 = 0 ∧
      off / 8 < 16 * s.get (F.Q_FRANGE_COUNT f) ∧
      (s.ringOf (s.ringGlobal f (off / 8))).ctx.en = true ∧
      (s.ringOf (s.ringGlobal f (off / 8))).ctx.state = 1 ∧
      (s.ringOf (s.ringGlobal f (off / 8))).ctx.kind = 0 ∧
      v % 65536 < (s.ringOf (s.ringGlobal f (off / 8))).ctx.n :=
  ⟨0, 40, 4, 3, wRings [(5, { ctx := wCtx 0 })] wSetup, by decide +kernel⟩

theorem test_ringRangesDoorbellsAndFetch_5_hypotheses :
    ∃ (f : Fin 32) (off : Nat) (size : Nat) (v : Nat) (s : State),
      s.ringsMode = true ∧
      size = 4 ∨ size = 8 ∧
      off % 8 = 0 ∧
      off / 8 < 16 * s.get (F.Q_FRANGE_COUNT f) ∧
      (s.ringOf (s.ringGlobal f (off / 8))).ctx.en = true ∧
      (s.ringOf (s.ringGlobal f (off / 8))).ctx.state = 1 ∧
      (s.ringOf (s.ringGlobal f (off / 8))).ctx.kind ≠ 0 ∧
      v % 65536 < (s.ringOf (s.ringGlobal f (off / 8))).ctx.n ∧
      (v % 65536 + (s.ringOf (s.ringGlobal f (off / 8))).ctx.n - (s.ringOf (s.ringGlobal f (off / 8))).ctx.cidx) % (s.ringOf (s.ringGlobal f (off / 8))).ctx.n ≤ (s.ringOf (s.ringGlobal f (off / 8))).ctx.fill :=
  ⟨0, 40, 8, 3, wRings [(5, { ctx := { wCtx 3 with pidx := 4 } })] wSetup, by decide +kernel⟩

theorem test_ringRangesDoorbellsAndFetch_6_hypotheses :
    ∃ (f : Fin 32) (off : Nat) (size : Nat) (v : Nat) (s : State),
      s.ringsMode = true ∧
      size = 4 ∨ size = 8 ∧
      off % 8 = 0 ∧
      off / 8 < 16 * s.get (F.Q_FRANGE_COUNT f) ∧
      (s.ringOf (s.ringGlobal f (off / 8))).ctx.en = true ∧
      (s.ringOf (s.ringGlobal f (off / 8))).ctx.state = 1 ∧
      (s.ringOf (s.ringGlobal f (off / 8))).ctx.n ≤ v % 65536 ∧
      ((s.ringFunc (s.ringGlobal f (off / 8))).map fun f => s.ringGlobal f 0) = some (s.ringGlobal f 0) ∧
      off ≠ 0 :=
  ⟨0, 40, 8, 16, wRings [(5, { ctx := wCtx 3 })] wSetup, by decide +kernel⟩

theorem test_ringRangesDoorbellsAndFetch_7_hypotheses :
    ∃ (f : Fin 32) (off : Nat) (size : Nat) (s : State),
      s.mode = .safe ∨ s.mode = .dormant ∧
      size = 4 ∨ size = 8 ∧
      off % 8 = 0 ∧
      off / 8 < 16 * s.get (F.Q_FRANGE_COUNT f) :=
  ⟨0, 40, 4, wRings [(5, { ctx := wCtx 0 })] (wIn .safe), by decide +kernel⟩

theorem test_ringRangesDoorbellsAndFetch_8_hypotheses :
    ∃ (id : Nat) (d : List Byte) (s : State),
      s.nextFetch = some id ∧
      s.readRoom 512 = true ∧
      bit (leAt d 0x3F 1) 7 = true ∧
      strayStatus d = none ∧
      ((s.ringOf id).tail + (s.ringOf id).ctx.n - (s.ringOf id).ctx.cidx) % (s.ringOf id).ctx.n ≠ 0 :=
  ⟨5, wDesc [], wRings [(1, { ctx := wCtx 1 }), (5, { ctx := { wCtx 0 with cq := 1 }, tail := 2 })] wSetup, by decide +kernel⟩

theorem test_ringRangesDoorbellsAndFetch_9_hypotheses :
    ∃ (id : Nat) (d : List Byte) (s : State),
      s.nextFetch = some id ∧
      s.readRoom 512 = true ∧
      bit (leAt d 0x3F 1) 7 = false ∧
      id ≠ s.ringGlobal ((s.ringFunc id).getD 0) 0 ∧
      ((s.ringOf id).tail + (s.ringOf id).ctx.n - (s.ringOf id).ctx.cidx) % (s.ringOf id).ctx.n ≠ 0 :=
  ⟨5, List.replicate 64 0, wRings [(1, { ctx := wCtx 1 }), (5, { ctx := { wCtx 0 with cq := 1 }, tail := 2 })] wSetup, by decide +kernel⟩

theorem test_ringCommandsAreCheckedAndAnswered_1_hypotheses :
    ∃ (id : Nat) (c : RingCmd) (s : State),
      RingHead s id 0 0 c :=
  ⟨5, wCmd [], wSub wSetup (wCmd []), by decide +kernel⟩

theorem test_ringCommandsAreCheckedAndAnswered_2_hypotheses :
    ∃ (id : Nat) (n : Nat) (c : RingCmd) (s : State),
      RingRuns s id 1 0 c ∧
      ((List.range 16).find? fun n => s.txnState n == 0) = some n :=
  ⟨5, 0, wCmd [(0, 1)], wSub wSetup (wCmd [(0, 1)]), by decide +kernel⟩

theorem test_ringCommandsAreCheckedAndAnswered_3_hypotheses :
    ∃ (id : Nat) (c : RingCmd) (s : State),
      RingRuns s id 1 0 c ∧
      ((List.range 16).find? fun n => s.txnState n == 0) = none :=
  ⟨5, wCmd [(0, 1)], (List.range 16).foldl (fun (s : State) n => s.put (F.TXN_HSTAT_STATE n) 1) (wSub wSetup (wCmd [(0, 1)])), by decide +kernel⟩

theorem test_ringCommandsAreCheckedAndAnswered_4_hypotheses :
    ∃ (id : Nat) (n : Nat) (c : RingCmd) (s : State),
      RingRuns s id 1 1 c ∧
      s.openHandle (leAt c.bytes 0x11 1) = some n ∧
      (s.txn n).owner = (s.ringFunc id).getD 0 ∧
      (∀ i : Nat, i < leAt c.bytes 0x12 1 → (stageClass (canonAddr (stageEntry c i).addr)).isSome = true) ∧
      (∀ i : Nat, i < leAt c.bytes 0x12 1 → ∀ h : Nat, h < 8 → canonAddr (stageEntry c i).addr ≠ R.HCP_CMD h) ∧
      (s.txn n).entries.length + leAt c.bytes 0x12 1 ≤ 4096 :=
  ⟨5, 2, wCmd [(0, 1), (0x10, 1), (0x11, 3), (0x12, 1), (0x18, 0x10), (0x1A, 0x13), (0x1B, 0x0C)], (wSub wSetup (wCmd [(0, 1), (0x10, 1), (0x11, 3), (0x12, 1), (0x18, 0x10), (0x1A, 0x13), (0x1B, 0x0C)])).put (F.TXN_HSTAT_STATE 2) 1, by decide +kernel⟩

theorem test_ringCommandsAreCheckedAndAnswered_5_hypotheses :
    ∃ (id : Nat) (c : RingCmd) (s : State),
      RingRuns s id 1 1 c ∧
      s.notMine id (leAt c.bytes 0x11 1) = true :=
  ⟨5, wCmd [(0, 1), (0x10, 1), (0x11, 3), (0x12, 1)], wSub (wTxn 1 { owner := 4 }) (wCmd [(0, 1), (0x10, 1), (0x11, 3), (0x12, 1)]), by decide +kernel⟩

theorem test_ringCommandsAreCheckedAndAnswered_6_hypotheses :
    ∃ (id : Nat) (n : Nat) (c : RingCmd) (s : State),
      RingRuns s id 1 2 c ∧
      s.openHandle (leAt c.bytes 0x11 1) = some n ∧
      (s.txn n).owner = (s.ringFunc id).getD 0 ∧
      (s.txn n).planWait = false ∧
      (s.txn n).entries = [] ∧
      s.txnQ.contains n = false ∧
      (s.txnQ.all fun m => (s.txn m).heads.all fun x => !x.idle || x.switched) = true ∧
      s.commitEntries (s.candidate []) (listedHeads (BitVec.ofNat 32 (leAt c.bytes 0x14 4) &&& 0xFFF7FDFF)) [] = (0, 0xFFFF) ∧
      ((listedHeads (BitVec.ofNat 32 (leAt c.bytes 0x14 4) &&& 0xFFF7FDFF)).all fun h => s.streams h) = true ∧
      s.commitRoom (listedHeads (BitVec.ofNat 32 (leAt c.bytes 0x14 4) &&& 0xFFF7FDFF)) = 0 :=
  ⟨5, 2, wCmd [(0, 1), (0x10, 2), (0x11, 3), (0x14, 8)], { wSub (wTxn 1 {}) (wCmd [(0, 1), (0x10, 2), (0x11, 3), (0x14, 8)]) with txnQ := [] }, by decide +kernel⟩

theorem test_ringCommandsAreCheckedAndAnswered_7_hypotheses :
    ∃ (id : Nat) (n : Nat) (c : RingCmd) (s : State),
      RingRuns s id 1 2 c ∧
      s.openHandle (leAt c.bytes 0x11 1) = some n ∧
      (s.txn n).owner = (s.ringFunc id).getD 0 ∧
      (s.txn n).planWait = false ∧
      leAt c.bytes 0x14 1 = 0 :=
  ⟨5, 2, wCmd [(0, 1), (0x10, 2), (0x11, 3)], { wSub (wTxn 1 {}) (wCmd [(0, 1), (0x10, 2), (0x11, 3)]) with txnQ := [] }, by decide +kernel⟩

theorem test_ringCommandsAreCheckedAndAnswered_8_hypotheses :
    ∃ (id : Nat) (c : RingCmd) (s : State),
      RingRuns s id 1 2 c ∧
      s.notMine id (leAt c.bytes 0x11 1) = true :=
  ⟨5, wCmd [(0, 1), (0x10, 2), (0x11, 3)], wSub (wTxn 1 { owner := 4 }) (wCmd [(0, 1), (0x10, 2), (0x11, 3)]), by decide +kernel⟩

theorem test_ringCommandsAreCheckedAndAnswered_9_hypotheses :
    ∃ (id : Nat) (c : RingCmd) (s : State),
      RingRuns s id 1 3 c ∧
      s.notMine id (leAt c.bytes 0x11 1) = true :=
  ⟨5, wCmd [(0, 1), (0x10, 3), (0x11, 3)], wSub (wTxn 1 { owner := 4 }) (wCmd [(0, 1), (0x10, 3), (0x11, 3)]), by decide +kernel⟩

theorem test_ringCommandsAreCheckedAndAnswered_10_hypotheses :
    ∃ (id : Nat) (n : Nat) (c : RingCmd) (s : State),
      RingRuns s id 1 3 c ∧
      s.openHandle (leAt c.bytes 0x11 1) = some n ∧
      (s.txn n).owner = (s.ringFunc id).getD 0 ∧
      (s.txn n).cmd = none :=
  ⟨5, 2, wCmd [(0, 1), (0x10, 3), (0x11, 3)], { wSub (wTxn 1 {}) (wCmd [(0, 1), (0x10, 3), (0x11, 3)]) with txnQ := [] }, by decide +kernel⟩

theorem test_ringCommandsAreCheckedAndAnswered_11_hypotheses :
    ∃ (id : Nat) (h : Head) (c : RingCmd) (s : State),
      RingRuns s id 2 0 c ∧
      leAt c.bytes 0x10 1 = h ∧
      (s.shut h).active = false ∧
      s.streams h = true ∧
      s.inRun = true ∧
      s.flag (F.CX_SCFG_EN h) = true ∧
      (s.prof h).shutType ≠ 0 ∧
      s.coilFault h = false :=
  ⟨5, 3, wCmd [(0, 2), (0x10, 3)], wSub (wShut 3 {} 0) (wCmd [(0, 2), (0x10, 3)]), by decide +kernel⟩

theorem test_ringCommandsAreCheckedAndAnswered_12_hypotheses :
    ∃ (id : Nat) (h : Head) (c : RingCmd) (s : State),
      RingRuns s id 2 0 c ∧
      leAt c.bytes 0x10 1 = h ∧
      (s.shut h).active = false ∧
      (s.streams h = false ∨ s.inRun = false) :=
  ⟨5, 3, wCmd [(0, 2), (0x10, 3)], wSub wRun (wCmd [(0, 2), (0x10, 3)]), by decide +kernel⟩

theorem test_ringCommandsAreCheckedAndAnswered_13_hypotheses :
    ∃ (id : Nat) (h : Head) (c : RingCmd) (s : State),
      RingRuns s id 2 1 c ∧
      leAt c.bytes 0x10 1 = h ∧
      (s.shut h).active = true ∧
      s.mode ≠ .safe ∧
      (∀ e ∈ (s.shut h).deferred, e.1 ≠ R.CX_SSTAT h) :=
  ⟨5, 3, wCmd [(0, 2), (0x10, 3), (0x11, 1)], wSub (wShut 3 { active := true, waiters := [(6, 1)] } 1) (wCmd [(0, 2), (0x10, 3), (0x11, 1)]), by decide +kernel⟩

theorem test_ringCommandsAreCheckedAndAnswered_14_hypotheses :
    ∃ (id : Nat) (h : Head) (c : RingCmd) (s : State),
      RingRuns s id 2 1 c ∧
      leAt c.bytes 0x10 1 = h ∧
      (s.shut h).active = false :=
  ⟨5, 3, wCmd [(0, 2), (0x10, 3), (0x11, 1)], wSub wRun (wCmd [(0, 2), (0x10, 3), (0x11, 1)]), by decide +kernel⟩

theorem test_ringCommandsAreCheckedAndAnswered_15_hypotheses :
    ∃ (id : Nat) (t : Nat) (h : Head) (c : RingCmd) (s : State),
      RingRuns s id 2 2 c ∧
      leAt c.bytes 0x10 1 = h ∧
      s.streams h = true ∧
      s.inRun = true ∧
      (s.churnAsk .m4 h true t).1 = .granted :=
  ⟨5, 90, 3, wCmd [(0, 2), (0x10, 3), (0x11, 2)], wSub (wShut 3 {} 0) (wCmd [(0, 2), (0x10, 3), (0x11, 2)]), by decide +kernel⟩

theorem test_ringCommandsAreCheckedAndAnswered_16_hypotheses :
    ∃ (id : Nat) (h : Head) (c : RingCmd) (s : State),
      RingRuns s id 2 2 c ∧
      leAt c.bytes 0x10 1 = h ∧
      (s.streams h = false ∨ s.inRun = false) :=
  ⟨5, 3, wCmd [(0, 2), (0x10, 3), (0x11, 2)], wSub wRun (wCmd [(0, 2), (0x10, 3), (0x11, 2)]), by decide +kernel⟩

theorem test_ringCommandsForTablesMicrocodeAndJobs_1_hypotheses :
    ∃ (id : Nat) (t : Nat) (h : Head) (c : RingCmd) (s : State),
      RingRuns s id 3 0 c ∧
      leAt c.bytes 0x10 1 = h ∧
      leAt c.bytes 0x11 1 = 0 ∧
      s.swapPending h 0 = false ∧
      s.swapCheck h (1 - s.leafSel h) = 0 ∧
      (s.churnAsk .m5 (3 * h) true t).1 = .granted ∧
      s.streams h = false :=
  ⟨5, 90, 3, wCmd [(0, 3), (0x10, 3)], wSub (wSwap 3) (wCmd [(0, 3), (0x10, 3)]), by decide +kernel⟩

theorem test_ringCommandsForTablesMicrocodeAndJobs_2_hypotheses :
    ∃ (id : Nat) (t : Nat) (h : Head) (c : RingCmd) (s : State),
      RingRuns s id 3 0 c ∧
      leAt c.bytes 0x10 1 = h ∧
      leAt c.bytes 0x11 1 = 1 ∧
      s.swapPending h 1 = false ∧
      s.swapCheck h (5 - s.resSel h) = 0 ∧
      (s.churnAsk .m5 (3 * h + 1) true t).1 = .granted ∧
      s.streams h = false :=
  ⟨5, 90, 3, wCmd [(0, 3), (0x10, 3), (0x11, 1)], wSub (wSwap 3) (wCmd [(0, 3), (0x10, 3), (0x11, 1)]), by decide +kernel⟩

theorem test_ringCommandsForTablesMicrocodeAndJobs_3_hypotheses :
    ∃ (id : Nat) (t : Nat) (h : Head) (c : RingCmd) (s : State),
      RingRuns s id 3 0 c ∧
      leAt c.bytes 0x10 1 = h ∧
      leAt c.bytes 0x11 1 = 2 ∧
      s.swapPending h 2 = false ∧
      (s.churnAsk .m5 (3 * h + 2) true t).1 = .granted ∧
      s.streams h = false ∧
      s.radCheck h (1 - s.get (F.FP_RSTAT_SEL h)) < 16 :=
  ⟨5, 90, 3, wCmd [(0, 3), (0x10, 3), (0x11, 2)], wSub wSetup (wCmd [(0, 3), (0x10, 3), (0x11, 2)]), by decide +kernel⟩

theorem test_ringCommandsForTablesMicrocodeAndJobs_4_hypotheses :
    ∃ (id : Nat) (t : Nat) (h : Head) (c : RingCmd) (s : State),
      RingRuns s id 3 0 c ∧
      leAt c.bytes 0x10 1 = h ∧
      leAt c.bytes 0x11 1 = 0 ∧
      s.swapPending h 0 = false ∧
      s.swapCheck h (1 - s.leafSel h) = 0 ∧
      (s.churnAsk .m5 (3 * h) true t).1 = .granted ∧
      s.streams h = true :=
  ⟨5, 90, 3, wCmd [(0, 3), (0x10, 3)], wSub ((wSwap 3).put (F.HP_STAT_STREAM 3) 1) (wCmd [(0, 3), (0x10, 3)]), by decide +kernel⟩

theorem test_ringCommandsForTablesMicrocodeAndJobs_5_hypotheses :
    ∃ (id : Nat) (t : Nat) (b : Nat) (l : List Nat) (c : RingCmd) (s : State),
      RingRuns s id 4 0 c ∧
      s.mcLoad = none ∧
      s.mcHeader (4096 * leAt c.bytes 0x14 4) = 1 ∧
      (List.range 16).filter (bit (leAt c.bytes 0x10 2)) = b :: l ∧
      (s.inRun = false ∨ (s.churnAsk .m6 b true t).1 = .granted) :=
  ⟨5, 90, 2, [12], wCmd [(0, 4), (0x10, 4), (0x11, 0x10), (0x14, 3)], wSub wMc (wCmd [(0, 4), (0x10, 4), (0x11, 0x10), (0x14, 3)]), by decide +kernel⟩

theorem test_ringCommandsForTablesMicrocodeAndJobs_6_hypotheses :
    ∃ (id : Nat) (c : RingCmd) (s : State),
      RingRuns s id 4 0 c ∧
      (s.mcLoad.isSome ∨ s.mcHeader (4096 * leAt c.bytes 0x14 4) ≠ 1) :=
  ⟨5, wCmd [(0, 4), (0x10, 4)], wSub wSetup (wCmd [(0, 4), (0x10, 4)]), by decide +kernel⟩

theorem test_ringCommandsForTablesMicrocodeAndJobs_7_hypotheses :
    ∃ (id : Nat) (n : Fin 64) (c : RingCmd) (s : State),
      RingRuns s id 5 0 c ∧
      leAt c.bytes 0x10 1 = n ∧
      s.ringFunc id = some (s.dmaFunc n) ∧
      s.flag (F.DMA_CH_CFG_SRC n) = true ∧
      s.flag (F.DMA_CH_CFG_EN n) = true ∧
      (s.chan n).run = none ∧
      (s.chan n).queue = [] ∧
      s.get (F.DMA_CH_STAT_STATE n) ≠ 3 ∧
      s.dmaRuns = true :=
  ⟨5, 2, wCmd [(0, 5), (0x10, 2)], ((wSub wSetup (wCmd [(0, 5), (0x10, 2)])).put (F.DMA_CH_CFG_SRC 2) 1).put (F.DMA_CH_CFG_EN 2) 1, by decide +kernel⟩

theorem test_ringCommandsForTablesMicrocodeAndJobs_8_hypotheses :
    ∃ (id : Nat) (n : Fin 64) (c : RingCmd) (s : State),
      RingRuns s id 5 0 c ∧
      leAt c.bytes 0x10 1 = n ∧
      (s.ringFunc id ≠ some (s.dmaFunc n) ∨ s.flag (F.DMA_CH_CFG_SRC n) = false) :=
  ⟨5, 2, wCmd [(0, 5), (0x10, 2)], wSub wSetup (wCmd [(0, 5), (0x10, 2)]), by decide +kernel⟩

theorem test_ringCommandsForTablesMicrocodeAndJobs_9_hypotheses :
    ∃ (id : Nat) (c : RingCmd) (s : State),
      RingRuns s id 6 0 c ∧
      s.inRun = false ∧
      (s.jobs.filter fun j => j.started.isNone).length < 16 ∧
      leAt c.bytes 0x12 2 < 16 * s.get (F.Q_FRANGE_COUNT ((s.ringFunc id).getD 0)) ∧
      s.enabledKind (s.ringGlobal ((s.ringFunc id).getD 0) (leAt c.bytes 0x12 2)) 2 = true ∧
      (s.ringOf (s.ringGlobal ((s.ringFunc id).getD 0) (leAt c.bytes 0x12 2))).ctx.job = true :=
  ⟨5, wCmd [(0, 6), (0x10, 3), (0x12, 6), (0x16, 1)], wRings [(5, { ctx := wCtx 0, cmds := [wCmd [(0, 6), (0x10, 3), (0x12, 6), (0x16, 1)]] }), (6, { ctx := { wCtx 2 with job := true } })] wSetup, by decide +kernel⟩

theorem test_ringCommandsForTablesMicrocodeAndJobs_10_hypotheses :
    ∃ (j : ReJob) (l : List ReJob) (s : State),
      s.jobs = j :: l ∧
      s.ringsMode = true ∧
      j.started = none ∧
      j.waits = false :=
  ⟨{ ring := 5, tag := 7, func := 0, body := wDesc [] }, [], { wSetup with jobs := [{ ring := 5, tag := 7, func := 0, body := wDesc [] }] }, by decide +kernel⟩

theorem test_ringCommandsForTablesMicrocodeAndJobs_11_hypotheses :
    ∃ (d : Nat) (j : ReJob) (s : State),
      s.jobs = [j] ∧
      s.ringsMode = true ∧
      j.started = some d ∧
      leAt j.body 0x30 4 = 0 ∧
      j.done < leAt j.body 0x16 2 ∧
      s.readRoom 512 = true ∧
      (s.rings.all fun e => e.2.items.isEmpty && e.2.wait.isEmpty) = true :=
  ⟨60, { ring := 5, tag := 7, func := 0, body := wDesc [(0x12, 6), (0x16, 1)], started := some 60 }, wRings [(6, { ctx := { wCtx 2 with job := true } })] { wSetup with jobs := [{ ring := 5, tag := 7, func := 0, body := wDesc [(0x12, 6), (0x16, 1)], started := some 60 }] }, by decide +kernel⟩

theorem test_ringCommandsForTablesMicrocodeAndJobs_12_hypotheses :
    ∃ (d : Nat) (inp : List Byte) (j : ReJob) (s : State),
      s.jobs = [j] ∧
      s.ringsMode = true ∧
      j.started = some d ∧
      leAt j.body 0x30 4 = 0 ∧
      j.done < leAt j.body 0x16 2 ∧
      s.readRoom 512 = true ∧
      (s.rings.all fun e => e.2.items.isEmpty && e.2.wait.isEmpty) = true ∧
      4 * (s.prof (leAt j.body 0x10 1)).pixels ≤ inp.length :=
  ⟨60, [1, 2, 3, 4], { ring := 5, tag := 7, func := 0, body := wDesc [(0x10, 3), (0x12, 6), (0x16, 1), (0x28, 9)], started := some 60 }, wRings [(6, { ctx := { wCtx 2 with job := true, skind := 2 } })] { wShut 3 {} 0 with mode := .setup, jobs := [{ ring := 5, tag := 7, func := 0, body := wDesc [(0x10, 3), (0x12, 6), (0x16, 1), (0x28, 9)], started := some 60 }] }, by decide +kernel⟩

theorem test_recordsArePostedInHostMemory_1_hypotheses :
    ∃ (cq : Nat) (d : CmdDone) (c : RingCmd) (s : State),
      s.admitHeld.doneFor cq = some d ∧
      ((s.ringOf d.ring).cmds.find? fun c => c.tag == d.tag) = some c ∧
      (s.ringOf cq).ctx.en = true ∧
      (s.ringOf cq).ctx.state = 1 ∧
      (s.ringOf cq).ctx.full = false ∧
      (s.ringOf cq).ctx.irq = false ∧
      s.canPost cq = true ∧
      d.ring ≠ cq :=
  ⟨1, { ring := 5, tag := 7, status := 0, result := 4 }, wCmd [], { wRings [(1, { ctx := { wCtx 1 with rbase := 4096, pidx := 15, cidx := 3 } }), (5, { ctx := { wCtx 0 with cq := 1 }, cmds := [wCmd []] })] wSetup with cmdDone := [{ ring := 5, tag := 7, status := 0, result := 4 }] }, by decide +kernel⟩

theorem test_recordsArePostedInHostMemory_2_hypotheses :
    ∃ (cq : Nat) (d : CmdDone) (c : RingCmd) (s : State),
      s.admitHeld.doneFor cq = some d ∧
      ((s.ringOf d.ring).cmds.find? fun c => c.tag == d.tag) = some c ∧
      (s.ringOf cq).ctx.en = false :=
  ⟨1, { ring := 5, tag := 7, status := 0, result := 4 }, wCmd [], { wRings [(5, { ctx := { wCtx 0 with cq := 1 }, cmds := [wCmd []] })] wSetup with cmdDone := [{ ring := 5, tag := 7, status := 0, result := 4 }] }, by decide +kernel⟩

theorem test_recordsArePostedInHostMemory_3_hypotheses :
    ∃ (id : Nat) (b : List Byte) (l : List (List Byte)) (s : State),
      s.canPost id = true ∧
      (s.ringOf id).ctx.kind = 3 ∧
      (s.ringOf id).ctx.state ≠ 2 ∧
      (s.ringOf id).ctx.full = false ∧
      (s.ringOf id).ctx.irq = false ∧
      (s.ringOf id).lost = 0 ∧
      (s.ringOf id).out = b :: l :=
  ⟨3, [1, 2], [[3]], wRings [(3, { ctx := wCtx 3, out := [[1, 2], [3]] })] wSetup, by decide +kernel⟩

theorem test_recordsArePostedInHostMemory_4_hypotheses :
    ∃ (id : Nat) (b : List Byte) (l : List (List Byte)) (s : State),
      s.canPost id = true ∧
      (s.ringOf id).ctx.kind = 3 ∧
      (s.ringOf id).ctx.state ≠ 2 ∧
      (s.ringOf id).ctx.full = true ∧
      (s.ringOf id).out = b :: l :=
  ⟨3, [1, 2], [[3]], wRings [(3, { ctx := { wCtx 3 with pidx := 15 }, out := [[1, 2], [3]] })] wSetup, by decide +kernel⟩

theorem test_recordsArePostedInHostMemory_5_hypotheses :
    ∃ (id : Nat) (s : State),
      s.canPost id = true ∧
      (s.ringOf id).ctx.kind = 3 ∧
      (s.ringOf id).ctx.state ≠ 2 ∧
      (s.ringOf id).ctx.full = false ∧
      (s.ringOf id).ctx.irq = false ∧
      (s.ringOf id).lost ≠ 0 :=
  ⟨3, wRings [(3, { ctx := wCtx 3, out := [[1, 2], [3]], lost := 2, lostDt := 8 })] wSetup, by decide +kernel⟩

theorem test_recordsArePostedInHostMemory_6_hypotheses :
    ∃ (id : Nat) (b : BufRec) (l : List RingItem) (s : State),
      s.canPost id = true ∧
      (s.ringOf id).ctx.state = 1 ∧
      (s.ringOf id).items = .copy b :: l ∧
      (l.all fun i => i.isCopy fun _ => true) = true ∧
      (s.ringOf id).ctx.irq = false ∧
      s.get F.Q_CTXBASE_BASE = 0 :=
  ⟨3, { head := 3, kind := 2, idx := 0, seq := 1, base := 65536, ow := 1, oh := 1 }, [], wRings [(3, { ctx := wCtx 2, items := [.copy { head := 3, kind := 2, idx := 0, seq := 1, base := 65536, ow := 1, oh := 1 }] })] wSetup, by decide +kernel⟩

theorem test_recordsArePostedInHostMemory_7_hypotheses :
    ∃ (id : Nat) (s : State),
      s.canPost id = true ∧
      (s.ringOf id).ctx.en = true ∧
      (s.ringOf id).ctx.state = 1 ∧
      (s.ringOf id).ctx.latest = false ∧
      (s.ringOf id).free ≠ 0 ∧
      (s.ringOf id).wait ≠ [] ∧
      (((s.ringOf id).items ++ (s.ringOf id).wait).all fun i => i.isCopy fun _ => true) = true :=
  ⟨3, wRings [(3, { ctx := wCtx 2, wait := [.copy { head := 3, kind := 2, idx := 0, seq := 1, base := 65536 }] })] wSetup, by decide +kernel⟩

theorem test_recordsArePostedInHostMemory_8_hypotheses :
    ∃ (id : Nat) (t : Nat) (d : Nat) (s : State),
      (s.ringOf id).firstUnsig = some d ∧
      (s.ringOf id).ctx.irq = true ∧
      (s.ringOf id).ctx.modus ≠ 0 ∧
      d + (s.ringOf id).ctx.modus * 1000 ≤ t ∧
      s.hostUp ((s.ringFunc id).getD 0) = true ∧
      (s.reg (msixWord ((s.ringFunc id).getD 0) (s.ringOf id).ctx.vec 3)).toNat % 2 = 0 :=
  ⟨3, 20000, 90, (wRings [(3, { ctx := { wCtx 3 with irq := true, modus := 5 }, firstUnsig := some 90 })] wSetup).setReg (R.Q_MSIXTAB 0 3) 0, by decide +kernel⟩

theorem test_recordsArePostedInHostMemory_9_hypotheses :
    ∃ (id : Nat) (t : Nat) (d : Nat) (s : State),
      (s.ringOf id).firstUnsig = some d ∧
      (s.ringOf id).ctx.irq = true ∧
      (s.ringOf id).ctx.modus ≠ 0 ∧
      d + (s.ringOf id).ctx.modus * 1000 ≤ t ∧
      (s.reg (msixWord ((s.ringFunc id).getD 0) (s.ringOf id).ctx.vec 3)).toNat % 2 = 1 :=
  ⟨3, 20000, 90, wRings [(3, { ctx := { wCtx 3 with irq := true, modus := 5 }, firstUnsig := some 90 })] wSetup, by decide +kernel⟩

theorem test_linkFunctionsAndBarWindow_1_hypotheses :
    ∃ (r : BitVec 5) (s : State),
      s.up = true ∧
      r ≠ 0 ∧
      setBit r.toNat 1 false = s.c0Fails ∧
      r.toNat ≠ s.get F.Q_C0STAT_REASON ∧
      s.c0Rings = [] :=
  ⟨24, wIn .safe, by decide +kernel⟩

theorem test_linkFunctionsAndBarWindow_2_hypotheses :
    ∃ (r : BitVec 5) (id : Nat) (s : State),
      s.up = true ∧
      r ≠ 0 ∧
      setBit r.toNat 1 false = s.c0Fails ∧
      r.toNat ≠ s.get F.Q_C0STAT_REASON ∧
      s.c0Rings = [id] ∧
      (s.ringOf id).ctx.kind = 3 ∧
      (s.ringOf id).ctx.state = 1 ∧
      (s.ringOf id).ctx.full = false ∧
      s.heldRecords < 1024 :=
  ⟨24, 3, { wRings [(3, { ctx := { wCtx 3 with cls := 0 } })] (wIn .safe) with pcie := {} }, by decide +kernel⟩

theorem test_linkFunctionsAndBarWindow_3_hypotheses :
    ∃ (t : Nat) (s : State),
      s.up = true ∧
      s.flag F.Q_C0STAT_BOUND = false ∧
      s.c0Fails = 0 ∧
      s.c0Mark + 1000000 ≤ t ∧
      s.c0Rings = [] :=
  ⟨2000000, ((wRings [] wSetup).put F.Q_STAT_BME 1).put F.Q_C0STAT_BOUND 0, by decide +kernel⟩

theorem test_linkFunctionsAndBarWindow_4_hypotheses :
    ∃ (s : State),
      s.up = true ∧
      s.flag F.Q_STAT_LINKUP = true :=
  ⟨wRings [] wSetup, by decide +kernel⟩

theorem test_linkFunctionsAndBarWindow_5_hypotheses :
    ∃ (sp : Fin 8) (w : Fin 32) (s : State),
      s.up = true ∧
      1 ≤ sp.val ∧
      sp.val ≤ 5 ∧
      [1, 2, 4, 8, 16].contains w.val = true ∧
      s.pcie.reported = true :=
  ⟨3, 8, { wSetup with pcie := { speed := 4, width := 8 } }, by decide +kernel⟩

theorem test_linkFunctionsAndBarWindow_6_hypotheses :
    ∃ (s : State),
      s.up = true :=
  ⟨wSetup, by decide +kernel⟩

theorem test_linkFunctionsAndBarWindow_7_hypotheses :
    ∃ (f : Fin 32) (s : State),
      s.up = true ∧
      f ≠ 0 :=
  ⟨3, wSetup, by decide +kernel⟩

theorem test_linkFunctionsAndBarWindow_8_hypotheses :
    ∃ (s : State),
      s.up = true :=
  ⟨wSetup, by decide +kernel⟩

theorem test_linkFunctionsAndBarWindow_9_hypotheses :
    ∃ (s : State),
      s.up = true :=
  ⟨wSetup, by decide +kernel⟩

theorem test_linkFunctionsAndBarWindow_10_hypotheses :
    ∃ (s : State),
      s.up = true :=
  ⟨(wRings [(5, { ctx := wCtx 0 })] wSetup).put F.Q_CTXBASE_BASE 9, by decide +kernel⟩

theorem test_linkFunctionsAndBarWindow_11_hypotheses :
    ∃ (s : State),
      s.up = true :=
  ⟨(wRings [(5, { ctx := wCtx 0 })] wSetup).put F.Q_CTXBASE_BASE 9, by decide +kernel⟩

theorem test_linkFunctionsAndBarWindow_12_hypotheses :
    ∃ (f : Fin 32) (s : State),
      s.up = true ∧
      f ≠ 0 :=
  ⟨3, (wRings [(50, { ctx := wCtx 0 })] wSetup).setReg (R.Q_FRANGE 3) 0x00030001, by decide +kernel⟩

theorem test_linkFunctionsAndBarWindow_13_hypotheses :
    ∃ (off : Nat) (s : State),
      s.ringsMode = true ∧
      s.get F.Q_B4WIN_WIN * 0x40000000 + off < dramSize ∧
      s.inCtxArea (s.get F.Q_B4WIN_WIN * 0x40000000 + off) = false ∧
      ((s.protAll.filter fun e => inRange e.2.2 (s.get F.Q_B4WIN_WIN * 0x40000000 + off)).isEmpty) = true :=
  ⟨77, wSetup, by decide +kernel⟩

theorem test_linkFunctionsAndBarWindow_14_hypotheses :
    ∃ (off : Nat) (s : State),
      s.ringsMode = true ∧
      s.get F.Q_B4WIN_WIN * 0x40000000 + off < dramSize ∧
      s.inCtxArea (s.get F.Q_B4WIN_WIN * 0x40000000 + off) = true ∧
      ((s.protAll.filter fun e => inRange e.2.2 (s.get F.Q_B4WIN_WIN * 0x40000000 + off)).isEmpty) = true :=
  ⟨4100, wSetup.put F.Q_CTXBASE_BASE 1, by decide +kernel⟩

theorem test_linkFunctionsAndBarWindow_15_hypotheses :
    ∃ (off : Nat) (len : Nat) (s : State),
      s.up = true ∧
      s.ringsMode = true ∧
      s.get F.Q_B4WIN_WIN * 0x40000000 + off + len ≤ dramSize :=
  ⟨77, 4, wSetup, by decide +kernel⟩

theorem test_linkFunctionsAndBarWindow_16_hypotheses :
    ∃ (s : State),
      s.up = true ∧
      s.ringsMode = false :=
  ⟨wIn .safe, by decide +kernel⟩

theorem test_dmaChannelRegisters_1_hypotheses :
    ∃ (c : DmaCh) (s : State),
      s.access (R.DMA_CH_TAIL c) = true ∧
      s.flag (F.DMA_CH_CFG_EN c) = false ∨ s.flag (F.DMA_CH_CFG_SWPACE c) = true ∨ s.flag (F.DMA_CH_CFG_SRC c) = true :=
  ⟨2, wSetup, by decide +kernel⟩

theorem test_dmaChannelRegisters_2_hypotheses :
    ∃ (c : DmaCh) (v : Word) (s : State),
      s.access (R.DMA_CH_TAIL c) = true ∧
      s.flag (F.DMA_CH_CFG_EN c) = true ∧
      s.flag (F.DMA_CH_CFG_SWPACE c) = false ∧
      s.flag (F.DMA_CH_CFG_SRC c) = false ∧
      v.toNat % 65536 < s.dmaN c ∧
      s.get (F.DMA_CH_STAT_STATE c) ≠ 3 ∧
      s.flag F.DMA_STAT_HALT = false ∧
      (s.chan c).run = none ∧
      (s.chan c).fetched = [] ∧
      (s.chan c).swEnd = none :=
  ⟨2, 4, wChan {} wSetup, by decide +kernel⟩

theorem test_dmaChannelRegisters_3_hypotheses :
    ∃ (c : DmaCh) (v : Word) (s : State),
      s.access (R.DMA_CH_TAIL c) = true ∧
      s.flag (F.DMA_CH_CFG_EN c) = true ∧
      s.flag (F.DMA_CH_CFG_SWPACE c) = false ∧
      s.flag (F.DMA_CH_CFG_SRC c) = false ∧
      s.dmaN c ≤ v.toNat % 65536 ∧
      s.get (F.DMA_CH_STAT_STATE c) ≠ 3 ∧
      (s.chan c).run = none :=
  ⟨2, 16, wChan {} wSetup, by decide +kernel⟩

theorem test_dmaChannelRegisters_4_hypotheses :
    ∃ (c : DmaCh) (v : Word) (s : State),
      s.access (R.DMA_CH_CFG c) = true ∧
      s.flag (F.DMA_CH_CFG_EN c) = false ∧
      v.getLsbD 0 = true ∧
      within (fieldOf (F.DMA_CH_CFG_LOG2N c) v) 4 16 = true ∧
      s.flag F.DMA_STAT_HALT = false ∧
      (s.chan c).run = none ∧
      (s.chan c).queue = [] ∧
      (s.chan c).swEnd = none :=
  ⟨2, 0x1001, wSetup, by decide +kernel⟩

theorem test_dmaChannelRegisters_5_hypotheses :
    ∃ (c : DmaCh) (v : Word) (s : State),
      s.access (R.DMA_CH_CFG c) = true ∧
      s.flag (F.DMA_CH_CFG_EN c) = false ∧
      v.getLsbD 0 = true ∧
      within (fieldOf (F.DMA_CH_CFG_LOG2N c) v) 4 16 = false :=
  ⟨2, 0x301, wSetup, by decide +kernel⟩

theorem test_dmaChannelRegisters_6_hypotheses :
    ∃ (c : DmaCh) (v : Word) (s : State),
      s.access (R.DMA_CH_CFG c) = true ∧
      s.flag (F.DMA_CH_CFG_EN c) = true ∧
      v.getLsbD 0 = false ∧
      dmaFixed (v &&& 0xF8FF1F1D#32) = dmaFixed (s.reg (R.DMA_CH_CFG c)) ∧
      (s.chan c).run = none ∧
      (s.chan c).queue = [] :=
  ⟨2, 0x400, wChan {} wSetup, by decide +kernel⟩

theorem test_dmaChannelRegisters_7_hypotheses :
    ∃ (c : DmaCh) (s : State),
      s.access (R.DMA_CH_CMD c) = true ∧
      s.flag (F.DMA_CH_CFG_EN c) = true ∧
      s.get (F.DMA_CH_STAT_STATE c) ≠ 3 ∧
      (s.chan c).run = none :=
  ⟨2, wChan {} wSetup, by decide +kernel⟩

theorem test_dmaChannelRegisters_8_hypotheses :
    ∃ (c : DmaCh) (r : DmaRun) (s : State),
      s.access (R.DMA_CH_CMD c) = true ∧
      s.flag (F.DMA_CH_CFG_EN c) = true ∧
      s.get (F.DMA_CH_STAT_STATE c) ≠ 3 ∧
      (s.chan c).run = some r ∧
      (s.chan c).stop = 0 :=
  ⟨2, wRunDma, wChan { run := some wRunDma } wSetup, by decide +kernel⟩

theorem test_dmaChannelRegisters_9_hypotheses :
    ∃ (c : DmaCh) (s : State),
      s.access (R.DMA_CH_CMD c) = true ∧
      s.flag (F.DMA_CH_CFG_EN c) = true ∧
      s.get (F.DMA_CH_STAT_STATE c) = 3 ∧
      s.flag (F.DMA_CH_CFG_SWPACE c) = false ∧
      s.flag (F.DMA_CH_CFG_SRC c) = false ∧
      s.dmaBadTail c = false ∧
      s.flag F.DMA_STAT_HALT = false ∧
      (s.chan c).run = none ∧
      (s.chan c).fetched = [] ∧
      (s.chan c).swEnd = none :=
  ⟨2, (wChan {} wSetup).put (F.DMA_CH_STAT_STATE 2) 3, by decide +kernel⟩

theorem test_dmaChannelRegisters_10_hypotheses :
    ∃ (c : DmaCh) (s : State),
      s.access (R.DMA_CH_CMD c) = true ∧
      s.flag (F.DMA_CH_CFG_EN c) = true ∧
      s.flag (F.DMA_CH_CFG_SWPACE c) = true ∧
      s.flag (F.DMA_CH_CFG_SRC c) = false ∧
      (s.chan c).swEnd = none ∧
      s.dmaBadTail c = false ∧
      s.get (F.DMA_CH_STAT_STATE c) ≠ 3 ∧
      s.flag F.DMA_STAT_HALT = false ∧
      (s.chan c).run = none ∧
      (s.chan c).fetched = [] ∧
      s.get (F.DMA_CH_TAIL_TAIL c) ≠ s.get (F.DMA_CH_STAT_CIDX c) :=
  ⟨2, ((wChan {} wSetup).put (F.DMA_CH_CFG_SWPACE 2) 1).put (F.DMA_CH_TAIL_TAIL 2) 4, by decide +kernel⟩

theorem test_dmaChannelRegisters_11_hypotheses :
    ∃ (c : DmaCh) (s : State),
      s.access (R.DMA_CH_CMD c) = true ∧
      s.flag (F.DMA_CH_CFG_SWPACE c) = false :=
  ⟨2, wChan {} wSetup, by decide +kernel⟩

theorem test_dmaMovesAndCompletes_1_hypotheses :
    ∃ (c : DmaCh) (d : List Byte) (s : State),
      s.dmaFetchDue c = true ∧
      (s.chan c).run = none ∧
      s.flag (F.DMA_CH_CFG_SWPACE c) = false ∧
      s.get (F.DMA_CH_STAT_CIDX c) < s.dmaN c ∧
      (s.chan c).swEnd = none ∧
      bit (leAt d 0x1F 1) 7 = true :=
  ⟨2, List.replicate 31 0 ++ [0x80], (wChan {} wSetup).put (F.DMA_CH_TAIL_TAIL 2) 3, by decide +kernel⟩

theorem test_dmaMovesAndCompletes_2_hypotheses :
    ∃ (c : DmaCh) (d : List Byte) (s : State),
      s.dmaFetchDue c = true ∧
      (s.chan c).run = none ∧
      s.flag (F.DMA_CH_CFG_SWPACE c) = false ∧
      s.get (F.DMA_CH_STAT_CIDX c) < s.dmaN c ∧
      (s.chan c).swEnd = none ∧
      bit (leAt d 0x1F 1) 7 = false :=
  ⟨2, List.replicate 32 0, (wChan {} wSetup).put (F.DMA_CH_TAIL_TAIL 2) 3, by decide +kernel⟩

theorem test_dmaMovesAndCompletes_3_hypotheses :
    ∃ (c : DmaCh) (n : Nat) (dev : Bool) (k : DmaReadKind) (r : DmaRun) (s : State),
      s.dmaRuns = true ∧
      (s.chan c).run = some r ∧
      r.want false = some (.read dev k n) ∧
      (s.chan c).first = true ∧
      s.dma.reads = [] ∧
      (∀ k : Nat, k < 4 → s.ringReady k = false) ∧
      n ≤ 512 ∧
      s.hostUp (s.dmaFunc c) = true ∧
      (∀ e : Nat, e < 64 → e ≠ c → (s.chan e).run = none ∧ s.flag (F.DMA_CH_CFG_EN e) = false) :=
  ⟨2, 100, false, .data 0x1000 0 100, wRunDma, wChan { run := some wRunDma } wSetup, by decide +kernel⟩

theorem test_dmaMovesAndCompletes_4_hypotheses :
    ∃ (s : State),
      s.dmaRuns = true :=
  ⟨wChan { run := some wRunDma } wSetup, by decide +kernel⟩

theorem test_dmaMovesAndCompletes_5_hypotheses :
    ∃ (s : State),
      s.dmaRuns = false :=
  ⟨wIn .safe, by decide +kernel⟩

theorem test_dmaMovesAndCompletes_6_hypotheses :
    ∃ (id : Nat) (a : Nat) (off : Nat) (n : Nat) (c : DmaCh) (data : List Byte) (r : DmaRun) (g : DmaSeg) (s : State),
      s.flag F.DMA_STAT_HALT = false ∧
      s.ringsMode = true ∧
      s.dma.reads = [{ id := id, ch := c, dev := false, kind := .data a off n }] ∧
      data.length = n ∧
      (s.chan c).run = some r ∧
      r.seg = some g ∧
      r.desc.cmp = false ∧
      r.dst.dev = false :=
  ⟨4, 0x1000, 0, 2, 2, [5, 6], wRunDma, { src := 0x1000, dst := 0x2000, len := 100 }, { wChan { run := some wRunDma } wSetup with dma := { (wChan { run := some wRunDma } wSetup).dma with reads := [{ id := 4, ch := 2, dev := false, kind := .data 0x1000 0 2 }] } }, by decide +kernel⟩

theorem test_dmaMovesAndCompletes_7_hypotheses :
    ∃ (id : Nat) (a : Nat) (off : Nat) (n : Nat) (c : DmaCh) (data : List Byte) (r : DmaRun) (g : DmaSeg) (s : State),
      s.flag F.DMA_STAT_HALT = false ∧
      s.ringsMode = true ∧
      s.dma.reads = [{ id := id, ch := c, dev := false, kind := .data a off n }] ∧
      data.length = n ∧
      1 ≤ n ∧
      n ≤ 64 - (g.dst + off) % 64 ∧
      (s.chan c).run = some r ∧
      r.seg = some g ∧
      r.desc.cmp = false ∧
      r.dst.dev = true ∧
      s.dmaProtected (g.dst + off) n = false :=
  ⟨4, 0x1000, 0, 2, 2, [5, 6], { wRunDma with dst := { dev := true, addr := 0x2000, left := 100 } }, { src := 0x1000, dst := 0x2000, len := 100 }, { wChan { run := some { wRunDma with dst := { dev := true, addr := 0x2000, left := 100 } } } wSetup with dma := { (wChan { run := some { wRunDma with dst := { dev := true, addr := 0x2000, left := 100 } } } wSetup).dma with reads := [{ id := 4, ch := 2, dev := false, kind := .data 0x1000 0 2 }] } }, by decide +kernel⟩

theorem test_dmaMovesAndCompletes_8_hypotheses :
    ∃ (id : Nat) (data : List Byte) (r : DmaRead) (s : State),
      s.dma.reads.find? (fun r => r.id == id && r.data.isNone) = some r ∧
      s.flag F.DMA_STAT_HALT = false ∧
      r.isDead = false ∧
      r.dev = false ∧
      data.length = r.size ∧
      s.ringsMode = false :=
  ⟨4, [5, 6], { id := 4, ch := 2, dev := false, kind := .data 0x1000 0 2 }, { (wChan { run := some wRunDma } (wIn .dormant)) with dma := { (wChan { run := some wRunDma } wSetup).dma with reads := [{ id := 4, ch := 2, dev := false, kind := .data 0x1000 0 2 }] } }, by decide +kernel⟩

theorem test_dmaMovesAndCompletes_9_hypotheses :
    ∃ (id : Nat) (r : DmaRead) (s : State),
      s.dma.reads.find? (fun r => r.id == id && r.data.isNone) = some r ∧
      (s.flag F.DMA_STAT_HALT = true ∨ r.isDead = true) :=
  ⟨4, { id := 4, ch := 2, dev := false, kind := .data 0x1000 0 2 }, { ((wChan { run := some wRunDma } wSetup).put F.DMA_STAT_HALT 1) with dma := { (wChan { run := some wRunDma } wSetup).dma with reads := [{ id := 4, ch := 2, dev := false, kind := .data 0x1000 0 2 }] } }, by decide +kernel⟩

theorem test_dmaMovesAndCompletes_10_hypotheses :
    ∃ (t : Nat) (c : DmaCh) (s : State),
      s.ringsMode = true ∧
      (s.chan c).window < max s.dt t / 1000 :=
  ⟨5000, 2, wChan { spent := 9 } wSetup, by decide +kernel⟩

theorem test_dmaMovesAndCompletes_11_hypotheses :
    ∃ (c : DmaCh) (code : Nat) (resid : Nat) (r : DmaRun) (s : State),
      (s.chan c).run = some r ∧
      r.result = some (code, resid) ∧
      s.dmaRuns = true ∧
      s.hostUp (s.dmaFunc c) = true ∧
      r.desc.cmd = none ∧
      code ≠ 9 ∧
      (s.chan c).stop = 0 ∧
      (s.chan c).closing = false ∧
      r.desc.flag 3 = false ∧
      (s.chan c).fetched = [] ∧
      (s.chan c).swEnd = none ∧
      (s.chan c).queue = [] ∧
      s.get (F.DMA_CH_STAT_STATE c) ≠ 3 :=
  ⟨2, 1, 0, { wRunDma with result := some (1, 0) }, wChan { run := some { wRunDma with result := some (1, 0) } } wSetup, by decide +kernel⟩

theorem test_dmaMovesAndCompletes_12_hypotheses :
    ∃ (c : DmaCh) (code : Nat) (resid : Nat) (ring : Nat) (tag : Nat) (r : DmaRun) (s : State),
      (s.chan c).run = some r ∧
      r.result = some (code, resid) ∧
      s.dmaRuns = true ∧
      r.desc.cmd = some (ring, tag) ∧
      code ≠ 9 ∧
      (s.chan c).stop = 0 ∧
      r.desc.flag 3 = false ∧
      (s.chan c).fetched = [] ∧
      (s.chan c).swEnd = none ∧
      (s.chan c).queue = [] ∧
      s.get (F.DMA_CH_STAT_STATE c) ≠ 3 :=
  ⟨2, 1, 0, 5, 7, { wRunDma with desc := { wRunDma.desc with cmd := some (5, 7) }, result := some (1, 0) }, wChan { run := some { wRunDma with desc := { wRunDma.desc with cmd := some (5, 7) }, result := some (1, 0) } } wSetup, by decide +kernel⟩

theorem test_dmaHaltsAndRestarts_1_hypotheses :
    ∃ (c : DmaCh) (link : Bool) (s : State),
      s.up = true ∧
      link = true ∧
      s.flag F.Q_STAT_LINKUP = false ∧
      s.flag F.DMA_STAT_HALT = false ∧
      s.flag (F.DMA_CH_CFG_EN c) = true :=
  ⟨2, true, (wChan {} wSetup).put F.Q_STAT_LINKUP 0, by decide +kernel⟩

theorem test_dmaHaltsAndRestarts_2_hypotheses :
    ∃ (id : Nat) (s : State),
      s.up = true ∧
      s.flag F.DMA_STAT_HALT = false ∧
      (s.ringOf id).ctx.en = true ∧
      (s.ringOf id).ctx.kind = 0 ∧
      id ≠ s.ringGlobal ((s.ringFunc id).getD 0) 0 :=
  ⟨5, wRings [(5, { ctx := wCtx 0 })] wSetup, by decide +kernel⟩

theorem test_dmaHaltsAndRestarts_3_hypotheses :
    ∃ (s : State),
      s.flag F.DMA_STAT_HALT = true ∧
      s.flag F.DMA_STAT_SETTLED = false ∧
      s.dma.reads = [] ∧
      s.dma.failing = none ∧
      s.dma.failAddr < 2 ^ 64 ∧
      (∀ c : Nat, c < 64 → (s.chan c).run = none) :=
  ⟨{ (wSetup.put F.DMA_STAT_HALT 1) with dma := { failAddr := 0x123456789 } }, by decide +kernel⟩

theorem test_dmaHaltsAndRestarts_4_hypotheses :
    ∃ (c : DmaCh) (r : DmaRun) (s : State),
      s.flag F.DMA_STAT_HALT = true ∧
      s.flag F.DMA_STAT_SETTLED = false ∧
      s.dma.reads = [] ∧
      s.dma.failing = some c.val ∧
      (s.chan c).run = some r ∧
      r.desc.cmd = none ∧
      s.hostUp (s.dmaFunc c) = true ∧
      r.desc.flag 3 = false ∧
      (s.chan c).stop = 0 ∧
      (∀ e : Nat, e < 64 → e ≠ c → (s.chan e).run = none) :=
  ⟨2, wRunDma, (fun (s : State) => { s with dma := { s.dma with failing := some 2, failLeft := 60, failAddr := 0x1028 } }) ((wChan { run := some wRunDma } wSetup).put F.DMA_STAT_HALT 1), by decide +kernel⟩

theorem test_dmaHaltsAndRestarts_5_hypotheses :
    ∃ (s : State),
      s.access R.DMA_CMD = true ∧
      s.flag F.DMA_STAT_SETTLED = true ∧
      s.flag F.Q_STAT_LINKUP = true ∧
      s.ringsMode = true ∧
      (∀ c : Nat, c < 64 → s.flag (F.DMA_CH_CFG_EN c) = false) :=
  ⟨((wRings [] wSetup).put F.DMA_STAT_HALT 1).put F.DMA_STAT_SETTLED 1, by decide +kernel⟩

theorem test_dmaHaltsAndRestarts_6_hypotheses :
    ∃ (s : State),
      s.access R.DMA_CMD = true ∧
      s.flag F.DMA_STAT_SETTLED = true ∧
      s.flag F.Q_STAT_LINKUP = true ∧
      s.ringsMode = true :=
  ⟨((wChan {} wSetup).put F.DMA_STAT_HALT 1).put F.DMA_STAT_SETTLED 1, by decide +kernel⟩

theorem test_dmaHaltsAndRestarts_7_hypotheses :
    ∃ (s : State),
      s.access R.DMA_CMD = true ∧
      (s.flag F.DMA_STAT_SETTLED = false ∨ s.flag F.Q_STAT_LINKUP = false ∨ s.ringsMode = false) :=
  ⟨wSetup, by decide +kernel⟩

theorem test_dmaHaltsAndRestarts_8_hypotheses :
    ∃ (s : State),
      s.flag F.DMA_STAT_HALT = true ∧
      s.flag F.DMA_STAT_SETTLED = true ∧
      s.get F.DMA_STAT_CAUSE = 2 ∧
      s.flag F.Q_STAT_LINKUP = true ∧
      s.flag F.Q_STAT_BME = true ∧
      (∀ c : Nat, c < 64 → s.flag (F.DMA_CH_CFG_EN c) = false) :=
  ⟨((((wRings [] wSetup).put F.DMA_STAT_HALT 1).put F.DMA_STAT_SETTLED 1).put F.DMA_STAT_CAUSE 2).put F.Q_STAT_BME 1, by decide +kernel⟩

theorem test_dmaHaltsAndRestarts_9_hypotheses :
    ∃ (s : State),
      s.flag F.DMA_STAT_HALT = true ∧
      s.flag F.DMA_STAT_SETTLED = true ∧
      s.get F.DMA_STAT_CAUSE = 2 ∧
      s.flag F.Q_STAT_LINKUP = true ∧
      s.flag F.Q_STAT_BME = true :=
  ⟨((((wChan {} wSetup).put F.DMA_STAT_HALT 1).put F.DMA_STAT_SETTLED 1).put F.DMA_STAT_CAUSE 2).put F.Q_STAT_BME 1, by decide +kernel⟩

theorem test_faultReportsAreRecordedOrCounted_1_hypotheses :
    ∃ (unit : Option Report) (t : Nat) (r : Report) (s : State),
      s.up = true ∧
      (s.judged unit t).dependentReports = [] ∧
      firstReport (s.judged unit t).inbox = some r :=
  ⟨some { source := 12, cls := .uc, detail := 7 }, 90, { source := 12, cls := .uc, detail := 7 }, { wSetup with inbox := [{ source := 3, cls := .ce, detail := 7 }] }, by decide +kernel⟩

theorem test_faultReportsAreRecordedOrCounted_2_hypotheses :
    ∃ (unit : Option Report) (t : Nat) (r : Report) (s : State),
      s.up = true ∧
      (s.judged unit t).dependentReports = [] ∧
      firstReport (s.judged unit t).inbox = some r ∧
      (s.judged unit t).recordedClass r.source (classCode r.cls) ≠ 2 :=
  ⟨none, 90, { source := 46, cls := .ce, detail := 7 }, { (wSetup.put F.Q_FEVT_EN 1).put (F.FC_SRC_UNACK 46) 1 with inbox := [{ source := 46, cls := .ce, detail := 7 }] }, by decide +kernel⟩

theorem test_faultReportsAreRecordedOrCounted_3_hypotheses :
    ∃ (unit : Option Report) (t : Nat) (r : Report) (s : State),
      s.up = true ∧
      (s.judged unit t).dependentReports = [] ∧
      firstReport (s.judged unit t).inbox = some r ∧
      (s.judged unit t).recordedClass r.source (classCode r.cls) = 2 ∧
      44 ≤ r.source.val :=
  ⟨some { source := 48, cls := .uc, detail := 7 }, 90, { source := 48, cls := .uc, detail := 7 }, wSetup.put (F.FC_SRC_UNACK 48) 2, by decide +kernel⟩

theorem test_faultReportsAreRecordedOrCounted_4_hypotheses :
    ∃ (unit : Option Report) (t : Nat) (r : Report) (s : State),
      s.up = true ∧
      (s.judged unit t).dependentReports = [] ∧
      firstReport (s.judged unit t).inbox = some r ∧
      (s.judged unit t).recordedClass r.source (classCode r.cls) = 2 ∧
      r.source.val < 44 :=
  ⟨some { source := 33, cls := .fa, detail := 7 }, 90, { source := 33, cls := .fa, detail := 7 }, wSetup, by decide +kernel⟩

theorem test_faultReportsAreRecordedOrCounted_5_hypotheses :
    ∃ (unit : Option Report) (t : Nat) (r : Report) (root : Nat × Nat) (s : State),
      s.up = true ∧
      firstReport (s.judged unit t).dependentReports = some r ∧
      (s.judged unit t).rootOf r.source = some root :=
  ⟨some { source := 3, cls := .ce, detail := 7 }, 90, { source := 3, cls := .ce, detail := 7 }, (50, 16), { wSetup with faults := { roots := [{ src := 9, opens := [10] }, { src := 16, opens := [50] }] }, inbox := [{ source := 44, cls := .uc, detail := 7 }] }, by decide +kernel⟩

theorem test_faultReportsAreRecordedOrCounted_6_hypotheses :
    ∃ (unit : Option Report) (t : Nat) (s : State),
      s.up = true ∧
      (s.judged unit t).inbox = [] :=
  ⟨some { source := 60, cls := .uc, detail := 7 }, 90, wSetup, by decide +kernel⟩

theorem test_faultReportsAreRecordedOrCounted_7_hypotheses :
    ∃ (src : Source) (t : Nat) (r : FaultRoot) (s : State),
      s.up = true ∧
      (s.faults.roots.find? fun x => x.src == src.val && !x.ended) = some r ∧
      r.windowEnd ≤ t :=
  ⟨16, 2000000, { src := 16, opens := [50], deps := 2, first := some 3, made := [(3, 0, 7)] }, { wSetup with faults := { roots := [{ src := 9, opens := [10] }, { src := 16, opens := [50], deps := 2, first := some 3, made := [(3, 0, 7)] }] } }, by decide +kernel⟩

theorem test_faultReportsAreRecordedOrCounted_8_hypotheses :
    ∃ (src : Source) (t : Nat) (r : FaultRoot) (s : State),
      s.up = true ∧
      (s.faults.roots.find? fun x => x.src == src.val && x.ended) = some r ∧
      s.liveOf src = false ∨ s.isRetired src = true ∧
      (r.made.all fun e => !(s.at t).ceExpire.liveOf e.1) = true :=
  ⟨16, 90, { src := 16, opens := [50], ended := true, made := [(3, 0, 7)] }, { wSetup with faults := { roots := [{ src := 9, opens := [10] }, { src := 16, opens := [50], ended := true, made := [(3, 0, 7)] }] } }, by decide +kernel⟩

theorem test_faultReportsAreRecordedOrCounted_9_hypotheses :
    ∃ (src : Source) (t : Nat) (r : FaultRoot) (e : Nat × Nat × Nat) (s : State),
      s.up = true ∧
      (s.faults.roots.find? fun x => x.src == src.val && x.ended) = some r ∧
      s.liveOf src = false ∨ s.isRetired src = true ∧
      r.made = [e] ∧
      e.1 < 56 ∧
      e.2.1 < 3 ∧
      (s.at t).ceExpire.liveOf e.1 = true :=
  ⟨16, 90, { src := 16, opens := [50], ended := true, made := [(20, 1, 7)] }, (20, 1, 7), { wSetup.put (F.HP_TSTAT_LIVE 0) 1 with faults := { roots := [{ src := 16, opens := [50], ended := true, made := [(20, 1, 7)] }] } }, by decide +kernel⟩

theorem test_faultReportsAreRecordedOrCounted_10_hypotheses :
    ∃ (s : State),
      s.up = true :=
  ⟨{ (wSetup.put (F.FC_SRC_UNACK 12) 7) with faults := { ceEnd := [(12, 80), (13, 100)] } }, by decide +kernel⟩

theorem test_faultSoftwareAndRestore_1_hypotheses :
    ∃ (s : State),
      s.access R.FC_FSW_LO = true :=
  ⟨(((wSetup.put F.FC_FSW_LO_LATCH 0x21000).put (F.FC_SRC_CLASS 12) 2).put (F.FC_SRC_UNACK 12) 2).put F.FC_RET_LO_RET 131072, by decide +kernel⟩

theorem test_faultSoftwareAndRestore_2_hypotheses :
    ∃ (s : State),
      s.access R.FC_ACK_LO = true :=
  ⟨{ wSetup.put (F.FC_SRC_UNACK 44) 7 with faults := { ceEnd := [(44, 5), (45, 5)] } }, by decide +kernel⟩

theorem test_faultSoftwareAndRestore_3_hypotheses :
    ∃ (hi : Bool) (v : Word) (k : Nat) (s : State),
      s.access R.FC_FORCE_LO = true ∧
      k ∈ named hi v ∧
      56 ≤ k ∨ s.isRetired k = true :=
  ⟨false, 0x00003000, 12, wSetup.put F.FC_RET_LO_RET 4096, by decide +kernel⟩

theorem test_faultSoftwareAndRestore_4_hypotheses :
    ∃ (hi : Bool) (v : Word) (s : State),
      s.access R.FC_FORCE_LO = true ∧
      (∀ k ∈ named hi v, 56 ≤ k ∨ s.isRetired k = true) ∧
      named hi v ≠ [] :=
  ⟨true, 0x03000000, wSetup, by decide +kernel⟩

theorem test_faultSoftwareAndRestore_5_hypotheses :
    ∃ (hi : Bool) (v : Word) (k : Nat) (root : Nat × Nat) (s : State),
      s.access R.FC_FORCE_LO = true ∧
      named hi v = [k] ∧
      k < 56 ∧
      s.isRetired k = false ∧
      s.ceExpire.rootOf k = some root :=
  ⟨false, 8, 3, (0, 16), { wSetup with faults := { roots := [{ src := 16, opens := [0] }] } }, by decide +kernel⟩

theorem test_faultSoftwareAndRestore_6_hypotheses :
    ∃ (hi : Bool) (v : Word) (k : Nat) (s : State),
      s.access R.FC_FORCE_LO = true ∧
      named hi v = [k] ∧
      k < 56 ∧
      s.isRetired k = false ∧
      s.ceExpire.rootOf k = none :=
  ⟨false, 0x00001000, 12, wSetup.put F.FC_CTRL_FCLASS 2, by decide +kernel⟩

theorem test_faultSoftwareAndRestore_7_hypotheses :
    ∃ (hi : Bool) (v : Word) (k : Nat) (s : State),
      s.access R.FC_FORCE_LO = true ∧
      named hi v = [k] ∧
      k < 56 ∧
      s.isRetired k = false ∧
      s.ceExpire.rootOf k = none ∧
      s.ceExpire.recordedClass k (s.get F.FC_CTRL_FCLASS) ≠ 2 :=
  ⟨false, 0x00001000, 12, wSetup, by decide +kernel⟩

theorem test_faultSoftwareAndRestore_8_hypotheses :
    ∃ (s : State),
      s.access R.FC_RESTORE_LO = true ∧
      s.mode = .setup :=
  ⟨wSetup.put F.FC_RET_LO_RET 4096, by decide +kernel⟩

theorem test_faultSoftwareAndRestore_9_hypotheses :
    ∃ (s : State),
      s.mode ≠ .setup :=
  ⟨wRun, by decide +kernel⟩

theorem test_faultSoftwareAndRestore_10_hypotheses :
    ∃ (src : Source) (s : State),
      s.faults.tests.contains src.val = true :=
  ⟨30, { wSetup.put F.FC_RET_LO_RET 0x40000000 with faults := { tests := [30] } }, by decide +kernel⟩

theorem test_faultSoftwareAndRestore_11_hypotheses :
    ∃ (src : Block) (s : State),
      s.faults.tests.contains src.val = true :=
  ⟨3, { wSetup.put (F.EN_BSTAT_STATE 3) 0x3FFF with faults := { tests := [3, 5] } }, by decide +kernel⟩

theorem test_faultSoftwareAndRestore_12_hypotheses :
    ∃ (r : Region) (s : State),
      s.faults.tests.contains (16 + r.val) = true :=
  ⟨1, { wSetup with digitalFail := [0, 1], bankRetired := [1], faults := { tests := [17] } }, by decide +kernel⟩

theorem test_faultSoftwareAndRestore_13_hypotheses :
    ∃ (h : Head) (s : State),
      s.faults.tests.contains (20 + h.val) = true ∧
      s.mode = .setup :=
  ⟨3, { wSup 3 with faults := { tests := [23] } }, by decide +kernel⟩

theorem test_faultSoftwareAndRestore_14_hypotheses :
    ∃ (c : Channel) (s : State),
      s.faults.tests.contains (28 + c.val) = true :=
  ⟨2, { wSetup.put F.FC_RET_LO_RET 0x40000000 with faults := { tests := [30] }, lostChan := [2] }, by decide +kernel⟩

theorem test_faultSoftwareAndRestore_15_hypotheses :
    ∃ (src : Source) (s : State),
      s.faults.tests.contains src.val = true :=
  ⟨30, { wSetup.put F.FC_RET_LO_RET 0x40000000 with faults := { tests := [30] }, lostChan := [2] }, by decide +kernel⟩

theorem test_churnAndScrub_1_hypotheses :
    ∃ (a : Activity) (n : Nat) (s : State),
      s.up = true ∧
      (a = .m9p ∧ s.nv.req.contains n = true) ∨ (a = .m9r ∧ (nvRing n).isSome = true) ∨ (a = .m10 ∧ n < 24) ∨ (a = .m1 ∧ s.inRun = true ∧ s.trimReady (n / 16) = true ∧ n % 16 = s.trimConv (n / 16)) ∧
      ((s.churnRun ++ s.churnQueue).any fun j => j.act == a && j.res == n) = true :=
  ⟨.m10, 5, { wSetup with churnRun := [{ act := .m10, res := 5, since := 0 }] }, by decide +kernel⟩

theorem test_churnAndScrub_2_hypotheses :
    ∃ (a : Activity) (n : Nat) (s : State),
      s.up = true ∧
      (a = .m9p ∧ s.nv.req.contains n = true) ∨ (a = .m9r ∧ (nvRing n).isSome = true) ∨ (a = .m10 ∧ n < 24) ∨ (a = .m1 ∧ s.inRun = true ∧ s.trimReady (n / 16) = true ∧ n % 16 = s.trimConv (n / 16)) ∧
      ((s.churnRun ++ s.churnQueue).any fun j => j.act == a && j.res == n) = false ∧
      (s.churnRun.any fun j => waitPair j.act a && sameResource j.act j.res a n) = false :=
  ⟨.m9r, 2, { wSetup with churnRun := [{ act := .m10, res := 5, since := 0 }] }, by decide +kernel⟩

theorem test_churnAndScrub_3_hypotheses :
    ∃ (a : Activity) (n : Nat) (s : State),
      s.up = true ∧
      (a = .m9p ∧ s.nv.req.contains n = true) ∨ (a = .m9r ∧ (nvRing n).isSome = true) ∨ (a = .m1 ∧ s.inRun = true ∧ s.trimReady (n / 16) = true ∧ n % 16 = s.trimConv (n / 16)) ∧
      ((s.churnRun ++ s.churnQueue).any fun j => j.act == a && j.res == n) = false ∧
      (s.churnRun.any fun j => waitPair j.act a && sameResource j.act j.res a n) = true :=
  ⟨.m9p, 2, { wSetup with churnRun := [{ act := .m10, res := 5, since := 0 }, { act := .m9r, res := 2, since := 0 }], nv := { req := [2] } }, by decide +kernel⟩

theorem test_churnAndScrub_4_hypotheses :
    ∃ (n : Fin 32) (s : State),
      s.scrubDue n = true :=
  ⟨19, { (wSetup.put F.MC_CFG_DSCRUB_EN 1).put (F.DR_CSTAT_TRAINED 3) 1 with churnRun := [{ act := .m8, res := 19, since := 0 }] }, by decide +kernel⟩

theorem test_churnAndScrub_5_hypotheses :
    ∃ (j : Job) (s : State),
      s.churnNext = some j :=
  ⟨{ act := .m10, res := 5 }, { wSetup with churnQueue := [{ act := .m9p, res := 5 }, { act := .m10, res := 5 }] }, by decide +kernel⟩

theorem test_churnAndScrub_6_hypotheses :
    ∃ (j : Job) (s : State),
      s.churnNext = some j ∧
      j.act = .m2 ∧
      j.res < 4 :=
  ⟨{ act := .m2, res := 1 }, { wSetup with churnQueue := [{ act := .m2, res := 1 }] }, by decide +kernel⟩

theorem test_churnAndScrub_7_hypotheses :
    ∃ (j : Job) (s : State),
      s.churnNext = some j ∧
      j.act = .m3 ∧
      j.res < 8 :=
  ⟨{ act := .m3, res := 5 }, { wSetup with churnQueue := [{ act := .m3, res := 5 }] }, by decide +kernel⟩

theorem test_churnAndScrub_8_hypotheses :
    ∃ (j : Job) (s : State),
      s.churnNext = some j ∧
      j.act = .m4 ∧
      j.res < 8 ∧
      (s.shut j.res).refitPhase = 6 :=
  ⟨{ act := .m4, res := 5 }, { wSetup.modShut 5 (fun e => { e with refitPhase := 6 }) with churnQueue := [{ act := .m4, res := 5 }] }, by decide +kernel⟩

theorem test_churnAndScrub_9_hypotheses :
    ∃ (j : Job) (s : State),
      s.churnNext = some j ∧
      j.act = .m5 ∧
      j.res % 3 = 0 ∧
      j.res < 24 ∧
      (s.shut (j.res / 3)).refitPhase = 3 :=
  ⟨{ act := .m5, res := 15 }, { wSetup.modShut 5 (fun e => { e with refitPhase := 3 }) with churnQueue := [{ act := .m5, res := 15 }] }, by decide +kernel⟩

theorem test_churnAndScrub_10_hypotheses :
    ∃ (j : Job) (l : McLoad) (s : State),
      s.churnNext = some j ∧
      j.act = .m6 ∧
      s.mcLoad = some l :=
  ⟨{ act := .m6, res := 2 }, { left := [2] }, { wSetup with churnQueue := [{ act := .m6, res := 2 }], mcLoad := some { left := [2] } }, by decide +kernel⟩

theorem test_churnAndScrub_11_hypotheses :
    ∃ (j : Job) (t : Nat) (s : State),
      j ∈ s.churnQueue ∧
      j.act ∈ [Activity.m2, .m3, .m4, .m5, .m6] ∧
      s.get F.MC_CFG_QWAIT ≠ 0 ∧
      j.since + s.get F.MC_CFG_QWAIT * 1000000000 ≤ t :=
  ⟨{ act := .m6, res := 1 }, 3000000000, { (wSetup.put F.MC_CFG_QWAIT 2) with churnQueue := [{ act := .m2, res := 1 }, { act := .m6, res := 1 }] }, by decide +kernel⟩

theorem test_churnAndScrub_12_hypotheses :
    ∃ (j : Job) (t : Nat) (s : State),
      s.churnQueue = [j] ∧
      j.act = .m2 ∧
      j.res < 4 ∧
      s.get F.MC_CFG_QWAIT ≠ 0 ∧
      j.since + s.get F.MC_CFG_QWAIT * 1000000000 ≤ t :=
  ⟨{ act := .m2, res := 1 }, 3000000000, { (wSetup.put F.MC_CFG_QWAIT 2) with churnQueue := [{ act := .m2, res := 1 }] }, by decide +kernel⟩

theorem test_churnAndScrub_13_hypotheses :
    ∃ (s : State),
      s.get F.MC_CFG_QWAIT = 0 :=
  ⟨wSetup.put F.MC_CFG_QWAIT 0, by decide +kernel⟩

theorem test_churnAndScrub_14_hypotheses :
    ∃ (d : Bool) (n : Fin 16) (s : State),
      s.scrubDue (scrubRes d n) = true :=
  ⟨false, 3, { wSetup.put F.MC_CFG_SSCRUB_EN 1 with churnRun := [{ act := .m8, res := 3, since := 0 }] }, by decide +kernel⟩

theorem test_churnAndScrub_15_hypotheses :
    ∃ (d : Bool) (n : Fin 16) (s : State),
      s.scrubDue (scrubRes d n) = false :=
  ⟨true, 3, wSetup, by decide +kernel⟩

theorem test_churnAndScrub_17_hypotheses :
    ∃ (n : Fin 16) (s : State),
      s.scrubOn n = true ∧
      s.churnRuns .m8 n = true :=
  ⟨3, { wSetup.put F.MC_CFG_SSCRUB_EN 1 with churnRun := [{ act := .m8, res := 3, since := 0 }] }, by decide +kernel⟩

theorem test_churnAndScrub_18_hypotheses :
    ∃ (n : Fin 16) (s : State),
      s.scrubOn (16 + n) = true ∧
      s.churnRuns .m8 (16 + n) = true :=
  ⟨3, { (wSetup.put F.MC_CFG_DSCRUB_EN 1).put (F.DR_CSTAT_TRAINED 3) 1 with churnRun := [{ act := .m8, res := 19, since := 0 }] }, by decide +kernel⟩

theorem test_churnAndScrub_19_hypotheses :
    ∃ (n : Fin 16) (s : State),
      s.scrubOn n = true ∧
      s.churnRuns .m8 n = true :=
  ⟨3, { wSetup.put F.MC_CFG_SSCRUB_EN 1 with churnRun := [{ act := .m8, res := 3, since := 0 }] }, by decide +kernel⟩

theorem test_churnAndScrub_20_hypotheses :
    ∃ (n : Fin 16) (a : Nat) (s : State),
      s.scrubOn (16 + n) = true ∧
      s.churnRuns .m8 (16 + n) = true ∧
      a < 2 ^ 64 :=
  ⟨3, 0x140, { (wSetup.put F.MC_CFG_DSCRUB_EN 1).put (F.DR_CSTAT_TRAINED 3) 1 with churnRun := [{ act := .m8, res := 19, since := 0 }] }, by decide +kernel⟩

theorem test_churnAndScrub_21_hypotheses :
    ∃ (n : Fin 16) (a : Nat) (s : State),
      s.scrubOn (16 + n) = true ∧
      s.churnRuns .m8 (16 + n) = true ∧
      a < 2 ^ 64 ∧
      s.inCtxArea a = false :=
  ⟨3, 0x140, { (wSetup.put F.MC_CFG_DSCRUB_EN 1).put (F.DR_CSTAT_TRAINED 3) 1 with churnRun := [{ act := .m8, res := 19, since := 0 }] }, by decide +kernel⟩

theorem test_thermalLimitsAreGuarded_1_hypotheses :
    ∃ (v : Word) (s : State),
      s.mode ≠ .reset ∧
      60 ≤ fieldOf F.TH_CFG_WARN v ∧
      fieldOf F.TH_CFG_WARN v ≤ fieldOf F.TH_CFG_THR v ∧
      fieldOf F.TH_CFG_THR v + 5 ≤ fieldOf F.TH_CFG_SHUT v ∧
      fieldOf F.TH_CFG_SHUT v ≤ 115 ∧
      1 ≤ fieldOf F.TH_CFG_HYST v ∧
      fieldOf F.TH_CFG_HYST v ≤ 10 ∧
      s.mode = .dormant ∨ s.mode = .setup ∨ (fieldOf F.TH_CFG_WARN v ≤ s.get F.TH_CFG_WARN ∧ fieldOf F.TH_CFG_THR v ≤ s.get F.TH_CFG_THR ∧ fieldOf F.TH_CFG_SHUT v ≤ s.get F.TH_CFG_SHUT) :=
  ⟨0x106E5A50, wSetup, by decide +kernel⟩

theorem test_thermalLimitsAreGuarded_2_hypotheses :
    ∃ (v : Word) (s : State),
      s.mode ≠ .reset ∧
      60 ≤ fieldOf F.TH_CFG_WARN v ∧
      fieldOf F.TH_CFG_WARN v ≤ fieldOf F.TH_CFG_THR v ∧
      fieldOf F.TH_CFG_THR v + 5 ≤ fieldOf F.TH_CFG_SHUT v ∧
      fieldOf F.TH_CFG_SHUT v ≤ 115 ∧
      1 ≤ fieldOf F.TH_CFG_HYST v ∧
      fieldOf F.TH_CFG_HYST v ≤ 10 ∧
      s.mode ≠ .dormant ∧
      s.mode ≠ .setup ∧
      s.get F.TH_CFG_WARN < fieldOf F.TH_CFG_WARN v ∨ s.get F.TH_CFG_THR < fieldOf F.TH_CFG_THR v ∨ s.get F.TH_CFG_SHUT < fieldOf F.TH_CFG_SHUT v :=
  ⟨0x106E6964, wRun, by decide +kernel⟩

theorem test_thermalLimitsAreGuarded_3_hypotheses :
    ∃ (v : Word) (s : State),
      s.mode ≠ .reset ∧
      fieldOf F.TH_CFG_WARN v < 60 ∨ fieldOf F.TH_CFG_THR v < fieldOf F.TH_CFG_WARN v ∨ fieldOf F.TH_CFG_SHUT v < fieldOf F.TH_CFG_THR v + 5 ∨ 115 < fieldOf F.TH_CFG_SHUT v ∨ fieldOf F.TH_CFG_HYST v = 0 ∨ 10 < fieldOf F.TH_CFG_HYST v :=
  ⟨0x106E5A3B, wRun, by decide +kernel⟩

theorem test_modeCommandsAndTransitions_1_hypotheses :
    ∃ (s : State),
      s.access R.SYS_MODECMD = true ∧
      s.flag F.SYS_MODESTAT_BUSY = false ∧
      s.mode = .setup :=
  ⟨wSetup, by decide +kernel⟩

theorem test_modeCommandsAndTransitions_2_hypotheses :
    ∃ (s : State),
      s.access R.SYS_MODECMD = true ∧
      s.flag F.SYS_MODESTAT_BUSY = false ∧
      s.mode ≠ .setup :=
  ⟨wRun, by decide +kernel⟩

theorem test_modeCommandsAndTransitions_3_hypotheses :
    ∃ (s : State),
      s.access R.SYS_MODECMD = true ∧
      s.flag F.SYS_MODESTAT_BUSY = false ∧
      s.mode ≠ .setup :=
  ⟨wRun, by decide +kernel⟩

theorem test_modeCommandsAndTransitions_4_hypotheses :
    ∃ (s : State),
      s.access R.SYS_MODECMD = true ∧
      s.flag F.SYS_MODESTAT_BUSY = false ∧
      s.mode ≠ .run :=
  ⟨wSetup, by decide +kernel⟩

theorem test_modeCommandsAndTransitions_5_hypotheses :
    ∃ (s : State),
      s.access R.SYS_MODECMD = true ∧
      s.flag F.SYS_MODESTAT_BUSY = false ∧
      s.mode ≠ .throttled :=
  ⟨wRun, by decide +kernel⟩

theorem test_modeCommandsAndTransitions_6_hypotheses :
    ∃ (s : State),
      s.access R.SYS_MODECMD = true ∧
      s.flag F.SYS_MODESTAT_BUSY = false ∧
      s.mode = .setup :=
  ⟨wSetup, by decide +kernel⟩

theorem test_modeCommandsAndTransitions_7_hypotheses :
    ∃ (i : Instr) (s : State),
      i ∈ [Instr.modeDormant, Instr.modeSetup 0, Instr.modeRun, Instr.modeThrottle, Instr.modeUnthrottle] ∧
      s.access R.SYS_MODECMD = true ∧
      s.flag F.SYS_MODESTAT_BUSY = true :=
  ⟨.modeRun, wSetup.put F.SYS_MODESTAT_BUSY 1, by decide +kernel⟩

theorem test_modeCommandsAndTransitions_8_hypotheses :
    ∃ (s : State),
      s.access R.SYS_MODECMD = true ∧
      s.flag F.SYS_MODESTAT_BUSY = false ∧
      s.mode = .dormant :=
  ⟨wIn .dormant, by decide +kernel⟩

theorem test_modeCommandsAndTransitions_9_hypotheses :
    ∃ (s : State),
      s.access R.SYS_MODECMD = true ∧
      s.flag F.SYS_MODESTAT_BUSY = false ∧
      s.mode = .safe ∧
      s.get F.SYS_SAFECAUSE_CAUSE ≠ 0 :=
  ⟨(wIn .safe).put F.SYS_SAFECAUSE_CAUSE 1, by decide +kernel⟩

theorem test_modeCommandsAndTransitions_10_hypotheses :
    ∃ (s : State),
      s.access R.SYS_MODECMD = true ∧
      s.flag F.SYS_MODESTAT_BUSY = false ∧
      s.mode = .safe ∧
      s.get F.FC_FSW_HI_LATCH / 2 ^ 12 % 2 ^ 12 ≠ 0 :=
  ⟨(wIn .safe).put F.FC_FSW_HI_LATCH 0x1000, by decide +kernel⟩

theorem test_modeCommandsAndTransitions_11_hypotheses :
    ∃ (s : State),
      s.access R.SYS_MODECMD = true ∧
      s.flag F.SYS_MODESTAT_BUSY = false ∧
      s.mode = .safe ∧
      s.get F.SYS_SAFECAUSE_CAUSE = 0 ∧
      s.get F.FC_FSW_HI_LATCH / 2 ^ 12 % 2 ^ 12 = 0 :=
  ⟨wIn .safe, by decide +kernel⟩

theorem test_modeCommandsAndTransitions_12_hypotheses :
    ∃ (h : Head) (s : State),
      s.access R.SYS_MODECMD = true ∧
      s.flag F.SYS_MODESTAT_BUSY = false ∧
      s.inRun = true ∧
      s.streams h = true :=
  ⟨3, wRun.put (F.HP_STAT_STREAM 3) 1, by decide +kernel⟩

theorem test_modeCommandsAndTransitions_13_hypotheses :
    ∃ (s : State),
      s.access R.SYS_MODECMD = true ∧
      s.flag F.SYS_MODESTAT_BUSY = false ∧
      s.inRun = true ∧
      (List.range 8).any s.streams = false ∧
      (s.frames.all fun f => f.reported) = true :=
  ⟨wRun, by decide +kernel⟩

theorem test_modeCommandsAndTransitions_14_hypotheses :
    ∃ (s : State),
      s.access R.SYS_MODECMD = true ∧
      s.flag F.SYS_MODESTAT_BUSY = false ∧
      s.mode = .setup ∧
      s.configOk = false :=
  ⟨wSetup.put (F.FP_HPIPE_SC_EN 5) 1, by decide +kernel⟩

theorem test_modeCommandsAndTransitions_15_hypotheses :
    ∃ (s : State),
      s.access R.SYS_MODECMD = true ∧
      s.flag F.SYS_MODESTAT_BUSY = false ∧
      s.mode = .setup ∧
      s.configOk = true ∧
      s.csiCheck.1 = false :=
  ⟨wOver, by decide +kernel⟩

theorem test_modeCommandsAndTransitions_16_hypotheses :
    ∃ (s : State),
      s.access R.SYS_MODECMD = true ∧
      s.flag F.SYS_MODESTAT_BUSY = false ∧
      s.mode = .setup ∧
      s.configOk = true ∧
      s.csiCheck.1 = true :=
  ⟨wSetup, by decide +kernel⟩

theorem test_modeCommandsAndTransitions_17_hypotheses :
    ∃ (s : State),
      s.access R.SYS_MODECMD = true ∧
      s.flag F.SYS_MODESTAT_BUSY = false ∧
      s.mode = .run :=
  ⟨wRun, by decide +kernel⟩

theorem test_modeCommandsAndTransitions_18_hypotheses :
    ∃ (s : State),
      s.access R.SYS_MODECMD = true ∧
      s.flag F.SYS_MODESTAT_BUSY = false ∧
      s.mode = .throttled ∧
      s.flag F.SYS_MODESTAT_THTHR = false :=
  ⟨wIn .throttled, by decide +kernel⟩

theorem test_modeCommandsAndTransitions_19_hypotheses :
    ∃ (s : State),
      s.access R.SYS_MODECMD = true ∧
      s.flag F.SYS_MODESTAT_BUSY = false ∧
      s.mode = .throttled ∧
      s.flag F.SYS_MODESTAT_THTHR = true :=
  ⟨(wIn .throttled).put F.SYS_MODESTAT_THTHR 1, by decide +kernel⟩

theorem test_modeCommandsAndTransitions_20_hypotheses :
    ∃ (s : State),
      s.access R.SYS_MODECMD = true ∧
      s.mode ≠ .safe :=
  ⟨wRun, by decide +kernel⟩

theorem test_modeCommandsAndTransitions_21_hypotheses :
    ∃ (s : State),
      s.access R.SYS_MODECMD = true ∧
      s.mode = .safe ∧
      s.flag F.SYS_MODESTAT_BUSY = false :=
  ⟨wIn .safe, by decide +kernel⟩

theorem test_modeCommandsAndTransitions_22_hypotheses :
    ∃ (s : State),
      s.access R.SYS_MODECMD = true ∧
      s.mode = .safe ∧
      s.flag F.SYS_MODESTAT_BUSY = true :=
  ⟨{ (wIn .safe).put F.SYS_MODESTAT_BUSY 1 with power := { trans := some (.up false [2]) } }, by decide +kernel⟩

theorem test_modeCommandsAndTransitions_23_hypotheses :
    ∃ (f : Bool) (s : State),
      s.power.trans = some (.up f []) :=
  ⟨true, { (wIn .dormant) with power := { trans := some (.up true []) } }, by decide +kernel⟩

theorem test_modeCommandsAndTransitions_24_hypotheses :
    ∃ (c : Channel) (f : Bool) (l : List Nat) (s : State),
      s.power.trans = some (.up f l) ∧
      l.contains c.val = true :=
  ⟨3, true, [2, 3], { (wIn .dormant) with power := { trans := some (.up true [2, 3]) } }, by decide +kernel⟩

theorem test_modeCommandsAndTransitions_25_hypotheses :
    ∃ (c : Channel) (ok : Bool) (m : Nat) (f : Bool) (l : List Nat) (s : State),
      s.power.trans = some (.up f l) ∧
      l.contains c.val = true ∧
      (ok = false ∨ m ≠ 2048) ∧
      s.get (F.DR_CSTAT_TRIES c) < 2 :=
  ⟨3, true, 1024, true, [2, 3], { (wIn .dormant) with power := { trans := some (.up true [2, 3]) } }, by decide +kernel⟩

theorem test_modeCommandsAndTransitions_26_hypotheses :
    ∃ (c : Channel) (ok : Bool) (m : Nat) (f : Bool) (l : List Nat) (s : State),
      s.power.trans = some (.up f l) ∧
      l.contains c.val = true ∧
      (ok = false ∨ m ≠ 2048) ∧
      s.get (F.DR_CSTAT_TRIES c) = 2 :=
  ⟨3, false, 1024, true, [2, 3], { (wIn .dormant).put (F.DR_CSTAT_TRIES 3) 2 with power := { trans := some (.up true [2, 3]) } }, by decide +kernel⟩

theorem test_streamsSafeCausesAndReset_1_hypotheses :
    ∃ (v : Word) (s : State),
      s.access R.SYS_STREAM = true ∧
      (s.inRun = false ∨ ∀ h : Nat, h < 8 → bit (fieldOf F.SYS_STREAM_HEADS v) h = true → bit (s.get F.SYS_STREAM_HEADS) h = true) :=
  ⟨0xFF, wSetup, by decide +kernel⟩

theorem test_streamsSafeCausesAndReset_2_hypotheses :
    ∃ (v : Word) (h : Head) (s : State),
      s.access R.SYS_STREAM = true ∧
      s.inRun = true ∧
      s.power.trans ≠ some .down ∧
      bit (fieldOf F.SYS_STREAM_HEADS v) h = true ∧
      bit (s.get F.SYS_STREAM_HEADS) h = false ∧
      s.configOk = true :=
  ⟨0x08, 3, wRun, by decide +kernel⟩

theorem test_streamsSafeCausesAndReset_3_hypotheses :
    ∃ (v : Word) (h : Head) (s : State),
      s.access R.SYS_STREAM = true ∧
      s.inRun = true ∧
      s.power.trans ≠ some .down ∧
      bit (fieldOf F.SYS_STREAM_HEADS v) h = true ∧
      bit (s.get F.SYS_STREAM_HEADS) h = false ∧
      s.configOk = false :=
  ⟨0x08, 3, wRun.put (F.FP_HPIPE_SC_EN 5) 1, by decide +kernel⟩

theorem test_streamsSafeCausesAndReset_4_hypotheses :
    ∃ (s : State),
      s.access R.SYS_SAFECAUSE = true :=
  ⟨((wIn .safe).put F.SYS_SAFECAUSE_CAUSE 3).put F.TH_STAT_TJ 12000, by decide +kernel⟩

theorem test_streamsSafeCausesAndReset_5_hypotheses :
    ∃ (c : ResetCause) (s : State),
      s.mode ≠ .reset ∧
      c = .por ∨ (c = .pin ∧ s.power.seq = false) :=
  ⟨.pin, wRun, by decide +kernel⟩

theorem test_streamsSafeCausesAndReset_6_hypotheses :
    ∃ (s : State),
      s.mode ≠ .reset ∧
      s.power.seq = true :=
  ⟨{ wRun with power := { seq := true } }, by decide +kernel⟩

theorem test_streamsSafeCausesAndReset_7_hypotheses :
    ∃ (s : State),
      s.mode ≠ .reset ∧
      s.power.seq = false ∧
      s.power.pfPin = false ∧
      s.power.pfRail = false ∧
      s.railOk 12 = true :=
  ⟨wRun, by decide +kernel⟩

theorem test_streamsSafeCausesAndReset_8_hypotheses :
    ∃ (s : State),
      s.mode = .reset ∧
      s.power.released = false :=
  ⟨wIn .reset, by decide +kernel⟩

theorem test_streamsSafeCausesAndReset_9_hypotheses :
    ∃ (s : State),
      s.mode ≠ .reset :=
  ⟨wRun, by decide +kernel⟩

theorem test_streamsSafeCausesAndReset_10_hypotheses :
    ∃ (s : State),
      s.mode = .reset ∧
      s.power.released = false ∧
      s.chooseIo.railsGood = true :=
  ⟨wIn .reset, by decide +kernel⟩

theorem test_streamsSafeCausesAndReset_11_hypotheses :
    ∃ (s : State),
      s.mode = .reset ∧
      s.power.released = true :=
  ⟨{ (wIn .reset) with power := { released := true } }, by decide +kernel⟩

theorem test_clockRailsAndPowerFailure_1_hypotheses :
    ∃ (s : State),
      s.mode = .dormant ∨ s.mode = .safe ∧
      s.refStopped = false :=
  ⟨wIn .safe, by decide +kernel⟩

theorem test_clockRailsAndPowerFailure_2_hypotheses :
    ∃ (s : State),
      s.mode = .setup ∨ s.mode = .run ∨ s.mode = .throttled ∧
      s.refStopped = false :=
  ⟨wRun, by decide +kernel⟩

theorem test_clockRailsAndPowerFailure_4_hypotheses :
    ∃ (s : State),
      s.refStopped = false ∧
      s.up = true :=
  ⟨wSetup, by decide +kernel⟩

theorem test_clockRailsAndPowerFailure_5_hypotheses :
    ∃ (r : RailReading) (s : State),
      s.up = true ∧
      r.rail.val ≠ 5 ∧
      r.rail.val ≠ 12 ∧
      s.readsSag r = true ∧
      s.readsReset r = false ∧
      (s.readsFail r = true → r.rail.val ∈ s.power.failing) :=
  ⟨⟨3, 3000000, 1000⟩, wSetup, by decide +kernel⟩

theorem test_clockRailsAndPowerFailure_6_hypotheses :
    ∃ (r : RailReading) (s : State),
      s.up = true ∧
      r.rail.val ≠ 5 ∧
      s.below r.rail r.uv 93 = false ∧
      s.above r.rail r.uv 110 = false ∧
      s.readsAonLow r = false :=
  ⟨⟨3, 3300000, 0⟩, { (wSetup.put F.SYS_PWRSTAT_SAG 8) with power := { failing := [3] } }, by decide +kernel⟩

theorem test_clockRailsAndPowerFailure_7_hypotheses :
    ∃ (v : RailLevel) (s : State),
      s.up = true ∧
      s.power.failing.contains 12 = false ∧
      s.above 12 v.uv 110 = true ∧
      10000 ≤ v.ns :=
  ⟨⟨2000000, 10000⟩, wSetup, by decide +kernel⟩

theorem test_clockRailsAndPowerFailure_8_hypotheses :
    ∃ (k : Rail) (v : RailLevel) (s : State),
      s.up = true ∧
      s.mode ≠ .safe ∧
      k.val ≠ 4 ∧
      k.val ≠ 5 ∧
      k.val ≠ 12 ∧
      k.val ≠ 13 ∧
      s.power.failing.contains k.val = false ∧
      s.readsFail ⟨k, v.uv, v.ns⟩ = true ∧
      s.readsReset ⟨k, v.uv, v.ns⟩ = false :=
  ⟨3, ⟨2800000, 10000⟩, wRun, by decide +kernel⟩

theorem test_clockRailsAndPowerFailure_9_hypotheses :
    ∃ (v : RailLevel) (s : State),
      s.up = true ∧
      s.power.failing.contains 4 = false ∧
      s.readsFail ⟨4, v.uv, v.ns⟩ = true :=
  ⟨⟨4000000, 10000⟩, wRun.put (F.HP_STAT_HSUP 5) 2, by decide +kernel⟩

theorem test_clockRailsAndPowerFailure_10_hypotheses :
    ∃ (v : RailLevel) (s : State),
      s.up = true ∧
      s.power.failing.contains 13 = false ∧
      s.readsFail ⟨13, v.uv, v.ns⟩ = true ∧
      s.readsReset ⟨13, v.uv, v.ns⟩ = false ∧
      s.power.pfPin = false ∧
      s.power.pfRail = false :=
  ⟨⟨1500000, 10000⟩, wRun, by decide +kernel⟩

theorem test_clockRailsAndPowerFailure_11_hypotheses :
    ∃ (k : Rail) (v : RailLevel) (s : State),
      s.up = true ∧
      k.val ≠ 4 ∧
      k.val ≠ 5 ∧
      k.val ≠ 12 ∧
      s.below k v.uv 80 = true ∧
      s.railOk 12 = true ∧
      s.power.seq = false ∧
      s.power.pfPin = false ∧
      s.power.pfRail = false :=
  ⟨0, ⟨500000, 0⟩, wRun, by decide +kernel⟩

theorem test_clockRailsAndPowerFailure_12_hypotheses :
    ∃ (v : RailLevel) (s : State),
      s.up = true ∧
      v.uv < 1550000 :=
  ⟨⟨1500000, 0⟩, wRun, by decide +kernel⟩

theorem test_clockRailsAndPowerFailure_13_hypotheses :
    ∃ (s : State),
      s.up = true ∧
      s.power.pfPin = false ∧
      s.power.pfRail = false :=
  ⟨wRun, by decide +kernel⟩

theorem test_clockRailsAndPowerFailure_14_hypotheses :
    ∃ (r : RailReading) (s : State),
      s.up = true ∧
      s.readsAonLow r = true ∧
      1550000 ≤ r.uv ∧
      s.power.pfPin = false ∧
      s.power.pfRail = false :=
  ⟨⟨12, 1700000, 1000⟩, wRun, by decide +kernel⟩

theorem test_clockRailsAndPowerFailure_15_hypotheses :
    ∃ (s : State),
      s.up = true ∧
      (s.power.pfPin || s.power.pfRail) = true :=
  ⟨{ wSetup with power := { pfRail := true } }, by decide +kernel⟩

theorem test_clockRailsAndPowerFailure_16_hypotheses :
    ∃ (s : State),
      s.mode = .reset :=
  ⟨wIn .reset, by decide +kernel⟩

theorem test_clockRailsAndPowerFailure_17_hypotheses :
    ∃ (s : State),
      s.up = true ∧
      s.power.seq = true ∧
      s.power.resetWait = [] :=
  ⟨{ wSetup with power := { seq := true } }, by decide +kernel⟩

theorem test_clockRailsAndPowerFailure_18_hypotheses :
    ∃ (s : State),
      s.up = true ∧
      s.power.seq = true ∧
      s.power.resetWait ≠ [] :=
  ⟨{ wSetup with power := { seq := true, resetWait := [.pin, .rail] } }, by decide +kernel⟩

theorem test_clockRailsAndPowerFailure_19_hypotheses :
    ∃ (s : State),
      s.up = true ∧
      s.railOk 12 = true :=
  ⟨{ wSetup.put F.SYS_PWRSTAT_PFAIL 1 with power := { pfPin := true } }, by decide +kernel⟩

theorem test_milkRoundRuns_1_hypotheses :
    ∃ (d : Nat) (s : State),
      s.up = true ∧
      s.hkDue d = true ∧
      s.flag F.HK_STAT_RUNNING = false :=
  ⟨90, wSetup, by decide +kernel⟩

theorem test_milkRoundRuns_2_hypotheses :
    ∃ (d : Nat) (k : Nat) (l : List Nat) (s : State),
      s.up = true ∧
      s.hkDue d = true ∧
      (s.ring.marks.any fun m => m.trig && m.instant ≤ d) = false ∧
      s.flag F.HK_STAT_RUNNING = false ∧
      s.hk.cur = none ∧
      s.hk.inj = [] ∧
      hkSlots (s.get F.HK_XMASK_X) = k :: l :=
  ⟨90, 0, (hkSlots 0).drop 1, wSetup, by decide +kernel⟩

theorem test_milkRoundRuns_3_hypotheses :
    ∃ (d : Nat) (s : State),
      s.up = true ∧
      s.hkDue d = true ∧
      (s.ring.marks.any fun m => m.trig && m.instant ≤ d) = false ∧
      s.flag F.HK_STAT_RUNNING = true :=
  ⟨90, wSetup.put F.HK_STAT_RUNNING 1, by decide +kernel⟩

theorem test_milkRoundRuns_4_hypotheses :
    ∃ (k : Nat) (s : State),
      s.up = true ∧
      s.hk.cur = some (.slot k) ∧
      k < 48 :=
  ⟨25, { wSetup with hk := { cur := some (.slot 25), slots := [26] } }, by decide +kernel⟩

theorem test_milkRoundRuns_5_hypotheses :
    ∃ (q : HkInj) (s : State),
      s.up = true ∧
      s.hk.cur = some (.inj q) ∧
      q.input < 87 :=
  ⟨⟨37, none, 0⟩, { wSetup with hk := { cur := some (.inj ⟨37, none, 0⟩), inj := [⟨5, none, 3⟩] } }, by decide +kernel⟩

theorem test_milkRoundRuns_6_hypotheses :
    ∃ (q : HkInj) (s : State),
      s.up = true ∧
      s.hk.cur = some (.inj q) ∧
      87 ≤ q.input ∧
      q.input < 96 :=
  ⟨⟨87, none, 0⟩, { wSetup with hk := { cur := some (.inj ⟨87, none, 0⟩) } }, by decide +kernel⟩

theorem test_milkRoundRuns_7_hypotheses :
    ∃ (s : State),
      s.up = true ∧
      s.flag F.HK_STAT_RUNNING = true ∧
      s.hk.slots = [] ∧
      s.hk.cur = none :=
  ⟨wSetup.put F.HK_STAT_RUNNING 1, by decide +kernel⟩

theorem test_milkRoundRuns_8_hypotheses :
    ∃ (v : Word) (s : State),
      s.access R.HK_CFG = true ∧
      10 ≤ fieldOf F.HK_CFG_PER v ∧
      fieldOf F.HK_CFG_PER v ≤ 10000 ∧
      2 ≤ fieldOf F.HK_CFG_ACQ v :=
  ⟨0x00640020, wSetup.put F.HK_STAT_RUNNING 1, by decide +kernel⟩

theorem test_milkRoundRuns_9_hypotheses :
    ∃ (v : Word) (s : State),
      s.access R.HK_CFG = true ∧
      fieldOf F.HK_CFG_PER v < 10 ∨ 10000 < fieldOf F.HK_CFG_PER v ∨ fieldOf F.HK_CFG_ACQ v < 2 :=
  ⟨0x00090020, wSetup, by decide +kernel⟩

theorem test_milkRoundRuns_10_hypotheses :
    ∃ (v : Word) (s : State),
      s.access R.HK_INJ = true ∧
      hkReserved (fieldOf F.HK_INJ_INPUT v) = false ∧
      fieldOf F.HK_INJ_GO v = 1 ∧
      s.hk.inj.length < 8 :=
  ⟨0x80000005, wSetup, by decide +kernel⟩

theorem test_milkRoundRuns_11_hypotheses :
    ∃ (v : Word) (s : State),
      s.access R.HK_INJ = true ∧
      hkReserved (fieldOf F.HK_INJ_INPUT v) = false ∧
      fieldOf F.HK_INJ_GO v = 0 :=
  ⟨0x00000005, wSetup, by decide +kernel⟩

theorem test_milkRoundRuns_12_hypotheses :
    ∃ (v : Word) (s : State),
      s.access R.HK_INJ = true ∧
      (hkReserved (fieldOf F.HK_INJ_INPUT v) = true ∨ fieldOf F.HK_INJ_GO v = 1 ∧ 8 ≤ s.hk.inj.length) :=
  ⟨0x80000040, wSetup, by decide +kernel⟩

theorem test_milkRoundRuns_13_hypotheses :
    ∃ (s : State),
      s.access R.TH_MASK = true :=
  ⟨{ wSetup.put F.TH_MASK_MASK 2 with hk := { failed := [5] } }, by decide +kernel⟩

theorem test_nvmWritesStayInTheirPage_1_hypotheses :
    ∃ (s : State),
      s.access R.NV_CMD = true ∧
      s.flag F.NV_STAT_BUSY = false ∧
      s.nvLocked = false ∧
      0x2C0000 ≤ s.get F.NV_WADDR_ADDR ∧
      256 - s.get F.NV_WADDR_ADDR % 256 < s.get F.NV_WLEN_LEN :=
  ⟨((wSetup.put F.NV_WADDR_ADDR 0x2C0080).put F.NV_WLEN_LEN 129).put (F.NV_WBUF_DATA 31) 0xDDCCBBAA, by decide +kernel⟩

theorem test_nvmWritesStayInTheirPage_2_hypotheses :
    ∃ (s : State),
      s.access R.NV_CMD = true ∧
      s.flag F.NV_STAT_BUSY = false ∧
      s.nvLocked = false ∧
      0x2C0000 ≤ s.get F.NV_WADDR_ADDR ∧
      s.get F.NV_WLEN_LEN ≤ 256 - s.get F.NV_WADDR_ADDR % 256 :=
  ⟨(((wSetup.put F.NV_WADDR_ADDR 0x2C0080).put F.NV_WLEN_LEN 128).put F.NV_STAT_TRUNC 1).put (F.NV_WBUF_DATA 31) 0xDDCCBBAA, by decide +kernel⟩

theorem test_nvmWritesStayInTheirPage_3_hypotheses :
    ∃ (w : NvWrite) (s : State),
      s.nv.wr = some w ∧
      s.nv.wait = [] ∧
      (w.waits = false ∨ s.nvLocked = false) ∧
      0x2C0000 ≤ w.addr ∧
      (s.nv.relocs.all fun e => decide (e.1 < 0x2C00)) = true :=
  ⟨{ addr := 0x2C0080, bytes := [1, 2, 0, 4] }, { wSetup with nv := { wr := some { addr := 0x2C0080, bytes := [1, 2, 0, 4] }, relocs := [(0x1405, 0x14F0)] } }, by decide +kernel⟩

theorem test_nvmWindowSlotsAndRelocation_1_hypotheses :
    ∃ (s : State),
      s.access R.NV_CMD = true ∧
      s.flag F.NV_STAT_BUSY = true :=
  ⟨wSetup.put F.NV_STAT_BUSY 1, by decide +kernel⟩

theorem test_nvmWindowSlotsAndRelocation_2_hypotheses :
    ∃ (s : State),
      s.access R.NV_CMD = true ∧
      s.flag F.NV_STAT_BUSY = false ∧
      s.get F.NV_WADDR_ADDR < 0x2C0000 :=
  ⟨wSetup, by decide +kernel⟩

theorem test_nvmWindowSlotsAndRelocation_3_hypotheses :
    ∃ (s : State),
      s.access R.NV_CMD = true ∧
      s.flag F.NV_STAT_BUSY = false ∧
      0x2C0000 ≤ s.get F.NV_WADDR_ADDR ∧
      s.nvLocked = true ∧
      s.nvRuns = [] :=
  ⟨(wSetup.put F.NV_WADDR_ADDR 0x2C0080).put F.NV_STAT_ILK_TEMP 1, by decide +kernel⟩

theorem test_nvmWindowSlotsAndRelocation_4_hypotheses :
    ∃ (w : NvWrite) (s : State),
      s.nv.wr = some w ∧
      s.nv.wait = [] ∧
      (w.waits = false ∨ s.nvLocked = false) :=
  ⟨{ addr := 0x2C0080, bytes := [1, 2, 0, 4] }, { wSetup with nv := { wr := some { addr := 0x2C0080, bytes := [1, 2, 0, 4] } } }, by decide +kernel⟩

theorem test_nvmWindowSlotsAndRelocation_5_hypotheses :
    ∃ (w : NvWrite) (s : State),
      s.nv.wr = some w ∧
      s.nv.wait = [] ∧
      w.waits = true ∧
      s.nvLocked = true :=
  ⟨{ addr := 0x2C0080, bytes := [1, 2, 0, 4], waits := true }, { wSetup.put F.NV_STAT_ILK_SAG 1 with nv := { wr := some { addr := 0x2C0080, bytes := [1, 2, 0, 4], waits := true } } }, by decide +kernel⟩

theorem test_nvmWindowSlotsAndRelocation_6_hypotheses :
    ∃ (s : State),
      s.nv.wr = none :=
  ⟨wSetup, by decide +kernel⟩

theorem test_nvmWindowSlotsAndRelocation_7_hypotheses :
    ∃ (s : State),
      s.access 0x38000 = true ∧
      s.nvRuns = [] ∧
      s.nv.wr = none :=
  ⟨wSetup, by decide +kernel⟩

theorem test_nvmWindowSlotsAndRelocation_8_hypotheses :
    ∃ (s : State),
      s.access 0x38000 = true ∧
      (s.nv.wr.all fun w => !w.waits) = true :=
  ⟨wSetup, by decide +kernel⟩

theorem test_nvmWindowSlotsAndRelocation_9_hypotheses :
    ∃ (s : State),
      s.access 0x38000 = true ∧
      (s.nv.wr.all fun w => !w.waits) = true :=
  ⟨{ wSetup with nv := { wr := some { addr := 0x2C0080, bytes := [1, 2, 0, 4] } } }, by decide +kernel⟩

theorem test_nvmWindowSlotsAndRelocation_10_hypotheses :
    ∃ (s : State),
      s.up = true ∧
      s.nvLocked = false ∧
      s.get F.NV_DIRTY_RING = 0 ∧
      s.nv.relocWait = [] :=
  ⟨{ wSetup with nv := { staged := [List.replicate 64 7] } }, by decide +kernel⟩

theorem test_nvmWindowSlotsAndRelocation_11_hypotheses :
    ∃ (s : State),
      s.up = true ∧
      s.nvLocked = false :=
  ⟨{ wSetup.put F.NV_DIRTY_RING 3 with nv := { staged := [List.replicate 64 7], install := true } }, by decide +kernel⟩

theorem test_nvmWindowSlotsAndRelocation_12_hypotheses :
    ∃ (n : Fin 21) (d : Nat) (s : State),
      s.up = true ∧
      s.nv.req.contains n.val = true ∧
      s.churnRun = [] ∧
      s.churnQueue = [] ∧
      s.nvLocked = false ∧
      s.nv.wr = none ∧
      s.nv.wait = [] ∧
      (s.at d).winOpen n = false ∧
      s.ringDead n = false ∧
      (nvRing n).isSome = true ∧
      s.nv.cur.length = 21 :=
  ⟨3, 90, { wSetup with nv := { req := [3, 5] } }, by decide +kernel⟩

theorem test_nvmWindowSlotsAndRelocation_13_hypotheses :
    ∃ (n : Fin 21) (d : Nat) (s : State),
      s.up = true ∧
      s.nv.req.contains n.val = true ∧
      s.churnRun = [] ∧
      s.churnQueue = [] ∧
      s.nv.wr = none ∧
      s.nv.wait = [] ∧
      (s.nvLocked = true ∨ (s.at d).winOpen n = true) :=
  ⟨3, 90, { wSetup.put F.NV_STAT_ILK_SAG 1 with nv := { req := [3, 5] } }, by decide +kernel⟩

theorem test_nvmWindowSlotsAndRelocation_14_hypotheses :
    ∃ (n : Fin 21) (w : NvWrite) (s : State),
      s.up = true ∧
      s.nv.req.contains n.val = true ∧
      s.churnRun = [] ∧
      s.churnQueue = [] ∧
      s.nv.wr = some w ∧
      s.nv.wait.contains (.slot n) = false :=
  ⟨3, { addr := 0x2C0080, bytes := [1, 2, 0, 4] }, { wSetup with nv := { req := [3, 5], wr := some { addr := 0x2C0080, bytes := [1, 2, 0, 4] } } }, by decide +kernel⟩

theorem test_nvmWindowSlotsAndRelocation_15_hypotheses :
    ∃ (n : Fin 21) (d : Nat) (o : Nat) (s : State),
      s.up = true ∧
      (s.nv.win.find? fun w => w.1 == n.val) = some (n.val, o) ∧
      o + 1000000000 ≤ d ∧
      bit (s.get F.NV_DIRTY_RING) n = false :=
  ⟨3, 2000000000, 90, { wSetup with nv := { win := [(3, 90)] } }, by decide +kernel⟩

theorem test_nvmWindowSlotsAndRelocation_16_hypotheses :
    ∃ (n : Fin 21) (d : Nat) (o : Nat) (s : State),
      s.up = true ∧
      (s.nv.win.find? fun w => w.1 == n.val) = some (n.val, o) ∧
      o + 1000000000 ≤ d ∧
      bit (s.get F.NV_DIRTY_RING) n = true ∧
      s.nvLocked = false ∧
      s.ringDead n = false ∧
      (nvRing n).isSome = true ∧
      s.churnRun = [] ∧
      s.churnQueue = [] ∧
      s.nv.wr = none ∧
      s.nv.wait = [] :=
  ⟨3, 2000000000, 90, { wSetup.put F.NV_DIRTY_RING 8 with nv := { win := [(5, 80), (3, 90)] } }, by decide +kernel⟩

theorem test_nvmWindowSlotsAndRelocation_17_hypotheses :
    ∃ (d : Nat) (s : State),
      s.up = true ∧
      s.nv.lastHour + 3600000000000 ≤ d ∧
      s.churnRun = [] ∧
      s.churnQueue = [] ∧
      s.nv.wr = none ∧
      s.nv.wait = [] ∧
      (s.nvLocked = true ∨ (s.at d).winOpen 1 = true) :=
  ⟨7200000000000, wSetup.put F.NV_STAT_ILK_SAG 1, by decide +kernel⟩

theorem test_nvmWindowSlotsAndRelocation_18_hypotheses :
    ∃ (d : Nat) (s : State),
      s.up = true ∧
      s.nv.lastHour + 3600000000000 ≤ d ∧
      s.churnRun = [] ∧
      s.churnQueue = [] ∧
      s.nv.wr = none ∧
      s.nv.wait = [] ∧
      s.nvLocked = false ∧
      (s.at d).winOpen 1 = false ∧
      s.ringDead 1 = false :=
  ⟨7200000000000, wSetup, by decide +kernel⟩

theorem test_nvmWindowSlotsAndRelocation_19_hypotheses :
    ∃ (be : Fin 16) (s : State),
      s.access R.NV_HOURS = true ∧
      be ≠ 0 :=
  ⟨3, { wSetup with dt := 3600000000000 }, by decide +kernel⟩

theorem test_nvmWindowSlotsAndRelocation_20_hypotheses :
    ∃ (page : Nat) (q : Nat) (s : State),
      s.up = true ∧
      devicePage (s.nvOwner page) = true ∧
      ((pageSlot (s.nvOwner page)).all fun e => e.1 != 0) = true ∧
      s.nvLocked = false ∧
      s.churnRun = [] ∧
      s.churnQueue = [] ∧
      s.nv.wr = none ∧
      s.nv.wait = [] ∧
      s.sparePage = some q ∧
      s.nv.relocs.length < 126 :=
  ⟨0x1465, 0x14F0, wSetup, by decide +kernel⟩

theorem test_nvmWindowSlotsAndRelocation_21_hypotheses :
    ∃ (page : Nat) (s : State),
      s.up = true ∧
      devicePage (s.nvOwner page) = true ∧
      s.nvLocked = true ∧
      s.churnRun = [] ∧
      s.churnQueue = [] ∧
      s.nv.wr = none ∧
      s.nv.wait = [] :=
  ⟨0x1465, wSetup.put F.NV_STAT_ILK_SAG 1, by decide +kernel⟩

theorem test_registerWritesThroughBothPorts_1_hypotheses :
    ∃ (s : State),
      s.up = true :=
  ⟨wSetup, by decide +kernel⟩

theorem test_registerWritesThroughBothPorts_2_hypotheses :
    ∃ (s : State),
      s.up = true :=
  ⟨wSetup.put F.HK_XMASK_X 0x2FFFF, by decide +kernel⟩

theorem test_registerWritesThroughBothPorts_3_hypotheses :
    ∃ (a : Nat) (be : Fin 16) (rd : RegDesc) (s : State),
      a ∈ [R.HK_XMASK, R.NV_WIN, R.Q_CTXSEL, R.Q_CTXD 0, R.Q_CTXD 15, R.MON_SNBASE, R.GP_DIR 0, R.GP_DIR 1, R.GP_OUT 0, R.GP_OUT 1] ∧
      s.access a = true ∧
      be ≠ 0 ∧
      regDesc a = some rd :=
  ⟨R.GP_OUT 1, 5, (regDesc (R.GP_OUT 1)).getD ⟨0, 0, 0, 0, 0, 0, 0, 0, 0⟩, wSetup, by decide +kernel⟩

theorem test_registerWritesThroughBothPorts_5_hypotheses :
    ∃ (s : State),
      s.mode = .reset :=
  ⟨State.reset, by decide +kernel⟩

theorem test_registerWritesThroughBothPorts_6_hypotheses :
    ∃ (s : State),
      s.up = true ∧
      s.msp.read = none :=
  ⟨{ wSetup with msp := { pastEnd := true } }, by decide +kernel⟩

theorem test_registerWritesThroughBothPorts_7_hypotheses :
    ∃ (s : State),
      s.up = true ∧
      s.msp.read = none :=
  ⟨wSetup, by decide +kernel⟩

theorem test_registerWritesThroughBothPorts_8_hypotheses :
    ∃ (v : Word) (c : BitVec 8) (s : State),
      s.up = true ∧
      s.msp.read = none ∧
      c.toNat = unitCrc (R.HK_XMASK / 4) v :=
  ⟨0x12345, BitVec.ofNat 8 (unitCrc (R.HK_XMASK / 4) 0x12345), wSetup, by decide +kernel⟩

theorem test_registerWritesThroughBothPorts_9_hypotheses :
    ∃ (v : Word) (c : BitVec 8) (s : State),
      s.up = true ∧
      s.msp.read = none ∧
      c.toNat ≠ unitCrc (R.HK_XMASK / 4) v :=
  ⟨0x12345, BitVec.ofNat 8 (unitCrc (R.HK_XMASK / 4) 0x12344), wSetup, by decide +kernel⟩

theorem test_registerWritesThroughBothPorts_10_hypotheses :
    ∃ (bits : List Bool) (s : State),
      s.up = true ∧
      s.msp.read = none ∧
      24 ≤ bits.length :=
  ⟨wBits 24 0x80, wSetup, by decide +kernel⟩

theorem test_registerWritesThroughBothPorts_11_hypotheses :
    ∃ (bits : List Bool) (s : State),
      s.up = true ∧
      s.msp.read = none ∧
      24 ≤ bits.length :=
  ⟨wBits 24 0x80, wSetup, by decide +kernel⟩

theorem test_registerWritesThroughBothPorts_12_hypotheses :
    ∃ (r : MspRead) (s : State),
      s.up = true ∧
      s.msp.read = some r ∧
      r.next < r.words ∧
      pastWindow r.addr r.next = false :=
  ⟨{ addr := 0x80, words := 2, crc := false }, { wSetup with msp := { read := some { addr := 0x80, words := 2, crc := false } } }, by decide +kernel⟩

theorem test_registerWritesThroughBothPorts_13_hypotheses :
    ∃ (r : MspRead) (s : State),
      s.up = true ∧
      s.msp.read = some r ∧
      r.next = r.words ∧
      pastWindow r.addr r.next = true :=
  ⟨{ addr := 0x3FFE, words := 2, next := 2, crc := true }, { wSetup with msp := { read := some { addr := 0x3FFE, words := 2, next := 2, crc := true } } }, by decide +kernel⟩

theorem test_registerWritesThroughBothPorts_14_hypotheses :
    ∃ (cmd : List Bool) (s : State),
      s.up = true ∧
      s.msp.read = none ∧
      8 ≤ cmd.length ∧
      mspCodes.contains (msbNat (cmd.take 8)) = false :=
  ⟨wBits 8 0x77, wSetup, by decide +kernel⟩

theorem test_testAccessPort_1_hypotheses :
    ∃ (s : State),
      s.tapRuns = true :=
  ⟨wSetup, by decide +kernel⟩

theorem test_testAccessPort_2_hypotheses :
    ∃ (s : State),
      s.tapRuns = true :=
  ⟨wSetup, by decide +kernel⟩

theorem test_testAccessPort_3_hypotheses :
    ∃ (s : State),
      s.tapRuns = true :=
  ⟨wSetup, by decide +kernel⟩

theorem test_testAccessPort_4_hypotheses :
    ∃ (s : State),
      s.tapRuns = true :=
  ⟨wSetup, by decide +kernel⟩

theorem test_testAccessPort_5_hypotheses :
    ∃ (s : State),
      s.tapRuns = true :=
  ⟨wSetup, by decide +kernel⟩

theorem test_testAccessPort_6_hypotheses :
    ∃ (s : State),
      s.tapRuns = true :=
  ⟨wSetup, by decide +kernel⟩

theorem test_testAccessPort_7_hypotheses :
    ∃ (s : State),
      s.tapRuns = true :=
  ⟨{ wSetup with tap := { ir := 3 } }, by decide +kernel⟩

theorem test_testAccessPort_8_hypotheses :
    ∃ (s : State),
      s.tapRuns = true :=
  ⟨wSetup, by decide +kernel⟩

theorem test_testAccessPort_9_hypotheses :
    ∃ (c : BitVec 8) (s : State),
      s.tapRuns = true ∧
      6 < c.toNat :=
  ⟨0xFF, wSetup, by decide +kernel⟩

theorem test_testAccessPort_10_hypotheses :
    ∃ (s : State),
      s.tap.leave = true ∧
      s.mode ≠ .reset ∧
      s.power.seq = false ∧
      s.nv.wr = none ∧
      s.nvRuns = [] :=
  ⟨{ wSetup with tap := { leave := true } }, by decide +kernel⟩

theorem test_testAccessPort_11_hypotheses :
    ∃ (s : State),
      s.tap.leave = true ∧
      s.mode ≠ .reset ∧
      s.power.seq = true :=
  ⟨{ wSetup with tap := { leave := true }, power := { wSetup.power with seq := true } }, by decide +kernel⟩

theorem test_storesStayCanonicalInEveryStep_hypotheses : ∃ s t : State, s.Wf ∧ step s = .next t :=
  ⟨State.reset, clockTick State.reset, ⟨by decide, by decide, by decide, by decide⟩, rfl⟩

theorem test_idleStepPassesOneClockCycle_1_hypotheses : ∃ s : State, s.pending = [] ∧ s.mode = .reset :=
  ⟨State.reset, rfl, rfl⟩

theorem test_idleStepPassesOneClockCycle_2_hypotheses :
    ∃ s : State, s.pending = [] ∧ s.mode ≠ .reset ∧ s.refStopped = false ∧ s.ring.steer = 0 ∧ s.dtFrac < 2 ^ 32 :=
  ⟨wSetup, by decide⟩

theorem test_idleStepPassesOneClockCycle_3_hypotheses :
    ∃ s t : State, s.pending = [] ∧ s.mode ≠ .reset ∧ s.refStopped = true ∧ s.dtFrac < 2 ^ 32 ∧ step s = .next t :=
  ⟨{ wSetup with refStopped := true }, _, by decide, by decide, by decide, by decide, rfl⟩

theorem test_noCommandTouchesTheQueue_hypotheses : ∃ (i : Instr) (s t : State), exec i s = .next t :=
  ⟨.modeThrottle, wRun, _, rfl⟩

theorem test_arrivalOrder_clear : arrivalOrder [.event .modeThrottle, .access .msp .trgClrcnt] = [.trgClrcnt, .modeThrottle] := by decide

theorem test_onlyTheseCommandsChangeTheMode_hypotheses : ∃ (i : Instr) (s t : State), exec i s = .next t ∧ t.mode ≠ s.mode :=
  ⟨.modeThrottle, wRun, _, rfl, by decide⟩

theorem test_onlyTheseCommandsWriteTheNvm_hypotheses :
    ∃ (i : Instr) (s t : State), exec i s = .next t ∧ ∃ a, t.nvmByte a ≠ s.nvmByte a :=
  ⟨.nvPageWriteDone true, { wSetup with nv := { wr := some { addr := 0x2C0080, bytes := [1] } } }, _, rfl, 0x2C0080, by decide⟩

theorem test_onlyTheseCommandsWriteHostMemory_hypotheses :
    ∃ (i : Instr) (s t : State), exec i s = .next t ∧ ∃ a, t.hostByte a ≠ s.hostByte a :=
  ⟨.eventRecordPost 3 90, wRings [(3, { ctx := wCtx 3, out := [[1, 2], [3]] })] wSetup, _, rfl, 0, by decide⟩

theorem test_deviceTimeNeverGoesBackOutsideReset_hypotheses :
    ∃ (i : Instr) (s t : State), mayRestartTime i = false ∧ exec i s = .next t :=
  ⟨.modeThrottle, wRun, _, rfl, rfl⟩

end Sys2Proof.Machine
end

section
/-! PROOFS. A fetch of an MSP read frame that falls into the NVM window lets the software page write go on (R430, R433), so it does
not leave every byte of the NVM as it was: the statement on register writes through both ports is refuted. -/

namespace Sys2Proof.Machine

/-! ### A software page write that runs -/

/-- The words a software write's bytes lie in hold all of them. -/
theorem NvWrite.length_le_words (w : NvWrite) : w.bytes.length ≤ 8 * w.words - w.addr % 8 := by
  rw [NvWrite.words]; omega

/-- A software write that has started does not wait for its turn. -/
theorem State.nvTurn_of_started {s : State} {w : NvWrite} (hw : s.nv.wr = some w) (hs : w.waits = false) : s.nvTurn = s := by
  have hb : s.nvBegin = s := by simp [State.nvBegin, hw, hs]
  rw [State.nvTurn, hb, ite_self]

/-- With no device write listed, nothing goes on. -/
theorem State.nvOn_of_idle {s : State} (hr : s.nv.run = []) : s.nvOn = s := by
  have hl : s.nvRuns = [] := by simp [State.nvRuns, hr]
  have hnv : { s.nv with run := [] } = s.nv := by rw [← hr]
  simp [State.nvOn, hl, hnv]

/-- The store takes one byte at the place the page map gives it. -/
theorem State.nvmByte_nvStore_singleton (s : State) (a : Nat) (b : Byte) : (s.nvStore a [b]).nvmByte (s.nvAddr a) = b := by
  simp [State.nvStore, State.nvmWrite, State.nvmByte, storeBytes]

/-- A step of a software write whose words all count as done stores all of its bytes, whatever the free value is. -/
theorem State.nvStep_nvm_of_done {s : State} {w : NvWrite} (hw : s.nv.wr = some w) (hs : w.waits = false)
    (hd : w.done = w.words) : s.nvStep.nvm = (s.fresh.2.nvStore w.addr w.bytes).nvm := by
  have hk : (s.freshUpTo (w.words - w.done)).1 = 0 := by
    rw [hd, Nat.sub_self]; exact Nat.mod_one _
  have ht : w.bytes.take (8 * (w.done + 0) - w.addr % 8) = w.bytes :=
    List.take_of_length_le (by rw [Nat.add_zero, hd]; exact w.length_le_words)
  simp only [State.nvStep, hw, hs, hk, ht]
  rfl

/-! ### Reads through the NVM window -/

/-- Whatever the SECDED check finds, a read of the window leaves the store as the writes that go on make it. -/
theorem State.nvWindow_nvm (s : State) (a : Nat) (e : WordCheck) : (s.nvWindow a e).1.nvm = s.nvTurn.nvOn.nvStep.nvm := by
  cases e <;> rfl

theorem State.readWindow_nvm (s : State) (a : Nat) : (s.readWindow a).2.nvm = s.fresh.2.nvTurn.nvOn.nvStep.nvm :=
  State.nvWindow_nvm s.fresh.2 _ _

/-- A register read in the NVM window is a read of that window. -/
theorem State.readReg_of_window {s : State} {p : Port} {addr be : Nat} (hb : be ≠ 0)
    (ha : s.access (canonAddr (addr / 4 * 4)) = true)
    (hw : 0x38000 ≤ canonAddr (addr / 4 * 4) ∧ canonAddr (addr / 4 * 4) < 0x40000) :
    s.readReg p addr be = s.readWindow (canonAddr (addr / 4 * 4)) := by
  simp [State.readReg, hb, ha, hw]

/-- A register read in the NVM window stores the byte of a one-byte software write whose word counts as done. -/
theorem State.readReg_window_stores {s : State} {p : Port} {addr be : Nat} {w : NvWrite} {b : Byte} (hb : be ≠ 0)
    (ha : s.access (canonAddr (addr / 4 * 4)) = true)
    (hin : 0x38000 ≤ canonAddr (addr / 4 * 4) ∧ canonAddr (addr / 4 * 4) < 0x40000) (hw : s.nv.wr = some w)
    (hs : w.waits = false) (hr : s.nv.run = []) (hd : w.done = w.words) (hbs : w.bytes = [b]) :
    (s.readReg p addr be).2.nvmByte (s.nvAddr w.addr) = b := by
  have hstep : (s.readReg p addr be).2.nvm = (s.fresh.2.fresh.2.nvStore w.addr [b]).nvm := by
    rw [State.readReg_of_window hb ha hin, State.readWindow_nvm, State.nvTurn_of_started (s := s.fresh.2) hw hs,
      State.nvOn_of_idle (s := s.fresh.2) hr, State.nvStep_nvm_of_done (s := s.fresh.2) hw hs hd, hbs]
  rw [State.nvmByte, hstep]
  exact State.nvmByte_nvStore_singleton s.fresh.2.fresh.2 w.addr b

/-! ### The fetch of a read frame -/

/-- A fetch before the frame's end leaves the store as the register read of its word does. -/
theorem State.mspFetch_nvmByte {s : State} {r : MspRead} (hr : s.msp.read = some r) (hn : r.next < r.words)
    (hp : pastWindow r.addr r.next = false) (a : Nat) :
    s.mspFetch.nvmByte a = (s.readReg .msp (4 * (r.addr + r.next)) 15).2.nvmByte a := by
  have hend : ¬ r.words ≤ r.next := by omega
  simp [State.mspFetch, hr, hp, hend, State.modMsp, State.nvmByte]

theorem execMspReadFetch_of_up {s : State} (hu : s.up = true) : exec .mspReadFetch s = .next s.mspFetch :=
  congrArg Host.Outcome.next (State.whenever_pos s s.up State.mspFetch hu)

/-- Refutes O50 in its clause on the fetch of a read frame, which claims that every byte of the NVM reads as before. The frame reads
word 0xE000, the first of the NVM window, while a page write of the byte 1 at 0x2C0000 runs, and the read lets that write go on. How
many words it goes on by is a free value (log entry 10), of which nothing is known; so the write of this state is one whose only
word counts as done while the store still holds the old byte, and the step stores it whatever the value is: 0x2C0000 read 0 and
reads 1. -/
theorem not_registerWritesThroughBothPorts : ¬ Obligations.RegisterWritesThroughBothPorts := by
  unfold Obligations.RegisterWritesThroughBothPorts
  rintro ⟨-, -, -, -, -, -, -, -, -, -, -, hfetch, -, -⟩
  obtain ⟨s, hs⟩ : ∃ s : State, s = { State.reset with
      mode := .setup
      nv := { wr := some { addr := 0x2C0000, bytes := [1], done := 1 } }
      msp := { read := some { addr := 0xE000, words := 1, crc := false } } } := ⟨_, rfl⟩
  have hup : s.up = true := by rw [hs]; rfl
  have hread : s.msp.read = some { addr := 0xE000, words := 1, crc := false } := by rw [hs]
  have hpast : pastWindow 0xE000 0 = false := by decide
  obtain ⟨t, hexec, -, -, -, ⟨-, hnvm, -⟩, -⟩ := hfetch _ s hup hread Nat.one_pos hpast
  obtain rfl : s.mspFetch = t := Host.Outcome.next.inj ((execMspReadFetch_of_up hup).symm.trans hexec)
  have hbefore : s.nvmByte 0x2C0000 = 0 := by rw [hs]; rfl
  have hstores : (s.readReg .msp 0x38000 15).2.nvmByte 0x2C0000 = 1 := by
    rw [hs]
    exact State.readReg_window_stores (w := { addr := 0x2C0000, bytes := [1], done := 1 }) (by decide) rfl (by decide)
      rfl rfl rfl rfl rfl
  have hafter : s.mspFetch.nvmByte 0x2C0000 = 1 :=
    (State.mspFetch_nvmByte hread Nat.one_pos hpast 0x2C0000).trans hstores
  have hsame : (1 : Byte) = 0 := hafter.symm.trans ((hnvm 0x2C0000).trans hbefore)
  exact absurd hsame (by decide)

end Sys2Proof.Machine
end

section
/-! PROOFS. What an operation leaves as it was: the rules of `SameRegs` and `SameMem`. -/

namespace Sys2Proof.Machine

theorem SameRegs.refl (l : List Nat) (s : State) : SameRegs l s s := fun _ _ => rfl

theorem SameRegs.trans {l : List Nat} {s t u : State} (h : SameRegs l s t) (g : SameRegs l t u) : SameRegs l s u :=
  fun a ha => (g a ha).trans (h a ha)

theorem SameRegs.mono {l m : List Nat} {s t : State} (h : SameRegs l s t) (hm : ∀ a ∈ l, a ∈ m) : SameRegs m s t :=
  fun a ha => h a fun hl => ha (hm a hl)

/-- Setting a field leaves every register outside a list that holds the field's. -/
theorem SameRegs.put {l : List Nat} {s t : State} (h : SameRegs l s t) (f : Fld) (v : Nat) (hf : f.addr ∈ l) :
    SameRegs l s (t.put f v) :=
  fun a ha => (State.reg_put_other t f v a fun e => ha (e ▸ hf)).trans (h a ha)

/-- A field of a register outside the list reads as before. -/
theorem SameRegs.get {l : List Nat} {s t : State} (h : SameRegs l s t) (f : Fld) (hf : f.addr ∉ l) : t.get f = s.get f := by
  rw [State.get, h f.addr hf, State.get]

/-- Memories that hold the same bytes, and the same channels in service, read alike. -/
theorem SameMem.of_eq {s t : State} (hd : t.dram = s.dram) (hl : t.lostChan = s.lostChan) (hn : t.nvm = s.nvm)
    (hh : t.host = s.host) : SameMem s t :=
  ⟨fun a => by simp [State.dramByte, State.lostAt, hd, hl], fun a => by simp [State.nvmByte, hn],
    fun a => by simp [State.hostByte, hh]⟩

end Sys2Proof.Machine
end

section
/-! PROOFS. The planner's queue (R41): what asking for an evaluation does, and the statement on the planner's commands. -/

namespace Sys2Proof.Machine

/-! ### Asking for an evaluation (R41) -/

/-- The planner's queue, its running evaluation and registers are all that differs. -/
def PlanWork (s t : State) : Prop := t = { s with regs := t.regs, planQ := t.planQ, planRun := t.planRun }

theorem PlanWork.refl (s : State) : PlanWork s s := Eq.refl s

theorem PlanWork.trans {s t u : State} (h : PlanWork s t) (g : PlanWork t u) : PlanWork s u :=
  Eq.trans g (congrArg (fun x : State => { x with regs := u.regs, planQ := u.planQ, planRun := u.planRun }) h)

theorem PlanWork.put {s t : State} (h : PlanWork s t) (f : Fld) (v : Nat) : PlanWork s (t.put f v) :=
  h.trans (Eq.refl (t.put f v))

theorem PlanWork.mode {s t : State} (h : PlanWork s t) : t.mode = s.mode := by rw [PlanWork] at h; rw [h]

theorem PlanWork.dt {s t : State} (h : PlanWork s t) : t.dt = s.dt := by rw [PlanWork] at h; rw [h]

theorem PlanWork.sameMem {s t : State} (h : PlanWork s t) : SameMem s t := by
  rw [PlanWork] at h
  rw [h]
  exact SameMem.of_eq rfl rfl rfl rfl

/-- The work of the planner is part of what entry to SAFE may do. -/
theorem PlanWork.safeWork {s t : State} (h : PlanWork s t) :
    SafeWork { s with reroute := t.reroute, ctxCmd := t.ctxCmd } t := by
  rw [PlanWork] at h
  rw [SafeWork, h]

/-- A request joins the end of a queue that holds no other of its instant. -/
theorem planInsert_of_later {q : PlanReq} {l : List PlanReq} (h : ∀ r ∈ l, r.asked ≠ q.asked) : planInsert q l = l ++ [q] := by
  have hall : ∀ r ∈ l, (!(r.asked == q.asked && planRank q.kind < planRank r.kind)) = true := fun r hr => by simp [h r hr]
  simp only [planInsert]
  rw [List.takeWhile_eq_self_iff.2 hall, List.dropWhile_eq_nil_iff.2 hall]

/-- An idle planner starts on a request at once. -/
theorem State.planAsk_of_idle {s : State} {q : PlanReq} (hr : s.planRun = none) (hq : s.planQ = []) :
    s.planAsk q = ({ s with planRun := some { q with asked := s.dt } } : State).put F.SYS_PLAN_STAT_BUSY 1 := by
  simp [State.planAsk, hr, hq]

/-- A request made while an evaluation runs goes behind every request of an earlier instant. -/
theorem State.planAsk_of_busy {s : State} {q : PlanReq} (hr : s.planRun ≠ none)
    (hl : ∀ r ∈ s.planRun.toList ++ s.planQ, r.asked ≠ s.dt) :
    s.planAsk q = { s with planQ := s.planQ ++ [{ q with asked := s.dt }] } := by
  obtain ⟨r, hr⟩ := Option.ne_none_iff_exists'.1 hr
  have hrun : r.asked ≠ s.dt := hl r (by simp [hr])
  have hins : planInsert { q with asked := s.dt } s.planQ = s.planQ ++ [{ q with asked := s.dt }] :=
    planInsert_of_later fun x hx => hl x (by simp [hx])
  simp [State.planAsk, hr, hrun, hins]

/-- A request goes ahead of one of its own instant that stands behind it in the list of actions. -/
theorem State.planAsk_of_ahead {s : State} {q r : PlanReq} (hr : s.planRun = some r) (ht : r.asked = s.dt)
    (hk : planRank q.kind < planRank r.kind) :
    s.planAsk q = { s with planRun := some { q with asked := s.dt }, planQ := r :: s.planQ } := by
  simp [State.planAsk, hr, ht, hk]

theorem State.planAsk_work (s : State) (q : PlanReq) : PlanWork s (s.planAsk q) := by
  unfold PlanWork State.planAsk
  dsimp only
  split
  · rfl
  · split <;> rfl
  · rfl

theorem State.planAsk_sameRegs (s : State) (q : PlanReq) : SameRegs [R.SYS_PLAN_STAT] s (s.planAsk q) := by
  unfold State.planAsk
  dsimp only
  split
  · exact (SameRegs.refl _ s).put F.SYS_PLAN_STAT_BUSY 1 (by simp)
  · split <;> exact SameRegs.refl _ s
  · exact SameRegs.refl _ s

/-! ### SYS_PLAN_CMD -/

/-- SYS_PLAN_CMD takes its HANDLE. -/
def State.planHandle (s : State) (v : Word) : State := s.put F.SYS_PLAN_CMD_HANDLE (fieldOf F.SYS_PLAN_CMD_HANDLE v)

theorem exec_planEval {v : Word} {s : State} (ha : s.access R.SYS_PLAN_CMD = true) (hr : fieldOf F.SYS_PLAN_CMD_REPLAN v = 0) :
    exec (.planEval v) s =
      .next ((s.planHandle v).planAsk { kind := .eval, arg := fieldOf F.SYS_PLAN_CMD_HANDLE v }) := by
  show Host.Outcome.next (planEval v s) = _
  simp [planEval, State.whenever_pos _ _ _ ha, hr, State.planHandle]

theorem exec_planEval_of_replan {v : Word} {s : State} (ha : s.access R.SYS_PLAN_CMD = true)
    (hr : fieldOf F.SYS_PLAN_CMD_REPLAN v = 1) : exec (.planEval v) s = .next (s.planHandle v) := by
  show Host.Outcome.next (planEval v s) = _
  simp [planEval, State.whenever_pos _ _ _ ha, hr, State.planHandle]

theorem exec_planReplan {v : Word} {s : State} (ha : s.access R.SYS_PLAN_CMD = true) :
    exec (.planReplan v) s = .next ((s.planHandle v).planAsk { kind := .replan }) := by
  show Host.Outcome.next (planReplan v s) = _
  rw [planReplan, State.whenever_pos _ _ _ ha]
  rfl

/-- What a write of SYS_PLAN_CMD that asks for an evaluation does, whatever the request is. -/
structure PlanAsked (v : Word) (q : PlanReq) (s t : State) : Prop where
  handle : t.get F.SYS_PLAN_CMD_HANDLE = fieldOf F.SYS_PLAN_CMD_HANDLE v
  idle : s.planRun = none → s.planQ = [] → t.planRun = some { q with asked := s.dt } ∧ t.get F.SYS_PLAN_STAT_BUSY = 1
  busy : s.planRun ≠ none → (∀ r ∈ s.planRun.toList ++ s.planQ, r.asked ≠ s.dt) →
    t.planRun = s.planRun ∧ t.planQ = s.planQ ++ [{ q with asked := s.dt }]
  regs : SameRegs [R.SYS_PLAN_CMD, R.SYS_PLAN_STAT] s t
  work : PlanWork s t

theorem State.planHandle_asked (v : Word) (q : PlanReq) (s : State) : PlanAsked v q s ((s.planHandle v).planAsk q) where
  handle := by
    rw [((s.planHandle v).planAsk_sameRegs q).get _ (by simp), State.planHandle, State.get_put_self _ _ _ (by decide)]
    exact Nat.mod_eq_of_lt (fieldOf_lt F.SYS_PLAN_CMD_HANDLE v)
  idle hr hq := by
    rw [State.planAsk_of_idle (s := s.planHandle v) hr hq]
    exact ⟨rfl, State.get_put_self _ _ _ (by decide)⟩
  busy hr hl := by
    rw [State.planAsk_of_busy (s := s.planHandle v) hr hl]
    exact ⟨rfl, rfl⟩
  regs := ((SameRegs.refl _ s).put F.SYS_PLAN_CMD_HANDLE _ (by simp)).trans
    (((s.planHandle v).planAsk_sameRegs q).mono (by simp))
  work := ((PlanWork.refl s).put _ _).trans ((s.planHandle v).planAsk_work q)

/-! ### The start and the end of an evaluation -/

/-- The registers that show what an evaluation found. -/
abbrev planRegs : List Nat := [R.SYS_PLAN_STAT, R.SYS_PLAN_LOAD0, R.SYS_PLAN_LOAD1, R.SYS_PLAN_RATE]

theorem planEvalStart_of_waiting {q : PlanReq} {l : List PlanReq} {s : State} (hr : s.planRun = none) (hq : s.planQ = q :: l) :
    planEvalStart s = ({ s with planRun := some q, planQ := l } : State).put F.SYS_PLAN_STAT_BUSY 1 := by
  simp [planEvalStart, hr, hq]

theorem planEvalStart_of_empty {s : State} (hq : s.planQ = []) : planEvalStart s = s := by
  cases hr : s.planRun <;> simp [planEvalStart, hr, hq]

/-- What publishing an evaluation does to the planner: it is idle, its queue is as it was. -/
structure PlanPublished (s t : State) : Prop where
  idle : t.planRun = none
  queue : t.planQ = s.planQ
  busy : t.get F.SYS_PLAN_STAT_BUSY = 0
  regs : SameRegs planRegs s t
  work : PlanWork s t

/-- A field of the result registers other than BUSY leaves a published evaluation published. -/
theorem PlanPublished.put {s t : State} (h : PlanPublished s t) (f : Fld) (v : Nat) (hr : f.addr ∈ planRegs)
    (hb : F.SYS_PLAN_STAT_BUSY.addr ≠ f.addr) : PlanPublished s (t.put f v) where
  idle := h.idle
  queue := h.queue
  busy := (State.get_put_reg t f _ v hb).trans h.busy
  regs := h.regs.put f v hr
  work := h.work.put f v

theorem State.planPublish_published (s : State) (result reason : Nat) (m : Option PlanResult) :
    PlanPublished s (s.planPublish result reason m) := by
  have hstat : PlanPublished s (s.planPublish result reason none) :=
    { idle := rfl
      queue := rfl
      busy := State.get_put_self _ _ _ (by decide)
      regs := (((SameRegs.refl _ s).put _ _ (by simp)).put _ _ (by simp)).put _ _ (by simp)
      work := rfl }
  cases m with
  | none => exact hstat
  | some m =>
    exact ((((((hstat.put F.SYS_PLAN_LOAD0_DRAM _ (by simp) (by decide)).put F.SYS_PLAN_LOAD0_COMPUTE _ (by simp) (by decide)).put
      F.SYS_PLAN_LOAD1_SPINE _ (by simp) (by decide)).put F.SYS_PLAN_LOAD1_PCIE _ (by simp) (by decide)).put
      F.SYS_PLAN_RATE_FINISH _ (by simp) (by decide)).put F.SYS_PLAN_RATE_PXRATE _ (by simp) (by decide))

/-- An evaluation that an EVAL asked for publishes something in each of its cases (Table 1-9). -/
theorem State.evalDecide_published (s : State) (handle : Nat) : PlanPublished s (s.evalDecide handle) := by
  unfold State.evalDecide State.planShow
  split
  · exact s.planPublish_published _ _ _
  · split
    · exact s.planPublish_published _ _ _
    · exact s.planPublish_published _ _ _

theorem exec_planEvalDone_of_eval {q : PlanReq} {s : State} (hr : s.planRun = some q) (hk : q.kind = .eval) :
    exec .planEvalDone s = .next (planEvalStart (s.evalDecide q.arg)) := by
  show Host.Outcome.next (planEvalDone s) = _
  simp [planEvalDone, hr, hk]

/-- After an evaluation is published the next waiting one starts, or BUSY stays clear. -/
theorem PlanPublished.start {s t : State} (h : PlanPublished s t) :
    (planEvalStart t).planRun = s.planQ.head? ∧ (planEvalStart t).planQ = s.planQ.tail ∧
      (planEvalStart t).get F.SYS_PLAN_STAT_BUSY = (if s.planQ = [] then 0 else 1) ∧
      SameRegs planRegs s (planEvalStart t) ∧ PlanWork s (planEvalStart t) := by
  cases hq : s.planQ with
  | nil =>
    rw [planEvalStart_of_empty (h.queue.trans hq)]
    exact ⟨h.idle, h.queue.trans hq, h.busy, h.regs, h.work⟩
  | cons q l =>
    rw [planEvalStart_of_waiting h.idle (h.queue.trans hq)]
    exact ⟨rfl, rfl, State.get_put_self _ _ _ (by decide),
      h.regs.trans ((SameRegs.refl _ t).put F.SYS_PLAN_STAT_BUSY 1 (by simp)), h.work.trans rfl⟩

theorem exec_planLimitWrite {v : Word} {s : State} (ha : s.access R.SYS_PLAN_LIMIT = true) :
    exec (.planLimitWrite v) s = .next (s.put F.SYS_PLAN_LIMIT_LIMIT (min 8500 (fieldOf F.SYS_PLAN_LIMIT_LIMIT v))) := by
  show Host.Outcome.next (planLimitWrite v s) = _
  rw [planLimitWrite, State.whenever_pos _ _ _ ha]

theorem planRank_eval_lt {k : PlanKind} (h : k = .stream ∨ k = .auto) : planRank .eval < planRank k := by
  rcases h with rfl | rfl <;> decide

/-- Settles O2: a command of SYS_PLAN_CMD is its HANDLE and a request to the queue, the end of an EVAL's evaluation is its publication
and the start of the next. -/
theorem plannerCommandsPublish : Obligations.PlannerCommandsPublish := by
  unfold Obligations.PlannerCommandsPublish
  refine ⟨?eval, ?evalReplan, ?replan, ?ahead, ?start, ?done, ?limit⟩
  case eval =>
    intro v s ha hr
    have h := s.planHandle_asked v { kind := .eval, arg := fieldOf F.SYS_PLAN_CMD_HANDLE v }
    exact ⟨_, exec_planEval ha hr, h.handle, h.idle, h.busy, h.regs, h.work.sameMem, h.work.mode, h.work.dt, h.work⟩
  case evalReplan =>
    intro v s ha hr
    exact ⟨_, exec_planEval_of_replan ha hr, rfl⟩
  case replan =>
    intro v s ha
    have h := s.planHandle_asked v { kind := .replan }
    refine ⟨_, exec_planReplan ha, h.handle, h.idle, h.busy, h.regs, h.work.sameMem, h.work.mode, h.work.dt, ?_⟩
    have hw := h.work
    rw [PlanWork] at hw
    rw [hw]
  case ahead =>
    intro v r s ha hr hrun hq ht hk
    have h := s.planHandle_asked v { kind := .eval, arg := fieldOf F.SYS_PLAN_CMD_HANDLE v }
    refine ⟨_, exec_planEval ha hr, ?_, ?_, h.regs, h.work⟩ <;>
      rw [State.planAsk_of_ahead (s := s.planHandle v) hrun ht (planRank_eval_lt hk)]
    · exact congrArg (r :: ·) hq
    · rfl
  case start =>
    intro q rest s hr hq
    refine ⟨_, congrArg Host.Outcome.next (planEvalStart_of_waiting hr hq), rfl, rfl, State.get_put_self _ _ _ (by decide), ?_, ?_⟩
    · exact (SameRegs.refl _ s).put F.SYS_PLAN_STAT_BUSY 1 (by simp)
    · exact ⟨SameMem.of_eq rfl rfl rfl rfl, rfl, rfl, rfl⟩
  case done =>
    intro q s hr hk
    obtain ⟨hrun, hqueue, hbusy, hregs, hwork⟩ := (s.evalDecide_published q.arg).start
    exact ⟨_, exec_planEvalDone_of_eval hr hk, hrun, hqueue, hbusy, hregs, hwork.sameMem, hwork.mode, hwork.safeWork⟩
  case limit =>
    intro v s ha
    refine ⟨_, exec_planLimitWrite ha, ?_, (SameRegs.refl _ s).put F.SYS_PLAN_LIMIT_LIMIT _ (by simp), rfl⟩
    rw [State.get_put_self _ _ _ (by decide)]
    exact Nat.mod_eq_of_lt (by show _ < 16384; omega)

end Sys2Proof.Machine
end

section
/-! PROOFS. The Spine (R19, R21): the count of a link's failing flit, the loss of a link and of a region's digital path, the C3 floor
windows, and the statement on them. -/

namespace Sys2Proof.Machine

/-! ### The count of a link's flit (R19) -/

/-- A list of links from which a link has been dropped holds no entry of it. -/
theorem find?_filter_link {α : Type} (m : List (Link × α)) (l : Link) :
    (m.filter fun e => e.1 != l).find? (fun e => e.1 == l) = none :=
  List.find?_eq_none.2 fun e he => by simpa using (List.mem_filter.1 he).2

@[simp] theorem State.flitCount_setFlit_self (s : State) (l : Link) (n : Nat) : (s.setFlit l n).flitCount l = n := by
  by_cases hn : n = 0
  · rw [State.flitCount, State.setFlit, if_pos hn, find?_filter_link, hn]
  · simp only [State.flitCount, State.setFlit, if_neg hn, List.find?_append, find?_filter_link]
    simp

/-- A flit that may still be retried: the failure is counted and reported. -/
theorem exec_spineFlitCrcFail_of_retry {l : Link} {same : Bool} {s : State} (hu : s.up = true) (hd : s.linkDown l = false)
    (hc : s.flitCount l < 15) : exec (.spineFlitCrcFail l same) s =
      .next ((s.setFlit l (if same then s.flitCount l + 1 else 1)).raise 46 .ce (linkDetail l)) := by
  have hcond : (s.up && !s.linkDown l && decide (s.flitCount l < 16)) = true := by simp [hu, hd]; omega
  have hn : (if same then s.flitCount l + 1 else 1) < 16 := by split <;> omega
  show Host.Outcome.next (spineFlitCrcFail l same s) = _
  rw [spineFlitCrcFail, State.whenever_pos _ _ _ hcond]
  simp [hn]

/-- The sixteenth failure in a row is counted and gives no retry. -/
theorem exec_spineFlitCrcFail_of_last {l : Link} {s : State} (hu : s.up = true) (hd : s.linkDown l = false)
    (hc : s.flitCount l = 15) : exec (.spineFlitCrcFail l true) s = .next (s.setFlit l 16) := by
  have hcond : (s.up && !s.linkDown l && decide (s.flitCount l < 16)) = true := by simp [hu, hd, hc]
  show Host.Outcome.next (spineFlitCrcFail l true s) = _
  rw [spineFlitCrcFail, State.whenever_pos _ _ _ hcond]
  simp [hc]

/-! ### Frames that go HELD with a region's digital path (R40) -/

/-- What discarding frame `f` makes of a frame: one that is `f` goes HELD for good. -/
def Frame.discardedBy (g f : Frame) : Frame :=
  if g.head == f.head && g.seq == f.seq then
    { g.dated g.slotAt with held := true, mute := true, complete := true, chosen := [] }
  else g

/-- A frame is a HELD slot none of whose samples reach the Collator. -/
abbrev Frame.Gone (g : Frame) : Prop := g.held = true ∧ g.mute = true

theorem Frame.discardedBy_head (g f : Frame) : (g.discardedBy f).head = g.head := by
  unfold Frame.discardedBy; split <;> rfl

theorem Frame.discardedBy_seq (g f : Frame) : (g.discardedBy f).seq = g.seq := by
  unfold Frame.discardedBy; split <;> rfl

theorem Frame.discardedBy_reported (g f : Frame) : (g.discardedBy f).reported = g.reported := by
  unfold Frame.discardedBy; split <;> rfl

theorem Frame.Gone.discardedBy {g : Frame} (h : g.Gone) (f : Frame) : (g.discardedBy f).Gone := by
  unfold Frame.discardedBy; split
  · exact ⟨rfl, rfl⟩
  · exact h

theorem Frame.discardedBy_gone {g f : Frame} (hh : g.head = f.head) (hs : g.seq = f.seq) : (g.discardedBy f).Gone := by
  simp [Frame.discardedBy, hh, hs]

/-- Discarding a list of frames keeps a frame's head and whether it is reported. -/
theorem Frame.foldl_discardedBy_same (l : List Frame) (g : Frame) :
    (l.foldl Frame.discardedBy g).head = g.head ∧ (l.foldl Frame.discardedBy g).reported = g.reported := by
  induction l generalizing g with
  | nil => exact ⟨rfl, rfl⟩
  | cons f l ih =>
    obtain ⟨hh, hr⟩ := ih (g.discardedBy f)
    exact ⟨hh.trans (g.discardedBy_head f), hr.trans (g.discardedBy_reported f)⟩

theorem Frame.Gone.foldl_discardedBy {g : Frame} (h : g.Gone) (l : List Frame) : (l.foldl Frame.discardedBy g).Gone := by
  induction l generalizing g with
  | nil => exact h
  | cons f l ih => exact ih (h.discardedBy f)

/-- A frame that a list of discarded frames names is gone. -/
theorem Frame.foldl_discardedBy_gone {f : Frame} {l : List Frame} (hf : f ∈ l) {g : Frame} (hh : g.head = f.head)
    (hs : g.seq = f.seq) : (l.foldl Frame.discardedBy g).Gone := by
  induction l generalizing g with
  | nil => exact absurd hf List.not_mem_nil
  | cons x l ih =>
    rcases List.mem_cons.1 hf with rfl | hf
    · exact (Frame.discardedBy_gone hh hs).foldl_discardedBy l
    · exact ih hf ((g.discardedBy_head x).trans hh) ((g.discardedBy_seq x).trans hs)

theorem State.putFsdt_frames (s : State) (h seq dt : Nat) : (s.putFsdt h seq dt).frames = s.frames := by
  unfold State.putFsdt; split <;> rfl

theorem State.discardFrame_frames (s : State) (f : Frame) :
    (s.discardFrame f).frames = s.frames.map fun g => g.discardedBy f := State.putFsdt_frames _ _ _ _

theorem State.foldl_discardFrame_frames (l : List Frame) (s : State) :
    (l.foldl State.discardFrame s).frames = s.frames.map fun g => l.foldl Frame.discardedBy g := by
  induction l generalizing s with
  | nil => simp
  | cons f l ih => rw [List.foldl_cons, ih, State.discardFrame_frames, List.map_map]; rfl

/-! ### What the loss of capacity changes (R39, R40) -/

/-- What a re-plan and the loss of a region's digital path may change. -/
def LossWork (s t : State) : Prop :=
  t = { s with regs := t.regs, pairVer := t.pairVer, digitalFail := t.digitalFail, planQ := t.planQ, planRun := t.planRun,
               pipes := t.pipes, bufs := t.bufs, frames := t.frames, quires := t.quires }

theorem LossWork.trans {s t u : State} (h : LossWork s t) (g : LossWork t u) : LossWork s u :=
  Eq.trans g (congrArg (fun x : State =>
    { x with regs := u.regs, pairVer := u.pairVer, digitalFail := u.digitalFail, planQ := u.planQ, planRun := u.planRun,
             pipes := u.pipes, bufs := u.bufs, frames := u.frames, quires := u.quires }) h)

theorem LossWork.of_planWork {s t : State} (h : PlanWork s t) : LossWork s t := by
  rw [PlanWork] at h
  rw [LossWork, h]

theorem State.planAuto_lossWork (s : State) : LossWork s s.planAuto := .of_planWork (s.planAsk_work _)

theorem State.putFsdt_lossWork (s : State) (h seq dt : Nat) : LossWork s (s.putFsdt h seq dt) := by
  unfold LossWork State.putFsdt
  split <;> rfl

theorem State.discardFrame_lossWork (s : State) (f : Frame) : LossWork s (s.discardFrame f) := by
  refine LossWork.trans ?_ (State.putFsdt_lossWork _ f.head f.seq f.slotAt)
  exact Eq.refl _

theorem State.foldl_discardFrame_lossWork (l : List Frame) (s : State) : LossWork s (l.foldl State.discardFrame s) := by
  induction l generalizing s with
  | nil => exact Eq.refl s
  | cons f l ih => exact (s.discardFrame_lossWork f).trans (ih _)

/-- The frames that the loss of region `r` discards. -/
def State.lostFrames (s : State) (r : Nat) : List Frame :=
  s.frames.filter fun f => !f.reported && (regionOf f.head == r || s.collator f.head == r || (f.pipe == r && !f.finished))

/-- The state in which region `r` is lost and its pipe is empty, before the re-plan is asked for. -/
def State.regionGone (s : State) (r : Nat) : State :=
  let u := (s.lostFrames r).foldl State.discardFrame s
  ({ u with digitalFail := u.digitalFail ++ [r] } : State).modPipe r fun _ => {}

theorem State.digitalLost_of_lost {s : State} {r : Nat} (h : s.digitalFail.contains r = true) : s.digitalLost r = s :=
  if_pos h

theorem State.digitalLost_of_not_lost {s : State} {r : Nat} (h : ¬ s.digitalFail.contains r = true) :
    s.digitalLost r = (s.regionGone r).planAuto := if_neg h

theorem State.digitalLost_lossWork (s : State) (r : Nat) : LossWork s (s.digitalLost r) := by
  by_cases h : s.digitalFail.contains r = true
  · rw [State.digitalLost_of_lost h]; exact Eq.refl s
  · rw [State.digitalLost_of_not_lost h]
    exact ((State.foldl_discardFrame_lossWork (s.lostFrames r) s).trans (Eq.refl (s.regionGone r))).trans
      (s.regionGone r).planAuto_lossWork

theorem State.planAuto_frames (s : State) : s.planAuto.frames = s.frames := by
  have h : PlanWork s s.planAuto := s.planAsk_work _
  rw [PlanWork] at h
  rw [h]

theorem State.planAuto_digitalFail (s : State) : s.planAuto.digitalFail = s.digitalFail := by
  have h : PlanWork s s.planAuto := s.planAsk_work _
  rw [PlanWork] at h
  rw [h]

theorem State.digitalLost_contains (s : State) (r : Nat) : (s.digitalLost r).digitalFail.contains r = true := by
  by_cases h : s.digitalFail.contains r = true
  · rw [State.digitalLost_of_lost h, h]
  · rw [State.digitalLost_of_not_lost h, State.planAuto_digitalFail]
    simp [State.regionGone, State.modPipe]

theorem State.digitalLost_frames {s : State} {r : Nat} (h : ¬ s.digitalFail.contains r = true) :
    (s.digitalLost r).frames = s.frames.map fun g => (s.lostFrames r).foldl Frame.discardedBy g := by
  rw [State.digitalLost_of_not_lost h, State.planAuto_frames]
  exact State.foldl_discardFrame_frames (s.lostFrames r) s

/-- A frame of the lost region's heads that is not yet reported is gone, where the region had not been lost before. -/
theorem State.digitalLost_gone {s : State} {r : Nat} {f : Frame} (hf : f ∈ (s.digitalLost r).frames) (hr : regionOf f.head = r)
    (hn : f.reported = false) : f.Gone ∨ s.digitalFail.contains r = true := by
  by_cases h : s.digitalFail.contains r = true
  · exact .inr h
  · rw [State.digitalLost_frames h, List.mem_map] at hf
    obtain ⟨g, hg, rfl⟩ := hf
    obtain ⟨hhead, hrep⟩ := Frame.foldl_discardedBy_same (s.lostFrames r) g
    have hlost : g ∈ s.lostFrames r := by
      refine List.mem_filter.2 ⟨hg, ?_⟩
      simp [← hrep, hn, ← hhead, hr]
    exact .inl (Frame.foldl_discardedBy_gone hlost rfl rfl)

/-! ### The loss of a link (R19) -/

/-- A link is declared failed: its count restarts and the UC is reported. -/
def State.linkReported (s : State) (l : Link) : State := (s.setFlit l 0).raise 46 .uc (linkDetail l)

/-- An uplink is declared failed, before what follows for its region. -/
def State.uplinkGone (s : State) (r : Region) (i : Fin 2) : State :=
  { s.linkReported (.uplink r i) with uplinkDown := s.uplinkDown ++ [uplinkNo r i] }

/-- A crossbar link is declared failed and a free value drawn, before the unit behind it reports. -/
def State.chipGone (s : State) (src : Source) : State :=
  { s.linkReported (.chip src) with chipDown := s.chipDown ++ [src.val], freeCnt := s.freeCnt + 1 }

theorem spineLinkFailed_uplink {r : Region} {i : Fin 2} {s : State} (hu : s.up = true) (hc : s.flitCount (.uplink r i) = 16) :
    spineLinkFailed (.uplink r i) s =
      if ((s.uplinkGone r i).uplinkDown.contains (uplinkNo r 0) && (s.uplinkGone r i).uplinkDown.contains (uplinkNo r 1)) = true
      then (s.uplinkGone r i).digitalLost r else (s.uplinkGone r i).planAuto :=
  State.whenever_pos _ _ _ (by simp [hu, hc])

/-- What follows the loss of an uplink, be it the region's last or not, is a loss of capacity. -/
theorem spineLinkFailed_uplink_lossWork {r : Region} {i : Fin 2} {s : State} (hu : s.up = true)
    (hc : s.flitCount (.uplink r i) = 16) : LossWork (s.uplinkGone r i) (spineLinkFailed (.uplink r i) s) := by
  rw [spineLinkFailed_uplink hu hc]
  split
  · exact (s.uplinkGone r i).digitalLost_lossWork r
  · exact (s.uplinkGone r i).planAuto_lossWork

/-- With both uplinks down the region's digital path is lost. -/
theorem spineLinkFailed_uplink_last {r : Region} {i : Fin 2} {s : State} (hu : s.up = true)
    (hc : s.flitCount (.uplink r i) = 16) (ho : s.linkDown (.uplink r (1 - i)) = true) :
    spineLinkFailed (.uplink r i) s = (s.uplinkGone r i).digitalLost r := by
  rw [spineLinkFailed_uplink hu hc, if_pos]
  match i, ho with
  | 0, ho =>
    have hother : uplinkNo r 1 ∈ s.uplinkDown := by simpa [State.linkDown] using ho
    simp [State.uplinkGone, hother]
  | 1, ho =>
    have hother : uplinkNo r 0 ∈ s.uplinkDown := by simpa [State.linkDown] using ho
    simp [State.uplinkGone, hother]

theorem spineLinkFailed_chip {src : Source} {s : State} (hu : s.up = true) (hc : s.flitCount (.chip src) = 16) :
    ∃ cls, spineLinkFailed (.chip src) s = (s.chipGone src).raise src cls (detailWord 0xFF 0xFF 0xFFFF) :=
  ⟨_, State.whenever_pos _ _ _ (by simp [hu, hc])⟩

/-- The loss of a link may change what the loss of capacity may, the reports, a free value, and what the Spine holds. -/
def LinkWork (s t : State) : Prop :=
  t = { s with regs := t.regs, freeCnt := t.freeCnt, inbox := t.inbox, digitalFail := t.digitalFail,
               uplinkDown := t.uplinkDown, chipDown := t.chipDown, flitFails := t.flitFails, pairVer := t.pairVer,
               planQ := t.planQ, planRun := t.planRun, pipes := t.pipes, bufs := t.bufs, frames := t.frames,
               quires := t.quires }

/-- What holds of every link that is declared failed. -/
structure LinkFailed (l : Link) (s t : State) : Prop where
  count : t.flitCount l = 0
  down : t.linkDown l = true
  reported : ReportedFirst 46 .uc s t
  work : LinkWork s t

theorem LinkWork.sameMem {s t : State} (h : LinkWork s t) : SameMem s t := by
  rw [LinkWork] at h
  rw [h]
  exact SameMem.of_eq rfl rfl rfl rfl

theorem LinkWork.mode {s t : State} (h : LinkWork s t) : t.mode = s.mode := by rw [LinkWork] at h; rw [h]

theorem LinkWork.dt {s t : State} (h : LinkWork s t) : t.dt = s.dt := by rw [LinkWork] at h; rw [h]

theorem State.linkReported_count (s : State) (l : Link) : (s.linkReported l).flitCount l = 0 := s.flitCount_setFlit_self l 0

/-- The loss of capacity touches none of what the Spine holds of a link that has been declared failed. -/
theorem LinkFailed.of_lossWork {r : Region} {i : Fin 2} {s t : State} (h : LossWork (s.uplinkGone r i) t) :
    LinkFailed (.uplink r i) s t := by
  rw [LossWork] at h
  rw [h]
  exact
    { count := s.linkReported_count _
      down := by simp [State.linkDown, State.uplinkGone]
      reported := ⟨_, [], rfl⟩
      work := rfl }

theorem spineLinkFailed_failed {l : Link} {s : State} (hu : s.up = true) (hc : s.flitCount l = 16) :
    LinkFailed l s (spineLinkFailed l s) := by
  cases l with
  | uplink r i => exact .of_lossWork (spineLinkFailed_uplink_lossWork hu hc)
  | chip src =>
    obtain ⟨cls, he⟩ := spineLinkFailed_chip hu hc
    rw [he]
    exact
      { count := s.linkReported_count _
        down := by simp [State.linkDown, State.chipGone]
        reported := ⟨_, _, List.append_assoc _ _ _⟩
        work := rfl }

/-! ### The C3 floor (R21) -/

theorem exec_c3FloorWindowEnd {l : Link} {t : Nat} {s : State} (hu : s.up = true) (ht : (s.floor l).start + 1000 ≤ t) :
    exec (.c3FloorWindowEnd l t) s =
      .next { s.at t with floors := (s.floors.filter fun e => e.1 != l) ++ [(l, { start := t / 1000 * 1000 })] } :=
  congrArg Host.Outcome.next (State.whenever_pos _ _ _ (by simp [hu, ht]))

/-- Settles O1: each command's outcome by its own lemma; a region's last uplink by the frames that the loss of its digital path
discards. -/
theorem spineRetriesCountAndFail : Obligations.SpineRetriesCountAndFail := by
  unfold Obligations.SpineRetriesCountAndFail
  refine ⟨?retry, ?last, ?failed, ?region, ?floor⟩
  case retry =>
    intro l same s hu hd hc
    exact ⟨_, exec_spineFlitCrcFail_of_retry hu hd hc, s.flitCount_setFlit_self l _, ⟨_, rfl⟩, SameRegs.refl _ s,
      SameMem.of_eq rfl rfl rfl rfl, rfl, rfl, rfl⟩
  case last =>
    intro l s hu hd hc
    exact ⟨_, exec_spineFlitCrcFail_of_last hu hd hc, s.flitCount_setFlit_self l 16, rfl, SameRegs.refl _ s,
      SameMem.of_eq rfl rfl rfl rfl, rfl⟩
  case failed =>
    intro l s hu hc
    have h := spineLinkFailed_failed hu hc
    exact ⟨_, rfl, h.count, h.down, h.reported, h.work.sameMem, h.work.mode, h.work.dt, h.work⟩
  case region =>
    intro r i s hu hc ho
    refine ⟨_, congrArg Host.Outcome.next (spineLinkFailed_uplink_last hu hc ho), State.digitalLost_contains _ _,
      fun f hf hr hn => State.digitalLost_gone (s := s.uplinkGone r i) hf hr hn, ?_⟩
    have h := (s.uplinkGone r i).digitalLost_lossWork r
    rw [LossWork] at h
    rw [h]
    rfl
  case floor =>
    intro l t s hu ht
    refine ⟨_, exec_c3FloorWindowEnd hu ht, ?_, rfl, rfl, SameRegs.refl _ s, SameMem.of_eq rfl rfl rfl rfl, rfl⟩
    simp only [State.floor, List.find?_append, find?_filter_link]
    simp

end Sys2Proof.Machine
end

section
/-! PROOFS. A Quire that is dispatched while the shadow check of its block is still queued in the Churn goes unshadowed (R393, log
entry 37): the statement on how Quires move through the engines is refuted. -/

namespace Sys2Proof.Machine

/-! ### A request for an activity that is queued (R396) -/

/-- A request that merges with one that waits changes nothing, so it starts nothing. -/
theorem State.churnAsk_of_queued {s : State} {a : Activity} {res : Nat} (canWait : Bool) (t : Nat)
    (hq : (s.churnQueue.any fun j => j.act == a && j.res == res) = true) (hm : sameAnswer a = .merged) :
    s.churnAsk a res canWait t = (.merged, s) := by
  have hheld : ((s.churnRun ++ s.churnQueue).any fun j => j.act == a && j.res == res) = true := by
    rw [List.any_append, hq, Bool.or_true]
  simp only [State.churnAsk, hheld, hm, if_true]

/-! ### The dispatch of a target's Quire -/

/-- What dispatch makes of the Quire it is for, with no shadow run. -/
def Quire.dispatchedAlone (x : Quire) (b c bank now : Nat) : Quire :=
  if x.third then { x with stage := .running b c now }
  else { x with stage := .running b c now, bank := bank, started := some (x.started.getD b), shadow := none, mainDone := false,
                shadowDone := false, ranOn := some (b, c) }

/-- While M7 of the block is queued and does not run, a dispatch gives the Quire to no shadow cell. -/
theorem quireDispatch_quires_of_queued {r t b0 n b c : Nat} {s : State} {q : Quire} (hq : s.nextReady r = some q)
    (hslot : q.slot = some (b0, n)) (hidle : s.idleEngine b0 = some (b, c)) (hruns : s.churnRuns .m7 b = false)
    (hqueue : (s.churnQueue.any fun j => j.act == .m7 && j.res == b) = true) :
    (quireDispatch r t s).quires = mapIf (fun x => x.head == q.head && x.seq == q.seq && x.qidx == q.qidx)
      (fun x => x.dispatchedAlone b c (if q.started.isSome then q.bank else s.get (F.EN_BSTAT_BANK b)) (max s.dt t)) s.quires := by
  have hask : (s.at t).churnAsk .m7 b true (s.at t).dt = (.merged, s.at t) := State.churnAsk_of_queued _ _ hqueue rfl
  have hnot : (s.at t).churnRuns .m7 b = false := hruns
  simp only [quireDispatch, hq, hslot, Option.bind_some, hidle, hask, ite_self, hnot]
  rfl

/-! ### The block that is shadowed while M7 waits -/

/-- A Quire of head 0 in slot 0 of block 0, ready for an engine. -/
def waitingQuire : Quire :=
  { head := 0, seq := 0, region := 0, qidx := 0, row0 := 0, nlines := 16, first := true, last := false, slot := some (0, 0),
    stage := .ready }

/-- RUN after reset, with that Quire: cell 6 of block 0, the spare, shadows cell 0; M6 has just left the block, and M7, queued
behind it, has not started. -/
def queuedCheck : State :=
  { State.reset.shadowBegin 0 with
    mode := .run, churnQueue := [{ act := .m7, res := 0 }], quires := [waitingQuire] }

theorem queuedCheck_nextReady : queuedCheck.nextReady 0 = some waitingQuire := by decide

theorem queuedCheck_idleEngine : queuedCheck.idleEngine 0 = some (0, 0) := by decide

theorem queuedCheck_target : (queuedCheck.block 0).target = some 0 := by decide

theorem queuedCheck_shadowCells : queuedCheck.cellsIn 0 cellShadow = [6] := by decide

theorem queuedCheck_quires (t : Nat) : (quireDispatch 0 t queuedCheck).quires =
    [waitingQuire.dispatchedAlone 0 0 (queuedCheck.get (F.EN_BSTAT_BANK 0)) (max queuedCheck.dt t)] :=
  quireDispatch_quires_of_queued (n := 0) queuedCheck_nextReady rfl queuedCheck_idleEngine rfl rfl

/-- Refutes O4 in its clause on a shadowed cell, which claims that the shadow cell runs the Quire too whenever M6 does not run on the
block. While M6 runs M7 queues behind it, and it leaves the queue by a command of its own (CHURN_QUEUED_START), so M6 can have
ended with M7 still queued: a dispatch at that point finds its request merged with the queued one, M7 not running, and sends
the Quire to cell 0 without a shadow run. -/
theorem not_quiresMoveThroughTheEngines : ¬ Obligations.QuiresMoveThroughTheEngines := by
  unfold Obligations.QuiresMoveThroughTheEngines
  rintro ⟨-, -, hshadow, -⟩
  obtain ⟨u, hexec, hquires, -⟩ := hshadow 0 0 queuedCheck waitingQuire 0 0 0 0 6 [] queuedCheck_nextReady rfl
    queuedCheck_idleEngine queuedCheck_target rfl rfl queuedCheck_shadowCells
  obtain rfl : quireDispatch 0 0 queuedCheck = u := Host.Outcome.next.inj hexec
  have hmem : waitingQuire.dispatchedAlone 0 0 (queuedCheck.get (F.EN_BSTAT_BANK 0)) (max queuedCheck.dt 0) ∈
      (quireDispatch 0 0 queuedCheck).quires := by
    rw [queuedCheck_quires]; exact List.mem_singleton_self _
  obtain ⟨-, hsix⟩ := hquires _ hmem rfl rfl rfl rfl
  have hnone : (none : Option Nat) = some 6 := hsix
  exact absurd hnone (by decide)

end Sys2Proof.Machine
end

section
/-! PROOFS. What differs after an operation of a head port: registers, head units, waiting reports. -/

namespace Sys2Proof.Machine

theorem OnlyRegs.head {s t : State} (h : OnlyRegs s t) (k : Nat) : t.head k = s.head k := by
  rw [OnlyRegs] at h
  rw [h]
  rfl

theorem OnlyRegs.inbox {s t : State} (h : OnlyRegs s t) : t.inbox = s.inbox := by
  rw [OnlyRegs] at h
  rw [h]

/-- Registers, head units and waiting reports are all that differs. -/
def PortWork (s t : State) : Prop := t = { s with regs := t.regs, heads := t.heads, inbox := t.inbox }

theorem PortWork.refl (s : State) : PortWork s s := Eq.refl s

theorem PortWork.trans {s t u : State} (h : PortWork s t) (g : PortWork t u) : PortWork s u :=
  Eq.trans g (congrArg (fun x : State => { x with regs := u.regs, heads := u.heads, inbox := u.inbox }) h)

theorem OnlyRegs.portWork {s t : State} (h : OnlyRegs s t) : PortWork s t :=
  Eq.trans h (congrArg (fun x : State => { s with regs := t.regs, heads := x.heads, inbox := x.inbox }) h.symm)

theorem OnlyRegs.put {s t : State} (h : OnlyRegs s t) (f : Fld) (v : Nat) : OnlyRegs s (t.put f v) :=
  Eq.trans (Eq.refl (t.put f v)) (congrArg (fun x : State => { x with regs := (t.put f v).regs }) h)

theorem State.portFault_reported (s : State) (h : Nat) (f : Fld) (cls : FaultClass) :
    Reported (20 + h) cls s (s.portFault h f cls) := ⟨_, rfl⟩

theorem State.portFault_get (s : State) (h : Nat) (f g : Fld) (cls : FaultClass) :
    (s.portFault h f cls).get g = (s.put f 1).get g := rfl

theorem State.portFault_sameRegs (s : State) (h : Nat) (f : Fld) (cls : FaultClass) :
    SameRegs [f.addr] s (s.portFault h f cls) := (SameRegs.refl _ s).put f 1 (by simp)

end Sys2Proof.Machine
end

section
/-! PROOFS. The head control port and the general-purpose pins (R64 to R67): the start and the ends of a transfer, and the statement
on them. -/

namespace Sys2Proof.Machine

/-! ### The result of a transfer (R65, Table 2-6) -/

theorem State.hcpResult_ok (s : State) (h : Nat) : s.hcpResult h 0 = s.put (F.HCP_STAT_ERR h) 0 := rfl

theorem State.hcpResult_error (s : State) (h : Nat) {code : Nat} (hc : code ≠ 0) :
    s.hcpResult h code = (s.put (F.HCP_STAT_ERR h) code).portFault h (F.HP_FLT_HCP_ERR h) .ce := by
  rw [State.hcpResult, if_neg hc]

theorem State.hcpResult_err (s : State) (h : Nat) {code : Nat} (hc : code < 16) :
    (s.hcpResult h code).get (F.HCP_STAT_ERR h) = code := by
  have hput : (s.put (F.HCP_STAT_ERR h) code).get (F.HCP_STAT_ERR h) = code :=
    (State.get_put_self _ _ _ (by simp)).trans (Nat.mod_eq_of_lt hc)
  by_cases h0 : code = 0
  · subst h0; exact hput
  · rw [State.hcpResult_error s h h0, State.portFault_get, State.get_put_reg _ _ _ _ (by simp), hput]

/-- The rest of HCP_STAT is as it was. -/
theorem State.hcpResult_get_stat (s : State) (h code : Nat) {f : Fld} (ha : f.addr = R.HCP_STAT h)
    (hd : f.lo + f.w ≤ 16 ∨ 20 ≤ f.lo) : (s.hcpResult h code).get f = s.get f := by
  have hput : (s.put (F.HCP_STAT_ERR h) code).get f = s.get f := State.get_put_disjoint _ _ _ _ fun _ => hd
  by_cases h0 : code = 0
  · subst h0; exact hput
  · rw [State.hcpResult_error s h h0, State.portFault_get, State.get_put_reg _ _ _ _ (by simp [ha]), hput]

theorem State.hcpResult_head (s : State) (h code k : Nat) : (s.hcpResult h code).head k = s.head k := by
  by_cases h0 : code = 0
  · rw [h0, State.hcpResult_ok, State.put_head]
  · rw [State.hcpResult_error s h h0]; rfl

theorem State.hcpResult_frame (s : State) (h code : Nat) :
    s.hcpResult h code = { s with regs := (s.hcpResult h code).regs, inbox := (s.hcpResult h code).inbox } := by
  by_cases h0 : code = 0
  · rw [h0]; rfl
  · rw [State.hcpResult_error s h h0]; rfl

theorem State.hcpResult_work (s : State) (h code : Nat) : PortWork s (s.hcpResult h code) := by
  rw [PortWork, State.hcpResult_frame]

theorem State.hcpResult_sameRegs (s : State) (h code : Nat) :
    SameRegs [R.HCP_STAT h, R.HP_FLT h] s (s.hcpResult h code) := by
  have hput : SameRegs [R.HCP_STAT h, R.HP_FLT h] s (s.put (F.HCP_STAT_ERR h) code) := (SameRegs.refl _ s).put _ _ (by simp)
  by_cases h0 : code = 0
  · subst h0; exact hput
  · rw [State.hcpResult_error s h h0]
    exact hput.trans (SameRegs.mono (State.portFault_sameRegs _ h _ _) (by simp))

/-- What a code other than OK does beside it: HCP_ERR and a CE. -/
theorem State.hcpResult_fault (s : State) (h : Nat) {code : Nat} (hc : code ≠ 0) :
    (s.hcpResult h code).get (F.HP_FLT_HCP_ERR h) = 1 ∧ Reported (20 + h) .ce s (s.hcpResult h code) := by
  rw [State.hcpResult_error s h hc]
  exact ⟨(State.portFault_get _ _ _ _ _).trans (State.get_put_self _ _ _ (by simp)), State.portFault_reported (s.put _ _) h _ _⟩

/-! ### The start of a transfer -/

theorem State.hcpStart_of_notReady {s : State} {h : Nat} {o : Bool} (hr : s.hcpReady h = false) :
    s.hcpStart h o = (s.put (F.HCP_STAT_RXCOUNT h) 0).hcpResult h 7 := by
  simp [State.hcpStart, hr]

theorem State.hcpStart_of_empty {s : State} {h : Nat} {o : Bool} (hr : s.hcpReady h = true) (hl : s.get (F.HCP_LEN_LEN h) = 0) :
    s.hcpStart h o = (s.put (F.HCP_STAT_RXCOUNT h) 0).hcpResult h 0 := by
  simp [State.hcpStart, hr, hl]

theorem State.hcpStart_of_noChain {s : State} {h : Nat} {o : Bool} (hr : s.hcpReady h = true)
    (hl : s.get (F.HCP_LEN_LEN h) ≠ 0) (hc : (s.prof h).hcpChains ≠ 0) (hn : s.get (F.HCP_LEN_LEN h) ∉ (s.prof h).chainLen) :
    s.hcpStart h o = (s.put (F.HCP_STAT_RXCOUNT h) 0).hcpResult h 4 := by
  simp [State.hcpStart, hr, hl, hc, hn]

theorem State.hcpStart_of_chain {s : State} {h : Nat} {o : Bool} (hr : s.hcpReady h = true)
    (hl : s.get (F.HCP_LEN_LEN h) ≠ 0) (hc : (s.prof h).hcpChains = 0 ∨ s.get (F.HCP_LEN_LEN h) ∈ (s.prof h).chainLen) :
    s.hcpStart h o = (s.put (F.HCP_STAT_BUSY h) 1).modHead h fun u =>
      { u with hcp := some { len := s.get (F.HCP_LEN_LEN h), tx := s.hcpTx h (s.get (F.HCP_LEN_LEN h)), owned := o } } := by
  rcases hc with hc | hc <;> simp [State.hcpStart, hr, hl, hc]

theorem exec_hcpGo_of_idle {h : Head} {s : State} (ha : s.access (R.HCP_CMD h) = true) (hx : (s.head h).hcp = none)
    (ho : s.flag (F.HCP_STAT_OWNER h) = false) : exec (.hcpGo h) s = .next (s.hcpStart h false) := by
  show Host.Outcome.next (hcpGo h s) = _
  rw [hcpGo, State.whenever_pos _ _ _ ha]
  simp [hx, ho]

theorem exec_hcpGo_of_busy {h : Head} {s : State} (ha : s.access (R.HCP_CMD h) = true)
    (hb : ((s.head h).hcp.isSome || s.flag (F.HCP_STAT_OWNER h)) = true) : exec (.hcpGo h) s = .next (s.hcpResult h 6) := by
  show Host.Outcome.next (hcpGo h s) = _
  rw [hcpGo, State.whenever_pos _ _ _ ha, if_pos hb]

/-- A GO that ends at once leaves RXCOUNT 0 and its code; what differs is in HCP_STAT, HP_FLT and the inbox. -/
structure HcpRefused (h code : Nat) (s t : State) : Prop where
  err : t.get (F.HCP_STAT_ERR h) = code
  count : t.get (F.HCP_STAT_RXCOUNT h) = 0
  fault : code ≠ 0 → t.get (F.HP_FLT_HCP_ERR h) = 1 ∧ Reported (20 + h) .ce s t
  regs : SameRegs [R.HCP_STAT h, R.HP_FLT h] s t
  work : t = { s with regs := t.regs, inbox := t.inbox }

theorem State.hcpResult_refused (s : State) (h : Nat) {code : Nat} (hc : code < 16) :
    HcpRefused h code s ((s.put (F.HCP_STAT_RXCOUNT h) 0).hcpResult h code) where
  err := State.hcpResult_err _ h hc
  count := (State.hcpResult_get_stat _ h code rfl (.inl (le_refl 16))).trans (State.get_put_self _ _ _ (by simp))
  fault h0 := State.hcpResult_fault (s.put (F.HCP_STAT_RXCOUNT h) 0) h h0
  regs := ((SameRegs.refl _ s).put _ _ (by simp)).trans (State.hcpResult_sameRegs _ h code)
  work := State.hcpResult_frame (s.put (F.HCP_STAT_RXCOUNT h) 0) h code

/-! ### The end of a transfer (R64, R65) -/

/-- The registers that hold the received bits. -/
abbrev rxRegs (h : Nat) (rx : List Bool) : List Nat := (List.range (ceilDiv rx.length 32)).map (R.HCP_RXBUF h)

theorem foldl_put_sameRegs {l : List Nat} {k : List Nat} (f : Nat → Fld) (v : Nat → Nat) {s t : State} (h : SameRegs l s t)
    (hk : ∀ w ∈ k, (f w).addr ∈ l) : SameRegs l s (k.foldl (fun s w => s.put (f w) (v w)) t) := by
  induction k generalizing t with
  | nil => exact h
  | cons w k ih => exact ih (h.put _ _ (hk w (by simp))) fun x hx => hk x (by simp [hx])

theorem foldl_put_onlyRegs {k : List Nat} (f : Nat → Fld) (v : Nat → Nat) {s t : State} (h : OnlyRegs s t) :
    OnlyRegs s (k.foldl (fun s w => s.put (f w) (v w)) t) := by
  induction k generalizing t with
  | nil => exact h
  | cons w k ih => exact ih (h.put _ _)

theorem State.hcpRx_sameRegs (s : State) (h : Nat) (rx : List Bool) : SameRegs (rxRegs h rx) s (s.hcpRx h rx) :=
  foldl_put_sameRegs (fun w => ⟨R.HCP_RXBUF h w, 0, ((rx.drop (32 * w)).take 32).length⟩) _ (SameRegs.refl _ s)
    fun _ hw => List.mem_map_of_mem hw

theorem State.hcpRx_onlyRegs (s : State) (h : Nat) (rx : List Bool) : OnlyRegs s (s.hcpRx h rx) :=
  foldl_put_onlyRegs (fun w => ⟨R.HCP_RXBUF h w, 0, ((rx.drop (32 * w)).take 32).length⟩) _ (Eq.refl s)

/-- A transfer of head `h` has ended with the bits `rx` and a code. -/
structure HcpEnded (h : Nat) (rx : List Bool) (code : Nat) (s t : State) : Prop where
  idle : (t.head h).hcp = none
  owner : (t.head h).hcpOwner = (s.head h).hcpOwner
  busy : t.get (F.HCP_STAT_BUSY h) = 0
  err : t.get (F.HCP_STAT_ERR h) = code
  count : t.get (F.HCP_STAT_RXCOUNT h) = rx.length % 2 ^ 16
  fault : code ≠ 0 → t.get (F.HP_FLT_HCP_ERR h) = 1 ∧ Reported (20 + h) .ce s t
  ok : code = 0 → t.inbox = s.inbox ∧ t.reg (R.HP_FLT h) = s.reg (R.HP_FLT h)
  regs : SameRegs (R.HCP_STAT h :: R.HP_FLT h :: rxRegs h rx) s t
  work : PortWork s t

/-- The port with its transfer over: HDO rests at the last bit driven (R64). -/
def State.hcpOff (s : State) (h : Nat) (x : HcpXfer) (sent : Nat) : State :=
  s.modHead h fun u => { u with hcp := none, hdo := (x.tx.take sent).getLastD u.hdo }

/-- The end of a transfer before its result is set. -/
def State.hcpShut (s : State) (h : Nat) (x : HcpXfer) (rx : List Bool) (sent : Nat) : State :=
  (((s.hcpOff h x sent).hcpRx h rx).put (F.HCP_STAT_RXCOUNT h) rx.length).put (F.HCP_STAT_BUSY h) 0

theorem State.hcpEnd_of_running {s : State} {h : Nat} {x : HcpXfer} (hx : (s.head h).hcp = some x) (rx : List Bool)
    (sent code : Nat) : s.hcpEnd h rx sent code = (s.hcpShut h x rx sent).hcpResult h code := by
  simp only [State.hcpEnd, hx]
  rfl

theorem State.hcpShut_onlyRegs (s : State) (h : Nat) (x : HcpXfer) (rx : List Bool) (sent : Nat) :
    OnlyRegs (s.hcpOff h x sent) (s.hcpShut h x rx sent) :=
  ((State.hcpRx_onlyRegs _ h rx).put _ _).put _ _

theorem State.hcpShut_sameRegs (s : State) (h : Nat) (x : HcpXfer) (rx : List Bool) (sent : Nat) :
    SameRegs (R.HCP_STAT h :: rxRegs h rx) s (s.hcpShut h x rx sent) :=
  ((SameRegs.mono (State.hcpRx_sameRegs (s.hcpOff h x sent) h rx) fun _ => List.mem_cons_of_mem _).put _ _ (by simp)).put _ _
    (by simp)

theorem flt_not_mem_rxRegs (h : Nat) (rx : List Bool) : R.HP_FLT h ∉ R.HCP_STAT h :: rxRegs h rx := by
  simp only [List.mem_cons, List.mem_map, not_or, not_exists, not_and, R.HP_FLT, R.HCP_STAT, R.HCP_RXBUF]
  exact ⟨by omega, fun w _ => by omega⟩

theorem State.hcpEnd_ended {s : State} {h : Nat} {x : HcpXfer} (hh : h < 8) (hx : (s.head h).hcp = some x) (rx : List Bool)
    (sent : Nat) {code : Nat} (hc : code < 16) : HcpEnded h rx code s (s.hcpEnd h rx sent code) := by
  rw [State.hcpEnd_of_running hx]
  have hregs := State.hcpShut_onlyRegs s h x rx sent
  have hhead : ((s.hcpShut h x rx sent).hcpResult h code).head h =
      { s.head h with hcp := none, hdo := (x.tx.take sent).getLastD (s.head h).hdo } :=
    ((State.hcpResult_head _ h code h).trans (hregs.head h)).trans (State.head_modHead_self s h _ hh)
  have hin : (s.hcpShut h x rx sent).inbox = s.inbox := hregs.inbox
  have hflt : (s.hcpShut h x rx sent).reg (R.HP_FLT h) = s.reg (R.HP_FLT h) :=
    State.hcpShut_sameRegs s h x rx sent _ (flt_not_mem_rxRegs h rx)
  have hoff : PortWork s (s.hcpOff h x sent) := rfl
  exact
    { idle := by rw [hhead]
      owner := by rw [hhead]
      busy := (State.hcpResult_get_stat _ h code rfl (.inr (by simp))).trans (State.get_put_self _ _ _ (by simp))
      err := State.hcpResult_err _ h hc
      count := by
        rw [State.hcpResult_get_stat _ h code rfl (.inl (le_refl 16)), State.hcpShut,
          State.get_put_disjoint _ _ _ _ (fun _ => .inl (by simp)), State.get_put_self _ _ _ (by simp)]
      fault := fun h0 => by
        obtain ⟨hf, d, hr⟩ := State.hcpResult_fault (s.hcpShut h x rx sent) h h0
        exact ⟨hf, d, hin ▸ hr⟩
      ok := fun h0 => by
        rw [h0, State.hcpResult_ok]
        exact ⟨(State.put_inbox _ _ _).trans hin, (State.reg_put_other _ _ _ _ (by simp)).trans hflt⟩
      regs := SameRegs.trans
        (SameRegs.mono (State.hcpShut_sameRegs s h x rx sent) fun a ha => by
          rcases List.mem_cons.1 ha with rfl | ha
          · exact List.mem_cons_self
          · exact List.mem_cons_of_mem _ (List.mem_cons_of_mem _ ha))
        (SameRegs.mono (State.hcpResult_sameRegs _ h code) (by simp))
      work := (hoff.trans hregs.portWork).trans (State.hcpResult_work _ h code) }

/-! ### What follows the end of a transfer no transaction waits for (R68) -/

theorem State.txnNext_eq_none {s : State} {h : Nat} :
    s.txnNext h = none ↔ (s.txnQ.filter fun n => match s.txnHead n h with | some x => x.queued | none => false) = [] := by
  unfold State.txnNext
  dsimp only
  split
  · next n hn =>
    have hmem := List.mem_of_mem_filter (List.mem_of_getLast? hn)
    simp only [reduceCtorEq, false_iff]
    exact List.ne_nil_of_mem hmem
  · exact List.head?_eq_none_iff

theorem State.txnNext_of_same {s t : State} {h : Nat} (hn : s.txnNext h = none) (hq : t.txnQ = s.txnQ) (ht : t.txns = s.txns) :
    t.txnNext h = none := by
  rw [State.txnNext_eq_none] at hn ⊢
  simp only [State.txnHead, State.txn, hq, ht]
  exact hn

theorem State.txnPump_of_none {s : State} {h : Nat} (hn : s.txnNext h = none) (k : Nat) : s.txnPump h k = s := by
  cases k with
  | zero => rfl
  | succ k => simp [State.txnPump, hn]

/-- With no owner and no transaction that waits for the port, nothing follows. -/
theorem State.txnAfter_of_free {s old : State} {h : Nat} (ho : (s.head h).hcpOwner = 0) (hn : s.txnNext h = none) :
    s.txnAfter old h = s := by
  have hend : s.txnTransferEnd h = s := by rw [State.txnTransferEnd, ho]
  have hset : s.txnSettle h 32 = s := by simp only [State.txnSettle, State.txnPump_of_none hn, ho]
  rw [State.txnAfter, hend, hset, ite_self]

theorem HcpEnded.txnAfter {h : Nat} {rx : List Bool} {code : Nat} {s t : State} (e : HcpEnded h rx code s t)
    (ho : (s.head h).hcpOwner = 0) (hn : s.txnNext h = none) (old : State) : t.txnAfter old h = t := by
  refine State.txnAfter_of_free (e.owner.trans ho) (State.txnNext_of_same hn ?_ ?_) <;> rw [e.work]

theorem exec_hcpTransferDone {h : Head} {rx : List Bool} {extra : Bool} {x : HcpXfer} {s : State} (hx : (s.head h).hcp = some x)
    (hl : rx.length = x.len) (how : x.owned = false) (ho : (s.head h).hcpOwner = 0) (hn : s.txnNext h = none) :
    exec (.hcpTransferDone h rx extra) s =
      .next (s.hcpEnd h rx x.len (if extra then 2 else if s.prefixBad h rx then 3 else 0)) := by
  show Host.Outcome.next ((hcpTransferDone h rx extra s).txnAfter s h) = _
  have hdone : hcpTransferDone h rx extra s = s.hcpEnd h rx x.len (if extra then 2 else if s.prefixBad h rx then 3 else 0) := by
    have htake : rx.take x.len = rx := List.take_of_length_le hl.le
    simp [hcpTransferDone, hx, State.whenever, htake, how, hl]
  have hend : HcpEnded h rx _ s _ := State.hcpEnd_ended h.isLt hx rx x.len
    (show (if extra then 2 else if s.prefixBad h rx then 3 else 0) < 16 by split <;> [decide; (split <;> decide)])
  rw [hdone, hend.txnAfter ho hn]

theorem exec_strobeShort {h : Head} {rx : List Bool} {x : HcpXfer} {s : State} (hx : (s.head h).hcp = some x)
    (hl : rx.length < x.len) (ho : (s.head h).hcpOwner = 0) (hn : s.txnNext h = none) :
    exec (.strobeShort h rx) s = .next (s.hcpEnd h rx x.len 1) := by
  show Host.Outcome.next ((strobeShort h rx s).txnAfter s h) = _
  have hdone : strobeShort h rx s = s.hcpEnd h rx x.len 1 := by simp [strobeShort, hx, State.whenever, hl]
  rw [hdone, (State.hcpEnd_ended h.isLt hx rx x.len (by decide)).txnAfter ho hn]

/-- ABORT ends the transfer with bits that are free (log entry 80). -/
theorem exec_hcpAbort {h : Head} {x : HcpXfer} {s : State} (ha : s.access (R.HCP_CMD h) = true)
    (hx : (s.head h).hcp = some x) (ho : (s.head h).hcpOwner = 0) (hn : s.txnNext h = none) :
    ∃ rx t, exec (.hcpAbort h) s = .next t ∧ HcpEnded h rx 5 { s with freeCnt := s.freeCnt + 3 } t := by
  have hcut : ∃ rx sent, hcpAbort h s = ({ s with freeCnt := s.freeCnt + 3 } : State).hcpEnd h rx sent 5 := by
    rw [hcpAbort, State.whenever_pos _ _ _ ha]
    simp only [State.hcpCut, hx]
    exact ⟨_, _, rfl⟩
  obtain ⟨rx, sent, hcut⟩ := hcut
  have hend := State.hcpEnd_ended (s := { s with freeCnt := s.freeCnt + 3 }) h.isLt hx rx sent (code := 5) (by decide)
  refine ⟨rx, _, ?_, hend⟩
  show Host.Outcome.next ((hcpAbort h s).txnAfter s h) = _
  rw [hcut, hend.txnAfter ho hn]

/-! ### General-purpose pins (R67) -/

theorem exec_gpSetWrite {i : Fin 2} {v : Word} {s : State} (ha : s.access (R.GP_SET i) = true) :
    exec (.gpSetWrite i v) s = .next (s.setReg (R.GP_OUT i) (s.reg (R.GP_OUT i) ||| v)) :=
  congrArg Host.Outcome.next (State.whenever_pos s _ _ ha)

theorem exec_gpClrWrite {i : Fin 2} {v : Word} {s : State} (ha : s.access (R.GP_CLR i) = true) :
    exec (.gpClrWrite i v) s = .next (s.setReg (R.GP_OUT i) (s.reg (R.GP_OUT i) &&& ~~~v)) :=
  congrArg Host.Outcome.next (State.whenever_pos s _ _ ha)

theorem State.setReg_sameRegs (s : State) (a : Nat) (w : Word) : SameRegs [a] s (s.setReg a w) :=
  fun b hb => State.reg_setReg_other s a b w (by simpa using hb)

/-- Settles O9: a GO by the first of its refusals that holds, else by the transfer it starts; the three ends of a transfer as one,
by what they do with the received bits and a code, after which no transaction goes on. -/
theorem headControlPortAndPins : Obligations.HeadControlPortAndPins := by
  unfold Obligations.HeadControlPortAndPins
  refine ⟨?go, ?noPort, ?empty, ?noChain, ?busy, ?abort, ?done, ?short, ?set, ?clear⟩
  case go =>
    intro h s ha hx ho hr hl hc
    exact ⟨_, (exec_hcpGo_of_idle ha hx ho).trans (congrArg _ (State.hcpStart_of_chain hr hl hc)),
      State.get_put_self _ _ _ (by simp), ⟨_, congrArg HeadUnit.hcp (State.head_modHead_self _ h _ h.isLt), rfl, rfl⟩,
      (SameRegs.refl _ s).put (F.HCP_STAT_BUSY h) 1 (by simp), rfl⟩
  case noPort =>
    intro h s ha hx ho hr
    have e := s.hcpResult_refused h (code := 7) (by decide)
    obtain ⟨hflag, hrep⟩ := e.fault (by decide)
    exact ⟨_, (exec_hcpGo_of_idle ha hx ho).trans (congrArg _ (State.hcpStart_of_notReady hr)), e.err, e.count, hflag, hrep,
      e.regs, e.work⟩
  case empty =>
    intro h s ha hx ho hr hl
    have e := s.hcpResult_refused h (code := 0) (by decide)
    exact ⟨_, (exec_hcpGo_of_idle ha hx ho).trans (congrArg _ (State.hcpStart_of_empty hr hl)), e.err, e.count,
      ((SameRegs.refl _ s).put (F.HCP_STAT_RXCOUNT h) 0 (by simp)).put (F.HCP_STAT_ERR h) 0 (by simp), rfl⟩
  case noChain =>
    intro h s ha hx ho hr hl hc hn
    have e := s.hcpResult_refused h (code := 4) (by decide)
    obtain ⟨hflag, hrep⟩ := e.fault (by decide)
    exact ⟨_, (exec_hcpGo_of_idle ha hx ho).trans (congrArg _ (State.hcpStart_of_noChain hr hl hc hn)), e.err, hflag, hrep,
      e.regs, e.work⟩
  case busy =>
    intro h s ha hb
    obtain ⟨hflag, hrep⟩ := s.hcpResult_fault h (code := 6) (by decide)
    exact ⟨_, exec_hcpGo_of_busy ha hb, s.hcpResult_err h (by decide), hflag, rfl, hrep, s.hcpResult_sameRegs h 6, rfl⟩
  case abort =>
    intro h x s ha hx ho hn
    obtain ⟨rx, t, hexec, e⟩ := exec_hcpAbort ha hx ho hn
    obtain ⟨hflag, hrep⟩ := e.fault (by decide)
    have hw := e.work
    refine ⟨t, hexec, e.idle, e.busy, e.err, hflag, hrep, ?_, ?_, ?_, ?_⟩ <;> rw [hw]
    exact SameMem.of_eq rfl rfl rfl rfl
  case done =>
    intro h rx extra x s hx hl hlt how ho hn
    have e := State.hcpEnd_ended h.isLt hx rx x.len (code := if extra then 2 else if s.prefixBad h rx then 3 else 0)
      (by split <;> [decide; (split <;> decide)])
    refine ⟨_, exec_hcpTransferDone hx hl how ho hn, e.idle, e.busy, e.err, ?_, fun hex hp => e.ok (by simp [hex, hp]),
      fun hbad => And.symm (e.fault ?_), hl ▸ e.regs, e.work⟩
    · exact e.count.trans (by rw [hl]; exact Nat.mod_eq_of_lt hlt)
    · rcases Bool.or_eq_true_iff.1 hbad with hex | hp
      · simp [hex]
      · rw [if_pos (of_decide_eq_true hp)]; split <;> decide
  case short =>
    intro h rx x s hx hl hlt ho hn
    have e := State.hcpEnd_ended h.isLt hx rx x.len (code := 1) (by decide)
    obtain ⟨hflag, hrep⟩ := e.fault (by decide)
    exact ⟨_, exec_strobeShort hx hl ho hn, e.idle, e.busy, e.err,
      e.count.trans (Nat.mod_eq_of_lt (hl.trans hlt)), hflag, hrep, e.regs, e.work⟩
  case set =>
    intro i v s ha
    exact ⟨_, exec_gpSetWrite ha, State.reg_setReg_self _ _ _, s.setReg_sameRegs _ _, rfl⟩
  case clear =>
    intro i v s ha
    exact ⟨_, exec_gpClrWrite ha, State.reg_setReg_self _ _ _, s.setReg_sameRegs _ _, rfl⟩

end Sys2Proof.Machine
end

section
/-! PROOFS. RESUME on a retired port (R74, R382): the statement on a head's profile and supply is refuted. -/

namespace Sys2Proof.Machine

/-- RESUME ends the converters' hold and lets the head's hold end, each by its own causes; a retired port keeps both (R74, R382). -/
theorem exec_resume {h : Head} {s : State} (ha : s.access (R.HP_CMD h) = true) :
    exec (.resume h) s = .next (s.modHead h fun u =>
      { u with dacHold := u.dacHold && !(s.mode != .safe && !(s.head h).supLost && !s.isRetired (20 + h))
               resume := u.resume || ((!(s.head h).supHeld || s.get (F.HP_STAT_HSUP h) == 2) && !s.isRetired (20 + h)) }) := by
  show Host.Outcome.next (resume h s) = _
  rw [resume, State.whenever_pos _ _ _ ha]

/-- A retired port keeps its converters' hold. -/
theorem resume_dacHold_of_retired {h : Head} {s t : State} (ha : s.access (R.HP_CMD h) = true)
    (hr : s.isRetired (20 + h) = true) (ht : exec (.resume h) s = .next t) : (t.head h).dacHold = (s.head h).dacHold := by
  rw [exec_resume ha] at ht
  obtain rfl := Host.Outcome.next.inj ht
  rw [State.head_modHead_self _ _ _ h.isLt]
  simp [hr]

/-- SETUP after reset, with head port 0 (source 20) retired and its converters held. -/
def retiredPort : State :=
  ({ State.reset with mode := .setup } : State).put F.FC_RET_LO_RET (2 ^ 20) |>.modHead 0 fun u => { u with dacHold := true }

theorem retiredPort_isRetired : retiredPort.isRetired 20 = true := by decide

/-- Refutes O6 in its clause on RESUME, which claims that it ends the converters' hold outside SAFE whenever no supply is lost. It
leaves out a retired port, which R382 holds at 0 V and R74 keeps there while the cause remains: in SETUP, with port 0 retired and
its converters held, RESUME leaves them held. -/
theorem not_headProfileAndSupplyCommands : ¬ Obligations.HeadProfileAndSupplyCommands := by
  unfold Obligations.HeadProfileAndSupplyCommands
  rintro ⟨-, -, -, -, -, -, -, -, -, -, -, hresume, -⟩
  obtain ⟨t, hexec, hfree, -⟩ := hresume 0 retiredPort rfl
  have hheld : (t.head 0).dacHold = true := resume_dacHold_of_retired (h := 0) rfl retiredPort_isRetired hexec
  have hended : (t.head 0).dacHold = false := hfree
  exact absurd (hheld.symm.trans hended) (by decide)

end Sys2Proof.Machine
end

section
/-! PROOFS. A write of HP_CTRL that ends a transfer which a transaction waits out (R68): the statement on HP_BIAS and HP_CTRL is
refuted. -/

namespace Sys2Proof.Machine

/-! ### A transfer of no bits that is cut short -/

/-- How many bits of a cut transfer were captured and driven is free, but of none there are none. -/
theorem State.hcpCut_of_len_zero {s : State} {h code : Nat} {x : HcpXfer} (hx : (s.head h).hcp = some x) (hl : x.len = 0) :
    s.hcpCut h code = ({ s with freeCnt := s.freeCnt + 3 } : State).hcpEnd h [] 0 code := by
  simp only [State.hcpCut, hx, hl, State.freshUpTo, State.fresh, Nat.sub_self, Nat.zero_add, Nat.mod_one, natBits]

/-! ### The port taken from a transfer that a transaction waits out (R68) -/

theorem exec_hpCtrlWrite_of_disable {h : Head} {v : Word} {s : State} (ha : s.access (R.HP_CTRL h) = true)
    (hv : (s.put ⟨R.HP_CTRL h, 0, 8⟩ v.toNat).flag (F.HP_CTRL_PORT_EN h) = false) :
    exec (.hpCtrlWrite h v) s = .next (State.txnAfter
      ((((s.put ⟨R.HP_CTRL h, 0, 8⟩ v.toNat).hcpStop h).modHead h fun u =>
        { u with bridge := .idle, drive := none, driveWait := none, openTest := false }).hsupEval h) s h) := by
  show Host.Outcome.next ((hpCtrlWrite h v s).txnAfter s h) = _
  rw [hpCtrlWrite, State.whenever_pos _ _ _ ha]
  simp only [hv, Bool.false_eq_true, if_false]

/-- An entry that sets HP_CTRL.PORT_EN of head 0. -/
def restEntry : TxnEntry := { undo := false, head := 0, addr := R.HP_CTRL 0, val := 1 }

/-- A transaction that waits for the port's running transfer to end before it writes that entry. -/
def waitingTxn : Txn := { heads := [{ head := 0, began := true, waitOld := true, left := [restEntry] }] }

/-- SETUP after reset, with that transaction the owner of head 0's port, on which a transfer of no bits runs. -/
def waitedPort : State :=
  (({ State.reset with mode := .setup } : State).modTxn 0 fun _ => waitingTxn).modHead 0 fun u =>
    { u with hcp := some { len := 0, tx := [], owned := false }, hcpOwner := 1 }

/-- The write of 0 ends the transfer, and the transaction's entry then sets PORT_EN again. -/
theorem waitedPort_enabled {t : State} (ht : exec (.hpCtrlWrite 0 0) waitedPort = .next t) : t.get (F.HP_CTRL_PORT_EN 0) = 1 := by
  have hoff : (waitedPort.put ⟨R.HP_CTRL 0, 0, 8⟩ 0).flag (F.HP_CTRL_PORT_EN 0) = false := by decide
  have hexec := exec_hpCtrlWrite_of_disable (h := 0) (v := 0) (s := waitedPort) rfl hoff
  rw [State.hcpStop, State.hcpCut_of_len_zero (x := { len := 0, tx := [], owned := false }) rfl rfl] at hexec
  obtain rfl := Host.Outcome.next.inj (hexec.symm.trans ht)
  decide +kernel

/-- Refutes O7 in its clause on PORT_EN 0, which claims that HP_CTRL then holds the written bits in every state. A write that ends a
running transfer lets the transaction that owns the port go on with its entries (R68), and an entry is stored at whatever
address it names. Here that address is HP_CTRL, which a commit refuses (R305, check 2): no run of the machine commits such an
entry, but the clause has no premise that excludes it. -/
theorem not_headBiasAndControlWrites : ¬ Obligations.HeadBiasAndControlWrites := by
  unfold Obligations.HeadBiasAndControlWrites
  rintro ⟨-, -, -, hdisable, -⟩
  obtain ⟨t, hexec, hoff, -⟩ := hdisable 0 0 waitedPort rfl rfl (by decide)
  exact absurd ((waitedPort_enabled hexec).symm.trans hoff) (by decide)

end Sys2Proof.Machine
end

section
/-! PROOFS. What a transaction may do beside a head's profile, capture and blanking, which it leaves as they are. -/

namespace Sys2Proof.Machine

/-- What a head's profile, capture and blanking are. -/
def HeadUnit.blanking (u : HeadUnit) : Option Profile × Option Cap × Option Nat × Bool :=
  (u.profile, u.cap, u.blankFrom, u.openTest)

theorem State.blanking_modHead (s : State) (h k : Nat) {f : HeadUnit → HeadUnit} (hf : ∀ u, (f u).blanking = u.blanking) :
    ((s.modHead h f).head k).blanking = (s.head k).blanking := by
  by_cases hk : k = h
  · subst hk
    by_cases h8 : k < 8
    · rw [State.head_modHead_self _ _ _ h8, hf]
    · simp [State.head, tabGet, h8]
  · rw [State.head_modHead_other _ _ _ _ hk]

/-- What transactions may do: everything else is as it was, and so are every head's profile, capture and blanking. -/
structure TxnWork (s t : State) : Prop where
  frame : t = { s with
    regs := t.regs, freeCnt := t.freeCnt, inbox := t.inbox, heads := t.heads, shutters := t.shutters, cmdDone := t.cmdDone,
    churnRun := t.churnRun, churnQueue := t.churnQueue, mirCopies := t.mirCopies, csi := t.csi, alarms := t.alarms,
    txns := t.txns, txnQ := t.txnQ }
  blanking : ∀ h, (t.head h).blanking = (s.head h).blanking

namespace TxnWork

theorem refl (s : State) : TxnWork s s := ⟨Eq.refl s, fun _ => Eq.refl _⟩

theorem trans {s t u : State} (a : TxnWork s t) (b : TxnWork t u) : TxnWork s u where
  frame := Eq.trans b.frame (congrArg (fun x : State => { x with
    regs := u.regs, freeCnt := u.freeCnt, inbox := u.inbox, heads := u.heads, shutters := u.shutters, cmdDone := u.cmdDone,
    churnRun := u.churnRun, churnQueue := u.churnQueue, mirCopies := u.mirCopies, csi := u.csi, alarms := u.alarms,
    txns := u.txns, txnQ := u.txnQ }) a.frame)
  blanking h := (b.blanking h).trans (a.blanking h)

variable {a s : State}

/-! The state's own updates. -/

theorem setReg (w : TxnWork a s) (r : Nat) (v : Word) : TxnWork a (s.setReg r v) := w.trans ⟨rfl, fun _ => rfl⟩

theorem put (w : TxnWork a s) (f : Fld) (v : Nat) : TxnWork a (s.put f v) := w.setReg _ _

theorem raise (w : TxnWork a s) (src : Nat) (cls : FaultClass) (d : Nat) : TxnWork a (s.raise src cls d) :=
  w.trans ⟨rfl, fun _ => rfl⟩

theorem modHead (w : TxnWork a s) (h : Nat) {f : HeadUnit → HeadUnit}
    (hf : ∀ u, (f u).blanking = u.blanking := by exact fun _ => rfl) :
    TxnWork a (s.modHead h f) := w.trans ⟨rfl, fun k => State.blanking_modHead s h k hf⟩

theorem modShut (w : TxnWork a s) (h : Nat) (f : Shutter → Shutter) : TxnWork a (s.modShut h f) := w.trans ⟨rfl, fun _ => rfl⟩

theorem modAlarm (w : TxnWork a s) (h : Nat) (f : AlarmUnit → AlarmUnit) : TxnWork a (s.modAlarm h f) :=
  w.trans ⟨rfl, fun _ => rfl⟩

theorem modPort (w : TxnWork a s) (v : Nat) (f : CsiPort → CsiPort) : TxnWork a (s.modPort v f) := w.trans ⟨rfl, fun _ => rfl⟩

theorem modTxn (w : TxnWork a s) (n : Nat) (f : Txn → Txn) : TxnWork a (s.modTxn n f) := w.trans ⟨rfl, fun _ => rfl⟩

theorem modTxnHead (w : TxnWork a s) (n h : Nat) (f : TxnHead → TxnHead) : TxnWork a (s.modTxnHead n h f) := w.modTxn _ _

theorem finishCmd (w : TxnWork a s) (ring tag status result info : Nat) :
    TxnWork a (s.finishCmd ring tag status result info) := w.trans ⟨rfl, fun _ => rfl⟩

theorem freshUpTo (w : TxnWork a s) (b : Nat) : TxnWork a (s.freshUpTo b).2 := w.trans ⟨rfl, fun _ => rfl⟩

theorem unqueue (w : TxnWork a s) (l : List Nat) : TxnWork a { s with txnQ := l } := w.trans ⟨rfl, fun _ => rfl⟩

theorem mirCopies (w : TxnWork a s) (l : List (Nat × Nat)) : TxnWork a { s with mirCopies := l } := w.trans ⟨rfl, fun _ => rfl⟩

theorem churnDone (w : TxnWork a s) (act : Activity) (res : Nat) : TxnWork a (s.churnDone act res) :=
  ((w.trans (u := { s with
    churnRun := s.churnRun.filter fun j => !(j.act == act && j.res == res)
    churnQueue := s.churnQueue.filter fun j => !(j.act == act && j.res == res) }) ⟨rfl, fun _ => rfl⟩).put _ _).put _ _

theorem ite {s t : State} {c : Prop} [Decidable c] (hs : TxnWork a s) (ht : TxnWork a t) : TxnWork a (if c then s else t) := by
  split <;> assumption

theorem ite1 {α : Type} {p q : State × α} {c : Prop} [Decidable c] (hp : TxnWork a p.1) (hq : TxnWork a q.1) :
    TxnWork a (if c then p else q).1 := by
  split <;> assumption

theorem foldl {α : Type} {f : State → α → State} {l : List α} (w : TxnWork a s)
    (hf : ∀ x, TxnWork a x → ∀ i, TxnWork a (f x i)) : TxnWork a (l.foldl f s) := by
  induction l generalizing s with
  | nil => exact w
  | cons x l ih => exact ih (hf s w x)

/-! What a head's entries do. -/

theorem storeBias (w : TxnWork a s) (h b k : Nat) : TxnWork a (s.storeBias h b k) :=
  ite ((w.put _ _).put _ _) (((w.put _ _).put _ _).put _ _)

theorem syncGain (w : TxnWork a s) (h : Nat) : TxnWork a (s.syncGain h) := w.put _ _

theorem markInv (w : TxnWork a s) (h mask n t : Nat) : TxnWork a (s.markInv h mask n t) :=
  ite w (w.modHead _)

theorem settleMarks (w : TxnWork a s) (old : State) (h t : Nat) : TxnWork a (s.settleMarks old h t) :=
  ite (w.markInv _ _ _ _) ((w.markInv _ _ _ _).markInv _ _ _ _)

theorem hcpResult (w : TxnWork a s) (h code : Nat) : TxnWork a (s.hcpResult h code) :=
  ite (w.put _ _) (((w.put _ _).put _ _).raise _ _ _)

theorem hcpStart (w : TxnWork a s) (h : Nat) (o : Bool) : TxnWork a (s.hcpStart h o) :=
  ite ((w.put _ _).hcpResult _ _) <| ite ((w.put _ _).hcpResult _ _) <| ite ((w.put _ _).hcpResult _ _) <|
    (w.put _ _).modHead _

theorem headEntry (w : TxnWork a s) (h : Nat) (e : TxnEntry) : TxnWork a (s.headEntry h e) := by
  refine ite (w.storeBias _ _ _) <| ite (w.setReg _ _) <| ite (ite (w.hcpStart _ _) w) ?_
  split <;> exact w.setReg _ _

theorem saveFor (w : TxnWork a s) (n h r : Nat) (v : Word) : TxnWork a (s.saveFor n h r v) := by
  have hsaved : TxnWork a (if (s.txn n).gpWas.isSome then s
      else s.modTxn n fun t => { t with
        gpWas := some ((List.range 2).map fun i => (s.reg (R.GP_OUT i)).toNat)
        biasWas := (List.range 8).map fun g => (s.get (F.HP_BIAS_VBIAS g), s.get (F.HP_BIAS_VSKIM g)) }) := ite w (w.modTxn _ _)
  refine ite (hsaved.modTxnHead _ _ _) ?_
  split
  · exact hsaved.modTxnHead _ _ _
  · exact hsaved

theorem txnRun (w : TxnWork a s) (n h : Nat) (es : List TxnEntry) : TxnWork a (s.txnRun n h es).1 := by
  induction es generalizing s with
  | nil => exact w.modTxnHead _ _ _
  | cons e es ih =>
    have hrun : TxnWork a ((if s.txnState n = 5 then s else s.saveFor n h e.addr e.val).headEntry h e) :=
      (ite w (w.saveFor _ _ _ _)).headEntry _ _
    simp only [State.txnRun]
    generalize (if s.txnState n = 5 then s else s.saveFor n h e.addr e.val).headEntry h e = t at hrun ⊢
    exact ite1 (ite1 (hrun.modTxnHead _ _ _) (ite1 (ih hrun) (hrun.modTxnHead _ _ _))) (ih hrun)

/-! What the switch of a head does. -/

theorem fperNote (w : TxnWork a s) (h : Nat) : TxnWork a (s.fperNote h) := ite (w.put _ _) (ite (w.put _ _) w)

theorem setMirrors (w : TxnWork a s) (h v : Nat) : TxnWork a (s.setMirrors h v) :=
  w.foldl fun _ x _ => ite ((x.put _ _).put _ _) <| ite x <| ite ((x.put _ _).mirCopies _) (x.put _ _)

theorem setRcfg (w : TxnWork a s) (h v : Nat) : TxnWork a (s.setRcfg h v) :=
  ((w.put _ _).put _ _).foldl fun _ x _ => ite (x.mirCopies _) <| ite (ite (x.put _ _) (x.put _ _)) x

theorem takeForce (w : TxnWork a s) (h r : Nat) (v : Word) : TxnWork a (s.takeForce h r v) := by
  refine ite (w.setMirrors _ _) <| ite (w.setRcfg _ _) <| ite w <| ite (w.modShut _ _) <|
    ite ((w.setReg _ _).fperNote _) <| ite ((w.setReg _ _).syncGain _) ?_
  split
  · exact ite (w.setReg _ _) ((w.setReg _ _).modPort _ _)
  · exact w.setReg _ _

theorem swapNow (w : TxnWork a s) (h kind : Nat) : TxnWork a (s.swapNow h kind) := ite (w.put _ _) (w.put _ _)

theorem dropSwap (w : TxnWork a s) (h kind : Nat) : TxnWork a (s.dropSwap h kind) :=
  (((w.freshUpTo 15).put _ _).modHead _).churnDone _ _

theorem pgaRevert (w : TxnWork a s) (n h : Nat) : TxnWork a (s.pgaRevert n h) :=
  ite ((w.modHead _).settleMarks _ _ _) w

theorem txnRelease (w : TxnWork a s) (h : Nat) : TxnWork a (s.txnRelease h) := (w.modHead _).put _ _

theorem txnPost (w : TxnWork a s) (n code : Nat) : TxnWork a (s.txnPost n code) := by
  refine ite w ?_
  split
  · exact (w.modTxn _ _).finishCmd _ _ _ _ _
  · exact w.modTxn _ _

theorem txnEnd (w : TxnWork a s) (n code : Nat) : TxnWork a (s.txnEnd n code) := by
  refine ((((TxnWork.put (foldl w fun x hx i => ?_) _ _).txnPost _ _).unqueue _).modTxn _ _).put _ _
  have hgiven : TxnWork a (if i.switched then x
      else ((s.txn n).headSwaps i.head).foldl (fun x k => x.dropSwap i.head k) (x.pgaRevert n i.head)) :=
    ite hx ((hx.pgaRevert _ _).foldl fun _ y _ => y.dropSwap _ _)
  exact ite (hgiven.txnRelease _) hgiven

/-- An entry of the switch takes force; a changed alarm rule starts anew (R293). -/
theorem ruleForce (w : TxnWork a s) (h : Nat) (e : TxnEntry) (rule : Option Nat) :
    TxnWork a (match rule with
      | some r => (s.takeForce h e.addr e.val).modAlarm h fun u => { u with resets := u.resets ++ [r] }
      | none => s.takeForce h e.addr e.val) := by
  cases rule with
  | none => exact w.takeForce _ _ _
  | some r => exact (w.takeForce _ _ _).modAlarm _ _

theorem txnSwitch (w : TxnWork a s) (n h t : Nat) : TxnWork a (s.txnSwitch n h t) := by
  have hend : ∀ {x : State}, TxnWork a x → TxnWork a (if (x.txn n).heads.all fun y => y.switched then x.txnEnd n 1 else x) :=
    fun hx => ite (hx.txnEnd _ _) hx
  refine hend (((TxnWork.modHead (foldl ?_ fun x hx k => ?_) h).modTxnHead _ _ _).put _ _)
  · exact ite (TxnWork.modHead (foldl w fun x hx e => hx.ruleForce h e _) h)
      ((foldl w fun x hx e => hx.ruleForce h e _).settleMarks _ _ _)
  · exact (((ite (hx.put _ _) (hx.swapNow _ _)).put _ _).modHead h).churnDone _ _

theorem txnWritesDone (w : TxnWork a s) (n : Nat) : TxnWork a (s.txnWritesDone n) :=
  ite (ite (((w.put _ _).put _ _).txnPost _ _) (w.put _ _)) w

theorem restoreFor (w : TxnWork a s) (n : Nat) (x : TxnHead) : TxnWork a (s.restoreFor n x) :=
  (ite (w.storeBias _ _ _) w).foldl fun _ y _ => ite y (y.setReg _ _)

theorem txnIdle (w : TxnWork a s) (t : Nat) : TxnWork a (s.txnIdle t) :=
  w.foldl fun _ x _ => ite x (x.foldl fun _ y _ => ite y (y.txnSwitch _ _ _))

/-! What the end of a sequence does, and who takes the port then. -/

theorem txnSeqEnd (w : TxnWork a s) (n h : Nat) : TxnWork a (s.txnSeqEnd n h) := by
  unfold State.txnSeqEnd
  split
  · exact w
  · exact ite (((w.txnRelease _).restoreFor _ _).modTxnHead _ _ _)
      ((((w.txnRelease _).modTxnHead _ _ _).txnWritesDone _).txnIdle _)

/-- A sequence that has run to its end gives the port on; one that waits for a transfer does not. -/
theorem runThen (w : TxnWork a s) (n h : Nat) (es : List TxnEntry) {f : State → State}
    (hf : ∀ {x : State}, TxnWork a x → TxnWork a (f x)) :
    TxnWork a (match s.txnRun n h es with | (x, true) => f x | (x, false) => x) := by
  have hrun := w.txnRun n h es
  split
  · next x hx => rw [hx] at hrun; exact hf hrun
  · next x hx => rw [hx] at hrun; exact hrun

theorem txnPump (w : TxnWork a s) (h k : Nat) : TxnWork a (s.txnPump h k) := by
  induction k generalizing s with
  | zero => exact w
  | succ k ih =>
    unfold State.txnPump
    refine ite w ?_
    split
    · exact w
    · exact ite (((w.modHead h).put _ _).modTxnHead _ _ _)
        ((((w.modHead h).put _ _).modTxnHead _ _ _).runThen _ _ _ fun hx => ih (hx.txnSeqEnd _ _))

theorem txnSettle (w : TxnWork a s) (h k : Nat) : TxnWork a (s.txnSettle h k) := by
  induction k generalizing s with
  | zero => exact w
  | succ k ih =>
    have hpump : TxnWork a (s.txnPump h 32) := w.txnPump _ _
    unfold State.txnSettle
    dsimp only
    split
    · exact hpump
    · split
      · exact ite (ih ((hpump.txnRelease _).modTxnHead _ _ _)) hpump
      · exact hpump

/-! How a transaction ends before its switch. -/

theorem txnUndo (w : TxnWork a s) (n code : Nat) : TxnWork a (s.txnUndo n code) := by
  refine foldl (TxnWork.put (TxnWork.modTxn (foldl w fun x hx i => ite hx (hx.pgaRevert _ _)) _ _) _ _) fun x hx i => ite ?_ ?_
  · exact TxnWork.modTxnHead (ite (hx.txnRelease _) hx) _ _ _
  · exact ite ((hx.modTxnHead _ _ _).runThen _ _ _ fun hy => hy.txnSeqEnd _ _) (hx.modTxnHead _ _ _)

theorem txnStopOne (w : TxnWork a s) (n code : Nat) : TxnWork a (s.txnStopOne n code) :=
  ite w (ite (w.txnUndo _ _) (w.txnEnd _ _))

theorem txnDependents (w : TxnWork a s) (n : Nat) : TxnWork a (s.txnDependents n) := w.foldl fun _ x _ => x.txnStopOne _ _

theorem txnGoOn (w : TxnWork a s) : TxnWork a s.txnGoOn :=
  TxnWork.txnIdle (foldl w fun _ x _ => ite (x.txnSettle _ _) x) _

theorem txnStop (w : TxnWork a s) (n code : Nat) : TxnWork a (s.txnStop n code) :=
  ite w ((w.txnDependents _).txnStopOne _ _).txnGoOn

theorem txnClaim (w : TxnWork a s) (n h k : Nat) : TxnWork a (s.txnClaim n h k) := (w.modTxnHead _ _ _).txnWritesDone _

/-- A head's blanking gives a transaction its frame k, or ends it (R304, R307). -/
theorem txnAssign (w : TxnWork a s) (h now : Nat) : TxnWork a (s.txnAssign h now) := by
  unfold State.txnAssign
  split
  · exact w
  · dsimp only
    split
    · exact w
    · exact ite w <| ite (ite (w.txnClaim _ _ _) w) <| ite w <| ite (w.txnStop _ _) (w.txnClaim _ _ _)

end TxnWork

end Sys2Proof.Machine
end

section
/-! PROOFS. The start of a head's vertical blanking: the capture closes, the taps are tested, the open-tap test is asked for (R71, R72,
R108). -/

namespace Sys2Proof.Machine

/-! ### Rules of PortWork -/

namespace PortWork

variable {s t : State}

theorem put (h : PortWork s t) (f : Fld) (v : Nat) : PortWork s (t.put f v) := h.trans (Eq.refl (t.put f v))

theorem modHead (h : PortWork s t) (k : Nat) (f : HeadUnit → HeadUnit) : PortWork s (t.modHead k f) :=
  h.trans (Eq.refl (t.modHead k f))

theorem raise (h : PortWork s t) (src : Nat) (cls : FaultClass) (d : Nat) : PortWork s (t.raise src cls d) :=
  h.trans (Eq.refl (t.raise src cls d))

end PortWork

/-! ### The tests of taps at the start of blanking (R72, R141) -/

/-- The registers that the short test and the polarity check of a head write. -/
abbrev tapRegs (h : Nat) : List Nat := [R.HP_TAPFLT h, R.HP_FLT h, R.CL_HCNT h]

/-- What tests of the taps of head `h` may do: every head's profile, capture and blanking stay. -/
structure TapWork (h : Nat) (s t : State) : Prop where
  port : PortWork s t
  blanking : ∀ k, (t.head k).blanking = (s.head k).blanking
  regs : SameRegs (tapRegs h) s t

namespace TapWork

variable {h : Nat} {a s : State}

theorem refl (h : Nat) (s : State) : TapWork h s s := ⟨PortWork.refl s, fun _ => Eq.refl _, SameRegs.refl _ s⟩

theorem put (w : TapWork h a s) (f : Fld) (v : Nat) (hf : f.addr ∈ tapRegs h) : TapWork h a (s.put f v) :=
  ⟨w.port.put f v, w.blanking, w.regs.put f v hf⟩

theorem modHead (w : TapWork h a s) (k : Nat) {f : HeadUnit → HeadUnit}
    (hf : ∀ u, (f u).blanking = u.blanking := by exact fun _ => rfl) : TapWork h a (s.modHead k f) :=
  ⟨w.port.modHead k f, fun j => (State.blanking_modHead s k j hf).trans (w.blanking j), w.regs⟩

theorem raise (w : TapWork h a s) (src : Nat) (cls : FaultClass) (d : Nat) : TapWork h a (s.raise src cls d) :=
  ⟨w.port.raise src cls d, w.blanking, w.regs⟩

theorem ite {s t : State} {c : Prop} [Decidable c] (hs : TapWork h a s) (ht : TapWork h a t) :
    TapWork h a (if c then s else t) := by
  split <;> assumption

theorem foldl {α : Type} {f : State → α → State} {l : List α} (w : TapWork h a s)
    (hf : ∀ x, TapWork h a x → ∀ i, TapWork h a (f x i)) : TapWork h a (l.foldl f s) := by
  induction l generalizing s with
  | nil => exact w
  | cons x l ih => exact ih (hf s w x)

theorem tapFault (w : TapWork h a s) (n : Nat) (f : Fld) (hf : f.addr = R.HP_TAPFLT h) : TapWork h a (s.tapFault h n f) :=
  ((w.put f _ (by simp [hf])).put _ _ (by simp)).raise _ _ _

theorem shortTest (w : TapWork h a s) (c : Cap) (n : Nat) : TapWork h a (s.shortTest h c n) :=
  ite w <| ite ((w.modHead h).tapFault _ _ rfl) <| ite ((w.modHead h).put _ _ (by simp)) (w.modHead h)

theorem polarityTest (w : TapWork h a s) (c : Cap) (n : Nat) : TapWork h a (s.polarityTest h c n) :=
  ite w <| ite (((((w.modHead h).modHead h).put _ _ (by simp))).raise _ _ _) <| ite ((w.modHead h).modHead h) (w.modHead h)

end TapWork

/-! ### The start of vertical blanking (R108) -/

/-- The capture in progress closes, and blanking begins at `t`. -/
def State.blankBegun (s : State) (h t : Nat) : State :=
  ((s.at t).closeCap h false).modHead h fun u => { u with blankFrom := some t }

/-- The tests of the taps that are switched on. -/
def State.blankTests (s : State) (h : Nat) (c : Cap) : State :=
  let taps := List.range (s.prof h).taps
  let refs := (s.prof h).reftop + (s.prof h).refbot
  let u := if s.flag (F.HP_CTRL_SHORTTEST_EN h) then taps.foldl (fun s n => s.shortTest h c n) s else s
  if u.flag (F.CL_HCFG_POLDET_EN h) && refs != 0 then taps.foldl (fun s n => s.polarityTest h c n) u else u

/-- The open-tap test is on for an enabled port in RUN (R71). -/
def State.openTestOn (s : State) (h : Nat) : Bool :=
  s.flag (F.HP_CTRL_OPENTEST_EN h) && s.flag (F.HP_CTRL_PORT_EN h) && s.inRun

/-- The open-tap test is made, or its skip is counted. -/
def State.openTestAsk (s : State) (h : Nat) : State :=
  if s.openTestOn h then
    if s.blankNs h < 40000 then s.bump (F.HP_STAT_OTSKIP h) else s.modHead h fun u => { u with openTest := true }
  else s

/-- A capture whose lines are all in and placed, in a head that is not blanking yet. -/
structure CapDone (h : Nat) (c : Cap) (s : State) : Prop where
  cap : (s.head h).cap = some c
  placed : c.lines ≤ c.placed
  lines : (if (s.prof h).headTimed = true then c.closed else decide ((s.prof h).l ≤ c.lines)) = true
  notBlank : (s.head h).blankFrom = none

/-- What the start of blanking leaves. -/
structure BlankBegun (h t : Nat) (s u : State) : Prop where
  head : ∃ c, c.closed = true ∧ u.head h = { s.head h with cap := some c, blankFrom := some t }
  regs : SameRegs [R.HP_TCNT0 h] s u
  frame : u = { s with dt := max s.dt t, regs := u.regs, heads := u.heads, frames := u.frames }

/-- The capture of head `h` is closed; registers, heads and frames are all that differs. -/
structure CapClosed (h : Nat) (s u : State) : Prop where
  head : ∃ c, c.closed = true ∧ u.head h = { s.head h with cap := some c }
  regs : SameRegs [R.HP_TCNT0 h] s u
  frame : ∃ r v f, u = { s with regs := r, heads := v, frames := f }

/-- A count that is taken or not changes nothing but its register. -/
theorem CapClosed.bump_ite {h : Nat} {s u : State} (w : CapClosed h s u) (f : Fld) (hf : f.addr = R.HP_TCNT0 h) {p : Prop}
    {_ : Decidable p} : CapClosed h s (if p then u.bump f else u) := by
  obtain ⟨hhead, hregs, r, v, fr, hframe⟩ := w
  split
  · exact ⟨hhead, hregs.put _ _ (by simp [hf]), (u.bump f).regs, v, fr, by rw [hframe]; rfl⟩
  · exact ⟨hhead, hregs, r, v, fr, hframe⟩

theorem State.head_modCap {s : State} {h : Nat} {c : Cap} (hc : (s.head h).cap = some c) (hh : h < 8) (f : Cap → Cap) :
    (s.modCap h f).head h = { s.head h with cap := some (f c) } := by
  rw [State.modCap, State.head_modHead_self _ _ _ hh, hc]
  rfl

/-- Closing a capture marks it closed and counts what its frame lacks. -/
theorem State.closeCap_closed {s : State} {h : Nat} {c : Cap} (hc : (s.head h).cap = some c) (hh : h < 8) :
    CapClosed h s (s.closeCap h false) := by
  by_cases hcl : c.closed = true
  · have hs : s.closeCap h false = s := by simp [State.closeCap, hc, hcl]
    rw [hs]
    exact ⟨⟨c, hcl, by rw [← hc]⟩, SameRegs.refl _ s, s.regs, s.heads, s.frames, rfl⟩
  · have hshut : ∀ g : Frame → Frame, CapClosed h s
        ((s.modCap h fun c => { c with closed := true, hfv := false }).modFrame h c.seq g) := fun g =>
      ⟨⟨{ c with closed := true, hfv := false }, rfl,
          State.head_modCap hc hh fun c => { c with closed := true, hfv := false }⟩,
        SameRegs.refl _ s, _, _, _, rfl⟩
    simp only [State.closeCap, hc, hcl, Bool.false_eq_true, if_false]
    exact ((hshut _).bump_ite _ rfl).bump_ite _ rfl

theorem State.blankBegun_begun {s : State} {h : Nat} {c : Cap} (hc : (s.head h).cap = some c) (hh : h < 8) (t : Nat) :
    BlankBegun h t s (s.blankBegun h t) := by
  obtain ⟨⟨c', hcl, hhead⟩, hregs, r, u, f, hframe⟩ := State.closeCap_closed (s := s.at t) hc hh
  refine ⟨⟨c', hcl, ?_⟩, hregs, ?_⟩
  · rw [State.blankBegun, State.head_modHead_self _ _ _ hh, hhead]
    rfl
  · rw [State.blankBegun, hframe]
    rfl

theorem vblankStart_of_done {s : State} {h : Nat} {c : Cap} (hh : h < 8) (d : CapDone h c s) (t : Nat) :
    vblankStart h t s = ((s.blankBegun h t).blankTests h c).openTestAsk h := by
  obtain ⟨c', -, hhead⟩ := (State.blankBegun_begun d.cap hh t).head
  have hprof : (s.blankBegun h t).prof h = s.prof h := by rw [State.prof, hhead, State.prof]
  have hdone : ((if (s.prof h).headTimed = true then c.closed else decide ((s.prof h).l ≤ c.lines)) &&
      decide (c.lines ≤ c.placed) && (s.head h).blankFrom.isNone) = true := by simp only [d.lines, d.placed, d.notBlank]; rfl
  simp only [vblankStart, d.cap]
  rw [State.whenever_pos _ _ _ hdone]
  simp only [State.blankTests, hprof]
  rfl

/-- With both tests of taps off nothing is tested. -/
theorem State.blankTests_of_off {s : State} {h : Nat} (c : Cap) (hs : s.flag (F.HP_CTRL_SHORTTEST_EN h) = false)
    (hp : s.flag (F.CL_HCFG_POLDET_EN h) = false) : s.blankTests h c = s := by
  simp [State.blankTests, hs, hp]

theorem State.blankTests_work (s : State) (h : Nat) (c : Cap) : TapWork h s (s.blankTests h c) :=
  have hshort : TapWork h s (if s.flag (F.HP_CTRL_SHORTTEST_EN h) then
      (List.range (s.prof h).taps).foldl (fun s n => s.shortTest h c n) s else s) :=
    .ite (TapWork.foldl (.refl h s) fun _ x _ => x.shortTest c _) (.refl h s)
  .ite (hshort.foldl fun _ x _ => x.polarityTest c _) hshort

/-! ### The open-tap test is asked for (R71) -/

theorem State.openTestAsk_of_skip {s : State} {h : Nat} (hon : s.openTestOn h = true) (hb : s.blankNs h < 40000) :
    s.openTestAsk h = s.bump (F.HP_STAT_OTSKIP h) := by
  rw [State.openTestAsk, if_pos hon, if_pos hb]

theorem State.openTestAsk_of_room {s : State} {h : Nat} (hon : s.openTestOn h = true) (hb : 40000 ≤ s.blankNs h) :
    s.openTestAsk h = s.modHead h fun u => { u with openTest := true } := by
  rw [State.openTestAsk, if_pos hon, if_neg (Nat.not_lt.2 hb)]

theorem State.openTestAsk_of_off {s : State} {h : Nat} (hon : s.openTestOn h = false) : s.openTestAsk h = s := by
  rw [State.openTestAsk, hon]
  rfl

theorem State.openTestAsk_head (s : State) {h : Nat} (hh : h < 8) : (s.openTestAsk h).head h =
    { s.head h with openTest := (s.openTestOn h && decide (40000 ≤ s.blankNs h)) || (s.head h).openTest } := by
  cases hon : s.openTestOn h with
  | false => rw [State.openTestAsk_of_off hon]; rfl
  | true =>
    by_cases hb : 40000 ≤ s.blankNs h
    · rw [State.openTestAsk_of_room hon hb, State.head_modHead_self _ _ _ hh, decide_eq_true hb]
      rfl
    · rw [State.openTestAsk_of_skip hon (Nat.not_le.1 hb), State.bump_head, decide_eq_false hb]
      rfl

theorem State.openTestAsk_work (s : State) (h : Nat) : PortWork s (s.openTestAsk h) := by
  cases hon : s.openTestOn h with
  | false => rw [State.openTestAsk_of_off hon]; exact PortWork.refl s
  | true =>
    by_cases hb : 40000 ≤ s.blankNs h
    · rw [State.openTestAsk_of_room hon hb]; exact (PortWork.refl s).modHead _ _
    · rw [State.openTestAsk_of_skip hon (Nat.not_le.1 hb)]; exact (PortWork.refl s).put _ _

theorem State.hcyc_of_same {s u : State} {h : Nat}
    (hc : u.get (F.TC_SCLK_FREQ (regionOf h)) = s.get (F.TC_SCLK_FREQ (regionOf h))) (n : Nat) : u.hcyc h n = s.hcyc h n := by
  rw [State.hcyc, State.hcyc, State.cyc, State.cyc, State.fHz, State.fHz, hc]

/-- The blanking's length is declared by the profile, the frame period and the sample clock. -/
theorem State.blankNs_of_same {s u : State} {h : Nat} (hp : u.prof h = s.prof h)
    (hf : u.get (F.HP_FPER_FPER h) = s.get (F.HP_FPER_FPER h))
    (hc : u.get (F.TC_SCLK_FREQ (regionOf h)) = s.get (F.TC_SCLK_FREQ (regionOf h))) : u.blankNs h = s.blankNs h := by
  simp only [State.blankNs, State.fperNs, hp, hf, State.hcyc_of_same hc]

theorem not_mem_blankRegs {h a : Nat}
    (ha : a = R.HP_CTRL h ∨ a = R.HP_FPER h ∨ a = R.TC_SCLK (regionOf h)) : a ∉ R.HP_TCNT0 h :: tapRegs h := by
  simp only [List.mem_cons, List.not_mem_nil, or_false, not_or, R.HP_CTRL, R.HP_FPER, R.TC_SCLK, R.HP_TCNT0, R.HP_TAPFLT,
    R.HP_FLT, R.CL_HCNT, regionOf] at ha ⊢
  omega

/-! ### What the start of blanking does as a whole -/

/-- All that may differ after the start of blanking. -/
def BlankWork (s u : State) : Prop :=
  u = { s with
    regs := u.regs, dt := u.dt, freeCnt := u.freeCnt, inbox := u.inbox, heads := u.heads, shutters := u.shutters, ring := u.ring,
    cmdDone := u.cmdDone, churnRun := u.churnRun, churnQueue := u.churnQueue, mirCopies := u.mirCopies, csi := u.csi,
    alarms := u.alarms, txns := u.txns, txnQ := u.txnQ, frames := u.frames }

namespace BlankWork

variable {s t u : State}

theorem trans (h : BlankWork s t) (g : BlankWork t u) : BlankWork s u :=
  Eq.trans g (congrArg (fun x : State => { x with
    regs := u.regs, dt := u.dt, freeCnt := u.freeCnt, inbox := u.inbox, heads := u.heads, shutters := u.shutters, ring := u.ring,
    cmdDone := u.cmdDone, churnRun := u.churnRun, churnQueue := u.churnQueue, mirCopies := u.mirCopies, csi := u.csi,
    alarms := u.alarms, txns := u.txns, txnQ := u.txnQ, frames := u.frames }) h)

theorem of_begun {h n : Nat} (w : BlankBegun h n s t) : BlankWork s t := by rw [BlankWork, w.frame]

theorem of_port (w : PortWork s t) : BlankWork s t := by rw [PortWork] at w; rw [BlankWork, w]

theorem of_txn (w : TxnWork s t) : BlankWork s t := by rw [BlankWork, w.frame]

theorem mode (h : BlankWork s t) : t.mode = s.mode := by rw [BlankWork] at h; rw [h]

theorem sameMem (h : BlankWork s t) : SameMem s t := by
  rw [BlankWork] at h
  rw [h]
  exact SameMem.of_eq rfl rfl rfl rfl

end BlankWork

theorem TxnWork.dt {s t : State} (w : TxnWork s t) : t.dt = s.dt := by rw [w.frame]

theorem PortWork.txnQ {s t : State} (w : PortWork s t) : t.txnQ = s.txnQ := by rw [PortWork] at w; rw [w]

theorem PortWork.txns {s t : State} (w : PortWork s t) : t.txns = s.txns := by rw [PortWork] at w; rw [w]

theorem State.txnsOn_of_same {s u : State} {h : Nat} (hq : u.txnQ = s.txnQ) (ht : u.txns = s.txns) : u.txnsOn h = s.txnsOn h := by
  simp only [State.txnsOn, State.txnHead, State.txn, hq, ht]

theorem PortWork.dt {s t : State} (w : PortWork s t) : t.dt = s.dt := by rw [PortWork] at w; rw [w]

/-- A head that no accepted transaction lists gives none its frame k. -/
theorem State.txnAssign_of_none {s : State} {h now : Nat} (hn : s.txnsOn h = []) : s.txnAssign h now = s := by
  unfold State.txnAssign
  split
  · rfl
  · simp [hn]

/-- The state in which the taps of a head whose blanking begins have been tested. -/
def State.blankTested (s : State) (h t : Nat) (c : Cap) : State := (s.blankBegun h t).blankTests h c

/-- What is known of that state: the head's units, the registers that count for the open-tap test, and the frame. -/
structure BlankTested (h t : Nat) (s u : State) : Prop where
  profile : u.prof h = s.prof h
  blank : (u.head h).blankFrom = some t
  closed : ((u.head h).cap.map fun x => x.closed) = some true
  openTest : (u.head h).openTest = (s.head h).openTest
  regs : SameRegs (R.HP_TCNT0 h :: tapRegs h) s u
  mode : u.mode = s.mode
  dt : u.dt = max s.dt t
  work : BlankWork s u

theorem State.blankTested_tested {s : State} {h : Nat} {c : Cap} (hh : h < 8) (hc : (s.head h).cap = some c) (t : Nat) :
    BlankTested h t s (s.blankTested h t c) := by
  have hbegun := State.blankBegun_begun hc hh t
  have htests := (s.blankBegun h t).blankTests_work h c
  obtain ⟨c', hcl, hhead⟩ := hbegun.head
  have hblank := htests.blanking h
  rw [hhead] at hblank
  simp only [HeadUnit.blanking, Prod.mk.injEq] at hblank
  obtain ⟨hprof, hcap, hfrom, hopen⟩ := hblank
  have hwork : BlankWork s (s.blankTested h t c) := (BlankWork.of_begun hbegun).trans (BlankWork.of_port htests.port)
  exact
    { profile := by rw [State.prof, State.blankTested, hprof, State.prof]
      blank := hfrom
      closed := by rw [State.blankTested, hcap, Option.map_some, hcl]
      openTest := hopen
      regs := (SameRegs.mono hbegun.regs (by simp)).trans (SameRegs.mono htests.regs fun _ => List.mem_cons_of_mem _)
      mode := hwork.mode
      dt := htests.port.dt.trans (by rw [hbegun.frame])
      work := hwork }

namespace BlankTested

variable {h t : Nat} {s u : State}

theorem openTestOn (w : BlankTested h t s u) : u.openTestOn h = s.openTestOn h := by
  have hctrl : ∀ f : Fld, f.addr = R.HP_CTRL h → u.flag f = s.flag f := fun f hf => by
    rw [State.flag, w.regs.get f (hf ▸ not_mem_blankRegs (.inl rfl)), State.flag]
  rw [State.openTestOn, hctrl _ rfl, hctrl _ rfl, State.inRun, w.mode]
  rfl

theorem blankNs (w : BlankTested h t s u) : u.blankNs h = s.blankNs h :=
  State.blankNs_of_same w.profile (w.regs.get _ (not_mem_blankRegs (.inr (.inl rfl))))
    (w.regs.get _ (not_mem_blankRegs (.inr (.inr rfl))))

end BlankTested

/-- A head's blanking begins with the tests of its taps, and transactions then find their frame k (R304). -/
theorem exec_vblankStart_of_done {h : Head} {c : Cap} {s : State} (d : CapDone h c s) (t : Nat) :
    exec (.vblankStart h t) s = .next (((s.blankTested h t c).openTestAsk h).txnAssign h t) := by
  show Host.Outcome.next (vblankTxn h t s) = _
  have hblank : (((s.blankTested h t c).openTestAsk h).head h).blankFrom = some t := by
    rw [State.openTestAsk_head _ h.isLt]
    exact (State.blankTested_tested h.isLt d.cap t).blank
  have hstart : vblankStart h t s = (s.blankTested h t c).openTestAsk h := vblankStart_of_done h.isLt d t
  simp [vblankTxn, hstart, hblank, d.notBlank]

/-- With both tests of taps off nothing is tested. -/
theorem State.blankTested_of_off {s : State} {h : Nat} {c : Cap} (hh : h < 8) (hc : (s.head h).cap = some c) (t : Nat)
    (hs : s.flag (F.HP_CTRL_SHORTTEST_EN h) = false) (hp : s.flag (F.CL_HCFG_POLDET_EN h) = false) :
    s.blankTested h t c = s.blankBegun h t := by
  have hregs := (State.blankBegun_begun hc hh t).regs
  refine State.blankTests_of_off c ?_ ?_
  · rw [State.flag, hregs.get _ (by simp), ← State.flag, hs]
  · rw [State.flag, hregs.get _ (by simp only [List.mem_singleton, R.CL_HCFG, R.HP_TCNT0]; omega), ← State.flag, hp]

/-- Without a transaction on the head, and with both tests of its taps off, blanking and the open-tap test are all. -/
theorem exec_vblankStart_of_quiet {h : Head} {c : Cap} {s : State} (d : CapDone h c s) (t : Nat)
    (hs : s.flag (F.HP_CTRL_SHORTTEST_EN h) = false) (hp : s.flag (F.CL_HCFG_POLDET_EN h) = false) (hn : s.txnsOn h = []) :
    exec (.vblankStart h t) s = .next ((s.blankBegun h t).openTestAsk h) := by
  rw [exec_vblankStart_of_done d, State.blankTested_of_off h.isLt d.cap t hs hp, State.txnAssign_of_none]
  have hask := (s.blankBegun h t).openTestAsk_work h
  have hbegun := (State.blankBegun_begun d.cap h.isLt t).frame
  rw [State.txnsOn_of_same (s := s) (hask.txnQ.trans (by rw [hbegun])) (hask.txns.trans (by rw [hbegun])), hn]

/-- Whatever else is on: blanking begins, the open-tap test is made when it is on and there is room, and the rest is as it was. -/
theorem exec_vblankStart_asked {h : Head} {c : Cap} {s : State} (d : CapDone h c s) (t : Nat) :
    ∃ u, exec (.vblankStart h t) s = .next u ∧ (u.head h).blankFrom = some t ∧
      ((u.head h).cap.map fun x => x.closed) = some true ∧
      (u.head h).openTest = ((s.openTestOn h && decide (40000 ≤ s.blankNs h)) || (s.head h).openTest) ∧
      u.dt = max s.dt t ∧ BlankWork s u := by
  have htested := State.blankTested_tested h.isLt d.cap t
  have hhead := (s.blankTested h t c).openTestAsk_head h.isLt
  have hask := (s.blankTested h t c).openTestAsk_work h
  have htxn := (TxnWork.refl ((s.blankTested h t c).openTestAsk h)).txnAssign h t
  have hblank := htxn.blanking h
  rw [hhead] at hblank
  simp only [HeadUnit.blanking, Prod.mk.injEq] at hblank
  obtain ⟨-, hcap, hfrom, hopen⟩ := hblank
  refine ⟨_, exec_vblankStart_of_done d t, hfrom.trans htested.blank, ?_, ?_, ?_, ?_⟩
  · rw [hcap, htested.closed]
  · rw [hopen, htested.openTestOn, htested.blankNs, htested.openTest]
  · rw [htxn.dt, hask.dt, htested.dt]
  · exact (htested.work.trans (.of_port hask)).trans (.of_txn htxn)

theorem exec_vblankStart_skips {h : Head} {c : Cap} {s : State} (d : CapDone h c s) (t : Nat)
    (hs : s.flag (F.HP_CTRL_SHORTTEST_EN h) = false) (hp : s.flag (F.CL_HCFG_POLDET_EN h) = false) (hn : s.txnsOn h = [])
    (hon : s.openTestOn h = true) (hb : s.blankNs h < 40000) :
    exec (.vblankStart h t) s = .next ((s.blankBegun h t).bump (F.HP_STAT_OTSKIP h)) := by
  have hoff := State.blankTested_of_off h.isLt d.cap t hs hp
  have htested := State.blankTested_tested h.isLt d.cap t
  rw [hoff] at htested
  rw [exec_vblankStart_of_quiet d t hs hp hn,
    State.openTestAsk_of_skip (htested.openTestOn.trans hon) (htested.blankNs.symm ▸ hb)]

theorem exec_vblankStart_tests {h : Head} {c : Cap} {s : State} (d : CapDone h c s) (t : Nat)
    (hs : s.flag (F.HP_CTRL_SHORTTEST_EN h) = false) (hp : s.flag (F.CL_HCFG_POLDET_EN h) = false) (hn : s.txnsOn h = [])
    (hon : s.openTestOn h = true) (hb : 40000 ≤ s.blankNs h) :
    exec (.vblankStart h t) s = .next ((s.blankBegun h t).modHead h fun u => { u with openTest := true }) := by
  have hoff := State.blankTested_of_off h.isLt d.cap t hs hp
  have htested := State.blankTested_tested h.isLt d.cap t
  rw [hoff] at htested
  rw [exec_vblankStart_of_quiet d t hs hp hn,
    State.openTestAsk_of_room (htested.openTestOn.trans hon) (htested.blankNs.symm ▸ hb)]

theorem State.openTestOn_of_enabled {s : State} {h : Nat} (ht : s.flag (F.HP_CTRL_OPENTEST_EN h) = true)
    (he : s.flag (F.HP_CTRL_PORT_EN h) = true) (hr : s.inRun = true) : s.openTestOn h = true := by
  simp [State.openTestOn, ht, he, hr]

end Sys2Proof.Machine
end

section
/-! PROOFS. The open-tap test of a head's taps (R71, R73), and the statement on blanking and its tests. -/

namespace Sys2Proof.Machine

/-! ### One bit of a field -/

/-- Adding 2^i where bit i is clear sets that bit and no other. -/
theorem testBit_add_two_pow {v i : Nat} (hv : v.testBit i = false) (m : Nat) :
    (v + 2 ^ i).testBit m = (decide (m = i) || v.testBit m) := by
  induction i generalizing v m with
  | zero =>
    rw [Nat.testBit_zero, decide_eq_false_iff_not] at hv
    cases m with
    | zero => simp only [Nat.testBit_zero, decide_true, Bool.true_or, decide_eq_true_eq]; omega
    | succ m =>
      have hhalf : (v + 1) / 2 = v / 2 := by omega
      simp [Nat.testBit_succ, hhalf]
  | succ i ih =>
    rw [Nat.testBit_succ] at hv
    have hhalf : (v + 2 ^ (i + 1)) / 2 = v / 2 + 2 ^ i := by omega
    cases m with
    | zero =>
      have hpar : (v + 2 ^ (i + 1)) % 2 = v % 2 := by omega
      simp [Nat.testBit_zero, hpar]
    | succ m => simp [Nat.testBit_succ, hhalf, ih hv]

theorem testBit_sub_two_pow {v i : Nat} (hv : v.testBit i = true) (m : Nat) :
    (v - 2 ^ i).testBit m = (decide (m ≠ i) && v.testBit m) := by
  have hle : 2 ^ i ≤ v := Nat.ge_two_pow_of_testBit hv
  obtain ⟨w, rfl⟩ := Nat.exists_eq_add_of_le' hle
  have hw : w.testBit i = false := by
    rw [Nat.add_comm, Nat.testBit_two_pow_add_eq] at hv
    simpa using hv
  rw [Nat.add_sub_cancel, testBit_add_two_pow hw]
  by_cases hm : m = i <;> simp [hm, hw]

theorem testBit_setBit (v i m : Nat) (b : Bool) : (setBit v i b).testBit m = if m = i then b else v.testBit m := by
  by_cases hb : v.testBit i = b
  · rw [setBit, if_pos hb]
    split
    · next hm => rw [hm, hb]
    · rfl
  · cases b with
    | true =>
      rw [setBit, if_neg hb, if_pos rfl, testBit_add_two_pow (Bool.not_eq_true _ ▸ hb)]
      by_cases hm : m = i <;> simp [hm]
    | false =>
      rw [setBit, if_neg hb, if_neg Bool.false_ne_true, testBit_sub_two_pow (Bool.not_eq_false _ ▸ hb)]
      by_cases hm : m = i <;> simp [hm]

/-- A bit of a field after one of its bits is set or cleared. -/
theorem State.bit_putBit (s : State) (f : Fld) (hf : f.lo + f.w ≤ 32) (i : Nat) (b : Bool) {m : Nat} (hm : m < f.w) :
    bit ((s.putBit f i b).get f) m = if m = i then b else bit (s.get f) m := by
  rw [State.putBit, State.get_put_self _ _ _ hf, bit, Nat.testBit_mod_two_pow, decide_eq_true hm, Bool.true_and, testBit_setBit]
  rfl


/-! ### The judgement of one tap (R71, R73) -/

/-- The passes of tap `n` in succession, by how far its code moved. -/
def State.openPasses (s : State) (h : Nat) (moves : List Nat) (n : Nat) : Nat :=
  if 160 < moves.getD n 0 then 0 else tapAt (s.head h).openPass n + 1

/-- The passes are counted. -/
def State.openCount (s : State) (h : Nat) (moves : List Nat) (n : Nat) : State :=
  s.modHead h fun u => { u with openPass := u.openPass.set n (s.openPasses h moves n) }

/-- The judgement of tap `n`: it is flagged open, its flag ends, or neither. -/
def State.openJudge (s : State) (h : Nat) (moves : List Nat) (n : Nat) : State :=
  if !bit (s.get (F.HP_TAPFLT_OPEN h)) n && 160 < moves.getD n 0 then (s.openCount h moves n).tapFault h n (F.HP_TAPFLT_OPEN h)
  else if bit (s.get (F.HP_TAPFLT_OPEN h)) n && 2 ≤ s.openPasses h moves n then
    (s.openCount h moves n).putBit (F.HP_TAPFLT_OPEN h) n false
  else s.openCount h moves n

/-- The test is over. -/
def State.openTestOff (s : State) (h : Nat) : State := s.modHead h fun u => { u with openTest := false }

theorem State.openTestOff_test (s : State) {h : Nat} (hh : h < 8) : ((s.openTestOff h).head h).openTest = false := by
  rw [State.openTestOff, State.head_modHead_self _ _ _ hh]

theorem State.openTestOff_passes (s : State) {h : Nat} (hh : h < 8) :
    ((s.openTestOff h).head h).openPass = (s.head h).openPass := by
  rw [State.openTestOff, State.head_modHead_self _ _ _ hh]

theorem State.openTestOff_work (s : State) (h : Nat) : PortWork s (s.openTestOff h) := (PortWork.refl s).modHead _ _

theorem State.openTestOff_get (s : State) (h : Nat) (f : Fld) : (s.openTestOff h).get f = s.get f := rfl

theorem exec_tapOpenTestDone {h : Head} {l : List Nat} {s : State} (ho : (s.head h).openTest = true) :
    exec (.tapOpenTestDone h l) s = .next ((List.range (s.prof h).taps).foldl (fun u n => u.openJudge h l n)
      (s.openTestOff h)) := by
  show Host.Outcome.next (tapOpenTestDone h l s) = _
  have hprof : (s.modHead h fun u => { u with openTest := false }).prof h = s.prof h := by
    rw [State.prof, State.head_modHead_self _ _ _ h.isLt, State.prof]
  rw [tapOpenTestDone, State.whenever_pos _ _ _ ho]
  simp only [hprof]
  rfl

/-- What the judgement of tap `n` leaves. -/
structure TapJudged (h : Nat) (l : List Nat) (n : Nat) (s t : State) : Prop where
  head : t.head h = { s.head h with openPass := (s.head h).openPass.set n (s.openPasses h l n) }
  bits : ∀ m, m < 16 → bit (t.get (F.HP_TAPFLT_OPEN h)) m =
    if m = n then decide (160 < l.getD n 0) || bit (s.get (F.HP_TAPFLT_OPEN h)) n && tapAt (s.head h).openPass n == 0
    else bit (s.get (F.HP_TAPFLT_OPEN h)) m
  regs : SameRegs [R.HP_TAPFLT h, R.HP_FLT h] s t
  work : PortWork s t

theorem State.tapFault_head (s : State) (h n k : Nat) (f : Fld) : (s.tapFault h n f).head k = s.head k := rfl

theorem State.tapFault_reported (s : State) (h n : Nat) (f : Fld) : Reported (20 + h) .uc s (s.tapFault h n f) := ⟨_, rfl⟩

theorem State.tapFault_work (s : State) (h n : Nat) (f : Fld) : PortWork s (s.tapFault h n f) := Eq.refl (s.tapFault h n f)

theorem State.tapFault_sameRegs (s : State) (h n : Nat) (f : Fld) : SameRegs [f.addr, R.HP_FLT h] s (s.tapFault h n f) :=
  SameRegs.put (SameRegs.put (SameRegs.refl _ s) f _ (by simp)) (F.HP_FLT_TAP h) 1 (by simp)

theorem State.tapFault_get (s : State) (h n : Nat) (f g : Fld) :
    (s.tapFault h n f).get g = ((s.putBit f n true).put (F.HP_FLT_TAP h) 1).get g := rfl

theorem State.tapFault_get_open (s : State) (h n : Nat) :
    (s.tapFault h n (F.HP_TAPFLT_OPEN h)).get (F.HP_TAPFLT_OPEN h) =
      (s.putBit (F.HP_TAPFLT_OPEN h) n true).get (F.HP_TAPFLT_OPEN h) := by
  rw [State.tapFault_get, State.get_put_reg _ _ _ _ (by simp)]

theorem State.openPasses_of_still {s : State} {h n : Nat} {l : List Nat} (hm : l.getD n 0 ≤ 160) :
    s.openPasses h l n = tapAt (s.head h).openPass n + 1 := if_neg (Nat.not_lt.2 hm)

/-- Two passes in succession: the code did not move, and one pass stood already. -/
theorem State.two_le_openPasses (s : State) (h : Nat) (l : List Nat) (n : Nat) :
    decide (2 ≤ s.openPasses h l n) = (!decide (160 < l.getD n 0) && !(tapAt (s.head h).openPass n == 0)) := by
  by_cases hm : 160 < l.getD n 0
  · rw [State.openPasses, if_pos hm, decide_eq_true hm]
    rfl
  · rw [State.openPasses_of_still (Nat.not_lt.1 hm), decide_eq_false hm]
    cases tapAt (s.head h).openPass n <;> simp

theorem State.openJudge_judged (s : State) {h : Nat} (hh : h < 8) (l : List Nat) (n : Nat) :
    TapJudged h l n s (s.openJudge h l n) := by
  have hhead : (s.openCount h l n).head h = { s.head h with openPass := (s.head h).openPass.set n (s.openPasses h l n) } :=
    State.head_modHead_self _ _ _ hh
  have hwork : PortWork s (s.openCount h l n) := (PortWork.refl s).modHead _ _
  have hregs : SameRegs [R.HP_TAPFLT h, R.HP_FLT h] s (s.openCount h l n) := SameRegs.refl _ s
  have hbit : ∀ b m, m < 16 → bit (((s.openCount h l n).putBit (F.HP_TAPFLT_OPEN h) n b).get (F.HP_TAPFLT_OPEN h)) m =
      if m = n then b else bit (s.get (F.HP_TAPFLT_OPEN h)) m := fun b m hm => State.bit_putBit _ _ (by simp) _ _ hm
  unfold State.openJudge
  rw [State.two_le_openPasses]
  split
  · next hnew =>
    obtain ⟨-, hmoved⟩ := Bool.and_eq_true_iff.1 hnew
    refine ⟨(State.tapFault_head _ _ _ _ _).trans hhead, fun m hm => ?_,
      hregs.trans (State.tapFault_sameRegs _ h n (F.HP_TAPFLT_OPEN h)), hwork.trans (State.tapFault_work _ _ _ _)⟩
    rw [State.tapFault_get_open, hbit true m hm, hmoved, Bool.true_or]
  · next hnew =>
    split
    · next hpass =>
      obtain ⟨-, htwo⟩ := Bool.and_eq_true_iff.1 hpass
      obtain ⟨hstill, hpassed⟩ := Bool.and_eq_true_iff.1 htwo
      refine ⟨(State.putBit_head _ _ _ _ _).trans hhead, fun m hm => ?_, hregs.put _ _ (by simp), hwork.put _ _⟩
      rw [hbit false m hm, (Bool.not_eq_true' _).mp hstill, (Bool.not_eq_true' _).mp hpassed, Bool.and_false, Bool.or_false]
    · next hpass =>
      refine ⟨hhead, fun m _ => ?_, hregs, hwork⟩
      have hsame : bit (s.get (F.HP_TAPFLT_OPEN h)) n =
          (decide (160 < l.getD n 0) || bit (s.get (F.HP_TAPFLT_OPEN h)) n && tapAt (s.head h).openPass n == 0) := by
        revert hnew hpass
        cases bit (s.get (F.HP_TAPFLT_OPEN h)) n <;> cases decide (160 < l.getD n 0) <;>
          cases tapAt (s.head h).openPass n == 0 <;> decide
      split
      · next hmn => rw [hmn]; exact hsame
      · rfl

/-! ### The judgement of all taps -/

/-- What the judgement of the taps below `k` leaves, of a state `s` whose test is on. -/
structure TapsJudged (h : Nat) (l : List Nat) (k : Nat) (s t : State) : Prop where
  test : (t.head h).openTest = false
  passes : ∀ n, k ≤ n → tapAt (t.head h).openPass n = tapAt (s.head h).openPass n
  bits : ∀ m, m < 16 → bit (t.get (F.HP_TAPFLT_OPEN h)) m =
    if m < k then decide (160 < l.getD m 0) || bit (s.get (F.HP_TAPFLT_OPEN h)) m && tapAt (s.head h).openPass m == 0
    else bit (s.get (F.HP_TAPFLT_OPEN h)) m
  regs : SameRegs [R.HP_TAPFLT h, R.HP_FLT h] s t
  work : PortWork s t

theorem tapAt_set_of_ne {l : List Nat} {n m v : Nat} (hne : n ≠ m) : tapAt (l.set n v) m = tapAt l m := by
  simp [tapAt, List.getD_eq_getElem?_getD, List.getElem?_set_ne hne]

theorem TapsJudged.succ {h k : Nat} {l : List Nat} {s t : State} (hh : h < 8) (w : TapsJudged h l k s t) (hk : k < 16) :
    TapsJudged h l (k + 1) s (t.openJudge h l k) := by
  have j := t.openJudge_judged hh l k
  exact
    { test := by rw [j.head]; exact w.test
      passes := fun n hn => by rw [j.head, ← w.passes n (Nat.le_of_succ_le hn)]; exact tapAt_set_of_ne (by omega)
      bits := fun m hm => by
        rw [j.bits m hm, w.bits k hk, w.bits m hm, w.passes k (le_refl k), if_neg (lt_irrefl k)]
        by_cases hmk : m = k
        · rw [if_pos hmk, if_pos (by omega), hmk]
        · have hlt : m < k + 1 ↔ m < k := by omega
          rw [if_neg hmk]
          simp only [hlt]
      regs := w.regs.trans j.regs
      work := w.work.trans j.work }

theorem State.tapsJudged (s : State) {h : Nat} (hh : h < 8) (l : List Nat) {k : Nat} (hk : k ≤ 16) :
    TapsJudged h l k s ((List.range k).foldl (fun u n => u.openJudge h l n) (s.openTestOff h)) := by
  induction k with
  | zero =>
    exact ⟨s.openTestOff_test hh, fun n _ => congrArg (tapAt · n) (s.openTestOff_passes hh), fun m _ => rfl, SameRegs.refl _ s,
      s.openTestOff_work h⟩
  | succ k ih =>
    rw [List.range_succ, List.foldl_append]
    exact (ih (by omega)).succ hh hk

/-- The flag of the first tap of a head ends, where no other is open. -/
theorem State.openCleared (s : State) (h : Nat) (l : List Nat) (hz : s.get (F.HP_TAPFLT_OPEN h) = 1) :
    ((s.openCount h l 0).putBit (F.HP_TAPFLT_OPEN h) 0 false).get (F.HP_TAPFLT_OPEN h) = 0 := by
  have hget : (s.openCount h l 0).get (F.HP_TAPFLT_OPEN h) = 1 := hz
  rw [State.putBit, State.get_put_self _ _ _ (by simp), hget]
  rfl

/-- A head of one tap. -/
theorem exec_tapOpenTestDone_one {h : Head} {l : List Nat} {s : State} (ho : (s.head h).openTest = true)
    (hn : (s.prof h).taps = 1) :
    exec (.tapOpenTestDone h l) s = .next ((s.openTestOff h).openJudge h l 0) := by
  rw [exec_tapOpenTestDone ho, hn]
  rfl

theorem State.openJudge_of_new {s : State} {h n : Nat} {l : List Nat} (hon : bit (s.get (F.HP_TAPFLT_OPEN h)) n = false)
    (hm : 160 < l.getD n 0) : s.openJudge h l n = (s.openCount h l n).tapFault h n (F.HP_TAPFLT_OPEN h) := by
  rw [State.openJudge, hon, decide_eq_true hm]
  rfl

theorem State.openJudge_of_passed {s : State} {h n : Nat} {l : List Nat} (hon : bit (s.get (F.HP_TAPFLT_OPEN h)) n = true)
    (hm : 2 ≤ s.openPasses h l n) : s.openJudge h l n = (s.openCount h l n).putBit (F.HP_TAPFLT_OPEN h) n false := by
  rw [State.openJudge, hon, decide_eq_true hm]
  rfl

/-- The first tap of a head, flagged open. -/
theorem State.openFlagged (s : State) (h : Nat) (hz : s.get (F.HP_TAPFLT_OPEN h) = 0) :
    (s.tapFault h 0 (F.HP_TAPFLT_OPEN h)).get (F.HP_TAPFLT_OPEN h) = 1 ∧
    (s.tapFault h 0 (F.HP_TAPFLT_OPEN h)).get (F.HP_FLT_TAP h) = 1 := by
  rw [State.tapFault_get_open, State.putBit, State.get_put_self _ _ _ (by simp), hz, State.tapFault_get,
    State.get_put_self _ _ _ (by simp)]
  exact ⟨rfl, rfl⟩

/-- Settles O10: the start of blanking by the work of its parts, and by its two ends where nothing else is on; the open-tap test by
induction over the taps it judges, and by its one judgement for a head of one tap. -/
theorem blankingTestsFlagTaps : Obligations.BlankingTestsFlagTaps := by
  unfold Obligations.BlankingTestsFlagTaps
  refine ⟨?begins, ?skips, ?asks, ?judges, ?flags, ?clears⟩
  case begins =>
    intro h t c s hcap hplaced hlines hblank
    obtain ⟨u, hexec, hfrom, hclosed, htest, hdt, hwork⟩ := exec_vblankStart_asked ⟨hcap, hplaced, hlines, hblank⟩ t
    exact ⟨u, hexec, hfrom, hclosed, htest, hwork.sameMem, hwork.mode, hdt, hwork⟩
  case skips =>
    intro h t c s hcap hplaced hlines hblank hshort hpol htest hport hrun htxn hns
    have d : CapDone h c s := ⟨hcap, hplaced, hlines, hblank⟩
    have hbegun := State.blankBegun_begun d.cap h.isLt t
    obtain ⟨⟨c', -, hhead⟩, hregs, hframe⟩ := State.blankBegun_begun d.cap h.isLt t
    have hskip : PortWork (s.blankBegun h t) ((s.blankBegun h t).bump (F.HP_STAT_OTSKIP h)) := (PortWork.refl _).put _ _
    have hwork : BlankWork s ((s.blankBegun h t).bump (F.HP_STAT_OTSKIP h)) := (BlankWork.of_begun hbegun).trans (.of_port hskip)
    refine ⟨_, exec_vblankStart_skips d t hshort hpol htxn (State.openTestOn_of_enabled htest hport hrun) hns, ?_, ?_, ?_, ?_,
      hwork.sameMem, hwork.mode, ?_, ?_, hwork⟩
    · rw [State.bump_head, hhead]
    · rw [State.bump_head, hhead]
    · rw [State.get_bump_self _ _ (by simp), hregs.get _ (by simp)]
    · exact (SameRegs.mono hregs (by simp)).put _ _ (by simp)
    · rw [State.bump_dt, hframe]
    · rw [State.bump_inbox, hframe]
  case asks =>
    intro h t c s hcap hplaced hlines hblank hshort hpol htest hport hrun htxn hns
    have d : CapDone h c s := ⟨hcap, hplaced, hlines, hblank⟩
    obtain ⟨⟨c', -, hhead⟩, hregs, hframe⟩ := State.blankBegun_begun d.cap h.isLt t
    refine ⟨_, exec_vblankStart_tests d t hshort hpol htxn (State.openTestOn_of_enabled htest hport hrun) hns, ?_, ?_,
      hregs, ?_⟩
    · rw [State.head_modHead_self _ _ _ h.isLt, hhead]
    · rw [State.head_modHead_self _ _ _ h.isLt]
    · rw [hframe]; rfl
  case judges =>
    intro h l s ho hn _
    have w := s.tapsJudged h.isLt l hn
    refine ⟨_, exec_tapOpenTestDone ho, w.test, List.all_eq_true.2 fun n hmem => ?_, w.regs, w.work⟩
    have hlt := List.mem_range.1 hmem
    rw [w.bits n (hlt.trans_le hn), if_pos hlt, beq_self_eq_true]
  case flags =>
    intro h m s ho hn hz hm
    have w := s.tapsJudged (k := 1) h.isLt [m] (by decide)
    have hoff : bit ((s.openTestOff h).get (F.HP_TAPFLT_OPEN h)) 0 = false := by
      rw [State.openTestOff_get, hz]
      rfl
    have hjudge := State.openJudge_of_new (l := [m]) hoff hm
    rw [List.range_one, List.foldl_cons, List.foldl_nil, hjudge] at w
    obtain ⟨hopen, hflag⟩ := State.openFlagged ((s.openTestOff h).openCount h [m] 0) h hz
    obtain ⟨d, hrep⟩ := State.tapFault_reported ((s.openTestOff h).openCount h [m] 0) h 0 (F.HP_TAPFLT_OPEN h)
    exact ⟨_, (exec_tapOpenTestDone_one ho hn).trans (congrArg _ hjudge), hopen, hflag, w.test, ⟨d, hrep⟩, w.regs, w.work⟩
  case clears =>
    intro h m s ho hn hz hm hp
    have w := s.tapsJudged (k := 1) h.isLt [m] (by decide)
    have hon : bit ((s.openTestOff h).get (F.HP_TAPFLT_OPEN h)) 0 = true := by
      rw [State.openTestOff_get, hz]
      rfl
    have htwo : 2 ≤ (s.openTestOff h).openPasses h [m] 0 := by
      rw [State.openPasses_of_still (l := [m]) (n := 0) hm, s.openTestOff_passes h.isLt]
      exact Nat.succ_le_succ hp.ge
    have hjudge := State.openJudge_of_passed (l := [m]) hon htwo
    rw [List.range_one, List.foldl_cons, List.foldl_nil, hjudge] at w
    have hcleared := (s.openTestOff h).openCleared h [m] hz
    exact ⟨_, (exec_tapOpenTestDone_one ho hn).trans (congrArg _ hjudge), hcleared, w.test,
      SameRegs.put (SameRegs.refl _ s) (F.HP_TAPFLT_OPEN h) _ (by simp), rfl⟩

end Sys2Proof.Machine
end

section
/-! PROOFS. Every command's law: it answers with a next state, in the relation `Keeps` with the one before. -/

namespace Sys2Proof.Machine

/-- All parts of a state may change. -/
def anyPart : Parts := ⟨true, true, true, true, true⟩

/-- A stuck HFV closes the open frame; no other input does (R121). -/
theorem stuckInput_keeps {kp : Parts} {a s : State} (i : TimingInput) (hk : Keeps kp a s) :
    Keeps kp a (match i with | .hfv h => s.settleCapture h | _ => s) := by
  cases i with
  | hfv h => exact State.settleCapture_keeps _ hk
  | _ => exact hk

/-- Every command answers with a next state, which is in `Keeps` with the one before: by the law of the command's operation. -/
theorem exec_keeps (i : Instr) (s : State) : ∃ t, exec i s = .next t ∧ Keeps anyPart s t :=
  match i with
  | .spineFlitCrcFail .. => ⟨_, rfl, spineFlitCrcFail_keeps _ _ .rfl⟩
  | .spineLinkFailed .. => ⟨_, rfl, spineLinkFailed_keeps _ .rfl⟩
  | .c3FloorWindowEnd .. => ⟨_, rfl, c3FloorWindowEnd_keeps _ _ .rfl⟩
  | .collatorLinePlaced .. => ⟨_, rfl, collatorLinePlaced_keeps _ _ _ _ .rfl⟩
  | .quireSlotWrite .. => ⟨_, rfl, quireSlotWrite_keeps _ _ .rfl⟩
  | .quireDispatch .. => ⟨_, rfl, quireDispatch_keeps _ _ .rfl⟩
  | .quireFinished .. => ⟨_, rfl, quireFinished_keeps _ _ _ rfl .rfl⟩
  | .quireCommit .. => ⟨_, rfl, quireCommit_keeps _ _ rfl .rfl⟩
  | .residueMismatch .. => ⟨_, rfl, residueMismatch_keeps _ _ _ .rfl⟩
  | .quireTimeout .. => ⟨_, rfl, quireTimeout_keeps _ _ _ .rfl⟩
  | .sramSecdedError .. => ⟨_, rfl, sramSecdedError_keeps _ _ _ _ .rfl⟩
  | .leafReadUe .. => ⟨_, rfl, leafReadUe_keeps _ _ _ _ _ _ .rfl⟩
  | .planEval .. => ⟨_, rfl, planEval_keeps _ .rfl⟩
  | .planReplan .. => ⟨_, rfl, planReplan_keeps _ .rfl⟩
  | .planEvalStart => ⟨_, rfl, planEvalStart_keeps .rfl⟩
  | .planEvalDone => ⟨_, rfl, planEvalDone_keeps rfl rfl .rfl⟩
  | .planLimitWrite .. => ⟨_, rfl, planLimitWrite_keeps _ .rfl⟩
  | .profileValidate .. => ⟨_, rfl, profileValidate_keeps _ .rfl⟩
  | .profileValidationDone .. => ⟨_, rfl, profileValidationDone_keeps _ .rfl⟩
  | .hpBiasWrite .. => ⟨_, rfl, hpBiasWrite_keeps _ _ .rfl⟩
  | .hpCtrlWrite .. => ⟨_, rfl, State.txnAfter_keeps _ _ (hpCtrlWrite_keeps _ _ .rfl)⟩
  | .hsupRampDone .. => ⟨_, rfl, hsupRampDone_keeps _ _ .rfl⟩
  | .hsupShortDisconnect .. => ⟨_, rfl, hsupShortDisconnect_keeps _ _ rfl .rfl⟩
  | .hsupReverseDisconnect .. => ⟨_, rfl, hsupReverseDisconnect_keeps _ _ .rfl⟩
  | .hsupRetryStart .. => ⟨_, rfl, hsupRetryStart_keeps _ _ rfl .rfl⟩
  | .hsupRetryCountReset .. => ⟨_, rfl, hsupRetryCountReset_keeps _ _ .rfl⟩
  | .hsupRetry .. => ⟨_, rfl, hsupRetry_keeps _ .rfl⟩
  | .resume .. => ⟨_, rfl, resume_keeps _ .rfl⟩
  | .dacOvercurrent .. => ⟨_, rfl, dacOvercurrent_keeps _ .rfl⟩
  | .shutClose .. => ⟨_, rfl, shutClose_keeps _ .rfl⟩
  | .shutOpen .. => ⟨_, rfl, shutOpen_keeps _ .rfl⟩
  | .shutterDriveStart .. => ⟨_, rfl, shutterDriveStart_keeps _ _ _ .rfl⟩
  | .shutterPulseEnd .. => ⟨_, rfl, shutterPulseEnd_keeps _ _ .rfl⟩
  | .shutterPositionInput .. => ⟨_, rfl, shutterPositionInput_keeps _ _ _ _ .rfl⟩
  | .shutterPosTimeout .. => ⟨_, rfl, shutterPosTimeout_keeps _ _ .rfl⟩
  | .shutterCoilOpen .. => ⟨_, rfl, shutterCoilOpen_keeps _ .rfl⟩
  | .shutterCoilShort .. => ⟨_, rfl, shutterCoilShort_keeps _ .rfl⟩
  | .hcpGo .. => ⟨_, rfl, hcpGo_keeps _ .rfl⟩
  | .hcpAbort .. => ⟨_, rfl, State.txnAfter_keeps _ _ (hcpAbort_keeps _ .rfl)⟩
  | .hcpTransferDone .. => ⟨_, rfl, State.txnAfter_keeps _ _ (hcpTransferDone_keeps _ _ _ .rfl)⟩
  | .strobeShort .. => ⟨_, rfl, State.txnAfter_keeps _ _ (strobeShort_keeps _ _ .rfl)⟩
  | .gpSetWrite .. => ⟨_, rfl, gpSetWrite_keeps _ _ .rfl⟩
  | .gpClrWrite .. => ⟨_, rfl, gpClrWrite_keeps _ _ .rfl⟩
  | .vblankStart .. => ⟨_, rfl, vblankTxn_keeps _ _ .rfl⟩
  | .tapOpenTestDone .. => ⟨_, rfl, tapOpenTestDone_keeps _ _ .rfl⟩
  | .tcCfgWrite .. => ⟨_, rfl, tcCfgWrite_keeps _ _ .rfl⟩
  | .tcGainWrite .. => ⟨_, rfl, tcGainWrite_keeps _ _ _ .rfl⟩
  | .pgaFilterChange .. => ⟨_, rfl, pgaFilterChange_keeps _ _ .rfl⟩
  | .tcSclkWrite .. => ⟨_, rfl, tcSclkWrite_keeps _ _ .rfl⟩
  | .sclkLocked .. => ⟨_, rfl, sclkLocked_keeps _ .rfl⟩
  | .sclkLockLost .. => ⟨_, rfl, sclkLockLost_keeps _ .rfl⟩
  | .sclkFallback .. => ⟨_, rfl, sclkFallback_keeps _ .rfl⟩
  | .tcRefcfgWrite .. => ⟨_, rfl, tcRefcfgWrite_keeps _ _ .rfl⟩
  | .refokSet .. => ⟨_, rfl, refokSet_keeps _ _ .rfl⟩
  | .refFallback .. => ⟨_, rfl, State.calReleases_keeps _ _ rfl (refFallback_keeps _ .rfl)⟩
  | .selfcal .. => ⟨_, rfl, selfcal_keeps _ .rfl⟩
  | .bankCalStart .. => ⟨_, rfl, bankCalStart_keeps _ _ .rfl⟩
  | .calPassDone .. => ⟨_, rfl, calPassDone_keeps _ _ _ .rfl⟩
  | .calEnd .. => ⟨_, rfl, State.calReleases_keeps _ _ rfl (calEnd_keeps _ _ .rfl)⟩
  | .bgtrimMeasure .. => ⟨_, rfl, bgtrimMeasure_keeps _ _ .rfl⟩
  | .frameStart .. => ⟨_, rfl, frameStart_keeps _ _ rfl rfl rfl rfl .rfl⟩
  | .frameStartPending .. => ⟨_, rfl, frameStartPending_keeps _ _ rfl rfl rfl rfl .rfl⟩
  | .lineStart .. => ⟨_, rfl, lineStart_keeps _ _ .rfl⟩
  | .ringMarkReceived .. => ⟨_, rfl, ringMarkReceived_keeps _ _ _ .rfl⟩
  | .markEffect .. => ⟨_, rfl, markEffect_keeps _ _ _ .rfl⟩
  | .ringTrigReceived .. => ⟨_, rfl, ringTrigReceived_keeps _ _ _ .rfl⟩
  | .trigPinEdge .. => ⟨_, rfl, trigPinEdge_keeps _ _ _ .rfl⟩
  | .gpFrameEdge .. => ⟨_, rfl, gpFrameEdge_keeps _ _ _ .rfl⟩
  | .hfvRise .. => ⟨_, rfl, hfvRise_keeps _ _ rfl rfl rfl rfl .rfl⟩
  | .hfvFall .. => ⟨_, rfl, State.settleCapture_keeps _ (hfvFall_keeps _ _ .rfl)⟩
  | .hlvRise .. => ⟨_, rfl, hlvLine_keeps _ _ rfl .rfl⟩
  | .inputStuck .. => ⟨_, rfl, stuckInput_keeps _ (inputStuck_keeps _ _ .rfl)⟩
  | .heldSlotDue .. => ⟨_, rfl, heldSlotDue_keeps _ _ rfl .rfl⟩
  | .pairLoRead .. => ⟨_, rfl, pairRead_keeps _ _ _ _ rfl .rfl⟩
  | .pairHiRead .. => ⟨_, rfl, pairRead_keeps _ _ _ _ rfl .rfl⟩
  | .pairLoWrite .. => ⟨_, rfl, pairWrite_keeps _ _ _ _ _ .rfl⟩
  | .pairHiWrite .. => ⟨_, rfl, pairWrite_keeps _ _ _ _ _ .rfl⟩
  | .ringRxLock => ⟨_, rfl, ringRxLock_keeps .rfl⟩
  | .ringUpstreamLoss => ⟨_, rfl, ringUpstreamLoss_keeps .rfl⟩
  | .ringTimePacket .. => ⟨_, rfl, ringTimePacket_keeps _ _ .rfl⟩
  | .dtDisciplineTimeout .. => ⟨_, rfl, dtDisciplineTimeout_keeps _ .rfl⟩
  | .ringMsgReceived .. => ⟨_, rfl, ringMsgReceived_keeps _ .rfl⟩
  | .msgSend => ⟨_, rfl, msgSend_keeps .rfl⟩
  | .msgInsert .. => ⟨_, rfl, msgInsert_keeps _ .rfl⟩
  | .msgReturned .. => ⟨_, rfl, msgReturned_keeps _ .rfl⟩
  | .msgLostTimeout .. => ⟨_, rfl, msgLostTimeout_keeps _ .rfl⟩
  | .msgPop => ⟨_, rfl, msgPop_keeps .rfl⟩
  | .ringEnable => ⟨_, rfl, ringEnable_keeps .rfl⟩
  | .ringSelftestDone .. => ⟨_, rfl, ringSelftestDone_keeps _ .rfl⟩
  | .ringHoldRaise => ⟨_, rfl, ringHoldRaise_keeps .rfl⟩
  | .ringDisable .. => ⟨_, rfl, ringDisable_keeps _ .rfl⟩
  | .ringTxOff .. => ⟨_, rfl, ringTxOff_keeps _ .rfl⟩
  | .trgClrcnt => ⟨_, rfl, trgClrcnt_keeps .rfl⟩
  | .hpTstatClrcnt .. => ⟨_, rfl, hpTstatClrcnt_keeps _ .rfl⟩
  | .clHmirWrite .. => ⟨_, rfl, clHmirWrite_keeps _ _ .rfl⟩
  | .msync .. => ⟨_, rfl, msync_keeps _ _ .rfl⟩
  | .mirrorCopyDone .. => ⟨_, rfl, State.mirrorDone_keeps _ _ rfl .rfl⟩
  | .lswap .. => ⟨_, rfl, lswap_keeps _ .rfl⟩
  | .rswap .. => ⟨_, rfl, rswap_keeps _ .rfl⟩
  | .clClrcnt .. => ⟨_, rfl, clClrcnt_keeps _ .rfl⟩
  | .cxClrcnt .. => ⟨_, rfl, cxClrcnt_keeps _ .rfl⟩
  | .shreq .. => ⟨_, rfl, shreq_keeps _ .rfl⟩
  | .shutterScheduleDue .. => ⟨_, rfl, shutterScheduleDue_keeps _ _ .rfl⟩
  | .shutterCancel .. => ⟨_, rfl, shutterCancel_keeps _ .rfl⟩
  | .refit .. => ⟨_, rfl, refit_keeps _ .rfl⟩
  | .breset .. => ⟨_, rfl, breset_keeps _ .rfl⟩
  | .quietWindowArm .. => ⟨_, rfl, quietWindowArm_keeps _ _ .rfl⟩
  | .quietWindowEnd .. => ⟨_, rfl, quietWindowEnd_keeps _ _ .rfl⟩
  | .shutterEventStart .. => ⟨_, rfl, shutterEventStart_keeps _ _ .rfl⟩
  | .shutterDeadline .. => ⟨_, rfl, shutterDeadline_keeps _ _ .rfl⟩
  | .shutterApplyDone .. => ⟨_, rfl, shutterApplyDone_keeps _ rfl .rfl⟩
  | .shutterEventTimeout .. => ⟨_, rfl, shutterEventTimeout_keeps _ .rfl⟩
  | .refitStart .. => ⟨_, rfl, refitStart_keeps _ .rfl⟩
  | .refitComputeDone .. => ⟨_, rfl, refitComputeDone_keeps _ .rfl⟩
  | .refitWritesDone .. => ⟨_, rfl, refitWritesDone_keeps _ rfl .rfl⟩
  | .fpSwap .. => ⟨_, rfl, fpSwap_keeps _ .rfl⟩
  | .radiometricSetReadUe .. => ⟨_, rfl, radiometricSetReadUe_keeps _ _ _ _ .rfl⟩
  | .mcLoad .. => ⟨_, rfl, mcLoad_keeps _ .rfl⟩
  | .microcodeBlockLoadDone .. => ⟨_, rfl, microcodeBlockLoadDone_keeps _ .rfl⟩
  | .mcInstall => ⟨_, rfl, mcInstall_keeps .rfl⟩
  | .mcSetmin => ⟨_, rfl, mcSetmin_keeps .rfl⟩
  | .shadowThirdRunDone .. => ⟨_, rfl, shadowThirdRunDone_keeps _ _ _ _ .rfl⟩
  | .spareRotation .. => ⟨_, rfl, spareRotation_keeps _ .rfl⟩
  | .unretire .. => ⟨_, rfl, unretire_keeps _ _ .rfl⟩
  | .unretireTestDone .. => ⟨_, rfl, unretireTestDone_keeps _ _ _ .rfl⟩
  | .enClrcnt .. => ⟨_, rfl, enClrcnt_keeps _ .rfl⟩
  | .recipeLoad .. => ⟨_, rfl, recipeLoad_keeps _ .rfl⟩
  | .recipeLoadDone => ⟨_, rfl, recipeLoadDone_keeps .rfl⟩
  | .pipeQuireTake .. => ⟨_, rfl, pipeQuireTake_keeps _ _ _ rfl .rfl⟩
  | .frameCompleteReport .. => ⟨_, rfl, frameCompleteReport_keeps _ _ rfl rfl rfl rfl .rfl⟩
  | .fpClrcnt .. => ⟨_, rfl, fpClrcnt_keeps _ .rfl⟩
  | .txCfgWrite .. => ⟨_, rfl, txCfgWrite_keeps _ _ .rfl⟩
  | .txClrcnt .. => ⟨_, rfl, txClrcnt_keeps _ .rfl⟩
  | .csiFrameStart .. => ⟨_, rfl, csiFrameStart_keeps _ .rfl⟩
  | .csiPacketSend .. => ⟨_, rfl, csiPacketSend_keeps _ _ .rfl⟩
  | .monitorSample .. => ⟨_, rfl, monitorSample_keeps _ _ _ rfl .rfl⟩
  | .monSnap .. => ⟨_, rfl, monSnap_keeps _ _ .rfl⟩
  | .monClr .. => ⟨_, rfl, monClr_keeps _ .rfl⟩
  | .monPerWrite .. => ⟨_, rfl, monPerWrite_keeps _ _ .rfl⟩
  | .monitorPeriodEnd .. => ⟨_, rfl, monitorPeriodEnd_keeps _ rfl .rfl⟩
  | .monCfgWrite .. => ⟨_, rfl, monCfgWrite_keeps _ _ _ .rfl⟩
  | .stClrcnt => ⟨_, rfl, stClrcnt_keeps .rfl⟩
  | .txnOpen .. => ⟨_, rfl, txnOpen_keeps _ .rfl⟩
  | .txnStage .. => ⟨_, rfl, txnStage_keeps _ .rfl⟩
  | .txnCommit .. => ⟨_, rfl, txnCommit_keeps _ _ .rfl⟩
  | .txnRollback .. => ⟨_, rfl, txnRollback_keeps _ .rfl⟩
  | .txnHeadWritesStart .. => ⟨_, rfl, txnHeadWritesStart_keeps _ _ _ .rfl⟩
  | .txnHeadWriteFail .. => ⟨_, rfl, txnHeadWriteFail_keeps _ _ .rfl⟩
  | .txnUndoDone .. => ⟨_, rfl, txnUndoDone_keeps _ _ .rfl⟩
  | .txnDeadline .. => ⟨_, rfl, txnDeadline_keeps _ _ .rfl⟩
  | .ctxRead => ⟨_, rfl, ctxRead_keeps .rfl⟩
  | .ctxWrite => ⟨_, rfl, ctxWrite_keeps .rfl⟩
  | .ctxCmdDone => ⟨_, rfl, ctxCmdDone_keeps rfl .rfl⟩
  | .qFrangeWrite .. => ⟨_, rfl, qFrangeWrite_keeps _ _ .rfl⟩
  | .doorbell .. => ⟨_, rfl, doorbell_keeps _ _ _ _ rfl .rfl⟩
  | .submissionFetch .. => ⟨_, rfl, submissionFetch_keeps _ _ rfl .rfl⟩
  | .cmdNop .. => ⟨_, rfl, cmdNop_keeps _ _ rfl .rfl⟩
  | .settingsOpen .. => ⟨_, rfl, settingsOpen_keeps _ _ rfl .rfl⟩
  | .settingsStage .. => ⟨_, rfl, settingsStage_keeps _ _ rfl .rfl⟩
  | .settingsCommit .. => ⟨_, rfl, settingsCommit_keeps _ _ rfl .rfl⟩
  | .settingsRollback .. => ⟨_, rfl, settingsRollback_keeps _ _ rfl .rfl⟩
  | .shutterRequest .. => ⟨_, rfl, cmdShutterRequest_keeps _ _ rfl .rfl⟩
  | .cmdShutterCancel .. => ⟨_, rfl, cmdShutterCancel_keeps _ _ rfl .rfl⟩
  | .cmdShutterRefit .. => ⟨_, rfl, cmdShutterRefit_keeps _ _ rfl .rfl⟩
  | .tableSwap .. => ⟨_, rfl, tableSwap_keeps _ _ rfl .rfl⟩
  | .microcode .. => ⟨_, rfl, microcode_keeps _ _ rfl .rfl⟩
  | .dmaCopy .. => ⟨_, rfl, dmaCopy_keeps _ _ rfl rfl .rfl⟩
  | .reprocess .. => ⟨_, rfl, reprocess_keeps _ _ rfl .rfl⟩
  | .reprocessJobStart => ⟨_, rfl, reprocessJobStart_keeps .rfl⟩
  | .reprocessFrameDone .. => ⟨_, rfl, reprocessFrameDone_keeps _ _ rfl .rfl⟩
  | .completionPost .. => ⟨_, rfl, completionPost_keeps _ _ rfl rfl .rfl⟩
  | .deliveryCopyDone .. => ⟨_, rfl, deliveryCopyDone_keeps _ _ rfl rfl .rfl⟩
  | .waitingFrameDelivery .. => ⟨_, rfl, waitingFrameDelivery_keeps _ _ rfl rfl .rfl⟩
  | .eventRecordPost .. => ⟨_, rfl, eventRecordPost_keeps _ _ rfl rfl .rfl⟩
  | .msixModerationTimeout .. => ⟨_, rfl, msixModerationTimeout_keeps _ _ rfl rfl .rfl⟩
  | .c0Suspend .. => ⟨_, rfl, c0Suspend_keeps _ _ rfl .rfl⟩
  | .c0Resume .. => ⟨_, rfl, c0Resume_keeps _ rfl .rfl⟩
  | .pcieLinkDown .. => ⟨_, rfl, pcieLinkDown_keeps _ rfl rfl .rfl⟩
  | .pcieLinkUp .. => ⟨_, rfl, pcieLinkUp_keeps _ _ _ rfl .rfl⟩
  | .busMasterChange .. => ⟨_, rfl, busMasterChange_keeps _ _ _ .rfl⟩
  | .pcieError .. => ⟨_, rfl, pcieError_keeps _ .rfl⟩
  | .pcieHotReset => ⟨_, rfl, pcieHotReset_keeps rfl .rfl⟩
  | .vfFlr .. => ⟨_, rfl, vfFlr_keeps _ rfl .rfl⟩
  | .functionD3hot .. => ⟨_, rfl, functionD3hot_keeps _ _ .rfl⟩
  | .perstAssert => ⟨_, rfl, perstAssert_keeps rfl .rfl⟩
  | .bar4Write .. => ⟨_, rfl, bar4Write_keeps _ _ rfl .rfl⟩
  | .bar4Read .. => ⟨_, rfl, bar4Read_keeps _ _ _ rfl .rfl⟩
  | .dmaChTailWrite .. => ⟨_, rfl, dmaChTailWrite_keeps _ _ rfl .rfl⟩
  | .dmaChCfgWrite .. => ⟨_, rfl, dmaChCfgWrite_keeps _ _ .rfl⟩
  | .dmaChStop .. => ⟨_, rfl, dmaChStop_keeps _ .rfl⟩
  | .dmaChResume .. => ⟨_, rfl, dmaChResume_keeps _ rfl .rfl⟩
  | .dmaChStart .. => ⟨_, rfl, dmaChStart_keeps _ rfl .rfl⟩
  | .dmaDescFetch .. => ⟨_, rfl, dmaDescFetch_keeps _ _ rfl .rfl⟩
  | .dmaReadIssue .. => ⟨_, rfl, dmaReadIssue_keeps _ rfl rfl .rfl⟩
  | .dmaReadCompletion .. => ⟨_, rfl, dmaReadCompletion_keeps _ _ _ rfl rfl .rfl⟩
  | .dmaPacingWindow .. => ⟨_, rfl, dmaPacingWindow_keeps _ .rfl⟩
  | .dmaWriteback .. => ⟨_, rfl, dmaWriteback_keeps _ rfl .rfl⟩
  | .dmaHalt .. => ⟨_, rfl, dmaHalt_keeps _ _ _ rfl rfl .rfl⟩
  | .dmaSettled => ⟨_, rfl, dmaSettled_keeps rfl .rfl⟩
  | .dmaRestart => ⟨_, rfl, dmaRestart_keeps rfl .rfl⟩
  | .dmaAutoRestart => ⟨_, rfl, dmaAutoRestart_keeps rfl .rfl⟩
  | .dmaClrcnt => ⟨_, rfl, dmaClrcnt_keeps .rfl⟩
  | .faultReport .. => ⟨_, rfl, faultReport_keeps _ _ rfl rfl rfl rfl .rfl⟩
  | .depWindowEnd .. => ⟨_, rfl, depWindowEnd_keeps _ _ rfl .rfl⟩
  | .depRootSettled .. => ⟨_, rfl, depRootSettled_keeps _ _ rfl rfl rfl rfl .rfl⟩
  | .faultClear .. => ⟨_, rfl, faultClear_keeps _ _ rfl .rfl⟩
  | .faultAck .. => ⟨_, rfl, faultAck_keeps _ _ .rfl⟩
  | .ceHoldExpire .. => ⟨_, rfl, ceHoldExpire_keeps _ .rfl⟩
  | .faultForce .. => ⟨_, rfl, faultForce_keeps _ _ rfl rfl rfl rfl .rfl⟩
  | .fcClrfirst => ⟨_, rfl, fcClrfirst_keeps .rfl⟩
  | .fcClrcnt => ⟨_, rfl, fcClrcnt_keeps .rfl⟩
  | .unitRestore .. => ⟨_, rfl, unitRestore_keeps _ _ .rfl⟩
  | .restoreTestDone .. => ⟨_, rfl, restoreTestDone_keeps _ _ rfl .rfl⟩
  | .churnRequest .. => ⟨_, rfl, churnRequest_keeps _ _ _ .rfl⟩
  | .churnQueuedStart .. => ⟨_, rfl, churnQueuedStart_keeps _ _ _ .rfl⟩
  | .churnQwaitExpire .. => ⟨_, rfl, churnQwaitExpire_keeps _ .rfl⟩
  | .scrubPassStart .. => ⟨_, rfl, scrubPassStart_keeps _ _ .rfl⟩
  | .scrubWordCheck .. => ⟨_, rfl, scrubWordCheck_keeps _ _ _ _ rfl .rfl⟩
  | .mcClrcnt => ⟨_, rfl, mcClrcnt_keeps .rfl⟩
  | .modeDormant => ⟨_, rfl, modeDormant_keeps rfl rfl .rfl⟩
  | .modeSetup .. => ⟨_, rfl, modeSetup_keeps _ rfl rfl rfl rfl .rfl⟩
  | .modeRun => ⟨_, rfl, modeRun_keeps .rfl⟩
  | .modeThrottle => ⟨_, rfl, modeThrottle_keeps rfl rfl .rfl⟩
  | .modeUnthrottle => ⟨_, rfl, modeUnthrottle_keeps rfl rfl .rfl⟩
  | .modeSafe .. => ⟨_, rfl, modeSafe_keeps _ rfl rfl rfl rfl .rfl⟩
  | .setupTransitionDone => ⟨_, rfl, setupTransitionDone_keeps rfl rfl rfl rfl .rfl⟩
  | .dramTrainingDone .. => ⟨_, rfl, dramTrainingDone_keeps _ _ _ .rfl⟩
  | .sysStreamWrite .. => ⟨_, rfl, sysStreamWrite_keeps _ .rfl⟩
  | .safeCauseClear .. => ⟨_, rfl, safeCauseClear_keeps _ .rfl⟩
  | .resetEntry .. => ⟨_, rfl, resetEntry_keeps _ rfl rfl rfl rfl rfl .rfl⟩
  | .resetRelease => ⟨_, rfl, resetRelease_keeps rfl rfl .rfl⟩
  | .dormantEntry .. => ⟨_, rfl, dormantEntry_keeps _ rfl rfl .rfl⟩
  | .refClockStop .. => ⟨_, rfl, refClockStop_keeps _ rfl rfl rfl rfl .rfl⟩
  | .refClockReturn => ⟨_, rfl, refClockReturn_keeps .rfl⟩
  | .pllLocked => ⟨_, rfl, pllLocked_keeps .rfl⟩
  | .railSag .. => ⟨_, rfl, railSag_keeps _ rfl rfl rfl rfl rfl .rfl⟩
  | .railFailure .. => ⟨_, rfl, railFailure_keeps _ _ _ rfl rfl rfl rfl rfl .rfl⟩
  | .railGood .. => ⟨_, rfl, railGood_keeps _ rfl rfl rfl rfl rfl .rfl⟩
  | .powerfailAssert .. => ⟨_, rfl, powerfailAssert_keeps _ _ rfl rfl rfl rfl rfl .rfl⟩
  | .powerfailPersistDone => ⟨_, rfl, powerfailPersistDone_keeps rfl rfl rfl rfl .rfl⟩
  | .aonCollapse => ⟨_, rfl, aonCollapse_keeps rfl rfl rfl rfl .rfl⟩
  | .hkRoundStart .. => ⟨_, rfl, hkRoundStart_keeps _ .rfl⟩
  | .hkConversionDone .. => ⟨_, rfl, hkConversionDone_keeps _ _ .rfl⟩
  | .hkRoundEnd .. => ⟨_, rfl, hkRoundEnd_keeps _ rfl rfl rfl rfl .rfl⟩
  | .hkCfgWrite .. => ⟨_, rfl, hkCfgWrite_keeps _ _ .rfl⟩
  | .hkInj .. => ⟨_, rfl, hkInj_keeps _ .rfl⟩
  | .thCfgWrite .. => ⟨_, rfl, thCfgWrite_keeps _ .rfl⟩
  | .thMaskWrite .. => ⟨_, rfl, thMaskWrite_keeps _ .rfl⟩
  | .nvWrite => ⟨_, rfl, nvWrite_keeps .rfl⟩
  | .nvPageWriteDone .. => ⟨_, rfl, nvPageWriteDone_keeps _ rfl .rfl⟩
  | .nvWindowRead .. => ⟨_, rfl, nvWindowRead_keeps _ _ _ rfl .rfl⟩
  | .nvInterlockClear .. => ⟨_, rfl, nvInterlockClear_keeps _ rfl .rfl⟩
  | .slotPersist .. => ⟨_, rfl, slotPersist_keeps _ _ rfl .rfl⟩
  | .persistWindowEnd .. => ⟨_, rfl, persistWindowEnd_keeps _ _ rfl .rfl⟩
  | .bootHourlyPersist .. => ⟨_, rfl, bootHourlyPersist_keeps _ rfl .rfl⟩
  | .nvRelocation .. => ⟨_, rfl, nvRelocation_keeps _ rfl .rfl⟩
  | .nvClrcnt => ⟨_, rfl, nvClrcnt_keeps .rfl⟩
  | .mspStatus => ⟨_, rfl, mspStatus_keeps rfl .rfl⟩
  | .mspWrite .. => ⟨_, rfl, mspWrite_keeps _ _ _ rfl rfl rfl rfl .rfl⟩
  | .mspRead .. => ⟨_, rfl, mspRead_keeps _ _ _ rfl .rfl⟩
  | .mspWriteCrc .. => ⟨_, rfl, mspWrite_keeps _ _ _ rfl rfl rfl rfl .rfl⟩
  | .mspReadCrc .. => ⟨_, rfl, mspRead_keeps _ _ _ rfl .rfl⟩
  | .mspReadFetch => ⟨_, rfl, mspReadFetch_keeps rfl .rfl⟩
  | .mspBadFrame .. => ⟨_, rfl, mspBadFrame_keeps _ rfl .rfl⟩
  | .mspClrcnt => ⟨_, rfl, mspClrcnt_keeps .rfl⟩
  | .drClrcnt => ⟨_, rfl, drClrcnt_keeps .rfl⟩
  | .registerWrite .. => ⟨_, rfl, State.writeReg_keeps _ _ _ _ _ rfl rfl rfl rfl .rfl⟩
  | .tapExtest => ⟨_, rfl, tapInstruction_keeps _ .rfl⟩
  | .tapIdcode => ⟨_, rfl, tapInstruction_keeps _ .rfl⟩
  | .tapSamplePreload .. => ⟨_, rfl, tapPreload_keeps _ .rfl⟩
  | .tapHighz => ⟨_, rfl, tapInstruction_keeps _ .rfl⟩
  | .tapClamp => ⟨_, rfl, tapInstruction_keeps _ .rfl⟩
  | .tapExtestPulse => ⟨_, rfl, tapInstruction_keeps _ .rfl⟩
  | .tapExtestTrain => ⟨_, rfl, tapInstruction_keeps _ .rfl⟩
  | .tapBypass .. => ⟨_, rfl, tapBypass_keeps _ .rfl⟩
  | .testModeExitReset => ⟨_, rfl, testModeExitReset_keeps rfl rfl rfl rfl rfl .rfl⟩
  | .tapReset => ⟨_, rfl, tapReset_keeps .rfl⟩
  | .timingInputDeassert .. => ⟨_, rfl, timingInputDeassert_keeps _ _ .rfl⟩
  | .ringCharError .. => ⟨_, rfl, ringCharError_keeps _ .rfl⟩
  | .powerfailEnd => ⟨_, rfl, powerfailEnd_keeps .rfl⟩

end Sys2Proof.Machine
end

section
/-! PROOFS. The order of one cycle's arrivals (R76, R448, R450, R460), and the statement on the queue. -/

namespace Sys2Proof.Machine

/-! ### What one cycle's commands set and clear of a GP word (R76) -/

/-- A bit is in the word when one of the commands names it. -/
theorem getLsbD_gpAll (i : Nat) (set : Bool) (l : List Instr) (k : Nat) :
    (gpAll i set l).getLsbD k = l.any fun c => (gpBits i set c).getLsbD k := by
  have hfold : ∀ w : Word, (l.foldl (fun w c => w ||| gpBits i set c) w).getLsbD k =
      (w.getLsbD k || l.any fun c => (gpBits i set c).getLsbD k) := by
    induction l with
    | nil => intro w; simp
    | cons c l ih => intro w; simp only [List.foldl_cons, ih, BitVec.getLsbD_or, List.any_cons, Bool.or_assoc]
  exact (hfold 0).trans (by simp)

/-- No command of the list sets a bit of a GP word that one of the list clears. -/
def GpApart (l : List Instr) : Prop := ∀ i, ∀ c ∈ l, ∀ d ∈ l, gpBits i true c &&& gpBits i false d = 0

theorem and_not_zero (v : Word) : v &&& ~~~(0 : Word) = v := BitVec.and_allOnes

theorem gpLess_zero (c : Instr) : gpLess (fun _ => 0) c = c := by
  cases c with
  | gpSetWrite j v => rw [gpLess, and_not_zero]
  | gpClrWrite j v => rw [gpLess, and_not_zero]
  | registerWrite p a be v t => simp only [gpLess, and_not_zero, ite_self]
  | _ => rfl

theorem GpApart.meet {l : List Instr} (h : GpApart l) : gpMeet l = l := by
  have hkeep : (fun i => gpAll i true l &&& gpAll i false l) = fun _ => 0 := by
    funext i
    refine BitVec.eq_of_getLsbD_eq fun k _ => (Bool.eq_false_iff.2 fun hk => ?_).trans BitVec.getLsbD_zero.symm
    rw [BitVec.getLsbD_and, Bool.and_eq_true_iff, getLsbD_gpAll, getLsbD_gpAll, List.any_eq_true, List.any_eq_true] at hk
    obtain ⟨⟨c, hc, hset⟩, d, hd, hclr⟩ := hk
    have hboth := congrArg (fun w : Word => w.getLsbD k) (h i c hc d hd)
    simp [hset, hclr] at hboth
  rw [gpMeet, hkeep]
  exact (List.map_congr_left fun c _ => gpLess_zero c).trans (List.map_id l)

/-- Above the aliased blocks every register has one address. -/
theorem eq_of_canonAddr {x y : Nat} (h : canonAddr x = y) (hy : 0x900000 ≤ y) : x = y := by
  simp only [canonAddr] at h
  split_ifs at h <;> omega

/-- A command does not set and clear one GP word. -/
theorem gpBits_self (i : Nat) (c : Instr) : gpBits i true c &&& gpBits i false c = 0 := by
  cases c with
  | gpSetWrite j v => simp [gpBits]
  | gpClrWrite j v => simp [gpBits]
  | registerWrite p a be v t =>
    by_cases hset : canonAddr (a / 4 * 4) = R.GP_SET i <;> simp [gpBits, hset]
  | _ => simp [gpBits]

theorem gpBits_readOf (i : Nat) (set : Bool) (p : Port) (a : Nat) (be : Fin 16) : gpBits i set (readOf p a be) = 0 := by
  rw [readOf]
  split <;> rfl

theorem gpBits_pcieReads (i : Nat) (set : Bool) (a : Nat) (l : List (Fin 16)) : ∀ c ∈ pcieReads a l, gpBits i set c = 0 := by
  induction l generalizing a with
  | nil => intro c hc; cases hc
  | cons be l ih =>
    intro c hc
    rcases List.mem_cons.1 hc with rfl | hc
    · exact gpBits_readOf i set _ a be
    · exact ih (a + 4) c hc

/-- GP_SET and GP_CLR of one word are two registers apart, so no two neighbouring registers are these two. -/
theorem gpBits_neighbours (i a b : Nat) (hab : b = a + 4 ∨ a = b + 4) (p q : Port) (x y : Fin 16) (v w : Word) (t u : Nat) :
    gpBits i true (.registerWrite p a x v t) &&& gpBits i false (.registerWrite q b y w u) = 0 := by
  by_cases hset : canonAddr (a / 4 * 4) = R.GP_SET i
  · by_cases hclr : canonAddr (b / 4 * 4) = R.GP_CLR i
    · have ha := eq_of_canonAddr hset (by simp only [R.GP_SET]; omega)
      have hb := eq_of_canonAddr hclr (by simp only [R.GP_CLR]; omega)
      simp only [R.GP_SET] at ha
      simp only [R.GP_CLR] at hb
      omega
    · simp [gpBits, hclr]
  · simp [gpBits, hset]

theorem gpApart_one (c : Instr) : GpApart [c] := by
  intro i x hx y hy
  rw [List.mem_singleton] at hx hy
  rw [hx, hy, gpBits_self]

theorem gpApart_read (c : Instr) (a : Nat) (l : List (Fin 16)) : GpApart (c :: pcieReads a l) := by
  intro i x hx y hy
  rcases List.mem_cons.1 hx with rfl | hx
  · rcases List.mem_cons.1 hy with rfl | hy
    · exact gpBits_self i _
    · rw [gpBits_pcieReads i false a l y hy]
      exact BitVec.and_zero
  · rw [gpBits_pcieReads i true a l x hx]
    exact BitVec.zero_and

theorem gpApart_writes (a t : Nat) (x y : Fin 16 × Word) :
    GpApart [.registerWrite .pcie a x.1 x.2 t, .registerWrite .pcie (a + 4) y.1 y.2 t] := by
  intro i c hc d hd
  simp only [List.mem_cons, List.not_mem_nil, or_false] at hc hd
  rcases hc with rfl | rfl <;> rcases hd with rfl | rfl
  · exact gpBits_self i _
  · exact gpBits_neighbours i _ _ (.inl rfl) _ _ _ _ _ _ _ _
  · exact gpBits_neighbours i _ _ (.inr rfl) _ _ _ _ _ _ _ _
  · exact gpBits_self i _

/-! ### The order of one cycle -/

/-- Accesses alone keep the arbiter's order. -/
theorem arrivalOrder_of_accesses {l : List Arrival} (hev : l.flatMap Arrival.events = []) :
    arrivalOrder l = gpMeet (l.flatMap (Arrival.accesses .msp) ++ l.flatMap (Arrival.accesses .pcie)) := by
  simp [arrivalOrder, hev]

theorem arrivalOrder_event_access (p : Port) (c e : Instr) :
    arrivalOrder [.event e, .access p c] = if clears c then [c, e] else [e, c] := by
  have hacc : [Arrival.event e, .access p c].flatMap (Arrival.accesses .msp) ++
      [Arrival.event e, .access p c].flatMap (Arrival.accesses .pcie) = [c] := by
    cases p <;> rfl
  have hev : [Arrival.event e, .access p c].flatMap Arrival.events = [e] := rfl
  rw [arrivalOrder, hacc, hev, (gpApart_one c).meet]
  simp only [List.any_cons, List.any_nil, Bool.or_false, List.cons_append, List.nil_append]

/-- The GP_SET and the GP_CLR of one cycle: the bits both name are taken out of both. -/
theorem gpMeet_clr_set (i : Fin 2) (v w : Word) : gpMeet [.gpClrWrite i w, .gpSetWrite i v] =
    [.gpClrWrite i (w &&& ~~~(v &&& w)), .gpSetWrite i (v &&& ~~~(v &&& w))] := by
  simp [gpMeet, gpLess, gpAll, gpBits]

/-- Settles O56: no command touches the queue by the law of its operation; what a cycle brings is apart in its GP bits in every
clause but the last, so that only the arbiter's order counts. -/
theorem noCommandTouchesTheQueue : Obligations.NoCommandTouchesTheQueue := by
  unfold Obligations.NoCommandTouchesTheQueue
  refine ⟨?queue, fun _ _ => rfl, ?read, ?write, arrivalOrder_event_access, ?meet⟩
  case queue =>
    intro i s t ht
    obtain ⟨u, hu, hkeeps⟩ := exec_keeps i s
    obtain rfl := Host.Outcome.next.inj (hu.symm.trans ht)
    exact hkeeps.queue
  case read =>
    intro a l c
    refine (arrivalOrder_of_accesses rfl).trans (Eq.trans ?_ (gpApart_read c a l).meet)
    simp [Arrival.accesses]
  case write =>
    intro a t x y
    exact (arrivalOrder_of_accesses rfl).trans (gpApart_writes a t x y).meet
  case meet =>
    intro i v w
    exact (arrivalOrder_of_accesses rfl).trans (gpMeet_clr_set i v w)

end Sys2Proof.Machine
end

section
/-! PROOFS. The status of a converter bank (R106), which shows in both of its heads' TC_STAT, and what differs after an operation of
the bank: registers and what the banks hold. -/

namespace Sys2Proof.Machine

/-! ### Fields of a word -/

theorem fieldOf_eq_div_mod (f : Fld) (w : Word) : fieldOf f w = w.toNat / 2 ^ f.lo % 2 ^ f.w := by
  rw [fieldOf, BitVec.extractLsb'_toNat, Nat.shiftRight_eq_div_pow]

/-- Writing the whole of a register's value into its field. -/
theorem State.get_put_of_lt (s : State) {f : Fld} {v : Nat} (hf : f.lo + f.w ≤ 32) (hv : v < 2 ^ f.w) :
    (s.put f v).get f = v :=
  (State.get_put_self s f v hf).trans (Nat.mod_eq_of_lt hv)

/-- A flag that is set reads 1, and its register is all that differs. -/
theorem State.put_flag (s : State) {f : Fld} (hf : f.lo + f.w ≤ 32) (hw : f.w = 1) :
    (s.put f 1).get f = 1 ∧ SameRegs [f.addr] s (s.put f 1) ∧ OnlyRegs s (s.put f 1) :=
  ⟨s.get_put_of_lt hf (by simp [hw]), (SameRegs.refl _ s).put f 1 (by simp), rfl⟩

/-! ### Fields of the bank status -/

/-- A field of TC_STAT, of each head. -/
structure BankFld (f : Nat → Fld) : Prop where
  addr : ∀ h, (f h).addr = R.TC_STAT h
  fits : ∀ h, (f h).lo + (f h).w ≤ 32

/-- The status registers of a region's two heads. -/
abbrev bankRegs (r : Nat) : List Nat := [R.TC_STAT (2 * r), R.TC_STAT (2 * r + 1)]

section
variable {f : Nat → Fld}

theorem BankFld.addr_ne (hf : BankFld f) (r : Nat) : (f (2 * r)).addr ≠ (f (2 * r + 1)).addr := by
  rw [hf.addr, hf.addr]; simp only [R.TC_STAT]; omega

/-- A bank field reads in the even head as it was set. -/
theorem State.get_putBank_even (s : State) (hf : BankFld f) (r v : Nat) :
    (s.putBank r f v).get (f (2 * r)) = v % 2 ^ (f (2 * r)).w := by
  rw [State.putBank, State.get_put_reg _ _ _ _ (hf.addr_ne r), State.get_put_self _ _ _ (hf.fits _)]

/-- A bank field reads in the odd head as it was set. -/
theorem State.get_putBank_odd (s : State) (hf : BankFld f) (r v : Nat) :
    (s.putBank r f v).get (f (2 * r + 1)) = v % 2 ^ (f (2 * r + 1)).w :=
  State.get_put_self _ _ _ (hf.fits _)

/-- A field that shares no bit with the bank field is as it was. -/
theorem State.get_putBank_disjoint (s : State) (r v : Nat) {g : Fld}
    (hg : ∀ h, g.addr = (f h).addr → g.lo + g.w ≤ (f h).lo ∨ (f h).lo + (f h).w ≤ g.lo) :
    (s.putBank r f v).get g = s.get g := by
  rw [State.putBank, State.get_put_disjoint _ _ _ _ (hg _), State.get_put_disjoint _ _ _ _ (hg _)]

theorem SameRegs.putBank {l : List Nat} {s t : State} (h : SameRegs l s t) (hf : BankFld f) (r v : Nat)
    (hl : ∀ a ∈ bankRegs r, a ∈ l) : SameRegs l s (t.putBank r f v) :=
  (h.put _ _ (hl _ (by rw [hf.addr]; simp))).put _ _ (hl _ (by rw [hf.addr]; simp))

theorem OnlyRegs.putBank {s t : State} (h : OnlyRegs s t) (r v : Nat) : OnlyRegs s (t.putBank r f v) :=
  (h.put _ _).put _ _

/-- A bank flag that is set reads 1 in both heads, and their status is all that differs. -/
theorem State.putBank_flag (s : State) (hf : BankFld f) (hw : ∀ h, (f h).w = 1) (r : Nat) :
    (s.putBank r f 1).get (f (2 * r)) = 1 ∧ (s.putBank r f 1).get (f (2 * r + 1)) = 1 ∧
      SameRegs (bankRegs r) s (s.putBank r f 1) ∧ OnlyRegs s (s.putBank r f 1) :=
  ⟨by rw [s.get_putBank_even hf, hw]; rfl, by rw [s.get_putBank_odd hf, hw]; rfl,
    (SameRegs.refl _ s).putBank hf r 1 fun _ => id, OnlyRegs.putBank (Eq.refl s) r 1⟩

end

theorem bankFld_directRefused : BankFld F.TC_STAT_DIRECT_REFUSED := ⟨fun _ => rfl, by simp⟩
theorem bankFld_valueRej : BankFld F.TC_STAT_VALUE_REJ := ⟨fun _ => rfl, by simp⟩
theorem bankFld_calResult : BankFld F.TC_STAT_CALRESULT := ⟨fun _ => rfl, by simp⟩
theorem bankFld_sclkFallback : BankFld F.TC_STAT_SCLK_FALLBACK := ⟨fun _ => rfl, by simp⟩
theorem bankFld_refFallback : BankFld F.TC_STAT_REF_FALLBACK := ⟨fun _ => rfl, by simp⟩
theorem bankFld_sclkLock : BankFld F.TC_STAT_SCLK_LOCK := ⟨fun _ => rfl, by simp⟩
theorem bankFld_refok : BankFld F.TC_STAT_REFOK := ⟨fun _ => rfl, by simp⟩
theorem bankFld_calBusy : BankFld F.TC_STAT_CALBUSY := ⟨fun _ => rfl, by simp⟩

/-! ### Registers and banks -/

theorem OnlyRegs.bank {s t : State} (h : OnlyRegs s t) (r : Nat) : t.bank r = s.bank r := by
  rw [OnlyRegs] at h
  rw [h]
  rfl

/-- Registers and what the banks hold are all that differs. -/
def BankWork (s t : State) : Prop := t = { s with regs := t.regs, banks := t.banks }

theorem BankWork.trans {s t u : State} (h : BankWork s t) (g : BankWork t u) : BankWork s u :=
  Eq.trans g (congrArg (fun x : State => { x with regs := u.regs, banks := u.banks }) h)

namespace BankWork

variable {s t : State}

theorem refl (s : State) : BankWork s s := Eq.refl s

theorem put (h : BankWork s t) (f : Fld) (v : Nat) : BankWork s (t.put f v) := h.trans (Eq.refl (t.put f v))

theorem modBank (h : BankWork s t) (r : Nat) (f : Bank → Bank) : BankWork s (t.modBank r f) := h.trans (Eq.refl (t.modBank r f))

theorem putBank (h : BankWork s t) (r : Nat) (f : Nat → Fld) (v : Nat) : BankWork s (t.putBank r f v) := (h.put _ _).put _ _

theorem putValid (h : BankWork s t) (r : Nat) (f : Nat → Fld) (v : Nat) : BankWork s (t.putValid r f v) :=
  (h.putBank r f v).trans (Eq.refl ((t.putBank r f v).noteOutage r))

end BankWork

theorem SameRegs.modBank {l : List Nat} {s t : State} (h : SameRegs l s t) (r : Nat) (f : Bank → Bank) :
    SameRegs l s (t.modBank r f) := fun a ha => (State.modBank_reg t r f a).trans (h a ha)

theorem OnlyRegs.bankWork {s t : State} (h : OnlyRegs s t) : BankWork s t :=
  Eq.trans h (congrArg (fun x : State => { s with regs := t.regs, banks := x.banks }) h.symm)

/-! ### REFOK and SCLK_LOCK (Table 3-2) -/

/-- Setting REFOK or SCLK_LOCK notes what becomes of the region's outages, and nothing else of its bank changes. -/
theorem State.putValid_bank (s : State) {r : Nat} (hr : r < 4) (f : Nat → Fld) (v : Nat) :
    ∃ o, (s.putValid r f v).bank r = { s.bank r with outages := o } := by
  refine ⟨((s.putValid r f v).bank r).outages, ?_⟩
  rw [State.putValid, State.noteOutage, State.bank_modBank_self _ _ _ hr]
  dsimp only
  split
  · rfl
  · split <;> rfl

theorem State.putValid_get (s : State) (r v : Nat) (f : Nat → Fld) (g : Fld) :
    (s.putValid r f v).get g = (s.putBank r f v).get g := rfl

theorem SameRegs.putValid {l : List Nat} {s t : State} {f : Nat → Fld} (h : SameRegs l s t) (hf : BankFld f) (r v : Nat)
    (hl : ∀ a ∈ bankRegs r, a ∈ l) : SameRegs l s (t.putValid r f v) :=
  h.putBank hf r v hl

/-! ### The sample clock's frame period (R108) -/

theorem State.fperNote_onlyRegs (s : State) (h : Nat) : OnlyRegs s (s.fperNote h) := by
  rw [State.fperNote]
  split
  · rfl
  · split <;> rfl

theorem State.fperNote_sameRegs (s : State) (h : Nat) : SameRegs [R.HP_TSTAT h] s (s.fperNote h) := by
  rw [State.fperNote]
  split
  · exact (SameRegs.refl _ s).put _ _ (by simp)
  · split
    · exact (SameRegs.refl _ s).put _ _ (by simp)
    · exact SameRegs.refl _ s

end Sys2Proof.Machine
end

section
/-! PROOFS. Writes of the converters' gain and filter, of the sample clock and of the analog reference (R82 to R89), and the statement
on them. -/

namespace Sys2Proof.Machine

/-! ### Gain and filter (R82, R83, R85) -/

/-- The marks of what settles are the head's. -/
theorem State.markInv_frame (s : State) (h mask n t : Nat) :
    s.markInv h mask n t = { s with heads := (s.markInv h mask n t).heads } := by
  rw [State.markInv]
  split <;> rfl

theorem State.settleMarks_frame (s old : State) (h t : Nat) :
    s.settleMarks old h t = { s with heads := (s.settleMarks old h t).heads } := by
  simp only [State.settleMarks]
  split
  · exact State.markInv_frame _ _ _ _ _
  · rw [State.markInv_frame, State.markInv_frame s]

theorem State.settleMarks_reg (s old : State) (h t a : Nat) : (s.settleMarks old h t).reg a = s.reg a := by
  rw [State.settleMarks_frame]; rfl

theorem State.settleMarks_get (s old : State) (h t : Nat) (f : Fld) : (s.settleMarks old h t).get f = s.get f := by
  rw [State.settleMarks_frame]; rfl

/-- TC_CFG takes the low five bits of a word written. -/
theorem withField_low_five (a : Nat) (v w : Word) : withField ⟨a, 0, 5⟩ v.toNat w = (w &&& 0xFFFFFFE0) ||| (v &&& 0x1F) := by
  have hmask : (BitVec.allOnes 5).setWidth 32 <<< 0 = (0x1F : Word) := by decide
  simp only [withField, hmask, BitVec.ofNat_toNat, BitVec.setWidth_eq, BitVec.shiftLeft_zero]
  rfl

section
variable {h : Head} {v : Word} {s : State}

theorem exec_tcCfgWrite_refused (ha : s.access (R.TC_CFG h) = true) (hm : s.mode ≠ .setup) :
    exec (.tcCfgWrite h v) s = .next (s.put (F.TC_STAT_DIRECT_REFUSED h) 1) := by
  show Host.Outcome.next (tcCfgWrite h v s) = _
  rw [tcCfgWrite, State.whenever_pos _ _ _ ha]
  simp [hm]

theorem exec_tcCfgWrite_rejected (ha : s.access (R.TC_CFG h) = true) (hm : s.mode = .setup)
    (hg : s.gainsOk h (s.get (F.TC_GAIN0_G h)) (s.get (F.TC_GAIN1_G h)) (v.toNat / 4 % 4) = false) :
    exec (.tcCfgWrite h v) s = .next (s.put (F.TC_STAT_VALUE_REJ h) 1) := by
  show Host.Outcome.next (tcCfgWrite h v s) = _
  rw [tcCfgWrite, State.whenever_pos _ _ _ ha]
  simp [hm, fieldOf_eq_div_mod, hg]

theorem exec_tcCfgWrite_stored (ha : s.access (R.TC_CFG h) = true) (hm : s.mode = .setup)
    (hg : s.gainsOk h (s.get (F.TC_GAIN0_G h)) (s.get (F.TC_GAIN1_G h)) (v.toNat / 4 % 4) = true) :
    exec (.tcCfgWrite h v) s = .next (((s.put ⟨R.TC_CFG h, 0, 5⟩ v.toNat).syncGain h).settleMarks s h s.dt) := by
  show Host.Outcome.next (tcCfgWrite h v s) = _
  rw [tcCfgWrite, State.whenever_pos _ _ _ ha]
  simp [hm, fieldOf_eq_div_mod, hg]

variable {i : Fin 2}

/-- The words of TC_GAIN0 and TC_GAIN1 when a write of one of them is stored. -/
abbrev gainWord0 (s : State) (h : Head) (i : Fin 2) (v : Word) : Nat := if i = 0 then v.toNat else s.get (F.TC_GAIN0_G h)
abbrev gainWord1 (s : State) (h : Head) (i : Fin 2) (v : Word) : Nat := if i = 0 then s.get (F.TC_GAIN1_G h) else v.toNat

theorem gainWord0_lt (s : State) (h : Head) (i : Fin 2) (v : Word) : gainWord0 s h i v < 2 ^ 32 := by
  rw [gainWord0]
  split
  · exact v.isLt
  · exact s.get_lt (F.TC_GAIN0_G h)

theorem gainWord1_lt (s : State) (h : Head) (i : Fin 2) (v : Word) : gainWord1 s h i v < 2 ^ 32 := by
  rw [gainWord1]
  split
  · exact s.get_lt (F.TC_GAIN1_G h)
  · exact v.isLt

theorem exec_tcGainWrite_refused (ha : s.access (R.TC_GAIN0 h) = true) (hm : s.mode ≠ .setup) :
    exec (.tcGainWrite h i v) s = .next (s.put (F.TC_STAT_DIRECT_REFUSED h) 1) := by
  show Host.Outcome.next (tcGainWrite h i v s) = _
  rw [tcGainWrite, State.whenever_pos _ _ _ ha]
  simp [hm]

theorem exec_tcGainWrite_rejected (ha : s.access (R.TC_GAIN0 h) = true) (hm : s.mode = .setup)
    (hg : s.gainsOk h (gainWord0 s h i v) (gainWord1 s h i v) (s.get (F.TC_CFG_RATIO h)) = false) :
    exec (.tcGainWrite h i v) s = .next (s.put (F.TC_STAT_VALUE_REJ h) 1) := by
  show Host.Outcome.next (tcGainWrite h i v s) = _
  rw [tcGainWrite, State.whenever_pos _ _ _ ha]
  simp [hm, hg]

theorem exec_tcGainWrite_stored (ha : s.access (R.TC_GAIN0 h) = true) (hm : s.mode = .setup)
    (hg : s.gainsOk h (gainWord0 s h i v) (gainWord1 s h i v) (s.get (F.TC_CFG_RATIO h)) = true) :
    exec (.tcGainWrite h i v) s = .next ((((s.put (F.TC_GAIN0_G h) (gainWord0 s h i v)).put (F.TC_GAIN1_G h)
      (gainWord1 s h i v)).syncGain h).settleMarks s h s.dt) := by
  show Host.Outcome.next (tcGainWrite h i v s) = _
  rw [tcGainWrite, State.whenever_pos _ _ _ ha]
  simp [hm, hg]

end

/-! ### The gain and filter change of a transaction (R85) -/

theorem exec_pgaFilterChange {h : Head} {n : Nat} {s : State} (t : Nat) (hn : s.pgaTxn h = some n)
    (he : (s.txn n).pgaEntries h ≠ []) (hd : ((s.txn n).heads.all fun x => x.done) = true)
    (hb : (s.head h).blankFrom.isSome = true) (hp : (s.head h).pgaDone = false) :
    exec (.pgaFilterChange h t) s = .next ((s.at t).modHead h fun u =>
      { u with pgaDone := true, pgaHandle := n
               invMarks := ((((s.candidate ((s.txn n).pgaEntries h)).syncGain h).settleMarks s h t).head h).invMarks }) := by
  have hopen : (!((s.txn n).pgaEntries h).isEmpty && (s.txn n).heads.all (fun x => x.done) &&
      (s.head h).blankFrom.isSome && !(s.head h).pgaDone) = true := by
    simp [he, hd, hb, hp]
  show Host.Outcome.next (pgaFilterChange h t s) = _
  simp only [pgaFilterChange, hn]
  rw [State.whenever_pos _ _ _ hopen]

/-! ### The sample clock (R86) -/

/-- The sample clock with a frequency and a source set, before the frame periods of its heads are judged. -/
def State.sclkSet (s : State) (r freq src : Nat) : State :=
  ((((s.put (F.TC_SCLK_FREQ r) freq).put (F.TC_SCLK_SRC r) src).putValid r F.TC_STAT_SCLK_LOCK 0).putBank r
    F.TC_STAT_SCLK_FALLBACK 0).modBank r fun b => { b with lockWait := freq != 0 }

/-- What setting the sample clock leaves. -/
structure SclkSet (r f v : Nat) (s t : State) : Prop where
  freq : t.get (F.TC_SCLK_FREQ r) = f
  src : t.get (F.TC_SCLK_SRC r) = v
  lockEven : t.get (F.TC_STAT_SCLK_LOCK (2 * r)) = 0
  lockOdd : t.get (F.TC_STAT_SCLK_LOCK (2 * r + 1)) = 0
  lockWait : (t.bank r).lockWait = (f != 0)
  regs : SameRegs [R.TC_SCLK r, R.TC_STAT (2 * r), R.TC_STAT (2 * r + 1), R.HP_TSTAT (2 * r), R.HP_TSTAT (2 * r + 1)] s t
  work : BankWork s t

theorem State.sclkSet_set (s : State) {r freq src : Nat} (hr : r < 4) (hf : freq < 2 ^ 14) (hs : src < 2) :
    SclkSet r freq src s (s.sclkSet r freq src) := by
  have hbank : BankWork s (s.sclkSet r freq src) :=
    (((((BankWork.refl s).put _ _).put _ _).putValid _ _ _).putBank _ _ _).modBank _ _
  have hlock : ∀ g : Fld, (∀ h, g.addr = R.TC_STAT h → g.lo + g.w ≤ 27 ∨ 28 ≤ g.lo) → (s.sclkSet r freq src).get g =
      (((s.put (F.TC_SCLK_FREQ r) freq).put (F.TC_SCLK_SRC r) src).putBank r F.TC_STAT_SCLK_LOCK 0).get g :=
    fun g hg => by
      rw [State.sclkSet, State.modBank_get, State.get_putBank_disjoint _ r 0 hg, State.putValid_get]
  have hclock : ∀ g : Fld, (∀ h, g.addr ≠ R.TC_STAT h) → (s.sclkSet r freq src).get g =
      ((s.put (F.TC_SCLK_FREQ r) freq).put (F.TC_SCLK_SRC r) src).get g := fun g hg =>
    (hlock g fun h e => absurd e (hg h)).trans (State.get_putBank_disjoint _ r 0 fun h e => absurd e (hg h))
  exact
    { freq := by
        rw [hclock _ fun h => by simp only [R.TC_SCLK, R.TC_STAT]; omega,
          State.get_put_disjoint _ _ _ _ fun _ => .inl (by simp), State.get_put_of_lt _ (by simp) hf]
      src := by
        rw [hclock _ fun h => by simp only [R.TC_SCLK, R.TC_STAT]; omega, State.get_put_of_lt _ (by simp) hs]
      lockEven := by
        rw [hlock _ fun _ _ => .inr (by simp), State.get_putBank_even _ bankFld_sclkLock, Nat.zero_mod]
      lockOdd := by
        rw [hlock _ fun _ _ => .inr (by simp), State.get_putBank_odd _ bankFld_sclkLock, Nat.zero_mod]
      lockWait := by rw [State.sclkSet, State.bank_modBank_self _ _ _ hr]
      regs := (((((SameRegs.refl _ s).put _ _ (by simp)).put _ _ (by simp)).putValid bankFld_sclkLock r 0 (by simp)).putBank
        bankFld_sclkFallback r 0 (by simp)).modBank _ _
      work := hbank }

/-- Judging a head's frame period touches nothing of the sample clock. -/
theorem SclkSet.fperNote {r freq src : Nat} {s t : State} (c : SclkSet r freq src s t) {h : Nat} (hh : h = 2 * r ∨ h = 2 * r + 1) :
    SclkSet r freq src s (t.fperNote h) := by
  have hnote := t.fperNote_sameRegs h
  have honly := t.fperNote_onlyRegs h
  have hclock : ∀ g : Fld, g.addr = R.TC_SCLK r → (t.fperNote h).get g = t.get g := fun g hg =>
    hnote.get g (by rw [hg]; simp only [R.TC_SCLK, R.HP_TSTAT, List.mem_singleton]; omega)
  have hstat : ∀ (k : Nat) (g : Fld), g.addr = R.TC_STAT k → (t.fperNote h).get g = t.get g := fun k g hg =>
    hnote.get g (by rw [hg]; simp only [R.TC_STAT, R.HP_TSTAT, List.mem_singleton]; omega)
  exact
    { freq := (hclock _ rfl).trans c.freq
      src := (hclock _ rfl).trans c.src
      lockEven := (hstat _ _ rfl).trans c.lockEven
      lockOdd := (hstat _ _ rfl).trans c.lockOdd
      lockWait := by rw [honly.bank]; exact c.lockWait
      regs := c.regs.trans (hnote.mono (by rcases hh with rfl | rfl <;> simp))
      work := c.work.trans honly.bankWork }

section
variable {r : Region} {v : Word} {s : State}

theorem exec_tcSclkWrite_refused (ha : s.access (R.TC_SCLK r) = true) (hm : s.mode ≠ .setup) :
    exec (.tcSclkWrite r v) s = .next (s.putBank r F.TC_STAT_DIRECT_REFUSED 1) := by
  show Host.Outcome.next (tcSclkWrite r v s) = _
  rw [tcSclkWrite, State.whenever_pos _ _ _ ha]
  simp [hm, State.bankRefuse]

theorem exec_tcSclkWrite_rejected (ha : s.access (R.TC_SCLK r) = true) (hm : s.mode = .setup) (h0 : v.toNat % 16384 ≠ 0)
    (hv : v.toNat % 16384 < 1000 ∨ 10000 < v.toNat % 16384) :
    exec (.tcSclkWrite r v) s = .next (s.putBank r F.TC_STAT_VALUE_REJ 1) := by
  show Host.Outcome.next (tcSclkWrite r v s) = _
  rw [tcSclkWrite, State.whenever_pos _ _ _ ha]
  simp [hm, fieldOf_eq_div_mod, h0, hv, State.bankReject]

theorem exec_tcSclkWrite_taken (ha : s.access (R.TC_SCLK r) = true) (hm : s.mode = .setup)
    (hv : v.toNat % 16384 = 0 ∨ 1000 ≤ v.toNat % 16384 ∧ v.toNat % 16384 ≤ 10000) :
    exec (.tcSclkWrite r v) s = .next (((s.sclkSet r (v.toNat % 16384) (v.toNat / 65536 % 2)).fperNote (2 * r)).fperNote
      (2 * r + 1)) := by
  have hok : ¬ (v.toNat % 16384 ≠ 0 ∧ (v.toNat % 16384 < 1000 ∨ 10000 < v.toNat % 16384)) := by omega
  have hfreq : fieldOf ⟨0, 0, 14⟩ v = v.toNat % 16384 := by simp [fieldOf_eq_div_mod]
  have hsrc : fieldOf ⟨0, 16, 1⟩ v = v.toNat / 65536 % 2 := by simp [fieldOf_eq_div_mod]
  show Host.Outcome.next (tcSclkWrite r v s) = _
  rw [tcSclkWrite, State.whenever_pos _ _ _ ha]
  simp only [hfreq, hsrc, hm, bne_self_eq_false, Bool.false_eq_true, if_false, if_neg hok, State.sclkSet]

/-! ### The analog reference (R89) -/

theorem exec_tcRefcfgWrite_refused (ha : s.access (R.TC_REFCFG r) = true)
    (hm : s.mode ≠ .setup ∨ s.bankFlag r F.TC_STAT_CALBUSY = true) :
    exec (.tcRefcfgWrite r v) s = .next (s.putBank r F.TC_STAT_DIRECT_REFUSED 1) := by
  have hrefuse : (s.mode != .setup || s.bankFlag r F.TC_STAT_CALBUSY) = true := by simpa using hm
  show Host.Outcome.next (tcRefcfgWrite r v s) = _
  rw [tcRefcfgWrite, State.whenever_pos _ _ _ ha]
  simp [hrefuse, State.bankRefuse]

theorem exec_tcRefcfgWrite_rejected (ha : s.access (R.TC_REFCFG r) = true) (hm : s.mode = .setup)
    (hb : s.bankFlag r F.TC_STAT_CALBUSY = false) (hv : v.toNat % 4 = 3) :
    exec (.tcRefcfgWrite r v) s = .next (s.putBank r F.TC_STAT_VALUE_REJ 1) := by
  show Host.Outcome.next (tcRefcfgWrite r v s) = _
  rw [tcRefcfgWrite, State.whenever_pos _ _ _ ha]
  simp [hm, hb, fieldOf_eq_div_mod, hv, State.bankReject]

/-- A reference source is selected: REF_FALLBACK clears, and REFOK until it has settled. -/
def State.refSelect (s : State) (r src : Nat) : State :=
  ((s.put (F.TC_REFCFG_SRC r) src).putBank r F.TC_STAT_REF_FALLBACK 0).refSettle r (settleNs src)

theorem exec_tcRefcfgWrite_taken (ha : s.access (R.TC_REFCFG r) = true) (hm : s.mode = .setup)
    (hb : s.bankFlag r F.TC_STAT_CALBUSY = false) (hv : v.toNat % 4 ≠ 3) :
    exec (.tcRefcfgWrite r v) s = .next (s.refSelect r (v.toNat % 4)) := by
  show Host.Outcome.next (tcRefcfgWrite r v s) = _
  rw [tcRefcfgWrite, State.whenever_pos _ _ _ ha]
  simp [hm, hb, fieldOf_eq_div_mod, hv, State.refSelect]

end

/-- REFOK clears until the settle time has passed; the rest of the bank is as it was but for its outages. -/
theorem State.refSettle_bank (s : State) {r : Nat} (hr : r < 4) (ns : Nat) :
    ∃ o, (s.refSettle r ns).bank r = { s.bank r with outages := o, refDue := some (s.dt + ns) } := by
  obtain ⟨o, ho⟩ := s.putValid_bank hr F.TC_STAT_REFOK 0
  refine ⟨o, ?_⟩
  rw [State.refSettle, State.bank_modBank_self _ _ _ hr, ho]

theorem State.refSettle_get (s : State) (r ns : Nat) (g : Fld) :
    (s.refSettle r ns).get g = (s.putBank r F.TC_STAT_REFOK 0).get g := by
  rw [State.refSettle, State.modBank_get, State.putValid_get]

theorem SameRegs.refSettle {l : List Nat} {s t : State} (h : SameRegs l s t) (r ns : Nat) (hl : ∀ a ∈ bankRegs r, a ∈ l) :
    SameRegs l s (t.refSettle r ns) := (h.putValid bankFld_refok r 0 hl).modBank _ _

theorem BankWork.refSettle {s t : State} (h : BankWork s t) (r ns : Nat) : BankWork s (t.refSettle r ns) :=
  (h.putValid _ _ _).modBank _ _

/-- What selecting a reference source leaves. -/
structure RefSelected (r v : Nat) (s t : State) : Prop where
  src : t.get (F.TC_REFCFG_SRC r) = v
  refokEven : t.get (F.TC_STAT_REFOK (2 * r)) = 0
  refokOdd : t.get (F.TC_STAT_REFOK (2 * r + 1)) = 0
  fallback : t.get (F.TC_STAT_REF_FALLBACK (2 * r)) = 0
  due : (t.bank r).refDue = some (s.dt + settleNs v)
  regs : SameRegs [R.TC_REFCFG r, R.TC_STAT (2 * r), R.TC_STAT (2 * r + 1)] s t
  work : BankWork s t

theorem State.refSelect_selected (s : State) {r src : Nat} (hr : r < 4) (hs : src < 4) :
    RefSelected r src s (s.refSelect r src) where
  src := by
    have hne : ∀ h, R.TC_REFCFG r ≠ R.TC_STAT h := fun h => by simp only [R.TC_REFCFG, R.TC_STAT]; omega
    rw [State.refSelect, State.refSettle_get, State.get_putBank_disjoint _ r 0 fun h e => absurd e (hne h),
      State.get_putBank_disjoint _ r 0 fun h e => absurd e (hne h), State.get_put_of_lt _ (by simp) hs]
  refokEven := by rw [State.refSelect, State.refSettle_get, State.get_putBank_even _ bankFld_refok, Nat.zero_mod]
  refokOdd := by rw [State.refSelect, State.refSettle_get, State.get_putBank_odd _ bankFld_refok, Nat.zero_mod]
  fallback := by
    rw [State.refSelect, State.refSettle_get, State.get_putBank_disjoint _ r 0 fun _ _ => .inl (by simp),
      State.get_putBank_even _ bankFld_refFallback, Nat.zero_mod]
  due := by
    obtain ⟨o, ho⟩ := State.refSettle_bank ((s.put (F.TC_REFCFG_SRC r) src).putBank r F.TC_STAT_REF_FALLBACK 0) hr (settleNs src)
    rw [State.refSelect, ho, State.putBank, State.put_dt, State.put_dt, State.put_dt]
  regs := (((SameRegs.refl _ s).put _ _ (by simp)).putBank bankFld_refFallback r 0 (by simp)).refSettle r _ (by simp)
  work := (((BankWork.refl s).put _ _).putBank _ _ _).refSettle _ _

/-- Settles O11: each write by the one of its cases that holds, a refusal and a rejection by the flag they set, a write that is taken by
what it stores. -/
theorem converterAndClockWrites : Obligations.ConverterAndClockWrites := by
  unfold Obligations.ConverterAndClockWrites
  refine ⟨?cfgRefused, ?cfgStored, ?cfgRejected, ?gainRefused, ?gainStored, ?gainRejected, ?change, ?sclkTaken, ?sclkRejected,
    ?sclkRefused, ?refRejected, ?refTaken, ?refRefused⟩
  case cfgRefused =>
    intro h v s ha hm
    exact ⟨_, exec_tcCfgWrite_refused ha hm, s.put_flag (by simp) rfl⟩
  case cfgStored =>
    intro h v s ha hm hg
    refine ⟨_, exec_tcCfgWrite_stored ha hm hg, ?_, fun a hmem => ?_, ?_⟩
    · rw [State.settleMarks_reg, State.syncGain, State.reg_put_other _ _ _ _ (by simp)]
      exact (State.reg_put_self _ _ _).trans (withField_low_five _ _ _)
    · rw [State.settleMarks_reg]
      exact (((SameRegs.refl _ s).put ⟨R.TC_CFG h, 0, 5⟩ _ (by simp)).put (F.TC_GEFF1_E h) _ (by simp)) a hmem
    · rw [State.settleMarks_frame]
      rfl
  case cfgRejected =>
    intro h v s ha hm hg
    exact ⟨_, exec_tcCfgWrite_rejected ha hm hg, s.put_flag (by simp) rfl⟩
  case gainRefused =>
    intro h i v s ha hm
    exact ⟨_, exec_tcGainWrite_refused ha hm, s.put_flag (by simp) rfl⟩
  case gainStored =>
    intro h i v s ha hm hg
    refine ⟨_, exec_tcGainWrite_stored ha hm hg, ?_, ?_, fun a hmem => ?_, ?_⟩
    · rw [State.settleMarks_get, State.syncGain, State.get_put_reg _ _ _ _ (by simp), State.get_put_reg _ _ _ _ (by simp)]
      exact State.get_put_of_lt _ (by simp) (gainWord0_lt s h i v)
    · rw [State.settleMarks_get, State.syncGain, State.get_put_reg _ _ _ _ (by simp)]
      exact State.get_put_of_lt _ (by simp) (gainWord1_lt s h i v)
    · rw [State.settleMarks_reg]
      exact ((((SameRegs.refl _ s).put (F.TC_GAIN0_G h) _ (by simp)).put (F.TC_GAIN1_G h) _ (by simp)).put (F.TC_GEFF1_E h) _
        (by simp)) a hmem
    · rw [State.settleMarks_frame]
      rfl
  case gainRejected =>
    intro h i v s ha hm hg
    exact ⟨_, exec_tcGainWrite_rejected ha hm hg, s.put_flag (by simp) rfl⟩
  case change =>
    intro h t n s hn he hd hb hp
    exact ⟨_, exec_pgaFilterChange t hn he hd hb hp, congrArg HeadUnit.pgaDone (State.head_modHead_self _ _ _ h.isLt), rfl⟩
  case sclkTaken =>
    intro r v s ha hm hv
    have c := ((s.sclkSet_set r.isLt (Nat.mod_lt v.toNat (by decide)) (Nat.mod_lt (v.toNat / 65536) (by decide))).fperNote
      (.inl rfl)).fperNote (.inr rfl)
    exact ⟨_, exec_tcSclkWrite_taken ha hm hv, c.freq, c.src, c.lockEven, c.lockOdd, c.lockWait, c.regs, c.work⟩
  case sclkRejected =>
    intro r v s ha hm h0 hv
    exact ⟨_, exec_tcSclkWrite_rejected ha hm h0 hv, s.putBank_flag bankFld_valueRej (fun _ => rfl) r⟩
  case sclkRefused =>
    intro r v s ha hm
    exact ⟨_, exec_tcSclkWrite_refused ha hm, s.putBank_flag bankFld_directRefused (fun _ => rfl) r⟩
  case refRejected =>
    intro r v s ha hm hb hv
    exact ⟨_, exec_tcRefcfgWrite_rejected ha hm hb hv, s.putBank_flag bankFld_valueRej (fun _ => rfl) r⟩
  case refTaken =>
    intro r v s ha hm hb hv
    have c := s.refSelect_selected r.isLt (Nat.mod_lt v.toNat (by decide : 0 < 4))
    exact ⟨_, exec_tcRefcfgWrite_taken ha hm hb hv, c.src, c.refokEven, c.refokOdd, c.fallback, c.due, c.regs, c.work⟩
  case refRefused =>
    intro r v s ha hm
    exact ⟨_, exec_tcRefcfgWrite_refused ha hm, s.putBank_flag bankFld_directRefused (fun _ => rfl) r⟩

end Sys2Proof.Machine
end

section
/-! PROOFS. What the release of a frame that a calibration alone held (R99) may do: it captures the frame, and touches no status of a
converter bank and no report. -/

namespace Sys2Proof.Machine

/-- Which head's frame it is, whether it has been reported, and whether it is degraded. -/
def Frame.marks (f : Frame) : Nat × Bool × Bool := (f.head, f.reported, f.degraded)

/-- What comes of `a` while frames are released: the banks and their status, and the waiting reports, are as they were, and every
frame is marked as one of `a`. -/
structure ReleaseWork (a s : State) : Prop where
  frame : s = { a with
    regs := s.regs, freeCnt := s.freeCnt, dram := s.dram, heads := s.heads, shutters := s.shutters, pairVer := s.pairVer,
    rings := s.rings, frames := s.frames }
  status : ∀ k, s.reg (R.TC_STAT k) = a.reg (R.TC_STAT k)
  marks : ∀ f ∈ s.frames, ∃ g ∈ a.frames, f.marks = g.marks

namespace ReleaseWork

theorem refl (s : State) : ReleaseWork s s := ⟨Eq.refl s, fun _ => Eq.refl _, fun f hf => ⟨f, hf, Eq.refl _⟩⟩

variable {a s t : State}

/-- A change of what a release may change, by which no frame is marked otherwise. -/
theorem step (w : ReleaseWork a s) (hf : t = { s with
      regs := t.regs, freeCnt := t.freeCnt, dram := t.dram, heads := t.heads, shutters := t.shutters, pairVer := t.pairVer,
      rings := t.rings, frames := t.frames }) (hr : ∀ k, t.reg (R.TC_STAT k) = s.reg (R.TC_STAT k))
    (hm : ∀ f ∈ t.frames, ∃ g ∈ a.frames, f.marks = g.marks) : ReleaseWork a t where
  frame := Eq.trans hf (congrArg (fun x : State => { x with
    regs := t.regs, freeCnt := t.freeCnt, dram := t.dram, heads := t.heads, shutters := t.shutters, pairVer := t.pairVer,
    rings := t.rings, frames := t.frames }) w.frame)
  status k := (hr k).trans (w.status k)
  marks := hm

/-! The state's own updates. -/

theorem put (w : ReleaseWork a s) (f : Fld) (v : Nat) (hf : ∀ k, R.TC_STAT k ≠ f.addr) : ReleaseWork a (s.put f v) :=
  w.step rfl (fun k => State.reg_put_other s f v _ (hf k)) w.marks

theorem put64 (w : ReleaseWork a s) (lo hi : Fld) (v : Nat) (hl : ∀ k, R.TC_STAT k ≠ lo.addr) (hh : ∀ k, R.TC_STAT k ≠ hi.addr) :
    ReleaseWork a (s.put64 lo hi v) :=
  ((w.put lo _ hl).put hi _ hh).step rfl (fun _ => rfl) w.marks

theorem modHead (w : ReleaseWork a s) (h : Nat) (f : HeadUnit → HeadUnit) : ReleaseWork a (s.modHead h f) :=
  w.step rfl (fun _ => rfl) w.marks

theorem modShut (w : ReleaseWork a s) (h : Nat) (f : Shutter → Shutter) : ReleaseWork a (s.modShut h f) :=
  w.step rfl (fun _ => rfl) w.marks

theorem dramWriteRaw (w : ReleaseWork a s) (x : Nat) (bs : List Byte) : ReleaseWork a (s.dramWriteRaw x bs) :=
  w.step rfl (fun _ => rfl) w.marks

theorem freshUpTo (w : ReleaseWork a s) (b : Nat) : ReleaseWork a (s.freshUpTo b).2 := w.step rfl (fun _ => rfl) w.marks

/-- Frames that are replaced stay marked as frames of `a` were. -/
theorem modFrame (w : ReleaseWork a s) (h seq : Nat) {φ : Frame → Frame}
    (hφ : ∀ x ∈ s.frames, ∃ g ∈ a.frames, (φ x).marks = g.marks) : ReleaseWork a (s.modFrame h seq φ) := by
  refine w.step rfl (fun _ => rfl) fun f hf => ?_
  obtain ⟨x, hx, rfl⟩ := List.mem_map.1 hf
  split
  · exact hφ x hx
  · exact w.marks x hx

theorem ite {c : Prop} [Decidable c] (hs : ReleaseWork a s) (ht : ReleaseWork a t) : ReleaseWork a (if c then s else t) := by
  split <;> assumption

theorem ite2 {α : Type} {p q : α × State} {c : Prop} [Decidable c] (hp : ReleaseWork a p.2) (hq : ReleaseWork a q.2) :
    ReleaseWork a (if c then p else q).2 := by
  split <;> assumption

theorem pair {α : Type} {x : α} (w : ReleaseWork a s) : ReleaseWork a (x, s).2 := w

theorem foldl {α : Type} {f : State → α → State} {l : List α} (w : ReleaseWork a s)
    (hf : ∀ x, ReleaseWork a x → ∀ i, ReleaseWork a (f x i)) : ReleaseWork a (l.foldl f s) := by
  induction l generalizing s with
  | nil => exact w
  | cons x l ih => exact ih (hf s w x)

/-! Memory and rings. -/

theorem dramWrite (w : ReleaseWork a s) (x : Nat) (bs : List Byte) : ReleaseWork a (s.dramWrite x bs) := by
  induction bs generalizing s x with
  | nil => exact w
  | cons b bs ih =>
    have hput : ∀ u, ReleaseWork a u → ∀ y, ReleaseWork a (if u.lostAt y then u else u.dramWriteRaw y [b]) :=
      fun u hu y => ite hu (hu.dramWriteRaw y [b])
    exact ih ((hput s w x).foldl hput) (x + 1)

theorem setRing (w : ReleaseWork a s) (id : Nat) (u : RingUnit) : ReleaseWork a (s.setRing id u) := by
  have hset : ReleaseWork a { s with rings := alSet ringDefault s.rings id u } := w.step rfl (fun _ => rfl) w.marks
  exact ite hset (hset.dramWrite _ _)

theorem postEvent (w : ReleaseWork a s) (id : Nat) (bs : List Byte) : ReleaseWork a (s.postEvent id bs) :=
  ite (ite (w.setRing _ _) w) <| ite (w.setRing _ _) (w.setRing _ _)

theorem postClear (w : ReleaseWork a s) (f : Frame) (n : Nat) : ReleaseWork a (s.postClear f n) :=
  ite (w.freshUpTo 65535) ((w.freshUpTo 65535).postEvent _ _)

theorem clearsPost (w : ReleaseWork a s) (f : Frame) : ReleaseWork a (s.clearsPost f) :=
  (w.modFrame f.head f.seq (φ := fun f => { f with clears := [] }) fun x hx => w.marks x hx).foldl fun _ hu n => hu.postClear f n

/-! The frame's use (R200, R202, R409). -/

theorem shutRole (w : ReleaseWork a s) (h : Nat) : ReleaseWork a (s.shutRole h).2 := by
  have hclear : ReleaseWork a ((s.put (F.CX_SSTAT_PHASE h) 4).accClear h) :=
    (w.put _ _ fun k => by simp only [R.TC_STAT, R.CX_SSTAT]; omega).dramWrite _ _
  exact ite2 w <| ite2 (pair (w.modShut h _)) <| ite2 (pair (hclear.modShut h _)) <| ite2 (pair (w.modShut h _)) <|
    ite2 (pair (w.modShut h _)) w

theorem refreshPick (w : ReleaseWork a s) (h : Nat) : ReleaseWork a (s.refreshPick h).2 := by
  have hput : ∀ v, ReleaseWork a (s.put (F.CX_RSTAT_RES_OFF h) v) := fun v =>
    w.put _ _ fun k => by simp only [R.TC_STAT, R.CX_RSTAT]; omega
  exact ite2 (pair ((hput _).modHead h _)) (pair ((hput _).modHead h _))

theorem frameUse (w : ReleaseWork a s) (h seq : Nat) (held : Bool) (f : State → Frame) :
    ReleaseWork a (s.frameUse h seq held f).1 := by
  rw [State.frameUse]
  dsimp only
  split
  · exact w
  · exact (w.shutRole h).refreshPick h

/-! The frame's DT (R114, R168 to R170, R211). -/

theorem resumeStamp (w : ReleaseWork a s) (h dt : Nat) : ReleaseWork a (s.resumeStamp h dt) :=
  (w.put64 _ _ _ (fun k => by simp only [R.TC_STAT, R.CX_SLDT_LO]; omega)
    (fun k => by simp only [R.TC_STAT, R.CX_SLDT_HI]; omega)).put _ _ fun k => by simp only [R.TC_STAT, R.CX_SLTAI]; omega

theorem putFsdt (w : ReleaseWork a s) (h seq dt : Nat) : ReleaseWork a (s.putFsdt h seq dt) :=
  ite (w.put64 _ _ _ (fun k => by simp only [R.TC_STAT, R.HP_FSDT_LO]; omega)
    (fun k => by simp only [R.TC_STAT, R.HP_FSDT_HI]; omega)) w

/-- The terms of a frame that is marked as a frame of `a` was. -/
theorem frameTerms (w : ReleaseWork a s) {f : Frame} (hf : ∃ g ∈ a.frames, f.marks = g.marks) :
    ReleaseWork a (s.frameTerms f) := by
  have hterms : ReleaseWork a (s.modFrame f.head f.seq fun _ =>
      (f.withTerms f.tempUsed (snapFlag f.snap (F.CX_HCFG_GTC_EN f.head))).1) := w.modFrame _ _ fun _ _ => hf
  exact ite hterms <| (((hterms.put _ _ fun k => by simp only [R.TC_STAT, R.CX_HDT]; omega).put _ _
    fun k => by simp only [R.TC_STAT, R.CX_HAGE]; omega).put _ _ fun k => by simp only [R.TC_STAT, R.CX_HSTAT]; omega).put _ _
    fun k => by simp only [R.TC_STAT, R.CX_HSTAT]; omega

theorem retime (w : ReleaseWork a s) (h seq dt : Nat) : ReleaseWork a (s.retime h seq dt) := by
  rw [State.retime]
  split
  · exact w
  · next f hf =>
    have hmarks : ∃ g ∈ a.frames, (f.dated dt).marks = g.marks := w.marks f (List.mem_of_find?_eq_some hf)
    exact ite w <| (((ite (w.resumeStamp h dt) w).putFsdt h seq dt).frameTerms hmarks).clearsPost _

/-! The release (R99). -/

/-- The frame takes its use, and its DT follows. -/
theorem released (p : State × Frame) (h seq dt : Nat) (w : ReleaseWork a p.1) (hp : ∃ g ∈ a.frames, p.2.marks = g.marks) :
    ReleaseWork a ((p.1.modFrame h seq fun _ => p.2).retime h seq dt) :=
  (w.modFrame _ _ fun _ _ => hp).retime _ _ _

theorem calRelease (w : ReleaseWork a s) (h t : Nat) : ReleaseWork a (s.calRelease h t) := by
  rw [State.calRelease]
  split
  · exact w
  · next c hc =>
    split
    · exact w
    · next f hf =>
      have hmarks : ∃ g ∈ a.frames, f.marks = g.marks := w.marks f (List.mem_of_find?_eq_some hf)
      refine ite w ?_
      split
      · exact w
      · next given hgiven =>
        refine released (if given && !(s.headHeld h || s.digitalDown h) then
            (s, { f with calHeld := none }.use false f.decimated f.role f.refresh)
          else s.frameUse h c.seq (s.headHeld h || s.digitalDown h) fun _ => { f with calHeld := none }) _ _ _ ?_ ?_
        · split
          · exact w
          · exact w.frameUse _ _ _ _
        · split
          · exact hmarks
          · exact hmarks

theorem calReleases (w : ReleaseWork a s) (r t : Nat) : ReleaseWork a (s.calReleases r t) :=
  (w.calRelease _ _).calRelease _ _

end ReleaseWork

/-- With no capture in progress a head has no frame to release. -/
theorem State.calRelease_of_idle {s : State} {h : Nat} (hc : (s.head h).cap = none) (t : Nat) : s.calRelease h t = s := by
  rw [State.calRelease, hc]

end Sys2Proof.Machine
end

section
/-! PROOFS. The sample clock's lock, its loss and its fallback (R86 to R88), the reference's settling and its fallback (R89, R90), and
the statement on them. -/

namespace Sys2Proof.Machine

/-! ### A report of a bank -/

theorem BankWork.inbox {s t : State} (h : BankWork s t) : t.inbox = s.inbox := by
  rw [BankWork] at h
  rw [h]

theorem BankWork.inRun {s t : State} (h : BankWork s t) : t.inRun = s.inRun := by
  rw [BankWork] at h
  rw [h]
  rfl

/-- A report that follows a change of registers and banks is the only one. -/
theorem BankWork.reported {s t : State} (h : BankWork s t) (src : Nat) (cls : FaultClass) (d : Nat) :
    Reported src cls s (t.raise src cls d) := ⟨_, by rw [State.raise_inbox, h.inbox]⟩

/-- Registers, what the banks hold and the waiting reports are all that differs. -/
def BankFault (s t : State) : Prop := t = { s with regs := t.regs, banks := t.banks, inbox := t.inbox }

theorem BankWork.raise {s t : State} (h : BankWork s t) (src : Nat) (cls : FaultClass) (d : Nat) :
    BankFault s (t.raise src cls d) := by
  rw [BankWork] at h
  rw [h]
  rfl

theorem BankFault.head {s t : State} (h : BankFault s t) (k : Nat) : t.head k = s.head k := by
  rw [BankFault] at h
  rw [h]
  rfl

theorem BankFault.degradeFrames {s t : State} (h : BankFault s t) (of : Nat → Bool) : t.degradeFrames of = { s with
    regs := (t.degradeFrames of).regs, banks := (t.degradeFrames of).banks, inbox := (t.degradeFrames of).inbox
    frames := (t.degradeFrames of).frames } :=
  congrArg (fun x : State => { x with frames := (t.degradeFrames of).frames }) h

theorem OnlyRegs.raise {s t : State} (h : OnlyRegs s t) (src : Nat) (cls : FaultClass) (d : Nat) :
    t.raise src cls d = { s with regs := (t.raise src cls d).regs, inbox := (t.raise src cls d).inbox } :=
  congrArg (fun x : State => { x with inbox := (t.raise src cls d).inbox }) h

theorem SameRegs.raise {l : List Nat} {s t : State} (h : SameRegs l s t) (src : Nat) (cls : FaultClass) (d : Nat) :
    SameRegs l s (t.raise src cls d) := fun a ha => (State.raise_reg t src cls d a).trans (h a ha)

theorem SameRegs.degradeFrames {l : List Nat} {s t : State} (h : SameRegs l s t) (of : Nat → Bool) :
    SameRegs l s (t.degradeFrames of) := h

theorem State.raise_bank (s : State) (src : Nat) (cls : FaultClass) (d r : Nat) : (s.raise src cls d).bank r = s.bank r := rfl

theorem State.put_bank (s : State) (f : Fld) (v r : Nat) : (s.put f v).bank r = s.bank r := rfl

theorem State.putBank_bank (s : State) (k : Nat) (f : Nat → Fld) (v r : Nat) : (s.putBank k f v).bank r = s.bank r := by
  rw [State.putBank, State.put_bank, State.put_bank]

theorem State.putBank_dt (s : State) (k : Nat) (f : Nat → Fld) (v : Nat) : (s.putBank k f v).dt = s.dt := rfl

/-! ### The sample clock (R86 to R88) -/

/-- SCLK_LOCK is set or clears, and the synthesiser waits for lock or not. -/
def State.lockTo (s : State) (r v : Nat) (wait : Bool) : State :=
  (s.putValid r F.TC_STAT_SCLK_LOCK v).modBank r fun b => { b with lockWait := wait }

theorem State.lockTo_work (s : State) (r v : Nat) (wait : Bool) : BankWork s (s.lockTo r v wait) :=
  ((BankWork.refl s).putValid r _ v).modBank r _

/-- What the lock, or its loss, leaves. -/
structure LockNoted (r v : Nat) (wait : Bool) (s t : State) : Prop where
  even : t.get (F.TC_STAT_SCLK_LOCK (2 * r)) = v
  odd : t.get (F.TC_STAT_SCLK_LOCK (2 * r + 1)) = v
  lockWait : (t.bank r).lockWait = wait
  regs : SameRegs (bankRegs r) s t

theorem State.lockTo_noted (s : State) {r v : Nat} (hr : r < 4) (hv : v < 2) (wait : Bool) :
    LockNoted r v wait s (s.lockTo r v wait) where
  even := by
    rw [State.lockTo, State.modBank_get, State.putValid_get, State.get_putBank_even _ bankFld_sclkLock]
    exact Nat.mod_eq_of_lt hv
  odd := by
    rw [State.lockTo, State.modBank_get, State.putValid_get, State.get_putBank_odd _ bankFld_sclkLock]
    exact Nat.mod_eq_of_lt hv
  lockWait := congrArg Bank.lockWait (State.bank_modBank_self _ _ _ hr)
  regs := ((SameRegs.refl _ s).putValid bankFld_sclkLock r v fun _ => id).modBank _ _

section
variable {r : Region} {s : State}

theorem exec_sclkLocked (hu : s.up = true) (hs : s.refStopped = false) (hw : (s.bank r).lockWait = true) :
    exec (.sclkLocked r) s = .next (s.lockTo r 1 false) := by
  have hopen : (s.up && !s.refStopped && (s.bank r).lockWait) = true := by simp [hu, hs, hw]
  exact congrArg Host.Outcome.next (State.whenever_pos s _ _ hopen)

theorem exec_sclkLockLost_run (hl : s.bankFlag r F.TC_STAT_SCLK_LOCK = true) (hm : s.inRun = true) :
    exec (.sclkLockLost r) s = .next ((s.lockTo r 0 true).raise 53 .uc (detailWord r 29 0x008)) := by
  show Host.Outcome.next (sclkLockLost r s) = _
  rw [sclkLockLost, State.whenever_pos _ _ _ hl]
  exact congrArg _ (if_pos ((s.lockTo_work r 0 true).inRun.trans hm))

theorem exec_sclkLockLost_idle (hl : s.bankFlag r F.TC_STAT_SCLK_LOCK = true) (hm : s.inRun = false) :
    exec (.sclkLockLost r) s = .next (s.lockTo r 0 true) := by
  show Host.Outcome.next (sclkLockLost r s) = _
  rw [sclkLockLost, State.whenever_pos _ _ _ hl]
  exact congrArg _ (if_neg (Bool.eq_false_iff.1 ((s.lockTo_work r 0 true).inRun.trans hm)))

theorem exec_sclkFallback (hu : s.up = true) (hs : s.flag (F.TC_SCLK_SRC r) = true)
    (hf : s.bankFlag r F.TC_STAT_SCLK_FALLBACK = false) : exec (.sclkFallback r) s =
      .next ((s.putBank r F.TC_STAT_SCLK_FALLBACK 1).raise 50 .ce (detailWord r 27 0x008)) := by
  have hopen : (s.up && s.flag (F.TC_SCLK_SRC r) && !s.bankFlag r F.TC_STAT_SCLK_FALLBACK) = true := by simp [hu, hs, hf]
  exact congrArg Host.Outcome.next (State.whenever_pos s _ _ hopen)

/-! ### The reference settles (R89) -/

/-- The reference of a region has settled at `t`. -/
def State.refSettled (s : State) (r t : Nat) : State :=
  ((s.at t).putValid r F.TC_STAT_REFOK 1).modBank r fun b => { b with refDue := none }

theorem exec_refokSet {t d : Nat} (hu : s.up = true) (hd : (s.bank r).refDue = some d) (ht : d ≤ t) :
    exec (.refokSet r t) s = .next (s.refSettled r t) := by
  have hopen : (s.up && decide (d ≤ t)) = true := by simp [hu, ht]
  show Host.Outcome.next (refokSet r t s) = _
  rw [refokSet, hd]
  exact congrArg _ (State.whenever_pos s _ _ hopen)

end

/-- What the settling leaves. -/
structure RefSettled (r t : Nat) (s u : State) : Prop where
  even : u.get (F.TC_STAT_REFOK (2 * r)) = 1
  odd : u.get (F.TC_STAT_REFOK (2 * r + 1)) = 1
  due : (u.bank r).refDue = none
  regs : SameRegs (bankRegs r) s u
  work : BankWork (s.at t) u

theorem State.refSettled_settled (s : State) {r : Nat} (hr : r < 4) (t : Nat) : RefSettled r t s (s.refSettled r t) where
  even := by
    rw [State.refSettled, State.modBank_get, State.putValid_get, State.get_putBank_even _ bankFld_refok]
    rfl
  odd := by
    rw [State.refSettled, State.modBank_get, State.putValid_get, State.get_putBank_odd _ bankFld_refok]
    rfl
  due := congrArg Bank.refDue (State.bank_modBank_self _ _ _ hr)
  regs := ((SameRegs.refl (bankRegs r) (s.at t)).putValid bankFld_refok r 1 fun _ => id).modBank _ _
  work := ((BankWork.refl (s.at t)).putValid r _ 1).modBank r _

/-! ### The reference falls back (R90) -/

/-- REF_FALLBACK is set, REFOK clears for 50 µs, and a UC is raised. -/
def State.refLost (s : State) (r : Nat) : State :=
  ((s.putBank r F.TC_STAT_REF_FALLBACK 1).refSettle r 50000).raise (16 + r) .uc (detailWord 0xFF 28 0x008)

/-- What the loss of the reference leaves before a calibration is aborted. -/
structure RefLost (r : Nat) (s t : State) : Prop where
  fallback : t.get (F.TC_STAT_REF_FALLBACK (2 * r)) = 1
  refok : t.get (F.TC_STAT_REFOK (2 * r)) = 0
  bank : ∃ o, t.bank r = { s.bank r with outages := o, refDue := some (s.dt + 50000) }
  reported : Reported (16 + r) .uc s t
  regs : SameRegs (bankRegs r) s t
  work : BankFault s t

theorem State.refLost_lost (s : State) {r : Nat} (hr : r < 4) : RefLost r s (s.refLost r) := by
  have hwork : BankWork s ((s.putBank r F.TC_STAT_REF_FALLBACK 1).refSettle r 50000) :=
    ((BankWork.refl s).putBank _ _ _).refSettle _ _
  have hregs : SameRegs (bankRegs r) s ((s.putBank r F.TC_STAT_REF_FALLBACK 1).refSettle r 50000) :=
    ((SameRegs.refl _ s).putBank bankFld_refFallback r 1 fun _ => id).refSettle r 50000 fun _ => id
  obtain ⟨o, ho⟩ := (s.putBank r F.TC_STAT_REF_FALLBACK 1).refSettle_bank hr 50000
  exact
    { fallback := by
        rw [State.refLost, State.raise_get, State.refSettle_get, State.get_putBank_disjoint _ r 0 fun _ _ => .inl (by simp),
          State.get_putBank_even _ bankFld_refFallback]
        rfl
      refok := by
        rw [State.refLost, State.raise_get, State.refSettle_get, State.get_putBank_even _ bankFld_refok, Nat.zero_mod]
      bank := ⟨o, by rw [State.refLost, State.raise_bank, ho, State.putBank_bank, State.putBank_dt]⟩
      reported := hwork.reported _ _ _
      regs := hregs.raise _ _ _
      work := hwork.raise _ _ _ }

/-! ### A calibration is aborted (R100) -/

theorem State.churnDone_bank (s : State) (act : Activity) (res r : Nat) : (s.churnDone act res).bank r = s.bank r := rfl

theorem BankWork.churnDone {s t : State} (h : BankWork s t) (act : Activity) (res : Nat) : t.churnDone act res = { s with
    regs := (t.churnDone act res).regs, banks := (t.churnDone act res).banks, churnRun := (t.churnDone act res).churnRun
    churnQueue := (t.churnDone act res).churnQueue } :=
  congrArg (fun x : State => { x with
    regs := (t.churnDone act res).regs, churnRun := (t.churnDone act res).churnRun
    churnQueue := (t.churnDone act res).churnQueue }) h

theorem State.churnDone_get (s : State) (act : Activity) (res : Nat) {g : Fld} (hg : g.addr ≠ R.MC_STAT) :
    (s.churnDone act res).get g = s.get g := by
  rw [State.churnDone, State.syncChurn, State.get_put_reg _ _ _ _ hg, State.get_put_reg _ _ _ _ hg]
  rfl

theorem State.calAbort_of_idle {s : State} {r : Nat} (hc : (s.bank r).cal = .idle) : s.calAbort r = s := by
  rw [State.calAbort, if_pos hc]

/-- What the abort of a calibration, where one is ordered or runs, leaves. -/
structure CalAborted (r : Nat) (s t : State) : Prop where
  cal : (t.bank r).cal = .idle
  due : (t.bank r).refDue = (s.bank r).refDue
  status : ∀ g : Fld, g.addr = R.TC_STAT (2 * r) → 27 ≤ g.lo → g.lo + g.w ≤ 31 → t.get g = s.get g
  result : (s.bank r).cal ≠ .idle → t.get (F.TC_STAT_CALRESULT (2 * r)) = 5 ∧ t.get (F.TC_STAT_CALBUSY (2 * r)) = 0
  work : t = { s with regs := t.regs, banks := t.banks, churnRun := t.churnRun, churnQueue := t.churnQueue }

theorem State.calAbort_aborted (s : State) {r : Nat} (hr : r < 4) : CalAborted r s (s.calAbort r) := by
  by_cases hc : (s.bank r).cal = .idle
  · rw [State.calAbort_of_idle hc]
    exact ⟨hc, rfl, fun _ _ _ _ => rfl, fun h => absurd hc h, rfl⟩
  · have hput : ∀ g : Fld, g.addr = R.TC_STAT (2 * r) → (s.calAbort r).get g =
        ((s.putBank r F.TC_STAT_CALBUSY 0).putBank r F.TC_STAT_CALRESULT 5).get g := fun g hg => by
      rw [State.calAbort, if_neg hc]
      dsimp only
      rw [State.churnDone_get _ _ _ (by rw [hg]; simp only [R.TC_STAT, R.MC_STAT]; omega), State.modBank_get]
    have hbank : (s.calAbort r).bank r = { s.bank r with cal := .idle, passA := [], passB := [], repeats := 0 } := by
      rw [State.calAbort, if_neg hc]
      dsimp only
      rw [State.churnDone_bank, State.bank_modBank_self _ _ _ hr, State.putBank_bank, State.putBank_bank]
    have hstop : BankWork s (((s.putBank r F.TC_STAT_CALBUSY 0).putBank r F.TC_STAT_CALRESULT 5).modBank r fun b =>
        { b with cal := .idle, passA := [], passB := [], repeats := 0 }) :=
      (((BankWork.refl s).putBank _ _ _).putBank _ _ _).modBank _ _
    exact
      { cal := by rw [hbank]
        due := by rw [hbank]
        status := fun g hg hlo hhi => by
          rw [hput g hg, State.get_putBank_disjoint (f := F.TC_STAT_CALRESULT) _ r 5 fun _ _ => .inr hlo,
            State.get_putBank_disjoint (f := F.TC_STAT_CALBUSY) _ r 0 fun _ _ => .inl hhi]
        result := fun _ => by
          rw [hput _ rfl, hput _ rfl, State.get_putBank_even _ bankFld_calResult,
            State.get_putBank_disjoint _ r 5 fun _ _ => .inr (by simp), State.get_putBank_even _ bankFld_calBusy]
          exact ⟨rfl, rfl⟩
        work := by
          rw [State.calAbort, if_neg hc]
          exact hstop.churnDone .m2 r }

theorem CalAborted.inbox {r : Nat} {s t : State} (c : CalAborted r s t) : t.inbox = s.inbox := by
  rw [c.work]

/-! ### The frames of the region (R90) -/

theorem State.degradeFrames_get (s : State) (of : Nat → Bool) (g : Fld) : (s.degradeFrames of).get g = s.get g := rfl

theorem State.degradeFrames_head (s : State) (of : Nat → Bool) (k : Nat) : (s.degradeFrames of).head k = s.head k := rfl

theorem State.degradeFrames_bank (s : State) (of : Nat → Bool) (r : Nat) : (s.degradeFrames of).bank r = s.bank r := rfl

theorem State.degradeFrames_degraded (s : State) (of : Nat → Bool) {f : Frame} (hf : f ∈ (s.degradeFrames of).frames)
    (hof : of f.head = true) (hr : f.reported = false) : f.degraded = true := by
  obtain ⟨x, -, rfl⟩ := List.mem_map.1 hf
  by_cases hx : (of x.head && !x.reported) = true
  · rw [if_pos hx]
  · rw [if_neg hx] at hof hr
    simp [hof, hr] at hx

/-! ### The fallback as a whole -/

/-- The state at the fallback, before frames that the aborted calibration held are released. -/
def State.refFellBack (s : State) (r : Nat) : State := ((s.refLost r).calAbort r).degradeFrames fun h => regionOf h == r

theorem exec_refFallback {r : Region} {s : State} (hu : s.up = true) (hm : s.mode ≠ .dormant)
    (hs : s.get (F.TC_REFCFG_SRC r) = 1) (hf : s.bankFlag r F.TC_STAT_REF_FALLBACK = false) :
    exec (.refFallback r) s = .next ((s.refFellBack r).calReleases r s.dt) := by
  have hopen : (s.up && (s.mode != .dormant || s.power.trans.isSome) && s.get (F.TC_REFCFG_SRC r) == 1 &&
      !s.bankFlag r F.TC_STAT_REF_FALLBACK) = true := by simp [hu, hm, hs, hf]
  show Host.Outcome.next ((refFallback r s).calReleases r s.dt) = _
  rw [refFallback]
  dsimp only
  rw [State.whenever_pos _ _ _ hopen]
  rfl

/-- What a fallback may change. -/
def FallbackWork (s t : State) : Prop :=
  t = { s with
    regs := t.regs, freeCnt := t.freeCnt, dram := t.dram, inbox := t.inbox, heads := t.heads, banks := t.banks,
    shutters := t.shutters, churnRun := t.churnRun, churnQueue := t.churnQueue, pairVer := t.pairVer, rings := t.rings,
    frames := t.frames }

namespace FallbackWork

variable {s t u : State}

theorem trans (h : FallbackWork s t) (g : FallbackWork t u) : FallbackWork s u :=
  Eq.trans g (congrArg (fun x : State => { x with
    regs := u.regs, freeCnt := u.freeCnt, dram := u.dram, inbox := u.inbox, heads := u.heads, banks := u.banks,
    shutters := u.shutters, churnRun := u.churnRun, churnQueue := u.churnQueue, pairVer := u.pairVer, rings := u.rings,
    frames := u.frames }) h)

theorem of_fault (h : BankFault s t) : FallbackWork s t := by
  rw [BankFault] at h
  rw [FallbackWork, h]

theorem of_abort {r : Nat} (h : CalAborted r s t) : FallbackWork s t := by
  rw [FallbackWork, h.work]

theorem of_release (h : ReleaseWork s t) : FallbackWork s t := by
  rw [FallbackWork, h.frame]

theorem mode (h : FallbackWork s t) : t.mode = s.mode := by
  rw [FallbackWork] at h
  rw [h]

theorem degradeFrames (h : FallbackWork s t) (of : Nat → Bool) : FallbackWork s (t.degradeFrames of) :=
  h.trans (Eq.refl (t.degradeFrames of))

end FallbackWork

/-- What a fallback leaves. -/
structure FellBack (r : Nat) (s t : State) : Prop where
  fallback : t.get (F.TC_STAT_REF_FALLBACK (2 * r)) = 1
  refok : t.get (F.TC_STAT_REFOK (2 * r)) = 0
  due : (t.bank r).refDue = some (s.dt + 50000)
  reported : Reported (16 + r) .uc s t
  cal : (t.bank r).cal = .idle
  result : (s.bank r).cal ≠ .idle → t.get (F.TC_STAT_CALRESULT (2 * r)) = 5 ∧ t.get (F.TC_STAT_CALBUSY (2 * r)) = 0
  degraded : ∀ f ∈ t.frames, regionOf f.head = r → f.reported = false → f.degraded = true
  work : FallbackWork s t

theorem State.refFellBack_fellBack (s : State) {r : Nat} (hr : r < 4) : FellBack r s (s.refFellBack r) := by
  have l := s.refLost_lost hr
  have c := (s.refLost r).calAbort_aborted hr
  obtain ⟨o, ho⟩ := l.bank
  obtain ⟨d, hd⟩ := l.reported
  exact
    { fallback := by
        rw [State.refFellBack, State.degradeFrames_get, c.status _ rfl (by simp) (by simp), l.fallback]
      refok := by
        rw [State.refFellBack, State.degradeFrames_get, c.status _ rfl (by simp) (by simp), l.refok]
      due := by rw [State.refFellBack, State.degradeFrames_bank, c.due, ho]
      reported := ⟨d, Eq.trans c.inbox hd⟩
      cal := by rw [State.refFellBack, State.degradeFrames_bank, c.cal]
      result := fun h => by
        rw [State.refFellBack, State.degradeFrames_get, State.degradeFrames_get]
        exact c.result (by rw [ho]; exact h)
      degraded := fun f hf hreg => State.degradeFrames_degraded _ _ hf (by simp [hreg])
      work := ((FallbackWork.of_fault l.work).trans (.of_abort c)).degradeFrames _ }

theorem ReleaseWork.get {s t : State} (w : ReleaseWork s t) {g : Fld} {k : Nat} (hg : g.addr = R.TC_STAT k) : t.get g = s.get g := by
  rw [State.get, State.get, hg, w.status k]

theorem ReleaseWork.bank {s t : State} (w : ReleaseWork s t) (r : Nat) : t.bank r = s.bank r := by
  rw [w.frame]
  rfl

theorem ReleaseWork.inbox {s t : State} (w : ReleaseWork s t) : t.inbox = s.inbox := by
  rw [w.frame]

/-- The release of frames undoes nothing of it. -/
theorem FellBack.release {r : Nat} {s t u : State} (b : FellBack r s t) (w : ReleaseWork t u) : FellBack r s u where
  fallback := (w.get rfl).trans b.fallback
  refok := (w.get rfl).trans b.refok
  due := by rw [w.bank]; exact b.due
  reported := by
    obtain ⟨d, hd⟩ := b.reported
    exact ⟨d, w.inbox.trans hd⟩
  cal := by rw [w.bank]; exact b.cal
  result h := by
    obtain ⟨hres, hbusy⟩ := b.result h
    exact ⟨(w.get rfl).trans hres, (w.get rfl).trans hbusy⟩
  degraded f hf hreg hrep := by
    obtain ⟨g, hg, hmarks⟩ := w.marks f hf
    obtain ⟨hhead, hreported, hdegraded⟩ : f.head = g.head ∧ f.reported = g.reported ∧ f.degraded = g.degraded := by
      simpa [Frame.marks] using hmarks
    rw [hdegraded]
    exact b.degraded g hg (hhead ▸ hreg) (hreported ▸ hrep)
  work := b.work.trans (.of_release w)

/-- With no calibration and no capture in progress, nothing is aborted or released. -/
theorem State.refFellBack_of_idle {s : State} {r : Nat} (hr : r < 4) (hc : (s.bank r).cal = .idle)
    (h0 : (s.head (2 * r)).cap = none) (h1 : (s.head (2 * r + 1)).cap = none) (t : Nat) :
    (s.refFellBack r).calReleases r t = (s.refLost r).degradeFrames fun h => regionOf h == r := by
  obtain ⟨o, ho⟩ := (s.refLost_lost hr).bank
  have hidle : ((s.refLost r).bank r).cal = .idle := by rw [ho]; exact hc
  have hfell : s.refFellBack r = (s.refLost r).degradeFrames fun h => regionOf h == r := by
    rw [State.refFellBack, State.calAbort_of_idle hidle]
  have hhead : ∀ k, (s.refFellBack r).head k = s.head k := fun k => by
    rw [hfell, State.degradeFrames_head, (s.refLost_lost hr).work.head]
  have heven : ((s.refFellBack r).head (2 * r)).cap = none := by rw [hhead, h0]
  have hodd : ((s.refFellBack r).head (2 * r + 1)).cap = none := by rw [hhead, h1]
  rw [State.calReleases, State.calRelease_of_idle heven, State.calRelease_of_idle hodd, hfell]

/-- Settles O12: each event by what it leaves; the fallback of the reference by its own change of the bank and its frames, which the
abort of a calibration and the release of the frames it held leave as it is. -/
theorem sampleClockAndReferenceEvents : Obligations.SampleClockAndReferenceEvents := by
  unfold Obligations.SampleClockAndReferenceEvents
  refine ⟨?locks, ?lostRun, ?lostSetup, ?clockFalls, ?settles, ?refFalls, ?refFallsIdle⟩
  case locks =>
    intro r s hu hs hw
    have c := s.lockTo_noted r.isLt (by decide : 1 < 2) false
    exact ⟨_, exec_sclkLocked hu hs hw, c.even, c.odd, c.lockWait, c.regs, s.lockTo_work r 1 false⟩
  case lostRun =>
    intro r s hl hm
    have c := s.lockTo_noted r.isLt (by decide : 0 < 2) true
    have hwork := s.lockTo_work r 0 true
    exact ⟨_, exec_sclkLockLost_run hl hm, (State.raise_get _ _ _ _ _).trans c.even, (State.raise_get _ _ _ _ _).trans c.odd,
      (congrArg Bank.lockWait (State.raise_bank _ _ _ _ _)).trans c.lockWait, hwork.reported _ _ _, c.regs.raise _ _ _,
      hwork.raise _ _ _⟩
  case lostSetup =>
    intro r s hl hm
    have hidle : s.inRun = false := by simp [State.inRun, hm]
    exact ⟨_, exec_sclkLockLost_idle hl hidle, (s.lockTo_noted r.isLt (by decide : 0 < 2) true).even, s.lockTo_work r 0 true⟩
  case clockFalls =>
    intro r s hu hs hf
    obtain ⟨heven, hodd, hregs, honly⟩ := s.putBank_flag bankFld_sclkFallback (fun _ => rfl) r
    exact ⟨_, exec_sclkFallback hu hs hf, (State.raise_get _ _ _ _ _).trans heven, (State.raise_get _ _ _ _ _).trans hodd,
      honly.bankWork.reported _ _ _, 
      (State.raise_get _ _ _ _ _).trans (s.get_putBank_disjoint r 1 fun _ _ => .inr (by simp)), hregs.raise _ _ _,
      honly.raise _ _ _⟩
  case settles =>
    intro r t d s hu hd ht
    have c := s.refSettled_settled r.isLt t
    exact ⟨_, exec_refokSet hu hd ht, c.even, c.odd, c.due, c.regs, c.work⟩
  case refFalls =>
    intro r s hu hm hs hf
    have b := (s.refFellBack_fellBack r.isLt).release ((ReleaseWork.refl _).calReleases r s.dt)
    exact ⟨_, exec_refFallback hu hm hs hf, b.fallback, b.refok, b.due, b.reported, b.cal, fun _ => b.result, b.degraded,
      b.work.mode, b.work⟩
  case refFallsIdle =>
    intro r s hu hm hs hf hc h0 h1
    have l := s.refLost_lost r.isLt
    exact ⟨_, (exec_refFallback hu hm hs hf).trans (congrArg _ (State.refFellBack_of_idle r.isLt hc h0 h1 s.dt)),
      l.regs.degradeFrames _, l.work.degradeFrames _⟩

end Sys2Proof.Machine
end

section
/-! PROOFS. A calibration that starts while the last line of a head that has just stopped is still being sampled (R99): the statement
on a bank's calibration is refuted. -/

namespace Sys2Proof.Machine

/-- The last frame of head 0, whose one line began at DT 100. -/
def lastFrame : Frame := { head := 0, seq := 1, dt := 100, gen := 0, slotAt := 100, snap := [], profile := {} }

/-- SETUP just after head 0 has ceased to stream: no capture is in progress, but the frame's line, which lasts one cycle of the 10 MHz
sample clock, to DT 200, is not placed yet (R111). A calibration of bank 0 has been ordered at DT 150, with REFOK set. -/
def lastLine : State :=
  (((({ State.reset with mode := .setup, dt := 150, frames := [lastFrame] } : State).put (F.TC_SCLK_FREQ 0) 1000).put
    (F.TC_STAT_REFOK 0) 1).modHead 0 fun u =>
      { u with profile := some {}, prevCap := some { seq := 1, start := 100, lines := 1, closed := true } }).calOrder 0

/-- The calibration that starts at DT 150 overlaps the line's sample cycle, so the frame goes HELD (R99). -/
theorem bankCalStart_lastLine_held : (bankCalStart 0 150 lastLine).frames.map Frame.held = [true] := by decide

/-- Refutes O13 in its clause on a calibration that starts outside RUN with no capture in progress at either head, which claims that
no frame changes. It leaves out the capture before, whose lines may still be sampled after streaming has ended: such a frame overlaps
the calibration and goes HELD, as R99 says. -/
theorem not_bankCalibrationRuns : ¬ Obligations.BankCalibrationRuns := by
  unfold Obligations.BankCalibrationRuns
  rintro ⟨-, -, -, -, -, -, hstart, -⟩
  obtain ⟨u, hexec, -, hframe⟩ := hstart 0 150 lastLine (by decide) (by decide) (by decide) (by decide) (by decide)
  obtain rfl : bankCalStart 0 150 lastLine = u := Host.Outcome.next.inj hexec
  have hsame : (bankCalStart 0 150 lastLine).frames = [lastFrame] := by rw [hframe]; rfl
  have hheld := bankCalStart_lastLine_held
  rw [hsame] at hheld
  exact absurd hheld (by decide)

end Sys2Proof.Machine
end

section
/-! PROOFS. What each command may change, by the lists of commands: a law of every command sharper than `exec_keeps`, and the statement
on Device Time. -/

namespace Sys2Proof.Machine

/-! ### The supplies are as they were after a software write to the NVM starts (R434, R436) -/

theorem foldl_power {α : Type} {f : State → α → State} (hf : ∀ s x, (f s x).power = s.power) (l : List α) (s : State) :
    (l.foldl f s).power = s.power := by
  induction l generalizing s with
  | nil => rfl
  | cons x l ih => exact (ih _).trans (hf s x)

theorem State.nvStore_power (s : State) (a : Nat) (bs : List Byte) : (s.nvStore a bs).power = s.power := by
  induction bs generalizing s a with
  | nil => rfl
  | cons b bs ih => exact ih _ _

theorem State.nvDevice_power (s : State) (a : Nat) (bs : List Byte) : (s.nvDevice a bs).power = s.power :=
  State.nvStore_power s a bs

theorem State.logStart_power (s : State) (bs : List Byte) : (s.logStart bs).power = s.power := by
  rw [State.logStart]
  split
  · split <;> rfl
  · exact s.nvDevice_power _ _

theorem State.slotWrite_power (s : State) (n : Nat) : (s.slotWrite n).power = s.power := by
  rw [State.slotWrite]
  split
  · exact s.nvDevice_power _ _
  · rfl

theorem State.persistNow_power (s : State) (n : Nat) : (s.persistNow n).power = s.power := by
  rw [State.persistNow]
  dsimp only
  split
  · rfl
  · exact State.slotWrite_power _ n

theorem State.pageDrop_power (s : State) (page : Nat) : (s.pageDrop page).power = s.power := by
  rw [State.pageDrop]
  split
  · dsimp only
    split <;> rfl
  · rfl

theorem State.persist_power (s : State) (n : Nat) : (s.persist n).power = s.power := by
  rw [State.persist]
  split
  · rfl
  · split <;> rfl

theorem State.relocate_power (s : State) (page : Nat) : (s.relocate page).power = s.power := by
  rw [State.relocate]
  split
  · exact s.pageDrop_power page
  · dsimp only
    split
    · exact s.pageDrop_power page
    · split
      · exact s.pageDrop_power page
      · rw [State.raise_power, State.persist_power, State.put_power, State.bump_power, State.nvDevice_power]

theorem State.relocStart_power (s : State) (page : Nat) : (s.relocStart page).power = s.power := by
  rw [State.relocStart]
  split
  · rfl
  · exact s.relocate_power page

theorem State.nvGoOn_power (s : State) : s.nvGoOn.power = s.power := by
  refine foldl_power (fun s w => ?_) _ _
  cases w with
  | record bs => exact s.logStart_power bs
  | slot n => exact s.persistNow_power n
  | reloc p => exact s.relocStart_power p

theorem State.nvTurn_power (s : State) : s.nvTurn.power = s.power := by
  rw [State.nvTurn]
  split
  · rw [State.nvBegin]
    split
    · rfl
    · split
      · rfl
      · split
        · exact State.nvGoOn_power _
        · rfl
  · rfl

theorem State.putSag_power (s : State) (k : Nat) (b : Bool) : (s.putSag k b).power = s.power := s.nvTurn_power

/-! ### A rail that reads good resets nothing (R403, R415) -/

/-- A rail's reading lies within 93 % to 110 % of its nominal. -/
structure GoodReading (s : State) (r : RailReading) : Prop where
  low : s.below r.rail r.uv 93 = false
  high : s.above r.rail r.uv 110 = false

section
variable {s t : State} {r : RailReading}

/-- What a rail's thresholds are depends on the choice of VDD_IO alone (R415). -/
theorem GoodReading.of_io33 (g : GoodReading s r) (ht : t.power.io33 = s.power.io33) : GoodReading t r :=
  ⟨by rw [State.below, State.nominal, ht]; exact g.low, by rw [State.above, State.nominal, ht]; exact g.high⟩

theorem GoodReading.not_below (g : GoodReading s r) {pct : Nat} (hp : pct ≤ 93) : s.below r.rail r.uv pct = false := by
  have hlow := g.low
  simp only [State.below, decide_eq_false_iff_not, Nat.not_lt] at hlow ⊢
  exact le_trans (Nat.mul_le_mul_right _ hp) hlow

theorem GoodReading.not_readsSag (g : GoodReading s r) : s.readsSag r = false := by rw [State.readsSag, g.low, Bool.false_and]

theorem GoodReading.not_readsFail (g : GoodReading s r) : s.readsFail r = false := by
  rw [State.readsFail, g.not_below (by decide), g.high, Bool.false_or, Bool.false_and]

theorem GoodReading.not_readsReset (g : GoodReading s r) : s.readsReset r = false := by
  have hlow := g.low
  rw [State.readsReset, g.not_below (by decide), Bool.and_false, Bool.false_or]
  by_cases h12 : r.rail.val = 12
  · have hnom : s.nominal 12 = 1800000 := rfl
    simp only [State.below, h12, hnom, decide_eq_false_iff_not] at hlow
    simp only [h12, beq_self_eq_true, Bool.true_and, decide_eq_false_iff_not]
    omega
  · simp [h12]

/-- The nominal of VDD_AON is fixed, so its good reading is one in every state. -/
theorem GoodReading.of_aon (g : GoodReading s r) (h12 : r.rail.val = 12) (t : State) : GoodReading t r := by
  obtain ⟨hl, hh⟩ := g
  rw [h12] at hl hh
  exact ⟨by rw [h12]; exact hl, by rw [h12]; exact hh⟩

/-- The supply monitor's state after a good reading, before what VDD_AON's adds: no sag and no failure. -/
def State.goodRail (s : State) (r : RailReading) : State :=
  let s := (s.setLevel r.rail r.uv).putSag r.rail false
  { s with power := { s.power with failing := s.power.failing.filter (· != r.rail.val) } }

theorem State.monitor_of_good (g : GoodReading s r) :
    s.monitor r =
      (if (s.goodRail r).readsAonLow r then (s.goodRail r).powerCond false else s.goodRail r).syncPfail := by
  have hset : GoodReading (s.setLevel r.rail r.uv) r := g.of_io33 rfl
  have hsag : GoodReading ((s.setLevel r.rail r.uv).putSag r.rail false) r :=
    hset.of_io33 (by rw [State.putSag_power])
  have hgood : GoodReading (s.goodRail r) r := hsag.of_io33 rfl
  have hend : GoodReading (if (s.goodRail r).readsAonLow r then (s.goodRail r).powerCond false else s.goodRail r) r := by
    split
    · next h => exact g.of_aon (by simpa using (Bool.and_eq_true_iff.1 (Bool.and_eq_true_iff.1 h).1).1) _
    · exact hgood
  rw [State.monitor]
  simp only [hset.not_readsSag, hset.low, Bool.false_eq_true, if_false, hsag.not_readsFail, hsag.not_below (pct := 88) (by decide),
    hsag.high, Bool.or_false]
  exact if_pos (congrArg (!·) hend.not_readsReset)

/-- The supply monitor resets nothing on a good reading. -/
theorem State.monitor_keeps_of_good {k : Parts} (g : GoodReading s r) (km : k.mode = true) (kd : k.dram = true) (kn : k.nvm = true)
    (kh : k.host = true) : Keeps k s (s.monitor r) := by
  have hgood : Keeps k s (s.goodRail r) := (State.putSag_keeps r.rail false kn (State.setLevel_keeps r.rail r.uv .rfl)).mkUpd
  rw [State.monitor_of_good g]
  exact State.syncPfail_keeps ((State.powerCond_keeps false km kd kn kh hgood).ite hgood)

theorem railGood_keeps_forward {k : Parts} (km : k.mode = true) (kd : k.dram = true) (kn : k.nvm = true) (kh : k.host = true) :
    Keeps k s (railGood r s) := by
  rw [railGood, State.railRead, State.whenever]
  split
  · exact State.setLevel_keeps _ _ .rfl
  · split
    · next h =>
      obtain ⟨-, hread⟩ := Bool.and_eq_true_iff.1 h
      obtain ⟨hlow, hhigh⟩ := Bool.and_eq_true_iff.1 hread
      have g : GoodReading s r := ⟨by simpa using hlow, by simpa using hhigh⟩
      exact (State.at_keeps s.dt .rfl).trans (State.monitor_keeps_of_good (g.of_io33 rfl) km kd kn kh)
    · exact .rfl

end

/-! ### A read of a pair's high word lets no software write to the NVM go on (R430, R451) -/

/-- No pair lies just below the NVM window or in it (R451). -/
theorem pairAt_of_nvWindow {a : Nat} (hlo : 0x37FFC ≤ a) (hhi : a < 0x40000) : pairAt a = none := by
  have hne : ∀ b, b < 0x37FFC ∨ 0x40000 ≤ b → a ≠ b := by omega
  have hidx : regIndex 4 a R.TRG_TRIGDT_LO = none := by
    simp only [regIndex, List.find?_eq_none, beq_iff_eq]
    exact fun i _ => (hne _ (.inr (by simp only [R.TRG_TRIGDT_LO]; omega))).symm
  simp [pairAt, hidx, hne, (by omega : a < 0x100000), R.TRG_DT_LO, R.FC_FSW_LO, R.FC_LIVE_LO, R.FC_RET_LO, R.FC_FIRSTDT_LO,
    R.MC_SCRUBERR_LO, R.HK_RDT_LO, R.SYS_SERIAL_LO, R.TRG_TAIOFF_LO, R.CX_TAISW_LO, R.DMA_HALTADDR_LO]

theorem not_window_of_isHi {a : Nat} (h : isHi a = true) : ¬ (0x38000 ≤ a ∧ a < 0x40000) := by
  rintro ⟨hlo, hhi⟩
  simp [isHi, pairAt_of_nvWindow (a := a - 4) (by omega) (by omega)] at h

/-- A read outside the NVM window lets no software write go on. -/
theorem State.readReg_keeps_of_not_window {k : Parts} {s : State} (p : Port) {addr : Nat} (be : Nat)
    (h : ¬ (0x38000 ≤ canonAddr (addr / 4 * 4) ∧ canonAddr (addr / 4 * 4) < 0x40000)) : Keeps k s (s.readReg p addr be).2 := by
  simp only [State.readReg, h, if_false]
  split
  · exact .rfl
  · split
    · exact .rfl
    · have hdue : Keeps k s (if 0x40000 ≤ canonAddr (addr / 4 * 4) ∧ canonAddr (addr / 4 * 4) < 0x50000 then s.trigsDue s.dt else s) :=
        (State.trigsDue_keeps s.dt .rfl).ite .rfl
      split
      · exact State.readLo_keeps p _ hdue
      · split
        · exact State.readHi_keeps p _ _ hdue
        · exact hdue

theorem pairHiRead_keeps {k : Parts} {s : State} (p : Port) (addr be : Nat) : Keeps k s (pairRead p addr be true s) := by
  rw [pairRead, State.whenever]
  split
  · next h =>
    have hi : isHi (canonAddr (addr / 4 * 4)) = true := by simpa using (Bool.and_eq_true_iff.1 h).2
    exact (State.readReg_keeps_of_not_window p be (not_window_of_isHi hi)).mkUpd
  · exact .rfl

/-! ### Every command's law -/

/-- The parts `k` cover what the lists say that command `i` may change: the mode, the NVM, host memory, and a Device Time that goes
back. Device DRAM is in no list. -/
structure Parts.Cover (k : Parts) (i : Instr) : Prop where
  mode : mayChangeMode i = true → k.mode = true
  dram : k.dram = true
  nvm : mayWriteNvm i = true → k.nvm = true
  host : mayWriteHost i = true → k.host = true
  dt : mayRestartTime i = true → k.dt = true

/-- Every command answers with a next state in which only parts that its lists allow differ: by the law of its operation, whose
premises are the lists' entries for it. -/
theorem exec_keeps_of_cover {k : Parts} (i : Instr) (s : State) (h : k.Cover i) : ∃ t, exec i s = .next t ∧ Keeps k s t :=
  match i with
  | .spineFlitCrcFail .. => ⟨_, rfl, spineFlitCrcFail_keeps _ _ .rfl⟩
  | .spineLinkFailed .. => ⟨_, rfl, spineLinkFailed_keeps _ .rfl⟩
  | .c3FloorWindowEnd .. => ⟨_, rfl, c3FloorWindowEnd_keeps _ _ .rfl⟩
  | .collatorLinePlaced .. => ⟨_, rfl, collatorLinePlaced_keeps _ _ _ _ .rfl⟩
  | .quireSlotWrite .. => ⟨_, rfl, quireSlotWrite_keeps _ _ .rfl⟩
  | .quireDispatch .. => ⟨_, rfl, quireDispatch_keeps _ _ .rfl⟩
  | .quireFinished .. => ⟨_, rfl, quireFinished_keeps _ _ _ h.dram .rfl⟩
  | .quireCommit .. => ⟨_, rfl, quireCommit_keeps _ _ h.dram .rfl⟩
  | .residueMismatch .. => ⟨_, rfl, residueMismatch_keeps _ _ _ .rfl⟩
  | .quireTimeout .. => ⟨_, rfl, quireTimeout_keeps _ _ _ .rfl⟩
  | .sramSecdedError .. => ⟨_, rfl, sramSecdedError_keeps _ _ _ _ .rfl⟩
  | .leafReadUe .. => ⟨_, rfl, leafReadUe_keeps _ _ _ _ _ _ .rfl⟩
  | .planEval .. => ⟨_, rfl, planEval_keeps _ .rfl⟩
  | .planReplan .. => ⟨_, rfl, planReplan_keeps _ .rfl⟩
  | .planEvalStart => ⟨_, rfl, planEvalStart_keeps .rfl⟩
  | .planEvalDone => ⟨_, rfl, planEvalDone_keeps (h.mode rfl) (h.nvm rfl) .rfl⟩
  | .planLimitWrite .. => ⟨_, rfl, planLimitWrite_keeps _ .rfl⟩
  | .profileValidate .. => ⟨_, rfl, profileValidate_keeps _ .rfl⟩
  | .profileValidationDone .. => ⟨_, rfl, profileValidationDone_keeps _ .rfl⟩
  | .hpBiasWrite .. => ⟨_, rfl, hpBiasWrite_keeps _ _ .rfl⟩
  | .hpCtrlWrite .. => ⟨_, rfl, State.txnAfter_keeps _ _ (hpCtrlWrite_keeps _ _ .rfl)⟩
  | .hsupRampDone .. => ⟨_, rfl, hsupRampDone_keeps _ _ .rfl⟩
  | .hsupShortDisconnect .. => ⟨_, rfl, hsupShortDisconnect_keeps _ _ (h.nvm rfl) .rfl⟩
  | .hsupReverseDisconnect .. => ⟨_, rfl, hsupReverseDisconnect_keeps _ _ .rfl⟩
  | .hsupRetryStart .. => ⟨_, rfl, hsupRetryStart_keeps _ _ (h.nvm rfl) .rfl⟩
  | .hsupRetryCountReset .. => ⟨_, rfl, hsupRetryCountReset_keeps _ _ .rfl⟩
  | .hsupRetry .. => ⟨_, rfl, hsupRetry_keeps _ .rfl⟩
  | .resume .. => ⟨_, rfl, resume_keeps _ .rfl⟩
  | .dacOvercurrent .. => ⟨_, rfl, dacOvercurrent_keeps _ .rfl⟩
  | .shutClose .. => ⟨_, rfl, shutClose_keeps _ .rfl⟩
  | .shutOpen .. => ⟨_, rfl, shutOpen_keeps _ .rfl⟩
  | .shutterDriveStart .. => ⟨_, rfl, shutterDriveStart_keeps _ _ _ .rfl⟩
  | .shutterPulseEnd .. => ⟨_, rfl, shutterPulseEnd_keeps _ _ .rfl⟩
  | .shutterPositionInput .. => ⟨_, rfl, shutterPositionInput_keeps _ _ _ _ .rfl⟩
  | .shutterPosTimeout .. => ⟨_, rfl, shutterPosTimeout_keeps _ _ .rfl⟩
  | .shutterCoilOpen .. => ⟨_, rfl, shutterCoilOpen_keeps _ .rfl⟩
  | .shutterCoilShort .. => ⟨_, rfl, shutterCoilShort_keeps _ .rfl⟩
  | .hcpGo .. => ⟨_, rfl, hcpGo_keeps _ .rfl⟩
  | .hcpAbort .. => ⟨_, rfl, State.txnAfter_keeps _ _ (hcpAbort_keeps _ .rfl)⟩
  | .hcpTransferDone .. => ⟨_, rfl, State.txnAfter_keeps _ _ (hcpTransferDone_keeps _ _ _ .rfl)⟩
  | .strobeShort .. => ⟨_, rfl, State.txnAfter_keeps _ _ (strobeShort_keeps _ _ .rfl)⟩
  | .gpSetWrite .. => ⟨_, rfl, gpSetWrite_keeps _ _ .rfl⟩
  | .gpClrWrite .. => ⟨_, rfl, gpClrWrite_keeps _ _ .rfl⟩
  | .vblankStart .. => ⟨_, rfl, vblankTxn_keeps _ _ .rfl⟩
  | .tapOpenTestDone .. => ⟨_, rfl, tapOpenTestDone_keeps _ _ .rfl⟩
  | .tcCfgWrite .. => ⟨_, rfl, tcCfgWrite_keeps _ _ .rfl⟩
  | .tcGainWrite .. => ⟨_, rfl, tcGainWrite_keeps _ _ _ .rfl⟩
  | .pgaFilterChange .. => ⟨_, rfl, pgaFilterChange_keeps _ _ .rfl⟩
  | .tcSclkWrite .. => ⟨_, rfl, tcSclkWrite_keeps _ _ .rfl⟩
  | .sclkLocked .. => ⟨_, rfl, sclkLocked_keeps _ .rfl⟩
  | .sclkLockLost .. => ⟨_, rfl, sclkLockLost_keeps _ .rfl⟩
  | .sclkFallback .. => ⟨_, rfl, sclkFallback_keeps _ .rfl⟩
  | .tcRefcfgWrite .. => ⟨_, rfl, tcRefcfgWrite_keeps _ _ .rfl⟩
  | .refokSet .. => ⟨_, rfl, refokSet_keeps _ _ .rfl⟩
  | .refFallback .. => ⟨_, rfl, State.calReleases_keeps _ _ h.dram (refFallback_keeps _ .rfl)⟩
  | .selfcal .. => ⟨_, rfl, selfcal_keeps _ .rfl⟩
  | .bankCalStart .. => ⟨_, rfl, bankCalStart_keeps _ _ .rfl⟩
  | .calPassDone .. => ⟨_, rfl, calPassDone_keeps _ _ _ .rfl⟩
  | .calEnd .. => ⟨_, rfl, State.calReleases_keeps _ _ h.dram (calEnd_keeps _ _ .rfl)⟩
  | .bgtrimMeasure .. => ⟨_, rfl, bgtrimMeasure_keeps _ _ .rfl⟩
  | .frameStart .. => ⟨_, rfl, frameStart_keeps _ _ (h.mode rfl) h.dram (h.nvm rfl) (h.host rfl) .rfl⟩
  | .frameStartPending .. => ⟨_, rfl, frameStartPending_keeps _ _ (h.mode rfl) h.dram (h.nvm rfl) (h.host rfl) .rfl⟩
  | .lineStart .. => ⟨_, rfl, lineStart_keeps _ _ .rfl⟩
  | .ringMarkReceived .. => ⟨_, rfl, ringMarkReceived_keeps _ _ _ .rfl⟩
  | .markEffect .. => ⟨_, rfl, markEffect_keeps _ _ _ .rfl⟩
  | .ringTrigReceived .. => ⟨_, rfl, ringTrigReceived_keeps _ _ _ .rfl⟩
  | .trigPinEdge .. => ⟨_, rfl, trigPinEdge_keeps _ _ _ .rfl⟩
  | .gpFrameEdge .. => ⟨_, rfl, gpFrameEdge_keeps _ _ _ .rfl⟩
  | .hfvRise .. => ⟨_, rfl, hfvRise_keeps _ _ (h.mode rfl) h.dram (h.nvm rfl) (h.host rfl) .rfl⟩
  | .hfvFall .. => ⟨_, rfl, State.settleCapture_keeps _ (hfvFall_keeps _ _ .rfl)⟩
  | .hlvRise .. => ⟨_, rfl, hlvLine_keeps _ _ h.dram .rfl⟩
  | .inputStuck .. => ⟨_, rfl, stuckInput_keeps _ (inputStuck_keeps _ _ .rfl)⟩
  | .heldSlotDue .. => ⟨_, rfl, heldSlotDue_keeps _ _ h.dram .rfl⟩
  | .pairLoRead .. => ⟨_, rfl, pairRead_keeps _ _ _ _ (h.nvm rfl) .rfl⟩
  | .pairHiRead .. => ⟨_, rfl, pairHiRead_keeps _ _ _⟩
  | .pairLoWrite .. => ⟨_, rfl, pairWrite_keeps _ _ _ _ _ .rfl⟩
  | .pairHiWrite .. => ⟨_, rfl, pairWrite_keeps _ _ _ _ _ .rfl⟩
  | .ringRxLock => ⟨_, rfl, ringRxLock_keeps .rfl⟩
  | .ringUpstreamLoss => ⟨_, rfl, ringUpstreamLoss_keeps .rfl⟩
  | .ringTimePacket .. => ⟨_, rfl, ringTimePacket_keeps _ _ .rfl⟩
  | .dtDisciplineTimeout .. => ⟨_, rfl, dtDisciplineTimeout_keeps _ .rfl⟩
  | .ringMsgReceived .. => ⟨_, rfl, ringMsgReceived_keeps _ .rfl⟩
  | .msgSend => ⟨_, rfl, msgSend_keeps .rfl⟩
  | .msgInsert .. => ⟨_, rfl, msgInsert_keeps _ .rfl⟩
  | .msgReturned .. => ⟨_, rfl, msgReturned_keeps _ .rfl⟩
  | .msgLostTimeout .. => ⟨_, rfl, msgLostTimeout_keeps _ .rfl⟩
  | .msgPop => ⟨_, rfl, msgPop_keeps .rfl⟩
  | .ringEnable => ⟨_, rfl, ringEnable_keeps .rfl⟩
  | .ringSelftestDone .. => ⟨_, rfl, ringSelftestDone_keeps _ .rfl⟩
  | .ringHoldRaise => ⟨_, rfl, ringHoldRaise_keeps .rfl⟩
  | .ringDisable .. => ⟨_, rfl, ringDisable_keeps _ .rfl⟩
  | .ringTxOff .. => ⟨_, rfl, ringTxOff_keeps _ .rfl⟩
  | .trgClrcnt => ⟨_, rfl, trgClrcnt_keeps .rfl⟩
  | .hpTstatClrcnt .. => ⟨_, rfl, hpTstatClrcnt_keeps _ .rfl⟩
  | .clHmirWrite .. => ⟨_, rfl, clHmirWrite_keeps _ _ .rfl⟩
  | .msync .. => ⟨_, rfl, msync_keeps _ _ .rfl⟩
  | .mirrorCopyDone .. => ⟨_, rfl, State.mirrorDone_keeps _ _ h.dram .rfl⟩
  | .lswap .. => ⟨_, rfl, lswap_keeps _ .rfl⟩
  | .rswap .. => ⟨_, rfl, rswap_keeps _ .rfl⟩
  | .clClrcnt .. => ⟨_, rfl, clClrcnt_keeps _ .rfl⟩
  | .cxClrcnt .. => ⟨_, rfl, cxClrcnt_keeps _ .rfl⟩
  | .shreq .. => ⟨_, rfl, shreq_keeps _ .rfl⟩
  | .shutterScheduleDue .. => ⟨_, rfl, shutterScheduleDue_keeps _ _ .rfl⟩
  | .shutterCancel .. => ⟨_, rfl, shutterCancel_keeps _ .rfl⟩
  | .refit .. => ⟨_, rfl, refit_keeps _ .rfl⟩
  | .breset .. => ⟨_, rfl, breset_keeps _ .rfl⟩
  | .quietWindowArm .. => ⟨_, rfl, quietWindowArm_keeps _ _ .rfl⟩
  | .quietWindowEnd .. => ⟨_, rfl, quietWindowEnd_keeps _ _ .rfl⟩
  | .shutterEventStart .. => ⟨_, rfl, shutterEventStart_keeps _ _ .rfl⟩
  | .shutterDeadline .. => ⟨_, rfl, shutterDeadline_keeps _ _ .rfl⟩
  | .shutterApplyDone .. => ⟨_, rfl, shutterApplyDone_keeps _ h.dram .rfl⟩
  | .shutterEventTimeout .. => ⟨_, rfl, shutterEventTimeout_keeps _ .rfl⟩
  | .refitStart .. => ⟨_, rfl, refitStart_keeps _ .rfl⟩
  | .refitComputeDone .. => ⟨_, rfl, refitComputeDone_keeps _ .rfl⟩
  | .refitWritesDone .. => ⟨_, rfl, refitWritesDone_keeps _ h.dram .rfl⟩
  | .fpSwap .. => ⟨_, rfl, fpSwap_keeps _ .rfl⟩
  | .radiometricSetReadUe .. => ⟨_, rfl, radiometricSetReadUe_keeps _ _ _ _ .rfl⟩
  | .mcLoad .. => ⟨_, rfl, mcLoad_keeps _ .rfl⟩
  | .microcodeBlockLoadDone .. => ⟨_, rfl, microcodeBlockLoadDone_keeps _ .rfl⟩
  | .mcInstall => ⟨_, rfl, mcInstall_keeps .rfl⟩
  | .mcSetmin => ⟨_, rfl, mcSetmin_keeps .rfl⟩
  | .shadowThirdRunDone .. => ⟨_, rfl, shadowThirdRunDone_keeps _ _ _ _ .rfl⟩
  | .spareRotation .. => ⟨_, rfl, spareRotation_keeps _ .rfl⟩
  | .unretire .. => ⟨_, rfl, unretire_keeps _ _ .rfl⟩
  | .unretireTestDone .. => ⟨_, rfl, unretireTestDone_keeps _ _ _ .rfl⟩
  | .enClrcnt .. => ⟨_, rfl, enClrcnt_keeps _ .rfl⟩
  | .recipeLoad .. => ⟨_, rfl, recipeLoad_keeps _ .rfl⟩
  | .recipeLoadDone => ⟨_, rfl, recipeLoadDone_keeps .rfl⟩
  | .pipeQuireTake .. => ⟨_, rfl, pipeQuireTake_keeps _ _ _ h.dram .rfl⟩
  | .frameCompleteReport .. => ⟨_, rfl, frameCompleteReport_keeps _ _ (h.mode rfl) h.dram (h.nvm rfl) (h.host rfl) .rfl⟩
  | .fpClrcnt .. => ⟨_, rfl, fpClrcnt_keeps _ .rfl⟩
  | .txCfgWrite .. => ⟨_, rfl, txCfgWrite_keeps _ _ .rfl⟩
  | .txClrcnt .. => ⟨_, rfl, txClrcnt_keeps _ .rfl⟩
  | .csiFrameStart .. => ⟨_, rfl, csiFrameStart_keeps _ .rfl⟩
  | .csiPacketSend .. => ⟨_, rfl, csiPacketSend_keeps _ _ .rfl⟩
  | .monitorSample .. => ⟨_, rfl, monitorSample_keeps _ _ _ h.dram .rfl⟩
  | .monSnap .. => ⟨_, rfl, monSnap_keeps _ _ .rfl⟩
  | .monClr .. => ⟨_, rfl, monClr_keeps _ .rfl⟩
  | .monPerWrite .. => ⟨_, rfl, monPerWrite_keeps _ _ .rfl⟩
  | .monitorPeriodEnd .. => ⟨_, rfl, monitorPeriodEnd_keeps _ h.dram .rfl⟩
  | .monCfgWrite .. => ⟨_, rfl, monCfgWrite_keeps _ _ _ .rfl⟩
  | .stClrcnt => ⟨_, rfl, stClrcnt_keeps .rfl⟩
  | .txnOpen .. => ⟨_, rfl, txnOpen_keeps _ .rfl⟩
  | .txnStage .. => ⟨_, rfl, txnStage_keeps _ .rfl⟩
  | .txnCommit .. => ⟨_, rfl, txnCommit_keeps _ _ .rfl⟩
  | .txnRollback .. => ⟨_, rfl, txnRollback_keeps _ .rfl⟩
  | .txnHeadWritesStart .. => ⟨_, rfl, txnHeadWritesStart_keeps _ _ _ .rfl⟩
  | .txnHeadWriteFail .. => ⟨_, rfl, txnHeadWriteFail_keeps _ _ .rfl⟩
  | .txnUndoDone .. => ⟨_, rfl, txnUndoDone_keeps _ _ .rfl⟩
  | .txnDeadline .. => ⟨_, rfl, txnDeadline_keeps _ _ .rfl⟩
  | .ctxRead => ⟨_, rfl, ctxRead_keeps .rfl⟩
  | .ctxWrite => ⟨_, rfl, ctxWrite_keeps .rfl⟩
  | .ctxCmdDone => ⟨_, rfl, ctxCmdDone_keeps h.dram .rfl⟩
  | .qFrangeWrite .. => ⟨_, rfl, qFrangeWrite_keeps _ _ .rfl⟩
  | .doorbell .. => ⟨_, rfl, doorbell_keeps _ _ _ _ h.dram .rfl⟩
  | .submissionFetch .. => ⟨_, rfl, submissionFetch_keeps _ _ h.dram .rfl⟩
  | .cmdNop .. => ⟨_, rfl, cmdNop_keeps _ _ h.dram .rfl⟩
  | .settingsOpen .. => ⟨_, rfl, settingsOpen_keeps _ _ h.dram .rfl⟩
  | .settingsStage .. => ⟨_, rfl, settingsStage_keeps _ _ h.dram .rfl⟩
  | .settingsCommit .. => ⟨_, rfl, settingsCommit_keeps _ _ h.dram .rfl⟩
  | .settingsRollback .. => ⟨_, rfl, settingsRollback_keeps _ _ h.dram .rfl⟩
  | .shutterRequest .. => ⟨_, rfl, cmdShutterRequest_keeps _ _ h.dram .rfl⟩
  | .cmdShutterCancel .. => ⟨_, rfl, cmdShutterCancel_keeps _ _ h.dram .rfl⟩
  | .cmdShutterRefit .. => ⟨_, rfl, cmdShutterRefit_keeps _ _ h.dram .rfl⟩
  | .tableSwap .. => ⟨_, rfl, tableSwap_keeps _ _ h.dram .rfl⟩
  | .microcode .. => ⟨_, rfl, microcode_keeps _ _ h.dram .rfl⟩
  | .dmaCopy .. => ⟨_, rfl, dmaCopy_keeps _ _ h.dram (h.host rfl) .rfl⟩
  | .reprocess .. => ⟨_, rfl, reprocess_keeps _ _ h.dram .rfl⟩
  | .reprocessJobStart => ⟨_, rfl, reprocessJobStart_keeps .rfl⟩
  | .reprocessFrameDone .. => ⟨_, rfl, reprocessFrameDone_keeps _ _ h.dram .rfl⟩
  | .completionPost .. => ⟨_, rfl, completionPost_keeps _ _ h.dram (h.host rfl) .rfl⟩
  | .deliveryCopyDone .. => ⟨_, rfl, deliveryCopyDone_keeps _ _ h.dram (h.host rfl) .rfl⟩
  | .waitingFrameDelivery .. => ⟨_, rfl, waitingFrameDelivery_keeps _ _ h.dram (h.host rfl) .rfl⟩
  | .eventRecordPost .. => ⟨_, rfl, eventRecordPost_keeps _ _ h.dram (h.host rfl) .rfl⟩
  | .msixModerationTimeout .. => ⟨_, rfl, msixModerationTimeout_keeps _ _ h.dram (h.host rfl) .rfl⟩
  | .c0Suspend .. => ⟨_, rfl, c0Suspend_keeps _ _ h.dram .rfl⟩
  | .c0Resume .. => ⟨_, rfl, c0Resume_keeps _ h.dram .rfl⟩
  | .pcieLinkDown .. => ⟨_, rfl, pcieLinkDown_keeps _ h.dram (h.host rfl) .rfl⟩
  | .pcieLinkUp .. => ⟨_, rfl, pcieLinkUp_keeps _ _ _ h.dram .rfl⟩
  | .busMasterChange .. => ⟨_, rfl, busMasterChange_keeps _ _ _ .rfl⟩
  | .pcieError .. => ⟨_, rfl, pcieError_keeps _ .rfl⟩
  | .pcieHotReset => ⟨_, rfl, pcieHotReset_keeps h.dram .rfl⟩
  | .vfFlr .. => ⟨_, rfl, vfFlr_keeps _ h.dram .rfl⟩
  | .functionD3hot .. => ⟨_, rfl, functionD3hot_keeps _ _ .rfl⟩
  | .perstAssert => ⟨_, rfl, perstAssert_keeps h.dram .rfl⟩
  | .bar4Write .. => ⟨_, rfl, bar4Write_keeps _ _ h.dram .rfl⟩
  | .bar4Read .. => ⟨_, rfl, bar4Read_keeps _ _ _ h.dram .rfl⟩
  | .dmaChTailWrite .. => ⟨_, rfl, dmaChTailWrite_keeps _ _ (h.host rfl) .rfl⟩
  | .dmaChCfgWrite .. => ⟨_, rfl, dmaChCfgWrite_keeps _ _ .rfl⟩
  | .dmaChStop .. => ⟨_, rfl, dmaChStop_keeps _ .rfl⟩
  | .dmaChResume .. => ⟨_, rfl, dmaChResume_keeps _ (h.host rfl) .rfl⟩
  | .dmaChStart .. => ⟨_, rfl, dmaChStart_keeps _ (h.host rfl) .rfl⟩
  | .dmaDescFetch .. => ⟨_, rfl, dmaDescFetch_keeps _ _ (h.host rfl) .rfl⟩
  | .dmaReadIssue .. => ⟨_, rfl, dmaReadIssue_keeps _ h.dram (h.host rfl) .rfl⟩
  | .dmaReadCompletion .. => ⟨_, rfl, dmaReadCompletion_keeps _ _ _ h.dram (h.host rfl) .rfl⟩
  | .dmaPacingWindow .. => ⟨_, rfl, dmaPacingWindow_keeps _ .rfl⟩
  | .dmaWriteback .. => ⟨_, rfl, dmaWriteback_keeps _ (h.host rfl) .rfl⟩
  | .dmaHalt .. => ⟨_, rfl, dmaHalt_keeps _ _ _ h.dram (h.host rfl) .rfl⟩
  | .dmaSettled => ⟨_, rfl, dmaSettled_keeps (h.host rfl) .rfl⟩
  | .dmaRestart => ⟨_, rfl, dmaRestart_keeps (h.host rfl) .rfl⟩
  | .dmaAutoRestart => ⟨_, rfl, dmaAutoRestart_keeps (h.host rfl) .rfl⟩
  | .dmaClrcnt => ⟨_, rfl, dmaClrcnt_keeps .rfl⟩
  | .faultReport .. => ⟨_, rfl, faultReport_keeps _ _ (h.mode rfl) h.dram (h.nvm rfl) (h.host rfl) .rfl⟩
  | .depWindowEnd .. => ⟨_, rfl, depWindowEnd_keeps _ _ (h.nvm rfl) .rfl⟩
  | .depRootSettled .. => ⟨_, rfl, depRootSettled_keeps _ _ (h.mode rfl) h.dram (h.nvm rfl) (h.host rfl) .rfl⟩
  | .faultClear .. => ⟨_, rfl, faultClear_keeps _ _ (h.nvm rfl) .rfl⟩
  | .faultAck .. => ⟨_, rfl, faultAck_keeps _ _ .rfl⟩
  | .ceHoldExpire .. => ⟨_, rfl, ceHoldExpire_keeps _ .rfl⟩
  | .faultForce .. => ⟨_, rfl, faultForce_keeps _ _ (h.mode rfl) h.dram (h.nvm rfl) (h.host rfl) .rfl⟩
  | .fcClrfirst => ⟨_, rfl, fcClrfirst_keeps .rfl⟩
  | .fcClrcnt => ⟨_, rfl, fcClrcnt_keeps .rfl⟩
  | .unitRestore .. => ⟨_, rfl, unitRestore_keeps _ _ .rfl⟩
  | .restoreTestDone .. => ⟨_, rfl, restoreTestDone_keeps _ _ (h.nvm rfl) .rfl⟩
  | .churnRequest .. => ⟨_, rfl, churnRequest_keeps _ _ _ .rfl⟩
  | .churnQueuedStart .. => ⟨_, rfl, churnQueuedStart_keeps _ _ _ .rfl⟩
  | .churnQwaitExpire .. => ⟨_, rfl, churnQwaitExpire_keeps _ .rfl⟩
  | .scrubPassStart .. => ⟨_, rfl, scrubPassStart_keeps _ _ .rfl⟩
  | .scrubWordCheck .. => ⟨_, rfl, scrubWordCheck_keeps _ _ _ _ h.dram .rfl⟩
  | .mcClrcnt => ⟨_, rfl, mcClrcnt_keeps .rfl⟩
  | .modeDormant => ⟨_, rfl, modeDormant_keeps (h.mode rfl) (h.nvm rfl) .rfl⟩
  | .modeSetup .. => ⟨_, rfl, modeSetup_keeps _ (h.mode rfl) h.dram (h.nvm rfl) (h.host rfl) .rfl⟩
  | .modeRun => ⟨_, rfl, modeRun_keeps .rfl⟩
  | .modeThrottle => ⟨_, rfl, modeThrottle_keeps (h.mode rfl) (h.nvm rfl) .rfl⟩
  | .modeUnthrottle => ⟨_, rfl, modeUnthrottle_keeps (h.mode rfl) (h.nvm rfl) .rfl⟩
  | .modeSafe .. => ⟨_, rfl, modeSafe_keeps _ (h.mode rfl) h.dram (h.nvm rfl) (h.host rfl) .rfl⟩
  | .setupTransitionDone => ⟨_, rfl, setupTransitionDone_keeps (h.mode rfl) h.dram (h.nvm rfl) (h.host rfl) .rfl⟩
  | .dramTrainingDone .. => ⟨_, rfl, dramTrainingDone_keeps _ _ _ .rfl⟩
  | .sysStreamWrite .. => ⟨_, rfl, sysStreamWrite_keeps _ .rfl⟩
  | .safeCauseClear .. => ⟨_, rfl, safeCauseClear_keeps _ .rfl⟩
  | .resetEntry .. => ⟨_, rfl, resetEntry_keeps _ (h.mode rfl) h.dram (h.nvm rfl) (h.host rfl) (h.dt rfl) .rfl⟩
  | .resetRelease => ⟨_, rfl, resetRelease_keeps (h.nvm rfl) (h.dt rfl) .rfl⟩
  | .dormantEntry .. => ⟨_, rfl, dormantEntry_keeps _ (h.mode rfl) (h.nvm rfl) .rfl⟩
  | .refClockStop .. => ⟨_, rfl, refClockStop_keeps _ (h.mode rfl) h.dram (h.nvm rfl) (h.host rfl) .rfl⟩
  | .refClockReturn => ⟨_, rfl, refClockReturn_keeps .rfl⟩
  | .pllLocked => ⟨_, rfl, pllLocked_keeps .rfl⟩
  | .railSag .. => ⟨_, rfl, railSag_keeps _ (h.mode rfl) h.dram (h.nvm rfl) (h.host rfl) (h.dt rfl) .rfl⟩
  | .railFailure .. => ⟨_, rfl, railFailure_keeps _ _ _ (h.mode rfl) h.dram (h.nvm rfl) (h.host rfl) (h.dt rfl) .rfl⟩
  | .railGood .. => ⟨_, rfl, railGood_keeps_forward (h.mode rfl) h.dram (h.nvm rfl) (h.host rfl)⟩
  | .powerfailAssert .. => ⟨_, rfl, powerfailAssert_keeps _ _ (h.mode rfl) h.dram (h.nvm rfl) (h.host rfl) (h.dt rfl) .rfl⟩
  | .powerfailPersistDone => ⟨_, rfl, powerfailPersistDone_keeps (h.mode rfl) h.dram (h.nvm rfl) (h.dt rfl) .rfl⟩
  | .aonCollapse => ⟨_, rfl, aonCollapse_keeps (h.mode rfl) h.dram (h.nvm rfl) (h.dt rfl) .rfl⟩
  | .hkRoundStart .. => ⟨_, rfl, hkRoundStart_keeps _ .rfl⟩
  | .hkConversionDone .. => ⟨_, rfl, hkConversionDone_keeps _ _ .rfl⟩
  | .hkRoundEnd .. => ⟨_, rfl, hkRoundEnd_keeps _ (h.mode rfl) h.dram (h.nvm rfl) (h.host rfl) .rfl⟩
  | .hkCfgWrite .. => ⟨_, rfl, hkCfgWrite_keeps _ _ .rfl⟩
  | .hkInj .. => ⟨_, rfl, hkInj_keeps _ .rfl⟩
  | .thCfgWrite .. => ⟨_, rfl, thCfgWrite_keeps _ .rfl⟩
  | .thMaskWrite .. => ⟨_, rfl, thMaskWrite_keeps _ .rfl⟩
  | .nvWrite => ⟨_, rfl, nvWrite_keeps .rfl⟩
  | .nvPageWriteDone .. => ⟨_, rfl, nvPageWriteDone_keeps _ (h.nvm rfl) .rfl⟩
  | .nvWindowRead .. => ⟨_, rfl, nvWindowRead_keeps _ _ _ (h.nvm rfl) .rfl⟩
  | .nvInterlockClear .. => ⟨_, rfl, nvInterlockClear_keeps _ (h.nvm rfl) .rfl⟩
  | .slotPersist .. => ⟨_, rfl, slotPersist_keeps _ _ (h.nvm rfl) .rfl⟩
  | .persistWindowEnd .. => ⟨_, rfl, persistWindowEnd_keeps _ _ (h.nvm rfl) .rfl⟩
  | .bootHourlyPersist .. => ⟨_, rfl, bootHourlyPersist_keeps _ (h.nvm rfl) .rfl⟩
  | .nvRelocation .. => ⟨_, rfl, nvRelocation_keeps _ (h.nvm rfl) .rfl⟩
  | .nvClrcnt => ⟨_, rfl, nvClrcnt_keeps .rfl⟩
  | .mspStatus => ⟨_, rfl, mspStatus_keeps (h.nvm rfl) .rfl⟩
  | .mspWrite .. => ⟨_, rfl, mspWrite_keeps _ _ _ (h.mode rfl) h.dram (h.nvm rfl) (h.host rfl) .rfl⟩
  | .mspRead .. => ⟨_, rfl, mspRead_keeps _ _ _ (h.nvm rfl) .rfl⟩
  | .mspWriteCrc .. => ⟨_, rfl, mspWrite_keeps _ _ _ (h.mode rfl) h.dram (h.nvm rfl) (h.host rfl) .rfl⟩
  | .mspReadCrc .. => ⟨_, rfl, mspRead_keeps _ _ _ (h.nvm rfl) .rfl⟩
  | .mspReadFetch => ⟨_, rfl, mspReadFetch_keeps (h.nvm rfl) .rfl⟩
  | .mspBadFrame .. => ⟨_, rfl, mspBadFrame_keeps _ (h.nvm rfl) .rfl⟩
  | .mspClrcnt => ⟨_, rfl, mspClrcnt_keeps .rfl⟩
  | .drClrcnt => ⟨_, rfl, drClrcnt_keeps .rfl⟩
  | .registerWrite .. => ⟨_, rfl, State.writeReg_keeps _ _ _ _ _ (h.mode rfl) h.dram (h.nvm rfl) (h.host rfl) .rfl⟩
  | .tapExtest => ⟨_, rfl, tapInstruction_keeps _ .rfl⟩
  | .tapIdcode => ⟨_, rfl, tapInstruction_keeps _ .rfl⟩
  | .tapSamplePreload .. => ⟨_, rfl, tapPreload_keeps _ .rfl⟩
  | .tapHighz => ⟨_, rfl, tapInstruction_keeps _ .rfl⟩
  | .tapClamp => ⟨_, rfl, tapInstruction_keeps _ .rfl⟩
  | .tapExtestPulse => ⟨_, rfl, tapInstruction_keeps _ .rfl⟩
  | .tapExtestTrain => ⟨_, rfl, tapInstruction_keeps _ .rfl⟩
  | .tapBypass .. => ⟨_, rfl, tapBypass_keeps _ .rfl⟩
  | .testModeExitReset => ⟨_, rfl, testModeExitReset_keeps (h.mode rfl) h.dram (h.nvm rfl) (h.host rfl) (h.dt rfl) .rfl⟩
  | .tapReset => ⟨_, rfl, tapReset_keeps .rfl⟩
  | .timingInputDeassert .. => ⟨_, rfl, timingInputDeassert_keeps _ _ .rfl⟩
  | .ringCharError .. => ⟨_, rfl, ringCharError_keeps _ .rfl⟩
  | .powerfailEnd => ⟨_, rfl, powerfailEnd_keeps .rfl⟩

/-- Every part may change, and Device Time does not go back. -/
def forwardParts : Parts := ⟨true, true, true, true, false⟩

theorem forwardParts_cover {i : Instr} (hi : mayRestartTime i = false) : forwardParts.Cover i :=
  ⟨fun _ => rfl, rfl, fun _ => rfl, fun _ => rfl, fun h => by simp [hi] at h⟩

/-- Settles O60: a command that no list lets restart the time keeps Device Time from going back, by its own law. -/
theorem deviceTimeNeverGoesBackOutsideReset : Obligations.DeviceTimeNeverGoesBackOutsideReset := by
  unfold Obligations.DeviceTimeNeverGoesBackOutsideReset
  intro i s t hi ht
  obtain ⟨u, hu, hk⟩ := exec_keeps_of_cover i s (forwardParts_cover hi)
  obtain rfl : u = t := Host.Outcome.next.inj (hu.symm.trans ht)
  exact hk.dt rfl

end Sys2Proof.Machine
end

section
/-! PROOFS. What differs after an operation of the Timing Ring: registers and what its logic holds. -/

namespace Sys2Proof.Machine

/-- Registers and what the Timing Ring logic holds are all that differs. -/
def RingWork (s t : State) : Prop := t = { s with regs := t.regs, ring := t.ring }

namespace RingWork

theorem refl (s : State) : RingWork s s := Eq.refl s

theorem trans {s t u : State} (h : RingWork s t) (g : RingWork t u) : RingWork s u :=
  Eq.trans g (congrArg (fun x : State => { x with regs := u.regs, ring := u.ring }) h)

variable {s t : State}

theorem put (h : RingWork s t) (f : Fld) (v : Nat) : RingWork s (t.put f v) := h.trans (Eq.refl (t.put f v))

theorem modRing (h : RingWork s t) (f : Ring → Ring) : RingWork s (t.modRing f) := h.trans (Eq.refl (t.modRing f))

end RingWork

theorem OnlyRegs.ringWork {s t : State} (h : OnlyRegs s t) : RingWork s t :=
  Eq.trans h (congrArg (fun x : State => { s with regs := t.regs, ring := x.ring }) h.symm)

theorem OnlyRegs.ring {s t : State} (h : OnlyRegs s t) : t.ring = s.ring := by
  rw [OnlyRegs] at h
  rw [h]

theorem SameRegs.modRing {l : List Nat} {s t : State} (h : SameRegs l s t) (f : Ring → Ring) : SameRegs l s (t.modRing f) := h

theorem SameRegs.at {l : List Nat} {s u : State} (h : SameRegs l s u) (t : Nat) : SameRegs l s (u.at t) := h

/-- Setting a field of a register leaves every other register. -/
theorem State.put_sameRegs (s : State) (f : Fld) (v : Nat) : SameRegs [f.addr] s (s.put f v) :=
  (SameRegs.refl _ s).put f v (by simp)

theorem SameRegs.bump {l : List Nat} {s t : State} (h : SameRegs l s t) (f : Fld) (hf : f.addr ∈ l) : SameRegs l s (t.bump f) :=
  h.put f _ hf

end Sys2Proof.Machine
end

section
/-! PROOFS. The path of the Timing Ring (R133): its self-test, RING_HOLD, its disabling, and the statement on them. -/

namespace Sys2Proof.Machine

/-! ### Enabling and the self-test -/

/-- The ring as RING_ENABLE leaves it: EN set, PATHFAIL clear, the self-test running. -/
def State.ringTesting (s : State) : State :=
  ((s.put F.TRG_CTRL_EN 1).put F.TRG_STAT_PATHFAIL 0).modRing fun g =>
    { g with selftest := true, passed := false, txOffAt := none }

theorem State.ringTesting_en (s : State) : s.ringTesting.get F.TRG_CTRL_EN = 1 := by
  rw [State.ringTesting, State.modRing_get, State.get_put_reg _ _ _ _ (by simp), State.get_put_of_lt _ (by simp) (by simp)]

theorem State.ringTesting_pathfail (s : State) : s.ringTesting.get F.TRG_STAT_PATHFAIL = 0 := by
  rw [State.ringTesting, State.modRing_get, State.get_put_of_lt _ (by simp) (by simp)]

theorem State.ringTesting_sameRegs (s : State) : SameRegs [R.TRG_CTRL, R.TRG_STAT] s s.ringTesting :=
  (((SameRegs.refl _ s).put _ _ (by simp)).put _ _ (by simp)).modRing _

section
variable {s : State}

theorem exec_ringEnable_of_enabled (he : s.flag F.TRG_CTRL_EN = true) (hp : s.flag F.TRG_STAT_PATHFAIL = false) :
    exec .ringEnable s = .next s :=
  congrArg _ (State.whenever_neg _ _ _ (by simp [he, hp]))

theorem exec_ringEnable (ha : s.access R.TRG_CTRL = true)
    (h : s.flag F.TRG_CTRL_EN = false ∨ s.flag F.TRG_STAT_PATHFAIL = true) : exec .ringEnable s = .next s.ringTesting :=
  congrArg _ (State.whenever_pos _ _ _ (by rcases h with h | h <;> simp [ha, h]))

theorem exec_ringSelftestDone_of_idle (b : Bool) (h : s.ring.selftest = false) : exec (.ringSelftestDone b) s = .next s :=
  congrArg _ (State.whenever_neg _ _ _ (by simp [h]))

theorem exec_ringSelftestDone_passed (hu : s.up = true) (h : s.ring.selftest = true) :
    exec (.ringSelftestDone true) s = .next (s.modRing fun g =>
      { g with selftest := false, passed := true, txOn := true, sent := some { kind := .idle, at_ := s.dt } }) :=
  congrArg _ (State.whenever_pos _ _ _ (by simp [hu, h]))

theorem exec_ringSelftestDone_failed (hu : s.up = true) (h : s.ring.selftest = true) :
    exec (.ringSelftestDone false) s = .next (((s.modRing fun g => { g with selftest := false, passed := false }).put
      F.TRG_STAT_PATHFAIL 1).raise 50 .uc (detailWord 0xFF 27 0x014)) :=
  congrArg _ (State.whenever_pos _ _ _ (by simp [hu, h]))

/-! ### RING_HOLD, and the end of the transmitter -/

theorem exec_ringHoldRaise (hu : s.up = true) (he : s.flag F.TRG_CTRL_EN = true) (hp : s.ring.passed = true)
    (ht : s.ring.txOn = true) : exec .ringHoldRaise s = .next (s.put F.TRG_STAT_HOLD 1) :=
  congrArg _ (State.whenever_pos _ _ _ (by simp [hu, he, hp, ht]))

theorem exec_ringHoldRaise_of_unready
    (h : s.up = false ∨ s.flag F.TRG_CTRL_EN = false ∨ s.ring.passed = false ∨ s.ring.txOn = false) :
    exec .ringHoldRaise s = .next s :=
  congrArg _ (State.whenever_neg _ _ _ (by rcases h with h | h | h | h <;> simp [h]))

theorem exec_ringDisable (t : Nat) (ha : s.access R.TRG_CTRL = true) :
    exec (.ringDisable t) s = .next ((((s.at t).put F.TRG_CTRL_EN 0).put F.TRG_STAT_HOLD 0).modRing fun g =>
      { g with selftest := false, passed := false, txOffAt := some (t + 10000) }) :=
  congrArg _ (State.whenever_pos _ _ _ ha)

theorem exec_ringTxOff {t d : Nat} (hd : s.ring.txOffAt = some d) (ht : d ≤ t) :
    exec (.ringTxOff t) s = .next ((s.at t).modRing fun g => { g with txOn := false, txOffAt := none, sent := none }) := by
  refine congrArg Host.Outcome.next ?_
  rw [ringTxOff, hd]
  exact State.whenever_pos _ _ _ (by simpa using ht)

theorem exec_ringTxOff_of_early {t : Nat} (h : (s.ring.txOffAt.all fun d => decide (t < d)) = true) :
    exec (.ringTxOff t) s = .next s := by
  refine congrArg Host.Outcome.next ?_
  rw [ringTxOff]
  split
  · rfl
  · next d hd => exact State.whenever_neg _ _ _ (by simpa [hd] using h)

end

/-- Settles O20: each command by the state it leaves, in which TRG_CTRL, TRG_STAT and the ring logic alone differ. -/
theorem timingRingEnablingAndPath : Obligations.TimingRingEnablingAndPath := by
  unfold Obligations.TimingRingEnablingAndPath
  refine ⟨?enabled, ?enables, ?passes, ?fails, ?raises, ?unready, ?untested, ?disables, ?stops, ?early⟩
  case enabled => exact fun s _ he hp => ⟨s, exec_ringEnable_of_enabled he hp, rfl⟩
  case enables =>
    exact fun s ha h => ⟨s.ringTesting, exec_ringEnable ha h, s.ringTesting_en, s.ringTesting_pathfail, rfl, rfl,
      s.ringTesting_sameRegs, rfl⟩
  case passes => exact fun s hu h => ⟨_, exec_ringSelftestDone_passed hu h, rfl, rfl, rfl, rfl⟩
  case fails =>
    intro s hu h
    refine ⟨_, exec_ringSelftestDone_failed hu h, rfl, ?_, ⟨_, rfl⟩, ?_, rfl⟩
    · rw [State.raise_get, State.get_put_of_lt _ (by simp) (by simp)]
    · exact (((SameRegs.refl _ s).modRing _).put _ _ (by simp)).raise _ _ _
  case raises =>
    intro s hu he hp ht
    obtain ⟨hhold, hregs, honly⟩ := s.put_flag (f := F.TRG_STAT_HOLD) (by simp) rfl
    exact ⟨_, exec_ringHoldRaise hu he hp ht, hhold, hregs, honly⟩
  case unready => exact fun s h => ⟨s, exec_ringHoldRaise_of_unready h, rfl⟩
  case untested => exact fun b s h => ⟨s, exec_ringSelftestDone_of_idle b h, rfl⟩
  case disables =>
    intro t s ha
    refine ⟨_, exec_ringDisable t ha, ?_, ?_, rfl, ?_, rfl⟩
    · rw [State.modRing_get, State.get_put_reg _ _ _ _ (by simp), State.get_put_of_lt _ (by simp) (by simp)]
    · rw [State.modRing_get, State.get_put_of_lt _ (by simp) (by simp)]
    · exact ((((SameRegs.refl _ s).at t).put _ _ (by simp)).put _ _ (by simp)).modRing _
  case stops => exact fun t d s hd ht => ⟨_, exec_ringTxOff hd ht, rfl, rfl, rfl⟩
  case early => exact fun t s h => ⟨s, exec_ringTxOff_of_early h, rfl⟩

end Sys2Proof.Machine
end

section
/-! PROOFS. Messages on the Timing Ring (R132): sending, insertion, the answer, receipt and POP, and the statement on them. -/

namespace Sys2Proof.Machine

/-! ### What is repeated (R130) -/

/-- Repeating is a note of what was sent last, made while RING_HOLD is high. -/
theorem State.repeatOut_eq (s : State) (k : RingKind) (bs : List Byte) :
    s.repeatOut k bs =
      s.modRing fun g => { g with sent := if s.ringHold then some { kind := k, bytes := bs, at_ := s.dt + 40 } else g.sent } := by
  rw [State.repeatOut]
  split <;> rfl

/-! ### Sending and insertion -/

/-- The message that SEND queues: the first LEN bytes of the transmit words. -/
def State.txMessage (s : State) : RingMsg where
  src := s.get F.TRG_STAT_HOP
  dst := s.get F.TRG_MSGCMD_DST
  payload := ((List.range 4).flatMap fun k => leBytes 4 (s.get (F.TRG_MSGTX_W k))).take (s.get F.TRG_MSGCMD_LEN)

section
variable {s : State}

theorem exec_msgSend (ha : s.access R.TRG_MSGCMD = true) (hb : s.flag F.TRG_MSGSTAT_TXBUSY = false)
    (h1 : 1 ≤ s.get F.TRG_MSGCMD_LEN) (h16 : s.get F.TRG_MSGCMD_LEN ≤ 16) :
    exec .msgSend s = .next ((s.put F.TRG_MSGSTAT_TXBUSY 1).modRing fun g =>
      { g with tx := some s.txMessage, txSent := none, sendAt := s.dt }) := by
  refine congrArg Host.Outcome.next ((State.whenever_pos _ _ _ ha).trans (if_neg ?_))
  simp only [hb, Bool.false_or, Bool.or_eq_true, decide_eq_true_eq]
  omega

theorem exec_msgSend_refused (ha : s.access R.TRG_MSGCMD = true)
    (h : s.flag F.TRG_MSGSTAT_TXBUSY = true ∨ s.get F.TRG_MSGCMD_LEN = 0 ∨ 16 < s.get F.TRG_MSGCMD_LEN) :
    exec .msgSend s = .next (s.put F.TRG_MSGSTAT_VALUE_REJ 1) := by
  refine congrArg Host.Outcome.next ((State.whenever_pos _ _ _ ha).trans (if_pos ?_))
  simpa only [Bool.or_eq_true, decide_eq_true_eq, or_assoc] using h

theorem exec_msgInsert {t : Nat} {m : RingMsg} (hh : s.ringHold = true) (hm : s.ring.tx = some m) (hs : s.ring.txSent = none) :
    exec (.msgInsert t) s = .next ((s.at t).modRing fun g =>
      { g with txSent := some t, sent := some { kind := .msg, bytes := m.packet 0, at_ := t } }) := by
  refine congrArg Host.Outcome.next ?_
  rw [msgInsert, hm]
  exact State.whenever_pos _ _ _ (by simp [hh, hs])

theorem exec_msgInsert_of_unready {t : Nat} (h : s.ringHold = false ∨ s.ring.tx = none ∨ s.ring.txSent.isSome = true) :
    exec (.msgInsert t) s = .next s := by
  refine congrArg Host.Outcome.next ?_
  rw [msgInsert]
  split
  · rfl
  · next m hm =>
    refine State.whenever_neg _ _ _ ?_
    rcases h with h | h | h
    · simp [h]
    · simp [hm] at h
    · obtain ⟨n, hn⟩ := Option.isSome_iff_exists.1 h
      simp [hn]

/-! ### The answer and its time limit -/

theorem State.txEnd_busy (s : State) (code : Nat) : (s.txEnd code).get F.TRG_MSGSTAT_TXBUSY = 0 := by
  rw [State.txEnd, State.modRing_get, State.get_put_disjoint _ _ _ _ (by simp), State.get_put_of_lt _ (by simp) (by simp)]

theorem State.txEnd_result (s : State) {code : Nat} (hc : code < 4) : (s.txEnd code).get F.TRG_MSGSTAT_TXRESULT = code := by
  rw [State.txEnd, State.modRing_get, State.get_put_of_lt _ (by simp) (by simpa using hc)]

theorem State.txEnd_sameRegs (s : State) (code : Nat) : SameRegs [R.TRG_MSGSTAT] s (s.txEnd code) :=
  (((SameRegs.refl _ s).put _ _ (by simp)).put _ _ (by simp)).modRing _

/-- The result of an intact answer (R132): ACKED for one whose ACK is set, and for a broadcast; else NAKED. -/
def answerResult (bs : List Byte) (m : RingMsg) : Nat :=
  if m.dst = 0xFF ∨ bit (leAt bs (3 + leAt bs 2 1) 1) 0 = true then 1 else 2

theorem answerResult_lt (bs : List Byte) (m : RingMsg) : answerResult bs m < 4 := by
  rw [answerResult]
  split <;> decide

theorem exec_msgReturned {bs : List Byte} {m : RingMsg} {n : Nat} (hr : s.ringRx = true) (hm : s.ring.tx = some m)
    (hs : s.ring.txSent = some n) (hb : msgSound bs = true) :
    exec (.msgReturned bs) s = .next ((s.repeatOut .idle []).txEnd (answerResult bs m)) := by
  refine congrArg Host.Outcome.next ?_
  rw [msgReturned, hm, hs]
  exact (State.whenever_pos _ _ _ hr).trans (if_neg (by simp [hb]))

theorem exec_msgReturned_of_bad {bs : List Byte} {m : RingMsg} {n : Nat} (hr : s.ringRx = true) (hm : s.ring.tx = some m)
    (hs : s.ring.txSent = some n) (hb : msgSound bs = false) :
    exec (.msgReturned bs) s = .next (s.bump F.TRG_ERRCNT_CRC) := by
  refine congrArg Host.Outcome.next ?_
  rw [msgReturned, hm, hs]
  exact (State.whenever_pos _ _ _ hr).trans (if_pos (by simp [hb]))

theorem exec_msgLostTimeout {t : Nat} (hm : s.ring.tx.isSome = true) (ht : s.ring.sendAt + 100000 ≤ t) :
    exec (.msgLostTimeout t) s = .next ((s.at t).txEnd 3) :=
  congrArg Host.Outcome.next (State.whenever_pos _ _ _ (by simp [hm, ht]))

end

/-! ### The receive queue -/

/-- The registers that show the receive queue's head entry. -/
abbrev rxHeadRegs : List Nat := R.TRG_MSGRXHDR :: (List.range 4).map R.TRG_MSGRX

/-- TRG_MSGSTAT.RXCOUNT is set, then the registers of the head entry. -/
theorem State.syncRx_sameRegs_count (s : State) : SameRegs rxHeadRegs (s.put F.TRG_MSGSTAT_RXCOUNT s.ring.rx.length) s.syncRx := by
  rw [State.syncRx]
  exact foldl_put_sameRegs (fun k => F.TRG_MSGRX_W k) _ (((SameRegs.refl _ _).put _ _ (by simp)).put _ _ (by simp))
    fun k hk => List.mem_cons_of_mem _ (List.mem_map_of_mem hk)

theorem State.syncRx_sameRegs (s : State) : SameRegs ([R.TRG_MSGSTAT, R.TRG_MSGRXHDR] ++ (List.range 4).map R.TRG_MSGRX) s s.syncRx :=
  ((s.put_sameRegs F.TRG_MSGSTAT_RXCOUNT _).mono (by simp)).trans (s.syncRx_sameRegs_count.mono fun _ => List.mem_cons_of_mem _)

theorem State.syncRx_onlyRegs (s : State) : OnlyRegs s s.syncRx := by
  rw [State.syncRx]
  exact foldl_put_onlyRegs (fun k => F.TRG_MSGRX_W k) _ (((OnlyRegs.put (Eq.refl s) _ _).put _ _).put _ _)

theorem State.syncRx_count {s : State} (h : s.ring.rx.length ≤ 8) : s.syncRx.get F.TRG_MSGSTAT_RXCOUNT = s.ring.rx.length := by
  rw [s.syncRx_sameRegs_count.get _ (by decide), State.get_put_of_lt _ (by simp) (by simp; omega)]

/-! ### Receipt -/

theorem RingWork.repeatOut {s t : State} (h : RingWork s t) (k : RingKind) (bs : List Byte) : RingWork s (t.repeatOut k bs) := by
  rw [State.repeatOut_eq]
  exact h.modRing _

theorem SameRegs.repeatOut {l : List Nat} {s t : State} (h : SameRegs l s t) (k : RingKind) (bs : List Byte) :
    SameRegs l s (t.repeatOut k bs) := by
  rw [State.repeatOut_eq]
  exact h.modRing _

theorem State.repeatOut_get (s : State) (k : RingKind) (bs : List Byte) (f : Fld) : (s.repeatOut k bs).get f = s.get f := by
  rw [State.repeatOut_eq, State.modRing_get]

theorem State.repeatOut_rx (s : State) (k : RingKind) (bs : List Byte) : (s.repeatOut k bs).ring.rx = s.ring.rx := by
  rw [State.repeatOut_eq]
  rfl

/-- A sound message repeated as it came. -/
def State.msgPassed (s : State) (bs : List Byte) : State := (s.repeatOut .msg bs).modRing fun g => { g with acked := false }

/-- The message in a MSG packet. -/
def messageOf (bs : List Byte) : RingMsg where
  src := leAt bs 0 1
  dst := leAt bs 1 1
  payload := (bs.drop 3).take (leAt bs 2 1)

/-- A message that is copied: repeated with ACK set, and at the end of the queue. -/
def State.msgCopied (s : State) (bs : List Byte) : State :=
  ((s.msgPassed bs).repeatOut .msg (patch bs (3 + leAt bs 2 1) (leBytes 1 (leAt bs (3 + leAt bs 2 1) 1 ||| 1)))).modRing fun g =>
    { g with rx := g.rx ++ [messageOf bs], acked := true }

/-- A message is for every device or for this hop. -/
abbrev State.msgMine (s : State) (bs : List Byte) : Prop := leAt bs 1 1 = 0xFF ∨ leAt bs 1 1 = s.get F.TRG_STAT_HOP

theorem msgSound_iff {bs : List Byte} : msgSound bs = true ↔
    (1 ≤ leAt bs 2 1 ∧ leAt bs 2 1 ≤ 16) ∧ beNat ((bs.drop (4 + leAt bs 2 1)).take 2) = crc16 (bs.take (3 + leAt bs 2 1)) := by
  simp [msgSound, Nat.one_le_iff_ne_zero]

section
variable {s : State} {bs : List Byte}

theorem State.msgPassed_rx : (s.msgPassed bs).ring.rx = s.ring.rx := s.repeatOut_rx _ _

theorem State.msgPassed_work : RingWork s (s.msgPassed bs) := ((RingWork.refl s).repeatOut _ _).modRing _

theorem State.msgPassed_sameRegs (l : List Nat) : SameRegs l s (s.msgPassed bs) := ((SameRegs.refl l s).repeatOut _ _).modRing _

theorem State.msgPassed_mine (h : s.msgMine bs) : (s.msgPassed bs).msgMine bs :=
  h.imp_right fun e => e.trans (s.repeatOut_get _ _ _).symm

theorem State.msgPassed_not_mine (h : ¬ s.msgMine bs) : ¬ (s.msgPassed bs).msgMine bs :=
  fun hm => h (hm.imp_right fun e => e.trans (s.repeatOut_get _ _ _))

theorem State.msgCopied_rx : (s.msgCopied bs).ring.rx = s.ring.rx ++ [messageOf bs] := by
  rw [State.msgCopied, State.repeatOut_eq, ← State.msgPassed_rx (s := s) (bs := bs)]
  rfl

theorem exec_ringMsgReceived_of_bad (hr : s.ringRx = true) (hb : msgSound bs = false) :
    exec (.ringMsgReceived bs) s = .next ((s.repeatOut .msg bs).bump F.TRG_ERRCNT_CRC) :=
  congrArg Host.Outcome.next ((State.whenever_pos _ _ _ hr).trans (if_pos (by simp [hb])))

theorem ringMsgReceived_of_sound (hr : s.ringRx = true) (hb : msgSound bs = true) :
    ringMsgReceived bs s =
      if (s.msgPassed bs).msgMine bs then
        if (s.msgPassed bs).ring.rx.length < 8 then (s.msgCopied bs).syncRx else (s.msgPassed bs).bump F.TRG_MSGSTAT_RXOVF
      else s.msgPassed bs :=
  (State.whenever_pos _ _ _ hr).trans (if_neg (by simp [hb]))

theorem exec_ringMsgReceived_copied (hr : s.ringRx = true) (hb : msgSound bs = true) (hm : s.msgMine bs)
    (hl : s.ring.rx.length < 8) : exec (.ringMsgReceived bs) s = .next (s.msgCopied bs).syncRx :=
  congrArg Host.Outcome.next <| (ringMsgReceived_of_sound hr hb).trans <|
    (if_pos (State.msgPassed_mine hm)).trans (if_pos (by rwa [State.msgPassed_rx]))

theorem exec_ringMsgReceived_full (hr : s.ringRx = true) (hb : msgSound bs = true) (hm : s.msgMine bs)
    (hl : 8 ≤ s.ring.rx.length) : exec (.ringMsgReceived bs) s = .next ((s.msgPassed bs).bump F.TRG_MSGSTAT_RXOVF) :=
  congrArg Host.Outcome.next <| (ringMsgReceived_of_sound hr hb).trans <|
    (if_pos (State.msgPassed_mine hm)).trans (if_neg (by rw [State.msgPassed_rx]; omega))

theorem exec_ringMsgReceived_passed (hr : s.ringRx = true) (hb : msgSound bs = true) (hm : ¬ s.msgMine bs) :
    exec (.ringMsgReceived bs) s = .next (s.msgPassed bs) :=
  congrArg Host.Outcome.next ((ringMsgReceived_of_sound hr hb).trans (if_neg (State.msgPassed_not_mine hm)))

theorem exec_msgPop (ha : s.access R.TRG_MSGCMD = true) :
    exec .msgPop s = .next (s.modRing fun g => { g with rx := g.rx.drop 1 }).syncRx :=
  congrArg Host.Outcome.next (State.whenever_pos _ _ _ ha)

end

/-- Settles O19: each command by the state it leaves; a message received by its soundness, whose it is, and the room in the queue. -/
theorem timingRingMessages : Obligations.TimingRingMessages := by
  unfold Obligations.TimingRingMessages
  refine ⟨?sends, ?refuses, ?inserts, ?waits, ?badAnswer, ?answered, ?lost, ?copied, ?passed, ?bad, ?full, ?pops⟩
  case sends =>
    intro s ha hb h1 h16
    refine ⟨_, exec_msgSend ha hb h1 h16, ?_, rfl, rfl, rfl, rfl, ?_, rfl⟩
    · rw [State.modRing_get, State.get_put_of_lt _ (by simp) (by simp)]
    · exact ((SameRegs.refl _ s).put _ _ (by simp)).modRing _
  case refuses =>
    intro s ha h
    obtain ⟨hrej, hregs, honly⟩ := s.put_flag (f := F.TRG_MSGSTAT_VALUE_REJ) (by simp) rfl
    exact ⟨_, exec_msgSend_refused ha h, hrej, hregs, honly⟩
  case inserts => exact fun t m s hh hm hs => ⟨_, exec_msgInsert hh hm hs, rfl, SameRegs.refl _ s, rfl⟩
  case waits => exact fun t s h => ⟨s, exec_msgInsert_of_unready h, rfl⟩
  case badAnswer =>
    exact fun bs m n s hr hm hs hb => ⟨_, exec_msgReturned_of_bad hr hm hs hb, s.get_bump_self _ (by simp), (SameRegs.refl _ s).bump _ (by simp), rfl⟩
  case answered =>
    exact fun bs m n s hr hm hs hb => ⟨_, exec_msgReturned hr hm hs hb, State.txEnd_busy _ _,
      State.txEnd_result _ (answerResult_lt bs m), rfl, ((SameRegs.refl _ s).repeatOut _ _).trans (State.txEnd_sameRegs _ _),
      ((((RingWork.refl s).repeatOut _ _).put _ _).put _ _).modRing _⟩
  case lost =>
    exact fun t s hm ht => ⟨_, exec_msgLostTimeout hm ht, State.txEnd_busy _ _, State.txEnd_result _ (by decide), rfl,
      ((SameRegs.refl _ s).at t).trans (State.txEnd_sameRegs _ _), rfl⟩
  case copied =>
    intro bs s hr h1 h16 hcrc hm hl
    have hrx : (s.msgCopied bs).ring.rx = s.ring.rx ++ [messageOf bs] := State.msgCopied_rx
    have hring : (s.msgCopied bs).syncRx.ring = (s.msgCopied bs).ring := (s.msgCopied bs).syncRx_onlyRegs.ring
    have hlen : (s.msgCopied bs).ring.rx.length = s.ring.rx.length + 1 := by simp [hrx]
    refine ⟨_, exec_ringMsgReceived_copied hr (msgSound_iff.2 ⟨⟨h1, h16⟩, hcrc⟩) hm hl, ?_, ?_, ?_, ?_, ?_⟩
    · rw [hring, hrx]; rfl
    · rw [State.syncRx_count (by omega), hlen]
    · rw [hring]; rfl
    · exact (((State.msgPassed_sameRegs _).repeatOut _ _).modRing _).trans (State.syncRx_sameRegs _)
    · exact ((State.msgPassed_work.repeatOut _ _).modRing _).trans (State.syncRx_onlyRegs _).ringWork
  case passed =>
    intro bs s hr hb hall hhop
    refine ⟨_, exec_ringMsgReceived_passed hr hb (not_or.2 ⟨hall, hhop⟩), State.msgPassed_rx, rfl, ?_, State.msgPassed_sameRegs _, ?_⟩
    · intro hh
      rw [State.msgPassed, State.repeatOut_eq, hh]
      rfl
    · rw [State.msgPassed, State.repeatOut_eq]
      rfl
  case bad =>
    exact fun bs s hr hb => ⟨_, exec_ringMsgReceived_of_bad hr hb,
      (State.get_bump_self _ _ (by simp)).trans (by rw [State.repeatOut_get]), s.repeatOut_rx _ _,
      ((SameRegs.refl _ s).repeatOut _ _).bump _ (by simp), ((RingWork.refl s).repeatOut _ _).put _ _⟩
  case full =>
    exact fun bs s hr hb hm hl => ⟨_, exec_ringMsgReceived_full hr hb hm hl,
      (State.get_bump_self _ _ (by simp)).trans (by rw [State.msgPassed, State.modRing_get, State.repeatOut_get]),
      State.msgPassed_rx, rfl, (State.msgPassed_sameRegs _).bump _ (by simp), State.msgPassed_work.put _ _⟩
  case pops =>
    intro s ha
    refine ⟨_, exec_msgPop ha, (State.syncRx_onlyRegs _).ring, fun h8 => ?_, State.syncRx_sameRegs _,
      ((RingWork.refl s).modRing _).trans (State.syncRx_onlyRegs _).ringWork⟩
    rw [State.syncRx_count (by simp [State.modRing]; omega)]
    simp [State.modRing]

end Sys2Proof.Machine
end

section
/-! PROOFS. The link of the Timing Ring and the time it carries (R123 to R131): lock and loss, TIME packets, the discipline, and the
statement on them. -/

namespace Sys2Proof.Machine

/-! ### The ring's clock is lost: the sample clocks that follow it fall back (R88, R131) -/

/-- Registers, what the ring logic holds and the waiting reports are all that differs. -/
def RingFault (s t : State) : Prop := t = { s with regs := t.regs, inbox := t.inbox, ring := t.ring }

namespace RingFault

variable {s t u : State}

theorem trans (h : RingFault s t) (g : RingFault t u) : RingFault s u :=
  Eq.trans g (congrArg (fun x : State => { x with regs := u.regs, inbox := u.inbox, ring := u.ring }) h)

theorem sameMem (h : RingFault s t) : SameMem s t := by
  rw [h]
  exact SameMem.of_eq rfl rfl rfl rfl

theorem mode (h : RingFault s t) : t.mode = s.mode := by
  rw [h]

theorem dt (h : RingFault s t) : t.dt = s.dt := by
  rw [h]

theorem up (h : RingFault s t) : t.up = s.up := by
  rw [h]
  rfl

end RingFault

/-- The status registers of all heads' converters. -/
abbrev tcStatRegs : List Nat := (List.range 8).map R.TC_STAT

/-- Sample clocks have fallen back: converter status and reports behind those before are all that differs. -/
structure FellBackClocks (s t : State) : Prop where
  regs : SameRegs tcStatRegs s t
  inbox : ∃ l, t.inbox = s.inbox ++ l
  work : t = { s with regs := t.regs, inbox := t.inbox }

namespace FellBackClocks

theorem refl (s : State) : FellBackClocks s s := ⟨SameRegs.refl _ s, ⟨[], by simp⟩, rfl⟩

theorem trans {s t u : State} (h : FellBackClocks s t) (g : FellBackClocks t u) : FellBackClocks s u := by
  refine ⟨h.regs.trans g.regs, ?_,
    g.work.trans (congrArg (fun x : State => { x with regs := u.regs, inbox := u.inbox }) h.work)⟩
  obtain ⟨l, hl⟩ := h.inbox
  obtain ⟨m, hm⟩ := g.inbox
  exact ⟨l ++ m, by rw [hm, hl, List.append_assoc]⟩

variable {s t : State}

theorem ringFault (h : FellBackClocks s t) : RingFault s t :=
  Eq.trans h.work (congrArg (fun x : State => { s with regs := t.regs, inbox := t.inbox, ring := x.ring }) h.work.symm)

theorem up (h : FellBackClocks s t) : t.up = s.up := h.ringFault.up

theorem get (h : FellBackClocks s t) (f : Fld) (hf : f.addr ∉ tcStatRegs) : t.get f = s.get f := h.regs.get f hf

end FellBackClocks

theorem sclkSrc_not_mem (r : Nat) : (F.TC_SCLK_SRC r).addr ∉ tcStatRegs := by
  simp only [List.mem_map, not_exists, not_and, R.TC_SCLK, R.TC_STAT]
  intro h _
  omega

section
variable {s : State} {r : Nat}

theorem sclkFallback_of_ref (h : s.flag (F.TC_SCLK_SRC r) = false) : sclkFallback r s = s :=
  State.whenever_neg _ _ _ (by simp [h])

/-- A bank's clock falls back and a report is made. -/
theorem fellBackClocks_putBank_raise (s : State) {r : Nat} (hr : r < 4) (src : Nat) (cls : FaultClass) (d : Nat) :
    FellBackClocks s ((s.putBank r F.TC_STAT_SCLK_FALLBACK 1).raise src cls d) where
  regs := by
    refine ((SameRegs.refl _ s).putBank bankFld_sclkFallback r 1 ?_).raise _ _ _
    simp only [bankRegs, List.mem_cons, List.not_mem_nil, or_false, List.mem_map, List.mem_range]
    rintro a (rfl | rfl)
    · exact ⟨2 * r, by omega, rfl⟩
    · exact ⟨2 * r + 1, by omega, rfl⟩
  inbox := by
    have hb : OnlyRegs s (s.putBank r F.TC_STAT_SCLK_FALLBACK 1) := OnlyRegs.putBank (Eq.refl s) r 1
    exact ⟨_, by rw [State.raise_inbox, hb.inbox]⟩
  work := by
    have hb : OnlyRegs s (s.putBank r F.TC_STAT_SCLK_FALLBACK 1) := OnlyRegs.putBank (Eq.refl s) r 1
    exact hb.raise src cls d

theorem sclkFallback_fellBack (hr : r < 4) : FellBackClocks s (sclkFallback r s) := by
  rw [sclkFallback, State.whenever]
  split
  · exact fellBackClocks_putBank_raise s hr _ _ _
  · exact .refl s

theorem sclkFallback_sets (hu : s.up = true) (hs : s.flag (F.TC_SCLK_SRC r) = true) :
    (sclkFallback r s).get (F.TC_STAT_SCLK_FALLBACK (2 * r)) = 1 := by
  rw [sclkFallback, State.whenever]
  split
  · rw [State.raise_get, s.get_putBank_even bankFld_sclkFallback]; rfl
  · next h =>
    rw [hu, hs] at h
    simpa [State.bankFlag, State.flag] using h

/-- A fallback that shows keeps showing. -/
theorem sclkFallback_keeps_set (q : Nat) (h : s.get (F.TC_STAT_SCLK_FALLBACK (2 * r)) = 1) :
    (sclkFallback q s).get (F.TC_STAT_SCLK_FALLBACK (2 * r)) = 1 := by
  rw [sclkFallback, State.whenever]
  split
  · rw [State.raise_get]
    by_cases hq : r = q
    · subst hq; rw [s.get_putBank_even bankFld_sclkFallback]; rfl
    · rw [State.putBank, State.get_put_reg, State.get_put_reg, h] <;> simp only [R.TC_STAT] <;> omega
  · exact h

theorem foldl_sclkFallback_fellBack {l : List Nat} (hl : ∀ r ∈ l, r < 4) :
    FellBackClocks s (l.foldl (fun s r => sclkFallback r s) s) := by
  induction l generalizing s with
  | nil => exact .refl s
  | cons r l ih => exact (sclkFallback_fellBack (hl r (by simp))).trans (ih fun q hq => hl q (by simp [hq]))

theorem foldl_sclkFallback_keeps_set {l : List Nat} (h : s.get (F.TC_STAT_SCLK_FALLBACK (2 * r)) = 1) :
    (l.foldl (fun s r => sclkFallback r s) s).get (F.TC_STAT_SCLK_FALLBACK (2 * r)) = 1 := by
  induction l generalizing s with
  | nil => exact h
  | cons q l ih => exact ih (sclkFallback_keeps_set q h)

theorem foldl_sclkFallback_sets {l : List Nat} (hl : ∀ q ∈ l, q < 4) (hr : r ∈ l) (hu : s.up = true)
    (hs : s.flag (F.TC_SCLK_SRC r) = true) :
    (l.foldl (fun s r => sclkFallback r s) s).get (F.TC_STAT_SCLK_FALLBACK (2 * r)) = 1 := by
  induction l generalizing s with
  | nil => simp at hr
  | cons q l ih =>
    rcases List.mem_cons.1 hr with rfl | hr
    · rw [List.foldl_cons]
      exact foldl_sclkFallback_keeps_set (sclkFallback_sets hu hs)
    · have b : FellBackClocks s (sclkFallback q s) := sclkFallback_fellBack (hl q (by simp))
      rw [List.foldl_cons]
      refine ih (fun x hx => hl x (by simp [hx])) hr (b.up.trans hu) ?_
      rwa [State.flag, b.get _ (sclkSrc_not_mem r), ← State.flag]

theorem foldl_sclkFallback_of_ref {l : List Nat} (h : ∀ r ∈ l, s.flag (F.TC_SCLK_SRC r) = false) :
    l.foldl (fun s r => sclkFallback r s) s = s := by
  induction l with
  | nil => rfl
  | cons r l ih =>
    rw [List.foldl_cons, sclkFallback_of_ref (h r (by simp))]
    exact ih fun q hq => h q (by simp [hq])

end

/-! ### Lock and loss (R123, R131) -/

section
variable {s : State}

theorem exec_ringRxLock (hu : s.up = true) (he : s.flag F.TRG_CTRL_EN = true) :
    exec .ringRxLock s = .next ((s.put F.TRG_STAT_RXLOCK 1).put F.TRG_STAT_UPLOSS 0) :=
  congrArg _ (State.whenever_pos _ _ _ (by simp [hu, he]))

/-- The receiver has lost its lock, and the CE is made (R131). -/
def State.lockLost (s : State) : State :=
  (((s.put F.TRG_STAT_RXLOCK 0).put F.TRG_STAT_UPLOSS 1).repeatOut .idle []).raise 50 .ce (detailWord 0xFF 29 0x014)

theorem exec_ringUpstreamLoss (hr : s.ringRx = true) :
    exec .ringUpstreamLoss s = .next ((List.range 4).foldl (fun s r => sclkFallback r s) s.lockLost) :=
  congrArg _ (State.whenever_pos _ _ _ hr)

theorem State.lockLost_rxlock (s : State) : s.lockLost.get F.TRG_STAT_RXLOCK = 0 := by
  rw [State.lockLost, State.raise_get, State.repeatOut_get, State.get_put_disjoint _ _ _ _ (by simp),
    State.get_put_of_lt _ (by simp) (by simp)]

theorem State.lockLost_uploss (s : State) : s.lockLost.get F.TRG_STAT_UPLOSS = 1 := by
  rw [State.lockLost, State.raise_get, State.repeatOut_get, State.get_put_of_lt _ (by simp) (by simp)]

theorem State.lockLost_sameRegs (s : State) : SameRegs [R.TRG_STAT] s s.lockLost :=
  ((((SameRegs.refl _ s).put _ _ (by simp)).put _ _ (by simp)).repeatOut _ _).raise _ _ _

theorem State.lockLost_inbox (s : State) :
    s.lockLost.inbox = s.inbox ++ [{ source := Fin.ofNat 64 50, cls := .ce, detail := detailWord 0xFF 29 0x014 }] := by
  rw [State.lockLost, State.raise_inbox, State.repeatOut_eq]
  rfl

theorem State.lockLost_ringFault (s : State) : RingFault s s.lockLost := by
  rw [State.lockLost, State.repeatOut_eq]
  exact Eq.refl _

theorem State.lockLost_sclkSrc (s : State) (r : Nat) : s.lockLost.flag (F.TC_SCLK_SRC r) = s.flag (F.TC_SCLK_SRC r) := by
  rw [State.flag, s.lockLost_sameRegs.get _ (by simp only [List.mem_singleton, R.TC_SCLK, R.TRG_STAT]; omega), ← State.flag]

/-! ### TIME packets (R123 to R125) -/

theorem State.hopIndex_hop (s : State) (hop : Nat) : (s.hopIndex hop).get F.TRG_STAT_HOP = (hop + 1) % 32 := by
  have h : ((s.put F.TRG_STAT_HOP (hop + 1)).putB F.TRG_STAT_HOPERR (31 < hop + 1)).get F.TRG_STAT_HOP = (hop + 1) % 32 := by
    rw [State.putB, State.get_put_disjoint _ _ _ _ (by simp), State.get_put_self _ _ _ (by simp)]
    rfl
  rw [State.hopIndex]
  split
  · exact (State.raise_get _ _ _ _ _).trans h
  · exact h

theorem State.hopIndex_hoperr (s : State) (hop : Nat) :
    (s.hopIndex hop).get F.TRG_STAT_HOPERR = (decide (31 ≤ hop)).toNat := by
  have hb : decide (31 < hop + 1) = decide (31 ≤ hop) := decide_eq_decide.2 (by omega)
  have h : ((s.put F.TRG_STAT_HOP (hop + 1)).putB F.TRG_STAT_HOPERR (31 < hop + 1)).get F.TRG_STAT_HOPERR =
      (decide (31 ≤ hop)).toNat := by
    rw [State.putB, State.get_put_of_lt _ (by simp) (Bool.toNat_lt _), hb]
  rw [State.hopIndex]
  split
  · exact (State.raise_get _ _ _ _ _).trans h
  · exact h

theorem State.hopIndex_sameRegs (s : State) (hop : Nat) : SameRegs [R.TRG_STAT] s (s.hopIndex hop) := by
  have h : SameRegs [R.TRG_STAT] s ((s.put F.TRG_STAT_HOP (hop + 1)).putB F.TRG_STAT_HOPERR (31 < hop + 1)) :=
    ((SameRegs.refl _ s).put _ _ (by simp)).put _ _ (by simp)
  rw [State.hopIndex]
  split
  · exact h.raise _ _ _
  · exact h

theorem State.hopIndex_work (s : State) (hop : Nat) :
    s.hopIndex hop = { s with regs := (s.hopIndex hop).regs, inbox := (s.hopIndex hop).inbox } := by
  rw [State.hopIndex]
  split <;> rfl

/-- The first packet of a run whose index is out of range makes a CE. -/
theorem State.hopIndex_reported {s : State} {hop : Nat} (hb : 31 ≤ hop) (hw : s.flag F.TRG_STAT_HOPERR = false) :
    Reported 50 .ce s (s.hopIndex hop) := by
  rw [State.hopIndex, if_pos (by simp [hw]; omega)]
  exact ⟨_, by rw [State.raise_inbox]; rfl⟩

end

/-! ### The discipline (R128) -/

/-- A TIME packet has steered Device Time: its registers, the ring logic, and what its free rate took are all that differs. -/
def TimeWork (s t : State) : Prop := t = { s with regs := t.regs, freeCnt := t.freeCnt, ring := t.ring, pairVer := t.pairVer }

namespace TimeWork

theorem refl (s : State) : TimeWork s s := Eq.refl s

theorem trans {s t u : State} (h : TimeWork s t) (g : TimeWork t u) : TimeWork s u :=
  Eq.trans g (congrArg (fun x : State => { x with regs := u.regs, freeCnt := u.freeCnt, ring := u.ring, pairVer := u.pairVer }) h)

variable {s t : State}

theorem put (h : TimeWork s t) (f : Fld) (v : Nat) : TimeWork s (t.put f v) := h.trans (Eq.refl (t.put f v))

theorem put64 (h : TimeWork s t) (lo hi : Fld) (v : Nat) : TimeWork s (t.put64 lo hi v) := h.trans (Eq.refl (t.put64 lo hi v))

theorem modRing (h : TimeWork s t) (f : Ring → Ring) : TimeWork s (t.modRing f) := h.trans (Eq.refl (t.modRing f))

theorem freshUpTo (h : TimeWork s t) (b : Nat) : TimeWork s (t.freshUpTo b).2 := h.trans (Eq.refl (t.freshUpTo b).2)

end TimeWork

theorem SameRegs.put64 {l : List Nat} {s t : State} (h : SameRegs l s t) {lo hi : Fld} (v : Nat) (hl : lo.addr ∈ l)
    (hh : hi.addr ∈ l) : SameRegs l s (t.put64 lo hi v) := (h.put lo _ hl).put hi _ hh

/-- A pair of whole registers reads as it was set, modulo 2^64. -/
theorem State.get64_put64 (s : State) {lo hi : Fld} (v : Nat) (hl : lo.lo = 0 ∧ lo.w = 32) (hh : hi.lo = 0 ∧ hi.w = 32)
    (hne : lo.addr ≠ hi.addr) : (s.put64 lo hi v).get64 lo hi = v % 2 ^ 64 := by
  have hlo : (s.put64 lo hi v).get lo = v % 4294967296 % 2 ^ lo.w :=
    (State.get_put_reg _ _ _ _ hne).trans (State.get_put_self _ _ _ (by omega))
  have hhi : (s.put64 lo hi v).get hi = v / 4294967296 % 2 ^ hi.w := State.get_put_self _ _ _ (by omega)
  rw [State.get64, hlo, hhi, hl.2, hh.2]
  omega

theorem unsigned_lt (n : Nat) (v : Int) : unsigned n v < 2 ^ n := by
  have hp : (0 : Int) < (2 ^ n : Nat) := by exact_mod_cast Nat.two_pow_pos n
  have h := Int.emod_lt_of_pos v hp
  rw [unsigned]
  omega

/-- The registers that the discipline sets. -/
abbrev disciplineRegs : List Nat := [R.TRG_DTSTAT, R.TRG_TAIOFF_LO, R.TRG_TAIOFF_HI]

/-- The ring logic and registers after a TIME packet of time `tai`, received at `t`. -/
structure Disciplined (t : Nat) (s u : State) : Prop where
  lastTime : u.ring.lastTime = some t
  regs : SameRegs disciplineRegs s u
  work : TimeWork s u

namespace Disciplined

theorem start (s : State) (t : Nat) : Disciplined t s (s.modRing fun g => { g with lastTime := some t }) :=
  ⟨rfl, SameRegs.refl _ s, (TimeWork.refl s).modRing _⟩

variable {t : Nat} {s u : State}

theorem put (h : Disciplined t s u) (f : Fld) (v : Nat) (hf : f.addr ∈ disciplineRegs) : Disciplined t s (u.put f v) :=
  ⟨h.lastTime, h.regs.put f v hf, h.work.put f v⟩

theorem setOffset (h : Disciplined t s u) (v : Nat) : Disciplined t s (u.put64 F.TRG_TAIOFF_LO_TAIOFF F.TRG_TAIOFF_HI_TAIOFF v) :=
  ⟨h.lastTime, h.regs.put64 v (by simp) (by simp), h.work.put64 _ _ v⟩

theorem modRing (h : Disciplined t s u) (f : Ring → Ring) (hf : ∀ g, (f g).lastTime = g.lastTime) :
    Disciplined t s (u.modRing f) :=
  ⟨(hf _).trans h.lastTime, h.regs.modRing f, h.work.modRing f⟩

theorem freshUpTo (h : Disciplined t s u) (b : Nat) : Disciplined t s (u.freshUpTo b).2 :=
  ⟨h.lastTime, h.regs, h.work.freshUpTo b⟩

end Disciplined

theorem State.discipline_disciplined (s : State) (tai t : Nat) : Disciplined t s (s.discipline tai t) := by
  unfold State.discipline
  extract_lets diff off err setOff u
  have hu : Disciplined t s u := Disciplined.start s t
  have hset : ∀ x, Disciplined t s x → Disciplined t s (setOff x) := fun x hx => hx.setOffset _
  clear_value err setOff u
  split
  · exact (hset _ (hu.modRing (fun g => { g with offsetSet := true, goodTime := 1 }) fun _ => rfl)).put F.TRG_DTSTAT_SRC 1 (by simp)
  · split
    · exact ((hset _ (hu.modRing (fun g => { g with goodTime := 0 }) fun _ => rfl)).put F.TRG_DTSTAT_TAISTEP _ (by simp)).put
        F.TRG_DTSTAT_LOCKED 0 (by simp)
    · have hw := hu.freshUpTo 400
      split
      next v w hvw =>
      rw [hvw] at hw
      extract_lets n x y
      have hy : Disciplined t s y :=
        (hw.modRing (fun g => { g with goodTime := n, steer := (v : Int) - 200 }) fun _ => rfl).put F.TRG_DTSTAT_SRC 1 (by simp)
      clear_value n y
      split
      · exact (hy.put F.TRG_DTSTAT_LOCKED 1 (by simp)).modRing (fun g => { g with everLocked := true }) fun _ => rfl
      · split
        · exact hy.put F.TRG_DTSTAT_LOCKED 0 (by simp)
        · exact hy

section
variable {s : State} {tai t : Nat}

/-- The first packet of a disciplined block sets the offset. -/
theorem State.discipline_first (h : s.ring.offsetSet = false) :
    s.discipline tai t = (((s.modRing fun g => { g with lastTime := some t }).modRing fun g =>
      { g with offsetSet := true, goodTime := 1 }).put64 F.TRG_TAIOFF_LO_TAIOFF F.TRG_TAIOFF_HI_TAIOFF
        (unsigned 64 ((tai : Int) - t))).put F.TRG_DTSTAT_SRC 1 :=
  if_pos (by rw [State.modRing, h]; rfl)

theorem State.discipline_first_src (h : s.ring.offsetSet = false) : (s.discipline tai t).get F.TRG_DTSTAT_SRC = 1 := by
  rw [State.discipline_first h, State.get_put_of_lt _ (by simp) (by simp)]

theorem State.discipline_first_offsetSet (h : s.ring.offsetSet = false) : (s.discipline tai t).ring.offsetSet = true := by
  rw [State.discipline_first h]
  rfl

theorem State.discipline_first_offset (h : s.ring.offsetSet = false) :
    (s.discipline tai t).get64 F.TRG_TAIOFF_LO_TAIOFF F.TRG_TAIOFF_HI_TAIOFF = unsigned 64 ((tai : Int) - t) := by
  rw [State.discipline_first h, State.get64, State.get_put_reg _ _ _ _ (by simp), State.get_put_reg _ _ _ _ (by simp), ← State.get64,
    State.get64_put64 _ _ ⟨rfl, rfl⟩ ⟨rfl, rfl⟩ (by simp), Nat.mod_eq_of_lt (unsigned_lt _ _)]

end

/-! ### A TIME packet, the time-out and a bad character -/

/-- A TIME packet has been taken: time, registers, the ring logic, and what its free rate took are all that differs. -/
def PacketWork (s t : State) : Prop :=
  t = { s with regs := t.regs, dt := t.dt, freeCnt := t.freeCnt, inbox := t.inbox, ring := t.ring, pairVer := t.pairVer }

theorem PacketWork.trans {s t u : State} (h : PacketWork s t) (g : PacketWork t u) : PacketWork s u :=
  Eq.trans g (congrArg (fun x : State => { x with
    regs := u.regs, dt := u.dt, freeCnt := u.freeCnt, inbox := u.inbox, ring := u.ring, pairVer := u.pairVer }) h)

theorem PacketWork.sameMem {s t : State} (h : PacketWork s t) : SameMem s t := by
  rw [h]
  exact SameMem.of_eq rfl rfl rfl rfl

theorem PacketWork.mode {s t : State} (h : PacketWork s t) : t.mode = s.mode := by
  rw [h]

theorem RingWork.packetWork {s t : State} (h : RingWork s t) : PacketWork s t :=
  Eq.trans h (congrArg (fun x : State => { s with
    regs := t.regs, dt := x.dt, freeCnt := x.freeCnt, inbox := x.inbox, ring := t.ring, pairVer := x.pairVer }) h.symm)

theorem TimeWork.packetWork {s t : State} (h : TimeWork s t) : PacketWork s t :=
  Eq.trans h (congrArg (fun x : State => { s with
    regs := t.regs, dt := x.dt, freeCnt := t.freeCnt, inbox := x.inbox, ring := t.ring, pairVer := t.pairVer }) h.symm)

theorem TimeWork.dt {s t : State} (h : TimeWork s t) : t.dt = s.dt := by
  rw [h]

theorem TimeWork.inbox {s t : State} (h : TimeWork s t) : t.inbox = s.inbox := by
  rw [h]

theorem State.hopIndex_packetWork (s : State) (hop : Nat) : PacketWork s (s.hopIndex hop) :=
  Eq.trans (s.hopIndex_work hop) (congrArg (fun x : State => { s with
    regs := (s.hopIndex hop).regs, dt := x.dt, freeCnt := x.freeCnt, inbox := (s.hopIndex hop).inbox, ring := x.ring
    pairVer := x.pairVer }) (s.hopIndex_work hop).symm)

/-- A TIME packet's time at the master (Table 4-1), in ns of TAI. -/
def packetTime (bs : List Byte) : Nat := beNat (bs.take 6) * 1000000000 + beNat ((bs.drop 6).take 4)

/-- A TIME packet repeated with its hop field raised. -/
def State.timePassed (s : State) (bs : List Byte) (t : Nat) : State :=
  (s.at t).repeatOut .time (patch bs 10 (leBytes 1 (leAt bs 10 1 + 1)))

theorem State.timePassed_ringWork (s : State) (bs : List Byte) (t : Nat) : RingWork (s.at t) (s.timePassed bs t) :=
  (RingWork.refl _).repeatOut _ _

theorem State.timePassed_get (s : State) (bs : List Byte) (t : Nat) (f : Fld) : (s.timePassed bs t).get f = s.get f := by
  rw [State.timePassed, State.repeatOut_get, State.at_get]

theorem State.timePassed_flag (s : State) (bs : List Byte) (t : Nat) (f : Fld) : (s.timePassed bs t).flag f = s.flag f := by
  rw [State.flag, State.timePassed_get, ← State.flag]

theorem State.timePassed_sameRegs (s : State) (bs : List Byte) (t : Nat) : SameRegs [] s (s.timePassed bs t) :=
  ((SameRegs.refl _ s).at t).repeatOut _ _

theorem State.timePassed_offsetSet (s : State) (bs : List Byte) (t : Nat) :
    (s.timePassed bs t).ring.offsetSet = s.ring.offsetSet := by
  rw [State.timePassed, State.repeatOut_eq]
  rfl

/-- A good TIME packet has moved the hop index. -/
def State.timed (s : State) (bs : List Byte) (t : Nat) : State := (s.timePassed bs t).hopIndex (leAt bs 10 1)

section
variable {s : State} {bs : List Byte} {t : Nat}

theorem exec_ringTimePacket_of_bad (hr : s.ringRx = true) (hc : beNat ((bs.drop 11).take 2) ≠ crc16 (bs.take 10)) :
    exec (.ringTimePacket bs t) s = .next ((s.timePassed bs t).bump F.TRG_ERRCNT_CRC) :=
  congrArg Host.Outcome.next ((State.whenever_pos _ _ _ hr).trans (if_pos (by simpa using hc)))

theorem State.timed_sameRegs (s : State) (bs : List Byte) (t : Nat) : SameRegs [R.TRG_STAT] s (s.timed bs t) :=
  ((s.timePassed_sameRegs bs t).mono (by simp)).trans (State.hopIndex_sameRegs _ _)

theorem State.timed_hop (s : State) (bs : List Byte) (t : Nat) :
    (s.timed bs t).get F.TRG_STAT_HOP = (leAt bs 10 1 + 1) % 32 := State.hopIndex_hop _ _

theorem State.timed_hoperr (s : State) (bs : List Byte) (t : Nat) :
    (s.timed bs t).flag F.TRG_STAT_HOPERR = decide (31 ≤ leAt bs 10 1) := by
  rw [State.flag, State.timed, State.hopIndex_hoperr]
  cases decide (31 ≤ leAt bs 10 1) <;> rfl

theorem State.timed_flag_disc (s : State) (bs : List Byte) (t : Nat) :
    (s.timed bs t).flag F.TRG_CTRL_DISC = s.flag F.TRG_CTRL_DISC := by
  rw [State.flag, (s.timed_sameRegs bs t).get _ (by simp), ← State.flag]

theorem State.timed_work (s : State) (bs : List Byte) (t : Nat) : PacketWork s (s.timed bs t) :=
  PacketWork.trans (Eq.refl (s.at t)) (PacketWork.trans (s.timePassed_ringWork bs t).packetWork (State.hopIndex_packetWork _ _))

theorem State.timed_dt (s : State) (bs : List Byte) (t : Nat) : (s.timed bs t).dt = max s.dt t := by
  rw [State.timed, State.hopIndex_work, s.timePassed_ringWork]
  rfl

theorem State.timed_reported (hb : 31 ≤ leAt bs 10 1) (hw : s.flag F.TRG_STAT_HOPERR = false) :
    Reported 50 .ce s (s.timed bs t) := by
  obtain ⟨d, hd⟩ := State.hopIndex_reported (s := s.timePassed bs t) hb (by rwa [s.timePassed_flag])
  refine ⟨d, hd.trans ?_⟩
  rw [s.timePassed_ringWork]
  rfl

theorem State.timed_offsetSet (s : State) (bs : List Byte) (t : Nat) : (s.timed bs t).ring.offsetSet = s.ring.offsetSet := by
  rw [State.timed, State.hopIndex_work]
  exact s.timePassed_offsetSet bs t

/-- The path delay by the index that a packet has just given. -/
theorem State.timed_pathDelay (s : State) (t : Nat) (h : leAt bs 10 1 < 31) :
    (s.timed bs t).pathDelay = leAt bs 10 1 * 40 + s.get F.TRG_CABLEDLY_DLY := by
  rw [State.pathDelay, State.timed, State.hopIndex_hop, (State.hopIndex_sameRegs _ _).get _ (by simp), State.timePassed_get]
  omega

theorem exec_ringTimePacket_free (hr : s.ringRx = true) (hc : beNat ((bs.drop 11).take 2) = crc16 (bs.take 10))
    (hd : s.flag F.TRG_CTRL_DISC = false) : exec (.ringTimePacket bs t) s = .next (s.timed bs t) :=
  congrArg Host.Outcome.next ((State.whenever_pos _ _ _ hr).trans ((if_neg (by simpa using hc)).trans
    (if_neg (by rw [← s.timed_flag_disc bs t] at hd; exact Bool.eq_false_iff.1 hd))))

theorem exec_ringTimePacket_disciplined (hr : s.ringRx = true) (hc : beNat ((bs.drop 11).take 2) = crc16 (bs.take 10))
    (hd : s.flag F.TRG_CTRL_DISC = true) :
    exec (.ringTimePacket bs t) s = .next ((s.timed bs t).discipline (packetTime bs + (s.timed bs t).pathDelay) t) :=
  congrArg Host.Outcome.next ((State.whenever_pos _ _ _ hr).trans ((if_neg (by simpa using hc)).trans
    (if_pos (by rw [← s.timed_flag_disc bs t] at hd; exact hd))))

/-- 10 ms have passed without a TIME packet: the device is not locked (R128). -/
def State.timeLapsed (s : State) (t : Nat) : State :=
  ((s.at t).put F.TRG_DTSTAT_LOCKED 0).modRing fun g => { g with goodTime := 0, lastTime := none }

theorem State.timeLapsed_locked (s : State) (t : Nat) : (s.timeLapsed t).get F.TRG_DTSTAT_LOCKED = 0 := by
  rw [State.timeLapsed, State.modRing_get, State.get_put_of_lt _ (by simp) (by simp)]

theorem State.timeLapsed_src (s : State) (t : Nat) : (s.timeLapsed t).get F.TRG_DTSTAT_SRC = s.get F.TRG_DTSTAT_SRC := by
  rw [State.timeLapsed, State.modRing_get, State.get_put_disjoint _ _ _ _ (by simp), State.at_get]

theorem State.timeLapsed_sameRegs (s : State) (t : Nat) : SameRegs [R.TRG_DTSTAT] s (s.timeLapsed t) :=
  (((SameRegs.refl _ s).at t).put _ _ (by simp)).modRing _

theorem State.timeLapsed_ringWork (s : State) (t : Nat) : RingWork (s.at t) (s.timeLapsed t) :=
  ((RingWork.refl _).put _ _).modRing _

theorem exec_dtDisciplineTimeout {l : Nat} (hu : s.up = true) (hl : s.ring.lastTime = some l) (ht : l + 10000000 ≤ t) :
    exec (.dtDisciplineTimeout t) s = .next
      (if s.get F.TRG_DTSTAT_SRC = 1 then (s.timeLapsed t).put F.TRG_DTSTAT_SRC 0 else s.timeLapsed t) := by
  refine congrArg Host.Outcome.next ?_
  rw [dtDisciplineTimeout, hl, ← s.timeLapsed_src t]
  exact State.whenever_pos _ _ _ (by simp [hu, ht])

theorem exec_ringCharError (pk : Bool) (hu : s.up = true) :
    exec (.ringCharError pk) s = .next (s.bump (if pk then F.TRG_ERRCNT_CRC else F.TRG_ERRCNT_CHAR)) :=
  congrArg _ (State.whenever_pos _ _ _ hu)

end

/-- Settles O18: each command by the state it leaves. A lost lock and a TIME packet are taken in two steps, of which the second,
the fallback of the sample clocks and the discipline, keeps what the first has set. -/
theorem timingRingLinkAndTime : Obligations.TimingRingLinkAndTime := by
  unfold Obligations.TimingRingLinkAndTime
  refine ⟨?locks, ?loses, ?losesRef, ?bad, ?good, ?first, ?times, ?char⟩
  case locks =>
    intro s hu he
    refine ⟨_, exec_ringRxLock hu he, ?_, ?_, ((SameRegs.refl _ s).put _ _ (by simp)).put _ _ (by simp), rfl⟩
    · rw [State.get_put_disjoint _ _ _ _ (by simp), State.get_put_of_lt _ (by simp) (by simp)]
    · rw [State.get_put_of_lt _ (by simp) (by simp)]
  case loses =>
    intro s hr
    have hb : FellBackClocks s.lockLost ((List.range 4).foldl (fun s r => sclkFallback r s) s.lockLost) :=
      foldl_sclkFallback_fellBack fun r hr => by simpa using hr
    have hf := s.lockLost_ringFault.trans hb.ringFault
    have hu : s.lockLost.up = true := s.lockLost_ringFault.up.trans (Bool.and_eq_true_iff.1 hr).1
    refine ⟨_, exec_ringUpstreamLoss hr, ?_, ?_, ?_, ?_, hf.sameMem, hf.mode, hf.dt, hf⟩
    · rw [hb.get _ (by decide), s.lockLost_rxlock]
    · rw [hb.get _ (by decide), s.lockLost_uploss]
    · obtain ⟨l, hl⟩ := hb.inbox
      exact ⟨_, l, by rw [hl, s.lockLost_inbox, List.append_assoc, List.singleton_append]⟩
    · exact fun r hs => foldl_sclkFallback_sets (fun q hq => by simpa using hq) (by simp) hu (by rwa [s.lockLost_sclkSrc])
  case losesRef =>
    intro s hr href
    have hid : (List.range 4).foldl (fun s r => sclkFallback r s) s.lockLost = s.lockLost :=
      foldl_sclkFallback_of_ref fun r hr => by rw [s.lockLost_sclkSrc]; exact href r (by simpa using hr)
    refine ⟨s.lockLost, ?_, s.lockLost_rxlock, s.lockLost_uploss, ⟨_, s.lockLost_inbox⟩, s.lockLost_sameRegs, s.lockLost_ringFault⟩
    rw [exec_ringUpstreamLoss hr, hid]
  case bad =>
    intro bs t s hr hc
    refine ⟨_, exec_ringTimePacket_of_bad hr hc, ?_, ?_, ?_⟩
    · rw [State.get_bump_self _ _ (by simp), State.timePassed_get]
    · exact ((s.timePassed_sameRegs bs t).mono (by simp)).bump _ (by simp)
    · exact (s.timePassed_ringWork bs t).put _ _
  case good =>
    intro bs t s hr hc
    have hw := s.timed_work bs t
    cases hd : s.flag F.TRG_CTRL_DISC with
    | false =>
      exact ⟨_, exec_ringTimePacket_free hr hc hd, s.timed_hop bs t, s.timed_hoperr bs t, State.timed_reported, nofun,
        fun _ => s.timed_sameRegs bs t, hw.sameMem, hw.mode, s.timed_dt bs t, hw⟩
    | true =>
      have hdis := (s.timed bs t).discipline_disciplined (packetTime bs + (s.timed bs t).pathDelay) t
      have hpw := hw.trans hdis.work.packetWork
      refine ⟨_, exec_ringTimePacket_disciplined hr hc hd, ?_, ?_, ?_, fun _ => hdis.lastTime, nofun, hpw.sameMem, hpw.mode, ?_, hpw⟩
      · rw [hdis.regs.get _ (by simp), s.timed_hop]
      · rw [State.flag, hdis.regs.get _ (by simp), ← State.flag, s.timed_hoperr]
      · intro hb hf
        obtain ⟨d, h⟩ := State.timed_reported (t := t) hb hf
        exact ⟨d, hdis.work.inbox.trans h⟩
      · rw [hdis.work.dt, s.timed_dt]
  case first =>
    intro bs t s hr hc hb hd ho
    have hdis := (s.timed bs t).discipline_disciplined (packetTime bs + (s.timed bs t).pathDelay) t
    have hpw := (s.timed_work bs t).trans hdis.work.packetWork
    have ho' : (s.timed bs t).ring.offsetSet = false := (s.timed_offsetSet bs t).trans ho
    refine ⟨_, exec_ringTimePacket_disciplined hr hc hd, ?_, ?_, State.discipline_first_src ho', ?_, hdis.lastTime,
      State.discipline_first_offsetSet ho', ?_, hpw.sameMem, ?_, hpw⟩
    · rw [hdis.regs.get _ (by simp), s.timed_hop]
      omega
    · rw [hdis.regs.get _ (by simp), State.timed, State.hopIndex_hoperr, decide_eq_false (by omega), Bool.toNat_false]
    · rw [State.discipline_first_offset ho', s.timed_pathDelay t hb, packetTime, Nat.add_assoc _ (leAt bs 10 1 * 40)]
    · exact ((s.timed_sameRegs bs t).mono (by simp)).trans (hdis.regs.mono (by simp))
    · rw [hdis.work.dt, s.timed_dt]
  case times =>
    intro t l s hu hl ht hsrc
    refine ⟨_, exec_dtDisciplineTimeout hu hl ht, ?_⟩
    split
    · refine ⟨?_, ?_, rfl, rfl, ?_, ?_⟩
      · rw [State.get_put_disjoint _ _ _ _ (by simp), s.timeLapsed_locked]
      · rw [State.get_put_of_lt _ (by simp) (by simp)]
      · exact (s.timeLapsed_sameRegs t).put _ _ (by simp)
      · exact (s.timeLapsed_ringWork t).put _ _
    · next h =>
      exact ⟨s.timeLapsed_locked t, (s.timeLapsed_src t).trans (by omega), rfl, rfl, s.timeLapsed_sameRegs t,
        s.timeLapsed_ringWork t⟩
  case char =>
    intro pk s hu
    refine ⟨_, exec_ringCharError pk hu, ?_, ?_, ?_, Eq.refl _⟩
    all_goals cases pk
    · exact State.get_bump_disjoint _ _ _ (by simp)
    · exact State.get_bump_self _ _ (by simp)
    · exact State.get_bump_self _ _ (by simp)
    · exact State.get_bump_disjoint _ _ _ (by simp)
    · exact (SameRegs.refl _ s).bump _ (by simp)
    · exact (SameRegs.refl _ s).bump _ (by simp)

end Sys2Proof.Machine
end

section
/-! PROOFS. What a trigger leaves unchanged (R122, R126), the read of Device Time as a pair (R129), and the statement on it. -/

namespace Sys2Proof.Machine

/-! ### Triggers -/

/-- Triggers have had their effect: registers, heads, the ring logic, pairs and the milk round's due rounds are all that differs, and
no register below the trigger channels' own does. -/
structure TriggersActed (s t : State) : Prop where
  below : ∀ a, a < R.TRG_TRIGCFG 0 → t.reg a = s.reg a
  work : t = { s with regs := t.regs, heads := t.heads, ring := t.ring, pairVer := t.pairVer, hk := t.hk }

namespace TriggersActed

theorem refl (s : State) : TriggersActed s s := ⟨fun _ _ => rfl, Eq.refl s⟩

variable {s t u : State}

theorem trans (h : TriggersActed s t) (g : TriggersActed t u) : TriggersActed s u :=
  ⟨fun a ha => (g.below a ha).trans (h.below a ha), g.work.trans (congrArg (fun x : State => { x with
    regs := u.regs, heads := u.heads, ring := u.ring, pairVer := u.pairVer, hk := u.hk }) h.work)⟩

theorem put (h : TriggersActed s t) (f : Fld) (v : Nat) (hf : R.TRG_TRIGCFG 0 ≤ f.addr) : TriggersActed s (t.put f v) :=
  h.trans ⟨fun _ ha => State.reg_put_other _ _ _ _ (Nat.ne_of_lt (Nat.lt_of_lt_of_le ha hf)), Eq.refl (t.put f v)⟩

theorem bump (h : TriggersActed s t) (f : Fld) (hf : R.TRG_TRIGCFG 0 ≤ f.addr) : TriggersActed s (t.bump f) := h.put f _ hf

theorem put64 (h : TriggersActed s t) (lo hi : Fld) (v : Nat) (hl : R.TRG_TRIGCFG 0 ≤ lo.addr) (hh : R.TRG_TRIGCFG 0 ≤ hi.addr) :
    TriggersActed s (t.put64 lo hi v) :=
  ((h.put lo _ hl).put hi _ hh).trans ⟨fun _ _ => rfl, Eq.refl (((t.put lo _).put hi _).bumpPair lo.addr)⟩

theorem modRing (h : TriggersActed s t) (f : Ring → Ring) : TriggersActed s (t.modRing f) :=
  h.trans ⟨fun _ _ => rfl, Eq.refl (t.modRing f)⟩

theorem modHead (h : TriggersActed s t) (n : Nat) (f : HeadUnit → HeadUnit) : TriggersActed s (t.modHead n f) :=
  h.trans ⟨fun _ _ => rfl, Eq.refl (t.modHead n f)⟩

theorem foldl {α : Type} {f : State → α → State} (hf : ∀ s x, TriggersActed s (f s x)) (l : List α) (s : State) :
    TriggersActed s (l.foldl f s) := by
  induction l generalizing s with
  | nil => exact refl s
  | cons x l ih => exact (hf s x).trans (ih _)

theorem dt (h : TriggersActed s t) : t.dt = s.dt := by
  rw [h.work]

theorem pairRead (h : TriggersActed s t) : t.pairRead = s.pairRead := by
  rw [h.work]

end TriggersActed

theorem State.srcEdge_acted (s : State) (h stamp instant : Nat) : TriggersActed s (s.srcEdge h stamp instant) := by
  have hovr : R.TRG_TRIGCFG 0 ≤ (F.HP_TCNT1_FRM_OVR h).addr := by simp only [R.TRG_TRIGCFG, R.HP_TCNT1]; omega
  rw [State.srcEdge]
  split
  · exact .refl s
  · extract_lets u w
    split
    · exact (TriggersActed.refl s).bump _ hovr
    · split
      · exact ((TriggersActed.refl s).modHead _ _).bump _ hovr
      · exact ((TriggersActed.refl s).modHead _ _).modHead _ _

theorem State.sourceEvent_acted (s : State) (src sel stamp instant : Nat) :
    TriggersActed s (s.sourceEvent src sel stamp instant) := by
  refine TriggersActed.foldl (fun s h => ?_) _ s
  split
  · exact s.srcEdge_acted _ _ _
  · exact .refl s

theorem State.hkEvent_acted (s : State) (src sel t : Nat) : TriggersActed s (s.hkEvent src sel t) := by
  rw [State.hkEvent]
  split
  · exact ⟨fun _ _ => rfl, Eq.refl _⟩
  · exact .refl s

theorem State.trigEvent_acted (s : State) (n stamp : Nat) : TriggersActed s (s.trigEvent n stamp) := by
  rw [State.trigEvent]
  split
  · exact (TriggersActed.refl s).bump _ (by simp only [R.TRG_TRIGCFG, R.TRG_TRIGCNT]; omega)
  · refine TriggersActed.trans ?_ (State.hkEvent_acted _ _ _ _)
    refine TriggersActed.trans ?_ (State.sourceEvent_acted _ _ _ _ _)
    have hacc : TriggersActed s (s.modRing fun g => { g with trigAcc := g.trigAcc.set n (some stamp) }) := (TriggersActed.refl s).modRing _
    refine (hacc.bump _ ?_).put64 _ _ _ ?_ ?_ <;>
      simp only [R.TRG_TRIGCFG, R.TRG_TRIGCNT, R.TRG_TRIGDT_LO, R.TRG_TRIGDT_HI] <;> omega

theorem State.trigsDue_acted (s : State) (t : Nat) : TriggersActed s (s.trigsDue t) := by
  refine ((TriggersActed.refl s).modRing fun g => { g with marks := g.marks.filter fun m => !(m.trig && m.instant ≤ t) }).trans
    (TriggersActed.foldl (fun s m => ?_) _ _)
  split
  · exact s.trigEvent_acted _ _
  · exact .refl s

/-! ### The pair of Device Time -/

theorem State.pairValue_dt (s : State) (p : Port) : s.pairValue p R.TRG_DT_LO = s.dt % 2 ^ 64 := by
  have hlo : s.busWord p R.TRG_DT_LO = BitVec.ofNat 32 s.dt := rfl
  have hhi : s.busWord p (R.TRG_DT_LO + 4) = BitVec.ofNat 32 (s.dt / 4294967296) := rfl
  rw [State.pairValue, hlo, hhi, BitVec.toNat_ofNat, BitVec.toNat_ofNat]
  omega

section
variable {p : Port} {be : Nat} {s : State}

theorem State.readReg_dtLo (ha : s.access R.TRG_DT_LO = true) (hb : be ≠ 0) :
    s.readReg p R.TRG_DT_LO be = (s.trigsDue s.dt).readLo p R.TRG_DT_LO := by
  have hc : canonAddr (R.TRG_DT_LO / 4 * 4) = R.TRG_DT_LO := by decide
  simp only [State.readReg, hc, hb, ha]
  rfl

theorem State.readReg_dtHi (ha : s.access R.TRG_DT_HI = true) (hb : be ≠ 0) :
    s.readReg p R.TRG_DT_HI be = (s.trigsDue s.dt).readHi p R.TRG_DT_LO (some F.TRG_DTSTAT_OVW) := by
  have hc : canonAddr (R.TRG_DT_HI / 4 * 4) = R.TRG_DT_HI := by decide
  simp only [State.readReg, hc, hb, ha]
  rfl

theorem pairRead_of_up {addr : Nat} {hi : Bool} (hu : s.up = true) (hh : isHi (canonAddr (addr / 4 * 4)) = hi) :
    pairRead p addr be hi s = { (s.readReg p addr be).2 with lastRead := (p, (s.readReg p addr be).1) } :=
  State.whenever_pos _ _ _ (by simp [hu, hh])

theorem State.up_of_access {a : Nat} (h : s.access a = true) : s.up = true := (Bool.and_eq_true_iff.1 h).1

/-- A read of TRG_DT_LO returns the low word, and the port's latch holds the whole DT. -/
def State.dtLatched (s : State) (p : Port) : State := { s with
  lastRead := (p, BitVec.ofNat 32 s.dt)
  pairRead := alSet (fun _ => none) s.pairRead (shadowKey p R.TRG_DT_LO)
    (some (s.dt % 2 ^ 64, alGet (fun _ => 0) s.pairVer R.TRG_DT_LO)) }

theorem exec_pairLoRead_dt (be : Fin 16) (ha : s.access R.TRG_DT_LO = true) (hb : be ≠ 0) :
    exec (.pairLoRead p R.TRG_DT_LO be) s = .next ((s.trigsDue s.dt).dtLatched p) := by
  have hw : BitVec.ofNat 32 ((s.trigsDue s.dt).dt % 2 ^ 64) = BitVec.ofNat 32 (s.trigsDue s.dt).dt :=
    BitVec.eq_of_toNat_eq (by simp only [BitVec.toNat_ofNat]; omega)
  refine congrArg Host.Outcome.next ?_
  rw [pairRead_of_up (State.up_of_access ha) (by decide), State.readReg_dtLo ha (Fin.val_ne_zero_iff.2 hb), State.readLo,
    State.pairValue_dt, hw]
  rfl

theorem exec_pairHiRead_dt_unlatched (be : Fin 16) (ha : s.access R.TRG_DT_HI = true) (hb : be ≠ 0)
    (hl : alGet (fun _ => none) s.pairRead (shadowKey p R.TRG_DT_LO) = none) :
    exec (.pairHiRead p R.TRG_DT_HI be) s = .next { s.trigsDue s.dt with lastRead := (p, 0) } := by
  have hd := s.trigsDue_acted s.dt
  refine congrArg Host.Outcome.next ?_
  rw [pairRead_of_up (State.up_of_access ha) (by decide), State.readReg_dtHi ha (Fin.val_ne_zero_iff.2 hb), State.readHi,
    hd.pairRead, hl]

/-- TRG_DTSTAT.OVW is set when the high word of DT is not that of a latched value. -/
def State.ovwMarked (s : State) (v : Nat) : State :=
  if s.dt / 2 ^ 32 % 2 ^ 32 = v / 2 ^ 32 then s else s.put F.TRG_DTSTAT_OVW 1

theorem State.ovwMarked_sameRegs (s : State) (v : Nat) : SameRegs [R.TRG_DTSTAT] s (s.ovwMarked v) := by
  rw [State.ovwMarked]
  split
  · exact SameRegs.refl _ s
  · exact s.put_sameRegs F.TRG_DTSTAT_OVW 1

theorem State.ovwMarked_onlyRegs (s : State) (v : Nat) : OnlyRegs s (s.ovwMarked v) := by
  rw [State.ovwMarked]
  split
  · exact Eq.refl s
  · exact OnlyRegs.put (Eq.refl s) _ _

theorem State.ovwMarked_ovw (s : State) (v : Nat) : (s.ovwMarked v).get F.TRG_DTSTAT_OVW =
    if s.dt / 2 ^ 32 % 2 ^ 32 = v / 2 ^ 32 then s.get F.TRG_DTSTAT_OVW else 1 := by
  rw [State.ovwMarked]
  split
  · rfl
  · exact State.get_put_of_lt s (by simp) (by simp)

theorem State.readHi_dt {v ver : Nat} (hl : alGet (fun _ => none) s.pairRead (shadowKey p R.TRG_DT_LO) = some (v, ver)) :
    s.readHi p R.TRG_DT_LO (some F.TRG_DTSTAT_OVW) = (BitVec.ofNat 32 (v / 2 ^ 32), s.ovwMarked v) := by
  have hrep : s.pairReplaced p R.TRG_DT_LO v ver = (s.dt / 2 ^ 32 % 2 ^ 32 != v / 2 ^ 32) := rfl
  simp only [State.readHi, hl, hrep, bne_iff_ne, ne_eq, ite_not]
  rfl

theorem exec_pairHiRead_dt {v ver : Nat} (be : Fin 16) (ha : s.access R.TRG_DT_HI = true) (hb : be ≠ 0)
    (hl : alGet (fun _ => none) s.pairRead (shadowKey p R.TRG_DT_LO) = some (v, ver)) :
    exec (.pairHiRead p R.TRG_DT_HI be) s = .next
      { (s.trigsDue s.dt).ovwMarked v with lastRead := (p, BitVec.ofNat 32 (v / 2 ^ 32)) } := by
  rw [← (s.trigsDue_acted s.dt).pairRead] at hl
  refine congrArg Host.Outcome.next ?_
  rw [pairRead_of_up (State.up_of_access ha) (by decide), State.readReg_dtHi ha (Fin.val_ne_zero_iff.2 hb), State.readHi_dt hl]

end

theorem shadowKey_ne {p q : Port} (h : q ≠ p) (a : Nat) : shadowKey q a ≠ shadowKey p a := by
  cases p <;> cases q <;> simp_all [shadowKey, portNo]

/-- Settles O16: the due triggers act before the read and leave DT, the latches and TRG_DTSTAT. -/
theorem deviceTimeReadsAsOnePair : Obligations.DeviceTimeReadsAsOnePair := by
  unfold Obligations.DeviceTimeReadsAsOnePair
  refine ⟨?low, ?high, ?unlatched⟩
  case low =>
    intro p q be s ha hb hq
    have hd := s.trigsDue_acted s.dt
    refine ⟨_, exec_pairLoRead_dt be ha hb, ?_, ?_, ?_, rfl⟩
    · rw [State.dtLatched, hd.dt]
    · rw [State.dtLatched, alGet_alSet_self, Option.map_some, hd.dt]
    · rw [State.dtLatched, alGet_alSet_other _ _ _ _ _ (shadowKey_ne hq _), hd.pairRead]
  case high =>
    intro p be v ver s ha hb hl
    have hd := s.trigsDue_acted s.dt
    have hovw : (s.trigsDue s.dt).get F.TRG_DTSTAT_OVW = s.get F.TRG_DTSTAT_OVW :=
      congrArg (fieldOf F.TRG_DTSTAT_OVW) (hd.below _ (by decide))
    refine ⟨_, exec_pairHiRead_dt be ha hb hl, rfl, ?_, State.ovwMarked_sameRegs _ v, ?_⟩
    · refine Eq.trans (State.ovwMarked_ovw (s.trigsDue s.dt) v) ?_
      rw [hovw, hd.dt]
    · exact congrArg (fun x : State => { x with lastRead := (p, BitVec.ofNat 32 (v / 2 ^ 32)) }) (State.ovwMarked_onlyRegs _ v)
  case unlatched => exact fun p be s ha hb hl => ⟨_, exec_pairHiRead_dt_unlatched be ha hb hl, rfl, rfl⟩

end Sys2Proof.Machine
end

section
/-! PROOFS. A counter clear that comes after a received trigger's instant (R126, R135): the statement on the counter clears is refuted. -/

namespace Sys2Proof.Machine

/-- SETUP at DT 100. Trigger 0 follows the ring (TRG_TRIGCFG.RING), and a TRIG character of its stream with effect instant 50 has been
received. The instant has passed, and nothing has looked at the trigger channel since. -/
def trigPassed : State :=
  ({ State.reset with
    mode := .setup
    dt := 100
    ring := { marks := [{ trig := true, stream := 0, seq := 0, instant := 50 }] } } : State).put (F.TRG_TRIGCFG_RING 0) 1

theorem trigPassed_trigdt : trigPassed.reg (R.TRG_TRIGDT_LO 0) = 0 := by decide

/-- The clear lets the trigger act first (R126), which stamps it. -/
theorem trgClrcnt_trigPassed_trigdt : (trgClrcnt trigPassed).reg (R.TRG_TRIGDT_LO 0) = 50 := by decide

/-- Refutes O3 in its clause on TRG_CTRL.CLRCNT, which claims that the registers but the counters, and every other part of the state,
are as before. A received trigger whose instant has passed has its effect first (R126): it is stamped in TRG_TRIGDT, which no clear
names, and leaves the ring logic's list. -/
theorem not_counterClearsClearTheirCounters : ¬ Obligations.CounterClearsClearTheirCounters := by
  unfold Obligations.CounterClearsClearTheirCounters
  rintro ⟨htrg, -⟩
  obtain ⟨u, hexec, -, -, -, hregs, -⟩ := htrg trigPassed (by decide)
  obtain rfl : trgClrcnt trigPassed = u := Host.Outcome.next.inj hexec
  have hsame := hregs (R.TRG_TRIGDT_LO 0) (by decide)
  rw [trgClrcnt_trigPassed_trigdt, trigPassed_trigdt] at hsame
  exact absurd hsame (by decide)

end Sys2Proof.Machine
end

section
/-! PROOFS. A stuck HFV that closes a frame while the region's collator holds a Quire without a slot (R25): the statement on timing inputs is
refuted. -/

namespace Sys2Proof.Machine

/-- The frame of head 0 in progress, of one line, which has not started. -/
def openFrame : Frame := { head := 0, seq := 1, dt := 100, gen := 0, slotAt := 100, snap := [], profile := { headTimed := true } }

/-- A Quire of head 1 that waits in the collator of region 0 for a slot. -/
def slotlessQuire : Quire :=
  { head := 1, seq := 1, region := 0, qidx := 0, row0 := 0, nlines := 1, first := true, last := true }

/-- RUN with the head-timed head 0 in frame 1: its HFV has been high since DT 100. The sample clock is 10 MHz and the frame period 10
cycles, so HFV is stuck at DT 2,100. A Quire of head 1, of the same region, is held without a slot. -/
def stuckHfv : State :=
  ((({ State.reset with mode := .run, dt := 100, frames := [openFrame], quires := [slotlessQuire] } : State).put
    (F.TC_SCLK_FREQ 0) 1000).put (F.HP_FPER_FPER 0) 10).modHead 0 fun u =>
      { u with profile := some { headTimed := true }, hfvSince := some 100, cap := some { seq := 1, start := 100, hfv := true } }

/-- The state that the stuck HFV leaves. -/
def stuckHfvClosed : State := (inputStuck (.hfv 0) 2100 stuckHfv).settleCapture 0

theorem stuckHfv_fperNs : stuckHfv.fperNs 0 = 1000 := by decide

theorem stuckHfv_qhold : stuckHfv.get (F.CL_CNT_QHOLD 0) = 0 := by decide

/-- The frame's Quire is opened at its end, and waits as the other does, which QHOLD counts. -/
theorem stuckHfvClosed_qhold : stuckHfvClosed.get (F.CL_CNT_QHOLD 0) = 1 := by decide

/-- Refutes O15 in its clause on a stuck HFV, which claims that HP_TSTAT and HP_TCNT0 are the only registers that differ. The stuck
input ends the frame's capture, which opens the Quires of its missing lines, and CL_CNT counts one that is held for want of a slot (R25). -/
theorem not_timingInputsAndTriggers : ¬ Obligations.TimingInputsAndTriggers := by
  unfold Obligations.TimingInputsAndTriggers
  rintro ⟨-, -, -, -, -, -, -, -, hhfv, -⟩
  obtain ⟨u, hexec, -, -, -, -, hregs, -⟩ :=
    hhfv 0 2100 100 stuckHfv (by decide) (by decide) (by rw [Fin.val_zero, stuckHfv_fperNs]) (by decide)
  obtain rfl : stuckHfvClosed = u := Host.Outcome.next.inj hexec
  have hsame := hregs.get (F.CL_CNT_QHOLD 0) (by decide)
  rw [stuckHfvClosed_qhold, stuckHfv_qhold] at hsame
  exact absurd hsame (by decide)

end Sys2Proof.Machine
end

section
/-! PROOFS. What the retirement of a cell does to the machine (R184, R230, R239, R240). -/

namespace Sys2Proof.Machine

/-! ### The states of a block's cells (R230) -/

/-- Putting digit `d` in place `n` of a number in base 4. -/
theorem replaceDigit_eq (v d n : Nat) :
    v - v / 4 ^ n % 4 * 4 ^ n + d * 4 ^ n = (v / 4 ^ (n + 1) * 4 + d) * 4 ^ n + v % 4 ^ n := by
  have hv : v = (v / 4 ^ (n + 1) * 4 + v / 4 ^ n % 4) * 4 ^ n + v % 4 ^ n := by
    rw [pow_succ, ← Nat.div_div_eq_div_mul, Nat.div_add_mod', Nat.div_add_mod']
  generalize v / 4 ^ (n + 1) * 4 = a at hv ⊢
  generalize v / 4 ^ n % 4 = e at hv ⊢
  rw [Nat.add_mul] at hv ⊢
  omega

theorem replaceDigit_self {v d n : Nat} (hd : d < 4) : (v - v / 4 ^ n % 4 * 4 ^ n + d * 4 ^ n) / 4 ^ n % 4 = d := by
  have hp : 0 < 4 ^ n := by positivity
  rw [replaceDigit_eq, Nat.mul_comm _ (4 ^ n), Nat.mul_add_div hp, Nat.div_eq_of_lt (Nat.mod_lt v hp)]
  omega

theorem replaceDigit_other {v d n m : Nat} (hd : d < 4) (hm : m ≠ n) :
    (v - v / 4 ^ n % 4 * 4 ^ n + d * 4 ^ n) / 4 ^ m % 4 = v / 4 ^ m % 4 := by
  have hp : 0 < 4 ^ n := by positivity
  rw [replaceDigit_eq]
  rcases Nat.lt_or_gt_of_ne hm with h | h
  · obtain ⟨k, rfl⟩ := Nat.exists_eq_add_of_lt h
    have hk : 4 ^ (m + k + 1) = 4 ^ m * 4 * 4 ^ k := by ring
    have hlow : ((v / 4 ^ (m + k + 1 + 1) * 4 + d) * 4 ^ (m + k + 1) + v % 4 ^ (m + k + 1)) % (4 ^ m * 4) = v % (4 ^ m * 4) := by
      rw [hk, Nat.mul_left_comm, Nat.mul_add_mod, Nat.mod_mul_right_mod]
    rw [← Nat.mod_mul_right_div_self, hlow, Nat.mod_mul_right_div_self]
  · obtain ⟨k, rfl⟩ := Nat.exists_eq_add_of_lt h
    have hk : 4 ^ (n + k + 1) = 4 ^ n * 4 * 4 ^ k := by ring
    have hhigh : ((v / 4 ^ (n + 1) * 4 + d) * 4 ^ n + v % 4 ^ n) / (4 ^ n * 4) = v / (4 ^ n * 4) := by
      rw [← Nat.div_div_eq_div_mul, Nat.mul_comm _ (4 ^ n), Nat.mul_add_div hp, Nat.div_eq_of_lt (Nat.mod_lt v hp), pow_succ]
      omega
    rw [hk, ← Nat.div_div_eq_div_mul, hhigh, Nat.div_div_eq_div_mul]

/-- Seven digits are kept. -/
theorem digit_mod {v m : Nat} (hm : m < 7) : v % 4 ^ 7 / 4 ^ m % 4 = v / 4 ^ m % 4 := by
  obtain ⟨k, hk⟩ := Nat.exists_eq_add_of_lt hm
  have h7 : 4 ^ 7 = 4 ^ m * 4 * 4 ^ k := by rw [hk]; ring
  rw [← Nat.mod_mul_right_div_self, h7, Nat.mod_mul_right_mod, Nat.mod_mul_right_div_self]

section
variable {s : State} {b c n st : Nat}

theorem State.mem_cellsIn {x : Nat} : x ∈ s.cellsIn b st ↔ x < 7 ∧ s.cellState b x = st := by simp [State.cellsIn]

/-- The cells' states after a cell has been set. -/
theorem State.cellState_setCell (hc : c < 7) :
    (s.setCell b n st).cellState b c = (s.get (F.EN_BSTAT_STATE b) - s.cellState b n * 4 ^ n + st * 4 ^ n) / 4 ^ c % 4 := by
  rw [State.setCell, State.putB, State.cellState, State.get_put_disjoint _ _ _ _ (fun _ => by simp),
    State.get_put_self _ _ _ (by simp)]
  exact digit_mod hc

theorem State.cellState_setCell_self (hn : n < 7) (hst : st < 4) : (s.setCell b n st).cellState b n = st :=
  (State.cellState_setCell hn).trans (replaceDigit_self hst)

theorem State.cellState_setCell_other (hc : c < 7) (hst : st < 4) (hne : c ≠ n) :
    (s.setCell b n st).cellState b c = s.cellState b c :=
  (State.cellState_setCell hc).trans (replaceDigit_other hst hne)

end

/-! ### What an operation on the way to a cell's retirement may do -/

/-- The registers and units that keep a block's cells at work differ, and nothing else. -/
def CellFrame (s t : State) : Prop :=
  t = { s with
    regs := t.regs, nv := t.nv, churnRun := t.churnRun, churnQueue := t.churnQueue, blocks := t.blocks, planQ := t.planQ,
    planRun := t.planRun, quires := t.quires }

theorem CellFrame.trans {s t u : State} (h : CellFrame s t) (g : CellFrame t u) : CellFrame s u :=
  Eq.trans g (congrArg (fun x : State => { x with
    regs := u.regs, nv := u.nv, churnRun := u.churnRun, churnQueue := u.churnQueue, blocks := u.blocks, planQ := u.planQ,
    planRun := u.planRun, quires := u.quires }) h)

theorem CellFrame.of_onlyRegs {s t : State} (h : OnlyRegs s t) : CellFrame s t :=
  Eq.trans h (congrArg (fun x : State => { s with
    regs := t.regs, nv := x.nv, churnRun := x.churnRun, churnQueue := x.churnQueue, blocks := x.blocks, planQ := x.planQ,
    planRun := x.planRun, quires := x.quires }) h.symm)

/-- Such units differ and nothing else; no region's count of Quires past the time limit differs, and cell
`c` of block `b` stays retired when it is. -/
structure CellWork (b c : Nat) (s t : State) : Prop where
  frame : CellFrame s t
  tmocnt : ∀ r, t.get (F.CX_STAT_TMOCNT r) = s.get (F.CX_STAT_TMOCNT r)
  stays : s.cellState b c = cellRetired → t.cellState b c = cellRetired

namespace CellWork
variable {b c : Nat} {s t u : State}

theorem refl (s : State) : CellWork b c s s := ⟨Eq.refl s, fun _ => rfl, id⟩

theorem trans (h : CellWork b c s t) (g : CellWork b c t u) : CellWork b c s u :=
  ⟨h.frame.trans g.frame, fun r => (g.tmocnt r).trans (h.tmocnt r), fun hc => g.stays (h.stays hc)⟩

/-- No register differs. -/
theorem of_regs (hf : CellFrame s t) (hr : t.regs = s.regs) : CellWork b c s t :=
  ⟨hf, fun r => by simp only [State.get, State.reg, hr], fun hc => by simpa only [State.cellState, State.get, State.reg, hr] using hc⟩

/-- A field that shares no bit with the counts or with the states of the block's cells is set. -/
theorem put_disjoint (h : CellWork b c s t) (f : Fld) (v : Nat) (ht : ∀ r, R.CX_STAT r = f.addr → 16 ≤ f.lo)
    (hs : R.EN_BSTAT b ≠ f.addr) : CellWork b c s (t.put f v) :=
  h.trans ⟨.of_onlyRegs (Eq.refl (t.put f v)), fun r => t.get_put_disjoint f _ v fun h => .inl (ht r h),
    fun hc => by rwa [State.cellState, t.get_put_reg f _ v hs]⟩

/-- The registers of the counts and of the cells' states stand first in their blocks of 64 KiB. -/
theorem put (h : CellWork b c s t) (f : Fld) (v : Nat) (hf : 4 < f.addr % 0x10000) : CellWork b c s (t.put f v) :=
  h.put_disjoint f v (fun r e => by simp only [R.CX_STAT] at e; omega) (by simp only [R.EN_BSTAT]; omega)

theorem churn (h : CellWork b c s t) (l m : List Job) : CellWork b c s { t with churnRun := l, churnQueue := m } :=
  h.trans (.of_regs (Eq.refl _) rfl)

theorem plan (h : CellWork b c s t) (r : Option PlanReq) (l : List PlanReq) : CellWork b c s { t with planRun := r, planQ := l } :=
  h.trans (.of_regs (Eq.refl _) rfl)

theorem ite {p : Prop} [Decidable p] (h : CellWork b c s t) (g : CellWork b c s u) : CellWork b c s (if p then t else u) := by
  split
  · exact h
  · exact g

theorem foldl {α : Type} {f : State → α → State} {l : List α} (hf : ∀ s, ∀ x ∈ l, CellWork b c s (f s x)) (s : State) :
    CellWork b c s (l.foldl f s) := by
  induction l generalizing s with
  | nil => exact refl s
  | cons x l ih =>
    exact (hf s x (by simp)).trans (ih (fun s y hy => hf s y (by simp [hy])) _)

theorem inbox (h : CellWork b c s t) : t.inbox = s.inbox := by
  have hf := h.frame
  rw [CellFrame] at hf
  rw [hf]

end CellWork

section
variable {b c : Nat} (s : State)

theorem State.modBlock_cellWork (k : Nat) (f : BlockUnit → BlockUnit) : CellWork b c s (s.modBlock k f) := .of_regs (Eq.refl _) rfl

theorem State.modQuire_cellWork (h seq q : Nat) (f : Quire → Quire) : CellWork b c s (s.modQuire h seq q f) := .of_regs (Eq.refl _) rfl

theorem State.churnDone_cellWork (a : Activity) (res : Nat) : CellWork b c s (s.churnDone a res) :=
  (((CellWork.refl s).churn _ _).put F.MC_STAT_RUNNING _ (by decide)).put F.MC_STAT_QUEUED _ (by decide)

theorem State.persist_cellWork (n : Nat) : CellWork b c s (s.persist n) := by
  unfold State.persist
  exact .ite ((CellWork.refl s).put _ _ (by decide)) (.ite (.refl s) (.of_regs (Eq.refl _) rfl))

theorem State.planAuto_cellWork : CellWork b c s s.planAuto := by
  unfold State.planAuto State.planAsk
  split
  · exact ((CellWork.refl s).plan _ s.planQ).put F.SYS_PLAN_STAT_BUSY 1 (by decide)
  · exact .ite (.of_regs (Eq.refl _) rfl) (.of_regs (Eq.refl _) rfl)
  · exact .of_regs (Eq.refl _) rfl

/-- A cell's state is set: another cell's than `c`, or that of a cell that is not retired, or it is retired. -/
theorem State.setCell_cellWork {n st : Nat} (hc : c < 7) (hst : st < 4)
    (h : n = c → s.cellState b c = cellRetired → st = cellRetired) : CellWork b c s (s.setCell b n st) where
  frame := .of_onlyRegs ((OnlyRegs.put (Eq.refl s) _ _).put _ _)
  tmocnt r := by
    simp only [State.setCell, State.putB]
    rw [State.get_put_reg _ _ _ _ (by simp only [R.CX_STAT, R.EN_BSTAT]; omega),
      State.get_put_reg _ _ _ _ (by simp only [R.CX_STAT, R.EN_BSTAT]; omega)]
  stays hr := by
    by_cases hn : n = c
    · subst hn; rw [State.cellState_setCell_self hc hst, h rfl hr]
    · rw [State.cellState_setCell_other hc hst (Ne.symm hn), hr]

/-- Cells that are not retired are given another state. -/
theorem State.setCells_cellWork {l : List Nat} {st : Nat} (hc : c < 7) (hst : st < cellRetired)
    (hl : c ∈ l → s.cellState b c ≠ cellRetired) : CellWork b c s (l.foldl (fun s x => s.setCell b x st) s) := by
  have hst4 : st < 4 := Nat.lt_trans hst (by decide)
  induction l generalizing s with
  | nil => exact .refl s
  | cons x l ih =>
    refine (s.setCell_cellWork hc hst4 fun e hr => absurd hr (hl (by simp [e]))).trans (ih _ fun hcl => ?_)
    by_cases hx : x = c
    · subst hx; rw [State.cellState_setCell_self hc hst4]; exact Nat.ne_of_lt hst
    · rw [State.cellState_setCell_other hc hst4 (Ne.symm hx)]; exact hl (by simp [hcl])

theorem State.mem_cellsIn_ne {x st : Nat} (h : x ∈ s.cellsIn b st) (hc : s.cellState b c = cellRetired) (hst : st ≠ cellRetired) :
    x ≠ c := by
  rintro rfl
  exact hst ((State.mem_cellsIn.1 h).2.symm.trans hc)

theorem State.shadowDrop_cellWork (k : Nat) : CellWork b c s (s.shadowDrop k) := .of_regs (Eq.refl _) rfl

theorem State.shadowEnd_cellWork (k : Nat) : CellWork b c s (s.shadowEnd k) := .ite (.refl s) (s.churnDone_cellWork .m7 k)

/-- The shadow cells of the block become spares: none of them was retired. -/
theorem State.shadowStop_cellWork (hc : c < 7) : CellWork b c s (s.shadowStop b) := by
  unfold State.shadowStop
  refine .ite (.refl s) ?_
  have hcells : CellWork b c s ((s.cellsIn b cellShadow).foldl (fun s x => s.setCell b x cellSpare) (s.shadowDrop b)) :=
    (s.shadowDrop_cellWork b).trans (State.setCells_cellWork _ hc (by decide) fun hm hr => s.mem_cellsIn_ne hm hr (by decide) rfl)
  exact (((hcells.trans (State.modBlock_cellWork ..)).put (F.EN_SHSTAT_TARGET b) 0xF (by simp))).trans
    (State.churnDone_cellWork ..)

/-- A spare becomes the shadow cell. -/
theorem State.shadowBegin_cellWork (hc : c < 7) : CellWork b c s (s.shadowBegin b) := by
  unfold State.shadowBegin
  split
  next x l d hx ht =>
    have hm : x ∈ s.cellsIn b cellSpare := by rw [hx]; exact List.mem_cons_self
    have hset : CellWork b c s (s.setCell b x cellShadow) :=
      s.setCell_cellWork hc (by decide) fun e hr => absurd e (s.mem_cellsIn_ne hm hr (by decide))
    exact (hset.put (F.EN_SHSTAT_TARGET b) d (by simp)).trans (State.modBlock_cellWork ..)
  next => exact (CellWork.refl s).put (F.EN_SHSTAT_TARGET b) 0xF (by simp)

theorem State.shadowAsk_cellWork (hc : c < 7) : CellWork b c s (s.shadowAsk b) := .ite (s.shadowBegin_cellWork hc) (.refl s)

theorem State.quireReplay_cellWork (q : Quire) (on : Option (Nat × Nat)) : CellWork b c s (s.quireReplay q on) := by
  have hq (f : Quire → Quire) : CellWork b c s ((s.modQuire q.head q.seq q.qidx f).bump (F.CX_RCNT_REPLAY q.region)) :=
    (s.modQuire_cellWork q.head q.seq q.qidx f).put (F.CX_RCNT_REPLAY q.region) _ (by simp)
  cases hst : q.stage <;> simp only [State.quireReplay, hst]
  case running b' _ _ => exact .ite ((hq _).trans (State.shadowEnd_cellWork ..)) (hq _)
  all_goals exact hq _

theorem State.syncCx_cellWork (r : Nat) : CellWork b c s (s.syncCx r) := by
  unfold State.syncCx
  exact ((CellWork.refl s).put_disjoint (F.CX_STAT_INFLIGHT r) _ (by simp) (by simp only [R.CX_STAT, R.EN_BSTAT]; omega)).put_disjoint
    (F.CX_STAT_WAITING r) _ (by simp) (by simp only [R.CX_STAT, R.EN_BSTAT]; omega)

/-- What follows once a cell is RETIRED (R240): the spare `took` is set, the shadow check goes on or stops, the Quires are replayed. -/
def State.cellRetiredThen (s : State) (b : Nat) (mine : List Quire) (took : Option Nat) : State :=
  let s := if (s.cellsIn b cellSpare).isEmpty then s.shadowStop b else s
  let s := mine.foldl (fun s q => s.quireReplay q (took.map fun x => (b, x))) s
  (s.shadowAsk b).syncCx (b / 4)

theorem State.cellRetiredThen_cellWork (hc : c < 7) (mine : List Quire) (took : Option Nat) :
    CellWork b c s (s.cellRetiredThen b mine took) :=
  (((CellWork.ite (s.shadowStop_cellWork hc) (.refl s)).trans (.foldl (fun t q _ => t.quireReplay_cellWork q _) _)).trans
    (State.shadowAsk_cellWork _ hc)).trans (State.syncCx_cellWork ..)

/-- The place of a cell that was in service is taken by the block's spare, if it has one; else capacity is lost (R39, R240). -/
def State.cellReplaced (s : State) (b was : Nat) (spare : Option Nat) : State × Option Nat :=
  if was = cellInService then
    match spare with
    | some x => (s.setCell b x cellInService, some x)
    | none => (s.planAuto, none)
  else (s, none)

theorem State.cellReplaced_cellWork (hc : c < 7) (was : Nat) {spare : Option Nat} (hs : spare ≠ some c) :
    CellWork b c s (s.cellReplaced b was spare).1 := by
  unfold State.cellReplaced
  split
  · cases spare with
    | some x => exact s.setCell_cellWork hc (by decide) fun e => absurd (congrArg some e) hs
    | none => exact s.planAuto_cellWork
  · exact .refl s

/-- The shadow check of the block stops before a cell is retired that it needs, or whose place its shadow cell will take (R239). -/
def State.beforeRetire (s : State) (b c : Nat) (spare : Option Nat) : State :=
  if s.cellState b c = cellShadow || (s.cellsIn b cellShadow).any (fun x => spare == some x) || (s.block b).target == some c
  then s.shadowStop b else s

/-- The cell that will take the place of cell `c`: the shadow cell, else the spare. -/
def State.spareFor (s : State) (b c : Nat) : Option Nat :=
  ((s.cellsIn b cellShadow) ++ (s.cellsIn b cellSpare)).find? (· != c)

theorem State.spareFor_ne : s.spareFor b c ≠ some c := fun h => by simpa using List.find?_some h

theorem State.retireCell_eq (hr : s.cellState b c ≠ cellRetired) : s.retireCell b c =
    let u := ((((s.beforeRetire b c (s.spareFor b c)).setCell b c cellRetired).bump (F.EN_BCNT_RETIRED b)).persist 2).cellReplaced b
      (s.cellState b c) (s.spareFor b c)
    u.1.cellRetiredThen b (s.quires.filter fun q => q.runsOn b c) u.2 := by
  rw [State.retireCell, if_neg hr]
  rfl

theorem State.retireCell_cellWork (hc : c < 7) :
    CellWork b c s (s.retireCell b c) ∧ (s.retireCell b c).cellState b c = cellRetired := by
  by_cases hr : s.cellState b c = cellRetired
  · rw [State.retireCell, if_pos hr]
    exact ⟨.refl s, hr⟩
  rw [s.retireCell_eq hr]
  have hbefore : CellWork b c s (s.beforeRetire b c (s.spareFor b c)) := .ite (s.shadowStop_cellWork hc) (.refl s)
  generalize s.beforeRetire b c (s.spareFor b c) = t at hbefore ⊢
  have hset : CellWork b c t (t.setCell b c cellRetired) := t.setCell_cellWork hc (by decide) fun _ _ => rfl
  have hself : (t.setCell b c cellRetired).cellState b c = cellRetired := State.cellState_setCell_self hc (by decide)
  suffices hthen : CellWork b c (t.setCell b c cellRetired) _ from ⟨(hbefore.trans hset).trans hthen, hthen.stays hself⟩
  exact (((CellWork.refl _).put (F.EN_BCNT_RETIRED b) _ (by simp)).trans (State.persist_cellWork _ 2)).trans
    ((State.cellReplaced_cellWork _ hc _ s.spareFor_ne).trans (State.cellRetiredThen_cellWork _ hc _ _))

end

end Sys2Proof.Machine
end

section
/-! PROOFS. The faults of a run (R154, R180, R181, R185): what a failing residue check, the time limit, a slot's SRAM and a table's read
report and mark, and the statement on them. -/

namespace Sys2Proof.Machine

/-! ### A cell that is retired for a fault it has reported (R180, R185) -/

section
variable {s t u : State}

theorem CellFrame.sameMem (h : CellFrame s t) : SameMem s t := by
  rw [CellFrame] at h
  apply SameMem.of_eq <;> rw [h]

theorem CellFrame.mode (h : CellFrame s t) : t.mode = s.mode := by
  rw [CellFrame] at h
  rw [h]

theorem CellFrame.dt (h : CellFrame s t) : t.dt = s.dt := by
  rw [CellFrame] at h
  rw [h]

/-- Beside what an earlier step changed, Device Time and waiting reports among it, only such units differ. -/
theorem CellFrame.after (h : CellFrame t u) (ht : t = { s with regs := t.regs, dt := t.dt, inbox := t.inbox }) :
    u = { s with
      regs := u.regs, dt := u.dt, inbox := u.inbox, nv := u.nv, churnRun := u.churnRun, churnQueue := u.churnQueue,
      blocks := u.blocks, planQ := u.planQ, planRun := u.planRun, quires := u.quires } := by
  rw [ht, CellFrame] at h
  exact Eq.trans h (congrArg (fun x : State => { s with
    regs := u.regs, dt := x.dt, inbox := x.inbox, nv := u.nv, churnRun := u.churnRun, churnQueue := u.churnQueue,
    blocks := u.blocks, planQ := u.planQ, planRun := u.planRun, quires := u.quires }) h.symm)

end

/-- The time limit is counted and reported at DT `t` (R185). -/
def State.timedOut (s : State) (b c t r : Nat) : State :=
  ((s.at t).bump (F.CX_STAT_TMOCNT r)).raise b .uc (detailWord c 0xFF 0x004)

/-- Registers, Device Time and the reports that wait differ, and nothing else. -/
theorem State.timedOut_frame (s : State) (b c t r : Nat) : s.timedOut b c t r = { s with
    regs := (s.timedOut b c t r).regs, dt := (s.timedOut b c t r).dt, inbox := (s.timedOut b c t r).inbox } := rfl

theorem State.timedOut_tmocnt (s : State) (b c t r : Nat) : (s.timedOut b c t r).get (F.CX_STAT_TMOCNT r) =
    min (s.get (F.CX_STAT_TMOCNT r) + 1) (2 ^ (F.CX_STAT_TMOCNT r).w - 1) := (s.at t).get_bump_self _ (by simp)

section
variable {s : State} {b : Block} {c : Cell}

theorem exec_residueMismatch_retried (hb : s.cellBusy b c = true) :
    exec (.residueMismatch b c true) s =
      .next ((s.bump (F.CX_RCNT_RETRYOK (b / 4))).raise b .ce (detailWord c 0xFF 0x008)) :=
  congrArg _ (State.whenever_pos _ _ _ hb)

theorem exec_residueMismatch_failed (hb : s.cellBusy b c = true) :
    exec (.residueMismatch b c false) s = .next ((s.raise b .uc (detailWord c 0xFF 0x008)).retireCell b c) :=
  congrArg _ (State.whenever_pos _ _ _ hb)

theorem exec_quireTimeout {q : Quire} {n t : Nat} (hq : (s.quires.find? fun q => q.runsOn b c) = some q)
    (hst : q.stage = .running b c n) (hlim : s.get (F.CX_CTRL_QTMO q.region) ≠ 0)
    (ht : n + 1000 * s.get (F.CX_CTRL_QTMO q.region) ≤ t) :
    exec (.quireTimeout b c t) s = .next ((s.timedOut b c t q.region).retireCell b c) := by
  have hrun : quireTimeout b c t s = (s.timedOut b c t q.region).retireCell b c := by
    simp only [quireTimeout, hq, hst]
    exact State.whenever_pos _ _ _ (by simp [hlim, ht])
  exact congrArg Host.Outcome.next hrun

end

/-! ### A Quire's marks (R154, R181) -/

section
variable {s : State} {h seq q : Nat} {f : Quire → Quire} {x : Quire}

/-- The Quire that was changed. -/
theorem State.mem_modQuire (hx : x ∈ (s.modQuire h seq q f).quires) (hh : x.head = h) (hs : x.seq = seq) (hq : x.qidx = q) :
    ∃ y, x = f y := by
  obtain ⟨y, -, hy⟩ := List.mem_map.1 hx
  by_cases hp : (y.head == h && y.seq == seq && y.qidx == q) = true
  · exact ⟨y, by rw [← hy, if_pos hp]⟩
  · rw [if_neg hp] at hy
    subst hy
    simp [hh, hs, hq] at hp

end

/-! ### An SRAM word of a slot (R181) -/

/-- The pixels of a Quire in the word at offset `off` of its slot (R148), as slot line × WIDTH + column. -/
def State.wordPixels (s : State) (q : Quire) (off : Nat) : List Nat :=
  let p := s.prof q.head
  let bpp := if p.dual then 4 else 2
  let x0 := (off - 0x100) % 0x4000 / 8 * (8 / bpp)
  (List.range (8 / bpp)).filterMap fun k =>
    if x0 + k < p.width then some ((off - 0x100) / 0x4000 * p.width + x0 + k) else none

section
variable {s : State} {b : Block} {slot : Fin 8} {off : Nat} {q : Quire}

theorem State.first_mem_wordPixels (hd : (s.prof q.head).dual = false) (hx : (off - 0x100) % 0x4000 / 8 * 4 < (s.prof q.head).width) :
    (off - 0x100) / 0x4000 * (s.prof q.head).width + (off - 0x100) % 0x4000 / 8 * 4 ∈ s.wordPixels q off :=
  List.mem_filterMap.2 ⟨0, by simp [hd], by simp [hd, hx]⟩

/-- The UC of a slot's word. -/
def State.sramUc (s : State) (b : Block) (slot : Fin 8) (off : Nat) : State := s.raise b .uc (detailWord slot 0xFF off)

theorem exec_sramSecdedError_corrected (hq : (s.quires.find? fun q => q.slot == some (b.val, slot.val)) = some q) :
    exec (.sramSecdedError b slot off false) s = .next (s.raise b .ce (detailWord slot 0xFF off)) := by
  have hrun : sramSecdedError b slot off false s = s.raise b .ce (detailWord slot 0xFF off) := by
    simp only [sramSecdedError, hq] <;> rfl
  exact congrArg Host.Outcome.next hrun

theorem exec_sramSecdedError_header (hq : (s.quires.find? fun q => q.slot == some (b.val, slot.val)) = some q) (ho : off < 0x40) :
    exec (.sramSecdedError b slot off true) s =
      .next ((s.sramUc b slot off).modQuire q.head q.seq q.qidx fun x => { x with allBad := true }) := by
  have hrun : sramSecdedError b slot off true s =
      (s.sramUc b slot off).modQuire q.head q.seq q.qidx fun x => { x with allBad := true } := by
    simp only [sramSecdedError, hq, if_pos ho] <;> rfl
  exact congrArg Host.Outcome.next hrun

theorem exec_sramSecdedError_line (hq : (s.quires.find? fun q => q.slot == some (b.val, slot.val)) = some q) (ho : 0x100 ≤ off)
    (hl : off < 0x48100) :
    exec (.sramSecdedError b slot off true) s =
      .next ((s.sramUc b slot off).modQuire q.head q.seq q.qidx fun x => { x with bad := x.bad ++ s.wordPixels q off }) := by
  have hrun : sramSecdedError b slot off true s =
      (s.sramUc b slot off).modQuire q.head q.seq q.qidx fun x => { x with bad := x.bad ++ s.wordPixels q off } := by
    simp only [sramSecdedError, hq, if_neg (show ¬off < 0x40 by omega), if_neg (show ¬(off < 0x100 ∨ 0x48100 ≤ off) by omega)] <;> rfl
  exact congrArg Host.Outcome.next hrun

theorem exec_sramSecdedError_between (hq : (s.quires.find? fun q => q.slot == some (b.val, slot.val)) = some q) (ho : 0x40 ≤ off)
    (hl : off < 0x100 ∨ 0x48100 ≤ off) :
    exec (.sramSecdedError b slot off true) s = .next (s.sramUc b slot off) := by
  have hrun : sramSecdedError b slot off true s = s.sramUc b slot off := by
    simp only [sramSecdedError, hq, if_neg (show ¬off < 0x40 by omega), if_pos hl] <;> rfl
  exact congrArg Host.Outcome.next hrun

end

/-! ### A read of device DRAM that cannot be corrected (R154) -/

/-- Registers, pair versions and the count of free values differ, and nothing else. -/
def ReadWork (s t : State) : Prop := t = { s with regs := t.regs, pairVer := t.pairVer, freeCnt := t.freeCnt }

namespace ReadWork
variable {s t u : State}

theorem trans (h : ReadWork s t) (g : ReadWork t u) : ReadWork s u :=
  Eq.trans g (congrArg (fun x : State => { x with regs := u.regs, pairVer := u.pairVer, freeCnt := u.freeCnt }) h)

theorem fresh (s : State) : ReadWork s s.fresh.2 := Eq.refl _

theorem put (h : ReadWork s t) (f : Fld) (v : Nat) : ReadWork s (t.put f v) := h.trans (Eq.refl (t.put f v))

theorem put64 (h : ReadWork s t) (lo hi : Fld) (v : Nat) : ReadWork s (t.put64 lo hi v) := h.trans (Eq.refl (t.put64 lo hi v))

end ReadWork

/-- The registers that count and locate a channel's errors. -/
abbrev dramErrRegs (ch : Nat) : List Nat := [R.DR_ECC ch, R.DR_ERRADDR_LO ch, R.DR_ERRADDR_HI ch]

section
variable (s : State) (ch v : Nat)

theorem State.dramNoteAt_sameRegs : SameRegs (dramErrRegs ch) s (s.dramNoteAt ch v) :=
  ((SameRegs.refl (dramErrRegs ch) s).put (F.DR_ECC_UE ch) _ (by simp)).put64 (lo := F.DR_ERRADDR_LO_ADDR ch)
    (hi := F.DR_ERRADDR_HI_ADDR ch) v (by simp) (by simp)

theorem State.dramNoteAt_ue :
    (s.dramNoteAt ch v).get (F.DR_ECC_UE ch) = min (s.get (F.DR_ECC_UE ch) + 1) (2 ^ (F.DR_ECC_UE ch).w - 1) := by
  have haddr : SameRegs [R.DR_ERRADDR_LO ch, R.DR_ERRADDR_HI ch] (s.bump (F.DR_ECC_UE ch)) (s.dramNoteAt ch v) :=
    (SameRegs.refl _ (s.bump (F.DR_ECC_UE ch))).put64 (lo := F.DR_ERRADDR_LO_ADDR ch) (hi := F.DR_ERRADDR_HI_ADDR ch) v (by simp)
      (by simp)
  rw [haddr.get _ (by simp), State.get_bump_self _ _ (by simp)]

theorem State.dramNoteAt_readWork : ReadWork s (s.dramNoteAt ch v) :=
  (ReadWork.put (Eq.refl s) (F.DR_ECC_UE ch) _).put64 (F.DR_ERRADDR_LO_ADDR ch) (F.DR_ERRADDR_HI_ADDR ch) v

/-- The address of the word is a free value (log entry 55). -/
theorem State.dramNote_eq : ∃ v, s.dramNote ch = s.fresh.2.dramNoteAt ch v := ⟨_, rfl⟩

theorem State.dramUE_eq : ∃ v, s.dramUE ch = s.fresh.2.dramUEAt ch v := ⟨_, rfl⟩

end

/-- The pixels that a failed read makes bad. -/
def State.badRead (s : State) (ch : Nat) (px : List Nat) (q : Quire) : State :=
  s.modQuire q.head q.seq q.qidx fun x => { x with badRead := x.badRead ++ px.map fun p => (ch, p) }

section
variable {s t u : State} {src : Nat} {cls : FaultClass} {d : Nat} {ch : Nat} {px : List Nat} {q : Quire}

theorem ReadWork.badRead_frame (h : ReadWork s t) (hu : u = (t.raise src cls d).badRead ch px q) :
    u = { s with regs := u.regs, freeCnt := u.freeCnt, inbox := u.inbox, pairVer := u.pairVer, quires := u.quires } := by
  subst hu
  exact congrArg (fun x : State => { x with
    inbox := ((t.raise src cls d).badRead ch px q).inbox, quires := ((t.raise src cls d).badRead ch px q).quires }) h

/-- No register differs after the mark. -/
theorem State.badRead_reg (s : State) (ch : Nat) (px : List Nat) (q : Quire) (a : Nat) : (s.badRead ch px q).reg a = s.reg a := rfl

theorem State.badRead_get (s : State) (ch : Nat) (px : List Nat) (q : Quire) (f : Fld) : (s.badRead ch px q).get f = s.get f := rfl

end

/-- The copy a frame's leaf or residual reads go to: 0 leaf A, 1 leaf B, 2 residual A, 3 residual B. -/
def Frame.readCopy (f : Frame) (res : Bool) : Nat := if res then (if f.resSel then 3 else 2) else if f.leafSel then 1 else 0

section
variable {s : State} {b : Block} {c : Cell} {ch : Channel} {res fails : Bool} {px : List Nat} {q : Quire} {f : Frame}

/-- The repeat reads the mirror when it is enabled and in step with its primary, and succeeds (R154). -/
theorem exec_leafReadUe_repeated (hq : s.quireOn b c = some q) (hf : s.frame q.head q.seq = some f)
    (hl : s.lostChan.contains ch.val = false) (hm : s.mirrored q.head (f.readCopy res) = true)
    (hs : bit (s.get (F.CL_HSTAT_MIRSYNC q.head)) (f.readCopy res) = true) :
    exec (.leafReadUe b c ch ⟨res, px⟩ false) s = .next (s.dramNote ch) := by
  rw [Frame.readCopy] at hm hs
  have hrun : leafReadUe b c ch res px false s = s.dramNote ch := by
    simp only [leafReadUe, hq, hf, hl, hm, hs] <;> rfl
  exact congrArg Host.Outcome.next hrun

/-- Such a read with nothing to repeat it from, or a repeat that fails too, makes its pixels bad (R154). -/
theorem exec_leafReadUe_bad (hq : s.quireOn b c = some q) (hf : s.frame q.head q.seq = some f)
    (hl : s.lostChan.contains ch.val = false) (hbad : fails = true ∨ s.mirrored q.head (f.readCopy res) = false) :
    exec (.leafReadUe b c ch ⟨res, px⟩ fails) s = .next ((s.dramUE ch).badRead ch px q) := by
  rw [Frame.readCopy] at hbad
  have hrun : leafReadUe b c ch res px fails s = (s.dramUE ch).badRead ch px q := by
    rcases hbad with rfl | hm
    · simp only [leafReadUe, hq, hf, hl, Bool.not_true, Bool.and_false] <;> rfl
    · simp only [leafReadUe, hq, hf, hl, hm, Bool.false_and] <;> rfl
  exact congrArg Host.Outcome.next hrun

/-- A lost channel is not read (R383). -/
theorem exec_leafReadUe_lost (hl : s.lostChan.contains ch.val = true) : exec (.leafReadUe b c ch ⟨res, px⟩ fails) s = .next s := by
  have hrun : leafReadUe b c ch res px fails s = s := by
    unfold leafReadUe
    split
    · rfl
    · split
      · rfl
      · simp only [hl, if_true]
  exact congrArg Host.Outcome.next hrun

end

/-- Settles O5, by what the retirement of a cell may change (`CellWork`: no report joins the inbox, the count of the time limit stays, the
cell stays RETIRED), by the marks that `modQuire` makes, and by the registers that an uncorrectable read touches. -/
theorem engineFaultsAreCounted : Obligations.EngineFaultsAreCounted := by
  unfold Obligations.EngineFaultsAreCounted
  refine ⟨fun b c s hb => ?_, fun b c s hb => ?_, fun b c t s q n hq hst hlim ht => ?_, fun b slot off s q hq => ?_,
    fun b slot off s q hq hoff => ?_, fun b slot off s q hq hoff => ?_, fun b c ch res px s q f hq hf hl hm hs => ?_,
    fun b c ch res fails px s q f hq hf hl hbad => ?_, fun b c ch res fails px s hl => ⟨_, exec_leafReadUe_lost hl, rfl⟩⟩
  · refine ⟨_, exec_residueMismatch_retried hb, ?_, ⟨_, rfl⟩, ?_, rfl⟩
    · rw [State.raise_get, State.get_bump_self _ _ (by simp)]
    · exact ((SameRegs.refl _ s).put (F.CX_RCNT_RETRYOK (b / 4)) _ (by simp)).raise _ _ _
  · obtain ⟨hwork, hretired⟩ := State.retireCell_cellWork (b := b) (s.raise b .uc (detailWord c 0xFF 0x008)) c.isLt
    have hframe := hwork.frame.after (Eq.refl (s.raise b .uc (detailWord c 0xFF 0x008)))
    rw [hwork.frame.dt] at hframe
    exact ⟨_, exec_residueMismatch_failed hb, ⟨_, [], hwork.inbox⟩, hretired, hwork.frame.sameMem, hwork.frame.mode, hframe⟩
  · obtain ⟨hwork, -⟩ := State.retireCell_cellWork (b := b) (s.timedOut b c t q.region) c.isLt
    exact ⟨_, exec_quireTimeout hq hst hlim ht, (hwork.tmocnt q.region).trans (s.timedOut_tmocnt b c t q.region),
      ⟨_, [], hwork.inbox⟩, hwork.frame.dt, hwork.frame.sameMem, hwork.frame.mode,
      hwork.frame.after (s.timedOut_frame b c t q.region)⟩
  · exact ⟨_, exec_sramSecdedError_corrected hq, rfl⟩
  · refine ⟨_, exec_sramSecdedError_header hq hoff, fun x hx hh hs hi => ?_, rfl⟩
    obtain ⟨y, rfl⟩ := State.mem_modQuire hx hh hs hi
    rfl
  · by_cases hline : off < 0x100 ∨ 0x48100 ≤ off
    · exact ⟨_, exec_sramSecdedError_between hq hoff hline, fun _ _ => by omega, fun _ => rfl, rfl⟩
    · refine ⟨_, exec_sramSecdedError_line hq (by omega) (by omega), fun _ _ hd hw x hx hh hs hi => ?_, fun _ => by omega, rfl⟩
      obtain ⟨y, rfl⟩ := State.mem_modQuire hx hh hs hi
      exact List.mem_append_right _ (State.first_mem_wordPixels hd hw)
  · obtain ⟨v, hv⟩ := s.dramNote_eq ch
    exact ⟨_, hv ▸ exec_leafReadUe_repeated hq hf hl hm hs, s.fresh.2.dramNoteAt_ue ch v, s.fresh.2.dramNoteAt_sameRegs ch v,
      (ReadWork.fresh s).trans (s.fresh.2.dramNoteAt_readWork ch v)⟩
  · obtain ⟨v, hv⟩ := s.dramUE_eq ch
    have hexec := exec_leafReadUe_bad (px := px) hq hf hl hbad
    rw [hv] at hexec
    have hwork := (ReadWork.fresh s).trans (s.fresh.2.dramNoteAt_readWork ch v)
    refine ⟨_, hexec, ?_, ⟨_, rfl⟩, fun x hx hh hs hi p hp => ?_, fun a ha => ?_, .of_eq rfl rfl rfl rfl, rfl, rfl,
      hwork.badRead_frame rfl⟩
    · rw [State.badRead_get, State.dramUEAt, State.raise_get, State.dramNoteAt_ue]
      rfl
    · obtain ⟨y, rfl⟩ := State.mem_modQuire hx hh hs hi
      exact List.mem_append_right _ (List.mem_map_of_mem hp)
    · rw [State.badRead_reg, State.dramUEAt, State.raise_reg, s.fresh.2.dramNoteAt_sameRegs ch v a ha]
      rfl

end Sys2Proof.Machine
end

section
/-! PROOFS. Two waiting DMA_COPYs of one channel (R350): the statement on ring commands for tables, microcode and jobs is refuted. -/

namespace Sys2Proof.Machine

/-- A DMA_COPY descriptor for channel 2 (Table 13-6) with its OWN bit set, as fetched in place `n` of all fetches. -/
def copyCmd (n : Nat) : RingCmd :=
  { tag := 0, bytes := (List.range 64).map fun i => if i = 0 then 5 else if i = 16 then 2 else if i = 63 then 0x80 else 0, cidx := 0,
    order := n }

/-- SETUP. Channel 2 of the PF is enabled, driven by rings and idle. Rings 5 and 6 of the PF each hold a DMA_COPY for it that has not
started; ring 6's was fetched first. -/
def twoCopies : State :=
  ((((({ State.reset with mode := .setup, rings := [(5, { cmds := [copyCmd 1] }), (6, { cmds := [copyCmd 0] })] } : State).put
    (F.Q_FRANGE_COUNT 0) 1).put (F.Q_FPERM_OPS 0) 0x7F).put (F.DMA_CH_CFG_SRC 2) 1).put (F.DMA_CH_CFG_EN 2) 1)

theorem twoCopies_runs : RingRuns twoCopies 5 5 0 (copyCmd 1) := by decide

/-- Ring 5's DMA_COPY does not start before ring 6's. -/
theorem dmaCopy_twoCopies : dmaCopy 5 0 twoCopies = twoCopies := State.whenever_neg _ _ _ (by decide)

/-- Refutes O34 in its clause on DMA_COPY, which claims that an idle ring-driven channel begins the descriptor of any ring of its
function. The descriptors of one channel start in the order of their fetches (R350): the command waits while another ring's
DMA_COPY for the channel that was fetched before it has not started. -/
theorem not_ringCommandsForTablesMicrocodeAndJobs : ¬ Obligations.RingCommandsForTablesMicrocodeAndJobs := by
  unfold Obligations.RingCommandsForTablesMicrocodeAndJobs
  rintro ⟨-, -, -, -, -, -, hcopy, -⟩
  obtain ⟨u, hexec, -, hrun, -⟩ := hcopy 5 0 2 (copyCmd 1) twoCopies twoCopies_runs (by decide) (by decide) (by decide) (by decide)
    (by decide) (by decide) (by decide) (by decide)
  obtain rfl : twoCopies = u := dmaCopy_twoCopies.symm.trans (Host.Outcome.next.inj hexec)
  rw [show (twoCopies.chan (2 : Fin 64)).run = none by decide] at hrun
  exact absurd hrun (by simp)

end Sys2Proof.Machine
end

section
/-! PROOFS. The last line of a muted frame, placed when the next frame has already ended without a line (R99, R144): the statement on
lines and mirrors is refuted. -/

namespace Sys2Proof.Machine

/-- RUN. Head 0 is head-timed. Frame 1, whose samples do not reach the Collator (R99), is kept as the earlier capture until its one line
has been placed; frame 2 has begun, and ended before its first line. -/
def mutedThenEmpty : State :=
  ({ State.reset with
    mode := .run
    frames := [
      { head := 0, seq := 1, dt := 0, gen := 0, snap := [], profile := { headTimed := true }, mute := true },
      { head := 0, seq := 2, dt := 0, gen := 0, snap := [], profile := { headTimed := true } }] } : State).modHead 0 fun u =>
    { u with profile := some { headTimed := true }, prevCap := some { seq := 1, start := 0, lines := 1, closed := true },
             cap := some { seq := 2, start := 0, closed := true } }

/-- With the muted line the capture of frame 2 ends too, and the Quires of its missing lines are opened (R144, R145). -/
theorem collatorLinePlaced_mutedThenEmpty : ((collatorLinePlaced 0 0 [] 1000000 mutedThenEmpty).quires.length) ≠ 0 := by decide

/-- Refutes O21 in its clause on a muted frame's line, which claims that no Quire changes. The line that ends the muted frame's capture
lets the next frame's capture end in the same step when that one has closed with every line placed: its Quires are opened. -/
theorem not_linesAndMirrors : ¬ Obligations.LinesAndMirrors := by
  unfold Obligations.LinesAndMirrors
  rintro ⟨-, hmute, -⟩
  obtain ⟨u, hexec, hquires, -⟩ := hmute 0 0 [] 1000000 { seq := 1, start := 0, lines := 1, closed := true }
    { head := 0, seq := 1, dt := 0, gen := 0, snap := [], profile := { headTimed := true }, mute := true } mutedThenEmpty
    (by decide) (by decide) rfl rfl (by decide) (by decide)
  obtain rfl : collatorLinePlaced 0 0 [] 1000000 mutedThenEmpty = u := Host.Outcome.next.inj hexec
  exact collatorLinePlaced_mutedThenEmpty (congrArg List.length hquires)

end Sys2Proof.Machine
end

section
/-! PROOFS. A shutter request that is withdrawn while the shutter of the last event still opens (R199, R200): the statement on shutter
requests is refuted. -/

namespace Sys2Proof.Machine

/-- RUN. Head 0 streams with its calibration enabled, and a shutter event of it runs with the shutter closed. -/
def closedEvent : State :=
  ((((({ State.reset with mode := .run } : State).put (F.HP_STAT_STREAM 0) 1).put (F.CX_SCFG_EN 0) 1).put
    (F.CX_SSTAT_PHASE 0) 3).modHead
    0 fun u => { u with profile := some { shutType := 1 } }).modShut 0 fun e => { e with active := true, granted := true }

/-- A CANCEL has ended that event and ordered the shutter open; before it stands open, SHREQ has made a new request. -/
def requestWhileOpening : State := shreq 0 (shutterCancel 0 closedEvent)

theorem requestWhileOpening_pending :
    (requestWhileOpening.shut 0).active = true ∧ requestWhileOpening.get (F.CX_SSTAT_PHASE 0) = 1 := by decide

/-- The cancelled event has not resumed yet. -/
theorem requestWhileOpening_ended : (requestWhileOpening.shut 0).ended = true := by decide

/-- CANCEL of the request leaves the head in phase OPENING (5), where the cancelled event had brought it. -/
theorem shutterCancel_requestWhileOpening : (shutterCancel 0 requestWhileOpening).get (F.CX_SSTAT_PHASE 0) = 5 := by decide

/-- Refutes O22 in its clause on the CANCEL of a pending request, which claims that PHASE then reads 0. A request may be made while
the shutter of an event that ended in failure still opens, which the head waits out before it resumes (R199): with the request
withdrawn, PHASE reads OPENING again. The state comes of a running event by CANCEL and SHREQ. -/
theorem not_shutterCalibrationRequests : ¬ Obligations.ShutterCalibrationRequests := by
  unfold Obligations.ShutterCalibrationRequests
  rintro ⟨-, -, -, -, -, hcancel, -⟩
  obtain ⟨hactive, hphase⟩ := requestWhileOpening_pending
  obtain ⟨t, hexec, -, -, hidle, -⟩ := hcancel 0 requestWhileOpening (by decide) hactive hphase
  obtain rfl : shutterCancel 0 requestWhileOpening = t := Host.Outcome.next.inj hexec
  exact absurd (shutterCancel_requestWhileOpening.symm.trans hidle) (by decide)

end Sys2Proof.Machine
end

section
/-! PROOFS. What a write of bytes to device DRAM changes: the bytes it names on the channels in service, their mirrors, and nothing
else (R152, R153, R383). -/

namespace Sys2Proof.Machine

/-! ### States that differ in device DRAM alone -/

/-- Nothing but device DRAM differs. -/
def OnlyDram (s t : State) : Prop := t = { s with dram := t.dram }

theorem OnlyDram.refl (s : State) : OnlyDram s s := Eq.refl s

theorem OnlyDram.trans {s t u : State} (h : OnlyDram s t) (g : OnlyDram t u) : OnlyDram s u :=
  Eq.trans g (congrArg (fun x : State => { x with dram := u.dram }) h)

theorem OnlyDram.reg {s t : State} (h : OnlyDram s t) (a : Nat) : t.reg a = s.reg a := by
  rw [OnlyDram] at h
  rw [h]
  rfl

theorem OnlyDram.mirrorsOf {s t : State} (h : OnlyDram s t) (a : Nat) : t.mirrorsOf a = s.mirrorsOf a := by
  rw [OnlyDram] at h
  rw [h]
  rfl

/-! ### One byte -/

/-- A byte is stored at an address, or discarded on a lost channel (R383): what `dramWrite` does at each address it reaches. -/
def State.storeByte (b : Byte) (s : State) (x : Nat) : State := if s.lostAt x then s else s.dramWriteRaw x [b]

theorem State.dramWrite_cons (s : State) (a : Nat) (b : Byte) (bs : List Byte) :
    s.dramWrite a (b :: bs) = ((s.mirrorsOf a).foldl (State.storeByte b) (s.storeByte b a)).dramWrite (a + 1) bs := rfl

theorem State.storeByte_onlyDram (s : State) (b : Byte) (x : Nat) : OnlyDram s (s.storeByte b x) := by
  rw [State.storeByte]
  split
  · exact OnlyDram.refl s
  · rfl

theorem State.dramByte_dramWriteRaw_singleton (s : State) (b : Byte) (x y : Nat) :
    (s.dramWriteRaw x [b]).dramByte y = if s.lostAt y then 0 else if y = x then b else alGet dramReset s.dram y := by
  show (if s.lostAt y then 0 else alGet dramReset (alSet dramReset s.dram x b) y) = _
  rw [alGet_alSet]

theorem State.dramByte_storeByte_self {s : State} (b : Byte) {x : Nat} (h : s.lostAt x = false) :
    (s.storeByte b x).dramByte x = b := by
  simp [State.storeByte, State.dramByte_dramWriteRaw_singleton, h]

theorem State.dramByte_storeByte_other (s : State) (b : Byte) {x y : Nat} (h : y ≠ x) :
    (s.storeByte b x).dramByte y = s.dramByte y := by
  rw [State.storeByte]
  split
  · rfl
  · rw [State.dramByte_dramWriteRaw_singleton, if_neg h, State.dramByte]

theorem State.storeBytes_onlyDram (b : Byte) (l : List Nat) (s : State) : OnlyDram s (l.foldl (State.storeByte b) s) := by
  induction l generalizing s with
  | nil => exact OnlyDram.refl s
  | cons x l ih => exact (s.storeByte_onlyDram b x).trans (ih _)

theorem State.dramByte_storeBytes_other (b : Byte) {l : List Nat} {y : Nat} (s : State) (h : y ∉ l) :
    (l.foldl (State.storeByte b) s).dramByte y = s.dramByte y := by
  induction l generalizing s with
  | nil => rfl
  | cons x l ih =>
    obtain ⟨hx, hl⟩ : y ≠ x ∧ y ∉ l := by simpa using h
    exact (ih _ hl).trans (s.dramByte_storeByte_other b hx)

/-! ### A list of bytes -/

theorem State.dramWrite_onlyDram (s : State) (a : Nat) (bs : List Byte) : OnlyDram s (s.dramWrite a bs) := by
  induction bs generalizing s a with
  | nil => exact OnlyDram.refl s
  | cons b bs ih => exact ((s.storeByte_onlyDram b a).trans (State.storeBytes_onlyDram b _ _)).trans (ih _ _)

/-- A write leaves every byte that it does not name, and that is the mirror of none it names. -/
theorem State.dramByte_dramWrite_of_spared {s : State} {a x : Nat} {bs : List Byte} (h : s.spared [(a, bs)] x) :
    (s.dramWrite a bs).dramByte x = s.dramByte x := by
  have hfree : ∀ i < bs.length, x ≠ a + i ∧ x ∉ s.mirrorsOf (a + i) := h (a, bs) (by simp)
  clear h
  induction bs generalizing s a with
  | nil => rfl
  | cons b bs ih =>
    obtain ⟨hself, hmir⟩ : x ≠ a ∧ x ∉ s.mirrorsOf a := hfree 0 (by simp)
    have hbyte := (s.storeByte_onlyDram b a).trans (State.storeBytes_onlyDram b (s.mirrorsOf a) _)
    rw [State.dramWrite_cons, ih, State.dramByte_storeBytes_other b _ hmir, State.dramByte_storeByte_other s b hself]
    intro i hi
    rw [hbyte.mirrorsOf, Nat.add_right_comm]
    exact hfree (i + 1) (by simpa using hi)

/-- With no table mirrored, a byte has no mirror. -/
theorem State.mirrorsOf_of_plainDram {s : State} (h : s.plainDram = true) (a : Nat) : s.mirrorsOf a = [] := by
  simp only [State.plainDram, Bool.and_eq_true, List.all_eq_true, beq_iff_eq, Bool.not_eq_true'] at h
  obtain ⟨-, hheads⟩ := h
  rw [State.mirrorsOf, List.flatMap_eq_nil_iff]
  intro g hg
  obtain ⟨⟨hleaf, hradA⟩, hradB⟩ := hheads g hg
  simp [hleaf, hradA, hradB, List.range_succ]

theorem State.lostAt_of_plainDram {s : State} (h : s.plainDram = true) (a : Nat) : s.lostAt a = false := by
  simp only [State.plainDram, Bool.and_eq_true, List.isEmpty_iff] at h
  simp [State.lostAt, h.1]

theorem OnlyDram.plainDram {s t : State} (h : OnlyDram s t) : t.plainDram = s.plainDram := by
  rw [OnlyDram] at h
  rw [h]
  rfl

/-- With no channel lost and no table mirrored, a write's own bytes read as written, and every other byte as before. -/
theorem State.dramByte_dramWrite_of_plainDram {s : State} (h : s.plainDram = true) (a : Nat) (bs : List Byte) (x : Nat) :
    (s.dramWrite a bs).dramByte x = if a ≤ x ∧ x < a + bs.length then bs.getD (x - a) 0 else s.dramByte x := by
  induction bs generalizing s a with
  | nil =>
    rw [if_neg (by simp)]
    rfl
  | cons b bs ih =>
    rw [State.dramWrite_cons, State.mirrorsOf_of_plainDram h, List.foldl_nil,
      ih ((s.storeByte_onlyDram b a).plainDram.trans h)]
    rcases Nat.lt_trichotomy x a with hlt | rfl | hgt
    · rw [if_neg (by omega), if_neg (by omega), State.dramByte_storeByte_other s b (by omega)]
    · rw [if_neg (by omega), if_pos (by simp), State.dramByte_storeByte_self b (State.lostAt_of_plainDram h x)]
      simp
    · have hin : (a + 1 ≤ x ∧ x < a + 1 + bs.length) ↔ (a ≤ x ∧ x < a + (b :: bs).length) := by
        simp only [List.length_cons]
        omega
      simp only [hin, State.dramByte_storeByte_other s b (Nat.ne_of_gt hgt), show x - a = x - (a + 1) + 1 by omega,
        List.getD_cons_succ]

/-! ### Pieces written one after another -/

/-- Pieces of bytes are written one after another. -/
def State.writePieces (s : State) (ws : List (Nat × List Byte)) : State := ws.foldl (fun s w => s.dramWrite w.1 w.2) s

theorem State.writePieces_singleton (s : State) (a : Nat) (bs : List Byte) : s.writePieces [(a, bs)] = s.dramWrite a bs := rfl

theorem State.writePieces_onlyDram (s : State) (ws : List (Nat × List Byte)) : OnlyDram s (s.writePieces ws) := by
  induction ws generalizing s with
  | nil => exact OnlyDram.refl s
  | cons w ws ih => exact (s.dramWrite_onlyDram w.1 w.2).trans (ih _)

theorem State.writePieces_sameDramBeside (s : State) (ws : List (Nat × List Byte)) : SameDramBeside ws s (s.writePieces ws) := by
  intro x hx
  induction ws generalizing s with
  | nil => rfl
  | cons w ws ih =>
    have hw : s.spared [w] x := fun v hv => hx v (by simp_all)
    have hws : (s.dramWrite w.1 w.2).spared ws x := fun v hv i hi => by
      rw [(s.dramWrite_onlyDram w.1 w.2).mirrorsOf]
      exact hx v (List.mem_cons_of_mem w hv) i hi
    exact (ih _ hws).trans (State.dramByte_dramWrite_of_spared hw)

theorem State.writePieces_dramWrote {s : State} (h : s.plainDram = true) (ws : List (Nat × List Byte)) :
    DramWrote ws s (s.writePieces ws) := by
  induction ws using List.reverseRecOn with
  | nil => exact fun _ => rfl
  | append_singleton ws w ih =>
    intro x
    have hplain : (s.writePieces ws).plainDram = true := (s.writePieces_onlyDram ws).plainDram.trans h
    rw [State.writePieces, List.foldl_append, List.foldl_cons, List.foldl_nil, ← State.writePieces,
      State.dramByte_dramWrite_of_plainDram hplain, List.reverse_append, List.reverse_singleton, List.singleton_append,
      List.find?_cons]
    by_cases hw : w.1 ≤ x ∧ x < w.1 + w.2.length
    · simp [hw]
    · have hb : (decide (w.1 ≤ x) && decide (x < w.1 + w.2.length)) = false := by simpa using hw
      rw [if_neg hw, hb]
      exact ih x

end Sys2Proof.Machine
end

section
/-! PROOFS. The Churn's answer to a request (R393 to R397): what each answer changes, and what the end of an activity changes. -/

namespace Sys2Proof.Machine

/-- Registers, and what runs and waits in the Churn, are all that differs. -/
def ChurnWork (s t : State) : Prop := t = { s with regs := t.regs, churnRun := t.churnRun, churnQueue := t.churnQueue }

theorem ChurnWork.ofChurn (s : State) (run queue : List Job) :
    ChurnWork s { s with churnRun := run, churnQueue := queue } := Eq.refl _

theorem ChurnWork.put {s t : State} (h : ChurnWork s t) (f : Fld) (v : Nat) : ChurnWork s (t.put f v) :=
  Eq.trans (Eq.refl (t.put f v)) (congrArg (fun x : State =>
    { x with regs := (t.put f v).regs, churnRun := t.churnRun, churnQueue := t.churnQueue }) h)

theorem ChurnWork.syncChurn {s t : State} (h : ChurnWork s t) : ChurnWork s t.syncChurn := (h.put _ _).put _ _

theorem ChurnWork.modShut {s t : State} (w : ChurnWork s t) (h : Nat) (f : Shutter → Shutter) :
    t.modShut h f = { s with
      regs := t.regs, shutters := (t.modShut h f).shutters, churnRun := t.churnRun, churnQueue := t.churnQueue } :=
  Eq.trans (Eq.refl (t.modShut h f)) (congrArg (fun x : State =>
    { x with regs := t.regs, shutters := (t.modShut h f).shutters, churnRun := t.churnRun, churnQueue := t.churnQueue }) w)

theorem ChurnWork.inbox {s t : State} (w : ChurnWork s t) : t.inbox = s.inbox := by
  rw [ChurnWork] at w
  rw [w]

/-! ### What runs and waits decides the answer -/

theorem State.churnAsk_fst_congr {s t : State} (hrun : t.churnRun = s.churnRun) (hqueue : t.churnQueue = s.churnQueue)
    (a : Activity) (res : Nat) (canWait : Bool) (now : Nat) :
    (t.churnAsk a res canWait now).1 = (s.churnAsk a res canWait now).1 := by
  simp only [State.churnAsk, hrun, hqueue]
  split
  · cases sameAnswer a <;> simp only
  · split
    · cases canWait <;> simp
    · simp only

/-! ### What an answer changes -/

theorem State.churnRefuse_sameRegs (s : State) (a : Activity) (res blocker : Nat) :
    SameRegs [R.MC_LAST, R.MC_CNT] s (s.churnRefuse a res blocker) :=
  ((((SameRegs.refl _ s).put F.MC_LAST_ACT _ (by simp)).put F.MC_LAST_BLOCKER _ (by simp)).put F.MC_LAST_RESOURCE _ (by simp)).put
    F.MC_CNT_REFUSED _ (by simp)

theorem OnlyRegs.refl (s : State) : OnlyRegs s s := Eq.refl s

theorem State.churnRefuse_onlyRegs (s : State) (a : Activity) (res blocker : Nat) : OnlyRegs s (s.churnRefuse a res blocker) :=
  ((((OnlyRegs.refl s).put F.MC_LAST_ACT _).put F.MC_LAST_BLOCKER _).put F.MC_LAST_RESOURCE _).put F.MC_CNT_REFUSED _

theorem State.syncChurn_sameRegs (s : State) : SameRegs [R.MC_STAT] s s.syncChurn :=
  ((SameRegs.refl _ s).put F.MC_STAT_RUNNING _ (by simp)).put F.MC_STAT_QUEUED _ (by simp)

theorem State.churnGranted_sameRegs (s : State) (l : List Job) :
    SameRegs [R.MC_STAT, R.MC_CNT] s ({ s with churnRun := l } : State).syncChurn := by
  have hrun : SameRegs [R.MC_STAT, R.MC_CNT] s { s with churnRun := l } := fun _ _ => rfl
  exact hrun.trans ((State.syncChurn_sameRegs _).mono (by simp))

theorem State.churnQueued_sameRegs (s : State) (l : List Job) :
    SameRegs [R.MC_STAT, R.MC_CNT] s (({ s with churnQueue := l } : State).bump F.MC_CNT_QUEUED).syncChurn := by
  have hqueue : SameRegs [R.MC_STAT, R.MC_CNT] s { s with churnQueue := l } := fun _ _ => rfl
  exact (hqueue.put F.MC_CNT_QUEUED _ (by simp)).trans ((State.syncChurn_sameRegs _).mono (by simp))

/-- What a request can be answered, and the state each answer leaves: refused, held by the same activity, queued, or granted. -/
theorem State.churnAsk_cases {s t : State} {a : Activity} {res now : Nat} {canWait : Bool} {x : ChurnAnswer}
    (h : s.churnAsk a res canWait now = (x, t)) :
    (x = .refused ∧ ∃ blocker, t = s.churnRefuse a res blocker) ∨
    (x = sameAnswer a ∧ x ≠ .refused ∧ t = s) ∨
    (x = .queued ∧ ∃ l, t = (({ s with churnQueue := l } : State).bump F.MC_CNT_QUEUED).syncChurn) ∨
    (x = .granted ∧
      t = ({ s with churnRun := s.churnRun ++ [{ act := a, res := res, since := now }] } : State).syncChurn) := by
  rw [State.churnAsk] at h
  split at h
  · split at h
    · obtain ⟨rfl, rfl⟩ := Prod.mk.inj h
      exact .inl ⟨rfl, _, rfl⟩
    · next hsame =>
      obtain ⟨rfl, rfl⟩ := Prod.mk.inj h
      exact .inr (.inl ⟨rfl, hsame, rfl⟩)
  · split at h
    · split at h
      · obtain ⟨rfl, rfl⟩ := Prod.mk.inj h
        exact .inr (.inr (.inl ⟨rfl, _, rfl⟩))
      · obtain ⟨rfl, rfl⟩ := Prod.mk.inj h
        exact .inl ⟨rfl, _, rfl⟩
    · obtain ⟨rfl, rfl⟩ := Prod.mk.inj h
      exact .inr (.inr (.inr ⟨rfl, rfl⟩))

theorem sameAnswer_ne_granted (a : Activity) : sameAnswer a ≠ .granted := by
  cases a <;> decide

/-- A refused request shows in MC_LAST and MC_CNT, and changes nothing else (R397). -/
theorem State.churnAsk_refused {s t : State} {a : Activity} {res now : Nat} {canWait : Bool}
    (h : s.churnAsk a res canWait now = (.refused, t)) : SameRegs [R.MC_LAST, R.MC_CNT] s t ∧ OnlyRegs s t := by
  obtain ⟨-, k, rfl⟩ | ⟨-, hne, -⟩ | ⟨hx, -⟩ | ⟨hx, -⟩ := State.churnAsk_cases h
  · exact ⟨s.churnRefuse_sameRegs a res k, s.churnRefuse_onlyRegs a res k⟩
  · exact absurd rfl hne
  · cases hx
  · cases hx

/-- A request that is not refused shows in MC_STAT and MC_CNT, and changes what runs or waits (R393, R396). -/
theorem State.churnAsk_accepted {s t : State} {a : Activity} {res now : Nat} {canWait : Bool} {x : ChurnAnswer}
    (h : s.churnAsk a res canWait now = (x, t)) (hx : x ≠ .refused) : SameRegs [R.MC_STAT, R.MC_CNT] s t ∧ ChurnWork s t := by
  obtain ⟨hrefused, -⟩ | ⟨-, -, rfl⟩ | ⟨-, l, rfl⟩ | ⟨-, rfl⟩ := State.churnAsk_cases h
  · exact absurd hrefused hx
  · exact ⟨SameRegs.refl _ t, ChurnWork.ofChurn t _ _⟩
  · exact ⟨s.churnQueued_sameRegs l, ((ChurnWork.ofChurn s _ l).put F.MC_CNT_QUEUED _).syncChurn⟩
  · exact ⟨s.churnGranted_sameRegs _, (ChurnWork.ofChurn s _ _).syncChurn⟩

/-- A granted activity runs. -/
theorem State.churnRuns_of_granted {s t : State} {a : Activity} {res now : Nat} {canWait : Bool}
    (h : s.churnAsk a res canWait now = (.granted, t)) : t.churnRuns a res = true := by
  obtain ⟨hx, -⟩ | ⟨hx, -, -⟩ | ⟨hx, -⟩ | ⟨-, rfl⟩ := State.churnAsk_cases h
  · cases hx
  · exact absurd hx.symm (sameAnswer_ne_granted a)
  · cases hx
  · simp [State.churnRuns, State.syncChurn]

/-! ### The end of an activity -/

theorem State.churnDone_sameRegs (s : State) (a : Activity) (res : Nat) : SameRegs [R.MC_STAT] s (s.churnDone a res) :=
  State.syncChurn_sameRegs _

end Sys2Proof.Machine
end

section
/-! PROOFS. What a drift refit reads (R207, R208): nothing of CX_DFSTAT, where its count is shown. -/

namespace Sys2Proof.Machine

theorem OnlyRegs.prof {s t : State} (w : OnlyRegs s t) (h : Nat) : t.prof h = s.prof h := by
  rw [State.prof, State.prof, w.head]

theorem OnlyRegs.dramRead {s t : State} (w : OnlyRegs s t) : t.dramRead = s.dramRead := by
  rw [OnlyRegs] at w
  rw [w]
  rfl

theorem OnlyRegs.dramByte {s t : State} (w : OnlyRegs s t) : t.dramByte = s.dramByte := by
  rw [OnlyRegs] at w
  rw [w]
  rfl

theorem OnlyRegs.lostAt {s t : State} (w : OnlyRegs s t) : t.lostAt = s.lostAt := by
  rw [OnlyRegs] at w
  rw [w]
  rfl

/-- CX_DFSTAT of a head differs, and nothing else: what a refit counts is shown there, and read by no part of it. -/
structure OnlyDfstat (h : Nat) (s t : State) : Prop where
  only : OnlyRegs s t
  regs : SameRegs [R.CX_DFSTAT h] s t

namespace OnlyDfstat

variable {h : Nat} {s t : State}

theorem get (w : OnlyDfstat h s t) (f : Fld) (hf : f.addr ≠ R.CX_DFSTAT h) : t.get f = s.get f :=
  w.regs.get f (by simpa using hf)

theorem copyBase (w : OnlyDfstat h s t) (i : Nat) : t.copyBase h i = s.copyBase h i := by
  simp (disch := simp only [R.CL_HLA, R.CL_HLB, R.CL_HRA, R.CL_HRB, R.CX_DFSTAT]; omega) only [State.copyBase, w.get]

theorem mirBase (w : OnlyDfstat h s t) (i : Nat) : t.mirBase h i = s.mirBase h i := by
  simp (disch := simp only [R.CL_HMLA, R.CL_HMLB, R.CL_HMRA, R.CL_HMRB, R.CX_DFSTAT]; omega) only [State.mirBase, w.get]

theorem leafSel (w : OnlyDfstat h s t) : t.leafSel h = s.leafSel h :=
  w.get _ (by simp only [R.CL_HSTAT, R.CX_DFSTAT]; omega)

theorem mirrored (w : OnlyDfstat h s t) (i : Nat) : t.mirrored h i = s.mirrored h i := by
  rw [State.mirrored, State.mirrored, w.get _ (by simp only [R.CL_HMIR, R.CX_DFSTAT]; omega)]

theorem tableBytes (w : OnlyDfstat h s t) (i a n : Nat) : t.tableBytes h i a n = s.tableBytes h i a n := by
  rw [State.tableBytes, State.tableBytes, w.only.lostAt, w.only.dramByte, w.mirrored, w.mirBase, w.copyBase,
    w.get (F.CL_HSTAT_MIRSYNC h) (by simp only [R.CL_HSTAT, R.CX_DFSTAT]; omega)]

theorem planeSlot (w : OnlyDfstat h s t) : t.planeSlot h = s.planeSlot h := by
  rw [State.planeSlot, State.planeSlot, w.only.prof]

theorem get_dfcfg (w : OnlyDfstat h s t) (f : Fld) (hf : f.addr = R.CX_DFCFG h) : t.get f = s.get f :=
  w.get f (by simp only [hf, R.CX_DFCFG, R.CX_DFSTAT]; omega)

theorem depth (w : OnlyDfstat h s t) : t.get (F.CX_DFCFG_DEPTH h) = s.get (F.CX_DFCFG_DEPTH h) := w.get_dfcfg _ rfl

theorem histRange (w : OnlyDfstat h s t) : t.histRange h = s.histRange h := by
  rw [State.histRange, State.histRange, w.get (F.CX_DHIST_BASE h) (by simp only [R.CX_DHIST, R.CX_DFSTAT]; omega), w.depth,
    w.planeSlot]

theorem validPlanes (w : OnlyDfstat h s t) : t.validPlanes h = s.validPlanes h := by
  rw [State.validPlanes, State.validPlanes, w.depth, w.histRange, w.planeSlot, w.only.dramRead, w.only.prof]

theorem refitPlan (w : OnlyDfstat h s t) : t.refitPlan h = s.refitPlan h := by
  rw [State.refitPlan, State.refitPlan, w.validPlanes, w.get_dfcfg (F.CX_DFCFG_ORDER h) rfl, State.flag, State.flag,
    w.get_dfcfg (F.CX_DFCFG_K_EN h) rfl, w.get_dfcfg (F.CX_DFCFG_MINSPAN h) rfl]

theorem refitPixel (w : OnlyDfstat h s t) (hdr : List Byte) (g : RefitPlan) (l : Leaf) (k : Nat) :
    t.refitPixel h hdr g l k = s.refitPixel h hdr g l k := by
  have hplane : t.planeAt = s.planeAt := by
    funext p k
    rw [State.planeAt, State.planeAt, w.only.dramRead]
  rw [State.refitPixel, State.refitPixel, hplane, w.get_dfcfg (F.CX_DFCFG_RMSLIM h) rfl]

theorem refitAll (w : OnlyDfstat h s t) (g : RefitPlan) : t.refitAll h g = s.refitAll h g := by
  simp only [State.refitAll, w.copyBase, w.leafSel, w.tableBytes, w.only.prof, w.refitPixel]

end OnlyDfstat

end Sys2Proof.Machine
end

section
/-! PROOFS. The apply step of a shutter event (R198) and the drift refits (R206 to R209), and the statement on their results. -/

namespace Sys2Proof.Machine

/-! ### The apply step (R198) -/

theorem shutterApplyDone_of_due {h : Nat} {s : State} {fa fb : Frame} (ha : (s.shut h).lastA = some fa)
    (hb : (s.shut h).lastB = some fb) (hactive : (s.shut h).active = true) (hphase : 5 ≤ s.get (F.CX_SSTAT_PHASE h))
    (hdue : (s.shut h).applyDone = false) :
    shutterApplyDone h s = (s.writePieces (s.applyPieces h fa fb)).modShut h fun e => { e with applyDone := true } := by
  have hcond : ((s.shut h).active && decide (5 ≤ s.shutPhase h) && !(s.shut h).applyDone) = true := by
    simp [hactive, hdue, State.shutPhase, hphase]
  simp only [shutterApplyDone, ha, hb]
  rw [State.whenever_pos _ _ _ hcond]
  rfl

theorem shutterApplyDone_of_not_due {h : Nat} {s : State}
    (hn : (s.shut h).active = false ∨ s.get (F.CX_SSTAT_PHASE h) < 5 ∨ (s.shut h).applyDone = true) :
    shutterApplyDone h s = s := by
  have hcond : ((s.shut h).active && decide (5 ≤ s.shutPhase h) && !(s.shut h).applyDone) = false := by
    rcases hn with hidle | hearly | hdone
    · simp [hidle]
    · simp [State.shutPhase, Nat.not_le.2 hearly]
    · simp [hdone]
  simp only [shutterApplyDone]
  split
  · exact State.whenever_neg _ _ _ hcond
  · rfl

/-- A write of device DRAM, and a change of the head's shutter unit after it, change no more. -/
theorem OnlyDram.modShut {s t : State} (w : OnlyDram s t) (h : Nat) (f : Shutter → Shutter) :
    t.modShut h f = { s with dram := (t.modShut h f).dram, shutters := (t.modShut h f).shutters } :=
  Eq.trans (Eq.refl (t.modShut h f))
    (congrArg (fun x : State => { x with dram := t.dram, shutters := (t.modShut h f).shutters }) w)

theorem OnlyDram.shut {s t : State} (w : OnlyDram s t) (h : Nat) : t.shut h = s.shut h := by
  rw [OnlyDram] at w
  rw [w]
  rfl

/-! ### The end of a refit (R208, R209) -/

/-- Registers, waiting reports, the shutter units, ended commands and the Churn are all that differs. -/
def RefitWork (s t : State) : Prop :=
  t = { s with regs := t.regs, inbox := t.inbox, shutters := t.shutters, cmdDone := t.cmdDone, churnRun := t.churnRun,
               churnQueue := t.churnQueue }

theorem RefitWork.trans {s t u : State} (w : RefitWork s t) (v : RefitWork t u) : RefitWork s u :=
  Eq.trans v (congrArg (fun x : State => { x with
    regs := u.regs, inbox := u.inbox, shutters := u.shutters, cmdDone := u.cmdDone, churnRun := u.churnRun,
    churnQueue := u.churnQueue }) w)

theorem RefitWork.modShut {s t : State} (w : RefitWork s t) (h : Nat) (f : Shutter → Shutter) : RefitWork s (t.modShut h f) :=
  w.trans (Eq.refl _)

theorem OnlyRegs.refitWork {s t : State} (w : OnlyRegs s t) : RefitWork s t :=
  Eq.trans w (congrArg (fun x : State => { s with
    regs := t.regs, inbox := x.inbox, shutters := x.shutters, cmdDone := x.cmdDone, churnRun := x.churnRun,
    churnQueue := x.churnQueue }) w.symm)

theorem ChurnWork.refitWork {s t : State} (w : ChurnWork s t) : RefitWork s t :=
  Eq.trans w (congrArg (fun x : State => { s with
    regs := t.regs, inbox := x.inbox, shutters := x.shutters, cmdDone := x.cmdDone, churnRun := t.churnRun,
    churnQueue := t.churnQueue }) w.symm)

theorem RefitWork.dt {s t : State} (w : RefitWork s t) : t.dt = s.dt := by
  rw [RefitWork] at w
  rw [w]

theorem RefitWork.mode {s t : State} (w : RefitWork s t) : t.mode = s.mode := by
  rw [RefitWork] at w
  rw [w]

theorem RefitWork.sameMem {s t : State} (w : RefitWork s t) : SameMem s t := by
  rw [RefitWork] at w
  rw [w]
  exact SameMem.of_eq rfl rfl rfl rfl

/-- What the statement lets the end of the computation change: Device Time and the Timing Ring as well. -/
def RefitFrame (s t : State) : Prop :=
  t = { s with regs := t.regs, dt := t.dt, inbox := t.inbox, shutters := t.shutters, ring := t.ring, cmdDone := t.cmdDone,
               churnRun := t.churnRun, churnQueue := t.churnQueue }

theorem RefitWork.frame {s t : State} (w : RefitWork s t) : RefitFrame s t :=
  Eq.trans w (congrArg (fun x : State => { s with
    regs := t.regs, dt := x.dt, inbox := t.inbox, shutters := t.shutters, ring := x.ring, cmdDone := t.cmdDone,
    churnRun := t.churnRun, churnQueue := t.churnQueue }) w.symm)

theorem RefitWork.frameDram {s t : State} (w : RefitWork s t) :
    t = { s with regs := t.regs, dt := t.dt, dram := t.dram, inbox := t.inbox, shutters := t.shutters, ring := t.ring,
                 cmdDone := t.cmdDone, churnRun := t.churnRun, churnQueue := t.churnQueue } :=
  Eq.trans w (congrArg (fun x : State => { s with
    regs := t.regs, dt := x.dt, dram := x.dram, inbox := t.inbox, shutters := t.shutters, ring := x.ring, cmdDone := t.cmdDone,
    churnRun := t.churnRun, churnQueue := t.churnQueue }) w.symm)

/-- Ended ring commands differ, and nothing else. -/
theorem State.finishCmds_eq (l : List (Nat × Nat)) (code : Nat) (s : State) :
    ∃ d, l.foldl (fun s w => s.finishCmd w.1 w.2 0 code) s = { s with cmdDone := d } := by
  induction l generalizing s with
  | nil => exact ⟨s.cmdDone, rfl⟩
  | cons w l ih =>
    obtain ⟨d, hd⟩ := ih (s.finishCmd w.1 w.2 0 code)
    exact ⟨d, hd⟩

theorem State.churnDone_work (s : State) (a : Activity) (res : Nat) : ChurnWork s (s.churnDone a res) :=
  (ChurnWork.ofChurn s _ _).syncChurn

/-- What the end of a refit with a code makes of a state: DFRES shows the code, the refit is idle, and a report is made where the
fit was implausible (Table 7-2). -/
structure RefitEnded (h code : Nat) (s t : State) : Prop where
  work : RefitWork s t
  regs : SameRegs [R.CX_SSTAT h, R.MC_STAT] s t
  dfres : t.get (F.CX_SSTAT_DFRES h) = code % 16
  shut : t.shut h = { s.shut h with refitPhase := 0, refitWaiters := [] }
  inbox : t.inbox = s.inbox ++ if code = 4 then
    [{ source := Fin.ofNat 64 (20 + h), cls := .ce, detail := BitVec.ofNat 32 (detailWord 0xFF 0xFF (0x154 + 0x80 * (h % 2))) }]
    else []

/-- An activity that leaves the Churn shows in MC_STAT alone. -/
theorem RefitEnded.churnDone {h code : Nat} {s t : State} (w : RefitEnded h code s t) (a : Activity) (res : Nat) :
    RefitEnded h code s (t.churnDone a res) where
  work := w.work.trans (t.churnDone_work a res).refitWork
  regs := w.regs.trans ((t.churnDone_sameRegs a res).mono (by simp))
  dfres := by
    rw [(t.churnDone_sameRegs a res).get _ (by simp only [R.CX_SSTAT, R.MC_STAT, List.mem_singleton]; omega)]
    exact w.dfres
  shut := w.shut
  inbox := w.inbox

theorem RefitEnded.reported {h : Nat} {s t : State} (w : RefitEnded h 4 s t) : Reported (20 + h) .ce s t :=
  ⟨_, w.inbox.trans (by rw [if_pos rfl])⟩

theorem RefitEnded.inbox_of_ne {h code : Nat} {s t : State} (w : RefitEnded h code s t) (hc : code ≠ 4) : t.inbox = s.inbox := by
  rw [w.inbox, if_neg hc, List.append_nil]

/-- DFRES takes the code, and an implausible fit is reported. -/
def State.refitResult (s : State) (h code : Nat) : State :=
  if code = 4 then (s.put (F.CX_SSTAT_DFRES h) code).raise (20 + h) .ce (detailWord 0xFF 0xFF (0x154 + 0x80 * (h % 2)))
  else s.put (F.CX_SSTAT_DFRES h) code

/-- Its ring commands end, and the refit is idle. -/
def State.refitIdle (s : State) (h code : Nat) (l : List (Nat × Nat)) : State :=
  (l.foldl (fun s w => s.finishCmd w.1 w.2 0 code) (s.refitResult h code)).modShut h fun e =>
    { e with refitPhase := 0, refitWaiters := [] }

theorem State.refitIdle_ended {h : Nat} (hh : h < 8) (code : Nat) (s : State) (l : List (Nat × Nat)) :
    RefitEnded h code s (s.refitIdle h code l) := by
  obtain ⟨d, hd⟩ := State.finishCmds_eq l code (s.refitResult h code)
  rw [State.refitIdle, hd]
  have hdfres : (s.put (F.CX_SSTAT_DFRES h) code).get (F.CX_SSTAT_DFRES h) = code % 16 :=
    State.get_put_self s _ code (by norm_num)
  have hregs : SameRegs [R.CX_SSTAT h, R.MC_STAT] s (s.put (F.CX_SSTAT_DFRES h) code) :=
    (SameRegs.refl _ s).put _ code (by simp)
  rw [State.refitResult]
  split
  · next h4 =>
    exact { work := rfl, regs := hregs, dfres := hdfres, shut := State.shut_modShut_self _ h _ hh,
            inbox := by rw [if_pos h4]; rfl }
  · next h4 =>
    exact { work := rfl, regs := hregs, dfres := hdfres, shut := State.shut_modShut_self _ h _ hh,
            inbox := by rw [if_neg h4, List.append_nil]; rfl }

theorem State.refitEnd_eq (s : State) (h code : Nat) : s.refitEnd h code =
    (if 3 ≤ (s.shut h).refitPhase ∧ (s.shut h).refitPhase ≤ 5 then
      (s.refitIdle h code (s.shut h).refitWaiters).churnDone .m5 (3 * h)
    else s.refitIdle h code (s.shut h).refitWaiters).churnDone .m4 h := rfl

theorem State.refitEnd_ended {h : Nat} (hh : h < 8) (code : Nat) (s : State) : RefitEnded h code s (s.refitEnd h code) := by
  have hidle := State.refitIdle_ended hh code s (s.shut h).refitWaiters
  rw [State.refitEnd_eq]
  split
  · exact (hidle.churnDone _ _).churnDone _ _
  · exact hidle.churnDone _ _

/-! ### What the computation decides (R208, R209) -/

/-- CX_DFSTAT shows how many planes are valid and what TFPA they span. -/
def State.refitCounted (s : State) (h : Nat) : State :=
  (s.put (F.CX_DFSTAT_PLANES h) (s.validPlanes h).length).put (F.CX_DFSTAT_SPAN h) (spanOf (·.tfpa) (s.validPlanes h))

theorem State.refitCounted_only (s : State) (h : Nat) : OnlyDfstat h s (s.refitCounted h) where
  only := ((OnlyRegs.refl s).put _ _).put _ _
  regs := ((SameRegs.refl _ s).put _ _ (by simp)).put _ _ (by simp)

theorem State.refitCounted_planes (s : State) (h : Nat) :
    (s.refitCounted h).get (F.CX_DFSTAT_PLANES h) = (s.validPlanes h).length % 2 ^ (F.CX_DFSTAT_PLANES h).w := by
  rw [State.refitCounted, State.get_put_disjoint _ _ _ _ (by norm_num), State.get_put_self _ _ _ (by norm_num)]

theorem refitComputeDone_of_few {h : Nat} {s : State} (hp : (s.shut h).refitPhase = 2) (hg : s.refitPlan h = none) :
    refitComputeDone h s = (s.refitCounted h).refitEnd h 0xE := by
  have hplan : (s.refitCounted h).refitPlan h = none := (s.refitCounted_only h).refitPlan.trans hg
  rw [refitComputeDone, State.whenever_pos _ _ _ (by rw [hp]; rfl)]
  simp only [← State.refitCounted.eq_def, hplan]

theorem refitComputeDone_of_implausible {h : Nat} {g : RefitPlan} {s : State} (hp : (s.shut h).refitPhase = 2)
    (hg : s.refitPlan h = some g) (hfail : s.get (F.CX_SLIM_FAILPM h) * (s.refitAll h g).2.1 < 1000 * (s.refitAll h g).2.2) :
    refitComputeDone h s = (s.refitCounted h).refitEnd h 4 := by
  have w := s.refitCounted_only h
  have hplan : (s.refitCounted h).refitPlan h = some g := w.refitPlan.trans hg
  have hlim := w.get (F.CX_SLIM_FAILPM h) (by simp only [R.CX_SLIM, R.CX_DFSTAT]; omega)
  rw [refitComputeDone, State.whenever_pos _ _ _ (by rw [hp]; rfl)]
  simp only [← State.refitCounted.eq_def, hplan, hlim, w.refitAll, hfail, if_true]

/-- A plausible fit asks for M5, for its writes and the swap. -/
theorem refitComputeDone_of_plausible {h : Nat} {g : RefitPlan} {s u : State} {x : ChurnAnswer} (hp : (s.shut h).refitPhase = 2)
    (hg : s.refitPlan h = some g) (hok : 1000 * (s.refitAll h g).2.2 ≤ s.get (F.CX_SLIM_FAILPM h) * (s.refitAll h g).2.1)
    (hask : (s.refitCounted h).churnAsk .m5 (3 * h) true s.dt = (x, u)) :
    refitComputeDone h s = if x = .refused then u.refitEnd h 9
      else u.modShut h fun e => { e with refitPhase := if x = .granted then 4 else 3 } := by
  have w := s.refitCounted_only h
  have hplan : (s.refitCounted h).refitPlan h = some g := w.refitPlan.trans hg
  have hlim := w.get (F.CX_SLIM_FAILPM h) (by simp only [R.CX_SLIM, R.CX_DFSTAT]; omega)
  have hdt : (s.refitCounted h).dt = s.dt := rfl
  rw [refitComputeDone, State.whenever_pos _ _ _ (by rw [hp]; rfl)]
  simp only [← State.refitCounted.eq_def, hplan, hlim, w.refitAll, Nat.not_lt.2 hok, if_false, hdt, hask]
  cases x <;> simp

/-- What the end of the computation may change once the planes are counted. -/
structure RefitDecided (h : Nat) (s t : State) : Prop where
  work : RefitWork s t
  regs : SameRegs [R.CX_SSTAT h, R.MC_STAT, R.MC_LAST, R.MC_CNT] s t

theorem RefitEnded.decided {h code : Nat} {s t : State} (w : RefitEnded h code s t) : RefitDecided h s t where
  work := w.work
  regs := w.regs.mono (by simp)

theorem RefitDecided.trans {h : Nat} {s t u : State} (w : RefitDecided h s t) (v : RefitDecided h t u) : RefitDecided h s u where
  work := w.work.trans v.work
  regs := w.regs.trans v.regs

theorem RefitDecided.modShut {h : Nat} {s t : State} (w : RefitDecided h s t) (k : Nat) (f : Shutter → Shutter) :
    RefitDecided h s (t.modShut k f) where
  work := w.work.modShut k f
  regs := w.regs

theorem State.churnAsk_decided {h : Nat} {s t : State} {a : Activity} {res now : Nat} {canWait : Bool} {x : ChurnAnswer}
    (hask : s.churnAsk a res canWait now = (x, t)) : RefitDecided h s t := by
  by_cases hx : x = .refused
  · subst hx
    obtain ⟨hregs, honly⟩ := State.churnAsk_refused hask
    exact ⟨honly.refitWork, hregs.mono (by simp)⟩
  · obtain ⟨hregs, hchurn⟩ := State.churnAsk_accepted hask hx
    exact ⟨hchurn.refitWork, hregs.mono (by simp)⟩

theorem refitComputeDone_decided {h : Nat} (hh : h < 8) {s : State} (hp : (s.shut h).refitPhase = 2) :
    RefitDecided h (s.refitCounted h) (refitComputeDone h s) := by
  cases hg : s.refitPlan h with
  | none =>
    rw [refitComputeDone_of_few hp hg]
    exact (State.refitEnd_ended hh _ _).decided
  | some g =>
    rcases Nat.lt_or_ge (s.get (F.CX_SLIM_FAILPM h) * (s.refitAll h g).2.1) (1000 * (s.refitAll h g).2.2) with hfail | hok
    · rw [refitComputeDone_of_implausible hp hg hfail]
      exact (State.refitEnd_ended hh _ _).decided
    · cases hask : (s.refitCounted h).churnAsk .m5 (3 * h) true s.dt with
      | mk x u =>
        have hu := State.churnAsk_decided (h := h) hask
        rw [refitComputeDone_of_plausible hp hg hok hask]
        split
        · exact hu.trans (State.refitEnd_ended hh _ _).decided
        · exact hu.modShut h _

theorem RefitDecided.planes {h : Nat} {s t : State} (w : RefitDecided h (s.refitCounted h) t) :
    t.get (F.CX_DFSTAT_PLANES h) = (s.validPlanes h).length % 2 ^ (F.CX_DFSTAT_PLANES h).w := by
  have hout : R.CX_DFSTAT h ∉ [R.CX_SSTAT h, R.MC_STAT, R.MC_LAST, R.MC_CNT] := by
    simp only [R.CX_DFSTAT, R.CX_SSTAT, R.MC_STAT, R.MC_LAST, R.MC_CNT, List.mem_cons, List.not_mem_nil, or_false]
    omega
  rw [w.regs.get _ hout, State.refitCounted_planes]

/-! ### The request (R206) -/

theorem refit_of_not_streaming {h : Nat} {s : State} (ha : s.access (R.CX_SCMD h) = true)
    (hn : s.streams h = false ∨ s.inRun = false) : refit h s = s.put (F.CX_SSTAT_DFRES h) 0xC := by
  have hcond : (!(s.streams h && s.inRun)) = true := by
    rcases hn with hn | hn <;> simp [hn]
  simp only [refit, State.whenever_pos _ _ _ ha, State.refitRequest, hcond, if_true]

theorem refit_of_answer {h : Nat} {s u : State} {x : ChurnAnswer} (ha : s.access (R.CX_SCMD h) = true) (hs : s.streams h = true)
    (hr : s.inRun = true) (hask : s.churnAsk .m4 h true s.dt = (x, u)) :
    refit h s = if x = .refused then u.put (F.CX_SSTAT_DFRES h) 9
      else (u.put (F.CX_SSTAT_DFRES h) 2).modShut h fun e =>
        { e with refitPhase := if x = .granted then 1 else 6, refitWaiters := [] } := by
  have hcond : ¬ (!(s.streams h && s.inRun)) = true := by simp [hs, hr]
  simp only [refit, State.whenever_pos _ _ _ ha, State.refitRequest, hcond, hask]
  cases x <;> simp

/-! ### The writes (R198, R209) -/

/-- Pieces are written to device DRAM, and the head's shutter unit records it. -/
theorem State.writePieces_modShut (s : State) {h : Nat} (hh : h < 8) (ws : List (Nat × List Byte)) (f : Shutter → Shutter) :
    ((s.writePieces ws).modShut h f).shut h = f (s.shut h) ∧ SameRegs [] s ((s.writePieces ws).modShut h f) ∧
      (s.plainDram = true → DramWrote ws s ((s.writePieces ws).modShut h f)) ∧
      SameDramBeside ws s ((s.writePieces ws).modShut h f) ∧
      (s.writePieces ws).modShut h f = { s with
        dram := ((s.writePieces ws).modShut h f).dram, shutters := ((s.writePieces ws).modShut h f).shutters } := by
  have hdram := s.writePieces_onlyDram ws
  refine ⟨?_, fun a _ => hdram.reg a, fun hplain => State.writePieces_dramWrote hplain ws, s.writePieces_sameDramBeside ws,
    hdram.modShut h f⟩
  rw [State.shut_modShut_self _ _ _ hh, hdram.shut]

theorem refitWritesDone_of_plan {h : Nat} {g : RefitPlan} {s : State} (hp : (s.shut h).refitPhase = 4)
    (hg : s.refitPlan h = some g) : refitWritesDone h s =
      (s.writePieces [(s.copyBase h (1 - s.leafSel h), s.refitLeaf h g)]).modShut h fun e => { e with refitPhase := 5 } := by
  rw [refitWritesDone, State.whenever_pos _ _ _ (by rw [hp]; rfl)]
  simp only [hg, State.writePieces_singleton]

theorem refitWritesDone_of_few {h : Nat} {s : State} (hp : (s.shut h).refitPhase = 4) (hg : s.refitPlan h = none) :
    refitWritesDone h s = s.refitEnd h 0xE := by
  rw [refitWritesDone, State.whenever_pos _ _ _ (by rw [hp]; rfl)]
  simp only [hg]

theorem refitWritesDone_of_not_writing {h : Nat} {s : State} (hp : (s.shut h).refitPhase ≠ 4) : refitWritesDone h s = s :=
  State.whenever_neg _ _ _ (by simp [hp])

theorem refitStart_of_granted {h : Nat} {s : State} (hp : (s.shut h).refitPhase = 1) :
    refitStart h s = (s.put (F.CX_SSTAT_DFRES h) 3).modShut h fun e => { e with refitPhase := 2 } := by
  rw [refitStart, State.whenever_pos _ _ _ (by rw [hp]; rfl)]

/-! ### The statement -/

theorem exec_refitComputeDone (h : Head) (s : State) : exec (.refitComputeDone h) s = .next (refitComputeDone h s) := rfl

theorem exec_refit_of_accepted (h : Head) (s : State) (ha : s.access (R.CX_SCMD h) = true) (hs : s.streams h = true)
    (hr : s.inRun = true) (hx : (s.churnAsk .m4 h true s.dt).1 ≠ .refused) :
    ∃ t, exec (.refit h) s = .next t ∧ t.get (F.CX_SSTAT_DFRES h) = 2 ∧
      (t.shut h).refitPhase = (if (s.churnAsk .m4 h true s.dt).1 = .granted then 1 else 6) ∧
      t.churnRun = (s.churnAsk .m4 h true s.dt).2.churnRun ∧ t.churnQueue = (s.churnAsk .m4 h true s.dt).2.churnQueue ∧
      SameRegs [R.CX_SSTAT h, R.MC_STAT, R.MC_CNT] s t ∧
      t = { s with regs := t.regs, shutters := t.shutters, churnRun := t.churnRun, churnQueue := t.churnQueue } := by
  cases hask : s.churnAsk .m4 h true s.dt with
  | mk x u =>
    rw [hask] at hx
    obtain ⟨hregs, hwork⟩ := State.churnAsk_accepted hask hx
    refine ⟨refit h s, rfl, ?_⟩
    rw [refit_of_answer ha hs hr hask, if_neg hx]
    refine ⟨State.get_put_self u _ 2 (by norm_num), ?_, rfl, rfl, (hregs.mono (by simp)).put _ 2 (by simp), ?_⟩
    · rw [State.shut_modShut_self _ _ _ h.isLt]
    · exact (hwork.put _ 2).modShut h _

theorem exec_refitComputeDone_of_few (h : Head) (s : State) (hp : (s.shut h).refitPhase = 2) (hg : s.refitPlan h = none) :
    ∃ t, exec (.refitComputeDone h) s = .next t ∧
      t.get (F.CX_DFSTAT_PLANES h) = (s.validPlanes h).length % 2 ^ (F.CX_DFSTAT_PLANES h).w ∧
      t.get (F.CX_SSTAT_DFRES h) = 0xE ∧ (t.shut h).refitPhase = 0 ∧ SameRegs [R.CX_SSTAT h, R.CX_DFSTAT h, R.MC_STAT] s t ∧
      SameMem s t ∧ t.mode = s.mode ∧ t.inbox = s.inbox ∧
      RefitFrame s t := by
  have hcount := s.refitCounted_only h
  have hend := State.refitEnd_ended h.isLt 0xE (s.refitCounted h)
  have hwork := hcount.only.refitWork.trans hend.work
  refine ⟨_, exec_refitComputeDone h s, (refitComputeDone_decided h.isLt hp).planes, ?_⟩
  rw [refitComputeDone_of_few hp hg]
  refine ⟨hend.dfres, by rw [hend.shut], (hcount.regs.mono (by simp)).trans (hend.regs.mono (by simp)), hwork.sameMem, hwork.mode,
    (hend.inbox_of_ne (by decide)).trans hcount.only.inbox, hwork.frame⟩

theorem exec_refitComputeDone_of_implausible (h : Head) (g : RefitPlan) (s : State) (hp : (s.shut h).refitPhase = 2)
    (hg : s.refitPlan h = some g) (hfail : s.get (F.CX_SLIM_FAILPM h) * (s.refitAll h g).2.1 < 1000 * (s.refitAll h g).2.2) :
    ∃ t, exec (.refitComputeDone h) s = .next t ∧ t.get (F.CX_SSTAT_DFRES h) = 4 ∧ (t.shut h).refitPhase = 0 ∧
      Reported (20 + h) .ce s t ∧ SameMem s t ∧
      RefitFrame s t := by
  have hcount := s.refitCounted_only h
  have hend := State.refitEnd_ended h.isLt 4 (s.refitCounted h)
  have hwork := hcount.only.refitWork.trans hend.work
  refine ⟨_, exec_refitComputeDone h s, ?_⟩
  rw [refitComputeDone_of_implausible hp hg hfail]
  exact ⟨hend.dfres, by rw [hend.shut], hend.reported, hwork.sameMem, hwork.frame⟩

theorem exec_refitComputeDone_of_plausible (h : Head) (g : RefitPlan) (s : State) (hp : (s.shut h).refitPhase = 2)
    (hg : s.refitPlan h = some g) (hok : 1000 * (s.refitAll h g).2.2 ≤ s.get (F.CX_SLIM_FAILPM h) * (s.refitAll h g).2.1)
    (hgrant : (s.churnAsk .m5 (3 * h) true s.dt).1 = .granted) :
    ∃ t, exec (.refitComputeDone h) s = .next t ∧ (t.shut h).refitPhase = 4 ∧ t.churnRuns .m5 (3 * h) = true ∧
      t.inbox = s.inbox ∧ SameMem s t ∧
      RefitFrame s t := by
  have hcount := s.refitCounted_only h
  have hanswer : ((s.refitCounted h).churnAsk .m5 (3 * h) true s.dt).1 = .granted := by
    rw [State.churnAsk_fst_congr (s := s) (t := s.refitCounted h) rfl rfl, hgrant]
  cases hask : (s.refitCounted h).churnAsk .m5 (3 * h) true s.dt with
  | mk x u =>
    obtain rfl : x = .granted := by rw [hask] at hanswer; exact hanswer
    obtain ⟨-, hchurn⟩ := State.churnAsk_accepted hask (by decide)
    have hwork := (hcount.only.refitWork.trans hchurn.refitWork).modShut h fun e => { e with refitPhase := 4 }
    refine ⟨_, exec_refitComputeDone h s, ?_⟩
    rw [refitComputeDone_of_plausible hp hg hok hask, if_neg (by decide), if_pos rfl]
    have hruns : u.churnRuns .m5 (3 * h) = true := State.churnRuns_of_granted hask
    refine ⟨?_, hruns, hchurn.inbox.trans hcount.only.inbox, hwork.sameMem, hwork.frame⟩
    rw [State.shut_modShut_self _ _ _ h.isLt]

/-- Settles O23: the writes of a piece reach its bytes and their mirrors alone, by induction on the bytes; the computation reads
nothing of CX_DFSTAT, where it shows its count, so its plan and its fit are those of the state before; what the Churn answers
changes its own registers only. -/
theorem shutterCalibrationResults : Obligations.ShutterCalibrationResults := by
  unfold Obligations.ShutterCalibrationResults
  refine ⟨?_, ?_, exec_refit_of_accepted, ?_, ?_, ?_, exec_refitComputeDone_of_few, ?_, exec_refitComputeDone_of_implausible,
    exec_refitComputeDone_of_plausible, ?_, ?_, ?_⟩
  · intro h fa fb s ha hb hactive hphase hdue
    refine ⟨shutterApplyDone h s, rfl, ?_⟩
    rw [shutterApplyDone_of_due ha hb hactive hphase hdue]
    exact s.writePieces_modShut h.isLt _ _
  · intro h s hn
    exact ⟨shutterApplyDone h s, rfl, shutterApplyDone_of_not_due hn⟩
  · intro h s ha hs hr hrefused
    refine ⟨refit h s, rfl, ?_⟩
    obtain ⟨hregs, honly⟩ := State.churnAsk_refused (Prod.ext hrefused rfl)
    rw [refit_of_answer ha hs hr (Prod.ext hrefused rfl), if_pos rfl]
    exact ⟨State.get_put_self _ _ 9 (by norm_num), (hregs.mono (by simp)).put _ 9 (by simp), honly.put _ 9⟩
  · intro h s ha hn
    refine ⟨refit h s, rfl, ?_⟩
    rw [refit_of_not_streaming ha hn]
    exact ⟨State.get_put_self s _ 0xC (by norm_num), (SameRegs.refl _ s).put _ 0xC (by simp), (OnlyRegs.refl s).put _ 0xC⟩
  · intro h s hp
    refine ⟨refitStart h s, rfl, ?_⟩
    rw [refitStart_of_granted hp]
    refine ⟨State.get_put_self s _ 3 (by norm_num), ?_, (SameRegs.refl _ s).put _ 3 (by simp), rfl⟩
    rw [State.shut_modShut_self _ _ _ h.isLt]
  · intro h s hp
    have hdecided := refitComputeDone_decided h.isLt hp
    have hwork := (s.refitCounted_only h).only.refitWork.trans hdecided.work
    exact ⟨_, exec_refitComputeDone h s, hdecided.planes, hwork.sameMem, hwork.mode, hwork.dt, hwork.frame⟩
  · intro h g s hp hg
    refine ⟨refitWritesDone h s, rfl, ?_⟩
    rw [refitWritesDone_of_plan hp hg]
    exact s.writePieces_modShut h.isLt _ _
  · intro h s hp
    exact ⟨refitWritesDone h s, rfl, refitWritesDone_of_not_writing hp⟩
  · intro h s hp hg
    have hend := State.refitEnd_ended h.isLt 0xE s
    refine ⟨refitWritesDone h s, rfl, ?_⟩
    rw [refitWritesDone_of_few hp hg]
    exact ⟨hend.dfres, by rw [hend.shut], hend.work.sameMem, hend.work.frameDram⟩

end Sys2Proof.Machine
end

section
/-! PROOFS. The third run of a Quire, the rotation of a block's spare, and the test of a retired cell (R238 to R240), and the
statement on them. -/

namespace Sys2Proof.Machine

/-! ### What the shadow check shows of a block beside its target (R239) -/

/-- Of a block's EN_SHSTAT nothing but TARGET differs. -/
structure ShstatKept (b : Nat) (s t : State) : Prop where
  get : ∀ f : Fld, f.addr = R.EN_SHSTAT b → f.lo + f.w ≤ 27 ∨ 31 ≤ f.lo → t.get f = s.get f

namespace ShstatKept
variable {b : Nat} {s t u : State}

theorem refl (s : State) : ShstatKept b s s := ⟨fun _ _ _ => rfl⟩

theorem trans (h : ShstatKept b s t) (g : ShstatKept b t u) : ShstatKept b s u :=
  ⟨fun f ha hf => (g.get f ha hf).trans (h.get f ha hf)⟩

theorem of_regs (h : SameRegs [] s t) : ShstatKept b s t := ⟨fun f _ _ => h.get f (by simp)⟩

/-- A register differs that stands elsewhere in its block of 64 KiB. -/
theorem of_reg {a : Nat} (h : SameRegs [a] s t) (ha : a % 0x10000 ≠ 0x14) : ShstatKept b s t :=
  ⟨fun f hf _ => h.get f (by simp only [hf, R.EN_SHSTAT, List.mem_singleton]; omega)⟩

theorem target (h : ShstatKept b s t) (v : Nat) : ShstatKept b s (t.put (F.EN_SHSTAT_TARGET b) v) :=
  ⟨fun f ha hf => (t.get_put_disjoint _ f v fun _ => by simpa using hf).trans (h.get f ha hf)⟩

theorem modBlock (h : ShstatKept b s t) (k : Nat) (f : BlockUnit → BlockUnit) : ShstatKept b s (t.modBlock k f) :=
  ⟨fun g ha hg => h.get g ha hg⟩

theorem ite {p : Prop} [Decidable p] (h : ShstatKept b s t) (g : ShstatKept b s u) :
    ShstatKept b s (if p then t else u) := by
  split
  · exact h
  · exact g

theorem foldl {α : Type} {f : State → α → State} (hf : ∀ s x, ShstatKept b s (f s x)) (l : List α) (s : State) :
    ShstatKept b s (l.foldl f s) := by
  induction l generalizing s with
  | nil => exact refl s
  | cons x l ih => exact (hf s x).trans (ih _)

end ShstatKept

theorem SameRegs.modBlock {l : List Nat} {s t : State} (h : SameRegs l s t) (b : Nat) (f : BlockUnit → BlockUnit) :
    SameRegs l s (t.modBlock b f) := h

section
variable {b : Nat} (s : State)

theorem State.setCell_sameRegs (n st : Nat) : SameRegs [R.EN_BSTAT b] s (s.setCell b n st) :=
  ((SameRegs.refl _ s).put (F.EN_BSTAT_STATE b) _ (by simp)).put (F.EN_BSTAT_NOSPARE b) _ (by simp)

theorem State.persist_sameRegs (n : Nat) : SameRegs [R.NV_DIRTY] s (s.persist n) := by
  unfold State.persist
  split
  · exact (SameRegs.refl _ s).put F.NV_DIRTY_RING _ (by simp)
  · split <;> exact SameRegs.refl _ s

theorem State.syncCx_sameRegs (r : Nat) : SameRegs [R.CX_STAT r] s (s.syncCx r) :=
  ((SameRegs.refl _ s).put (F.CX_STAT_INFLIGHT r) _ (by simp)).put (F.CX_STAT_WAITING r) _ (by simp)

/-- The check begins with a spare, or finds none to begin with. -/
theorem State.shadowBegin_cases :
    (∃ x c, s.cellState b x = cellSpare ∧ s.shadowBegin b =
      ((s.setCell b x cellShadow).put (F.EN_SHSTAT_TARGET b) c).modBlock b fun u =>
        { u with target := some c, lastTarget := c, agree := 0 }) ∨
    s.shadowBegin b = s.put (F.EN_SHSTAT_TARGET b) 0xF := by
  unfold State.shadowBegin
  split
  next x l c hx _ => exact .inl ⟨x, c, (State.mem_cellsIn.1 (hx ▸ List.mem_cons_self)).2, rfl⟩
  next => exact .inr rfl

/-- The check begins in RUN only. -/
theorem State.shadowAsk_cases : s.shadowAsk b = s ∨ s.inRun = true ∧ s.shadowAsk b = s.shadowBegin b := by
  unfold State.shadowAsk
  split
  next h =>
    simp only [State.shadowAllowed, Bool.and_eq_true] at h
    obtain ⟨⟨⟨⟨-, hrun⟩, -⟩, -⟩, -⟩ := h
    exact .inr ⟨hrun, rfl⟩
  next => exact .inl rfl

theorem State.shadowBegin_sameRegs : SameRegs [R.EN_BSTAT b, R.EN_SHSTAT b] s (s.shadowBegin b) := by
  obtain ⟨x, c, -, h⟩ | h := s.shadowBegin_cases (b := b)
  · rw [h]
    exact (((s.setCell_sameRegs x cellShadow).mono (by simp)).put (F.EN_SHSTAT_TARGET b) c (by simp)).modBlock b _
  · rw [h]
    exact (SameRegs.refl _ s).put (F.EN_SHSTAT_TARGET b) _ (by simp)

theorem State.shadowAsk_sameRegs : SameRegs [R.EN_BSTAT b, R.EN_SHSTAT b] s (s.shadowAsk b) := by
  obtain h | ⟨-, h⟩ := s.shadowAsk_cases (b := b)
  · rw [h]
    exact SameRegs.refl _ s
  · rw [h]
    exact s.shadowBegin_sameRegs

theorem State.setCell_shstatKept (n st : Nat) : ShstatKept b s (s.setCell b n st) :=
  .of_reg (s.setCell_sameRegs n st) (by simp only [R.EN_BSTAT]; omega)

theorem State.churnDone_shstatKept (a : Activity) (res : Nat) : ShstatKept b s (s.churnDone a res) :=
  .of_reg (s.churnDone_sameRegs a res) (by decide)

theorem State.shadowStop_shstatKept : ShstatKept b s (s.shadowStop b) := by
  unfold State.shadowStop
  refine .ite (.refl s) ?_
  have hdrop : ShstatKept b s (s.shadowDrop b) := .of_regs (SameRegs.refl [] s)
  have hcells : ShstatKept b s ((s.cellsIn b cellShadow).foldl (fun s x => s.setCell b x cellSpare) (s.shadowDrop b)) :=
    hdrop.trans (.foldl (fun t x => t.setCell_shstatKept x cellSpare) _ _)
  exact ((hcells.modBlock b _).target 0xF).trans (State.churnDone_shstatKept ..)

theorem State.shadowAsk_shstatKept : ShstatKept b s (s.shadowAsk b) := by
  obtain h | ⟨-, h⟩ := s.shadowAsk_cases (b := b)
  · rw [h]
    exact .refl s
  obtain ⟨x, c, -, hx⟩ | hx := s.shadowBegin_cases (b := b)
  · rw [h, hx]
    exact ((s.setCell_shstatKept x cellShadow).target c).modBlock b _
  · rw [h, hx]
    exact (ShstatKept.refl s).target 0xF

theorem State.quireReplay_shstatKept (q : Quire) (on : Option (Nat × Nat)) : ShstatKept b s (s.quireReplay q on) := by
  have hq (f : Quire → Quire) : ShstatKept b s ((s.modQuire q.head q.seq q.qidx f).bump (F.CX_RCNT_REPLAY q.region)) :=
    .of_reg ((SameRegs.refl [R.CX_RCNT q.region] _).put (F.CX_RCNT_REPLAY q.region) _ (by simp))
      (by simp only [R.CX_RCNT]; omega)
  have hend (k : Nat) (t : State) : ShstatKept b t (t.shadowEnd k) := .ite (.refl t) (t.churnDone_shstatKept .m7 k)
  cases hst : q.stage <;> simp only [State.quireReplay, hst]
  case running k _ _ => exact .ite ((hq _).trans (hend k _)) (hq _)
  all_goals exact hq _

theorem State.syncCx_shstatKept (r : Nat) : ShstatKept b s (s.syncCx r) :=
  .of_reg (s.syncCx_sameRegs r) (by simp only [R.CX_STAT]; omega)

theorem State.cellReplaced_shstatKept (was : Nat) (spare : Option Nat) : ShstatKept b s (s.cellReplaced b was spare).1 := by
  unfold State.cellReplaced
  split
  · cases spare with
    | some x => exact s.setCell_shstatKept x cellInService
    | none => exact .of_reg (s.planAsk_sameRegs _) (by decide)
  · exact .refl s

theorem State.cellRetiredThen_shstatKept (mine : List Quire) (took : Option Nat) :
    ShstatKept b s (s.cellRetiredThen b mine took) :=
  (((ShstatKept.ite s.shadowStop_shstatKept (.refl s)).trans (.foldl (fun t q => t.quireReplay_shstatKept q _) mine _)).trans
    (State.shadowAsk_shstatKept _)).trans (State.syncCx_shstatKept ..)

/-- The retirement of a cell leaves the counts of the shadow check, and whether it has stopped. -/
theorem State.retireCell_shstatKept (c : Nat) : ShstatKept b s (s.retireCell b c) := by
  by_cases hr : s.cellState b c = cellRetired
  · rw [State.retireCell, if_pos hr]
    exact .refl s
  rw [s.retireCell_eq hr]
  have hbefore : ShstatKept b s (s.beforeRetire b c (s.spareFor b c)) := .ite s.shadowStop_shstatKept (.refl s)
  have hset (t : State) : ShstatKept b t (((t.setCell b c cellRetired).bump (F.EN_BCNT_RETIRED b)).persist 2) :=
    ((t.setCell_shstatKept c cellRetired).trans (.of_reg
      ((SameRegs.refl [R.EN_BCNT b] _).put (F.EN_BCNT_RETIRED b) _ (by simp)) (by simp only [R.EN_BCNT]; omega))).trans
      (.of_reg (State.persist_sameRegs _ 2) (by decide))
  exact ((hbefore.trans (hset _)).trans (State.cellReplaced_shstatKept ..)).trans (State.cellRetiredThen_shstatKept ..)

end

/-! ### The third run (R239) -/

/-- The cell that ran the Quire a third time has run it. -/
def State.thirdRan (s : State) (q : Quire) : State := match q.stage with | .running b c _ => s.cellRan b c | _ => s

/-- The words of one run are the Quire's, which is finished. -/
def State.runTaken (s : State) (q : Quire) (l : List Word) : State :=
  (s.modQuire q.head q.seq q.qidx fun y =>
    { y.withWords (rowsOf (s.prof q.head).width q.nlines (l.map BitVec.toNat)) with
      shadow := none, third := false, mainDone := true, stage := .finished }).syncCx q.region

/-- A third run settles Quire `q` of block `b`: its UC is raised, and the words that will be committed are taken. -/
def State.thirdSettled (s : State) (b : Nat) (q : Quire) (detail : Nat) (l : List Word) : State :=
  ((s.thirdRan q).raise b .uc detail).runTaken q l

/-- What the end of a third run may change: registers, the free value its cell draws, its report, and what keeps a block's cells at
work. -/
def ThirdRunFrame (s t : State) : Prop :=
  t = { s with
    regs := t.regs, freeCnt := t.freeCnt, inbox := t.inbox, nv := t.nv, churnRun := t.churnRun, churnQueue := t.churnQueue,
    blocks := t.blocks, planQ := t.planQ, planRun := t.planRun, quires := t.quires }

/-- The Quire of block `b` whose target ran on cell `c` and its shadow on cell `x`, and which runs a third time. -/
structure ThirdRuns (s : State) (b : Nat) (q : Quire) (c x : Nat) : Prop where
  found : (s.quires.find? fun q => q.third && q.stage != .ready && q.ranOn.any fun e => e.1 == b) = some q
  target : q.ranOn = some (b, c)
  shadow : q.shadow = some x

section
variable {s : State} {b c x : Nat} {q : Quire} {tg sh th : List Word}

theorem shadowThirdRunDone_of_target (h : ThirdRuns s b q c x) (hne : tg ≠ sh) (ht : tg = th) :
    shadowThirdRunDone b tg sh th s = ((s.thirdSettled b q (detailWord x 0xFF 0x014) tg).bump
      (F.EN_SHSTAT_MISMATCH b)).retireCell b x := by
  simp only [shadowThirdRunDone, h.found, h.target, h.shadow]
  rw [State.whenever_pos _ _ _ (by simpa using hne), if_pos ht]
  rfl

theorem shadowThirdRunDone_of_shadow (h : ThirdRuns s b q c x) (hne : tg ≠ sh) (ht : tg ≠ th) (hs : sh = th) :
    shadowThirdRunDone b tg sh th s = ((s.thirdSettled b q (detailWord c 0xFF 0x014) sh).bump
      (F.EN_SHSTAT_MISMATCH b)).retireCell b c := by
  simp only [shadowThirdRunDone, h.found, h.target, h.shadow]
  rw [State.whenever_pos _ _ _ (by simpa using hne), if_neg ht, if_pos hs]
  rfl

theorem shadowThirdRunDone_of_neither (h : ThirdRuns s b q c x) (hne : tg ≠ sh) (ht : tg ≠ th) (hs : sh ≠ th) :
    shadowThirdRunDone b tg sh th s = (((s.thirdSettled b q (detailWord 0xFF 0xFF 0x014) th).bump
      (F.EN_SHSTAT_NOMAJ b)).put (F.EN_SHSTAT_STOPPED b) 1).shadowStop b := by
  simp only [shadowThirdRunDone, h.found, h.target, h.shadow]
  rw [State.whenever_pos _ _ _ (by simpa using hne), if_neg ht, if_neg hs]
  rfl

end

section
variable (s : State) (b : Nat) (q : Quire) (d : Nat) (l : List Word)

/-- A cell's run draws a free value for what the cell holds, and changes nothing else. -/
theorem State.thirdRan_frame :
    s.thirdRan q = { s with freeCnt := (s.thirdRan q).freeCnt, blocks := (s.thirdRan q).blocks } := by
  unfold State.thirdRan
  split <;> rfl

theorem State.thirdRan_reg (a : Nat) : (s.thirdRan q).reg a = s.reg a := by
  rw [s.thirdRan_frame q]
  rfl

theorem State.runTaken_shstatKept : ShstatKept b s (s.runTaken q l) := by
  unfold State.runTaken
  have hq (f : Quire → Quire) : ShstatKept b s (s.modQuire q.head q.seq q.qidx f) :=
    .of_regs (SameRegs.refl [] s)
  exact (hq _).trans (State.syncCx_shstatKept _ q.region)

theorem State.thirdSettled_shstatKept : ShstatKept b s (s.thirdSettled b q d l) := by
  have hran : ShstatKept b s ((s.thirdRan q).raise b .uc d) :=
    .of_regs fun a _ => s.thirdRan_reg q a
  exact hran.trans (State.runTaken_shstatKept _ b q l)

/-- Whatever keeps a block's cells at work after a third run is settled, its report is the one that joins the inbox. -/
theorem State.thirdSettled_then {t : State} (h : CellFrame (s.thirdSettled b q d l) t) :
    ReportedFirst b .uc s t ∧ SameMem s t ∧ t.mode = s.mode ∧ t.dt = s.dt ∧ ThirdRunFrame s t := by
  have htake : CellFrame ((s.thirdRan q).raise b .uc d) t :=
    ((State.modQuire_cellWork (b := 0) (c := 0) _ _ _ _ _).trans (State.syncCx_cellWork ..)).frame.trans h
  rw [CellFrame, s.thirdRan_frame q] at htake
  rw [htake]
  exact ⟨⟨_, [], rfl⟩, SameMem.of_eq rfl rfl rfl rfl, rfl, rfl, rfl⟩

/-- The cell of the run that stands alone is retired. -/
theorem State.thirdSettled_retires {n : Nat} (hn : n < 7) :
    let t := ((s.thirdSettled b q d l).bump (F.EN_SHSTAT_MISMATCH b)).retireCell b n
    ReportedFirst b .uc s t ∧ t.cellState b n = cellRetired ∧
      t.get (F.EN_SHSTAT_MISMATCH b) = min (s.get (F.EN_SHSTAT_MISMATCH b) + 1) (2 ^ (F.EN_SHSTAT_MISMATCH b).w - 1) ∧
      SameMem s t ∧ t.mode = s.mode ∧ t.dt = s.dt ∧ ThirdRunFrame s t := by
  intro t
  obtain ⟨hwork, hcell⟩ :=
    State.retireCell_cellWork (b := b) ((s.thirdSettled b q d l).bump (F.EN_SHSTAT_MISMATCH b)) hn
  have hcount : CellFrame (s.thirdSettled b q d l) ((s.thirdSettled b q d l).bump (F.EN_SHSTAT_MISMATCH b)) :=
    .of_onlyRegs ((OnlyRegs.refl _).put (F.EN_SHSTAT_MISMATCH b) _)
  obtain ⟨hrep, hframe⟩ := s.thirdSettled_then b q d l (hcount.trans hwork.frame)
  refine ⟨hrep, hcell, ?_, hframe⟩
  rw [(State.retireCell_shstatKept _ n).get (F.EN_SHSTAT_MISMATCH b) rfl (by simp), State.get_bump_self _ _ (by simp),
    (s.thirdSettled_shstatKept b q d l).get (F.EN_SHSTAT_MISMATCH b) rfl (by simp)]

/-- With no majority the block's shadow check stops. -/
theorem State.thirdSettled_stops :
    let t := (((s.thirdSettled b q d l).bump (F.EN_SHSTAT_NOMAJ b)).put (F.EN_SHSTAT_STOPPED b) 1).shadowStop b
    ReportedFirst b .uc s t ∧ t.get (F.EN_SHSTAT_STOPPED b) = 1 ∧
      t.get (F.EN_SHSTAT_NOMAJ b) = min (s.get (F.EN_SHSTAT_NOMAJ b) + 1) (2 ^ (F.EN_SHSTAT_NOMAJ b).w - 1) ∧
      SameMem s t ∧ t.mode = s.mode ∧ t.dt = s.dt ∧ ThirdRunFrame s t := by
  intro t
  have honly : OnlyRegs (s.thirdSettled b q d l)
      (((s.thirdSettled b q d l).bump (F.EN_SHSTAT_NOMAJ b)).put (F.EN_SHSTAT_STOPPED b) 1) :=
    ((OnlyRegs.refl _).put (F.EN_SHSTAT_NOMAJ b) _).put (F.EN_SHSTAT_STOPPED b) 1
  obtain ⟨hrep, hframe⟩ := s.thirdSettled_then b q d l
    ((CellFrame.of_onlyRegs honly).trans (State.shadowStop_cellWork (c := 0) _ (by decide)).frame)
  refine ⟨hrep, ?_, ?_, hframe⟩
  · rw [(State.shadowStop_shstatKept _).get (F.EN_SHSTAT_STOPPED b) rfl (by simp), State.get_put_self _ _ _ (by simp)]
    rfl
  · rw [(State.shadowStop_shstatKept _).get (F.EN_SHSTAT_NOMAJ b) rfl (by simp), State.get_put_disjoint _ _ _ _ (fun _ => by simp),
      State.get_bump_self _ _ (by simp), (s.thirdSettled_shstatKept b q d l).get (F.EN_SHSTAT_NOMAJ b) rfl (by simp)]

end

/-! ### The spare that begins to shadow (R238) -/

/-- Registers, and what the blocks hold beside them, are all that differs. -/
def BlockFrame (s t : State) : Prop := t = { s with regs := t.regs, blocks := t.blocks }

namespace BlockFrame
variable {s t u : State}

theorem refl (s : State) : BlockFrame s s := Eq.refl s

theorem trans (h : BlockFrame s t) (g : BlockFrame t u) : BlockFrame s u :=
  Eq.trans g (congrArg (fun x : State => { x with regs := u.regs, blocks := u.blocks }) h)

theorem put (h : BlockFrame s t) (f : Fld) (v : Nat) : BlockFrame s (t.put f v) := h.trans (Eq.refl (t.put f v))

theorem setCell (h : BlockFrame s t) (b n st : Nat) : BlockFrame s (t.setCell b n st) := (h.put _ _).put _ _

theorem modBlock (h : BlockFrame s t) (b : Nat) (f : BlockUnit → BlockUnit) : BlockFrame s (t.modBlock b f) :=
  h.trans (Eq.refl (t.modBlock b f))

theorem nv (h : BlockFrame s t) : t.nv = s.nv := by
  rw [BlockFrame] at h
  rw [h]

/-- What a ring's persist changes, between two such steps. -/
theorem persist {n : Nat} (h : BlockFrame s t) (g : BlockFrame (t.persist n) u) :
    u = { s with regs := u.regs, blocks := u.blocks, nv := u.nv } := by
  have hp : t.persist n = { t with regs := (t.persist n).regs, nv := (t.persist n).nv } := by
    unfold State.persist
    split
    · rfl
    · split <;> rfl
  rw [BlockFrame, hp] at g
  rw [BlockFrame] at h
  rw [g, h]

end BlockFrame

section
variable {b c n st : Nat} (s : State)

theorem State.shadowBegin_blockFrame : BlockFrame s (s.shadowBegin b) := by
  obtain ⟨x, c, -, h⟩ | h := s.shadowBegin_cases (b := b)
  · rw [h]
    exact (((BlockFrame.refl s).setCell b x cellShadow).put _ _).modBlock b _
  · rw [h]
    exact (BlockFrame.refl s).put _ _

theorem State.shadowAsk_blockFrame : BlockFrame s (s.shadowAsk b) := by
  obtain h | ⟨-, h⟩ := s.shadowAsk_cases (b := b)
  · rw [h]
    exact .refl s
  · rw [h]
    exact s.shadowBegin_blockFrame

theorem State.get_modBlock (k : Nat) (f : BlockUnit → BlockUnit) (g : Fld) : (s.modBlock k f).get g = s.get g := rfl

theorem State.cellState_modBlock (k : Nat) (f : BlockUnit → BlockUnit) : (s.modBlock k f).cellState b c = s.cellState b c := rfl

/-- The target shows in EN_SHSTAT, not in EN_BSTAT. -/
theorem State.bstat_putTarget {g : Fld} (v : Nat) (hg : g.addr = R.EN_BSTAT b) :
    (s.put (F.EN_SHSTAT_TARGET b) v).get g = s.get g := State.get_put_reg _ _ _ _ (by simp [hg])

theorem State.block_modBlock_self (hb : b < 16) (f : BlockUnit → BlockUnit) : (s.modBlock b f).block b = f (s.block b) := by
  simp [State.block, State.modBlock, hb]

/-- The check begins with a spare, which becomes the shadow cell, and leaves every other cell in its state. -/
theorem State.cellState_shadowBegin (hc : c < 7) :
    (s.shadowBegin b).cellState b c = s.cellState b c ∨
      s.cellState b c = cellSpare ∧ (s.shadowBegin b).cellState b c = cellShadow := by
  obtain ⟨x, d, hspare, h⟩ | h := s.shadowBegin_cases (b := b)
  · have hbegun : (s.shadowBegin b).cellState b c = (s.setCell b x cellShadow).cellState b c := by
      rw [h, State.cellState_modBlock, State.cellState, State.bstat_putTarget _ d rfl, State.cellState]
    by_cases hcx : c = x
    · subst hcx
      exact .inr ⟨hspare, hbegun.trans (State.cellState_setCell_self hc (by decide))⟩
    · exact .inl (hbegun.trans (State.cellState_setCell_other hc (by decide) hcx))
  · exact .inl (by rw [h, State.cellState, State.bstat_putTarget s 0xF rfl, State.cellState])

theorem State.cellState_shadowAsk (hc : c < 7) :
    (s.shadowAsk b).cellState b c = s.cellState b c ∨
      s.cellState b c = cellSpare ∧ (s.shadowAsk b).cellState b c = cellShadow := by
  obtain h | ⟨-, h⟩ := s.shadowAsk_cases (b := b)
  · exact .inl (by rw [h])
  · rw [h]
    exact s.cellState_shadowBegin hc

theorem State.shadowAsk_of_not_inRun (h : s.inRun = false) : s.shadowAsk b = s :=
  s.shadowAsk_cases.resolve_right fun hrun => absurd (hrun.1.symm.trans h) (by decide)

/-- The states of a block's cells share no bit with UTFAIL. -/
theorem State.utfail_setCell : (s.setCell b n st).get (F.EN_BSTAT_UTFAIL b) = s.get (F.EN_BSTAT_UTFAIL b) := by
  rw [State.setCell, State.putB, State.get_put_disjoint _ _ _ _ (fun _ => by simp),
    State.get_put_disjoint _ _ _ _ (fun _ => by simp)]

theorem State.utfail_shadowAsk : (s.shadowAsk b).get (F.EN_BSTAT_UTFAIL b) = s.get (F.EN_BSTAT_UTFAIL b) := by
  obtain h | ⟨-, h⟩ := s.shadowAsk_cases (b := b)
  · rw [h]
  obtain ⟨x, d, -, hx⟩ | hx := s.shadowBegin_cases (b := b)
  · rw [h, hx, State.get_modBlock, State.bstat_putTarget _ d rfl, State.utfail_setCell]
  · rw [h, hx, State.bstat_putTarget s 0xF rfl]

end

/-! ### The rotation (R238) -/

/-- The shadow cell `x` enters service, the target `c` becomes the spare, and ROTATE counts. -/
def State.rotated (s : State) (b c x : Nat) : State :=
  (((s.setCell b x cellInService).setCell b c cellSpare).bump (F.EN_BCNT_ROTATE b)).modBlock b fun u =>
    { u with target := none, agree := 0 }

section
variable {s : State} {b c x : Nat} {l : List Nat}

theorem spareRotation_of_due (ht : (s.block b).target = some c) (hx : s.cellsIn b cellShadow = x :: l)
    (hn : s.get (F.EN_SHCFG_COUNT b) ≤ (s.block b).agree) (hc : s.cellBusy b c = false) (hb : s.cellBusy b x = false) :
    spareRotation b s = (s.rotated b c x).shadowBegin b := by
  simp only [spareRotation, ht, hx]
  rw [State.whenever_pos _ _ _ (by simp [hn, hc, hb])]
  rfl

theorem State.rotated_cellState (hx : x < 7) (hne : c ≠ x) : (s.rotated b c x).cellState b x = cellInService := by
  have hcount (t : State) : (t.bump (F.EN_BCNT_ROTATE b)).cellState b x = t.cellState b x := by
    rw [State.cellState, State.bump, State.bumpBy, State.get_put_reg _ _ _ _ (by simp), State.cellState]
  rw [State.rotated, State.cellState_modBlock, hcount, State.cellState_setCell_other hx (by decide) (Ne.symm hne),
    State.cellState_setCell_self hx (by decide)]

theorem State.rotatedCells_sameRegs : SameRegs [R.EN_BSTAT b] s ((s.setCell b x cellInService).setCell b c cellSpare) :=
  (s.setCell_sameRegs x cellInService).trans (State.setCell_sameRegs _ c cellSpare)

theorem State.rotated_sameRegs : SameRegs [R.EN_BSTAT b, R.EN_BCNT b] s (s.rotated b c x) :=
  ((State.rotatedCells_sameRegs.mono (by simp)).put (F.EN_BCNT_ROTATE b) _ (by simp)).modBlock b _

theorem State.rotated_rotate : (s.rotated b c x).get (F.EN_BCNT_ROTATE b) =
    min (s.get (F.EN_BCNT_ROTATE b) + 1) (2 ^ (F.EN_BCNT_ROTATE b).w - 1) := by
  rw [State.rotated, State.get_modBlock, State.get_bump_self _ _ (by simp),
    (State.rotatedCells_sameRegs (b := b)).get (F.EN_BCNT_ROTATE b) (by simp)]

theorem State.rotated_blockFrame : BlockFrame s (s.rotated b c x) :=
  ((((BlockFrame.refl s).setCell b x cellInService).setCell b c cellSpare).put (F.EN_BCNT_ROTATE b) _).modBlock b _

end

/-! ### The test of a retired cell (R240) -/

/-- A ring whose values change is marked dirty while its window is open, and is asked to be persisted else (R441). -/
theorem State.persist_asks (s : State) {n : Nat} (hn : n < 21) :
    if s.winOpen n then bit ((s.persist n).get F.NV_DIRTY_RING) n = true else (s.persist n).nv.req.contains n = true := by
  unfold State.persist
  split
  · rw [State.bit_putBit _ _ (by simp) _ _ hn, if_pos rfl]
  · split
    · assumption
    · simp

/-- The test of cell `c` ends. -/
def State.testEnded (s : State) (b c : Nat) : State := s.modBlock b fun u => { u with unret := u.unret.filter (· != c) }

/-- A cell returns to a state, and its UTFAIL is clear. -/
def State.cellBack (s : State) (b c st : Nat) : State :=
  ((s.testEnded b c).setCell b c st).putBit (F.EN_BSTAT_UTFAIL b) c false

/-- A cell that passes its test returns to a state, and the ring of the cells' states is asked for. -/
def State.cellReturned (s : State) (b c st : Nat) : State := (s.cellBack b c st).persist 2

section
variable {s : State} {b c st : Nat}

theorem unretireTestDone_passed (h : (s.block b).unret.contains c = true) :
    unretireTestDone b c true s =
      (s.cellReturned b c (if (s.cellsIn b cellInService).length < 6 then cellInService else cellSpare)).shadowAsk b := by
  rw [unretireTestDone, State.whenever_pos _ _ _ h]
  rfl

theorem unretireTestDone_failed (h : (s.block b).unret.contains c = true) :
    unretireTestDone b c false s = (s.testEnded b c).putBit (F.EN_BSTAT_UTFAIL b) c true := by
  rw [unretireTestDone, State.whenever_pos _ _ _ h]
  rfl

/-- UTFAIL shares no bit with the cells' states. -/
theorem State.cellState_putUtfail (s : State) (v n : Nat) :
    (s.put (F.EN_BSTAT_UTFAIL b) v).cellState b n = s.cellState b n := by
  rw [State.cellState, State.get_put_disjoint _ _ _ _ (fun _ => by simp), State.cellState]

theorem State.cellReturned_cellState (hc : c < 7) (hst : st < 4) : (s.cellReturned b c st).cellState b c = st := by
  have hpersist (t : State) : (t.persist 2).cellState b c = t.cellState b c := by
    rw [State.cellState, (t.persist_sameRegs 2).get _ (by simp only [R.EN_BSTAT, R.NV_DIRTY, List.mem_singleton]; omega),
      State.cellState]
  rw [State.cellReturned, hpersist, State.cellBack, State.putBit, State.cellState_putUtfail, State.cellState_setCell_self hc hst]

theorem State.cellReturned_inRun : (s.cellReturned b c st).inRun = s.inRun := by
  have hmode : (s.cellReturned b c st).mode = s.mode := (State.persist_keeps (kp := {}) 2 .rfl).mode rfl
  rw [State.inRun, State.inRun, hmode]

theorem State.cellBack_sameRegs : SameRegs [R.EN_BSTAT b] s (s.cellBack b c st) :=
  (((SameRegs.refl _ s).modBlock b _).trans (State.setCell_sameRegs (s.testEnded b c) c st)).put (F.EN_BSTAT_UTFAIL b) _ (by simp)

theorem State.cellBack_blockFrame : BlockFrame s (s.cellBack b c st) :=
  (((BlockFrame.refl s).modBlock b _).setCell b c st).put (F.EN_BSTAT_UTFAIL b) _

/-- What a returned cell leaves, whatever state it has returned to. -/
theorem State.cellReturned_rest (hc : c < 7) :
    let t := (s.cellReturned b c st).shadowAsk b
    bit (t.get (F.EN_BSTAT_UTFAIL b)) c = false ∧
      (if s.winOpen 2 then bit (t.get F.NV_DIRTY_RING) 2 = true else t.nv.req.contains 2 = true) ∧
      SameRegs [R.EN_BSTAT b, R.EN_SHSTAT b, R.NV_DIRTY] s t ∧
      t = { s with regs := t.regs, blocks := t.blocks, nv := t.nv } := by
  intro t
  have hask : SameRegs [R.EN_BSTAT b, R.EN_SHSTAT b] (s.cellReturned b c st) t := State.shadowAsk_sameRegs _
  have hpersist : SameRegs [R.NV_DIRTY] (s.cellBack b c st) (s.cellReturned b c st) := State.persist_sameRegs _ 2
  have hblock : BlockFrame (s.cellReturned b c st) t := State.shadowAsk_blockFrame _
  refine ⟨?_, ?_, ((State.cellBack_sameRegs.mono (by simp)).trans (hpersist.mono (by simp))).trans (hask.mono (by simp)),
    State.cellBack_blockFrame.persist hblock⟩
  · have hutfail : t.get (F.EN_BSTAT_UTFAIL b) = (s.cellBack b c st).get (F.EN_BSTAT_UTFAIL b) :=
      (State.utfail_shadowAsk _).trans (hpersist.get _ (by simp [R.EN_BSTAT, R.NV_DIRTY]; omega))
    rw [hutfail, State.cellBack, State.bit_putBit _ _ (by simp) _ _ hc, if_pos rfl]
  · rw [hask.get F.NV_DIRTY_RING (by simp [R.EN_BSTAT, R.EN_SHSTAT, R.NV_DIRTY]; omega), hblock.nv]
    exact (s.cellBack b c st).persist_asks (by decide)

end

section
variable {b : Block} {s : State}

theorem exec_unretire_in_setup {m : BitVec 7} (ha : s.access (R.EN_BCMD b) = true) (hm : s.mode = .setup) :
    ∃ t, exec (.unretire b m) s = .next t ∧
      (∀ n : Nat, n < 7 → m.toNat.testBit n = true → s.cellState b n = cellRetired → (t.block b).unret.contains n = true) ∧
      t = { s with blocks := t.blocks } := by
  refine ⟨unretire b m.toNat s, rfl, ?_⟩
  rw [unretire, State.whenever_pos _ _ _ (by simp [ha, hm])]
  refine ⟨fun n hn hbit hcell => ?_, rfl⟩
  rw [State.block_modBlock_self _ b.isLt]
  by_cases hold : n ∈ (s.block b).unret <;> simp [hold, hn, bit, hbit, hcell]

end

/-- Settles O25: what a settled third run, a rotation and a passed test do to a cell's state is kept by the beginning of the next
shadow check, which changes one spare alone. -/
theorem cellsRetireRotateAndReturn : Obligations.CellsRetireRotateAndReturn := by
  unfold Obligations.CellsRetireRotateAndReturn
  refine ⟨?_, ?_, ?_, ?_, fun _ _ _ => exec_unretire_in_setup, ?_, ?_, ?_, ?_⟩
  · intro b tg sh th q c x s hq hc hx hx7 hne ht
    refine ⟨shadowThirdRunDone b tg sh th s, rfl, ?_⟩
    rw [shadowThirdRunDone_of_target ⟨hq, hc, hx⟩ hne ht]
    exact s.thirdSettled_retires b q _ tg hx7
  · intro b tg sh th q c x s hq hc hx hc7 hne ht hs
    refine ⟨shadowThirdRunDone b tg sh th s, rfl, ?_⟩
    rw [shadowThirdRunDone_of_shadow ⟨hq, hc, hx⟩ hne ht hs]
    exact s.thirdSettled_retires b q _ sh hc7
  · intro b tg sh th q c x s hq hc hx hne ht hs
    refine ⟨shadowThirdRunDone b tg sh th s, rfl, ?_⟩
    rw [shadowThirdRunDone_of_neither ⟨hq, hc, hx⟩ hne ht hs]
    exact s.thirdSettled_stops b q _ th
  · intro b c x l s ht hx hc hne hn hcb hxb
    refine ⟨spareRotation b s, rfl, ?_⟩
    rw [spareRotation_of_due ht hx hn hcb hxb]
    have hx7 : x < 7 := (State.mem_cellsIn.1 (hx ▸ List.mem_cons_self)).1
    have hbegin := (s.rotated b c x).shadowBegin_sameRegs (b := b)
    refine ⟨?_, ?_, (State.rotated_sameRegs.mono (by simp)).trans (hbegin.mono (by simp)),
      State.rotated_blockFrame.trans (State.shadowBegin_blockFrame _)⟩
    · rw [hbegin.get _ (by simp), State.rotated_rotate]
    · obtain hkept | ⟨hspare, -⟩ := (s.rotated b c x).cellState_shadowBegin (b := b) hx7
      · rw [hkept, State.rotated_cellState hx7 hne]
      · exact absurd ((State.rotated_cellState hx7 hne).symm.trans hspare) (by decide)
  · intro b m s _ hm
    exact ⟨unretire b m.toNat s, rfl, State.whenever_neg _ _ _ (by simp [hm])⟩
  · intro b c s hu hl
    refine ⟨unretireTestDone b c true s, rfl, ?_⟩
    rw [unretireTestDone_passed hu, if_pos hl]
    refine ⟨?_, State.cellReturned_rest c.isLt⟩
    have hcell : (s.cellReturned b c cellInService).cellState b c = cellInService :=
      State.cellReturned_cellState c.isLt (by decide)
    obtain hkept | ⟨hspare, -⟩ := (s.cellReturned b c cellInService).cellState_shadowAsk (b := b) c.isLt
    · rw [hkept, hcell]
    · exact absurd (hcell.symm.trans hspare) (by decide)
  · intro b c s hu hl
    refine ⟨unretireTestDone b c true s, rfl, ?_⟩
    rw [unretireTestDone_passed hu, if_neg (by omega)]
    obtain ⟨hutfail, hpersist, hregs, hframe⟩ := State.cellReturned_rest (s := s) (b := b) (st := cellSpare) c.isLt
    have hcell : (s.cellReturned b c cellSpare).cellState b c = cellSpare := State.cellReturned_cellState c.isLt (by decide)
    refine ⟨?_, hutfail, hpersist, fun hrun => ?_, hregs, hframe⟩
    · obtain hkept | ⟨-, hshadow⟩ := (s.cellReturned b c cellSpare).cellState_shadowAsk (b := b) c.isLt
      · have hnot : c.val ∉ ((s.cellReturned b c cellSpare).shadowAsk b).cellsIn b cellShadow := fun hm =>
          absurd ((State.mem_cellsIn.1 hm).2.symm.trans (hkept.trans hcell)) (by decide)
        rw [if_neg (by simpa using hnot), hkept, hcell]
      · rw [if_pos (by simp [State.mem_cellsIn, hshadow]), hshadow]
    · rw [State.shadowAsk_of_not_inRun _ (State.cellReturned_inRun.trans hrun), hcell]
  · intro b c s hu
    refine ⟨unretireTestDone b c false s, rfl, ?_⟩
    rw [unretireTestDone_failed hu]
    refine ⟨?_, State.cellState_putUtfail .., ?_, rfl⟩
    · rw [State.bit_putBit _ _ (by simp) _ _ c.isLt, if_pos rfl]
    · exact (SameRegs.refl [R.EN_BSTAT b] (s.testEnded b c)).put (F.EN_BSTAT_UTFAIL b) _ (by simp)

end Sys2Proof.Machine
end

section
/-! PROOFS. A microcode load into a block that holds no cells (R234): the statement on microcode loads is refuted. -/

namespace Sys2Proof.Machine

/-! ### The cells that a load's steps leave -/

theorem OnlyRegs.blocks {s t : State} (h : OnlyRegs s t) : t.blocks = s.blocks := by
  rw [OnlyRegs] at h
  rw [h]

theorem ChurnWork.blocks {s t : State} (h : ChurnWork s t) : t.blocks = s.blocks := by
  rw [ChurnWork] at h
  rw [h]

section
variable (s : State)

theorem State.modCell_cells_length {b : Nat} (hb : b < 16) (c : Nat) (f : CellUnit → CellUnit) :
    ((s.modCell b c f).block b).cells.length = (s.block b).cells.length := by
  rw [State.modCell, s.block_modBlock_self hb, List.length_set]

theorem State.loadCode_cells_length {b : Nat} (hb : b < 16) (k : Nat) (code : List Byte) :
    ((s.loadCode b k code).block b).cells.length = (s.block b).cells.length := by
  unfold State.loadCode
  induction List.range 7 generalizing s with
  | nil => rfl
  | cons c l ih =>
    rw [List.foldl_cons, ih]
    split
    · rfl
    · exact s.modCell_cells_length hb c _

theorem State.mcFinish_blocks (code : Nat) : (s.mcFinish code).blocks = s.blocks := by
  unfold State.mcFinish
  split
  · rfl
  · dsimp only
    split <;> rfl

theorem State.churnAsk_blocks (a : Activity) (res : Nat) (canWait : Bool) (t : Nat) :
    (s.churnAsk a res canWait t).2.blocks = s.blocks := by
  by_cases hx : (s.churnAsk a res canWait t).1 = .refused
  · exact (State.churnAsk_refused (Prod.ext hx rfl)).2.blocks
  · exact (State.churnAsk_accepted (Prod.ext rfl rfl) hx).2.blocks

theorem State.mcNext_blocks (t : Nat) : (s.mcNext t).blocks = s.blocks := by
  unfold State.mcNext
  split
  · rfl
  next l _ =>
    split
    · exact s.mcFinish_blocks 1
    next b _ _ =>
      split
      · rfl
      · have hask := s.churnAsk_blocks .m6 b true t
        split
        next hx => rw [hx] at hask; exact hask
        next hx => rw [hx] at hask; exact hask
        next hx => rw [hx] at hask; exact (State.mcFinish_blocks _ 7).trans hask

end

/-- The end of a block's copy leaves the number of the block's cells. -/
theorem microcodeBlockLoadDone_cells_length (b : Block) (s : State) :
    ((microcodeBlockLoadDone b s).block b).cells.length = (s.block b).cells.length := by
  unfold microcodeBlockLoadDone
  split
  · rfl
  next l _ =>
    unfold State.whenever
    split
    · have hcode := (s.churnDone .m6 b).loadCode_cells_length b.isLt (1 - s.get (F.EN_BSTAT_BANK b)) (imageCode (s.imageOf l))
      dsimp only
      split
      · rw [State.block, State.mcNext_blocks]
        exact hcode
      · rw [State.block, State.mcFinish_blocks]
        exact hcode
    · rfl

/-- A block without cells holds the code of none. -/
theorem State.cell_of_no_cells {s : State} {b c : Nat} (h : (s.block b).cells = []) : s.cell b c = { bankA := [], bankB := [] } := by
  rw [State.cell, h]
  rfl

/-! ### The counterexample -/

/-- An image header with LEN 16. -/
def shortImageHeader : List Byte := List.replicate 16 0 ++ 16 :: List.replicate 47 0

/-- The load whose copy of block 0 runs. -/
def blockZeroLoad : McLoad := { left := [0], cur := some 0, header := shortImageHeader }

/-- SETUP, in which that copy runs, and block 0 has lost its list of cells. -/
def cellsMissing : State :=
  { State.reset with mode := .setup, mcLoad := some blockZeroLoad, blocks := tabSet State.reset.blocks 0 { cells := [] } }

theorem cellsMissing_block : (cellsMissing.block (0 : Block)).cells.length = 0 := by decide

theorem cellsMissing_cellState : (cellsMissing.cellState (0 : Block) 0 == cellRetired) = false := by decide

theorem cellsMissing_code : imageCode (cellsMissing.imageOf blockZeroLoad) ≠ [] := by decide

/-- Refutes O24 in its clause on the end of a block's copy, which claims for every state that each cell of the block that is not
retired then holds the image's code. A state keeps a block's cells in a list of any length, and a list of fewer than seven has no
place for the code; the clause leaves out that the block holds its seven cells (R229). With block 0's list empty, its cell 0, in
service by EN_BSTAT, holds no code after the copy. -/
theorem not_microcodeLoadsByBlock : ¬ Obligations.MicrocodeLoadsByBlock := by
  unfold Obligations.MicrocodeLoadsByBlock
  rintro ⟨-, -, -, -, -, hdone, -⟩
  obtain ⟨t, hexec, -, hcode, -⟩ := hdone 0 blockZeroLoad cellsMissing rfl rfl (by decide)
  obtain rfl : microcodeBlockLoadDone (0 : Block) cellsMissing = t := Host.Outcome.next.inj hexec
  have hcells : ((microcodeBlockLoadDone (0 : Block) cellsMissing).block (0 : Block)).cells = [] :=
    List.length_eq_zero_iff.1 ((microcodeBlockLoadDone_cells_length 0 cellsMissing).trans cellsMissing_block)
  have hzero := List.all_eq_true.1 hcode 0 (by decide)
  rw [cellsMissing_cellState, State.cell_of_no_cells hcells, Bool.false_or, ite_self] at hzero
  exact cellsMissing_code (eq_of_beq hzero).symm

end Sys2Proof.Machine
end

section
/-! PROOFS. A Quire that a pipe takes from a through-memory buffer on lost channels (R256, R383): the statement on recipes and pipes is
refuted. -/

namespace Sys2Proof.Machine

/-- Frame 1 of head 0, of one column and 32 rows (two Quires), whole in through-memory buffer 0; its pipe has begun it and taken no
Quire. -/
def throughMemoryFrame : Frame :=
  { head := 0, seq := 1, dt := 100, gen := 0, snap := [], profile := { width := 1, height := 32 }, committed := 2,
    complete := true, commitDts := [200, 300], tmBuf := some 0, begun := true }

/-- RUN after every DRAM channel has been lost, with that frame for pipe 0. -/
def bufferLost : State := { State.reset with mode := .run, lostChan := List.range 16, frames := [throughMemoryFrame] }

theorem bufferLost_pipePick : bufferLost.pipePick 0 = some (throughMemoryFrame, false) := by decide

theorem throughMemoryFrame_rulesDue :
    (({ throughMemoryFrame with taken := 1 } : Frame).rulesDue 16 false).isEmpty = true := by decide

/-- The 16 pixels of the Quire have each drawn a free value. -/
theorem pipeQuireTake_bufferLost : (pipeQuireTake 0 .none 400 bufferLost).freeCnt = bufferLost.freeCnt + 16 := by decide

/-- Refutes O26 in its clause on a Quire taken without an error of its pipe, which claims that registers, Device Time, pipes and
frames are all that differs. Pixels of the Quire that lie on a lost channel of the frame's through-memory buffer cannot be read, with no
report (R256, R383), and a free value is drawn for each: with all channels lost, the 16 pixels of a Quire one column wide draw 16. -/
theorem not_recipesAndPipes : ¬ Obligations.RecipesAndPipes := by
  unfold Obligations.RecipesAndPipes
  rintro ⟨-, -, -, htake, -⟩
  obtain ⟨u, hexec, -, -, -, -, hframe⟩ := htake 0 400 throughMemoryFrame false bufferLost (by decide) bufferLost_pipePick rfl
    (by decide) (by decide) throughMemoryFrame_rulesDue (by decide)
  obtain rfl : pipeQuireTake 0 .none 400 bufferLost = u := Host.Outcome.next.inj hexec
  have hfree : (pipeQuireTake 0 .none 400 bufferLost).freeCnt = bufferLost.freeCnt := by rw [hframe]
  rw [pipeQuireTake_bufferLost] at hfree
  omega

end Sys2Proof.Machine
end

section
/-! PROOFS. A deadline that runs out after an idle head has taken a transaction at acceptance (R304, R307): the statement on OPEN, STAGE,
COMMIT and ROLLBACK is refuted. -/

namespace Sys2Proof.Machine

/-- RUN, with every handle free. Head 0 streams and head 1 does not. TXN_CCFG lists both heads with DLMS 1 in mode FRAME; TXN_SHND names
the first handle, and TXN_SADDR names GP_OUT0 for head 1. -/
def oneHeadStreams : State :=
  ((((({ State.reset with mode := .run } : State).put (F.HP_STAT_STREAM 0) 1).setReg R.TXN_CCFG 0x00100003).put
    F.TXN_SHND_HANDLE 1).put F.TXN_SADDR_ADDR (R.GP_OUT 0)).put F.TXN_SADDR_HEAD 1

/-- OPEN, STAGE of that entry and COMMIT at DT 0. -/
def takenAtAcceptance : State := txnCommit 1 0 (txnStage 1 (txnOpen .pcie oneHeadStreams))

/-- The commit is accepted, and the idle head's write and switch are made at once: SWITCHING, and only the streaming head is left. -/
theorem takenAtAcceptance_switching : takenAtAcceptance.txnState (0 : Fin 16) = 4 := by decide

/-- A listed head whose writes have begun has switched. -/
theorem takenAtAcceptance_begun : ((takenAtAcceptance.txn (0 : Fin 16)).heads.any fun x => x.began && !x.switched) = false := by decide

theorem takenAtAcceptance_due : (takenAtAcceptance.txn (0 : Fin 16)).accAt +
    fieldOf F.TXN_CCFG_DLMS (takenAtAcceptance.txn (0 : Fin 16)).ccfg * 1000000 ≤ 1000000 := by decide

/-- At the deadline the idle head's write has begun, so the transaction is undone (R312) and its handle is UNDOING. -/
theorem txnDeadline_takenAtAcceptance : (txnDeadline (0 : Fin 16) 1000000 takenAtAcceptance).txnState (0 : Fin 16) = 5 := by
  decide +kernel

/-- Refutes O29 in its clause on the deadline, which claims that the handle is then free. The clause lets a head have begun its writes
when it has switched: a listed head that does not stream does both at acceptance (R304). When the deadline of the streaming
heads runs out, the transaction with a begun head is undone, and its handle stays UNDOING until the undo is over. The state
comes of OPEN, STAGE and COMMIT in RUN. -/
theorem not_transactionsOpenStageAndCommit : ¬ Obligations.TransactionsOpenStageAndCommit := by
  unfold Obligations.TransactionsOpenStageAndCommit
  rintro ⟨-, -, -, -, -, -, -, -, -, -, -, -, -, -, -, -, hdeadline⟩
  obtain ⟨u, hexec, hfree, -⟩ := hdeadline 0 1000000 takenAtAcceptance (by rw [takenAtAcceptance_switching]; decide)
    (by rw [takenAtAcceptance_switching]) (by decide) takenAtAcceptance_due (by decide) (by decide)
    takenAtAcceptance_begun (by decide) (by decide) (by decide)
  obtain rfl : txnDeadline (0 : Fin 16) 1000000 takenAtAcceptance = u := Host.Outcome.next.inj hexec
  exact absurd (txnDeadline_takenAtAcceptance.symm.trans hfree) (by decide)

end Sys2Proof.Machine
end

section
/-! PROOFS. An undo that ends while another transaction waits for the port with an entry for TXN_HSTAT (R302, R311): the statement on head
writes and undo is refuted. -/

namespace Sys2Proof.Machine

/-- An entry for the first handle's TXN_HSTAT, which STAGE does not store (R302, Table 12-2). -/
def hstatEntry : TxnEntry := { undo := false, head := 0, addr := R.TXN_HSTAT 0, val := 0 }

/-- RUN. The first handle's transaction has failed with ROLLED_BACK_AFTER_FAIL (9), and its undo on head 0 is over. It still owns the
head's port, for which the second handle's transaction, of an earlier commit, waits with that entry. -/
def undoneBeforeWait : State :=
  ((((({ State.reset with mode := .run, txnQ := [1, 0] } : State).modTxn 0 fun _ =>
    { heads := [{ head := 0, began := true, undone := true }], endRes := 9 }).modTxn 1 fun _ =>
    { heads := [{ head := 0, queued := true, left := [hstatEntry] }] }).put (F.TXN_HSTAT_STATE 0) 5).put
    (F.TXN_HSTAT_STATE 1) 3).modHead 0 fun u => { u with hcpOwner := 1 }

/-- The end of the undo gives the port on; the entry runs and clears the RESULT that has just been set. -/
theorem txnUndoDone_undoneBeforeWait : (txnUndoDone (0 : Fin 16) true undoneBeforeWait).get (F.TXN_HSTAT_RESULT (0 : Fin 16)) = 0 := by
  decide +kernel

/-- Refutes O30 in its clause on an undo that is over without a failure, which claims that RESULT then holds the result the failure
set. The port goes on to a transaction that waits for it, and its entries run at whatever address they name: one for the
handle's own TXN_HSTAT stores 0 there. No entry for that register is ever staged (R302, Table 12-2), so no run of the machine
comes to such a state, but the clause has no premise that excludes it. -/
theorem not_transactionHeadWritesAndUndo : ¬ Obligations.TransactionHeadWritesAndUndo := by
  unfold Obligations.TransactionHeadWritesAndUndo
  rintro ⟨-, -, -, -, hdone, -⟩
  obtain ⟨t, hexec, -, hresult, -⟩ := hdone 0 undoneBeforeWait (by decide) (by decide) (by decide)
  obtain rfl : txnUndoDone (0 : Fin 16) true undoneBeforeWait = t := Host.Outcome.next.inj hexec
  exact absurd (txnUndoDone_undoneBeforeWait.symm.trans hresult) (by decide)

end Sys2Proof.Machine
end

section
/-! PROOFS. Which commands write host memory (R328, R331, R334, R347): the statement on them. -/

namespace Sys2Proof.Machine

/-- Every part may change but host memory, and Device Time may go back. -/
def partsBesideHost : Parts := ⟨true, true, true, false, true⟩

theorem partsBesideHost_cover {i : Instr} (hi : mayWriteHost i = false) : partsBesideHost.Cover i :=
  ⟨fun _ => rfl, rfl, fun _ => rfl, fun h => by simp [hi] at h, fun _ => rfl⟩

/-- Settles O59: the law of a command outside the list leaves host memory as it was, and so every byte of it. -/
theorem onlyTheseCommandsWriteHostMemory : Obligations.OnlyTheseCommandsWriteHostMemory := by
  unfold Obligations.OnlyTheseCommandsWriteHostMemory
  rintro i s t ht ⟨a, ha⟩
  by_contra hi
  obtain ⟨u, hu, hk⟩ := exec_keeps_of_cover i s (partsBesideHost_cover (by simpa using hi))
  obtain rfl : u = t := Host.Outcome.next.inj (hu.symm.trans ht)
  exact ha (by rw [State.hostByte, State.hostByte, hk.host rfl])

end Sys2Proof.Machine
end

section
/-! PROOFS. A SHUTTER request of a head whose port is retired (R189, R382): the statement on ring commands is refuted. -/

namespace Sys2Proof.Machine

/-- A SHUTTER request of head 0 (Table 13-6), with its OWN bit set. -/
def shutterCommand : RingCmd :=
  { tag := 7, bytes := (List.range 64).map fun i => if i = 0 then 2 else if i = 63 then 0x80 else 0, cidx := 1 }

/-- An active submission ring of 16 entries. -/
def submissionRing : RingCtx := { logN := 4, cls := 1, en := true, state := 1 }

/-- RUN. Head 0 streams with its shutter calibration enabled, and ring 5 of the PF holds that command. -/
def shutterCommandWaits : State :=
  ((((({ State.reset with
         mode := .run, rings := [(5, { ctx := submissionRing, cmds := [shutterCommand] })] } : State).put
    (F.HP_STAT_STREAM 0) 1).put (F.CX_SCFG_EN 0) 1).put (F.Q_FRANGE_COUNT 0) 1).put (F.Q_FPERM_OPS 0) 0x7F).modHead 0 fun u =>
      { u with profile := some { shutType := 1 } }

/-- An FA of head port 0 (source 20) has retired it before the command starts. -/
def shutterCommandRetired : State := faultReport (some { source := 20, cls := .fa, detail := 0 }) 0 shutterCommandWaits

theorem shutterCommandRetired_isRetired : shutterCommandRetired.isRetired 20 = true := by decide +kernel

theorem shutterCommandRetired_runs : RingRuns shutterCommandRetired 5 2 0 shutterCommand := by decide +kernel

/-- The head streams on, HELD. -/
theorem shutterCommandRetired_streams : shutterCommandRetired.streams (0 : Head) = true := by decide +kernel

theorem shutterCommandRetired_coils : shutterCommandRetired.coilFault (0 : Head) = false := by decide +kernel

/-- The request ends with SHUTTER (7), as one of a retired port does (log entry 179). -/
theorem cmdShutterRequest_shutterCommandRetired :
    (cmdShutterRequest 5 0 shutterCommandRetired).get (F.CX_SSTAT_RESULT (0 : Head)) = 7 := by decide +kernel

/-- Refutes O33 in its clause on a SHUTTER request, which claims that every enabled and idle event of a streaming head begins when no
coil has failed. The shutter of a retired port stays closed (R382), and a request of its event is answered with SHUTTER. The
state comes of an FA of a streaming head's port. -/
theorem not_ringCommandsAreCheckedAndAnswered : ¬ Obligations.RingCommandsAreCheckedAndAnswered := by
  unfold Obligations.RingCommandsAreCheckedAndAnswered
  rintro ⟨-, -, -, -, -, -, -, -, -, -, hrequest, -⟩
  obtain ⟨u, hexec, hbegun, -⟩ := hrequest 5 0 0 shutterCommand shutterCommandRetired shutterCommandRetired_runs (by decide)
    (by decide +kernel) shutterCommandRetired_streams (by decide +kernel) (by decide +kernel) (by decide +kernel)
    shutterCommandRetired_coils
  obtain rfl : cmdShutterRequest 5 0 shutterCommandRetired = u := Host.Outcome.next.inj hexec
  exact absurd (cmdShutterRequest_shutterCommandRetired.symm.trans hbegun) (by decide)

end Sys2Proof.Machine
end

section
/-! PROOFS. The completion of a DMA_COPY whose descriptor has INT (R360): the statement on records in host memory is refuted. -/

namespace Sys2Proof.Machine

/-- A DMA_COPY for channel 2 (Table 13-6) with its OWN bit set. Its descriptor has the INT flag and no length. -/
def signallingCopy : RingCmd :=
  { tag := 7, cidx := 1, bytes := (List.range 64).map fun i =>
      if i = 0 then 5 else if i = 0x10 then 2 else if i = 0x2C then 8 else if i = 63 then 0x80 else 0 }

/-- The completion ring 1 of the PF: empty, active, with its records at host address 0x1000. -/
def completionRing : RingCtx := { rbase := 0x1000, logN := 4, kind := 1, cls := 1, en := true, state := 1 }

/-- SETUP, the link up. Channel 2 of the PF is enabled and driven by rings, ring 5 of the PF, whose completions go to ring 1, holds that
command, and the channel's vector 0 is unmasked, a message of data 0x41 to host address 0xFEE00000. -/
def signallingCopyWaits : State :=
  (((((((({ State.reset with
            mode := .setup, pcie := { bme := [0] },
            rings := [(1, { ctx := completionRing }),
                      (5, { ctx := { submissionRing with cq := 1 }, cmds := [signallingCopy] })] } : State).put
    (F.Q_FRANGE_COUNT 0) 1).put (F.Q_FPERM_OPS 0) 0x7F).put F.Q_STAT_LINKUP 1).put (F.DMA_CH_CFG_SRC 2) 1).put
    (F.DMA_CH_CFG_EN 2) 1).setReg (R.Q_MSIXTAB 0 0) 0xFEE00000).setReg (R.Q_MSIXTAB 0 2) 0x41).setReg (R.Q_MSIXTAB 0 3) 0

/-- The command has started and ended with its descriptor: its completion waits. -/
def signallingCopyEnded : State := dmaWriteback 2 (dmaCopy 5 0 signallingCopyWaits)

/-- BAD_DESC (6), and channel 2 is to signal its vector once the completion is posted. -/
def signallingCopyDone : CmdDone := { ring := 5, tag := 7, status := 0, result := 0x60000000, int := some 2 }

/-- The command, which has started. -/
def signallingCopyStarted : RingCmd := { signallingCopy with started := true }

theorem signallingCopyEnded_done : signallingCopyEnded.admitHeld.doneFor 1 = some signallingCopyDone := by decide +kernel

theorem signallingCopyEnded_cmd :
    ((signallingCopyEnded.ringOf signallingCopyDone.ring).cmds.find? fun c => c.tag == signallingCopyDone.tag) =
      some signallingCopyStarted := by decide +kernel

theorem signallingCopyEnded_completionRing : (signallingCopyEnded.ringOf 1).ctx = completionRing := by decide +kernel

theorem signallingCopyEnded_canPost : signallingCopyEnded.canPost 1 = true := by decide +kernel

/-- The message stands in host memory behind the completion. -/
theorem completionPost_signallingCopyEnded : (completionPost 1 0 signallingCopyEnded).hostByte 0xFEE00000 = 0x41 := by decide +kernel

/-- The completion's record alone leaves the message's address as it was. -/
theorem completionRecord_signallingCopyEnded :
    (signallingCopyEnded.hostWrite (completionRing.rbase + 32 * completionRing.pidx)
      (signallingCopyEnded.completionBytes signallingCopyDone signallingCopyStarted ++ [0x80])).hostByte 0xFEE00000 = 0 := by
  decide +kernel

/-- Refutes O35 in its clause on a completion, which claims that host memory takes the completion's record and nothing else. A DMA_COPY
whose descriptor has INT signals its channel's vector once the completion is posted (R360), even where the completion ring sends
no message of its own: the message is a write of its data to host memory. The state comes of DMA_COPY and its end. -/
theorem not_recordsArePostedInHostMemory : ¬ Obligations.RecordsArePostedInHostMemory := by
  unfold Obligations.RecordsArePostedInHostMemory
  rintro ⟨hpost, -⟩
  have hctx := signallingCopyEnded_completionRing
  obtain ⟨u, hexec, -, hhost, -⟩ := hpost 1 0 signallingCopyDone signallingCopyStarted signallingCopyEnded signallingCopyEnded_done
    signallingCopyEnded_cmd (by rw [hctx]; decide) (by rw [hctx]; decide) (by rw [hctx]; decide) (by rw [hctx]; decide)
    signallingCopyEnded_canPost (by decide)
  obtain rfl : completionPost 1 0 signallingCopyEnded = u := Host.Outcome.next.inj hexec
  rw [hctx] at hhost
  have hbyte := congrArg (alGet dramReset · 0xFEE00000) hhost
  exact absurd (completionPost_signallingCopyEnded.symm.trans (hbyte.trans completionRecord_signallingCopyEnded)) (by decide)

end Sys2Proof.Machine
end

section
/-! PROOFS. A link that goes down while a host read of the DMA engine is outstanding (R362): the statement on the link is refuted. -/

namespace Sys2Proof.Machine

/-- A copy of 64 bytes from host 0x1000 to host 0x2000 (Table 14-1) by a ring channel, whose one source read has been issued. -/
def hostCopyRun : DmaRun :=
  { desc := { bytes := (List.range 32).map fun i => if i = 1 then 0x10 else if i = 9 then 0x20 else if i = 16 then 64 else 0 }
    src := { dev := false, addr := 0x1000, left := 64 }, dst := { dev := false, addr := 0x2000, left := 64 }
    seg := some { src := 0x1000, dst := 0x2000, len := 64, issued := 64 } }

/-- The engine of channel 2's copy: the read waits for its completion. -/
def hostReadEngine : DmaUnit :=
  { chans := (Vector.replicate 64 {}).set 2 { run := some hostCopyRun },
    reads := [{ id := 0, ch := 2, dev := false, kind := .data 0x1000 0 64 }], nextId := 1 }

/-- SETUP, the link up, with channel 2 enabled and its copy under way. -/
def hostReadOutstanding : State :=
  ({ State.reset with mode := .setup, pcie := { bme := [0] }, dma := hostReadEngine } : State).put F.Q_STAT_LINKUP 1
    |>.put (F.DMA_CH_CFG_EN 2) 1

/-- The read fails, and halts the engine. -/
theorem pcieLinkDown_hostReadOutstanding : (pcieLinkDown 0 hostReadOutstanding).flag F.DMA_STAT_HALT = true := by decide +kernel

/-- Refutes O36 in its clause on the link going down, which claims that Q_STAT and Q_LINKCNT are the only registers that differ. A host
read that is outstanding when the link leaves L0 fails, and a failed request halts the whole DMA engine with a UC of its own
(R318, R343, R362): DMA_STAT shows the halt. -/
theorem not_linkFunctionsAndBarWindow : ¬ Obligations.LinkFunctionsAndBarWindow := by
  unfold Obligations.LinkFunctionsAndBarWindow
  rintro ⟨-, -, -, hdown, -⟩
  obtain ⟨u, hexec, -, -, -, hregs, -⟩ := hdown 0 hostReadOutstanding (by decide) (by decide)
  obtain rfl : pcieLinkDown 0 hostReadOutstanding = u := Host.Outcome.next.inj hexec
  have hhalt : (pcieLinkDown 0 hostReadOutstanding).flag F.DMA_STAT_HALT = hostReadOutstanding.flag F.DMA_STAT_HALT :=
    congrArg (fun w => fieldOf F.DMA_STAT_HALT w == 1) (hregs R.DMA_STAT (by decide))
  exact absurd (pcieLinkDown_hostReadOutstanding.symm.trans hhalt) (by decide)

end Sys2Proof.Machine
end

section
/-! PROOFS. The registers of a DMA channel (R351 to R354): what its STATE shows, its enabling, disabling and stop, and the statement on
them. -/

namespace Sys2Proof.Machine

/-! ### A channel's registers and its unit -/

theorem State.chan_modChan_self (s : State) {c : Nat} (hc : c < 64) (f : DmaChan → DmaChan) :
    (s.modChan c f).chan c = f (s.chan c) := by simp [State.chan, State.modChan, hc]

@[simp] theorem State.put_chan (s : State) (f : Fld) (v c : Nat) : (s.put f v).chan c = s.chan c := rfl
@[simp] theorem State.setReg_chan (s : State) (a : Nat) (w : Word) (c : Nat) : (s.setReg a w).chan c = s.chan c := rfl
@[simp] theorem State.modChan_get (s : State) (c : Nat) (f : DmaChan → DmaChan) (g : Fld) : (s.modChan c f).get g = s.get g := rfl
@[simp] theorem State.modChan_reg (s : State) (c : Nat) (f : DmaChan → DmaChan) (a : Nat) : (s.modChan c f).reg a = s.reg a := rfl
@[simp] theorem State.modChan_flag (s : State) (c : Nat) (f : DmaChan → DmaChan) (g : Fld) :
    (s.modChan c f).flag g = s.flag g := rfl

theorem State.flag_put_reg (s : State) (f g : Fld) (v : Nat) (h : g.addr ≠ f.addr) : (s.put f v).flag g = s.flag g := by
  rw [State.flag, State.get_put_reg s f g v h, State.flag]

theorem SameRegs.modChan {l : List Nat} {s t : State} (h : SameRegs l s t) (c : Nat) (f : DmaChan → DmaChan) :
    SameRegs l s (t.modChan c f) := h

/-- Registers and what the DMA engine holds are all that differs. -/
def DmaWork (s t : State) : Prop := t = { s with regs := t.regs, dma := t.dma }

namespace DmaWork
variable {s t : State}

theorem refl (s : State) : DmaWork s s := Eq.refl s

theorem trans {u : State} (h : DmaWork s t) (g : DmaWork t u) : DmaWork s u :=
  Eq.trans g (congrArg (fun x : State => { x with regs := u.regs, dma := u.dma }) h)

theorem setReg (h : DmaWork s t) (a : Nat) (w : Word) : DmaWork s (t.setReg a w) := h.trans (Eq.refl (t.setReg a w))

theorem put (h : DmaWork s t) (f : Fld) (v : Nat) : DmaWork s (t.put f v) := h.trans (Eq.refl (t.put f v))

theorem modChan (h : DmaWork s t) (c : Nat) (f : DmaChan → DmaChan) : DmaWork s (t.modChan c f) :=
  h.trans (Eq.refl (t.modChan c f))

end DmaWork

/-- No register of a channel is DMA_STAT. -/
theorem dmaStat_ne (c : Nat) : R.DMA_STAT ≠ R.DMA_CH_CFG c ∧ R.DMA_STAT ≠ R.DMA_CH_STAT c ∧ R.DMA_STAT ≠ R.DMA_CH_TAIL c := by
  simp only [R.DMA_STAT, R.DMA_CH_CFG, R.DMA_CH_STAT, R.DMA_CH_TAIL]
  omega

/-! ### STATE (Table 14-7) -/

section
variable {s : State} {c : Nat}

/-- An enabled channel that runs no descriptor and has not stopped shows ACTIVE or IDLE. -/
theorem State.dmaSync_of_enabled (hstate : s.get (F.DMA_CH_STAT_STATE c) ≠ 3) (hen : s.flag (F.DMA_CH_CFG_EN c) = true)
    (hhalt : s.flag F.DMA_STAT_HALT = false) (hrun : (s.chan c).run = none) :
    s.dmaSync c = s.put (F.DMA_CH_STAT_STATE c) (if s.dmaWork c then 2 else 1) := by
  simp [State.dmaSync, hstate, hen, hhalt, hrun]

/-- A disabled channel that runs no descriptor shows DISABLED. -/
theorem State.dmaSync_of_disabled (hen : s.flag (F.DMA_CH_CFG_EN c) = false) (hrun : (s.chan c).run = none) :
    s.dmaSync c = s.put (F.DMA_CH_STAT_STATE c) 0 := by
  simp [State.dmaSync, hen, hrun]

/-- A ring channel has work when TAIL is not CIDX (R351). -/
theorem State.dmaWork_of_ring (hsw : s.flag (F.DMA_CH_CFG_SWPACE c) = false) (hsrc : s.flag (F.DMA_CH_CFG_SRC c) = false) :
    s.dmaWork c = (s.get (F.DMA_CH_TAIL_TAIL c) != s.get (F.DMA_CH_STAT_CIDX c)) := by
  simp [State.dmaWork, State.dmaGoal, hsw, hsrc]

/-- A SWPACE channel has work when the TAIL of its run is not CIDX (R354). -/
theorem State.dmaWork_of_swpace {g : Nat} (hsw : s.flag (F.DMA_CH_CFG_SWPACE c) = true)
    (hsrc : s.flag (F.DMA_CH_CFG_SRC c) = false) (hend : (s.chan c).swEnd = some g) :
    s.dmaWork c = (g != s.get (F.DMA_CH_STAT_CIDX c)) := by
  simp [State.dmaWork, State.dmaGoal, hsw, hsrc, hend]

/-- While TAIL is CIDX no channel has work that holds no descriptor of a command and makes no SWPACE run. -/
theorem State.dmaWork_of_empty (hqueue : (s.chan c).queue = []) (hend : (s.chan c).swEnd = none)
    (htail : s.get (F.DMA_CH_TAIL_TAIL c) = s.get (F.DMA_CH_STAT_CIDX c)) : s.dmaWork c = false := by
  unfold State.dmaWork State.dmaGoal
  by_cases hsrc : s.flag (F.DMA_CH_CFG_SRC c) = true
  · simp [hsrc, hqueue]
  · by_cases hsw : s.flag (F.DMA_CH_CFG_SWPACE c) = true <;> simp [hsrc, hsw, hend, htail]

/-- No descriptor of a ring channel starts that has none on chip, unless its SWPACE run is at its end. -/
theorem State.dmaNext_of_unfetched (hsrc : s.flag (F.DMA_CH_CFG_SRC c) = false) (hfetched : (s.chan c).fetched = [])
    (hend : (s.chan c).swEnd ≠ some (s.get (F.DMA_CH_STAT_CIDX c))) : s.dmaNext c = s.dmaSync c := by
  simp [State.dmaNext, hsrc, hfetched, hend]

/-- An enabled ring channel paced by its budget that has no descriptor on chip, while no halt holds. -/
structure State.RingWaits (s : State) (c : Nat) : Prop where
  enabled : s.flag (F.DMA_CH_CFG_EN c) = true
  native : s.flag (F.DMA_CH_CFG_SWPACE c) = false
  ring : s.flag (F.DMA_CH_CFG_SRC c) = false
  goes : s.flag F.DMA_STAT_HALT = false
  idle : (s.chan c).run = none
  unfetched : (s.chan c).fetched = []
  noRun : (s.chan c).swEnd = none

/-- Its TAIL and its status say nothing of that. -/
theorem State.RingWaits.put (h : s.RingWaits c) {f : Fld} (hf : f.addr = R.DMA_CH_TAIL c ∨ f.addr = R.DMA_CH_STAT c) (v : Nat) :
    (s.put f v).RingWaits c := by
  obtain ⟨-, hstat, htail⟩ := dmaStat_ne c
  have hcfg : R.DMA_CH_CFG c ≠ f.addr := by rcases hf with hf | hf <;> simp [hf]
  have hhalt : R.DMA_STAT ≠ f.addr := by rcases hf with hf | hf <;> simpa [hf]
  exact ⟨(s.flag_put_reg f _ v hcfg).trans h.enabled, (s.flag_put_reg f _ v hcfg).trans h.native,
    (s.flag_put_reg f _ v hcfg).trans h.ring, (s.flag_put_reg f _ v hhalt).trans h.goes, h.idle, h.unfetched, h.noRun⟩

/-- It shows ACTIVE or IDLE as TAIL and CIDX say. -/
theorem State.RingWaits.dmaNext (h : s.RingWaits c) (hstate : s.get (F.DMA_CH_STAT_STATE c) ≠ 3) :
    s.dmaNext c = s.put (F.DMA_CH_STAT_STATE c)
      (if s.get (F.DMA_CH_TAIL_TAIL c) = s.get (F.DMA_CH_STAT_CIDX c) then 1 else 2) := by
  rw [State.dmaNext_of_unfetched h.ring h.unfetched (by simp [h.noRun]),
    State.dmaSync_of_enabled hstate h.enabled h.goes h.idle, State.dmaWork_of_ring h.native h.ring]
  by_cases ht : s.get (F.DMA_CH_TAIL_TAIL c) = s.get (F.DMA_CH_STAT_CIDX c) <;> simp [ht]

/-- A channel that stops shows STOPPED and the error, and drops the descriptors it has fetched. -/
theorem State.dmaStop_stopped (s : State) (hc : c < 64) {err : Nat} (herr : err < 8) :
    (s.dmaStop c err).get (F.DMA_CH_STAT_STATE c) = 3 ∧ (s.dmaStop c err).get (F.DMA_CH_STAT_ERR c) = err ∧
    ((s.dmaStop c err).chan c).fetched = [] ∧ SameRegs [R.DMA_CH_STAT c] s (s.dmaStop c err) ∧
    DmaWork s (s.dmaStop c err) := by
  refine ⟨?_, State.get_put_of_lt _ (by simp) herr, ?_, ?_, (((DmaWork.refl s).modChan c _).put _ 3).put _ err⟩
  · rw [State.dmaStop, State.get_put_disjoint _ _ _ _ (by simp), State.get_put_of_lt _ (by simp) (by simp)]
  · simp [State.dmaStop, s.chan_modChan_self hc]
  · exact (((SameRegs.refl _ s).modChan c _).put _ _ (by simp)).put _ _ (by simp)

theorem State.dmaStopSoon_of_idle (hrun : (s.chan c).run = none) (err : Nat) : s.dmaStopSoon c err = s.dmaStop c err := by
  simp [State.dmaStopSoon, hrun]

/-- Whether TAIL points past the ring rests on the channel's DMA_CH_CFG and DMA_CH_TAIL alone. -/
theorem SameRegs.dmaBadTail {l : List Nat} {t : State} (h : SameRegs l s t) (hcfg : R.DMA_CH_CFG c ∉ l)
    (htail : R.DMA_CH_TAIL c ∉ l) : t.dmaBadTail c = s.dmaBadTail c := by
  rw [State.dmaBadTail, State.dmaN, State.flag, h.get (F.DMA_CH_CFG_SRC c) hcfg, h.get (F.DMA_CH_CFG_LOG2N c) hcfg,
    h.get (F.DMA_CH_TAIL_TAIL c) htail]
  rfl

end

/-! ### TAIL (R351, R354) -/

section
variable {s : State} {c : DmaCh} {v : Word}

/-- The state in which the channel's TAIL has been written. -/
def State.tailed (s : State) (c : Nat) (v : Word) : State := s.put (F.DMA_CH_TAIL_TAIL c) (v.toNat % 65536)

theorem State.tailed_tail (s : State) (c : Nat) (v : Word) :
    (s.tailed c v).get (F.DMA_CH_TAIL_TAIL c) = v.toNat % 65536 := State.get_put_of_lt _ (by simp) (Nat.mod_lt _ (by simp))

theorem State.tailed_sameRegs (s : State) (c : Nat) (v : Word) : SameRegs [R.DMA_CH_TAIL c] s (s.tailed c v) :=
  s.put_sameRegs (F.DMA_CH_TAIL_TAIL c) _

/-- A field of the channel's configuration or status is as it was. -/
theorem State.tailed_get (s : State) {c : Nat} {f : Fld} (hf : f.addr ≠ R.DMA_CH_TAIL c) (v : Word) :
    (s.tailed c v).get f = s.get f := s.get_put_reg _ f _ hf

theorem State.tailed_dmaBadTail (s : State) {c : Nat} (hsrc : s.flag (F.DMA_CH_CFG_SRC c) = false) (v : Word) :
    (s.tailed c v).dmaBadTail c = decide (s.dmaN c ≤ v.toNat % 65536) := by
  rw [State.flag] at hsrc
  rw [State.dmaBadTail, State.dmaN, State.flag, s.tailed_get (f := F.DMA_CH_CFG_SRC c) (by simp), hsrc,
    s.tailed_get (f := F.DMA_CH_CFG_LOG2N c) (by simp), s.tailed_tail, Bool.not_false, Bool.true_and, State.dmaN]

theorem exec_dmaChTailWrite_stored (ha : s.access (R.DMA_CH_TAIL c) = true)
    (h : s.flag (F.DMA_CH_CFG_EN c) = false ∨ s.flag (F.DMA_CH_CFG_SWPACE c) = true ∨ s.flag (F.DMA_CH_CFG_SRC c) = true) :
    exec (.dmaChTailWrite c v) s = .next (s.tailed c v) := by
  refine congrArg Host.Outcome.next ((State.whenever_pos s _ _ ha).trans (if_pos ?_))
  rw [s.flag_put_reg _ _ _ (by simp), s.flag_put_reg _ _ _ (by simp), s.flag_put_reg _ _ _ (by simp)]
  rcases h with h | h | h <;> simp [h]

/-- On an enabled ring channel the write stops the channel, or lets its next descriptor start. -/
theorem exec_dmaChTailWrite_ring (ha : s.access (R.DMA_CH_TAIL c) = true) (hen : s.flag (F.DMA_CH_CFG_EN c) = true)
    (hsw : s.flag (F.DMA_CH_CFG_SWPACE c) = false) (hsrc : s.flag (F.DMA_CH_CFG_SRC c) = false)
    (hstate : s.get (F.DMA_CH_STAT_STATE c) ≠ 3) :
    exec (.dmaChTailWrite c v) s =
      .next (if s.dmaN c ≤ v.toNat % 65536 then (s.tailed c v).dmaStopSoon c 2 else (s.tailed c v).dmaNext c) := by
  have hbad := s.tailed_dmaBadTail hsrc v
  refine congrArg Host.Outcome.next ((State.whenever_pos s _ _ ha).trans ?_)
  simp only [State.tailed] at hbad ⊢
  simp [hbad, s.flag_put_reg, s.get_put_reg, hen, hsw, hsrc, hstate]

end

/-! ### CFG (R352) -/

section
variable {s : State} {c : DmaCh} {v : Word}

/-- What a write of DMA_CH_CFG stores: reserved bits are 0. -/
def cfgWord (v : Word) : Word := v &&& 0xF8FF1F1D#32

theorem cfgWord_enable (v : Word) : (cfgWord v).getLsbD 0 = v.getLsbD 0 := by simp [cfgWord]

theorem fieldOf_cfgWord_log2n (c : Nat) (v : Word) :
    fieldOf (F.DMA_CH_CFG_LOG2N c) (cfgWord v) = fieldOf (F.DMA_CH_CFG_LOG2N c) v := by
  have hmask : (0xF8FF1F1D#32).extractLsb' 8 5 = BitVec.allOnes 5 := by decide
  rw [fieldOf, cfgWord, BitVec.extractLsb'_and, hmask, BitVec.and_allOnes, fieldOf]

/-- The flag of a register's lowest bit. -/
theorem fieldOf_lowestBit (a : Nat) (w : Word) : fieldOf ⟨a, 0, 1⟩ w = (w.getLsbD 0).toNat := by
  rw [fieldOf_eq_div_mod, BitVec.getLsbD, Nat.toNat_testBit, pow_one]

theorem State.flag_enable_of_cfg {c : Nat} {w : Word} (h : s.reg (R.DMA_CH_CFG c) = w) :
    s.flag (F.DMA_CH_CFG_EN c) = w.getLsbD 0 := by
  rw [State.flag, State.get, h, fieldOf_lowestBit]
  cases w.getLsbD 0 <;> rfl

theorem exec_dmaChCfgWrite_rejected (ha : s.access (R.DMA_CH_CFG c) = true) (hen : s.flag (F.DMA_CH_CFG_EN c) = false)
    (hv : v.getLsbD 0 = true) (hn : within (fieldOf (F.DMA_CH_CFG_LOG2N c) v) 4 16 = false) :
    exec (.dmaChCfgWrite c v) s = .next (s.put (F.DMA_CH_STAT_VALUE_REJ c) 1) := by
  refine congrArg Host.Outcome.next ((State.whenever_pos s _ _ ha).trans ?_)
  rw [← fieldOf_cfgWord_log2n] at hn
  rw [← cfgWord_enable] at hv
  simp only [cfgWord] at hn hv
  simp only [hen, hv, hn, Bool.false_eq_true, ↓reduceIte, Bool.not_false]

/-- A channel whose budget is whole in a window (R353). -/
def DmaChan.renewed (ch : DmaChan) (window : Nat) : DmaChan := { ch with spent := 0, first := true, window := window }

/-- The channel that a write of EN has just enabled. -/
def State.dmaEnabled (s : State) (c : Nat) (w : Word) : State :=
  (((((s.setReg (R.DMA_CH_CFG c) w).put (F.DMA_CH_STAT_CIDX c) 0).modChan c (DmaChan.renewed · (s.dt / 1000))).put
    (F.DMA_CH_TAIL_TAIL c) 0).put (F.DMA_CH_STAT_ERR c) 0).put (F.DMA_CH_STAT_STATE c) 1

theorem State.dmaEnabled_status (s : State) (c : Nat) (w : Word) :
    (s.dmaEnabled c w).get (F.DMA_CH_STAT_CIDX c) = 0 ∧ (s.dmaEnabled c w).get (F.DMA_CH_TAIL_TAIL c) = 0 ∧
    (s.dmaEnabled c w).get (F.DMA_CH_STAT_ERR c) = 0 ∧ (s.dmaEnabled c w).get (F.DMA_CH_STAT_STATE c) = 1 := by
  refine ⟨?_, ?_, ?_, ?_⟩ <;> simp [State.dmaEnabled, State.get_put_disjoint, State.get_put_self]

theorem State.dmaEnabled_sameRegs (s : State) (c : Nat) (w : Word) :
    SameRegs [R.DMA_CH_CFG c, R.DMA_CH_TAIL c, R.DMA_CH_STAT c] s (s.dmaEnabled c w) := by
  have hcfg := (s.setReg_sameRegs (R.DMA_CH_CFG c) w).mono (m := [R.DMA_CH_CFG c, R.DMA_CH_TAIL c, R.DMA_CH_STAT c]) (by simp)
  exact ((((hcfg.put _ _ (by simp)).modChan c _).put _ _ (by simp)).put _ _ (by simp)).put _ _ (by simp)

theorem State.dmaEnabled_dmaWork (s : State) (c : Nat) (w : Word) : DmaWork s (s.dmaEnabled c w) :=
  ((((((DmaWork.refl s).setReg _ w).put _ 0).modChan c _).put _ 0).put _ 0).put _ 1

theorem State.dmaEnabled_cfg (s : State) (c : Nat) (w : Word) : (s.dmaEnabled c w).reg (R.DMA_CH_CFG c) = w := by
  simp [State.dmaEnabled, State.reg_put_other]

theorem State.dmaEnabled_chan (s : State) {c : Nat} (hc : c < 64) (w : Word) :
    (s.dmaEnabled c w).chan c = (s.chan c).renewed (s.dt / 1000) := by
  rw [State.dmaEnabled, State.put_chan, State.put_chan, State.put_chan, State.chan_modChan_self _ hc, State.put_chan,
    State.setReg_chan]

theorem exec_dmaChCfgWrite_enables (ha : s.access (R.DMA_CH_CFG c) = true) (hen : s.flag (F.DMA_CH_CFG_EN c) = false)
    (hv : v.getLsbD 0 = true) (hn : within (fieldOf (F.DMA_CH_CFG_LOG2N c) v) 4 16 = true) :
    exec (.dmaChCfgWrite c v) s = .next ((s.dmaEnabled c (cfgWord v)).dmaSync c) := by
  refine congrArg Host.Outcome.next ((State.whenever_pos s _ _ ha).trans ?_)
  rw [← fieldOf_cfgWord_log2n] at hn
  rw [← cfgWord_enable] at hv
  simp only [cfgWord] at hn hv
  simp only [hen, hv, hn, Bool.false_eq_true, ↓reduceIte, Bool.not_true, State.put_dt, State.setReg_dt]
  rfl

/-- It is IDLE: it has no descriptor of a command, makes no run, and its TAIL is its CIDX. -/
theorem State.dmaSync_dmaEnabled {c : Nat} (hc : c < 64) {w : Word} (hw : w.getLsbD 0 = true)
    (hhalt : s.flag F.DMA_STAT_HALT = false) (hrun : (s.chan c).run = none) (hqueue : (s.chan c).queue = [])
    (hend : (s.chan c).swEnd = none) :
    (s.dmaEnabled c w).dmaSync c = (s.dmaEnabled c w).put (F.DMA_CH_STAT_STATE c) 1 := by
  obtain ⟨hcidx, htail, -, hstate⟩ := s.dmaEnabled_status c w
  have hchan := s.dmaEnabled_chan hc w
  have hen : (s.dmaEnabled c w).flag (F.DMA_CH_CFG_EN c) = true := (State.flag_enable_of_cfg (s.dmaEnabled_cfg c w)).trans hw
  have hgoes : (s.dmaEnabled c w).flag F.DMA_STAT_HALT = false := by
    obtain ⟨hcfg, hstat, htail⟩ := dmaStat_ne c
    rw [State.flag, (s.dmaEnabled_sameRegs c w).get _ (by simp [hcfg, hstat, htail]), ← hhalt, State.flag]
  rw [State.dmaSync_of_enabled (by simp [hstate]) hen hgoes (by rw [hchan]; exact hrun),
    State.dmaWork_of_empty (by rw [hchan]; exact hqueue) (by rw [hchan]; exact hend) (htail.trans hcidx.symm)]
  rfl

/-- The channel whose EN a write has cleared while no descriptor of a command waits for it. -/
def State.dmaDisabled (s : State) (c : Nat) (w : Word) : State :=
  (((s.setReg (R.DMA_CH_CFG c) w).modChan c fun ch =>
    { ch with queue := [], fetched := [], swEnd := none, swInt := false, stop := 0 }).put (F.DMA_CH_STAT_STATE c) 0).modChan c
    fun ch => { ch with closing := ch.run.isSome }

theorem State.dmaDisabled_chan (s : State) {c : Nat} (hc : c < 64) (w : Word) : (s.dmaDisabled c w).chan c =
    { s.chan c with queue := [], fetched := [], swEnd := none, swInt := false, stop := 0, closing := (s.chan c).run.isSome } := by
  simp [State.dmaDisabled, State.chan_modChan_self _ hc]

theorem State.dmaDisabled_cfg (s : State) (c : Nat) (w : Word) : (s.dmaDisabled c w).reg (R.DMA_CH_CFG c) = w :=
  (State.reg_put_other _ (F.DMA_CH_STAT_STATE c) 0 _ (by simp)).trans (s.reg_setReg_self _ w)

theorem State.dmaDisabled_sameRegs (s : State) (c : Nat) (w : Word) :
    SameRegs [R.DMA_CH_CFG c, R.DMA_CH_STAT c] s (s.dmaDisabled c w) := by
  have hcfg := (s.setReg_sameRegs (R.DMA_CH_CFG c) w).mono (m := [R.DMA_CH_CFG c, R.DMA_CH_STAT c]) (by simp)
  exact ((hcfg.modChan c _).put _ _ (by simp)).modChan c _

theorem exec_dmaChCfgWrite_disables (ha : s.access (R.DMA_CH_CFG c) = true) (hen : s.flag (F.DMA_CH_CFG_EN c) = true)
    (hv : v.getLsbD 0 = false) (hfixed : dmaFixed (cfgWord v) = dmaFixed (s.reg (R.DMA_CH_CFG c)))
    (hqueue : (s.chan c).queue = []) : exec (.dmaChCfgWrite c v) s = .next ((s.dmaDisabled c (cfgWord v)).dmaSync c) := by
  refine congrArg Host.Outcome.next ((State.whenever_pos s _ _ ha).trans ?_)
  rw [← cfgWord_enable] at hv
  simp only [cfgWord] at hfixed hv
  simp only [hen, hfixed, hv, ne_eq, not_true_eq_false, Bool.false_eq_true, ↓reduceIte, State.dmaCancel, State.setReg_chan,
    hqueue, List.foldl_nil]
  rfl

end

/-! ### STOP, RESUME and START (R351, R352, R354) -/

section
variable {s : State} {c : DmaCh}

theorem exec_dmaChStop (ha : s.access (R.DMA_CH_CMD c) = true) (hen : s.flag (F.DMA_CH_CFG_EN c) = true)
    (hstate : s.get (F.DMA_CH_STAT_STATE c) ≠ 3) : exec (.dmaChStop c) s = .next (s.dmaStopSoon c 3) :=
  congrArg Host.Outcome.next (State.whenever_pos s _ _ (by simp [ha, hen, hstate]))

theorem State.dmaStopSoon_of_busy {r : DmaRun} (hrun : (s.chan c).run = some r) (err : Nat) :
    s.dmaStopSoon c err = s.modChan c fun ch => { ch with stop := if ch.stop = 0 then err else ch.stop } := by
  simp [State.dmaStopSoon, hrun]

/-- A stopped channel that RESUME has let go on. -/
def State.dmaResumed (s : State) (c : Nat) : State := (s.put (F.DMA_CH_STAT_STATE c) 1).put (F.DMA_CH_STAT_ERR c) 0

theorem State.dmaResumed_state (s : State) (c : Nat) :
    (s.dmaResumed c).get (F.DMA_CH_STAT_STATE c) = 1 ∧ (s.dmaResumed c).get (F.DMA_CH_STAT_ERR c) = 0 ∧
    (s.dmaResumed c).get (F.DMA_CH_STAT_CIDX c) = s.get (F.DMA_CH_STAT_CIDX c) := by
  refine ⟨?_, ?_, ?_⟩ <;> simp [State.dmaResumed, State.get_put_disjoint, State.get_put_self]

theorem State.dmaResumed_sameRegs (s : State) (c : Nat) : SameRegs [R.DMA_CH_STAT c] s (s.dmaResumed c) :=
  (s.put_sameRegs (F.DMA_CH_STAT_STATE c) 1).put _ _ (by simp)

theorem exec_dmaChResume (ha : s.access (R.DMA_CH_CMD c) = true) (hen : s.flag (F.DMA_CH_CFG_EN c) = true)
    (hstate : s.get (F.DMA_CH_STAT_STATE c) = 3) (hbad : s.dmaBadTail c = false) :
    exec (.dmaChResume c) s = .next ((s.dmaResumed c).dmaNext c) := by
  refine congrArg Host.Outcome.next ((State.whenever_pos s _ _ (by simp [ha, hen, hstate])).trans (if_neg ?_))
  have hgood := ((s.dmaResumed_sameRegs c).dmaBadTail (c := c) (by simp) (by simp)).trans hbad
  simp only [State.dmaResumed] at hgood
  simp [hgood]

theorem exec_dmaChStart_rejected (ha : s.access (R.DMA_CH_CMD c) = true) (hsw : s.flag (F.DMA_CH_CFG_SWPACE c) = false) :
    exec (.dmaChStart c) s = .next (s.put (F.DMA_CH_STAT_VALUE_REJ c) 1) :=
  congrArg Host.Outcome.next ((State.whenever_pos s _ _ ha).trans (if_pos (by simp [hsw])))

/-- The channel with a SWPACE run to an index. -/
def State.dmaPaced (s : State) (c tail : Nat) : State := s.modChan c fun ch => { ch with swEnd := some tail, swInt := false }

theorem State.dmaPaced_chan (s : State) {c : Nat} (hc : c < 64) (tail : Nat) :
    (s.dmaPaced c tail).chan c = { s.chan c with swEnd := some tail, swInt := false } := s.chan_modChan_self hc _

theorem exec_dmaChStart (ha : s.access (R.DMA_CH_CMD c) = true) (hen : s.flag (F.DMA_CH_CFG_EN c) = true)
    (hsw : s.flag (F.DMA_CH_CFG_SWPACE c) = true) (hsrc : s.flag (F.DMA_CH_CFG_SRC c) = false) (hend : (s.chan c).swEnd = none)
    (hbad : s.dmaBadTail c = false) :
    exec (.dmaChStart c) s = .next ((s.dmaPaced c (s.get (F.DMA_CH_TAIL_TAIL c))).dmaNext c) := by
  refine congrArg Host.Outcome.next ((State.whenever_pos s _ _ ha).trans ((if_neg ?_).trans (if_neg ?_)))
  · simp [hen, hsw, hsrc, hend]
  · simp [hbad]

/-- With descriptors left and none fetched, the run shows ACTIVE. -/
theorem State.dmaNext_dmaPaced (hen : s.flag (F.DMA_CH_CFG_EN c) = true) (hsw : s.flag (F.DMA_CH_CFG_SWPACE c) = true)
    (hsrc : s.flag (F.DMA_CH_CFG_SRC c) = false) (hstate : s.get (F.DMA_CH_STAT_STATE c) ≠ 3)
    (hhalt : s.flag F.DMA_STAT_HALT = false) (hrun : (s.chan c).run = none) (hfetched : (s.chan c).fetched = []) {tail : Nat}
    (hwork : tail ≠ s.get (F.DMA_CH_STAT_CIDX c)) :
    (s.dmaPaced c tail).dmaNext c = (s.dmaPaced c tail).put (F.DMA_CH_STAT_STATE c) 2 := by
  have hchan := s.dmaPaced_chan c.isLt tail
  have hleft : tail ≠ (s.dmaPaced c tail).get (F.DMA_CH_STAT_CIDX c) := by simpa [State.dmaPaced] using hwork
  rw [State.dmaNext_of_unfetched (s := s.dmaPaced c tail) hsrc (by rw [hchan]; exact hfetched) (by rw [hchan]; simpa using hleft),
    State.dmaSync_of_enabled (s := s.dmaPaced c tail) hstate hen hhalt (by rw [hchan]; exact hrun),
    State.dmaWork_of_swpace (s := s.dmaPaced c tail) hsw hsrc (congrArg DmaChan.swEnd hchan), if_pos (by simpa using hleft)]

end

/-- Settles O37: each command by the state it leaves, whose STATE shows what the channel then has to do. -/
theorem dmaChannelRegisters : Obligations.DmaChannelRegisters := by
  unfold Obligations.DmaChannelRegisters
  refine ⟨?stored, ?ring, ?badTail, ?enables, ?rejected, ?disables, ?stops, ?stopsSoon, ?resumes, ?starts, ?notPaced⟩
  case stored =>
    exact fun c v s ha h => ⟨_, exec_dmaChTailWrite_stored ha h, s.tailed_tail c v, s.tailed_sameRegs c v, rfl⟩
  case ring =>
    intro c v s ha hen hsw hsrc hlt hstate hhalt hrun hfetched hend
    have hw : (s.tailed c v).RingWaits c := State.RingWaits.put ⟨hen, hsw, hsrc, hhalt, hrun, hfetched, hend⟩ (.inl rfl) _
    have hexec := exec_dmaChTailWrite_ring (v := v) ha hen hsw hsrc hstate
    rw [if_neg (not_le.2 hlt), hw.dmaNext (by rwa [s.tailed_get (by simp)]), s.tailed_tail, s.tailed_get (by simp)] at hexec
    refine ⟨_, hexec, ?_, State.get_put_of_lt _ (by simp) (by split <;> simp), ?_, rfl⟩
    · rw [State.get_put_reg _ _ _ _ (by simp), s.tailed_tail]
    · exact ((s.tailed_sameRegs c v).mono (by simp)).put _ _ (by simp)
  case badTail =>
    intro c v s ha hen hsw hsrc hle hstate hrun
    have hexec := exec_dmaChTailWrite_ring (v := v) ha hen hsw hsrc hstate
    rw [if_pos hle, State.dmaStopSoon_of_idle (s := s.tailed c v) hrun] at hexec
    obtain ⟨hstopped, herr, hfetched, hregs, hwork⟩ := (s.tailed c v).dmaStop_stopped c.isLt (err := 2) (by decide)
    exact ⟨_, hexec, hstopped, herr, hfetched, ((s.tailed_sameRegs c v).mono (by simp)).trans (hregs.mono (by simp)),
      ((DmaWork.refl s).put _ _).trans hwork⟩
  case enables =>
    intro c v s ha hen hv hn hhalt hrun hqueue hend
    have hexec := exec_dmaChCfgWrite_enables ha hen hv hn
    rw [State.dmaSync_dmaEnabled c.isLt ((cfgWord_enable v).trans hv) hhalt hrun hqueue hend] at hexec
    obtain ⟨hcidx, htail, herr, -⟩ := s.dmaEnabled_status c (cfgWord v)
    refine ⟨_, hexec, ?_, ?_, ?_, ?_, State.get_put_of_lt _ (by simp) (by simp), ?_,
      (s.dmaEnabled_sameRegs c _).put _ _ (by simp), (s.dmaEnabled_dmaWork c _).put _ _⟩
    · exact (State.reg_put_other _ _ _ _ (by simp)).trans (s.dmaEnabled_cfg c _)
    · exact (State.get_put_disjoint _ _ _ _ (by simp)).trans hcidx
    · exact (State.get_put_disjoint _ _ _ _ (by simp)).trans htail
    · exact (State.get_put_disjoint _ _ _ _ (by simp)).trans herr
    · exact (State.put_chan ..).trans (s.dmaEnabled_chan c.isLt _)
  case rejected =>
    exact fun c v s ha hen hv hn => ⟨_, exec_dmaChCfgWrite_rejected ha hen hv hn, s.put_flag (by simp) rfl⟩
  case disables =>
    intro c v s ha hen hv hfixed hrun hqueue
    have hoff : (s.dmaDisabled c (cfgWord v)).flag (F.DMA_CH_CFG_EN c) = false :=
      (State.flag_enable_of_cfg (s.dmaDisabled_cfg c _)).trans ((cfgWord_enable v).trans hv)
    have hchan := s.dmaDisabled_chan c.isLt (cfgWord v)
    have hexec := exec_dmaChCfgWrite_disables ha hen hv hfixed hqueue
    rw [State.dmaSync_of_disabled hoff (by rw [hchan]; exact hrun)] at hexec
    exact ⟨_, hexec, (State.reg_put_other _ _ _ _ (by simp)).trans (s.dmaDisabled_cfg c _),
      State.get_put_of_lt _ (by simp) (by simp), congrArg DmaChan.fetched hchan, (s.dmaDisabled_sameRegs c _).put _ _ (by simp), rfl⟩
  case stops =>
    intro c s ha hen hstate hrun
    exact ⟨_, (exec_dmaChStop ha hen hstate).trans (congrArg _ (State.dmaStopSoon_of_idle hrun 3)),
      s.dmaStop_stopped c.isLt (by decide)⟩
  case stopsSoon =>
    intro c r s ha hen hstate hrun hstop
    exact ⟨_, (exec_dmaChStop ha hen hstate).trans (congrArg _ (State.dmaStopSoon_of_busy hrun 3)),
      (s.chan_modChan_self c.isLt _).trans (by simp [hstop]), (SameRegs.refl _ s).modChan _ _, rfl⟩
  case resumes =>
    intro c s ha hen hstate hsw hsrc hbad hhalt hrun hfetched hend
    obtain ⟨hidle, herr, hcidx⟩ := s.dmaResumed_state c
    have hw : (s.dmaResumed c).RingWaits c :=
      ((State.RingWaits.mk hen hsw hsrc hhalt hrun hfetched hend).put (.inr rfl) _).put (.inr rfl) _
    have hexec := exec_dmaChResume ha hen hstate hbad
    rw [hw.dmaNext (by simp [hidle]), (s.dmaResumed_sameRegs c).get _ (by simp), hcidx] at hexec
    exact ⟨_, hexec, (State.get_put_disjoint _ _ _ _ (by simp)).trans herr,
      State.get_put_of_lt _ (by simp) (by split <;> simp), (s.dmaResumed_sameRegs c).put _ _ (by simp), rfl⟩
  case starts =>
    intro c s ha hen hsw hsrc hend hbad hstate hhalt hrun hfetched hwork
    have hexec := exec_dmaChStart ha hen hsw hsrc hend hbad
    rw [State.dmaNext_dmaPaced hen hsw hsrc hstate hhalt hrun hfetched hwork] at hexec
    exact ⟨_, hexec, congrArg DmaChan.swEnd (s.dmaPaced_chan c.isLt _), State.get_put_of_lt _ (by simp) (by simp),
      ((SameRegs.refl _ s).modChan c _).put _ _ (by simp), rfl⟩
  case notPaced => exact fun c s ha hsw => ⟨_, exec_dmaChStart_rejected ha hsw, s.put_flag (by simp) rfl⟩

end Sys2Proof.Machine
end

section
/-! PROOFS. A descriptor fetch that finds the channel's window spent (R351, R353): the statement on the engine's moves and completions is
refuted. -/

namespace Sys2Proof.Machine

/-- SETUP at DT 0, the link up at its slowest. Channel 2 of the PF is an enabled ring channel of the smallest share, whose ring of 16
entries stands at host address 0 and holds descriptors up to entry 3. -/
def slowChannel : State :=
  (((({ State.reset with mode := .setup, pcie := { speed := 1, width := 1, bme := [0] } } : State).put F.Q_STAT_LINKUP 1).put
    (F.DMA_CH_CFG_RATE 2) 0).put (F.DMA_CH_CFG_EN 2) 1).put (F.DMA_CH_TAIL_TAIL 2) 3

/-- A descriptor with its OWN bit set (Table 14-1). -/
def ownedDescriptor : List Byte := List.replicate 31 0 ++ [0x80]

/-- One without OWN came first and stopped the channel; RESUME has let it go on, in the same window. -/
def resumedChannel : State := dmaChResume 2 (dmaDescFetch 2 [List.replicate 32 0] slowChannel)

theorem resumedChannel_fetchDue : resumedChannel.dmaFetchDue 2 = true := by decide +kernel

/-- The first fetch was charged at its 96 bytes, which is more than the window's budget: the second fetch waits. -/
theorem dmaDescFetch_resumedChannel : ((dmaDescFetch 2 [ownedDescriptor] resumedChannel).chan 2).run = none := by decide +kernel

/-- Refutes O38 in its clause on a fetched descriptor with OWN, which claims that it starts on every idle channel whose fetch is due. A
descriptor fetch is a read request, which is charged to the channel's pacing window (R353) and needs room in the reorder buffer
(R347): one that does not fit in what is left of the window is not made. The state comes of a fetch of a descriptor without OWN
and RESUME. -/
theorem not_dmaMovesAndCompletes : ¬ Obligations.DmaMovesAndCompletes := by
  unfold Obligations.DmaMovesAndCompletes
  rintro ⟨howned, -⟩
  obtain ⟨t, hexec, hrun, -⟩ := howned 2 ownedDescriptor resumedChannel resumedChannel_fetchDue (by decide +kernel) (by decide +kernel)
    (by decide +kernel) (by decide +kernel) (by decide)
  obtain rfl : dmaDescFetch 2 [ownedDescriptor] resumedChannel = t := Host.Outcome.next.inj hexec
  have hidle := dmaDescFetch_resumedChannel
  simp [hidle] at hrun

end Sys2Proof.Machine
end

section
/-! PROOFS. A failing descriptor whose completion a monitor samples (R295, R363): the statement on halt and restart is refuted. -/

namespace Sys2Proof.Machine

/-- The host copy of channel 2 under way, and monitor 0 enabled for the time that channel 2's descriptors take (Table 11-4). -/
def sampledCopy : State :=
  ((hostReadOutstanding.put (F.MON_CFG_SRC 0) 5).put (F.MON_CFG_SEL 0) 2).put (F.MON_CFG_EN 0) 1

/-- Its source read has failed: the engine has halted. -/
def sampledCopyHalted : State := dmaHalt (.read 0) false [] sampledCopy

/-- The engine settles, and the descriptor completes: one sample waits for the monitor. -/
theorem dmaSettled_sampledCopyHalted : (dmaSettled sampledCopyHalted).samples = [(0, 0, 0)] := by decide +kernel

theorem sampledCopyHalted_samples : sampledCopyHalted.samples = [] := by decide +kernel

/-- Refutes O39 in its clause on the failing descriptor, which claims that registers, the engine and host memory are all that differs.
The descriptor completes at the settling, and the time it took is a sample for every monitor that watches its channel (R295,
Table 11-4). The state comes of a read that fails. -/
theorem not_dmaHaltsAndRestarts : ¬ Obligations.DmaHaltsAndRestarts := by
  unfold Obligations.DmaHaltsAndRestarts
  rintro ⟨-, -, -, hfailing, -⟩
  obtain ⟨t, hexec, -, -, -, -, -, -, hframe⟩ := hfailing 2 hostCopyRun sampledCopyHalted (by decide +kernel) (by decide +kernel)
    (by decide +kernel) (by decide +kernel) (by decide +kernel) (by decide) (by decide +kernel) (by decide) (by decide +kernel)
    (by decide +kernel)
  obtain rfl : dmaSettled sampledCopyHalted = t := Host.Outcome.next.inj hexec
  have hsamples : (dmaSettled sampledCopyHalted).samples = sampledCopyHalted.samples := by rw [hframe]
  rw [dmaSettled_sampledCopyHalted, sampledCopyHalted_samples] at hsamples
  simp at hsamples

end Sys2Proof.Machine
end

section
/-! PROOFS. What every step keeps: the canonical form of the stores, and the front of the queue. -/

namespace Sys2Proof.Machine

/-- A clock cycle and every command keep the stores canonical. -/
theorem step_keeps_wf {s t : State} (hs : s.Wf) (h : step s = .next t) : t.Wf := by
  unfold step at h
  split at h
  · next c rest _ =>
    obtain ⟨u, hu, hk⟩ := exec_keeps c { s with pending := rest }
    obtain rfl : u = t := Host.Outcome.next.inj (hu.symm.trans h)
    exact hk.wf ⟨hs.regs, hs.dram, hs.nvm, hs.host⟩
  · obtain rfl : clockTick s = t := Host.Outcome.next.inj h
    exact (clockTick_keeps (kp := anyPart) .rfl).wf hs

/-- Settles O53: a step is a command, which is in `Keeps` by its own law, or a clock cycle, which is too. -/
theorem storesStayCanonicalInEveryStep : Obligations.StoresStayCanonicalInEveryStep := by
  unfold Obligations.StoresStayCanonicalInEveryStep
  exact fun s t hs h => step_keeps_wf hs h

/-- Settles O54: the command at the front acts on the state with the queue's rest, by the definition of a step. -/
theorem stepTakesTheFrontCommand : Obligations.StepTakesTheFrontCommand := by
  unfold Obligations.StepTakesTheFrontCommand
  exact fun c l s => rfl

end Sys2Proof.Machine
end

section
/-! PROOFS. Which commands change the mode (R402) and which write the NVM (R389, R430, R433, R441): the statements on them. -/

namespace Sys2Proof.Machine

/-- Every part may change but the mode, and Device Time may go back. -/
def partsBesideMode : Parts := ⟨false, true, true, true, true⟩

theorem partsBesideMode_cover {i : Instr} (hi : mayChangeMode i = false) : partsBesideMode.Cover i :=
  ⟨fun h => by simp [hi] at h, rfl, fun _ => rfl, fun _ => rfl, fun _ => rfl⟩

/-- Settles O57: the law of a command outside the list leaves the mode as it was. -/
theorem onlyTheseCommandsChangeTheMode : Obligations.OnlyTheseCommandsChangeTheMode := by
  unfold Obligations.OnlyTheseCommandsChangeTheMode
  intro i s t ht hmode
  by_contra hi
  obtain ⟨u, hu, hk⟩ := exec_keeps_of_cover i s (partsBesideMode_cover (by simpa using hi))
  obtain rfl : u = t := Host.Outcome.next.inj (hu.symm.trans ht)
  exact hmode (hk.mode rfl)

/-- Every part may change but the NVM, and Device Time may go back. -/
def partsBesideNvm : Parts := ⟨true, true, false, true, true⟩

theorem partsBesideNvm_cover {i : Instr} (hi : mayWriteNvm i = false) : partsBesideNvm.Cover i :=
  ⟨fun _ => rfl, rfl, fun h => by simp [hi] at h, fun _ => rfl, fun _ => rfl⟩

/-- Settles O58: the law of a command outside the list leaves the NVM as it was, and so every byte of it. -/
theorem onlyTheseCommandsWriteTheNvm : Obligations.OnlyTheseCommandsWriteTheNvm := by
  unfold Obligations.OnlyTheseCommandsWriteTheNvm
  rintro i s t ht ⟨a, ha⟩
  by_contra hi
  obtain ⟨u, hu, hk⟩ := exec_keeps_of_cover i s (partsBesideNvm_cover (by simpa using hi))
  obtain rfl : u = t := Host.Outcome.next.inj (hu.symm.trans ht)
  exact ha (by rw [State.nvmByte, State.nvmByte, hk.nvm rfl])

end Sys2Proof.Machine
end

section
/-! PROOFS. The state after RESET (R115, R403, R442): the statement on it. -/

namespace Sys2Proof.Machine

/-- Nothing is stored yet, so every store is in its canonical form. -/
theorem State.reset_wf : State.reset.Wf := ⟨rfl, rfl, rfl, rfl⟩

/-- Settles O52: nothing is stored, and each named field is evaluated from the reset word of its register. -/
theorem resetStateIsAsTheSpecSays : Obligations.ResetStateIsAsTheSpecSays := by
  unfold Obligations.ResetStateIsAsTheSpecSays
  refine ⟨rfl, rfl, rfl, rfl, rfl, rfl, rfl, rfl, rfl, State.reset_wf, by decide, by decide, by decide, by decide, by decide,
    by decide, by decide, by decide⟩

end Sys2Proof.Machine
end

section
/-! PROOFS. A fatal fault while completions wait (R345, R370): the statement on fault reports is refuted. -/

namespace Sys2Proof.Machine

/-- An FA of the NVM (source 47), whose reaction is SAFE. -/
def nvmFatal : Report := { source := 47, cls := .fa, detail := 0 }

theorem nvmFatal_recorded :
    signallingCopyEnded.up = true ∧ (signallingCopyEnded.judged (some nvmFatal) 0).dependentReports = [] ∧
      firstReport (signallingCopyEnded.judged (some nvmFatal) 0).inbox = some nvmFatal ∧
      (signallingCopyEnded.judged (some nvmFatal) 0).recordedClass nvmFatal.source (classCode nvmFatal.cls) = 2 := by
  decide

/-- The way into SAFE posts the completion that waits, and its message. -/
theorem faultReport_nvmFatal_host :
    (faultReport (some nvmFatal) 0 signallingCopyEnded).hostByte 0xFEE00000 ≠ signallingCopyEnded.hostByte 0xFEE00000 := by
  decide +kernel

/-- Refutes O40 in its clause on an FA of sources 44 to 55, which claims that host memory stays as it was. The reaction is SAFE, and the
way into SAFE posts the completions of what has ended (R345): here that of a DMA_COPY, with its message. The state comes of
DMA_COPY and its end, and the report is one that the machine takes in any mode outside RESET. -/
theorem not_faultReportsAreRecordedOrCounted : ¬ Obligations.FaultReportsAreRecordedOrCounted := by
  unfold Obligations.FaultReportsAreRecordedOrCounted
  rintro ⟨-, -, hfatal, -⟩
  obtain ⟨hup, hdependent, hfirst, hclass⟩ := nvmFatal_recorded
  obtain ⟨u, hexec, -, hhost, -⟩ := hfatal (some nvmFatal) 0 nvmFatal signallingCopyEnded hup hdependent hfirst hclass (by decide)
  obtain rfl : faultReport (some nvmFatal) 0 signallingCopyEnded = u := Host.Outcome.next.inj hexec
  exact faultReport_nvmFatal_host (by rw [State.hostByte, State.hostByte, hhost])

end Sys2Proof.Machine
end

section
/-! PROOFS. A force of no class (R378): the statement on software's fault registers is refuted. -/

namespace Sys2Proof.Machine

/-- SETUP after reset, with FC_CTRL.FCLASS 3, which names none of the three classes. -/
def classlessForce : State := ({ State.reset with mode := .setup } : State).put F.FC_CTRL_FCLASS 3

theorem classlessForce_takes :
    classlessForce.access R.FC_FORCE_LO = true ∧ named false 1 = [0] ∧ classlessForce.isRetired 0 = false ∧
      classlessForce.ceExpire.rootOf 0 = none := by decide

theorem classlessForce_recordedClass : classlessForce.ceExpire.recordedClass 0 (classlessForce.get F.FC_CTRL_FCLASS) = 3 := by
  decide

/-- A source has three flags, of classes 0 to 2, and none for class 3. -/
theorem faultForce_classlessForce_unack : (faultForce false 1 classlessForce).unack 0 3 = false := by decide

/-- Refutes O41 in its clause on forcing a source that depends on no root, which claims that the flag of the recorded class then reads 1
whatever FC_CTRL.FCLASS holds. FCLASS has two bits, and its fourth value names no class and has no flag. A write of that value
is refused, so no run of the machine holds it, but the clause has no premise that excludes it. -/
theorem not_faultSoftwareAndRestore : ¬ Obligations.FaultSoftwareAndRestore := by
  unfold Obligations.FaultSoftwareAndRestore
  rintro ⟨-, -, -, -, -, hforce, -⟩
  obtain ⟨haccess, hnamed, hretired, hroot⟩ := classlessForce_takes
  obtain ⟨t, hexec, -, hunack, -⟩ := hforce false 1 0 classlessForce haccess hnamed (by decide) hretired hroot
  obtain rfl : faultForce false 1 classlessForce = t := Host.Outcome.next.inj hexec
  rw [classlessForce_recordedClass, faultForce_classlessForce_unack] at hunack
  exact Bool.false_ne_true hunack

end Sys2Proof.Machine
end

section
/-! PROOFS. A scrub pass whose request is merged (R396): the statement on maintenance and scrub is refuted. -/

namespace Sys2Proof.Machine

/-- SETUP after reset, SRAM scrub on, with a scrub of block 0 that waits. -/
def scrubQueued : State :=
  ({ State.reset with mode := .setup, churnQueue := [{ act := .m8, res := 0 }] } : State).put F.MC_CFG_SSCRUB_EN 1

theorem scrubQueued_due : scrubQueued.scrubDue ((0 : Fin 32) : Nat) = true := by decide

/-- The request is merged with the one that waits, and no pass runs. -/
theorem churnRequest_scrubQueued : (churnRequest .m8 0 0 scrubQueued).churnRuns .m8 0 = false := by decide

/-- Refutes O42 in its clause on the request of a due scrub pass, which claims that the pass then runs in every state. A request whose
resource has the same activity waiting is merged with it (R396), as the first clause says of the other
activities. Scrub stands behind no activity (Table 15-6), so no run of the machine has a scrub that waits, but the clause has no
premise that excludes it. -/
theorem not_churnAndScrub : ¬ Obligations.ChurnAndScrub := by
  unfold Obligations.ChurnAndScrub
  rintro ⟨-, -, -, hscrub, -⟩
  obtain ⟨u, hexec, hruns, -⟩ := hscrub 0 0 scrubQueued scrubQueued_due
  obtain rfl : churnRequest .m8 0 0 scrubQueued = u := Host.Outcome.next.inj hexec
  exact absurd (churnRequest_scrubQueued.symm.trans hruns) (by decide)

end Sys2Proof.Machine
end

section
/-! PROOFS. A write of TH_CFG (R427): its three answers and the statement on them. -/

namespace Sys2Proof.Machine

/-- The values of R427: the thresholds in order, and the hysteresis in range. -/
def thCfgInRange (v : Word) : Bool :=
  60 ≤ fieldOf F.TH_CFG_WARN v && fieldOf F.TH_CFG_WARN v ≤ fieldOf F.TH_CFG_THR v &&
    fieldOf F.TH_CFG_THR v + 5 ≤ fieldOf F.TH_CFG_SHUT v && fieldOf F.TH_CFG_SHUT v ≤ 115 &&
    1 ≤ fieldOf F.TH_CFG_HYST v && fieldOf F.TH_CFG_HYST v ≤ 10

/-- A write raises one of the three thresholds. -/
def State.thCfgRaises (s : State) (v : Word) : Prop :=
  s.get F.TH_CFG_WARN < fieldOf F.TH_CFG_WARN v ∨ s.get F.TH_CFG_THR < fieldOf F.TH_CFG_THR v ∨
    s.get F.TH_CFG_SHUT < fieldOf F.TH_CFG_SHUT v

/-- TH_CFG with the four written fields. -/
def State.thCfgStored (s : State) (v : Word) : State :=
  (((s.put F.TH_CFG_WARN (fieldOf F.TH_CFG_WARN v)).put F.TH_CFG_THR (fieldOf F.TH_CFG_THR v)).put F.TH_CFG_SHUT
    (fieldOf F.TH_CFG_SHUT v)).put F.TH_CFG_HYST (fieldOf F.TH_CFG_HYST v)

theorem thCfgInRange_iff (v : Word) : thCfgInRange v = true ↔
    60 ≤ fieldOf F.TH_CFG_WARN v ∧ fieldOf F.TH_CFG_WARN v ≤ fieldOf F.TH_CFG_THR v ∧
      fieldOf F.TH_CFG_THR v + 5 ≤ fieldOf F.TH_CFG_SHUT v ∧ fieldOf F.TH_CFG_SHUT v ≤ 115 ∧
      1 ≤ fieldOf F.TH_CFG_HYST v ∧ fieldOf F.TH_CFG_HYST v ≤ 10 := by
  simp only [thCfgInRange, Bool.and_eq_true, decide_eq_true_eq, and_assoc]

section
variable {v : Word} {s : State}

/-- TH_CFG lies in the AON domain, which answers in every mode but RESET (R452). -/
theorem access_thCfg (hm : s.mode ≠ .reset) : s.access R.TH_CFG = true := by
  have haddr : R.TH_CFG < 0x50000 := by decide
  simp [State.access, State.up, hm, haddr]

theorem exec_thCfgWrite_rejected (hm : s.mode ≠ .reset) (hv : thCfgInRange v = false) :
    exec (.thCfgWrite v) s = .next (s.put F.TH_STAT_VALUE_REJ 1) := by
  have hbad : (!thCfgInRange v) = true := by simp [hv]
  show Host.Outcome.next (thCfgWrite v s) = _
  rw [thCfgWrite, State.whenever_pos _ _ _ (access_thCfg hm)]
  exact congrArg _ (if_pos hbad)

theorem exec_thCfgWrite_refused (hm : s.mode ≠ .reset) (hv : thCfgInRange v = true) (hd : s.mode ≠ .dormant) (hs : s.mode ≠ .setup)
    (hr : s.thCfgRaises v) : exec (.thCfgWrite v) s = .next (s.put F.TH_STAT_DIRECT_REFUSED 1) := by
  have hgood : ¬ (!thCfgInRange v) = true := by simp [hv]
  show Host.Outcome.next (thCfgWrite v s) = _
  rw [thCfgWrite, State.whenever_pos _ _ _ (access_thCfg hm)]
  exact congrArg _ ((if_neg hgood).trans (if_pos ⟨hr, hd, hs⟩))

theorem exec_thCfgWrite_stored (hm : s.mode ≠ .reset) (hv : thCfgInRange v = true)
    (hr : s.mode = .dormant ∨ s.mode = .setup ∨ ¬ s.thCfgRaises v) : exec (.thCfgWrite v) s = .next (s.thCfgStored v) := by
  have hgood : ¬ (!thCfgInRange v) = true := by simp [hv]
  have hmay : ¬ (s.thCfgRaises v ∧ s.mode ≠ .dormant ∧ s.mode ≠ .setup) := by tauto
  show Host.Outcome.next (thCfgWrite v s) = _
  rw [thCfgWrite, State.whenever_pos _ _ _ (access_thCfg hm)]
  exact congrArg _ ((if_neg hgood).trans (if_neg hmay))

/-- The field that a put of a word's field sets reads that field. -/
theorem State.get_put_fieldOf (s : State) (f : Fld) (v : Word) (hf : f.lo + f.w ≤ 32) : (s.put f (fieldOf f v)).get f = fieldOf f v :=
  s.get_put_of_lt hf (fieldOf_lt f v)

theorem thCfgStored_fields (s : State) (v : Word) :
    (s.thCfgStored v).get F.TH_CFG_WARN = fieldOf F.TH_CFG_WARN v ∧ (s.thCfgStored v).get F.TH_CFG_THR = fieldOf F.TH_CFG_THR v ∧
      (s.thCfgStored v).get F.TH_CFG_SHUT = fieldOf F.TH_CFG_SHUT v ∧
      (s.thCfgStored v).get F.TH_CFG_HYST = fieldOf F.TH_CFG_HYST v := by
  simp [State.thCfgStored, State.get_put_fieldOf, State.get_put_disjoint]

theorem thCfgStored_sameRegs (s : State) (v : Word) : SameRegs [R.TH_CFG] s (s.thCfgStored v) := by
  refine ((((SameRegs.refl _ s).put _ _ ?_).put _ _ ?_).put _ _ ?_).put _ _ ?_ <;> simp

end

/-- Settles O43: the three answers of a write of TH_CFG are those of its range and of whether it raises a threshold. -/
theorem thermalLimitsAreGuarded : Obligations.ThermalLimitsAreGuarded := by
  unfold Obligations.ThermalLimitsAreGuarded
  refine ⟨fun v s hm h1 h2 h3 h4 h5 h6 hr => ?_, fun v s hm h1 h2 h3 h4 h5 h6 hd hs hr => ?_, fun v s hm hv => ?_⟩
  · have hin := (thCfgInRange_iff v).2 ⟨h1, h2, h3, h4, h5, h6⟩
    have hmay : s.mode = .dormant ∨ s.mode = .setup ∨ ¬ s.thCfgRaises v := by simpa [State.thCfgRaises] using hr
    obtain ⟨hwarn, hthr, hshut, hhyst⟩ := thCfgStored_fields s v
    exact ⟨_, exec_thCfgWrite_stored hm hin hmay, hwarn, hthr, hshut, hhyst, thCfgStored_sameRegs s v, rfl⟩
  · have hin := (thCfgInRange_iff v).2 ⟨h1, h2, h3, h4, h5, h6⟩
    exact ⟨_, exec_thCfgWrite_refused hm hin hd hs hr, rfl, (SameRegs.refl _ s).put _ _ (by simp)⟩
  · have hout : thCfgInRange v = false := by rw [← Bool.not_eq_true, thCfgInRange_iff]; omega
    exact ⟨_, exec_thCfgWrite_rejected hm hout, rfl, (SameRegs.refl _ s).put _ _ (by simp)⟩

end Sys2Proof.Machine
end

section
/-! PROOFS. DORMANT while a transaction waits on a head transfer (R65, R68): the statement on the mode commands is refuted. -/

namespace Sys2Proof.Machine

/-- A transfer of one bit, when cut, has captured no bit or one, and driven no more than one (log entry 80). -/
theorem State.hcpCut_of_len_one {s : State} {h : Nat} {x : HcpXfer} (code : Nat) (hx : (s.head h).hcp = some x) (hl : x.len = 1) :
    ∃ rx ∈ [[], [false], [true]], ∃ sent ∈ [0, 1], s.hcpCut h code = ({ s with freeCnt := s.freeCnt + 3 } : State).hcpEnd h rx sent code := by
  have hn : Config.freeValue s.freeCnt % 2 < 2 := Nat.mod_lt _ (by decide)
  have hm : Config.freeValue (s.freeCnt + 1) % 2 < 2 := Nat.mod_lt _ (by decide)
  simp only [State.hcpCut, hx, hl, State.freshUpTo, State.fresh]
  generalize Config.freeValue s.freeCnt % 2 = n at *
  generalize hv : Config.freeValue (s.freeCnt + 1 + 1) = v
  interval_cases n
  · generalize Config.freeValue (s.freeCnt + 1) % 2 = m at *
    exact ⟨[], by decide, m, by interval_cases m <;> decide, by simp [natBits]⟩
  · exact ⟨[v.testBit 0], by cases v.testBit 0 <;> decide, 1, by decide, by simp [natBits, Nat.mod_one]⟩

/-- SETUP, head port 0 enabled with a profile, its transfer set to one bit. The handle's registers name a write of HCP_CMD of the head
port to head 0, to be staged and committed under handle 1. -/
def portReady : State :=
  ((((((({ State.reset with mode := .setup } : State).modHead 0 fun u => { u with profile := some {} }).put (F.HP_CTRL_PORT_EN 0) 1).put
    (F.HCP_LEN_LEN 0) 1).setReg R.TXN_CCFG 0x00000001).put F.TXN_SHND_HANDLE 1).put F.TXN_SADDR_ADDR (R.HCP_CMD 0)).put F.TXN_SADDR_HEAD 0

/-- The transaction is opened, staged and committed: its write has begun the port's transfer, and waits for it. -/
def transferUnderWay : State := txnCommit 1 0 (txnStage 1 (txnOpen .pcie portReady))

theorem transferUnderWay_ready :
    transferUnderWay.access R.SYS_MODECMD = true ∧ transferUnderWay.flag F.SYS_MODESTAT_BUSY = false ∧
      transferUnderWay.mode = .setup := by decide

/-- The transaction's one head has seen no error yet. -/
theorem transferUnderWay_noError : ((transferUnderWay.txn 0).heads.map (·.err)) = [0] := by decide

/-- DORMANT from SETUP after head port 0 has been taken: the other ports, the banks, DRAM, and the mode. -/
def dormantRest (s : State) : State :=
  let s := [1, 2, 3, 4, 5, 6, 7].foldl (fun s h => s.dormantPort h) s
  let s := s.forEach 4 (fun _ => true) fun r s =>
    ((s.calAbort r).putValid r F.TC_STAT_REFOK 0).modBank r fun b => { b with refDue := none }
  s.dramSleep.modeTo .dormant 1

theorem modeDormant_of_setup {s : State} (ha : s.access R.SYS_MODECMD = true) (hb : s.flag F.SYS_MODESTAT_BUSY = false)
    (hm : s.mode = .setup) : modeDormant s = dormantRest ((s.cmdRes 1).dormantPort 0) := by
  rw [modeDormant, State.modeCmd, State.whenever_pos _ _ _ ha]
  have hports : List.range 8 = 0 :: [1, 2, 3, 4, 5, 6, 7] := by decide
  simp only [hb, hm, ne_eq, not_true_eq_false, Bool.false_eq_true, if_false, dormantRest, State.forEach, if_true, hports, List.foldl_cons]

/-- Head port 0 of that state taken, once the transfer has been cut with the bits `rx` captured and `sent` bits driven. -/
def portTaken (rx : List Bool) (sent : Nat) : State :=
  let s := (transferUnderWay.cmdRes 1).hsupOff 0
  (((({ s with freeCnt := s.freeCnt + 3 } : State).hcpEnd 0 rx sent 7).modHead 0 fun u => { u with hdo := false }).modHead 0 fun u =>
    { u with drive := none, driveWait := none, bridge := .idle }).txnAfter (transferUnderWay.cmdRes 1) 0

theorem transferUnderWay_hcp : ∃ x, (((transferUnderWay.cmdRes 1).hsupOff 0).head 0).hcp = some x ∧ x.len = 1 := by
  have hlen : (((transferUnderWay.cmdRes 1).hsupOff 0).head 0).hcp.map (·.len) = some 1 := by decide
  simpa using hlen

theorem dormantPort_transferUnderWay : ∃ rx ∈ [[], [false], [true]], ∃ sent ∈ [0, 1],
    (transferUnderWay.cmdRes 1).dormantPort 0 = portTaken rx sent := by
  obtain ⟨x, hx, hl⟩ := transferUnderWay_hcp
  obtain ⟨rx, hrx, sent, hsent, hcut⟩ := State.hcpCut_of_len_one 7 hx hl
  refine ⟨rx, hrx, sent, hsent, ?_⟩
  rw [State.dormantPort, State.hcpStop, hcut, portTaken]

/-- The transfer is cut off with the heads' supplies, and the head that waited for it shows the failure. -/
theorem dormantRest_portTaken_error : ∀ rx ∈ [[], [false], [true]], ∀ sent ∈ [0, 1],
    ((dormantRest (portTaken rx sent)).txn 0).heads.map (·.err) = [7] := by decide +kernel

/-- Refutes O44 in its clause on DORMANT from SETUP, which claims that every transaction stays as it was. DORMANT ends a head port's
transfer under way (R65, R68), and the transaction that waits for the transfer takes its failure. The state comes of opening,
staging and committing a transaction in SETUP. -/
theorem not_modeCommandsAndTransitions : ¬ Obligations.ModeCommandsAndTransitions := by
  unfold Obligations.ModeCommandsAndTransitions
  rintro ⟨hdormant, -⟩
  obtain ⟨haccess, hbusy, hmode⟩ := transferUnderWay_ready
  obtain ⟨u, hexec, -, -, -, -, -, htxns, -⟩ := hdormant transferUnderWay haccess hbusy hmode
  obtain rfl : modeDormant transferUnderWay = u := Host.Outcome.next.inj hexec
  obtain ⟨rx, hrx, sent, hsent, hport⟩ := dormantPort_transferUnderWay
  have herr := dormantRest_portTaken_error rx hrx sent hsent
  rw [← hport, ← modeDormant_of_setup haccess hbusy hmode, State.txn, htxns] at herr
  exact absurd (transferUnderWay_noError.symm.trans herr) (by decide)

end Sys2Proof.Machine
end

section
/-! PROOFS. A power-fail sequence that ends a shutter event (R212, R417): the statement on SYS_STREAM, causes and RESET is refuted. -/

namespace Sys2Proof.Machine

/-- SETUP after reset, every rail at its nominal voltage, with an event of head 0's shutter that holds back a write of 0 to SYS_PWRSTAT
until it ends. -/
def writeHeldBack : State :=
  ({ State.reset with mode := .setup } : State).modShut 0 fun e => { e with active := true, deferred := [(R.SYS_PWRSTAT, 0)] }

theorem writeHeldBack_sequence :
    writeHeldBack.power.seq = false ∧ writeHeldBack.power.pfPin = false ∧ writeHeldBack.power.pfRail = false ∧
      writeHeldBack.railOk 12 = true := by decide

/-- The way into SAFE ends the event, and with it the write that was held back takes effect. -/
theorem resetEntry_rail_writeHeldBack : (resetEntry .rail writeHeldBack).get F.SYS_PWRSTAT_PFAIL = 0 := by decide +kernel

/-- Refutes O45 in its clause on a rail that asks for RESET, which claims that SYS_PWRSTAT.PFAIL reads 1 once the power-fail sequence has
started. The sequence enters SAFE, which ends every shutter event, and the end of an event lets the register writes held back
for it take effect (R212), at whatever address they name. Here that is SYS_PWRSTAT, which no held-back write of a run of the
machine names, but the clause has no premise that excludes it. -/
theorem not_streamsSafeCausesAndReset : ¬ Obligations.StreamsSafeCausesAndReset := by
  unfold Obligations.StreamsSafeCausesAndReset
  rintro ⟨-, -, -, -, -, -, hrail, -⟩
  obtain ⟨hseq, hpin, hpfRail, hgood⟩ := writeHeldBack_sequence
  obtain ⟨t, hexec, -, -, -, hpfail, -⟩ := hrail writeHeldBack (by decide) hseq hpin hpfRail hgood
  obtain rfl : resetEntry .rail writeHeldBack = t := Host.Outcome.next.inj hexec
  exact absurd (resetEntry_rail_writeHeldBack.symm.trans hpfail) (by decide)

end Sys2Proof.Machine
end

section
/-! PROOFS. A milk round whose sensors fail while a shutter event runs (R212, R426): the statement on rounds is refuted. -/

namespace Sys2Proof.Machine

/-- What the temperature of the NVM's sensor does to the interlock. -/
theorem State.nvTemperature_cases (s : State) :
    s.nvTemperature = s.put F.NV_STAT_ILK_TEMP 1 ∨ s.nvTemperature = s.put F.NV_STAT_ILK_TEMP 0 ∨ s.nvTemperature = s := by
  rw [State.nvTemperature]
  split_ifs <;> simp

/-- A round's end up to the NVM's temperature: the count, the readings, the self-check, and the NVM's turn. -/
def roundChecked (t : Nat) (s : State) : State :=
  let s := ((s.at t).put F.HK_STAT_RUNNING 0).bump F.HK_ROUND_COUNT
  (s.roundReadings.bandgap (s.get (F.HK_RES_CODE 87))).selfCheck.nvTurn

/-- What is left of a round's end once the temperature interlock is settled. -/
def roundRest (t : Nat) (s : State) : State :=
  let s := s.thermalEval.roundSamples
  if s.hk.again then s.hkBegin t else s

theorem hkRoundEnd_eq {t : Nat} {s : State} (h : (s.up && s.flag F.HK_STAT_RUNNING && s.hk.slots.isEmpty && s.hk.cur.isNone) = true) :
    hkRoundEnd t s = roundRest t (roundChecked t s).nvTemperature := by
  rw [hkRoundEnd, State.whenever_pos _ _ _ h]
  rfl

/-- SETUP after reset: a round has converted every input at code 0, and an event of head 0's shutter holds back a write of 5 to HK_ROUND
until it ends. -/
def roundConverted : State :=
  ((({ State.reset with mode := .setup } : State).put F.HK_STAT_RUNNING 1).modShut 0 fun e =>
    { e with active := true, deferred := [(R.HK_ROUND, 5)] })

theorem roundConverted_ends :
    roundConverted.up = true ∧ roundConverted.flag F.HK_STAT_RUNNING = true ∧ roundConverted.hk.slots = [] ∧
      roundConverted.hk.cur = none ∧ roundConverted.get F.HK_ROUND_COUNT = 0 := by decide

/-- Every sensor fails the self-check, which enters SAFE and ends the event: the write that was held back has taken effect after the
count, whatever the NVM's temperature. -/
theorem roundRest_count :
    (roundRest 0 ((roundChecked 0 roundConverted).put F.NV_STAT_ILK_TEMP 1)).get F.HK_ROUND_COUNT = 5 ∧
      (roundRest 0 ((roundChecked 0 roundConverted).put F.NV_STAT_ILK_TEMP 0)).get F.HK_ROUND_COUNT = 5 ∧
      (roundRest 0 (roundChecked 0 roundConverted)).get F.HK_ROUND_COUNT = 5 := by decide +kernel

theorem hkRoundEnd_roundConverted_count : (hkRoundEnd 0 roundConverted).get F.HK_ROUND_COUNT = 5 := by
  obtain ⟨hlocked, hfree, hkept⟩ := roundRest_count
  rw [hkRoundEnd_eq (by decide)]
  generalize roundChecked 0 roundConverted = u at *
  rcases u.nvTemperature_cases with h | h | h <;> rwa [h]

/-- Refutes O47 in its clause on a round's end, which claims that HK_ROUND then counts the round in every state. Three failed sensors
enter SAFE (R426), which ends every shutter event, and the end of an event lets the register writes held back for it take
effect (R212), at whatever address they name. Here that is HK_ROUND, which no held-back write of a run of the machine names, but
the clause has no premise that excludes it. -/
theorem not_milkRoundRuns : ¬ Obligations.MilkRoundRuns := by
  unfold Obligations.MilkRoundRuns
  rintro ⟨-, -, -, -, -, -, hend, -⟩
  obtain ⟨hup, hrunning, hslots, hcur, hcount⟩ := roundConverted_ends
  obtain ⟨t, hexec, -, hround, -⟩ := hend 0 roundConverted hup hrunning hslots hcur
  obtain rfl : hkRoundEnd 0 roundConverted = t := Host.Outcome.next.inj hexec
  rw [hkRoundEnd_roundConverted_count, hcount] at hround
  exact absurd hround (by decide)

end Sys2Proof.Machine
end

section
/-! PROOFS. The reset after a boundary-driving instruction (R482): the statement on the test access port is refuted. -/

namespace Sys2Proof.Machine

/-- SETUP after reset. The boundary-driving instruction has been left, no power-fail sequence runs, and a rail's RESET waits for one. -/
def railResetHeld : State :=
  { State.reset with
    mode := .setup, tap := { State.reset.tap with leave := true }, power := { State.reset.power with resetWait := [.rail] } }

theorem testModeExitReset_railResetHeld : (testModeExitReset railResetHeld).power.causes = [.pin, .rail] := by decide

/-- Refutes O51 in its clause on the reset that follows with no power-fail sequence, which claims that the pin is its only cause. A cause
that a sequence has held is ascribed to the reset as well (R403, R453). The end of a sequence lets the RESET it held follow at
once, so no run of the machine holds a cause with no sequence, but the clause has no premise that excludes it. -/
theorem not_testAccessPort : ¬ Obligations.TestAccessPort := by
  unfold Obligations.TestAccessPort
  rintro ⟨-, -, -, -, -, -, -, -, -, hreset, -⟩
  obtain ⟨t, hexec, ht⟩ := hreset railResetHeld rfl (by decide) rfl rfl (by decide)
  obtain rfl : testModeExitReset railResetHeld = t := Host.Outcome.next.inj hexec
  have hcauses : (testModeExitReset railResetHeld).power.causes = [.pin] := congrArg (fun s : State => s.power.causes) ht
  exact absurd (testModeExitReset_railResetHeld.symm.trans hcauses) (by decide)

end Sys2Proof.Machine
end

section
/-! PROOFS. The NVM controller's state (R431 to R434): what a store through the page map changes, how a software write begins and ends,
and the statement on page writes. -/

namespace Sys2Proof.Machine

/-! ### What the NVM controller may change -/

/-- Registers, the NVM and what its controller holds are all that differs. -/
def StoreWork (s t : State) : Prop := t = { s with regs := t.regs, nvm := t.nvm, nv := t.nv }

namespace StoreWork
variable {s t u : State}

theorem refl (s : State) : StoreWork s s := Eq.refl s

theorem trans (h : StoreWork s t) (g : StoreWork t u) : StoreWork s u :=
  Eq.trans g (congrArg (fun x : State => { x with regs := u.regs, nvm := u.nvm, nv := u.nv }) h)

theorem put (h : StoreWork s t) (f : Fld) (v : Nat) : StoreWork s (t.put f v) := h.trans (Eq.refl (t.put f v))

theorem setNv (h : StoreWork s t) (n : Nvm) : StoreWork s { t with nv := n } := h.trans rfl

theorem setNvm (h : StoreWork s t) (m : List Host.Cell) : StoreWork s { t with nvm := m } := h.trans rfl

theorem dt (h : StoreWork s t) : t.dt = s.dt := by rw [StoreWork] at h; rw [h]

theorem inbox (h : StoreWork s t) : t.inbox = s.inbox := by rw [StoreWork] at h; rw [h]

theorem churnRun (h : StoreWork s t) : t.churnRun = s.churnRun := by rw [StoreWork] at h; rw [h]

theorem churnQueue (h : StoreWork s t) : t.churnQueue = s.churnQueue := by rw [StoreWork] at h; rw [h]

end StoreWork

theorem SameRegs.of_regs {l : List Nat} {s t u : State} (h : SameRegs l s t) (hr : u.regs = t.regs) : SameRegs l s u :=
  fun a ha => (by rw [State.reg, State.reg, hr] : u.reg a = t.reg a).trans (h a ha)

/-! ### Stores through the page map (R433, R442) -/

/-- A store changes the NVM's bytes and nothing else. -/
theorem State.nvStore_eq (s : State) (a : Nat) (bs : List Byte) : s.nvStore a bs = { s with nvm := (s.nvStore a bs).nvm } := by
  induction bs generalizing s a with
  | nil => rfl
  | cons b bs ih => rw [State.nvStore, ih]; rfl

@[simp] theorem State.nvStore_regs (s : State) (a : Nat) (bs : List Byte) : (s.nvStore a bs).regs = s.regs := by
  rw [State.nvStore_eq]

@[simp] theorem State.nvStore_nv (s : State) (a : Nat) (bs : List Byte) : (s.nvStore a bs).nv = s.nv := by
  rw [State.nvStore_eq]

@[simp] theorem State.nvStore_get (s : State) (a : Nat) (bs : List Byte) (f : Fld) : (s.nvStore a bs).get f = s.get f := by
  rw [State.get, State.reg, State.nvStore_regs]; rfl

theorem State.nvStore_work (s : State) (a : Nat) (bs : List Byte) : StoreWork s (s.nvStore a bs) := by
  rw [State.nvStore_eq]
  exact (StoreWork.refl s).setNvm _

/-- What a store leaves in the NVM depends on the NVM and the page map only. -/
theorem State.nvStore_nvm_congr {s t : State} (hm : t.nvm = s.nvm) (hr : t.nv.relocs = s.nv.relocs) (a : Nat) (bs : List Byte) :
    (t.nvStore a bs).nvm = (s.nvStore a bs).nvm := by
  induction bs generalizing s t a with
  | nil => exact hm
  | cons b bs ih =>
    have haddr : t.nvAddr a = s.nvAddr a := by simp only [State.nvAddr, State.nvPage, hr]
    have hwrite : (t.nvmWrite (t.nvAddr a) [b]).nvm = (s.nvmWrite (s.nvAddr a) [b]).nvm := by simp only [State.nvmWrite, hm, haddr]
    rw [State.nvStore, State.nvStore]
    exact ih hwrite hr (a + 1)

/-- A page that no entry of the page map names stands where it is. -/
theorem State.nvPage_of_unmapped {s : State} {p : Nat} (h : ∀ e ∈ s.nv.relocs, e.1 ≠ p) : s.nvPage p = p := by
  rw [State.nvPage]
  generalize s.nv.relocs = l at h
  induction l with
  | nil => rfl
  | cons e l ih =>
    have he : ¬ (e.1 == p) = true := by simpa using h e (by simp)
    rw [List.foldl_cons, if_neg he]
    exact ih fun x hx => h x (by simp [hx])

/-- The pages of the user area (0x2C_0000 on) are not relocated. -/
def State.UserUnmapped (s : State) : Prop := ∀ e ∈ s.nv.relocs, e.1 < 0x2C00

theorem State.nvAddr_user {s : State} (h : s.UserUnmapped) {a : Nat} (ha : 0x2C0000 ≤ a) : s.nvAddr a = a := by
  rw [State.nvAddr, State.nvPage_of_unmapped fun e he heq => ?_, Nat.div_add_mod]
  have := h e he
  omega

theorem State.nvStore_user {s : State} (h : s.UserUnmapped) {a : Nat} (ha : 0x2C0000 ≤ a) (bs : List Byte) :
    (s.nvStore a bs).nvm = storeBytes nvmReset s.nvm a bs := by
  induction bs generalizing s a with
  | nil => rfl
  | cons b bs ih =>
    rw [State.nvStore, State.nvAddr_user h ha, ih (s := s.nvmWrite a [b]) h (by omega)]
    rfl

theorem State.nvStore_wrote {s t : State} (h : s.UserUnmapped) {a : Nat} (ha : 0x2C0000 ≤ a) {bs : List Byte}
    (ht : t.nvm = (s.nvStore a bs).nvm) : NvmWrote a bs s t := by
  intro x
  rw [State.nvmByte, ht, State.nvStore_user h ha, alGet_storeBytes]
  by_cases hx : a ≤ x ∧ x < a + bs.length
  · rw [dif_pos hx, if_pos hx, List.getD_eq_getElem _ _ (by omega)]
  · rw [dif_neg hx, if_neg hx, State.nvmByte]

/-! ### A software write begins and ends (R431 to R436) -/

section
variable {s : State}

/-- With nothing waiting behind it, the end of a write starts nothing. -/
theorem State.nvGoOn_of_none (hw : s.nv.wait = []) : s.nvGoOn = s := by
  have hnv : { s.nv with wait := [] } = s.nv := by rw [← hw]
  simp only [State.nvGoOn, hw, List.foldl_nil, hnv]

/-- A write that runs, or that may start, ends as the software write it is. -/
theorem State.nvBegin_of_free {w : NvWrite} (hw : s.nv.wr = some w) (hf : w.waits = false ∨ s.nvLocked = false) :
    s.nvBegin = { s with nv := { s.nv with wr := some { w with waits := false } } } := by
  rw [State.nvBegin, hw]
  by_cases hwaits : w.waits = true
  · have hlock : s.nvLocked = false := hf.resolve_left (by simp [hwaits])
    simp [hwaits, hlock]
  · have hnv : { s.nv with wr := some w } = s.nv := by rw [← hw]
    have hweq : { w with waits := false } = w := by rw [← (Bool.not_eq_true _).mp hwaits]
    simp [hwaits, hweq, hnv]

/-- What a write leaves in the registers and the controller when it ends with a result. -/
theorem State.nvEnd_work (s : State) (res : Nat) : StoreWork s (s.nvEnd res) := (((StoreWork.refl s).setNv _).put _ _).put _ _

theorem State.nvEnd_sameRegs (s : State) (res : Nat) : SameRegs [R.NV_STAT] s (s.nvEnd res) :=
  (((SameRegs.refl _ s).of_regs rfl).put F.NV_STAT_BUSY 0 (by simp)).put F.NV_STAT_RESULT res (by simp)

theorem State.nvEnd_busy (s : State) (res : Nat) : (s.nvEnd res).get F.NV_STAT_BUSY = 0 := by
  rw [State.nvEnd, State.get_put_disjoint _ _ _ _ (by simp), State.get_put_self _ _ _ (by simp), Nat.zero_mod]

theorem State.nvEnd_result (s : State) {res : Nat} (h : res < 16) : (s.nvEnd res).get F.NV_STAT_RESULT = res :=
  State.get_put_of_lt _ (by simp) (by simpa using h)

theorem State.nvEnd_trunc (s : State) (res : Nat) : (s.nvEnd res).get F.NV_STAT_TRUNC = s.get F.NV_STAT_TRUNC := by
  rw [State.nvEnd, State.get_put_disjoint _ _ _ _ (by simp), State.get_put_disjoint _ _ _ _ (by simp)]
  rfl

/-- The bytes of a software write, and then its end. -/
def State.nvWritten (s : State) (w : NvWrite) (res : Nat) : State :=
  (({ s with nv := { s.nv with wr := some { w with waits := false } } } : State).nvStore w.addr w.bytes).nvEnd res

theorem State.nvWritten_nvm (s : State) (w : NvWrite) (res : Nat) : (s.nvWritten w res).nvm = (s.nvStore w.addr w.bytes).nvm :=
  State.nvStore_nvm_congr (s := s) (t := { s with nv := { s.nv with wr := some { w with waits := false } } }) rfl rfl _ _

theorem State.nvWritten_nv (s : State) (w : NvWrite) (res : Nat) : (s.nvWritten w res).nv = { s.nv with wr := none } := by
  simp only [State.nvWritten, State.nvEnd, State.put_nv, State.nvStore_nv]

theorem State.nvWritten_sameRegs (s : State) (w : NvWrite) (res : Nat) : SameRegs [R.NV_STAT] s (s.nvWritten w res) :=
  ((SameRegs.refl _ s).of_regs (by rw [State.nvStore_regs])).trans (State.nvEnd_sameRegs _ res)

theorem State.nvWritten_work (s : State) (w : NvWrite) (res : Nat) : StoreWork s (s.nvWritten w res) :=
  (((StoreWork.refl s).setNv _).trans (State.nvStore_work _ _ _)).trans (State.nvEnd_work _ res)

theorem nvPageWriteDone_of_free {w : NvWrite} (hw : s.nv.wr = some w) (hwait : s.nv.wait = [])
    (hf : w.waits = false ∨ s.nvLocked = false) (ok : Bool) :
    nvPageWriteDone ok s = if ok then s.nvWritten w 1 else (s.nvWritten w 5).raise 47 .ce (detailWord 0xFF 20 0x008) := by
  have hrest : ∀ res, (s.nvWritten w res).nv.wait = [] := fun res => by rw [State.nvWritten_nv]; exact hwait
  rw [nvPageWriteDone, State.nvBegin_of_free hw hf]
  cases ok with
  | true => exact State.nvGoOn_of_none (hrest 1)
  | false => exact State.nvGoOn_of_none (s := (s.nvWritten w 5).raise 47 .ce (detailWord 0xFF 20 0x008)) (hrest 5)

/-- The bytes of the write buffer. -/
def State.writeBuffer (s : State) : List Byte := (List.range 64).flatMap fun i => leBytes 4 (s.get (F.NV_WBUF_DATA i))

/-- NV_STAT when a software write is taken up: TRUNC shows whether its page cuts it short. -/
def State.nvTaken (s : State) (cut : Bool) (w : NvWrite) : State :=
  ({ (s.put F.NV_STAT_TRUNC 0).putB F.NV_STAT_TRUNC cut with nv := { s.nv with wr := some w } } : State).put F.NV_STAT_BUSY 1

theorem State.nvTaken_trunc (s : State) (cut : Bool) (w : NvWrite) : (s.nvTaken cut w).get F.NV_STAT_TRUNC = cut.toNat := by
  have hlt : cut.toNat < 2 ^ F.NV_STAT_TRUNC.w := by cases cut <;> decide
  rw [State.nvTaken, State.get_put_disjoint _ _ _ _ (by simp)]
  exact State.get_put_of_lt (s.put F.NV_STAT_TRUNC 0) (f := F.NV_STAT_TRUNC) (by simp) hlt

theorem State.nvTaken_busy (s : State) (cut : Bool) (w : NvWrite) : (s.nvTaken cut w).get F.NV_STAT_BUSY = 1 :=
  State.get_put_of_lt _ (by simp) (by decide)

theorem State.nvTaken_nv (s : State) (cut : Bool) (w : NvWrite) : (s.nvTaken cut w).nv = { s.nv with wr := some w } := rfl

theorem State.nvTaken_frame (s : State) (cut : Bool) (w : NvWrite) :
    s.nvTaken cut w = { s with regs := (s.nvTaken cut w).regs, nv := (s.nvTaken cut w).nv } := rfl

theorem State.nvTaken_sameRegs (s : State) (cut : Bool) (w : NvWrite) : SameRegs [R.NV_STAT] s (s.nvTaken cut w) :=
  ((((SameRegs.refl _ s).put F.NV_STAT_TRUNC 0 (by simp)).put F.NV_STAT_TRUNC _ (by simp)).of_regs rfl).put F.NV_STAT_BUSY 1 (by simp)

/-- A WRITE to the user area is taken up when no write runs and the interlock does not hold. -/
theorem exec_nvWrite_taken (ha : s.access R.NV_CMD = true) (hb : s.flag F.NV_STAT_BUSY = false) (hl : s.nvLocked = false)
    (hu : 0x2C0000 ≤ s.get F.NV_WADDR_ADDR) :
    exec .nvWrite s = .next (s.nvTaken (256 - s.get F.NV_WADDR_ADDR % 256 < s.get F.NV_WLEN_LEN) {
      addr := s.get F.NV_WADDR_ADDR, waits := !s.nvRuns.isEmpty
      bytes := s.writeBuffer.take (min (s.get F.NV_WLEN_LEN) (256 - s.get F.NV_WADDR_ADDR % 256)) }) := by
  have hlow : ¬ s.get F.NV_WADDR_ADDR < 0x2C0000 := by omega
  have hlock : (s.put F.NV_STAT_TRUNC 0).nvLocked = false := by
    rw [← hl]
    simp only [State.nvLocked, State.flag]
    rw [State.get_put_disjoint _ _ F.NV_STAT_ILK_TEMP _ (by simp), State.get_put_disjoint _ _ F.NV_STAT_ILK_SAG _ (by simp)]
  have hbuf : ∀ i, (s.put F.NV_STAT_TRUNC 0).get (F.NV_WBUF_DATA i) = s.get (F.NV_WBUF_DATA i) := fun i =>
    State.get_put_reg _ _ _ _ (by simp only [R.NV_WBUF, R.NV_STAT]; omega)
  show Host.Outcome.next (nvWrite s) = _
  rw [nvWrite, State.whenever_pos _ _ _ ha]
  simp only [hb, Bool.false_eq_true, if_false, if_neg hlow, hlock, Bool.false_and, hbuf]
  rfl

end

/-- Settles O48: a WRITE takes up the bytes of the buffer that its page has room for, and the user area is not relocated, so its end
stores them from NV_WADDR on. -/
theorem nvmWritesStayInTheirPage : Obligations.NvmWritesStayInTheirPage := by
  unfold Obligations.NvmWritesStayInTheirPage
  refine ⟨fun s ha hb hl hu hlong => ?_, fun s ha hb hl hu hfits => ?_, fun w s hw hwait hf hu hmap => ?_⟩
  · have hlen : min (s.get F.NV_WLEN_LEN) (256 - s.get F.NV_WADDR_ADDR % 256) = 256 - s.get F.NV_WADDR_ADDR % 256 :=
      Nat.min_eq_right (by omega)
    refine ⟨_, exec_nvWrite_taken ha hb hl hu, ?_, State.nvTaken_busy .., ?_, State.nvTaken_sameRegs _ _ _, State.nvTaken_frame ..⟩
    · rw [State.nvTaken_trunc, decide_eq_true hlong]; rfl
    · rw [State.nvTaken_nv, hlen]; rfl
  · have hlen : min (s.get F.NV_WLEN_LEN) (256 - s.get F.NV_WADDR_ADDR % 256) = s.get F.NV_WLEN_LEN := Nat.min_eq_left hfits
    refine ⟨_, exec_nvWrite_taken ha hb hl hu, ?_, State.nvTaken_busy .., ?_, State.nvTaken_sameRegs _ _ _, State.nvTaken_frame ..⟩
    · rw [State.nvTaken_trunc, decide_eq_false (by omega)]; rfl
    · rw [State.nvTaken_nv, hlen]; rfl
  · have huser : s.UserUnmapped := by simpa [State.UserUnmapped] using hmap
    refine ⟨s.nvWritten w 1, congrArg Host.Outcome.next (nvPageWriteDone_of_free hw hwait hf true), ?_, State.nvEnd_busy .., ?_, ?_,
      s.nvWritten_nv w 1, s.nvWritten_sameRegs w 1, s.nvWritten_work w 1⟩
    · exact State.nvStore_wrote huser hu (s.nvWritten_nvm w 1)
    · exact State.nvEnd_result _ (by decide)
    · rw [State.nvWritten, State.nvEnd_trunc, State.nvStore_get]
      rfl

end Sys2Proof.Machine
end

section
/-! PROOFS. Device writes of the NVM (R389, R433, R437, R441, R442): what a persist, a relocation and the end of the interlock change, and
the statement on the window, slots and relocations. -/

namespace Sys2Proof.Machine

theorem StoreWork.putBit {s t : State} (h : StoreWork s t) (f : Fld) (i : Nat) (b : Bool) : StoreWork s (t.putBit f i b) := h.put _ _

theorem SameRegs.putBit {l : List Nat} {s t : State} (h : SameRegs l s t) (f : Fld) (i : Nat) (b : Bool) (hf : f.addr ∈ l) :
    SameRegs l s (t.putBit f i b) := h.put f _ hf

theorem SameRegs.setNv {l : List Nat} {s t : State} (h : SameRegs l s t) (n : Nvm) : SameRegs l s { t with nv := n } := h

/-! ### A device write -/

section
variable {s t : State}

theorem State.nvDevice_nvm (s : State) (a : Nat) (bs : List Byte) : (s.nvDevice a bs).nvm = (s.nvStore a bs).nvm := rfl

theorem State.nvDevice_nv (s : State) (a : Nat) (bs : List Byte) :
    (s.nvDevice a bs).nv = { s.nv with run := (s.nvDevice a bs).nv.run } := by
  simp only [State.nvDevice, State.nvStore_nv]

theorem State.nvDevice_relocs (s : State) (a : Nat) (bs : List Byte) : (s.nvDevice a bs).nv.relocs = s.nv.relocs :=
  (congrArg Nvm.relocs (s.nvDevice_nv a bs) :)

@[simp] theorem State.nvDevice_regs (s : State) (a : Nat) (bs : List Byte) : (s.nvDevice a bs).regs = s.regs :=
  State.nvStore_regs s a bs

theorem State.nvDevice_work (s : State) (a : Nat) (bs : List Byte) : StoreWork s (s.nvDevice a bs) :=
  (State.nvStore_work s a bs).setNv _

/-- What a device write leaves in the NVM depends on the NVM and the page map only. -/
theorem State.nvDevice_nvm_congr (hm : t.nvm = s.nvm) (hr : t.nv.relocs = s.nv.relocs) (a : Nat) (bs : List Byte) :
    (t.nvDevice a bs).nvm = (s.nvDevice a bs).nvm := by
  rw [State.nvDevice_nvm, State.nvDevice_nvm, State.nvStore_nvm_congr hm hr]

/-! ### Staged records (R437) -/

/-- Records placed one after the other: the NVM and the device writes that run. -/
theorem logPlaced_nv (l : List (List Byte)) (s : State) :
    (l.foldl State.logPlace s).nv = { s.nv with run := (l.foldl State.logPlace s).nv.run } := by
  induction l generalizing s with
  | nil => rfl
  | cons b l ih => rw [List.foldl_cons, ih, State.logPlace, State.nvDevice_nv]

theorem logPlaced_work (l : List (List Byte)) (s : State) : StoreWork s (l.foldl State.logPlace s) := by
  induction l generalizing s with
  | nil => exact StoreWork.refl s
  | cons b l ih => exact (State.nvDevice_work s _ b).trans (ih _)

theorem logPlaced_regs (l : List (List Byte)) (s : State) : (l.foldl State.logPlace s).regs = s.regs := by
  induction l generalizing s with
  | nil => rfl
  | cons b l ih => rw [List.foldl_cons, ih, State.logPlace, State.nvDevice_regs]

theorem logPlaced_nvm_congr (hm : t.nvm = s.nvm) (hr : t.nv.relocs = s.nv.relocs) (l : List (List Byte)) :
    (l.foldl State.logPlace t).nvm = (l.foldl State.logPlace s).nvm := by
  induction l generalizing s t with
  | nil => exact hm
  | cons b l ih =>
    refine ih (State.nvDevice_nvm_congr hm hr _ _) ?_
    rw [State.logPlace, State.logPlace, State.nvDevice_relocs, State.nvDevice_relocs, hr]

theorem State.logFlush_nv (s : State) : s.logFlush.nv = { s.nv with staged := [], run := s.logFlush.nv.run } := by
  simp only [State.logFlush, State.put_nv]
  rw [logPlaced_nv]

theorem State.logFlush_work (s : State) : StoreWork s s.logFlush := ((logPlaced_work s.nv.staged s).setNv _).put _ _

theorem State.logFlush_sameRegs (s : State) : SameRegs [R.FC_LOGLOST] s s.logFlush :=
  ((SameRegs.refl _ s).of_regs (logPlaced_regs s.nv.staged s)).put F.FC_LOGLOST_STAGED 0 (by simp)

theorem State.logFlush_staged (s : State) : s.logFlush.get F.FC_LOGLOST_STAGED = 0 :=
  State.get_put_of_lt _ (by simp) (by decide)

end

/-! ### The slot that a persist writes (R439 to R441) -/

/-- The two states hold alike what a slot is written from: they differ in MC_STAT, in the Churn, and in which persists are requested, in
their windows and in the hourly persist. -/
structure SlotAlike (s t : State) : Prop where
  frame : t = { s with regs := t.regs, churnRun := t.churnRun, churnQueue := t.churnQueue,
                       nv := { s.nv with req := t.nv.req, win := t.nv.win, lastHour := t.nv.lastHour } }
  regs : SameRegs [R.MC_STAT] s t

namespace SlotAlike
variable {s t : State}

theorem get (h : SlotAlike s t) {f : Fld} (hf : f.addr ≠ R.MC_STAT) : t.get f = s.get f := h.regs.get f (by simpa using hf)

theorem nvm (h : SlotAlike s t) : t.nvm = s.nvm := by rw [h.frame]

theorem dt (h : SlotAlike s t) : t.dt = s.dt := by rw [h.frame]

theorem relocs (h : SlotAlike s t) : t.nv.relocs = s.nv.relocs := by rw [h.frame]

theorem boots (h : SlotAlike s t) : t.nv.boots = s.nv.boots := by rw [h.frame]

theorem secsBase (h : SlotAlike s t) : t.nv.secsBase = s.nv.secsBase := by rw [h.frame]

theorem image (h : SlotAlike s t) : t.image = s.image := by rw [h.frame]

theorem cur (h : SlotAlike s t) : t.nv.cur = s.nv.cur := by rw [h.frame]

theorem dropped (h : SlotAlike s t) : t.nv.dropped = s.nv.dropped := by rw [h.frame]

theorem ringSlots (h : SlotAlike s t) (n : Nat) : t.ringSlots n = s.ringSlots n := by
  simp only [State.ringSlots, h.dropped]

theorem ringDead (h : SlotAlike s t) (n : Nat) : t.ringDead n = s.ringDead n := by
  simp only [State.ringDead, h.ringSlots]

theorem nextSlot (h : SlotAlike s t) (n : Nat) : t.nextSlot n = s.nextSlot n := by
  simp only [State.nextSlot, h.ringSlots, h.cur]

theorem nvLocked (h : SlotAlike s t) : t.nvLocked = s.nvLocked := by
  simp only [State.nvLocked, State.flag, h.get (f := F.NV_STAT_ILK_TEMP) (by decide), h.get (f := F.NV_STAT_ILK_SAG) (by decide)]

/-- The values of a ring are read from registers other than MC_STAT and from what the states share. -/
theorem ringValues (h : SlotAlike s t) (n : Nat) : t.ringValues n = s.ringValues n := by
  have hretired : ∀ b ∈ List.range 16, leBytes 2 (t.get (F.EN_BCNT_RETIRED b)) = leBytes 2 (s.get (F.EN_BCNT_RETIRED b)) := fun b hb => by
    have := List.mem_range.1 hb
    rw [h.get (by simp only [R.EN_BCNT, R.MC_STAT]; omega)]
  have hstate : ∀ b, t.get (F.EN_BSTAT_STATE b) = s.get (F.EN_BSTAT_STATE b) := fun b =>
    h.get (by simp only [R.EN_BSTAT, R.MC_STAT]; omega)
  simp only [State.ringValues]
  split_ifs with h0 h1 h2 h3 h11 h19
  · rw [h.relocs]
  · rw [h.boots, State.nvSeconds, State.nvSeconds, h.secsBase, h.dt]
  · rw [List.flatMap_congr hretired]
    simp only [hstate, State.get64]
    rw [h.get (f := F.FC_RET_LO_RET) (by decide), h.get (f := F.FC_RET_HI_RET) (by decide)]
  · rw [h.get (by decide)]
  · simp only [State.get64]
    rw [h.get (f := F.CX_SOK_COUNT (n - 4)) (by simp only [R.CX_SOK, R.MC_STAT]; omega),
      h.get (f := F.CX_SFAIL_COUNT (n - 4)) (by simp only [R.CX_SFAIL, R.MC_STAT]; omega),
      h.get (f := F.CX_SLDT_LO_DT (n - 4)) (by simp only [R.CX_SLDT_LO, R.MC_STAT]; omega),
      h.get (f := F.CX_SLDT_HI_DT (n - 4)) (by simp only [R.CX_SLDT_HI, R.MC_STAT]; omega),
      h.get (f := F.CX_SLTAI_TAI (n - 4)) (by simp only [R.CX_SLTAI, R.MC_STAT]; omega)]
  · have hfactor : ∀ e ∈ List.range 2, ∀ c ∈ List.range 16, ∀ w ∈ List.range 12,
        leBytes 2 (t.get (F.TC_FACT_FACTOR (2 * (n - 16) + e) (16 * c + w))) =
          leBytes 2 (s.get (F.TC_FACT_FACTOR (2 * (n - 16) + e) (16 * c + w))) := fun e he c hc w hw => by
      have he := List.mem_range.1 he
      have hc := List.mem_range.1 hc
      have hw := List.mem_range.1 hw
      rw [h.get (by simp only [R.TC_FACT, R.MC_STAT]; omega)]
    rw [List.flatMap_congr fun e he => List.flatMap_congr fun c hc => List.flatMap_congr fun w hw => hfactor e he c hc w hw]
    simp only [State.get64]
    rw [h.get (f := F.TC_CALOK_COUNT (n - 16)) (by simp only [R.TC_CALOK, R.MC_STAT]; omega),
      h.get (f := F.TC_CALFAIL_COUNT (n - 16)) (by simp only [R.TC_CALFAIL, R.MC_STAT]; omega),
      h.get (f := F.TC_CALDT_LO_DT_LO (n - 16)) (by simp only [R.TC_CALDT_LO, R.MC_STAT]; omega),
      h.get (f := F.TC_CALDT_HI_DT_HI (n - 16)) (by simp only [R.TC_CALDT_HI, R.MC_STAT]; omega),
      h.get (f := F.TC_CALTAI_TAI (n - 16)) (by simp only [R.TC_CALTAI, R.MC_STAT]; omega)]
  · exact h.image

/-- The slot that is written then holds the same bytes. -/
theorem slotWrite_nvm (h : SlotAlike s t) (n : Nat) : (t.slotWrite n).nvm = (s.slotWrite n).nvm := by
  rw [State.slotWrite, State.slotWrite, h.nextSlot, h.ringValues]
  split
  · simp only [State.putBit_nvm]
    exact State.nvDevice_nvm_congr h.nvm h.relocs _ _
  · exact h.nvm

end SlotAlike

section
variable {s t : State}

/-- What the write of a ring's next slot leaves: the slot is the ring's current one, its request is done and its window open. -/
structure SlotWritten (n : Nat) (s t : State) : Prop where
  nvm : t.nvm = (s.slotWrite n).nvm
  cur : s.nv.cur.length = 21 → t.nv.cur.getD n none = s.nextSlot n
  req : t.nv.req = s.nv.req.filter fun m => m != n
  win : t.nv.win = (s.nv.win.filter fun w => w.1 != n) ++ [(n, s.dt)]
  lastHour : t.nv.lastHour = s.nv.lastHour
  clean : bit (t.get F.NV_DIRTY_RING) n = false

theorem State.slotWrite_work (s : State) (n : Nat) : StoreWork s (s.slotWrite n) := by
  rw [State.slotWrite]
  split
  · exact ((State.nvDevice_work _ _ _).setNv _).putBit _ _ _
  · exact StoreWork.refl s

theorem State.slotWrite_sameRegs (s : State) (n : Nat) : SameRegs [R.NV_DIRTY] s (s.slotWrite n) := by
  rw [State.slotWrite]
  split
  · exact (((SameRegs.refl _ s).of_regs (s.nvDevice_regs _ _)).setNv _).putBit F.NV_DIRTY_RING _ _ (by simp)
  · exact SameRegs.refl _ s

/-- A ring that still has two slots has a next one. -/
theorem State.nextSlot_of_alive {n : Nat} (h : s.ringDead n = false) : ∃ e, s.nextSlot n = some e := by
  have hne : s.ringSlots n ≠ [] := by
    rw [State.ringDead] at h
    intro hnil
    simp [hnil] at h
  obtain ⟨j, l, hl⟩ := List.exists_cons_of_ne_nil hne
  rw [State.nextSlot, hl]
  have hhead : ∀ m : List Nat, ∃ i, (m ++ j :: l).head? = some i := fun m => by cases m <;> exact ⟨_, rfl⟩
  split
  · exact ⟨_, rfl⟩
  · obtain ⟨i, hi⟩ := hhead ((j :: l).filter _)
    exact ⟨_, congrArg _ hi⟩

theorem State.slotWrite_written {n : Nat} (hn : n < 21) (hring : (nvRing n).isSome = true) (hdead : s.ringDead n = false) :
    SlotWritten n s (s.slotWrite n) := by
  obtain ⟨⟨k, size, base⟩, hk⟩ := Option.isSome_iff_exists.1 hring
  obtain ⟨⟨j, seq⟩, hj⟩ := State.nextSlot_of_alive hdead
  have hnv : ∀ a bs, (s.nvDevice a bs).nv = { s.nv with run := (s.nvDevice a bs).nv.run } := s.nvDevice_nv
  constructor
  case nvm => rfl
  case clean =>
    rw [State.slotWrite, hk, hj, State.bit_putBit _ _ (by decide) _ _ (by simpa using hn), if_pos rfl]
  case cur =>
    intro hlen
    rw [State.slotWrite, hk, hj]
    simp only [State.putBit_nv]
    rw [hnv]
    simp [hlen, hn]
  all_goals
    rw [State.slotWrite, hk, hj]
    simp only [State.putBit_nv]
    rw [hnv]

end

/-! ### M9 with the Churn idle (R393, R395) -/

/-- The Churn was idle and has granted one activity. -/
def State.granted (s : State) (a : Activity) (res : Nat) : State :=
  ({ s with churnRun := [{ act := a, res := res, since := s.dt }] } : State).syncChurn

section
variable {s t u : State}

theorem State.granted_sameRegs (s : State) (a : Activity) (res : Nat) : SameRegs [R.MC_STAT] s (s.granted a res) :=
  ((SameRegs.refl _ s).of_regs rfl).trans (State.syncChurn_sameRegs _)

theorem State.granted_alike (s : State) (a : Activity) (res : Nat) : SlotAlike s (s.granted a res) :=
  ⟨rfl, s.granted_sameRegs a res⟩

theorem State.churnAsk_of_idle (hr : s.churnRun = []) (hq : s.churnQueue = []) (a : Activity) (res : Nat) :
    s.churnAsk a res true s.dt = (.granted, s.granted a res) := by
  simp [State.churnAsk, hr, hq, State.granted]

theorem State.churnRuns_of_idle (hr : s.churnRun = []) (a : Activity) (res : Nat) : s.churnRuns a res = false := by
  simp [State.churnRuns, hr]

/-- The work of the granted activity ends, and the Churn is idle again. -/
theorem State.churnDone_idle {a : Activity} {res : Nat} (hq : s.churnQueue = []) (hrun : u.churnRun = (s.granted a res).churnRun)
    (hqueue : u.churnQueue = (s.granted a res).churnQueue) :
    (u.churnDone a res).churnRun = [] ∧ (u.churnDone a res).churnQueue = [] := by
  have hrun' : u.churnRun = [{ act := a, res := res, since := s.dt }] := hrun
  have hqueue' : u.churnQueue = [] := hqueue.trans hq
  simp [State.churnDone, State.syncChurn, hrun', hqueue']

theorem StoreWork.done {a : Activity} {res : Nat} (h : StoreWork (s.granted a res) u) (hr : s.churnRun = []) (hq : s.churnQueue = []) :
    StoreWork s (u.churnDone a res) := by
  obtain ⟨hrun, hqueue⟩ := State.churnDone_idle hq h.churnRun h.churnQueue
  have hall : u.churnDone a res = { s with
      regs := (u.churnDone a res).regs, nvm := u.nvm, nv := u.nv
      churnRun := (u.churnDone a res).churnRun, churnQueue := (u.churnDone a res).churnQueue } :=
    congrArg (fun x : State => { x with
      regs := (u.churnDone a res).regs, churnRun := (u.churnDone a res).churnRun, churnQueue := (u.churnDone a res).churnQueue }) h
  rw [hrun.trans hr.symm, hqueue.trans hq.symm] at hall
  exact hall

theorem SameRegs.done {l : List Nat} {a : Activity} {res : Nat} (h : SameRegs l (s.granted a res) u) (hl : R.MC_STAT ∈ l) :
    SameRegs l s (u.churnDone a res) :=
  (((s.granted_sameRegs a res).mono (by simpa using hl)).trans h).trans ((State.churnDone_sameRegs u a res).mono (by simpa using hl))

theorem State.persistAsk_of_idle {n : Nat} (hr : s.churnRun = []) (hq : s.churnQueue = []) (hw : s.nv.wr = none) (hwait : s.nv.wait = []) :
    s.persistAsk n = ((s.granted .m9p n).persistNow n).churnDone .m9p n := by
  have hwr : ¬ (s.granted .m9p n).nv.wr.isSome = true := by rw [(s.granted_alike .m9p n).frame, hw]; simp
  have hnot : ¬ s.nv.wait.contains (.slot n) = true := by simp [hwait]
  rw [State.persistAsk, if_neg hnot, if_neg (by simp [State.churnRuns_of_idle hr]), State.churnAsk_of_idle hr hq]
  exact if_neg hwr

/-- A persist that the interlock or the ring's window keeps from writing leaves the ring dirty. -/
theorem State.persistNow_refused {n : Nat} (h : (s.winOpen n || s.nvLocked) = true) :
    s.persistNow n = ({ s with nv := { s.nv with req := s.nv.req.filter (· != n) } } : State).putBit F.NV_DIRTY_RING n true := by
  rw [State.persistNow]
  refine if_pos ?_
  rw [Bool.or_eq_true]
  exact .inl h

theorem State.persistNow_taken {n : Nat} (hw : s.winOpen n = false) (hl : s.nvLocked = false) (hd : s.ringDead n = false) :
    s.persistNow n = ({ s with nv := { s.nv with req := s.nv.req.filter (· != n) } } : State).slotWrite n := by
  rw [State.persistNow]
  refine if_neg ?_
  have hall : (s.winOpen n || s.nvLocked || s.ringDead n) = false := by simp [hw, hl, hd]
  exact ne_true_of_eq_false hall

/-- A state that differs in a ring's request, too, holds alike what its slot is written from. -/
theorem SlotAlike.setReq (h : SlotAlike s t) (l : List Nat) : SlotAlike s { t with nv := { t.nv with req := l } } :=
  ⟨congrArg (fun x : State => { x with nv := { x.nv with req := l } }) h.frame, h.regs⟩

theorem State.granted_winOpen (s : State) (a : Activity) (res n : Nat) : (s.granted a res).winOpen n = s.winOpen n := rfl

theorem State.churnDone_dirty (u : State) (a : Activity) (res : Nat) :
    (u.churnDone a res).get F.NV_DIRTY_RING = u.get F.NV_DIRTY_RING := State.churnDone_get u a res (by decide)

/-- With the Churn idle and no software write, a persist writes its ring's next slot at once. -/
theorem State.persistAsk_written {n : Nat} (hr : s.churnRun = []) (hq : s.churnQueue = []) (hw : s.nv.wr = none) (hwait : s.nv.wait = [])
    (hn : n < 21) (hring : (nvRing n).isSome = true) (hopen : s.winOpen n = false) (hl : s.nvLocked = false)
    (hd : s.ringDead n = false) :
    SlotWritten n s (s.persistAsk n) ∧ StoreWork s (s.persistAsk n) ∧ SameRegs [R.NV_DIRTY, R.MC_STAT] s (s.persistAsk n) := by
  have hgrant := s.granted_alike .m9p n
  have halike := hgrant.setReq ((s.granted .m9p n).nv.req.filter (· != n))
  rw [State.persistAsk_of_idle hr hq hw hwait, State.persistNow_taken ((s.granted_winOpen .m9p n n).trans hopen)
    (hgrant.nvLocked.trans hl) ((hgrant.ringDead n).trans hd)]
  generalize hx : ({ s.granted .m9p n with nv := { (s.granted .m9p n).nv with req := (s.granted .m9p n).nv.req.filter (· != n) } } : State) = x
    at halike
  have hwin : x.nv.win = s.nv.win := by rw [← hx]; rfl
  have hreq : x.nv.req = s.nv.req.filter fun m => m != n := by rw [← hx]; rfl
  have hhour : x.nv.lastHour = s.nv.lastHour := by rw [← hx]; rfl
  have hwork : StoreWork (s.granted .m9p n) x := by rw [← hx]; exact (StoreWork.refl _).setNv _
  have hregs : SameRegs [R.NV_DIRTY, R.MC_STAT] (s.granted .m9p n) x := by rw [← hx]; exact SameRegs.refl _ _
  obtain ⟨hnvm, hcur, hreq', hwin', hhour', hclean⟩ := State.slotWrite_written hn hring ((halike.ringDead n).trans hd)
  refine ⟨⟨hnvm.trans (halike.slotWrite_nvm n), ?_, ?_, ?_, hhour'.trans hhour, ?_⟩, ?_, ?_⟩
  · intro hlen
    exact (hcur (by rw [halike.cur, hlen])).trans (halike.nextSlot n)
  · refine hreq'.trans ?_
    rw [hreq, List.filter_filter]
    simp
  · refine hwin'.trans ?_
    rw [hwin, halike.dt]
  · rw [State.churnDone_dirty]
    exact hclean
  · exact (hwork.trans (State.slotWrite_work x n)).done hr hq
  · exact (hregs.trans ((State.slotWrite_sameRegs x n).mono (by simp))).done (by simp)

/-- Under the interlock, or within the ring's window, it leaves the ring dirty. -/
theorem State.persistAsk_refused {n : Nat} (hr : s.churnRun = []) (hq : s.churnQueue = []) (hw : s.nv.wr = none) (hwait : s.nv.wait = [])
    (hn : n < 21) (h : s.nvLocked = true ∨ s.winOpen n = true) :
    bit ((s.persistAsk n).get F.NV_DIRTY_RING) n = true ∧
      (s.persistAsk n).nv = { s.nv with req := s.nv.req.filter fun m => m != n } ∧
      SameRegs [R.NV_DIRTY, R.MC_STAT] s (s.persistAsk n) ∧
      s.persistAsk n = { s with regs := (s.persistAsk n).regs, nv := (s.persistAsk n).nv } := by
  have hgrant := s.granted_alike .m9p n
  have hstop : ((s.granted .m9p n).winOpen n || (s.granted .m9p n).nvLocked) = true := by
    rw [s.granted_winOpen, hgrant.nvLocked, Bool.or_eq_true]
    exact h.symm
  rw [State.persistAsk_of_idle hr hq hw hwait, State.persistNow_refused hstop]
  refine ⟨?_, rfl, ?_, ?_⟩
  · rw [State.churnDone_dirty, State.bit_putBit _ _ (by decide) _ _ (by simpa using hn), if_pos rfl]
  · exact (((SameRegs.refl _ _).setNv _).putBit F.NV_DIRTY_RING _ _ (by simp)).done (by simp)
  · exact (((StoreWork.refl (s.granted .m9p n)).setNv _).putBit F.NV_DIRTY_RING n true).done hr hq

end

end Sys2Proof.Machine
end

section
/-! PROOFS. Relocations and reads of the NVM (R430, R434, R442): the page that is moved, the persist that waits behind a software write,
and the state a window read leaves. -/

namespace Sys2Proof.Machine

section
variable {s t u : State}

/-- A persist that finds a software write waits behind it, and keeps its grant (R434). -/
theorem State.persistAsk_waits {n : Nat} {w : NvWrite} (hr : s.churnRun = []) (hq : s.churnQueue = []) (hw : s.nv.wr = some w)
    (hnot : s.nv.wait.contains (.slot n) = false) : s.persistAsk n = (s.granted .m9p n).nvWait (.slot n) := by
  have hwr : (s.granted .m9p n).nv.wr.isSome = true := by rw [(s.granted_alike .m9p n).frame, hw]; rfl
  rw [State.persistAsk, if_neg (ne_true_of_eq_false hnot), if_neg (by simp [State.churnRuns_of_idle hr]), State.churnAsk_of_idle hr hq]
  exact if_pos hwr

/-! ### A relocation (R442) -/

theorem State.relocAsk_of_idle {page : Nat} (hr : s.churnRun = []) (hq : s.churnQueue = []) (hw : s.nv.wr = none) (hwait : s.nv.wait = []) :
    s.relocAsk page = (s.granted .m9r (pageRing page)).relocStart page := by
  have hwr : ¬ (s.granted .m9r (pageRing page)).nv.wr.isSome = true := by rw [(s.granted_alike .m9r (pageRing page)).frame, hw]; simp
  have hnot : ¬ s.nv.wait.contains (.reloc page) = true := by simp [hwait]
  rw [State.relocAsk, if_neg hnot, if_neg (by simp [State.churnRuns_of_idle hr]), State.churnAsk_of_idle hr hq]
  exact if_neg hwr

/-- Under the interlock the page waits, and the grant is given back. -/
theorem State.relocAsk_locked {page : Nat} (hr : s.churnRun = []) (hq : s.churnQueue = []) (hw : s.nv.wr = none) (hwait : s.nv.wait = [])
    (hl : s.nvLocked = true) :
    (s.relocAsk page).nv.relocWait.contains page = true ∧ (s.relocAsk page).nvm = s.nvm ∧ SameRegs [R.MC_STAT] s (s.relocAsk page) ∧
      s.relocAsk page = { s with regs := (s.relocAsk page).regs, nv := (s.relocAsk page).nv } := by
  have hlock := ((s.granted_alike .m9r (pageRing page)).nvLocked).trans hl
  rw [State.relocAsk_of_idle hr hq hw hwait, State.relocStart, if_pos hlock]
  refine ⟨by simp, rfl, ((SameRegs.refl _ _).done (by simp)).setNv _, ?_⟩
  exact ((StoreWork.refl (s.granted .m9r (pageRing page))).done hr hq).setNv _

/-- A page's entry in the page map, and its bytes on the spare page. -/
def State.pageMapped (s : State) (page q : Nat) : State :=
  ({ s with nv := { s.nv with relocs := s.nv.relocs ++ [(s.nvPage page, q)] } } : State).nvDevice (256 * page)
    ((List.range 256).map fun i => s.nvmByte (s.nvAddr (256 * page + i)))

theorem State.pageMapped_nv (s : State) (page q : Nat) : (s.pageMapped page q).nv =
    { s.nv with relocs := s.nv.relocs ++ [(s.nvPage page, q)], run := (s.pageMapped page q).nv.run } := State.nvDevice_nv _ _ _

theorem State.pageMapped_work (s : State) (page q : Nat) : StoreWork s (s.pageMapped page q) :=
  ((StoreWork.refl s).setNv _).trans (State.nvDevice_work _ _ _)

theorem State.pageMapped_regs (s : State) (page q : Nat) : (s.pageMapped page q).regs = s.regs := State.nvDevice_regs _ _ _

theorem State.pageMapped_get (s : State) (page q : Nat) (f : Fld) : (s.pageMapped page q).get f = s.get f := by
  rw [State.get, State.reg, State.pageMapped_regs]; rfl

theorem State.pageMapped_winOpen (s : State) (page q n : Nat) : (s.pageMapped page q).winOpen n = s.winOpen n := by
  rw [State.winOpen, State.pageMapped_nv, (s.pageMapped_work page q).dt]
  rfl

/-- A move is counted, and one spare page fewer is left. -/
def State.pageCounted (s : State) (page q : Nat) : State :=
  ((s.pageMapped page q).bump F.NV_CNT_RELOC).put F.NV_SPARE_LEFT (126 - (s.pageMapped page q).nv.relocs.length)

theorem State.pageCounted_work (s : State) (page q : Nat) : StoreWork s (s.pageCounted page q) :=
  ((s.pageMapped_work page q).put _ _).put _ _

theorem State.pageCounted_sameRegs (s : State) (page q : Nat) : SameRegs [R.NV_CNT, R.NV_SPARE] s (s.pageCounted page q) :=
  (((SameRegs.refl _ s).of_regs (s.pageMapped_regs page q)).bump F.NV_CNT_RELOC (by simp)).put F.NV_SPARE_LEFT _ (by simp)

theorem State.pageCounted_count (s : State) (page q : Nat) :
    (s.pageCounted page q).get F.NV_CNT_RELOC = min (s.get F.NV_CNT_RELOC + 1) 65535 := by
  rw [State.pageCounted, State.get_put_disjoint _ _ _ _ (by simp), State.get_bump_self _ _ (by simp), State.pageMapped_get]
  rfl

theorem State.pageCounted_left (s : State) (page q : Nat) : (s.pageCounted page q).get F.NV_SPARE_LEFT = 125 - s.nv.relocs.length := by
  have hlen : (s.pageMapped page q).nv.relocs.length = s.nv.relocs.length + 1 := by rw [State.pageMapped_nv]; simp
  have hlt : 126 - (s.nv.relocs.length + 1) < 2 ^ F.NV_SPARE_LEFT.w := by simp only; omega
  rw [State.pageCounted, hlen, State.get_put_of_lt _ (by simp) hlt]
  omega

theorem State.relocate_moved {page q : Nat} (h0 : ((pageSlot page).all fun e => e.1 != 0) = true) (hq : s.sparePage = some q)
    (hl : s.nv.relocs.length < 126) :
    s.relocate page = ((s.pageCounted page q).persist 0).raise 47 .ce (detailWord 0xFF 0xFF 0x01C) := by
  have hnot : ¬ ((pageSlot page).any fun e => e.1 == 0) = true := by
    cases hp : pageSlot page with
    | none => simp
    | some e => simpa [hp] using h0
  rw [State.relocate, if_neg hnot, hq]
  exact if_neg (by omega)

theorem State.persist_relocs (s : State) (n : Nat) : (s.persist n).nv.relocs = s.nv.relocs := by
  rw [State.persist]
  split_ifs <;> rfl

theorem State.persist_work (s : State) (n : Nat) : StoreWork s (s.persist n) := by
  rw [State.persist]
  split_ifs
  · exact (StoreWork.refl s).putBit _ _ _
  · exact StoreWork.refl s
  · exact (StoreWork.refl s).setNv _

/-- Whether a window is open rests on the windows and the clock. -/
theorem State.winOpen_congr (hnv : t.nv = s.nv) (hdt : t.dt = s.dt) (n : Nat) : t.winOpen n = s.winOpen n := by
  rw [State.winOpen, State.winOpen, hnv, hdt]

theorem State.pageCounted_winOpen (s : State) (page q n : Nat) : (s.pageCounted page q).winOpen n = s.winOpen n := by
  rw [← s.pageMapped_winOpen page q n]
  refine State.winOpen_congr ?_ ?_ n
  · rw [State.pageCounted, State.put_nv, State.bump_nv]
  · rw [State.pageCounted, State.put_dt, State.bump_dt]

/-- With the Churn idle, no software write and no interlock, the page is moved at once and RMAP's persist asked for. -/
theorem State.relocAsk_moved {page q : Nat} (hr : s.churnRun = []) (hq : s.churnQueue = []) (hw : s.nv.wr = none) (hwait : s.nv.wait = [])
    (hl : s.nvLocked = false) (h0 : ((pageSlot page).all fun e => e.1 != 0) = true) (hspare : s.sparePage = some q)
    (hfree : s.nv.relocs.length < 126) :
    s.relocAsk page = ((((s.granted .m9r (pageRing page)).pageCounted page q).persist 0).raise 47 .ce
      (detailWord 0xFF 0xFF 0x01C)).churnDone .m9r (pageRing page) := by
  have hlock : ¬ (s.granted .m9r (pageRing page)).nvLocked = true := by rw [(s.granted_alike .m9r (pageRing page)).nvLocked, hl]; simp
  rw [State.relocAsk_of_idle hr hq hw hwait, State.relocStart, if_neg hlock,
    State.relocate_moved (s := s.granted .m9r (pageRing page)) h0 hspare hfree]

/-! ### Reads through the window (R430, R433) -/

/-- A read lets the writes that run go on: what the controller holds, the NVM and the free values drawn are all that differs. -/
def WindowWork (s t : State) : Prop := t = { s with nvm := t.nvm, nv := t.nv, freeCnt := t.freeCnt }

theorem WindowWork.trans (h : WindowWork s t) (g : WindowWork t u) : WindowWork s u :=
  Eq.trans g (congrArg (fun x : State => { x with nvm := u.nvm, nv := u.nv, freeCnt := u.freeCnt }) h)

theorem WindowWork.regs (h : WindowWork s t) : t.regs = s.regs := by rw [WindowWork] at h; rw [h]

theorem WindowWork.inbox (h : WindowWork s t) : t.inbox = s.inbox := by rw [WindowWork] at h; rw [h]

/-- A software write that does not wait keeps its turn. -/
theorem State.nvTurn_of_free (h : (s.nv.wr.all fun w => !w.waits) = true) : s.nvTurn = s := by
  cases hw : s.nv.wr with
  | none => simp [State.nvTurn, State.nvBegin, hw]
  | some w => exact State.nvTurn_of_started hw (by simpa [hw] using h)

theorem State.nvOn_work (s : State) : WindowWork s s.nvOn ∧ s.nvOn.nvm = s.nvm ∧ s.nvOn.nv.wr = s.nv.wr := by
  rw [State.nvOn]
  split
  · exact ⟨Eq.refl _, rfl, rfl⟩
  · exact ⟨Eq.refl _, rfl, rfl⟩

theorem State.nvStep_of_none (h : s.nv.wr = none) : s.nvStep = s := by rw [State.nvStep, h]

theorem State.nvStep_work (s : State) : WindowWork s s.nvStep := by
  rw [State.nvStep]
  split
  · exact Eq.refl s
  · split
    · exact Eq.refl s
    · simp only [State.freshUpTo, State.fresh]
      rw [State.nvStore_eq]
      exact Eq.refl _

/-- The state in which a window read finds the store. -/
def State.nvReached (s : State) : State := s.nvOn.nvStep

theorem State.nvReached_work (s : State) : WindowWork s s.nvReached := (s.nvOn_work.1).trans (State.nvStep_work _)

theorem State.nvReached_nvm (h : s.nv.wr = none) : s.nvReached.nvm = s.nvm := by
  obtain ⟨-, hnvm, hwr⟩ := s.nvOn_work
  rw [State.nvReached, State.nvStep_of_none (hwr.trans h), hnvm]

/-- With no write under way, the store is found as it is. -/
theorem State.nvReached_of_idle (hruns : s.nvRuns = []) (hw : s.nv.wr = none) :
    s.nvReached = { s with nv := { s.nv with run := [] } } := by
  have hon : s.nvOn = { s with nv := { s.nv with run := [] } } := by simp [State.nvOn, hruns]
  rw [State.nvReached, hon, State.nvStep_of_none (by exact hw)]

/-- The word that a read of NVM address `a` finds. -/
def State.nvWord (s : State) (a : Nat) : Word :=
  BitVec.ofNat 32 (leNat ((List.range 4).map fun i => s.nvReached.nvSeen (s.nvReached.nvAddr (a / 4 * 4 + i))))

section
variable {p : Port} {off : Nat}

theorem nvWindowRead_ok (ha : s.access 0x38000 = true) (h : (s.nv.wr.all fun w => !w.waits) = true) :
    nvWindowRead p off .ok s = { s.nvReached with lastRead := (p, s.nvWord (s.windowAddr off)) } := by
  rw [nvWindowRead, State.whenever_pos _ _ _ ha, State.nvWindow, State.nvTurn_of_free h]
  rfl

theorem nvWindowRead_single (ha : s.access 0x38000 = true) (h : (s.nv.wr.all fun w => !w.waits) = true) :
    nvWindowRead p off .single s = { s.nvReached.bump F.NV_CNT_SECC with lastRead := (p, s.nvWord (s.windowAddr off)) } := by
  rw [nvWindowRead, State.whenever_pos _ _ _ ha, State.nvWindow, State.nvTurn_of_free h]
  rfl

theorem nvWindowRead_uncorrectable (ha : s.access 0x38000 = true) (h : (s.nv.wr.all fun w => !w.waits) = true) :
    nvWindowRead p off .uncorrectable s = { ((s.nvReached.freshUpTo 0xFFFFFFFF).2.put F.NV_STAT_RDERR 1).raise 47 .uc
      (detailWord 0xFF 25 0x008) with lastRead := (p, BitVec.ofNat 32 (s.nvReached.freshUpTo 0xFFFFFFFF).1) } := by
  rw [nvWindowRead, State.whenever_pos _ _ _ ha, State.nvWindow, State.nvTurn_of_free h]
  rfl

end

/-- NV_HOURS is derived at the read (R445), and is no word of a pair. -/
theorem State.readReg_nvHours {p : Port} {be : Nat} (ha : s.access R.NV_HOURS = true) (hb : be ≠ 0) :
    s.readReg p R.NV_HOURS be = (BitVec.ofNat 32 (s.nvSeconds / 3600), s) := by
  have hc : canonAddr (R.NV_HOURS / 4 * 4) = R.NV_HOURS := by decide
  simp only [State.readReg, hc, hb, ha]
  rfl

theorem exec_pairLoRead_nvHours {p : Port} {be : Fin 16} (ha : s.access R.NV_HOURS = true) (hb : be ≠ 0) :
    exec (.pairLoRead p R.NV_HOURS be) s = .next { s with lastRead := (p, BitVec.ofNat 32 (s.nvSeconds / 3600)) } := by
  refine congrArg Host.Outcome.next ?_
  rw [pairRead_of_up (State.up_of_access ha) (by decide), State.readReg_nvHours ha (Fin.val_ne_zero_iff.2 hb)]

end

end Sys2Proof.Machine
end

section
/-! PROOFS. The end of the NVM's interlock (R437): what persists and relocations that start with it leave as it was. -/

namespace Sys2Proof.Machine

/-- The registers that persists and relocations may change. -/
def deviceRegs : List Nat := [R.FC_LOGLOST, R.NV_DIRTY, R.NV_CNT, R.NV_SPARE, R.MC_STAT, R.MC_CNT]

/-- Persists and relocations with no interlock: they touch registers of the NVM and the Churn, the NVM and its controller, the fault inbox
and the Churn's lists. Staged records, a waiting INSTALL and the relocations that wait for the interlock stay as they are. -/
structure DeviceWork (s t : State) : Prop where
  frame : t = { s with regs := t.regs, nvm := t.nvm, inbox := t.inbox, nv := t.nv, churnRun := t.churnRun, churnQueue := t.churnQueue }
  regs : SameRegs deviceRegs s t
  counted : t.get F.FC_LOGLOST_STAGED = s.get F.FC_LOGLOST_STAGED
  staged : t.nv.staged = s.nv.staged
  install : t.nv.install = s.nv.install
  relocWait : t.nv.relocWait = s.nv.relocWait

/-- A request that can wait, of an activity whose repetition is merged: what it finds and what it leaves (R396). -/
theorem State.churnAsk_merging {a : Activity} (ha : sameAnswer a = .merged) (s : State) (res now : Nat) :
    s.churnAsk a res true now = (.merged, s) ∨
      (∃ l, s.churnAsk a res true now = (.queued, (({ s with churnQueue := l } : State).bump F.MC_CNT_QUEUED).syncChurn)) ∨
      ∃ l, s.churnAsk a res true now = (.granted, ({ s with churnRun := l } : State).syncChurn) := by
  rw [State.churnAsk]
  split
  · rw [ha]
    exact .inl rfl
  · split
    · exact .inr (.inl ⟨_, if_pos rfl⟩)
    · exact .inr (.inr ⟨_, rfl⟩)

namespace DeviceWork
variable {s t u : State}

theorem refl (s : State) : DeviceWork s s := ⟨rfl, SameRegs.refl _ s, rfl, rfl, rfl, rfl⟩

theorem trans (h : DeviceWork s t) (g : DeviceWork t u) : DeviceWork s u where
  frame := Eq.trans g.frame (congrArg (fun x : State =>
    { x with regs := u.regs, nvm := u.nvm, inbox := u.inbox, nv := u.nv, churnRun := u.churnRun, churnQueue := u.churnQueue }) h.frame)
  regs := h.regs.trans g.regs
  counted := g.counted.trans h.counted
  staged := g.staged.trans h.staged
  install := g.install.trans h.install
  relocWait := g.relocWait.trans h.relocWait

/-- The interlock is not among what changes. -/
theorem nvLocked (h : DeviceWork s t) : t.nvLocked = s.nvLocked := by
  simp only [State.nvLocked, State.flag, h.regs.get F.NV_STAT_ILK_TEMP (by decide), h.regs.get F.NV_STAT_ILK_SAG (by decide)]

/-- A field of one of those registers is set, but not the count of staged records. -/
theorem put (h : DeviceWork s t) (f : Fld) (v : Nat) (hf : f.addr ∈ deviceRegs)
    (hd : R.FC_LOGLOST = f.addr → 16 ≤ f.lo) : DeviceWork s (t.put f v) :=
  h.trans ⟨rfl, (SameRegs.refl _ t).put f v hf, State.get_put_disjoint t f _ v fun e => .inl (hd e), rfl, rfl, rfl⟩

theorem putBit (h : DeviceWork s t) (f : Fld) (i : Nat) (b : Bool) (hf : f.addr ∈ deviceRegs)
    (hd : R.FC_LOGLOST = f.addr → 16 ≤ f.lo) : DeviceWork s (t.putBit f i b) := h.put f _ hf hd

theorem bump (h : DeviceWork s t) (f : Fld) (hf : f.addr ∈ deviceRegs)
    (hd : R.FC_LOGLOST = f.addr → 16 ≤ f.lo) : DeviceWork s (t.bump f) := h.put f _ hf hd

theorem setNv (h : DeviceWork s t) {n : Nvm} (hs : n.staged = t.nv.staged) (hi : n.install = t.nv.install)
    (hw : n.relocWait = t.nv.relocWait) : DeviceWork s { t with nv := n } :=
  h.trans ⟨rfl, SameRegs.refl _ t, rfl, hs, hi, hw⟩

theorem raise (h : DeviceWork s t) (src : Nat) (cls : FaultClass) (d : Nat) : DeviceWork s (t.raise src cls d) :=
  h.trans ⟨rfl, SameRegs.refl _ t, rfl, rfl, rfl, rfl⟩

theorem setChurn (h : DeviceWork s t) (run queue : List Job) : DeviceWork s { t with churnRun := run, churnQueue := queue } :=
  h.trans ⟨rfl, SameRegs.refl _ t, rfl, rfl, rfl, rfl⟩

theorem syncChurn (h : DeviceWork s t) : DeviceWork s t.syncChurn :=
  (h.put F.MC_STAT_RUNNING _ (by decide) (by decide)).put F.MC_STAT_QUEUED _ (by decide) (by decide)

theorem churnDone (h : DeviceWork s t) (a : Activity) (res : Nat) : DeviceWork s (t.churnDone a res) := (h.setChurn _ _).syncChurn

/-- A device write. -/
theorem nvDevice (h : DeviceWork s t) (a : Nat) (bs : List Byte) : DeviceWork s (t.nvDevice a bs) := by
  have hw := t.nvDevice_work a bs
  refine h.trans ⟨?_, (SameRegs.refl _ t).of_regs (t.nvDevice_regs a bs), ?_, ?_, ?_, ?_⟩
  · rw [hw.inbox, hw.churnRun, hw.churnQueue]
    exact hw
  · rw [State.get, State.reg, State.nvDevice_regs]
    rfl
  all_goals rw [State.nvDevice_nv]

/-- A request of M9, whatever the answer. -/
theorem churnAsk (h : DeviceWork s t) {a : Activity} (ha : sameAnswer a = .merged) (res now : Nat) :
    DeviceWork s (t.churnAsk a res true now).2 := by
  obtain hx | ⟨l, hx⟩ | ⟨l, hx⟩ := t.churnAsk_merging ha res now
  · rw [hx]
    exact h
  · rw [hx]
    exact ((h.setChurn t.churnRun l).bump F.MC_CNT_QUEUED (by decide) (by decide)).syncChurn
  · rw [hx]
    exact (h.setChurn l t.churnQueue).syncChurn

/-! ### Persists -/

theorem slotWrite (h : DeviceWork s t) (n : Nat) : DeviceWork s (t.slotWrite n) := by
  rw [State.slotWrite]
  split
  · exact ((h.nvDevice _ _).setNv (by rfl) (by rfl) (by rfl)).putBit F.NV_DIRTY_RING _ _ (by decide) (by decide)
  · exact h

theorem persistNow (h : DeviceWork s t) (n : Nat) : DeviceWork s (t.persistNow n) := by
  have hreq : DeviceWork s { t with nv := { t.nv with req := t.nv.req.filter (· != n) } } := h.setNv rfl rfl rfl
  rw [State.persistNow]
  split
  · exact hreq.putBit F.NV_DIRTY_RING _ _ (by decide) (by decide)
  · exact hreq.slotWrite n

theorem nvWait (h : DeviceWork s t) (w : NvWork) : DeviceWork s (t.nvWait w) := h.setNv rfl rfl rfl

theorem persistRun (h : DeviceWork s t) (n : Nat) : DeviceWork s (t.persistRun n) := by
  rw [State.persistRun]
  split
  · exact h.nvWait _
  · exact (h.persistNow n).churnDone _ _

theorem persistAsk (h : DeviceWork s t) (n : Nat) : DeviceWork s (t.persistAsk n) := by
  rw [State.persistAsk]
  split
  · exact h
  · split
    · exact h.persistRun n
    · have hask := h.churnAsk (a := .m9p) rfl n t.dt
      split
      · next u hu =>
        rw [hu] at hask
        exact hask.persistRun n
      · next x u _ hu =>
        rw [hu] at hask
        exact hask.setNv rfl rfl rfl

theorem persist (h : DeviceWork s t) (n : Nat) : DeviceWork s (t.persist n) := by
  rw [State.persist]
  split
  · exact h.putBit F.NV_DIRTY_RING _ _ (by decide) (by decide)
  · split
    · exact h
    · exact h.setNv rfl rfl rfl

/-! ### Relocations -/

theorem pageDrop (h : DeviceWork s t) (page : Nat) : DeviceWork s (t.pageDrop page) := by
  rw [State.pageDrop]
  split
  · next n j _ =>
    have hdrop : DeviceWork s { t with nv := { t.nv with dropped := t.nv.dropped ++ [(n, j)] } } := h.setNv rfl rfl rfl
    simp only
    split
    · exact hdrop.putBit F.NV_DIRTY_RING _ _ (by decide) (by decide)
    · exact hdrop
  · exact h.bump F.FC_LOGLOST_LOST (by decide) (by decide)

theorem pageCounted (h : DeviceWork s t) (page q : Nat) : DeviceWork s (t.pageCounted page q) := by
  have hmap : DeviceWork s { t with nv := { t.nv with relocs := t.nv.relocs ++ [(t.nvPage page, q)] } } := h.setNv rfl rfl rfl
  exact ((hmap.nvDevice _ _).bump F.NV_CNT_RELOC (by decide) (by decide)).put F.NV_SPARE_LEFT _ (by decide) (by decide)

theorem relocate (h : DeviceWork s t) (page : Nat) : DeviceWork s (t.relocate page) := by
  rw [State.relocate]
  split
  · exact h.pageDrop page
  · have hlost : DeviceWork s ((t.pageDrop page).raise 47 .uc (detailWord 0xFF 0xFF 0x020)) := (h.pageDrop page).raise _ _ _
    split
    · exact hlost
    · next q _ =>
      split
      · exact hlost
      · exact ((h.pageCounted page q).persist 0).raise _ _ _

theorem relocStart (h : DeviceWork s t) (hl : s.nvLocked = false) (page : Nat) : DeviceWork s (t.relocStart page) := by
  rw [State.relocStart, if_neg (ne_true_of_eq_false (h.nvLocked.trans hl))]
  exact (h.relocate page).churnDone _ _

theorem relocRun (h : DeviceWork s t) (hl : s.nvLocked = false) (page : Nat) : DeviceWork s (t.relocRun page) := by
  rw [State.relocRun]
  split
  · exact h.nvWait _
  · exact h.relocStart hl page

theorem relocAsk (h : DeviceWork s t) (hl : s.nvLocked = false) (page : Nat) : DeviceWork s (t.relocAsk page) := by
  rw [State.relocAsk]
  split
  · exact h
  · split
    · exact h.relocRun hl page
    · have hask := h.churnAsk (a := .m9r) rfl (pageRing page) t.dt
      split
      · next u hu =>
        rw [hu] at hask
        exact hask.relocRun hl page
      · next x u _ hu =>
        rw [hu] at hask
        exact hask

/-! ### One after the other -/

theorem persistAll (h : DeviceWork s t) (n : Nat) (p : Nat → Bool) : DeviceWork s (t.forEach n p fun k x => x.persistAsk k) := by
  rw [State.forEach]
  induction List.range n generalizing t with
  | nil => exact h
  | cons k l ih =>
    rw [List.foldl_cons]
    split
    · exact ih (h.persistAsk k)
    · exact ih h

theorem relocAll (h : DeviceWork s t) (hl : s.nvLocked = false) (l : List Nat) :
    DeviceWork s (l.foldl (fun x page => x.relocAsk page) t) := by
  induction l generalizing t with
  | nil => exact h
  | cons page l ih => exact ih (h.relocAsk hl page)

end DeviceWork

end Sys2Proof.Machine
end

section
/-! PROOFS. The refusals of NV_CMD.WRITE (R431, R436), the end of the interlock (R437), and the statement on the window, slots and
relocations. -/

namespace Sys2Proof.Machine

section
variable {s : State}

/-! ### Refused writes -/

/-- The interlock is read from fields of NV_STAT that no write command sets. -/
theorem State.nvLocked_put (s : State) {f : Fld} (v : Nat) (hf : f.addr = R.NV_STAT → f.lo + f.w ≤ 29 ∨ f.lo = 31) :
    (s.put f v).nvLocked = s.nvLocked := by
  simp only [State.nvLocked, State.flag]
  rw [State.get_put_disjoint _ _ F.NV_STAT_ILK_TEMP _ fun e => ?_, State.get_put_disjoint _ _ F.NV_STAT_ILK_SAG _ fun e => ?_]
  · have := hf e.symm
    simp only
    omega
  · have := hf e.symm
    simp only
    omega

theorem State.get_of_flag {f : Fld} (hw : f.w = 1) (h : s.flag f = false) : s.get f = 0 := by
  have hlt := s.get_lt f
  rw [hw] at hlt
  have hne : s.get f ≠ 1 := by simpa [State.flag] using h
  omega

theorem exec_nvWrite_busy (ha : s.access R.NV_CMD = true) (hb : s.flag F.NV_STAT_BUSY = true) :
    exec .nvWrite s = .next (s.put F.NV_STAT_CMDREJ 1) := by
  show Host.Outcome.next (nvWrite s) = _
  rw [nvWrite, State.whenever_pos _ _ _ ha, if_pos hb]

theorem exec_nvWrite_protected (ha : s.access R.NV_CMD = true) (hb : s.flag F.NV_STAT_BUSY = false) (hp : s.get F.NV_WADDR_ADDR < 0x2C0000) :
    exec .nvWrite s = .next (((s.put F.NV_STAT_TRUNC 0).put F.NV_STAT_PROT_WR 1).put F.NV_STAT_RESULT 2) := by
  show Host.Outcome.next (nvWrite s) = _
  rw [nvWrite, State.whenever_pos _ _ _ ha, if_neg (ne_true_of_eq_false hb)]
  exact congrArg _ (if_pos hp)

theorem exec_nvWrite_locked (ha : s.access R.NV_CMD = true) (hb : s.flag F.NV_STAT_BUSY = false) (hu : 0x2C0000 ≤ s.get F.NV_WADDR_ADDR)
    (hl : s.nvLocked = true) (hr : s.nvRuns = []) :
    exec .nvWrite s = .next ((s.put F.NV_STAT_TRUNC 0).put F.NV_STAT_RESULT 3) := by
  have hstop : ((s.put F.NV_STAT_TRUNC 0).nvLocked && !(!(s.put F.NV_STAT_TRUNC 0).nvRuns.isEmpty)) = true := by
    have hruns : (s.put F.NV_STAT_TRUNC 0).nvRuns = [] := hr
    rw [s.nvLocked_put 0 (by simp), hl, hruns]
    rfl
  show Host.Outcome.next (nvWrite s) = _
  rw [nvWrite, State.whenever_pos _ _ _ ha, if_neg (ne_true_of_eq_false hb)]
  exact congrArg _ ((if_neg (by omega)).trans (if_pos hstop))

/-- A write that waited for device writes and comes to its turn under the interlock ends with 3. -/
theorem nvPageWriteDone_locked {w : NvWrite} (ok : Bool) (hw : s.nv.wr = some w) (hwait : s.nv.wait = []) (hwaits : w.waits = true)
    (hl : s.nvLocked = true) : nvPageWriteDone ok s = s.nvEnd 3 := by
  have hend : (s.nvEnd 3).nv.wait = [] := hwait
  have hbegin : s.nvBegin = s.nvEnd 3 := by simp [State.nvBegin, hw, hwaits, hl, State.nvGoOn_of_none hend]
  rw [nvPageWriteDone, hbegin]
  rfl

theorem nvPageWriteDone_none (ok : Bool) (hw : s.nv.wr = none) : nvPageWriteDone ok s = s := by
  have hbegin : s.nvBegin = s := by rw [State.nvBegin, hw]
  rw [nvPageWriteDone, hbegin, hw]

/-! ### The end of the interlock -/

/-- What the interlock's end may change. -/
def ClearWork (s t : State) : Prop :=
  t = { s with regs := t.regs, dt := t.dt, nvm := t.nvm, inbox := t.inbox, nv := t.nv, churnRun := t.churnRun, churnQueue := t.churnQueue }

namespace ClearWork
variable {t u : State}

theorem trans (h : ClearWork s t) (g : ClearWork t u) : ClearWork s u :=
  Eq.trans g (congrArg (fun x : State => { x with
    regs := u.regs, dt := u.dt, nvm := u.nvm, inbox := u.inbox, nv := u.nv, churnRun := u.churnRun, churnQueue := u.churnQueue }) h)

theorem ofStore (h : StoreWork s t) : ClearWork s t := by
  rw [ClearWork, h.dt, h.inbox, h.churnRun, h.churnQueue]
  exact h

theorem ofDevice (h : DeviceWork s t) : ClearWork s t := by
  have hdt : t.dt = s.dt := by rw [h.frame]
  rw [ClearWork, hdt]
  exact h.frame

theorem dram (h : ClearWork s t) : t.dram = s.dram := by rw [ClearWork] at h; rw [h]

theorem host (h : ClearWork s t) : t.host = s.host := by rw [ClearWork] at h; rw [h]

theorem mode (h : ClearWork s t) : t.mode = s.mode := by rw [ClearWork] at h; rw [h]

end ClearWork

/-- The staged records are written. -/
def State.unstaged (s : State) (d : Nat) : State := (s.at d).logFlush

/-- No relocation waits for the interlock any more, and no INSTALL. -/
def State.released (s : State) : State := { s with nv := { s.nv with install := false, relocWait := [] } }

theorem nvInterlockClear_eq {d : Nat} (hup : s.up = true) (hl : s.nvLocked = false) : nvInterlockClear d s =
    ((s.unstaged d).forEach 21 (fun n => bit ((s.unstaged d).get F.NV_DIRTY_RING) n) fun n x => x.persistAsk n).nv.relocWait.foldl
      (fun x page => x.relocAsk page)
      ((s.unstaged d).forEach 21 (fun n => bit ((s.unstaged d).get F.NV_DIRTY_RING) n) fun n x => x.persistAsk n).released := by
  rw [nvInterlockClear, State.whenever_pos _ _ _ (by simp [hup, hl])]
  rfl

theorem State.unstaged_work (s : State) (d : Nat) : ClearWork s (s.unstaged d) :=
  ClearWork.trans (t := s.at d) (Eq.refl _) (ClearWork.ofStore (s.at d).logFlush_work)

theorem State.released_work (s : State) : ClearWork s s.released := Eq.refl _

/-- With no dirty ring and no relocation that waits, the staged records are all that is written. -/
theorem nvInterlockClear_of_clean {d : Nat} (hup : s.up = true) (hl : s.nvLocked = false) (hd : s.get F.NV_DIRTY_RING = 0)
    (hw : s.nv.relocWait = []) : nvInterlockClear d s = (s.unstaged d).released := by
  have hdirty : (s.unstaged d).get F.NV_DIRTY_RING = 0 := ((s.at d).logFlush_sameRegs.get F.NV_DIRTY_RING (by decide)).trans hd
  have hnone : ∀ f, (s.unstaged d).forEach 21 (fun n => bit ((s.unstaged d).get F.NV_DIRTY_RING) n) f = s.unstaged d := fun f => by
    rw [State.forEach, hdirty]
    simp [bit]
  have hwait : (s.unstaged d).nv.relocWait = [] := by rw [State.unstaged, State.logFlush_nv]; exact hw
  rw [nvInterlockClear_eq hup hl, hnone, hwait]
  rfl

/-- What starts at the interlock's end is work that no interlock keeps. -/
theorem nvInterlockClear_work {d : Nat} (hup : s.up = true) (hl : s.nvLocked = false) :
    ∃ x, DeviceWork (s.unstaged d) x ∧ DeviceWork x.released (nvInterlockClear d s) := by
  have hfree : (s.unstaged d).nvLocked = false := by
    rw [← hl]
    simp only [State.nvLocked, State.flag, State.unstaged, (s.at d).logFlush_sameRegs.get F.NV_STAT_ILK_TEMP (by decide),
      (s.at d).logFlush_sameRegs.get F.NV_STAT_ILK_SAG (by decide)]
    rfl
  have hdirty := (DeviceWork.refl (s.unstaged d)).persistAll 21 fun n => bit ((s.unstaged d).get F.NV_DIRTY_RING) n
  refine ⟨_, hdirty, ?_⟩
  rw [nvInterlockClear_eq hup hl]
  exact (DeviceWork.refl (State.released _)).relocAll (hdirty.nvLocked.trans hfree) _

end

/-! ### Persists and relocations that are asked for -/

theorem exec_slotPersist {n : Fin 21} {d : Nat} {s : State} (hup : s.up = true) (hreq : s.nv.req.contains n.val = true) :
    exec (.slotPersist n d) s = .next ((s.at d).persistAsk n) :=
  congrArg Host.Outcome.next (State.whenever_pos _ _ _ (by rw [hup, hreq]; rfl))

/-- The ring's window is over. -/
def State.windowClosed (s : State) (n : Nat) : State := { s with nv := { s.nv with win := s.nv.win.filter fun w => w.1 != n } }

theorem exec_persistWindowEnd {n : Fin 21} {d o : Nat} {s : State} (hup : s.up = true)
    (hwin : (s.nv.win.find? fun w => w.1 == n.val) = some (n.val, o)) (hover : o + 1000000000 ≤ d) :
    exec (.persistWindowEnd n d) s = .next (if bit (s.get F.NV_DIRTY_RING) n then ((s.windowClosed n).at d).persistAsk n
      else (s.windowClosed n).at d) := by
  show Host.Outcome.next (persistWindowEnd n d s) = _
  rw [persistWindowEnd, hwin]
  exact congrArg _ (State.whenever_pos _ _ _ (by simp [hup, hover]))

theorem State.windowClosed_winOpen (s : State) (n : Nat) : (s.windowClosed n).winOpen n = false := by
  simp only [State.winOpen, State.windowClosed, List.any_eq_false, List.mem_filter]
  rintro w ⟨-, hw⟩
  simp [bne_iff_ne.1 hw]

/-- The hour of the BOOT ring's persist is over. -/
def State.hourPassed (s : State) : State := { s with nv := { s.nv with lastHour := s.nv.lastHour + 3600000000000 } }

theorem exec_bootHourlyPersist {d : Nat} {s : State} (hup : s.up = true) (hdue : s.nv.lastHour + 3600000000000 ≤ d) :
    exec (.bootHourlyPersist d) s = .next ((s.at d).hourPassed.persistAsk 1) :=
  congrArg Host.Outcome.next (State.whenever_pos _ _ _ (by simp [hup, hdue]))

theorem exec_nvRelocation {page : Nat} {s : State} (hup : s.up = true) (hdev : devicePage (s.nvOwner page) = true) :
    exec (.nvRelocation page) s = .next (s.relocAsk (s.nvOwner page)) :=
  congrArg Host.Outcome.next (State.whenever_pos _ _ _ (by rw [hup, hdev]; rfl))

/-- A page moved under a grant: the counts, the entry of the page map, and RMAP's persist asked for. -/
def State.pagePersisted (s : State) (page q : Nat) : State := ((s.granted .m9r (pageRing page)).pageCounted page q).persist 0

theorem State.churnDone_nv (s : State) (a : Activity) (res : Nat) : (s.churnDone a res).nv = s.nv := rfl

theorem State.churnDone_inbox (s : State) (a : Activity) (res : Nat) : (s.churnDone a res).inbox = s.inbox := rfl

section
variable {s : State} {page q : Nat}

theorem State.pagePersisted_work (s : State) (page q : Nat) : StoreWork (s.granted .m9r (pageRing page)) (s.pagePersisted page q) :=
  (State.pageCounted_work _ page q).trans (State.persist_work _ 0)

theorem State.pagePersisted_sameRegs (s : State) (page q : Nat) :
    SameRegs [R.NV_CNT, R.NV_SPARE, R.NV_DIRTY, R.MC_STAT] (s.granted .m9r (pageRing page)) (s.pagePersisted page q) :=
  ((State.pageCounted_sameRegs _ page q).mono (by simp)).trans ((State.persist_sameRegs _ 0).mono (by simp))

theorem State.pagePersisted_relocs (s : State) (page q : Nat) :
    (s.pagePersisted page q).nv.relocs = s.nv.relocs ++ [(s.nvPage page, q)] := by
  rw [State.pagePersisted, State.persist_relocs]
  exact congrArg Nvm.relocs (State.pageMapped_nv (s.granted .m9r (pageRing page)) page q)

theorem State.pagePersisted_count (s : State) (page q : Nat) :
    (s.pagePersisted page q).get F.NV_CNT_RELOC = min (s.get F.NV_CNT_RELOC + 1) 65535 := by
  rw [State.pagePersisted, (State.persist_sameRegs _ 0).get F.NV_CNT_RELOC (by decide), State.pageCounted_count,
    (s.granted_alike .m9r (pageRing page)).get (by decide)]

theorem State.pagePersisted_left (s : State) (page q : Nat) :
    (s.pagePersisted page q).get F.NV_SPARE_LEFT = 125 - s.nv.relocs.length := by
  rw [State.pagePersisted, (State.persist_sameRegs _ 0).get F.NV_SPARE_LEFT (by decide), State.pageCounted_left]
  rfl

theorem State.pagePersisted_asks (s : State) (page q : Nat) :
    if s.winOpen 0 then bit ((s.pagePersisted page q).get F.NV_DIRTY_RING) 0 = true
    else (s.pagePersisted page q).nv.req.contains 0 = true := by
  have hasks := State.persist_asks ((s.granted .m9r (pageRing page)).pageCounted page q) (n := 0) (by decide)
  rw [State.pageCounted_winOpen, State.granted_winOpen] at hasks
  exact hasks

end

theorem reported_raise {s t : State} (h : t.inbox = s.inbox) (src : Nat) (cls : FaultClass) (d : Nat) :
    Reported src cls s (t.raise src cls d) := ⟨_, by rw [State.raise_inbox, h]⟩

/-- The move is reported, and the Churn is idle again. -/
def State.pageMoved (s : State) (page q : Nat) : State :=
  ((s.pagePersisted page q).raise 47 .ce (detailWord 0xFF 0xFF 0x01C)).churnDone .m9r (pageRing page)

section
variable {s : State} {page q : Nat}

theorem State.pageMoved_nv (s : State) (page q : Nat) : (s.pageMoved page q).nv = (s.pagePersisted page q).nv := by
  rw [State.pageMoved, State.churnDone_nv, State.raise_nv]

theorem State.pageMoved_get (s : State) (page q : Nat) {f : Fld} (hf : f.addr ≠ R.MC_STAT) :
    (s.pageMoved page q).get f = (s.pagePersisted page q).get f := by
  rw [State.pageMoved, State.churnDone_get _ _ _ hf, State.raise_get]

theorem State.pageMoved_reported (s : State) (page q : Nat) : Reported 47 .ce s (s.pageMoved page q) := by
  obtain ⟨d, hd⟩ := reported_raise (s.pagePersisted_work page q).inbox 47 .ce (detailWord 0xFF 0xFF 0x01C)
  refine ⟨d, ?_⟩
  rw [State.pageMoved, State.churnDone_inbox]
  exact hd

theorem State.pageMoved_sameRegs (s : State) (page q : Nat) :
    SameRegs [R.NV_CNT, R.NV_SPARE, R.NV_DIRTY, R.MC_STAT] s (s.pageMoved page q) :=
  ((s.pagePersisted_sameRegs page q).of_regs (State.raise_regs _ _ _ _)).done (by simp)

theorem State.pageMoved_frame (hr : s.churnRun = []) (hq : s.churnQueue = []) : s.pageMoved page q = { s with
    regs := (s.pageMoved page q).regs, nv := (s.pageMoved page q).nv
    nvm := (s.pageMoved page q).nvm, inbox := (s.pageMoved page q).inbox } := by
  have hwork := (s.pagePersisted_work page q).done hr hq
  have hraise : s.pageMoved page q = { (s.pagePersisted page q).churnDone .m9r (pageRing page) with
      inbox := (s.pageMoved page q).inbox } := rfl
  rw [hraise, hwork]

theorem exec_nvRelocation_moved (hup : s.up = true) (hdev : devicePage (s.nvOwner page) = true) (hr : s.churnRun = [])
    (hq : s.churnQueue = []) (hw : s.nv.wr = none) (hwait : s.nv.wait = []) (hl : s.nvLocked = false)
    (h0 : ((pageSlot (s.nvOwner page)).all fun e => e.1 != 0) = true) (hspare : s.sparePage = some q) (hfree : s.nv.relocs.length < 126) :
    exec (.nvRelocation page) s = .next (s.pageMoved (s.nvOwner page) q) := by
  rw [exec_nvRelocation hup hdev, State.relocAsk_moved hr hq hw hwait hl h0 hspare hfree]
  rfl

end

/-- Settles O49: a refused write leaves its flag or result, a read lets the running writes go on, the interlock's end starts what it kept,
and a persist or a relocation that finds the Churn idle is done at once. -/
theorem nvmWindowSlotsAndRelocation : Obligations.NvmWindowSlotsAndRelocation := by
  unfold Obligations.NvmWindowSlotsAndRelocation
  refine ⟨?_, ?_, ?_, ?_, ?_, ?_, ?_, ?_, ?_, ?_, ?_, ?_, ?_, ?_, ?_, ?_, ?_, ?_, ?_, ?_, ?_⟩
  case refine_1 =>
    intro s ha hb
    exact ⟨_, exec_nvWrite_busy ha hb, s.put_flag (f := F.NV_STAT_CMDREJ) (by simp) rfl⟩
  case refine_2 =>
    intro s ha hb hp
    refine ⟨_, exec_nvWrite_protected ha hb hp, ?_, State.get_put_of_lt _ (by simp) (by decide), ?_, ?_, rfl⟩
    · rw [State.get_put_disjoint _ _ _ _ (by simp)]
      exact State.get_put_of_lt _ (by simp) (by decide)
    · rw [State.get_put_disjoint _ _ _ _ (by simp), State.get_put_disjoint _ _ _ _ (by simp), State.get_put_disjoint _ _ _ _ (by simp)]
      exact State.get_of_flag rfl hb
    · exact (((SameRegs.refl _ s).put F.NV_STAT_TRUNC 0 (by simp)).put F.NV_STAT_PROT_WR 1 (by simp)).put F.NV_STAT_RESULT 2 (by simp)
  case refine_3 =>
    intro s ha hb hu hl hr
    refine ⟨_, exec_nvWrite_locked ha hb hu hl hr, State.get_put_of_lt _ (by simp) (by decide), ?_, ?_, rfl⟩
    · rw [State.get_put_disjoint _ _ _ _ (by simp), State.get_put_disjoint _ _ _ _ (by simp)]
      exact State.get_of_flag rfl hb
    · exact ((SameRegs.refl _ s).put F.NV_STAT_TRUNC 0 (by simp)).put F.NV_STAT_RESULT 3 (by simp)
  case refine_4 =>
    intro w s hw hwait hf
    refine ⟨_, congrArg Host.Outcome.next (nvPageWriteDone_of_free hw hwait hf false), State.nvEnd_result _ (by decide), State.nvEnd_busy _ _,
      reported_raise (s.nvWritten_work w 5).inbox _ _ _, s.nvWritten_nvm w 5, ?_, s.nvWritten_sameRegs w 5, ?_⟩
    · exact congrArg Nvm.wr (s.nvWritten_nv w 5)
    · exact congrArg (fun x : State => { x with inbox := ((s.nvWritten w 5).raise 47 .ce (detailWord 0xFF 20 0x008)).inbox })
        (s.nvWritten_work w 5)
  case refine_5 =>
    intro w ok s hw hwait hwaits hl
    exact ⟨_, congrArg Host.Outcome.next (nvPageWriteDone_locked ok hw hwait hwaits hl), State.nvEnd_result _ (by decide),
      State.nvEnd_busy _ _, rfl, s.nvEnd_sameRegs 3, rfl⟩
  case refine_6 =>
    intro ok s hw
    exact ⟨_, congrArg Host.Outcome.next (nvPageWriteDone_none ok hw), rfl⟩
  case refine_7 =>
    intro p off s ha hruns hw
    have hread := nvWindowRead_ok (p := p) (off := off) ha (by simp [hw])
    have hidle := State.nvReached_of_idle hruns hw
    refine ⟨_, congrArg Host.Outcome.next hread, ?_, ?_⟩
    · rw [State.nvWord, hidle]
      rfl
    · rw [hidle]
  case refine_8 =>
    intro p off s ha hfree
    have hwork := s.nvReached_work
    refine ⟨_, congrArg Host.Outcome.next (nvWindowRead_single ha hfree), rfl, ?_, ?_, ?_, ?_⟩
    · refine (State.get_bump_self s.nvReached F.NV_CNT_SECC (by simp)).trans ?_
      rw [State.get, State.reg, hwork.regs]
      rfl
    · exact ((SameRegs.refl _ s).of_regs hwork.regs).bump F.NV_CNT_SECC (by simp)
    · exact fun hw => State.nvReached_nvm hw
    · exact congrArg (fun x : State => { x with
        regs := (s.nvReached.bump F.NV_CNT_SECC).regs, lastRead := (p, s.nvWord (s.windowAddr off)) }) hwork
  case refine_9 =>
    intro p off s ha hfree
    have hwork := s.nvReached_work
    refine ⟨_, congrArg Host.Outcome.next (nvWindowRead_uncorrectable ha hfree), ?_, ?_, rfl, ?_, ?_, ?_⟩
    · exact State.get_put_of_lt (s.nvReached.freshUpTo 0xFFFFFFFF).2 (f := F.NV_STAT_RDERR) (by simp) (by decide)
    · exact ⟨_, congrArg (· ++ _) hwork.inbox⟩
    · exact ((SameRegs.refl _ s).of_regs (u := (s.nvReached.freshUpTo 0xFFFFFFFF).2) hwork.regs).put F.NV_STAT_RDERR 1 (by simp)
    · exact fun hw => State.nvReached_nvm hw
    · exact congrArg (fun x : State => { x with
        regs := ((s.nvReached.freshUpTo 0xFFFFFFFF).2.put F.NV_STAT_RDERR 1).regs, freeCnt := s.nvReached.freeCnt + 1
        inbox := (s.nvReached.raise 47 .uc (detailWord 0xFF 25 0x008)).inbox
        lastRead := (p, BitVec.ofNat 32 (s.nvReached.freshUpTo 0xFFFFFFFF).1) }) hwork
  case refine_10 =>
    intro d s hup hl hd hw
    have hnv : (s.unstaged d).released.nv = { s.nv with staged := [], install := false, run := (s.unstaged d).released.nv.run } := by
      simp only [State.released, State.unstaged]
      rw [State.logFlush_nv, ← hw]
      rfl
    refine ⟨_, congrArg Host.Outcome.next (nvInterlockClear_of_clean hup hl hd hw), hnv, ?_, ?_, ?_, ?_⟩
    · exact (s.at d).logFlush_staged
    · exact logPlaced_nvm_congr (s := s) (t := s.at d) rfl rfl s.nv.staged
    · exact (s.at d).logFlush_sameRegs
    · exact ((s.at d).logFlush_work).setNv _
  case refine_11 =>
    intro d s hup hl
    obtain ⟨x, hx, ht⟩ := nvInterlockClear_work (d := d) hup hl
    have hnv : (s.unstaged d).nv.staged = [] := by rw [State.unstaged, State.logFlush_nv]
    refine ⟨_, rfl, ?_, ht.install, ht.relocWait, ?_, ?_, ?_⟩
    · exact ht.staged.trans (hx.staged.trans hnv)
    · exact ht.counted.trans (hx.counted.trans (s.at d).logFlush_staged)
    · exact ((s.at d).logFlush_sameRegs.mono (by simp)).trans (hx.regs.trans ht.regs)
    · have hwork := (((s.unstaged_work d).trans (ClearWork.ofDevice hx)).trans x.released_work).trans (ClearWork.ofDevice ht)
      have hdt : (nvInterlockClear d s).dt = max s.dt d := by
        rw [ht.frame]
        exact (congrArg State.dt hx.frame).trans (s.at d).logFlush_work.dt
      refine ⟨hwork.dram, hwork.host, hwork.mode, hdt, ?_⟩
      rw [ClearWork, hdt] at hwork
      rw [hdt]
      exact hwork
  case refine_12 =>
    intro n d s hup hreq hr hq hl hw hwait hopen hdead hring hlen
    obtain ⟨hslot, hwork, hregs⟩ := State.persistAsk_written (s := s.at d) hr hq hw hwait n.isLt hring hopen hl hdead
    refine ⟨_, exec_slotPersist hup hreq, hslot.nvm, hslot.cur hlen, hslot.req, ?_, hslot.clean, ?_, hregs, hwork⟩
    · rw [hslot.win]
      simp
    · exact hwork.churnRun.trans hr
  case refine_13 =>
    intro n d s hup hreq hr hq hw hwait hstop
    obtain ⟨hdirty, hnv, hregs, hframe⟩ := State.persistAsk_refused (s := s.at d) hr hq hw hwait n.isLt hstop
    exact ⟨_, exec_slotPersist hup hreq, hdirty, hnv, hregs, hframe⟩
  case refine_14 =>
    intro n d w s hup hreq hr hq hw hnot
    have hask := State.persistAsk_waits (s := s.at d) hr hq hw hnot
    exact ⟨_, (exec_slotPersist hup hreq).trans (congrArg _ hask), rfl, rfl, (s.at d).granted_sameRegs .m9p n, rfl⟩
  case refine_15 =>
    intro n d o s hup hwin hover hclean
    refine ⟨(s.windowClosed n).at d, ?_, rfl, rfl⟩
    rw [exec_persistWindowEnd hup hwin hover, if_neg (ne_true_of_eq_false hclean)]
  case refine_16 =>
    intro n d o s hup hwin hover hdirty hl hdead hring hr hq hw hwait
    have halike : SlotAlike (s.at d) ((s.windowClosed n).at d) := ⟨rfl, SameRegs.refl _ _⟩
    obtain ⟨hslot, hwork, hregs⟩ := State.persistAsk_written (s := (s.windowClosed n).at d) hr hq hw hwait n.isLt hring
      ((s.at d).windowClosed_winOpen n) hl hdead
    refine ⟨((s.windowClosed n).at d).persistAsk n, ?_, ?_, hslot.clean, hslot.nvm.trans (halike.slotWrite_nvm n), hregs, ?_⟩
    · rw [exec_persistWindowEnd hup hwin hover, if_pos hdirty]
    · refine hslot.win.trans ?_
      simp [State.windowClosed, List.filter_filter]
    · exact StoreWork.trans (t := (s.windowClosed n).at d) (s := s.at d) rfl hwork
  case refine_17 =>
    intro d s hup hdue hr hq hw hwait hstop
    obtain ⟨hdirty, hnv, hregs, hframe⟩ := State.persistAsk_refused (s := (s.at d).hourPassed) (n := 1) hr hq hw hwait (by decide) hstop
    exact ⟨_, exec_bootHourlyPersist hup hdue, by rw [hnv]; rfl, hdirty, hregs, hframe⟩
  case refine_18 =>
    intro d s hup hdue hr hq hw hwait hl hopen hdead
    have halike : SlotAlike (s.at d) (s.at d).hourPassed := ⟨rfl, SameRegs.refl _ _⟩
    obtain ⟨hslot, hwork, hregs⟩ := State.persistAsk_written (s := (s.at d).hourPassed) (n := 1) hr hq hw hwait (by decide) (by decide)
      hopen hl hdead
    refine ⟨_, exec_bootHourlyPersist hup hdue, hslot.lastHour, hslot.nvm.trans (halike.slotWrite_nvm 1), ?_, hregs, ?_⟩
    · rw [hslot.win]
      simp [State.hourPassed]
    · exact StoreWork.trans (t := (s.at d).hourPassed) (s := s.at d) rfl hwork
  case refine_19 =>
    intro p be s ha hb
    exact ⟨_, exec_pairLoRead_nvHours ha hb, rfl, rfl⟩
  case refine_20 =>
    intro page q s hup hdev h0 hl hr hq hw hwait hspare hfree
    refine ⟨s.pageMoved (s.nvOwner page) q, exec_nvRelocation_moved hup hdev hr hq hw hwait hl h0 hspare hfree, ?_, ?_, ?_, ?_,
      s.pageMoved_reported _ q, s.pageMoved_sameRegs _ q, State.pageMoved_frame hr hq⟩
    · rw [State.pageMoved_nv]
      exact s.pagePersisted_relocs _ q
    · rw [State.pageMoved_get _ _ _ (by decide)]
      exact s.pagePersisted_count _ q
    · rw [State.pageMoved_get _ _ _ (by decide)]
      exact s.pagePersisted_left _ q
    · rw [State.pageMoved_get _ _ _ (by decide), State.pageMoved_nv]
      exact s.pagePersisted_asks _ q
  case refine_21 =>
    intro page s hup hdev hl hr hq hw hwait
    obtain ⟨hwaits, hnvm, hregs, hframe⟩ := State.relocAsk_locked (page := s.nvOwner page) hr hq hw hwait hl
    exact ⟨_, exec_nvRelocation hup hdev, hwaits, hnvm, hregs, hframe⟩

end Sys2Proof.Machine
end
